-- ==== Sys2Proof/Word.lean ====
section
/-! DEFINITION. The word types of the SKD4864. Arithmetic on them is Lean's own; bit fields are in Machine/Bits.lean. -/
namespace Sys2Proof

/-- A control-space register or a 32-bit word (R30). -/
abbrev Word := BitVec 32
/-- A byte of memory. -/
abbrev Byte := BitVec 8

end Sys2Proof
end

