-- ==== Sys2Proof/Config.lean ====
section
/-! DEFINITION. What the spec leaves open: opaque constants, of which nothing can be proved but that they exist. -/
namespace Sys2Proof

/-- The free value number `n` of a run: a value the spec leaves undefined, cut to the width that it is used at
(notes/assumptions/1.md). Nothing constrains it. -/
opaque Config.freeValue : Nat → Nat

/-- How far VFRCP and VFRSQ are from the exact result, for an operand pattern of a width, within the error that R301 states
(notes/assumptions/26.md). Nothing else constrains it. -/
opaque Config.approxError : Nat → Nat → Nat

/-- Bytes that a held entry takes in retention SRAM and in a commit group: 0 an AL value, 1 a checkpoint, 2 the ledger, 3 a
fault-log entry (notes/assumptions/10.md). -/
opaque Config.entryBytes : Nat → Nat

/-- CRC-32C of a commit group: its sequence number and its entries as numbers (R77, notes/assumptions/10.md). The spec gives no
layout of a group. -/
opaque Config.groupCrc : Nat → List Nat → BitVec 32

/-- The 16 check bits of a unit, from its channel address and its 256 data bits (R306, notes/assumptions/13.md): the spec names
the kind of code, not its matrix. -/
opaque Config.checkBits : Nat → Nat → Nat

/-- The hash of a 256-byte granule's number that spreads memory requests over the bridges (R12, notes/assumptions/72.md): the spec
does not give it. -/
opaque Config.granuleHash : Nat → Nat

/-- What the codec firmware of a release identifier puts into field i of its headers where R236 to R255 leave it open
(notes/assumptions/79.md). -/
opaque Config.codecHeader : Nat → Nat → Nat

/-- Where in a context's work area the codec keeps what R247 and R250 save there, and bytes whose format the spec does not give:
saved state and reference pictures (notes/assumptions/80.md). -/
opaque Config.workPlace : Nat → Nat
opaque Config.workBytes : Nat → List (BitVec 8)

/-- The QP that a picture coded at a QP in a number of bits would have needed for a target (R259, notes/assumptions/81.md). -/
opaque Config.qpNeeded : Nat → Nat → Nat → Nat
/-- The target of rows 0 to r of a picture without luma variance (R259, notes/assumptions/81.md). -/
opaque Config.flatTarget : Nat → Nat → Nat

/-- λ of a QP, and the bits of a motion vector of two components (R251, notes/assumptions/82.md). -/
opaque Config.searchLambda : Nat → Nat
opaque Config.mvBits : Int → Int → Nat

/-- The correction of the rate in force, in 2^-40, that the fixed integral gain of R407 gives for a measured offset in half
nanoseconds (notes/assumptions/14.md): the spec does not give the gain. -/
opaque Config.thetaGain : Int → Int

/-- The fused voltage in mV of a compute die (0 or 1) for its speed bin at an ENG frequency in 100 MHz
(notes/assumptions/15.md): the spec gives no table (R489). -/
opaque Config.fusedMv : Nat → Nat → Nat → Nat

end Sys2Proof
end

