-- ==== Sys2Proof/Machine/Bits.lean ====
section
/-! DEFINITION. Bit fields, sign extension, byte order, and the fields of registers with their access codes (Table 0-3). -/
namespace Sys2Proof.Machine

/-- Bits hi to lo of a number. -/
def bits (n hi lo : Nat) : Nat := (n >>> lo) % 2 ^ (hi + 1 - lo)
/-- Bit i of a number. -/
def bit (n i : Nat) : Bool := n.testBit i
/-- The mask of bits hi to lo. -/
def maskOf (hi lo : Nat) : Nat := (2 ^ (hi + 1 - lo) - 1) <<< lo
/-- A number with bits hi to lo replaced. -/
def putBits (n hi lo v : Nat) : Nat :=
  n - ((bits n hi lo) <<< lo) + ((v % 2 ^ (hi + 1 - lo)) <<< lo)
/-- The signed reading of the low w bits. -/
def toSigned (w n : Nat) : Int :=
  let m := n % 2 ^ w
  if m < 2 ^ (w - 1) then (m : Int) else (m : Int) - (2 ^ w : Nat)
/-- The low w bits of a signed number. -/
def ofSigned (w : Nat) (i : Int) : Nat := (i % (2 ^ w : Nat)).toNat
/-- One bit as a number. -/
def b2n (b : Bool) : Nat := if b then 1 else 0
/-- The word of a number. -/
def wd (n : Nat) : Word := BitVec.ofNat 32 n
/-- A count that saturates at 2^w - 1. -/
def sat (w n : Nat) : Nat := min n (2 ^ w - 1)
/-- a clamped to lo..hi. -/
def clampNat (lo hi a : Nat) : Nat := max lo (min hi a)
/-- a clamped to lo..hi, signed. -/
def clampInt (lo hi a : Int) : Int := max lo (min hi a)
/-- a divided by b, halves rounded up. -/
def divRound (a b : Nat) : Nat := (2 * a + b) / (2 * b)
/-- a divided by b, any remainder rounded up. -/
def divCeil (a b : Nat) : Nat := (a + b - 1) / b
/-- a / b rounded, halves away from zero. -/
def roundAway (a : Int) (b : Nat) : Int := if 0 ≤ a then (divRound a.toNat b : Nat) else -((divRound a.natAbs b : Nat) : Int)
/-- An arithmetic right shift that rounds halves up. -/
def roundShift (a : Int) (k : Nat) : Int := if k = 0 then a else (a + (2 ^ (k - 1) : Nat)) >>> k
/-- A little-endian number from bytes. -/
def leNat : List Byte → Nat
  | [] => 0
  | b :: t => b.toNat + 256 * leNat t
/-- A little-endian number of n bytes at offset o of a block. -/
def at' (p : List Byte) (o n : Nat) : Nat := leNat ((p.drop o).take n)
/-- The n low bytes of a number, lowest first. -/
def toBytes : Nat → Nat → List Byte
  | 0, _ => []
  | n + 1, v => BitVec.ofNat 8 v :: toBytes n (v / 256)
/-- The n low bytes of a number, highest first (network order). -/
def toBytesBE (n v : Nat) : List Byte := (toBytes n v).reverse
/-- a is earlier than b, both modulo 2^32 (R19, R120). -/
def earlier32 (a b : Nat) : Bool := (a + 2 ^ 32 - b % 2 ^ 32) % 2 ^ 32 ≥ 2 ^ 31

/-- A field of a register: the register's offset in its instance, and the bits. -/
structure Fld where
  off : Nat
  hi : Nat
  lo : Nat
  deriving DecidableEq, Repr

/-- The same field of a register at another offset. -/
def Fld.at (f : Fld) (off : Nat) : Fld := ⟨off, f.hi, f.lo⟩
/-- The same field in the k-th copy, copies `stride` bytes apart. -/
def Fld.nth (f : Fld) (stride k : Nat) : Fld := ⟨f.off + stride * k, f.hi, f.lo⟩
/-- The field's bits as a mask. -/
def Fld.mask (f : Fld) : Nat := maskOf f.hi f.lo

/-- The access codes of Table 0-3, in the combinations that the register maps use. -/
inductive Acc where
  | rw | ro | wo | w1c | w1s | rc | rwAl | rwLk | rwShAl
  deriving DecidableEq, Repr

/-- A field (or n copies of it, `stride` bytes apart) with its access code and reset value. -/
structure FieldRow where
  f : Fld
  n : Nat
  stride : Nat
  acc : Acc
  rst : Nat
  deriving DecidableEq, Repr

/-- Does a row have a copy in the register at this offset? -/
def FieldRow.covers (r : FieldRow) (off : Nat) : Bool :=
  if r.n = 1 then off = r.f.off
  else r.f.off ≤ off && (off - r.f.off) % r.stride = 0 && (off - r.f.off) / r.stride < r.n

end Sys2Proof.Machine
end

