-- ==== Sys2Proof/Machine/RegNames.lean ====
section
/-! DEFINITION. The registers and fields of every block by name (the register maps of spec/01-24): a register is its
offset in the instance, a field its offset and its bits. A register that a chapter repeats (by slot, layer, channel, lane)
is named once, at its first place. -/
namespace Sys2Proof.Machine

/-! ### BRG -/
abbrev BRG_STATUS : Nat := 0x000
abbrev BRG_STATUS_WORKING : Fld := ⟨0x000, 19, 16⟩
abbrev BRG_STATUS_RETIRED : Fld := ⟨0x000, 15, 8⟩
abbrev BRG_STATUS_UP : Fld := ⟨0x000, 7, 0⟩
abbrev BRG_EVT : Nat := 0x004
abbrev BRG_EVT_DIE_FAULT : Fld := ⟨0x004, 1, 1⟩
abbrev BRG_EVT_RETIRE : Fld := ⟨0x004, 0, 0⟩
abbrev BRG_REPLAY : Nat := 0x020
abbrev BRG_REPLAY_REPLAYS : Fld := ⟨0x020, 31, 16⟩
abbrev BRG_REPLAY_WINDOW : Fld := ⟨0x020, 4, 0⟩
abbrev BRG_LOAD : Nat := 0x040
abbrev BRG_LOAD_TO_HUB : Fld := ⟨0x040, 31, 16⟩
abbrev BRG_LOAD_TO_DIE : Fld := ⟨0x040, 15, 0⟩
abbrev BRG_C0 : Nat := 0x060
abbrev BRG_C0_C0_TO_HUB : Fld := ⟨0x060, 31, 16⟩
abbrev BRG_C0_C0_TO_DIE : Fld := ⟨0x060, 15, 0⟩

/-! ### FAB -/
abbrev C0_STREAM : Nat := 0x100
abbrev C0_STREAM_EN : Fld := ⟨0x100, 31, 31⟩
abbrev C0_STREAM_HEAD : Fld := ⟨0x100, 25, 24⟩
abbrev C0_STREAM_V : Fld := ⟨0x100, 19, 16⟩
abbrev C0_STREAM_STREAM_ID : Fld := ⟨0x100, 9, 0⟩
abbrev C0_LATMAX : Nat := 0x110
abbrev C0_LATMAX_LAT_MAX_NS : Fld := ⟨0x110, 31, 0⟩
abbrev C0_BOUND : Nat := 0x120
abbrev C0_BOUND_BOUND_NS : Fld := ⟨0x120, 31, 0⟩
abbrev C0_OVER : Nat := 0x130
abbrev C0_OVER_OVER_COUNT : Fld := ⟨0x130, 31, 0⟩
abbrev CLS_WEIGHT : Nat := 0x140
abbrev CLS_WEIGHT_W3 : Fld := ⟨0x140, 11, 8⟩
abbrev CLS_WEIGHT_W2 : Fld := ⟨0x140, 7, 4⟩
abbrev CLS_WEIGHT_W1 : Fld := ⟨0x140, 3, 0⟩

/-! ### ADV -/
abbrev ADV_STATUS : Nat := 0x000
abbrev ADV_STATUS_REC_ERRS : Fld := ⟨0x000, 31, 16⟩
abbrev ADV_STATUS_CAUSE : Fld := ⟨0x000, 15, 12⟩
abbrev ADV_STATUS_SLOW_FLASH : Fld := ⟨0x000, 11, 11⟩
abbrev ADV_STATUS_ALT_SLOT : Fld := ⟨0x000, 10, 10⟩
abbrev ADV_STATUS_SIG_OK : Fld := ⟨0x000, 9, 9⟩
abbrev ADV_STATUS_HOSTLOAD : Fld := ⟨0x000, 8, 8⟩
abbrev ADV_STATUS_SLOT : Fld := ⟨0x000, 7, 7⟩
abbrev ADV_STATUS_MAINT : Fld := ⟨0x000, 6, 6⟩
abbrev ADV_STATUS_PHASE : Fld := ⟨0x000, 2, 0⟩
abbrev ADV_HOSTADDR_LO : Nat := 0x008
abbrev ADV_HOSTADDR_LO_ADDR : Fld := ⟨0x008, 31, 0⟩
abbrev ADV_HOSTADDR_HI : Nat := 0x00C
abbrev ADV_HOSTADDR_HI_ADDR : Fld := ⟨0x00C, 31, 0⟩
abbrev ADV_SYSCFG : Nat := 0x020
abbrev ADV_SYSCFG_WAIT_MS : Fld := ⟨0x020, 31, 16⟩
abbrev ADV_SYSCFG_PARTNER_POSN : Fld := ⟨0x020, 15, 12⟩
abbrev ADV_SYSCFG_PAIR_EN : Fld := ⟨0x020, 8, 8⟩
abbrev ADV_SYSCFG_COUNT : Fld := ⟨0x020, 4, 0⟩
abbrev ADV_SYSID : Nat := 0x024
abbrev ADV_SYSID_PRESENT : Fld := ⟨0x024, 31, 16⟩
abbrev ADV_SYSID_PAIR_OK : Fld := ⟨0x024, 7, 7⟩
abbrev ADV_SYSID_LEADER : Fld := ⟨0x024, 6, 6⟩
abbrev ADV_SYSID_VALID : Fld := ⟨0x024, 5, 5⟩
abbrev ADV_SYSID_PKG_NUM : Fld := ⟨0x024, 3, 0⟩
abbrev ADV_STEW : Nat := 0x028
abbrev ADV_STEW_RUN : Fld := ⟨0x028, 7, 4⟩
abbrev ADV_STEW_FW_BAD : Fld := ⟨0x028, 3, 0⟩
abbrev ADV_STEW_FWID : Nat := 0x030
abbrev ADV_STEW_FWID_FW_ID : Fld := ⟨0x030, 31, 0⟩

/-! ### ALM -/
abbrev ALM_CTRL : Nat := 0x000
abbrev ALM_CTRL_DISCARD_AL : Fld := ⟨0x000, 1, 1⟩
abbrev ALM_CTRL_COMMIT : Fld := ⟨0x000, 0, 0⟩
abbrev ALM_STATUS : Nat := 0x004
abbrev ALM_STATUS_DROPPED : Fld := ⟨0x004, 31, 16⟩
abbrev ALM_STATUS_AL_DROPPED : Fld := ⟨0x004, 5, 5⟩
abbrev ALM_STATUS_EPOCH_NEW : Fld := ⟨0x004, 4, 4⟩
abbrev ALM_STATUS_HELD_LOST : Fld := ⟨0x004, 3, 3⟩
abbrev ALM_STATUS_HOLDING : Fld := ⟨0x004, 2, 2⟩
abbrev ALM_STATUS_EMPTY : Fld := ⟨0x004, 1, 1⟩
abbrev ALM_STATUS_ENABLED : Fld := ⟨0x004, 0, 0⟩
abbrev ALM_LEDGER : Nat := 0x040
abbrev ALM_LEDGER_MINUTES : Fld := ⟨0x040, 31, 0⟩

/-! ### CAMP -/
abbrev CAMP_CTRL : Nat := 0x000
abbrev CAMP_CTRL_PIPE_B : Fld := ⟨0x000, 22, 20⟩
abbrev CAMP_CTRL_PIPE : Fld := ⟨0x000, 18, 16⟩
abbrev CAMP_CTRL_TRAIN_MODE : Fld := ⟨0x000, 11, 10⟩
abbrev CAMP_CTRL_ODT : Fld := ⟨0x000, 9, 8⟩
abbrev CAMP_CTRL_FRAME_PAD : Fld := ⟨0x000, 6, 6⟩
abbrev CAMP_CTRL_LINE_PAD : Fld := ⟨0x000, 5, 5⟩
abbrev CAMP_CTRL_PACK : Fld := ⟨0x000, 4, 3⟩
abbrev CAMP_CTRL_GANG : Fld := ⟨0x000, 2, 1⟩
abbrev CAMP_CTRL_EN : Fld := ⟨0x000, 0, 0⟩
abbrev CAMP_SIZE : Nat := 0x004
abbrev CAMP_SIZE_HEIGHT : Fld := ⟨0x004, 31, 16⟩
abbrev CAMP_SIZE_WIDTH : Fld := ⟨0x004, 15, 0⟩
abbrev CAMP_PAD : Nat := 0x008
abbrev CAMP_PAD_PAD_BLACK : Fld := ⟨0x008, 15, 0⟩
abbrev CAMP_STREAM : Nat := 0x00C
abbrev CAMP_STREAM_STREAM_ID : Fld := ⟨0x00C, 9, 0⟩
abbrev CAMP_LTO : Nat := 0x010
abbrev CAMP_LTO_LINE_TIMEOUT : Fld := ⟨0x010, 19, 0⟩
abbrev CAMP_FDL : Nat := 0x014
abbrev CAMP_FDL_FRAME_DEADLINE : Fld := ⟨0x014, 23, 0⟩
abbrev CAMP_FRAME : Nat := 0x018
abbrev CAMP_FRAME_FRAME_NEXT : Fld := ⟨0x018, 31, 0⟩
abbrev CAMP_TRWORD : Nat := 0x01C
abbrev CAMP_TRWORD_TRAIN_WORD : Fld := ⟨0x01C, 31, 0⟩
abbrev CAMP_TRCTL : Nat := 0x020
abbrev CAMP_TRCTL_TRACK_OFFSET : Fld := ⟨0x020, 19, 16⟩
abbrev CAMP_TRCTL_MIN_EYE : Fld := ⟨0x020, 13, 8⟩
abbrev CAMP_TRCTL_START : Fld := ⟨0x020, 0, 0⟩
abbrev CAMP_TRFAIL : Nat := 0x024
abbrev CAMP_TRFAIL_FAIL_MASK : Fld := ⟨0x024, 31, 0⟩
abbrev CAMP_TAP : Nat := 0x02C
abbrev CAMP_TAP_WEAK : Fld := ⟨0x02C, 31, 31⟩
abbrev CAMP_TAP_EYE : Fld := ⟨0x02C, 21, 16⟩
abbrev CAMP_TAP_TAP : Fld := ⟨0x02C, 5, 0⟩
abbrev CAMP_STATUS : Nat := 0x030
abbrev CAMP_STATUS_LEADER : Fld := ⟨0x030, 19, 16⟩
abbrev CAMP_STATUS_MEMBER : Fld := ⟨0x030, 10, 10⟩
abbrev CAMP_STATUS_CFG_ERR : Fld := ⟨0x030, 9, 9⟩
abbrev CAMP_STATUS_OVERFLOW : Fld := ⟨0x030, 8, 8⟩
abbrev CAMP_STATUS_GANG_SKEW : Fld := ⟨0x030, 7, 7⟩
abbrev CAMP_STATUS_TRAIN_BUSY : Fld := ⟨0x030, 6, 6⟩
abbrev CAMP_STATUS_TRAIN_FAIL : Fld := ⟨0x030, 5, 5⟩
abbrev CAMP_STATUS_TRAINED : Fld := ⟨0x030, 4, 4⟩
abbrev CAMP_STATUS_CK_LOST : Fld := ⟨0x030, 3, 3⟩
abbrev CAMP_STATUS_NO_SIGNAL : Fld := ⟨0x030, 2, 2⟩
abbrev CAMP_STATUS_IN_FRAME : Fld := ⟨0x030, 1, 1⟩
abbrev CAMP_STATUS_ACTIVE : Fld := ⟨0x030, 0, 0⟩
abbrev CAMP_CNTA : Nat := 0x034
abbrev CAMP_CNTA_LONG_LINES : Fld := ⟨0x034, 31, 16⟩
abbrev CAMP_CNTA_SHORT_LINES : Fld := ⟨0x034, 15, 0⟩
abbrev CAMP_CNTB : Nat := 0x038
abbrev CAMP_CNTB_STRAY : Fld := ⟨0x038, 31, 16⟩
abbrev CAMP_CNTB_LINE_TIMEOUTS : Fld := ⟨0x038, 15, 0⟩
abbrev CAMP_CNTC : Nat := 0x03C
abbrev CAMP_CNTC_OVERFLOWS : Fld := ⟨0x03C, 31, 24⟩
abbrev CAMP_CNTC_LATE_FRAMES : Fld := ⟨0x03C, 23, 16⟩
abbrev CAMP_CNTC_LONG_FRAMES : Fld := ⟨0x03C, 15, 8⟩
abbrev CAMP_CNTC_SHORT_FRAMES : Fld := ⟨0x03C, 7, 0⟩
abbrev CAMP_FIFO : Nat := 0x040
abbrev CAMP_FIFO_HWM : Fld := ⟨0x040, 12, 8⟩
abbrev CAMP_FIFO_LEVEL : Fld := ⟨0x040, 4, 0⟩
abbrev CAMP_TFRAME : Nat := 0x048
abbrev CAMP_TFRAME_TFRAME_NS : Fld := ⟨0x048, 31, 0⟩
abbrev CAMP_TLINE : Nat := 0x044
abbrev CAMP_TLINE_TLINE_PS : Fld := ⟨0x044, 27, 0⟩
abbrev CAMP_FVTS_NS : Nat := 0x04C
abbrev CAMP_FVTS_NS_FV_NS : Fld := ⟨0x04C, 29, 0⟩
abbrev CAMP_FVTS_SEC : Nat := 0x050
abbrev CAMP_FVTS_SEC_FV_SEC : Fld := ⟨0x050, 31, 0⟩

/-! ### CAL -/
abbrev CAL_CTRL : Nat := 0x000
abbrev CAL_CTRL_MAX_RETRY : Fld := ⟨0x000, 11, 10⟩
abbrev CAL_CTRL_MISS_POLICY : Fld := ⟨0x000, 9, 9⟩
abbrev CAL_CTRL_TWC : Fld := ⟨0x000, 8, 6⟩
abbrev CAL_CTRL_K : Fld := ⟨0x000, 3, 2⟩
abbrev CAL_CTRL_EN : Fld := ⟨0x000, 0, 0⟩
abbrev CAL_TIMING : Nat := 0x004
abbrev CAL_TIMING_DL_GUARD : Fld := ⟨0x004, 27, 16⟩
abbrev CAL_TIMING_TRIG_LINES : Fld := ⟨0x004, 7, 0⟩
abbrev CAL_EXPOFS : Nat := 0x008
abbrev CAL_EXPOFS_EXP_OFFSET : Fld := ⟨0x008, 31, 0⟩
abbrev CAL_EIDX : Nat := 0x00C
abbrev CAL_EIDX_EIDX : Fld := ⟨0x00C, 7, 0⟩
abbrev CAL_ENTRY0 : Nat := 0x010
abbrev CAL_ENTRY0_WORD : Fld := ⟨0x010, 31, 0⟩
abbrev CAL_ENTRY1 : Nat := 0x014
abbrev CAL_ENTRY1_WORD : Fld := ⟨0x014, 31, 0⟩
abbrev CAL_ENTRY2 : Nat := 0x018
abbrev CAL_ENTRY2_WORD : Fld := ⟨0x018, 31, 0⟩
abbrev CAL_ENTRY3 : Nat := 0x01C
abbrev CAL_ENTRY3_WORD : Fld := ⟨0x01C, 31, 0⟩
abbrev CAL_WIDX : Nat := 0x020
abbrev CAL_WIDX_WIDX : Fld := ⟨0x020, 10, 0⟩
abbrev CAL_WDATA0 : Nat := 0x024
abbrev CAL_WDATA0_WORD : Fld := ⟨0x024, 31, 0⟩
abbrev CAL_WDATA1 : Nat := 0x028
abbrev CAL_WDATA1_WORD : Fld := ⟨0x028, 31, 0⟩
abbrev CAL_PIDX : Nat := 0x02C
abbrev CAL_PIDX_PIDX : Fld := ⟨0x02C, 11, 0⟩
abbrev CAL_PDATA : Nat := 0x030
abbrev CAL_PDATA_WORD : Fld := ⟨0x030, 31, 0⟩
abbrev CAL_STATUS : Nat := 0x034
abbrev CAL_STATUS_NO_TFRAME : Fld := ⟨0x034, 3, 3⟩
abbrev CAL_STATUS_MISS : Fld := ⟨0x034, 2, 2⟩
abbrev CAL_STATUS_CFG_ERR : Fld := ⟨0x034, 1, 1⟩
abbrev CAL_STATUS_RUNNING : Fld := ⟨0x034, 0, 0⟩
abbrev CAL_INFORCE : Nat := 0x038
abbrev CAL_INFORCE_CAL_ID : Fld := ⟨0x038, 15, 0⟩
abbrev CAL_INFORCE_F : Nat := 0x03C
abbrev CAL_INFORCE_F_FRAME : Fld := ⟨0x03C, 31, 0⟩
abbrev CAL_MISS : Nat := 0x040
abbrev CAL_MISS_LAST_MISSED_ID : Fld := ⟨0x040, 15, 0⟩
abbrev CAL_CNT : Nat := 0x044
abbrev CAL_CNT_MISSES : Fld := ⟨0x044, 31, 16⟩
abbrev CAL_CNT_EXPIRED : Fld := ⟨0x044, 15, 8⟩
abbrev CAL_CNT_DUPS : Fld := ⟨0x044, 7, 0⟩
abbrev CAL_MID_NS : Nat := 0x048
abbrev CAL_MID_NS_MID_NS : Fld := ⟨0x048, 29, 0⟩
abbrev CAL_MID_SEC : Nat := 0x04C
abbrev CAL_MID_SEC_MID_SEC : Fld := ⟨0x04C, 31, 0⟩

/-! ### PIPE -/
abbrev FE_CTRL : Nat := 0x000
abbrev FE_CTRL_TNR_SLOT : Fld := ⟨0x000, 1, 0⟩
abbrev FE_TIDX : Nat := 0x004
abbrev FE_TIDX_SLOT : Fld := ⟨0x004, 25, 24⟩
abbrev FE_TIDX_TABLE : Fld := ⟨0x004, 23, 21⟩
abbrev FE_TIDX_BANK : Fld := ⟨0x004, 20, 20⟩
abbrev FE_TIDX_INDEX : Fld := ⟨0x004, 15, 0⟩
abbrev FE_TDATA : Nat := 0x008
abbrev FE_TDATA_DATA : Fld := ⟨0x008, 31, 0⟩
abbrev FE_REFBUF : Nat := 0x00C
abbrev FE_REFBUF_DROPS : Fld := ⟨0x00C, 31, 16⟩
abbrev FE_REFBUF_HWM : Fld := ⟨0x00C, 14, 8⟩
abbrev FE_REFBUF_LEVEL : Fld := ⟨0x00C, 6, 0⟩
abbrev FE_REF_BASE0 : Nat := 0x010
abbrev FE_REF_BASE0_ADDR : Fld := ⟨0x010, 31, 0⟩
abbrev FE_REF_BASE1 : Nat := 0x014
abbrev FE_REF_BASE1_ADDR : Fld := ⟨0x014, 31, 0⟩
abbrev FE_TNR_STAT : Nat := 0x01C
abbrev FE_TNR_STAT_FALLBACK_LINES : Fld := ⟨0x01C, 31, 16⟩
abbrev FE_TNR_STAT_POISON_LINES : Fld := ⟨0x01C, 15, 0⟩
abbrev FE_SCTRL : Nat := 0x040
abbrev FE_SCTRL_TBANK : Fld := ⟨0x040, 24, 24⟩
abbrev FE_SCTRL_WB_EN : Fld := ⟨0x040, 22, 22⟩
abbrev FE_SCTRL_LSC_EN : Fld := ⟨0x040, 21, 21⟩
abbrev FE_SCTRL_TNR_EN : Fld := ⟨0x040, 20, 20⟩
abbrev FE_SCTRL_SNR_EN : Fld := ⟨0x040, 19, 19⟩
abbrev FE_SCTRL_DDD_EN : Fld := ⟨0x040, 18, 18⟩
abbrev FE_SCTRL_DEF_EN : Fld := ⟨0x040, 17, 17⟩
abbrev FE_SCTRL_BL_EN : Fld := ⟨0x040, 16, 16⟩
abbrev FE_SCTRL_STREAM_ID : Fld := ⟨0x040, 9, 0⟩
abbrev FE_BL_RG : Nat := 0x044
abbrev FE_BL_RG_BL_G : Fld := ⟨0x044, 31, 16⟩
abbrev FE_BL_RG_BL_R : Fld := ⟨0x044, 15, 0⟩
abbrev FE_BL_BC : Nat := 0x048
abbrev FE_BL_BC_BL_C : Fld := ⟨0x048, 31, 16⟩
abbrev FE_BL_BC_BL_B : Fld := ⟨0x048, 15, 0⟩
abbrev FE_BL_IRP : Nat := 0x04C
abbrev FE_BL_IRP_PEDESTAL : Fld := ⟨0x04C, 27, 16⟩
abbrev FE_BL_IRP_BL_IR : Fld := ⟨0x04C, 15, 0⟩
abbrev FE_WB_RG : Nat := 0x050
abbrev FE_WB_RG_WB_G : Fld := ⟨0x050, 31, 16⟩
abbrev FE_WB_RG_WB_R : Fld := ⟨0x050, 15, 0⟩
abbrev FE_WB_BC : Nat := 0x054
abbrev FE_WB_BC_WB_C : Fld := ⟨0x054, 31, 16⟩
abbrev FE_WB_BC_WB_B : Fld := ⟨0x054, 15, 0⟩
abbrev FE_WB_IR : Nat := 0x058
abbrev FE_WB_IR_WB_IR : Fld := ⟨0x058, 15, 0⟩
abbrev FE_DEF : Nat := 0x05C
abbrev FE_DEF_DDD_K : Fld := ⟨0x05C, 23, 20⟩
abbrev FE_DEF_DEF_COUNT : Fld := ⟨0x05C, 16, 0⟩
abbrev FE_NR : Nat := 0x060
abbrev FE_NR_ALPHA_MAX : Fld := ⟨0x060, 23, 16⟩
abbrev FE_NR_GATE : Fld := ⟨0x060, 15, 8⟩
abbrev FE_NR_SNR_SCALE : Fld := ⟨0x060, 7, 0⟩
abbrev FE_CNT : Nat := 0x064
abbrev FE_CNT_DEF_CORR : Fld := ⟨0x064, 31, 16⟩
abbrev FE_CNT_DDD_CORR : Fld := ⟨0x064, 15, 0⟩
abbrev FE_CNT2 : Nat := 0x068
abbrev FE_CNT2_DEF_ORDER : Fld := ⟨0x068, 31, 16⟩
abbrev FE_CNT2_UNREPAIRED : Fld := ⟨0x068, 15, 0⟩
abbrev FE_SSTAT : Nat := 0x06C
abbrev FE_SSTAT_TBL_ERR : Fld := ⟨0x06C, 0, 0⟩

/-! ### MFE -/
abbrev MFE_CTRL : Nat := 0x000
abbrev MFE_CTRL_TILT_SIGN : Fld := ⟨0x000, 18, 18⟩
abbrev MFE_CTRL_PAN_SIGN : Fld := ⟨0x000, 17, 17⟩
abbrev MFE_CTRL_GM_EN : Fld := ⟨0x000, 16, 16⟩
abbrev MFE_CTRL_PROXY_MASK : Fld := ⟨0x000, 12, 8⟩
abbrev MFE_CTRL_EN : Fld := ⟨0x000, 0, 0⟩
abbrev MFE_AXES : Nat := 0x004
abbrev MFE_AXES_ZOOM_AXIS : Fld := ⟨0x004, 21, 16⟩
abbrev MFE_AXES_TILT_AXIS : Fld := ⟨0x004, 13, 8⟩
abbrev MFE_AXES_PAN_AXIS : Fld := ⟨0x004, 5, 0⟩
abbrev MFE_ZMIN : Nat := 0x008
abbrev MFE_ZMIN_ZMIN : Fld := ⟨0x008, 31, 0⟩
abbrev MFE_ZMAX : Nat := 0x00C
abbrev MFE_ZMAX_ZMAX : Fld := ⟨0x00C, 31, 0⟩
abbrev MFE_FIDX : Nat := 0x010
abbrev MFE_FIDX_FIDX : Fld := ⟨0x010, 5, 0⟩
abbrev MFE_FDATA : Nat := 0x014
abbrev MFE_FDATA_FOCAL : Fld := ⟨0x014, 19, 0⟩
abbrev MFE_LAMBDA : Nat := 0x018
abbrev MFE_LAMBDA_LAMBDA : Fld := ⟨0x018, 7, 0⟩
abbrev MFE_FLD_BASE0 : Nat := 0x01C
abbrev MFE_FLD_BASE0_ADDR : Fld := ⟨0x01C, 31, 0⟩
abbrev MFE_FLD_BASE1 : Nat := 0x020
abbrev MFE_FLD_BASE1_ADDR : Fld := ⟨0x020, 31, 0⟩
abbrev MFE_PRX_BASE0 : Nat := 0x024
abbrev MFE_PRX_BASE0_ADDR : Fld := ⟨0x024, 31, 0⟩
abbrev MFE_PRX_BASE1 : Nat := 0x028
abbrev MFE_PRX_BASE1_ADDR : Fld := ⟨0x028, 31, 0⟩
abbrev MFE_GM : Nat := 0x02C
abbrev MFE_GM_GY : Fld := ⟨0x02C, 31, 16⟩
abbrev MFE_GM_GX : Fld := ⟨0x02C, 15, 0⟩
abbrev MFE_CNT : Nat := 0x030
abbrev MFE_CNT_INCOMPLETE : Fld := ⟨0x030, 15, 0⟩
abbrev MFE_STATUS : Nat := 0x034
abbrev MFE_STATUS_FIELD_ERR : Fld := ⟨0x034, 1, 1⟩
abbrev MFE_STATUS_BUSY : Fld := ⟨0x034, 0, 0⟩

/-! ### PIPE -/
abbrev COL_TIDX : Nat := 0x100
abbrev COL_TIDX_SLOT : Fld := ⟨0x100, 31, 30⟩
abbrev COL_TIDX_TABLE : Fld := ⟨0x100, 29, 27⟩
abbrev COL_TIDX_BANK : Fld := ⟨0x100, 26, 26⟩
abbrev COL_TIDX_INDEX : Fld := ⟨0x100, 19, 0⟩
abbrev COL_TDATA : Nat := 0x104
abbrev COL_TDATA_DATA : Fld := ⟨0x104, 31, 0⟩
abbrev COL_LDADDR : Nat := 0x108
abbrev COL_LDADDR_ADDR : Fld := ⟨0x108, 31, 0⟩
abbrev COL_LDCTL : Nat := 0x10C
abbrev COL_LDCTL_GO : Fld := ⟨0x10C, 31, 31⟩
abbrev COL_LDCTL_LD_ERR : Fld := ⟨0x10C, 30, 30⟩
abbrev COL_LDCTL_COUNT : Fld := ⟨0x10C, 19, 0⟩
abbrev COL_SCTRL : Nat := 0x110
abbrev COL_SCTRL_HV_DROP : Fld := ⟨0x110, 31, 31⟩
abbrev COL_SCTRL_OUT_ERR : Fld := ⟨0x110, 30, 30⟩
abbrev COL_SCTRL_CFG_ERR : Fld := ⟨0x110, 29, 29⟩
abbrev COL_SCTRL_TBL_ERR : Fld := ⟨0x110, 28, 28⟩
abbrev COL_SCTRL_LUT_BANK : Fld := ⟨0x110, 25, 25⟩
abbrev COL_SCTRL_CRV_BANK : Fld := ⟨0x110, 24, 24⟩
abbrev COL_SCTRL_HV_EN : Fld := ⟨0x110, 21, 21⟩
abbrev COL_SCTRL_HV_TAP : Fld := ⟨0x110, 20, 20⟩
abbrev COL_SCTRL_IR_EXP : Fld := ⟨0x110, 19, 19⟩
abbrev COL_SCTRL_PRX_EN : Fld := ⟨0x110, 18, 18⟩
abbrev COL_SCTRL_BC_EN : Fld := ⟨0x110, 17, 17⟩
abbrev COL_SCTRL_WALL_WR : Fld := ⟨0x110, 16, 16⟩
abbrev COL_SCTRL_SHP_EN : Fld := ⟨0x110, 15, 15⟩
abbrev COL_SCTRL_POST_EN : Fld := ⟨0x110, 14, 14⟩
abbrev COL_SCTRL_LUT_EN : Fld := ⟨0x110, 13, 13⟩
abbrev COL_SCTRL_PRE_EN : Fld := ⟨0x110, 12, 12⟩
abbrev COL_SCTRL_CAM_EN : Fld := ⟨0x110, 11, 11⟩
abbrev COL_SCTRL_DM_EN : Fld := ⟨0x110, 10, 10⟩
abbrev MOS_D0 : Nat := 0x114
abbrev MOS_D0_CELLS_01 : Fld := ⟨0x114, 31, 0⟩
abbrev MOS_D1 : Nat := 0x118
abbrev MOS_D1_CELLS_23 : Fld := ⟨0x118, 31, 0⟩
abbrev MOS_CFG : Nat := 0x11C
abbrev MOS_CFG_IRR_EN : Fld := ⟨0x11C, 16, 16⟩
abbrev MOS_CFG_DM_THR : Fld := ⟨0x11C, 15, 8⟩
abbrev MOS_CFG_IR_PRESENT : Fld := ⟨0x11C, 6, 6⟩
abbrev MOS_CFG_GUIDE_C : Fld := ⟨0x11C, 5, 5⟩
abbrev MOS_CFG_P4 : Fld := ⟨0x11C, 4, 4⟩
abbrev MOS_CFG_PHASE_Y : Fld := ⟨0x11C, 3, 2⟩
abbrev MOS_CFG_PHASE_X : Fld := ⟨0x11C, 1, 0⟩
abbrev EXP_TRIM : Nat := 0x14C
abbrev EXP_TRIM_TRIM : Fld := ⟨0x14C, 21, 0⟩
abbrev SHP_CFG : Nat := 0x150
abbrev SHP_CFG_LIMIT : Fld := ⟨0x150, 23, 16⟩
abbrev SHP_CFG_CORE : Fld := ⟨0x150, 15, 8⟩
abbrev SHP_CFG_AMOUNT : Fld := ⟨0x150, 7, 0⟩
abbrev OUT_CFG : Nat := 0x154
abbrev OUT_CFG_PRX_SCALE : Fld := ⟨0x154, 21, 20⟩
abbrev OUT_CFG_BC_FULL : Fld := ⟨0x154, 19, 19⟩
abbrev OUT_CFG_BC_TF : Fld := ⟨0x154, 18, 17⟩
abbrev OUT_CFG_BC_PRIM : Fld := ⟨0x154, 16, 16⟩
abbrev OUT_CFG_HV_RING : Fld := ⟨0x154, 9, 8⟩
abbrev OUT_CFG_IR_RING : Fld := ⟨0x154, 7, 6⟩
abbrev OUT_CFG_PRX_RING : Fld := ⟨0x154, 5, 4⟩
abbrev OUT_CFG_BC_RING : Fld := ⟨0x154, 3, 2⟩
abbrev OUT_CFG_WALL_RING : Fld := ⟨0x154, 1, 0⟩
abbrev WALL_BASE : Nat := 0x158
abbrev WALL_BASE_ADDR : Fld := ⟨0x158, 31, 0⟩
abbrev BC_BASE : Nat := 0x15C
abbrev BC_BASE_ADDR : Fld := ⟨0x15C, 31, 0⟩
abbrev PRX_BASE : Nat := 0x160
abbrev PRX_BASE_ADDR : Fld := ⟨0x160, 31, 0⟩
abbrev IR_BASE : Nat := 0x164
abbrev IR_BASE_ADDR : Fld := ⟨0x164, 31, 0⟩
abbrev HV_BASE : Nat := 0x168
abbrev HV_BASE_ADDR : Fld := ⟨0x168, 31, 0⟩
abbrev HV_THR : Nat := 0x16C
abbrev HV_THR_HI_THR : Fld := ⟨0x16C, 31, 16⟩
abbrev HV_THR_LO_THR : Fld := ⟨0x16C, 15, 0⟩

/-! ### HEAD -/
abbrev HEAD_CTRL : Nat := 0x000
abbrev HEAD_CTRL_EN : Fld := ⟨0x000, 31, 31⟩
abbrev HEAD_CTRL_LOCK_EN : Fld := ⟨0x000, 30, 30⟩
abbrev HEAD_CTRL_LOCK_PORT : Fld := ⟨0x000, 29, 26⟩
abbrev HEAD_CTRL_PL_BANK : Fld := ⟨0x000, 25, 25⟩
abbrev HEAD_SIZE : Nat := 0x004
abbrev HEAD_SIZE_RAS_H : Fld := ⟨0x004, 31, 16⟩
abbrev HEAD_SIZE_RAS_W : Fld := ⟨0x004, 15, 0⟩
abbrev HEAD_VT : Nat := 0x008
abbrev HEAD_VT_VT_MAX : Fld := ⟨0x008, 31, 16⟩
abbrev HEAD_VT_VT_MIN : Fld := ⟨0x008, 15, 0⟩
abbrev HEAD_VTNOM : Nat := 0x00C
abbrev HEAD_VTNOM_VT_NOM : Fld := ⟨0x00C, 15, 0⟩
abbrev HEAD_OLP : Nat := 0x010
abbrev HEAD_OLP_OL_PERIOD : Fld := ⟨0x010, 23, 0⟩
abbrev HEAD_WAIT : Nat := 0x014
abbrev HEAD_WAIT_WAIT_NS : Fld := ⟨0x014, 23, 0⟩
abbrev HEAD_BG0 : Nat := 0x018
abbrev HEAD_BG0_BG_C1 : Fld := ⟨0x018, 31, 16⟩
abbrev HEAD_BG0_BG_C0 : Fld := ⟨0x018, 15, 0⟩
abbrev HEAD_BG1 : Nat := 0x01C
abbrev HEAD_BG1_BG_C2 : Fld := ⟨0x01C, 15, 0⟩
abbrev HEAD_SID : Nat := 0x020
abbrev HEAD_SID_STREAM_ID : Fld := ⟨0x020, 9, 0⟩
abbrev HEAD_FREC_BASE : Nat := 0x024
abbrev HEAD_FREC_BASE_ADDR : Fld := ⟨0x024, 31, 0⟩
abbrev HEAD_FREC_CFG : Nat := 0x028
abbrev HEAD_FREC_CFG_FREC_EN : Fld := ⟨0x028, 4, 4⟩
abbrev HEAD_FREC_CFG_FREC_LOG2 : Fld := ⟨0x028, 3, 0⟩
abbrev HEAD_FILTIDX : Nat := 0x02C
abbrev HEAD_FILTIDX_INDEX : Fld := ⟨0x02C, 9, 0⟩
abbrev HEAD_FILTDATA : Nat := 0x030
abbrev HEAD_FILTDATA_COEF : Fld := ⟨0x030, 9, 0⟩
abbrev HEAD_PLIDX : Nat := 0x034
abbrev HEAD_PLIDX_INDEX : Fld := ⟨0x034, 14, 0⟩
abbrev HEAD_PLDATA : Nat := 0x038
abbrev HEAD_PLDATA_WORD : Fld := ⟨0x038, 31, 0⟩
abbrev LYR_CTRL : Nat := 0x040
abbrev LYR_CTRL_EN : Fld := ⟨0x040, 31, 31⟩
abbrev LYR_CTRL_TYPE : Fld := ⟨0x040, 30, 28⟩
abbrev LYR_CTRL_OPAQUE : Fld := ⟨0x040, 27, 27⟩
abbrev LYR_CTRL_VTAPS : Fld := ⟨0x040, 26, 25⟩
abbrev LYR_CTRL_HTAPS : Fld := ⟨0x040, 24, 23⟩
abbrev LYR_CTRL_VBANK : Fld := ⟨0x040, 22, 21⟩
abbrev LYR_CTRL_HBANK : Fld := ⟨0x040, 20, 19⟩
abbrev LYR_CTRL_GA : Fld := ⟨0x040, 18, 11⟩
abbrev LYR_CTRL_STREAM_ID : Fld := ⟨0x040, 9, 0⟩
abbrev LYR_SRC_XY : Nat := 0x044
abbrev LYR_SRC_XY_SRC_Y : Fld := ⟨0x044, 31, 16⟩
abbrev LYR_SRC_XY_SRC_X : Fld := ⟨0x044, 15, 0⟩
abbrev LYR_SRC_WH : Nat := 0x048
abbrev LYR_SRC_WH_SRC_H : Fld := ⟨0x048, 31, 16⟩
abbrev LYR_SRC_WH_SRC_W : Fld := ⟨0x048, 15, 0⟩
abbrev LYR_DST_XY : Nat := 0x04C
abbrev LYR_DST_XY_DST_Y : Fld := ⟨0x04C, 31, 16⟩
abbrev LYR_DST_XY_DST_X : Fld := ⟨0x04C, 15, 0⟩
abbrev LYR_DST_WH : Nat := 0x050
abbrev LYR_DST_WH_DST_H : Fld := ⟨0x050, 31, 16⟩
abbrev LYR_DST_WH_DST_W : Fld := ⟨0x050, 15, 0⟩
abbrev LYR_DESC : Nat := 0x054
abbrev LYR_DESC_ADDR : Fld := ⟨0x054, 31, 0⟩
abbrev HEAD_STATUS : Nat := 0x1C0
abbrev HEAD_STATUS_D_CLAMP : Fld := ⟨0x1C0, 9, 9⟩
abbrev HEAD_STATUS_ROT_OVF : Fld := ⟨0x1C0, 8, 8⟩
abbrev HEAD_STATUS_FREC_DROP : Fld := ⟨0x1C0, 7, 7⟩
abbrev HEAD_STATUS_PL_ERR : Fld := ⟨0x1C0, 6, 6⟩
abbrev HEAD_STATUS_TBL_ERR : Fld := ⟨0x1C0, 5, 5⟩
abbrev HEAD_STATUS_CFG_ERR : Fld := ⟨0x1C0, 4, 4⟩
abbrev HEAD_STATUS_FORCED : Fld := ⟨0x1C0, 3, 3⟩
abbrev HEAD_STATUS_LEAP : Fld := ⟨0x1C0, 2, 2⟩
abbrev HEAD_STATUS_LOCKED : Fld := ⟨0x1C0, 1, 1⟩
abbrev HEAD_STATUS_RUNNING : Fld := ⟨0x1C0, 0, 0⟩
abbrev HEAD_FRAME : Nat := 0x1C4
abbrev HEAD_FRAME_FRAME : Fld := ⟨0x1C4, 31, 0⟩
abbrev HEAD_FS_NS : Nat := 0x1C8
abbrev HEAD_FS_NS_FS_NS : Fld := ⟨0x1C8, 29, 0⟩
abbrev HEAD_FS_SEC : Nat := 0x1CC
abbrev HEAD_FS_SEC_FS_SEC : Fld := ⟨0x1CC, 31, 0⟩
abbrev HEAD_CNT : Nat := 0x1D0
abbrev HEAD_CNT_LEAP_FRAMES : Fld := ⟨0x1D0, 31, 16⟩
abbrev HEAD_CNT_FORCED_FRAMES : Fld := ⟨0x1D0, 15, 0⟩
abbrev HEAD_CNT2 : Nat := 0x1D4
abbrev HEAD_CNT2_EARLY : Fld := ⟨0x1D4, 31, 24⟩
abbrev HEAD_CNT2_DISCARDS : Fld := ⟨0x1D4, 23, 16⟩
abbrev HEAD_CNT2_WAIT_ROWS : Fld := ⟨0x1D4, 15, 0⟩
abbrev HEAD_LAST : Nat := 0x1D8
abbrev HEAD_LAST_UR_MASK : Fld := ⟨0x1D8, 31, 16⟩
abbrev HEAD_LAST_LEAP_LINES : Fld := ⟨0x1D8, 15, 0⟩
abbrev HEAD_GFV : Nat := 0x1DC
abbrev HEAD_GFV_G_NS : Fld := ⟨0x1DC, 23, 0⟩

/-! ### TCM -/
abbrev TCM_CTRL : Nat := 0x000
abbrev TCM_CTRL_EM_EN : Fld := ⟨0x000, 31, 31⟩
abbrev TCM_CTRL_CRV_BANK : Fld := ⟨0x000, 30, 30⟩
abbrev TCM_IDX : Nat := 0x004
abbrev TCM_IDX_TABLE : Fld := ⟨0x004, 31, 31⟩
abbrev TCM_IDX_INDEX : Fld := ⟨0x004, 17, 0⟩
abbrev TCM_DATA : Nat := 0x008
abbrev TCM_DATA_DATA : Fld := ⟨0x008, 31, 0⟩
abbrev TCM_EM_BASE : Nat := 0x00C
abbrev TCM_EM_BASE_ADDR : Fld := ⟨0x00C, 31, 0⟩
abbrev TCM_STATUS : Nat := 0x010
abbrev TCM_STATUS_PEND : Fld := ⟨0x010, 20, 16⟩
abbrev TCM_STATUS_TBL_ERR : Fld := ⟨0x010, 1, 1⟩
abbrev TCM_STATUS_EM_ACTIVE : Fld := ⟨0x010, 0, 0⟩
abbrev TCM_EMCNT : Nat := 0x014
abbrev TCM_EMCNT_FALLBACK_ROWS : Fld := ⟨0x014, 31, 16⟩
abbrev TCM_EMCNT_POISON_ROWS : Fld := ⟨0x014, 15, 0⟩
abbrev TCM_LDADDR : Nat := 0x018
abbrev TCM_LDADDR_ADDR : Fld := ⟨0x018, 31, 0⟩
abbrev TCM_LDCTL : Nat := 0x01C
abbrev TCM_LDCTL_GO : Fld := ⟨0x01C, 31, 31⟩
abbrev TCM_LDCTL_LD_ERR : Fld := ⟨0x01C, 30, 30⟩
abbrev TCM_LDCTL_COUNT : Fld := ⟨0x01C, 17, 0⟩

/-! ### PRD -/
abbrev PRD_CTRL : Nat := 0x000
abbrev PRD_CTRL_EN : Fld := ⟨0x000, 31, 31⟩
abbrev PRD_CTRL_RING : Fld := ⟨0x000, 30, 30⟩
abbrev PRD_CTRL_LANES : Fld := ⟨0x000, 29, 28⟩
abbrev PRD_CTRL_RATE : Fld := ⟨0x000, 27, 27⟩
abbrev PRD_CTRL_QUAD : Fld := ⟨0x000, 23, 20⟩
abbrev PRD_CTRL_SEG_MAX : Fld := ⟨0x000, 9, 0⟩
abbrev PRD_TAG : Nat := 0x004
abbrev PRD_TAG_TRUNK_TAG : Fld := ⟨0x004, 15, 0⟩
abbrev PRD_BEACON : Nat := 0x008
abbrev PRD_BEACON_BEACON_US : Fld := ⟨0x008, 6, 0⟩
abbrev PRD_STATUS : Nat := 0x00C
abbrev PRD_STATUS_CFG_ERR : Fld := ⟨0x00C, 10, 10⟩
abbrev PRD_STATUS_POLL_TIMEOUT : Fld := ⟨0x00C, 9, 9⟩
abbrev PRD_STATUS_POLL_DONE : Fld := ⟨0x00C, 8, 8⟩
abbrev PRD_STATUS_CENSUS_TIMEOUT : Fld := ⟨0x00C, 7, 7⟩
abbrev PRD_STATUS_CENSUS_MISMATCH : Fld := ⟨0x00C, 6, 6⟩
abbrev PRD_STATUS_CENSUS_DONE : Fld := ⟨0x00C, 5, 5⟩
abbrev PRD_STATUS_CENSUS_BUSY : Fld := ⟨0x00C, 4, 4⟩
abbrev PRD_STATUS_RING_BROKEN : Fld := ⟨0x00C, 3, 3⟩
abbrev PRD_STATUS_LOOP_OK : Fld := ⟨0x00C, 2, 2⟩
abbrev PRD_STATUS_RX_LOCK : Fld := ⟨0x00C, 1, 1⟩
abbrev PRD_STATUS_TX_ON : Fld := ⟨0x00C, 0, 0⟩
abbrev PRD_CENSUS : Nat := 0x010
abbrev PRD_CENSUS_START : Fld := ⟨0x010, 31, 31⟩
abbrev PRD_CENSUS_AUTO : Fld := ⟨0x010, 30, 30⟩
abbrev PRD_CENSUS_TIMEOUT_MS : Fld := ⟨0x010, 15, 0⟩
abbrev PRD_CENSUS_BASE : Nat := 0x014
abbrev PRD_CENSUS_BASE_ADDR : Fld := ⟨0x014, 31, 0⟩
abbrev PRD_CENSUS_CNT : Nat := 0x018
abbrev PRD_CENSUS_CNT_ENTRIES : Fld := ⟨0x018, 28, 16⟩
abbrev PRD_CENSUS_CNT_MISSING : Fld := ⟨0x018, 12, 0⟩
abbrev PRD_CENSUS_CNT2 : Nat := 0x01C
abbrev PRD_CENSUS_CNT2_UNEXPECTED : Fld := ⟨0x01C, 28, 16⟩
abbrev PRD_CENSUS_CNT2_DUPLICATE : Fld := ⟨0x01C, 12, 0⟩
abbrev PRD_CENSUS_CNT3 : Nat := 0x020
abbrev PRD_CENSUS_CNT3_ID_MISMATCH : Fld := ⟨0x020, 12, 0⟩
abbrev PRD_TCTL : Nat := 0x024
abbrev PRD_TCTL_GO : Fld := ⟨0x024, 31, 31⟩
abbrev PRD_TCTL_OP : Fld := ⟨0x024, 28, 28⟩
abbrev PRD_TCTL_ADDR : Fld := ⟨0x024, 15, 0⟩
abbrev PRD_TLEVEL : Nat := 0x028
abbrev PRD_TLEVEL_LEVEL : Fld := ⟨0x028, 15, 0⟩
abbrev PRD_REPLY0 : Nat := 0x02C
abbrev PRD_REPLY0_CRC_ERRS : Fld := ⟨0x02C, 31, 16⟩
abbrev PRD_REPLY0_STATUS : Fld := ⟨0x02C, 15, 0⟩
abbrev PRD_REPLY1 : Nat := 0x030
abbrev PRD_REPLY1_ID_LO : Fld := ⟨0x030, 31, 0⟩
abbrev PRD_REPLY2 : Nat := 0x034
abbrev PRD_REPLY2_ID_HI : Fld := ⟨0x034, 31, 0⟩
abbrev PRD_RXCNT : Nat := 0x038
abbrev PRD_RXCNT_CRC_ERR : Fld := ⟨0x038, 31, 16⟩
abbrev PRD_RXCNT_RELOCK : Fld := ⟨0x038, 15, 0⟩
abbrev PRD_TXCNT : Nat := 0x03C
abbrev PRD_TXCNT_PACKETS : Fld := ⟨0x03C, 31, 0⟩

/-! ### VCC -/
abbrev VCC_CTRL : Nat := 0x000
abbrev VCC_CTRL_EN : Fld := ⟨0x000, 0, 0⟩
abbrev VCC_FWID : Nat := 0x004
abbrev VCC_FWID_FW_ID : Fld := ⟨0x004, 31, 0⟩
abbrev VCC_STATUS : Nat := 0x008
abbrev VCC_STATUS_FAULT : Fld := ⟨0x008, 13, 13⟩
abbrev VCC_STATUS_CTX_VALID : Fld := ⟨0x008, 12, 12⟩
abbrev VCC_STATUS_CTX : Fld := ⟨0x008, 11, 6⟩
abbrev VCC_STATUS_DEPTH : Fld := ⟨0x008, 5, 4⟩
abbrev VCC_STATUS_FW_BAD : Fld := ⟨0x008, 2, 2⟩
abbrev VCC_STATUS_SP_RUN : Fld := ⟨0x008, 1, 1⟩
abbrev VCC_STATUS_BUSY : Fld := ⟨0x008, 0, 0⟩
abbrev VCC_LOAD : Nat := 0x00C
abbrev VCC_LOAD_CTUS : Fld := ⟨0x00C, 31, 0⟩
abbrev VCC_CTXBASE : Nat := 0x010
abbrev VCC_CTXBASE_ADDR : Fld := ⟨0x010, 31, 0⟩
abbrev VCC_CTXCMD : Nat := 0x014
abbrev VCC_CTXCMD_BUSY : Fld := ⟨0x014, 31, 31⟩
abbrev VCC_CTXCMD_CMD_LOST : Fld := ⟨0x014, 30, 30⟩
abbrev VCC_CTXCMD_OP : Fld := ⟨0x014, 27, 24⟩
abbrev VCC_CTXCMD_CTX : Fld := ⟨0x014, 5, 0⟩
abbrev VCC_CTXRES : Nat := 0x018
abbrev VCC_CTXRES_CTX : Fld := ⟨0x018, 13, 8⟩
abbrev VCC_CTXRES_CODE : Fld := ⟨0x018, 7, 0⟩
abbrev VCC_RUN_LO : Nat := 0x020
abbrev VCC_RUN_LO_RUN : Fld := ⟨0x020, 31, 0⟩
abbrev VCC_RUN_HI : Nat := 0x024
abbrev VCC_RUN_HI_RUN : Fld := ⟨0x024, 31, 0⟩
abbrev VCC_EVT_LO : Nat := 0x028
abbrev VCC_EVT_LO_EVT : Fld := ⟨0x028, 31, 0⟩
abbrev VCC_EVT_HI : Nat := 0x02C
abbrev VCC_EVT_HI_EVT : Fld := ⟨0x02C, 31, 0⟩
abbrev VCC_ERR_LO : Nat := 0x030
abbrev VCC_ERR_LO_ERR : Fld := ⟨0x030, 31, 0⟩
abbrev VCC_ERR_HI : Nat := 0x034
abbrev VCC_ERR_HI_ERR : Fld := ⟨0x034, 31, 0⟩
abbrev VCC_CNT : Nat := 0x038
abbrev VCC_CNT_PICTURES : Fld := ⟨0x038, 31, 16⟩
abbrev VCC_CNT_EXHAUSTED : Fld := ⟨0x038, 15, 0⟩
abbrev VCC_CNT2 : Nat := 0x03C
abbrev VCC_CNT2_ABANDONED : Fld := ⟨0x03C, 31, 16⟩
abbrev VCC_CNT2_NO_MFE : Fld := ⟨0x03C, 15, 0⟩
abbrev VCC_FLDCNT : Nat := 0x040
abbrev VCC_FLDCNT_FIELD_STALE : Fld := ⟨0x040, 31, 16⟩
abbrev VCC_FLDCNT_FIELD_BAD : Fld := ⟨0x040, 15, 0⟩
abbrev VDC_CNT : Nat := 0x080
abbrev VDC_CNT_PICTURES : Fld := ⟨0x080, 31, 16⟩
abbrev VDC_CNT_CONCEALED : Fld := ⟨0x080, 15, 0⟩
abbrev VDC_CNT2 : Nat := 0x084
abbrev VDC_CNT2_SUBSTITUTED : Fld := ⟨0x084, 31, 16⟩
abbrev VDC_CNT2_WATCHDOGS : Fld := ⟨0x084, 15, 0⟩
abbrev VDC_CNT3 : Nat := 0x088
abbrev VDC_CNT3_BOUND_ERRS : Fld := ⟨0x088, 31, 16⟩
abbrev VDC_CNT3_DROPPED : Fld := ⟨0x088, 15, 0⟩
abbrev VDC_ERR : Nat := 0x08C
abbrev VDC_ERR_CODE : Fld := ⟨0x08C, 31, 24⟩
abbrev VDC_ERR_NESTED : Fld := ⟨0x08C, 23, 23⟩
abbrev VDC_ERR_CTX : Fld := ⟨0x08C, 21, 16⟩
abbrev VDC_ERR_CTU : Fld := ⟨0x08C, 13, 0⟩
abbrev VDC_BADADDR_LO : Nat := 0x090
abbrev VDC_BADADDR_LO_ADDR : Fld := ⟨0x090, 31, 0⟩
abbrev VDC_BADADDR_HI : Nat := 0x094
abbrev VDC_BADADDR_HI_ADDR : Fld := ⟨0x094, 7, 0⟩
abbrev VDC_TEXP : Nat := 0x098
abbrev VDC_TEXP_CYCLES : Fld := ⟨0x098, 31, 0⟩
abbrev VDC_CLR : Nat := 0x09C
abbrev VDC_CLR_CLR : Fld := ⟨0x09C, 0, 0⟩

/-! ### ENG -/
abbrev ENG_CTRL : Nat := 0x000
abbrev ENG_CTRL_QUIESCE : Fld := ⟨0x000, 10, 10⟩
abbrev ENG_CTRL_GATE_EN : Fld := ⟨0x000, 9, 9⟩
abbrev ENG_CTRL_EN : Fld := ⟨0x000, 7, 0⟩
abbrev ENG_STATUS : Nat := 0x004
abbrev ENG_STATUS_FREQ : Fld := ⟨0x004, 31, 27⟩
abbrev ENG_STATUS_FAST : Fld := ⟨0x004, 26, 23⟩
abbrev ENG_STATUS_FW_BAD : Fld := ⟨0x004, 19, 19⟩
abbrev ENG_STATUS_QUIESCED : Fld := ⟨0x004, 18, 18⟩
abbrev ENG_STATUS_GATED : Fld := ⟨0x004, 17, 17⟩
abbrev ENG_STATUS_FAULT : Fld := ⟨0x004, 15, 8⟩
abbrev ENG_STATUS_BUSY : Fld := ⟨0x004, 7, 0⟩
abbrev ENG_FWID : Nat := 0x008
abbrev ENG_FWID_FW_ID : Fld := ⟨0x008, 31, 0⟩
abbrev ENG_FWADDR : Nat := 0x00C
abbrev ENG_FWADDR_ADDR : Fld := ⟨0x00C, 31, 0⟩
abbrev ENG_FWCTL : Nat := 0x010
abbrev ENG_FWCTL_GO : Fld := ⟨0x010, 31, 31⟩
abbrev ENG_FWCTL_LD_ERR : Fld := ⟨0x010, 30, 30⟩
abbrev ENG_QCFG : Nat := 0x014
abbrev ENG_QCFG_QEN : Fld := ⟨0x014, 19, 16⟩
abbrev ENG_QCFG_QLOG3_QLOG0 : Fld := ⟨0x014, 15, 0⟩
abbrev ENG_QBASE : Nat := 0x018
abbrev ENG_QBASE_ADDR : Fld := ⟨0x018, 31, 0⟩
abbrev ENG_QPTR : Nat := 0x028
abbrev ENG_QPTR_RD : Fld := ⟨0x028, 31, 16⟩
abbrev ENG_QPTR_WR : Fld := ⟨0x028, 15, 0⟩
abbrev ENG_EVT : Nat := 0x038
abbrev ENG_EVT_CMEM_ERR : Fld := ⟨0x038, 9, 9⟩
abbrev ENG_EVT_CDMA_ERR : Fld := ⟨0x038, 8, 8⟩
abbrev ENG_EVT_QERR : Fld := ⟨0x038, 7, 4⟩
abbrev ENG_EVT_JOB_DONE : Fld := ⟨0x038, 3, 0⟩
abbrev ENG_CNT : Nat := 0x03C
abbrev ENG_CNT_JOBS : Fld := ⟨0x03C, 31, 16⟩
abbrev ENG_CNT_JOB_ERRS : Fld := ⟨0x03C, 15, 0⟩

/-! ### DMC -/
abbrev DMC_CTRL : Nat := 0x000
abbrev DMC_CTRL_SCRUB_HOURS : Fld := ⟨0x000, 31, 24⟩
abbrev DMC_CTRL_RATE : Fld := ⟨0x000, 3, 0⟩
abbrev DMC_GEOM : Nat := 0x004
abbrev DMC_GEOM_RANKS : Fld := ⟨0x004, 8, 8⟩
abbrev DMC_GEOM_CAP : Fld := ⟨0x004, 4, 0⟩
abbrev DMC_CHCFG : Nat := 0x008
abbrev DMC_CHCFG_PAIR_USE : Fld := ⟨0x008, 23, 16⟩
abbrev DMC_CHCFG_PAIR_FAIL : Fld := ⟨0x008, 15, 8⟩
abbrev DMC_CHCFG_CHANNELS : Fld := ⟨0x008, 4, 0⟩
abbrev DMC_CH_MASK : Nat := 0x010
abbrev DMC_CH_MASK_MASK : Fld := ⟨0x010, 25, 0⟩
abbrev DMC_BANK_MASK : Nat := 0x020
abbrev DMC_BANK_MASK_MASK : Fld := ⟨0x020, 21, 0⟩
abbrev DMC_USABLE : Nat := 0x030
abbrev DMC_USABLE_MIB : Fld := ⟨0x030, 31, 0⟩
abbrev DMC_XLATE_LO : Nat := 0x034
abbrev DMC_XLATE_LO_ADDR : Fld := ⟨0x034, 31, 0⟩
abbrev DMC_XLATE_HI : Nat := 0x038
abbrev DMC_XLATE_HI_ADDR : Fld := ⟨0x038, 7, 0⟩
abbrev DMC_XLATE_RES0 : Nat := 0x03C
abbrev DMC_XLATE_RES0_CH : Fld := ⟨0x03C, 31, 28⟩
abbrev DMC_XLATE_RES0_SUB : Fld := ⟨0x03C, 27, 27⟩
abbrev DMC_XLATE_RES0_RANK : Fld := ⟨0x03C, 26, 26⟩
abbrev DMC_XLATE_RES0_BANK : Fld := ⟨0x03C, 25, 22⟩
abbrev DMC_XLATE_RES0_COL : Fld := ⟨0x03C, 21, 17⟩
abbrev DMC_XLATE_RES0_INVALID : Fld := ⟨0x03C, 0, 0⟩
abbrev DMC_XLATE_RES1 : Nat := 0x040
abbrev DMC_XLATE_RES1_ROW : Fld := ⟨0x040, 17, 0⟩
abbrev DMC_STATUS : Nat := 0x044
abbrev DMC_STATUS_FROZEN : Fld := ⟨0x044, 31, 16⟩
abbrev DMC_STATUS_DEGRADED : Fld := ⟨0x044, 15, 0⟩
abbrev DMC_EVT : Nat := 0x048
abbrev DMC_EVT_CFG_ERR : Fld := ⟨0x048, 2, 2⟩
abbrev DMC_EVT_FREEZE : Fld := ⟨0x048, 1, 1⟩
abbrev DMC_EVT_DEGRADE : Fld := ⟨0x048, 0, 0⟩

/-! ### DCH -/
abbrev DCH_STATUS : Nat := 0x000
abbrev DCH_STATUS_FROZEN : Fld := ⟨0x000, 7, 7⟩
abbrev DCH_STATUS_NESTED : Fld := ⟨0x000, 6, 6⟩
abbrev DCH_STATUS_DEGRADED : Fld := ⟨0x000, 5, 5⟩
abbrev DCH_STATUS_RETRAIN_FAIL : Fld := ⟨0x000, 4, 4⟩
abbrev DCH_STATUS_DERATE : Fld := ⟨0x000, 3, 3⟩
abbrev DCH_STATUS_EXCLUDED : Fld := ⟨0x000, 2, 2⟩
abbrev DCH_STATUS_TRAINED : Fld := ⟨0x000, 1, 1⟩
abbrev DCH_STATUS_IN_USE : Fld := ⟨0x000, 0, 0⟩
abbrev DCH_FOM : Nat := 0x004
abbrev DCH_FOM_FOM_MIN : Fld := ⟨0x004, 23, 16⟩
abbrev DCH_FOM_FOM_PASS : Fld := ⟨0x004, 15, 8⟩
abbrev DCH_FOM_FOM : Fld := ⟨0x004, 7, 0⟩
abbrev DCH_RETRAIN : Nat := 0x008
abbrev DCH_RETRAIN_PERIOD_MS : Fld := ⟨0x008, 15, 8⟩
abbrev DCH_RETRAIN_NOW : Fld := ⟨0x008, 0, 0⟩
abbrev DCH_TEMP : Nat := 0x00C
abbrev DCH_TEMP_MR4 : Fld := ⟨0x00C, 7, 0⟩
abbrev DCH_CECNT : Nat := 0x010
abbrev DCH_CECNT_LINK_CE : Fld := ⟨0x010, 31, 16⟩
abbrev DCH_CECNT_INLINE_CE : Fld := ⟨0x010, 15, 0⟩
abbrev DCH_CNT : Nat := 0x014
abbrev DCH_CNT_LINK_RETRY : Fld := ⟨0x014, 31, 16⟩
abbrev DCH_CNT_SCRUB_PASSES : Fld := ⟨0x014, 15, 0⟩
abbrev DCH_UE_ADDR_LO : Nat := 0x018
abbrev DCH_UE_ADDR_LO_ADDR : Fld := ⟨0x018, 31, 0⟩
abbrev DCH_UE_ADDR_HI : Nat := 0x01C
abbrev DCH_UE_ADDR_HI_ADDR : Fld := ⟨0x01C, 1, 0⟩
abbrev DCH_UE_INFO : Nat := 0x020
abbrev DCH_UE_INFO_CAUSE : Fld := ⟨0x020, 23, 20⟩
abbrev DCH_UE_INFO_CLASS : Fld := ⟨0x020, 19, 18⟩
abbrev DCH_UE_INFO_SYNDROME : Fld := ⟨0x020, 15, 0⟩
abbrev DCH_UE_SRC : Nat := 0x024
abbrev DCH_UE_SRC_NEST_COUNT : Fld := ⟨0x024, 31, 16⟩
abbrev DCH_UE_SRC_REQUESTER : Fld := ⟨0x024, 15, 0⟩
abbrev DCH_SNAPIDX : Nat := 0x028
abbrev DCH_SNAPIDX_INDEX : Fld := ⟨0x028, 8, 0⟩
abbrev DCH_SNAPDATA : Nat := 0x02C
abbrev DCH_SNAPDATA_WORD : Fld := ⟨0x02C, 31, 0⟩
abbrev DCH_DIAGADDR : Nat := 0x030
abbrev DCH_DIAGADDR_UNIT : Fld := ⟨0x030, 28, 0⟩
abbrev DCH_DIAGCTL : Nat := 0x034
abbrev DCH_DIAGCTL_GO : Fld := ⟨0x034, 31, 31⟩
abbrev DCH_DIAGCTL_DONE : Fld := ⟨0x034, 30, 30⟩
abbrev DCH_DIAGDATA : Nat := 0x038
abbrev DCH_DIAGDATA_DATA : Fld := ⟨0x038, 31, 0⟩
abbrev DCH_DIAGDATA8 : Nat := 0x058
abbrev DCH_DIAGDATA8_CHECK : Fld := ⟨0x058, 15, 0⟩
abbrev DCH_CLR : Nat := 0x05C
abbrev DCH_CLR_CLR : Fld := ⟨0x05C, 0, 0⟩
abbrev DCH_QLEVEL : Nat := 0x060
abbrev DCH_QLEVEL_WRQ : Fld := ⟨0x060, 31, 16⟩
abbrev DCH_QLEVEL_RDQ : Fld := ⟨0x060, 15, 0⟩

/-! ### DMA -/
abbrev DMA_CTRL : Nat := 0x000
abbrev DMA_CTRL_ARM : Fld := ⟨0x000, 31, 31⟩
abbrev DMA_CTRL_ABORT : Fld := ⟨0x000, 30, 30⟩
abbrev DMA_CTRL_DISARM : Fld := ⟨0x000, 29, 29⟩
abbrev DMA_CTRL_PAUSE : Fld := ⟨0x000, 28, 28⟩
abbrev DMA_STATUS : Nat := 0x004
abbrev DMA_STATUS_ERRADDR_HI : Fld := ⟨0x004, 31, 24⟩
abbrev DMA_STATUS_CAUSE : Fld := ⟨0x004, 19, 16⟩
abbrev DMA_STATUS_NESTED : Fld := ⟨0x004, 8, 8⟩
abbrev DMA_STATUS_CFG_ERR : Fld := ⟨0x004, 7, 7⟩
abbrev DMA_STATUS_SHADOW_FULL : Fld := ⟨0x004, 6, 6⟩
abbrev DMA_STATUS_STATE : Fld := ⟨0x004, 2, 0⟩
abbrev DMA_SRC_LO : Nat := 0x008
abbrev DMA_SRC_LO_SRC : Fld := ⟨0x008, 31, 0⟩
abbrev DMA_DST_LO : Nat := 0x00C
abbrev DMA_DST_LO_DST : Fld := ⟨0x00C, 31, 0⟩
abbrev DMA_ADDR_HI : Nat := 0x010
abbrev DMA_ADDR_HI_DST_HI : Fld := ⟨0x010, 23, 16⟩
abbrev DMA_ADDR_HI_SRC_HI : Fld := ⟨0x010, 7, 0⟩
abbrev DMA_ROWBYTES : Nat := 0x014
abbrev DMA_ROWBYTES_ROW_BYTES : Fld := ⟨0x014, 23, 0⟩
abbrev DMA_ROWS : Nat := 0x018
abbrev DMA_ROWS_CLASS1 : Fld := ⟨0x018, 31, 31⟩
abbrev DMA_ROWS_ROWS : Fld := ⟨0x018, 15, 0⟩
abbrev DMA_SSTRIDE : Nat := 0x01C
abbrev DMA_SSTRIDE_SRC_STRIDE : Fld := ⟨0x01C, 31, 0⟩
abbrev DMA_DSTRIDE : Nat := 0x020
abbrev DMA_DSTRIDE_DST_STRIDE : Fld := ⟨0x020, 31, 0⟩
abbrev DMA_ERRADDR : Nat := 0x024
abbrev DMA_ERRADDR_ERRADDR : Fld := ⟨0x024, 31, 0⟩

/-! ### DMAG -/
abbrev DMA_GCTL : Nat := 0x000
abbrev DMA_GCTL_PAUSE_ALL : Fld := ⟨0x000, 0, 0⟩
abbrev DMA_DONE : Nat := 0x004
abbrev DMA_DONE_DONE : Fld := ⟨0x004, 31, 0⟩
abbrev DMA_ERR : Nat := 0x008
abbrev DMA_ERR_ERR : Fld := ⟨0x008, 31, 0⟩
abbrev DMA_BUSY : Nat := 0x00C
abbrev DMA_BUSY_BUSY : Fld := ⟨0x00C, 31, 0⟩
abbrev DMA_DONE_EN : Nat := 0x010
abbrev DMA_DONE_EN_EN : Fld := ⟨0x010, 31, 0⟩
abbrev DMA_ERR_EN : Nat := 0x014
abbrev DMA_ERR_EN_EN : Fld := ⟨0x014, 31, 0⟩
abbrev DMA_VIEWSEL : Nat := 0x018
abbrev DMA_VIEWSEL_CH : Fld := ⟨0x018, 4, 0⟩
abbrev DMA_VIEW : Nat := 0x01C
abbrev DMA_VIEW_WORD : Fld := ⟨0x01C, 31, 0⟩
abbrev DMA_MOVED : Nat := 0x038
abbrev DMA_MOVED_KIB : Fld := ⟨0x038, 31, 0⟩

/-! ### NVT -/
abbrev NVT_CTRL : Nat := 0x000
abbrev NVT_CTRL_SSD_MASK : Fld := ⟨0x000, 7, 4⟩
abbrev NVT_CTRL_EN : Fld := ⟨0x000, 0, 0⟩
abbrev NVT_STATUS : Nat := 0x004
abbrev NVT_STATUS_SSD_COUNT : Fld := ⟨0x004, 7, 5⟩
abbrev NVT_STATUS_LABEL_ERR : Fld := ⟨0x004, 4, 4⟩
abbrev NVT_STATUS_HOLD_TEMP : Fld := ⟨0x004, 3, 3⟩
abbrev NVT_STATUS_STORE_STATE : Fld := ⟨0x004, 2, 0⟩
abbrev NVT_CACHE : Nat := 0x008
abbrev NVT_CACHE_CACHE_MIB : Fld := ⟨0x008, 13, 0⟩
abbrev NVT_CACHE_BASE : Nat := 0x00C
abbrev NVT_CACHE_BASE_ADDR : Fld := ⟨0x00C, 31, 0⟩
abbrev NVT_REPLAY_BASE : Nat := 0x010
abbrev NVT_REPLAY_BASE_ADDR : Fld := ⟨0x010, 31, 0⟩
abbrev NVT_REPLAY_LBAS : Nat := 0x014
abbrev NVT_REPLAY_LBAS_LBAS : Fld := ⟨0x014, 31, 0⟩
abbrev NVT_TIDX : Nat := 0x018
abbrev NVT_TIDX_INDEX : Fld := ⟨0x018, 7, 0⟩
abbrev NVT_TDATA : Nat := 0x01C
abbrev NVT_TDATA_WORD : Fld := ⟨0x01C, 31, 0⟩
abbrev NVT_TASK_RUN : Nat := 0x020
abbrev NVT_TASK_RUN_RUN : Fld := ⟨0x020, 15, 0⟩
abbrev NVT_EVT : Nat := 0x024
abbrev NVT_EVT_CFG_ERR : Fld := ⟨0x024, 4, 4⟩
abbrev NVT_EVT_TASK_ERR : Fld := ⟨0x024, 3, 3⟩
abbrev NVT_EVT_TASK_GAP : Fld := ⟨0x024, 2, 2⟩
abbrev NVT_EVT_SSD_FAIL : Fld := ⟨0x024, 1, 1⟩
abbrev NVT_EVT_DEFER : Fld := ⟨0x024, 0, 0⟩
abbrev NVT_CNT : Nat := 0x028
abbrev NVT_CNT_DEFERRED : Fld := ⟨0x028, 31, 16⟩
abbrev NVT_CNT_ABORTED : Fld := ⟨0x028, 15, 0⟩
abbrev NVT_DIRTY : Nat := 0x02C
abbrev NVT_DIRTY_MIB : Fld := ⟨0x02C, 31, 0⟩
abbrev NVT_STAGE_BASE : Nat := 0x030
abbrev NVT_STAGE_BASE_ADDR : Fld := ⟨0x030, 31, 0⟩

/-! ### NVH -/
abbrev NVH_CTRL : Nat := 0x000
abbrev NVH_CTRL_MAX_SPEED : Fld := ⟨0x000, 3, 1⟩
abbrev NVH_CTRL_EN : Fld := ⟨0x000, 0, 0⟩
abbrev NVH_STATUS : Nat := 0x004
abbrev NVH_STATUS_WIDTH : Fld := ⟨0x004, 11, 8⟩
abbrev NVH_STATUS_SPEED : Fld := ⟨0x004, 7, 5⟩
abbrev NVH_STATUS_INCOMPAT : Fld := ⟨0x004, 4, 4⟩
abbrev NVH_STATUS_STATE : Fld := ⟨0x004, 1, 0⟩
abbrev NVH_LBAS_LO : Nat := 0x008
abbrev NVH_LBAS_LO_LBAS : Fld := ⟨0x008, 31, 0⟩
abbrev NVH_LBAS_HI : Nat := 0x00C
abbrev NVH_LBAS_HI_LBAS : Fld := ⟨0x00C, 31, 0⟩
abbrev NVH_ERR : Nat := 0x010
abbrev NVH_ERR_NESTED : Fld := ⟨0x010, 31, 31⟩
abbrev NVH_ERR_CAUSE : Fld := ⟨0x010, 30, 28⟩
abbrev NVH_ERR_STATUS : Fld := ⟨0x010, 15, 0⟩
abbrev NVH_CNT : Nat := 0x014
abbrev NVH_CNT_RESETS : Fld := ⟨0x014, 31, 16⟩
abbrev NVH_CNT_TIMEOUTS : Fld := ⟨0x014, 15, 0⟩

/-! ### PCIE -/
abbrev PCIE_CTRL : Nat := 0x000
abbrev PCIE_CTRL_MAX_SPEED : Fld := ⟨0x000, 3, 1⟩
abbrev PCIE_CTRL_EN : Fld := ⟨0x000, 0, 0⟩
abbrev PCIE_STATUS : Nat := 0x004
abbrev PCIE_STATUS_WIDTH : Fld := ⟨0x004, 9, 6⟩
abbrev PCIE_STATUS_SPEED : Fld := ⟨0x004, 5, 3⟩
abbrev PCIE_STATUS_FLR_SEEN : Fld := ⟨0x004, 2, 2⟩
abbrev PCIE_STATUS_DL_UP : Fld := ⟨0x004, 0, 0⟩
abbrev PCIE_ID : Nat := 0x008
abbrev PCIE_ID_DEVICE_ID : Fld := ⟨0x008, 31, 16⟩
abbrev PCIE_ID_VENDOR_ID : Fld := ⟨0x008, 15, 0⟩
abbrev PCIE_BAR4 : Nat := 0x00C
abbrev PCIE_BAR4_BAR4_BASE : Fld := ⟨0x00C, 7, 0⟩
abbrev PCIE_AER : Nat := 0x010
abbrev PCIE_AER_UNCORR : Fld := ⟨0x010, 31, 16⟩
abbrev PCIE_AER_CORR : Fld := ⟨0x010, 15, 0⟩
abbrev PCIE_OB_LO : Nat := 0x040
abbrev PCIE_OB_LO_ADDR : Fld := ⟨0x040, 31, 12⟩
abbrev PCIE_OB_LO_V : Fld := ⟨0x040, 0, 0⟩
abbrev PCIE_OB_HI : Nat := 0x044
abbrev PCIE_OB_HI_ADDR : Fld := ⟨0x044, 31, 0⟩

/-! ### QUAD -/
abbrev QUAD_CTRL : Nat := 0x000
abbrev QUAD_CTRL_AUTO_VESPER : Fld := ⟨0x000, 11, 11⟩
abbrev QUAD_CTRL_RETRAIN : Fld := ⟨0x000, 10, 10⟩
abbrev QUAD_CTRL_SSC_EN : Fld := ⟨0x000, 9, 9⟩
abbrev QUAD_CTRL_LOOP : Fld := ⟨0x000, 7, 6⟩
abbrev QUAD_CTRL_PSTATE : Fld := ⟨0x000, 5, 4⟩
abbrev QUAD_CTRL_PROTO : Fld := ⟨0x000, 2, 0⟩
abbrev QUAD_STATUS : Nat := 0x004
abbrev QUAD_STATUS_USER : Fld := ⟨0x004, 11, 8⟩
abbrev QUAD_STATUS_CFG_ERR : Fld := ⟨0x004, 6, 6⟩
abbrev QUAD_STATUS_STATE : Fld := ⟨0x004, 5, 4⟩
abbrev QUAD_STATUS_PLL_LOCK : Fld := ⟨0x004, 0, 0⟩
abbrev QUAD_REF : Nat := 0x008
abbrev QUAD_REF_REF_MHZ : Fld := ⟨0x008, 0, 0⟩
abbrev QUAD_PRBS : Nat := 0x00C
abbrev QUAD_PRBS_EN : Fld := ⟨0x00C, 31, 31⟩
abbrev QUAD_PRBS_PATTERN : Fld := ⟨0x00C, 30, 29⟩
abbrev QUAD_PRBS_TRATE : Fld := ⟨0x00C, 26, 24⟩
abbrev QUAD_PRBS_LANES : Fld := ⟨0x00C, 3, 0⟩
abbrev LANE_TXEQ : Nat := 0x010
abbrev LANE_TXEQ_MAIN : Fld := ⟨0x010, 30, 24⟩
abbrev LANE_TXEQ_AMP : Fld := ⟨0x010, 18, 16⟩
abbrev LANE_TXEQ_POST : Fld := ⟨0x010, 12, 8⟩
abbrev LANE_TXEQ_PRE : Fld := ⟨0x010, 4, 0⟩
abbrev LANE_RX : Nat := 0x014
abbrev LANE_RX_ADAPT_EN : Fld := ⟨0x014, 31, 31⟩
abbrev LANE_RX_RX_INV : Fld := ⟨0x014, 30, 30⟩
abbrev LANE_RX_TX_INV : Fld := ⟨0x014, 29, 29⟩
abbrev LANE_RX_FOM_MIN : Fld := ⟨0x014, 23, 16⟩
abbrev LANE_RX_FOM_PASS : Fld := ⟨0x014, 15, 8⟩
abbrev LANE_STAT : Nat := 0x018
abbrev LANE_STAT_FOM : Fld := ⟨0x018, 31, 24⟩
abbrev LANE_STAT_CTLE : Fld := ⟨0x018, 23, 20⟩
abbrev LANE_STAT_RETRAIN_FAIL : Fld := ⟨0x018, 7, 7⟩
abbrev LANE_STAT_DEGRADED : Fld := ⟨0x018, 6, 6⟩
abbrev LANE_STAT_READY : Fld := ⟨0x018, 5, 5⟩
abbrev LANE_STAT_BLOCK_LOCK : Fld := ⟨0x018, 4, 4⟩
abbrev LANE_STAT_CDR_LOCK : Fld := ⟨0x018, 3, 3⟩
abbrev LANE_STAT_PSTATE : Fld := ⟨0x018, 1, 0⟩
abbrev LANE_CNT : Nat := 0x01C
abbrev LANE_CNT_ERRORS : Fld := ⟨0x01C, 31, 16⟩
abbrev LANE_CNT_RETRIES : Fld := ⟨0x01C, 15, 0⟩

/-! ### ADV -/
abbrev PRC_CTRL : Nat := 0x080
abbrev PRC_CTRL_EN : Fld := ⟨0x080, 0, 0⟩
abbrev PRC_STATUS : Nat := 0x084
abbrev PRC_STATUS_R_WIRING_ERR : Fld := ⟨0x084, 10, 10⟩
abbrev PRC_STATUS_R_LOST : Fld := ⟨0x084, 9, 9⟩
abbrev PRC_STATUS_R_UP : Fld := ⟨0x084, 8, 8⟩
abbrev PRC_STATUS_L_WIRING_ERR : Fld := ⟨0x084, 2, 2⟩
abbrev PRC_STATUS_L_LOST : Fld := ⟨0x084, 1, 1⟩
abbrev PRC_STATUS_L_UP : Fld := ⟨0x084, 0, 0⟩
abbrev PRC_NBR : Nat := 0x088
abbrev PRC_NBR_R_POSN : Fld := ⟨0x088, 15, 12⟩
abbrev PRC_NBR_R_PKG : Fld := ⟨0x088, 11, 8⟩
abbrev PRC_NBR_L_POSN : Fld := ⟨0x088, 7, 4⟩
abbrev PRC_NBR_L_PKG : Fld := ⟨0x088, 3, 0⟩
abbrev PRC_CNT : Nat := 0x08C
abbrev PRC_CNT_MISSED : Fld := ⟨0x08C, 31, 16⟩
abbrev PRC_CNT_CRC_ERR : Fld := ⟨0x08C, 15, 0⟩

/-! ### TIME -/
abbrev TIME_CTRL : Nat := 0x000
abbrev TIME_CTRL_SLEW_PPM : Fld := ⟨0x000, 23, 16⟩
abbrev TIME_CTRL_ACTIVE : Fld := ⟨0x000, 4, 4⟩
abbrev TIME_CTRL_SRC : Fld := ⟨0x000, 1, 0⟩
abbrev TIME_STATUS : Nat := 0x004
abbrev TIME_STATUS_CFG_ERR : Fld := ⟨0x004, 6, 6⟩
abbrev TIME_STATUS_EQUINOX : Fld := ⟨0x004, 5, 5⟩
abbrev TIME_STATUS_STEPPED : Fld := ⟨0x004, 4, 4⟩
abbrev TIME_STATUS_HOLDOVER : Fld := ⟨0x004, 3, 3⟩
abbrev TIME_STATUS_SLEWING : Fld := ⟨0x004, 2, 2⟩
abbrev TIME_STATUS_LOCKED : Fld := ⟨0x004, 1, 1⟩
abbrev TIME_INC_NS : Nat := 0x008
abbrev TIME_INC_NS_INC_NS : Fld := ⟨0x008, 7, 0⟩
abbrev TIME_INC_FRAC : Nat := 0x00C
abbrev TIME_INC_FRAC_INC_FRAC : Fld := ⟨0x00C, 31, 0⟩
abbrev TIME_RD_NS : Nat := 0x010
abbrev TIME_RD_NS_NS : Fld := ⟨0x010, 29, 0⟩
abbrev TIME_RD_SEC_LO : Nat := 0x014
abbrev TIME_RD_SEC_LO_SEC : Fld := ⟨0x014, 31, 0⟩
abbrev TIME_RD_SEC_HI : Nat := 0x018
abbrev TIME_RD_SEC_HI_SEC : Fld := ⟨0x018, 31, 0⟩
abbrev TIME_RD_FRAC : Nat := 0x01C
abbrev TIME_RD_FRAC_FRAC : Fld := ⟨0x01C, 31, 0⟩
abbrev TIME_SET_NS : Nat := 0x020
abbrev TIME_SET_NS_NS : Fld := ⟨0x020, 29, 0⟩
abbrev TIME_SET_SEC_LO : Nat := 0x024
abbrev TIME_SET_SEC_LO_SEC : Fld := ⟨0x024, 31, 0⟩
abbrev TIME_SET_SEC_HI : Nat := 0x028
abbrev TIME_SET_SEC_HI_SEC : Fld := ⟨0x028, 31, 0⟩
abbrev TIME_SET_CTL : Nat := 0x02C
abbrev TIME_SET_CTL_GO : Fld := ⟨0x02C, 0, 0⟩
abbrev TIME_SLEW : Nat := 0x030
abbrev TIME_SLEW_SLEW : Fld := ⟨0x030, 31, 0⟩
abbrev TIME_UTC : Nat := 0x034
abbrev TIME_UTC_UTC_OFS : Fld := ⟨0x034, 15, 0⟩
abbrev DOM_CTRL : Nat := 0x040
abbrev DOM_CTRL_EN : Fld := ⟨0x040, 31, 31⟩
abbrev DOM_CTRL_LOST : Fld := ⟨0x040, 30, 30⟩
abbrev DOM_CTRL_DOMAIN_NUM : Fld := ⟨0x040, 23, 16⟩
abbrev DOM_CTRL_STALE_MS : Fld := ⟨0x040, 15, 0⟩
abbrev DOM_OFS : Nat := 0x044
abbrev DOM_OFS_OFS : Fld := ⟨0x044, 31, 0⟩
abbrev DOM_RATE : Nat := 0x048
abbrev DOM_RATE_RATE : Fld := ⟨0x048, 31, 0⟩
abbrev DOM_UPD : Nat := 0x04C
abbrev DOM_UPD_STALE : Fld := ⟨0x04C, 1, 1⟩
abbrev DOM_UPD_UPD : Fld := ⟨0x04C, 0, 0⟩
abbrev TIME_PRC : Nat := 0x060
abbrev TIME_PRC_UP_VALID : Fld := ⟨0x060, 6, 6⟩
abbrev TIME_PRC_UP_PORT : Fld := ⟨0x060, 5, 5⟩
abbrev TIME_PRC_HOPS : Fld := ⟨0x060, 4, 0⟩
abbrev TIME_PRC_THETA : Nat := 0x064
abbrev TIME_PRC_THETA_THETA : Fld := ⟨0x064, 31, 0⟩
abbrev TIME_PRC_CNT : Nat := 0x068
abbrev TIME_PRC_CNT_LEADER_CHG : Fld := ⟨0x068, 31, 16⟩
abbrev TIME_PRC_CNT_ECHO_MISS : Fld := ⟨0x068, 15, 0⟩

/-! ### ETH -/
abbrev ETH_CTRL : Nat := 0x000
abbrev ETH_CTRL_EN : Fld := ⟨0x000, 31, 31⟩
abbrev ETH_CTRL_MODE : Fld := ⟨0x000, 30, 29⟩
abbrev ETH_CTRL_FEC : Fld := ⟨0x000, 28, 27⟩
abbrev ETH_CTRL_MCAST_ALL : Fld := ⟨0x000, 26, 26⟩
abbrev ETH_CTRL_PROMISC : Fld := ⟨0x000, 25, 25⟩
abbrev ETH_CTRL_MAX_FRAME : Fld := ⟨0x000, 13, 0⟩
abbrev ETH_STATUS : Nat := 0x004
abbrev ETH_STATUS_CFG_ERR : Fld := ⟨0x004, 5, 5⟩
abbrev ETH_STATUS_FEC_LOCK : Fld := ⟨0x004, 4, 4⟩
abbrev ETH_STATUS_REMOTE_FAULT : Fld := ⟨0x004, 3, 3⟩
abbrev ETH_STATUS_LOCAL_FAULT : Fld := ⟨0x004, 2, 2⟩
abbrev ETH_STATUS_BLOCK_LOCK : Fld := ⟨0x004, 1, 1⟩
abbrev ETH_STATUS_LINK_UP : Fld := ⟨0x004, 0, 0⟩
abbrev ETH_MAC_LO : Nat := 0x008
abbrev ETH_MAC_LO_MAC : Fld := ⟨0x008, 31, 0⟩
abbrev ETH_MAC_HI : Nat := 0x00C
abbrev ETH_MAC_HI_MAC : Fld := ⟨0x00C, 15, 0⟩
abbrev ETH_TXDLY : Nat := 0x010
abbrev ETH_TXDLY_TX_DELAY_PS : Fld := ⟨0x010, 19, 0⟩
abbrev ETH_RXDLY : Nat := 0x014
abbrev ETH_RXDLY_RX_DELAY_PS : Fld := ⟨0x014, 19, 0⟩
abbrev ETH_TX_BASE : Nat := 0x018
abbrev ETH_TX_BASE_ADDR : Fld := ⟨0x018, 31, 0⟩
abbrev ETH_TX_PTR : Nat := 0x01C
abbrev ETH_TX_PTR_RD : Fld := ⟨0x01C, 31, 16⟩
abbrev ETH_TX_PTR_WR : Fld := ⟨0x01C, 15, 0⟩
abbrev ETH_RX0_BASE : Nat := 0x020
abbrev ETH_RX0_BASE_ADDR : Fld := ⟨0x020, 31, 0⟩
abbrev ETH_RX0_PTR : Nat := 0x024
abbrev ETH_RX0_PTR_RD : Fld := ⟨0x024, 31, 16⟩
abbrev ETH_RX0_PTR_WR : Fld := ⟨0x024, 15, 0⟩
abbrev ETH_RX1_BASE : Nat := 0x028
abbrev ETH_RX1_BASE_ADDR : Fld := ⟨0x028, 31, 0⟩
abbrev ETH_RX1_PTR : Nat := 0x02C
abbrev ETH_RX1_PTR_RD : Fld := ⟨0x02C, 31, 16⟩
abbrev ETH_RX1_PTR_WR : Fld := ⟨0x02C, 15, 0⟩
abbrev ETH_RING_CFG : Nat := 0x030
abbrev ETH_RING_CFG_RX1_LOG : Fld := ⟨0x030, 11, 8⟩
abbrev ETH_RING_CFG_RX0_LOG : Fld := ⟨0x030, 7, 4⟩
abbrev ETH_RING_CFG_TX_LOG : Fld := ⟨0x030, 3, 0⟩
abbrev ETH_EVT : Nat := 0x034
abbrev ETH_EVT_LINK_CHG : Fld := ⟨0x034, 5, 5⟩
abbrev ETH_EVT_TS_ERR : Fld := ⟨0x034, 4, 4⟩
abbrev ETH_EVT_RX_DROP : Fld := ⟨0x034, 3, 3⟩
abbrev ETH_EVT_RX1 : Fld := ⟨0x034, 2, 2⟩
abbrev ETH_EVT_RX0 : Fld := ⟨0x034, 1, 1⟩
abbrev ETH_EVT_TX_DONE : Fld := ⟨0x034, 0, 0⟩
abbrev ETH_CNT : Nat := 0x038
abbrev ETH_CNT_FCS_ERR : Fld := ⟨0x038, 31, 16⟩
abbrev ETH_CNT_RX_DROPS : Fld := ⟨0x038, 15, 0⟩
abbrev ETH_CNT2 : Nat := 0x03C
abbrev ETH_CNT2_OVERSIZE : Fld := ⟨0x03C, 31, 16⟩
abbrev ETH_CNT2_CTRL_DROP : Fld := ⟨0x03C, 15, 0⟩

/-! ### AUDP -/
abbrev AUDP_CTRL : Nat := 0x000
abbrev AUDP_CTRL_RX_EN : Fld := ⟨0x000, 31, 31⟩
abbrev AUDP_CTRL_TX_EN : Fld := ⟨0x000, 30, 30⟩
abbrev AUDP_CTRL_FAM : Fld := ⟨0x000, 29, 29⟩
abbrev AUDP_CTRL_DOUBLE : Fld := ⟨0x000, 28, 28⟩
abbrev AUDP_CTRL_GROUP : Fld := ⟨0x000, 27, 25⟩
abbrev AUDP_CTRL_GRP_EN : Fld := ⟨0x000, 24, 24⟩
abbrev AUDP_CTRL_MCLK_DIV : Fld := ⟨0x000, 23, 22⟩
abbrev AUDP_CTRL_RX_MUTE : Fld := ⟨0x000, 21, 21⟩
abbrev AUDP_CTRL_TX_MUTE : Fld := ⟨0x000, 20, 20⟩
abbrev AUDP_CTRL_RAMP_MS : Fld := ⟨0x000, 7, 0⟩
abbrev AUDP_RXFMT : Nat := 0x004
abbrev AUDP_RXFMT_TRI : Fld := ⟨0x004, 18, 18⟩
abbrev AUDP_RXFMT_FMT : Fld := ⟨0x004, 17, 16⟩
abbrev AUDP_RXFMT_BCLK_INV : Fld := ⟨0x004, 15, 15⟩
abbrev AUDP_RXFMT_FS_INV : Fld := ⟨0x004, 14, 14⟩
abbrev AUDP_RXFMT_BCLK_DRV : Fld := ⟨0x004, 13, 13⟩
abbrev AUDP_RXFMT_FS_DRV : Fld := ⟨0x004, 12, 12⟩
abbrev AUDP_RXFMT_FRAME : Fld := ⟨0x004, 10, 8⟩
abbrev AUDP_RXFMT_SLOT_BITS : Fld := ⟨0x004, 7, 6⟩
abbrev AUDP_RXFMT_DELAY : Fld := ⟨0x004, 5, 5⟩
abbrev AUDP_RXFMT_SLOTS_M1 : Fld := ⟨0x004, 4, 0⟩
abbrev AUDP_TXFMT : Nat := 0x008
abbrev AUDP_TXFMT_TRI : Fld := ⟨0x008, 18, 18⟩
abbrev AUDP_TXFMT_FMT : Fld := ⟨0x008, 17, 16⟩
abbrev AUDP_TXFMT_BCLK_INV : Fld := ⟨0x008, 15, 15⟩
abbrev AUDP_TXFMT_FS_INV : Fld := ⟨0x008, 14, 14⟩
abbrev AUDP_TXFMT_BCLK_DRV : Fld := ⟨0x008, 13, 13⟩
abbrev AUDP_TXFMT_FS_DRV : Fld := ⟨0x008, 12, 12⟩
abbrev AUDP_TXFMT_FRAME : Fld := ⟨0x008, 10, 8⟩
abbrev AUDP_TXFMT_SLOT_BITS : Fld := ⟨0x008, 7, 6⟩
abbrev AUDP_TXFMT_DELAY : Fld := ⟨0x008, 5, 5⟩
abbrev AUDP_TXFMT_SLOTS_M1 : Fld := ⟨0x008, 4, 0⟩
abbrev AUDP_RXMASK : Nat := 0x00C
abbrev AUDP_RXMASK_PENDING : Fld := ⟨0x00C, 31, 0⟩
abbrev AUDP_RXMASK_ACT : Nat := 0x010
abbrev AUDP_RXMASK_ACT_ACTIVE : Fld := ⟨0x010, 31, 0⟩
abbrev AUDP_TXMASK : Nat := 0x014
abbrev AUDP_TXMASK_PENDING : Fld := ⟨0x014, 31, 0⟩
abbrev AUDP_TXMASK_ACT : Nat := 0x018
abbrev AUDP_TXMASK_ACT_ACTIVE : Fld := ⟨0x018, 31, 0⟩
abbrev AUDP_RXBASE : Nat := 0x01C
abbrev AUDP_RXBASE_ADDR : Fld := ⟨0x01C, 31, 0⟩
abbrev AUDP_TXBASE : Nat := 0x020
abbrev AUDP_TXBASE_ADDR : Fld := ⟨0x020, 31, 0⟩
abbrev AUDP_RING : Nat := 0x024
abbrev AUDP_RING_TX_LOG2 : Fld := ⟨0x024, 7, 4⟩
abbrev AUDP_RING_RX_LOG2 : Fld := ⟨0x024, 3, 0⟩
abbrev AUDP_TXSTART : Nat := 0x028
abbrev AUDP_TXSTART_BLOCK : Fld := ⟨0x028, 31, 0⟩
abbrev AUDP_RXLVL : Nat := 0x02C
abbrev AUDP_RXLVL_HWM : Fld := ⟨0x02C, 23, 16⟩
abbrev AUDP_RXLVL_LWM : Fld := ⟨0x02C, 15, 8⟩
abbrev AUDP_RXLVL_LEVEL : Fld := ⟨0x02C, 7, 0⟩
abbrev AUDP_STATUS : Nat := 0x034
abbrev AUDP_STATUS_CFG_ERR : Fld := ⟨0x034, 9, 9⟩
abbrev AUDP_STATUS_FRAME_ERR : Fld := ⟨0x034, 8, 8⟩
abbrev AUDP_STATUS_TX_UNDER : Fld := ⟨0x034, 7, 7⟩
abbrev AUDP_STATUS_TX_SLIP : Fld := ⟨0x034, 6, 6⟩
abbrev AUDP_STATUS_RX_BLKDROP : Fld := ⟨0x034, 5, 5⟩
abbrev AUDP_STATUS_RX_SLIP : Fld := ⟨0x034, 4, 4⟩
abbrev AUDP_STATUS_TX_MUTED : Fld := ⟨0x034, 3, 3⟩
abbrev AUDP_STATUS_RX_MUTED : Fld := ⟨0x034, 2, 2⟩
abbrev AUDP_STATUS_TX_RUN : Fld := ⟨0x034, 1, 1⟩
abbrev AUDP_STATUS_RX_RUN : Fld := ⟨0x034, 0, 0⟩
abbrev AUDP_CNT : Nat := 0x038
abbrev AUDP_CNT_RX_INS : Fld := ⟨0x038, 31, 16⟩
abbrev AUDP_CNT_RX_DROP : Fld := ⟨0x038, 15, 0⟩
abbrev AUDP_CNT2 : Nat := 0x03C
abbrev AUDP_CNT2_TX_INS : Fld := ⟨0x03C, 31, 16⟩
abbrev AUDP_CNT2_TX_DROP : Fld := ⟨0x03C, 15, 0⟩
abbrev AUDP_CNT3 : Nat := 0x040
abbrev AUDP_CNT3_TX_UNDER_BLK : Fld := ⟨0x040, 31, 16⟩
abbrev AUDP_CNT3_FRAME_ERRS : Fld := ⟨0x040, 15, 0⟩
abbrev AUDP_RXBLK : Nat := 0x044
abbrev AUDP_RXBLK_BLOCK : Fld := ⟨0x044, 31, 0⟩
abbrev AUDP_BLKTS_NS : Nat := 0x048
abbrev AUDP_BLKTS_NS_NS : Fld := ⟨0x048, 29, 0⟩
abbrev AUDP_BLKTS_SEC : Nat := 0x04C
abbrev AUDP_BLKTS_SEC_SEC : Fld := ⟨0x04C, 31, 0⟩
abbrev AUDP_GDELAY : Nat := 0x050
abbrev AUDP_GDELAY_DELAY_US : Fld := ⟨0x050, 19, 0⟩
abbrev AUDP_LOOP : Nat := 0x054
abbrev AUDP_LOOP_MODE : Fld := ⟨0x054, 31, 30⟩
abbrev AUDP_LOOP_PORT : Fld := ⟨0x054, 29, 27⟩
abbrev AUDP_LOOP_WCKO_EN : Fld := ⟨0x054, 26, 26⟩
abbrev AUDP_LOOP_KP : Fld := ⟨0x054, 15, 8⟩
abbrev AUDP_LOOP_KI : Fld := ⟨0x054, 7, 0⟩
abbrev AUDP_STEER : Nat := 0x058
abbrev AUDP_STEER_STEER : Fld := ⟨0x058, 31, 16⟩
abbrev AUDP_STEER_LOCKED : Fld := ⟨0x058, 15, 15⟩
abbrev AUDP_STEER_TARGET : Fld := ⟨0x058, 14, 8⟩
abbrev AUDP_STEER_LOCK_WIN : Fld := ⟨0x058, 7, 0⟩

/-! ### AXIS -/
abbrev AXIS_CTRL : Nat := 0x000
abbrev AXIS_CTRL_EN : Fld := ⟨0x000, 31, 31⟩
abbrev AXIS_CTRL_MODE : Fld := ⟨0x000, 30, 28⟩
abbrev AXIS_CTRL_IDX_MODE : Fld := ⟨0x000, 27, 26⟩
abbrev AXIS_CTRL_LIMIT_EN : Fld := ⟨0x000, 25, 25⟩
abbrev AXIS_CTRL_POSE_EN : Fld := ⟨0x000, 24, 24⟩
abbrev AXIS_CTRL_POSE_PORT : Fld := ⟨0x000, 23, 20⟩
abbrev AXIS_CTRL_DIR_INV : Fld := ⟨0x000, 19, 19⟩
abbrev AXIS_CTRL_Z_INV : Fld := ⟨0x000, 18, 18⟩
abbrev AXIS_STATUS : Nat := 0x004
abbrev AXIS_STATUS_CFG_ERR : Fld := ⟨0x004, 8, 8⟩
abbrev AXIS_STATUS_ILL_FAULT : Fld := ⟨0x004, 7, 7⟩
abbrev AXIS_STATUS_AMP_FAULT : Fld := ⟨0x004, 6, 6⟩
abbrev AXIS_STATUS_IDX_ERR : Fld := ⟨0x004, 5, 5⟩
abbrev AXIS_STATUS_NESTED : Fld := ⟨0x004, 4, 4⟩
abbrev AXIS_STATUS_HOMED : Fld := ⟨0x004, 3, 3⟩
abbrev AXIS_STATUS_AT_HI : Fld := ⟨0x004, 2, 2⟩
abbrev AXIS_STATUS_AT_LO : Fld := ⟨0x004, 1, 1⟩
abbrev AXIS_STATUS_RUN : Fld := ⟨0x004, 0, 0⟩
abbrev AXIS_POS : Nat := 0x008
abbrev AXIS_POS_POS : Fld := ⟨0x008, 31, 0⟩
abbrev AXIS_VEL : Nat := 0x00C
abbrev AXIS_VEL_VEL : Fld := ⟨0x00C, 31, 0⟩
abbrev AXIS_PIDX : Nat := 0x010
abbrev AXIS_PIDX_TABLE : Fld := ⟨0x010, 8, 8⟩
abbrev AXIS_PIDX_INDEX : Fld := ⟨0x010, 5, 0⟩
abbrev AXIS_PDATA : Nat := 0x014
abbrev AXIS_PDATA_WORD : Fld := ⟨0x014, 31, 0⟩
abbrev AXIS_IDXERR : Nat := 0x018
abbrev AXIS_IDXERR_D : Fld := ⟨0x018, 31, 0⟩
abbrev AXIS_CNT : Nat := 0x01C
abbrev AXIS_CNT_ILLEGAL : Fld := ⟨0x01C, 31, 16⟩
abbrev AXIS_CNT_IDX_CORR : Fld := ⟨0x01C, 15, 8⟩
abbrev AXIS_CNT_CRC_ERRS : Fld := ⟨0x01C, 7, 0⟩

/-! ### EMU -/
abbrev EMU_CTRL : Nat := 0x000
abbrev EMU_CTRL_EN : Fld := ⟨0x000, 31, 31⟩
abbrev EMU_CTRL_DIR_INV : Fld := ⟨0x000, 30, 30⟩
abbrev EMU_CTRL_ZMODE : Fld := ⟨0x000, 29, 28⟩
abbrev EMU_CTRL_SRC : Fld := ⟨0x000, 21, 16⟩
abbrev EMU_RATIO : Nat := 0x004
abbrev EMU_RATIO_DEN : Fld := ⟨0x004, 31, 16⟩
abbrev EMU_RATIO_NUM : Fld := ⟨0x004, 15, 0⟩
abbrev EMU_TIMING : Nat := 0x008
abbrev EMU_TIMING_Z_NS : Fld := ⟨0x008, 31, 16⟩
abbrev EMU_TIMING_MIN_NS : Fld := ⟨0x008, 15, 0⟩
abbrev EMU_STATUS : Nat := 0x00C
abbrev EMU_STATUS_LAG : Fld := ⟨0x00C, 31, 16⟩
abbrev EMU_STATUS_CFG_ERR : Fld := ⟨0x00C, 2, 2⟩
abbrev EMU_STATUS_OVF : Fld := ⟨0x00C, 1, 1⟩
abbrev EMU_STATUS_RUN : Fld := ⟨0x00C, 0, 0⟩

/-! ### TWC -/
abbrev TWC_CTRL : Nat := 0x000
abbrev TWC_CTRL_EN : Fld := ⟨0x000, 31, 31⟩
abbrev TWC_CTRL_SPEED : Fld := ⟨0x000, 30, 29⟩
abbrev TWC_CTRL_LONG_BUS : Fld := ⟨0x000, 28, 28⟩
abbrev TWC_CTRL_LANTERN_EN : Fld := ⟨0x000, 27, 27⟩
abbrev TWC_CTRL_RETRY_MAX : Fld := ⟨0x000, 26, 24⟩
abbrev TWC_CTRL_RETRY_US : Fld := ⟨0x000, 23, 16⟩
abbrev TWC_TMO : Nat := 0x004
abbrev TWC_TMO_STRETCH_US : Fld := ⟨0x004, 31, 16⟩
abbrev TWC_TMO_SCL_LOW_MS : Fld := ⟨0x004, 15, 8⟩
abbrev TWC_TMO_SDA_LOW_MS : Fld := ⟨0x004, 7, 0⟩
abbrev TWC_STATUS : Nat := 0x008
abbrev TWC_STATUS_QLEVEL : Fld := ⟨0x008, 22, 16⟩
abbrev TWC_STATUS_LANTERN : Fld := ⟨0x008, 9, 9⟩
abbrev TWC_STATUS_RECOVERED : Fld := ⟨0x008, 8, 8⟩
abbrev TWC_STATUS_SDA_STUCK : Fld := ⟨0x008, 7, 7⟩
abbrev TWC_STATUS_SCL_STUCK : Fld := ⟨0x008, 6, 6⟩
abbrev TWC_STATUS_STRETCH_TO : Fld := ⟨0x008, 5, 5⟩
abbrev TWC_STATUS_NACK : Fld := ⟨0x008, 4, 4⟩
abbrev TWC_STATUS_BUS_ERR : Fld := ⟨0x008, 3, 3⟩
abbrev TWC_STATUS_ARB_LOST : Fld := ⟨0x008, 2, 2⟩
abbrev TWC_STATUS_BUS_BUSY : Fld := ⟨0x008, 1, 1⟩
abbrev TWC_STATUS_BUSY : Fld := ⟨0x008, 0, 0⟩
abbrev TWC_CMD : Nat := 0x00C
abbrev TWC_CMD_GO : Fld := ⟨0x00C, 31, 31⟩
abbrev TWC_CMD_RECOVER : Fld := ⟨0x00C, 30, 30⟩
abbrev TWC_CMD_READ : Fld := ⟨0x00C, 29, 29⟩
abbrev TWC_CMD_ALEN : Fld := ⟨0x00C, 28, 27⟩
abbrev TWC_CMD_LEN : Fld := ⟨0x00C, 23, 20⟩
abbrev TWC_CMD_DEV : Fld := ⟨0x00C, 6, 0⟩
abbrev TWC_REG : Nat := 0x010
abbrev TWC_REG_REG : Fld := ⟨0x010, 15, 0⟩
abbrev TWC_DATA0 : Nat := 0x014
abbrev TWC_DATA0_DATA : Fld := ⟨0x014, 31, 0⟩
abbrev TWC_DATA1 : Nat := 0x018
abbrev TWC_DATA1_DATA : Fld := ⟨0x018, 31, 0⟩
abbrev TWC_RES : Nat := 0x01C
abbrev TWC_RES_DONE : Fld := ⟨0x01C, 31, 31⟩
abbrev TWC_RES_RESULT : Fld := ⟨0x01C, 30, 28⟩
abbrev TWC_RES_COUNT : Fld := ⟨0x01C, 3, 0⟩
abbrev TWC_CNT : Nat := 0x020
abbrev TWC_CNT_ARB_LOSSES : Fld := ⟨0x020, 31, 24⟩
abbrev TWC_CNT_NACKS : Fld := ⟨0x020, 23, 16⟩
abbrev TWC_CNT_STRETCH_TOS : Fld := ⟨0x020, 15, 8⟩
abbrev TWC_CNT_RECOVERIES : Fld := ⟨0x020, 7, 0⟩
abbrev TWC_CNT2 : Nat := 0x024
abbrev TWC_CNT2_LATE_ITEMS : Fld := ⟨0x024, 31, 16⟩
abbrev TWC_CNT2_ITEMS : Fld := ⟨0x024, 15, 0⟩
abbrev TWC_LIDX : Nat := 0x028
abbrev TWC_LIDX_ENTRY : Fld := ⟨0x028, 2, 0⟩
abbrev TWC_LDATA : Nat := 0x02C
abbrev TWC_LDATA_EN : Fld := ⟨0x02C, 31, 31⟩
abbrev TWC_LDATA_ALEN : Fld := ⟨0x02C, 25, 24⟩
abbrev TWC_LDATA_REG : Fld := ⟨0x02C, 23, 8⟩
abbrev TWC_LDATA_DEV : Fld := ⟨0x02C, 6, 0⟩
abbrev TWC_LRES0 : Nat := 0x030
abbrev TWC_LRES0_VALUE : Fld := ⟨0x030, 31, 0⟩
abbrev TWC_LRES1 : Nat := 0x034
abbrev TWC_LRES1_VALUE : Fld := ⟨0x034, 31, 0⟩
abbrev TWC_LSTAT : Nat := 0x038
abbrev TWC_LSTAT_NZ : Fld := ⟨0x038, 15, 8⟩
abbrev TWC_LSTAT_FAIL : Fld := ⟨0x038, 7, 0⟩

/-! ### TWT -/
abbrev TWT_CTRL : Nat := 0x000
abbrev TWT_CTRL_EN : Fld := ⟨0x000, 31, 31⟩
abbrev TWT_CTRL_ADDR : Fld := ⟨0x000, 6, 0⟩
abbrev TWT_STATUS : Nat := 0x004
abbrev TWT_STATUS_WIN_ERR : Fld := ⟨0x004, 1, 1⟩
abbrev TWT_STATUS_RSTART_ACK : Fld := ⟨0x004, 0, 0⟩
abbrev TWT_CNT : Nat := 0x008
abbrev TWT_CNT_ERRORS : Fld := ⟨0x008, 31, 16⟩
abbrev TWT_CNT_ACCESSES : Fld := ⟨0x008, 15, 0⟩

/-! ### THM -/
abbrev THM_CTRL : Nat := 0x000
abbrev THM_CTRL_EN : Fld := ⟨0x000, 31, 31⟩
abbrev THM_CTRL_FAST_MAX : Fld := ⟨0x000, 27, 24⟩
abbrev THM_CTRL_ENG_CAP : Fld := ⟨0x000, 23, 19⟩
abbrev THM_CTRL_HOLD_MS : Fld := ⟨0x000, 15, 8⟩
abbrev THM_CTRL_SETTLE_MS : Fld := ⟨0x000, 7, 0⟩
abbrev THM_EVT : Nat := 0x008
abbrev THM_EVT_TSFAIL : Fld := ⟨0x008, 7, 7⟩
abbrev THM_EVT_VIGIL_LOST : Fld := ⟨0x008, 6, 6⟩
abbrev THM_EVT_BUDGET_SHORT : Fld := ⟨0x008, 5, 5⟩
abbrev THM_EVT_DRAM_HOT : Fld := ⟨0x008, 4, 4⟩
abbrev THM_EVT_LIMIT : Fld := ⟨0x008, 3, 3⟩
abbrev THM_EVT_THROTTLE : Fld := ⟨0x008, 2, 2⟩
abbrev THM_EVT_WARN : Fld := ⟨0x008, 1, 1⟩
abbrev THM_EVT_HOT : Fld := ⟨0x008, 0, 0⟩
abbrev THM_PLIMIT : Nat := 0x00C
abbrev THM_PLIMIT_P_HYST : Fld := ⟨0x00C, 31, 16⟩
abbrev THM_PLIMIT_P_LIMIT : Fld := ⟨0x00C, 15, 0⟩
abbrev THM_TCFG : Nat := 0x010
abbrev THM_TCFG_T_TARGET : Fld := ⟨0x010, 13, 6⟩
abbrev THM_TCFG_S_MIN : Fld := ⟨0x010, 5, 0⟩
abbrev THM_PEST : Nat := 0x014
abbrev THM_PEST_P_EST : Fld := ⟨0x014, 15, 0⟩
abbrev THM_PMEAS : Nat := 0x018
abbrev THM_PMEAS_P_MEAS : Fld := ⟨0x018, 15, 0⟩
abbrev THM_STEP : Nat := 0x01C
abbrev THM_STEP_S_TOP : Fld := ⟨0x01C, 13, 8⟩
abbrev THM_STEP_S : Fld := ⟨0x01C, 5, 0⟩
abbrev THM_OPPT : Nat := 0x020
abbrev THM_OPPT_ENG_C0 : Fld := ⟨0x020, 31, 27⟩
abbrev THM_OPPT_ENG_C1 : Fld := ⟨0x020, 26, 22⟩
abbrev THM_OPPT_ENG_BIN_C0 : Fld := ⟨0x020, 21, 17⟩
abbrev THM_OPPT_ENG_BIN_C1 : Fld := ⟨0x020, 16, 12⟩
abbrev THM_OPPT_FAST : Fld := ⟨0x020, 11, 8⟩
abbrev THM_OPPT_DEPTH : Fld := ⟨0x020, 7, 6⟩
abbrev THM_THOT : Nat := 0x024
abbrev THM_THOT_T_C0 : Fld := ⟨0x024, 31, 16⟩
abbrev THM_THOT_T_H : Fld := ⟨0x024, 15, 0⟩
abbrev THM_THOT2 : Nat := 0x028
abbrev THM_THOT2_T_HOT : Fld := ⟨0x028, 31, 16⟩
abbrev THM_THOT2_T_C1 : Fld := ⟨0x028, 15, 0⟩
abbrev THM_QRANK : Nat := 0x030
abbrev THM_QRANK_RANK : Fld := ⟨0x030, 31, 0⟩
abbrev THM_OIDX : Nat := 0x040
abbrev THM_OIDX_ENTRY : Fld := ⟨0x040, 4, 0⟩
abbrev THM_ODATA : Nat := 0x044
abbrev THM_ODATA_ENTRY : Fld := ⟨0x044, 31, 0⟩
abbrev THM_TSFAIL_LO : Nat := 0x048
abbrev THM_TSFAIL_LO_FAIL : Fld := ⟨0x048, 31, 0⟩
abbrev THM_TSFAIL_HI : Nat := 0x04C
abbrev THM_TSFAIL_HI_FAIL : Fld := ⟨0x04C, 31, 0⟩
abbrev THM_QHELD : Nat := 0x050
abbrev THM_QHELD_SHED : Fld := ⟨0x050, 31, 16⟩
abbrev THM_QHELD_CLUSTERS : Fld := ⟨0x050, 15, 0⟩
abbrev THM_QHELD_Q0 : Nat := 0x054
abbrev THM_QHELD_Q0_HELD : Fld := ⟨0x054, 31, 0⟩
abbrev THM_QHELD_Q1 : Nat := 0x058
abbrev THM_QHELD_Q1_HELD : Fld := ⟨0x058, 31, 0⟩
abbrev THM_TS : Nat := 0x080
abbrev THM_TS_TEMP : Fld := ⟨0x080, 15, 0⟩
abbrev THM_TS_TEMP_ODD : Fld := ⟨0x080, 31, 16⟩

/-! ### ADV -/
abbrev PAIR_CTRL : Nat := 0x090
abbrev PAIR_CTRL_HANDOVER : Fld := ⟨0x090, 2, 2⟩
abbrev PAIR_CTRL_HO_ON_LIMIT : Fld := ⟨0x090, 1, 1⟩
abbrev PAIR_CTRL_PREFER : Fld := ⟨0x090, 0, 0⟩
abbrev PAIR_STATUS : Nat := 0x094
abbrev PAIR_STATUS_HANDOVERS : Fld := ⟨0x094, 31, 16⟩
abbrev PAIR_STATUS_PAIR_MISMATCH : Fld := ⟨0x094, 5, 5⟩
abbrev PAIR_STATUS_PARTNER_OK : Fld := ⟨0x094, 4, 4⟩
abbrev PAIR_STATUS_PARTNER_FAULT : Fld := ⟨0x094, 3, 3⟩
abbrev PAIR_STATUS_BY_LOSS : Fld := ⟨0x094, 2, 2⟩
abbrev PAIR_STATUS_PARTNER_ACTIVE : Fld := ⟨0x094, 1, 1⟩
abbrev PAIR_STATUS_ROLE : Fld := ⟨0x094, 0, 0⟩

/-! ### GPIO -/
abbrev GPIO_OUT : Nat := 0x000
abbrev GPIO_OUT_OUT : Fld := ⟨0x000, 15, 0⟩
abbrev GPIO_OE : Nat := 0x004
abbrev GPIO_OE_OE : Fld := ⟨0x004, 15, 0⟩
abbrev GPIO_IN : Nat := 0x008
abbrev GPIO_IN_IN : Fld := ⟨0x008, 15, 0⟩
abbrev PAD_SLEW0 : Nat := 0x00C
abbrev PAD_SLEW0_SLEW : Fld := ⟨0x00C, 19, 0⟩
abbrev PAD_GLITCH : Nat := 0x010
abbrev PAD_GLITCH_GLITCH : Fld := ⟨0x010, 11, 0⟩
abbrev PAD_MISC : Nat := 0x014
abbrev PAD_MISC_FL_DRV : Fld := ⟨0x014, 1, 1⟩
abbrev PAD_MISC_CLKOUT_EN : Fld := ⟨0x014, 0, 0⟩
abbrev PLL_SSC : Nat := 0x018
abbrev PLL_SSC_SSC : Fld := ⟨0x018, 7, 0⟩
abbrev AVS_CTRL : Nat := 0x01C
abbrev AVS_CTRL_AVS_EN : Fld := ⟨0x01C, 31, 31⟩
abbrev AVS_CTRL_MARGIN_MV : Fld := ⟨0x01C, 5, 0⟩
abbrev AVS_VOLT : Nat := 0x020
abbrev AVS_VOLT_V_C1 : Fld := ⟨0x020, 25, 16⟩
abbrev AVS_VOLT_V_C0 : Fld := ⟨0x020, 9, 0⟩
abbrev AVS_EVT : Nat := 0x024
abbrev AVS_EVT_ERRORS : Fld := ⟨0x024, 31, 16⟩
abbrev AVS_EVT_AVS_ERR : Fld := ⟨0x024, 0, 0⟩
abbrev PWR_STATUS : Nat := 0x028
abbrev PWR_STATUS_PFAIL_SEEN : Fld := ⟨0x028, 1, 1⟩
abbrev PWR_STATUS_PFAIL : Fld := ⟨0x028, 0, 0⟩

/-! ### TOP -/
abbrev TOP_ID : Nat := 0x000
abbrev TOP_ID_PART : Fld := ⟨0x000, 31, 16⟩
abbrev TOP_ID_STEPPING : Fld := ⟨0x000, 15, 8⟩
abbrev TOP_STRAP : Nat := 0x004
abbrev TOP_STRAP_POSN : Fld := ⟨0x004, 7, 4⟩
abbrev TOP_STRAP_BOOTMODE : Fld := ⟨0x004, 2, 0⟩
abbrev TOP_SERIAL_LO : Nat := 0x008
abbrev TOP_SERIAL_LO_SERIAL : Fld := ⟨0x008, 31, 0⟩
abbrev TOP_SERIAL_HI : Nat := 0x00C
abbrev TOP_SERIAL_HI_SERIAL : Fld := ⟨0x00C, 31, 0⟩
abbrev TOP_FUSE : Nat := 0x010
abbrev TOP_FUSE_LOCK_IMAGE : Fld := ⟨0x010, 0, 0⟩
abbrev TOP_RESET : Nat := 0x014
abbrev TOP_RESET_KEY : Fld := ⟨0x014, 31, 16⟩
abbrev TOP_RESET_GO : Fld := ⟨0x014, 0, 0⟩
abbrev TOP_RSTCAUSE : Nat := 0x018
abbrev TOP_RSTCAUSE_SW : Fld := ⟨0x018, 0, 0⟩
abbrev TOP_LOT_LO : Nat := 0x020
abbrev TOP_LOT_LO_LOT : Fld := ⟨0x020, 31, 0⟩
abbrev TOP_LOT_HI : Nat := 0x024
abbrev TOP_LOT_HI_WAFER : Fld := ⟨0x024, 20, 16⟩
abbrev TOP_LOT_HI_LOT : Fld := ⟨0x024, 15, 0⟩
abbrev TOP_POS : Nat := 0x028
abbrev TOP_POS_BIN : Fld := ⟨0x028, 19, 16⟩
abbrev TOP_POS_DIE_Y : Fld := ⟨0x028, 15, 8⟩
abbrev TOP_POS_DIE_X : Fld := ⟨0x028, 7, 0⟩
abbrev TOP_DSER_LO : Nat := 0x02C
abbrev TOP_DSER_LO_SERIAL : Fld := ⟨0x02C, 31, 0⟩
abbrev TOP_DSER_HI : Nat := 0x030
abbrev TOP_DSER_HI_SERIAL : Fld := ⟨0x030, 31, 0⟩
abbrev TOP_KEYHASH : Nat := 0x080
abbrev TOP_KEYHASH_HASH : Fld := ⟨0x080, 31, 0⟩
abbrev TOP_SCRATCH : Nat := 0x0C0
abbrev TOP_SCRATCH_DATA : Fld := ⟨0x0C0, 31, 0⟩

/-! ### FAB -/
abbrev FAB_SIDX : Nat := 0x000
abbrev FAB_SIDX_SID : Fld := ⟨0x000, 9, 0⟩
abbrev FAB_SCLS : Nat := 0x004
abbrev FAB_SCLS_CLASS : Fld := ⟨0x004, 1, 0⟩
abbrev FAB_INJ_CTL : Nat := 0x010
abbrev FAB_INJ_CTL_GO : Fld := ⟨0x010, 31, 31⟩
abbrev FAB_INJ_CTL_ERR : Fld := ⟨0x010, 30, 30⟩
abbrev FAB_INJ_CTL_COUNT : Fld := ⟨0x010, 19, 16⟩
abbrev FAB_INJ_CTL_STREAM_ID : Fld := ⟨0x010, 9, 0⟩
abbrev FAB_INJ_IDX : Nat := 0x014
abbrev FAB_INJ_IDX_INDEX : Fld := ⟨0x014, 5, 0⟩
abbrev FAB_INJ_DATA : Nat := 0x018
abbrev FAB_INJ_DATA_WORD : Fld := ⟨0x018, 31, 0⟩

/-! ### FLT -/
abbrev FLT_SNAP : Nat := 0x000
abbrev FLT_SNAP_WORD : Fld := ⟨0x000, 31, 0⟩
abbrev FLT_STATUS : Nat := 0x010
abbrev FLT_STATUS_COUNT : Fld := ⟨0x010, 31, 16⟩
abbrev FLT_STATUS_SEV_MAX : Fld := ⟨0x010, 15, 13⟩
abbrev FLT_STATUS_NESTED : Fld := ⟨0x010, 12, 12⟩
abbrev FLT_STATUS_VALID : Fld := ⟨0x010, 11, 11⟩
abbrev FLT_STATUS_DEGRADED : Fld := ⟨0x010, 1, 1⟩
abbrev FLT_STATUS_PKG_FAULT : Fld := ⟨0x010, 0, 0⟩
abbrev FLT_CTRL : Nat := 0x014
abbrev FLT_CTRL_IRQ_SEV : Fld := ⟨0x014, 14, 12⟩
abbrev FLT_CTRL_FAULTN_SEV : Fld := ⟨0x014, 10, 8⟩
abbrev FLT_CTRL_CLR : Fld := ⟨0x014, 0, 0⟩
abbrev FLT_EVT : Nat := 0x018
abbrev FLT_EVT_EVT : Fld := ⟨0x018, 0, 0⟩
abbrev FLT_LOGIDX : Nat := 0x01C
abbrev FLT_LOGIDX_INDEX : Fld := ⟨0x01C, 6, 0⟩
abbrev FLT_LOGDATA : Nat := 0x020
abbrev FLT_LOGDATA_WORD : Fld := ⟨0x020, 31, 0⟩
abbrev FLT_TOTAL : Nat := 0x024
abbrev FLT_TOTAL_RECORDS : Fld := ⟨0x024, 31, 0⟩
abbrev FLT_TEST : Nat := 0x028
abbrev FLT_TEST_CAUSE : Fld := ⟨0x028, 31, 24⟩
abbrev FLT_TEST_SEV : Fld := ⟨0x028, 23, 21⟩

/-! ### IRQ -/
abbrev IRQ_RIDX : Nat := 0x000
abbrev IRQ_RIDX_SOURCE : Fld := ⟨0x000, 15, 0⟩
abbrev IRQ_RDATA : Nat := 0x004
abbrev IRQ_RDATA_EN : Fld := ⟨0x004, 31, 31⟩
abbrev IRQ_RDATA_LINE : Fld := ⟨0x004, 30, 30⟩
abbrev IRQ_RDATA_STEW : Fld := ⟨0x004, 23, 20⟩
abbrev IRQ_RDATA_BC : Fld := ⟨0x004, 16, 16⟩
abbrev IRQ_RDATA_MSIX : Fld := ⟨0x004, 15, 15⟩
abbrev IRQ_RDATA_VECTOR : Fld := ⟨0x004, 7, 0⟩
abbrev IRQ_FIRST : Nat := 0x008
abbrev IRQ_FIRST_VALID : Fld := ⟨0x008, 31, 31⟩
abbrev IRQ_FIRST_SOURCE : Fld := ⟨0x008, 15, 0⟩
abbrev IRQ_ASSERT : Nat := 0x020
abbrev IRQ_ASSERT_TARGET : Fld := ⟨0x020, 5, 0⟩
abbrev IRQ_SENT : Nat := 0x024
abbrev IRQ_SENT_MESSAGES : Fld := ⟨0x024, 31, 0⟩

/-! ### PIPE -/
abbrev IRM0 : Nat := 0x120
abbrev IRM0_HI : Fld := ⟨0x120, 31, 16⟩
abbrev IRM0_LO : Fld := ⟨0x120, 15, 0⟩
abbrev IRM1 : Nat := 0x124
abbrev IRM1_HI : Fld := ⟨0x124, 31, 16⟩
abbrev IRM1_LO : Fld := ⟨0x124, 15, 0⟩
abbrev IRM2 : Nat := 0x128
abbrev IRM2_HI : Fld := ⟨0x128, 31, 16⟩
abbrev IRM2_LO : Fld := ⟨0x128, 15, 0⟩
abbrev IRM3 : Nat := 0x12C
abbrev IRM3_HI : Fld := ⟨0x12C, 31, 16⟩
abbrev IRM3_LO : Fld := ⟨0x12C, 15, 0⟩
abbrev IRM4 : Nat := 0x130
abbrev IRM4_HI : Fld := ⟨0x130, 31, 16⟩
abbrev IRM4_LO : Fld := ⟨0x130, 15, 0⟩
abbrev IRM5 : Nat := 0x134
abbrev IRM5_HI : Fld := ⟨0x134, 31, 16⟩
abbrev IRM5_LO : Fld := ⟨0x134, 15, 0⟩
abbrev CAM0 : Nat := 0x138
abbrev CAM0_HI : Fld := ⟨0x138, 31, 16⟩
abbrev CAM0_LO : Fld := ⟨0x138, 15, 0⟩
abbrev CAM1 : Nat := 0x13C
abbrev CAM1_HI : Fld := ⟨0x13C, 31, 16⟩
abbrev CAM1_LO : Fld := ⟨0x13C, 15, 0⟩
abbrev CAM2 : Nat := 0x140
abbrev CAM2_HI : Fld := ⟨0x140, 31, 16⟩
abbrev CAM2_LO : Fld := ⟨0x140, 15, 0⟩
abbrev CAM3 : Nat := 0x144
abbrev CAM3_HI : Fld := ⟨0x144, 31, 16⟩
abbrev CAM3_LO : Fld := ⟨0x144, 15, 0⟩
abbrev CAM4 : Nat := 0x148
abbrev CAM4_LO : Fld := ⟨0x148, 15, 0⟩

/-! ### AUDP -/
abbrev AUDP_TXLVL : Nat := 0x030
abbrev AUDP_TXLVL_HWM : Fld := ⟨0x030, 23, 16⟩
abbrev AUDP_TXLVL_LWM : Fld := ⟨0x030, 15, 8⟩
abbrev AUDP_TXLVL_LEVEL : Fld := ⟨0x030, 7, 0⟩

/-! ### THM -/
abbrev THM_STATUS : Nat := 0x004
abbrev THM_STATUS_FLASH_OK : Fld := ⟨0x004, 9, 9⟩
abbrev THM_STATUS_VIGIL_LOST : Fld := ⟨0x004, 8, 8⟩
abbrev THM_STATUS_BUDGET_SHORT : Fld := ⟨0x004, 7, 7⟩
abbrev THM_STATUS_DRAM_HOT : Fld := ⟨0x004, 6, 6⟩
abbrev THM_STATUS_TRIP : Fld := ⟨0x004, 5, 5⟩
abbrev THM_STATUS_LIMIT : Fld := ⟨0x004, 4, 4⟩
abbrev THM_STATUS_THROTTLE : Fld := ⟨0x004, 3, 3⟩
abbrev THM_STATUS_WARN : Fld := ⟨0x004, 2, 2⟩
abbrev THM_STATUS_HOT : Fld := ⟨0x004, 1, 1⟩
abbrev THM_STATUS_SETTLED : Fld := ⟨0x004, 0, 0⟩

/-! ### ADV -/
abbrev ADV_HOSTLEN : Nat := 0x010
abbrev ADV_HOSTLEN_LENGTH : Fld := ⟨0x010, 31, 0⟩
abbrev ADV_HOSTGO : Nat := 0x014
abbrev ADV_HOSTGO_GO : Fld := ⟨0x014, 0, 0⟩

/-! ### CAMP -/
abbrev CAMP_TAPIDX : Nat := 0x028
abbrev CAMP_TAPIDX_INDEX : Fld := ⟨0x028, 5, 0⟩

end Sys2Proof.Machine
end

