-- ==== Sys2Proof/Machine/RegRows.lean ====
section
/-! DEFINITION. The access codes and reset values of every field (the register maps of spec/01-24, R4, R501). Each row: the
field at its first place, how many copies, the bytes from one copy to the next, the access code, the reset value. -/
namespace Sys2Proof.Machine

def rowsBRG : List FieldRow :=
  [⟨BRG_STATUS_WORKING, 1, 0x0, .ro, 8⟩,
   ⟨BRG_STATUS_RETIRED, 1, 0x0, .ro, 0⟩,
   ⟨BRG_STATUS_UP, 1, 0x0, .ro, 0xFF⟩,
   ⟨BRG_EVT_DIE_FAULT, 1, 0x0, .w1c, 0⟩,
   ⟨BRG_EVT_RETIRE, 1, 0x0, .w1c, 0⟩,
   ⟨BRG_REPLAY_REPLAYS, 8, 0x4, .rc, 0⟩,
   ⟨BRG_REPLAY_WINDOW, 8, 0x4, .ro, 0⟩,
   ⟨BRG_LOAD_TO_HUB, 8, 0x4, .ro, 0⟩,
   ⟨BRG_LOAD_TO_DIE, 8, 0x4, .ro, 0⟩,
   ⟨BRG_C0_C0_TO_HUB, 8, 0x4, .ro, 0⟩,
   ⟨BRG_C0_C0_TO_DIE, 8, 0x4, .ro, 0⟩]

def rowsFAB : List FieldRow :=
  [⟨C0_STREAM_EN, 4, 0x4, .rwAl, 0⟩,
   ⟨C0_STREAM_HEAD, 4, 0x4, .rwAl, 0⟩,
   ⟨C0_STREAM_V, 4, 0x4, .rwAl, 0⟩,
   ⟨C0_STREAM_STREAM_ID, 4, 0x4, .rwAl, 0x3FF⟩,
   ⟨C0_LATMAX_LAT_MAX_NS, 4, 0x4, .rc, 0⟩,
   ⟨C0_BOUND_BOUND_NS, 4, 0x4, .ro, 0⟩,
   ⟨C0_OVER_OVER_COUNT, 4, 0x4, .rc, 0⟩,
   ⟨CLS_WEIGHT_W3, 1, 0x0, .rwAl, 1⟩,
   ⟨CLS_WEIGHT_W2, 1, 0x0, .rwAl, 4⟩,
   ⟨CLS_WEIGHT_W1, 1, 0x0, .rwAl, 8⟩,
   ⟨FAB_SIDX_SID, 1, 0x0, .rw, 0⟩,
   ⟨FAB_SCLS_CLASS, 1, 0x0, .rwAl, 1⟩,
   ⟨FAB_INJ_CTL_GO, 4, 0x10, .w1s, 0⟩,
   ⟨FAB_INJ_CTL_ERR, 4, 0x10, .w1c, 0⟩,
   ⟨FAB_INJ_CTL_COUNT, 4, 0x10, .rw, 0⟩,
   ⟨FAB_INJ_CTL_STREAM_ID, 4, 0x10, .rw, 0x3FF⟩,
   ⟨FAB_INJ_IDX_INDEX, 4, 0x10, .rw, 0⟩,
   ⟨FAB_INJ_DATA_WORD, 4, 0x10, .rw, 0⟩]

def rowsADV_1 : List FieldRow :=
  [⟨ADV_STATUS_REC_ERRS, 1, 0x0, .ro, 0⟩,
   ⟨ADV_STATUS_CAUSE, 1, 0x0, .ro, 0⟩,
   ⟨ADV_STATUS_SLOW_FLASH, 1, 0x0, .ro, 0⟩,
   ⟨ADV_STATUS_ALT_SLOT, 1, 0x0, .ro, 0⟩,
   ⟨ADV_STATUS_SIG_OK, 1, 0x0, .ro, 0⟩,
   ⟨ADV_STATUS_HOSTLOAD, 1, 0x0, .ro, 0⟩,
   ⟨ADV_STATUS_SLOT, 1, 0x0, .ro, 0⟩,
   ⟨ADV_STATUS_MAINT, 1, 0x0, .ro, 0⟩,
   ⟨ADV_STATUS_PHASE, 1, 0x0, .ro, 0⟩,
   ⟨ADV_HOSTADDR_LO_ADDR, 1, 0x0, .rw, 0⟩,
   ⟨ADV_HOSTADDR_HI_ADDR, 1, 0x0, .rw, 0⟩,
   ⟨ADV_SYSCFG_WAIT_MS, 1, 0x0, .rwLk, 0x1F4⟩,
   ⟨ADV_SYSCFG_PARTNER_POSN, 1, 0x0, .rwLk, 0⟩,
   ⟨ADV_SYSCFG_PAIR_EN, 1, 0x0, .rwLk, 0⟩,
   ⟨ADV_SYSCFG_COUNT, 1, 0x0, .rwLk, 1⟩,
   ⟨ADV_SYSID_PRESENT, 1, 0x0, .ro, 0⟩,
   ⟨ADV_SYSID_PAIR_OK, 1, 0x0, .ro, 0⟩,
   ⟨ADV_SYSID_LEADER, 1, 0x0, .ro, 0⟩,
   ⟨ADV_SYSID_VALID, 1, 0x0, .ro, 0⟩,
   ⟨ADV_SYSID_PKG_NUM, 1, 0x0, .ro, 0⟩,
   ⟨ADV_STEW_RUN, 1, 0x0, .ro, 0⟩,
   ⟨ADV_STEW_FW_BAD, 1, 0x0, .ro, 0⟩,
   ⟨ADV_STEW_FWID_FW_ID, 4, 0x4, .ro, 0⟩,
   ⟨PRC_CTRL_EN, 1, 0x0, .rwLk, 0⟩,
   ⟨PRC_STATUS_R_WIRING_ERR, 1, 0x0, .w1c, 0⟩,
   ⟨PRC_STATUS_R_LOST, 1, 0x0, .w1c, 0⟩,
   ⟨PRC_STATUS_R_UP, 1, 0x0, .ro, 0⟩,
   ⟨PRC_STATUS_L_WIRING_ERR, 1, 0x0, .w1c, 0⟩,
   ⟨PRC_STATUS_L_LOST, 1, 0x0, .w1c, 0⟩,
   ⟨PRC_STATUS_L_UP, 1, 0x0, .ro, 0⟩,
   ⟨PRC_NBR_R_POSN, 1, 0x0, .ro, 0⟩,
   ⟨PRC_NBR_R_PKG, 1, 0x0, .ro, 0⟩,
   ⟨PRC_NBR_L_POSN, 1, 0x0, .ro, 0⟩,
   ⟨PRC_NBR_L_PKG, 1, 0x0, .ro, 0⟩,
   ⟨PRC_CNT_MISSED, 1, 0x0, .rc, 0⟩,
   ⟨PRC_CNT_CRC_ERR, 1, 0x0, .rc, 0⟩,
   ⟨PAIR_CTRL_HANDOVER, 1, 0x0, .w1s, 0⟩,
   ⟨PAIR_CTRL_HO_ON_LIMIT, 1, 0x0, .rwAl, 0⟩,
   ⟨PAIR_CTRL_PREFER, 1, 0x0, .rwLk, 0⟩,
   ⟨PAIR_STATUS_HANDOVERS, 1, 0x0, .rc, 0⟩]
def rowsADV_2 : List FieldRow :=
  [⟨PAIR_STATUS_PAIR_MISMATCH, 1, 0x0, .w1c, 0⟩,
   ⟨PAIR_STATUS_PARTNER_OK, 1, 0x0, .ro, 0⟩,
   ⟨PAIR_STATUS_PARTNER_FAULT, 1, 0x0, .ro, 0⟩,
   ⟨PAIR_STATUS_BY_LOSS, 1, 0x0, .ro, 0⟩,
   ⟨PAIR_STATUS_PARTNER_ACTIVE, 1, 0x0, .ro, 0⟩,
   ⟨PAIR_STATUS_ROLE, 1, 0x0, .ro, 0⟩,
   ⟨ADV_HOSTLEN_LENGTH, 1, 0x0, .rw, 0⟩,
   ⟨ADV_HOSTGO_GO, 1, 0x0, .w1s, 0⟩]
def rowsADV : List FieldRow := rowsADV_1 ++ rowsADV_2

def rowsALM : List FieldRow :=
  [⟨ALM_CTRL_DISCARD_AL, 1, 0x0, .w1s, 0⟩,
   ⟨ALM_CTRL_COMMIT, 1, 0x0, .w1s, 0⟩,
   ⟨ALM_STATUS_DROPPED, 1, 0x0, .rc, 0⟩,
   ⟨ALM_STATUS_AL_DROPPED, 1, 0x0, .w1c, 0⟩,
   ⟨ALM_STATUS_EPOCH_NEW, 1, 0x0, .w1c, 0⟩,
   ⟨ALM_STATUS_HELD_LOST, 1, 0x0, .w1c, 0⟩,
   ⟨ALM_STATUS_HOLDING, 1, 0x0, .ro, 0⟩,
   ⟨ALM_STATUS_EMPTY, 1, 0x0, .ro, 0⟩,
   ⟨ALM_STATUS_ENABLED, 1, 0x0, .ro, 0⟩,
   ⟨ALM_LEDGER_MINUTES, 8, 0x4, .ro, 0⟩]

def rowsCAMP_1 : List FieldRow :=
  [⟨CAMP_CTRL_PIPE_B, 1, 0x0, .rwAl, 0⟩,
   ⟨CAMP_CTRL_PIPE, 1, 0x0, .rwAl, 0⟩,
   ⟨CAMP_CTRL_TRAIN_MODE, 1, 0x0, .rwAl, 0⟩,
   ⟨CAMP_CTRL_ODT, 1, 0x0, .rwAl, 0⟩,
   ⟨CAMP_CTRL_FRAME_PAD, 1, 0x0, .rwShAl, 0⟩,
   ⟨CAMP_CTRL_LINE_PAD, 1, 0x0, .rwShAl, 0⟩,
   ⟨CAMP_CTRL_PACK, 1, 0x0, .rwAl, 0⟩,
   ⟨CAMP_CTRL_GANG, 1, 0x0, .rwAl, 0⟩,
   ⟨CAMP_CTRL_EN, 1, 0x0, .rwAl, 0⟩,
   ⟨CAMP_SIZE_HEIGHT, 1, 0x0, .rwShAl, 0x870⟩,
   ⟨CAMP_SIZE_WIDTH, 1, 0x0, .rwShAl, 0x1000⟩,
   ⟨CAMP_PAD_PAD_BLACK, 1, 0x0, .rwShAl, 0⟩,
   ⟨CAMP_STREAM_STREAM_ID, 1, 0x0, .rwAl, 0x3FF⟩,
   ⟨CAMP_LTO_LINE_TIMEOUT, 1, 0x0, .rwAl, 0⟩,
   ⟨CAMP_FDL_FRAME_DEADLINE, 1, 0x0, .rwAl, 0⟩,
   ⟨CAMP_FRAME_FRAME_NEXT, 1, 0x0, .rw, 0⟩,
   ⟨CAMP_TRWORD_TRAIN_WORD, 1, 0x0, .rwAl, 0xA5C33C5A⟩,
   ⟨CAMP_TRCTL_TRACK_OFFSET, 1, 0x0, .rwAl, 6⟩,
   ⟨CAMP_TRCTL_MIN_EYE, 1, 0x0, .rwAl, 0x10⟩,
   ⟨CAMP_TRCTL_START, 1, 0x0, .w1s, 0⟩,
   ⟨CAMP_TRFAIL_FAIL_MASK, 1, 0x0, .ro, 0⟩,
   ⟨CAMP_TAP_WEAK, 1, 0x0, .ro, 0⟩,
   ⟨CAMP_TAP_EYE, 1, 0x0, .ro, 0⟩,
   ⟨CAMP_TAP_TAP, 1, 0x0, .rw, 0x20⟩,
   ⟨CAMP_STATUS_LEADER, 1, 0x0, .ro, 0⟩,
   ⟨CAMP_STATUS_MEMBER, 1, 0x0, .ro, 0⟩,
   ⟨CAMP_STATUS_CFG_ERR, 1, 0x0, .w1c, 0⟩,
   ⟨CAMP_STATUS_OVERFLOW, 1, 0x0, .w1c, 0⟩,
   ⟨CAMP_STATUS_GANG_SKEW, 1, 0x0, .w1c, 0⟩,
   ⟨CAMP_STATUS_TRAIN_BUSY, 1, 0x0, .ro, 0⟩,
   ⟨CAMP_STATUS_TRAIN_FAIL, 1, 0x0, .w1c, 0⟩,
   ⟨CAMP_STATUS_TRAINED, 1, 0x0, .ro, 0⟩,
   ⟨CAMP_STATUS_CK_LOST, 1, 0x0, .ro, 0⟩,
   ⟨CAMP_STATUS_NO_SIGNAL, 1, 0x0, .ro, 0⟩,
   ⟨CAMP_STATUS_IN_FRAME, 1, 0x0, .ro, 0⟩,
   ⟨CAMP_STATUS_ACTIVE, 1, 0x0, .ro, 0⟩,
   ⟨CAMP_CNTA_LONG_LINES, 1, 0x0, .rc, 0⟩,
   ⟨CAMP_CNTA_SHORT_LINES, 1, 0x0, .rc, 0⟩,
   ⟨CAMP_CNTB_STRAY, 1, 0x0, .rc, 0⟩,
   ⟨CAMP_CNTB_LINE_TIMEOUTS, 1, 0x0, .rc, 0⟩]
def rowsCAMP_2 : List FieldRow :=
  [⟨CAMP_CNTC_OVERFLOWS, 1, 0x0, .rc, 0⟩,
   ⟨CAMP_CNTC_LATE_FRAMES, 1, 0x0, .rc, 0⟩,
   ⟨CAMP_CNTC_LONG_FRAMES, 1, 0x0, .rc, 0⟩,
   ⟨CAMP_CNTC_SHORT_FRAMES, 1, 0x0, .rc, 0⟩,
   ⟨CAMP_FIFO_HWM, 1, 0x0, .rc, 0⟩,
   ⟨CAMP_FIFO_LEVEL, 1, 0x0, .ro, 0⟩,
   ⟨CAMP_TFRAME_TFRAME_NS, 1, 0x0, .ro, 0⟩,
   ⟨CAMP_TLINE_TLINE_PS, 1, 0x0, .ro, 0⟩,
   ⟨CAMP_FVTS_NS_FV_NS, 1, 0x0, .ro, 0⟩,
   ⟨CAMP_FVTS_SEC_FV_SEC, 1, 0x0, .ro, 0⟩,
   ⟨CAMP_TAPIDX_INDEX, 1, 0x0, .rw, 0⟩]
def rowsCAMP : List FieldRow := rowsCAMP_1 ++ rowsCAMP_2

def rowsCAL : List FieldRow :=
  [⟨CAL_CTRL_MAX_RETRY, 1, 0x0, .rwAl, 1⟩,
   ⟨CAL_CTRL_MISS_POLICY, 1, 0x0, .rwAl, 0⟩,
   ⟨CAL_CTRL_TWC, 1, 0x0, .rwAl, 0⟩,
   ⟨CAL_CTRL_K, 1, 0x0, .rwAl, 0⟩,
   ⟨CAL_CTRL_EN, 1, 0x0, .rwAl, 0⟩,
   ⟨CAL_TIMING_DL_GUARD, 1, 0x0, .rwAl, 0x32⟩,
   ⟨CAL_TIMING_TRIG_LINES, 1, 0x0, .rwAl, 2⟩,
   ⟨CAL_EXPOFS_EXP_OFFSET, 1, 0x0, .rwShAl, 0⟩,
   ⟨CAL_EIDX_EIDX, 1, 0x0, .rw, 0⟩,
   ⟨CAL_ENTRY0_WORD, 1, 0x0, .rw, 0⟩,
   ⟨CAL_ENTRY1_WORD, 1, 0x0, .rw, 0⟩,
   ⟨CAL_ENTRY2_WORD, 1, 0x0, .rw, 0⟩,
   ⟨CAL_ENTRY3_WORD, 1, 0x0, .rw, 0⟩,
   ⟨CAL_WIDX_WIDX, 1, 0x0, .rw, 0⟩,
   ⟨CAL_WDATA0_WORD, 1, 0x0, .rw, 0⟩,
   ⟨CAL_WDATA1_WORD, 1, 0x0, .rw, 0⟩,
   ⟨CAL_PIDX_PIDX, 1, 0x0, .rw, 0⟩,
   ⟨CAL_PDATA_WORD, 1, 0x0, .rw, 0⟩,
   ⟨CAL_STATUS_NO_TFRAME, 1, 0x0, .ro, 1⟩,
   ⟨CAL_STATUS_MISS, 1, 0x0, .w1c, 0⟩,
   ⟨CAL_STATUS_CFG_ERR, 1, 0x0, .w1c, 0⟩,
   ⟨CAL_STATUS_RUNNING, 1, 0x0, .ro, 0⟩,
   ⟨CAL_INFORCE_CAL_ID, 1, 0x0, .ro, 0xFFFF⟩,
   ⟨CAL_INFORCE_F_FRAME, 1, 0x0, .ro, 0⟩,
   ⟨CAL_MISS_LAST_MISSED_ID, 1, 0x0, .ro, 0xFFFF⟩,
   ⟨CAL_CNT_MISSES, 1, 0x0, .rc, 0⟩,
   ⟨CAL_CNT_EXPIRED, 1, 0x0, .rc, 0⟩,
   ⟨CAL_CNT_DUPS, 1, 0x0, .rc, 0⟩,
   ⟨CAL_MID_NS_MID_NS, 1, 0x0, .ro, 0⟩,
   ⟨CAL_MID_SEC_MID_SEC, 1, 0x0, .ro, 0⟩]

def rowsPIPE_1 : List FieldRow :=
  [⟨FE_CTRL_TNR_SLOT, 1, 0x0, .rwAl, 3⟩,
   ⟨FE_TIDX_SLOT, 1, 0x0, .rw, 0⟩,
   ⟨FE_TIDX_TABLE, 1, 0x0, .rw, 0⟩,
   ⟨FE_TIDX_BANK, 1, 0x0, .rw, 0⟩,
   ⟨FE_TIDX_INDEX, 1, 0x0, .rw, 0⟩,
   ⟨FE_TDATA_DATA, 1, 0x0, .rw, 0⟩,
   ⟨FE_REFBUF_DROPS, 1, 0x0, .rc, 0⟩,
   ⟨FE_REFBUF_HWM, 1, 0x0, .rc, 0⟩,
   ⟨FE_REFBUF_LEVEL, 1, 0x0, .ro, 0⟩,
   ⟨FE_REF_BASE0_ADDR, 1, 0x0, .rwAl, 0⟩,
   ⟨FE_REF_BASE1_ADDR, 1, 0x0, .rwAl, 0⟩,
   ⟨FE_TNR_STAT_FALLBACK_LINES, 1, 0x0, .rc, 0⟩,
   ⟨FE_TNR_STAT_POISON_LINES, 1, 0x0, .rc, 0⟩,
   ⟨FE_SCTRL_TBANK, 3, 0x40, .rwShAl, 0⟩,
   ⟨FE_SCTRL_WB_EN, 3, 0x40, .rwShAl, 0⟩,
   ⟨FE_SCTRL_LSC_EN, 3, 0x40, .rwShAl, 0⟩,
   ⟨FE_SCTRL_TNR_EN, 3, 0x40, .rwShAl, 0⟩,
   ⟨FE_SCTRL_SNR_EN, 3, 0x40, .rwShAl, 0⟩,
   ⟨FE_SCTRL_DDD_EN, 3, 0x40, .rwShAl, 0⟩,
   ⟨FE_SCTRL_DEF_EN, 3, 0x40, .rwShAl, 0⟩,
   ⟨FE_SCTRL_BL_EN, 3, 0x40, .rwShAl, 0⟩,
   ⟨FE_SCTRL_STREAM_ID, 3, 0x40, .rwAl, 0x3FF⟩,
   ⟨FE_BL_RG_BL_G, 3, 0x40, .rwShAl, 0⟩,
   ⟨FE_BL_RG_BL_R, 3, 0x40, .rwShAl, 0⟩,
   ⟨FE_BL_BC_BL_C, 3, 0x40, .rwShAl, 0⟩,
   ⟨FE_BL_BC_BL_B, 3, 0x40, .rwShAl, 0⟩,
   ⟨FE_BL_IRP_PEDESTAL, 3, 0x40, .rwShAl, 0x200⟩,
   ⟨FE_BL_IRP_BL_IR, 3, 0x40, .rwShAl, 0⟩,
   ⟨FE_WB_RG_WB_G, 3, 0x40, .rwShAl, 0x1000⟩,
   ⟨FE_WB_RG_WB_R, 3, 0x40, .rwShAl, 0x1000⟩,
   ⟨FE_WB_BC_WB_C, 3, 0x40, .rwShAl, 0x1000⟩,
   ⟨FE_WB_BC_WB_B, 3, 0x40, .rwShAl, 0x1000⟩,
   ⟨FE_WB_IR_WB_IR, 3, 0x40, .rwShAl, 0x1000⟩,
   ⟨FE_DEF_DDD_K, 3, 0x40, .rwShAl, 8⟩,
   ⟨FE_DEF_DEF_COUNT, 3, 0x40, .rwShAl, 0⟩,
   ⟨FE_NR_ALPHA_MAX, 3, 0x40, .rwShAl, 0xC0⟩,
   ⟨FE_NR_GATE, 3, 0x40, .rwShAl, 0x60⟩,
   ⟨FE_NR_SNR_SCALE, 3, 0x40, .rwShAl, 0x40⟩,
   ⟨FE_CNT_DEF_CORR, 3, 0x40, .rc, 0⟩,
   ⟨FE_CNT_DDD_CORR, 3, 0x40, .rc, 0⟩]
def rowsPIPE_2 : List FieldRow :=
  [⟨FE_CNT2_DEF_ORDER, 3, 0x40, .rc, 0⟩,
   ⟨FE_CNT2_UNREPAIRED, 3, 0x40, .rc, 0⟩,
   ⟨FE_SSTAT_TBL_ERR, 3, 0x40, .w1c, 0⟩,
   ⟨COL_TIDX_SLOT, 1, 0x0, .rw, 0⟩,
   ⟨COL_TIDX_TABLE, 1, 0x0, .rw, 0⟩,
   ⟨COL_TIDX_BANK, 1, 0x0, .rw, 0⟩,
   ⟨COL_TIDX_INDEX, 1, 0x0, .rw, 0⟩,
   ⟨COL_TDATA_DATA, 1, 0x0, .rw, 0⟩,
   ⟨COL_LDADDR_ADDR, 1, 0x0, .rw, 0⟩,
   ⟨COL_LDCTL_GO, 1, 0x0, .w1s, 0⟩,
   ⟨COL_LDCTL_LD_ERR, 1, 0x0, .w1c, 0⟩,
   ⟨COL_LDCTL_COUNT, 1, 0x0, .rw, 0⟩,
   ⟨COL_SCTRL_HV_DROP, 3, 0x60, .w1c, 0⟩,
   ⟨COL_SCTRL_OUT_ERR, 3, 0x60, .w1c, 0⟩,
   ⟨COL_SCTRL_CFG_ERR, 3, 0x60, .w1c, 0⟩,
   ⟨COL_SCTRL_TBL_ERR, 3, 0x60, .w1c, 0⟩,
   ⟨COL_SCTRL_LUT_BANK, 3, 0x60, .rwShAl, 0⟩,
   ⟨COL_SCTRL_CRV_BANK, 3, 0x60, .rwShAl, 0⟩,
   ⟨COL_SCTRL_HV_EN, 3, 0x60, .rwShAl, 0⟩,
   ⟨COL_SCTRL_HV_TAP, 3, 0x60, .rwShAl, 0⟩,
   ⟨COL_SCTRL_IR_EXP, 3, 0x60, .rwShAl, 0⟩,
   ⟨COL_SCTRL_PRX_EN, 3, 0x60, .rwShAl, 0⟩,
   ⟨COL_SCTRL_BC_EN, 3, 0x60, .rwShAl, 0⟩,
   ⟨COL_SCTRL_WALL_WR, 3, 0x60, .rwShAl, 0⟩,
   ⟨COL_SCTRL_SHP_EN, 3, 0x60, .rwShAl, 0⟩,
   ⟨COL_SCTRL_POST_EN, 3, 0x60, .rwShAl, 0⟩,
   ⟨COL_SCTRL_LUT_EN, 3, 0x60, .rwShAl, 0⟩,
   ⟨COL_SCTRL_PRE_EN, 3, 0x60, .rwShAl, 0⟩,
   ⟨COL_SCTRL_CAM_EN, 3, 0x60, .rwShAl, 0⟩,
   ⟨COL_SCTRL_DM_EN, 3, 0x60, .rwShAl, 0⟩,
   ⟨MOS_D0_CELLS_01, 3, 0x60, .rwShAl, 0x21211010⟩,
   ⟨MOS_D1_CELLS_23, 3, 0x60, .rwShAl, 0x21211010⟩,
   ⟨MOS_CFG_IRR_EN, 3, 0x60, .rwShAl, 0⟩,
   ⟨MOS_CFG_DM_THR, 3, 0x60, .rwShAl, 0x80⟩,
   ⟨MOS_CFG_IR_PRESENT, 3, 0x60, .ro, 0⟩,
   ⟨MOS_CFG_GUIDE_C, 3, 0x60, .ro, 0⟩,
   ⟨MOS_CFG_P4, 3, 0x60, .ro, 0⟩,
   ⟨MOS_CFG_PHASE_Y, 3, 0x60, .rwShAl, 0⟩,
   ⟨MOS_CFG_PHASE_X, 3, 0x60, .rwShAl, 0⟩,
   ⟨EXP_TRIM_TRIM, 3, 0x60, .rwShAl, 0x10000⟩]
def rowsPIPE_3 : List FieldRow :=
  [⟨SHP_CFG_LIMIT, 3, 0x60, .rwShAl, 0x40⟩,
   ⟨SHP_CFG_CORE, 3, 0x60, .rwShAl, 4⟩,
   ⟨SHP_CFG_AMOUNT, 3, 0x60, .rwShAl, 0x20⟩,
   ⟨OUT_CFG_PRX_SCALE, 3, 0x60, .rwShAl, 0⟩,
   ⟨OUT_CFG_BC_FULL, 3, 0x60, .rwShAl, 0⟩,
   ⟨OUT_CFG_BC_TF, 3, 0x60, .rwShAl, 0⟩,
   ⟨OUT_CFG_BC_PRIM, 3, 0x60, .rwShAl, 0⟩,
   ⟨OUT_CFG_HV_RING, 3, 0x60, .rwShAl, 0⟩,
   ⟨OUT_CFG_IR_RING, 3, 0x60, .rwShAl, 0⟩,
   ⟨OUT_CFG_PRX_RING, 3, 0x60, .rwShAl, 0⟩,
   ⟨OUT_CFG_BC_RING, 3, 0x60, .rwShAl, 0⟩,
   ⟨OUT_CFG_WALL_RING, 3, 0x60, .rwShAl, 0⟩,
   ⟨WALL_BASE_ADDR, 3, 0x60, .rwShAl, 0⟩,
   ⟨BC_BASE_ADDR, 3, 0x60, .rwShAl, 0⟩,
   ⟨PRX_BASE_ADDR, 3, 0x60, .rwShAl, 0⟩,
   ⟨IR_BASE_ADDR, 3, 0x60, .rwShAl, 0⟩,
   ⟨HV_BASE_ADDR, 3, 0x60, .rwShAl, 0⟩,
   ⟨HV_THR_HI_THR, 3, 0x60, .rwShAl, 0x3C00⟩,
   ⟨HV_THR_LO_THR, 3, 0x60, .rwShAl, 0x1400⟩,
   ⟨IRM0_HI, 3, 0x60, .rwShAl, 0⟩,
   ⟨IRM0_LO, 3, 0x60, .rwShAl, 0x1000⟩,
   ⟨IRM1_HI, 3, 0x60, .rwShAl, 0⟩,
   ⟨IRM1_LO, 3, 0x60, .rwShAl, 0⟩,
   ⟨IRM2_HI, 3, 0x60, .rwShAl, 0x1000⟩,
   ⟨IRM2_LO, 3, 0x60, .rwShAl, 0⟩,
   ⟨IRM3_HI, 3, 0x60, .rwShAl, 0⟩,
   ⟨IRM3_LO, 3, 0x60, .rwShAl, 0⟩,
   ⟨IRM4_HI, 3, 0x60, .rwShAl, 0⟩,
   ⟨IRM4_LO, 3, 0x60, .rwShAl, 0⟩,
   ⟨IRM5_HI, 3, 0x60, .rwShAl, 0⟩,
   ⟨IRM5_LO, 3, 0x60, .rwShAl, 0x1000⟩,
   ⟨CAM0_HI, 3, 0x60, .rwShAl, 0⟩,
   ⟨CAM0_LO, 3, 0x60, .rwShAl, 0x1000⟩,
   ⟨CAM1_HI, 3, 0x60, .rwShAl, 0⟩,
   ⟨CAM1_LO, 3, 0x60, .rwShAl, 0⟩,
   ⟨CAM2_HI, 3, 0x60, .rwShAl, 0⟩,
   ⟨CAM2_LO, 3, 0x60, .rwShAl, 0x1000⟩,
   ⟨CAM3_HI, 3, 0x60, .rwShAl, 0⟩,
   ⟨CAM3_LO, 3, 0x60, .rwShAl, 0⟩,
   ⟨CAM4_LO, 3, 0x60, .rwShAl, 0x1000⟩]
def rowsPIPE : List FieldRow := rowsPIPE_1 ++ rowsPIPE_2 ++ rowsPIPE_3

def rowsMFE : List FieldRow :=
  [⟨MFE_CTRL_TILT_SIGN, 1, 0x0, .rwAl, 0⟩,
   ⟨MFE_CTRL_PAN_SIGN, 1, 0x0, .rwAl, 0⟩,
   ⟨MFE_CTRL_GM_EN, 1, 0x0, .rwAl, 0⟩,
   ⟨MFE_CTRL_PROXY_MASK, 1, 0x0, .rwAl, 0xA⟩,
   ⟨MFE_CTRL_EN, 1, 0x0, .rwAl, 0⟩,
   ⟨MFE_AXES_ZOOM_AXIS, 1, 0x0, .rwAl, 0x3F⟩,
   ⟨MFE_AXES_TILT_AXIS, 1, 0x0, .rwAl, 0x3F⟩,
   ⟨MFE_AXES_PAN_AXIS, 1, 0x0, .rwAl, 0x3F⟩,
   ⟨MFE_ZMIN_ZMIN, 1, 0x0, .rwAl, 0⟩,
   ⟨MFE_ZMAX_ZMAX, 1, 0x0, .rwAl, 0⟩,
   ⟨MFE_FIDX_FIDX, 1, 0x0, .rw, 0⟩,
   ⟨MFE_FDATA_FOCAL, 1, 0x0, .rwAl, 0⟩,
   ⟨MFE_LAMBDA_LAMBDA, 1, 0x0, .rwShAl, 4⟩,
   ⟨MFE_FLD_BASE0_ADDR, 1, 0x0, .rwAl, 0⟩,
   ⟨MFE_FLD_BASE1_ADDR, 1, 0x0, .rwAl, 0⟩,
   ⟨MFE_PRX_BASE0_ADDR, 1, 0x0, .rwAl, 0⟩,
   ⟨MFE_PRX_BASE1_ADDR, 1, 0x0, .rwAl, 0⟩,
   ⟨MFE_GM_GY, 1, 0x0, .ro, 0⟩,
   ⟨MFE_GM_GX, 1, 0x0, .ro, 0⟩,
   ⟨MFE_CNT_INCOMPLETE, 1, 0x0, .rc, 0⟩,
   ⟨MFE_STATUS_FIELD_ERR, 1, 0x0, .w1c, 0⟩,
   ⟨MFE_STATUS_BUSY, 1, 0x0, .ro, 0⟩]

def rowsHEAD_1 : List FieldRow :=
  [⟨HEAD_CTRL_EN, 1, 0x0, .rwAl, 0⟩,
   ⟨HEAD_CTRL_LOCK_EN, 1, 0x0, .rwShAl, 0⟩,
   ⟨HEAD_CTRL_LOCK_PORT, 1, 0x0, .rwShAl, 0⟩,
   ⟨HEAD_CTRL_PL_BANK, 1, 0x0, .rwShAl, 0⟩,
   ⟨HEAD_SIZE_RAS_H, 1, 0x0, .rwShAl, 0x870⟩,
   ⟨HEAD_SIZE_RAS_W, 1, 0x0, .rwShAl, 0xF00⟩,
   ⟨HEAD_VT_VT_MAX, 1, 0x0, .rwShAl, 0x960⟩,
   ⟨HEAD_VT_VT_MIN, 1, 0x0, .rwShAl, 0x898⟩,
   ⟨HEAD_VTNOM_VT_NOM, 1, 0x0, .rwShAl, 0x8CA⟩,
   ⟨HEAD_OLP_OL_PERIOD, 1, 0x0, .rwShAl, 0⟩,
   ⟨HEAD_WAIT_WAIT_NS, 1, 0x0, .rwAl, 0⟩,
   ⟨HEAD_BG0_BG_C1, 1, 0x0, .rwShAl, 0⟩,
   ⟨HEAD_BG0_BG_C0, 1, 0x0, .rwShAl, 0⟩,
   ⟨HEAD_BG1_BG_C2, 1, 0x0, .rwShAl, 0⟩,
   ⟨HEAD_SID_STREAM_ID, 1, 0x0, .rwAl, 0x3FF⟩,
   ⟨HEAD_FREC_BASE_ADDR, 1, 0x0, .rwAl, 0⟩,
   ⟨HEAD_FREC_CFG_FREC_EN, 1, 0x0, .rwAl, 0⟩,
   ⟨HEAD_FREC_CFG_FREC_LOG2, 1, 0x0, .rwAl, 0⟩,
   ⟨HEAD_FILTIDX_INDEX, 1, 0x0, .rw, 0⟩,
   ⟨HEAD_FILTDATA_COEF, 1, 0x0, .rw, 0⟩,
   ⟨HEAD_PLIDX_INDEX, 1, 0x0, .rw, 0⟩,
   ⟨HEAD_PLDATA_WORD, 1, 0x0, .rw, 0⟩,
   ⟨LYR_CTRL_EN, 16, 0x18, .rwShAl, 0⟩,
   ⟨LYR_CTRL_TYPE, 16, 0x18, .rwShAl, 1⟩,
   ⟨LYR_CTRL_OPAQUE, 16, 0x18, .rwShAl, 0⟩,
   ⟨LYR_CTRL_VTAPS, 16, 0x18, .rwShAl, 0⟩,
   ⟨LYR_CTRL_HTAPS, 16, 0x18, .rwShAl, 0⟩,
   ⟨LYR_CTRL_VBANK, 16, 0x18, .rwShAl, 0⟩,
   ⟨LYR_CTRL_HBANK, 16, 0x18, .rwShAl, 0⟩,
   ⟨LYR_CTRL_GA, 16, 0x18, .rwShAl, 0xFF⟩,
   ⟨LYR_CTRL_STREAM_ID, 16, 0x18, .rwShAl, 0x3FF⟩,
   ⟨LYR_SRC_XY_SRC_Y, 16, 0x18, .rwShAl, 0⟩,
   ⟨LYR_SRC_XY_SRC_X, 16, 0x18, .rwShAl, 0⟩,
   ⟨LYR_SRC_WH_SRC_H, 16, 0x18, .rwShAl, 0x10⟩,
   ⟨LYR_SRC_WH_SRC_W, 16, 0x18, .rwShAl, 0x10⟩,
   ⟨LYR_DST_XY_DST_Y, 16, 0x18, .rwShAl, 0⟩,
   ⟨LYR_DST_XY_DST_X, 16, 0x18, .rwShAl, 0⟩,
   ⟨LYR_DST_WH_DST_H, 16, 0x18, .rwShAl, 0x10⟩,
   ⟨LYR_DST_WH_DST_W, 16, 0x18, .rwShAl, 0x10⟩,
   ⟨LYR_DESC_ADDR, 16, 0x18, .rwShAl, 0⟩]
def rowsHEAD_2 : List FieldRow :=
  [⟨HEAD_STATUS_D_CLAMP, 1, 0x0, .w1c, 0⟩,
   ⟨HEAD_STATUS_ROT_OVF, 1, 0x0, .w1c, 0⟩,
   ⟨HEAD_STATUS_FREC_DROP, 1, 0x0, .w1c, 0⟩,
   ⟨HEAD_STATUS_PL_ERR, 1, 0x0, .w1c, 0⟩,
   ⟨HEAD_STATUS_TBL_ERR, 1, 0x0, .w1c, 0⟩,
   ⟨HEAD_STATUS_CFG_ERR, 1, 0x0, .w1c, 0⟩,
   ⟨HEAD_STATUS_FORCED, 1, 0x0, .ro, 0⟩,
   ⟨HEAD_STATUS_LEAP, 1, 0x0, .ro, 0⟩,
   ⟨HEAD_STATUS_LOCKED, 1, 0x0, .ro, 0⟩,
   ⟨HEAD_STATUS_RUNNING, 1, 0x0, .ro, 0⟩,
   ⟨HEAD_FRAME_FRAME, 1, 0x0, .ro, 0⟩,
   ⟨HEAD_FS_NS_FS_NS, 1, 0x0, .ro, 0⟩,
   ⟨HEAD_FS_SEC_FS_SEC, 1, 0x0, .ro, 0⟩,
   ⟨HEAD_CNT_LEAP_FRAMES, 1, 0x0, .rc, 0⟩,
   ⟨HEAD_CNT_FORCED_FRAMES, 1, 0x0, .rc, 0⟩,
   ⟨HEAD_CNT2_EARLY, 1, 0x0, .rc, 0⟩,
   ⟨HEAD_CNT2_DISCARDS, 1, 0x0, .rc, 0⟩,
   ⟨HEAD_CNT2_WAIT_ROWS, 1, 0x0, .rc, 0⟩,
   ⟨HEAD_LAST_UR_MASK, 1, 0x0, .ro, 0⟩,
   ⟨HEAD_LAST_LEAP_LINES, 1, 0x0, .ro, 0⟩,
   ⟨HEAD_GFV_G_NS, 1, 0x0, .ro, 0⟩]
def rowsHEAD : List FieldRow := rowsHEAD_1 ++ rowsHEAD_2

def rowsTCM : List FieldRow :=
  [⟨TCM_CTRL_EM_EN, 1, 0x0, .rwShAl, 0⟩,
   ⟨TCM_CTRL_CRV_BANK, 1, 0x0, .rwShAl, 0⟩,
   ⟨TCM_IDX_TABLE, 1, 0x0, .rw, 0⟩,
   ⟨TCM_IDX_INDEX, 1, 0x0, .rw, 0⟩,
   ⟨TCM_DATA_DATA, 1, 0x0, .rw, 0⟩,
   ⟨TCM_EM_BASE_ADDR, 1, 0x0, .rwAl, 0⟩,
   ⟨TCM_STATUS_PEND, 1, 0x0, .ro, 0⟩,
   ⟨TCM_STATUS_TBL_ERR, 1, 0x0, .w1c, 0⟩,
   ⟨TCM_STATUS_EM_ACTIVE, 1, 0x0, .ro, 0⟩,
   ⟨TCM_EMCNT_FALLBACK_ROWS, 1, 0x0, .rc, 0⟩,
   ⟨TCM_EMCNT_POISON_ROWS, 1, 0x0, .rc, 0⟩,
   ⟨TCM_LDADDR_ADDR, 1, 0x0, .rw, 0⟩,
   ⟨TCM_LDCTL_GO, 1, 0x0, .w1s, 0⟩,
   ⟨TCM_LDCTL_LD_ERR, 1, 0x0, .w1c, 0⟩,
   ⟨TCM_LDCTL_COUNT, 1, 0x0, .rw, 0⟩]

def rowsPRD : List FieldRow :=
  [⟨PRD_CTRL_EN, 1, 0x0, .rwAl, 0⟩,
   ⟨PRD_CTRL_RING, 1, 0x0, .rwAl, 0⟩,
   ⟨PRD_CTRL_LANES, 1, 0x0, .rwAl, 2⟩,
   ⟨PRD_CTRL_RATE, 1, 0x0, .rwAl, 1⟩,
   ⟨PRD_CTRL_QUAD, 1, 0x0, .rwAl, 0⟩,
   ⟨PRD_CTRL_SEG_MAX, 1, 0x0, .rwAl, 0x80⟩,
   ⟨PRD_TAG_TRUNK_TAG, 1, 0x0, .rwAl, 0⟩,
   ⟨PRD_BEACON_BEACON_US, 1, 0x0, .rwAl, 0x20⟩,
   ⟨PRD_STATUS_CFG_ERR, 1, 0x0, .w1c, 0⟩,
   ⟨PRD_STATUS_POLL_TIMEOUT, 1, 0x0, .w1c, 0⟩,
   ⟨PRD_STATUS_POLL_DONE, 1, 0x0, .w1c, 0⟩,
   ⟨PRD_STATUS_CENSUS_TIMEOUT, 1, 0x0, .w1c, 0⟩,
   ⟨PRD_STATUS_CENSUS_MISMATCH, 1, 0x0, .w1c, 0⟩,
   ⟨PRD_STATUS_CENSUS_DONE, 1, 0x0, .w1c, 0⟩,
   ⟨PRD_STATUS_CENSUS_BUSY, 1, 0x0, .ro, 0⟩,
   ⟨PRD_STATUS_RING_BROKEN, 1, 0x0, .w1c, 0⟩,
   ⟨PRD_STATUS_LOOP_OK, 1, 0x0, .ro, 0⟩,
   ⟨PRD_STATUS_RX_LOCK, 1, 0x0, .ro, 0⟩,
   ⟨PRD_STATUS_TX_ON, 1, 0x0, .ro, 0⟩,
   ⟨PRD_CENSUS_START, 1, 0x0, .w1s, 0⟩,
   ⟨PRD_CENSUS_AUTO, 1, 0x0, .rwAl, 1⟩,
   ⟨PRD_CENSUS_TIMEOUT_MS, 1, 0x0, .rwAl, 0x14⟩,
   ⟨PRD_CENSUS_BASE_ADDR, 1, 0x0, .rwAl, 0⟩,
   ⟨PRD_CENSUS_CNT_ENTRIES, 1, 0x0, .ro, 0⟩,
   ⟨PRD_CENSUS_CNT_MISSING, 1, 0x0, .ro, 0⟩,
   ⟨PRD_CENSUS_CNT2_UNEXPECTED, 1, 0x0, .ro, 0⟩,
   ⟨PRD_CENSUS_CNT2_DUPLICATE, 1, 0x0, .ro, 0⟩,
   ⟨PRD_CENSUS_CNT3_ID_MISMATCH, 1, 0x0, .ro, 0⟩,
   ⟨PRD_TCTL_GO, 1, 0x0, .w1s, 0⟩,
   ⟨PRD_TCTL_OP, 1, 0x0, .rw, 0⟩,
   ⟨PRD_TCTL_ADDR, 1, 0x0, .rw, 0⟩,
   ⟨PRD_TLEVEL_LEVEL, 1, 0x0, .rw, 0xFFFF⟩,
   ⟨PRD_REPLY0_CRC_ERRS, 1, 0x0, .ro, 0⟩,
   ⟨PRD_REPLY0_STATUS, 1, 0x0, .ro, 0⟩,
   ⟨PRD_REPLY1_ID_LO, 1, 0x0, .ro, 0⟩,
   ⟨PRD_REPLY2_ID_HI, 1, 0x0, .ro, 0⟩,
   ⟨PRD_RXCNT_CRC_ERR, 1, 0x0, .rc, 0⟩,
   ⟨PRD_RXCNT_RELOCK, 1, 0x0, .rc, 0⟩,
   ⟨PRD_TXCNT_PACKETS, 1, 0x0, .rc, 0⟩]

def rowsVCC_1 : List FieldRow :=
  [⟨VCC_CTRL_EN, 1, 0x0, .rwAl, 0⟩,
   ⟨VCC_FWID_FW_ID, 1, 0x0, .ro, 0⟩,
   ⟨VCC_STATUS_FAULT, 1, 0x0, .ro, 0⟩,
   ⟨VCC_STATUS_CTX_VALID, 1, 0x0, .ro, 0⟩,
   ⟨VCC_STATUS_CTX, 1, 0x0, .ro, 0⟩,
   ⟨VCC_STATUS_DEPTH, 1, 0x0, .ro, 0⟩,
   ⟨VCC_STATUS_FW_BAD, 1, 0x0, .ro, 0⟩,
   ⟨VCC_STATUS_SP_RUN, 1, 0x0, .ro, 0⟩,
   ⟨VCC_STATUS_BUSY, 1, 0x0, .ro, 0⟩,
   ⟨VCC_LOAD_CTUS, 1, 0x0, .ro, 0⟩,
   ⟨VCC_CTXBASE_ADDR, 1, 0x0, .rwAl, 0⟩,
   ⟨VCC_CTXCMD_BUSY, 1, 0x0, .ro, 0⟩,
   ⟨VCC_CTXCMD_CMD_LOST, 1, 0x0, .w1c, 0⟩,
   ⟨VCC_CTXCMD_OP, 1, 0x0, .rw, 0⟩,
   ⟨VCC_CTXCMD_CTX, 1, 0x0, .rw, 0⟩,
   ⟨VCC_CTXRES_CTX, 1, 0x0, .ro, 0⟩,
   ⟨VCC_CTXRES_CODE, 1, 0x0, .ro, 0⟩,
   ⟨VCC_RUN_LO_RUN, 1, 0x0, .ro, 0⟩,
   ⟨VCC_RUN_HI_RUN, 1, 0x0, .ro, 0⟩,
   ⟨VCC_EVT_LO_EVT, 1, 0x0, .w1c, 0⟩,
   ⟨VCC_EVT_HI_EVT, 1, 0x0, .w1c, 0⟩,
   ⟨VCC_ERR_LO_ERR, 1, 0x0, .w1c, 0⟩,
   ⟨VCC_ERR_HI_ERR, 1, 0x0, .w1c, 0⟩,
   ⟨VCC_CNT_PICTURES, 1, 0x0, .rc, 0⟩,
   ⟨VCC_CNT_EXHAUSTED, 1, 0x0, .rc, 0⟩,
   ⟨VCC_CNT2_ABANDONED, 1, 0x0, .rc, 0⟩,
   ⟨VCC_CNT2_NO_MFE, 1, 0x0, .rc, 0⟩,
   ⟨VCC_FLDCNT_FIELD_STALE, 1, 0x0, .rc, 0⟩,
   ⟨VCC_FLDCNT_FIELD_BAD, 1, 0x0, .rc, 0⟩,
   ⟨VDC_CNT_PICTURES, 1, 0x0, .rc, 0⟩,
   ⟨VDC_CNT_CONCEALED, 1, 0x0, .rc, 0⟩,
   ⟨VDC_CNT2_SUBSTITUTED, 1, 0x0, .rc, 0⟩,
   ⟨VDC_CNT2_WATCHDOGS, 1, 0x0, .rc, 0⟩,
   ⟨VDC_CNT3_BOUND_ERRS, 1, 0x0, .rc, 0⟩,
   ⟨VDC_CNT3_DROPPED, 1, 0x0, .rc, 0⟩,
   ⟨VDC_ERR_CODE, 1, 0x0, .ro, 0⟩,
   ⟨VDC_ERR_NESTED, 1, 0x0, .ro, 0⟩,
   ⟨VDC_ERR_CTX, 1, 0x0, .ro, 0⟩,
   ⟨VDC_ERR_CTU, 1, 0x0, .ro, 0⟩,
   ⟨VDC_BADADDR_LO_ADDR, 1, 0x0, .ro, 0⟩]
def rowsVCC_2 : List FieldRow :=
  [⟨VDC_BADADDR_HI_ADDR, 1, 0x0, .ro, 0⟩,
   ⟨VDC_TEXP_CYCLES, 1, 0x0, .ro, 0⟩,
   ⟨VDC_CLR_CLR, 1, 0x0, .w1s, 0⟩]
def rowsVCC : List FieldRow := rowsVCC_1 ++ rowsVCC_2

def rowsENG : List FieldRow :=
  [⟨ENG_CTRL_QUIESCE, 1, 0x0, .rw, 0⟩,
   ⟨ENG_CTRL_GATE_EN, 1, 0x0, .rwAl, 0⟩,
   ⟨ENG_CTRL_EN, 1, 0x0, .rwAl, 0xFF⟩,
   ⟨ENG_STATUS_FREQ, 1, 0x0, .ro, 8⟩,
   ⟨ENG_STATUS_FAST, 1, 0x0, .ro, 0⟩,
   ⟨ENG_STATUS_FW_BAD, 1, 0x0, .ro, 0⟩,
   ⟨ENG_STATUS_QUIESCED, 1, 0x0, .ro, 0⟩,
   ⟨ENG_STATUS_GATED, 1, 0x0, .ro, 0⟩,
   ⟨ENG_STATUS_FAULT, 1, 0x0, .ro, 0⟩,
   ⟨ENG_STATUS_BUSY, 1, 0x0, .ro, 0⟩,
   ⟨ENG_FWID_FW_ID, 1, 0x0, .ro, 0⟩,
   ⟨ENG_FWADDR_ADDR, 1, 0x0, .rw, 0⟩,
   ⟨ENG_FWCTL_GO, 1, 0x0, .w1s, 0⟩,
   ⟨ENG_FWCTL_LD_ERR, 1, 0x0, .w1c, 0⟩,
   ⟨ENG_QCFG_QEN, 1, 0x0, .rwAl, 0⟩,
   ⟨ENG_QCFG_QLOG3_QLOG0, 1, 0x0, .rwAl, 0⟩,
   ⟨ENG_QBASE_ADDR, 4, 0x4, .rwAl, 0⟩,
   ⟨ENG_QPTR_RD, 4, 0x4, .ro, 0⟩,
   ⟨ENG_QPTR_WR, 4, 0x4, .rw, 0⟩,
   ⟨ENG_EVT_CMEM_ERR, 1, 0x0, .w1c, 0⟩,
   ⟨ENG_EVT_CDMA_ERR, 1, 0x0, .w1c, 0⟩,
   ⟨ENG_EVT_QERR, 1, 0x0, .w1c, 0⟩,
   ⟨ENG_EVT_JOB_DONE, 1, 0x0, .w1c, 0⟩,
   ⟨ENG_CNT_JOBS, 1, 0x0, .rc, 0⟩,
   ⟨ENG_CNT_JOB_ERRS, 1, 0x0, .rc, 0⟩]

def rowsDMC : List FieldRow :=
  [⟨DMC_CTRL_SCRUB_HOURS, 1, 0x0, .rwAl, 0x18⟩,
   ⟨DMC_CTRL_RATE, 1, 0x0, .rwLk, 4⟩,
   ⟨DMC_GEOM_RANKS, 1, 0x0, .rwLk, 0⟩,
   ⟨DMC_GEOM_CAP, 1, 0x0, .rwLk, 8⟩,
   ⟨DMC_CHCFG_PAIR_USE, 1, 0x0, .ro, 0⟩,
   ⟨DMC_CHCFG_PAIR_FAIL, 1, 0x0, .ro, 0⟩,
   ⟨DMC_CHCFG_CHANNELS, 1, 0x0, .ro, 0⟩,
   ⟨DMC_CH_MASK_MASK, 1, 0x0, .rwLk, 0x1111111⟩,
   ⟨DMC_CH_MASK_MASK.at 0x14, 1, 0x0, .rwLk, 0x2222222⟩,
   ⟨DMC_CH_MASK_MASK.at 0x18, 1, 0x0, .rwLk, 0x444444⟩,
   ⟨DMC_CH_MASK_MASK.at 0x1C, 1, 0x0, .rwLk, 0x888888⟩,
   ⟨DMC_BANK_MASK_MASK, 1, 0x0, .rwLk, 0x111⟩,
   ⟨DMC_BANK_MASK_MASK.at 0x24, 1, 0x0, .rwLk, 0x222⟩,
   ⟨DMC_BANK_MASK_MASK.at 0x28, 1, 0x0, .rwLk, 0x444⟩,
   ⟨DMC_BANK_MASK_MASK.at 0x2C, 1, 0x0, .rwLk, 0x888⟩,
   ⟨DMC_USABLE_MIB, 1, 0x0, .ro, 0⟩,
   ⟨DMC_XLATE_LO_ADDR, 1, 0x0, .rw, 0⟩,
   ⟨DMC_XLATE_HI_ADDR, 1, 0x0, .rw, 0⟩,
   ⟨DMC_XLATE_RES0_CH, 1, 0x0, .ro, 0⟩,
   ⟨DMC_XLATE_RES0_SUB, 1, 0x0, .ro, 0⟩,
   ⟨DMC_XLATE_RES0_RANK, 1, 0x0, .ro, 0⟩,
   ⟨DMC_XLATE_RES0_BANK, 1, 0x0, .ro, 0⟩,
   ⟨DMC_XLATE_RES0_COL, 1, 0x0, .ro, 0⟩,
   ⟨DMC_XLATE_RES0_INVALID, 1, 0x0, .ro, 0⟩,
   ⟨DMC_XLATE_RES1_ROW, 1, 0x0, .ro, 0⟩,
   ⟨DMC_STATUS_FROZEN, 1, 0x0, .ro, 0⟩,
   ⟨DMC_STATUS_DEGRADED, 1, 0x0, .ro, 0⟩,
   ⟨DMC_EVT_CFG_ERR, 1, 0x0, .w1c, 0⟩,
   ⟨DMC_EVT_FREEZE, 1, 0x0, .w1c, 0⟩,
   ⟨DMC_EVT_DEGRADE, 1, 0x0, .w1c, 0⟩]

def rowsDCH : List FieldRow :=
  [⟨DCH_STATUS_FROZEN, 1, 0x0, .ro, 0⟩,
   ⟨DCH_STATUS_NESTED, 1, 0x0, .ro, 0⟩,
   ⟨DCH_STATUS_DEGRADED, 1, 0x0, .ro, 0⟩,
   ⟨DCH_STATUS_RETRAIN_FAIL, 1, 0x0, .w1c, 0⟩,
   ⟨DCH_STATUS_DERATE, 1, 0x0, .ro, 0⟩,
   ⟨DCH_STATUS_EXCLUDED, 1, 0x0, .ro, 0⟩,
   ⟨DCH_STATUS_TRAINED, 1, 0x0, .ro, 0⟩,
   ⟨DCH_STATUS_IN_USE, 1, 0x0, .ro, 0⟩,
   ⟨DCH_FOM_FOM_MIN, 1, 0x0, .rwAl, 0x30⟩,
   ⟨DCH_FOM_FOM_PASS, 1, 0x0, .rwLk, 0x60⟩,
   ⟨DCH_FOM_FOM, 1, 0x0, .ro, 0⟩,
   ⟨DCH_RETRAIN_PERIOD_MS, 1, 0x0, .rwAl, 0x64⟩,
   ⟨DCH_RETRAIN_NOW, 1, 0x0, .w1s, 0⟩,
   ⟨DCH_TEMP_MR4, 1, 0x0, .ro, 0⟩,
   ⟨DCH_CECNT_LINK_CE, 1, 0x0, .rc, 0⟩,
   ⟨DCH_CECNT_INLINE_CE, 1, 0x0, .rc, 0⟩,
   ⟨DCH_CNT_LINK_RETRY, 1, 0x0, .rc, 0⟩,
   ⟨DCH_CNT_SCRUB_PASSES, 1, 0x0, .rc, 0⟩,
   ⟨DCH_UE_ADDR_LO_ADDR, 1, 0x0, .ro, 0⟩,
   ⟨DCH_UE_ADDR_HI_ADDR, 1, 0x0, .ro, 0⟩,
   ⟨DCH_UE_INFO_CAUSE, 1, 0x0, .ro, 0⟩,
   ⟨DCH_UE_INFO_CLASS, 1, 0x0, .ro, 0⟩,
   ⟨DCH_UE_INFO_SYNDROME, 1, 0x0, .ro, 0⟩,
   ⟨DCH_UE_SRC_NEST_COUNT, 1, 0x0, .ro, 0⟩,
   ⟨DCH_UE_SRC_REQUESTER, 1, 0x0, .ro, 0⟩,
   ⟨DCH_SNAPIDX_INDEX, 1, 0x0, .rw, 0⟩,
   ⟨DCH_SNAPDATA_WORD, 1, 0x0, .ro, 0⟩,
   ⟨DCH_DIAGADDR_UNIT, 1, 0x0, .rw, 0⟩,
   ⟨DCH_DIAGCTL_GO, 1, 0x0, .w1s, 0⟩,
   ⟨DCH_DIAGCTL_DONE, 1, 0x0, .w1c, 0⟩,
   ⟨DCH_DIAGDATA_DATA, 8, 0x4, .ro, 0⟩,
   ⟨DCH_DIAGDATA8_CHECK, 1, 0x0, .ro, 0⟩,
   ⟨DCH_CLR_CLR, 1, 0x0, .w1s, 0⟩,
   ⟨DCH_QLEVEL_WRQ, 1, 0x0, .ro, 0⟩,
   ⟨DCH_QLEVEL_RDQ, 1, 0x0, .ro, 0⟩]

def rowsDMA : List FieldRow :=
  [⟨DMA_CTRL_ARM, 1, 0x0, .w1s, 0⟩,
   ⟨DMA_CTRL_ABORT, 1, 0x0, .w1s, 0⟩,
   ⟨DMA_CTRL_DISARM, 1, 0x0, .w1s, 0⟩,
   ⟨DMA_CTRL_PAUSE, 1, 0x0, .rw, 0⟩,
   ⟨DMA_STATUS_ERRADDR_HI, 1, 0x0, .ro, 0⟩,
   ⟨DMA_STATUS_CAUSE, 1, 0x0, .ro, 0⟩,
   ⟨DMA_STATUS_NESTED, 1, 0x0, .ro, 0⟩,
   ⟨DMA_STATUS_CFG_ERR, 1, 0x0, .w1c, 0⟩,
   ⟨DMA_STATUS_SHADOW_FULL, 1, 0x0, .ro, 0⟩,
   ⟨DMA_STATUS_STATE, 1, 0x0, .ro, 0⟩,
   ⟨DMA_SRC_LO_SRC, 1, 0x0, .rw, 0⟩,
   ⟨DMA_DST_LO_DST, 1, 0x0, .rw, 0⟩,
   ⟨DMA_ADDR_HI_DST_HI, 1, 0x0, .rw, 0⟩,
   ⟨DMA_ADDR_HI_SRC_HI, 1, 0x0, .rw, 0⟩,
   ⟨DMA_ROWBYTES_ROW_BYTES, 1, 0x0, .rw, 0⟩,
   ⟨DMA_ROWS_CLASS1, 1, 0x0, .rw, 0⟩,
   ⟨DMA_ROWS_ROWS, 1, 0x0, .rw, 0⟩,
   ⟨DMA_SSTRIDE_SRC_STRIDE, 1, 0x0, .rw, 0⟩,
   ⟨DMA_DSTRIDE_DST_STRIDE, 1, 0x0, .rw, 0⟩,
   ⟨DMA_ERRADDR_ERRADDR, 1, 0x0, .ro, 0⟩]

def rowsDMAG : List FieldRow :=
  [⟨DMA_GCTL_PAUSE_ALL, 1, 0x0, .rw, 0⟩,
   ⟨DMA_DONE_DONE, 1, 0x0, .w1c, 0⟩,
   ⟨DMA_ERR_ERR, 1, 0x0, .w1c, 0⟩,
   ⟨DMA_BUSY_BUSY, 1, 0x0, .ro, 0⟩,
   ⟨DMA_DONE_EN_EN, 1, 0x0, .rw, 0⟩,
   ⟨DMA_ERR_EN_EN, 1, 0x0, .rw, 0xFFFFFFFF⟩,
   ⟨DMA_VIEWSEL_CH, 1, 0x0, .rw, 0⟩,
   ⟨DMA_VIEW_WORD, 7, 0x4, .ro, 0⟩,
   ⟨DMA_MOVED_KIB, 1, 0x0, .rc, 0⟩]

def rowsNVT : List FieldRow :=
  [⟨NVT_CTRL_SSD_MASK, 1, 0x0, .rwLk, 0⟩,
   ⟨NVT_CTRL_EN, 1, 0x0, .rwAl, 0⟩,
   ⟨NVT_STATUS_SSD_COUNT, 1, 0x0, .ro, 0⟩,
   ⟨NVT_STATUS_LABEL_ERR, 1, 0x0, .ro, 0⟩,
   ⟨NVT_STATUS_HOLD_TEMP, 1, 0x0, .ro, 0⟩,
   ⟨NVT_STATUS_STORE_STATE, 1, 0x0, .ro, 0⟩,
   ⟨NVT_CACHE_CACHE_MIB, 1, 0x0, .rwLk, 0⟩,
   ⟨NVT_CACHE_BASE_ADDR, 1, 0x0, .rwLk, 0⟩,
   ⟨NVT_REPLAY_BASE_ADDR, 1, 0x0, .rwAl, 0⟩,
   ⟨NVT_REPLAY_LBAS_LBAS, 1, 0x0, .rwAl, 0⟩,
   ⟨NVT_TIDX_INDEX, 1, 0x0, .rw, 0⟩,
   ⟨NVT_TDATA_WORD, 1, 0x0, .rw, 0⟩,
   ⟨NVT_TASK_RUN_RUN, 1, 0x0, .ro, 0⟩,
   ⟨NVT_EVT_CFG_ERR, 1, 0x0, .w1c, 0⟩,
   ⟨NVT_EVT_TASK_ERR, 1, 0x0, .w1c, 0⟩,
   ⟨NVT_EVT_TASK_GAP, 1, 0x0, .w1c, 0⟩,
   ⟨NVT_EVT_SSD_FAIL, 1, 0x0, .w1c, 0⟩,
   ⟨NVT_EVT_DEFER, 1, 0x0, .w1c, 0⟩,
   ⟨NVT_CNT_DEFERRED, 1, 0x0, .rc, 0⟩,
   ⟨NVT_CNT_ABORTED, 1, 0x0, .rc, 0⟩,
   ⟨NVT_DIRTY_MIB, 1, 0x0, .ro, 0⟩,
   ⟨NVT_STAGE_BASE_ADDR, 1, 0x0, .rwLk, 0⟩]

def rowsNVH : List FieldRow :=
  [⟨NVH_CTRL_MAX_SPEED, 1, 0x0, .rwAl, 5⟩,
   ⟨NVH_CTRL_EN, 1, 0x0, .rwAl, 0⟩,
   ⟨NVH_STATUS_WIDTH, 1, 0x0, .ro, 0⟩,
   ⟨NVH_STATUS_SPEED, 1, 0x0, .ro, 0⟩,
   ⟨NVH_STATUS_INCOMPAT, 1, 0x0, .ro, 0⟩,
   ⟨NVH_STATUS_STATE, 1, 0x0, .ro, 0⟩,
   ⟨NVH_LBAS_LO_LBAS, 1, 0x0, .ro, 0⟩,
   ⟨NVH_LBAS_HI_LBAS, 1, 0x0, .ro, 0⟩,
   ⟨NVH_ERR_NESTED, 1, 0x0, .ro, 0⟩,
   ⟨NVH_ERR_CAUSE, 1, 0x0, .ro, 0⟩,
   ⟨NVH_ERR_STATUS, 1, 0x0, .ro, 0⟩,
   ⟨NVH_CNT_RESETS, 1, 0x0, .rc, 0⟩,
   ⟨NVH_CNT_TIMEOUTS, 1, 0x0, .rc, 0⟩]

def rowsPCIE : List FieldRow :=
  [⟨PCIE_CTRL_MAX_SPEED, 1, 0x0, .rwLk, 5⟩,
   ⟨PCIE_CTRL_EN, 1, 0x0, .rwLk, 1⟩,
   ⟨PCIE_STATUS_WIDTH, 1, 0x0, .ro, 0⟩,
   ⟨PCIE_STATUS_SPEED, 1, 0x0, .ro, 0⟩,
   ⟨PCIE_STATUS_FLR_SEEN, 1, 0x0, .w1c, 0⟩,
   ⟨PCIE_STATUS_DL_UP, 1, 0x0, .ro, 0⟩,
   ⟨PCIE_ID_DEVICE_ID, 1, 0x0, .ro, 0⟩,
   ⟨PCIE_ID_VENDOR_ID, 1, 0x0, .ro, 0⟩,
   ⟨PCIE_BAR4_BAR4_BASE, 1, 0x0, .rwAl, 0⟩,
   ⟨PCIE_AER_UNCORR, 1, 0x0, .rc, 0⟩,
   ⟨PCIE_AER_CORR, 1, 0x0, .rc, 0⟩,
   ⟨PCIE_OB_LO_ADDR, 16, 0x8, .rwAl, 0⟩,
   ⟨PCIE_OB_LO_V, 16, 0x8, .rwAl, 0⟩,
   ⟨PCIE_OB_HI_ADDR, 16, 0x8, .rwAl, 0⟩]

def rowsQUAD : List FieldRow :=
  [⟨QUAD_CTRL_AUTO_VESPER, 1, 0x0, .rwAl, 1⟩,
   ⟨QUAD_CTRL_RETRAIN, 1, 0x0, .w1s, 0⟩,
   ⟨QUAD_CTRL_SSC_EN, 1, 0x0, .rwAl, 0⟩,
   ⟨QUAD_CTRL_LOOP, 1, 0x0, .rw, 0⟩,
   ⟨QUAD_CTRL_PSTATE, 1, 0x0, .rw, 0⟩,
   ⟨QUAD_CTRL_PROTO, 1, 0x0, .rwLk, 1⟩,
   ⟨QUAD_STATUS_USER, 1, 0x0, .ro, 0⟩,
   ⟨QUAD_STATUS_CFG_ERR, 1, 0x0, .w1c, 0⟩,
   ⟨QUAD_STATUS_STATE, 1, 0x0, .ro, 0⟩,
   ⟨QUAD_STATUS_PLL_LOCK, 1, 0x0, .ro, 0⟩,
   ⟨QUAD_REF_REF_MHZ, 1, 0x0, .rwLk, 1⟩,
   ⟨QUAD_PRBS_EN, 1, 0x0, .rw, 0⟩,
   ⟨QUAD_PRBS_PATTERN, 1, 0x0, .rw, 0⟩,
   ⟨QUAD_PRBS_TRATE, 1, 0x0, .rw, 6⟩,
   ⟨QUAD_PRBS_LANES, 1, 0x0, .rw, 0xF⟩,
   ⟨LANE_TXEQ_MAIN, 4, 0x10, .ro, 0x40⟩,
   ⟨LANE_TXEQ_AMP, 4, 0x10, .rwAl, 5⟩,
   ⟨LANE_TXEQ_POST, 4, 0x10, .rwAl, 0⟩,
   ⟨LANE_TXEQ_PRE, 4, 0x10, .rwAl, 0⟩,
   ⟨LANE_RX_ADAPT_EN, 4, 0x10, .rwAl, 1⟩,
   ⟨LANE_RX_RX_INV, 4, 0x10, .rwAl, 0⟩,
   ⟨LANE_RX_TX_INV, 4, 0x10, .rwAl, 0⟩,
   ⟨LANE_RX_FOM_MIN, 4, 0x10, .rwAl, 0x20⟩,
   ⟨LANE_RX_FOM_PASS, 4, 0x10, .rwAl, 0x30⟩,
   ⟨LANE_STAT_FOM, 4, 0x10, .ro, 0⟩,
   ⟨LANE_STAT_CTLE, 4, 0x10, .ro, 0⟩,
   ⟨LANE_STAT_RETRAIN_FAIL, 4, 0x10, .w1c, 0⟩,
   ⟨LANE_STAT_DEGRADED, 4, 0x10, .w1c, 0⟩,
   ⟨LANE_STAT_READY, 4, 0x10, .ro, 0⟩,
   ⟨LANE_STAT_BLOCK_LOCK, 4, 0x10, .ro, 0⟩,
   ⟨LANE_STAT_CDR_LOCK, 4, 0x10, .ro, 0⟩,
   ⟨LANE_STAT_PSTATE, 4, 0x10, .ro, 0⟩,
   ⟨LANE_CNT_ERRORS, 4, 0x10, .rc, 0⟩,
   ⟨LANE_CNT_RETRIES, 4, 0x10, .rc, 0⟩]

def rowsTIME : List FieldRow :=
  [⟨TIME_CTRL_SLEW_PPM, 1, 0x0, .rwAl, 0x64⟩,
   ⟨TIME_CTRL_ACTIVE, 1, 0x0, .rwAl, 0⟩,
   ⟨TIME_CTRL_SRC, 1, 0x0, .rwAl, 0⟩,
   ⟨TIME_STATUS_CFG_ERR, 1, 0x0, .w1c, 0⟩,
   ⟨TIME_STATUS_EQUINOX, 1, 0x0, .w1c, 0⟩,
   ⟨TIME_STATUS_STEPPED, 1, 0x0, .w1c, 0⟩,
   ⟨TIME_STATUS_HOLDOVER, 1, 0x0, .ro, 0⟩,
   ⟨TIME_STATUS_SLEWING, 1, 0x0, .ro, 0⟩,
   ⟨TIME_STATUS_LOCKED, 1, 0x0, .ro, 0⟩,
   ⟨TIME_INC_NS_INC_NS, 1, 0x0, .rwAl, 2⟩,
   ⟨TIME_INC_FRAC_INC_FRAC, 1, 0x0, .rwAl, 0x80000000⟩,
   ⟨TIME_RD_NS_NS, 1, 0x0, .ro, 0⟩,
   ⟨TIME_RD_SEC_LO_SEC, 1, 0x0, .ro, 0⟩,
   ⟨TIME_RD_SEC_HI_SEC, 1, 0x0, .ro, 0⟩,
   ⟨TIME_RD_FRAC_FRAC, 1, 0x0, .ro, 0⟩,
   ⟨TIME_SET_NS_NS, 1, 0x0, .rw, 0⟩,
   ⟨TIME_SET_SEC_LO_SEC, 1, 0x0, .rw, 0⟩,
   ⟨TIME_SET_SEC_HI_SEC, 1, 0x0, .rw, 0⟩,
   ⟨TIME_SET_CTL_GO, 1, 0x0, .w1s, 0⟩,
   ⟨TIME_SLEW_SLEW, 1, 0x0, .rw, 0⟩,
   ⟨TIME_UTC_UTC_OFS, 1, 0x0, .rwAl, 0⟩,
   ⟨DOM_CTRL_EN, 2, 0x10, .rwAl, 0⟩,
   ⟨DOM_CTRL_LOST, 2, 0x10, .w1s, 0⟩,
   ⟨DOM_CTRL_DOMAIN_NUM, 2, 0x10, .rwAl, 0⟩,
   ⟨DOM_CTRL_STALE_MS, 2, 0x10, .rwAl, 0x3E8⟩,
   ⟨DOM_OFS_OFS, 2, 0x10, .rw, 0⟩,
   ⟨DOM_RATE_RATE, 2, 0x10, .rw, 0⟩,
   ⟨DOM_UPD_STALE, 2, 0x10, .ro, 1⟩,
   ⟨DOM_UPD_UPD, 2, 0x10, .w1s, 0⟩,
   ⟨TIME_PRC_UP_VALID, 1, 0x0, .ro, 0⟩,
   ⟨TIME_PRC_UP_PORT, 1, 0x0, .ro, 0⟩,
   ⟨TIME_PRC_HOPS, 1, 0x0, .ro, 0⟩,
   ⟨TIME_PRC_THETA_THETA, 1, 0x0, .ro, 0⟩,
   ⟨TIME_PRC_CNT_LEADER_CHG, 1, 0x0, .rc, 0⟩,
   ⟨TIME_PRC_CNT_ECHO_MISS, 1, 0x0, .rc, 0⟩]

def rowsETH : List FieldRow :=
  [⟨ETH_CTRL_EN, 1, 0x0, .rwAl, 0⟩,
   ⟨ETH_CTRL_MODE, 1, 0x0, .rwAl, 2⟩,
   ⟨ETH_CTRL_FEC, 1, 0x0, .rwAl, 0⟩,
   ⟨ETH_CTRL_MCAST_ALL, 1, 0x0, .rwAl, 0⟩,
   ⟨ETH_CTRL_PROMISC, 1, 0x0, .rwAl, 0⟩,
   ⟨ETH_CTRL_MAX_FRAME, 1, 0x0, .rwAl, 0x2400⟩,
   ⟨ETH_STATUS_CFG_ERR, 1, 0x0, .w1c, 0⟩,
   ⟨ETH_STATUS_FEC_LOCK, 1, 0x0, .ro, 0⟩,
   ⟨ETH_STATUS_REMOTE_FAULT, 1, 0x0, .ro, 0⟩,
   ⟨ETH_STATUS_LOCAL_FAULT, 1, 0x0, .ro, 0⟩,
   ⟨ETH_STATUS_BLOCK_LOCK, 1, 0x0, .ro, 0⟩,
   ⟨ETH_STATUS_LINK_UP, 1, 0x0, .ro, 0⟩,
   ⟨ETH_MAC_LO_MAC, 1, 0x0, .rwAl, 0⟩,
   ⟨ETH_MAC_HI_MAC, 1, 0x0, .rwAl, 0⟩,
   ⟨ETH_TXDLY_TX_DELAY_PS, 1, 0x0, .rwAl, 0⟩,
   ⟨ETH_RXDLY_RX_DELAY_PS, 1, 0x0, .rwAl, 0⟩,
   ⟨ETH_TX_BASE_ADDR, 1, 0x0, .rwAl, 0⟩,
   ⟨ETH_TX_PTR_RD, 1, 0x0, .ro, 0⟩,
   ⟨ETH_TX_PTR_WR, 1, 0x0, .rw, 0⟩,
   ⟨ETH_RX0_BASE_ADDR, 1, 0x0, .rwAl, 0⟩,
   ⟨ETH_RX0_PTR_RD, 1, 0x0, .ro, 0⟩,
   ⟨ETH_RX0_PTR_WR, 1, 0x0, .rw, 0⟩,
   ⟨ETH_RX1_BASE_ADDR, 1, 0x0, .rwAl, 0⟩,
   ⟨ETH_RX1_PTR_RD, 1, 0x0, .ro, 0⟩,
   ⟨ETH_RX1_PTR_WR, 1, 0x0, .rw, 0⟩,
   ⟨ETH_RING_CFG_RX1_LOG, 1, 0x0, .rwAl, 4⟩,
   ⟨ETH_RING_CFG_RX0_LOG, 1, 0x0, .rwAl, 4⟩,
   ⟨ETH_RING_CFG_TX_LOG, 1, 0x0, .rwAl, 4⟩,
   ⟨ETH_EVT_LINK_CHG, 1, 0x0, .w1c, 0⟩,
   ⟨ETH_EVT_TS_ERR, 1, 0x0, .w1c, 0⟩,
   ⟨ETH_EVT_RX_DROP, 1, 0x0, .w1c, 0⟩,
   ⟨ETH_EVT_RX1, 1, 0x0, .w1c, 0⟩,
   ⟨ETH_EVT_RX0, 1, 0x0, .w1c, 0⟩,
   ⟨ETH_EVT_TX_DONE, 1, 0x0, .w1c, 0⟩,
   ⟨ETH_CNT_FCS_ERR, 1, 0x0, .rc, 0⟩,
   ⟨ETH_CNT_RX_DROPS, 1, 0x0, .rc, 0⟩,
   ⟨ETH_CNT2_OVERSIZE, 1, 0x0, .rc, 0⟩,
   ⟨ETH_CNT2_CTRL_DROP, 1, 0x0, .rc, 0⟩]

def rowsAUDP_1 : List FieldRow :=
  [⟨AUDP_CTRL_RX_EN, 1, 0x0, .rwAl, 0⟩,
   ⟨AUDP_CTRL_TX_EN, 1, 0x0, .rwAl, 0⟩,
   ⟨AUDP_CTRL_FAM, 1, 0x0, .rwAl, 0⟩,
   ⟨AUDP_CTRL_DOUBLE, 1, 0x0, .rwAl, 0⟩,
   ⟨AUDP_CTRL_GROUP, 1, 0x0, .rwAl, 0⟩,
   ⟨AUDP_CTRL_GRP_EN, 1, 0x0, .rwAl, 0⟩,
   ⟨AUDP_CTRL_MCLK_DIV, 1, 0x0, .rwAl, 0⟩,
   ⟨AUDP_CTRL_RX_MUTE, 1, 0x0, .rwAl, 0⟩,
   ⟨AUDP_CTRL_TX_MUTE, 1, 0x0, .rwAl, 0⟩,
   ⟨AUDP_CTRL_RAMP_MS, 1, 0x0, .rwAl, 0xA⟩,
   ⟨AUDP_RXFMT_TRI, 1, 0x0, .ro, 0⟩,
   ⟨AUDP_TXFMT_TRI, 1, 0x0, .rwAl, 0⟩,
   ⟨AUDP_RXFMT_FMT, 1, 0x0, .rwAl, 2⟩,
   ⟨AUDP_TXFMT_FMT, 1, 0x0, .rwAl, 2⟩,
   ⟨AUDP_RXFMT_BCLK_INV, 1, 0x0, .rwAl, 0⟩,
   ⟨AUDP_RXFMT_FS_INV, 1, 0x0, .rwAl, 0⟩,
   ⟨AUDP_RXFMT_BCLK_DRV, 1, 0x0, .rwAl, 1⟩,
   ⟨AUDP_RXFMT_FS_DRV, 1, 0x0, .rwAl, 1⟩,
   ⟨AUDP_TXFMT_BCLK_INV, 1, 0x0, .rwAl, 0⟩,
   ⟨AUDP_TXFMT_FS_INV, 1, 0x0, .rwAl, 0⟩,
   ⟨AUDP_TXFMT_BCLK_DRV, 1, 0x0, .rwAl, 1⟩,
   ⟨AUDP_TXFMT_FS_DRV, 1, 0x0, .rwAl, 1⟩,
   ⟨AUDP_RXFMT_FRAME, 1, 0x0, .rwAl, 3⟩,
   ⟨AUDP_TXFMT_FRAME, 1, 0x0, .rwAl, 3⟩,
   ⟨AUDP_RXFMT_SLOT_BITS, 1, 0x0, .rwAl, 2⟩,
   ⟨AUDP_TXFMT_SLOT_BITS, 1, 0x0, .rwAl, 2⟩,
   ⟨AUDP_RXFMT_DELAY, 1, 0x0, .rwAl, 1⟩,
   ⟨AUDP_TXFMT_DELAY, 1, 0x0, .rwAl, 1⟩,
   ⟨AUDP_RXFMT_SLOTS_M1, 1, 0x0, .rwAl, 7⟩,
   ⟨AUDP_TXFMT_SLOTS_M1, 1, 0x0, .rwAl, 7⟩,
   ⟨AUDP_RXMASK_PENDING, 1, 0x0, .rwAl, 0xFFFFFFFF⟩,
   ⟨AUDP_RXMASK_ACT_ACTIVE, 1, 0x0, .ro, 0⟩,
   ⟨AUDP_TXMASK_PENDING, 1, 0x0, .rwAl, 0xFFFFFFFF⟩,
   ⟨AUDP_TXMASK_ACT_ACTIVE, 1, 0x0, .ro, 0⟩,
   ⟨AUDP_RXBASE_ADDR, 1, 0x0, .rwAl, 0⟩,
   ⟨AUDP_TXBASE_ADDR, 1, 0x0, .rwAl, 0⟩,
   ⟨AUDP_RING_TX_LOG2, 1, 0x0, .rwAl, 0⟩,
   ⟨AUDP_RING_RX_LOG2, 1, 0x0, .rwAl, 0⟩,
   ⟨AUDP_TXSTART_BLOCK, 1, 0x0, .rw, 0⟩,
   ⟨AUDP_RXLVL_HWM, 1, 0x0, .rc, 0⟩]
def rowsAUDP_2 : List FieldRow :=
  [⟨AUDP_RXLVL_LWM, 1, 0x0, .rc, 0xFF⟩,
   ⟨AUDP_RXLVL_LEVEL, 1, 0x0, .ro, 0⟩,
   ⟨AUDP_STATUS_CFG_ERR, 1, 0x0, .w1c, 0⟩,
   ⟨AUDP_STATUS_FRAME_ERR, 1, 0x0, .w1c, 0⟩,
   ⟨AUDP_STATUS_TX_UNDER, 1, 0x0, .w1c, 0⟩,
   ⟨AUDP_STATUS_TX_SLIP, 1, 0x0, .w1c, 0⟩,
   ⟨AUDP_STATUS_RX_BLKDROP, 1, 0x0, .w1c, 0⟩,
   ⟨AUDP_STATUS_RX_SLIP, 1, 0x0, .w1c, 0⟩,
   ⟨AUDP_STATUS_TX_MUTED, 1, 0x0, .ro, 0⟩,
   ⟨AUDP_STATUS_RX_MUTED, 1, 0x0, .ro, 0⟩,
   ⟨AUDP_STATUS_TX_RUN, 1, 0x0, .ro, 0⟩,
   ⟨AUDP_STATUS_RX_RUN, 1, 0x0, .ro, 0⟩,
   ⟨AUDP_CNT_RX_INS, 1, 0x0, .rc, 0⟩,
   ⟨AUDP_CNT_RX_DROP, 1, 0x0, .rc, 0⟩,
   ⟨AUDP_CNT2_TX_INS, 1, 0x0, .rc, 0⟩,
   ⟨AUDP_CNT2_TX_DROP, 1, 0x0, .rc, 0⟩,
   ⟨AUDP_CNT3_TX_UNDER_BLK, 1, 0x0, .rc, 0⟩,
   ⟨AUDP_CNT3_FRAME_ERRS, 1, 0x0, .rc, 0⟩,
   ⟨AUDP_RXBLK_BLOCK, 1, 0x0, .ro, 0⟩,
   ⟨AUDP_BLKTS_NS_NS, 1, 0x0, .ro, 0⟩,
   ⟨AUDP_BLKTS_SEC_SEC, 1, 0x0, .ro, 0⟩,
   ⟨AUDP_GDELAY_DELAY_US, 1, 0x0, .rwAl, 0⟩,
   ⟨AUDP_LOOP_MODE, 1, 0x0, .rwAl, 0⟩,
   ⟨AUDP_LOOP_PORT, 1, 0x0, .rwAl, 0⟩,
   ⟨AUDP_LOOP_WCKO_EN, 1, 0x0, .rwAl, 0⟩,
   ⟨AUDP_LOOP_KP, 1, 0x0, .rwAl, 0x40⟩,
   ⟨AUDP_LOOP_KI, 1, 0x0, .rwAl, 4⟩,
   ⟨AUDP_STEER_STEER, 1, 0x0, .rwAl, 0x8000⟩,
   ⟨AUDP_STEER_LOCKED, 1, 0x0, .ro, 0⟩,
   ⟨AUDP_STEER_TARGET, 1, 0x0, .rwAl, 0x40⟩,
   ⟨AUDP_STEER_LOCK_WIN, 1, 0x0, .rwAl, 0x40⟩,
   ⟨AUDP_TXLVL_HWM, 1, 0x0, .rc, 0⟩,
   ⟨AUDP_TXLVL_LWM, 1, 0x0, .rc, 0xFF⟩,
   ⟨AUDP_TXLVL_LEVEL, 1, 0x0, .ro, 0⟩]
def rowsAUDP : List FieldRow := rowsAUDP_1 ++ rowsAUDP_2

def rowsAXIS : List FieldRow :=
  [⟨AXIS_CTRL_EN, 1, 0x0, .rwAl, 0⟩,
   ⟨AXIS_CTRL_MODE, 1, 0x0, .rwAl, 0⟩,
   ⟨AXIS_CTRL_IDX_MODE, 1, 0x0, .rwAl, 0⟩,
   ⟨AXIS_CTRL_LIMIT_EN, 1, 0x0, .rwAl, 0⟩,
   ⟨AXIS_CTRL_POSE_EN, 1, 0x0, .rwAl, 0⟩,
   ⟨AXIS_CTRL_POSE_PORT, 1, 0x0, .rwAl, 0⟩,
   ⟨AXIS_CTRL_DIR_INV, 1, 0x0, .rwAl, 0⟩,
   ⟨AXIS_CTRL_Z_INV, 1, 0x0, .rwAl, 0⟩,
   ⟨AXIS_STATUS_CFG_ERR, 1, 0x0, .w1c, 0⟩,
   ⟨AXIS_STATUS_ILL_FAULT, 1, 0x0, .w1c, 0⟩,
   ⟨AXIS_STATUS_AMP_FAULT, 1, 0x0, .w1c, 0⟩,
   ⟨AXIS_STATUS_IDX_ERR, 1, 0x0, .w1c, 0⟩,
   ⟨AXIS_STATUS_NESTED, 1, 0x0, .w1c, 0⟩,
   ⟨AXIS_STATUS_HOMED, 1, 0x0, .ro, 0⟩,
   ⟨AXIS_STATUS_AT_HI, 1, 0x0, .ro, 0⟩,
   ⟨AXIS_STATUS_AT_LO, 1, 0x0, .ro, 0⟩,
   ⟨AXIS_STATUS_RUN, 1, 0x0, .ro, 0⟩,
   ⟨AXIS_POS_POS, 1, 0x0, .rw, 0⟩,
   ⟨AXIS_VEL_VEL, 1, 0x0, .ro, 0⟩,
   ⟨AXIS_PIDX_TABLE, 1, 0x0, .rw, 0⟩,
   ⟨AXIS_PIDX_INDEX, 1, 0x0, .rw, 0⟩,
   ⟨AXIS_PDATA_WORD, 1, 0x0, .rwAl, 0⟩,
   ⟨AXIS_IDXERR_D, 1, 0x0, .ro, 0⟩,
   ⟨AXIS_CNT_ILLEGAL, 1, 0x0, .rc, 0⟩,
   ⟨AXIS_CNT_IDX_CORR, 1, 0x0, .rc, 0⟩,
   ⟨AXIS_CNT_CRC_ERRS, 1, 0x0, .rc, 0⟩]

def rowsEMU : List FieldRow :=
  [⟨EMU_CTRL_EN, 1, 0x0, .rwAl, 0⟩,
   ⟨EMU_CTRL_DIR_INV, 1, 0x0, .rwAl, 0⟩,
   ⟨EMU_CTRL_ZMODE, 1, 0x0, .rwAl, 0⟩,
   ⟨EMU_CTRL_SRC, 1, 0x0, .rwAl, 0⟩,
   ⟨EMU_RATIO_DEN, 1, 0x0, .rwAl, 1⟩,
   ⟨EMU_RATIO_NUM, 1, 0x0, .rwAl, 1⟩,
   ⟨EMU_TIMING_Z_NS, 1, 0x0, .rwAl, 0xC8⟩,
   ⟨EMU_TIMING_MIN_NS, 1, 0x0, .rwAl, 0x32⟩,
   ⟨EMU_STATUS_LAG, 1, 0x0, .ro, 0⟩,
   ⟨EMU_STATUS_CFG_ERR, 1, 0x0, .w1c, 0⟩,
   ⟨EMU_STATUS_OVF, 1, 0x0, .w1c, 0⟩,
   ⟨EMU_STATUS_RUN, 1, 0x0, .ro, 0⟩]

def rowsTWC_1 : List FieldRow :=
  [⟨TWC_CTRL_EN, 1, 0x0, .rwAl, 0⟩,
   ⟨TWC_CTRL_SPEED, 1, 0x0, .rwAl, 1⟩,
   ⟨TWC_CTRL_LONG_BUS, 1, 0x0, .rwAl, 0⟩,
   ⟨TWC_CTRL_LANTERN_EN, 1, 0x0, .rwAl, 0⟩,
   ⟨TWC_CTRL_RETRY_MAX, 1, 0x0, .rwAl, 3⟩,
   ⟨TWC_CTRL_RETRY_US, 1, 0x0, .rwAl, 0x14⟩,
   ⟨TWC_TMO_STRETCH_US, 1, 0x0, .rwAl, 0x3E8⟩,
   ⟨TWC_TMO_SCL_LOW_MS, 1, 0x0, .rwAl, 0x19⟩,
   ⟨TWC_TMO_SDA_LOW_MS, 1, 0x0, .rwAl, 0x19⟩,
   ⟨TWC_STATUS_QLEVEL, 1, 0x0, .ro, 0⟩,
   ⟨TWC_STATUS_LANTERN, 1, 0x0, .w1c, 0⟩,
   ⟨TWC_STATUS_RECOVERED, 1, 0x0, .w1c, 0⟩,
   ⟨TWC_STATUS_SDA_STUCK, 1, 0x0, .w1c, 0⟩,
   ⟨TWC_STATUS_SCL_STUCK, 1, 0x0, .w1c, 0⟩,
   ⟨TWC_STATUS_STRETCH_TO, 1, 0x0, .w1c, 0⟩,
   ⟨TWC_STATUS_NACK, 1, 0x0, .w1c, 0⟩,
   ⟨TWC_STATUS_BUS_ERR, 1, 0x0, .w1c, 0⟩,
   ⟨TWC_STATUS_ARB_LOST, 1, 0x0, .w1c, 0⟩,
   ⟨TWC_STATUS_BUS_BUSY, 1, 0x0, .ro, 0⟩,
   ⟨TWC_STATUS_BUSY, 1, 0x0, .ro, 0⟩,
   ⟨TWC_CMD_GO, 1, 0x0, .w1s, 0⟩,
   ⟨TWC_CMD_RECOVER, 1, 0x0, .w1s, 0⟩,
   ⟨TWC_CMD_READ, 1, 0x0, .rw, 0⟩,
   ⟨TWC_CMD_ALEN, 1, 0x0, .rw, 1⟩,
   ⟨TWC_CMD_LEN, 1, 0x0, .rw, 0⟩,
   ⟨TWC_CMD_DEV, 1, 0x0, .rw, 0⟩,
   ⟨TWC_REG_REG, 1, 0x0, .rw, 0⟩,
   ⟨TWC_DATA0_DATA, 1, 0x0, .rw, 0⟩,
   ⟨TWC_DATA1_DATA, 1, 0x0, .rw, 0⟩,
   ⟨TWC_RES_DONE, 1, 0x0, .w1c, 0⟩,
   ⟨TWC_RES_RESULT, 1, 0x0, .ro, 0⟩,
   ⟨TWC_RES_COUNT, 1, 0x0, .ro, 0⟩,
   ⟨TWC_CNT_ARB_LOSSES, 1, 0x0, .rc, 0⟩,
   ⟨TWC_CNT_NACKS, 1, 0x0, .rc, 0⟩,
   ⟨TWC_CNT_STRETCH_TOS, 1, 0x0, .rc, 0⟩,
   ⟨TWC_CNT_RECOVERIES, 1, 0x0, .rc, 0⟩,
   ⟨TWC_CNT2_LATE_ITEMS, 1, 0x0, .rc, 0⟩,
   ⟨TWC_CNT2_ITEMS, 1, 0x0, .rc, 0⟩,
   ⟨TWC_LIDX_ENTRY, 1, 0x0, .rw, 0⟩,
   ⟨TWC_LDATA_EN, 1, 0x0, .rwAl, 0⟩]
def rowsTWC_2 : List FieldRow :=
  [⟨TWC_LDATA_ALEN, 1, 0x0, .rwAl, 1⟩,
   ⟨TWC_LDATA_REG, 1, 0x0, .rwAl, 0⟩,
   ⟨TWC_LDATA_DEV, 1, 0x0, .rwAl, 0⟩,
   ⟨TWC_LRES0_VALUE, 1, 0x0, .ro, 0⟩,
   ⟨TWC_LRES1_VALUE, 1, 0x0, .ro, 0⟩,
   ⟨TWC_LSTAT_NZ, 1, 0x0, .ro, 0⟩,
   ⟨TWC_LSTAT_FAIL, 1, 0x0, .ro, 0⟩]
def rowsTWC : List FieldRow := rowsTWC_1 ++ rowsTWC_2

def rowsTWT : List FieldRow :=
  [⟨TWT_CTRL_EN, 1, 0x0, .rwLk, 1⟩,
   ⟨TWT_CTRL_ADDR, 1, 0x0, .rwLk, 0x52⟩,
   ⟨TWT_STATUS_WIN_ERR, 1, 0x0, .w1c, 0⟩,
   ⟨TWT_STATUS_RSTART_ACK, 1, 0x0, .w1c, 0⟩,
   ⟨TWT_CNT_ERRORS, 1, 0x0, .rc, 0⟩,
   ⟨TWT_CNT_ACCESSES, 1, 0x0, .rc, 0⟩]

def rowsTHM_1 : List FieldRow :=
  [⟨THM_CTRL_EN, 1, 0x0, .rwLk, 1⟩,
   ⟨THM_CTRL_FAST_MAX, 1, 0x0, .rwAl, 8⟩,
   ⟨THM_CTRL_ENG_CAP, 1, 0x0, .rwAl, 0x12⟩,
   ⟨THM_CTRL_HOLD_MS, 1, 0x0, .rwAl, 0x32⟩,
   ⟨THM_CTRL_SETTLE_MS, 1, 0x0, .rwAl, 0x14⟩,
   ⟨THM_EVT_TSFAIL, 1, 0x0, .w1c, 0⟩,
   ⟨THM_EVT_VIGIL_LOST, 1, 0x0, .w1c, 0⟩,
   ⟨THM_EVT_BUDGET_SHORT, 1, 0x0, .w1c, 0⟩,
   ⟨THM_EVT_DRAM_HOT, 1, 0x0, .w1c, 0⟩,
   ⟨THM_EVT_LIMIT, 1, 0x0, .w1c, 0⟩,
   ⟨THM_EVT_THROTTLE, 1, 0x0, .w1c, 0⟩,
   ⟨THM_EVT_WARN, 1, 0x0, .w1c, 0⟩,
   ⟨THM_EVT_HOT, 1, 0x0, .w1c, 0⟩,
   ⟨THM_PLIMIT_P_HYST, 1, 0x0, .rwAl, 0x14⟩,
   ⟨THM_PLIMIT_P_LIMIT, 1, 0x0, .rwAl, 0x3C0⟩,
   ⟨THM_TCFG_T_TARGET, 1, 0x0, .rwAl, 0x7D⟩,
   ⟨THM_TCFG_S_MIN, 1, 0x0, .rwAl, 0⟩,
   ⟨THM_PEST_P_EST, 1, 0x0, .ro, 0⟩,
   ⟨THM_PMEAS_P_MEAS, 1, 0x0, .rw, 0⟩,
   ⟨THM_STEP_S_TOP, 1, 0x0, .ro, 0⟩,
   ⟨THM_STEP_S, 1, 0x0, .ro, 0⟩,
   ⟨THM_OPPT_ENG_C0, 1, 0x0, .ro, 8⟩,
   ⟨THM_OPPT_ENG_C1, 1, 0x0, .ro, 8⟩,
   ⟨THM_OPPT_ENG_BIN_C0, 1, 0x0, .ro, 0⟩,
   ⟨THM_OPPT_ENG_BIN_C1, 1, 0x0, .ro, 0⟩,
   ⟨THM_OPPT_FAST, 1, 0x0, .ro, 0⟩,
   ⟨THM_OPPT_DEPTH, 1, 0x0, .ro, 0⟩,
   ⟨THM_THOT_T_C0, 1, 0x0, .ro, 0⟩,
   ⟨THM_THOT_T_H, 1, 0x0, .ro, 0⟩,
   ⟨THM_THOT2_T_HOT, 1, 0x0, .ro, 0⟩,
   ⟨THM_THOT2_T_C1, 1, 0x0, .ro, 0⟩,
   ⟨THM_QRANK_RANK, 4, 0x4, .rwAl, 0xFFFFFFFF⟩,
   ⟨THM_OIDX_ENTRY, 1, 0x0, .rw, 0⟩,
   ⟨THM_ODATA_ENTRY, 1, 0x0, .rwAl, 0⟩,
   ⟨THM_TSFAIL_LO_FAIL, 1, 0x0, .ro, 0⟩,
   ⟨THM_TSFAIL_HI_FAIL, 1, 0x0, .ro, 0⟩,
   ⟨THM_QHELD_SHED, 1, 0x0, .ro, 0⟩,
   ⟨THM_QHELD_CLUSTERS, 1, 0x0, .ro, 0⟩,
   ⟨THM_QHELD_Q0_HELD, 1, 0x0, .ro, 0⟩,
   ⟨THM_QHELD_Q1_HELD, 1, 0x0, .ro, 0⟩]
def rowsTHM_2 : List FieldRow :=
  [⟨THM_TS_TEMP, 32, 0x4, .ro, 0⟩,
   ⟨THM_STATUS_FLASH_OK, 1, 0x0, .ro, 1⟩,
   ⟨THM_STATUS_VIGIL_LOST, 1, 0x0, .ro, 0⟩,
   ⟨THM_STATUS_BUDGET_SHORT, 1, 0x0, .ro, 0⟩,
   ⟨THM_STATUS_DRAM_HOT, 1, 0x0, .ro, 0⟩,
   ⟨THM_STATUS_TRIP, 1, 0x0, .ro, 0⟩,
   ⟨THM_STATUS_LIMIT, 1, 0x0, .ro, 0⟩,
   ⟨THM_STATUS_THROTTLE, 1, 0x0, .ro, 0⟩,
   ⟨THM_STATUS_WARN, 1, 0x0, .ro, 0⟩,
   ⟨THM_STATUS_HOT, 1, 0x0, .ro, 0⟩,
   ⟨THM_STATUS_SETTLED, 1, 0x0, .ro, 0⟩,
   ⟨THM_TS_TEMP_ODD, 32, 0x4, .ro, 0⟩]
def rowsTHM : List FieldRow := rowsTHM_1 ++ rowsTHM_2

def rowsGPIO : List FieldRow :=
  [⟨GPIO_OUT_OUT, 1, 0x0, .rwAl, 0⟩,
   ⟨GPIO_OE_OE, 1, 0x0, .rwAl, 0⟩,
   ⟨GPIO_IN_IN, 1, 0x0, .ro, 0⟩,
   ⟨PAD_SLEW0_SLEW, 1, 0x0, .rwAl, 0xAAAA8⟩,
   ⟨PAD_GLITCH_GLITCH, 1, 0x0, .rwAl, 0x840⟩,
   ⟨PAD_MISC_FL_DRV, 1, 0x0, .rwLk, 0⟩,
   ⟨PAD_MISC_CLKOUT_EN, 1, 0x0, .rwAl, 0⟩,
   ⟨PLL_SSC_SSC, 1, 0x0, .rwLk, 0⟩,
   ⟨AVS_CTRL_AVS_EN, 1, 0x0, .rwLk, 1⟩,
   ⟨AVS_CTRL_MARGIN_MV, 1, 0x0, .rwLk, 0xA⟩,
   ⟨AVS_VOLT_V_C1, 1, 0x0, .ro, 0x2EE⟩,
   ⟨AVS_VOLT_V_C0, 1, 0x0, .ro, 0x2EE⟩,
   ⟨AVS_EVT_ERRORS, 1, 0x0, .rc, 0⟩,
   ⟨AVS_EVT_AVS_ERR, 1, 0x0, .w1c, 0⟩,
   ⟨PWR_STATUS_PFAIL_SEEN, 1, 0x0, .w1c, 0⟩,
   ⟨PWR_STATUS_PFAIL, 1, 0x0, .ro, 0⟩]

def rowsTOP : List FieldRow :=
  [⟨TOP_ID_PART, 1, 0x0, .ro, 0x4864⟩,
   ⟨TOP_ID_STEPPING, 1, 0x0, .ro, 0⟩,
   ⟨TOP_STRAP_POSN, 1, 0x0, .ro, 0⟩,
   ⟨TOP_STRAP_BOOTMODE, 1, 0x0, .ro, 0⟩,
   ⟨TOP_SERIAL_LO_SERIAL, 1, 0x0, .ro, 0⟩,
   ⟨TOP_SERIAL_HI_SERIAL, 1, 0x0, .ro, 0⟩,
   ⟨TOP_FUSE_LOCK_IMAGE, 1, 0x0, .ro, 0⟩,
   ⟨TOP_RESET_KEY, 1, 0x0, .wo, 0⟩,
   ⟨TOP_RESET_GO, 1, 0x0, .wo, 0⟩,
   ⟨TOP_RSTCAUSE_SW, 1, 0x0, .ro, 0⟩,
   ⟨TOP_LOT_LO_LOT, 3, 0x20, .ro, 0⟩,
   ⟨TOP_LOT_HI_WAFER, 3, 0x20, .ro, 0⟩,
   ⟨TOP_LOT_HI_LOT, 3, 0x20, .ro, 0⟩,
   ⟨TOP_POS_BIN, 3, 0x20, .ro, 0⟩,
   ⟨TOP_POS_DIE_Y, 3, 0x20, .ro, 0⟩,
   ⟨TOP_POS_DIE_X, 3, 0x20, .ro, 0⟩,
   ⟨TOP_DSER_LO_SERIAL, 3, 0x20, .ro, 0⟩,
   ⟨TOP_DSER_HI_SERIAL, 3, 0x20, .ro, 0⟩,
   ⟨TOP_KEYHASH_HASH, 12, 0x4, .ro, 0⟩,
   ⟨TOP_SCRATCH_DATA, 4, 0x4, .rwAl, 0⟩]

def rowsFLT : List FieldRow :=
  [⟨FLT_SNAP_WORD, 4, 0x4, .ro, 0⟩,
   ⟨FLT_STATUS_COUNT, 1, 0x0, .ro, 0⟩,
   ⟨FLT_STATUS_SEV_MAX, 1, 0x0, .ro, 0⟩,
   ⟨FLT_STATUS_NESTED, 1, 0x0, .ro, 0⟩,
   ⟨FLT_STATUS_VALID, 1, 0x0, .ro, 0⟩,
   ⟨FLT_STATUS_DEGRADED, 1, 0x0, .ro, 0⟩,
   ⟨FLT_STATUS_PKG_FAULT, 1, 0x0, .ro, 0⟩,
   ⟨FLT_CTRL_IRQ_SEV, 1, 0x0, .rwAl, 1⟩,
   ⟨FLT_CTRL_FAULTN_SEV, 1, 0x0, .rwAl, 3⟩,
   ⟨FLT_CTRL_CLR, 1, 0x0, .w1s, 0⟩,
   ⟨FLT_EVT_EVT, 1, 0x0, .w1c, 0⟩,
   ⟨FLT_LOGIDX_INDEX, 1, 0x0, .rw, 0⟩,
   ⟨FLT_LOGDATA_WORD, 1, 0x0, .ro, 0⟩,
   ⟨FLT_TOTAL_RECORDS, 1, 0x0, .ro, 0⟩,
   ⟨FLT_TEST_CAUSE, 1, 0x0, .wo, 0⟩,
   ⟨FLT_TEST_SEV, 1, 0x0, .wo, 0⟩]

def rowsIRQ : List FieldRow :=
  [⟨IRQ_RIDX_SOURCE, 1, 0x0, .rw, 0⟩,
   ⟨IRQ_RDATA_EN, 1, 0x0, .rwAl, 0⟩,
   ⟨IRQ_RDATA_LINE, 1, 0x0, .ro, 0⟩,
   ⟨IRQ_RDATA_STEW, 1, 0x0, .rwAl, 0⟩,
   ⟨IRQ_RDATA_BC, 1, 0x0, .rwAl, 0⟩,
   ⟨IRQ_RDATA_MSIX, 1, 0x0, .rwAl, 0⟩,
   ⟨IRQ_RDATA_VECTOR, 1, 0x0, .rwAl, 0⟩,
   ⟨IRQ_FIRST_VALID, 6, 0x4, .ro, 0⟩,
   ⟨IRQ_FIRST_SOURCE, 6, 0x4, .ro, 0⟩,
   ⟨IRQ_ASSERT_TARGET, 1, 0x0, .ro, 0⟩,
   ⟨IRQ_SENT_MESSAGES, 1, 0x0, .rc, 0⟩]

end Sys2Proof.Machine
end

