-- ==== Sys2Proof/Machine/RegMap.lean ====
section
/-! DEFINITION. The control space: its blocks (Table 24-1), the address of an instance (Table 1-6), what each bit of a register
does on an access (Table 0-3) and its value at reset (R501). -/
namespace Sys2Proof.Machine

/-- The blocks of Table 24-1; DMA instance 63 and TWC instance 8 have maps of their own. -/
inductive Blk where
  | top | adv | alm | fab | brg | flt | thm | gpio | irq | camp | cal | head | tcm | prd | dch | dmc | dma | dmag | nvt | nvh
  | pcie | quad | eth | time | audp | axis | emu | twc | twt | svc | pipe | mfe | vcc | eng
  deriving DecidableEq, Repr

/-- The block and the number of registers of an instance, for a block ID, a die and a local instance (Table 24-1); none for an
unused block ID, die or instance (R33). -/
def blkOf (die id inst : Nat) : Option (Blk × Nat) :=
  let hub (b : Blk) (n regs : Nat) : Option (Blk × Nat) := if die = 0 ∧ inst < n then some (b, regs) else none
  let cmp (b : Blk) (n regs : Nat) : Option (Blk × Nat) := if (die = 1 ∨ die = 2) ∧ inst < n then some (b, regs) else none
  match id with
  | 0x00 => hub .top 1 96 | 0x01 => hub .adv 1 64 | 0x02 => hub .alm 1 32 | 0x03 => hub .fab 1 128
  | 0x04 => hub .brg 2 48
  | 0x08 => if die ≤ 2 ∧ inst = 0 then some (.flt, 32) else none
  | 0x09 => hub .thm 1 96 | 0x0A => hub .gpio 1 32 | 0x0B => hub .irq 1 96
  | 0x10 => hub .camp 12 32 | 0x11 => hub .cal 12 24
  | 0x20 => hub .head 4 120 | 0x21 => hub .tcm 4 8 | 0x22 => hub .prd 8 32
  | 0x30 => hub .dch 16 48 | 0x31 => hub .dmc 1 64
  | 0x38 => if die = 0 ∧ inst = 63 then some (.dmag, 16) else hub .dma 32 10
  | 0x40 => hub .nvt 1 96 | 0x41 => hub .nvh 4 24 | 0x42 => hub .pcie 1 48
  | 0x48 => hub .quad 16 20
  | 0x50 => hub .eth 4 40 | 0x51 => hub .time 1 64
  | 0x58 => hub .audp 8 24
  | 0x60 => hub .axis 48 8 | 0x61 => hub .emu 16 4
  | 0x68 => if die = 0 ∧ inst = 8 then some (.twt, 16) else hub .twc 8 16
  | 0x70 => hub .svc 1 32
  | 0x80 => cmp .pipe 4 140 | 0x81 => cmp .mfe 4 20 | 0x88 => cmp .vcc 4 48 | 0x90 => cmp .eng 8 16
  | _ => none

/-- The address of instance `inst` of a hub block (Table 1-6). -/
def hubA (id inst : Nat) : Nat := id * 0x10000 + inst * 0x400
/-- The address of global instance g of a compute-die block with `per` instances on each die (R6). -/
def cmpA (id per g : Nat) : Nat := (1 + g / per) * 0x1000000 + id * 0x10000 + (g % per) * 0x400

abbrev topA : Nat := hubA 0x00 0
abbrev advA : Nat := hubA 0x01 0
abbrev almA : Nat := hubA 0x02 0
abbrev fabA : Nat := hubA 0x03 0
abbrev brgA (k : Nat) : Nat := hubA 0x04 k
/-- FLT of a die: 0 H, 1 C0, 2 C1. -/
abbrev fltA (die : Nat) : Nat := die * 0x1000000 + 0x08 * 0x10000
abbrev thmA : Nat := hubA 0x09 0
abbrev gpioA : Nat := hubA 0x0A 0
abbrev irqA : Nat := hubA 0x0B 0
abbrev campA (p : Nat) : Nat := hubA 0x10 p
abbrev calA (p : Nat) : Nat := hubA 0x11 p
abbrev headA (h : Nat) : Nat := hubA 0x20 h
abbrev tcmA (h : Nat) : Nat := hubA 0x21 h
abbrev prdA (n : Nat) : Nat := hubA 0x22 n
abbrev dchA (n : Nat) : Nat := hubA 0x30 n
abbrev dmcA : Nat := hubA 0x31 0
abbrev dmaA (n : Nat) : Nat := hubA 0x38 n
abbrev dmagA : Nat := hubA 0x38 63
abbrev nvtA : Nat := hubA 0x40 0
abbrev nvhA (i : Nat) : Nat := hubA 0x41 i
abbrev pcieA : Nat := hubA 0x42 0
abbrev quadA (q : Nat) : Nat := hubA 0x48 q
abbrev ethA (k : Nat) : Nat := hubA 0x50 k
abbrev timeA : Nat := hubA 0x51 0
abbrev audpA (p : Nat) : Nat := hubA 0x58 p
abbrev axisA (a : Nat) : Nat := hubA 0x60 a
abbrev emuA (e : Nat) : Nat := hubA 0x61 e
abbrev twcA (c : Nat) : Nat := hubA 0x68 c
abbrev twtA : Nat := hubA 0x68 8
abbrev svcA : Nat := hubA 0x70 0
abbrev pipeA (g : Nat) : Nat := cmpA 0x80 4 g
abbrev mfeA (g : Nat) : Nat := cmpA 0x81 4 g
abbrev vccA (g : Nat) : Nat := cmpA 0x88 4 g
/-- Cluster CLc (R9): eight on each compute die. -/
abbrev engA (c : Nat) : Nat := cmpA 0x90 8 c

/-- The fields of a block. SVC (R500) has 32 registers whose fields the spec does not give. -/
def Blk.rows : Blk → List FieldRow
  | .top => rowsTOP | .adv => rowsADV | .alm => rowsALM | .fab => rowsFAB | .brg => rowsBRG | .flt => rowsFLT
  | .thm => rowsTHM | .gpio => rowsGPIO | .irq => rowsIRQ | .camp => rowsCAMP | .cal => rowsCAL | .head => rowsHEAD
  | .tcm => rowsTCM | .prd => rowsPRD | .dch => rowsDCH | .dmc => rowsDMC | .dma => rowsDMA | .dmag => rowsDMAG
  | .nvt => rowsNVT | .nvh => rowsNVH | .pcie => rowsPCIE | .quad => rowsQUAD | .eth => rowsETH | .time => rowsTIME
  | .audp => rowsAUDP | .axis => rowsAXIS | .emu => rowsEMU | .twc => rowsTWC | .twt => rowsTWT | .svc => []
  | .pipe => rowsPIPE | .mfe => rowsMFE | .vcc => rowsVCC | .eng => rowsENG

/-- Where a control-space address leads. -/
structure Where where
  blk : Blk
  die : Nat
  inst : Nat
  off : Nat
  deriving DecidableEq, Repr

/-- The register at a control-space address; none where R33 makes the access an address error. -/
def regAt (a : Nat) : Option Where :=
  if a % 4 ≠ 0 ∨ a ≥ 2 ^ 28 then none
  else
    match blkOf (bits a 27 24) (bits a 23 16) (bits a 15 10) with
    | none => none
    | some (b, n) => if bits a 9 2 < n then some ⟨b, bits a 27 24, bits a 15 10, bits a 9 0⟩ else none

/-- The bits of a register whose access code satisfies p. -/
def accMask (rows : List FieldRow) (off : Nat) (p : Acc → Bool) : Nat :=
  rows.foldl (fun m r => if r.covers off && p r.acc then m ||| r.f.mask else m) 0

/-- What each bit of a register does (Table 0-3). -/
structure RegInfo where
  rw : Word
  w1c : Word
  w1s : Word
  rc : Word
  wo : Word
  sh : Word
  al : Word
  lk : Word
  deriving DecidableEq, Repr

/-- The masks of the register at an offset of a block. -/
def Blk.info (b : Blk) (off : Nat) : RegInfo :=
  let m (p : Acc → Bool) : Word := wd (accMask b.rows off p)
  { rw := m (fun a => a = .rw || a = .rwAl || a = .rwLk || a = .rwShAl)
    w1c := m (· = .w1c), w1s := m (· = .w1s), rc := m (· = .rc), wo := m (· = .wo)
    sh := m (· = .rwShAl), al := m (fun a => a = .rwAl || a = .rwShAl), lk := m (· = .rwLk) }

/-- The masks of the register at a control-space address. -/
def infoAt (a : Nat) : RegInfo :=
  match regAt a with
  | some w => w.blk.info w.off
  | none => ⟨0, 0, 0, 0, 0, 0, 0, 0⟩

/-- The value at reset from the map's Reset column (R501). -/
def rowsReset (rows : List FieldRow) (off : Nat) : Nat :=
  rows.foldl (fun m r => if r.covers off then m ||| (r.rst <<< r.f.lo) else m) 0

/-- PROTO at reset (Table 16-1). -/
def protoReset (q : Nat) : Nat := if q < 8 then 1 else if q < 14 then 2 else if q = 14 then 3 else 4

/-- The value of the register at a control-space address at reset (R501): the map's Reset column, and what it gives by
instance: QUAD of PRD_CTRL is n, PROTO follows Table 16-1, REF_MHZ is 0 for quads 8 to 13. -/
def regReset (a : Nat) : Word :=
  match regAt a with
  | none => 0
  | some w =>
    let v := rowsReset w.blk.rows w.off
    match w.blk with
    | .prd => if w.off = PRD_CTRL then wd (v ||| (w.inst <<< PRD_CTRL_QUAD.lo)) else wd v
    | .quad =>
      if w.off = QUAD_CTRL then wd (v - 1 + protoReset w.inst)
      else if w.off = QUAD_REF ∧ 8 ≤ w.inst ∧ w.inst ≤ 13 then wd (v - 1)
      else wd v
    | _ => wd v

end Sys2Proof.Machine
end

