-- ==== Sys2Proof/Machine/Types.lean ====
section
/-! DEFINITION. The data that commands carry and that the state holds: requesters, stream packets, fault records, fuses. -/
namespace Sys2Proof.Machine

/-- Who makes an access (R31, Table 22-1). -/
inductive Req where
  | host
  | board
  | advent
  | steward (k : Fin 4)
  | engine (e : Fin 128)
  | hubDma (n : Fin 32)
  | codec (v : Fin 8)
  | pipe (p : Fin 8)
  | head (h : Fin 4)
  | store
  | eth (k : Fin 4)
  | audio (p : Fin 8)
  | prd (n : Fin 8)
  | axis (a : Fin 48)
  | mfe (p : Fin 8)
  deriving DecidableEq, Repr

/-- A source ID: die, block ID, local instance (Table 22-1 word 0, bits [15:0]). -/
def srcOf (die blk inst : Nat) : Nat := die * 2 ^ 14 + blk * 2 ^ 6 + inst

/-- The source ID of a requester: the host is PCIE 0, the board controller TWC 8, Advent ADV 0, an engine cluster x 8 + local
index on its die (Table 22-1), a steward core the SVC block (R70). -/
def Req.src : Req → Nat
  | .host => srcOf 0 0x42 0
  | .board => srcOf 0 0x68 8
  | .advent => srcOf 0 0x01 0
  | .steward k => srcOf 0 0x70 k
  | .engine e => srcOf (1 + e / 64) 0x90 (e % 64)
  | .hubDma n => srcOf 0 0x38 n
  | .codec v => srcOf (1 + v / 4) 0x88 (v % 4)
  | .pipe p => srcOf (1 + p / 4) 0x80 (p % 4)
  | .head h => srcOf 0 0x20 h
  | .store => srcOf 0 0x40 0
  | .eth k => srcOf 0 0x50 k
  | .audio p => srcOf 0 0x58 p
  | .prd n => srcOf 0 0x22 n
  | .axis a => srcOf 0 0x60 a
  | .mfe p => srcOf (1 + p / 4) 0x81 (p % 4)

/-- The die a requester sits on. -/
def Req.die (r : Req) : Nat := r.src / 2 ^ 14

/-- The stream header of Table 1-3; flags holds header bits [53:38], so flag bit n of Table 1-4 is bit n - 38 here. -/
structure Hdr where
  sid : Nat
  cls : Nat
  frame : Nat
  line : Nat
  calId : Nat
  flags : Nat
  time : Nat
  deriving DecidableEq, Repr

/-- The 128 header bits as one number (Table 1-3, R21: reserved bits are zero). -/
def Hdr.toNat (h : Hdr) : Nat :=
  (h.sid % 2 ^ 10) <<< 118 ||| (h.cls % 4) <<< 116 ||| (h.frame % 2 ^ 32) <<< 84 ||| (h.line % 2 ^ 14) <<< 70 |||
    (h.calId % 2 ^ 16) <<< 54 ||| (h.flags % 2 ^ 16) <<< 38 ||| (h.time % 2 ^ 32) <<< 6

/-- The flags of Table 1-4, as bits of `Hdr.flags`. -/
def fPADDED : Nat := 1
def fCUT : Nat := 2
def fLATE : Nat := 4
def fPOISONED : Nat := 8
def fSUBSTITUTED : Nat := 0x10
def fCONCEALED : Nat := 0x20
def fMISSED : Nat := 0x40
def fFALLBACK : Nat := 0x80
def fTNR_OFF : Nat := 0x100
def fEMITTER_OFF : Nat := 0x200
def fUNDERRUN : Nat := 0x400
def fLEAP : Nat := 0x800
def fSOF : Nat := 0x1000
def fEOF : Nat := 0x2000
def fCONTROL : Nat := 0x4000

/-- One entry of a control packet (Table 1-5). -/
structure CtlEntry where
  op : Nat
  addr : Nat
  value : Word
  mask : Word
  deriving DecidableEq, Repr

/-- What a stream packet carries. -/
inductive Body where
  /-- One line of samples or pixels, each an unsigned pattern. -/
  | line (samples : List Nat)
  | frameStart
  | frameEnd
  /-- The late marker of R103. -/
  | late
  /-- The entries, and who injected them: none for a parameter set of a frame calendar (R124, R502). -/
  | control (entries : List CtlEntry) (by' : Option Req)
  deriving DecidableEq, Repr

/-- A stream packet (R18). -/
structure Pkt where
  h : Hdr
  body : Body
  deriving DecidableEq, Repr

/-- A fault record (Table 22-1). -/
structure FaultRec where
  w0 : Word
  w1 : Word
  w2 : Word
  w3 : Word
  deriving DecidableEq, Repr

/-- What a die's fuses hold (R506). -/
structure DieFuses where
  lot : Nat := 0
  wafer : Nat := 0
  x : Nat := 0
  y : Nat := 0
  bin : Nat := 0
  serial : Nat := 0
  deriving DecidableEq, Repr

/-- What the fuses hold (R506, R65, R340, R461, R489). -/
structure Fuses where
  stepping : Nat := 0
  serial : Nat := 0
  lockImage : Bool := false
  hub : DieFuses := {}
  c0 : DieFuses := {}
  c1 : DieFuses := {}
  keyHash : List Word := []
  pcieId : Word := 0
  engBinC0 : Nat := 0
  engBinC1 : Nat := 0
  deriving DecidableEq, Repr

/-- Where something leaves the device: the model's own trace (notes/assumptions/2.md). -/
inductive Chan where
  | msix
  | stream
  | trunk (n : Fin 8)
  | ring (n : Fin 8)
  | procession (right : Bool)
  | quad (q : Fin 16)
  | eth (k : Fin 4)
  | audio (p : Fin 8)
  | emu (e : Fin 16)
  | axis (a : Fin 48)
  | twoWire (c : Fin 9)
  | ssd (i : Fin 4)
  | nvmeCq
  | dram (ch : Fin 16)
  | camera (p : Fin 12)
  | steward (k : Fin 4)
  | avs (die : Fin 2)
  | pcie
  | flash
  | bridge (die : Fin 2)
  deriving DecidableEq, Repr

/-- Something that left the device: where, and its words or bytes. -/
structure Out where
  chan : Chan
  kind : Nat
  data : List Nat
  deriving DecidableEq, Repr

end Sys2Proof.Machine
end

