-- ==== Sys2Proof/Machine/Operand.lean ====
section
/-! DEFINITION. What commands carry beside numbers: line data, bus results, units. -/
namespace Sys2Proof.Machine

/-- What one port of a gang received in a line (R88, R93): its transfers, two per cycle, rising edge first, and by how many
clock cycles its LV rose after the leader's, negative before it (none: it did not rise). -/
structure LinePart where
  transfers : List Word
  after : Option Int
  deriving DecidableEq, Repr

/-- One clock cycle of a training burst (R95), as captured for each port of the gang. -/
structure BurstCycle where
  rise : Word
  fall : Word
  deriving DecidableEq, Repr

/-- How a two-wire transfer ended on the bus (R444): done, or the address or a data byte not acknowledged. -/
inductive XferResult where
  | done | addrNack | dataNack
  deriving DecidableEq, Repr

/-- A unit through which stream packets pass (R26). -/
inductive StreamUnit where
  | pipe (p : Fin 8)
  | head (h : Fin 4)
  deriving DecidableEq, Repr

/-- The PLLs whose loss of lock escalates (Table 22-6). -/
inductive Pll where
  | hubHub | hubPix | pix (die : Fin 2) | eng (die : Fin 2)
  deriving DecidableEq, Repr

/-- DRAM's answers to the oldest waiting lines of a ring output (R180): 0 wall, 1 broadcast, 2 proxy, 3 IR. -/
structure RingAnswer where
  slot : Fin 3
  output : Fin 4
  lines : Nat
  error : Bool
  deriving DecidableEq, Repr

/-- A block as it comes in on a lane (R220): the sync header as a number, and the 64 scrambled bits, bit 0 first. -/
structure LaneBlk where
  lane : Fin 4
  sync : Fin 4
  data : BitVec 64
  deriving DecidableEq, Repr

/-- A DESKEW block as a receiver reads it (Table 9-2). -/
structure LaneMarker where
  lane : Nat
  lanes : Nat
  rate : Nat
  seq : Nat
  tag : Nat
  deriving DecidableEq, Repr

end Sys2Proof.Machine
end

