-- ==== Sys2Proof/Machine/UMap.lean ====
section
/-! DEFINITION. Sparse data by key in one canonical form: keys strictly rising, and no entry equal to what an unlisted key
reads as. Register files, windowed tables and memories are kept so. -/
namespace Sys2Proof.Machine

/-- Key and value pairs. -/
abbrev UMap (α : Type) := List (Nat × α)

/-- The value at a key; an unlisted key reads as d says. -/
def UMap.get {α : Type} (d : Nat → α) : UMap α → Nat → α
  | [], k => d k
  | (a, v) :: t, k => if k = a then v else UMap.get d t k

/-- An entry put in its place. -/
def UMap.put {α : Type} : UMap α → Nat → α → UMap α
  | [], k, v => [(k, v)]
  | (a, x) :: t, k, v =>
    if k < a then (k, v) :: (a, x) :: t
    else if k = a then (k, v) :: t
    else (a, x) :: UMap.put t k v

/-- One key set, kept in order; an entry equal to the unlisted value is not kept. -/
def UMap.set {α : Type} [DecidableEq α] (d : Nat → α) (m : UMap α) (k : Nat) (v : α) : UMap α :=
  match m with
  | [] => if v = d k then [] else [(k, v)]
  | e :: t => if v = d k then (e :: t).filter (fun x => x.1 ≠ k) else UMap.put (e :: t) k v

/-- Every key of the map lies above b. -/
def UMap.above {α : Type} (b : Nat) : UMap α → Bool
  | [] => true
  | (a, _) :: _ => b < a

/-- The canonical form. -/
def UMap.wf {α : Type} [DecidableEq α] (d : Nat → α) : UMap α → Bool
  | [] => true
  | (a, v) :: t => UMap.above a t && !(decide (v = d a)) && UMap.wf d t

/-- Every value changed by a function of its key and itself, in canonical form. -/
def UMap.mapIn {α : Type} [DecidableEq α] (d : Nat → α) (f : Nat → α → α) : UMap α → UMap α
  | [] => []
  | (a, v) :: t => if f a v = d a then UMap.mapIn d f t else (a, f a v) :: UMap.mapIn d f t

/-- Only the keys that satisfy p. -/
def UMap.keep {α : Type} (p : Nat → Bool) (m : UMap α) : UMap α := m.filter (fun e => p e.1)

end Sys2Proof.Machine
end

