-- ==== Sys2Proof/Machine/PartsB.lean ====
section
/-! DEFINITION. State that is no register, chapters 6 and 7: pipes and motion field engines. -/
namespace Sys2Proof.Machine

/-- A pixel: three component patterns. -/
structure Pix where
  c0 : Nat
  c1 : Nat
  c2 : Nat
  deriving DecidableEq, Repr

/-- A line of mosaic samples inside a pipe; `bad` marks the samples that dynamic detection has found defective (R132). -/
structure RawRow where
  n : Nat
  h : Hdr
  v : List Nat
  bad : List Bool := []
  deriving DecidableEq, Repr

/-- A line of pixels inside a pipe; `ir` holds the IR values of R166. -/
structure PixRow where
  n : Nat
  h : Hdr
  px : List Pix
  ir : List Nat := []
  deriving DecidableEq, Repr

/-- A defect map entry (Table 6-2). -/
structure MapEntry where
  kind : Nat
  y : Nat
  x : Nat
  deriving DecidableEq, Repr

/-- A line on its way to a ring buffer: its row, and what it stores where (R178). -/
structure RingLine where
  row : Nat
  parts : List (Nat × List Byte)
  deriving DecidableEq, Repr

/-- One frame of one ring output (R178 to R180): kind 0 wall, 1 broadcast, 2 proxy, 3 IR. -/
structure OutRun where
  kind : Nat
  base : Nat
  h : Hdr
  fvNs : Nat
  half : Bool
  flags : Nat
  firstLine : Option Nat := none
  lastLine : Nat := 0
  dropped : Nat := 0
  err : Bool := false
  /-- The output was shed in this frame (R465). -/
  shed : Bool := false
  /-- The frame-end packet has passed. -/
  ended : Bool := false
  waiting : List RingLine := []
  deriving DecidableEq, Repr

/-- A Harvest set being written (R185, R186). -/
structure HarvestRun where
  base : Nat
  head : List Byte
  body : List Byte
  deriving DecidableEq, Repr

/-- A stream slot of a pipe with its open frame (R128 to R188). -/
structure PipeSlot where
  inFrame : Bool := false
  h : Hdr := ⟨0, 0, 0, 0, 0, 0, 0⟩
  fvNs : Nat := 0
  width : Nat := 0
  height : Nat := 0
  /-- 0 the whole frame; 1 the upper half, 2 the lower half of a gang of four (R150). -/
  half : Nat := 0
  /-- Bits of a sample. -/
  depth : Nat := 16
  mapped : List MapEntry := []
  /-- Lines after black level, after step 6, after step 12 and after step 13; and at the Harvest tap. -/
  raw : List RawRow := []
  s3 : List RawRow := []
  s6 : List RawRow := []
  s12 : List PixRow := []
  out : List PixRow := []
  tap : List PixRow := []
  /-- The first line of the frame that the slot was given: not 0 where it was bound within the frame. -/
  from' : Nat := 0
  /-- The next line of the window stage, of the demosaic and of sharpening. -/
  nextW : Nat := 0
  nextD : Nat := 0
  nextS : Nat := 0
  /-- OR of the flags of the frame's lines. -/
  flags : Nat := 0
  runs : List OutRun := []
  harvest : Option HarvestRun := none
  /-- Control packets that follow a line still on its way through the stages, and that line's number (R26). -/
  behind : List (Nat × Pkt) := []
  deriving DecidableEq, Repr

/-- A reference row on chip (R141). -/
structure RefRow where
  row : Nat
  bad : Bool
  v : List Nat
  deriving DecidableEq, Repr

/-- A reference row waiting to be written (R47). -/
structure RefWrite where
  buf : Nat
  row : Nat
  frame : Nat
  v : List Nat
  deriving DecidableEq, Repr

/-- Temporal noise reduction of a pipe (R136 to R141). -/
structure Tnr where
  slot : Nat := 3
  en : Bool := false
  lastFrame : Option Nat := none
  lastSize : Nat × Nat := (0, 0)
  lastMos : Nat × Nat × Nat := (0, 0, 0)
  /-- The frame whose rows each buffer holds, and the valid rows. -/
  frame0 : Nat := 0
  frame1 : Nat := 0
  valid0 : List Nat := []
  valid1 : List Nat := []
  /-- No reference could exist in this frame (R48). -/
  never : Bool := true
  /-- TNR_SLOT has changed since the last frame start (R140). -/
  moved : Bool := false
  wanted : List Nat := []
  rows : List RefRow := []
  writes : List RefWrite := []
  deriving DecidableEq, Repr

/-- A colour table load (R188). -/
structure ColLoad where
  slot : Nat
  table : Nat
  bank : Nat
  index : Nat
  count : Nat
  addr : Nat
  deriving DecidableEq, Repr

/-- A pixel pipe. -/
structure PipeU where
  /-- Packets that have reached the pipe and are not yet processed. -/
  inQ : List Pkt := []
  /-- The port served last (R107). -/
  last : Nat := 11
  /-- Streams that have started and whose first frame has not yet reached the pipe. -/
  starts : List Nat := []
  /-- Packets of streams of gangs of four that wait for the other pipe's copy of a control packet (R26). -/
  join : List Pkt := []
  slots : Vector PipeSlot 3 := Vector.replicate 3 {}
  tnr : Tnr := {}
  load : Option ColLoad := none
  deriving DecidableEq, Repr

/-- A motion vector, in quarter proxy pels. -/
structure Vec where
  x : Int
  y : Int
  deriving DecidableEq, Repr

/-- A block of the field (Table 6-3). -/
structure FieldBlk where
  v : Vec
  cost : Nat := 0
  source : Nat := 0
  refined : Bool := false
  clamped : Bool := false
  deriving DecidableEq, Repr

/-- A frame's field on chip. -/
structure Field where
  h : Hdr := ⟨0, 0, 0, 0, 0, 0, 0⟩
  g : Vec := ⟨0, 0⟩
  bw : Nat := 0
  bh : Nat := 0
  blks : List FieldBlk := []
  written : Bool := true
  deriving DecidableEq, Repr

/-- A motion field engine (R145 to R149). -/
structure MfeU where
  /-- The frame-start packet that the MFE has still to take. -/
  due : Option Hdr := none
  cur : Field := {}
  prev : Field := {}
  pred : List Vec := []
  /-- Lines of the frame that the MFE works on. -/
  lines : Nat := 0
  width : Nat := 0
  firstLine : Nat := 0
  /-- Lines that have passed step 3. -/
  passed : Nat := 0
  deriving DecidableEq, Repr

end Sys2Proof.Machine
end

