-- ==== Sys2Proof/Machine/PartsD.lean ====
section
/-! DEFINITION. State that is no register, chapters 10 and 11: codec contexts and cores; and what their cores hand over. -/
namespace Sys2Proof.Machine

/-! ### Encoding -/

/-- The bits of a CTU as the coding hardware makes them, in the order sent, emulation prevention included: coded normally, in
exhaustion and in the fallback form (R260). -/
structure CtuCode where
  normal : List Bool
  exh : List Bool
  fall : List Bool
  deriving DecidableEq, Repr

/-- A prediction unit as its motion search finds it (R251, R252): where it lies in the crop, which active reference it searches,
its neighbours among the units before it, its co-located unit in the reference picture, what the sums of absolute differences of
its candidates are, and where the search around the kept candidate ends. -/
structure PuIn where
  x : Nat
  y : Nat
  w : Nat
  h : Nat
  ref : Nat
  left : Option Nat
  above : Option Nat
  aboveRight : Option Nat
  colocated : Option Nat
  sads : List Nat
  delta : Vec
  deriving DecidableEq, Repr

/-- The motion of a prediction unit: the final vector and the POC distance to its reference. -/
structure PuOut where
  mv : Vec
  dist : Int
  deriving DecidableEq, Repr

/-- What a core's coding hardware made of a picture: its CTUs, tile after tile; its prediction units; and the firmware's values of
the HRD SEI messages (concatenation_flag, the removal delay difference, the initial delay and offset, the removal delay and the
output delay). -/
structure CodedPic where
  ctus : List CtuCode
  units : List PuIn
  delays : List Nat
  deriving DecidableEq, Repr

/-- A source picture in the coded format, cropped and padded (R235). -/
structure SrcPic where
  w : Nat
  h : Nat
  y : List Nat
  cb : List Nat
  cr : List Nat
  deriving DecidableEq, Repr

/-- A motion field as a context holds it in its field store: G_F and the buffer's bytes (R250). -/
structure FieldCopy where
  g : Vec
  body : List Byte
  deriving DecidableEq, Repr

/-- A frame taken for coding (R242), with the context bytes in force when it was taken. -/
structure Taken where
  frame : Nat
  /-- Address of the source buffer. -/
  src : Nat
  /-- Header with the flags of all heads. -/
  hdr : Nat
  fvNs : Nat
  poc : Int
  /-- 0 IDR, 1 P, 2 B, 3 I; and the B level. -/
  type : Nat
  level : Nat
  p : List Byte
  /-- The fields copied for it; none when MFE and global candidates are not used. -/
  fields : List FieldCopy := []
  noMfe : Bool := true
  stale : Bool := false
  deriving DecidableEq, Repr

/-! ### Decoding -/

/-- A short-term reference picture set: POC differences and whether the picture may use them, nearest first. -/
structure Rps where
  neg : List (Int × Bool)
  pos : List (Int × Bool)
  deriving DecidableEq, Repr

/-- What a decoder keeps of a sequence parameter set. -/
structure Sps where
  id : Nat
  vps : Nat
  /-- Within R264. -/
  fits : Bool
  /-- 1 for 4:2:0, 2 for 4:2:2. -/
  chroma : Nat
  w : Nat
  h : Nat
  /-- Conformance window offsets in luma samples: left, right, top, bottom. -/
  win : List Nat
  depthY : Nat
  depthC : Nat
  lsbBits : Nat
  maxDec : Nat
  reorder : Nat
  latency : Nat
  ctbLog : Nat
  sao : Bool
  rps : List Rps
  long : Bool
  /-- Long-term candidates: POC bits, and used by the current picture. -/
  ltSps : List (Nat × Bool)
  tmvp : Bool
  /-- VUI: matrix_coeffs, transfer_characteristics, full range; none without a VUI. -/
  vui : Option (Nat × Nat × Bool)
  deriving DecidableEq, Repr

/-- What a decoder keeps of a picture parameter set. -/
structure Pps where
  id : Nat
  sps : Nat
  dependent : Bool
  outFlag : Bool
  extra : Nat
  cabacInit : Bool
  l0 : Nat
  l1 : Nat
  sliceChroma : Bool
  weighted : Bool
  bipred : Bool
  tiles : Bool
  sync : Bool
  cols : Nat
  rows : Nat
  /-- Column widths and row heights but the last ones, in CTBs; empty for uniform spacing. -/
  colW : List Nat
  rowH : List Nat
  loopSlices : Bool
  override : Bool
  noDeblock : Bool
  listsMod : Bool
  sliceExt : Bool
  cuChromaQp : Bool
  deriving DecidableEq, Repr

/-- A slice segment header. -/
structure SliceHdr where
  first : Bool
  noOut : Bool
  dependent : Bool
  addr : Nat
  /-- 0 B, 1 P, 2 I. -/
  type : Nat
  out : Bool
  lsb : Nat
  st : Rps
  /-- Long-term references: how far back in POC, or the POC's low bits; which of the two; and used by the current picture. -/
  lt : List (Int × Bool × Bool)
  /-- The place in the initial list of the first picture of RefPicList0. -/
  entry0 : Nat
  deriving DecidableEq, Repr

/-- A slice segment NAL unit as scanned: its header, none if it is in error; whether a read of it was poisoned. -/
structure Seg where
  hdr : Option SliceHdr
  poisoned : Bool
  deriving DecidableEq, Repr

/-- The picture of an access unit, as its headers give it. -/
structure DecInfo where
  /-- Where the access unit begins, and its bytes. -/
  off : Nat
  len : Nat
  sps : Sps
  pps : Pps
  /-- nal_unit_type and TemporalId. -/
  nut : Nat
  tid : Nat
  poc : Int
  /-- NoRaslOutputFlag of an IRAP picture. -/
  noRasl : Bool
  segs : List Seg
  deriving DecidableEq, Repr

/-- What ends the decoding of a slice segment's data before its end: damaged data, an access at an address outside the buffers,
a poisoned read of the input (R273, R275). -/
inductive SegFault where
  | damage
  | bound (addr : Nat)
  | poison
  deriving DecidableEq, Repr

/-- How far a slice segment's data went: the CTUs decoded, and what then stopped it. -/
structure SegRun where
  count : Nat
  fault : Option SegFault
  deriving DecidableEq, Repr

/-- What the decoding hardware made of a picture: its samples by H.265, how far each slice segment went, and the CTUs whose
reference was read with poison. -/
structure DecRun where
  y : List Nat
  cb : List Nat
  cr : List Nat
  segs : List SegRun
  badRef : List Nat
  deriving DecidableEq, Repr

/-- A decoded picture. -/
structure DecodedPic where
  width : Nat
  height : Nat
  /-- Conformance window offsets in luma samples: left, right, top, bottom. -/
  win : List Nat
  /-- 1 for 4:2:0, 2 for 4:2:2. -/
  chroma : Nat
  depthY : Nat
  depthC : Nat
  ctb : Nat
  y : List Nat
  cb : List Nat
  cr : List Nat
  poc : Int
  /-- 0 I, 1 P, 2 B. -/
  type : Nat
  tid : Nat
  /-- VUI: matrix_coeffs, transfer_characteristics, full range; none without a VUI. -/
  vui : Option (Nat × Nat × Bool)
  deriving DecidableEq, Repr

/-- A picture in progress. -/
inductive CodecJob where
  | enc (t : Taken) (src : SrcPic) (cores : List Nat)
  | dec (i : DecInfo) (texp : Nat) (cores : List Nat)
  deriving DecidableEq, Repr

/-- A decoded picture in the DPB; `off` is where its access unit begins. -/
structure DpbPic where
  pic : DecodedPic
  off : Nat
  flags : Nat
  events : Nat
  code : Nat
  conc : Nat
  waiting : Bool
  /-- Marked as used for reference, and as a long-term one. -/
  ref : Bool := true
  long : Bool := false
  /-- Pictures decoded since it began to wait for its output. -/
  latency : Nat := 0
  deriving DecidableEq, Repr

/-- An output picture between the DPB and the surface ring: its body has been written. -/
structure OutPic where
  k : Nat
  d : DpbPic
  ready : Bool
  deriving DecidableEq, Repr

/-- A stream context (R239, R266). -/
structure VCtx where
  run : Bool := false
  dec : Bool := false
  /-- Context bytes 0 to 255 as last read. -/
  p : List Byte := []
  stopping : Bool := false
  expect : Option Nat := none
  ready : List Taken := []
  group : List Taken := []
  needIdr : Bool := true
  idrFrame : Nat := 0
  sinceIdr : Nat := 0
  skipBefore : Nat := 0
  /-- POCs of the pictures kept as references, last coded first. -/
  refs : List Int := []
  /-- For the I, P and B pictures coded last: type, first QP, bits (R259). -/
  lastQp : List (Nat × Nat × Nat) := []
  /-- The motion of the picture coded last. -/
  units : List PuOut := []
  debt : Int := 0
  level : Nat := 0
  auCount : Nat := 0
  wr : Nat := 0
  job : Option CodecJob := none
  /-- Decoding: where the next access unit begins, RD_PTR, the last WR_PTR seen. -/
  pos : Nat := 0
  rd : Nat := 0
  lastWr : Nat := 0
  waitIrap : Bool := true
  /-- Decoding: parameter sets in force: layers of each VPS, SPS and PPS (R273). -/
  vpss : List (Nat × Nat) := []
  spss : List Sps := []
  ppss : List Pps := []
  /-- POC of the last picture of TemporalId 0 that counts for it. -/
  prevPoc : Int := 0
  /-- NoRaslOutputFlag of the last IRAP picture; an end of sequence came after the last picture. -/
  noRasl : Bool := false
  afterEos : Bool := true
  dpb : List DpbPic := []
  prevPic : Option DecodedPic := none
  outQ : List OutPic := []
  nextK : Nat := 0
  published : Nat := 0
  /-- Access units begun and not yet passed by RD_PTR: start, end, done. -/
  aus : List (Nat × Nat × Bool) := []
  paceCount : Nat := 0
  paceDue : Bool := false
  deriving DecidableEq, Repr

/-- A codec core. -/
structure VccU where
  cur : Option Nat := none
  /-- The context whose picture it coded last (R247). -/
  last : Option Nat := none
  /-- The context whose other cores this core waits for (R247). -/
  waitFor : Option Nat := none
  /-- CTUs coded in the current second. -/
  ctus : Nat := 0
  /-- The depth that Vigil asks for (R252). -/
  depth : Nat := 0
  /-- The stream processor's memories and start address (R253). -/
  imem : List Byte := []
  dmem : List Byte := []
  entry : Nat := 0
  deriving DecidableEq, Repr

/-- A field event (R250). -/
structure FieldEvent where
  frame : Nat
  g : Vec
  ok : Bool
  deriving DecidableEq, Repr

/-- No field event has come. -/
def noField (_ : Nat) : List FieldEvent := []

/-- The codec as a whole. -/
structure Codec where
  ctxs : UMap VCtx := []
  /-- The command that waits for its context's picture boundary (R240). -/
  cmd : Option (Nat × Nat) := none
  /-- The field events of each MFE, last first (R250). -/
  fields : UMap (List FieldEvent) := []
  deriving DecidableEq, Repr

end Sys2Proof.Machine
end

