-- ==== Sys2Proof/Machine/PartsF.lean ====
section
/-! DEFINITION. State of the memory controllers that is no register, and what DRAM commands carry (R302 to R325). -/
namespace Sys2Proof.Machine

/-- What link ECC says of a read burst (R305). -/
inductive LinkEcc where
  | clean | corrected | failed
  deriving DecidableEq, Repr

/-- What the inline code says of a unit (R306, R308): failed comes with the syndrome. -/
inductive InlineEcc where
  | clean | corrected | failed (syndrome : BitVec 16)
  deriving DecidableEq, Repr

/-- A request at a channel (R314, R316): a read of the 64 bytes at addr, or a write of data from addr up. -/
structure DramReq where
  addr : Nat
  write : Bool
  cls : Nat
  src : Nat
  tick : Nat
  seq : Nat
  /-- The bytes of a write; of a read, those read when it was performed. -/
  data : List (BitVec 8) := []
  scrub : Bool := false
  /-- The write-back of a corrected unit, which keeps its bytes (R308). -/
  back : Bool := false
  deriving DecidableEq, Repr

/-- What a rank reports in MR8 (R320): LPDDR5X, its density in Gbit, and its I/O width. -/
structure RankOrg where
  lpddr5x : Bool
  gbit : Nat
  width : Nat
  deriving DecidableEq, Repr

/-- What a die's MR4 gives (R319): the code, whether it asks for timing derating, and a temperature above its range. -/
structure DieTemp where
  code : BitVec 8
  derate : Bool
  beyond : Bool
  deriving DecidableEq, Repr

/-- A read on its way: a read request, or the read of a read-modify-write (R307); whether it is the retry (R305). -/
structure DramFlight where
  req : DramReq
  retry : Bool := false
  deriving DecidableEq, Repr

/-- A channel controller. -/
structure Dch where
  rdQ : List DramReq := []
  wrQ : List DramReq := []
  flight : List DramFlight := []
  seq : Nat := 0
  /-- The queue has held 48 writes and not yet come down to 16 (R315). -/
  level : Bool := false
  /-- Next slot of each sub-channel in its frame of 25 (R313). -/
  slotA : Nat := 0
  slotB : Nat := 0
  /-- Open rows: (sub-channel, rank, bank) to row. -/
  rows : List (Nat × Nat) := []
  /-- What each of classes 1 to 3 has left of its weight (R42). -/
  credit : List Nat := [0, 0, 0]
  /-- The snapshot of R323 is held. -/
  held : Bool := false
  /-- A diagnostic read runs. -/
  diag : Bool := false
  /-- Units that an uncorrectable inline error was found in. -/
  badUnits : List Nat := []
  /-- A retrain runs, its steps so far, and the tick of the last step (R321). -/
  retraining : Bool := false
  steps : Nat := 0
  stepAt : Option Nat := none
  /-- The next unit to scrub (R308). -/
  scrubUnit : Nat := 0
  /-- Corrected units whose write-back waits for a place in the queue (R308). -/
  owed : List Nat := []
  deriving DecidableEq, Repr

/-- The mapping masks as they were read when A3 ended (R311). -/
structure DramMasks where
  ch : List Nat := [0, 0, 0, 0]
  bank : List Nat := [0, 0, 0, 0]
  deriving DecidableEq, Repr

end Sys2Proof.Machine
end

