-- ==== Sys2Proof/Machine/PartsG.lean ====
section
/-! DEFINITION. State of the hub DMA that is no register, and what its commands carry (R326 to R339). -/
namespace Sys2Proof.Machine

/-- How a bus access was answered. -/
inductive BusAns where
  | ok | poison | error
  deriving DecidableEq, Repr

/-- A register set (R330). -/
structure DmaSet where
  src : Nat := 0
  dst : Nat := 0
  rowBytes : Nat := 0
  rows : Nat := 0
  cls1 : Bool := false
  sStride : BitVec 32 := 0
  dStride : BitVec 32 := 0
  deriving DecidableEq, Repr

/-- A read of a transfer: its row, its place in the row, and its data once returned (none inside: it failed). -/
structure DmaRead where
  row : Nat
  off : Nat
  n : Nat
  back : Option (Option (List (BitVec 8))) := none
  deriving DecidableEq, Repr

/-- A write that waits for its response; false: it could not be performed. -/
structure DmaWrite where
  addr : Nat
  ok : Bool
  deriving DecidableEq, Repr

/-- A channel: the shadow set, the set as it was loaded, the places of the read and the write side, what is in flight. -/
structure DmaU where
  shadow : DmaSet := {}
  set : DmaSet := {}
  rRow : Nat := 0
  rOff : Nat := 0
  wRow : Nat := 0
  wOff : Nat := 0
  reads : List DmaRead := []
  writes : List DmaWrite := []
  /-- The first error of the transfer: cause and address (R334). -/
  err : Option (Nat × Nat) := none
  /-- When its last read was issued, in turns of all channels (R327). -/
  turn : Nat := 0
  deriving DecidableEq, Repr

end Sys2Proof.Machine
end

