-- ==== Sys2Proof/Machine/PartsC.lean ====
section
/-! DEFINITION. State that is no register, chapters 8 and 9: heads, tile calibration, Parade trunks. -/
namespace Sys2Proof.Machine

/-- A surface descriptor (Table 8-2). -/
structure SurfDesc where
  ring : Nat
  stride : Nat
  width : Nat
  height : Nat
  pitch : Nat
  ofs : Nat
  format : Nat
  log2 : Nat
  select : Nat
  lag : Nat
  heads : Nat
  fixed : Nat
  deriving DecidableEq, Repr

/-- The buffer that a layer shows in a frame (R195). -/
structure SurfSel where
  layer : Nat
  desc : SurfDesc
  /-- Address of row 0. -/
  addr : Nat
  frame : Nat
  deriving DecidableEq, Repr

/-- A source row of a surface on chip: pixel patterns c0, c1, c2, alpha of each pixel in PF20 (R196). -/
structure SurfRow where
  layer : Nat
  row : Nat
  poison : Bool
  px : List (List Nat)
  deriving DecidableEq, Repr

/-- A fetch that has been issued (R196). -/
structure SurfWant where
  layer : Nat
  row : Nat
  deriving DecidableEq, Repr

/-- What the freeze's reads gave for a layer: no buffer switches it off from row 0 (R195). -/
structure LayerSel where
  layer : Nat
  sel : Option SurfSel
  poison : Bool
  deriving DecidableEq, Repr

/-- How far a layer's fetches have been issued: source rows below `upTo`, and destination rows below `decided` (R209). -/
structure LayerFetch where
  layer : Nat
  upTo : Nat
  decided : Nat
  deriving DecidableEq, Repr

/-- A load of tile words (R216): the address of the next word, words left, the word at which a read fails, and whether the
data have come. -/
structure TcmLoad where
  addr : Nat
  left : Nat
  fail : Option Nat
  come : Bool
  deriving DecidableEq, Repr

/-- Segments of a row beneath a covering layer when its fetch was issued (R209). -/
structure Cover where
  row : Nat
  seg : Nat
  layer : Nat
  deriving DecidableEq, Repr

/-- The pixels of a rotated footprint with the row and flags they came from (R203). -/
structure RotTile where
  tile : Nat
  /-- Native pixels gathered: u, v, and the composed pixel. -/
  px : List (Nat × Nat × Pix)
  flags : Nat
  size : Nat
  deriving DecidableEq, Repr

/-- Per-emitter coefficients of a line on chip (R217): of a raster row, or of a native line of a rotated tile. -/
structure EmRow where
  /-- The tile record of a rotated tile's line; none for a raster row. -/
  tile : Option Nat
  line : Nat
  bad : Bool
  /-- Tile record, native line, and its bytes. -/
  data : List (Nat × Nat × List Byte)
  deriving DecidableEq, Repr

/-- A start target (R204). -/
structure Target where
  ns : Nat
  /-- The camera frame and its CAL_ID. -/
  frame : Nat
  calId : Nat
  clamp : Bool
  deriving DecidableEq, Repr

/-- A display head with its calibration stage (R189 to R219). -/
structure HeadU where
  inQ : List Pkt := []
  /-- Rows begun in this frame, and whether the last one is still open. -/
  rows : Nat := 0
  rowOpen : Bool := false
  /-- The stamp of the frame start in ns, and of the row's start. -/
  fsNs : Nat := 0
  rowNs : Nat := 0
  target : Option Target := none
  /-- The target has been reached in a frame with fewer than VT_MIN rows begun (early start). -/
  early : Bool := false
  /-- Flags of the current frame. -/
  forced : Bool := false
  leap : Bool := false
  wasEarly : Bool := false
  wasClamp : Bool := false
  /-- Leap lines before the current frame. -/
  leapLines : Nat := 0
  /-- The row period in force in PIX cycles (R191). -/
  tOut : Nat := 0
  /-- The camera frame whose lock event started this head frame. -/
  cam : Option Nat := none
  calId : Nat := 0xFFFF
  /-- Lines of the direct stream, oldest first, and frame and number of those dropped. -/
  lines : List Pkt := []
  lost : List (Nat × Nat) := []
  /-- The current row waits for direct lines. -/
  waiting : Bool := false
  waitTick : Nat := 0
  /-- Layers switched off in the frame, those off from row 0, and those that poison switched off in this row. -/
  off : List Nat := []
  off0 : List Nat := []
  poisoned : List Nat := []
  surf : List SurfSel := []
  /-- The freeze has passed for the next frame; its reads have been judged; what they gave. -/
  selecting : Bool := false
  next : List LayerSel := []
  /-- What the reads give for the layers in force, which are shown if the group is rejected; F_pred at the freeze. -/
  kept : List LayerSel := []
  fPred : Nat := 0
  fetches : List LayerFetch := []
  selected : Bool := false
  wants : List SurfWant := []
  surfRows : List SurfRow := []
  covers : List Cover := []
  /-- OR of the flags of all rows; the header of row 0. -/
  flags : Nat := 0
  hdr0 : Hdr := ⟨0, 0, 0, 0, 0, 0, 0⟩
  /-- A frame record that waits to be written: its address and bytes. -/
  record : Option (Nat × List Byte) := none
  rot : List RotTile := []
  /-- Rotated tiles whose footprint is complete, with the native line sent next. -/
  rotSend : List (RotTile × Nat) := []
  /-- FV stamp of the camera frame whose first LV is awaited, for G. -/
  gFrom : Option Nat := none
  /-- FRAME_END of the current frame has been queued. -/
  ended : Bool := true
  -- calibration
  queue : List (Nat × List Word) := []
  emWants : List (Option Nat × Nat) := []
  emRows : List EmRow := []
  load : Option TcmLoad := none
  deriving DecidableEq, Repr

/-- The transmitter of a trunk's lanes (R220, R221): stream blocks sent, the next block position of each lane, and the state of
its scrambler, bit 0 the bit sent last. -/
structure LaneTx where
  blocks : Nat := 0
  pos : List Nat := [0, 0, 0, 0]
  scram : List (BitVec 58) := [0, 0, 0, 0]
  deriving DecidableEq, Repr

/-- The receiver of a trunk: the state of each lane's descrambler, and the packet in progress (R220, R222). -/
structure LaneRx where
  scram : List (BitVec 58) := [0, 0, 0, 0]
  packet : Option (List Byte) := none
  deriving DecidableEq, Repr

/-- A Parade packet waiting at a framer, with the class-0 line it belongs to: stream, frame, line and TIME. -/
structure PrdPkt where
  bytes : List Byte
  c0 : Option (Nat × Nat × Nat × Nat) := none
  deriving DecidableEq, Repr

/-- A census entry (Table 9-5). -/
structure CensusEntry where
  id : Nat
  addr : Nat
  status : Nat
  errs : Nat
  kind : Nat
  port : Nat
  deriving DecidableEq, Repr

/-- A Parade trunk (R220 to R232). -/
structure PrdU where
  /-- The lanes sent on, and received on (R220, R221). -/
  tx : LaneTx := {}
  rx : LaneRx := {}
  txQ : List PrdPkt := []
  /-- When the last BEACON came in (R229). -/
  beaconTick : Nat := 0
  censusSeq : Nat := 0
  /-- The result of this trunk's last census; none while outstanding or timed out. -/
  result : Option (List CensusEntry) := none
  pollSeq : Nat := 0
  polling : Bool := false
  /-- The target address of the poll. -/
  pollAddr : Nat := 0
  /-- When the poll and the census went out (R231, R232). -/
  pollTick : Nat := 0
  censusTick : Nat := 0
  /-- CENSUS_MISMATCH and the counts wait for the other trunk's result. -/
  judged : Bool := true
  deriving DecidableEq, Repr

end Sys2Proof.Machine
end

