-- ==== Sys2Proof/Machine/PartsH.lean ====
section
/-! DEFINITION. State of serial lanes, Procession ports and Ethernet ports that is no register (R371 to R404). -/
namespace Sys2Proof.Machine

/-- A quad (R377 to R382). -/
structure QuadU where
  /-- L0 is shown and the exit time of the state left is still running. -/
  exiting : Bool := false
  /-- The state left was Vesper. -/
  fromVesper : Bool := false
  /-- Lanes in clock recovery and adaptation, and lanes that wait for the next try (R377). -/
  training : List Nat := []
  failed : List Nat := []
  /-- A retrain that waits for the next entry to L0 (R382). -/
  retrain : Bool := false
  /-- The loop in effect (R379). -/
  loop : Nat := 0
  /-- A user of the quad was enabled when last looked at. -/
  used : Bool := false
  /-- AUTO_VESPER has put the quad in Vesper (R382). -/
  autoVesper : Bool := false
  /-- When the last user was disabled (R382). -/
  idleTick : Nat := 0
  deriving DecidableEq, Repr

/-- A TIME packet (Table 17-3) as received. -/
structure TimePkt where
  leader : Nat
  hops : Nat
  state : Nat
  domain : Nat
  gm : Nat
  clockClass : Nat
  utc : Nat
  deriving DecidableEq, Repr

/-- A heartbeat's number and stamp in ns. -/
structure BeatStamp where
  seq : Nat
  ns : Nat
  deriving DecidableEq, Repr

/-- A Procession port (R383 to R387). -/
structure ProcPort where
  /-- The two lanes sent on (R383). -/
  tx : LaneTx := {}
  aligned : Bool := false
  seq : Nat := 0
  /-- Valid heartbeats in a row, at most 3, and whether one came since the last one sent. -/
  run : Nat := 0
  got : Bool := false
  /-- The last four sent, newest first. -/
  sentBeats : List BeatStamp := []
  /-- The last one received. -/
  echo : Option BeatStamp := none
  /-- The neighbour's package number is valid. -/
  valid : Bool := false
  time : Option TimePkt := none
  /-- When the last valid heartbeat came, and the last TIME packet of this package's leader (R386, R408). -/
  beatTick : Nat := 0
  timeTick : Nat := 0
  deriving DecidableEq, Repr

/-- The RX side of an Ethernet port holds nothing between frames; a TX frame that waits holds nothing either. What the link
reported last. -/
structure EthLink where
  up : Bool
  fecLock : Bool
  localFault : Bool
  remoteFault : Bool
  blockLock : Bool
  deriving DecidableEq, Repr

end Sys2Proof.Machine
end

