-- ==== Sys2Proof/Machine/PartsK.lean ====
section
/-! DEFINITION. State of the engines, steward cores and clusters that is no register, and what their commands carry (R278 to
R301, R70). -/
namespace Sys2Proof.Machine

/-- A core that executes Werok instructions (R70, R300). -/
inductive WCore where
  | engine (e : Fin 128)
  | steward (k : Fin 4)
  deriving DecidableEq, Repr

/-- A line of the data cache: the device address of its first byte, and its 64 bytes (R283). -/
structure CLine where
  addr : Nat
  data : List Byte
  dirty : Bool
  deriving DecidableEq, Repr

/-- A store or write-back in the store buffer, at a device physical address (R283). -/
structure SbItem where
  addr : Nat
  data : List Byte
  deriving DecidableEq, Repr

/-- What an instruction that drains the store buffer does afterwards (R285). -/
inductive Drain where
  | fence
  | sig (addr : Nat) (value : Word)
  | jend
  deriving DecidableEq, Repr

/-- A cluster-DMA transfer in progress, by its ticket (R289). -/
structure Cdma where
  ticket : Word
  slot : Nat
  src : Nat
  dst : Nat
  rowBytes : Nat
  rows : Nat
  srcStride : Nat
  dstStride : Nat
  deriving DecidableEq, Repr

/-- The job an engine runs (Table 12-3). -/
structure WJob where
  id : Nat
  queue : Nat
  irq : Bool
  cls1 : Bool
  budget : Nat
  comp : Nat
  deriving DecidableEq, Repr

/-- An answered or outstanding outbound read of the instruction at hand: address, length, and the answer (none inside: poison). -/
structure BusAsk where
  addr : Nat
  len : Nat
  answer : Option (Option (List Byte))
  deriving DecidableEq, Repr

/-- An engine or steward core. -/
structure EngU where
  /-- It executes: a job on an engine, the firmware on a steward. -/
  run : Bool := false
  job : Option WJob := none
  pc : Nat := 0
  x : UMap Word := []
  /-- Vector and mask registers; none: undefined since the job started, the free value of its number (R293). -/
  v : UMap (Option Nat) := []
  m : UMap (Option Nat) := []
  /-- The free values that undefined registers take start here. -/
  open' : Nat := 0
  wins : UMap Word := []
  imem : UMap Byte := []
  dmem : UMap Byte := []
  /-- Bytes of IMEM as fetched still, though IMEM holds others: the address, the old byte, the ticket not yet waited for. -/
  stale : List (Nat × Byte × Option Word) := []
  cache : List CLine := []
  sb : List SbItem := []
  /-- The core waits for its store buffer, and what it does then. -/
  drain : Option Drain := none
  /-- The core sleeps until this word of cluster memory differs from a value. -/
  watch : Option (Nat × Word) := none
  cdma : List Cdma := []
  /-- Results of transfers not yet waited for. -/
  results : List (Word × Nat) := []
  asks : List BusAsk := []
  /-- Steward: firmware is loaded and starts when A4 ends. -/
  loaded : Bool := false
  entry : Nat := 0
  deriving DecidableEq, Repr

/-- A cluster: its dispatcher and its power. -/
structure ClU where
  /-- The queue whose head descriptor is being read. -/
  picked : Option Nat := none
  /-- Queues whose head job waits for an engine of its mask, or behind its barrier (R292). -/
  blocked : List Nat := []
  /-- A power-gated cluster is waking (R9). -/
  waking : Bool := false
  deriving DecidableEq, Repr

/-- A read that has left for the host (R342). -/
structure OutReq where
  r : Req
  addr : Nat
  len : Nat
  deriving DecidableEq, Repr

/-- The PCIe endpoint. -/
structure PcieU where
  outs : List OutReq := []
  deriving DecidableEq, Repr

end Sys2Proof.Machine
end

