-- ==== Sys2Proof/Machine/PartsA.lean ====
section
/-! DEFINITION. State that is no register, chapters 1 to 5, 20, 22 to 24: fabric, Advent, the Almanac, camera ports, calendars,
two-wire buses, fault logs. -/
namespace Sys2Proof.Machine

/-- What the device has read of a slot's header (R64, R67). -/
structure SlotHdr where
  ok : Bool := false
  dormant : Bool := false
  generation : Nat := 0
  length : Nat := 0
  deriving DecidableEq, Repr

/-- A Poll record that runs (R514). -/
structure PollRun where
  target : Nat
  value : Word
  mask : Word
  started : Nat
  timeoutUs : Nat
  deriving DecidableEq, Repr

/-- Advent (R59 to R75). -/
structure Adv where
  /-- PORST_N is high. -/
  porst : Bool := false
  fuses : Fuses := {}
  /-- The fuses have been read. -/
  fused : Bool := false
  /-- A fuse read error holds the device in A0 (R71). -/
  fuseErr : Bool := false
  /-- Flash discovery is done (R60). -/
  found : Bool := false
  flashCap : Nat := 0
  slotA : SlotHdr := {}
  slotB : SlotHdr := {}
  /-- The slot to check next: false A, true B. -/
  checking : Bool := false
  /-- The other slot has been checked already. -/
  second : Bool := false
  hostRead : Bool := false
  /-- Records still to be skipped by a Conditional record (R66). -/
  skip : Nat := 0
  poll : Option PollRun := none
  /-- CRC-32C of the payloads of block and firmware records, in image order, from A1 (R69). -/
  crcs : List Nat := []
  /-- BCRC of the running image (Table 22-4). -/
  imgCrc : Nat := 0
  /-- The image names an Almanac partition: offset, size, epoch (R76). -/
  partition : Option (Nat × Nat × Nat) := none
  /-- A TOP_RESET has been written and its reset is due (R506). -/
  resetDue : Bool := false
  /-- The tick at which a census token of an origin that ranks before this package was last seen (R387). -/
  better : Option Nat := none
  /-- Packages that the last second pass named: package number, POSN, pair enabled (R83, R387). -/
  known : List (Nat × Nat × Bool) := []
  deriving DecidableEq, Repr

/-- A value of AL fields: the register or table entry, which bits, and their value. -/
structure AlVal where
  key : Nat
  mask : Word
  value : Word
  deriving DecidableEq, Repr

/-- What a commit group or the journal holds (R76). -/
structure Journal where
  al : List AlVal := []
  checkpoints : List (Nat × Nat) := []
  log : List FaultRec := []
  ledger : List Nat := [0, 0, 0, 0, 0, 0, 0, 0]
  deriving DecidableEq, Repr

/-- What the flash holds at one place: a journal and its ring of sectors (R76, R77). -/
structure AlmFlash where
  /-- Durable entries. -/
  flash : Journal := {}
  /-- The journal's epoch; none for an empty partition. -/
  epoch : Option Nat := none
  /-- The journal's last marker is a guard marker (R80). -/
  guard : Bool := false
  /-- The last commit group is incomplete (R78). -/
  incomplete : Bool := false
  /-- Sequence number and CRC-32C of the last durable commit group (R77). -/
  seq : Nat := 0
  crc : Nat := 0
  /-- The sectors that hold groups, in ring order, oldest first; the bytes used in the newest; how often each was erased. -/
  sectors : List Nat := []
  fill : Nat := 0
  erases : UMap Nat := []
  deriving DecidableEq, Repr

/-- The Almanac: what the flash holds, and what waits in retention SRAM (R76 to R82). -/
structure Alm extends AlmFlash where
  /-- OFFSET and SIZE of the partition whose journal stands above, and what the flash holds at other places (R76). -/
  place : Nat × Nat := (0, 0)
  others : List ((Nat × Nat) × AlmFlash) := []
  /-- AL values, checkpoints and fault-log entries not yet committed, oldest first. -/
  pendAl : List AlVal := []
  pendChk : List (Nat × Nat) := []
  pendLog : List FaultRec := []
  pendLedger : Bool := false
  /-- Seconds per bin (R82). -/
  ledger : List Nat := [0, 0, 0, 0, 0, 0, 0, 0]
  /-- The group being written, in A7. -/
  writing : Option Journal := none
  /-- The group being written was asked for by COMMIT; it erases the AL values (R74). -/
  asked : Bool := false
  discard : Bool := false
  /-- The group being written is a snapshot of all live entries, and the oldest sector is erased with it (R77). -/
  snapshot : Bool := false
  /-- PFAIL_N is low. -/
  pfail : Bool := false
  /-- The flash-write window is closed (R79). -/
  shut : Bool := false
  deriving DecidableEq, Repr

/-- One place of a port's input FIFO: a packet on its way to the pipes that still have to take it (R94, R106). -/
structure FifoItem where
  pkt : Pkt
  pipes : List Nat
  /-- The line has ended. -/
  whole : Bool
  /-- A line that the device itself has added: it takes none of the 16 places (notes/assumptions/74.md). -/
  added : Bool := false
  deriving DecidableEq, Repr

/-- A full or tracking training of a port (R95 to R97). -/
structure Training where
  active : Bool := false
  cycles : Nat := 0
  /-- For each tap, the data bits that have matched so far. -/
  pass : List Word := []
  /-- Data bits that tracking has moved in this frame (R97). -/
  moved : Word := 0
  deriving DecidableEq, Repr

/-- A camera port (R88 to R112). -/
structure Camp where
  fv : Bool := false
  /-- GANG, PACK, PIPE and PIPE_B as read when EN rose (R108). -/
  gang : Nat := 0
  pack : Nat := 0
  pipe : Nat := 0
  pipeB : Nat := 0
  /-- A frame is open. -/
  inFrame : Bool := false
  /-- The next frame is the first since EN rose (R112). -/
  first : Bool := true
  frame : Nat := 0
  flags : Nat := 0
  calId : Nat := 0xFFFF
  /-- Stamp of the last FV rising edge, in ns and in ticks; none before the first. -/
  fvNs : Option Nat := none
  fvTick : Nat := 0
  /-- When FV fell, in ns. -/
  fvFallNs : Option Nat := none
  /-- A line is open: its number is lines - 1. -/
  lineOpen : Bool := false
  /-- The open line is beyond HEIGHT or follows an overflow. -/
  lineDrop : Bool := false
  /-- Lines numbered so far in the frame. -/
  lines : Nat := 0
  overflow : Bool := false
  long : Bool := false
  /-- The last four delivered lines, newest first (R101). -/
  last4 : List (List Nat) := []
  fifo : List FifoItem := []
  /-- The counter at the last line start, in 2^-32 ns, and whether an interval may be measured from it. -/
  lineAt : Int := 0
  lineOk : Bool := false
  /-- The last 64 line periods in 2^-32 ns of the time counter, newest first (R111, R393). -/
  periods : List Nat := []
  lateNext : Bool := false
  deadlines : Nat := 0
  training : Training := {}
  /-- Frame and lines numbered at the last step of the time counter (R392). -/
  stepMark : Option (Nat × Nat) := none
  deriving DecidableEq, Repr

/-- A calendar entry (Table 5-1) with its state. -/
structure CalEntry where
  target : Nat := 0
  wlCount : Nat := 0
  wlStart : Nat := 0
  tag : Nat := 0
  expEn : Bool := false
  pset : Nat := 0
  exp : Word := 0
  /-- 0 free, 1 armed, 2 writing, 3 written. -/
  state : Nat := 0
  retries : Nat := 0
  /-- Items acknowledged since the trigger. -/
  acked : Nat := 0
  deriving DecidableEq, Repr

/-- An item of a write list on its way to a controller (R117, R443). -/
structure TwcItem where
  port : Nat
  entry : Nat
  /-- TARGET_F of the entry when its list was queued: which round of the entry the item belongs to (R119). -/
  target : Nat
  order : Nat
  /-- The deadline in ns. -/
  deadline : Nat
  dev : Nat
  alen : Nat
  reg : Nat
  dlen : Nat
  data : Nat
  deriving DecidableEq, Repr

/-- A frame calendar (R113 to R126). -/
structure Cal where
  entries : UMap CalEntry := []
  staged : List Word := [0, 0, 0]
  stagedItem : Word := 0
  /-- The last exposure midpoint, in ns (R126). -/
  mid : Nat := 0
  /-- Frames that carry MISSED (R119). -/
  missed : List Nat := []
  /-- Items that wait for room in the controller's queue (R443). -/
  waiting : List TwcItem := []
  deriving DecidableEq, Repr

/-- What a transfer on a bus is for. -/
inductive XferKind where
  | item (i : TwcItem)
  | lantern (entry : Nat)
  | software
  deriving DecidableEq, Repr

/-- A two-wire controller (R442 to R450). -/
structure Twc where
  queue : List TwcItem := []
  /-- The transfer in progress or between retries. -/
  cur : Option XferKind := none
  /-- The transfer has begun on the bus and not ended. -/
  onBus : Bool := false
  retries : Nat := 0
  /-- The transfer waits to be retried because of a bus error. -/
  retryBusErr : Bool := false
  busy : Bool := false
  /-- A software transfer waits for the bus. -/
  swWait : Bool := false
  /-- Lantern poll entries still to read, and a call that came during a poll. -/
  poll : List Nat := []
  callAgain : Bool := false
  sclLow : Bool := false
  sdaLow : Bool := false
  recovering : Bool := false
  deriving DecidableEq, Repr

/-- A window access of the two-wire target: a read, or a write of a word. -/
inductive TwtJob where
  | read | write (value : Word)
  deriving DecidableEq, Repr

/-- The two-wire target (R451 to R453): WIN_STAT is `job` and `err`. -/
structure Twt where
  pointer : Nat := 0
  winAddr : Word := 0
  winData : Word := 0
  inc : Bool := false
  err : Bool := false
  /-- WIN_DATA with the bytes of the open transfer, not yet past byte 0x7. -/
  partialData : Word := 0
  /-- The access that has not been performed yet. -/
  job : Option TwtJob := none
  deriving DecidableEq, Repr

/-- The class-0 admission error of a stream has been recorded and nothing has been written since (R41). -/
structure Fab where
  admitted : List Nat := []
  /-- Replays of each bridge (8 x BRG instance + bridge) in the last 1 ms: their ticks. -/
  replays : UMap (List Nat) := []
  /-- Injections waiting for their boundary: channel, and who wrote GO. -/
  inject : List (Nat × Req) := []
  deriving DecidableEq, Repr

/-- Fault history and escalation (R474, R475), and the pair (R477 to R482). -/
structure Flt where
  logH : List FaultRec := []
  logC0 : List FaultRec := []
  logC1 : List FaultRec := []
  /-- Ticks of the last faults of each engine (0-127) and resets of each codec core (128 + n) within 1 s. -/
  recent : UMap (List Nat) := []
  enginesRetired : List Nat := []
  coresRetired : List Nat := []
  clustersFaulted : List Nat := []
  regionsFaulted : List Nat := []
  diesFaulted : List Nat := []
  deriving DecidableEq, Repr

/-- A mirrored pair (R477 to R482). -/
structure Pair where
  seq : Nat := 0
  /-- REQ = 1 is sent and no REQ = 2 has come (R480). -/
  yielding : Bool := false
  lastTick : Nat := 0
  /-- When REQ = 1 was first asked (R480). -/
  askTick : Nat := 0
  /-- A PAIR packet has come. -/
  heard : Bool := false
  hframe : List Nat := [0, 0, 0, 0]
  cframe : List Nat := [0, 0, 0, 0]
  /-- A PAIR packet is due at once (R478). -/
  due : Bool := false
  req : Nat := 0
  /-- The partner's package number (R83 step 6). -/
  partner : Nat := 0
  deriving DecidableEq, Repr

end Sys2Proof.Machine
end

