-- ==== Sys2Proof/Machine/PartsL.lean ====
section
/-! DEFINITION. State of the record store that is no register, and what its commands carry (R344 to R370). -/
namespace Sys2Proof.Machine

/-- A submission queue in host memory: 0 is the admin queue. `skip`: entries already completed by an Abort (R357). -/
structure NvSq where
  base : Nat
  size : Nat
  cq : Nat
  head : Nat := 0
  tail : Nat := 0
  skip : List Nat := []
  deriving DecidableEq, Repr

/-- A completion queue; `held` are entries (submission queue, command, result, status) that wait for room, oldest first. -/
structure NvCq where
  base : Nat
  size : Nat
  iv : Nat
  ien : Bool
  head : Nat := 0
  tail : Nat := 0
  phase : Bool := true
  held : List (Nat × Nat × Nat × Nat) := []
  deriving DecidableEq, Repr

/-- Where a command stands. -/
inductive NvStage where
  /-- A Write waits for room in the cache; a command waits for earlier writes in flight: not yet begun (R357). -/
  | room | order
  /-- It waits for SSD commands. -/
  | media
  /-- A Flush: write-backs, then the SSD Flush. -/
  | flushing | flushed
  /-- It waits for label writes. -/
  | label
  /-- An Asynchronous Event Request. -/
  | event
  /-- A queue that is being deleted waits for its commands. -/
  | deleting (qid : Nat)
  /-- A Firmware Commit waits for the flash. -/
  | slot
  /-- A format or sanitise waits for the SSD writes in progress. -/
  | prep
  | format
  /-- A controller reset or shutdown: write-backs, then the SSD Flush (R361). -/
  | reset (shutdown : Bool) | resetFlush (shutdown : Bool)
  deriving DecidableEq, Repr

/-- Blocks that an SSD has written and not made durable: the first, by store LBA, and their number (R350). -/
structure Soft where
  port : Nat
  nsid : Nat
  key : Nat
  nlb : Nat
  deriving DecidableEq, Repr

/-- A command that has been fetched and has not completed. -/
structure NvCmd where
  n : Nat
  sq : Nat
  cid : Nat
  opc : Nat
  nsid : Nat := 0
  slba : Nat := 0
  nlb : Nat := 0
  fua : Bool := false
  stage : NvStage
  /-- SSD commands waited for. -/
  need : List Nat := []
  /-- The status to complete with, where one is fixed. -/
  status : Option Nat := none
  data : List Byte := []
  /-- Blocks of a Read that have come. -/
  got : List (Nat × List Byte) := []
  /-- Host memory of the data. -/
  prp : List (Nat × Nat) := []
  snap : List Soft := []
  /-- Its completion is not posted (R361). -/
  silent : Bool := false
  deriving DecidableEq, Repr

/-- A managed namespace (R347, R348). -/
structure NvNs where
  nsid : Nat
  start : Nat
  nsze : Nat
  attached : Bool
  deriving DecidableEq, Repr

/-- The store label (R346, R364): the SSDs in order, the namespaces, and progress: an action (1 format, 2 sanitise), its
operand, and the SSDs that have finished. -/
structure NvLabel where
  order : List Nat
  gen : Nat
  nss : List NvNs
  progress : Option (Nat × Nat × List Nat)
  deriving DecidableEq, Repr

/-- What an SSD command is for. -/
inductive SsdFor where
  | host (nsid key : Nat)
  | cache (nsid key : Nat)
  | task (t nsid slba : Nat)
  /-- A write of a copy of the store label (R346). -/
  | label (copy : Bool) (l : NvLabel)
  | sanitise
  | format
  | other
  deriving DecidableEq, Repr

/-- An SSD command in progress. -/
structure SsdCmd where
  id : Nat
  port : Nat
  op : Nat
  lba : Nat
  nlb : Nat
  fua : Bool
  use : SsdFor
  /-- It has timed out and been aborted (R370). -/
  aborted : Bool := false
  deriving DecidableEq, Repr

/-- A block of the write cache, by store LBA; `flying`: its write-back, with the data as issued, is in progress. -/
structure CBlk where
  key : Nat
  nsid : Nat
  lba : Nat
  data : List Byte
  dirty : Bool
  flying : Option Nat
  deriving DecidableEq, Repr

/-- What link-up learns of an SSD (R369): its identity, namespace-1 capacity, whether it meets the requirements, and the
two copies of the label that it holds, none for one that is not valid. -/
structure SsdInfo where
  ident : Nat
  lbas : Nat
  ok : Bool
  width : Nat
  speed : Nat
  label : Option NvLabel
  label2 : Option NvLabel := none
  deriving DecidableEq, Repr

/-- A root port, with the two copies of its SSD's label (R346). -/
structure SsdU where
  ident : Nat := 0
  label : Option NvLabel := none
  label2 : Option NvLabel := none
  /-- Ticks of the last controller resets (R370). -/
  resets : List Nat := []
  /-- Offline until the next Advent, or until EN is cleared and set in maintenance state. -/
  down : Bool := false
  deriving DecidableEq, Repr

/-- An entry of the deferred error log (R356). -/
structure DefErr where
  nsid : Nat
  slba : Nat
  nlb : Nat
  ssd : Nat
  cause : Nat
  status : Nat
  ns : Nat
  deriving DecidableEq, Repr

/-- A record task: the expected frame; the copy or block in progress (its FRAME, or its RD_PTR) with its SSD commands and its
bytes; `upTo`: EN has been cleared, and bytes up to this one are still to be written (R367). -/
structure RecTask where
  expect : Option Nat := none
  busy : Option Nat := none
  need : List Nat := []
  bytes : Nat := 0
  upTo : Option Nat := none
  deriving DecidableEq, Repr

/-- The record store. -/
structure NvU where
  cc : Nat := 0
  rdy : Bool := false
  shst : Nat := 0
  /-- AQA, ASQ and ACQ live in queue 0 of each kind. -/
  sqs : UMap (Option NvSq) := []
  cqs : UMap (Option NvCq) := []
  cmds : List NvCmd := []
  seq : Nat := 0
  ssds : List SsdCmd := []
  ids : Nat := 0
  cache : List CBlk := []
  soft : List Soft := []
  label : NvLabel := ⟨[], 0, [], none⟩
  ports : Vector SsdU 4 := Vector.replicate 4 {}
  log : List DefErr := []
  logCount : Nat := 0
  /-- Namespaces whose next command fails with 0x80 (R355). -/
  failed : List Nat := []
  aePending : Bool := false
  aeMasked : Bool := false
  /-- Features: Arbitration, Volatile Write Cache, Number of Queues, Interrupt Coalescing, event configuration. -/
  arb : Nat := 0
  vwc : Bool := true
  nq : Nat := 62 * 65536 + 62
  coal : Nat := 0
  aec : Nat := 0
  /-- Temperature thresholds by selector, and vector configurations by vector. -/
  temps : UMap Nat := []
  vecs : UMap Nat := []
  /-- Bytes of the staged image, and the flash write in progress: the slot and its new header. -/
  staged : Nat := 0
  slotJob : Option (Bool × SlotHdr) := none
  /-- A format in progress: namespace and SES; a sanitise: its action, and SSDs that have finished. -/
  fmt : Option (Nat × Nat) := none
  san : Option (Nat × List Nat) := none
  /-- Result of the last sanitise for log page 0x81: 0 never, 1 done, 2 in progress. -/
  sanStat : Nat := 0
  /-- A link reset waits for its controller reset to end (R343). -/
  linkReset : Bool := false
  tasks : Vector RecTask 16 := Vector.replicate 16 {}
  deriving DecidableEq, Repr

end Sys2Proof.Machine
end

