-- ==== Sys2Proof/Syntax.lean ====
section
/-! DEFINITION. The commands of the SKD4864: one constructor per row of spec/opcode_table.json, in the table's order. Each
constructor's rule is the one the table names. -/
namespace Sys2Proof
open Sys2Proof.Machine

/-- A command (a row of the table) with what comes from outside the device. -/
inductive Instr where
  /-- A write to a register that has no row of its own, applied according to the access codes of its fields (R4). -/
  | controlSpaceWrite (r : Req) (addr : Nat) (value : Word)
  /-- A read of a reserved or unused control-space address, or a broadcast read, returns zero and records an address error (R33). -/
  | invalidAddressRead (r : Req) (addr : Nat)
  /-- A read of an RC field returns its value and then clears it (R4). -/
  | rcRead (r : Req) (addr : Nat)
  /-- A read of a window data register returns the selected entry and advances the index (R505). -/
  | windowRead (r : Req) (addr : Nat)
  /-- A write of a window data register that has no row of its own writes the selected entry and advances the index (R505). -/
  | windowWrite (r : Req) (addr : Nat) (value : Word)
  /-- A fabric master issues a request to the device physical address space, which is decoded and routed (R38). -/
  | memoryRequest (r : Req) (write : Bool) (addr : Nat) (len : Nat) (data : List Byte)
  /-- A stream packet enters the fabric and is carried on the working bridge chosen by its stream ID, at its configured class (R12). -/
  | streamPacketRoute (p : Pkt) (die : Fin 2) (toHub : Bool)
  /-- A bridge packet that fails its link CRC is replayed and counted (R13). -/
  | bridgeReplay (brg : Fin 2) (bridge : Fin 8)
  /-- A control packet reaches a block, which applies its entries in order (R26). -/
  | controlPacketApply (u : StreamUnit)
  /-- A write to a C0_STREAMn slot is judged and rejected when it would duplicate a head or exceed V = 8 (R54). -/
  | c0StreamWrite (r : Req) (n : Fin 4) (value : Word)
  /-- PORST_N going low resets the whole device except the trip latch (R492). -/
  | powerOnReset
  /-- PORST_N is released, the straps are latched and A0 begins (R59). -/
  | resetRelease (bootmode : Fin 8) (posn : Fin 16)
  /-- PLL lock and the fuse read of A0 complete and A1 begins (R71). -/
  | fuseReadDone (ok : Bool) (fuses : Fuses)
  /-- The SFDP read completes and the flash is switched to octal DTR or left in slow mode (R60). -/
  | flashDiscoveryDone (capacity : Nat) (octal : Bool) (headerA headerB : List Byte)
  /-- A slot has been read and judged, and the device takes it, checks the other slot, or enters maintenance (R67). -/
  | slotCheckDone (image : List Byte)
  /-- In host-load mode, GO starts reading the image from host memory (R68). -/
  | hostLoadGo (r : Req)
  /-- The host image has been read and is judged by R64 and R65 (R68). -/
  | hostImageReadDone (failed : Bool)
  /-- A Register write record writes its words to consecutive control-space addresses (R515). -/
  | registerWriteRecord (late : Bool) (target : Nat) (words : List Word)
  /-- A Masked register write record applies VALUE under MASK (R515). -/
  | maskedRegisterWriteRecord (late : Bool) (target : Nat) (value mask : Word)
  /-- A Poll record makes its first read of the target register (R514). -/
  | pollRecord (late : Bool) (target : Nat) (value mask : Word) (timeoutUs : Nat)
  /-- Every 10 µs a running Poll record reads its target again and succeeds on a match (R514). -/
  | pollReread
  /-- A Poll record's TIMEOUT expires without a match and the record fails (R514). -/
  | pollTimeout
  /-- A Conditional record evaluates its selector and runs or skips the next SKIP records (R66). -/
  | conditionalRecord (selector : Nat) (mask matched : Word) (skip : Nat)
  /-- The Almanac partition record names the journal partition (R76). -/
  | almanacPartitionRecord (offset size epoch : Nat)
  /-- The Signature record is checked against the fused key hash and sets SIG_OK (R65). -/
  | signatureRecord (key sigR sigS covered : List Byte)
  /-- The End record closes the walk of the image's records (R64). -/
  | endRecord
  /-- A record of unknown TYPE is skipped by its PLEN and counted as a record error (R64). -/
  | unknownRecord
  /-- A Block load record copies its payload into DRAM or cluster memory after its CRC check (R69). -/
  | blockLoadRecord (target : Nat) (data : List Byte)
  /-- A Tile calibration load record writes tile records into a head's calibration memory, or fails its checks (R515). -/
  | tileCalibrationLoadRecord (target : Nat) (data : List Byte)
  /-- A Steward firmware record is checked and loaded into the named steward cores (R70). -/
  | stewardFirmwareRecord (cores : BitVec 4) (payload : List Byte)
  /-- An Engine firmware record is checked and loaded into the named clusters (R297). -/
  | engineFirmwareRecord (clusters : BitVec 16) (payload : List Byte)
  /-- A Codec stream-processor firmware record is checked and loaded into the named cores (R253). -/
  | codecFirmwareRecord (cores : BitVec 8) (payload : List Byte)
  /-- A3 training ends and the device chooses the channel count or enters maintenance (R72). -/
  | dramTrainingDone (failed : BitVec 16) (foms : List Nat) (orgs : List (List RankOrg))
  /-- A4 ends and every loaded steward core starts at its ENTRY (R70). -/
  | adventA4End
  /-- In A5 the journal is replayed over the image values in two passes (R81). -/
  | almanacReplay (readable : Bool)
  /-- Every 100 ms a package that has completed A5 and sees no better origin starts a census token (R387). -/
  | censusTokenStart
  /-- A census token arrives and is appended to, turned back, forwarded or discarded (R387). -/
  | processionCensusReceive (right : Bool) (packet : List Byte) (locked : List Nat) (partnerPrefers : Bool)
  /-- WAIT_MS passes since the first census pass and the packages present continue to step 5 (R85). -/
  | censusWaitExpiry (locked : List Nat) (partnerPrefers : Bool)
  /-- A write of COMMIT starts a journal commit (R78). -/
  | almanacCommit (r : Req) (fewErased : Bool)
  /-- Every 2 s a commit starts if anything has changed (R78). -/
  | almanacPeriodicCommit (fewErased : Bool)
  /-- A commit group becomes durable in flash (R77). -/
  | almanacCommitDone
  /-- In maintenance, DISCARD_AL erases the AL values at the next commit (R74). -/
  | discardAl (r : Req)
  /-- PFAIL_N falls and a power-fail commit writes pending entries into the reserved sector within 1 ms (R78). -/
  | powerFail
  /-- PFAIL_N rises again with all rails in range and the device keeps running (R492). -/
  | powerFailClear
  /-- Once per second the wear ledger adds a second to the bin of T_hot (R82). -/
  | wearLedgerTick
  /-- A write of EN = 1 to a camera port or gang leader is judged and, if accepted, arms capture at the next frame start (R108). -/
  | campEnable (r : Req) (p : Fin 12) (value : Word)
  /-- A write of EN = 0 discards the open line and sends a frame-end packet with CUT (R109). -/
  | campDisable (r : Req) (p : Fin 12) (value : Word)
  /-- FV rises at a camera port, opening a frame, stamping it and numbering it (R99). -/
  | cameraFrameStart (p : Fin 12)
  /-- FV falls, closing the frame and padding a short frame (R101). -/
  | cameraFrameEnd (p : Fin 12) (parts : List LinePart)
  /-- LV rises within a frame, a line starts and enters the port FIFO (R99). -/
  | cameraLineStart (p : Fin 12)
  /-- A line ends and is judged short or long and padded or cut (R100). -/
  | cameraLineEnd (p : Fin 12) (parts : List LinePart)
  /-- The line timeout expires and a LATE line is inserted (R102). -/
  | lineTimeout (p : Fin 12)
  /-- The frame deadline expires and a late marker is sent (R103). -/
  | frameDeadline (p : Fin 12)
  /-- The port clock has no edge for 1 µs and open lines and frames are ended (R104). -/
  | clockLost (p : Fin 12) (parts : List LinePart)
  /-- Full training starts on START or on an enabled untrained port with TRAIN_MODE = 2 (R96). -/
  | trainingStart (p : Fin 12) (write : Option (Req × Word))
  /-- A training burst during vertical blanking is checked against TRAIN_WORD (R95). -/
  | trainingBurst (p : Fin 12) (cycles : List BurstCycle)
  /-- After 512 burst cycles, taps are set to the eye midpoints and TRAINED or TRAIN_FAIL is set (R96). -/
  | trainingEnd (p : Fin 12)
  /-- A write to CAMP_TAP takes effect at the next rising clock edge with LV low (R98). -/
  | tapWrite (r : Req) (p : Fin 12) (value : Word)
  /-- A read of CAMP_FVTS_NS latches CAMP_FVTS_SEC from the same stamp (R110). -/
  | cameraStampRead (r : Req) (p : Fin 12)
  /-- A pipe finishes a line and takes the next by class-0 priority, then round-robin (R107). -/
  | pipeLineDone (pipe : Fin 8)
  /-- A write to CAL_ENTRY3 stores the staged calendar entry in one step, or is rejected (R115). -/
  | calEntryStore (r : Req) (p : Fin 12) (value : Word)
  /-- A write to CAL_WDATA1 stores a sensor-write item (R114). -/
  | writeListStore (r : Req) (p : Fin 12) (value : Word)
  /-- The trigger time of an entry passes and its sensor writes are queued to the two-wire controller (R117). -/
  | calTrigger (p : Fin 12) (entry : Fin 256)
  /-- An entry's deadline passes with items unacknowledged and the entry misses (R118). -/
  | calDeadline (p : Fin 12) (entry : Fin 256)
  /-- The freeze point before a Solstice passes and later control-space SH writes are held for the following Solstice (R122). -/
  | freeze (p : Fin 12)
  /-- A read of CAL_MID_NS latches CAL_MID_SEC (R126). -/
  | calMidpointRead (r : Req) (p : Fin 12)
  /-- A frame-start packet reaches a pipe slot, whose SH fields commit and whose reference prefetch begins (R152). -/
  | pipeFrameStart (pipe : Fin 8)
  /-- A line packet passes through the front-end and colour stages of its slot (R128). -/
  | pipeLine (pipe : Fin 8) (answers : List RingAnswer)
  /-- A requested reference row arrives at the TNR stage (R141). -/
  | refReadDone (pipe : Fin 8) (row : Nat) (poison : Bool)
  /-- A reference row write completes and the row is marked valid, or stays invalid on error (R140). -/
  | refWriteDone (pipe : Fin 8) (error : Bool)
  /-- A write to FE_TDATA writes a front-end table entry, or is discarded with TBL_ERR (R153). -/
  | feTableWrite (r : Req) (pipe : Fin 8) (value : Word)
  /-- A frame-start packet reaches the MFE, which computes G_F and marks unrefined blocks of the previous frame (R145). -/
  | mfeFrameStart (pipe : Fin 8)
  /-- A proxy block is refined once its block row has passed step 3 (R147). -/
  | mfeBlockRefine (pipe : Fin 8) (column row : Nat)
  /-- The refined field write of a frame completes, or sets FIELD_ERR (R149). -/
  | fieldWriteDone (pipe : Fin 8) (error : Bool)
  /-- A write to COL_TDATA writes a colour table entry, or is discarded with TBL_ERR (R187). -/
  | colourTableWrite (r : Req) (pipe : Fin 8) (value : Word)
  /-- GO in COL_LDCTL starts a table load from DRAM, or is refused (R188). -/
  | colourTableLoad (r : Req) (pipe : Fin 8) (value : Word)
  /-- A colour table load ends, or stops on a poisoned read (R188). -/
  | colourLoadDone (pipe : Fin 8) (failedAt : Option Nat)
  /-- Once every body write of a frame has been answered, the pipe writes the ring buffer head (R179). -/
  | bufferHeadWrite (pipe : Fin 8) (slot : Fin 3) (output : Fin 4) (error : Bool)
  /-- The frame-end packet passes the tap and the Harvest set write starts (R186). -/
  | harvestWriteStart (pipe : Fin 8)
  /-- The Harvest set body has been written and its head is written last (R186). -/
  | harvestWriteDone (pipe : Fin 8) (slot : Fin 3) (error : Bool)
  /-- Setting a head's EN starts it, with FRAME counting from 0 (R205). -/
  | headEnable (r : Req) (h : Fin 4) (value : Word)
  /-- At the head freeze, the descriptors and buffer heads of the surface layers are read (R195). -/
  | headFreeze (h : Fin 4)
  /-- The surface reads return and a buffer is selected for each layer, or the layer is switched off (R195). -/
  | surfaceSelectDone (h : Fin 4) (failed poisoned : List Nat)
  /-- A head's start target time arrives (R205). -/
  | startTargetReached (h : Fin 4)
  /-- A head row ends, and the head may start an unlocked, early or forced frame (R205). -/
  | headRowEnd (h : Fin 4) (recordWritten : Bool)
  /-- A head row begins composition and issues its fetches (R190). -/
  | headRowStart (h : Fin 4)
  /-- A processed line of the direct stream reaches the head and is held or dropped (R206). -/
  | directLineArrival (h : Fin 4)
  /-- A row's wait for direct lines expires and the direct layer underruns (R206). -/
  | directWaitExpiry (h : Fin 4)
  /-- Surface data for a source row arrive at the head (R196). -/
  | surfaceFetchDone (h : Fin 4) (layer : Fin 16) (row : Nat) (poison : Bool)
  /-- A filter coefficient write, discarded with TBL_ERR when the bank is in use (R198). -/
  | headFilterWrite (r : Req) (h : Fin 4) (value : Word)
  /-- A placement record word write, discarded with TBL_ERR when the bank is in use (R201). -/
  | placementWrite (r : Req) (h : Fin 4) (value : Word)
  /-- A read of HEAD_FS_NS latches HEAD_FS_SEC (R211). -/
  | headStampRead (r : Req) (h : Fin 4)
  /-- Per-emitter coefficients for a row arrive at the calibration stage (R217). -/
  | emitterFetchDone (h : Fin 4) (tile : Option (Fin 4096)) (line : Nat) (poison : Bool)
  /-- A write of word 63 stores a tile record at once or into the queue for the next Solstice (R216). -/
  | tileRecordStore (r : Req) (h : Fin 4) (value : Word)
  /-- GO in TCM_LDCTL starts a load of tile words from DRAM (R216). -/
  | tcmLoad (r : Req) (h : Fin 4) (value : Word)
  /-- A tile calibration load ends, or stops on poison with LD_ERR (R216). -/
  | tcmLoadDone (h : Fin 4) (failedAt : Option Nat)
  /-- A curve entry write, discarded with TBL_ERR when the bank is in use (R215). -/
  | curveWrite (r : Req) (h : Fin 4) (value : Word)
  /-- A framer sends a LINE_SEGMENT packet and the class-0 exit is stamped (R225). -/
  | paradeSegmentSend (n : Fin 8)
  /-- Every BEACON_US a trunk sends a BEACON between packets (R225). -/
  | beaconSend (n : Fin 8)
  /-- At the marker lane positions the transmitter sends DESKEW or INTERCALARY on every lane (R221). -/
  | laneMarkerSend (n : Fin 8)
  /-- A PRD receiver takes in a packet from the ring and checks or discards it (R227). -/
  | prdPacketReceive (n : Fin 8) (blocks : List LaneBlk)
  /-- A ring PRD loses lock or sees no BEACON for 250 µs, sets RING_BROKEN and may start a census (R229). -/
  | ringBreak (n : Fin 8) (headers : List (Fin 4))
  /-- GO with OP = 0 sends a BRIGHTNESS packet (R232). -/
  | brightnessSend (r : Req) (n : Fin 8) (value : Word)
  /-- GO with OP = 1 sends a STATUS_POLL to a tile (R232). -/
  | statusPollSend (r : Req) (n : Fin 8) (value : Word)
  /-- A STATUS_REPLY fills PRD_REPLY0–2 and sets POLL_DONE (R232). -/
  | statusReplyReceive (n : Fin 8) (packet : List Byte)
  /-- No reply within 2 ms sets POLL_TIMEOUT (R232). -/
  | statusPollTimeout (n : Fin 8)
  /-- A census starts on START, at link-up with AUTO, or after a ring break (R231). -/
  | censusStart (r : Req) (n : Fin 8) (value : Word)
  /-- The census result returns, is written to memory and is compared with the placement records (R231). -/
  | censusResultReceive (n : Fin 8) (packet : List Byte)
  /-- No census result within TIMEOUT_MS sets CENSUS_TIMEOUT (R231). -/
  | censusTimeout (n : Fin 8)
  /-- The START command reads a context block at the next picture boundary, or is refused with a code (R241). -/
  | ctxStart (r : Req) (ctx : Fin 64)
  /-- STOP finishes pending pictures, writes end of sequence and stops the context (R240). -/
  | ctxStop (r : Req) (ctx : Fin 64)
  /-- UPDATE re-reads the rate and option bytes of the context (R240). -/
  | ctxUpdate (r : Req) (ctx : Fin 64)
  /-- IDR makes the next picture taken an IDR and closes the open B group (R240). -/
  | ctxIdr (r : Req) (ctx : Fin 64)
  /-- RESYNC discards input up to WR_PTR, empties the DPB and waits for an IRAP (R266). -/
  | ctxResync (r : Req) (ctx : Fin 64)
  /-- A running context reads the heads of its expected source buffer and takes or skips the frame (R242). -/
  | sourcePoll (ctx : Fin 64) (poison fieldMoved fieldPoison : Bool)
  /-- At a picture boundary a core takes the highest-priority ready picture and codes it (R247). -/
  | pictureStart (core : Fin 8) (poison : Bool)
  /-- An access unit is written, then its record, then WR_PTR advances and the event bit is set (R261). -/
  | pictureDone (core : Fin 8) (coded : CodedPic) (poison : Bool)
  /-- A core exceeds 4× its expected picture time, takes a snapshot and is reset (R263). -/
  | coreWatchdog (core : Fin 8)
  /-- A reset codec core is back in service (R263). -/
  | coreResetDone (core : Fin 8)
  /-- A decode picture starts once its whole access unit lies between RD_PTR and WR_PTR (R268). -/
  | decodePictureStart (core : Fin 8)
  /-- A picture finishes decoding, with concealment of damaged CTUs (R273). -/
  | decodePictureDone (core : Fin 8) (run : DecRun)
  /-- At 2 × T_exp the watchdog stops the picture and conceals its unfinished CTUs (R276). -/
  | decodeWatchdog (core : Fin 8) (run : DecRun)
  /-- A core that does not stop within 100 µs of its watchdog is reset as a hardware fault (R277). -/
  | decodeStopTimeout (core : Fin 8)
  /-- A ready decoded picture is published by writing its buffer head, then its record, then RD_PTR (R270). -/
  | picturePublish (ctx : Fin 64)
  /-- CLR clears VDC_ERR and VDC_BADADDR (R277). -/
  | vdcClear (r : Req) (core : Fin 8) (value : Word)
  /-- A write of WR to ENG_QPTRq posts jobs, or is ignored with QERR (R290). -/
  | queueDoorbell (r : Req) (cluster : Fin 16) (queue : Fin 4) (value : Word)
  /-- A free engine takes the head job of the highest-priority eligible queue (R292). -/
  | jobDispatch (c : Fin 16)
  /-- A job descriptor read returns and the job starts, or is consumed as bad (R295). -/
  | jobDescriptorReadDone (c : Fin 16) (bad : Bool)
  /-- A job exhausts its BUDGET and faults (R296). -/
  | jobBudgetExpiry (e : Fin 128)
  /-- A faulted engine is back in service (R296). -/
  | engineResetDone (e : Fin 128)
  /-- GO in ENG_FWCTL stops dispatch and starts a run-time firmware load (R298). -/
  | engineFirmwareLoad (r : Req) (c : Fin 16) (value : Word)
  /-- The run-time load ends and dispatch resumes, or LD_ERR and FW_BAD are set (R298). -/
  | engineFirmwareLoadDone (c : Fin 16) (bad : Bool)
  /-- After 100 µs idle with GATE_EN, a cluster cleans its caches and is power-gated (R299). -/
  | clusterGate (c : Fin 16)
  /-- A new ENG frequency takes effect on a die (R279). -/
  | engFreqChange (die : Fin 2)
  /-- A cluster-DMA transfer completes or stops on an error (R289). -/
  | cdmaTransferDone (e : Fin 128) (slot : Fin 4) (bad : Option Nat)
  /-- The earlier loads and stores of a FENCE, SIG or JEND have completed and the engine continues (R285). -/
  | fenceDrained (u : WCore)
  /-- The cluster-memory word watched by WAIT changes and the engine resumes (R300). -/
  | waitWake (u : WCore)
  /-- rd := rs1 + rs2 (R300). -/
  | add (u : WCore)
  /-- rd := rs1 − rs2 (R300). -/
  | sub (u : WCore)
  /-- rd := rs1 AND rs2 (R300). -/
  | and (u : WCore)
  /-- rd := rs1 OR rs2 (R300). -/
  | or (u : WCore)
  /-- rd := rs1 XOR rs2 (R300). -/
  | xor (u : WCore)
  /-- Shift left logical by rs2[4:0] (R300). -/
  | sll (u : WCore)
  /-- Shift right logical by rs2[4:0] (R300). -/
  | srl (u : WCore)
  /-- Shift right arithmetic by rs2[4:0] (R300). -/
  | sra (u : WCore)
  /-- Signed set-less-than (R300). -/
  | slt (u : WCore)
  /-- Unsigned set-less-than (R300). -/
  | sltu (u : WCore)
  /-- Signed minimum (R300). -/
  | min (u : WCore)
  /-- Signed maximum (R300). -/
  | max (u : WCore)
  /-- Count leading zeros of rs1 (R300). -/
  | clz (u : WCore)
  /-- Count one bits of rs1 (R300). -/
  | popc (u : WCore)
  /-- Low 32 bits of the product (R300). -/
  | mul (u : WCore)
  /-- High 32 bits of the signed product (R300). -/
  | mulh (u : WCore)
  /-- High 32 bits of the unsigned product (R300). -/
  | mulhu (u : WCore)
  /-- Signed truncated quotient with defined results for zero and overflow (R300). -/
  | div (u : WCore)
  /-- Unsigned quotient, 0xFFFF_FFFF for a zero divisor (R300). -/
  | divu (u : WCore)
  /-- Signed remainder with the dividend's sign (R300). -/
  | rem (u : WCore)
  /-- Unsigned remainder, rs1 for a zero divisor (R300). -/
  | remu (u : WCore)
  /-- rd := rs1 + IMM (R300). -/
  | addi (u : WCore)
  /-- rd := rs1 AND zero-extended IMM (R300). -/
  | andi (u : WCore)
  /-- rd := rs1 OR zero-extended IMM (R300). -/
  | ori (u : WCore)
  /-- rd := rs1 XOR zero-extended IMM (R300). -/
  | xori (u : WCore)
  /-- Signed set-less-than against IMM (R300). -/
  | slti (u : WCore)
  /-- Unsigned set-less-than against IMM (R300). -/
  | sltiu (u : WCore)
  /-- Shift left by IMM[4:0] (R300). -/
  | slli (u : WCore)
  /-- Shift right logical by IMM[4:0] (R300). -/
  | srli (u : WCore)
  /-- Shift right arithmetic by IMM[4:0] (R300). -/
  | srai (u : WCore)
  /-- rd := IMM << 16 (R300). -/
  | lui (u : WCore)
  /-- Load a word from rs1 + IMM (R280). -/
  | lw (u : WCore) (bad : Bool)
  /-- Load a signed half word (R280). -/
  | lh (u : WCore) (bad : Bool)
  /-- Load an unsigned half word (R280). -/
  | lhu (u : WCore) (bad : Bool)
  /-- Load a signed byte (R280). -/
  | lb (u : WCore) (bad : Bool)
  /-- Load an unsigned byte (R280). -/
  | lbu (u : WCore) (bad : Bool)
  /-- Store the low word of rs2 (R283). -/
  | sw (u : WCore)
  /-- Store the low half word of rs2 (R283). -/
  | sh (u : WCore)
  /-- Store the low byte of rs2 (R283). -/
  | sb (u : WCore)
  /-- Atomic add to a cluster-memory word, returning the old value (R287). -/
  | aadd (u : WCore) (bad : Bool)
  /-- Atomic swap of a cluster-memory word (R287). -/
  | aswp (u : WCore) (bad : Bool)
  /-- Atomic AND of a cluster-memory word (R287). -/
  | aand (u : WCore) (bad : Bool)
  /-- Atomic OR of a cluster-memory word (R287). -/
  | aor (u : WCore) (bad : Bool)
  /-- Atomic unsigned maximum of a cluster-memory word (R287). -/
  | amaxu (u : WCore) (bad : Bool)
  /-- Atomic compare-and-swap of a cluster-memory word (R287). -/
  | acas (u : WCore) (bad : Bool)
  /-- Branch if equal (R300). -/
  | beq (u : WCore)
  /-- Branch if not equal (R300). -/
  | bne (u : WCore)
  /-- Branch if signed less (R300). -/
  | blt (u : WCore)
  /-- Branch if signed greater or equal (R300). -/
  | bge (u : WCore)
  /-- Branch if unsigned less (R300). -/
  | bltu (u : WCore)
  /-- Branch if unsigned greater or equal (R300). -/
  | bgeu (u : WCore)
  /-- Jump and link in x31 (R300). -/
  | jal (u : WCore)
  /-- Jump to rs1 + IMM and link in rd (R300). -/
  | jalr (u : WCore)
  /-- Wait until every earlier load has returned and every earlier store has been accepted (R285). -/
  | fence (u : WCore)
  /-- Discard fetched instructions so that later fetches see IMEM (R289). -/
  | ifence (u : WCore)
  /-- Wait as FENCE, then perform one uncached store (R285). -/
  | sig (u : WCore)
  /-- End the job with STATUS 0 after the waits of FENCE (R294). -/
  | jend (u : WCore)
  /-- Sleep until an own-cluster-memory word differs from rs2 (R300). -/
  | wait (u : WCore) (bad : Bool)
  /-- Write back a dirty cache line and keep it (R284). -/
  | cln (u : WCore)
  /-- Discard a cache line (R284). -/
  | inv (u : WCore)
  /-- Write back and then discard a cache line (R284). -/
  | cli (u : WCore)
  /-- Write back every dirty line (R284). -/
  | clnall (u : WCore)
  /-- Start a cluster-DMA transfer and return a ticket (R289). -/
  | cdma (u : WCore) (bad : Bool)
  /-- Wait for a ticket and return its result code (R289). -/
  | dmaw (u : WCore)
  /-- End the job with STATUS 4, reporting rs1 (R294). -/
  | trap (u : WCore)
  /-- Read an engine CSR (R300). -/
  | csrr (u : WCore)
  /-- Write an engine CSR such as a window mapping (R282). -/
  | csrw (u : WCore)
  /-- An unassigned opcode, function or CSR faults the engine or stops a steward core (R296). -/
  | unassignedOpcode (u : WCore) (eccError : Bool)
  /-- Vector add, wrapping (R301). -/
  | vadd (u : WCore)
  /-- Vector subtract, wrapping (R301). -/
  | vsub (u : WCore)
  /-- Vector signed saturating add (R301). -/
  | vadds (u : WCore)
  /-- Vector signed saturating subtract (R301). -/
  | vsubs (u : WCore)
  /-- Low half of the lane product (R301). -/
  | vmul (u : WCore)
  /-- Signed high half of the lane product (R301). -/
  | vmulh (u : WCore)
  /-- Integer multiply-accumulate (R301). -/
  | vmac (u : WCore)
  /-- Vector signed minimum (R301). -/
  | vmin (u : WCore)
  /-- Vector signed maximum (R301). -/
  | vmax (u : WCore)
  /-- Vector bitwise AND (R301). -/
  | vand (u : WCore)
  /-- Vector bitwise OR (R301). -/
  | vor (u : WCore)
  /-- Vector bitwise XOR (R301). -/
  | vxor (u : WCore)
  /-- Per-lane shift left (R301). -/
  | vshl (u : WCore)
  /-- Per-lane logical shift right (R301). -/
  | vshr (u : WCore)
  /-- Per-lane arithmetic shift right (R301). -/
  | vsra (u : WCore)
  /-- Select lanes of vs1 or vs2 by mask (R301). -/
  | vsel (u : WCore)
  /-- Integer compare-equal into a mask register (R301). -/
  | vcmpeq (u : WCore)
  /-- Signed compare-less into a mask register (R301). -/
  | vcmplt (u : WCore)
  /-- Unsigned compare-less into a mask register (R301). -/
  | vcmpltu (u : WCore)
  /-- Sign-extend the low half of the lanes (R301). -/
  | vxtl (u : WCore)
  /-- Sign-extend the high half of the lanes (R301). -/
  | vxth (u : WCore)
  /-- Saturating narrow of two vectors into one (R301). -/
  | vpack (u : WCore)
  /-- Float add (R301). -/
  | vfadd (u : WCore)
  /-- Float subtract (R301). -/
  | vfsub (u : WCore)
  /-- Float multiply (R301). -/
  | vfmul (u : WCore)
  /-- Fused float multiply-add, rounded once (R278). -/
  | vfma (u : WCore)
  /-- IEEE minimumNumber (R301). -/
  | vfmin (u : WCore)
  /-- IEEE maximumNumber (R301). -/
  | vfmax (u : WCore)
  /-- Approximate reciprocal (R301). -/
  | vfrcp (u : WCore)
  /-- Approximate reciprocal square root (R301). -/
  | vfrsq (u : WCore)
  /-- Float compare-less into a mask register (R301). -/
  | vfcmplt (u : WCore)
  /-- Float compare-equal into a mask register (R301). -/
  | vfcmpeq (u : WCore)
  /-- Integer to float of the same width (R301). -/
  | vcvtf (u : WCore)
  /-- Float to integer, rounded and saturated (R301). -/
  | vcvti (u : WCore)
  /-- Widen FP16 lanes 0–15 to FP32 (R301). -/
  | vfwidl (u : WCore)
  /-- Widen FP16 lanes 16–31 to FP32 (R301). -/
  | vfwidh (u : WCore)
  /-- Narrow two FP32 vectors to one FP16 vector (R301). -/
  | vfnarr (u : WCore)
  /-- Load 64 aligned bytes into a vector (R280). -/
  | vld (u : WCore) (bad : Bool)
  /-- Store a vector to 64 aligned bytes (R283). -/
  | vst (u : WCore)
  /-- Strided vector load (R280). -/
  | vlds (u : WCore) (bad : Bool)
  /-- Strided vector store (R283). -/
  | vsts (u : WCore)
  /-- Broadcast a scalar to every lane (R301). -/
  | vbcst (u : WCore)
  /-- Extract a lane into a scalar register (R301). -/
  | vext (u : WCore)
  /-- Insert a scalar into a lane (R301). -/
  | vins (u : WCore)
  /-- Permute the lanes of a vector (R301). -/
  | vperm (u : WCore)
  /-- Integer sum of the enabled lanes (R301). -/
  | vradd (u : WCore)
  /-- Signed maximum of the enabled lanes (R301). -/
  | vrmax (u : WCore)
  /-- Signed minimum of the enabled lanes (R301). -/
  | vrmin (u : WCore)
  /-- Pairwise binary32 sum of the enabled lanes (R301). -/
  | vfradd (u : WCore)
  /-- Set a mask register from two scalars (R301). -/
  | mset (u : WCore)
  /-- Read half of a mask register (R301). -/
  | mget (u : WCore)
  /-- A request reaches a channel queue, with hazard checks and batch starts, or is answered with poison when frozen (R316). -/
  | dramRequest (channel : Fin 16) (write : Bool) (cls : Fin 4) (r : Req) (addr : BitVec 34) (data : List (BitVec 8))
  /-- At each slot a sub-channel issues the first eligible request by the scheduling order (R314). -/
  | dramSlotIssue (channel : Fin 16) (sub : Bool) (busy : List Nat)
  /-- Read data return and are checked by link and inline ECC, and corrected (R308). -/
  | dramReadReturn (channel : Fin 16) (link : LinkEcc) (inline : List InlineEcc)
  /-- A parity error on a channel's internal command path freezes the channel (R322). -/
  | commandPathParityError (channel : Fin 16) (write : Bool) (entry : Option (Fin 64))
  /-- The per-bank refresh interval of a bank expires and a refresh is issued (R318). -/
  | dramRefresh (channel : Fin 16) (sub : Bool) (bank : Fin 32)
  /-- Every 1 ms MR4 is read, derating applied and over-temperature reported (R319). -/
  | mr4Poll (channel : Fin 16) (dies : List DieTemp)
  /-- Every 1 ms the interval oscillators are read and drift is corrected (R321). -/
  | dramDriftCheck (channel : Fin 16)
  /-- PERIOD_MS passes and a periodic DQ retrain begins (R321). -/
  | dramRetrain (channel : Fin 16)
  /-- A write of NOW starts a retrain (R321). -/
  | dramRetrainNow (r : Req) (channel : Fin 16)
  /-- A retrain step of at most 500 ns runs, at most one per 20 µs (R321). -/
  | dramRetrainStep (channel : Fin 16)
  /-- A retrain ends, setting RETRAIN_FAIL or DEGRADED as found (R321). -/
  | dramRetrainDone (channel : Fin 16) (working : Bool) (fom : BitVec 8)
  /-- The scrubber reads the next unit of its SCRUB_HOURS pass (R308). -/
  | dramScrub (channel : Fin 16)
  /-- GO starts an uncorrected diagnostic read of a frozen channel (R325). -/
  | dramDiagRead (r : Req) (channel : Fin 16)
  /-- The diagnostic data appear and DONE is set (R325). -/
  | dramDiagDone (channel : Fin 16)
  /-- CLR clears a channel's snapshot, NESTED and NEST_COUNT (R324). -/
  | dramSnapshotClear (r : Req) (channel : Fin 16)
  /-- A write of DMC_XLATE_HI runs the mapping for the written address (R312). -/
  | addressTranslate (r : Req) (value : Word)
  /-- A write of a bank or channel mask, refused with CFG_ERR if it breaks the rule (R311). -/
  | dmcMaskWrite (r : Req) (bank : Bool) (k : Fin 4) (value : Word)
  /-- ARM marks the shadow set full and starts it when the channel is idle (R331). -/
  | dmaArm (r : Req) (n : Fin 32)
  /-- DISARM clears SHADOW_FULL (R331). -/
  | dmaDisarm (r : Req) (n : Fin 32)
  /-- ABORT in ERROR or PAUSED returns the channel to IDLE (R336). -/
  | dmaAbort (r : Req) (n : Fin 32)
  /-- Setting PAUSE moves a running channel to DRAIN (R337). -/
  | dmaPause (r : Req) (n : Fin 32)
  /-- Clearing PAUSE returns DRAIN or PAUSED to RUN (R337). -/
  | dmaUnpause (r : Req) (n : Fin 32)
  /-- Setting PAUSE_ALL pauses every channel (R337). -/
  | dmaPauseAll (r : Req)
  /-- Clearing PAUSE_ALL lets unpaused channels run (R337). -/
  | dmaUnpauseAll (r : Req)
  /-- A write to the shadow set, discarded with CFG_ERR while it is full (R330). -/
  | dmaShadowWrite (r : Req) (n : Fin 32) (word : Fin 7) (value : Word)
  /-- A running channel takes its turn and issues its next read (R327). -/
  | dmaReadIssue (n : Fin 32)
  /-- Read data return and the funnel issues the matching writes (R329). -/
  | dmaReadReturn (n : Fin 32) (which : Fin 32) (answer : BusAns)
  /-- A write response arrives and may end the transfer in DONE, ERROR or PAUSED (R334). -/
  | dmaWriteResponse (n : Fin 32) (which : Nat) (error : Bool)
  /-- The host writes a submission-queue tail doorbell (R344). -/
  | sqDoorbell (sq : Fin 64) (tail : Nat)
  /-- The host writes a completion-queue head doorbell (R344). -/
  | cqDoorbell (cq : Fin 64) (head : Nat)
  /-- Flush completes when every earlier completed Write in scope is durable (R352). -/
  | nvmFlush (sq : Fin 64)
  /-- Write places data in the cache, or writes through for FUA (R350). -/
  | nvmWrite (sq : Fin 64)
  /-- Read returns data, waiting on overlapping writes (R351). -/
  | nvmRead (sq : Fin 64)
  /-- Write Zeroes discards cached data and zeroes the range on the SSDs (R353). -/
  | nvmWriteZeroes (sq : Fin 64)
  /-- Deallocate discards cached data and passes the ranges to the SSDs (R353). -/
  | datasetManagement (sq : Fin 64)
  /-- An unsupported opcode completes with Invalid Command Opcode (R344). -/
  | invalidCommandOpcode (sq : Fin 64)
  /-- Create a physically contiguous I/O submission queue (R344). -/
  | createIoSubmissionQueue
  /-- Delete an I/O submission queue after its commands complete (R358). -/
  | deleteIoSubmissionQueue
  /-- Create an I/O completion queue with a vector (R344). -/
  | createIoCompletionQueue
  /-- Delete an I/O completion queue no SQ uses (R344). -/
  | deleteIoCompletionQueue
  /-- Return a log page, clearing deferred-error entries when RAE = 0 (R356). -/
  | getLogPage
  /-- Return an Identify data structure for a supported CNS (R344). -/
  | identify
  /-- Abort a command that has not begun, or report it not aborted (R357). -/
  | nvmeAbort
  /-- Set the arbitration feature, round robin only (R344). -/
  | setFeaturesArbitration
  /-- Set the temperature threshold feature (R344). -/
  | setFeaturesTemperatureThreshold
  /-- Enable or disable the volatile write cache (R350). -/
  | setFeaturesVolatileWriteCache
  /-- Set the number of queues, at most 63 each (R344). -/
  | setFeaturesNumberOfQueues
  /-- Set interrupt coalescing (R344). -/
  | setFeaturesInterruptCoalescing
  /-- Set interrupt vector configuration (R344). -/
  | setFeaturesInterruptVectorConfig
  /-- Set asynchronous event configuration (R344). -/
  | setFeaturesAsyncEventConfig
  /-- Return a supported feature value (R344). -/
  | getFeatures
  /-- Post an event request that later completes with an event (R355). -/
  | asynchronousEventRequest
  /-- Create a namespace at the lowest free stripe run in maintenance state (R348). -/
  | namespaceCreate
  /-- Delete a namespace and free its stripes (R348). -/
  | namespaceDelete
  /-- Attach a namespace in maintenance state (R348). -/
  | namespaceAttach
  /-- Detach a namespace in maintenance state (R348). -/
  | namespaceDetach
  /-- Place an image piece in the staging buffer in ascending order (R359). -/
  | firmwareImageDownload
  /-- Commit action 000b writes the staged image dormant to the other slot (R359). -/
  | firmwareCommitStage
  /-- Commit action 001b writes the staged image active (R359). -/
  | firmwareCommitActivate
  /-- Commit action 010b rewrites only the slot header to activate its image (R359). -/
  | firmwareCommitActivateSlot (image : List Byte)
  /-- Format a namespace with SES 000b or 001b (R362). -/
  | formatNvm
  /-- Format NVM to all namespaces in maintenance writes a new empty label (R346). -/
  | storeLabelFormat
  /-- Sanitize every SSD by block erase, keeping the label (R363). -/
  | sanitizeBlockErase
  /-- Sanitize every SSD by overwrite, keeping the label (R363). -/
  | sanitizeOverwrite
  /-- A format finishes and the namespace is ready again (R362). -/
  | formatDone
  /-- A sanitise finishes and the store is usable again (R363). -/
  | sanitizeDone
  /-- CC.EN going to 0 discards pending commands, makes completed writes durable and resets the controller (R361). -/
  | controllerReset
  /-- An NVM Subsystem Reset performs a controller reset (R361). -/
  | nvmSubsystemReset
  /-- CC.EN going to 1 enables the controller and reports pending deferred errors (R361). -/
  | controllerEnable (cc aqa : Word) (asq acq : BitVec 64)
  /-- CC.SHN makes completed writes durable and sets CSTS.SHST (R361). -/
  | shutdownNotification
  /-- An FLR, hot reset or link-down performs a controller reset and resets the PCIe registers (R343). -/
  | pcieLinkReset (linkDown : Bool)
  /-- A host access through BAR4 reaches DRAM at class 2 (R341). -/
  | hostBar4Access (write : Bool) (offset len : Nat) (data : List Byte)
  /-- An outbound request without completion after 50 ms is answered as poison (R342). -/
  | outboundCompletionTimeout (k : Nat)
  /-- The cache writes back its next dirty blocks to the SSDs (R350). -/
  | cacheWriteback (poison : Bool)
  /-- An SSD command completes, making data durable or causing a deferred error (R355). -/
  | ssdCommandComplete (port : Fin 4) (id status : Nat) (data : List Byte)
  /-- An SSD command not complete after 2 s is aborted (R370). -/
  | ssdCommandTimeout (port : Fin 4) (id : Nat)
  /-- An aborted command not ended 1 s later causes a controller reset, and repeated resets take the SSD offline (R370). -/
  | ssdControllerReset (port : Fin 4)
  /-- An SSD link comes up, the SSD is identified and its queues created, or it is marked incompatible (R369). -/
  | ssdLinkUp (port : Fin 4) (info : SsdInfo)
  /-- An SSD link goes down and the SSD and store go offline (R370). -/
  | ssdLinkDown (port : Fin 4)
  /-- A write of 0 to NVH_ERR clears the port's first-error snapshot (R370). -/
  | nvhErrorClear (r : Req) (port : Fin 4) (value : Word)
  /-- Setting EN of a record task starts it, or is refused with CFG_ERR (R365). -/
  | recordTaskEnable (r : Req) (task : Fin 16) (value : Word)
  /-- Clearing EN stops a task, padding and writing a last partial block (R367). -/
  | recordTaskDisable (r : Req) (task : Fin 16) (value : Word)
  /-- A frame task finds its expected frame and starts copying it to SSD (R366). -/
  | recordFrameTake (task : Fin 16)
  /-- A frame copy ends and the heads are read again to confirm or drop it (R366). -/
  | recordFrameDone (task : Fin 16)
  /-- A byte task writes a whole 4 KiB block and advances RD_PTR when durable (R367). -/
  | recordBlockWrite (task : Fin 16)
  /-- A write of a quad's PROTO, refused with CFG_ERR when not allowed (R372). -/
  | protoWrite (r : Req) (q : Fin 16) (value : Word)
  /-- RETRAIN retrains every lane of the quad (R378). -/
  | quadRetrain (r : Req) (q : Fin 16) (value : Word)
  /-- A LOOP write selects a test loop from the next entry to L0 (R379). -/
  | loopSelect (r : Req) (q : Fin 16) (loop : BitVec 2)
  /-- Setting PRBS EN starts pattern transmission and checking, or is refused (R380). -/
  | prbsStart (r : Req) (q : Fin 16) (value : Word)
  /-- Clearing PRBS EN, or enabling a user, stops the test (R380). -/
  | prbsStop (r : Req) (q : Fin 16) (value : Word)
  /-- A PSTATE write requests a lane power state, held until users allow it (R382). -/
  | pstateRequest (r : Req) (q : Fin 16) (pstate : BitVec 2)
  /-- 1 ms after its last user is disabled, a quad enters Vesper (R382). -/
  | autoVesperEntry (q : Fin 16)
  /-- The exit time of a power state passes and the user's link-up starts (R382). -/
  | lanePowerExit (q : Fin 16)
  /-- A quad PLL fails to lock within 1 ms of leaving Vesper (R373). -/
  | pllLockTimeout (q : Fin 16)
  /-- Clock recovery and adaptation end and READY is set or the lane fails (R377). -/
  | laneLinkUp (q : Fin 16) (lane : Fin 4) (cdr block link : Bool) (fom : BitVec 8)
  /-- Every 100 ms a failed lane tries training again (R377). -/
  | laneRetry (q : Fin 16) (lane : Fin 4)
  /-- Every 1 ms a lane measures its figure of merit (R376). -/
  | fomMeasure (q : Fin 16) (lane : Fin 4) (fom : BitVec 8) (ctle : BitVec 4) (errors : Nat)
  /-- A Parade or Procession lane loses block lock and retrains at once (R378). -/
  | blockLockLoss (q : Fin 16) (lane : Fin 4)
  /-- A Procession port aligns its lanes on DESKEW markers (R383). -/
  | processionAlign (right : Bool) (markers : List LaneMarker)
  /-- Every 50 µs a port sends a stamped HEARTBEAT (R385). -/
  | heartbeatSend (right : Bool)
  /-- A valid HEARTBEAT arrives, counting toward UP and keeping the port alive (R386). -/
  | heartbeatReceive (right : Bool) (packet : List Byte)
  /-- 150 µs without a valid HEARTBEAT declares the port lost and may start handover (R386). -/
  | portLost (right : Bool)
  /-- A Procession packet for another package is forwarded or discarded (R384). -/
  | processionForward (right : Bool) (packet : List Byte)
  /-- Every 1 ms an UP port sends a TIME packet (R407). -/
  | timePacketSend (right : Bool)
  /-- A TIME packet arrives and a follower chooses its upstream and corrects its rate (R407). -/
  | timePacketReceive (right : Bool) (packet : List Byte)
  /-- No TIME packet from the leader for 5 ms passes leadership on (R408). -/
  | leaderTimeout (reach : List (Nat × Bool))
  /-- Every 1 ms, or on a change, a half sends a PAIR packet (R478). -/
  | pairPacketSend
  /-- A PAIR packet arrives and is checked for requests, health and mismatch (R480). -/
  | pairPacketReceive (right : Bool) (packet : List Byte)
  /-- HANDOVER makes the active half send REQ = 1 (R480). -/
  | handoverRequest (r : Req)
  /-- No REQ = 2 within 1 ms; the active half stays active and records failure (R480). -/
  | handoverTimeout
  /-- At each TMC tick the time counter adds the effective increment and applies slew (R390). -/
  | timeTick (n : Nat)
  /-- A read of TIME_RD_NS latches the other time read registers (R391). -/
  | timeReadLatch (r : Req)
  /-- GO in TIME_SET_CTL steps the counter and corrects held stamps, or is refused (R392). -/
  | timeStep (r : Req)
  /-- A write to TIME_SLEW adds to the remaining slew, or is refused (R393). -/
  | slewWrite (r : Req) (value : Word)
  /-- A write of SRC changes what the counter follows (R394). -/
  | sourceSelect (r : Req) (src : BitVec 2)
  /-- UPD commits a tracker's OFS and RATE and may end holdover (R395). -/
  | domainUpdate (r : Req) (d : Fin 2)
  /-- Firmware sets LOST on a tracker (R395). -/
  | domainLost (r : Req) (d : Fin 2)
  /-- STALE_MS passes since a tracker's last UPD and it becomes STALE (R395). -/
  | domainStale (d : Fin 2)
  /-- A write of a tracker's EN, which may make the domain in force unusable (R396). -/
  | domainControlWrite (r : Req) (d : Fin 2) (value : Word)
  /-- A write of ACTIVE switches domains, or is stored or refused (R396). -/
  | activeWrite (r : Req) (active : Bool)
  /-- A write of MODE and FEC, refused with CFG_ERR for reserved or invalid values (R398). -/
  | ethConfigWrite (r : Req) (k : Fin 4) (value : Word)
  /-- A write of the transmit WR posts descriptors (R400). -/
  | ethTxDoorbell (r : Req) (k : Fin 4) (wr : BitVec 16)
  /-- A transmit descriptor's frame is sent and its status and stamp written (R401). -/
  | ethFrameTransmit (k : Fin 4) (answer : BusAns)
  /-- A write of a receive WR posts buffers (R400). -/
  | ethRxDoorbell (r : Req) (k : Fin 4) (ring : Bool) (wr : BitVec 16)
  /-- A received frame is filtered, classified, stamped and written, or dropped (R402). -/
  | ethFrameReceive (k : Fin 4) (frame : List Byte)
  /-- A port's link state changes and LINK_CHG is set (R398). -/
  | ethLinkChange (k : Fin 4) (link : EthLink)
  /-- Setting RX_EN starts receive, or is refused with CFG_ERR (R412). -/
  | audioRxEnable (r : Req) (p : Fin 8) (value : Word)
  /-- Setting TX_EN starts transmit, or is refused with CFG_ERR (R412). -/
  | audioTxEnable (r : Req) (p : Fin 8) (value : Word)
  /-- A format or family write while the direction is enabled is left unchanged with CFG_ERR (R412). -/
  | audioFormatWrite (r : Req) (p : Fin 8) (tx : Bool) (value : Word)
  /-- At each family frame tick a driven direction exchanges one frame and FIFOs slip (R410). -/
  | audioFrameTick (fam double : Bool) (data : List (List Word))
  /-- A frame on a received bit clock enters the elastic FIFO or is discarded (R413). -/
  | audioFrameReceive (p : Fin 8) (length : Nat) (slots : List Word)
  /-- A received transmit frame sync takes a frame from the FIFO, or sends silence (R419). -/
  | audioTxFrameSync (p : Fin 8)
  /-- After 64 frame ticks a receive block is written to the ring, or dropped when the buffer is full (R415). -/
  | audioBlockWrite (p : Fin 8)
  /-- Once its body is answered, the block head is written (R415). -/
  | audioBlockHeadWrite (p : Fin 8)
  /-- 500 µs before a block's target the transmit direction reads its head (R416). -/
  | audioBlockFetch (p : Fin 8) (error : Bool)
  /-- At a block's target it plays with inserts or skips, or underruns (R417). -/
  | audioBlockTarget (p : Fin 8) (next : Nat)
  /-- Setting a mute bit ramps that direction down (R420). -/
  | audioMute (r : Req) (p : Fin 8) (tx : Bool)
  /-- Clearing a mute bit ramps that direction up (R420). -/
  | audioUnmute (r : Req) (p : Fin 8) (tx : Bool)
  /-- A mask write sets the pending mask from the next frame, ramping slots (R421). -/
  | slotMaskWrite (r : Req) (p : Fin 8) (tx : Bool) (value : Word)
  /-- A ramp reaches its end, settling mute state or the active mask (R420). -/
  | rampEnd (p : Fin 8) (tx : Bool)
  /-- Every 1 ms the family loop updates STEER and LOCKED (R422). -/
  | clockLoopUpdate (fam : Fin 2) (phase : Int)
  /-- A loop MODE write, with MODE 1 refused for a bad port (R422). -/
  | loopModeWrite (r : Req) (fam : Fin 2) (value : Word)
  /-- A read of AUDP_BLKTS_NS latches AUDP_BLKTS_SEC (R415). -/
  | blockStampRead (r : Req) (p : Fin 8)
  /-- A write of MODE, LIMIT_EN or parameters, discarded with CFG_ERR while EN = 1 (R424). -/
  | axisConfigWrite (r : Req) (axis : Fin 48) (param : Bool) (value : Word)
  /-- Setting an axis EN starts it, or is refused for bad limits or index mode (R432). -/
  | axisEnable (r : Req) (axis : Fin 48) (value : Word)
  /-- A filtered A/B change counts ±1, or is an illegal edge (R425). -/
  | quadratureEdge (axis : Fin 48) (a b : Bool)
  /-- A Hall state change counts ±1, or is an illegal edge (R426). -/
  | hallEdge (axis : Fin 48) (a b z : Bool)
  /-- A sine/cosine sample pair moves the count by the change of fine position (R427). -/
  | analogSample (axis : Fin 48) (sin cos : BitVec 12)
  /-- Every POLL_US the axis clocks in one SSI frame (R429). -/
  | ssiPoll (axis : Fin 48)
  /-- An SSI frame ends and is applied or discarded on a CRC failure (R429). -/
  | ssiFrameDone (axis : Fin 48) (startHigh : Bool) (data : List Bool)
  /-- A rising Z edge is judged against IDX_POS and reported or corrected (R433). -/
  | indexEvent (axis : Fin 48) (level : Bool)
  /-- A write to AXIS_POS presets the counter at the next sample (R431). -/
  | positionPreset (r : Req) (axis : Fin 48) (value : Word)
  /-- Every HIST_US an axis writes counter, velocity and time into its history (R435). -/
  | historySample (axis : Fin 48)
  /-- No count for VEL_TO_MS sets velocity to 0 (R434). -/
  | velocityTimeout (axis : Fin 48)
  /-- One HIST_US after a midpoint the member axes are formed and the pose record written (R436). -/
  | poseForm (p : Fin 12)
  /-- Once the pose body is answered, bytes 0–15 of the record are written (R437). -/
  | poseRecordCommit (p : Fin 12)
  /-- Setting EMU EN empties queue and accumulator, or is refused for a bad ratio (R439). -/
  | emuEnable (r : Req) (e : Fin 16) (value : Word)
  /-- A queued step leaves no closer than MIN_NS after the previous one (R439). -/
  | emuStepOut (e : Fin 16)
  /-- The Z pulse ends after Z_NS (R439). -/
  | emuZPulseEnd (e : Fin 16)
  /-- GO queues a software transfer, or ends it at once while the bus is stuck (R443). -/
  | twcGo (r : Req) (c : Fin 8) (value : Word)
  /-- RECOVER runs the nine-pulse recovery sequence once (R448). -/
  | twcRecover (r : Req) (c : Fin 8) (value : Word)
  /-- The bus becomes free and the controller starts the highest-priority transfer (R442). -/
  | twcBusFree (c : Fin 8)
  /-- A transfer ends with STOP, reporting done or NACK (R444). -/
  | twcTransferDone (c : Fin 8) (result : XferResult) (data : List Byte)
  /-- The controller loses arbitration and releases the bus (R445). -/
  | arbitrationLoss (c : Fin 8)
  /-- RETRY_US after the bus frees, a lost or broken transfer starts again, or ends when retries run out (R445). -/
  | twcRetry (c : Fin 8)
  /-- An unexpected START or STOP during a transfer is a bus error (R446). -/
  | busError (c : Fin 8)
  /-- A target holds SCL beyond STRETCH_US and the transfer ends with RESULT 5 (R447). -/
  | stretchTimeout (c : Fin 8) (sdaLow : Bool)
  /-- In long-bus mode the controller sends recovery pulses until SDA is high (R448). -/
  | busRecovery (c : Fin 8) (sda : List Bool)
  /-- SCL stays low for SCL_LOW_MS and SCL_STUCK is set (R448). -/
  | sclStuck (c : Fin 8)
  /-- SDA stays low for SDA_LOW_MS and SDA_STUCK is set or recovery is repeated (R448). -/
  | sdaStuck (c : Fin 8)
  /-- SDA held low for 5 µs on a free bus is answered with a START and STOP and LANTERN set (R449). -/
  | lanternCall (c : Fin 8)
  /-- A byte written to the target sets the pointer or a window byte (R451). -/
  | twtPointerWrite (pointer : BitVec 8)
  /-- Writing byte 0x7 writes WIN_DATA to WIN_ADDR (R451). -/
  | twtWinWrite (data : Byte)
  /-- Reading byte 0x4 reads WIN_ADDR, stretching SCL while outstanding (R452). -/
  | twtWinRead
  /-- A window read not complete within 1 ms returns zero and sets ERR (R452). -/
  | twtReadTimeout
  /-- A window control-space access completes and BUSY clears (R452). -/
  | twtAccessDone
  /-- A repeated START where an ACK was due discards the partial transfer (R453). -/
  | twtRestart
  /-- A sensor conversion completes and T_hot is compared with the thresholds (R454). -/
  | sensorConversion (sensor : Fin 64) (reading : BitVec 16)
  /-- A conversion not complete within 200 µs fails the sensor (R455). -/
  | sensorTimeout (sensor : Fin 64)
  /-- Every 1 ms the governor moves step S up or down (R462). -/
  | vigilTick (pest : BitVec 16)
  /-- No tick for 10 ms applies the vigil-lost state (R468). -/
  | vigilLost
  /-- A write of THM_PMEAS makes a fresh measured power (R459). -/
  | powerMeasureWrite (r : Req) (value : BitVec 16)
  /-- 20 ms after the last write P_MEAS stops being fresh (R459). -/
  | pmeasStale
  /-- A write of S_MIN moves S up at the next tick (R463). -/
  | stepMinWrite (r : Req) (smin : BitVec 6)
  /-- An output entry write recomputes S_TOP and clamps S (R460). -/
  | outputEntryWrite (r : Req) (value : Word)
  /-- A queue rank write recomputes the ladder (R460). -/
  | queueRankWrite (r : Req) (k : Fin 4) (value : Word)
  /-- CLR clears an FLT snapshot (R471). -/
  | fltClear (r : Req) (die : Fin 3)
  /-- A write to FLT_TEST makes a test record that never escalates (R509). -/
  | faultTest (r : Req) (die : Fin 3) (value : Word)
  /-- A compute die's control space does not respond for 1 ms and a die fault follows (R474). -/
  | dieNoResponse (die : Fin 2)
  /-- A core PLL loses lock and a die fault follows (R474). -/
  | pllLossOfLock (pll : Pll)
  /-- An uncorrectable hub-fabric parity error causes a hub die fault (R474). -/
  | hubParityError
  /-- The regulator acknowledges a voltage write and the frequency change proceeds (R489). -/
  | avsRequestAck (die : Fin 2)
  /-- A voltage write unacknowledged after 20 µs is abandoned and AVS_ERR set (R489). -/
  | avsTimeout (die : Fin 2)
  /-- A write of TOP_RESET with the key and GO schedules a full reset (R506). -/
  | softwareReset (r : Req) (value : Word)
  /-- 10 µs later the device resets as PORST_N does, keeping SW set (R506). -/
  | softwareResetStart (bootmode : Fin 8) (posn : Fin 16)
  /-- GO in FAB_INJ_CTL sends the staged control packet to the stream's source (R508). -/
  | controlPacketInject (channel : Fin 4)
  /-- A write of FAB_INJ_CTL while GO = 1 clears ERR or is discarded with ERR (R508). -/
  | injectControlWrite (r : Req) (channel : Fin 4) (value : Word)
  /-- A route write may send one MSI-X message when it enables a raised line (R511). -/
  | routeWrite (r : Req) (value : Word)
  /-- A source line rises and its routes deliver an MSI-X message, steward interrupt or BC_IRQ_N (R511). -/
  | irqLineRise (source : Nat)
  /-- The supplies, and with them VDD_AON, are removed, clearing the trip latch and all retained state, so that THERMTRIP_N is released (R458). -/
  | supplyRemoval
  /-- A boot-flash slot rewrite finishes programming and the Firmware Commit that requested it completes (R359). -/
  | bootFlashWriteDone
  /-- The PCIe endpoint link trains and DL_UP is set, so host accesses and MSI-X messages can flow again (R340). -/
  | pcieLinkUp (width : Fin 4) (speed : Fin 5)
  /-- A PRD receiver aligns its lanes on DESKEW markers of equal SEQ and sets RX_LOCK (R221). -/
  | paradeTrunkAlign (n : Fin 8) (headers : List (List (Fin 4))) (markers : List LaneMarker)
  /-- A power-gated cluster finishes waking, within 20 µs, clears GATED and can dispatch (R8). -/
  | clusterWakeDone (c : Fin 16)
  /-- An SSD reports a fatal controller status and it, and the store, go offline (R370). -/
  | ssdFatalStatus (port : Fin 4)
  /-- No PAIR packet is received for 2 ms and PARTNER_OK clears (R482). -/
  | pairPacketTimeout
  /-- A controller sees a START made by another controller on its two-wire bus and regards the bus as busy (R442). -/
  | busStartSeen (c : Fin 8)
  /-- A completion for an outbound request returns from the host and is answered to the requester, as poison when it carries UR, CA or poison (R342). -/
  | pcieOutboundCompletion (k : Nat) (bad : Bool)
  deriving DecidableEq, Repr

end Sys2Proof
end

