-- ==== Sys2Proof/Machine/Crc.lean ====
section
/-! DEFINITION. CRC-32C (R62). -/
namespace Sys2Proof.Machine

/-- Eight shifts of a reflected CRC with the given reversed polynomial. -/
def crcBits (poly : Nat) : Nat → Nat → Nat
  | 0, c => c
  | n + 1, c => crcBits poly n (if c % 2 = 1 then (c / 2) ^^^ poly else c / 2)
/-- A reflected CRC over bytes. -/
def crcRun (poly : Nat) : List Byte → Nat → Nat
  | [], c => c
  | b :: t, c => crcRun poly t (crcBits poly 8 (c ^^^ b.toNat))
/-- CRC-32C of bytes. -/
def crc32c (l : List Byte) : Nat := crcRun 0x82F63B78 l 0xFFFFFFFF ^^^ 0xFFFFFFFF
/-- CRC-32 of IEEE 802.3. -/
def crc32 (l : List Byte) : Nat := crcRun 0xEDB88320 l 0xFFFFFFFF ^^^ 0xFFFFFFFF

end Sys2Proof.Machine
end

