-- ==== Sys2Proof/Machine/PartsE.lean ====
section
/-! DEFINITION. State of position axes, encoder outputs and pose queues that is no register (R423 to R440). -/
namespace Sys2Proof.Machine

/-- A history entry: counter pattern, velocity pattern, time in ns (R435). -/
structure HistEntry where
  pos : Nat
  vel : Nat
  ns : Nat
  deriving DecidableEq, Repr

/-- A position axis. -/
structure AxisU where
  /-- Filtered levels of A, B and Z. -/
  a : Bool := false
  b : Bool := false
  z : Bool := false
  /-- The filtered sample at which a preset stands (R431). -/
  preset : Option Nat := none
  /-- Last applied fine position (R427). -/
  fine : Option Nat := none
  /-- s^2 + c^2 of the last sample pairs, newest first (R428). -/
  amps : List Nat := []
  /-- Ticks of recent illegal edges and failed frames (R430). -/
  ills : List Nat := []
  /-- No index event has come since EN rose (R433). -/
  firstIndex : Bool := true
  /-- Newest first, at most 4,096 (R435). -/
  hist : List HistEntry := []
  /-- Recent counts, newest first: tick, and whether positive (R434). -/
  counts : List (Nat × Bool) := []
  /-- The last two SSI positions, newest first (R434). -/
  frames : List Nat := []
  /-- An SSI frame is being read. -/
  polling : Bool := false
  deriving DecidableEq, Repr

/-- An encoder output: accumulator, queued steps oldest first (true: positive), output levels (R439, R440). -/
structure EmuU where
  acc : Nat := 0
  steps : List Bool := []
  a : Bool := false
  b : Bool := false
  z : Bool := false
  /-- When the last step left, and when Z last rose with a wrap (R439). -/
  lastStep : Option Nat := none
  zTick : Nat := 0
  deriving DecidableEq, Repr

/-- A midpoint that waits for its pose (R436), with what the header of the record needs. -/
structure Midpoint where
  ns : Nat
  sid : Nat
  frame : Nat
  calId : Nat
  missed : Bool
  deriving DecidableEq, Repr

/-- The pose queue of a port, and the record header that waits for its body to be answered (R436, R437). -/
structure PosePort where
  waiting : List Midpoint := []
  header : List (Nat × List (BitVec 8)) := []
  deriving DecidableEq, Repr

end Sys2Proof.Machine
end

