-- ==== Sys2Proof/Machine/PartsI.lean ====
section
/-! DEFINITION. State of audio ports that is no register (R409 to R422). -/
namespace Sys2Proof.Machine

/-- A ramp (R420): its frame, its length in frames, its direction. -/
structure AudRamp where
  n : Nat
  len : Nat
  up : Bool
  deriving DecidableEq, Repr

/-- The gains of one direction: the mute ramp, whether it is settled at zero, and the ramps of slots (R420, R421). -/
structure AudDir where
  mute : Option AudRamp := none
  zero : Bool := false
  slots : List (Nat × AudRamp) := []
  deriving DecidableEq, Repr

/-- A received frame in the elastic FIFO, with the stamp of its frame-sync edge in ns. -/
structure AudFrame where
  slots : List Word
  ns : Nat
  deriving DecidableEq, Repr

/-- A receive block (Table 18-3). -/
structure AudBlk where
  number : Nat := 0
  ns : Nat := 0
  slots : Nat := 0
  ramp : Bool := false
  inserted : Bool := false
  maskChg : Bool := false
  mask : Nat := 0
  ins : Nat := 0
  drop : Nat := 0
  /-- Frames so far, newest first. -/
  frames : List (List Word) := []
  deriving DecidableEq, Repr

/-- A source block that is present (R416). -/
structure AudPlay where
  ns : Nat
  frames : List (List Word)
  deriving DecidableEq, Repr

/-- An audio port. -/
structure AudU where
  rx : AudDir := {}
  tx : AudDir := {}
  rxFifo : List AudFrame := []
  txFifo : List (List Word) := []
  /-- The block being filled, and its number. -/
  cur : AudBlk := {}
  block : Nat := 0
  /-- Frames dropped since the previous block. -/
  drops : Nat := 0
  /-- Full blocks not yet written, and blocks in the write buffer, oldest first. -/
  full : List AudBlk := []
  buf : List AudBlk := []
  /-- The stamp of the last block written. -/
  lastNs : Nat := 0
  /-- The next block to play (E), what was read of it, and the frames that follow. -/
  e : Nat := 0
  fetched : Option AudPlay := none
  play : List (List Word) := []
  /-- The clock loop of a family (instances 0 and 1): integrator, and updates in a row within LOCK_WIN. -/
  integ : Int := 0
  locks : Nat := 0
  deriving DecidableEq, Repr

end Sys2Proof.Machine
end

