-- ==== Sys2Proof/Machine/PartsJ.lean ====
section
/-! DEFINITION. State of thermal sensing and the Vigil governor that is no register (R454 to R469, R489). -/
namespace Sys2Proof.Machine

/-- A step of the ladder (Table 21-4): hold queues of a rank, codec depth, ENG lowered by 100 MHz, shed an output entry, fasting. -/
inductive VAct where
  | hold (rank : Nat)
  | depth (d : Nat)
  | freq
  | shed (entry : Nat)
  | fast
  deriving DecidableEq, Repr

/-- A voltage write that the regulator has not acknowledged (R489): the voltage in mV, the frequency to raise to, and when it was
written. -/
structure AvsReq where
  mv : Nat
  raise : Option Nat
  tick : Nat
  deriving DecidableEq, Repr

/-- The frequency side of a compute die: a frequency decided and not yet in effect (R279), a voltage write. -/
structure DieFreq where
  due : Option Nat := none
  avs : Option AvsReq := none
  deriving DecidableEq, Repr

/-- Thermal sensing and Vigil. -/
structure ThmU where
  /-- Sensors that have converted, and those whose last conversion read 160 degrees or more (R458). -/
  seen : List Nat := []
  hot : List Nat := []
  /-- When each sensor's last conversion completed: (sensor, tick). -/
  readAt : List (Nat × Nat) := []
  /-- T_hot has not been at -22 degrees or more since the start (R469). -/
  cold : Bool := true
  /-- The trip latch: THERMTRIP_N is low and the device stays stopped (R458). -/
  tripped : Bool := false
  /-- P_MEAS is fresh, and when it was written (R459). -/
  fresh : Bool := false
  measTick : Nat := 0
  /-- The vigil-lost state, and when the last tick ran (R468). -/
  lost : Bool := false
  ranTick : Nat := 0
  /-- Ticks since the last change of S, at most 65,535, and how that step settles (none: it has). -/
  since : Nat := 65535
  last : Option VAct := none
  /-- What is in force: queues held (4 x cluster + queue), output entries shed, scrubbing paused. -/
  held : List Nat := []
  shed : List Nat := []
  pause : Bool := false
  /-- Frequency steps taken. -/
  slow : Nat := 0
  /-- Channels that report a temperature above their range (R319). -/
  dramHot : List Nat := []
  /-- C0 and C1. -/
  c0 : DieFreq := {}
  c1 : DieFreq := {}
  deriving DecidableEq, Repr

end Sys2Proof.Machine
end

