-- ==== Sys2Proof/Machine/TimePart.lean ====
section
/-! DEFINITION. State of the time unit that is no register (R389 to R408). -/
namespace Sys2Proof.Machine

/-- A PTP tracker (R395): what it last committed. The offset is in units of 2^-72 x 10^-7 ns and falls by each step (R392);
`upd32` is the local time of the update in 2^-32 ns, moved by each step. -/
structure Tracker where
  ofs : Int := 0
  rate : Int := 0
  upd32 : Int := 0
  deriving DecidableEq, Repr

/-- The time unit: the counter (R389), the rate in force, the remaining slew, and what it follows. -/
structure TimeU where
  sec : Nat := 0
  ns : Nat := 0
  /-- Fraction in 2^-32 ns. -/
  frac : Nat := 0
  /-- What the counter has gained beyond FRAC, in 2^-72 x 10^-7 ns (notes/assumptions/30.md). -/
  rem : Nat := 0
  /-- Rate in force, signed, in 2^-40. -/
  rate : Int := 0
  /-- Remaining slew, signed, in 2^-72 x 10^-7 ns (R393). -/
  slew : Int := 0
  dom0 : Tracker := {}
  dom1 : Tracker := {}
  /-- The package that leads time (R83, R408). -/
  leader : Nat := 0
  /-- Measurements in a row with |theta| below 100 ns, and at or above it, at most 10 (R407). -/
  small : Nat := 0
  large : Nat := 0
  /-- When the last base-rate frame tick of audio family A, and of B, came, in ns (R422). -/
  audA : Nat := 0
  audB : Nat := 0
  deriving DecidableEq, Repr

end Sys2Proof.Machine
end

