-- ==== Sys2Proof/Machine/State.lean ====
section
/-! DEFINITION. The state of the SKD4864 (INVENTORY.md, State): every register by its address, every windowed table, the
memories, and what no register shows. Plain data throughout. -/
namespace Sys2Proof.Machine

/-- Why the machine would stop: no command stops it (the spec gives every one an effect), so nobody raises a fault. -/
inductive Fault where
  /-- Raised by nobody: the spec names no event that leaves the block without a next state. Safe. -/
  | none
  deriving DecidableEq, Repr

/-- Why a command would be refused. -/
inductive Refusal where
  /-- Raised by an arm of Dispatch.lean whose command has no meaning yet. Safe. -/
  | notModelled (mnemonic : String)
  deriving DecidableEq, Repr

/-- Bits of an SH register written and not yet committed (R512). -/
structure Shadow where
  mask : Word
  value : Word
  deriving DecidableEq, Repr

structure State where
  /-- Commands that wait, first in first out. -/
  pending : List Instr
  /-- Registers by control-space address: what a read returns. An address not listed holds its reset value. -/
  regs : UMap Word
  /-- The value in force of the SH fields of a register (R512). -/
  act : UMap Word
  /-- What commits at the next Solstice, and what is held for the one after (R121, R122). -/
  due : UMap Shadow
  held : UMap Shadow
  /-- Blocks (and slots) that have passed their freeze (R122). -/
  frozen : List Nat
  /-- Windowed tables (R505), one entry each. -/
  tbl : UMap Word
  /-- Device memory: DRAM and cluster memories, by device physical address (R35). -/
  mem : List Host.Cell
  /-- Host memory as the outbound window reaches it (R342). -/
  hostMem : List Host.Cell
  adv : Adv
  alm : Alm
  fab : Fab
  flt : Flt
  pair : Pair
  /-- Lines of interrupt sources that were 1 when last looked at (R511). -/
  linesUp : List Nat
  camps : Vector Camp 12
  cals : Vector Cal 12
  twcs : Vector Twc 8
  twt : Twt
  pipes : Vector PipeU 8
  mfes : Vector MfeU 8
  heads : Vector HeadU 4
  prds : Vector PrdU 8
  codec : Codec
  vccs : Vector VccU 8
  time : TimeU
  dchs : Vector Dch 16
  masks : DramMasks
  dmas : Vector DmaU 32
  /-- Bytes written by the hub DMA beyond whole KiB (DMA_MOVED). -/
  dmaRest : Nat
  axes : Vector AxisU 48
  emus : Vector EmuU 16
  poses : Vector PosePort 12
  quads : Vector QuadU 16
  /-- Procession ports: left, right. -/
  procs : Vector ProcPort 2
  auds : Vector AudU 8
  thm : ThmU
  engs : Vector EngU 128
  stews : Vector EngU 4
  clus : Vector ClU 16
  pcie : PcieU
  nv : NvU
  /-- 2.5 ns ticks of the TMC clock since reset (R389). -/
  tick : Nat
  /-- What the last read command answered, and whether the last memory read was answered as poison (R38). -/
  answer : Word
  poison : Bool
  /-- The model's own: how many free values have been taken (notes/assumptions/1.md). -/
  free : Nat
  /-- The model's own: what has left the device, newest first (notes/assumptions/2.md). -/
  sent : List Out
  deriving DecidableEq, Repr

/-- The machine as PORST_N leaves it: every register at the value its map gives (R501), nothing in any memory. -/
def State.reset : State where
  pending := []
  regs := []
  act := []
  due := []
  held := []
  frozen := []
  tbl := []
  mem := []
  hostMem := []
  adv := {}
  alm := {}
  fab := {}
  flt := {}
  pair := {}
  linesUp := []
  camps := Vector.replicate 12 {}
  cals := Vector.replicate 12 {}
  twcs := Vector.replicate 8 {}
  twt := {}
  pipes := Vector.replicate 8 {}
  mfes := Vector.replicate 8 {}
  heads := Vector.replicate 4 {}
  prds := Vector.replicate 8 {}
  codec := {}
  vccs := Vector.replicate 8 {}
  time := {}
  dchs := Vector.replicate 16 {}
  masks := {}
  dmas := Vector.replicate 32 {}
  dmaRest := 0
  axes := Vector.replicate 48 {}
  emus := Vector.replicate 16 {}
  poses := Vector.replicate 12 {}
  quads := Vector.replicate 16 {}
  procs := Vector.replicate 2 {}
  auds := Vector.replicate 8 {}
  thm := {}
  engs := Vector.replicate 128 {}
  stews := Vector.replicate 4 {}
  clus := Vector.replicate 16 {}
  pcie := {}
  nv := {}
  tick := 0
  answer := 0
  poison := false
  free := 0
  sent := []

end Sys2Proof.Machine
end

