-- ==== Sys2Proof/Machine/Ops.lean ====
section
/-! DEFINITION. The named operations over registers, windowed tables, memory, time and the trace: every meaning reads and
writes the state through these. -/
namespace Sys2Proof.Machine

/-- What every meaning answers. -/
abbrev Out3 := Host.Outcome State Fault Refusal

/-! ### One field replaced -/

def State.withAlm (s : State) (x : Alm) : State := { s with alm := x }
def State.withTime (s : State) (x : TimeU) : State := { s with time := x }
def State.withPair (s : State) (x : Pair) : State := { s with pair := x }
def State.withDue (s : State) (x : UMap Shadow) : State := { s with due := x }
def State.withThm (s : State) (x : ThmU) : State := { s with thm := x }
def State.withAdv (s : State) (x : Adv) : State := { s with adv := x }
def State.withFab (s : State) (x : Fab) : State := { s with fab := x }
def State.withFlt (s : State) (x : Flt) : State := { s with flt := x }
def State.withHeld (s : State) (x : UMap Shadow) : State := { s with held := x }
def State.withCodec (s : State) (x : Codec) : State := { s with codec := x }
def State.withPcie (s : State) (x : PcieU) : State := { s with pcie := x }
def State.withAct (s : State) (x : UMap Word) : State := { s with act := x }
def State.withNv (s : State) (x : NvU) : State := { s with nv := x }
def State.withDmaRest (s : State) (x : Nat) : State := { s with dmaRest := x }
def State.withMasks (s : State) (x : DramMasks) : State := { s with masks := x }
def State.withFrozen (s : State) (x : List Nat) : State := { s with frozen := x }
def State.withLinesUp (s : State) (x : List Nat) : State := { s with linesUp := x }

/-! ### Registers -/

/-- What a read of the register at a control-space address finds. -/
def State.rd (s : State) (a : Nat) : Word := UMap.get regReset s.regs a
/-- The device sets a register. -/
def State.wr (s : State) (a : Nat) (v : Word) : State := { s with regs := UMap.set regReset s.regs a v }
/-- A field of a register of the instance at base. -/
def State.fld (s : State) (base : Nat) (f : Fld) : Nat := bits (s.rd (base + f.off)).toNat f.hi f.lo
/-- A field is not zero. -/
def State.flag (s : State) (base : Nat) (f : Fld) : Bool := s.fld base f != 0
/-- A word with a field replaced. -/
def putFld (w : Word) (f : Fld) (v : Nat) : Word :=
  (w &&& ~~~ (wd f.mask)) ||| (wd ((v % 2 ^ (f.hi + 1 - f.lo)) <<< f.lo))
/-- The device sets a field. -/
def State.setFld (s : State) (base : Nat) (f : Fld) (v : Nat) : State :=
  s.wr (base + f.off) (putFld (s.rd (base + f.off)) f v)
/-- The device sets a field to all ones, or to zero. -/
def State.setFlag (s : State) (base : Nat) (f : Fld) (b : Bool) : State := s.setFld base f (if b then 2 ^ 32 - 1 else 0)
/-- The device sets bit k of a field. -/
def State.setBit (s : State) (base : Nat) (f : Fld) (k : Nat) (b : Bool) : State :=
  let v := s.fld base f
  s.setFld base f (if b then v ||| 2 ^ k else v - (if v.testBit k then 2 ^ k else 0))
/-- A counter field goes up by n and saturates. -/
def State.incFld (s : State) (base : Nat) (f : Fld) (n : Nat) : State :=
  s.setFld base f (sat (f.hi + 1 - f.lo) (s.fld base f + n))
/-- A field keeps the larger of itself and v. -/
def State.maxFld (s : State) (base : Nat) (f : Fld) (v : Nat) : State := s.setFld base f (max (s.fld base f) v)

/-- The value in force: SH fields as last committed, the others as last written (R512). -/
def State.now (s : State) (a : Nat) : Word :=
  let sh := (infoAt a).sh
  (UMap.get regReset s.act a &&& sh) ||| (s.rd a &&& ~~~ sh)
/-- A field's value in force. -/
def State.inForce (s : State) (base : Nat) (f : Fld) : Nat := bits (s.now (base + f.off)).toNat f.hi f.lo
/-- A field in force is not zero. -/
def State.inForceFlag (s : State) (base : Nat) (f : Fld) : Bool := s.inForce base f != 0
/-- The device sets the value in force of a register, and what a read returns. -/
def State.setForce (s : State) (a : Nat) (v : Word) : State :=
  ((s.wr a v).withAct (UMap.set regReset s.act a v))

/-- The key of the SH group of an address: the instance, and the slot of a pipe (R121). -/
def groupOf (a : Nat) : Nat :=
  let base := a - a % 0x400
  let off := a % 0x400
  if bits a 23 16 = 0x80 then
    (if 0x40 ≤ off ∧ off < 0x100 then base + (off - 0x40) / 0x40
     else if 0x110 ≤ off then base + (off - 0x110) / 0x60 else base)
  else base

def noShadow (_ : Nat) : Shadow := ⟨0, 0⟩

/-- Bits written over bits already waiting. -/
def Shadow.joined (old : Shadow) (m v : Word) : Shadow := ⟨old.mask ||| m, (old.value &&& ~~~ m) ||| (v &&& m)⟩

/-- One waiting register commits, but for the bits `keep`, which stay in the shadow copy (R121). What a read returns becomes the
value in force, but where a later write is held (R512). -/
def State.commitAt (s : State) (keep : Nat → Word) (a : Nat) : State :=
  let p := UMap.get noShadow s.due a
  let m := p.mask &&& ~~~ (keep a)
  let shown := m &&& ~~~ (UMap.get noShadow s.held a).mask
  { s with act := UMap.set regReset s.act a ((UMap.get regReset s.act a &&& ~~~ m) ||| (p.value &&& m))
           due := UMap.set noShadow s.due a ⟨p.mask &&& keep a, p.value &&& keep a⟩
           regs := UMap.set regReset s.regs a ((s.rd a &&& ~~~ shown) ||| (p.value &&& shown)) }

/-- Held writes of a register become due at the next Solstice (R122). -/
def State.releaseAt (s : State) (a : Nat) : State :=
  let h := UMap.get noShadow s.held a
  { s with due := UMap.set noShadow s.due a ((UMap.get noShadow s.due a).joined h.mask h.value)
           held := UMap.set noShadow s.held a ⟨0, 0⟩ }

/-- Solstice of a group: its waiting writes commit but for the bits `keep`, held writes become due at the next one, and the
freeze ends (R121, R122). -/
def State.solsticeBut (s : State) (g : Nat) (keep : Nat → Word) : State :=
  let mine (m : UMap Shadow) : List Nat := (m.map (·.1)).filter (fun a => groupOf a = g)
  let s1 := (mine s.due).foldl (fun t a => t.commitAt keep a) s
  let s2 := (mine s1.held).foldl (fun t a => t.releaseAt a) s1
  (s2.withFrozen (s2.frozen.filter (· ≠ g)))

/-- A width or height that may be committed: a multiple of 4 in its range (R105). -/
def sizeOk (lo hi n : Nat) : Bool := n % 4 = 0 && decide (lo ≤ n) && decide (n ≤ hi)
/-- The bits of a CAMP_SIZE value that are not committed, since WIDTH or HEIGHT is bad (R105). -/
def sizeKeep (a : Nat) (v : Word) : Word :=
  if bits a 27 16 = 0x10 ∧ a % 0x400 = CAMP_SIZE then
    (if sizeOk 64 16384 (bits v.toNat 15 0) then 0 else wd CAMP_SIZE_WIDTH.mask) |||
      (if sizeOk 16 12288 (bits v.toNat 31 16) then 0 else wd CAMP_SIZE_HEIGHT.mask)
  else 0
/-- CFG_ERR of a port whose CAMP_SIZE keeps bits back (R105). -/
def State.sizeErr (s : State) (a : Nat) (keep : Word) : State :=
  if keep == 0 then s else s.setFlag (a - a % 0x400) CAMP_STATUS_CFG_ERR true
/-- The value that a register's waiting writes would put in force. -/
def State.candidate (s : State) (a : Nat) : Word :=
  let p := UMap.get noShadow s.due a
  (UMap.get regReset s.act a &&& ~~~ p.mask) ||| (p.value &&& p.mask)

/-- Every waiting write commits: the end of A5, after which the shadow and active copies are equal (R512), but for a bad WIDTH or
HEIGHT (R105). -/
def State.commitAll (s : State) : State :=
  (s.due.map (·.1)).foldl (fun t a =>
    (t.commitAt (fun b => sizeKeep b (t.candidate b)) a).sizeErr a (sizeKeep a (t.candidate a))) s
/-- A register's SH value is loaded by the device itself: in force at once, and read, but where a later write waits (R512). -/
def State.loadForce (s : State) (a : Nat) (v : Word) : State :=
  let later := (UMap.get noShadow s.due a).mask ||| (UMap.get noShadow s.held a).mask
  (s.wr a ((s.rd a &&& later) ||| (v &&& ~~~ later))).withAct (UMap.set regReset s.act a v)

/-- Solstice of a group with nothing refused. -/
def State.solstice (s : State) (g : Nat) : State := s.solsticeBut g (fun _ => 0)

/-- The freeze of a group (R122). -/
def State.freeze (s : State) (g : Nat) : State :=
  if g ∈ s.frozen then s else (s.withFrozen (g :: s.frozen))

/-! ### Windowed tables (R505) -/

/-- The tables of Table 24-2 (calendar entries are records of their own). -/
inductive Tbl where
  | fabClass | inject | route | tap | writeList | pset | fe | colour | focal | headFilter | placement | tile | tileStage
  | curve | snapshot | dmaShadow | recTask | axisParam | poseTable | lantern | output | feDesc
  deriving DecidableEq, Repr

def Tbl.id : Tbl → Nat
  | .fabClass => 0 | .inject => 1 | .route => 2 | .tap => 3 | .writeList => 4 | .pset => 5 | .fe => 6 | .colour => 7
  | .focal => 8 | .headFilter => 9 | .placement => 10 | .tile => 11 | .tileStage => 12 | .curve => 13 | .snapshot => 14
  | .dmaShadow => 15 | .recTask => 16 | .axisParam => 17 | .poseTable => 18 | .lantern => 19 | .output => 20 | .feDesc => 21

/-- The place of entry i of instance n of a table in the one sparse file. -/
def tblKey (t : Tbl) (n i : Nat) : Nat := t.id * 2 ^ 48 + n * 2 ^ 32 + i

/-- The reset values of the parameter words of an axis (Table 19-3). -/
def axisReset (i : Nat) : Word :=
  match i with
  | 5 => 0x00100064
  | 6 => 0x20000400
  | 8 => 4
  | 9 => 0x13659800
  | 10 => 0x00641400
  | 11 => 0x000A0864
  | 12 => 8
  | _ => 0

/-- What an entry that nothing has written holds: a table's register row where it gives a reset value (stream class 1, tap
32, ALEN 1 of an enrolment entry, the axis parameter words of Table 19-3), else 0 (notes/assumptions/4.md). -/
def tblReset (k : Nat) : Word :=
  let t := k / 2 ^ 48
  if t = Tbl.fabClass.id then (if k % 2 ^ 32 = 1023 then 0 else 1)
  else if t = Tbl.tap.id then 32
  else if t = Tbl.lantern.id then 0x01000000
  else if t = Tbl.axisParam.id then axisReset (k % 2 ^ 32)
  else 0

def State.tget (s : State) (t : Tbl) (n i : Nat) : Word := UMap.get tblReset s.tbl (tblKey t n i)
def State.tset (s : State) (t : Tbl) (n i : Nat) (v : Word) : State :=
  { s with tbl := UMap.set tblReset s.tbl (tblKey t n i) v }

/-! ### Memory -/

/-- An unlisted byte reads 0 (notes/assumptions/5.md). -/
def noByte (_ : Nat) : Byte := 0

def State.memByte (s : State) (a : Nat) : Byte := UMap.get noByte s.mem a
def State.setMemByte (s : State) (a : Nat) (b : Byte) : State := { s with mem := UMap.set noByte s.mem a b }
/-- n bytes from an address up. -/
def State.memBytes (s : State) (a n : Nat) : List Byte := (List.range n).map (fun i => s.memByte (a + i))
/-- Bytes stored from an address up. -/
def State.setMemBytes (s : State) : Nat → List Byte → State
  | _, [] => s
  | a, b :: t => State.setMemBytes (s.setMemByte a b) (a + 1) t
/-- A little-endian number of n bytes. -/
def State.memNat (s : State) (a n : Nat) : Nat := leNat (s.memBytes a n)
def State.hostByte (s : State) (a : Nat) : Byte := UMap.get noByte s.hostMem a
def State.setHostBytes (s : State) : Nat → List Byte → State
  | _, [] => s
  | a, b :: t => State.setHostBytes { s with hostMem := UMap.set noByte s.hostMem a b } (a + 1) t
def State.hostBytes (s : State) (a n : Nat) : List Byte := (List.range n).map (fun i => s.hostByte (a + i))

/-! ### Instances -/

def State.camp (s : State) (p : Nat) : Camp := (s.camps[p]?).getD {}
def State.setCamp (s : State) (p : Nat) (c : Camp) : State := { s with camps := s.camps.setIfInBounds p c }
def State.cal (s : State) (p : Nat) : Cal := (s.cals[p]?).getD {}
def State.setCal (s : State) (p : Nat) (c : Cal) : State := { s with cals := s.cals.setIfInBounds p c }
def State.twc (s : State) (c : Nat) : Twc := (s.twcs[c]?).getD {}
def State.setTwc (s : State) (c : Nat) (t : Twc) : State := { s with twcs := s.twcs.setIfInBounds c t }

def State.pipe (s : State) (p : Nat) : PipeU := (s.pipes[p]?).getD {}
def State.setPipe (s : State) (p : Nat) (u : PipeU) : State := { s with pipes := s.pipes.setIfInBounds p u }

def State.mfe (s : State) (p : Nat) : MfeU := (s.mfes[p]?).getD {}
def State.setMfe (s : State) (p : Nat) (u : MfeU) : State := { s with mfes := s.mfes.setIfInBounds p u }
def State.head (s : State) (h : Nat) : HeadU := (s.heads[h]?).getD {}
def State.setHead (s : State) (h : Nat) (u : HeadU) : State := { s with heads := s.heads.setIfInBounds h u }
def State.prd (s : State) (n : Nat) : PrdU := (s.prds[n]?).getD {}
def State.setPrd (s : State) (n : Nat) (u : PrdU) : State := { s with prds := s.prds.setIfInBounds n u }

def State.vcc (s : State) (v : Nat) : VccU := (s.vccs[v]?).getD {}
def State.setVcc (s : State) (v : Nat) (u : VccU) : State := { s with vccs := s.vccs.setIfInBounds v u }
def stoppedCtx (_ : Nat) : VCtx := {}
def State.dch (s : State) (n : Nat) : Dch := (s.dchs[n]?).getD {}
def State.setDch (s : State) (n : Nat) (d : Dch) : State := { s with dchs := s.dchs.setIfInBounds n d }
def State.dma (s : State) (n : Nat) : DmaU := (s.dmas[n]?).getD {}
def State.setDma (s : State) (n : Nat) (d : DmaU) : State := { s with dmas := s.dmas.setIfInBounds n d }
def State.axis (s : State) (a : Nat) : AxisU := (s.axes[a]?).getD {}
def State.setAxis (s : State) (a : Nat) (u : AxisU) : State := { s with axes := s.axes.setIfInBounds a u }
def State.emu (s : State) (e : Nat) : EmuU := (s.emus[e]?).getD {}
def State.setEmu (s : State) (e : Nat) (u : EmuU) : State := { s with emus := s.emus.setIfInBounds e u }
def State.posePort (s : State) (p : Nat) : PosePort := (s.poses[p]?).getD {}
def State.setPosePort (s : State) (p : Nat) (u : PosePort) : State := { s with poses := s.poses.setIfInBounds p u }
def State.quad (s : State) (q : Nat) : QuadU := (s.quads[q]?).getD {}
def State.setQuad (s : State) (q : Nat) (u : QuadU) : State := { s with quads := s.quads.setIfInBounds q u }
def State.proc (s : State) (right : Bool) : ProcPort := (s.procs[b2n right]?).getD {}
def State.setProc (s : State) (right : Bool) (u : ProcPort) : State := { s with procs := s.procs.setIfInBounds (b2n right) u }
def State.aud (s : State) (p : Nat) : AudU := (s.auds[p]?).getD {}
def State.setAud (s : State) (p : Nat) (u : AudU) : State := { s with auds := s.auds.setIfInBounds p u }
/-- An engine or steward core. -/
def State.core (s : State) (u : WCore) : EngU :=
  match u with
  | .engine e => (s.engs[e.val]?).getD {}
  | .steward k => (s.stews[k.val]?).getD {}
def State.setCore (s : State) (u : WCore) (c : EngU) : State :=
  match u with
  | .engine e => { s with engs := s.engs.setIfInBounds e.val c }
  | .steward k => { s with stews := s.stews.setIfInBounds k.val c }
def State.clu (s : State) (c : Nat) : ClU := (s.clus[c]?).getD {}
def State.setClu (s : State) (c : Nat) (u : ClU) : State := { s with clus := s.clus.setIfInBounds c u }
def State.ctx (s : State) (c : Nat) : VCtx := UMap.get stoppedCtx s.codec.ctxs c
def State.setCtx (s : State) (c : Nat) (x : VCtx) : State :=
  (s.withCodec { s.codec with ctxs := UMap.set stoppedCtx s.codec.ctxs c x })

/-! ### Outputs that Vigil sheds (R465) -/

/-- An output entry (Table 21-5): EN, KIND, RANK, TARGET. -/
def State.outEntry (s : State) (i : Nat) : Word := s.tget .output 0 i
def entryEn (w : Word) : Bool := w.toNat.testBit 31
def entryKind (w : Word) : Nat := bits w.toNat 30 28
def entryRank (w : Word) : Nat := bits w.toNat 27 20
/-- TARGET; a pipe output has no bit 2. -/
def entryTarget (w : Word) : Nat := if entryKind w ≤ 1 then bits w.toNat 5 0 else bits w.toNat 5 3 * 8 + bits w.toNat 1 0
/-- An output is shed. -/
def State.isShed (s : State) (kind target : Nat) : Bool :=
  s.thm.shed.any (fun i => entryKind (s.outEntry i) = kind && entryTarget (s.outEntry i) = target)

/-! ### Time, free values, the trace -/

/-- The time counter in ns (R389). -/
def State.nowNs (s : State) : Nat := s.time.sec * 1000000000 + s.time.ns
/-- Local time in 2^-32 ns. -/
def State.now32 (s : State) : Int := (s.nowNs * 2 ^ 32 + s.time.frac : Nat)
/-- TIME of a header or record (R19). -/
def State.time32 (s : State) : Nat := s.nowNs % 2 ^ 32
/-- Ticks of 2.5 ns in a number of microseconds. -/
def usTicks (us : Nat) : Nat := us * 400
/-- A fresh free value of w bits (notes/assumptions/1.md). -/
def State.fresh (s : State) (w : Nat) : BitVec w := BitVec.ofNat w (Config.freeValue s.free)
/-- The next free value is another one. -/
def State.usedFree (s : State) : State := { s with free := s.free + 1 }
/-- A quotient whose rounding the spec does not state: exact where it is whole, else one of its two neighbours
(notes/assumptions/12.md). -/
def State.openQuot (s : State) (n d : Int) : Int × State :=
  if n % d = 0 then (n / d, s)
  else (Int.fdiv n d + (s.fresh 1).toNat, s.usedFree)
/-- Something leaves the device. -/
def State.emit (s : State) (c : Chan) (kind : Nat) (data : List Nat) : State :=
  { s with sent := ⟨c, kind, data⟩ :: s.sent }

/-- A read answers its reader. -/
def State.answerWith (s : State) (v : Word) : State := { s with answer := v }

/-- The device runs: PORST_N is high and no thermal trip is latched (R458, R492). -/
def State.live (s : State) : Bool := s.adv.porst && !s.thm.tripped
/-- The state with this queue. -/
def State.withQueue (s : State) (q : List Instr) : State := { s with pending := q }
/-- A command acts while the device runs; held in reset or tripped, nothing changes. The queue is the step's alone. -/
def onLive (s : State) (f : State → State) : Out3 := .next (if s.live then (f s).withQueue s.pending else s)

/-- The phase of Advent, 0 to 7 (R71). -/
def State.phase (s : State) : Nat := s.fld advA ADV_STATUS_PHASE
/-- Maintenance state (R74). -/
def State.maint (s : State) : Bool := s.flag advA ADV_STATUS_MAINT
/-- Host-load mode, in A1 and not in maintenance: the host image registers work (R68). -/
def State.hostLoad (s : State) : Bool := s.fld topA TOP_STRAP_BOOTMODE = 4 && s.phase = 1 && !s.maint
/-- No bridge of a compute die works (R13). -/
def State.noBridge (s : State) (die : Nat) : Bool :=
  (die = 1 || die = 2) && s.fld (brgA (die - 1)) BRG_STATUS_WORKING = 0
/-- An access from one die to another cannot cross. -/
def State.cut (s : State) (src dst : Nat) : Bool := decide (src ≠ dst) && (s.noBridge src || s.noBridge dst)
/-- The die of a pipe. -/
def pipeDie (pipe : Nat) : Nat := 1 + pipe / 4
/-- LK fields are locked (R5). -/
def State.locked (s : State) : Bool := s.phase = 7 && !s.maint

end Sys2Proof.Machine
end

