-- ==== Sys2Proof/Machine/Sign.lean ====
section
/-! DEFINITION. SHA-384 and the check of an ECDSA P-384 signature (R65). The spec names the algorithms; FIPS 180-4 and FIPS
186-5 give them (notes/assumptions/16.md). -/
namespace Sys2Proof.Machine

abbrev W64 := BitVec 64

/-- The first 80 primes. -/
def primes80 : List Nat :=
  [2, 3, 5, 7, 11, 13, 17, 19, 23, 29, 31, 37, 41, 43, 47, 53, 59, 61, 67, 71] ++
  [73, 79, 83, 89, 97, 101, 103, 107, 109, 113, 127, 131, 137, 139, 149, 151, 157, 163, 167, 173] ++
  [179, 181, 191, 193, 197, 199, 211, 223, 227, 229, 233, 239, 241, 251, 257, 263, 269, 271, 277, 281] ++
  [283, 293, 307, 311, 313, 317, 331, 337, 347, 349, 353, 359, 367, 373, 379, 383, 389, 397, 401, 409]

/-- The largest root below 2^(b+1) whose k-th power is at most n, bit by bit from bit b. -/
def rootBits (k n : Nat) : Nat → Nat → Nat
  | 0, r => if (r + 1) ^ k ≤ n then r + 1 else r
  | b + 1, r => rootBits k n b (if (r + 2 ^ (b + 1)) ^ k ≤ n then r + 2 ^ (b + 1) else r)

/-- The round constants: 64 fraction bits of the cube roots of the primes. -/
def shaK : List W64 := primes80.map (fun p => BitVec.ofNat 64 (rootBits 3 (p * 2 ^ 192) 68 0))
/-- The initial hash: 64 fraction bits of the square roots of the ninth to sixteenth primes. -/
def sha384Init : List W64 := ((primes80.drop 8).take 8).map (fun p => BitVec.ofNat 64 (rootBits 2 (p * 2 ^ 128) 68 0))

/-- Sixteen big-endian words of a block of 128 bytes. -/
def beWord (l : List Byte) : W64 := BitVec.ofNat 64 (leNat (l.take 8).reverse)
def blockWords : Nat → List Byte → List W64
  | 0, _ => []
  | n + 1, l => beWord l :: blockWords n (l.drop 8)

/-- The message schedule, newest word first. -/
def schedule : Nat → List W64 → List W64
  | 0, w => w
  | n + 1, w =>
    let g (i : Nat) : W64 := (w[i]?).getD 0
    let a := g 14
    let b := g 1
    let s0 := a.rotateRight 1 ^^^ a.rotateRight 8 ^^^ (a >>> 7)
    let s1 := b.rotateRight 19 ^^^ b.rotateRight 61 ^^^ (b >>> 6)
    schedule n ((s1 + g 6 + s0 + g 15) :: w)

/-- One round on the eight working words. -/
def shaRound (st : List W64) (kw : W64 × W64) : List W64 :=
  match st with
  | [a, b, c, d, e, f, g, h] =>
    let s1 := e.rotateRight 14 ^^^ e.rotateRight 18 ^^^ e.rotateRight 41
    let ch := (e &&& f) ^^^ (~~~ e &&& g)
    let t1 := h + s1 + ch + kw.1 + kw.2
    let s0 := a.rotateRight 28 ^^^ a.rotateRight 34 ^^^ a.rotateRight 39
    let mj := (a &&& b) ^^^ (a &&& c) ^^^ (b &&& c)
    [t1 + s0 + mj, a, b, c, d + t1, e, f, g]
  | l => l

def shaBlock (h : List W64) (block : List Byte) : List W64 :=
  let w := (schedule 64 (blockWords 16 block).reverse).reverse
  List.zipWith (· + ·) h ((shaK.zip w).foldl shaRound h)

def shaBlocks : Nat → List W64 → List Byte → List W64
  | 0, h, _ => h
  | n + 1, h, l => shaBlocks n (shaBlock h (l.take 128)) (l.drop 128)

/-- The 48 bytes of a SHA-384 hash. -/
def sha384 (m : List Byte) : List Byte :=
  let z := (128 - (m.length + 17) % 128) % 128
  let p := m ++ [0x80] ++ List.replicate z 0 ++ toBytesBE 16 (8 * m.length)
  ((shaBlocks (p.length / 128) sha384Init p).take 6).flatMap (fun w => toBytesBE 8 w.toNat)

/-! ### P-384 -/

def p384p : Nat := 2 ^ 384 - 2 ^ 128 - 2 ^ 96 + 2 ^ 32 - 1
def p384n : Nat := 0xFFFFFFFFFFFFFFFFFFFFFFFFFFFFFFFFFFFFFFFFFFFFFFFFC7634D81F4372DDF581A0DB248B0A77AECEC196ACCC52973
def p384b : Nat := 0xB3312FA7E23EE7E4988E056BE3F82D19181D9C6EFE8141120314088F5013875AC656398D8A2ED19D2A85C8EDD3EC2AEF
def p384gx : Nat := 0xAA87CA22BE8B05378EB1C71EF320AD746E1D3B628BA79B9859F741E082542A385502F25DBF55296C3A545E3872760AB7
def p384gy : Nat := 0x3617DE4A96262C6F5D9E98BF9292DC29F8F41DBD289A147CE9DA3113B5F0B8C00A60B1CE1D7E819D7A431D7C90EA0E5F

/-- b^e mod m, over n bits of e. -/
def powMod (m : Nat) : Nat → Nat → Nat → Nat
  | 0, _, _ => 1 % m
  | n + 1, b, e =>
    let h := powMod m n (b * b % m) (e / 2)
    if e % 2 = 1 then b * h % m else h
/-- The inverse modulo a prime of 384 bits. -/
def invMod (m a : Nat) : Nat := powMod m 384 (a % m) (m - 2)

/-- A point; none is the point at infinity. -/
abbrev EcPoint := Option (Nat × Nat)

def ecAdd : EcPoint → EcPoint → EcPoint
  | none, q => q
  | p, none => p
  | some (x1, y1), some (x2, y2) =>
    let m := p384p
    if x1 = x2 ∧ (y1 + y2) % m = 0 then none
    else
      let l := if x1 = x2 then (3 * x1 * x1 + (m - 3)) % m * invMod m (2 * y1) % m
               else ((y2 + m - y1) % m) * invMod m (x2 + m - x1) % m
      let x3 := (l * l + 2 * m - x1 - x2) % m
      some (x3, (l * (x1 + m - x3) + m - y1) % m)

/-- k times a point, over n bits of k. -/
def ecMul : Nat → Nat → EcPoint → EcPoint
  | 0, _, _ => none
  | n + 1, k, p =>
    let h := ecMul n (k / 2) (ecAdd p p)
    if k % 2 = 1 then ecAdd p h else h

/-- A point of the curve with coordinates in range. -/
def onCurve (x y : Nat) : Bool :=
  decide (x < p384p) && decide (y < p384p) && (y * y % p384p = (x * x * x + (p384p - 3) * x + p384b) % p384p)

/-- The signature (r, s) of a 48-byte hash under the key (x, y) passes. -/
def ecdsaOk (x y r s : Nat) (hash : List Byte) : Bool :=
  let n := p384n
  if r = 0 ∨ n ≤ r ∨ s = 0 ∨ n ≤ s ∨ onCurve x y = false then false
  else
    let w := invMod n s
    let z := leNat hash.reverse
    match ecAdd (ecMul 384 (z * w % n) (some (p384gx, p384gy))) (ecMul 384 (r * w % n) (some (x, y))) with
    | none => false
    | some (px, _) => px % n = r

/-- A big-endian number. -/
def beNat (l : List Byte) : Nat := leNat l.reverse

/-- The check of a Signature record (R65): the key's hash is the fused one, and the signature covers the bytes before the
record. `key` is 0x04, X, Y. -/
def signatureOk (keyHash : List Byte) (key r s covered : List Byte) : Bool :=
  key.length = 97 && key.head? = some 4 && sha384 key = keyHash &&
    ecdsaOk (beNat ((key.drop 1).take 48)) (beNat (key.drop 49)) (beNat r) (beNat s) (sha384 covered)

end Sys2Proof.Machine
end

