-- ==== Sys2Proof/Machine/Image.lean ====
section
/-! DEFINITION. The configuration image: its header, its records, and what makes a slot valid (R61 to R65). -/
namespace Sys2Proof.Machine

/-- A little-endian field of an image. -/
def fieldAt (img : List Byte) (off n : Nat) : Nat := leNat ((img.drop off).take n)

/-- MAGIC, VERSION and HCRC are correct (Table 3-2). -/
def headOk (img : List Byte) : Bool :=
  decide (64 ≤ img.length) && fieldAt img 0 4 = 0x4C444B53 && fieldAt img 4 2 = 1 && fieldAt img 56 4 = crc32c (img.take 56)

/-- A slot's header as the device keeps it (R67). -/
def slotHdr (img : List Byte) : SlotHdr :=
  { ok := headOk img, dormant := (fieldAt img 6 2).testBit 0, generation := fieldAt img 12 4, length := fieldAt img 8 4 }

/-- A record of an image (R63): its place, TYPE, FLAGS, PLEN and TARGET. -/
structure ImgRec where
  off : Nat
  typ : Nat
  flags : Nat
  plen : Nat
  target : Nat
  deriving DecidableEq, Repr

/-- The payload of a record. -/
def ImgRec.payload (r : ImgRec) (img : List Byte) : List Byte := (img.drop (r.off + 16)).take r.plen

/-- COUNT records from an offset; none where they pass the image's length. -/
def walkRecs (img : List Byte) (length : Nat) : Nat → Nat → Option (List ImgRec × Nat)
  | 0, off => some ([], off)
  | n + 1, off =>
    let r : ImgRec := ⟨off, fieldAt img off 2, fieldAt img (off + 2) 2, fieldAt img (off + 4) 4, fieldAt img (off + 8) 8⟩
    let next := off + 16 + (r.plen + 15) / 16 * 16
    if next > length then none
    else
      match walkRecs img length n next with
      | none => none
      | some (l, e) => some (r :: l, e)

/-- The records of an image whose walk ends exactly at LENGTH with an End record (R64). -/
def imgRecs (img : List Byte) : Option (List ImgRec) :=
  let length := fieldAt img 8 4
  match walkRecs img length (fieldAt img 16 4) 64 with
  | some (l, e) => if e = length ∧ (l.getLast?).map (·.typ) = some 0xFF then some l else none
  | none => none

/-- A Signature record passes (R65): it is the last before End. -/
def sigPasses (f : Fuses) (img : List Byte) (l : List ImgRec) : Bool :=
  match (l.reverse)[1]? with
  | some r =>
    let p := r.payload img
    r.typ = 0xF0 && r.plen = 193 && (l.filter (fun x => x.typ = 0xF0)).length = 1 &&
      signatureOk ((f.keyHash.flatMap (fun w => toBytes 4 w.toNat))) (p.take 97) ((p.drop 97).take 48) ((p.drop 145).take 48)
        (img.take r.off)
  | none => false

/-- Two extents do not meet. -/
def apart (a n b m : Nat) : Bool := decide (a + n ≤ b) || decide (b + m ≤ a) || n = 0 || m = 0

/-- Where slot A and slot B begin (R61). -/
def slotStart (cap : Nat) (slotB : Bool) : Nat := if slotB then cap / 2 else 0

/-- A partition's size, alignment and place (R64, R76): `images` are the extents of the images. -/
def partOk (cap off size : Nat) (images : List (Nat × Nat)) : Bool :=
  decide (0x400000 ≤ size) && size % 0x10000 = 0 && off % 0x10000 = 0 && decide (off + size ≤ cap) &&
    images.all (fun e => apart off size e.1 e.2)

/-- What a full check of an image finds (R64, R65). -/
structure Judged where
  valid : Bool
  sig : Bool
  part : Option (Nat × Nat × Nat)
  /-- CRC-32C of the payloads of block and firmware records (R69). -/
  crcs : List Nat
  deriving DecidableEq, Repr

/-- Block load, tile calibration load and firmware records. -/
def loadTyp (t : Nat) : Bool := t = 0x10 || t = 0x11 || t = 0x40 || t = 0x41 || t = 0x42

/-- An image judged: `images` are the extents of the slots' images, its own among them. -/
def judgeImage (f : Fuses) (cap : Nat) (images : List (Nat × Nat)) (img : List Byte) : Judged :=
  let length := fieldAt img 8 4
  match imgRecs img with
  | none => ⟨false, false, none, []⟩
  | some l =>
    let parts := (l.filter (fun r => r.typ = 0x30)).map (fun r =>
      let p := r.payload img
      (fieldAt p 0 4, fieldAt p 4 4, fieldAt p 8 4))
    let sig := sigPasses f img l
    let ok := headOk img && length % 16 = 0 && decide (length ≤ 0x10000000) && decide (cap = 0 ∨ 2 * length ≤ cap) &&
      decide (length ≤ img.length) && fieldAt img 60 4 = crc32c ((img.take length).drop 64) && decide (parts.length ≤ 1) &&
      parts.all (fun p => partOk cap p.1 p.2.1 images) && (!f.lockImage || sig)
    ⟨ok, sig, parts.head?, (l.filter (fun r => loadTyp r.typ)).map (fun r => crc32c (r.payload img))⟩

/-- Extents of a slot's image and of the other header's (R64). -/
def State.slotExtents (s : State) (slotB : Bool) (length : Nat) : List (Nat × Nat) :=
  let o := if slotB then s.adv.slotA else s.adv.slotB
  [(slotStart s.adv.flashCap slotB, length)] ++
    (if o.ok then [(slotStart s.adv.flashCap (!slotB), o.length)] else [])

/-- A slot's image judged. -/
def State.judgeSlot (s : State) (slotB : Bool) (img : List Byte) : Judged :=
  judgeImage s.adv.fuses s.adv.flashCap (s.slotExtents slotB (fieldAt img 8 4)) img

/-! ### Slot rewrites (R75) -/

/-- An image with a new GENERATION and DORMANT flag in its header, and its new HCRC. -/
def reheader (img : List Byte) (generation : Nat) (dormant : Bool) : List Byte :=
  let h := img.take 6 ++ toBytes 2 (putBits (fieldAt img 6 2) 0 0 (b2n dormant)) ++ (img.drop 8).take 4 ++ toBytes 4 generation ++
    (img.drop 16).take 40
  h ++ toBytes 4 (crc32c h) ++ img.drop 60

/-- The slot that provided the running image: true is B. -/
def State.runSlot (s : State) : Bool := s.flag advA ADV_STATUS_SLOT
/-- The generation that a rewrite carries. -/
def State.nextGen (s : State) : Nat :=
  ((if s.runSlot then s.adv.slotB else s.adv.slotA).generation + 1) % 2 ^ 32
/-- An image of this length in a slot would overlap the running image's Almanac partition. -/
def State.hitsPartition (s : State) (slotB : Bool) (length : Nat) : Bool :=
  match s.adv.partition with
  | some (off, size, _) => !apart off size (slotStart s.adv.flashCap slotB) length
  | none => false

end Sys2Proof.Machine
end

