-- ==== Sys2Proof/Machine/Faults.lean ====
section
/-! DEFINITION. Fault records and escalation (R470 to R476, R513), and what the Almanac holds of them (R79). -/
namespace Sys2Proof.Machine

/-! ### Entries that wait for a commit (R77 to R79) -/

/-- The Almanac retains entries: it is enabled, or Advent has not yet reached A5 (R76). -/
def State.retains (s : State) : Bool := s.flag almA ALM_STATUS_ENABLED || decide (s.phase < 5)

/-- Bytes that the waiting entries take (R79, notes/assumptions/10.md). -/
def Alm.used (a : Alm) : Nat :=
  a.pendAl.length * Config.entryBytes 0 + a.pendChk.length * Config.entryBytes 1 +
    (if a.pendLedger then Config.entryBytes 2 else 0) + a.pendLog.length * Config.entryBytes 3

/-- HOLDING: entries wait while the flash-write window is closed (R79), or because a power-fail commit had no room for them
(R78); HOLD_TEMP: the window is closed and a checkpoint is among them. -/
def State.showHolding (s : State) : State :=
  (s.setFlag almA ALM_STATUS_HOLDING
    ((s.alm.shut || s.alm.incomplete) && (s.alm.pendAl.length + s.alm.pendChk.length + s.alm.pendLog.length != 0 || s.alm.pendLedger))).setFlag nvtA
    NVT_STATUS_HOLD_TEMP (s.alm.shut && s.alm.pendChk.length != 0)

/-- A fault-log entry joins the waiting entries; with the window closed and the SRAM full it is dropped (R79). -/
def State.holdLog (s : State) (r : FaultRec) : State :=
  if !s.retains then s
  else if s.alm.shut && decide (s.alm.used + Config.entryBytes 3 > 262144) then s.incFld almA ALM_STATUS_DROPPED 1
  else (s.withAlm { s.alm with pendLog := s.alm.pendLog ++ [r] }).showHolding

/-- Values of the same fields join: the newer value stands. -/
def mergeAl (v : AlVal) : List AlVal → List AlVal
  | [] => [v]
  | w :: t =>
    if w.key = v.key then ⟨v.key, w.mask ||| v.mask, (w.value &&& ~~~ v.mask) ||| (v.value &&& v.mask)⟩ :: t
    else w :: mergeAl v t

/-- A new value of AL fields joins the waiting entries. With the window closed: a held value is replaced in place; else, if
the SRAM is full, the oldest held fault-log entry makes room; else the value is lost (R79, R502). -/
def State.journal (s : State) (key : Nat) (mask value : Word) : State :=
  if !s.retains || mask == 0 then s
  else
    let v : AlVal := ⟨key, mask, value &&& mask⟩
    let put (t : State) : State := (t.withAlm { t.alm with pendAl := mergeAl v t.alm.pendAl }).showHolding
    if s.alm.pendAl.any (fun w => w.key = key) then put s
    else if s.alm.shut && decide (s.alm.used + Config.entryBytes 0 > 262144) then
      match s.alm.pendLog with
      | _ :: rest => put ((s.withAlm { s.alm with pendLog := rest }).incFld almA ALM_STATUS_DROPPED 1)
      | [] => s.setFlag almA ALM_STATUS_AL_DROPPED true
    else put s

/-! ### Records -/

/-- The log ring of a die (R473). -/
def Flt.log (f : Flt) (die : Nat) : List FaultRec := if die = 0 then f.logH else if die = 1 then f.logC0 else f.logC1
/-- The newest 32 records stay (R473). -/
def Flt.push (f : Flt) (die : Nat) (r : FaultRec) : Flt :=
  if die = 0 then { f with logH := (r :: f.logH).take 32 }
  else if die = 1 then { f with logC0 := (r :: f.logC0).take 32 }
  else { f with logC1 := (r :: f.logC1).take 32 }

/-- A record (Table 22-1). `info` is word 2 without ADDR_HI: its bits start at 8. -/
def faultRec (cause sev src addr info time : Nat) : FaultRec :=
  ⟨wd (cause % 256 * 2 ^ 24 + sev % 8 * 2 ^ 21 + src % 2 ^ 16), wd addr, wd (info / 256 * 256 + (addr / 2 ^ 32) % 256), wd time⟩

/-- The snapshot of a die: the first record is kept, later ones count as nested (R471). -/
def State.snapshot (s : State) (die sev : Nat) (r : FaultRec) : State :=
  let b := fltA die
  if s.flag b FLT_STATUS_VALID then
    ((s.incFld b FLT_STATUS_COUNT 1).setFlag b FLT_STATUS_NESTED true).maxFld b FLT_STATUS_SEV_MAX sev
  else
    ((((s.wr b r.w0).wr (b + 4) r.w1).wr (b + 8) r.w2).wr (b + 12) r.w3 |>.setFlag b FLT_STATUS_VALID true).setFld b
      FLT_STATUS_SEV_MAX sev

/-- A fault record reaches the FLT instance of a die: snapshot, log ring, Almanac log, event bit (R470, R471, R473, R476). -/
def State.record (s : State) (die cause sev src addr info : Nat) : State :=
  let r := faultRec cause sev src addr info s.time32
  let s1 := s.snapshot die sev r
  let s2 := (s1.withFlt (s1.flt.push die r))
  let s3 := (s2.holdLog r).incFld (fltA die) FLT_TOTAL_RECORDS 1
  if sev ≥ s3.fld (fltA die) FLT_CTRL_IRQ_SEV then s3.setFlag (fltA die) FLT_EVT_EVT true else s3

/-- A word-2 INFO value that stands from bit 8 up. -/
def info8 (v : Nat) : Nat := v * 256

/-! ### Escalation to the package (R474, R475, R513) -/

/-- The pair is confirmed (R477). -/
def State.paired (s : State) : Bool := s.flag advA ADV_SYSID_PAIR_OK
/-- This half is active (R477). -/
def State.active (s : State) : Bool := s.flag advA PAIR_STATUS_ROLE

/-- The active half asks its partner to take over (R480): REQ = 1 goes out at once. -/
def State.askYield (s : State) : State :=
  (s.withPair { s.pair with yielding := true, req := 1, due := true, askTick := s.tick })

/-- A package fault (R475): PKG_FAULT, and the pair hands over, or reports it, or the package degrades. -/
def State.packageFault (s : State) (code channel : Nat) : State :=
  let s1 := (s.setFlag (fltA 0) FLT_STATUS_PKG_FAULT true).record 0 0x31 4 (srcOf 0 0x08 0) 0
    (info8 (code % 256 + channel % 16 * 256))
  if s1.paired then
    (if s1.active then s1.askYield else (s1.withPair { s1.pair with due := true }))
  else s1.setFlag (fltA 0) FLT_STATUS_DEGRADED true

/-- A die fault: recorded at the hub with the failed die as SRC_DIE, and a package fault (Table 22-3, R513). -/
def State.dieFault (s : State) (die code : Nat) : State :=
  let s1 := (s.withFlt { s.flt with diesFaulted := if die ∈ s.flt.diesFaulted then s.flt.diesFaulted else die :: s.flt.diesFaulted })
  (s1.record 0 0x30 4 (srcOf die 0x08 0) 0 (info8 code)).packageFault (1 + die) 0

/-- FAULT_N is driven low (R476). -/
def State.faultLow (s : State) : Bool :=
  let dieDrives (d : Nat) : Bool :=
    s.flag (fltA d) FLT_STATUS_VALID && decide (s.fld (fltA d) FLT_STATUS_SEV_MAX ≥ s.fld (fltA d) FLT_CTRL_FAULTN_SEV)
  dieDrives 0 || dieDrives 1 || dieDrives 2 || s.flag (fltA 0) FLT_STATUS_PKG_FAULT ||
    s.flag (fltA 0) FLT_STATUS_DEGRADED || s.adv.fuseErr

/-- An address error (R32, R33, R38): in the FLT block of a die, with the address and the requester. -/
def State.addressError (s : State) (die : Nat) (r : Req) (addr : Nat) (write : Bool) : State :=
  s.record die 0x01 1 r.src addr (info8 (b2n write))

end Sys2Proof.Machine
end

