-- ==== Sys2Proof/Machine/Access.lean ====
section
/-! DEFINITION. One control-space access to one register by its access codes (Table 0-3, R5, R25, R122, R502, R512). -/
namespace Sys2Proof.Machine

/-- By which way a write comes: a control-space access, a control packet, an image record, the Almanac replay. -/
inductive Path where
  | space | packet | image | replay
  deriving DecidableEq, Repr

/-- The write's requester, its way, and whether AL fields it changes are journalled (R502). -/
structure WCtx where
  r : Req
  path : Path
  journal : Bool
  deriving DecidableEq, Repr

/-- What became of an access. -/
inductive WRes where
  | ok | refused | locked | addrErr
  deriving DecidableEq, Repr

/-- Shadowed bits are written (R29, R122, R123): a control-space write after the freeze is held, any other is due at the next
Solstice; the replay writes both copies (R81), but for a bad WIDTH or HEIGHT (R105). -/
def State.shWrite (s : State) (c : WCtx) (a : Nat) (m v : Word) : State :=
  if m == 0 then s
  else
    match c.path with
    | .replay =>
      let p := UMap.get noShadow s.due a
      let old := UMap.get regReset s.act a
      let keep := sizeKeep a ((old &&& ~~~ m) ||| (v &&& m)) &&& m
      let n := m &&& ~~~ keep
      ((s.withAct (UMap.set regReset s.act a ((old &&& ~~~ n) ||| (v &&& n)))).withDue
        (UMap.set noShadow s.due a ⟨p.mask &&& ~~~ m, p.value &&& ~~~ m⟩)).sizeErr a keep
    | .space =>
      if groupOf a ∈ s.frozen then
        (s.withHeld (UMap.set noShadow s.held a ((UMap.get noShadow s.held a).joined m v)))
      else (s.withDue (UMap.set noShadow s.due a ((UMap.get noShadow s.due a).joined m v)))
    | _ => (s.withDue (UMap.set noShadow s.due a ((UMap.get noShadow s.due a).joined m v)))

/-- The Almanac's key of a register, and of an entry behind a window's data register: in the order of the control-space
address (R503). -/
def alReg (a : Nat) : Nat := a * 2 ^ 32
def alEntry (a i : Nat) : Nat := a * 2 ^ 32 + i + 1

/-- A write of the bits m of a register, by the access codes of its fields (R4). -/
def State.genWrite (s : State) (c : WCtx) (a : Nat) (v m : Word) : State × WRes :=
  let i := infoAt a
  let lockHit := s.locked && (i.lk &&& m) != 0
  let rw := (if s.locked then i.rw &&& ~~~ i.lk else i.rw) &&& m
  let old := s.rd a
  let new := (((old &&& ~~~ rw) ||| (v &&& rw)) &&& ~~~ (v &&& i.w1c &&& m)) ||| (v &&& i.w1s &&& m)
  let s1 := (s.wr a new).shWrite c a (rw &&& i.sh) v
  let s2 := if c.journal then s1.journal (alReg a) (rw &&& i.al) new else s1
  if lockHit then (s2.record 0 0x02 1 c.r.src a 0, .locked) else (s2, .ok)

/-- The device's own handling of a write that sets fields without restriction. -/
def okW (s : State) : State × WRes := (s, .ok)
def refusedW (s : State) : State × WRes := (s, .refused)

/-- A read of a register by the access codes of its fields: WO bits read zero, RC bits are cleared (R4, R504). -/
def State.genRead (s : State) (a : Nat) : Word × State :=
  let i := infoAt a
  let v := s.rd a
  (v &&& ~~~ i.wo, if (v &&& i.rc) == 0 then s else s.wr a (v &&& ~~~ i.rc))

/-- An index register moves on by one and wraps after the table's last entry (R505). -/
def State.advance (s : State) (a : Nat) (entries : Nat) (f : Fld) : State :=
  let i := s.fld a f
  s.setFld a f (if i + 1 = entries then 0 else i + 1)

end Sys2Proof.Machine
end

