-- ==== Sys2Proof/Machine/AlmOps.lean ====
section
/-! DEFINITION. The Almanac's window and guard markers (R79, R80). -/
namespace Sys2Proof.Machine

/-- Nothing waits for a commit. -/
def Alm.clean (a : Alm) : Bool := a.pendAl = [] && a.pendChk = [] && a.pendLog = [] && !a.pendLedger
/-- T_hot in 0.25 degrees. -/
def State.tHot (s : State) : Int := toSigned 16 (s.fld thmA THM_THOT2_T_HOT)
/-- The safe range: above -20 and below +120 degrees (R80). -/
def State.tSafe (s : State) : Bool := decide (-80 < s.tHot ∧ s.tHot < 480)
/-- Guard and clear markers at the band crossings; R79 does not block them. Entries of a group not yet durable are still held. -/
def State.guardStep (s : State) : State :=
  if !s.flag almA ALM_STATUS_ENABLED then s
  else if !s.tSafe then (s.withAlm { s.alm with guard := true })
  else if s.alm.guard && s.alm.clean && s.alm.writing.isNone then (s.withAlm { s.alm with guard := false })
  else s

/-! ### Commits (R76 to R79) -/

/-- The newest 256 fault-log entries stay (R76). -/
def keepLog (l : List FaultRec) : List FaultRec := l.drop (l.length - 256)
/-- Checkpoints of the same kind: the newer stands. -/
def mergeChk (old new : List (Nat × Nat)) : List (Nat × Nat) :=
  new.foldl (fun l c => l.filter (fun (d : Nat × Nat) => d.1 ≠ c.1) ++ [c]) old
/-- A commit group joins the journal; `erase`: the AL values go (R74). -/
def Journal.join (j g : Journal) (erase ledger : Bool) : Journal :=
  { al := if erase then [] else g.al.foldl (fun l v => mergeAl v l) j.al
    checkpoints := mergeChk j.checkpoints g.checkpoints
    log := keepLog (j.log ++ g.log)
    ledger := if ledger then g.ledger else j.ledger }
/-- What waits, as a group. -/
def Alm.group (a : Alm) : Journal := ⟨a.pendAl, a.pendChk, a.pendLog, a.ledger⟩

/-- Entries as numbers. -/
def Journal.nums (j : Journal) : List Nat :=
  j.al.flatMap (fun v => [v.key, v.mask.toNat, v.value.toNat]) ++ j.checkpoints.flatMap (fun c => [c.1, c.2]) ++
    j.log.flatMap (fun r => [r.w0.toNat, r.w1.toNat, r.w2.toNat, r.w3.toNat]) ++ j.ledger
/-- Bytes that entries take in a group (notes/assumptions/10.md). -/
def Journal.bytes (j : Journal) : Nat :=
  j.al.length * Config.entryBytes 0 + j.checkpoints.length * Config.entryBytes 1 + Config.entryBytes 2 +
    j.log.length * Config.entryBytes 3

/-! ### Sectors (R77). They are 64 KiB, the unit of a partition (notes/assumptions/10.md). -/

/-- Sectors of the partition. -/
def Alm.ring (a : Alm) : Nat := a.place.2 / 65536
/-- Sectors that are erased. -/
def Alm.erased (a : Alm) : Nat := a.ring - a.sectors.length
/-- The sector after the newest one in ring order: the one in reserve. -/
def Alm.reserve (a : Alm) : Nat := match a.sectors.getLast? with | some k => (k + 1) % max 1 a.ring | none => 0
/-- A durable group takes its place: in the newest sector where it fits, else, or where `fresh`, in the one in reserve; it bears
the next sequence number and its CRC. -/
def Alm.placed (a : Alm) (j : Journal) (fresh : Bool) : Alm :=
  let next : Alm :=
    if fresh || a.sectors.isEmpty || decide (a.fill + j.bytes > 65536) then
      { a with sectors := a.sectors ++ [a.reserve], fill := j.bytes }
    else { a with fill := a.fill + j.bytes }
  { next with seq := a.seq + 1, crc := (Config.groupCrc (a.seq + 1) j.nums).toNat }
/-- The oldest sector is erased. -/
def Alm.dropOldest (a : Alm) : Alm :=
  match a.sectors with
  | k :: t => { a with sectors := t, erases := UMap.set (fun _ => 0) a.erases k (UMap.get (fun _ => 0) a.erases k + 1) }
  | [] => a

/-- A commit begins, where the partition is in use, the window open and none in progress: what waits becomes its group. With
fewer than two erased sectors (`few`: so the flash finds it) the group is part of a snapshot of all live entries (R77). -/
def State.startCommit (s : State) (asked few : Bool) : State :=
  if !s.flag almA ALM_STATUS_ENABLED || s.alm.shut || s.alm.writing.isSome then s
  else
    let a := s.alm
    (s.withAlm { a with writing := some a.group, asked := asked, discard := s.flag almA ALM_CTRL_DISCARD_AL,
                              snapshot := few || decide (a.erased < 2),
                              pendAl := [], pendChk := [], pendLog := [], pendLedger := false }).showHolding
/-- The group in progress is durable: it joins the journal and takes its sector; a snapshot holds every live entry, and the
oldest sector is erased (R74, R77). -/
def Alm.durable (a : Alm) (g : Journal) : Alm :=
  let j := a.flash.join g a.discard true
  let b := a.placed (if a.snapshot then j else g) false
  let c := if a.snapshot then b.dropOldest else b
  { c with flash := j, writing := none, incomplete := false, asked := false, discard := false, snapshot := false }
/-- Anything waits for a commit, a discard among it. -/
def State.almChanged (s : State) : Bool := !s.alm.clean || s.flag almA ALM_CTRL_DISCARD_AL
/-- The group in progress is abandoned, and its entries wait again (R78); no sector counts as erased. COMMIT stays 1 until a later
commit is durable (notes/assumptions/21.md). -/
def State.abandonCommit (s : State) : State :=
  match s.alm.writing with
  | none => s
  | some g =>
    let a := s.alm
    let chk := g.checkpoints.filter (fun (c : Nat × Nat) => !a.pendChk.any (fun d => d.1 = c.1))
    (s.withAlm { a with writing := none, asked := false, discard := false, snapshot := false,
                             pendAl := a.pendAl.foldl (fun l v => mergeAl v l) g.al,
                             pendChk := chk ++ a.pendChk, pendLog := g.log ++ a.pendLog, pendLedger := true })

/-- The flash-write window follows T_hot; entries that were held are committed when it opens (R79, R469). A commit in progress
when it closes ends as it would have (notes/assumptions/21.md). From a start below -22 degrees on it opens at -22. -/
def State.windowStep (s : State) : State :=
  let t := s.tHot
  let is := s.flag thmA THM_STATUS_FLASH_OK
  let ok := decide ((if is && !s.thm.cold then -100 else -88) ≤ t ∧ t ≤ if is then 500 else 488)
  let s1 := (s.setFlag thmA THM_STATUS_FLASH_OK ok).withThm { s.thm with cold := s.thm.cold && decide (t < -88) }
  let s2 := (s1.withAlm { s1.alm with shut := !ok }).showHolding
  if ok && s.alm.shut && s2.almChanged then s2.startCommit (s2.flag almA ALM_CTRL_COMMIT) false else s2

/-! ### The partition (R76) -/

/-- The ledger comes back from the journal. -/
def State.showLedger (s : State) : State :=
  let l := s.alm.flash.ledger
  (List.range 8).foldl (fun t i => t.wr (almA + ALM_LEDGER + 4 * i) (wd ((l[i]?).getD 0 / 60)))
    (s.withAlm { s.alm with ledger := l })
/-- The journal at OFFSET and SIZE is at hand; at a place that the device has not written the flash holds none
(notes/assumptions/21.md). -/
def Alm.goTo (a : Alm) (p : Nat × Nat) : Alm :=
  if a.place = p then a
  else
    let there := ((a.others.find? (fun e => e.1 = p)).map (·.2)).getD {}
    { a with toAlmFlash := there, place := p
             others := (a.place, a.toAlmFlash) :: a.others.filter (fun e => e.1 ≠ p && e.1 ≠ a.place) }
/-- The Almanac is enabled on the partition that the image names (R76); an empty one is formatted (R81). -/
def State.usePartition (s : State) (p : Nat × Nat × Nat) : State :=
  let t := (s.withAlm (s.alm.goTo (p.1, p.2.1))).setFlag almA ALM_STATUS_ENABLED true
  match t.alm.epoch with
  | none => (t.withAlm { t.alm with flash := {}, epoch := some p.2.2, guard := false, incomplete := false, sectors := [], fill := 0 }).setFlag
      almA ALM_STATUS_EMPTY true
  | some _ => t.showLedger

end Sys2Proof.Machine
end

