-- ==== Sys2Proof/Machine/Almanac.lean ====
section
/-! DEFINITION. The Almanac's commits, the wear ledger, power failure (R76 to R82, R492). -/
namespace Sys2Proof.Machine

/-- Writes of ALM registers: COMMIT starts a commit or waits for the one in progress (`few`: as startCommit); DISCARD_AL acts in
maintenance only. -/
def almPut (few : Bool) (off a : Nat) (v m : Word) (s : State) : State × WRes :=
  if off = ALM_CTRL then
    let w := (v &&& m).toNat
    let s1 := if w.testBit 1 && s.maint then s.setFlag almA ALM_CTRL_DISCARD_AL true else s
    okW (if w.testBit 0 && s1.flag almA ALM_STATUS_ENABLED then (s1.setFlag almA ALM_CTRL_COMMIT true).startCommit true few else s1)
  else if off = ALM_STATUS then okW (s.wr a (s.rd a &&& ~~~ (v &&& m &&& 0x38)))
  else okW s

/-- The same by a control-space write. -/
def almWrite (off a : Nat) (v m : Word) (s : State) : State × WRes := almPut false off a v m s

/-- ALMANAC_COMMIT: COMMIT is written. `fewErased`: fewer than two erased sectors remain, and a snapshot is written (R77). -/
def execAlmanacCommit (_r : Req) (fewErased : Bool) (s : State) : Out3 :=
  onLive s fun s => (almPut fewErased ALM_CTRL (almA + ALM_CTRL) 1 1 s).1
/-- ALMANAC_PERIODIC_COMMIT: 2 s have passed; a commit starts if anything has changed. -/
def execAlmanacPeriodicCommit (fewErased : Bool) (s : State) : Out3 :=
  onLive s fun s => if s.almChanged then s.startCommit (s.flag almA ALM_CTRL_COMMIT) fewErased else s
/-- ALMANAC_COMMIT_DONE: the group is durable; a COMMIT that came in the meantime starts the next. -/
def execAlmanacCommitDone (s : State) : Out3 :=
  onLive s fun s =>
    match s.alm.writing with
    | none => s
    | some g =>
      let a := s.alm
      let s1 : State := s.withAlm (a.durable g)
      let s2 := if a.discard then s1.setFlag almA ALM_CTRL_DISCARD_AL false else s1
      let s3 := if a.asked then s2.setFlag almA ALM_CTRL_COMMIT false else s2
      let s4 := s3.showHolding.guardStep
      if s4.flag almA ALM_CTRL_COMMIT then s4.startCommit true false else s4
/-- DISCARD_AL: the bit is written. -/
def execDiscardAl (_r : Req) (s : State) : Out3 := onLive s fun s => (almWrite ALM_CTRL (almA + ALM_CTRL) 2 2 s).1

/-- Entries that fit into what is left of a power-fail commit, each of a size. -/
def fitting {α : Type} (size left : Nat) (l : List α) : List α := l.take (if size = 0 then l.length else left / size)
/-- The power-fail commit: AL values, checkpoints, the ledger, then fault-log entries, newest first, up to 16 KiB, into the sector
in reserve; what does not fit stays, and the group is incomplete (R78). -/
def State.powerFailCommit (s : State) : State :=
  let a := s.alm
  let n0 := Config.entryBytes 0
  let n1 := Config.entryBytes 1
  let al := fitting n0 16384 a.pendAl
  let l1 := 16384 - n0 * al.length
  let chk := if al.length < a.pendAl.length then [] else fitting n1 l1 a.pendChk
  let l2 := l1 - n1 * chk.length
  let rest := decide (al.length < a.pendAl.length ∨ chk.length < a.pendChk.length)
  let led := a.pendLedger && !rest && decide (Config.entryBytes 2 ≤ l2)
  let l3 := if led then l2 - Config.entryBytes 2 else l2
  let log := if rest || (a.pendLedger && !led) then [] else (fitting (Config.entryBytes 3) l3 a.pendLog.reverse).reverse
  let g : Journal := ⟨al, chk, log, a.ledger⟩
  let more := rest || (a.pendLedger && !led) || decide (log.length < a.pendLog.length)
  let b := a.placed g true
  (s.withAlm { b with flash := a.flash.join g false led,
                            pendAl := a.pendAl.drop al.length, pendChk := a.pendChk.drop chk.length,
                            pendLedger := a.pendLedger && !led, pendLog := a.pendLog.take (a.pendLog.length - log.length),
                            incomplete := more }).showHolding

/-- POWER_FAIL: PFAIL_N falls; a commit in progress is abandoned, and the power-fail commit is made where flash writes are
allowed. -/
def execPowerFail (s : State) : Out3 :=
  onLive s fun s =>
    if s.alm.pfail then s
    else
      let s1 : State := (s.withAlm { s.alm with pfail := true })
      let s2 := s1.abandonCommit
      if !s2.flag almA ALM_STATUS_ENABLED || s2.alm.shut || s2.alm.clean then s2.showHolding else s2.powerFailCommit
/-- POWER_FAIL_CLEAR: PFAIL_N rises and the device keeps running. -/
def execPowerFailClear (s : State) : Out3 := onLive s fun s => (s.withAlm { s.alm with pfail := false })

/-- The bin of a temperature in 0.25 degrees (Table 3-6). -/
def ledgerBin (t : Int) : Nat :=
  if t < 100 then 0 else if t < 280 then 1 else if t < 360 then 2 else if t < 440 then 3 else if t < 500 then 4
  else if t < 540 then 5 else if t < 600 then 6 else 7
/-- WEAR_LEDGER_TICK: a second goes to the bin of T_hot. -/
def execWearLedgerTick (s : State) : Out3 :=
  onLive s fun s =>
    if !s.flag almA ALM_STATUS_ENABLED then s
    else
      let b := ledgerBin s.tHot
      let l := (List.range 8).map (fun i => (s.alm.ledger[i]?).getD 0 + b2n (i = b))
      ((s.withAlm { s.alm with ledger := l, pendLedger := true }).wr (almA + ALM_LEDGER + 4 * b)
        (wd ((l[b]?).getD 0 / 60))).showHolding

end Sys2Proof.Machine
end

