-- ==== Sys2Proof/Machine/DramMap.lean ====
section
/-! DEFINITION. The DRAM address mapping (R304, R309, R310, R312), and whether an access reaches working channels (R38, R323). -/
namespace Sys2Proof.Machine

/-- XOR of the bits of a number. -/
def parity (n : Nat) : Nat := ((List.range 64).filter (fun i => n.testBit i)).length % 2

/-- CAP in GiB, and whether the value is defined (DMC_GEOM). -/
def capOk (c : Nat) : Bool := [2, 3, 4, 6, 8, 12, 16].contains c
def State.capBytes (s : State) : Nat := s.fld dmcA DMC_GEOM_CAP * 2 ^ 30
/-- Bytes of a channel's data region (R306). -/
def State.dataBytes (s : State) : Nat := s.capBytes / 16 * 15
def State.usableBytes (s : State) : Nat := s.fld dmcA DMC_USABLE_MIB * 2 ^ 20
/-- The pairs in use, ascending. -/
def State.pairs (s : State) : List Nat := (List.range 8).filter (fun e => (s.fld dmcA DMC_CHCFG_PAIR_USE).testBit e)
/-- A channel mask and a bank mask in force (R311). -/
def State.chMask (s : State) (k : Nat) : Nat := (s.masks.ch[k]?).getD 0
def State.bankMask (s : State) (k : Nat) : Nat := (s.masks.bank[k]?).getD 0

/-- The hash bits of a granule row (R309). -/
def State.hashBit (s : State) (q k : Nat) : Nat := parity (q &&& s.chMask k)
def State.hashH (s : State) (q : Nat) : Nat := s.hashBit q 1 + 2 * s.hashBit q 2 + 4 * s.hashBit q 3

/-- Channel and channel address of a device address below the usable capacity (R309). -/
def State.chanOf (s : State) (a : Nat) : Nat × Nat :=
  let ps := s.pairs
  let p2 := 2 * ps.length
  let g := a / 256
  let q := g / p2
  let r := g % p2
  let e := (ps[(r / 2 + s.hashH q) % ps.length]?).getD 0
  (2 * e + (r % 2 + s.hashBit q 0) % 2, 256 * q + a % 256)

/-- The device address of a channel address of the data region, or none (the mapping of R309 read backwards). -/
def State.devAddr (s : State) (ch l : Nat) : Option Nat :=
  let p2 := 2 * s.pairs.length
  ((List.range p2).map (fun r => (l / 256 * p2 + r) * 256 + l % 256)).find? (fun a => s.chanOf a = (ch, l))

/-- A channel address cut into sub-channel, column burst, bank, rank and row (Table 13-2). -/
def State.cutAddr (s : State) (l : Nat) : Nat × Nat × Nat × Nat × Nat :=
  let two := s.flag dmcA DMC_GEOM_RANKS
  let bank := (List.range 4).foldl (fun b k => b + 2 ^ k * parity (l &&& (s.bankMask k * 4096))) 0
  let per := s.capBytes / (if two then 2 else 1)
  (bits l 6 6, bits l 11 7, bank, if two then l / per else 0, l % per / 65536)

/-- DCHn is frozen (R323). -/
def State.chFrozen (s : State) (n : Nat) : Bool := s.flag (dchA n) DCH_STATUS_FROZEN

/-- The DRAM behind n bytes from an address answers: below the usable capacity, on channels not frozen (R38, R323). -/
def State.dramOk (s : State) (a n : Nat) : Bool :=
  decide (a + n ≤ s.usableBytes) &&
    (List.range ((a + n + 255) / 256 - a / 256)).all (fun i => !s.chFrozen (s.chanOf ((a / 256 + i) * 256)).1)

end Sys2Proof.Machine
end

