-- ==== Sys2Proof/Machine/Bus.lean ====
section
/-! DEFINITION. The device physical address space (R35 to R39, Table 1-7) and the outbound window (R342). -/
namespace Sys2Proof.Machine

/-- What lies at a device physical address (Table 1-7, R37). -/
inductive Region where
  | dram | outbound | cluster (k : Nat) | control | reserved
  deriving DecidableEq, Repr

def regionOf (a : Nat) : Region :=
  if a < 0x4000000000 then .dram
  else if a < 0x8000000000 then .reserved
  else if a < 0xC000000000 then .outbound
  else if 0xE000000000 ≤ a ∧ a < 0xE004000000 then
    (if (a - 0xE000000000) % 0x400000 < 0x200000 then .cluster ((a - 0xE000000000) / 0x400000) else .reserved)
  else if 0xF000000000 ≤ a ∧ a < 0xF010000000 then .control
  else .reserved

/-- The device physical address of a byte of cluster memory. -/
def clusterAddr (k off : Nat) : Nat := 0xE000000000 + k * 0x400000 + off

/-- The host address behind an address of the outbound window; none where no translation is valid (R342). -/
def State.hostAddr (s : State) (a : Nat) : Option Nat :=
  let n := (a - 0x8000000000) / 0x400000000
  if s.flag pcieA (PCIE_OB_LO_V.nth 8 n) then
    some (s.fld pcieA (PCIE_OB_HI_ADDR.nth 8 n) * 2 ^ 32 + s.fld pcieA (PCIE_OB_LO_ADDR.nth 8 n) * 4096 +
      (a - 0x8000000000) % 0x400000000)
  else none

/-! ### What is queued at the channels comes first (R307, R316) -/

/-- The bytes that a request touches: a read its 64-byte range, a write its bytes. -/
def DramReq.lo (q : DramReq) : Nat := if q.write then q.addr else q.addr / 64 * 64
def DramReq.hi (q : DramReq) : Nat :=
  if q.back then q.addr + 32 else if q.write then q.addr + q.data.length else q.addr / 64 * 64 + 64
def DramReq.overlaps (a b : DramReq) : Bool := decide (a.lo < b.hi) && decide (b.lo < a.hi)
/-- Two requests touch a common 32-byte unit. -/
def DramReq.shares (a b : DramReq) : Bool := decide (a.lo / 32 ≤ (b.hi - 1) / 32) && decide (b.lo / 32 ≤ (a.hi - 1) / 32)
/-- Requests in order of arrival. -/
def mergeSeq : List DramReq → List DramReq → List DramReq
  | [], l => l
  | a :: t, l => (l.takeWhile (fun b => b.seq < a.seq)) ++ a :: mergeSeq t (l.dropWhile (fun b => b.seq < a.seq))

/-- A write is performed: its bytes reach memory (R307, R309). -/
def State.performWrite (s : State) (n : Nat) (q : DramReq) : State :=
  match s.devAddr n q.addr with
  | some a => s.setMemBytes a q.data
  | none => s
/-- A read as it is performed: it holds the 64 bytes then in memory, if it does not hold them already. -/
def State.readNow (s : State) (n : Nat) (q : DramReq) : DramReq :=
  if q.scrub || q.data != [] then q
  else
    match s.devAddr n (q.addr / 64 * 64) with
    | some a => { q with data := s.memBytes a 64 }
    | none => q

/-- Some unit of a request lies in n bytes from a. -/
def State.touches (s : State) (ch a n : Nat) (q : DramReq) : Bool :=
  match s.devAddr ch (q.lo / 32 * 32) with
  | some b => decide (b < a + n) && decide (a < b + ((q.hi - 1) / 32 + 1 - q.lo / 32) * 32)
  | none => false

/-- One request of a queue is performed in its turn: a write at once, a read keeps its bytes until it returns. -/
def State.performOne (s : State) (n : Nat) (q : DramReq) : State :=
  if q.write then s.performWrite n q
  else s.setDch n { s.dch n with rdQ := (s.dch n).rdQ.map (fun r => if r.seq = q.seq then s.readNow n r else r) }

/-- An access of another block meets requests of a channel: read-modify-writes under way are completed, and what is queued is
performed in order of arrival (R307, R316, notes/assumptions/44.md). -/
def State.queuedCh (s : State) (a n ch : Nat) : State :=
  let d := s.dch ch
  let open' := (d.flight.map (·.req)).filter (·.write)
  if (open' ++ d.rdQ ++ d.wrQ).any (s.touches ch a n) then
    let s1 := open'.foldl (fun t q => t.performWrite ch q) s
    let s2 := (mergeSeq d.rdQ d.wrQ).foldl (fun t q => t.performOne ch q) s1
    (s2.setDch ch { s2.dch ch with wrQ := [], level := false, flight := d.flight.filter (fun f => !f.req.write) }).setFld (dchA ch)
      DCH_QLEVEL_WRQ 0
  else s
/-- Nothing is queued or under way at any channel. -/
def State.dramIdle (s : State) : Bool := s.dchs.all (fun d => d.rdQ = [] && d.wrQ = [] && d.flight = [])
/-- Every channel gives way. -/
def State.queuedFirst (s : State) (a n : Nat) : State :=
  if s.dramIdle then s else (List.range 16).foldl (fun t ch => t.queuedCh a n ch) s

/-- A read by a requester, not of the control space: its bytes, or none for poison (R38, R323). A request lies where its first
byte lies, and one that runs past the usable capacity is above it as a whole (notes/assumptions/72.md). -/
def State.busRead (s : State) (r : Req) (a n : Nat) : Option (List Byte) × State :=
  match regionOf a with
  | .dram =>
    if a + n > s.usableBytes then (none, s.addressError 0 r a false)
    else
      let t := s.queuedFirst a n
      (if s.dramOk a n then some (t.memBytes a n) else none, t)
  | .cluster _ => (some (s.memBytes a n), s)
  | .outbound =>
    match s.hostAddr a with
    | some h => (if s.flag pcieA PCIE_STATUS_DL_UP then some (s.hostBytes h n) else none, s)
    | none => (none, s.addressError 0 r a false)
  | _ => (none, s.addressError 0 r a false)

/-- A write by a requester, not to the control space; false when it is discarded (R38, R323). -/
def State.busWrite (s : State) (r : Req) (a : Nat) (b : List Byte) : Bool × State :=
  match regionOf a with
  | .dram =>
    if a + b.length > s.usableBytes then (false, s.addressError 0 r a true)
    else if s.dramOk a b.length then (true, (s.queuedFirst a b.length).setMemBytes a b) else (false, s)
  | .cluster _ => (true, s.setMemBytes a b)
  | .outbound =>
    match s.hostAddr a with
    | some h =>
      (true, if s.flag pcieA PCIE_STATUS_DL_UP then (s.setHostBytes h b).emit .pcie 1 (h :: b.map (·.toNat)) else s)
    | none => (false, s.addressError 0 r a true)
  | _ => (false, s.addressError 0 r a true)

/-- Bytes written by a unit: a write that R38 discards is an address error of the unit; frozen channels discard it (R323). -/
def State.put (s : State) (r : Req) (a : Nat) (b : List Byte) : State := (s.busWrite r a b).2
/-- The bytes that a unit reads, zero for poison. -/
def State.peek (s : State) (r : Req) (a n : Nat) : List Byte := (s.busRead r a n).1.getD (List.replicate n 0)
/-- Little-endian numbers of n bytes each. -/
def numsOf (n : Nat) (b : List Byte) : List Nat := (List.range (b.length / n)).map (fun i => leNat ((b.drop (n * i)).take n))
/-- Bytes that a unit reads, zero for poison: whether they are poisoned, and the state with an address error where R38 has one. -/
def State.take (s : State) (r : Req) (a n : Nat) : List Byte × Bool × State :=
  let x := s.busRead r a n
  (x.1.getD (List.replicate n 0), x.1.isNone, x.2)

end Sys2Proof.Machine
end

