-- ==== Sys2Proof/Machine/Float.lean ====
section
/-! DEFINITION. Binary floating point in exact arithmetic: binary32, binary16 and PF20 (R154 to R156), one rounding per
operation, to nearest, ties to even. -/
namespace Sys2Proof.Machine

/-- A format: exponent bits and mantissa bits; below them the sign. -/
structure Fmt where
  eb : Nat
  mb : Nat
  deriving DecidableEq, Repr

def f32 : Fmt := ⟨8, 23⟩
def f16 : Fmt := ⟨5, 10⟩
def fPF20 : Fmt := ⟨5, 14⟩

/-- The bias of the exponent. -/
def Fmt.bias (f : Fmt) : Nat := 2 ^ (f.eb - 1) - 1
/-- The pattern of +infinity. -/
def Fmt.infPat (f : Fmt) : Nat := (2 ^ f.eb - 1) * 2 ^ f.mb
/-- The sign bit. -/
def Fmt.signBit (f : Fmt) : Nat := 2 ^ (f.eb + f.mb)
/-- The quiet NaN with no payload. -/
def Fmt.qnan (f : Fmt) : Nat := f.infPat + 2 ^ (f.mb - 1)

/-- A value: NaN, an infinity, or (-1)^neg * n / d * 2^e with d > 0. -/
inductive FVal where
  | nan
  | inf (neg : Bool)
  | fin (neg : Bool) (n d : Nat) (e : Int)
  deriving DecidableEq, Repr

/-- The value of a pattern. -/
def Fmt.val (f : Fmt) (p : Nat) : FVal :=
  let neg := p.testBit (f.eb + f.mb)
  let ex := (p >>> f.mb) % 2 ^ f.eb
  let m := p % 2 ^ f.mb
  if ex = 2 ^ f.eb - 1 then (if m = 0 then .inf neg else .nan)
  else if ex = 0 then .fin neg m 1 (1 - (f.bias : Int) - f.mb)
  else .fin neg (2 ^ f.mb + m) 1 ((ex : Int) - f.bias - f.mb)

/-- n / d rounded to an integer, ties to even. -/
def rneDiv (n d : Nat) : Nat :=
  let q := n / d
  let r := n % d
  if 2 * r < d then q else if 2 * r > d then q + 1 else q + q % 2

/-- floor (log2 (n / d)) for n, d > 0. -/
def ilog2 (n d : Nat) : Int :=
  let k : Int := (Nat.log2 n : Int) - (Nat.log2 d : Int)
  let ge (k : Int) : Bool := if 0 ≤ k then decide (d * 2 ^ k.toNat ≤ n) else decide (d ≤ n * 2 ^ (-k).toNat)
  if ge (k + 1) then k + 1 else if ge k then k else k - 1

/-- The magnitude pattern nearest to n / d * 2^e; the infinity pattern or more means overflow. -/
def Fmt.mag (f : Fmt) (n d : Nat) (e : Int) : Nat :=
  if n = 0 then 0
  else
    let emin : Int := 1 - (f.bias : Int) - f.mb
    let q := max (ilog2 n d + e - f.mb) emin
    let t := e - q
    let r := if 0 ≤ t then rneDiv (n * 2 ^ t.toNat) d else rneDiv n (d * 2 ^ (-t).toNat)
    (q - emin).toNat * 2 ^ f.mb + r

/-- IEEE 754 rounding: overflow gives an infinity, a zero keeps its sign. -/
def Fmt.round (f : Fmt) : FVal → Nat
  | .nan => f.qnan
  | .inf neg => (if neg then f.signBit else 0) + f.infPat
  | .fin neg n d e => (if neg then f.signBit else 0) + min (f.mag n d e) f.infPat

/-- Rounding to PF20, and of a written binary16 value: overflow takes the largest value of the sign, a NaN and every zero
are +0 (R155, R156). -/
def Fmt.clampRound (f : Fmt) : FVal → Nat
  | .nan => 0
  | .inf neg => (if neg then f.signBit else 0) + (f.infPat - 1)
  | .fin neg n d e =>
    let m := f.mag n d e
    if m = 0 then 0 else (if neg then f.signBit else 0) + min m (f.infPat - 1)

def FVal.neg : FVal → FVal
  | .nan => .nan
  | .inf s => .inf (!s)
  | .fin s n d e => .fin (!s) n d e
def FVal.abs : FVal → FVal
  | .nan => .nan
  | .inf _ => .inf false
  | .fin _ n d e => .fin false n d e

/-- Exact sum; an exact zero of two different signs is +0. -/
def FVal.add : FVal → FVal → FVal
  | .nan, _ => .nan
  | _, .nan => .nan
  | .inf a, .inf b => if a = b then .inf a else .nan
  | .inf a, _ => .inf a
  | _, .inf b => .inf b
  | .fin a n d e, .fin b m c k =>
    let lo := min e k
    let x : Int := ((n * c * 2 ^ (e - lo).toNat : Nat) : Int) * (if a then -1 else 1)
    let y : Int := ((m * d * 2 ^ (k - lo).toNat : Nat) : Int) * (if b then -1 else 1)
    let z := x + y
    if z = 0 then .fin (a && b) 0 1 0 else .fin (decide (z < 0)) z.natAbs (d * c) lo

/-- Exact product. -/
def FVal.mul : FVal → FVal → FVal
  | .nan, _ => .nan
  | _, .nan => .nan
  | .inf a, .inf b => .inf (a != b)
  | .inf a, .fin b m _ _ => if m = 0 then .nan else .inf (a != b)
  | .fin a n _ _, .inf b => if n = 0 then .nan else .inf (a != b)
  | .fin a n d e, .fin b m c k => .fin (a != b) (n * m) (d * c) (e + k)

/-- Exact quotient. -/
def FVal.div : FVal → FVal → FVal
  | .nan, _ => .nan
  | _, .nan => .nan
  | .inf _, .inf _ => .nan
  | .inf a, .fin b _ _ _ => .inf (a != b)
  | .fin a _ _ _, .inf b => .fin (a != b) 0 1 0
  | .fin a n d e, .fin b m c k =>
    if m = 0 then (if n = 0 then .nan else .inf (a != b)) else .fin (a != b) (n * c) (d * m) (e - k)

/-- a < b; false with a NaN. -/
def FVal.lt (a b : FVal) : Bool :=
  match a, b with
  | .nan, _ => false
  | _, .nan => false
  | .inf x, .inf y => x && !y
  | .inf x, _ => x
  | _, .inf y => !y
  | a, b =>
    match a.add b.neg with
    | .fin s n _ _ => s && n != 0
    | _ => false
/-- a = b as numbers; false with a NaN. -/
def FVal.eq (a b : FVal) : Bool := a != .nan && b != .nan && !a.lt b && !b.lt a

/-- An integer. -/
def FVal.ofInt (i : Int) : FVal := .fin (decide (i < 0)) i.natAbs 1 0
/-- i * 2^e. -/
def FVal.scaled (i : Int) (e : Int) : FVal := .fin (decide (i < 0)) i.natAbs 1 e
/-- n / d. -/
def FVal.ratio (i : Int) (d : Nat) : FVal := .fin (decide (i < 0)) i.natAbs d 0

/-- The largest integer not above a finite value times 2^k; infinities and NaN give 0. -/
def FVal.floorScaled (v : FVal) (k : Nat) : Int :=
  match v with
  | .fin s n d e =>
    let e' := e + k
    let num : Int := ((if 0 ≤ e' then n * 2 ^ e'.toNat else n) : Nat) * (if s then -1 else 1)
    let den : Nat := if 0 ≤ e' then d else d * 2 ^ (-e').toNat
    Int.fdiv num den
  | _ => 0
/-- The nearest integer, halves up (R176). -/
def FVal.nearest (v : FVal) : Int := (v.add (.fin false 1 1 (-1))).floorScaled 0

/-! ### The arithmetic of R155: binary32, and a NaN result is +0 -/

/-- One operation's result. -/
def r155 (v : FVal) : Nat := match v with | .nan => 0 | v => f32.round v
def fv (p : Nat) : FVal := f32.val p
def fAdd (a b : Nat) : Nat := r155 ((fv a).add (fv b))
def fSub (a b : Nat) : Nat := r155 ((fv a).add (fv b).neg)
def fMul (a b : Nat) : Nat := r155 ((fv a).mul (fv b))
def fDiv (a b : Nat) : Nat := r155 ((fv a).div (fv b))
def fAbs (a : Nat) : Nat := a % 2 ^ 31
def fNeg (a : Nat) : Nat := if a < 2 ^ 31 then a + 2 ^ 31 else a - 2 ^ 31
def fLt (a b : Nat) : Bool := (fv a).lt (fv b)
def fLe (a b : Nat) : Bool := !(fv b).lt (fv a)
def fMax (a b : Nat) : Nat := if fLt a b then b else a
def fMin (a b : Nat) : Nat := if fLt b a then b else a
/-- a clamped to lo..hi. -/
def fClamp (lo hi a : Nat) : Nat := fMin hi (fMax lo a)
/-- An integer as binary32. -/
def fInt (i : Int) : Nat := r155 (.ofInt i)
/-- i * 2^e as binary32. -/
def fScaled (i e : Int) : Nat := r155 (.scaled i e)
/-- The decimal constant i / d as binary32. -/
def fRatio (i : Int) (d : Nat) : Nat := r155 (.ratio i d)
def fOne : Nat := 0x3F800000
/-- Left to right sum. -/
def fSum : List Nat → Nat
  | [] => 0
  | x :: t => t.foldl fAdd x
/-- Sum of products, left to right. -/
def fDot (c x : List Nat) : Nat := fSum (List.zipWith fMul c x)
/-- The mean, summed left to right. -/
def fMean (l : List Nat) : Nat := if l = [] then 0 else fDiv (fSum l) (fInt l.length)

/-- PF20 to binary32, exactly. -/
def pfTo32 (p : Nat) : Nat := f32.round (fPF20.val p)
/-- A stage's result as PF20 (R155). -/
def toPF (p : Nat) : Nat := fPF20.clampRound (fv p)
/-- binary16 to binary32, exactly. -/
def halfTo32 (p : Nat) : Nat := f32.round (f16.val p)
/-- binary16 to PF20, exactly (R156). -/
def halfToPF (p : Nat) : Nat := fPF20.clampRound (f16.val p)
/-- PF20 to a written binary16 (R156). -/
def pfToHalf (p : Nat) : Nat := f16.clampRound (fPF20.val p)

end Sys2Proof.Machine
end

