-- ==== Sys2Proof/Machine/Trans.lean ====
section
/-! DEFINITION. Logarithm, power, sine, cosine and arc tangent in fixed point with 160 fraction bits, for the formulas that
the spec names (notes/assumptions/27.md). -/
namespace Sys2Proof.Machine

/-- The fraction bits. -/
abbrev trB : Nat := 160
/-- 1 in fixed point. -/
def trOne : Int := (2 : Int) ^ trB
/-- Product of fixed-point numbers. -/
def trMul (a b : Int) : Int := Int.fdiv (a * b) trOne
/-- n / d in fixed point. -/
def trRatio (n : Int) (d : Nat) : Int := Int.fdiv (n * trOne) d

/-- z + z^3/3 + z^5/5 + ..., `n` terms; `s` = 1, or -1 for alternating signs. -/
def trOddSeries (s : Int) (z2 : Int) : Nat → Int → Nat → Int
  | 0, _, _ => 0
  | n + 1, t, k => Int.fdiv t k + trOddSeries s z2 n (s * trMul t z2) (k + 2)

/-- ln 2 = 2 atanh (1/3). -/
def trLn2 : Int :=
  let z := trRatio 1 3
  2 * trOddSeries 1 (trMul z z) 60 z 1

/-- ln (n / d * 2^e) for n, d > 0. -/
def trLn (n d : Nat) (e : Int) : Int :=
  let k := ilog2 n d
  let num : Nat := if 0 ≤ k then n else n * 2 ^ (-k).toNat
  let den : Nat := if 0 ≤ k then d * 2 ^ k.toNat else d
  -- 1 <= num / den < 2
  let z := trRatio ((num : Int) - den) (num + den)
  2 * trOddSeries 1 (trMul z z) 60 z 1 + (k + e) * trLn2

/-- 1 + r + r^2/2 + ... -/
def trExpSeries (r : Int) : Nat → Int → Nat → Int
  | 0, _, _ => 0
  | n + 1, t, k => t + trExpSeries r n (Int.fdiv (trMul t r) k) (k + 1)

/-- exp y as a value. -/
def trExp (y : Int) : FVal :=
  let k := Int.fdiv y trLn2
  let r := y - k * trLn2
  .fin false (trExpSeries r 50 trOne 1).toNat 1 (k - trB)

/-- x^(p) for a finite x > 0, p in fixed point. -/
def FVal.powFix (x : FVal) (p : Int) : FVal :=
  match x with
  | .fin _ n d e => if n = 0 then .fin false 0 1 0 else trExp (trMul p (trLn n d e))
  | v => v

/-- ln x for a finite x > 0. -/
def FVal.ln (x : FVal) : FVal :=
  match x with
  | .fin _ n d e => if n = 0 then .inf true else .scaled (trLn n d e) (-(trB : Int))
  | v => v

/-- The square root of a finite x >= 0, rounded into a format. -/
def Fmt.sqrt (f : Fmt) (x : FVal) : Nat :=
  match x with
  | .fin _ n d e =>
    if n = 0 then 0
    else
      -- n / d * 2^e = (n * d * 4^60 * 2^(e mod 2)) * 2^(e - e mod 2 - 120) / d^2
      let m := n * d * 2 ^ 240 * 2 ^ (e % 2).toNat
      let r := Nat.sqrt m
      let sticky := 2 * r + b2n (decide (r * r < m))
      f.round (.fin false sticky d (Int.fdiv e 2 - 121))
  | v => f.round v

/-- pi = 16 atan (1/5) - 4 atan (1/239). -/
def trPi : Int :=
  let a := trRatio 1 5
  let b := trRatio 1 239
  16 * trOddSeries (-1) (trMul a a) 80 a 1 - 4 * trOddSeries (-1) (trMul b b) 40 b 1

/-- x - x^3/3! + x^5/5! - ... -/
def trSinSeries (x2 : Int) : Nat → Int → Nat → Int
  | 0, _, _ => 0
  | n + 1, t, k => t + trSinSeries x2 n (Int.fdiv (-(trMul t x2)) ((k + 1) * (k + 2))) (k + 2)

/-- sin of an angle in fixed point. -/
def trSin (x : Int) : Int :=
  let r := x % (2 * trPi)
  let y := if r > trPi then r - 2 * trPi else r
  trSinSeries (trMul y y) 50 y 1
def trCos (x : Int) : Int := trSin (x + Int.fdiv trPi 2)

/-- atan t for 0 <= t <= 1, by atan t = 2 atan (t / (1 + sqrt (1 + t^2))), twice. -/
def trAtan1 (t : Int) : Int :=
  let half (t : Int) : Int :=
    let r : Int := Nat.sqrt ((trOne * trOne + t * t).toNat)
    Int.fdiv (t * trOne) (trOne + r)
  let u := half (half t)
  4 * trOddSeries (-1) (trMul u u) 60 u 1

/-- The angle of (x, y) as a fraction of a turn in fixed point, 0 <= result < 1; 0 for the origin. -/
def trTurn (x y : Int) : Int :=
  if x = 0 ∧ y = 0 then 0
  else
    let ax := x.natAbs
    let ay := y.natAbs
    let a := if ay ≤ ax then trAtan1 (trRatio ay ax) else Int.fdiv trPi 2 - trAtan1 (trRatio ax ay)
    let b := if x < 0 then trPi - a else a
    let c := if y < 0 then -b else b
    (Int.fdiv (c * trOne) (2 * trPi)) % trOne

end Sys2Proof.Machine
end

