-- ==== Sys2Proof/Machine/CalOps.lean ====
section
/-! DEFINITION. The frame calendar's operations shared with the two-wire controllers: entries, misses, items (R114 to R120). -/
namespace Sys2Proof.Machine

def freeEntry (_ : Nat) : CalEntry := {}
def State.calEntry (s : State) (p i : Nat) : CalEntry := UMap.get freeEntry (s.cal p).entries i
def State.setCalEntry (s : State) (p i : Nat) (e : CalEntry) : State :=
  s.setCal p { s.cal p with entries := UMap.set freeEntry (s.cal p).entries i e }
/-- An entry becomes free. -/
def State.freeCalEntry (s : State) (p i : Nat) : State := s.setCalEntry p i { s.calEntry p i with state := 0, retries := 0, acked := 0 }

/-- The calendar works: enabled, and its port enabled (CAL_CTRL). -/
def State.calRuns (s : State) (p : Nat) : Bool := s.flag (calA p) CAL_CTRL_EN && s.flag (campA p) CAMP_CTRL_EN

/-- CAL_ID of an entry (R115). -/
def CalEntry.calId (e : CalEntry) (i : Nat) : Nat := e.tag * 256 + i

/-- The frame whose trigger and deadline serve an entry: F - K - 1 (R117). -/
def State.trigFrame (s : State) (p : Nat) (e : CalEntry) : Nat :=
  (e.target + 2 ^ 32 - s.fld (calA p) CAL_CTRL_K - 1) % 2 ^ 32

/-- QLEVEL shows the items queued. -/
def State.showQ (s : State) (c : Nat) : State := s.setFld (twcA c) TWC_STATUS_QLEVEL (s.twc c).queue.length

/-- Items of an entry that have not begun leave a controller's queue. -/
def State.unqueue (s : State) (c p i : Nat) : State :=
  let t := s.twc c
  let begun (x : TwcItem) : Bool := decide (t.cur = some (.item x))
  (s.setTwc c { t with queue := t.queue.filter (fun x => !(x.port = p && x.entry = i) || begun x) }).showQ c

/-- The writes of an entry miss (R119): counted, its frame carries MISSED, and the entry is freed or aimed at the next frame. -/
def State.calMiss (s : State) (p i : Nat) : State :=
  let e := s.calEntry p i
  let b := calA p
  let s1 := (((s.incFld b CAL_CNT_MISSES 1).setFld b CAL_MISS_LAST_MISSED_ID (e.calId i)).setFlag b CAL_STATUS_MISS true).unqueue
    (s.fld b CAL_CTRL_TWC) p i
  let c1 := s1.cal p
  let s2 := s1.setCal p { c1 with missed := e.target :: c1.missed, waiting := c1.waiting.filter (fun x => x.entry ≠ i) }
  if s.flag b CAL_CTRL_MISS_POLICY && decide (e.retries < s.fld b CAL_CTRL_MAX_RETRY) then
    s2.setCalEntry p i { e with target := (e.target + 1) % 2 ^ 32, state := 1, retries := e.retries + 1, acked := 0 }
  else s2.freeCalEntry p i

/-- An item belongs to the round of its entry that is being written: one left over from a round that missed does not (R119). -/
def State.inRound (s : State) (x : TwcItem) : Bool :=
  (s.calEntry x.port x.entry).state = 2 && (s.calEntry x.port x.entry).target = x.target
/-- The writes of an item's round miss (R118). -/
def State.itemMiss (s : State) (x : TwcItem) : State := if s.inRound x then s.calMiss x.port x.entry else s
/-- An item is acknowledged by its deadline, and with the last one the entry is written; after it the writes have missed (R117,
R118). -/
def State.calAck (s : State) (x : TwcItem) : State :=
  let e := s.calEntry x.port x.entry
  if !s.inRound x then s
  else if x.deadline < s.nowNs then s.calMiss x.port x.entry
  else s.setCalEntry x.port x.entry { e with acked := e.acked + 1, state := if e.acked + 1 = e.wlCount then 3 else 2 }

/-- The sensor-write items of an entry, in list order (Table 5-2). -/
def State.calItems (s : State) (p i deadline : Nat) : List TwcItem :=
  let e := s.calEntry p i
  (List.range e.wlCount).map (fun k =>
    let w0 := (s.tget .writeList p (2 * (e.wlStart + k))).toNat
    let w1 := (s.tget .writeList p (2 * (e.wlStart + k) + 1)).toNat
    { port := p, entry := i, target := e.target, order := k, deadline := deadline, dev := bits w0 6 0, alen := bits w0 9 8
      reg := bits w0 31 16, dlen := bits w0 11 10 + 1, data := w1 })

/-- Items that wait in the calendars of a controller enter its queue while it has room for them (64, R443). -/
def State.refill (s : State) (c : Nat) : State :=
  ((List.range 12).foldl (fun t p =>
    if t.fld (calA p) CAL_CTRL_TWC = c then
      let room := 64 - (t.twc c).queue.length
      let k := t.cal p
      (t.setTwc c { t.twc c with queue := (t.twc c).queue ++ k.waiting.take room }).setCal p { k with waiting := k.waiting.drop room }
    else t) s).showQ c

end Sys2Proof.Machine
end

