-- ==== Sys2Proof/Machine/TwoWire.lean ====
section
/-! DEFINITION. The two-wire controllers (R442 to R450). -/
namespace Sys2Proof.Machine

/-- SCL_STUCK or SDA_STUCK is raised: no transfer starts (R448). -/
def State.twcStuck (s : State) (c : Nat) : Bool :=
  s.flag (twcA c) TWC_STATUS_SCL_STUCK || s.flag (twcA c) TWC_STATUS_SDA_STUCK

/-- a starts before b: the earlier deadline, then CAL index, then entry and list order (R443). -/
def TwcItem.before (a b : TwcItem) : Bool :=
  decide (a.deadline < b.deadline ∨ (a.deadline = b.deadline ∧ (a.port < b.port ∨
    (a.port = b.port ∧ (a.entry < b.entry ∨ (a.entry = b.entry ∧ a.order < b.order))))))

/-- The item to start first. -/
def firstItem : List TwcItem → Option TwcItem
  | [] => none
  | x :: t => match firstItem t with | none => some x | some y => if y.before x then some y else some x

/-- The bytes of an item: target address, register address and data, each most significant byte first (R116). -/
def TwcItem.bytes (i : TwcItem) : List Nat :=
  i.dev :: ((toBytesBE i.alen i.reg) ++ toBytesBE i.dlen i.data).map (·.toNat)

/-- The software transfer's bytes (TWC_CMD, TWC_REG, TWC_DATA). -/
def State.swBytes (s : State) (c : Nat) : List Nat :=
  let b := twcA c
  let reg := toBytesBE (min 2 (s.fld b TWC_CMD_ALEN)) (s.fld b TWC_REG_REG)
  let len := min 8 (s.fld b TWC_CMD_LEN)
  let data := toBytes len ((s.rd (b + TWC_DATA0)).toNat + (s.rd (b + TWC_DATA1)).toNat * 2 ^ 32)
  s.fld b TWC_CMD_DEV :: (reg ++ if s.flag b TWC_CMD_READ then [] else data).map (·.toNat)

/-- The bytes of the read of an enrolment entry (R450). -/
def State.lanternBytes (s : State) (c k : Nat) : List Nat :=
  let w := (s.tget .lantern c k).toNat
  bits w 6 0 :: (toBytesBE (bits w 25 24) (bits w 23 8)).map (·.toNat)

/-- A transfer begins with START. -/
def State.twcBegin (s : State) (c : Nat) (x : XferKind) : State :=
  let t := s.twc c
  let data := match x with
    | .item i => i.bytes
    | .lantern k => s.lanternBytes c k
    | .software => s.swBytes c
  (((s.setTwc c { t with cur := some x, onBus := true, busy := true }).setFlag (twcA c) TWC_STATUS_BUSY true).setFlag (twcA c)
    TWC_STATUS_BUS_BUSY true).emit (.twoWire (Fin.ofNat 9 c)) 1 data

/-- Items whose START could only be at or after their deadline are late: not started, reported missed (R444). -/
def State.dropLate (s : State) (c : Nat) : State :=
  ((s.twc c).queue.filter (fun x => x.deadline ≤ s.nowNs && (s.twc c).cur != some (.item x))).foldl (fun t x =>
    let t1 := t.incFld (twcA c) TWC_CNT2_LATE_ITEMS 1
    if t1.inRound x then t1.calMiss x.port x.entry else t1.unqueue c x.port x.entry) s

/-- The first item that may be sent; a list that meets a reserved ALEN counts as missed (R116). -/
def State.pickItem (s : State) (c : Nat) : Nat → State × Option TwcItem
  | 0 => (s, none)
  | n + 1 =>
    match firstItem (s.twc c).queue with
    | none => (s, none)
    | some x => if x.alen = 1 ∨ x.alen = 2 then (s, some x) else State.pickItem (s.calMiss x.port x.entry) c n

/-- On a free bus the controller starts the transfer of highest priority: calendar items, Lantern polls, the software
transfer (R443). -/
def State.twcKick (s : State) (c : Nat) : State :=
  let s0 := (s.refill c).dropLate c
  if !s0.flag (twcA c) TWC_CTRL_EN || (s0.twc c).busy || (s0.twc c).cur != none || s0.twcStuck c then s0
  else
    let (s1, it) := s0.pickItem c 65
    match it with
    | some x => s1.twcBegin c (.item x)
    | none =>
      match (s1.twc c).poll with
      | k :: _ => s1.twcBegin c (.lantern k)
      | [] => if (s1.twc c).swWait then s1.twcBegin c .software else s1

/-- A poll starts: both masks are cleared, and the enabled entries are read in order (R450). -/
def State.startPoll (s : State) (c : Nat) : State :=
  ((s.setFld (twcA c) TWC_LSTAT_NZ 0).setFld (twcA c) TWC_LSTAT_FAIL 0).setTwc c
    { s.twc c with poll := (List.range 8).filter (fun k => (s.tget .lantern c k).toNat.testBit 31), callAgain := false }

/-- The current transfer is over: how it ended (RESULT), and what it read. -/
def State.twcEnd (s : State) (c result : Nat) (data : List Byte) : State :=
  let t := s.twc c
  let b := twcA c
  let s1 := (s.setTwc c { t with cur := none, onBus := false, retries := 0 }).setFlag b TWC_STATUS_BUSY false
  match t.cur with
  | none => s
  | some (.item x) =>
    let s2 := (s1.setTwc c { s1.twc c with queue := (s1.twc c).queue.filter (· ≠ x) }).showQ c
    if result = 0 then (s2.incFld b TWC_CNT2_ITEMS 1).calAck x else s2.itemMiss x
  | some (.lantern k) =>
    let v := match data with | d :: _ => d.toNat | [] => 0
    let s2 :=
      if result = 0 then
        (s1.setFld b ⟨if k < 4 then TWC_LRES0 else TWC_LRES1, 8 * (k % 4) + 7, 8 * (k % 4)⟩ v).setBit b TWC_LSTAT_NZ k (v ≠ 0)
      else s1.setBit b TWC_LSTAT_FAIL k true
    let s3 := s2.setTwc c { s2.twc c with poll := (s2.twc c).poll.drop 1 }
    if (s3.twc c).poll = [] && (s3.twc c).callAgain then s3.startPoll c else s3
  | some .software =>
    let len := min 8 (s.fld b TWC_CMD_LEN)
    let n := if result = 0 then len else min len data.length
    let v := leNat (data.take len)
    let s2 := ((((s1.setTwc c { s1.twc c with swWait := false }).setFlag b TWC_CMD_GO false).setFld b TWC_RES_RESULT result).setFlag b
      TWC_RES_DONE true).setFld b TWC_RES_COUNT n
    if s.flag b TWC_CMD_READ && result = 0 then (s2.wr (b + TWC_DATA0) (wd v)).wr (b + TWC_DATA1) (wd (v / 2 ^ 32)) else s2

/-- A software transfer that waits for the bus, for its first START or for a retry, while SCL or SDA is stuck ends at once with RESULT 6
(R448). -/
def State.swStuck (s : State) (c : Nat) : State :=
  let b := twcA c
  let t := s.twc c
  let mine := t.cur = some .software
  if t.swWait && !(mine && t.onBus) && s.twcStuck c then
    let s1 := if mine then (s.setTwc c { t with swWait := false, cur := none, retries := 0 }).setFlag b TWC_STATUS_BUSY false
      else s.setTwc c { t with swWait := false }
    ((s1.setFlag b TWC_CMD_GO false).setFld b TWC_RES_RESULT 6).setFlag b TWC_RES_DONE true
  else s

/-- GO: the software transfer waits for the bus (R443, R448). -/
def State.twcGo (s : State) (c : Nat) : State := ((s.setTwc c { s.twc c with swWait := true }).swStuck c).twcKick c

/-- The recovery sequence is due (R448). -/
def State.twcRecover (s : State) (c : Nat) : State :=
  if (s.twc c).onBus then s.setFlag (twcA c) TWC_CMD_RECOVER false else s.setTwc c { s.twc c with recovering := true }

/-- Writes of TWC registers with an effect of their own. -/
def twcWrite (x : WCtx) (c off : Nat) (a : Nat) (v m : Word) (s : State) : State × WRes :=
  if off = TWC_CMD then
    let was := s.flag (twcA c) TWC_CMD_GO
    let (s1, r) := s.genWrite x a v m
    let s2 := if (v &&& m).toNat.testBit 31 && !was then s1.twcGo c else s1
    (if (v &&& m).toNat.testBit 30 then s2.twcRecover c else s2, r)
  else if off = TWC_CTRL then
    let (s1, r) := s.genWrite x a v m
    (s1.twcKick c, r)
  else if off = TWC_LDATA then
    let k := s.fld (twcA c) TWC_LIDX_ENTRY
    let keep : Word := 0x83FFFF7F &&& m
    let new := (s.tget .lantern c k &&& ~~~ keep) ||| (v &&& keep)
    let s1 := s.tset .lantern c k new
    okW (if x.journal then s1.journal (alEntry a k) keep new else s1)
  else s.genWrite x a v m

/-- A read of TWC_LDATA shows the selected enrolment entry. -/
def twcRead (c off : Nat) (s : State) : Option (Word × State) :=
  if off = TWC_LDATA then some (s.tget .lantern c (s.fld (twcA c) TWC_LIDX_ENTRY), s) else none

def ctxOf (r : Req) : WCtx := ⟨r, .space, true⟩

/-- TWC_GO: a write of TWC_CMD whose GO is 1 (R443, R448). -/
def execTwcGo (r : Req) (c : Fin 8) (value : Word) (s : State) : Out3 :=
  onLive s fun s => (twcWrite (ctxOf r) c TWC_CMD (twcA c + TWC_CMD) (value ||| 0x80000000) 0xFFFFFFFF s).1

/-- TWC_RECOVER: a write of TWC_CMD whose RECOVER is 1 (R448). -/
def execTwcRecover (r : Req) (c : Fin 8) (value : Word) (s : State) : Out3 :=
  onLive s fun s => (twcWrite (ctxOf r) c TWC_CMD (twcA c + TWC_CMD) (value ||| 0x40000000) 0xFFFFFFFF s).1

/-- TWC_BUS_FREE: the bus is free: stuck flags clear, and the next transfer starts (R442, R443, R448). -/
def execTwcBusFree (c : Fin 8) (s : State) : Out3 :=
  onLive s fun s =>
    let b := twcA c
    ((((s.setTwc c { s.twc c with busy := false, sclLow := false, sdaLow := false }).setFlag b TWC_STATUS_BUS_BUSY false).setFlag b
      TWC_STATUS_SCL_STUCK false).setFlag b TWC_STATUS_SDA_STUCK false).twcKick c

/-- TWC_TRANSFER_DONE: the transfer on the bus ends with STOP (R444). A NACK is never retried. -/
def execTwcTransferDone (c : Fin 8) (result : XferResult) (data : List Byte) (s : State) : Out3 :=
  onLive s fun s =>
    if !(s.twc c).onBus then s
    else
      let b := twcA c
      match result with
      | .done => s.twcEnd c 0 data
      | .addrNack => ((s.setFlag b TWC_STATUS_NACK true).incFld b TWC_CNT_NACKS 1).twcEnd c 1 data
      | .dataNack => ((s.setFlag b TWC_STATUS_NACK true).incFld b TWC_CNT_NACKS 1).twcEnd c 2 data

/-- The transfer leaves the bus and waits to start again, or its retries have run out (R445, R446). -/
def State.twcLose (s : State) (c result : Nat) : State :=
  let t := s.twc c
  if t.retries < s.fld (twcA c) TWC_CTRL_RETRY_MAX then
    s.setTwc c { t with onBus := false, retries := t.retries + 1, retryBusErr := decide (result = 4) }
  else s.twcEnd c result []

/-- ARBITRATION_LOSS: ARB_LOST, and a retry or the end with RESULT 3 (R445). -/
def execArbitrationLoss (c : Fin 8) (s : State) : Out3 :=
  onLive s fun s =>
    if !(s.twc c).onBus then s
    else ((s.setFlag (twcA c) TWC_STATUS_ARB_LOST true).incFld (twcA c) TWC_CNT_ARB_LOSSES 1).twcLose c 3

/-- BUS_ERROR: BUS_ERR, and a retry or the end with RESULT 4 (R446). -/
def execBusError (c : Fin 8) (s : State) : Out3 :=
  onLive s fun s =>
    if !(s.twc c).onBus then s else (s.setFlag (twcA c) TWC_STATUS_BUS_ERR true).twcLose c 4

/-- TWC_RETRY: RETRY_US after the bus became free the transfer starts again; an item at or past its deadline ends (R444,
R445). -/
def execTwcRetry (c : Fin 8) (s : State) : Out3 :=
  onLive s fun s =>
    let t := s.twc c
    match t.cur with
    | none => s
    | some x =>
      if t.onBus || t.busy || s.twcStuck c || !s.flag (twcA c) TWC_CTRL_EN then s
      else
        match x with
        | .item i =>
          if i.deadline ≤ s.nowNs then (s.incFld (twcA c) TWC_CNT2_LATE_ITEMS 1).twcEnd c (if t.retryBusErr then 4 else 3) []
          else s.twcBegin c x
        | _ => s.twcBegin c x

/-- STRETCH_TIMEOUT: the bus is released and the transfer ends with RESULT 5 (R447); in long-bus mode
an SDA still low 10 us later starts the recovery (R448). -/
def execStretchTimeout (c : Fin 8) (sdaLow : Bool) (s : State) : Out3 :=
  onLive s fun s =>
    if !(s.twc c).onBus then s
    else
      let s1 := ((s.setFlag (twcA c) TWC_STATUS_STRETCH_TO true).incFld (twcA c) TWC_CNT_STRETCH_TOS 1).twcEnd c 5 []
      if s1.flag (twcA c) TWC_CTRL_LONG_BUS && sdaLow then s1.setTwc c { s1.twc c with recovering := true, sdaLow := true } else s1

/-- BUS_RECOVERY: up to nine SCL pulses with SDA sampled after each; a high SDA ends it with STOP and RECOVERED, nine lows
raise SDA_STUCK; no pulse is sent while SCL is held low (R448). -/
def execBusRecovery (c : Fin 8) (sda : List Bool) (s : State) : Out3 :=
  onLive s fun s =>
    let b := twcA c
    if !(s.twc c).recovering then s
    else if (s.twc c).sclLow then s.setFlag b TWC_CMD_RECOVER false |>.setTwc c { s.twc c with recovering := false }
    else if (sda.take 9).any id then
      (((s.setTwc c { s.twc c with recovering := false, sdaLow := false }).setFlag b TWC_STATUS_RECOVERED true).incFld b
        TWC_CNT_RECOVERIES 1).setFlag b TWC_CMD_RECOVER false
        |>.emit (.twoWire (Fin.ofNat 9 c)) 2 [(sda.take 9).findIdx id + 1]
    else
      let again := s.flag b TWC_CTRL_LONG_BUS
      (((s.setTwc c { s.twc c with recovering := again, sdaLow := true }).setFlag b TWC_STATUS_SDA_STUCK true).setFlag b
        TWC_CMD_RECOVER false).swStuck c

/-- SCL_STUCK: SCL has been low for SCL_LOW_MS (R448). -/
def execSclStuck (c : Fin 8) (s : State) : Out3 :=
  onLive s fun s =>
    ((s.setTwc c { s.twc c with sclLow := true }).setFlag (twcA c) TWC_STATUS_SCL_STUCK true).swStuck c

/-- SDA_STUCK: SDA has been low with SCL high for SDA_LOW_MS: raised in short-bus mode, recovered from in long-bus mode
(R448). -/
def execSdaStuck (c : Fin 8) (s : State) : Out3 :=
  onLive s fun s =>
    let s1 := s.setTwc c { s.twc c with sdaLow := true }
    if s1.flag (twcA c) TWC_CTRL_LONG_BUS then s1.setTwc c { s1.twc c with recovering := true }
    else (s1.setFlag (twcA c) TWC_STATUS_SDA_STUCK true).swStuck c

/-- LANTERN_CALL: SDA has been low for 5 us on a free bus: the controller answers and polls; a call during a poll is served
after it (R449, R450). -/
def execLanternCall (c : Fin 8) (s : State) : Out3 :=
  onLive s fun s =>
    let t := s.twc c
    if !s.flag (twcA c) TWC_CTRL_EN || !s.flag (twcA c) TWC_CTRL_LANTERN_EN || t.busy || t.onBus then s
    else
      let s1 := ((s.setFlag (twcA c) TWC_STATUS_LANTERN true).emit (.twoWire (Fin.ofNat 9 c)) 3 []).setTwc c { t with busy := true }
      let s2 := s1.setFlag (twcA c) TWC_STATUS_BUS_BUSY true
      if t.poll ≠ [] then s2.setTwc c { s2.twc c with callAgain := true } else s2.startPoll c

/-- BUS_START_SEEN: another controller's START makes the bus busy (R442). -/
def execBusStartSeen (c : Fin 8) (s : State) : Out3 :=
  onLive s fun s => (s.setTwc c { s.twc c with busy := true }).setFlag (twcA c) TWC_STATUS_BUS_BUSY true

end Sys2Proof.Machine
end

