-- ==== Sys2Proof/Machine/Audio.lean ====
section
/-! DEFINITION. Audio ports (R409 to R422). -/
namespace Sys2Proof.Machine

/-! ### Formats (R410 to R412) -/

/-- A field of RXFMT, or the same field of TXFMT. -/
def fmtF (tx : Bool) (f : Fld) : Fld := if tx then f.at AUDP_TXFMT else f
def State.audFmt (s : State) (p : Nat) (tx : Bool) (f : Fld) : Nat := s.fld (audpA p) (fmtF tx f)
/-- SLOTS of a direction. -/
def State.audSlots (s : State) (p : Nat) (tx : Bool) : Nat := s.audFmt p tx AUDP_RXFMT_SLOTS_M1 + 1
/-- SLOT_BITS. -/
def slotBits (v : Nat) : Nat := match v with | 0 => 16 | 1 => 24 | _ => 32
/-- FRAME_BITS. -/
def State.frameBits (s : State) (p : Nat) (tx : Bool) : Nat := 32 * 2 ^ s.audFmt p tx AUDP_RXFMT_FRAME
/-- A direction drives its bit clock. -/
def State.audDrives (s : State) (p : Nat) (tx : Bool) : Bool := s.audFmt p tx AUDP_RXFMT_BCLK_DRV = 1
def enF (tx : Bool) : Fld := if tx then AUDP_CTRL_TX_EN else AUDP_CTRL_RX_EN
def State.audRuns (s : State) (p : Nat) (tx : Bool) : Bool := s.flag (audpA p) (enF tx)
/-- Frames per second (R410). -/
def State.audRate (s : State) (p : Nat) : Nat :=
  (if s.flag (audpA p) AUDP_CTRL_FAM then 44100 else 48000) * (if s.flag (audpA p) AUDP_CTRL_DOUBLE then 2 else 1)

/-- Why an enable would be refused (R412); false: it is accepted. -/
def State.audRejects (s : State) (p : Nat) (tx double : Bool) : Bool :=
  let frame := s.audFmt p tx AUDP_RXFMT_FRAME
  let slot := s.audFmt p tx AUDP_RXFMT_SLOT_BITS
  frame ≥ 6 || slot = 3 || decide (s.audSlots p tx * slotBits slot > s.frameBits p tx) ||
    decide (s.frameBits p tx > (if double then 512 else 1024)) ||
    (decide (s.audFmt p tx AUDP_RXFMT_FMT ≤ 1) && decide (s.audSlots p tx ≠ 2)) ||
    (s.audFmt p tx AUDP_RXFMT_FS_DRV = 1 && !s.audDrives p tx)

/-! ### Ramps (R420, R421) -/

/-- A ramp's length in frames. -/
def State.rampLen (s : State) (p : Nat) : Nat :=
  divRound (clampNat 1 128 (s.fld (audpA p) AUDP_CTRL_RAMP_MS) * s.audRate p) 1000
/-- The gain of a ramp at its frame, in units of 1 / trOne. -/
def AudRamp.gain (r : AudRamp) : Int :=
  let c : Int := if r.n = 0 then trOne else if r.n ≥ r.len then -trOne else trCos (Int.fdiv (trPi * r.n) r.len)
  if r.up then Int.fdiv (trOne - c) 2 else Int.fdiv (trOne + c) 2
/-- A reversal during a ramp continues from R - n. -/
def AudRamp.turn (r : AudRamp) : AudRamp := ⟨r.len - r.n, r.len, !r.up⟩
def AudRamp.next (r : AudRamp) : AudRamp := { r with n := min r.len (r.n + 1) }
def AudRamp.done (r : AudRamp) : Bool := decide (r.n ≥ r.len)

/-- The gain of the mute ramp. -/
def AudDir.muteGain (d : AudDir) : Int := match d.mute with | some r => r.gain | none => if d.zero then 0 else trOne
/-- The gain of a slot. -/
def AudDir.slotGain (d : AudDir) (act i : Nat) : Int :=
  if !act.testBit i then 0
  else match d.slots.find? (fun e => e.1 = i) with | some e => e.2.gain | none => trOne
/-- A sample under two gains, to the nearest, halves up. -/
def scaled (g h : Int) (w : Word) : Word :=
  wd (ofSigned 32 (Int.fdiv (2 * g * h * toSigned 32 w.toNat + trOne * trOne) (2 * trOne * trOne)))

/-- The mask fields of a direction. -/
def maskF (tx : Bool) : Fld := if tx then AUDP_TXMASK_PENDING else AUDP_RXMASK_PENDING
def maskActF (tx : Bool) : Fld := if tx then AUDP_TXMASK_ACT_ACTIVE else AUDP_RXMASK_ACT_ACTIVE
def AudU.dir (u : AudU) (tx : Bool) : AudDir := if tx then u.tx else u.rx
def AudU.setDir (u : AudU) (tx : Bool) (d : AudDir) : AudU := if tx then { u with tx := d } else { u with rx := d }

/-- The pending mask meets one slot at a frame's start (R421): the active mask and the slot ramps after it. -/
def slotStep (len want act : Nat) (l : List (Nat × AudRamp)) (i : Nat) : Nat × List (Nat × AudRamp) :=
  let others := l.filter (fun e => e.1 ≠ i)
  match want.testBit i, act.testBit i, (l.find? (fun e => e.1 = i)).map (·.2) with
  | true, false, _ => (act + 2 ^ i, (i, ⟨0, len, true⟩) :: others)
  | true, true, some r => (act, if r.up then l else (i, r.turn) :: others)
  | false, true, some r => (act, if r.up then (i, r.turn) :: others else l)
  | false, true, none => (act, (i, ⟨0, len, false⟩) :: l)
  | _, _, _ => (act, l)

/-- A frame passes the masks and ramps of a direction: the frame, the active mask, whether that changed, whether a ramp ran. -/
structure Ramped where
  frame : List Word
  act : Nat
  changed : Bool
  ran : Bool
  state : State

def State.rampFrame (s : State) (p : Nat) (tx : Bool) (f : List Word) : Ramped :=
  let n := s.audSlots p tx
  let want := s.fld (audpA p) (maskF tx) % 2 ^ n
  let old := s.fld (audpA p) (maskActF tx)
  let d := (s.aud p).dir tx
  let r := (List.range 32).foldl (fun (x : Nat × List (Nat × AudRamp)) i => slotStep (s.rampLen p) want x.1 x.2 i) (old, d.slots)
  let d1 := { d with slots := r.2 }
  let out := (List.range n).map (fun i => scaled d1.muteGain (d1.slotGain r.1 i) ((f[i]?).getD 0))
  let d2 := { d1 with mute := d1.mute.map AudRamp.next, slots := d1.slots.map (fun e => (e.1, e.2.next)) }
  { frame := out, act := r.1, changed := decide (r.1 ≠ old), ran := d1.mute.isSome || d1.slots ≠ []
    state := (s.setAud p ((s.aud p).setDir tx d2)).setFld (audpA p) (maskActF tx) r.1 }

/-- A mute bit has a new value: a ramp starts or turns; with the direction off the gain is settled at once. -/
def State.audMute (s : State) (p : Nat) (tx on : Bool) : State :=
  let b := audpA p
  let shown := if tx then AUDP_STATUS_TX_MUTED else AUDP_STATUS_RX_MUTED
  let u := s.aud p
  let d := u.dir tx
  if !s.audRuns p tx then (s.setAud p (u.setDir tx { d with mute := none, zero := on })).setFlag b shown on
  else
    let r : AudRamp := match d.mute with | some r => if r.up = !on then r else r.turn | none => ⟨0, s.rampLen p, !on⟩
    (s.setAud p (u.setDir tx { d with mute := some r, zero := false })).setFlag b shown false

/-! ### Registers -/

/-- A direction starts or stops. -/
def State.audStart (s : State) (p : Nat) (tx : Bool) : State :=
  let b := audpA p
  let u := s.aud p
  let muted := s.flag b (if tx then AUDP_CTRL_TX_MUTE else AUDP_CTRL_RX_MUTE)
  let d : AudDir := { mute := none, zero := muted, slots := [] }
  let u1 := if tx then { u with tx := d, txFifo := [], e := s.fld b AUDP_TXSTART_BLOCK, fetched := none, play := [] }
    else { u with rx := d, rxFifo := [], cur := {}, block := 0, drops := 0 }
  ((s.setAud p u1).setFlag b (if tx then AUDP_STATUS_TX_RUN else AUDP_STATUS_RX_RUN) true).setFlag b
    (if tx then AUDP_STATUS_TX_MUTED else AUDP_STATUS_RX_MUTED) muted
def State.audStop (s : State) (p : Nat) (tx : Bool) : State :=
  let b := audpA p
  let s1 := (s.setFlag b (if tx then AUDP_STATUS_TX_RUN else AUDP_STATUS_RX_RUN) false).setFld b (maskActF tx) 0
  s1.setFld b (if tx then AUDP_TXLVL_LEVEL else AUDP_RXLVL_LEVEL) 0

/-- A write of AUDP_CTRL (R412, R420). -/
def audCtrl (c : WCtx) (p a : Nat) (v m : Word) (s : State) : State × WRes :=
  let b := audpA p
  let old := s.rd a
  let new := (old &&& ~~~ m) ||| (v &&& m)
  let on := s.audRuns p false || s.audRuns p true
  let fixed : Word := 0x3F000000
  let touched := on && ((new ^^^ old) &&& fixed) != 0
  let double := if on then s.flag b AUDP_CTRL_DOUBLE else new.toNat.testBit 28
  let bad (tx : Bool) : Bool := new.toNat.testBit (enF tx).lo && !s.audRuns p tx && s.audRejects p tx double
  let keep : Word := (if touched then fixed else 0) ||| (if bad false then 0x80000000 else 0) ||| (if bad true then 0x40000000 else 0)
  let err := touched || bad false || bad true
  let s0 := if err then s.setFlag b AUDP_STATUS_CFG_ERR true else s
  let q := s0.genWrite c a v (m &&& ~~~ keep)
  let edge (t : State) (tx : Bool) : State :=
    if t.audRuns p tx && !s.audRuns p tx then t.audStart p tx
    else if !t.audRuns p tx && s.audRuns p tx then t.audStop p tx
    else
      let f := if tx then AUDP_CTRL_TX_MUTE else AUDP_CTRL_RX_MUTE
      if t.flag b f = s.flag b f then t else t.audMute p tx (t.flag b f)
  (edge (edge q.1 false) true, if err then .refused else q.2)

/-- A write of AUDP_LOOP, in instances 0 and 1 (R422). -/
def audLoop (c : WCtx) (p a : Nat) (v m : Word) (s : State) : State × WRes :=
  let new := ((s.rd a &&& ~~~ m) ||| (v &&& m)).toNat
  let port := bits new 29 27
  let fits := decide (s.fld (audpA port) AUDP_CTRL_FAM = p) && !s.audDrives port false
  let bad := bits new 31 30 = 1 && !fits
  let s0 := if bad then s.setFlag (audpA p) AUDP_STATUS_CFG_ERR true else s
  let q := s0.genWrite c a v (if bad then m &&& 0x07FFFFFF else m)
  (q.1, if bad then .refused else q.2)

/-- Writes of AUDP registers. -/
def audWrite (c : WCtx) (p off a : Nat) (v m : Word) (s : State) : State × WRes :=
  if off = AUDP_CTRL then audCtrl c p a v m s
  else if off = AUDP_RXFMT ∨ off = AUDP_TXFMT then
    (if s.audRuns p (decide (off = AUDP_TXFMT)) then refusedW (s.setFlag (audpA p) AUDP_STATUS_CFG_ERR true)
     else s.genWrite c a v (if off = AUDP_RXFMT then m &&& 0xFFFBFFFF else m))
  else if off = AUDP_LOOP then (if p ≤ 1 then audLoop c p a v m s else okW s)
  else if off = AUDP_STEER then
    (if p ≤ 1 then s.genWrite c a v (if s.fld (audpA p) AUDP_LOOP_MODE = 0 then m else m &&& 0x0000FFFF) else okW s)
  else s.genWrite c a v m

/-- Reads of AUDP registers with an effect of their own: a level read starts the marks anew; a stamp read latches SEC; the
registers of the clock loop are reserved in instances 2 to 7. -/
def audRead (p off : Nat) (s : State) : Option (Word × State) :=
  let a := audpA p + off
  if off = AUDP_RXLVL ∨ off = AUDP_TXLVL then
    some (s.rd a, s.wr a ((s.rd a &&& 0xFF) ||| 0x0000FF00))
  else if off = AUDP_BLKTS_NS then
    some (s.rd a, s.setFld (audpA p) AUDP_BLKTS_SEC_SEC ((s.aud p).lastNs / 1000000000))
  else if (off = AUDP_LOOP ∨ off = AUDP_STEER) ∧ 2 ≤ p then some (0, s)
  else none

/-! ### Writes and reads as commands -/

/-- AUDIO_RX_ENABLE: a write of AUDP_CTRL with RX_EN = 1 (R412). -/
def execAudioRxEnable (r : Req) (p : Fin 8) (value : Word) (s : State) : Out3 :=
  onLive s fun s => (audWrite (ctxOf r) p AUDP_CTRL (audpA p + AUDP_CTRL) (value ||| 0x80000000) 0xFFFFFFFF s).1
/-- AUDIO_TX_ENABLE: a write of AUDP_CTRL with TX_EN = 1 (R412). -/
def execAudioTxEnable (r : Req) (p : Fin 8) (value : Word) (s : State) : Out3 :=
  onLive s fun s => (audWrite (ctxOf r) p AUDP_CTRL (audpA p + AUDP_CTRL) (value ||| 0x40000000) 0xFFFFFFFF s).1
/-- AUDIO_FORMAT_WRITE: a write of a format register (R412). -/
def execAudioFormatWrite (r : Req) (p : Fin 8) (tx : Bool) (value : Word) (s : State) : Out3 :=
  onLive s fun s =>
    let off := if tx then AUDP_TXFMT else AUDP_RXFMT
    (audWrite (ctxOf r) p off (audpA p + off) value 0xFFFFFFFF s).1
/-- The mute bit of a direction written, the other fields as they are. -/
def State.muteWrite (s : State) (r : Req) (p : Nat) (tx on : Bool) : State :=
  let a := audpA p + AUDP_CTRL
  (audWrite (ctxOf r) p AUDP_CTRL a (putFld (s.rd a) (if tx then AUDP_CTRL_TX_MUTE else AUDP_CTRL_RX_MUTE) (b2n on)) 0xFFFFFFFF s).1
/-- AUDIO_MUTE (R420). -/
def execAudioMute (r : Req) (p : Fin 8) (tx : Bool) (s : State) : Out3 := onLive s fun s => s.muteWrite r p tx true
/-- AUDIO_UNMUTE (R420). -/
def execAudioUnmute (r : Req) (p : Fin 8) (tx : Bool) (s : State) : Out3 := onLive s fun s => s.muteWrite r p tx false
/-- SLOT_MASK_WRITE: a write of RXMASK or TXMASK (R421). -/
def execSlotMaskWrite (r : Req) (p : Fin 8) (tx : Bool) (value : Word) (s : State) : Out3 :=
  onLive s fun s =>
    let off := if tx then AUDP_TXMASK else AUDP_RXMASK
    (audWrite (ctxOf r) p off (audpA p + off) value 0xFFFFFFFF s).1
/-- LOOP_MODE_WRITE: a write of a family's AUDP_LOOP (R422). -/
def execLoopModeWrite (r : Req) (fam : Fin 2) (value : Word) (s : State) : Out3 :=
  onLive s fun s => (audWrite (ctxOf r) fam AUDP_LOOP (audpA fam + AUDP_LOOP) value 0xFFFFFFFF s).1
/-- BLOCK_STAMP_READ: a read of AUDP_BLKTS_NS (R415). -/
def execBlockStampRead (_r : Req) (p : Fin 8) (s : State) : Out3 :=
  onLive s fun s => match audRead p AUDP_BLKTS_NS s with | some q => q.2.answerWith q.1 | none => s

/-! ### Frames (R410, R413, R419) -/

/-- LEVEL and its marks. -/
def State.showAud (s : State) (p : Nat) (tx : Bool) : State :=
  let b := audpA p
  let n := if tx then (s.aud p).txFifo.length else (s.aud p).rxFifo.length
  let g (f : Fld) : Fld := if tx then f.at AUDP_TXLVL else f
  ((s.setFld b (g AUDP_RXLVL_LEVEL) n).maxFld b (g AUDP_RXLVL_HWM) n).setFld b (g AUDP_RXLVL_LWM)
    (min n (s.fld b (g AUDP_RXLVL_LWM)))

/-- A frame's slots as they come in or go out: low bits beyond SLOT_BITS zero (R411). -/
def State.cutSlots (s : State) (p : Nat) (tx : Bool) (f : List Word) : List Word :=
  let k := slotBits (s.audFmt p tx AUDP_RXFMT_SLOT_BITS)
  (List.range (s.audSlots p tx)).map (fun i => wd (((f[i]?).getD 0).toNat / 2 ^ (32 - k) * 2 ^ (32 - k)))

/-- A frame joins the block being filled; the 64th completes it (R415). -/
def State.rxFrame (s : State) (p : Nat) (f : List Word) (ns : Nat) (inserted : Bool) : State :=
  let r := s.rampFrame p false f
  let u := r.state.aud p
  let c0 := if u.cur.frames = [] then { u.cur with number := u.block, ns := ns, slots := s.audSlots p false } else u.cur
  let c : AudBlk := { c0 with
    frames := r.frame :: c0.frames, ramp := c0.ramp || r.ran, inserted := c0.inserted || inserted
    maskChg := c0.maskChg || r.changed, mask := c0.mask ||| r.act, ins := c0.ins + b2n inserted }
  if c.frames.length < 64 then r.state.setAud p { u with cur := c }
  else r.state.setAud p { u with cur := {}, block := (u.block + 1) % 2 ^ 32, drops := 0, full := u.full ++ [{ c with drop := u.drops }] }

/-- The receive side at a frame tick. -/
def State.rxTick (s : State) (p : Nat) (data : List Word) : State :=
  let b := audpA p
  if !s.audRuns p false then s
  else if s.audDrives p false then s.rxFrame p (s.cutSlots p false data) s.nowNs false
  else
    match (s.aud p).rxFifo with
    | f :: rest => ((s.setAud p { s.aud p with rxFifo := rest }).showAud p false).rxFrame p f.slots f.ns false
    | [] => (((s.incFld b AUDP_CNT_RX_INS 1).setFlag b AUDP_STATUS_RX_SLIP true).showAud p false).rxFrame p [] s.nowNs true

/-- A frame leaves a port; an inactive slot drives zero, or with TRI nothing, shown as 2^32 (R421). -/
def State.audEmit (s : State) (p : Fin 8) (f : List Word) : State :=
  let act := s.fld (audpA p) AUDP_TXMASK_ACT_ACTIVE
  let tri := s.flag (audpA p) AUDP_TXFMT_TRI
  let f1 := s.cutSlots p true f
  s.emit (.audio p) 0 ((f1.zip (List.range f1.length)).map (fun (w, i) => if !act.testBit i && tri then 2 ^ 32 else w.toNat))

/-- The transmit side at a frame tick: the next frame in play, silent where none is. -/
def State.txTick (s : State) (p : Fin 8) : State :=
  let b := audpA p
  if !s.audRuns p true then s
  else
    let u := s.aud p
    let f := u.play.head?.getD []
    let r := (s.setAud p { u with play := u.play.drop 1 }).rampFrame p true f
    if s.audDrives p true then r.state.audEmit p r.frame
    else if (r.state.aud p).txFifo.length ≥ 128 then
      (r.state.incFld b AUDP_CNT2_TX_DROP 1).setFlag b AUDP_STATUS_TX_SLIP true
    else
      (r.state.setAud p { r.state.aud p with txFifo := (r.state.aud p).txFifo ++ [r.frame] }).showAud p true

/-- The moment of a base-rate frame tick of a family is kept for its clock loop (R422). -/
def State.ticked (s : State) (fam double : Bool) : TimeU :=
  if double then s.time else if fam then { s.time with audB := s.nowNs } else { s.time with audA := s.nowNs }
/-- AUDIO_FRAME_TICK: the frame tick of a family at one of its rates; `data`: the frame on each port's data line (R410, R413). With
WCKO_EN the word clock rises at a base-rate tick. -/
def execAudioFrameTick (fam double : Bool) (data : List (List Word)) (s : State) : Out3 :=
  onLive s fun s =>
    let mine (p : Fin 8) : Bool := s.flag (audpA p) AUDP_CTRL_FAM = fam && s.flag (audpA p) AUDP_CTRL_DOUBLE = double
    let s1 := if !double && s.flag (audpA (b2n fam)) AUDP_LOOP_WCKO_EN then s.emit (.audio (Fin.ofNat 8 (b2n fam))) 1 [] else s
    ((List.finRange 8).filter mine).foldl (fun (t : State) (p : Fin 8) => (t.rxTick p ((data[p.val]?).getD [])).txTick p)
      (s1.withTime (s.ticked fam double))

/-- AUDIO_FRAME_RECEIVE: a frame of `length` bits ends on a received bit clock (R413, R419). -/
def execAudioFrameReceive (p : Fin 8) (length : Nat) (slots : List Word) (s : State) : Out3 :=
  onLive s fun s =>
    let b := audpA p
    let u := s.aud p
    if !s.audRuns p false || s.audDrives p false then s
    else if length ≠ s.frameBits p false then (s.incFld b AUDP_CNT3_FRAME_ERRS 1).setFlag b AUDP_STATUS_FRAME_ERR true
    else if u.rxFifo.length ≥ 128 then
      ((s.setAud p { u with drops := u.drops + 1 }).incFld b AUDP_CNT_RX_DROP 1).setFlag b AUDP_STATUS_RX_SLIP true
    else (s.setAud p { u with rxFifo := u.rxFifo ++ [⟨s.cutSlots p false slots, s.nowNs⟩] }).showAud p false

/-- AUDIO_TX_FRAME_SYNC: a received transmit frame sync takes a frame (R419). -/
def execAudioTxFrameSync (p : Fin 8) (s : State) : Out3 :=
  onLive s fun s =>
    let b := audpA p
    if !s.audRuns p true || s.audDrives p true then s
    else
      match (s.aud p).txFifo with
      | f :: rest => ((s.setAud p { s.aud p with txFifo := rest }).showAud p true).audEmit p f
      | [] => (((s.incFld b AUDP_CNT2_TX_INS 1).setFlag b AUDP_STATUS_TX_SLIP true).showAud p true).audEmit p []

/-! ### Receive blocks (R414, R415) -/

/-- The address of block k of a ring. -/
def State.blkAddr (s : State) (p : Nat) (tx : Bool) (k : Nat) : Nat :=
  let n := 2 ^ min 12 (s.fld (audpA p) (if tx then AUDP_RING_TX_LOG2 else AUDP_RING_RX_LOG2))
  s.fld (audpA p) (if tx then AUDP_TXBASE_ADDR else AUDP_RXBASE_ADDR) * 256 + k % n * (64 + 256 * s.audSlots p tx)

/-- The head of a block (Table 18-3). -/
def AudBlk.head (k : AudBlk) : List Byte :=
  toBytes 6 (k.ns / 1000000000) ++ toBytes 4 (k.ns % 1000000000) ++ toBytes 1 k.slots ++
    toBytes 1 (b2n k.ramp + 2 * b2n k.inserted + 4 * b2n k.maskChg) ++ toBytes 4 k.number ++ toBytes 4 k.mask ++
    toBytes 2 k.ins ++ toBytes 2 k.drop ++ toBytes 40 0

/-- AUDIO_BLOCK_WRITE: the body of a full block goes to the ring, or the block is dropped. -/
def execAudioBlockWrite (p : Fin 8) (s : State) : Out3 :=
  onLive s fun s =>
    let u := s.aud p
    match u.full with
    | [] => s
    | k :: rest =>
      if u.buf.length ≥ 2 then (s.setAud p { u with full := rest }).setFlag (audpA p) AUDP_STATUS_RX_BLKDROP true
      else
        let body := k.frames.reverse.flatMap (fun f => f.flatMap (fun w => toBytes 4 w.toNat))
        (s.setAud p { u with full := rest, buf := u.buf ++ [k] } |>.busWrite (.audio p) (s.blkAddr p false k.number + 64) body).2

/-- AUDIO_BLOCK_HEAD_WRITE: every write of the oldest body has been answered. -/
def execAudioBlockHeadWrite (p : Fin 8) (s : State) : Out3 :=
  onLive s fun s =>
    let u := s.aud p
    let b := audpA p
    match u.buf with
    | [] => s
    | k :: rest =>
      let s1 := (s.setAud p { u with buf := rest, lastNs := k.ns } |>.busWrite (.audio p) (s.blkAddr p false k.number) k.head).2
      (s1.setFld b AUDP_RXBLK_BLOCK k.number).setFld b AUDP_BLKTS_NS_NS (k.ns % 1000000000)

/-! ### Playing (R416 to R418) -/

/-- AUDIO_BLOCK_FETCH: the head and body of block E are read; it is present when the head shows E and nothing failed. `error`: an
answer was poison or an error beyond what the memory holds as such. -/
def execAudioBlockFetch (p : Fin 8) (error : Bool) (s : State) : Out3 :=
  onLive s fun s =>
    let u := s.aud p
    if !s.audRuns p true || u.fetched.isSome then s
    else
      let q := s.busRead (.audio p) (s.blkAddr p true u.e) 64
      match q.1 with
      | none => q.2
      | some h =>
        let n := leNat ((h.drop 10).take 1)
        if error ∨ leNat ((h.drop 12).take 4) ≠ u.e ∨ n = 0 ∨ n > 32 then q.2
        else
          let d := q.2.busRead (.audio p) (s.blkAddr p true u.e + 64) (256 * n)
          match d.1 with
          | none => d.2
          | some body =>
            let word (f i : Nat) : Word := if i < n then wd (leNat ((body.drop (4 * (f * n + i))).take 4)) else 0
            let frames := (List.range 64).map (fun f => (List.range (s.audSlots p true)).map (word f))
            let ns := leNat (h.take 6) * 1000000000 + leNat ((h.drop 6).take 4) % 2 ^ 30
            d.2.setAud p { u with fetched := some ⟨ns, frames⟩ }

/-- Frames from the next frame tick, at `next` ns, to the first tick at or after stamp + D_g - T_f / 2 (R416). -/
def State.ticksTo (s : State) (p ns next : Nat) : Int :=
  let g := s.fld (audpA p) AUDP_CTRL_GROUP
  let d : Int := (ns : Int) + (min 1000000 (s.fld (audpA g) AUDP_GDELAY_DELAY_US) * 1000 : Nat) - (next : Int)
  Int.neg (Int.fdiv (Int.neg (2 * (s.audRate p : Int) * d - 1000000000)) 2000000000)

/-- AUDIO_BLOCK_TARGET: the frames of the block before have been played; block E is taken, with frames inserted or skipped, or it
is not present. `next`: the time of the next frame tick in ns (R416, R417). -/
def execAudioBlockTarget (p : Fin 8) (next : Nat) (s : State) : Out3 :=
  onLive s fun s =>
    let b := audpA p
    let u := s.aud p
    if !s.audRuns p true || u.play ≠ [] then s
    else
      let e := (u.e + 1) % 2 ^ 32
      match u.fetched with
      | none =>
        ((s.setAud p { u with e := e, play := List.replicate 64 [] }).setFlag b AUDP_STATUS_TX_UNDER true).incFld b
          AUDP_CNT3_TX_UNDER_BLK 1
      | some k =>
        let n : Int := if s.flag b AUDP_CTRL_GRP_EN then s.ticksTo p k.ns next else 0
        let skip := min 64 (-n).toNat
        let play := List.replicate n.toNat [] ++ k.frames.drop skip
        ((s.setAud p { u with e := e, fetched := none, play := play }).incFld b AUDP_CNT2_TX_INS n.toNat).incFld b
          AUDP_CNT2_TX_DROP skip

/-! ### Ramps end, clock loops (R420 to R422) -/

/-- RAMP_END: ramps of a direction that have reached their end settle: the mute state, the active mask. -/
def execRampEnd (p : Fin 8) (tx : Bool) (s : State) : Out3 :=
  onLive s fun s =>
    let b := audpA p
    let u := s.aud p
    let d := u.dir tx
    let muted := match d.mute with | some r => r.done && !r.up | none => d.zero
    let above := match d.mute with | some r => r.done | none => false
    let gone := (d.slots.filter (fun e => e.2.done && !e.2.up)).foldl (fun n e => n + 2 ^ e.1) 0
    let d1 : AudDir := { mute := if above then none else d.mute, zero := muted, slots := d.slots.filter (fun e => !e.2.done) }
    let u1 := u.setDir tx d1
    let u2 := if gone ≠ 0 && !tx then { u1 with cur := { u1.cur with maskChg := true } } else u1
    let s1 := (s.setAud p u2).setFld b (maskActF tx) (s.fld b (maskActF tx) - gone)
    s1.setFlag b (if tx then AUDP_STATUS_TX_MUTED else AUDP_STATUS_RX_MUTED) muted

/-- Lateness of a family's last base-rate frame tick against the nearest ideal tick n / rate of the time counter, in 10^-9 of T_f (R422). -/
def State.tickPhase (s : State) (fam : Nat) : Int :=
  let x : Nat := (if fam = 0 then s.time.audA * 48000 else s.time.audB * 44100) % 1000000000
  if 2 * x < 1000000000 then x else (x : Int) - 1000000000
/-- CLOCK_LOOP_UPDATE: every 1 ms. `phase`: the phase against the word-clock reference that mode 3 measures, in 1/256 of T_f (R422). -/
def execClockLoopUpdate (fam : Fin 2) (phase : Int) (s : State) : Out3 :=
  onLive s fun s =>
    let b := audpA fam
    let mode := s.fld b AUDP_LOOP_MODE
    if mode = 0 then s
    else
      let m : Int × State :=
        if mode = 1 then ((((s.aud (s.fld b AUDP_LOOP_PORT)).rxFifo.length : Int) - s.fld b AUDP_STEER_TARGET) * 256, s)
        else if mode = 2 then s.openQuot (256 * s.tickPhase fam) 1000000000
        else (phase, s)
      let e := m.1
      let s := m.2
      let u := s.aud fam
      let i := clampInt (-(2 ^ 23)) (2 ^ 23) (u.integ + s.fld b AUDP_LOOP_KI * e)
      let q := s.openQuot (s.fld b AUDP_LOOP_KP * e + i) 256
      let near := decide (e.natAbs ≤ s.fld b AUDP_STEER_LOCK_WIN)
      let n := if near then min 100 (u.locks + 1) else 0
      let s1 := (q.2.setAud fam { u with integ := i, locks := n }).setFld b AUDP_STEER_STEER
        (clampInt 0 65535 (32768 + q.1)).toNat
      if n = 100 then s1.setFlag b AUDP_STEER_LOCKED true
      else if near then s1 else s1.setFlag b AUDP_STEER_LOCKED false

end Sys2Proof.Machine
end

