-- ==== Sys2Proof/Machine/AxisOps.lean ====
section
/-! DEFINITION. Position axes: counters, index, velocity, history, pose (R423 to R438), and what encoder outputs make of counts
(R439, R440). -/
namespace Sys2Proof.Machine

/-! ### Parameters (Table 19-3) -/

def State.axPar (s : State) (x w : Nat) : Nat := (s.tget .axisParam x w).toNat
def State.axCpr (s : State) (x : Nat) : Nat := s.axPar x 0
def State.axIdxPos (s : State) (x : Nat) : Nat := s.axPar x 1
def State.axLo (s : State) (x : Nat) : Int := toSigned 32 (s.axPar x 3)
def State.axHi (s : State) (x : Nat) : Int := toSigned 32 (s.axPar x 4)
def State.axHistUs (s : State) (x : Nat) : Nat := bits (s.axPar x 12) 5 0
def State.axRuns (s : State) (x : Nat) : Bool := s.flag (axisA x) AXIS_CTRL_EN
def State.axMode (s : State) (x : Nat) : Nat := s.fld (axisA x) AXIS_CTRL_MODE
def State.axLimited (s : State) (x : Nat) : Bool := s.flag (axisA x) AXIS_CTRL_LIMIT_EN
def State.axPos (s : State) (x : Nat) : Nat := (s.rd (axisA x + AXIS_POS)).toNat

/-! ### Counters (R431, R432) -/

/-- AT_LO and AT_HI show at which limit the counter rests. -/
def State.axShow (s : State) (x : Nat) : State :=
  let p := toSigned 32 (s.axPos x)
  (s.setFlag (axisA x) AXIS_STATUS_AT_LO (s.axLimited x && decide (p = s.axLo x))).setFlag (axisA x) AXIS_STATUS_AT_HI
    (s.axLimited x && decide (p = s.axHi x))

/-- A value brought into the counter's range: clamped on a limited axis, else reduced modulo CPR (R431, R432). -/
def State.axReduce (s : State) (x : Nat) (v : Nat) : Nat :=
  if s.axLimited x then ofSigned 32 (clampInt (s.axLo x) (s.axHi x) (toSigned 32 v))
  else if s.axCpr x = 0 then v % 2 ^ 32 else v % s.axCpr x

/-- The counter takes a value. -/
def State.axSet (s : State) (x v : Nat) : State := (s.wr (axisA x + AXIS_POS) (wd (s.axReduce x v))).axShow x

/-- The difference of two counter values in the range of R433. -/
def State.axDiff (s : State) (x a b : Nat) : Int :=
  let cpr := s.axCpr x
  if s.axLimited x || cpr = 0 then toSigned 32 (a + 2 ^ 32 - b % 2 ^ 32)
  else
    let r := (a + cpr - b % cpr) % cpr
    if r ≤ cpr / 2 then r else (r : Int) - cpr

/-- A preset still stands in this filtered sample (R431): the sampling clock has 5 ns. -/
def State.axPreset (s : State) (x : Nat) : Bool :=
  match (s.axis x).preset with
  | some t => decide (s.tick / 2 ≤ t)
  | none => false

/-- An encoder output shows how many steps are queued. -/
def State.emuShow (s : State) (e : Nat) : State := s.setFld (emuA e) EMU_STATUS_LAG (s.emu e).steps.length

/-- A step is queued, or lost when 256 wait (R440). -/
def State.emuQueue (s : State) (e : Nat) (up : Bool) : State :=
  let u := s.emu e
  if u.steps.length ≥ 256 then s.setFlag (emuA e) EMU_STATUS_OVF true
  else (s.setEmu e { u with steps := u.steps ++ [up] }).emuShow e

/-- One count of the axis reaches an encoder output (R439). -/
def State.emuCount (s : State) (e : Nat) (up : Bool) : State :=
  let u := s.emu e
  let num := s.fld (emuA e) EMU_RATIO_NUM
  let den := s.fld (emuA e) EMU_RATIO_DEN
  if up then
    (if u.acc + num ≥ den then (s.setEmu e { u with acc := u.acc + num - den }).emuQueue e true
     else s.setEmu e { u with acc := u.acc + num })
  else if u.acc < num then (s.setEmu e { u with acc := u.acc + den - num }).emuQueue e false
  else s.setEmu e { u with acc := u.acc - num }

/-- Z of an encoder output takes a level. -/
def State.emuZ (s : State) (e : Fin 16) (level : Bool) : State :=
  if (s.emu e).z = level then s
  else (s.setEmu e { s.emu e with z := level }).emit (.emu e) 1 [b2n level]

/-- The running encoder outputs that follow an axis. -/
def State.emusOf (s : State) (x : Nat) : List (Fin 16) :=
  (List.finRange 16).filter (fun e => s.flag (emuA e) EMU_CTRL_EN && s.fld (emuA e) EMU_CTRL_SRC = x)

/-- A count that the axis has applied: for its velocity and for the outputs that follow it. -/
def State.axApplied (s : State) (x : Nat) (up wrapped : Bool) : State :=
  let u := s.axis x
  let s1 := s.setAxis x { u with counts := ((s.tick, up) :: u.counts).filter (fun c => s.tick ≤ c.1 + 2 ^ 14 * 400) ++
                                            (u.counts.filter (fun c => c.1 + 2 ^ 14 * 400 < s.tick)).take 2 }
  (s1.emusOf x).foldl (fun (t : State) (e : Fin 16) =>
    let t1 := t.emuCount e up
    if wrapped && t1.fld (emuA e) EMU_CTRL_ZMODE = 1 then
      let t2 := t1.emuZ e true
      t2.setEmu e { t2.emu e with zTick := s.tick }
    else t1) s1

/-- One count (R431, R432); DIR_INV reverses it (R424). -/
def State.axCount (s : State) (x : Nat) (positive : Bool) : State :=
  let up := positive != s.flag (axisA x) AXIS_CTRL_DIR_INV
  let p := s.axPos x
  let cpr := s.axCpr x
  if s.axPreset x then s
  else if s.axLimited x then
    let q := if up then toSigned 32 p + 1 else toSigned 32 p - 1
    if q < s.axLo x ∨ s.axHi x < q then s.axShow x
    else ((s.wr (axisA x + AXIS_POS) (wd (ofSigned 32 q))).axShow x).axApplied x up false
  else if cpr = 0 then
    (s.wr (axisA x + AXIS_POS) (wd (if up then p + 1 else p + 2 ^ 32 - 1))).axApplied x up false
  else
    let q := if up then (if p + 1 ≥ cpr then 0 else p + 1) else (if p = 0 then cpr - 1 else p - 1)
    (s.wr (axisA x + AXIS_POS) (wd q)).axApplied x up (if up then q = 0 else p = 0)

/-- Several counts, one by one (R431). -/
def State.axCounts (s : State) (x : Nat) (positive : Bool) : Nat → State
  | 0 => s
  | n + 1 => State.axCounts (s.axCount x positive) x positive n

/-! ### Axis faults (R428, R430, R438) -/

/-- A cause bit rises: recorded at the hub; NESTED while a snapshot is held already. -/
def State.axFault (s : State) (x : Nat) (amp : Bool) : State :=
  let f := if amp then AXIS_STATUS_AMP_FAULT else AXIS_STATUS_ILL_FAULT
  if s.flag (axisA x) f then s
  else
    let nested := s.flag (fltA 0) FLT_STATUS_VALID
    let s1 := s.setFlag (axisA x) f true
    (if nested then s1.setFlag (axisA x) AXIS_STATUS_NESTED true else s1).record 0 0x2A 1 (srcOf 0 0x60 x) 0
      (b2n amp * 256 + x * 1024)

/-- An illegal edge, or a frame that counts as one, falls in the window (R430). -/
def State.axIllegal (s : State) (x : Nat) : State :=
  let u := s.axis x
  let w := s.axPar x 5
  let l := (s.tick :: u.ills).filter (fun t => s.tick < t + (bits w 15 0) * 400000)
  let s1 := s.setAxis x { u with ills := l.take 65536 }
  if l.length > bits w 31 16 then s1.axFault x false else s1

/-- An illegal edge of the inputs: counted as well (R425). -/
def State.axIllEdge (s : State) (x : Nat) : State := (s.incFld (axisA x) AXIS_CNT_ILLEGAL 1).axIllegal x

/-! ### Index (R433) -/

/-- An index event is judged. -/
def State.axIndex (s : State) (x : Nat) : State :=
  let b := axisA x
  let u := s.axis x
  let mode := s.fld b AXIS_CTRL_IDX_MODE
  let d := s.axDiff x (s.axPos x) (s.axIdxPos x)
  let s1 := (s.wr (b + AXIS_IDXERR) (wd (ofSigned 32 d))).setAxis x { u with firstIndex := false }
  if mode = 1 && u.firstIndex then (s1.axSet x (s.axIdxPos x)).setFlag b AXIS_STATUS_HOMED true
  else if d.natAbs ≤ bits (s.axPar x 2) 15 0 then s1.setFlag b AXIS_STATUS_HOMED true
  else if mode = 0 then s1.setFlag b AXIS_STATUS_IDX_ERR true
  else if mode = 1 then
    ((s1.axSet x (s.axIdxPos x)).incFld b AXIS_CNT_IDX_CORR 1).setFlag b AXIS_STATUS_IDX_ERR true
  else s1

/-! ### Velocity (R434) -/

/-- The last two counts in the direction of the latest one: their distance in ticks. -/
def lastTwo (l : List (Nat × Bool)) : Option (Nat × Bool) :=
  match l with
  | [] => none
  | (t, up) :: r => (r.find? (fun c => c.2 = up)).map (fun c => (t - c.1, up))

/-- The velocity at a history sample. -/
def State.axVelocity (s : State) (x : Nat) : Int × State :=
  let u := s.axis x
  let w := s.axPar x 11
  let us := 2 ^ bits w 19 16
  if s.axMode x = 4 then
    match u.frames with
    | p :: q :: _ =>
      let poll := bits (s.axPar x 10) 31 16
      if poll = 0 then (s.axDiff x p q, s) else s.openQuot (s.axDiff x p q * 1000000) poll
    | _ => (0, s)
  else
    let inWin := u.counts.filter (fun c => s.tick < c.1 + us * 400)
    match u.counts with
    | [] => (0, s)
    | (t, _) :: _ =>
      if t + bits w 7 0 * 400000 ≤ s.tick then (0, s)
      else if inWin.length ≥ bits w 15 8 then
        s.openQuot (inWin.foldl (fun (a : Int) c => if c.2 then a + 1 else a - 1) 0 * 1000000) us
      else
        match lastTwo u.counts with
        | none => (0, s)
        | some (d, up) =>
          if d < 2 then (0, s)
          else
            let (v, s1) := s.openQuot 1000000000 (5 * (d / 2) : Nat)
            (if up then v else -v, s1)

/-! ### History and interpolation (R435) -/

/-- The two history entries that enclose an instant, the older first; newest first in the list. -/
def enclose (t : Nat) : List HistEntry → Option (HistEntry × HistEntry)
  | n :: o :: r => if o.ns ≤ t ∧ t < n.ns then some (o, n) else enclose t (o :: r)
  | _ => none

/-- n / d with halves rounded up. -/
def roundUp (n d : Int) : Int := Int.fdiv (2 * n + d) (2 * d)

/-- Position pattern and velocity of an axis at an instant, and TOO_OLD. -/
def State.axisAt (s : State) (x t : Nat) : Nat × Int × Bool :=
  let l := (s.axis x).hist
  match enclose t l with
  | some (o, n) =>
    let dt : Int := (n.ns : Int) - o.ns
    let k : Int := (t : Int) - o.ns
    let p : Int := (if s.axLimited x || s.axCpr x = 0 then toSigned 32 o.pos else o.pos) + roundUp (s.axDiff x n.pos o.pos * k) dt
    let v0 := toSigned 32 o.vel
    let v := v0 + roundUp ((toSigned 32 n.vel - v0) * k) dt
    (if s.axLimited x then ofSigned 32 (clampInt (s.axLo x) (s.axHi x) p)
     else if s.axCpr x = 0 then ofSigned 32 p else (p % (s.axCpr x : Int)).toNat, v, false)
  | none =>
    match l.head?, l.getLast? with
    | some n, some o =>
      if t < o.ns then (o.pos, toSigned 32 o.vel, true) else (n.pos, toSigned 32 n.vel, false)
    | _, _ => (s.axPos x, toSigned 32 (s.rd (axisA x + AXIS_VEL)).toNat, true)

/-! ### Pose (R436, R437) -/

/-- Enabled axes of a port's pose, ascending. -/
def State.members (s : State) (p : Nat) : List Nat :=
  (List.range 48).filter (fun x => s.axRuns x && s.flag (axisA x) AXIS_CTRL_POSE_EN && s.fld (axisA x) AXIS_CTRL_POSE_PORT = p)
/-- Members beyond the sixteenth are left out with CFG_ERR (R436). -/
def State.trimPose (s : State) (p : Nat) : State :=
  ((s.members p).drop 16).foldl (fun t x => t.setFlag (axisA x) AXIS_STATUS_CFG_ERR true) s

/-- A word of the pose table. -/
def State.poseWord (s : State) (p k : Nat) : Nat := (s.tget .poseTable 0 (4 * p + k)).toNat

/-- A midpoint reaches the axes of a port; the fifth drops the oldest (R436). -/
def State.midpoint (s : State) (p : Nat) (m : Midpoint) : State :=
  let q := s.posePort p
  if q.waiting.length ≥ 4 then
    (s.setPosePort p { q with waiting := q.waiting.drop 1 ++ [m] }).tset .poseTable 0 (4 * p + 2)
      (wd (sat 32 (s.poseWord p 2 + 1)))
  else s.setPosePort p { q with waiting := q.waiting ++ [m] }

/-- The time counter has passed a midpoint by HIST_US, the longest of the member axes (R436). -/
def State.poseDue (s : State) (p : Nat) (m : Midpoint) : Bool :=
  decide (m.ns + (((s.members p).take 16).map s.axHistUs).foldl max 0 * 1000 ≤ s.nowNs)

/-- Twelve bytes of an axis in a pose record (Table 19-2). -/
def State.poseAxis (s : State) (x t : Nat) : List Byte :=
  let b := axisA x
  let (p, v, old) := s.axisAt x t
  let st := b2n (s.flag b AXIS_STATUS_ILL_FAULT || s.flag b AXIS_STATUS_AMP_FAULT) + 2 * b2n old +
    4 * b2n (!s.flag b AXIS_STATUS_HOMED) + 8 * b2n (s.flag b AXIS_STATUS_AT_LO || s.flag b AXIS_STATUS_AT_HI)
  toBytes 1 x ++ toBytes 1 st ++ toBytes 2 0 ++ toBytes 4 p ++ toBytes 4 (ofSigned 32 v)

/-- Bytes 16 to 255 of a pose record. -/
def State.poseRecBody (s : State) (p : Nat) (m : Midpoint) : List Byte :=
  let l := (s.members p).take 16
  toBytes 8 (m.ns / 1000000000) ++ toBytes 4 (m.ns % 1000000000) ++ toBytes 1 l.length ++ toBytes 3 0 ++
    (l.map (fun x => s.poseAxis x m.ns)).flatten ++ toBytes (12 * (16 - l.length) + 32) 0

/-- Bytes 0 to 15 of a pose record: its stream header. -/
def Midpoint.header (m : Midpoint) (cls : Nat) : List Byte :=
  toBytes 16 (Hdr.toNat ⟨m.sid, cls, m.frame, 0, m.calId, if m.missed then fMISSED else 0, m.ns % 2 ^ 32⟩)

end Sys2Proof.Machine
end

