-- ==== Sys2Proof/Machine/Camera.lean ====
section
/-! DEFINITION. Camera ports: framing, padding, FIFOs, training (R88 to R112), and the shared pipes' service (R107). -/
namespace Sys2Proof.Machine

/-! ### Streams and classes -/

/-- An enabled C0_STREAM slot names the stream (R41). -/
def State.c0Named (s : State) (sid : Nat) : Bool :=
  (List.range 4).any (fun n => s.flag fabA (C0_STREAM_EN.nth 4 n) && s.fld fabA (C0_STREAM_STREAM_ID.nth 4 n) = sid)
/-- The class at which a stream is carried: its table entry, class 0 only with an enabled slot (R22, R41). -/
def State.classOf (s : State) (sid : Nat) : Nat :=
  let c := (s.tget .fabClass 0 sid).toNat % 4
  if c = 0 && !s.c0Named sid then 1 else c
/-- Packets of a stream are carried: at class 1 for want of an enabled slot, the first time since its class or a slot was
written, the admission error is recorded (R41). -/
def State.admitStream (s : State) (sid src : Nat) : State :=
  if (s.tget .fabClass 0 sid).toNat % 4 = 0 && !s.c0Named sid && !(s.fab.admitted.contains sid) then
    (s.withFab { s.fab with admitted := sid :: s.fab.admitted }).record 0 0x03 1 src 0 (info8 sid)
  else s
/-- The stream of a port. -/
def State.portSid (s : State) (p : Nat) : Nat := s.fld (campA p) CAMP_STREAM_STREAM_ID

/-! ### Gangs (R91, R92) -/

/-- Ports per sensor for a GANG value. -/
def gangPorts (g : Nat) : Nat := if g = 1 then 2 else if g = 2 then 4 else 1
/-- Bits per sample for a PACK value (Table 4-2). -/
def packBits (k : Nat) : Nat := if k = 0 then 12 else if k = 1 then 14 else 16
/-- The port is enabled as a leader or single port. -/
def State.campOn (s : State) (p : Nat) : Bool := s.flag (campA p) CAMP_CTRL_EN && !s.flag (campA p) CAMP_STATUS_MEMBER
/-- The leader of a port: itself, or the one its status names. -/
def State.leaderOf (s : State) (p : Nat) : Nat :=
  if s.flag (campA p) CAMP_STATUS_MEMBER then s.fld (campA p) CAMP_STATUS_LEADER else p
/-- The pipes that a port's stream uses (R94). -/
def Camp.pipesUsed (c : Camp) : List Nat := if c.gang = 2 then [c.pipe, c.pipeB] else [c.pipe]
/-- The pipes that take line n of a frame (R94). -/
def Camp.pipesOf (c : Camp) (height n : Nat) : List Nat :=
  if c.gang = 2 then
    (if n ≤ height / 2 + 7 then [c.pipe] else []) ++ (if height / 2 ≤ n + 8 then [c.pipeB] else [])
  else [c.pipe]

/-- The streams that a pipe serves: its enabled ports (R107). -/
def State.pipePorts (s : State) (pipe : Nat) : List Nat :=
  (List.range 12).filter (fun p => s.campOn p && (s.camp p).pipesUsed.contains pipe)
/-- The ports whose stream is class 0 on a pipe that a lower-numbered port's class-0 stream uses (R107). -/
def State.rivals (s : State) : List Nat :=
  (List.range 12).filter (fun p => (List.range 8).any (fun pipe =>
    (((s.pipePorts pipe).filter (fun q => s.classOf (s.portSid q) = 0)).drop 1).contains p))
/-- More than one stream on a pipe is class 0: an admission error for each but the lowest-numbered port, once while it lasts
(R107). -/
def State.class0Check (s : State) : State :=
  let now := s.rivals
  let kept : State := s.withFab { s.fab with admitted := s.fab.admitted.filter (fun k =>
    decide (k < 2048) || now.any (fun p => 2048 + s.portSid p = k)) }
  now.foldl (fun t p =>
    if (2048 + t.portSid p) ∈ t.fab.admitted then t
    else (t.withFab { t.fab with admitted := (2048 + t.portSid p) :: t.fab.admitted }).record 0 0x03 1 (srcOf 0 0x10 p) 0
      (info8 (t.portSid p))) kept

/-- The ports that share an enabled leader's training and gang: itself alone, or its group (R92). -/
def State.gangOf (s : State) (p : Nat) : List Nat :=
  if s.campOn p then (List.range (gangPorts (s.camp p).gang)).map (p + ·) else [p]

/-- Why a write of EN = 1 would be rejected (R108); false: it is accepted. -/
def State.enRejected (s : State) (p : Nat) (w : Word) : Bool :=
  let g := bits w.toNat 2 1
  let k := bits w.toNat 4 3
  let m := gangPorts g
  let named := if g = 2 then [bits w.toNat 18 16, bits w.toNat 22 20] else [bits w.toNat 18 16]
  g = 3 || k = 3 || p % m ≠ 0 ||
    (List.range m).any (fun j => s.flag (campA (p + j)) CAMP_CTRL_EN || s.flag (campA (p + j)) CAMP_STATUS_MEMBER) ||
    s.portSid p = 0x3FF || (g = 2 && bits w.toNat 18 16 = bits w.toNat 22 20) ||
    named.any (fun x => decide ((s.pipePorts x).length ≥ 3))

/-! ### The FIFO (R106) and packets -/

/-- Lines held in the FIFO's places: those received. -/
def Camp.level (c : Camp) : Nat :=
  (c.fifo.filter (fun i => match i.pkt.body with | .line _ => !i.added | _ => false)).length
/-- LEVEL and HWM follow the FIFO. -/
def State.showFifo (s : State) (p : Nat) : State :=
  (s.setFld (campA p) CAMP_FIFO_LEVEL (s.camp p).level).maxFld (campA p) CAMP_FIFO_HWM (s.camp p).level

/-- Packets other than lines, and no line before them still waiting for this pipe, pass to the pipe unarbitrated. -/
def passFree (pipe : Nat) : List FifoItem → List FifoItem × List Pkt
  | [] => ([], [])
  | x :: t =>
    if x.pipes.contains pipe then
      match x.pkt.body with
      | .line _ => (x :: t, [])
      | _ =>
        let (t', ps) := passFree pipe t
        let rest := x.pipes.filter (· ≠ pipe)
        ((if rest = [] then t' else { x with pipes := rest } :: t'), x.pkt :: ps)
    else
      let (t', ps) := passFree pipe t
      (x :: t', ps)

/-- Packets cross to a pipe; with no working bridge of its die they are discarded (R13). -/
def State.toPipe (s : State) (pipe : Nat) (ps : List Pkt) : State :=
  s.setPipe pipe { s.pipe pipe with inQ := (s.pipe pipe).inQ ++ if s.noBridge (pipeDie pipe) then [] else ps }
/-- Packets that need no service move on from a port's FIFO. -/
def State.drain (s : State) (p : Nat) : State :=
  ((s.camp p).pipesUsed.foldl (fun t pipe =>
    let (f, ps) := passFree pipe (t.camp p).fifo
    (t.setCamp p { t.camp p with fifo := f }).toPipe pipe ps) s).showFifo p

/-- A packet other than a line enters a port's stream. -/
def State.pushPkt (s : State) (p : Nat) (k : Pkt) : State :=
  let c := s.camp p
  ((s.admitStream (s.portSid p) (srcOf 0 0x10 p)).setCamp p { c with fifo := c.fifo ++ [⟨k, c.pipesUsed, true, false⟩] }).drain p

/-- The header of a packet of the open frame (R18, R19, R112, R125). -/
def State.campHdr (s : State) (p line flags time : Nat) : Hdr :=
  let c := s.camp p
  { sid := s.portSid p, cls := s.classOf (s.portSid p), frame := c.frame, line := line, calId := c.calId
    flags := c.flags ||| flags, time := time }

/-- SOF on the first line packet of a frame, EOF on the last (Table 1-4). -/
def edgeFlags (n height : Nat) : Nat := (if n = 0 then fSOF else 0) ||| (if n + 1 = height then fEOF else 0)

/-- HEIGHT, WIDTH, PAD_BLACK and the pad rules in force (R105). -/
def State.height (s : State) (p : Nat) : Nat := s.inForce (campA p) CAMP_SIZE_HEIGHT
def State.width (s : State) (p : Nat) : Nat := s.inForce (campA p) CAMP_SIZE_WIDTH
/-- All 16 bits of PAD_BLACK, also where it is wider than the packed sample (notes/assumptions/74.md). -/
def State.black (s : State) (p : Nat) : Nat := s.inForce (campA p) CAMP_PAD_PAD_BLACK

/-! ### Control packets at the source (R26, R124, R508) -/

/-- A stored entry of an injection channel or parameter set: four words (Table 1-5). -/
def entryOf (w : Nat → Word) : CtlEntry := ⟨bits (w 0).toNat 31 28, bits (w 0).toNat 27 0, w 1, w 2⟩

/-- The entries staged in an injection channel. -/
def State.injEntries (s : State) (k : Nat) : List CtlEntry :=
  (List.range (s.fld fabA (FAB_INJ_CTL_COUNT.nth 0x10 k) + 1)).map (fun e => entryOf (fun i => s.tget .inject k (4 * e + i)))

/-- The entries of a parameter set, up to the first whose OP is 0 (R124). -/
def State.psetEntries (s : State) (p set : Nat) : List CtlEntry :=
  ((List.range 16).map (fun e => entryOf (fun i => s.tget .pset p (set * 64 + 4 * e + i)))).takeWhile (fun e => e.op ≠ 0)

/-! ### Lines -/

/-- The bits of a line as one number: gang transfer t at bit G x t, the port at position k at bit 32 k of it (R90, R91). -/
def gangBits (parts : List LinePart) : Nat :=
  let m := parts.length
  (List.range m).foldl (fun acc k =>
    acc + (((parts[k]?).map (·.transfers)).getD []).foldr (fun w r => w.toNat + 2 ^ (32 * m) * r) 0 * 2 ^ (32 * k)) 0

/-- n samples of b bits from the lowest bit up (R90). -/
def unpack (b n : Nat) (v : Nat) : List Nat := (List.range n).map (fun i => (v >>> (b * i)) % 2 ^ b)

/-- Padding of a line by replication: sample x takes sample x - 4k of those received; black with fewer than four (R101). -/
def padLine (replicate : Bool) (black width : Nat) (got : List Nat) : List Nat :=
  let c := got.length
  if width ≤ c then got.take width
  else got ++ (List.range (width - c)).map (fun i =>
    if replicate && 4 ≤ c then (got[c - 4 + (i % 4)]?).getD black else black)

/-- A line that the device adds to a frame: the line four before it, or black (R101). -/
def State.addedLine (s : State) (p : Nat) : List Nat :=
  let l := (s.camp p).last4
  if s.inForce (campA p) CAMP_CTRL_FRAME_PAD = 0 && l.length = 4 then (l[3]?).getD []
  else List.replicate (s.width p) (s.black p)

/-- A FIFO overflow (R106): counted, flagged, and recorded for a class-0 stream. -/
def State.overflow (s : State) (p : Nat) : State :=
  let c := s.camp p
  let s1 := ((s.setFlag (campA p) CAMP_STATUS_OVERFLOW true).incFld (campA p) CAMP_CNTC_OVERFLOWS 1).setCamp p { c with overflow := true }
  if s.classOf (s.portSid p) = 0 then s1.record 0 0x06 1 (srcOf 0 0x10 p) c.frame (info8 (s.portSid p)) else s1

/-- The device adds the next line itself, with the flags given; after an overflow every later line of the frame is discarded
(R106). The added line is one of the last four delivered lines for a later one (notes/assumptions/74.md). -/
def State.insertLine (s : State) (p flags : Nat) : State :=
  let c := s.camp p
  if c.overflow then s.setCamp p { c with lines := c.lines + 1 }
  else
    let body := s.addedLine p
    let k : Pkt := ⟨s.campHdr p c.lines (flags ||| edgeFlags c.lines (s.height p)) s.time32, .line body⟩
    ((s.admitStream (s.portSid p) (srcOf 0 0x10 p)).setCamp p { c with
                          fifo := c.fifo ++ [⟨k, c.pipesOf (s.height p) c.lines, true, true⟩], lines := c.lines + 1
                          last4 := (body :: c.last4).take 4, lineOk := false }).showFifo p

/-- Many added lines. -/
def State.insertLines (s : State) (p flags : Nat) : Nat → State
  | 0 => s
  | n + 1 => State.insertLines (s.insertLine p flags) p flags n

/-- The mean line period is shown in ps; it is measured against the time counter (R111, R393). -/
def State.showPeriods (s : State) (p : Nat) : State :=
  let l := (s.camp p).periods
  if l = [] then s else s.setFld (campA p) CAMP_TLINE_TLINE_PS (min (2 ^ 28 - 1) (l.sum * 1000 / (l.length * 2 ^ 32)))

/-- LV rises inside a frame: a line starts (R99, R106, R110, R111). -/
def State.lineStart (s : State) (p : Nat) : State :=
  let c := s.camp p
  if !s.campOn p || !c.inFrame || c.lineOpen then s
  else
    let c1 := { c with lineOpen := true, lineDrop := true, lineAt := s.now32, lineOk := true
                       periods := if c.lineOk then ((s.now32 - c.lineAt).toNat :: c.periods).take 64 else c.periods }
    let s1 := (s.setCamp p c1).showPeriods p
    if c.lines ≥ s.height p then s1.setCamp p { c1 with long := true }
    else if c.overflow then s1.setCamp p { c1 with lines := c.lines + 1 }
    else if c.level ≥ 16 then (s1.overflow p).setCamp p { (s1.overflow p).camp p with lines := c.lines + 1 }
    else
      let k : Pkt := ⟨s.campHdr p c.lines (edgeFlags c.lines (s.height p)) s.time32, .line []⟩
      ((s1.admitStream (s.portSid p) (srcOf 0 0x10 p)).setCamp p { c1 with
                              lineDrop := false, lines := c.lines + 1
                              fifo := c.fifo ++ [⟨k, c.pipesOf (s.height p) c.lines, false, false⟩] }).showFifo p

/-- A member is out of step with the leader's line of `cycles` cycles (R93). -/
def LinePart.skewed (cycles : Nat) (l : LinePart) : Bool :=
  match l.after with
  | none => true
  | some d => decide (16 < d.natAbs) || decide (l.transfers.length / 2 < cycles)

/-- What a line of a port or gang holds: its samples, its flags, whether the gang was skewed (R90 to R93, R100, R101). -/
structure LineResult where
  samples : List Nat
  flags : Nat
  short : Bool
  long : Bool
  skew : Bool
  deriving DecidableEq, Repr

/-- How a line is judged; `lost`: the port clock, or one of a gang's, has stopped, and the line ends as a short line with the
cycles that every port has received (R104). -/
def State.judgeLine (s : State) (p : Nat) (parts : List LinePart) (lost : Bool := false) : LineResult :=
  let c := s.camp p
  let m := gangPorts c.gang
  let b := packBits c.pack
  let width := s.width p
  let head := match parts with | l :: _ => l.transfers.length / 2 | [] => 0
  let cycles := if lost then
      (List.range (m - 1)).foldl (fun n k => min n (((parts[k + 1]?).getD ⟨[], none⟩).transfers.length / 2)) head
    else head
  let rep := s.inForce (campA p) CAMP_CTRL_LINE_PAD = 0
  let members := (List.range (m - 1)).map (fun k => (parts[k + 1]?).getD ⟨[], none⟩)
  if !lost && members.any (LinePart.skewed cycles) then
    ⟨padLine rep (s.black p) width [], fPADDED, false, false, true⟩
  else
    let used := (List.range m).map (fun k => ⟨(((parts[k]?).getD ⟨[], none⟩).transfers).take (2 * cycles), none⟩)
    let count := 2 * cycles * (32 * m) / b
    let exp := divCeil (width * b) (2 * (32 * m))
    let got := unpack b (min count width) (gangBits used)
    let short := lost || decide (count < width)
    let long := !lost && decide (cycles > exp)
    ⟨padLine rep (s.black p) width got, (if short then fPADDED else 0) ||| (if long then fCUT else 0), short, long, false⟩

/-- The line that is being received, filled and closed. -/
def fillOpen (samples : List Nat) (flags : Nat) : List FifoItem → List FifoItem
  | [] => []
  | x :: t =>
    if x.whole then x :: fillOpen samples flags t
    else { x with pkt := ⟨{ x.pkt.h with flags := x.pkt.h.flags ||| flags }, .line samples⟩, whole := true } :: t

/-- The open line ends and is judged (R93, R100, R101, R104). -/
def State.lineEnd (s : State) (p : Nat) (parts : List LinePart) (lost : Bool := false) : State :=
  let c := s.camp p
  if !c.lineOpen then s
  else
    let r := s.judgeLine p parts lost
    let b := campA p
    let s1 := if r.short then s.incFld b CAMP_CNTA_SHORT_LINES 1 else s
    let s2 := if r.long then s1.incFld b CAMP_CNTA_LONG_LINES 1 else s1
    let s3 := if r.skew then
        (s2.setFlag b CAMP_STATUS_GANG_SKEW true).record 0 0x05 1 (srcOf 0 0x10 p) 0 (info8 (s.portSid p))
      else s2
    let c1 := { c with lineOpen := false, lineOk := c.lineOk && decide (r.flags = 0) }
    if c.lineDrop then s3.setCamp p c1
    else
      (s3.setCamp p { c1 with fifo := fillOpen r.samples r.flags c.fifo, last4 := (r.samples :: c.last4).take 4 }).drain p

/-- The frame ends: an open line is judged by what it has received, a short frame is filled, a long one counted, and the
frame-end packet follows (R99, R101, R104, R106). -/
def State.frameEnd (s : State) (p : Nat) (parts : List LinePart) (lost : Bool := false) : State :=
  let s0 := s.lineEnd p parts lost
  let c := s0.camp p
  if !c.inFrame then s0
  else
    let missing := s0.height p - c.lines
    let sa := if lost || decide (missing > 0) then s0.incFld (campA p) CAMP_CNTC_SHORT_FRAMES 1 else s0
    let sb := if c.long then sa.incFld (campA p) CAMP_CNTC_LONG_FRAMES 1 else sa
    let s1 := sb.insertLines p fPADDED missing
    let c1 := s1.camp p
    let s2 := s1.pushPkt p ⟨s1.campHdr p 0 (if c1.overflow || c1.long then fCUT else 0) s1.time32, .frameEnd⟩
    (s2.setCamp p { s2.camp p with inFrame := false, fvFallNs := some s.nowNs, lineOk := false }).setFlag (campA p)
      CAMP_STATUS_IN_FRAME false

/-! ### Enabling (R108, R109) -/

/-- Members of a gang show their leader (R92). -/
def State.showMembers (s : State) (p m : Nat) (on : Bool) : State :=
  (List.range (m - 1)).foldl (fun t j =>
    (t.setFlag (campA (p + j + 1)) CAMP_STATUS_MEMBER on).setFld (campA (p + j + 1)) CAMP_STATUS_LEADER (if on then p else 0)) s

/-- EN has risen: the settings are read, measured periods start again, capture waits for the next frame start (R108, R109). -/
def State.campStart (s : State) (p : Nat) : State :=
  let b := campA p
  let g := s.fld b CAMP_CTRL_GANG
  let c := s.camp p
  let c1 : Camp := { gang := g, pack := s.fld b CAMP_CTRL_PACK, pipe := s.fld b CAMP_CTRL_PIPE, pipeB := s.fld b CAMP_CTRL_PIPE_B
                     fifo := c.fifo, training := c.training, fv := c.fv, fvNs := c.fvNs, fvTick := c.fvTick }
  let s1 := ((s.setCamp p c1).showMembers p (gangPorts g) true).setFlag b CAMP_STATUS_ACTIVE true
  let s2 := ((s1.setFld b CAMP_TLINE_TLINE_PS 0).setFld b CAMP_TFRAME_TFRAME_NS 0).setFlag (calA p) CAL_STATUS_NO_TFRAME true
  let s3 := (s2.setFld (calA p) CAL_INFORCE_CAL_ID 0xFFFF).setCal p { s2.cal p with missed := [] }
  let s4 := c1.pipesUsed.foldl (fun t q => t.setPipe q { t.pipe q with starts := t.portSid p :: (t.pipe q).starts }) s3
  (s4.setFlag (calA p) CAL_STATUS_RUNNING (s4.calRuns p)).class0Check

/-- EN has fallen: the open line is discarded, and an open frame ends with CUT (R109). -/
def State.campStop (s : State) (p : Nat) : State :=
  let c := s.camp p
  let s1 := s.setCamp p { c with lineOpen := false, inFrame := false, fifo := c.fifo.filter (·.whole) }
  let s2 := if c.inFrame then s1.pushPkt p ⟨s.campHdr p 0 fCUT s.time32, .frameEnd⟩ else s1
  ((((s2.showMembers p (gangPorts c.gang) false).setFlag (campA p) CAMP_STATUS_ACTIVE false).setFlag (campA p)
    CAMP_STATUS_IN_FRAME false).setFlag (calA p) CAL_STATUS_RUNNING false).class0Check

/-- Full training begins (R96): afresh where one is in progress, and whatever TRAIN_MODE is (notes/assumptions/74.md). -/
def State.trainStart (s : State) (p : Nat) : State :=
  (s.setCamp p { s.camp p with training := { active := true, cycles := 0, pass := [], moved := (s.camp p).training.moved } }).setFlag
    (campA p) CAMP_STATUS_TRAIN_BUSY true
/-- TRAIN_MODE of the leader is 2, and the port is enabled and untrained: training starts unless it is in progress (R92, R96). -/
def State.autoTrain (s : State) (p : Nat) : State :=
  let l := s.leaderOf p
  if s.flag (campA l) CAMP_CTRL_EN && s.fld (campA l) CAMP_CTRL_TRAIN_MODE = 2 && !s.flag (campA p) CAMP_STATUS_TRAINED &&
    !(s.camp p).training.active then s.trainStart p
  else s

/-- Writes of CAMP registers (R92, R96, R98, R105, R107 to R109, R112): START of a leader trains every port of its gang, START of a
member none. -/
def campWrite (x : WCtx) (p off a : Nat) (v m : Word) (s : State) : State × WRes :=
  let b := campA p
  if off = CAMP_CTRL then
    let old := s.rd a
    let new := (old &&& ~~~ m) ||| (v &&& m)
    let rises := new.toNat.testBit 0 && !old.toNat.testBit 0
    if rises && s.enRejected p new then
      let s1 := (s.genWrite x a v (m &&& ~~~ 1)).1
      refusedW ((s1.setFlag b CAMP_STATUS_CFG_ERR true).record 0 0x05 1 (srcOf 0 0x10 p) 0 (info8 p))
    else
      let (s1, r) := s.genWrite x a v m
      if rises then
        let s2 := s1.campStart p
        ((s2.gangOf p).foldl State.autoTrain s2, r)
      else if old.toNat.testBit 0 && !new.toNat.testBit 0 then (s1.campStop p, r)
      else if bits old.toNat 11 10 ≠ 2 then ((s1.gangOf p).foldl State.autoTrain s1, r)
      else (s1, r)
  else if off = CAMP_FRAME then
    if s.flag b CAMP_CTRL_EN then okW s else s.genWrite x a v m
  else if off = CAMP_STREAM then
    let (s1, r) := s.genWrite x a v m
    (s1.class0Check, r)
  else if off = CAMP_TRCTL then
    if s.flag b CAMP_STATUS_MEMBER then s.genWrite x a v (m &&& ~~~ 1)
    else
      let (s1, r) := s.genWrite x a v m
      (if (v &&& m).toNat.testBit 0 then (s1.gangOf p).foldl State.trainStart s1 else s1, r)
  else if off = CAMP_TAP then
    let i := s.fld b CAMP_TAPIDX_INDEX
    if i < 34 then
      let t := s.tget .tap p i
      let keep : Word := 0x3F &&& m
      okW (s.tset .tap p i ((t &&& ~~~ keep) ||| (v &&& keep)))
    else okW s
  else s.genWrite x a v m

/-- Reads of CAMP registers that are more than the register (R110, and the tap window). -/
def campRead (p off : Nat) (s : State) : Option (Word × State) :=
  let b := campA p
  if off = CAMP_TAP then
    let i := s.fld b CAMP_TAPIDX_INDEX
    some (if i < 34 then s.tget .tap p i else 0, s)
  else if off = CAMP_FVTS_NS then
    let t := ((s.camp p).fvNs).getD 0
    some (wd (t % 1000000000), s.wr (b + CAMP_FVTS_SEC) (wd (t / 1000000000)))
  else if off = CAMP_FIFO then
    some (s.rd (b + CAMP_FIFO), s.setFld b CAMP_FIFO_HWM (s.camp p).level)
  else none

/-! ### Calendar registers (R114, R115) -/

/-- The words of an entry as a read shows them (Table 5-1). -/
def CalEntry.word (e : CalEntry) (k : Nat) : Word :=
  match k with
  | 0 => wd e.target
  | 1 => wd (e.wlCount * 2 ^ 16 + e.wlStart)
  | 2 => wd (b2n (e.state ≠ 0) * 2 ^ 31 + e.state * 2 ^ 29 + e.tag * 2 ^ 8 + b2n e.expEn * 2 ^ 7 + e.pset)
  | _ => e.exp

/-- The number of the frame that starts next (R112). -/
def State.nextCamFrame (s : State) (p : Nat) : Nat :=
  if (s.camp p).first then s.fld (campA p) CAMP_FRAME_FRAME_NEXT else ((s.camp p).frame + 1) % 2 ^ 32
/-- TRIG_LINES x T_line have gone by since FV fell (R117). -/
def State.trigDue (s : State) (p : Nat) : Bool :=
  match (s.camp p).fvFallNs with
  | none => false
  | some t => decide (t * 1000 + s.fld (calA p) CAL_TIMING_TRIG_LINES * s.fld (campA p) CAMP_TLINE_TLINE_PS ≤ s.nowNs * 1000)
/-- The entry's trigger has passed: its frame F - K - 1 has gone or was never one of the port's, or FV of it fell
TRIG_LINES x T_line ago (R117, R118). -/
def State.trigPassed (s : State) (p : Nat) (e : CalEntry) : Bool :=
  let c := s.camp p
  let f := s.trigFrame p e
  if c.first then earlier32 f (s.nextCamFrame p) else earlier32 f c.frame || (decide (f = c.frame) && s.trigDue p)
/-- An entry misses while the condition holds: a retry whose trigger has passed as well misses again (R118, R119). -/
def State.missWhile (s : State) (p i : Nat) (due : State → CalEntry → Bool) : Nat → State
  | 0 => s
  | n + 1 =>
    let e := s.calEntry p i
    if decide (0 < e.wlCount) && (e.state = 1 || e.state = 2) && due s e then (s.calMiss p i).missWhile p i due n else s
/-- Retries of an entry, and the first miss. -/
def missRounds : Nat := 5

/-- The write to CAL_ENTRY3 stores the entry chosen by CAL_EIDX in one step, or is rejected (R114, R115, R118). -/
def State.calStore (s : State) (p : Nat) (w3 : Word) : State × WRes :=
  let b := calA p
  let i := s.fld b CAL_EIDX_EIDX
  let k := s.cal p
  let w (n : Nat) : Nat := ((k.staged[n]?).getD 0).toNat
  let tag := bits (w 2) 15 8
  let pset := bits (w 2) 6 0
  let count := bits (w 1) 23 16
  let start := bits (w 1) 10 0
  if tag = 255 ∨ (64 ≤ pset ∧ pset ≤ 126) ∨ start + count > 2048 ∨ (s.calEntry p i).state = 2 then
    refusedW (s.setFlag b CAL_STATUS_CFG_ERR true)
  else
    let e : CalEntry := { target := w 0, wlCount := count, wlStart := start, tag := tag, expEn := (w 2).testBit 7, pset := pset
                          exp := w3, state := b2n ((w 2).testBit 31) }
    let s1 := s.setCalEntry p i e
    okW (if e.state = 1 && s.calRuns p then s1.missWhile p i (fun t x => t.trigPassed p x) missRounds else s1)

/-- The bits of word 0 of a sensor-write item that are not reserved (Table 5-2). -/
def itemMask : Word := 0xFFFF0F7F
/-- Writes of CAL registers. -/
def calWrite (x : WCtx) (p off a : Nat) (v m : Word) (s : State) : State × WRes :=
  let k := s.cal p
  if off = CAL_ENTRY3 then s.calStore p (v &&& m)
  else if CAL_ENTRY0 ≤ off ∧ off < CAL_ENTRY3 then
    let n := (off - CAL_ENTRY0) / 4
    okW (s.setCal p { k with staged := k.staged.set n ((((k.staged[n]?).getD 0) &&& ~~~ m) ||| (v &&& m)) })
  else if off = CAL_WDATA0 then okW (s.setCal p { k with stagedItem := ((k.stagedItem &&& ~~~ m) ||| (v &&& m)) &&& itemMask })
  else if off = CAL_WDATA1 then
    let i := s.fld (calA p) CAL_WIDX_WIDX
    okW ((s.tset .writeList p (2 * i) k.stagedItem).tset .writeList p (2 * i + 1) v)
  else if off = CAL_PDATA then
    let i := s.fld (calA p) CAL_PIDX_PIDX
    okW (s.tset .pset p i ((s.tget .pset p i &&& ~~~ m) ||| (v &&& m)))
  else if off = CAL_CTRL then
    let (s1, r) := s.genWrite x a v m
    (s1.setFlag (calA p) CAL_STATUS_RUNNING (s1.calRuns p), r)
  else s.genWrite x a v m

/-- Reads of CAL registers that are windows or latches (R114, R126). -/
def calRead (p off : Nat) (s : State) : Option (Word × State) :=
  let b := calA p
  if CAL_ENTRY0 ≤ off ∧ off ≤ CAL_ENTRY3 then some ((s.calEntry p (s.fld b CAL_EIDX_EIDX)).word ((off - CAL_ENTRY0) / 4), s)
  else if off = CAL_WDATA0 then some (s.tget .writeList p (2 * s.fld b CAL_WIDX_WIDX), s)
  else if off = CAL_WDATA1 then some (s.tget .writeList p (2 * s.fld b CAL_WIDX_WIDX + 1), s)
  else if off = CAL_PDATA then some (s.tget .pset p (s.fld b CAL_PIDX_PIDX), s)
  else if off = CAL_MID_NS then some (s.rd (b + CAL_MID_NS), s.setFld b CAL_MID_SEC_MID_SEC ((s.cal p).mid / 1000000000))
  else none

/-! ### Taking a line into a pipe (R107) -/

/-- The first place of a FIFO that this pipe still has to take. -/
def nextFor (pipe : Nat) (l : List FifoItem) : Option FifoItem := l.find? (fun i => i.pipes.contains pipe)

/-- A whole line waits for this pipe in a port's FIFO. -/
def State.waits (s : State) (pipe p : Nat) : Bool :=
  match nextFor pipe (s.camp p).fifo with | some i => i.whole | none => false

/-- The pipe takes the first line of a FIFO; a place that every pipe has taken is freed (R94). -/
def takeLine (pipe : Nat) : List FifoItem → List FifoItem × List Pkt
  | [] => ([], [])
  | x :: t =>
    if x.pipes.contains pipe then
      let rest := x.pipes.filter (· ≠ pipe)
      ((if rest = [] then t else { x with pipes := rest } :: t), [x.pkt])
    else
      let (t', ps) := takeLine pipe t
      (x :: t', ps)

/-- Ports in round-robin order after the one last served. -/
def roundRobin (last n : Nat) : List Nat := (List.range n).map (fun i => (last + 1 + i) % n)

/-- The class-0 ports that wait, the lowest-numbered first (R107). -/
def State.class0Ports (s : State) (pipe : Nat) : List Nat :=
  (List.range 12).filter (fun p => s.waits pipe p && s.classOf (s.portSid p) = 0)

def State.pipeTake (s : State) (pipe : Nat) : State :=
  let c0 := s.class0Ports pipe
  let pick := match c0 with
    | p :: _ => some p
    | [] => (roundRobin (s.pipe pipe).last 12).find? (fun p => s.waits pipe p)
  match pick with
  | none => s
  | some p =>
    let (f, ps) := takeLine pipe (s.camp p).fifo
    (((s.setCamp p { s.camp p with fifo := f }).setPipe pipe { s.pipe pipe with last := p }).toPipe pipe ps).drain p

/-! ### Meanings -/

/-- CAMP_ENABLE: a write of CAMP_CTRL with EN = 1 (R108). -/
def execCampEnable (r : Req) (p : Fin 12) (value : Word) (s : State) : Out3 :=
  onLive s fun s => (campWrite ⟨r, .space, true⟩ p CAMP_CTRL (campA p + CAMP_CTRL) (value ||| 1) 0xFFFFFFFF s).1
/-- CAMP_DISABLE: a write of CAMP_CTRL with EN = 0 (R109). -/
def execCampDisable (r : Req) (p : Fin 12) (value : Word) (s : State) : Out3 :=
  onLive s fun s => (campWrite ⟨r, .space, true⟩ p CAMP_CTRL (campA p + CAMP_CTRL) (value &&& 0xFFFFFFFE) 0xFFFFFFFF s).1
/-- The first LV rising edge of a frame ends the measurement of G of the heads that follow the port (R204). -/
def State.measureG (s : State) (p : Nat) : State :=
  (List.range 4).foldl (fun t h =>
    match (t.head h).gFrom with
    | some fv =>
      if t.inForce (headA h) HEAD_CTRL_LOCK_PORT = p then
        (t.setFld (headA h) HEAD_GFV_G_NS (sat 24 (t.nowNs - fv))).setHead h { t.head h with gFrom := none }
      else t
    | none => t) s
/-- CAMERA_LINE_START: LV rises within a frame (R99, R204). -/
def execCameraLineStart (p : Fin 12) (s : State) : Out3 :=
  onLive s fun s => if s.campOn p && (s.camp p).inFrame then (s.measureG p).lineStart p else s
/-- LINE_TIMEOUT has passed since the previous line's start; 0 selects 1.5 line periods, once one is measured (R102). -/
def State.lineOverdue (s : State) (p : Nat) : Bool :=
  let c := s.camp p
  let ns := s.fld (campA p) CAMP_LTO_LINE_TIMEOUT
  if ns = 0 then !c.periods.isEmpty && decide (3 * (c.periods.sum : Int) ≤ 2 * c.periods.length * (s.now32 - c.lineAt))
  else decide (c.lineAt + (ns * 2 ^ 32 : Nat) ≤ s.now32)
/-- The frame deadline in ps; 0 selects T_frame + 2 x T_line, and 1 s before the first measurement (R103). -/
def State.frameDeadlinePs (s : State) (p : Nat) : Nat :=
  let us := s.fld (campA p) CAMP_FDL_FRAME_DEADLINE
  if us ≠ 0 then us * 1000000
  else if s.flag (calA p) CAL_STATUS_NO_TFRAME then 1000000000000
  else s.fld (campA p) CAMP_TFRAME_TFRAME_NS * 1000 + 2 * s.fld (campA p) CAMP_TLINE_TLINE_PS
/-- The next deadline since the last rise of FV has passed; each expiry is one deadline later (R103, notes/assumptions/74.md). -/
def State.frameOverdue (s : State) (p : Nat) : Bool :=
  match (if (s.camp p).first then none else (s.camp p).fvNs) with
  | none => true
  | some t => decide (t * 1000 + ((s.camp p).deadlines + 1) * s.frameDeadlinePs p ≤ s.nowNs * 1000)
/-- LINE_TIMEOUT: the line timeout expires inside a frame with fewer than HEIGHT lines: a LATE line is inserted (R102). -/
def execLineTimeout (p : Fin 12) (s : State) : Out3 :=
  onLive s fun s =>
    let c := s.camp p
    if s.campOn p && c.inFrame && decide (0 < c.lines) && decide (c.lines < s.height p) && s.lineOverdue p then
      let s1 := (s.incFld (campA p) CAMP_CNTB_LINE_TIMEOUTS 1).insertLine p fLATE
      (s1.setCamp p { s1.camp p with lineAt := s.now32, lineOk := false }).drain p
    else s
/-- Entries of the frame that starts next whose deadline has gone by without their last acknowledgement miss (R118, R119):
`next` is that frame's number. -/
def State.lateEntries (s : State) (p next : Nat) : State :=
  ((s.cal p).entries.map (·.1)).foldl (fun t i =>
    t.missWhile p i (fun u e => earlier32 (u.trigFrame p e) next) missRounds) s
/-- The deadline of the entries served in the open frame interval: the last FV rise + T_frame - DL_GUARD, in ns (R117). -/
def State.calDeadlineNs (s : State) (p : Nat) : Nat :=
  ((s.camp p).fvNs.getD 0) + s.fld (campA p) CAMP_TFRAME_TFRAME_NS - s.fld (calA p) CAL_TIMING_DL_GUARD * 1000
/-- Armed entries of a calendar, by index. -/
def State.armed (s : State) (p : Nat) : List Nat := ((s.cal p).entries.filter (fun e => e.2.state ≠ 0)).map (·.1)
/-- The entries that may take effect for a frame, by index. -/
def State.matching (s : State) (p frame : Nat) : List Nat :=
  (s.armed p).filter (fun i => (s.calEntry p i).target = frame &&
    ((s.calEntry p i).wlCount = 0 || (s.calEntry p i).state = 3))
/-- The CAL_ID that a frame will carry: of the entry that will take effect for it, else of the one in force (R125). -/
def State.calIdFor (s : State) (p frame : Nat) : Nat :=
  match (if s.calRuns p then s.matching p frame else []) with
  | i :: _ => (s.calEntry p i).calId i
  | [] => s.fld (calA p) CAL_INFORCE_CAL_ID

/-- FRAME_DEADLINE: a late marker is sent with the number of the late frame, its CAL_ID, and MISSED where its entry has missed;
four in a row set NO_SIGNAL (R103, R112, R119, R125). Before the first FV rise since EN as well (notes/assumptions/74.md). -/
def execFrameDeadline (p : Fin 12) (s : State) : Out3 :=
  onLive s fun s0 =>
    if !s0.campOn p || !s0.frameOverdue p then s0
    else
      let next := s0.nextCamFrame p
      let s := if s0.calRuns p && decide (s0.calDeadlineNs p ≤ s0.nowNs) then s0.lateEntries p next else s0
      let c := s.camp p
      let h := { s.campHdr p 0 0 s.time32 with
        frame := next, calId := s.calIdFor p next
        flags := fLATE ||| if (s.cal p).missed.contains next then fMISSED else 0 }
      let s1 := (s.incFld (campA p) CAMP_CNTC_LATE_FRAMES 1).pushPkt p ⟨h, .late⟩
      let s2 := s1.setCamp p { s1.camp p with lateNext := true, deadlines := c.deadlines + 1 }
      if c.deadlines + 1 ≥ 4 then s2.setFlag (campA p) CAMP_STATUS_NO_SIGNAL true else s2
/-- CLOCK_LOST: CK_LOST; an open line ends as a short line and an open frame as a short frame; the loss of any port's clock
is the gang's (R104). -/
def execClockLost (p : Fin 12) (parts : List LinePart) (s : State) : Out3 :=
  onLive s fun s =>
    let l := s.leaderOf p
    if !s.flag (campA l) CAMP_CTRL_EN then s
    else (s.setFlag (campA l) CAMP_STATUS_CK_LOST true).frameEnd l parts true

/-- TRAINING_START: START is written, by the requester and with the value of `write`, or an enabled untrained port has
TRAIN_MODE = 2 (R96). -/
def execTrainingStart (p : Fin 12) (write : Option (Req × Word)) (s : State) : Out3 :=
  onLive s fun s =>
    match write with
    | some (r, v) => (campWrite ⟨r, .space, true⟩ p CAMP_TRCTL (campA p + CAMP_TRCTL) (v ||| 1) 0xFFFFFFFF s).1
    | none => s.autoTrain p

/-- Data bits on which both transfers of a cycle match the training word (R95, R96). -/
def BurstCycle.matching (word : Word) (c : BurstCycle) : Word := ~~~ (c.rise ^^^ word) &&& ~~~ (c.fall ^^^ ~~~ word)

/-- Cycles of a burst counted into the taps under test: eight cycles a tap (R96). -/
def trainOn (word : Word) : List BurstCycle → Training → Training
  | [], t => t
  | c :: rest, t =>
    if t.cycles ≥ 512 then t
    else
      let tap := t.cycles / 8
      let m := c.matching word
      let pass := if t.cycles % 8 = 0 then t.pass ++ [m] else t.pass.set tap (((t.pass[tap]?).getD 0) &&& m)
      trainOn word rest { t with cycles := t.cycles + 1, pass := pass }

/-- TAP of a data bit. -/
def State.tapOf (s : State) (p i : Nat) : Nat := bits (s.tget .tap p i).toNat 5 0

/-- The taps that tracking tests on each side of TAP: TRACK_OFFSET away, at the nearer end where that lies outside 0 to 63
(R97). -/
def State.testTaps (s : State) (p i : Nat) : Nat × Nat :=
  let o := s.fld (campA (s.leaderOf p)) CAMP_TRCTL_TRACK_OFFSET
  (s.tapOf p i - o, min 63 (s.tapOf p i + o))

/-- One tracking step of a bit (R97): `lo` and `hi` say whether it passed at TAP - TRACK_OFFSET and TAP + TRACK_OFFSET. A bit that
has moved in this frame moves no further. WEAK and its bit of FAIL_MASK stay until the next full training
(notes/assumptions/74.md). -/
def State.trackBit (s : State) (p i : Nat) (lo hi : Bool) : State :=
  let w := (s.tget .tap p i).toNat
  let tap := bits w 5 0
  let c := s.camp p
  if !lo && !hi then
    ((s.tset .tap p i (wd (putBits w 31 31 1))).setFlag (campA p) CAMP_STATUS_TRAIN_FAIL true).setBit (campA p)
      CAMP_TRFAIL_FAIL_MASK i true
  else if c.training.moved.toNat.testBit i || lo == hi then s
  else
    (s.tset .tap p i (wd (putBits w 5 0 (if lo then tap - 1 else min 63 (tap + 1))))).setCamp p
      { c with training := { c.training with moved := c.training.moved ||| wd (2 ^ i) } }

/-- Cycles outside a training or tracking step that do not match the word count in STRAY (R95). -/
def State.stray (s : State) (p : Nat) (cycles : List BurstCycle) : State :=
  let word := s.rd (campA (s.leaderOf p) + CAMP_TRWORD)
  let n := (cycles.filter (fun c => c.matching word ≠ 0xFFFFFFFF)).length
  if n = 0 then s else s.incFld (campA p) CAMP_CNTB_STRAY n

/-- A tracking step (R97): the first eight cycles of a burst are captured at the low tap of every bit and the next eight at the
high one (notes/assumptions/65.md); the taps tested are the port's own output. -/
def State.trackStep (s : State) (p : Nat) (cycles : List BurstCycle) : State :=
  let word := s.rd (campA (s.leaderOf p) + CAMP_TRWORD)
  let all (cs : List BurstCycle) : Word := cs.foldl (fun m c => m &&& c.matching word) 0xFFFFFFFF
  let lo := all (cycles.take 8)
  let hi := all ((cycles.drop 8).take 8)
  let taps := (List.range 32).map (s.testTaps p)
  (List.range 32).foldl (fun u i => u.trackBit p i (lo.toNat.testBit i) (hi.toNat.testBit i))
    (s.emit (.camera (Fin.ofNat 12 p)) 1 (taps.map (·.1) ++ taps.map (·.2)))

/-- TRAINING_BURST: cycles with LV high and FV low (R95 to R97). In full training they test the taps in turn, up to the 512th; a
burst of 16 or more makes a tracking step; the others count in STRAY where they do not match. -/
def execTrainingBurst (p : Fin 12) (cycles : List BurstCycle) (s : State) : Out3 :=
  onLive s fun s =>
    let l := s.leaderOf p
    let t := (s.camp p).training
    if t.active then
      (s.setCamp p { s.camp p with training := trainOn (s.rd (campA l + CAMP_TRWORD)) cycles t }).stray p
        (cycles.drop (512 - t.cycles))
    else if s.fld (campA l) CAMP_CTRL_TRAIN_MODE = 2 && s.flag (campA p) CAMP_STATUS_TRAINED && decide (16 ≤ cycles.length) then
      (s.trackStep p cycles).stray p (cycles.drop 16)
    else s.stray p cycles

/-- The longest run of true values: where it starts, and how long it is (the first such run). -/
def longestRun (l : List Bool) : Nat × Nat :=
  let r := l.foldl (fun (a : Nat × Nat × Nat × Nat) x =>
    let (i, run, bs, bl) := a
    if x then (i + 1, run + 1, if run + 1 > bl then i - run else bs, max bl (run + 1)) else (i + 1, 0, bs, bl)) (0, 0, 0, 0)
  (r.2.2.1, r.2.2.2)

/-- TRAINING_END: after 512 burst cycles each bit takes the middle of its longest run; runs shorter than MIN_EYE fail
(R96). EYE of a run of all 64 taps shows 63, the most its six bits hold (notes/assumptions/74.md). -/
def execTrainingEnd (p : Fin 12) (s : State) : Out3 :=
  onLive s fun s =>
    let b := campA p
    let t := (s.camp p).training
    if !t.active || decide (t.cycles < 512) then s
    else
      let run (i : Nat) : Nat × Nat := longestRun (t.pass.map (fun w => w.toNat.testBit i))
      let bad (i : Nat) : Bool := decide ((run i).2 < s.fld (campA (s.leaderOf p)) CAMP_TRCTL_MIN_EYE)
      let s1 := (List.range 32).foldl (fun u i =>
        let w := putBits (putBits (u.tget .tap p i).toNat 21 16 (sat 6 (run i).2)) 31 31 0
        u.tset .tap p i (wd (if bad i then w else putBits w 5 0 ((run i).1 + ((run i).2 - 1) / 2)))) s
      let fails := (List.range 32).filter bad
      let s2 := ((s1.setCamp p { s1.camp p with training := { moved := t.moved } }).setFlag b CAMP_STATUS_TRAIN_BUSY false).setFlag b
        CAMP_TRCTL_START false
      if fails = [] then (s2.setFlag b CAMP_STATUS_TRAINED true).setFld b CAMP_TRFAIL_FAIL_MASK 0
      else
        (((s2.setFlag b CAMP_STATUS_TRAIN_FAIL true).setFlag b CAMP_STATUS_TRAINED false).setFld b CAMP_TRFAIL_FAIL_MASK
          (fails.foldl (fun m i => m + 2 ^ i) 0)).record 0 0x05 1 (srcOf 0 0x10 p) 0 (info8 p)

/-- TAP_WRITE: a write of CAMP_TAP sets the selected tap (R98). -/
def execTapWrite (r : Req) (p : Fin 12) (value : Word) (s : State) : Out3 :=
  onLive s fun s => (campWrite ⟨r, .space, true⟩ p CAMP_TAP (campA p + CAMP_TAP) value 0xFFFFFFFF s).1

/-- PIPE_LINE_DONE: a pipe finishes a line and takes the next (R107). -/
def execPipeLineDone (pipe : Fin 8) (s : State) : Out3 := onLive s fun s => s.pipeTake pipe

/-- CAL_ENTRY_STORE: a write to CAL_ENTRY3 (R114, R115). -/
def execCalEntryStore (r : Req) (p : Fin 12) (value : Word) (s : State) : Out3 :=
  onLive s fun s => (calWrite ⟨r, .space, true⟩ p CAL_ENTRY3 (calA p + CAL_ENTRY3) value 0xFFFFFFFF s).1
/-- WRITE_LIST_STORE: a write to CAL_WDATA1 stores a sensor-write item (R114). -/
def execWriteListStore (r : Req) (p : Fin 12) (value : Word) (s : State) : Out3 :=
  onLive s fun s => (calWrite ⟨r, .space, true⟩ p CAL_WDATA1 (calA p + CAL_WDATA1) value 0xFFFFFFFF s).1

/-- CAL_DEADLINE: the deadline has come, and items of the entry not acknowledged by now miss (R117, R118). -/
def execCalDeadline (p : Fin 12) (entry : Fin 256) (s : State) : Out3 :=
  onLive s fun s =>
    let e := s.calEntry p entry
    let c := s.fld (calA p) CAL_CTRL_TWC
    if s.nowNs < s.calDeadlineNs p then s
    else if e.state = 2 then
      let late := ((s.twc c).queue.filter (fun x => x.port = p.val && x.entry = entry.val && (s.twc c).cur != some (.item x))).length
      (s.incFld (twcA c) TWC_CNT2_LATE_ITEMS late).calMiss p entry
    else if e.state = 1 && decide (0 < e.wlCount) && s.calRuns p && !(s.camp p).first && decide (s.trigFrame p e = (s.camp p).frame) then
      s.calMiss p entry
    else s

/-- The freeze of a camera stream: its port, its calendar, its pipe slots and their MFE (R122). -/
def State.freezeStream (s : State) (p : Nat) : State :=
  let s1 := (s.freeze (campA p)).freeze (calA p)
  (s.camp p).pipesUsed.foldl (fun t pipe =>
    (List.range 3).foldl (fun u k =>
      if u.fld (pipeA pipe + 0x40 * k) FE_SCTRL_STREAM_ID = u.portSid p then
        let v := u.freeze (pipeA pipe + k)
        if v.fld (pipeA pipe) FE_CTRL_TNR_SLOT = k then v.freeze (mfeA pipe) else v
      else u) t) s1
/-- The freeze point of the next frame has come: 2 x T_line before the last FV rise + T_frame (R122). -/
def State.freezeDue (s : State) (p : Nat) : Bool :=
  decide (((s.camp p).fvNs.getD 0 + s.fld (campA p) CAMP_TFRAME_TFRAME_NS) * 1000 ≤
    s.nowNs * 1000 + 2 * s.fld (campA p) CAMP_TLINE_TLINE_PS)
/-- FREEZE: the freeze point of a camera stream passes: later control-space writes of SH fields are held (R122). Before T_frame
is measured the freeze falls at the Solstice itself. -/
def execFreeze (p : Fin 12) (s : State) : Out3 :=
  onLive s fun s =>
    if !s.campOn p || s.flag (calA p) CAL_STATUS_NO_TFRAME || !s.freezeDue p then s else s.freezeStream p

end Sys2Proof.Machine
end

