-- ==== Sys2Proof/Machine/Axis.lean ====
section
/-! DEFINITION. The commands of position axes and encoder outputs (R423 to R440), and their registers. -/
namespace Sys2Proof.Machine

/-! ### Registers -/

/-- A write of AXIS_CTRL (R424, R432, R433): refused for a reserved mode or a limit on an axis that has none; MODE and
LIMIT_EN stand while the axis runs; EN is refused for a reserved index mode or crossed limits. -/
def axisCtrl (c : WCtx) (x a : Nat) (v m : Word) (s : State) : State × WRes :=
  let b := axisA x
  let old := s.rd a
  let new := (old &&& ~~~ m) ||| (v &&& m)
  let mode := bits new.toNat 30 28
  let limit := new.toNat.testBit 25
  let ran := s.axRuns x
  if mode ≥ 5 || (limit && decide (x < 40)) then refusedW (s.setFlag b AXIS_STATUS_CFG_ERR true)
  else
    let fixed : Word := 0x72000000
    let moved := ran && ((new ^^^ old) &&& fixed) != 0
    let v1 := if ran then (v &&& ~~~ fixed) ||| (old &&& fixed) else v
    let rises := new.toNat.testBit 31 && !ran
    let bad := rises && (bits new.toNat 27 26 = 3 || (limit && decide (s.axHi x < s.axLo x)))
    let s1 := (s.genWrite c a v1 (if bad then m &&& 0x7FFFFFFF else m)).1
    let s2 := if moved || bad then s1.setFlag b AXIS_STATUS_CFG_ERR true else s1
    let s3 := s2.setFlag b AXIS_STATUS_RUN (s2.axRuns x)
    let s4 := if rises && !bad then
        ((s3.setAxis x { s3.axis x with firstIndex := true, fine := none, amps := [], frames := [], polling := false }).axSet x
          (s3.axPos x))
      else s3.axShow x
    (s4.trimPose (s4.fld b AXIS_CTRL_POSE_PORT), if moved || bad then .refused else .ok)

/-- A write of AXIS_PDATA: a parameter word while the axis is off (R424), or a word of the pose table (R437). -/
def axisData (c : WCtx) (x a : Nat) (v m : Word) (s : State) : State × WRes :=
  let b := axisA x
  let i := s.fld b AXIS_PIDX_INDEX
  if s.flag b AXIS_PIDX_TABLE && decide (x = 0) then
    let s1 := s.advance b 48 AXIS_PIDX_INDEX
    let new := (s.tget .poseTable 0 i &&& ~~~ m) ||| (v &&& m)
    if 48 ≤ i ∨ 2 ≤ i % 4 then okW s1
    else if i % 4 = 1 ∧ bits new.toNat 3 0 > 12 then refusedW (s1.setFlag b AXIS_STATUS_CFG_ERR true)
    else
      let s2 := s1.tset .poseTable 0 i new
      okW (if c.journal then s2.journal (alEntry a (64 + i)) m new else s2)
  else
    let s1 := s.advance b 16 AXIS_PIDX_INDEX
    if s.axRuns x then refusedW (s1.setFlag b AXIS_STATUS_CFG_ERR true)
    else if 13 ≤ i then okW s1
    else
      let new := (s.tget .axisParam x i &&& ~~~ m) ||| (v &&& m)
      let s2 := s1.tset .axisParam x i new
      okW (if c.journal then s2.journal (alEntry a i) m new else s2)

/-- Writes of AXIS registers. -/
def axisWrite (c : WCtx) (x off a : Nat) (v m : Word) (s : State) : State × WRes :=
  let b := axisA x
  if off = AXIS_CTRL then axisCtrl c x a v m s
  else if off = AXIS_PDATA then axisData c x a v m s
  else if off = AXIS_POS then
    let new := (s.rd a &&& ~~~ m) ||| (v &&& m)
    okW (((s.axSet x new.toNat).setAxis x { s.axis x with preset := some (s.tick / 2 + 1) }).setFlag b AXIS_STATUS_HOMED false)
  else s.genWrite c a v m

/-- Reads of AXIS registers that are windows. -/
def axisRead (x off : Nat) (s : State) : Option (Word × State) :=
  let b := axisA x
  if off = AXIS_PDATA then
    let i := s.fld b AXIS_PIDX_INDEX
    if s.flag b AXIS_PIDX_TABLE && decide (x = 0) then
      let s1 := s.advance b 48 AXIS_PIDX_INDEX
      some (if i < 48 then s.tget .poseTable 0 i else 0, if i < 48 ∧ i % 4 = 2 then s1.tset .poseTable 0 i 0 else s1)
    else
      some (if i < 13 then s.tget .axisParam x i else 0, s.advance b 16 AXIS_PIDX_INDEX)
  else none

/-- Writes of EMU registers (R439, R440). -/
def emuWrite (c : WCtx) (e off a : Nat) (v m : Word) (s : State) : State × WRes :=
  let b := emuA e
  if off = EMU_CTRL then
    let old := s.rd a
    let new := (old &&& ~~~ m) ||| (v &&& m)
    let rises := new.toNat.testBit 31 && !old.toNat.testBit 31
    let num := s.fld b EMU_RATIO_NUM
    let den := s.fld b EMU_RATIO_DEN
    let bad := rises && (decide (den < num) || decide (den = 0))
    let s1 := (s.genWrite c a v (if bad then m &&& 0x7FFFFFFF else m)).1
    let s2 := if bad then s1.setFlag b EMU_STATUS_CFG_ERR true else s1
    let s3 := s2.setFlag b EMU_STATUS_RUN (s2.flag b EMU_CTRL_EN)
    let s4 := if rises && !bad then (s3.setEmu e { s3.emu e with acc := 0, steps := [] }).emuShow e else s3
    (s4, if bad then .refused else .ok)
  else s.genWrite c a v m

/-- AXIS_CONFIG_WRITE: a write of AXIS_CTRL, or of a parameter word through AXIS_PDATA. -/
def execAxisConfigWrite (r : Req) (axis : Fin 48) (param : Bool) (value : Word) (s : State) : Out3 :=
  onLive s fun s =>
    if param then (axisWrite (ctxOf r) axis AXIS_PDATA (axisA axis + AXIS_PDATA) value 0xFFFFFFFF s).1
    else (axisWrite (ctxOf r) axis AXIS_CTRL (axisA axis + AXIS_CTRL) value 0xFFFFFFFF s).1

/-- AXIS_ENABLE: a write of AXIS_CTRL with EN = 1. -/
def execAxisEnable (r : Req) (axis : Fin 48) (value : Word) (s : State) : Out3 :=
  onLive s fun s => (axisWrite (ctxOf r) axis AXIS_CTRL (axisA axis + AXIS_CTRL) (value ||| 0x80000000) 0xFFFFFFFF s).1

/-- POSITION_PRESET: a write of AXIS_POS (R431). -/
def execPositionPreset (r : Req) (axis : Fin 48) (value : Word) (s : State) : Out3 :=
  onLive s fun s => (axisWrite (ctxOf r) axis AXIS_POS (axisA axis + AXIS_POS) value 0xFFFFFFFF s).1

/-- EMU_ENABLE: a write of EMU_CTRL with EN = 1. -/
def execEmuEnable (r : Req) (e : Fin 16) (value : Word) (s : State) : Out3 :=
  onLive s fun s => (emuWrite (ctxOf r) e EMU_CTRL (emuA e + EMU_CTRL) (value ||| 0x80000000) 0xFFFFFFFF s).1

/-! ### Inputs -/

/-- The place of a state (A, B) in the positive sequence 00, 10, 11, 01 (R424). -/
def quadPlace (a b : Bool) : Nat := if a then (if b then 2 else 1) else (if b then 3 else 0)
/-- The place of a Hall state in 100, 110, 010, 011, 001, 101; none for 000 and 111 (R426). -/
def hallPlace (a b z : Bool) : Option Nat :=
  match a, b, z with
  | true, false, false => some 0
  | true, true, false => some 1
  | false, true, false => some 2
  | false, true, true => some 3
  | false, false, true => some 4
  | true, false, true => some 5
  | _, _, _ => none

/-- A change of A and B between two filtered samples in quadrature mode (R425). -/
def State.quadEdge (s : State) (x : Nat) (a b : Bool) : State :=
  let u := s.axis x
  let s1 := s.setAxis x { u with a := a, b := b }
  if !s.axRuns x || s.axMode x != 1 then s1
  else
    match (quadPlace a b + 4 - quadPlace u.a u.b) % 4 with
    | 1 => s1.axCount x true
    | 3 => s1.axCount x false
    | 2 => s1.axIllEdge x
    | _ => s1

def execQuadratureEdge (axis : Fin 48) (a b : Bool) (s : State) : Out3 := onLive s fun s => s.quadEdge axis a b

/-- A change of the Hall state (R426). -/
def State.hallEdge (s : State) (x : Nat) (a b z : Bool) : State :=
  let u := s.axis x
  let s1 := s.setAxis x { u with a := a, b := b, z := z }
  if !s.axRuns x || s.axMode x != 2 || (a = u.a && b = u.b && z = u.z) then s1
  else
    match hallPlace u.a u.b u.z, hallPlace a b z with
    | some p, some q =>
      if (q + 6 - p) % 6 = 1 then s1.axCount x true
      else if (q + 6 - p) % 6 = 5 then s1.axCount x false
      else s1.axIllEdge x
    | _, _ => s1.axIllEdge x

def execHallEdge (axis : Fin 48) (a b z : Bool) (s : State) : Out3 := onLive s fun s => s.hallEdge axis a b z

/-- The fine position of a sample pair (R427): a boundary of the 4,096 steps is met exactly, and nothing lies nearer to one
than the margin added. -/
def finePos (sn cs : Int) : Nat := (((trTurn cs sn + 2 ^ 40) * 4096) / trOne % 4096).toNat

/-- Samples are outside the amplitude limits (R428). -/
def State.ampBad (s : State) (x : Nat) (l : List Nat) : Bool :=
  let w := s.axPar x 6
  decide (l.sum < bits w 15 0 * 256 * l.length) || decide (bits w 31 16 * 256 * l.length < l.sum)

/-- A sample pair in sine/cosine mode (R427, R428). -/
def State.anaSample (s : State) (x : Nat) (sn cs : Int) : State :=
  let u := s.axis x
  if !s.axRuns x || s.axMode x != 3 then s
  else
    let o := s.axPar x 7
    let d := sn - toSigned 12 (bits o 11 0)
    let c := cs - toSigned 12 (bits o 27 16)
    let amps := ((d * d + c * c).toNat :: u.amps).take (2 ^ min 10 (bits (s.axPar x 8) 3 0))
    let s1 := s.setAxis x { u with amps := amps }
    if s1.ampBad x amps then s1.axFault x true
    else
      let open0 := decide (d = 0) && decide (c = 0)
      let f := if open0 then (s1.fresh 12).toNat else finePos d c
      let s2 := if open0 then s1.usedFree else s1
      match u.fine with
      | none => s2.setAxis x { s2.axis x with fine := some f }
      | some g =>
        let e := (f + 4096 - g) % 4096
        let n := if e ≤ 2048 then e else 4096 - e
        if n > 1024 then s2.axIllEdge x
        else (s2.setAxis x { s2.axis x with fine := some f }).axCounts x (decide (e ≤ 2048)) n

def execAnalogSample (axis : Fin 48) (sin cos : BitVec 12) (s : State) : Out3 :=
  onLive s fun s => s.anaSample axis sin.toInt cos.toInt

/-- The filtered Z input takes a level: encoder outputs repeat it (R439), and its rise is an index event (R433). -/
def State.zLevel (s : State) (x : Nat) (level : Bool) : State :=
  let u := s.axis x
  let inv := s.flag (axisA x) AXIS_CTRL_Z_INV
  let was := u.z != inv
  let now := level != inv
  let s1 := s.setAxis x { u with z := level }
  let s2 := (s1.emusOf x).foldl (fun (t : State) (e : Fin 16) =>
    if t.fld (emuA e) EMU_CTRL_ZMODE = 2 then t.emuZ e now else t) s1
  if s.axRuns x && (s.axMode x = 1 || s.axMode x = 3) && now && !was then s2.axIndex x else s2

def execIndexEvent (axis : Fin 48) (level : Bool) (s : State) : Out3 := onLive s fun s => s.zLevel axis level

/-! ### SSI (R429) -/

/-- SSI_POLL: the clock runs for one frame. -/
def execSsiPoll (axis : Fin 48) (s : State) : Out3 :=
  onLive s fun s =>
    if s.axRuns axis && s.axMode axis = 4 && !(s.axis axis).polling then
      let w := s.axPar axis 9
      (s.setAxis axis { s.axis axis with polling := true }).emit (.axis axis) 0 [bits w 23 18 + 1, bits w 31 24]
    else s

/-- Bits, most significant first, as a number. -/
def bitsNat (l : List Bool) : Nat := l.foldl (fun n b => 2 * n + b2n b) 0
/-- Gray code, most significant bit first, to binary. -/
def grayBits (l : List Bool) : List Bool :=
  (l.foldl (fun (a : Bool × List Bool) b => (a.1 != b, (a.1 != b) :: a.2)) (false, [])).2.reverse
/-- A CRC of w bits over bits, most significant first. -/
def crcShift (w poly : Nat) (l : List Bool) : Nat :=
  l.foldl (fun c b =>
    let t := 2 * c
    if (t.testBit w) != b then (t % 2 ^ w) ^^^ (poly % 2 ^ w) else t % 2 ^ w) 0

/-- A frame of FRAME_BITS bits passes (R429). -/
def State.ssiGood (s : State) (x : Nat) (startHigh : Bool) (f : List Bool) : Bool :=
  let n := bits (s.axPar x 9) 7 4
  let body := f.take (f.length - n)
  !startHigh && (n = 0 || crcShift n (bits (s.axPar x 10) 7 0) body = bitsNat (f.drop (f.length - n)))

/-- An SSI frame ends (R429, R431). -/
def State.ssiDone (s : State) (x : Nat) (startHigh : Bool) (data : List Bool) : State :=
  let u := s.axis x
  if !s.axRuns x || s.axMode x != 4 || !u.polling then s
  else
    let w := s.axPar x 9
    let f := (List.range (bits w 23 18)).map (fun i => (data[i]?).getD false)
    let s1 := s.setAxis x { u with polling := false }
    if !s.ssiGood x startHigh f then (s1.incFld (axisA x) AXIS_CNT_CRC_ERRS 1).axIllegal x
    else
      let p := f.take (bits w 17 12)
      let v := bitsNat (if w.testBit 11 then grayBits p else p)
      let s2 := if s.axPreset x then s1 else s1.axSet x v
      s2.setAxis x { s2.axis x with frames := (s.axReduce x v :: u.frames).take 2 }

def execSsiFrameDone (axis : Fin 48) (startHigh : Bool) (data : List Bool) (s : State) : Out3 :=
  onLive s fun s => s.ssiDone axis startHigh data

/-! ### History and pose -/

/-- HISTORY_SAMPLE: counter, velocity and time join the history (R434, R435). -/
def State.histSample (s : State) (x : Nat) : State :=
  if !s.axRuns x then s
  else
    let (v, s1) := s.axVelocity x
    let w := wd (ofSigned 32 v)
    let u := s1.axis x
    (s1.wr (axisA x + AXIS_VEL) w).setAxis x
      { u with hist := (⟨s.axPos x, w.toNat, s.nowNs⟩ :: u.hist).take 4096 }

def execHistorySample (axis : Fin 48) (s : State) : Out3 := onLive s fun s => s.histSample axis

/-- No count for VEL_TO_MS. -/
def State.axStill (s : State) (x : Nat) : Bool :=
  match (s.axis x).counts with
  | [] => true
  | c :: _ => decide (c.1 + bits (s.axPar x 11) 7 0 * 400000 ≤ s.tick)
/-- VELOCITY_TIMEOUT: no count for VEL_TO_MS (R434). -/
def execVelocityTimeout (axis : Fin 48) (s : State) : Out3 :=
  onLive s fun s =>
    if s.axRuns axis && s.axMode axis != 4 && s.axStill axis then
      (s.wr (axisA axis + AXIS_VEL) 0).setAxis axis { s.axis axis with counts := [] }
    else s

/-- POSE_FORM: the oldest waiting midpoint of a port is formed, and bytes 16 to 255 of its record are written (R436, R437). -/
def State.poseForm (s : State) (p : Nat) : State :=
  let q := s.posePort p
  match q.waiting with
  | [] => s
  | m :: rest =>
    let s0 := (s.setPosePort p { q with waiting := rest }).trimPose p
    let w1 := s.poseWord p 1
    if !s.poseDue p m then s
    else if !w1.testBit 31 then s0
    else
      let a := s.poseWord p 0 * 256 + 256 * (m.frame % 2 ^ bits w1 3 0)
      (s0.put (.axis 0) (a + 16) (s.poseRecBody p m)).setPosePort p
        { waiting := rest, header := q.header ++ [(a, m.header (s.classOf m.sid))] }

def execPoseForm (p : Fin 12) (s : State) : Out3 := onLive s fun s => s.poseForm p

/-- POSE_RECORD_COMMIT: the body of the oldest record is answered, so its header is written (R437). -/
def execPoseRecordCommit (p : Fin 12) (s : State) : Out3 :=
  onLive s fun s =>
    match (s.posePort p).header with
    | [] => s
    | (a, h) :: rest => (s.put (.axis 0) a h).setPosePort p { s.posePort p with header := rest }

/-! ### Encoder outputs (R439, R440) -/

/-- The next state (A, B) of an output in the sequence of R424. -/
def quadNext (a b up : Bool) : Bool × Bool :=
  match (quadPlace a b + (if up then 1 else 3)) % 4 with
  | 0 => (false, false)
  | 1 => (true, false)
  | 2 => (true, true)
  | _ => (false, true)

/-- ns nanoseconds have passed since a tick. -/
def State.sinceNs (s : State) (t ns : Nat) : Bool := decide (t * 5 + ns * 2 ≤ s.tick * 5)
/-- MIN_NS, at least 50, have passed since the last step (R439). -/
def State.emuFree (s : State) (e : Nat) : Bool :=
  match (s.emu e).lastStep with
  | none => true
  | some t => s.sinceNs t (max 50 (s.fld (emuA e) EMU_TIMING_MIN_NS))
/-- EMU_STEP_OUT: the oldest queued step leaves. -/
def execEmuStepOut (e : Fin 16) (s : State) : Out3 :=
  onLive s fun s =>
    let u := s.emu e
    match (if s.flag (emuA e) EMU_CTRL_EN && s.emuFree e then u.steps else []) with
    | [] => s
    | up :: rest =>
      let n := quadNext u.a u.b (up != s.flag (emuA e) EMU_CTRL_DIR_INV)
      ((s.setEmu e { u with steps := rest, a := n.1, b := n.2, lastStep := some s.tick }).emuShow e).emit (.emu e) 0 [b2n n.1, b2n n.2]

/-- EMU_Z_PULSE_END: Z falls Z_NS after it rose with a wrap. -/
def execEmuZPulseEnd (e : Fin 16) (s : State) : Out3 :=
  onLive s fun s =>
    if s.fld (emuA e) EMU_CTRL_ZMODE = 1 && s.sinceNs (s.emu e).zTick (s.fld (emuA e) EMU_TIMING_Z_NS) then s.emuZ e false else s

end Sys2Proof.Machine
end

