-- ==== Sys2Proof/Machine/Mosaic.lean ====
section
/-! DEFINITION. The arithmetic of the raw front end (R129 to R144) and of mosaic reconstruction (R159 to R167). -/
namespace Sys2Proof.Machine

/-! ### The mosaic descriptor (R159, R160) -/

structure Mos where
  d0 : Nat
  d1 : Nat
  px : Nat
  py : Nat
  deriving DecidableEq, Repr

/-- The code of cell (x, y) of the 4 x 4 repeat. -/
def Mos.cell (m : Mos) (x y : Nat) : Nat := ((if y < 2 then m.d0 else m.d1) >>> (4 * (x + 4 * (y % 2)))) % 16
/-- The channel code of the sample in column x of frame line y. -/
def Mos.code (m : Mos) (x y : Nat) : Nat := m.cell ((x + m.px) % 4) ((y + m.py) % 4)
def Mos.cells (m : Mos) : List Nat := (List.range 16).map (fun i => m.cell (i % 4) (i / 4))
/-- The descriptor may commit (R160). -/
def Mos.valid (m : Mos) : Bool :=
  m.cells.all (fun c => c ≤ 4 || c = 7) && m.cells.contains 0 && m.cells.contains 2 && (m.cells.contains 1 || m.cells.contains 3)
/-- Some cell differs from the cell two columns away or from the cell two rows away (R160). -/
def Mos.p4 (m : Mos) : Bool :=
  !((List.range 16).all (fun i => m.cell (i % 4) (i / 4) = m.cell ((i % 4 + 2) % 4) (i / 4) &&
    m.cell (i % 4) (i / 4) = m.cell (i % 4) ((i / 4 + 2) % 4)))
def Mos.period (m : Mos) : Nat := if m.p4 then 4 else 2
def Mos.guideC (m : Mos) : Bool := m.cells.contains 3
def Mos.guide (m : Mos) : Nat := if m.guideC then 3 else 1
def Mos.ir (m : Mos) : Bool := m.cells.contains 4

/-! ### Windows -/

/-- The position a + kP with the smallest |k| that lies in lo..hi (R135). -/
def phaseIn (lo hi P : Nat) (a : Int) : Nat :=
  if a < lo then (a + ((lo - a + P - 1) / P) * P).toNat
  else if a > hi then (a - ((a - hi + P - 1) / P) * P).toNat
  else a.toNat

/-- Rows of a frame with the range of lines that count as inside it. -/
structure Win where
  rows : List RawRow
  lo : Nat
  hi : Nat
  width : Nat
  period : Nat
  deriving DecidableEq, Repr

def findRow (rows : List RawRow) (n : Nat) : Option RawRow := rows.find? (fun r => r.n = n)
def Win.px (w : Win) (x : Int) : Nat := phaseIn 0 (w.width - 1) w.period x
def Win.py (w : Win) (y : Int) : Nat := phaseIn w.lo w.hi w.period y
/-- The sample at a position, substituted outside the frame (R135). -/
def Win.at (w : Win) (x y : Int) : Nat :=
  match findRow w.rows (w.py y) with
  | some r => (r.v[w.px x]?).getD 0
  | none => 0
/-- Dynamic detection has marked the sample at a position. -/
def Win.bad (w : Win) (x y : Int) : Bool :=
  match findRow w.rows (w.py y) with
  | some r => (r.bad[w.px x]?).getD false
  | none => false

/-- Offsets from -a to a. -/
def span (a : Nat) : List Int := (List.range (2 * a + 1)).map (fun (i : Nat) => (i : Int) - (a : Int))

/-- Insertion into a list sorted by key; equal keys keep their order. -/
def insertKey (k : Nat) (v : Nat) : List (Nat × Nat) → List (Nat × Nat)
  | [] => [(k, v)]
  | (a, x) :: t => if k < a then (k, v) :: (a, x) :: t else (a, x) :: insertKey k v t
/-- Values sorted by key, stable. -/
def sortKeys (l : List (Nat × Nat)) : List (Nat × Nat) := l.foldl (fun acc e => insertKey e.1 e.2 acc) []
/-- The lower median. -/
def lowerMedian (l : List Nat) : Nat :=
  let s := (sortKeys (l.map (fun v => (v, v)))).map (·.1)
  (s[(s.length - 1) / 2]?).getD 0

/-! ### Defects and spatial noise reduction (R131 to R134) -/

/-- Settings and tables in force for the window stage of a slot. -/
structure WinSet where
  mos : Mos
  defEn : Bool
  dddEn : Bool
  snrEn : Bool
  dddK : Nat
  scale : Nat
  /-- H[c] (c x 64 + point) and SW. -/
  curve : List Nat
  weights : List Nat
  mapped : List MapEntry
  deriving DecidableEq, Repr

/-- A map entry covers the sample (Table 6-2). -/
def MapEntry.covers (e : MapEntry) (x y : Nat) : Bool :=
  match e.kind with
  | 0 => e.x = x && e.y = y
  | 1 => e.x = x && e.y ≤ y
  | 2 => e.y = y
  | _ => false
def WinSet.covered (c : WinSet) (x y : Nat) : Bool := c.mapped.any (fun e => e.covers x y)
/-- The map makes the sample defective (R132). -/
def WinSet.mapDefect (c : WinSet) (x y : Nat) : Bool := c.defEn && c.covered x y

/-- 65,536 x the strength h at a level (R134). -/
def WinSet.strength (c : WinSet) (code level : Nat) : Nat :=
  let p (i : Nat) : Nat := if code ≤ 4 then (c.curve[code * 64 + i]?).getD 0 else 0
  if level ≥ 64512 then c.scale * p 63 * 1024
  else
    let i := level / 1024
    let f := level % 1024
    c.scale * (p i * (1024 - f) + p (i + 1) * f)

/-- The same-channel samples around a centre that may serve as neighbours, nearest first, at most 8 (R132). -/
def WinSet.neighbours (c : WinSet) (w : Win) (x y : Nat) : List Nat :=
  let code := c.mos.code x y
  let cand := (span 3).flatMap (fun dy => (span 3).filterMap (fun dx =>
    let X := w.px (x + dx)
    let Y := w.py (y + dy)
    if (dx = 0 && dy = 0) || c.mos.code X Y ≠ code || c.covered X Y then none
    else some ((dx * dx + dy * dy).toNat, w.at (x + dx) (y + dy))))
  ((sortKeys cand).take 8).map (·.2)

/-- What the defect stage makes of a sample. -/
structure Fix where
  v : Nat
  mapped : Bool
  dyn : Bool
  unrepaired : Bool
  deriving DecidableEq, Repr

def WinSet.repair (c : WinSet) (w : Win) (x y : Nat) : Fix :=
  let s := w.at x y
  let m := c.mapDefect x y
  let ns := c.neighbours w x y
  let med := lowerMedian ns
  let h : Int := c.strength (c.mos.code x y) med
  let k : Int := max 1 c.dddK
  let hi : Int := (ns.foldl max 0 : Nat)
  let lo : Int := (ns.foldl min 65535 : Nat)
  let dyn := !m && c.dddEn && decide (4 ≤ ns.length) && (decide (131072 * ((s : Int) - hi) > k * h) || decide (131072 * (lo - s) > k * h))
  if m || dyn then (if ns.length < 2 then ⟨s, m, dyn, true⟩ else ⟨med, m, dyn, false⟩) else ⟨s, false, false, false⟩

/-- Spatial noise reduction of a centre whose repaired value is sc (R133). Dynamic detection marks a sample as it becomes the centre
of the window (R132), so that it has marked those of the lines up to y (notes/assumptions/76.md). -/
def WinSet.denoise (c : WinSet) (w : Win) (x y sc : Nat) : Nat :=
  let code := c.mos.code x y
  let h := c.strength code sc
  let terms := (span 3).flatMap (fun dy => (span 3).filterMap (fun dx =>
    let centre := dx = 0 && dy = 0
    let X := w.px (x + dx)
    let Y := w.py (y + dy)
    if !centre && (c.mos.code X Y ≠ code || c.mapDefect X Y || w.bad (x + dx) (y + dy)) then none
    else
      let sk := if centre then sc else w.at (x + dx) (y + dy)
      let d := ((sk : Int) - sc).natAbs
      let sw := (c.weights[((dy + 3) * 7 + dx + 3).toNat]?).getD 0 % 16
      some (sw * (16 - min 16 (8 * d * 65536 / max 1 h)), sk)))
  let den := (terms.map (·.1)).sum
  if h = 0 ∨ den = 0 then sc else divRound ((terms.map (fun t => t.1 * t.2)).sum) den

/-! ### Temporal noise reduction (R137, R138) -/

/-- The mosaic shift of a vector component (R137); the limits are multiples of P. -/
def mosShift (v : Int) (P : Nat) (limit : Int) : Int := clampInt (-limit) limit (roundAway v (2 * P) * P)

/-- The blend of a segment (R138): current samples with 65,536 h, and reference samples. -/
def blendSeg (alphaMax gate : Nat) (cost : List Nat) (seg : List (Nat × Nat × Nat)) : List Nat :=
  let diff := (seg.map (fun e => ((e.1 : Int) - e.2.2).natAbs)).sum
  let hs := (seg.map (fun e => e.2.1)).sum
  let idx := if hs = 0 then 15 else min 15 (4 * diff * 65536 / hs)
  let a := alphaMax * ((cost[idx]?).getD 0 % 256)
  seg.map (fun e =>
    let d : Int := (e.2.2 : Int) - e.1
    if 32 * d.natAbs * 65536 > gate * e.2.1 then e.1
    else (clampInt 0 65535 ((e.1 : Int) + roundAway (a * d) (256 * 255))).toNat)

/-! ### Shading and white balance (R142 to R144) -/

/-- A PF20 value times n / d, as PF20. -/
def pfScale (p n d : Nat) : Nat := fPF20.clampRound ((fPF20.val p).mul (.fin false n d 0))
/-- A sample after step 4 in PF20 (R142). -/
def pedestalOff (t ped : Nat) : Nat := fPF20.clampRound (.scaled ((t : Int) - ped) (-16))

/-- The shading gain at (x, y), as a fraction (R143): bilinear between nodes. -/
def shadeGain (g : Nat → Nat) (width height x y : Nat) : Nat × Nat :=
  let dx := max 1 (width - 1)
  let dy := max 1 (height - 1)
  let i := min 62 (x * 63 / dx)
  let j := min 46 (y * 47 / dy)
  let fx := x * 63 - i * dx
  let fy := y * 47 - j * dy
  let n (a b : Nat) : Nat := g ((j + b) * 64 + i + a)
  (n 0 0 * (dx - fx) * (dy - fy) + n 1 0 * fx * (dy - fy) + n 0 1 * (dx - fx) * fy + n 1 1 * fx * fy, 8192 * dx * dy)

/-! ### Demosaic (R162 to R167), in the arithmetic of R155 -/

/-- Samples for the demosaic: step-6 values with their codes. -/
structure Dm where
  win : Win
  mos : Mos
  thr : Nat
  deriving DecidableEq, Repr

def Dm.s (d : Dm) (x y : Int) : Nat := pfTo32 (d.win.at x y)
def Dm.c (d : Dm) (x y : Int) : Nat := d.mos.code (d.win.px x) (d.win.py y)

/-- Positions of the window of R162 with code k, nearest to (qx, qy) first. -/
def Dm.nearest (d : Dm) (x y : Int) (k : Nat) (qx qy : Int) : List (Int × Int) :=
  let cand := (span 2).flatMap (fun dy => (span 3).filterMap (fun dx =>
    if d.c (x + dx) (y + dy) = k then
      some ((((x + dx - qx) * (x + dx - qx) + (y + dy - qy) * (y + dy - qy)).toNat), ((dy + 2) * 7 + dx + 3).toNat)
    else none))
  (sortKeys cand).map (fun e => (x + (e.2 % 7 : Nat) - 3, y + (e.2 / 7 : Nat) - 2))

/-- The first guide sample among positions. -/
def Dm.firstGuide (d : Dm) (l : List (Int × Int)) : Option Nat :=
  (l.find? (fun q => d.c q.1 q.2 = d.mos.guide)).map (fun q => d.s q.1 q.2)

/-- The mean of the one or two that exist. -/
def meanOf (a b : Option Nat) : Option Nat :=
  match a, b with
  | some p, some q => some (fMean [p, q])
  | some p, none => some p
  | none, b => b

/-- The mean difference of equal codes two apart, along rows or columns (R163 step 3). -/
def Dm.gradient (d : Dm) (x y : Int) (rows : Bool) : Nat :=
  let pairs := (span 2).flatMap (fun a => [-2, -1, 0].filterMap (fun (b : Int) =>
    let p := if rows then (x + b, y + a) else (x + a, y + b)
    let q := if rows then (x + b + 2, y + a) else (x + a, y + b + 2)
    if d.c p.1 p.2 = d.c q.1 q.2 && d.c p.1 p.2 ≠ 7 then some (fAbs (fSub (d.s p.1 p.2) (d.s q.1 q.2))) else none))
  fMean pairs

/-- The guide channel at p (R163). -/
def Dm.guideAt (d : Dm) (x y : Int) : Nat :=
  if d.c x y = d.mos.guide then d.s x y
  else
    let gh := meanOf (d.firstGuide [(x - 1, y), (x - 2, y)]) (d.firstGuide [(x + 1, y), (x + 2, y)])
    let gv := meanOf (d.firstGuide [(x, y - 1), (x, y - 2)]) (d.firstGuide [(x, y + 1), (x, y + 2)])
    match gh, gv with
    | some h, some v =>
      let Dh := d.gradient x y true
      let Dv := d.gradient x y false
      let t := fRatio d.thr 256
      if fLt Dh (fMul t Dv) then h
      else if fLt Dv (fMul t Dh) then v
      else if fAbs Dh = 0 ∧ fAbs Dv = 0 then fDiv (fAdd h v) (fInt 2)
      else fDiv (fAdd (fMul h Dv) (fMul v Dh)) (fAdd Dh Dv)
    | some h, none => h
    | none, some v => v
    | none, none =>
      let near := (span 1).flatMap (fun dy => (span 1).filterMap (fun dx =>
        if d.c (x + dx) (y + dy) = d.mos.guide then some (d.s (x + dx) (y + dy)) else none))
      if near ≠ [] then fMean near
      else match d.nearest x y d.mos.guide x y with
        | q :: _ => d.s q.1 q.2
        | [] => 0

/-- gq of R164: the guide at a sample q of the window around (x, y). -/
def Dm.guideNear (d : Dm) (x y qx qy : Int) : Nat :=
  let some1 (l : List (Int × Int)) : List Nat := (l.filter (fun p => d.c p.1 p.2 = d.mos.guide)).map (fun p => d.s p.1 p.2)
  let row := some1 [(qx - 1, qy), (qx + 1, qy)]
  let col := some1 ([(qx, qy - 1), (qx, qy + 1)].filter (fun p => decide (y - 2 ≤ p.2 ∧ p.2 ≤ y + 2)))
  if row ≠ [] then fMean row
  else if col ≠ [] then fMean col
  else match d.nearest x y d.mos.guide qx qy with
    | q :: _ => d.s q.1 q.2
    | [] => 0

/-- Channel k at p (R164). -/
def Dm.chan (d : Dm) (x y : Int) (k : Nat) : Nat :=
  if k = d.mos.guide then d.guideAt x y
  else if d.c x y = k then d.s x y
  else
    let qs := (d.nearest x y k x y).take 4
    if qs = [] then d.guideAt x y
    else fAdd (d.guideAt x y) (fMean (qs.map (fun q => fSub (d.s q.1 q.2) (d.guideNear x y q.1 q.2))))

/-- The vector of R165 before IR removal, and the IR value (0 without IR cells). -/
def Dm.pixel (d : Dm) (x y : Nat) : List Nat :=
  let g1 := if d.mos.cells.contains 1 then 1 else 3
  [d.chan x y 0, d.chan x y g1, d.chan x y 2, if d.mos.ir then d.chan x y 4 else 0]

end Sys2Proof.Machine
end

