-- ==== Sys2Proof/Machine/Colour.lean ====
section
/-! DEFINITION. The arithmetic of the colour stages (R165 to R177) and of the Harvest statistics (R183, R184). -/
namespace Sys2Proof.Machine

/-- An s3.12 coefficient as binary32 (R165). -/
def coef (v : Nat) : Nat := fScaled (toSigned 16 v) (-12)

/-- Three components, each the sum of products of a row of a matrix. -/
def matPix (m : List Nat) (cols : Nat) (x : List Nat) : List Nat :=
  (List.range 3).map (fun r => fDot ((List.range cols).map (fun c => (m[r * cols + c]?).getD 0)) x)
def Pix.of (l : List Nat) : Pix := ⟨(l[0]?).getD 0, (l[1]?).getD 0, (l[2]?).getD 0⟩
def Pix.list (p : Pix) : List Nat := [p.c0, p.c1, p.c2]
/-- A component-wise function. -/
def Pix.map (p : Pix) (f : Nat → Nat) : Pix := ⟨f p.c0, f p.c1, f p.c2⟩
/-- A pixel's components as binary32. -/
def Pix.f (p : Pix) : List Nat := p.list.map pfTo32

/-- A curve of binary16 entries at a PF20 input (R170). -/
def curveAt (e : Nat → Nat) (p : Nat) : Nat :=
  let n := p % 2 ^ 19
  let i := n / 128
  let f := fRatio (n % 128 : Nat) 128
  let y := fAdd (halfTo32 (e i)) (fMul f (fSub (halfTo32 (e (i + 1))) (halfTo32 (e i))))
  toPF (if p ≥ 2 ^ 19 then fNeg y else y)

/-- The look LUT (R171); `node i0 i1 i2 k` is output k of a node, in binary16. -/
def lutAt (node : Nat → Nat → Nat → Nat → Nat) (p : Pix) : Pix :=
  let xs := p.f.map (fun a => fMul (fClamp 0 fOne a) (fInt 64))
  let is := xs.map (fun x => (min 63 ((fv x).floorScaled 0)).toNat)
  let fs := List.zipWith (fun x i => fSub x (fInt (i : Nat))) xs is
  let g (l : List Nat) (k : Nat) : Nat := (l[k]?).getD 0
  let f0 := g fs 0
  let f1 := g fs 1
  let f2 := g fs 2
  let ge (a b : Nat) : Bool := fLe b a
  let out (k : Nat) : Nat :=
    let N (d0 d1 d2 : Nat) : Nat := halfTo32 (node (g is 0 + d0) (g is 1 + d1) (g is 2 + d2) k)
    let walk (fa a b fb c fc e : Nat) : Nat :=
      fAdd (fAdd (fAdd (N 0 0 0) (fMul fa (fSub a b))) (fMul fb (fSub c a))) (fMul fc (fSub e c))
    let o := N 0 0 0
    let e := N 1 1 1
    if ge f0 f1 && ge f1 f2 then walk f0 (N 1 0 0) o f1 (N 1 1 0) f2 e
    else if ge f0 f2 && ge f2 f1 then walk f0 (N 1 0 0) o f2 (N 1 0 1) f1 e
    else if ge f2 f0 && ge f0 f1 then walk f2 (N 0 0 1) o f0 (N 1 0 1) f1 e
    else if ge f1 f0 && ge f0 f2 then walk f1 (N 0 1 0) o f0 (N 1 1 0) f2 e
    else if ge f1 f2 && ge f2 f0 then walk f1 (N 0 1 0) o f2 (N 0 1 1) f0 e
    else walk f2 (N 0 0 1) o f1 (N 0 1 1) f0 e
  ⟨toPF (out 0), toPF (out 1), toPF (out 2)⟩

/-- Y of R173 and R182. -/
def Pix.y (p : Pix) : Nat :=
  match p.f with
  | [a, b, c] => fDiv (fAdd (fAdd a (fMul (fInt 2) b)) c) (fInt 4)
  | _ => 0

/-! ### Sharpening (R173) -/

/-- The pixel of a row nearest to column x. -/
def PixRow.near (r : PixRow) (x : Int) : Pix :=
  (r.px[(clampInt 0 ((r.px.length : Int) - 1) x).toNat]?).getD ⟨0, 0, 0⟩
def findPix (rows : List PixRow) (n : Nat) : Option PixRow := rows.find? (fun r => r.n = n)

/-- Y, Bl and H at (x, y) among the rows lo..hi. -/
def blurAt (rows : List PixRow) (lo hi x y : Nat) : Nat × Nat × Nat :=
  let Yat (dx dy : Int) : Nat :=
    match findPix rows (clampInt lo hi ((y : Int) + dy)).toNat with
    | some r => (r.near ((x : Int) + dx)).y
    | none => 0
  let w (d : Int) : Int := if d = 0 then 2 else 1
  let bl := fDiv (fSum ((span 1).flatMap (fun dy => (span 1).map (fun dx => fMul (fInt (w dx * w dy)) (Yat dx dy))))) (fInt 16)
  let yy := Yat 0 0
  (yy, bl, fSub yy bl)

/-- A sharpened pixel (R173 steps 4 to 6). -/
def sharpen (rows : List PixRow) (lo hi core amount limit x y : Nat) (p : Pix) : Pix :=
  let b := blurAt rows lo hi x y
  let bl := fAbs b.2.1
  let h := b.2.2
  let m := fMax 0 (fSub (fAbs h) (fMul (fRatio core 256) bl))
  let d := if fLt h 0 then fNeg m else m
  let lim := fMul (fRatio limit 64) bl
  let d' := fClamp (fNeg lim) lim (fMul (fRatio amount 32) d)
  p.map (fun c => toPF (fAdd (pfTo32 c) d'))

/-! ### Output transforms (R175 to R177) -/

/-- One power, rounded once. -/
def fPow (x : Nat) (n d : Nat) : Nat := r155 ((fv x).powFix (trRatio n d))

/-- BT.709 OETF (Table 7-3). -/
def tfSdr (l : Nat) : Nat :=
  if fLt l (fRatio 18 1000) then fMul (fRatio 45 10) l
  else fSub (fMul (fRatio 1099 1000) (fPow l 45 100)) (fRatio 99 1000)
/-- ST 2084 inverse EOTF with its constants. -/
def tfPq (l : Nat) : Nat :=
  let p := fPow l 2610 16384
  fPow (fDiv (fAdd (fRatio 3424 4096) (fMul (fRatio 2413 128) p)) (fAdd fOne (fMul (fRatio 2392 128) p))) 2523 32
/-- BT.2100 HLG OETF with its constants. -/
def tfHlg (l : Nat) : Nat :=
  if fLe l (fRatio 1 12) then f32.sqrt (fv (fMul (fInt 3) l))
  else
    fAdd (fMul (fRatio 17883277 100000000) (r155 (fv (fSub (fMul (fInt 12) l) (fRatio 28466892 100000000))).ln))
      (fRatio 55991073 100000000)
/-- The transfer function of a BC_TF value. -/
def transfer (tf l : Nat) : Nat := if tf = 1 then tfPq l else if tf = 2 then tfHlg l else tfSdr l

/-- Kr and Kb of BC_PRIM. -/
def lumaK (prim : Nat) : Nat × Nat :=
  if prim = 0 then (fRatio 2126 10000, fRatio 722 10000) else (fRatio 2627 10000, fRatio 593 10000)

/-- Y', Cb, Cr of a linear pixel in binary32 (R175 steps 1 to 4). -/
def ycc (m : List Nat) (scale tf prim : Nat) (x : List Nat) : List Nat :=
  let e := (matPix m 3 x).map (fun v => transfer tf (fClamp 0 fOne (fMul scale v)))
  match e with
  | [r, g, b] =>
    let k := lumaK prim
    let kg := fSub (fSub fOne k.1) k.2
    let y := fAdd (fAdd (fMul k.1 r) (fMul kg g)) (fMul k.2 b)
    [y, fDiv (fSub b y) (fSub (fInt 2) (fMul (fInt 2) k.2)), fDiv (fSub r y) (fSub (fInt 2) (fMul (fInt 2) k.1))]
  | _ => [0, 0, 0]

/-- The chroma filter of R175 step 5 at column x. -/
def chromaAt (l : List Nat) (x : Nat) : Nat :=
  let g (i : Int) : Nat := (l[(clampInt 0 ((l.length : Int) - 1) i).toNat]?).getD 0
  fDiv (fAdd (fAdd (g ((x : Int) - 1)) (fMul (fInt 2) (g x))) (g (x + 1))) (fInt 4)

/-- Quantisation (R176): value x gain + offset, rounded and clamped. -/
def quant (gain offset lo hi : Int) (v : Nat) : Nat :=
  (clampInt lo hi (fv (fAdd (fMul (fInt gain) v) (fInt offset))).nearest).toNat
/-- 10-bit luma and chroma. -/
def quantBc (full : Bool) (chroma : Bool) (v : Nat) : Nat :=
  if full then (if chroma then quant 1023 512 0 1023 v else quant 1023 0 0 1023 v)
  else if chroma then quant 896 512 4 1019 v else quant 876 64 4 1019 v
/-- 8-bit luma and chroma of the proxy. -/
def quantPrx (chroma : Bool) (v : Nat) : Nat := if chroma then quant 224 128 1 254 v else quant 219 16 1 254 v

/-- Columns that carry chroma. -/
def evenCols (w : Nat) : List Nat := (List.range ((w + 1) / 2)).map (· * 2)

/-- A component of every pixel of a row of [Y', Cb, Cr]. -/
def comp (row : List (List Nat)) (k : Nat) : List Nat := row.map (fun p => (p[k]?).getD 0)

/-- The luma words and the chroma word pairs of a broadcast row, each value in bits [15:6] (Table 7-4). -/
def bcRow (m : List Nat) (scale tf prim : Nat) (full : Bool) (px : List Pix) : List Byte × List Byte :=
  let row := px.map (fun p => ycc m scale tf prim p.f)
  let word (c : Bool) (v : Nat) : List Byte := toBytes 2 (quantBc full c v * 64)
  ((comp row 0).flatMap (word false),
    (evenCols px.length).flatMap (fun x => word true (chromaAt (comp row 1) x) ++ word true (chromaAt (comp row 2) x)))

/-- One proxy row in binary32: luma, and chroma at even columns (R177 steps 1 to 3). -/
def prxRow (m : List Nat) (scale s width : Nat) (rows : List PixRow) : List Nat × List Nat × List Nat :=
  let boxes := (List.range (width / s)).map (fun j =>
    (List.range 3).map (fun k =>
      fMean (rows.flatMap (fun r => (List.range s).map (fun i => (((r.px[j * s + i]?).getD ⟨0, 0, 0⟩).f[k]?).getD 0)))))
  let row := boxes.map (fun b => ycc m scale 0 0 b)
  (comp row 0, (evenCols (width / s)).map (chromaAt (comp row 1)), (evenCols (width / s)).map (chromaAt (comp row 2)))

/-! ### Harvest (R183, R184) -/

/-- The histogram bin of a PF20 value. -/
def hvBin (p : Nat) : Nat :=
  if p ≥ 2 ^ 19 ∨ p = 0 then 0
  else (clampInt 0 255 (16 * (((p / 2 ^ 14) % 32 : Nat) - 3) + ((p / 2 ^ 10) % 16 : Nat))).toNat
/-- A value clamped to 0..16, in 2^-28. -/
def hvFix (p : Nat) : Nat := (clampInt 0 (16 * 2 ^ 28) ((fPF20.val p).floorScaled 28)).toNat

/-- Pixels of a zone of an n x m grid: columns and rows (R184). -/
def zonePix (rows : List PixRow) (width height n m i j : Nat) : List (Nat × PixRow) :=
  (rows.filter (fun r => decide (j * height / m ≤ r.n ∧ r.n < (j + 1) * height / m))).flatMap (fun r =>
    ((List.range width).filter (fun x => decide (i * width / n ≤ x ∧ x < (i + 1) * width / n))).map (fun x => (x, r)))

/-- A pixel's channels and Y at the tap, in PF20. -/
def Pix.four (p : Pix) : List Nat := [p.c0, p.c1, p.c2, toPF p.y]

/-- The histogram of channel k over all rows (R183). -/
def hvHist (rows : List PixRow) (k : Nat) : List Byte :=
  let bins := rows.flatMap (fun r => r.px.map (fun p => hvBin ((p.four[k]?).getD 0)))
  (List.range 256).flatMap (fun b => toBytes 4 (sat 32 (bins.filter (· = b)).length))

/-- A zone record (Table 7-7). -/
def hvZone (rows : List PixRow) (width height hiThr loThr i j : Nat) : List Byte :=
  let ps := (zonePix rows width height 64 48 i j).map (fun e => (e.2.px[e.1]?).getD ⟨0, 0, 0⟩)
  let ch (k : Nat) : List Nat := ps.map (fun p => (p.list[k]?).getD 0)
  (List.range 3).flatMap (fun k => toBytes 4 (sat 32 (((ch k).map hvFix).sum / 2 ^ 16))) ++
    (List.range 3).flatMap (fun k => toBytes 2 (sat 16 ((ch k).filter (fun p => (f16.val hiThr).lt (fPF20.val p))).length)) ++
    (List.range 3).flatMap (fun k => toBytes 2 (sat 16 ((ch k).filter (fun p => (fPF20.val p).lt (f16.val loThr))).length)) ++
    toBytes 4 (sat 32 ps.length) ++ toBytes 4 0

/-- A sharpness record (Table 7-7): H of the own rows after step 12, among the rows lo..hi. -/
def hvSharp (rows : List PixRow) (own : List PixRow) (lo hi width height i j : Nat) : List Byte :=
  let zs := zonePix own width height 16 12 i j
  let h (e : Nat × PixRow) : Nat := min (16 * 2 ^ 32) ((fv (fAbs (blurAt rows lo hi e.1 e.2.n).2.2)).floorScaled 32).toNat
  toBytes 4 (sat 32 ((zs.map h).sum / 2 ^ 24)) ++ toBytes 4 (sat 32 zs.length)

/-- A Harvest set without its head (Table 7-7). -/
def hvBody (tap s12 own : List PixRow) (lo hi width height hiThr loThr : Nat) : List Byte :=
  (List.range 4).flatMap (hvHist tap) ++
    (List.range 48).flatMap (fun j => (List.range 64).flatMap (fun i => hvZone tap width height hiThr loThr i j)) ++
    (List.range 12).flatMap (fun j => (List.range 16).flatMap (fun i => hvSharp s12 own lo hi width height i j))

end Sys2Proof.Machine
end

