-- ==== Sys2Proof/Machine/Compose.lean ====
section
/-! DEFINITION. The arithmetic of the display heads: placement, scaling, surfaces, blending (R189 to R209), and of tile
calibration and Parade packets (R213 to R225). -/
namespace Sys2Proof.Machine

/-! ### Placement (R201, R202) -/

structure Tile where
  idx : Nat
  x : Nat
  y : Nat
  tw : Nat
  th : Nat
  rot : Nat
  trunk : Nat
  addr : Nat
  deriving DecidableEq, Repr

/-- Width and height of the footprint. -/
def Tile.fw (t : Tile) : Nat := if t.rot % 2 = 1 then t.th else t.tw
def Tile.fh (t : Tile) : Nat := if t.rot % 2 = 1 then t.tw else t.th
/-- The raster pixel of native pixel (u, v) (Table 8-7). -/
def Tile.raster (t : Tile) (u v : Nat) : Nat × Nat :=
  match t.rot with
  | 0 => (t.x + u, t.y + v)
  | 1 => (t.x + t.th - 1 - v, t.y + u)
  | 2 => (t.x + t.tw - 1 - u, t.y + t.th - 1 - v)
  | _ => (t.x + v, t.y + t.tw - 1 - u)
/-- The footprint contains a raster row. -/
def Tile.inRow (t : Tile) (r : Nat) : Bool := decide (t.y ≤ r ∧ r < t.y + t.fh)

/-- A placement record of a bank (Table 8-6); none when VALID = 0. -/
def State.record0 (s : State) (h bank t : Nat) : Option Tile :=
  let w (i : Nat) : Nat := (s.tget .placement h (bank * 16384 + t * 4 + i)).toNat
  if !(w 1).testBit 31 then none
  else some ⟨t, bits (w 0) 15 0, bits (w 0) 31 16, bits (w 1) 9 0, bits (w 1) 25 16, bits (w 1) 27 26, bits (w 1) 28 28, bits (w 2) 15 0⟩
/-- A record with VALID = 1 counts as valid (R201). -/
def Tile.ok (t : Tile) (rasW rasH : Nat) : Bool :=
  decide (1 ≤ t.tw ∧ t.tw ≤ 512 ∧ 1 ≤ t.th ∧ t.th ≤ 512 ∧ t.x + t.fw ≤ rasW ∧ t.y + t.fh ≤ rasH)
def State.rasW (s : State) (h : Nat) : Nat := s.inForce (headA h) HEAD_SIZE_RAS_W
def State.rasH (s : State) (h : Nat) : Nat := s.inForce (headA h) HEAD_SIZE_RAS_H
def State.records (s : State) (h : Nat) : List Tile :=
  (List.range 4096).filterMap (s.record0 h (s.inForce (headA h) HEAD_CTRL_PL_BANK))
/-- The valid records of the bank in use, in ascending index. -/
def State.tiles (s : State) (h : Nat) : List Tile := (s.records h).filter (fun t => t.ok (s.rasW h) (s.rasH h))

/-! ### Layers -/

structure Layer where
  i : Nat
  en : Bool
  type : Nat
  opaq : Bool
  vtaps : Nat
  htaps : Nat
  vbank : Nat
  hbank : Nat
  ga : Nat
  sid : Nat
  srcX : Nat
  srcY : Nat
  srcW : Nat
  srcH : Nat
  dstX : Nat
  dstY : Nat
  dstW : Nat
  dstH : Nat
  desc : Nat
  deriving DecidableEq, Repr

/-- A layer's settings in force. -/
def State.layer (s : State) (h l : Nat) : Layer :=
  let f (g : Fld) : Nat := s.inForce (headA h) (g.nth 0x18 l)
  ⟨l, f LYR_CTRL_EN = 1, f LYR_CTRL_TYPE, f LYR_CTRL_OPAQUE = 1, f LYR_CTRL_VTAPS, f LYR_CTRL_HTAPS, f LYR_CTRL_VBANK,
    f LYR_CTRL_HBANK, f LYR_CTRL_GA, f LYR_CTRL_STREAM_ID, f LYR_SRC_XY_SRC_X, f LYR_SRC_XY_SRC_Y, f LYR_SRC_WH_SRC_W,
    f LYR_SRC_WH_SRC_H, f LYR_DST_XY_DST_X, f LYR_DST_XY_DST_Y, f LYR_DST_WH_DST_W, f LYR_DST_WH_DST_H, f LYR_DESC_ADDR⟩
/-- The enabled layers, bottom first. -/
def State.layersOn (s : State) (h : Nat) : List Layer := ((List.range 16).map (s.layer h)).filter (·.en)
def State.direct (s : State) (h : Nat) : Option Layer := (s.layersOn h).find? (fun l => l.type = 0)

/-- The layer's rectangle contains a row, or a column. -/
def Layer.inRow (l : Layer) (r : Nat) : Bool := decide (l.dstY ≤ r ∧ r < l.dstY + l.dstH)
def Layer.inCol (l : Layer) (x : Nat) : Bool := decide (l.dstX ≤ x ∧ x < l.dstX + l.dstW)
/-- A scale within 1/4 to 4 (R197). -/
def scaleOk (d s : Nat) : Bool := decide (0 < s ∧ 0 < d ∧ s ≤ 4 * d ∧ d ≤ 4 * s)

/-- A layer, enabled or not, has a TYPE that is not reserved, a scale within the limits and a rectangle inside the raster
(R193). -/
def State.layerOk (s : State) (h : Nat) (l : Layer) : Bool :=
  decide (l.type ≤ 1) && scaleOk l.dstW l.srcW && scaleOk l.dstH l.srcH && decide (l.dstX + l.dstW ≤ s.rasW h) &&
    decide (l.dstY + l.dstH ≤ s.rasH h)
/-- Bypass keeps the size (R197); judged on the layers that are shown (notes/assumptions/78.md). -/
def Layer.bypassOk (l : Layer) : Bool := !(l.htaps = 0 && l.dstW ≠ l.srcW) && !(l.vtaps = 0 && l.dstH ≠ l.srcH)

/-- The head's SH group may commit (R193); evaluated on the settings that would be in force. -/
def State.headGroupOk (s : State) (h : Nat) : Bool :=
  let ls := s.layersOn h
  let ds := ls.filter (fun l => l.type = 0)
  let b := headA h
  let port := s.inForce b HEAD_CTRL_LOCK_PORT
  decide (ds.length ≤ 1) && ((List.range 16).map (s.layer h)).all (s.layerOk h) && ls.all Layer.bypassOk &&
    ds.all (fun l =>
      s.inForceFlag b HEAD_CTRL_LOCK_EN && decide (port < 12) && s.fld (campA port) CAMP_STREAM_STREAM_ID = l.sid &&
        (List.range 4).any (fun n => s.flag fabA (C0_STREAM_EN.nth 4 n) && s.fld fabA (C0_STREAM_STREAM_ID.nth 4 n) = l.sid &&
          s.fld fabA (C0_STREAM_HEAD.nth 4 n) = h)) &&
    decide (s.inForce b HEAD_VT_VT_MIN ≤ s.inForce b HEAD_VT_VT_MAX) && decide (s.rasH h ≤ s.inForce b HEAD_VT_VT_MIN)

/-! ### Scaling (R197, R198) -/

/-- Source index and phase of destination position d. -/
def sourcePos (d crop n dst : Nat) : Int × Nat :=
  let num : Int := 2 * dst * crop + (2 * d + 1) * n - dst
  let den : Int := 2 * dst
  let i := Int.fdiv num den
  let ph := divRound (64 * (num - i * den).toNat) (2 * dst)
  if ph = 64 then (i + 1, 0) else (i, ph)

/-- Taps of a direction: source indices clamped to 0..lim - 1, and weights in binary32. -/
def State.taps (s : State) (h mode bank d crop n dst lim : Nat) : List (Nat × Nat) :=
  let (i, ph) := sourcePos d crop n dst
  let at0 (j : Int) : Nat := (clampInt 0 ((lim : Int) - 1) j).toNat
  if mode = 1 then [(at0 i, fSub fOne (fRatio ph 64)), (at0 (i + 1), fRatio ph 64)]
  else if mode = 2 then
    (List.range 4).map (fun (t : Nat) =>
      (at0 (i - 1 + t), fScaled (toSigned 10 (s.tget .headFilter h (bank * 256 + ph * 4 + t)).toNat) (-8)))
  else [(at0 i, fOne)]

/-- The size of the source frame of a layer: the camera's, or the surface's (R197). -/
def State.srcSize (s : State) (h : Nat) (l : Layer) : Nat × Nat :=
  if l.type = 0 then
    let p := s.inForce (headA h) HEAD_CTRL_LOCK_PORT
    (s.inForce (campA p) CAMP_SIZE_WIDTH, s.inForce (campA p) CAMP_SIZE_HEIGHT)
  else
    match (s.head h).surf.find? (fun x => x.layer = l.i) with
    | some x => (x.desc.width, x.desc.height)
    | none => (0, 0)
def State.vTaps (s : State) (h : Nat) (l : Layer) (dy : Nat) : List (Nat × Nat) :=
  s.taps h l.vtaps l.vbank dy l.srcY l.srcH l.dstH (s.srcSize h l).2
def State.hTaps (s : State) (h : Nat) (l : Layer) (dx : Nat) : List (Nat × Nat) :=
  s.taps h l.htaps l.hbank dx l.srcX l.srcW l.dstW (s.srcSize h l).1
/-- The source rows that destination row dy reaches. -/
def State.rowsOf (s : State) (h : Nat) (l : Layer) (dy : Nat) : List Nat := (s.vTaps h l dy).map (·.1)
def maxOf (l : List Nat) : Nat := l.foldl max 0
def minOf (l : List Nat) : Nat := match l with | [] => 0 | a :: t => t.foldl min a

/-! ### Surfaces (R194, R195) -/

/-- The head as a requester of memory. -/
def headReq (h : Nat) : Req := .head (Fin.ofNat 4 h)

/-- The descriptor in the 64 bytes read; none when a field is out of range. -/
def surfDescOf (b : List Byte) : Option SurfDesc :=
  let f (o n : Nat) : Nat := leNat ((b.drop o).take n)
  let d : SurfDesc := ⟨f 0 8, f 8 4, f 12 2, f 14 2, f 16 4, f 20 4, f 24 1, f 25 1, f 26 1, f 27 1, f 28 1, f 29 1⟩
  if d.ring % 256 ≠ 0 ∨ d.stride % 256 ≠ 0 ∨ d.pitch % 256 ≠ 0 ∨ d.width < 16 ∨ d.width > 16384 ∨ d.height < 16 ∨
      d.height > 16384 ∨ d.log2 > 4 ∨ d.lag > 15 ∨ d.heads = 0 ∨ d.heads > 3 then none
  else some d
/-- The descriptor that a layer names. -/
def State.surfDesc (s : State) (h : Nat) (l : Layer) : Option SurfDesc := surfDescOf (s.peek (headReq h) (l.desc * 256) 64)
/-- The offsets of the expected heads in a buffer (Table 8-2). -/
def SurfDesc.headOfs (d : SurfDesc) : List Nat := (if d.heads.testBit 0 then [0] else []) ++ (if d.heads.testBit 1 then [64] else [])
/-- What the head reads for a layer at the freeze: the descriptor and the expected buffer heads (R195). -/
def State.selectReads (s : State) (h : Nat) (l : Layer) : List (Nat × Nat) :=
  (l.desc * 256, 64) :: (match s.surfDesc h l with
    | none => []
    | some d => (List.range (2 ^ d.log2)).flatMap (fun k => d.headOfs.map (fun o => (d.ring + k * d.stride + o, 64))))
/-- Some of these reads returns poison. -/
def State.readsPoison (s : State) (r : Req) (l : List (Nat × Nat)) : Bool := l.any (fun e => (s.busRead r e.1 e.2).1.isNone)
/-- What reads leave behind: the address errors of R38. -/
def State.readErrors (s : State) (r : Req) (l : List (Nat × Nat)) : State := l.foldl (fun t e => (t.busRead r e.1 e.2).2) s

/-- a - b as a signed difference modulo 2^32. -/
def diff32 (a b : Nat) : Int := toSigned 32 (a + 2 ^ 32 - b % 2 ^ 32)

/-- FRAME of a buffer whose expected heads agree and show no WRITE_ERR (R195). -/
def State.bufFrame (s : State) (h : Nat) (d : SurfDesc) (k : Nat) : Option Nat :=
  let b (o : Nat) : List Byte := s.peek (headReq h) (d.ring + k * d.stride + o) 64
  let fr (o : Nat) : Nat := bits (leNat ((b o).take 16)) 115 84
  let ok (o : Nat) : Bool := leNat (((b o).drop 36).take 4) % 2 = 0
  let hs := d.headOfs
  match hs with
  | [] => none
  | o :: t => if hs.all ok && t.all (fun q => fr q = fr o) then some (fr o) else none

/-- The buffer to show (Table 8-3), the lowest index among equals: the highest FRAME, for SELECT = 1 counted modulo 2^32 from the
limit F_pred - LAG. -/
def State.pickBuf (s : State) (h : Nat) (l : Layer) (fPred : Nat) : Option SurfSel :=
  match s.surfDesc h l with
  | none => none
  | some d =>
    if d.format > 2 ∨ d.select > 2 then none
    else
      let limit := (fPred + 2 ^ 32 - d.lag) % 2 ^ 32
      let cand := (List.range (2 ^ d.log2)).filterMap (fun k =>
        match s.bufFrame h d k with
        | none => none
        | some f =>
          if (d.select = 1 && decide (0 < diff32 f limit)) || (d.select = 2 && k ≠ d.fixed) then none else some (k, f))
      let rank (f : Nat) : Int := if d.select = 1 then diff32 f limit else f
      let best := cand.foldl (fun (b : Option (Nat × Nat)) e =>
        match b with
        | none => some e
        | some m => if rank e.2 > rank m.2 then some e else some m) none
      best.map (fun e => ⟨l.i, d, d.ring + e.1 * d.stride + d.ofs, e.2⟩)

/-- Bytes of a surface pixel. -/
def SurfDesc.pxBytes (d : SurfDesc) : Nat := if d.format = 0 then 8 else 4
/-- Where row j of a surface is. -/
def SurfSel.rowAddr (x : SurfSel) (j : Nat) : Nat := x.addr + j * x.desc.pitch
/-- The pixels of a surface row in PF20, from its bytes (Table 8-4). -/
def SurfDesc.pixels (d : SurfDesc) (b : List Byte) : List (List Nat) :=
  (numsOf d.pxBytes b).map (fun v =>
    if d.format = 0 then [0, 16, 32, 48].map (fun o => halfToPF (bits v (o + 15) o))
    else if d.format = 1 then [0, 8, 16, 24].map (fun o => toPF (fRatio (bits v (o + 7) o : Nat) 255))
    else ([0, 10, 20].map (fun o => toPF (fRatio (bits v (o + 9) o : Nat) 1023))) ++ [toPF (fRatio (bits v 31 30 : Nat) 3)])

/-! ### Composition (R200, R209) -/

/-- 1.0 in PF20. -/
def pfOne : Nat := 0x3C000

/-- A source pixel of a layer, c0, c1, c2, alpha in PF20. -/
def State.srcPx (s : State) (h : Nat) (l : Layer) (i j : Nat) : List Nat :=
  let u := s.head h
  if l.type = 0 then
    match u.lines.find? (fun k => k.h.line = j && some k.h.frame == u.cam) with
    | some ⟨_, .line v⟩ => [(v[3 * i]?).getD 0, (v[3 * i + 1]?).getD 0, (v[3 * i + 2]?).getD 0, pfOne]
    | _ => [0, 0, 0, pfOne]
  else
    match u.surfRows.find? (fun r => r.layer = l.i && r.row = j) with
    | some r => (r.px[i]?).getD [0, 0, 0, 0]
    | none => [0, 0, 0, 0]

/-- A layer's pixel at a raster position: each direction's taps, horizontal first, summed in order. -/
def State.layerPx (s : State) (h : Nat) (l : Layer) (x r : Nat) : List Nat :=
  let hs := s.hTaps h l (x - l.dstX)
  let vs := s.vTaps h l (r - l.dstY)
  (List.range 4).map (fun k =>
    toPF (fSum (vs.map (fun e => fMul e.2 (fSum (hs.map (fun f =>
      fMul f.2 (pfTo32 (((s.srcPx h l f.1 e.1)[k]?).getD 0)))))))))

/-- Segments of a row beneath layer l that a covering layer above hides when the row's fetch is issued (R209). -/
def State.coversOver (s : State) (h : Nat) (l : Layer) (r : Nat) : List Nat :=
  let tops := (s.layersOn h).filter (fun t =>
    decide (l.i < t.i) && t.type = 1 && t.opaq && t.ga = 255 && t.inRow r && !(s.head h).off.contains t.i)
  (List.range (divCeil (s.rasW h) 64)).filter (fun g =>
    tops.any (fun t => decide (t.dstX ≤ 64 * g ∧ 64 * g + 64 ≤ t.dstX + t.dstW)))

/-- Is a segment of a layer's row hidden? -/
def HeadU.hidden (u : HeadU) (l r g : Nat) : Bool := u.covers.any (fun c => c.layer = l && c.row = r && c.seg = g)

/-- A composed pixel (R200). -/
def State.composePx (s : State) (h x r : Nat) : Pix :=
  let b := headA h
  let u := s.head h
  let bg := [s.inForce b HEAD_BG0_BG_C0, s.inForce b HEAD_BG0_BG_C1, s.inForce b HEAD_BG1_BG_C2].map halfTo32
  let ls := (s.layersOn h).filter (fun l => l.inRow r && l.inCol x && !u.off.contains l.i && !u.hidden l.i r (x / 64))
  Pix.of ((ls.foldl (fun out l =>
    let p := (s.layerPx h l x r).map pfTo32
    let g := fRatio l.ga 255
    let a := if l.opaq then fOne else (p[3]?).getD 0
    let keep := fSub fOne (fMul g a)
    List.zipWith (fun sv o => fAdd (fMul g sv) (fMul keep o)) (p.take 3) out) bg).map toPF)

/-! ### Calibration (R213 to R215) -/

/-- Byte n of a tile record. -/
def State.tileNat (s : State) (h t off n : Nat) : Nat :=
  let w (i : Nat) : Nat := (s.tget .tile h (t * 64 + i)).toNat
  bits (w (off / 4) + w (off / 4 + 1) * 2 ^ 32) (8 * (off % 4) + 8 * n - 1) (8 * (off % 4))
def State.tileEm (s : State) (h t : Nat) : Bool := s.tileNat h t 27 1 % 2 = 1

/-- A curve entry, above 16,383 used as 16,383 (R215). -/
def State.curve (s : State) (h bank set k i : Nat) : Nat :=
  min 16383 ((s.tget .curve h (bank * 49152 + set * 3072 + k * 1024 + i)).toNat % 65536)

/-- The drive codes of a tile pixel (R213); `em`: its nine per-emitter coefficients. -/
def State.calibrate (s : State) (h t : Nat) (em : Option (List Byte)) (p : Pix) : List Nat :=
  if (s.tileNat h t 27 1).testBit 1 || s.maint then [0, 0, 0]
  else
    let m := (List.range 12).map (fun i => coef (s.tileNat h t (2 * i) 2))
    let o := p.f ++ [fOne]
    let q0 := (List.range 3).map (fun k => fDot ((m.drop (4 * k)).take 4) o)
    let q := match em with
      | none => q0
      | some e => (List.range 3).map (fun k => fDot ((List.range 3).map (fun j =>
          fAdd (if k = j then fOne else 0) (fScaled (toSigned 8 (((e[3 * k + j]?).getD 0).toNat)) (-8)))) q0)
    let bright := fScaled (s.tileNat h t 24 2 : Nat) (-15)
    let set := s.tileNat h t 26 1 % 16
    let bank := s.inForce (tcmA h) TCM_CTRL_CRV_BANK
    (List.range 3).map (fun k =>
      let r := fClamp 0 fOne (fMul bright ((q[k]?).getD 0))
      let x := fMul r (fInt 1023)
      let i := (min 1022 ((fv x).floorScaled 0)).toNat
      let f := fSub x (fInt (i : Nat))
      let c (j : Nat) : Nat := fInt (s.curve h bank set k j : Nat)
      ((fv (fAdd (c i) (fMul f (fSub (c (i + 1)) (c i))))).nearest).toNat)

/-- Bytes of a line of per-emitter coefficients, and where they are (R217). -/
def State.emAddr (s : State) (h : Nat) (t : Tile) (v : Nat) : Nat :=
  (s.fld (tcmA h) TCM_EM_BASE_ADDR + s.tileNat h t.idx 28 4) * 256 + v * (divCeil (9 * t.tw) 64 * 64)

/-! ### Parade packets (R223 to R225) -/

/-- A packet with its CRC-32C, least significant byte first. -/
def sealPkt (l : List Byte) : List Byte := l ++ toBytes 4 (crc32c l)
/-- A 20-byte packet to an address: bytes 4 to 15 are given. -/
def shortPkt (type addr : Nat) (body : List Byte) : List Byte := sealPkt (toBytes 1 type ++ toBytes 1 1 ++ toBytes 2 addr ++ body)

/-- VER of a LINE_SEGMENT with the flags of its line (Table 9-4). -/
def segVer (flags : Nat) : Nat :=
  1 + (if flags &&& fEMITTER_OFF ≠ 0 then 16 else 0) + (if flags &&& fTNR_OFF ≠ 0 then 32 else 0) +
    (if flags &&& fUNDERRUN ≠ 0 then 64 else 0) + (if flags &&& fPOISONED ≠ 0 then 128 else 0)

/-- A LINE_SEGMENT (Table 9-4, R224). -/
def segment (addr line first hframe flags : Nat) (codes : List (List Nat)) : List Byte :=
  let pix (c : List Nat) : Nat := c.getD 0 0 % 2 ^ 14 + c.getD 1 0 % 2 ^ 14 * 2 ^ 14 + c.getD 2 0 % 2 ^ 14 * 2 ^ 28
  let v := codes.foldr (fun c r => pix c + 2 ^ 42 * r) 0
  sealPkt (toBytes 1 2 ++ toBytes 1 (segVer flags) ++ toBytes 2 addr ++ toBytes 2 line ++ toBytes 2 first ++ toBytes 2 codes.length ++
    toBytes 2 hframe ++ toBytes 4 0 ++ toBytes (divCeil (42 * codes.length) 64 * 8) v)

/-- Segments of at most n pixels of a tile line. -/
def segments (n addr line hframe flags : Nat) (codes : List (List Nat)) : List (List Byte) :=
  (List.range (divCeil codes.length n)).map (fun i => segment addr line (i * n) hframe flags ((codes.drop (i * n)).take n))

end Sys2Proof.Machine
end

