-- ==== Sys2Proof/Machine/LaneOps.lean ====
section
/-! DEFINITION. Quads: who uses them, and the power state in force (R371, R377, R379, R381, R382). -/
namespace Sys2Proof.Machine

/-- PROTO of a quad. -/
def State.proto (s : State) (q : Nat) : Nat := s.fld (quadA q) QUAD_CTRL_PROTO

/-- The user bound to a quad, as USER shows it (R371, Table 16-1). -/
def State.quadUser (s : State) (q : Nat) : Nat :=
  match s.proto q with
  | 1 => if (List.range 8).any (fun n => s.fld (prdA n) PRD_CTRL_QUAD = q) then 1 else 0
  | 2 =>
    if q = 8 ∨ q = 9 then (if s.proto 8 = 2 ∧ s.proto 9 = 2 then 2 else 0)
    else if 10 ≤ q ∧ q ≤ 13 then 3 else 0
  | 3 => if q = 14 then 4 else 0
  | 4 => if q = 15 then 5 else 0
  | _ => 0

/-- The quad's user is bound and enabled. -/
def State.quadBusy (s : State) (q : Nat) : Bool :=
  match s.quadUser q with
  | 1 => (List.range 8).any (fun n => s.fld (prdA n) PRD_CTRL_QUAD = q && (s.flag (prdA n) PRD_CTRL_EN || (s.maint && decide (s.phase < 3))))
  | 2 => s.flag pcieA PCIE_CTRL_EN
  | 3 => s.flag (nvhA (q - 10)) NVH_CTRL_EN
  | 4 => (List.range 4).any (fun k => s.flag (ethA k) ETH_CTRL_EN)
  | 5 => s.flag advA PRC_CTRL_EN
  | _ => false

/-- What the user of a quad sends leaves by the transmitter balls: the user is bound, and no test loop holds the balls at common mode or
sends received data back (R371, R379). -/
def State.onBalls (s : State) (q user : Nat) : Bool := s.quadUser q = user && (s.quad q).loop != 1 && (s.quad q).loop != 3
/-- Data leave on the lanes of a quad. -/
def State.emitLane (s : State) (q user : Nat) (c : Chan) (op : Nat) (d : List Nat) : State :=
  if s.onBalls q user then s.emit c op d else s
/-- The lanes that a quad's user uses: lanes 0 to L - 1 for a trunk of L lanes (R372). -/
def State.lanesUsed (s : State) (q : Nat) : List Nat :=
  if s.quadUser q = 1 then
    List.range (match (List.range 8).find? (fun n => s.fld (prdA n) PRD_CTRL_QUAD = q) with
      | some n => (match s.fld (prdA n) PRD_CTRL_LANES with | 0 => 1 | 1 => 2 | _ => 4)
      | none => 4)
  else [0, 1, 2, 3]

/-- A lane's field: lane k of quad q. -/
def laneF (f : Fld) (k : Nat) : Fld := f.nth 0x10 k

/-- STATE and every lane's PSTATE. -/
def State.showPower (s : State) (q v : Nat) : State :=
  (List.range 4).foldl (fun t k => t.setFld (quadA q) (laneF LANE_STAT_PSTATE k) v) (s.setFld (quadA q) QUAD_STATUS_STATE v)

/-- The state in force. -/
def State.power (s : State) (q : Nat) : Nat := s.fld (quadA q) QUAD_STATUS_STATE
/-- L0 is in force and its exit time has passed. -/
def State.inL0 (s : State) (q : Nat) : Bool := s.power q = 0 && !(s.quad q).exiting

/-- Receivers off: locks and readiness go (Table 16-3). -/
def State.dropLanes (s : State) (q : Nat) : State :=
  (List.range 4).foldl (fun t k =>
    ((t.setFlag (quadA q) (laneF LANE_STAT_READY k) false).setFlag (quadA q) (laneF LANE_STAT_BLOCK_LOCK k) false).setFlag (quadA q)
      (laneF LANE_STAT_CDR_LOCK k) false) s

/-- The user of a quad sees lanes as lost: the receiver of a trunk or of a Procession port is no longer aligned (R378). -/
def State.loseLanes (s : State) (q : Nat) (lanes : List Nat) : State :=
  match s.quadUser q with
  | 1 =>
    if lanes.all (fun k => !(s.lanesUsed q).contains k) then s
    else (List.range 8).foldl (fun t n =>
      if t.fld (prdA n) PRD_CTRL_QUAD = q && t.flag (prdA n) PRD_STATUS_RX_LOCK then
        ((t.setFlag (prdA n) PRD_STATUS_RX_LOCK false).incFld (prdA n) PRD_RXCNT_RELOCK 1).setPrd n
          { t.prd n with rx := { (t.prd n).rx with packet := none } }
      else t) s
  | 5 => [false, true].foldl (fun t r =>
      if lanes.any (fun k => k / 2 = b2n r) then t.setProc r { t.proc r with aligned := false } else t) s
  | _ => s
/-- Every lane that the user of a quad uses is READY. -/
def State.lanesReady (s : State) (q : Nat) (lanes : List Nat) : Bool := lanes.all (fun k => s.flag (quadA q) (laneF LANE_STAT_READY k))

/-- Lanes begin clock recovery and adaptation (R377). -/
def State.trainLanes (s : State) (q : Nat) (lanes : List Nat) : State :=
  let u := s.quad q
  let s1 := lanes.foldl (fun t k => t.setFlag (quadA q) (laneF LANE_STAT_READY k) false) (s.loseLanes q lanes)
  s1.setQuad q { u with training := lanes ++ u.training.filter (fun k => !lanes.contains k)
                        failed := u.failed.filter (fun k => !lanes.contains k) }

/-- L0 is shown at once and the exit time begins (R382). -/
def State.leaveLow (s : State) (q : Nat) : State :=
  let v := s.power q = 2
  (s.showPower q 0).setQuad q { s.quad q with exiting := true, fromVesper := v, autoVesper := false }

/-- The quad enters Drowse or Vesper; a retrain in progress is abandoned and runs again at the next entry to L0 (R382). -/
def State.enterLow (s : State) (q v : Nat) : State :=
  let u := s.quad q
  let s1 := s.setQuad q { u with exiting := false, training := [], failed := []
                                 retrain := u.retrain || s.flag (quadA q) QUAD_CTRL_RETRAIN }
  let s2 := (List.range 4).foldl (fun t k => t.setFlag (quadA q) (laneF LANE_STAT_READY k) false) (s1.showPower q v)
  if v = 2 then (s2.setFlag (quadA q) QUAD_STATUS_PLL_LOCK false).dropLanes q else s2

/-- The state that a quad is to be in (R382). The PCIe endpoint and NVH ports keep what they are in, but not Vesper. -/
def State.powerWanted (s : State) (q : Nat) : Nat :=
  let u := s.quadUser q
  let p := s.fld (quadA q) QUAD_CTRL_PSTATE
  if s.proto q = 0 then 2
  else if s.quadBusy q then (if (u = 2 ∨ u = 3) ∧ s.power q = 1 then 1 else 0)
  else if (s.quad q).autoVesper then 2
  else if p = 3 then 0 else p

/-- Loss of the old state and entry to the new one, and what the enabling of a user does: PRBS stops, link-up starts (R380,
R382). -/
def State.quadFollow (s : State) (q : Nat) : State :=
  let busy := s.quadBusy q
  let rise := busy && !(s.quad q).used
  let u := s.quad q
  let s1 := s.setQuad q { u with used := busy, autoVesper := u.autoVesper && !busy,
                                 idleTick := if u.used && !busy then s.tick else u.idleTick }
  let s2 := if rise then s1.setFlag (quadA q) QUAD_PRBS_EN false else s1
  let want := s2.powerWanted q
  let now := s2.power q
  if want = now then (if rise && s2.inL0 q then s2.trainLanes q (s2.lanesUsed q) else s2)
  else if want = 0 then s2.leaveLow q
  else s2.enterLow q want

/-- Every quad follows its users. -/
def State.quadsFollow (s : State) : State := (List.range 16).foldl State.quadFollow s

end Sys2Proof.Machine
end

