-- ==== Sys2Proof/Machine/PrdOps.lean ====
section
/-! DEFINITION. Parade framers: blocks, the transmit queue, tile lines, frame packets, the class-0 monitor (R49, R55, R220 to
R225, R227, R229). -/
namespace Sys2Proof.Machine

/-! ### Blocks (R220, R222, R223) -/

/-- A block before it is scrambled: the sync header as a number (10 is 2, 01 is 1), and its 8 bytes. -/
abbrev WireBlk := Nat × List Nat
/-- A control block of a type. -/
def ctlBlock (type : Nat) (b : List Nat) : WireBlk := (2, type :: (b ++ List.replicate (7 - b.length) 0))
/-- What follows START: data blocks and one TERMINATE; `fuel` bounds the blocks. -/
def blocksFrom : Nat → List Nat → List WireBlk
  | 0, b => [ctlBlock (0xE0 + b.length % 8) (b.take 7)]
  | n + 1, b => if b.length < 8 then [ctlBlock (0xE0 + b.length) b] else (1, b.take 8) :: blocksFrom n (b.drop 8)
/-- A packet as blocks, with the IDLE after it. -/
def packetBlocks (p : List Byte) : List WireBlk :=
  let b := p.map (·.toNat)
  ctlBlock 0x78 (b.take 7) :: (blocksFrom b.length (b.drop 7) ++ [ctlBlock 0x1E []])

/-! ### Scrambling and lanes (R220, R221) -/

/-- Bits through the self-synchronous scrambler 1 + x^39 + x^58, or back through it: its state is the last 58 bits sent. -/
def scramble (back : Bool) : BitVec 58 → List Bool → List Bool × BitVec 58
  | st, [] => ([], st)
  | st, d :: t =>
    let o := d != (st.getLsbD 38 != st.getLsbD 57)
    let r := scramble back ((st <<< 1) ||| (if (if back then d else o) then 1 else 0)) t
    (o :: r.1, r.2)
/-- The 64 bits of a block, in the order sent. -/
def bitsOf (v : Nat) : List Bool := (List.range 64).map v.testBit
/-- The number of bits in the order sent. -/
def ofBits (l : List Bool) : Nat := l.foldr (fun b n => b2n b + 2 * n) 0

/-- What a lane's markers carry: the lane count, RATE and TRUNK_TAG. -/
structure TrunkCfg where
  lanes : Nat
  rate : Nat
  tag : Nat
  deriving DecidableEq, Repr

/-- A marker belongs at a lane block position. -/
def markerAt (n : Nat) : Bool := n % 16384 = 0 || n % 4096 = 2048
/-- The marker of a lane at a position: DESKEW with SEQ, or INTERCALARY. -/
def TrunkCfg.marker (c : TrunkCfg) (lane n : Nat) : WireBlk :=
  if n % 16384 = 0 then ctlBlock 0xA5 [lane, c.lanes, c.rate, n / 16384 % 256, c.tag % 256, c.tag / 256 % 256, 0] else ctlBlock 0x5A []
/-- A block leaves on a lane: the trace shows lane, position, sync header and the scrambled bytes. -/
def LaneTx.out (x : LaneTx) (lane : Nat) (b : WireBlk) : LaneTx × List Nat :=
  let n := (x.pos[lane]?).getD 0
  let r := scramble false ((x.scram[lane]?).getD 0) (bitsOf (leNat (b.2.map (BitVec.ofNat 8))))
  ({ x with pos := x.pos.set lane (n + 1), scram := x.scram.set lane r.2 },
   lane :: n :: b.1 :: (toBytes 8 (ofBits r.1)).map (·.toNat))
/-- The marker that a lane has reached, if it has. -/
def LaneTx.mark (x : LaneTx) (c : TrunkCfg) (lane : Nat) : LaneTx × List Nat :=
  let n := (x.pos[lane]?).getD 0
  if markerAt n then x.out lane (c.marker lane n) else (x, [])
/-- Stream block k goes to lane k mod L, after the marker that is due there. -/
def LaneTx.stream (x : LaneTx) (c : TrunkCfg) (b : WireBlk) : LaneTx × List Nat :=
  let lane := x.blocks % c.lanes
  let m := x.mark c lane
  let o := m.1.out lane b
  ({ o.1 with blocks := x.blocks + 1 }, m.2 ++ o.2)
/-- Stream blocks in turn. -/
def LaneTx.send (x : LaneTx) (c : TrunkCfg) : List WireBlk → LaneTx × List Nat
  | [] => (x, [])
  | b :: t =>
    let o := x.stream c b
    let r := LaneTx.send o.1 c t
    (r.1, o.2 ++ r.2)
/-- The first marker position at or after n. -/
def nextMarker (n : Nat) : Nat :=
  let r := n % 16384
  n - r + (if r = 0 then 0 else if r ≤ 14336 then (r + 2047) / 4096 * 4096 + 2048 else 16384)
/-- IDLE blocks fill the lanes up to the next marker position, and every lane sends its marker there. -/
def LaneTx.fill (x : LaneTx) (c : TrunkCfg) : LaneTx × List Nat :=
  let pos := x.pos.take c.lanes
  let p := nextMarker (pos.foldl min ((pos[0]?).getD 0))
  let i := x.send c (List.replicate ((pos.map (fun n => p - n)).sum) (ctlBlock 0x1E []))
  (List.range c.lanes).foldl (fun a lane => let m := a.1.mark c lane; (m.1, a.2 ++ m.2)) i

/-- Lanes of a trunk (LANES). -/
def State.prdLanes (s : State) (n : Nat) : Nat :=
  match s.fld (prdA n) PRD_CTRL_LANES with | 0 => 1 | 1 => 2 | _ => 4
/-- What a trunk's markers carry. -/
def State.prdCfg (s : State) (n : Nat) : TrunkCfg := ⟨s.prdLanes n, s.fld (prdA n) PRD_CTRL_RATE, s.fld (prdA n) PRD_TAG_TRUNK_TAG⟩

/-- The quad of a trunk. -/
def State.prdQuad (s : State) (n : Nat) : Nat := s.fld (prdA n) PRD_CTRL_QUAD
/-- A packet leaves on the lanes (R221); the trace shows the blocks of the lanes. -/
def State.prdEmit (s : State) (n : Nat) (p : List Byte) : State :=
  let u := s.prd n
  let o := u.tx.send (s.prdCfg n) (packetBlocks p)
  ((s.setPrd n { u with tx := o.1 }).incFld (prdA n) PRD_TXCNT_PACKETS 1).emitLane (s.prdQuad n) 1 (.trunk (Fin.ofNat 8 n)) 0 o.2

/-- Is a packet a LINE_SEGMENT? -/
def PrdPkt.isSegment (p : PrdPkt) : Bool := decide (p.bytes.head? = some 2)

/-- Packets in front that are no segments leave between packets (R225). -/
def State.prdFlush (s : State) (n : Nat) : List PrdPkt → State
  | [] => s.setPrd n { s.prd n with txQ := [] }
  | p :: t => if p.isSegment then s.setPrd n { s.prd n with txQ := p :: t } else State.prdFlush (s.prdEmit n p.bytes) n t

/-- A packet joins a trunk's queue, if the trunk transmits. -/
def State.prdPush (s : State) (n : Nat) (p : PrdPkt) : State :=
  if s.flag (prdA n) PRD_STATUS_TX_ON then s.prdFlush n ((s.prd n).txQ ++ [p]) else s
/-- A packet between packets: it leaves at once (R225). -/
def State.prdNow (s : State) (n : Nat) (p : List Byte) : State :=
  if s.flag (prdA n) PRD_STATUS_TX_ON then s.prdEmit n p else s

/-- The secondary trunk of a head is a ring with the primary (R227). -/
def State.ring (s : State) (h : Nat) : Bool := s.flag (prdA (h + 4)) PRD_CTRL_RING
/-- A tile's trunks (R201, R227). -/
def State.trunksOf (s : State) (h : Nat) (t : Tile) : List Nat :=
  if s.ring h then [h, h + 4] else if t.trunk = 1 then [h + 4] else [h]
/-- SEG_MAX of a trunk; a ring's secondary sends exactly the packets of its primary. -/
def State.segMax (s : State) (n : Nat) : Nat :=
  let v := s.fld (prdA (if n ≥ 4 && s.ring (n - 4) then n - 4 else n)) PRD_CTRL_SEG_MAX
  if v < 16 ∨ v > 512 then 512 else v

/-- SRC: package number, head, secondary trunk, ACTIVE (R229). -/
def State.srcByte (s : State) (n : Nat) : Nat :=
  s.fld advA ADV_SYSID_PKG_NUM + (n % 4) * 16 + (if n ≥ 4 then 64 else 0) + (if s.paired && !s.active then 0 else 128)

/-- FRAME_START or BEACON (Table 9-3). -/
def State.startPkt (s : State) (n type time : Nat) : List Byte :=
  let u := s.head (n % 4)
  shortPkt type 0xFFFF (toBytes 4 (s.fld (headA (n % 4)) HEAD_FRAME_FRAME) ++ toBytes 4 time ++ toBytes 1 (s.srcByte n) ++
    toBytes 1 (b2n u.leap + 2 * b2n u.forced + 4 * b2n u.wasEarly) ++ toBytes 2 0)
def maskOfLayers (l : List Nat) : Nat := (List.range 16).foldl (fun m i => if i ∈ l then m + 2 ^ i else m) 0
/-- FRAME_END. -/
def State.endPkt (s : State) (h : Nat) : List Byte :=
  shortPkt 3 0xFFFF (toBytes 4 (s.fld (headA h) HEAD_FRAME_FRAME) ++ toBytes 2 (maskOfLayers (s.head h).off) ++ toBytes 6 0)

/-- Both trunks of a head queue a packet. -/
def State.prdBoth (s : State) (h : Nat) (f : Nat → List Byte) : State :=
  (s.prdPush h { bytes := f h }).prdPush (h + 4) { bytes := f (h + 4) }

/-! ### Per-emitter decision and tile lines (R213, R217, R218, R225) -/

/-- Per-emitter correction is engaged (R219); maintenance state sends black. -/
def State.emOn (s : State) (h : Nat) : Bool := s.inForceFlag (tcmA h) TCM_CTRL_EM_EN && !s.maint

/-- The line's coefficients and flags: `key` names the raster row, or the native line of a rotated tile (R218). -/
def State.emDecide (s : State) (h : Nat) (tile : Option Nat) (line pixels : Nat) (needed : Bool) : Option EmRow × Nat × State :=
  if !s.emOn h || !needed then (none, 0, s)
  else
    match (s.head h).emRows.find? (fun e => e.tile = tile && e.line = line) with
    | some e =>
      if e.bad then (none, fFALLBACK ||| fEMITTER_OFF ||| fPOISONED, s.incFld (tcmA h) TCM_EMCNT_POISON_ROWS 1)
      else if pixels > 16384 then (none, fFALLBACK ||| fEMITTER_OFF, s.incFld (tcmA h) TCM_EMCNT_FALLBACK_ROWS 1)
      else (some e, 0, s)
    | none => (none, fFALLBACK ||| fEMITTER_OFF, s.incFld (tcmA h) TCM_EMCNT_FALLBACK_ROWS 1)

/-- The nine coefficients of a native pixel on chip. -/
def EmRow.coefs (e : EmRow) (t u v : Nat) : Option (List Byte) :=
  (e.data.find? (fun d => d.1 = t && d.2.1 = v)).map (fun d => (d.2.2.drop (9 * u)).take 9)

/-- The codes of a tile line: composed pixels by native column. -/
def State.tileCodes (s : State) (h : Nat) (t : Tile) (v : Nat) (em : Option EmRow) (px : List Pix) : List (List Nat) :=
  (px.zip (List.range px.length)).map (fun p =>
    s.calibrate h t.idx (if s.tileEm h t.idx then em.bind (fun e => e.coefs t.idx p.2 v) else none) p.1)

/-- A tile line enters the queues of its trunks as segments; the first may carry a class-0 mark. -/
def State.sendLine (s : State) (h : Nat) (t : Tile) (v flags : Nat) (codes : List (List Nat))
    (c0 : Option (Nat × Nat × Nat × Nat)) : State :=
  (s.trunksOf h t).foldl (fun u n =>
    let ps := segments (u.segMax n) t.addr v (u.fld (headA h) HEAD_FRAME_FRAME % 2 ^ 16) flags codes
    match ps with
    | [] => u
    | p :: rest =>
      rest.foldl (fun w q => w.prdPush n { bytes := q })
        (u.prdPush n { bytes := p, c0 := if some n = (s.trunksOf h t).head? then c0 else none })) s

/-! ### Rotated tiles (R203) -/

/-- A trunk has no segment left. -/
def State.trunkIdle (s : State) (n : Nat) : Bool := (s.prd n).txQ = []

/-- Fetch of a native line's coefficients is issued (R217). -/
def State.wantEm (s : State) (h : Nat) (k : Option Nat × Nat) : State :=
  if s.emOn h then s.setHead h { s.head h with emWants := (s.head h).emWants ++ [k] } else s

/-- The next native line of the first complete rotated tile begins. -/
def State.rotLine (s : State) (h : Nat) : State :=
  let u := s.head h
  match u.rotSend with
  | [] => s
  | (rt, v) :: rest =>
    match (s.tiles h).find? (fun t => t.idx = rt.tile) with
    | none => s.setHead h { u with rotSend := rest }
    | some t =>
      let (em, fl, s1) := s.emDecide h (some t.idx) v t.tw (s.tileEm h t.idx)
      let px := (List.range t.tw).map (fun c =>
        match rt.px.find? (fun p => p.1 = c && p.2.1 = v) with | some p => p.2.2 | none => ⟨0, 0, 0⟩)
      let s2 := s1.sendLine h t v (rt.flags ||| fl) (s1.tileCodes h t v em px) none
      let s3 := if s.tileEm h t.idx && v + 4 < t.th then s2.wantEm h (some t.idx, v + 4) else s2
      s3.setHead h { s3.head h with rotSend := if v + 1 < t.th then (rt, v + 1) :: rest else rest
                                    emRows := (s3.head h).emRows.filter (fun e => !(e.tile = some t.idx && e.line ≤ v)) }

/-- FRAME_END follows the last segment of the frame (R225). -/
def State.maybeEnd (s : State) (h : Nat) : State :=
  let u := s.head h
  if u.ended || decide (u.rows < s.rasH h) || u.rotSend ≠ [] then s
  else (s.prdBoth h (fun _ => s.endPkt h)).setHead h { s.head h with ended := true }

/-- Lines of rotated tiles follow while the trunks are free; `force` sends them all. -/
def State.rotPump (s : State) (h : Nat) (force : Bool) : Nat → State
  | 0 => s.maybeEnd h
  | n + 1 =>
    match (s.head h).rotSend with
    | [] => s.maybeEnd h
    | _ :: _ => if force || (s.trunkIdle h && s.trunkIdle (h + 4)) then State.rotPump (s.rotLine h) h force n else s
/-- Lines still to be sent, for `rotPump`. -/
def State.rotCount (s : State) (h : Nat) : Nat := 1 + 512 * (s.head h).rotSend.length

/-! ### The class-0 monitor (R49, R55, Latency monitor registers) -/

/-- C0_BOUNDn. -/
def State.c0Bound (s : State) (n : Nat) : Nat :=
  let f (g : Fld) : Nat := s.fld fabA (g.nth 4 n)
  if f C0_STREAM_EN = 0 then 0
  else
    match (List.range 12).find? (fun p => s.portSid p = f C0_STREAM_STREAM_ID && s.campOn p) with
    | some p => divCeil ((f C0_STREAM_V + 2) * s.fld (campA p) CAMP_TLINE_TLINE_PS) 1000 + 1707
    | none => 1707

/-- A line stamped before the last step of the time counter is not measured after it (R392). -/
def State.steppedSince (s : State) (sid frame line : Nat) : Bool :=
  match (List.range 12).find? (fun p => s.portSid p = sid && s.campOn p) with
  | none => false
  | some p =>
    match (s.camp p).stepMark with
    | none => false
    | some (f, l) => earlier32 frame f || decide (frame = f ∧ line < l)

/-- The first symbol of a class-0 line leaves the framer. -/
def State.c0Exit (s : State) (sid frame line time : Nat) : State :=
  match (List.range 4).find? (fun n => s.flag fabA (C0_STREAM_EN.nth 4 n) && s.fld fabA (C0_STREAM_STREAM_ID.nth 4 n) = sid) with
  | none => s
  | some n =>
    if s.steppedSince sid frame line then s
    else
      let lat := (s.time32 + 2 ^ 32 - time % 2 ^ 32) % 2 ^ 32
      let s1 := s.maxFld fabA (C0_LATMAX_LAT_MAX_NS.nth 4 n) lat
      if lat > s1.c0Bound n then
        let s2 := s1.incFld fabA (C0_OVER_OVER_COUNT.nth 4 n) 1
        if s1.fld fabA (C0_OVER_OVER_COUNT.nth 4 n) = 0 then
          s2.record 0 0x07 2 (srcOf 0 0x03 0) frame (line % 2 ^ 14 * 2 ^ 18 + sid % 2 ^ 10 * 2 ^ 8)
        else s2
      else s1

end Sys2Proof.Machine
end

