-- ==== Sys2Proof/Machine/Calib.lean ====
section
/-! DEFINITION. Tile calibration memory and curves: windows, the store queue, loads (R214 to R216), and the writes and reads of
TCM registers. -/
namespace Sys2Proof.Machine

/-- The head is producing frames. -/
def State.headRuns (s : State) (h : Nat) : Bool := s.flag (headA h) HEAD_STATUS_RUNNING

/-- A tile record enters the memory. -/
def State.putTile (s : State) (h tile : Nat) (ws : List Word) : State :=
  (ws.zip (List.range 64)).foldl (fun t e => t.tset .tile h (tile * 64 + e.2) e.1) s
/-- PEND follows the queue. -/
def State.showPend (s : State) (h : Nat) : State := s.setFld (tcmA h) TCM_STATUS_PEND (s.head h).queue.length

/-- A tile record is stored: at once while the head does not run, else into the queue of 16 (R216). -/
def State.storeTile (s : State) (h tile : Nat) (ws : List Word) : State × WRes :=
  if !s.headRuns h then okW (s.putTile h tile ws)
  else if (s.head h).queue.length ≥ 16 then refusedW (s.setFlag (tcmA h) TCM_STATUS_TBL_ERR true)
  else okW ((s.setHead h { s.head h with queue := (s.head h).queue ++ [(tile, ws)] }).showPend h)

/-- A write of TCM_DATA (R215, R216). -/
def State.tcmStore (s : State) (h : Nat) (v : Word) : State × WRes :=
  let b := tcmA h
  let i := s.fld b TCM_IDX_INDEX
  if s.flag b TCM_IDX_TABLE then
    let s1 := s.setFld b TCM_IDX_INDEX (if i + 1 = 98304 then 0 else i + 1)
    if i ≥ 98304 then okW s1
    else if s.headRuns h && s.inForce b TCM_CTRL_CRV_BANK = i / 49152 then refusedW (s1.setFlag b TCM_STATUS_TBL_ERR true)
    else okW (s1.tset .curve h i (v &&& 0xFFFF))
  else
    let s1 := (s.setFld b TCM_IDX_INDEX (i + 1)).tset .tileStage h (i % 64) v
    if i % 64 = 63 then s1.storeTile h (i / 64) ((List.range 64).map (s1.tget .tileStage h)) else okW s1

/-- The next word of a load would store a record into a full queue. -/
def State.tcmFull (s : State) (h : Nat) : Bool :=
  !s.flag (tcmA h) TCM_IDX_TABLE && s.fld (tcmA h) TCM_IDX_INDEX % 64 = 63 && s.headRuns h &&
    decide ((s.head h).queue.length ≥ 16)

/-- A load ends. -/
def State.tcmLoadEnd (s : State) (h : Nat) (err : Bool) : State :=
  let s1 := (s.setHead h { s.head h with load := none }).setFlag (tcmA h) TCM_LDCTL_GO false
  if err then s1.setFlag (tcmA h) TCM_LDCTL_LD_ERR true else s1

/-- A load whose data have come goes on, word by word, until it ends, fails or meets a full queue (R216). -/
def State.tcmRun (s : State) (h : Nat) : Nat → State
  | 0 => s
  | n + 1 =>
    match (s.head h).load with
    | none => s
    | some l =>
      if !l.come then s
      else if l.left = 0 then s.tcmLoadEnd h false
      else if l.fail = some 0 then s.tcmLoadEnd h true
      else if (s.busRead (headReq h) l.addr 4).1.isNone then (s.busRead (headReq h) l.addr 4).2.tcmLoadEnd h true
      else if s.tcmFull h then s
      else
        let s1 := (s.tcmStore h (wd (leNat (s.peek (headReq h) l.addr 4)))).1
        State.tcmRun (s1.setHead h { s1.head h with load := some { l with addr := l.addr + 4, left := l.left - 1
                                                                          fail := l.fail.map (· - 1) } }) h n
/-- Steps that a load can still take. -/
def State.tcmSteps (s : State) (h : Nat) : Nat := match (s.head h).load with | none => 0 | some l => l.left + 1

/-- Writes of TCM registers with an effect of their own. -/
def tcmWrite (x : WCtx) (h off a : Nat) (v m : Word) (s : State) : State × WRes :=
  let b := tcmA h
  if off = TCM_DATA then s.tcmStore h v
  else if off = TCM_LDCTL then
    let busy := (s.head h).load ≠ none
    let (s1, r) := s.genWrite x a v m
    if (v &&& m).toNat.testBit 31 && !busy then
      let n := s1.fld b TCM_LDCTL_COUNT
      (if n = 0 then s1.setFlag b TCM_LDCTL_GO false
       else s1.setHead h { s1.head h with load := some ⟨s1.fld b TCM_LDADDR_ADDR * 256, n, none, false⟩ }, r)
    else (s1, r)
  else s.genWrite x a v m

/-- Reads of TCM registers that are windows. -/
def tcmRead (h off : Nat) (s : State) : Option (Word × State) :=
  let b := tcmA h
  if off = TCM_DATA then
    let i := s.fld b TCM_IDX_INDEX
    if s.flag b TCM_IDX_TABLE then
      some (if i ≥ 98304 then 0 else s.tget .curve h i, s.setFld b TCM_IDX_INDEX (if i + 1 = 98304 then 0 else i + 1))
    else some (s.tget .tile h i, s.setFld b TCM_IDX_INDEX (i + 1))
  else none

/-- What happens at the head's Solstice (R215, R216, R219): the TCM fields commit, queued records are written, a waiting load
goes on. -/
def State.tcmSolstice (s : State) (h : Nat) : State :=
  let q := (s.head h).queue
  let s1 := s.solstice (tcmA h)
  let s2 := q.foldl (fun t e => t.putTile h e.1 e.2) s1
  let s3 := (s2.setHead h { s2.head h with queue := [] }).showPend h
  let s4 := s3.setFld (tcmA h) TCM_STATUS_EM_ACTIVE (s3.inForce (tcmA h) TCM_CTRL_EM_EN)
  s4.tcmRun h (s4.tcmSteps h)

end Sys2Proof.Machine
end

