-- ==== Sys2Proof/Machine/HeadOps.lean ====
section
/-! DEFINITION. Display heads: frame starts, the Solstice, surfaces, fetches, rows, underrun, frame records (R189 to R212). -/
namespace Sys2Proof.Machine

/-! ### Surfaces at the freeze (R195) -/

/-- The frame that the locked port will give next (R195, R112). -/
def State.fPred (s : State) (h : Nat) : Nat :=
  let p := s.inForce (headA h) HEAD_CTRL_LOCK_PORT
  if p < 12 then s.fld (campA p) CAMP_FRAME_FRAME_NEXT else 0

/-- What the reads of the freeze give for a layer: `failed` and `poisoned` name layers whose reads went wrong; a read of memory
that does not answer is poison (R323). -/
def State.selectOne (s : State) (h fPred : Nat) (failed poisoned : List Nat) (l : Layer) : LayerSel :=
  let poison := poisoned.contains l.i || s.readsPoison (headReq h) (s.selectReads h l)
  ⟨l.i, if failed.contains l.i || poison then none else s.pickBuf h l fPred, poison⟩
/-- The surface layers that a frame with the settings of t shows. -/
def State.surfsOn (t : State) (h : Nat) : List Layer := (t.layersOn h).filter (fun l => l.type = 1)
/-- Its layers' buffers: the settings are those of t, the memory that of s. -/
def State.selectAll (s t : State) (h fPred : Nat) (failed poisoned : List Nat) : List LayerSel :=
  (t.surfsOn h).map (s.selectOne h fPred failed poisoned)
/-- The settings that the next frame will have, with the group rejected if it breaks R193. -/
def State.headNext (s : State) (h : Nat) : State :=
  let t := s.solstice (headA h)
  if t.headGroupOk h then t else s
/-- The freeze's reads were made: their address errors. -/
def State.selectErrors (s t : State) (h : Nat) : State :=
  s.readErrors (headReq h) ((t.surfsOn h).flatMap (s.selectReads h))

/-! ### Fetches (R196, R209) -/

/-- The destination rows of a layer whose source rows all lie below n, from `lo` up. -/
def State.destBelow (s : State) (h : Nat) (l : Layer) (lo n : Nat) : List Nat :=
  ((List.range l.dstH).drop lo).takeWhile (fun d => (s.rowsOf h l d).all (· < n))

/-- Segments of a layer's destination row in view. -/
def Layer.segs (l : Layer) : List Nat :=
  if l.dstW = 0 then [] else (List.range ((l.dstX + l.dstW - 1) / 64 + 1 - l.dstX / 64)).map (· + l.dstX / 64)
/-- Some pixel of the layer takes part in a row. -/
def HeadU.visible (u : HeadU) (l : Layer) (r : Nat) : Bool := l.segs.any (fun g => !u.hidden l.i r g)

/-- Fetches of a layer's source rows below n are issued; for the destination rows that this completes, covered segments are
decided (R209). -/
def State.issueTo (s : State) (h : Nat) (l : Layer) (n : Nat) : State :=
  let u := s.head h
  match u.fetches.find? (fun f => f.layer = l.i) with
  | none => s
  | some f =>
    if n ≤ f.upTo then s
    else
      let ds := s.destBelow h l f.decided n
      let cov := ds.flatMap (fun d => (s.coversOver h l (l.dstY + d)).map (fun g => (⟨l.dstY + d, g, l.i⟩ : Cover)))
      let u1 := { u with covers := u.covers ++ cov }
      let rows := (List.range (n - f.upTo)).map (· + f.upTo)
      let needed := rows.filter (fun i => (List.range l.dstH).any (fun d =>
        (s.rowsOf h l d).contains i && u1.visible l (l.dstY + d)))
      s.setHead h { u1 with fetches := u.fetches.map (fun g => if g.layer = l.i then ⟨l.i, n, f.decided + ds.length⟩ else g)
                            wants := u.wants ++ needed.map (fun i => ⟨l.i, i⟩) }

/-- The surface layers that are shown and not switched off. -/
def State.surfaces (s : State) (h : Nat) : List Layer :=
  (s.layersOn h).filter (fun l => l.type = 1 && !(s.head h).off.contains l.i)

/-! ### Frame records (R212, Table 8-9) -/

def State.frameRecord (s : State) (h leapLines : Nat) : List Byte :=
  let u := s.head h
  let shown (l : Layer) : Nat :=
    if !l.en || u.off0.contains l.i then 0xFFFFFFFF
    else if l.type = 0 then u.cam.getD 0xFFFFFFFF
    else match u.surf.find? (fun x => x.layer = l.i) with | some x => x.frame | none => 0xFFFFFFFF
  toBytes 16 { u.hdr0 with flags := u.flags }.toNat ++ toBytes 8 (u.fsNs / 1000000000) ++ toBytes 4 (u.fsNs % 1000000000) ++
    toBytes 2 u.rows ++ toBytes 2 leapLines ++ toBytes 2 (match s.direct h with | some l => l.sid | none => 0x3FF) ++
    toBytes 1 (b2n u.forced + 2 * b2n u.wasEarly + 4 * b2n u.wasClamp) ++ toBytes 1 0 ++ toBytes 2 (maskOfLayers u.off) ++
    toBytes 10 0 ++ (List.range 16).flatMap (fun l => toBytes 4 (shown (s.layer h l))) ++ toBytes 16 0

/-- Leap lines of the frame that ends: rows VT_NOM + 1 and up (Table 8-8). -/
def State.leapLines (s : State) (h : Nat) : Nat :=
  if s.inForceFlag (headA h) HEAD_CTRL_LOCK_EN then (s.head h).rows - s.inForce (headA h) HEAD_VTNOM_VT_NOM - 1 else 0

/-- The current frame ends: last segments, FRAME_END, HEAD_LAST, and its record is ready; one still unwritten is dropped. -/
def State.endFrame (s : State) (h : Nat) : State :=
  let b := headA h
  let s1 := s.rotPump h true (s.rotCount h)
  let s2 := if (s1.head h).ended then s1 else (s1.prdBoth h (fun _ => s1.endPkt h)).setHead h { s1.head h with ended := true }
  let n := s2.leapLines h
  let s3 := (s2.setFld b HEAD_LAST_UR_MASK (maskOfLayers (s2.head h).off)).setFld b HEAD_LAST_LEAP_LINES (sat 16 n)
  if !s3.flag b HEAD_FREC_CFG_FREC_EN then s3
  else
    let lg := min 8 (s3.fld b HEAD_FREC_CFG_FREC_LOG2)
    let a := s3.fld b HEAD_FREC_BASE_ADDR * 256 + s3.fld b HEAD_FRAME_FRAME % 2 ^ lg * 128
    let s4 := if (s3.head h).record ≠ none then s3.setFlag b HEAD_STATUS_FREC_DROP true else s3
    s4.setHead h { s4.head h with record := some (a, s3.frameRecord h n) }

/-- DRAM takes the record that waits; a write to a channel that does not answer is discarded (R323), one that R38 names with an
address error. -/
def State.flushRecord (s : State) (h : Nat) : State :=
  match (s.head h).record with
  | none => s
  | some (a, b) =>
    (s.put (.head (Fin.ofNat 4 h)) a b).setHead h { s.head h with record := none }

/-! ### Frame starts (R205, Table 8-8) -/

inductive StartHow where
  | first | unlocked | target | early | forced
  deriving DecidableEq, Repr

/-- The row period in PIX cycles of 2/3 ns (R191). -/
def State.rowPeriod (s : State) (h : Nat) : Nat :=
  match s.direct h with
  | some l =>
    if s.inForceFlag (headA h) HEAD_CTRL_LOCK_EN then
      divRound (s.fld (campA (s.inForce (headA h) HEAD_CTRL_LOCK_PORT)) CAMP_TLINE_TLINE_PS * l.srcH * 3) (l.dstH * 2000)
    else s.inForce (headA h) HEAD_OLP_OL_PERIOD
  | none => s.inForce (headA h) HEAD_OLP_OL_PERIOD
/-- The head has no row period: OL_PERIOD = 0 where it counts (R191). In maintenance state it sends black all the same (R74,
notes/assumptions/22.md). -/
def State.periodStops (s : State) (h : Nat) : Bool :=
  !s.maint && ((s.direct h).isNone || !s.inForceFlag (headA h) HEAD_CTRL_LOCK_EN) && s.inForce (headA h) HEAD_OLP_OL_PERIOD = 0

/-- The head's SH group commits, or is rejected whole (R193). -/
def State.headCommit (s : State) (h : Nat) : State × Bool :=
  let t := s.solstice (headA h)
  if t.headGroupOk h then (t, true)
  else ((s.solsticeBut (headA h) (fun _ => 0xFFFFFFFF)).setFlag (headA h) HEAD_STATUS_CFG_ERR true, false)

/-- A bank with a record that is VALID and not valid is committed (R201). -/
def State.checkBank (s t : State) (h : Nat) (first : Bool) : State :=
  let changed := first || s.now (headA h + HEAD_CTRL) != t.now (headA h + HEAD_CTRL) || s.now (headA h + HEAD_SIZE) != t.now (headA h + HEAD_SIZE)
  if changed && (t.records h).any (fun r => !r.ok (t.rasW h) (t.rasH h)) then t.setFlag (headA h) HEAD_STATUS_PL_ERR true else t

/-- The head stops producing frames; the record of its last frame, with none to follow it, is written (R212). -/
def State.headStop (s : State) (h : Nat) : State :=
  let b := headA h
  let u := s.head h
  (((((s.setFlag b HEAD_STATUS_RUNNING false).setFlag b HEAD_STATUS_FORCED false).setFlag b HEAD_STATUS_LEAP false).setFlag b
    HEAD_STATUS_LOCKED false).setHead h { u with rows := 0, rowOpen := false, waiting := false, target := none, early := false
                                                 selecting := false, selected := false, next := [], kept := [], wants := []
                                                 emWants := [], rot := [], rotSend := [], ended := true }).flushRecord h

/-- Numbering: from 0 after EN is set; the standby half follows its partner (R205, R479). -/
def State.nextHFrame (s : State) (h : Nat) (how : StartHow) (cam : Option Nat) : Nat :=
  if how = .first then 0
  else
    match cam with
    | some c =>
      if s.paired && !s.active && s.pair.heard then
        ((s.pair.hframe[h]?).getD 0 + c + 2 ^ 32 - (s.pair.cframe[h]?).getD 0 % 2 ^ 32) % 2 ^ 32
      else (s.fld (headA h) HEAD_FRAME_FRAME + 1) % 2 ^ 32
    | none => (s.fld (headA h) HEAD_FRAME_FRAME + 1) % 2 ^ 32

/-- Initial fetches of a surface layer: rows that no row leads to by 8 (R196). -/
def State.firstFetch (s : State) (h : Nat) (l : Layer) : State :=
  let lo := minOf (s.rowsOf h l 0)
  let t := s.setHead h { s.head h with fetches := (s.head h).fetches ++ [⟨l.i, lo, 0⟩] }
  t.issueTo h l (lo + 8)

/-- A frame start of a head paces the decode contexts that name it (R270): every PACE_DIV-th one lets a ready picture be
published. -/
def State.pace (s : State) (h : Nat) : State :=
  (List.range 64).foldl (fun t c =>
    let x := t.ctx c
    let b := ((x.p[13]?).getD 0).toNat
    if x.run && x.dec && b.testBit 2 && b % 4 = h then
      let n := x.paceCount + 1
      if n ≥ ((x.p[14]?).getD 0).toNat then
        t.setCtx c { x with paceCount := 0, paceDue := match x.outQ with | o :: _ => o.ready | [] => false }
      else t.setCtx c { x with paceCount := n }
    else t) s

/-- The head's stream is carried (R41). -/
def State.admitHead (s : State) (h : Nat) : State :=
  let sid := s.fld (headA h) HEAD_SID_STREAM_ID
  if sid = 0x3FF then s else s.admitStream sid (srcOf 0 0x20 h)

/-- The new frame's state and registers, the group having committed. -/
def State.openFrame (s : State) (h : Nat) (how : StartHow) (leapLines : Nat) (sels : List LayerSel) : State :=
  let b := headA h
  let u := s.head h
  let tgt := if how = .target ∨ how = .early then u.target else none
  let cam := tgt.map (·.frame)
  let ls := s.layersOn h
  let noDirect := ((ls.filter (fun l => l.type = 0 && cam.isNone)).map (·.i))
  let noSurf := ((ls.filter (fun l => l.type = 1 && !(sels.any (fun x => x.layer = l.i && x.sel.isSome)))).map (·.i))
  let leap := decide (leapLines > 0)
  let keepTarget := if how = .target ∨ how = .early ∨ !s.inForceFlag b HEAD_CTRL_LOCK_EN then none else u.target
  let mine (f : Nat) : Bool := some f == cam || keepTarget.any (fun t => t.frame = f)
  let u1 : HeadU :=
    { u with rows := 0, rowOpen := false, waiting := false, fsNs := s.nowNs, rowNs := s.nowNs, target := keepTarget
             early := false, forced := decide (how = .forced), leap := leap, wasEarly := decide (how = .early)
             wasClamp := (tgt.map (·.clamp)).getD false, leapLines := leapLines, tOut := s.rowPeriod h, cam := cam
             calId := if (s.direct h).isSome then (tgt.map (·.calId)).getD 0xFFFF else 0xFFFF
             lines := u.lines.filter (fun k => mine k.h.frame), lost := u.lost.filter (fun e => mine e.1)
             off := noDirect ++ noSurf, off0 := noDirect ++ noSurf
             poisoned := (sels.filter (·.poison)).map (·.layer), surf := sels.filterMap (·.sel)
             selecting := false, selected := false, next := [], kept := [], fetches := [], wants := [], surfRows := [], covers := []
             flags := 0, rot := [], rotSend := [], ended := false, emWants := [], emRows := [] }
  let s1 := s.setHead h u1
  let s2 := s1.setFld b HEAD_FRAME_FRAME (s.nextHFrame h how cam)
  let s3 := (((s2.setFlag b HEAD_STATUS_RUNNING true).setFlag b HEAD_STATUS_FORCED u1.forced).setFlag b HEAD_STATUS_LEAP leap).setFlag b
    HEAD_STATUS_LOCKED (decide (how = .target))
  let s4 := s3.setFld b HEAD_FS_NS_FS_NS (s.nowNs % 1000000000)
  let s5 := if leap then s4.incFld b HEAD_CNT_LEAP_FRAMES 1 else s4
  let s6 := if how = .forced then s5.incFld b HEAD_CNT_FORCED_FRAMES 1 else s5
  let s7 := if how = .early then s6.incFld b HEAD_CNT2_EARLY 1 else s6
  let s8 := s7.prdBoth h (fun n => s7.startPkt n 1 (s.nowNs % 2 ^ 32))
  let s9 := (s8.surfaces h).foldl (fun t l => t.firstFetch h l) s8
  ((List.range 4).foldl (fun t r => if r < t.rasH h then t.wantEm h (none, r) else t) s9).pace h |>.admitHead h

/-- A head frame starts: the old one ends, the groups commit, and the new one opens, or the head stops (R191, R193, R205). -/
def State.headStart (s : State) (h : Nat) (how : StartHow) : State :=
  let n := if how = .first then 0 else s.leapLines h
  let s1 := if how = .first then s else s.endFrame h
  let u := s1.head h
  let (s2, ok) := s1.headCommit h
  let sels :=
    if !u.selecting then s2.selectAll s2 h (s2.fPred h) [] []
    else if !u.selected then []
    else if ok then u.next else u.kept
  let s2' := if u.selecting then s2 else s2.selectErrors s2 h
  let s3 := (s1.checkBank s2' h (decide (how = .first))).tcmSolstice h
  if s3.periodStops h then s3.headStop h else s3.openFrame h how n sels

/-! ### Rows (R190, R206, R207, R210) -/

/-- The source lines of the direct layer that a raster row needs. -/
def State.directRows (s : State) (h r : Nat) : List Nat :=
  match s.direct h with
  | some l => if l.inRow r && !(s.head h).off.contains l.i then s.rowsOf h l (r - l.dstY) else []
  | none => []
/-- The lines of the current camera frame held. -/
def HeadU.hasLine (u : HeadU) (j : Nat) : Bool := u.lines.any (fun k => k.h.line = j && some k.h.frame == u.cam)
/-- Was a line of the current frame dropped? -/
def HeadU.lostLine (u : HeadU) (j : Nat) : Bool := u.lost.any (fun e => e.2 = j && some e.1 == u.cam)

/-- A layer underruns: it is off for the rest of the frame (R207). -/
def State.underrun (s : State) (h l : Nat) (poison : Bool) : State :=
  let u := s.head h
  s.setHead h { u with off := if u.off.contains l then u.off else l :: u.off
                       poisoned := if poison then l :: u.poisoned else u.poisoned
                       wants := u.wants.filter (fun w => w.layer ≠ l) }

/-- Surface layers whose data for the row are absent or poisoned. -/
def State.checkSurfaces (s : State) (h r : Nat) : State :=
  (s.surfaces h).foldl (fun t l =>
    let u := t.head h
    if !l.inRow r || !u.visible l r then t
    else
      let got := (t.rowsOf h l (r - l.dstY)).map (fun i => u.surfRows.find? (fun x => x.layer = l.i && x.row = i))
      if got.any (fun x => x.any (·.poison)) then t.underrun h l.i true
      else if got.any (·.isNone) then t.underrun h l.i false
      else t) s

/-- Tiles of ROT 0 and 180 in a row, and those of ROT 90 and 270. -/
def State.flatTiles (s : State) (h r : Nat) : List Tile := (s.tiles h).filter (fun t => t.rot % 2 = 0 && t.inRow r)
def State.rotTiles (s : State) (h r : Nat) : List Tile := (s.tiles h).filter (fun t => t.rot % 2 = 1 && t.inRow r)
/-- The native line of a raster row in a tile of ROT 0 or 180. -/
def Tile.lineOf (t : Tile) (r : Nat) : Nat := if t.rot = 0 then r - t.y else t.y + t.th - 1 - r

/-- Pixels of rotated tiles enter the rotation buffer; a footprint that finds it full is not sent (R203). -/
def State.rotRow (s : State) (h r flags : Nat) (t : Tile) : State :=
  let u := s.head h
  let used := ((u.rot.map (·.size)).sum) + ((u.rotSend.map (·.1.size)).sum)
  let px : List (Nat × Nat × Pix) := (List.range t.tw).flatMap (fun c => (List.range t.th).filterMap (fun v =>
    let q := t.raster c v
    if q.2 = r then some (c, v, s.composePx h q.1 r) else none))
  let add (x : RotTile) : RotTile := { x with px := x.px ++ px, flags := x.flags ||| flags }
  let s1 : State :=
    if r = t.y then
      if used + t.tw * t.th > 262144 then s.setFlag (headA h) HEAD_STATUS_ROT_OVF true
      else
        let s2 := s.setHead h { u with rot := u.rot ++ [add ⟨t.idx, [], 0, t.tw * t.th⟩] }
        if s.tileEm h t.idx then (List.range (min 4 t.th)).foldl (fun w v => w.wantEm h (some t.idx, v)) s2 else s2
    else s.setHead h { u with rot := u.rot.map (fun x => if x.tile = t.idx then add x else x) }
  if r + 1 = t.y + t.fh then
    let u1 := s1.head h
    s1.setHead h { u1 with rot := u1.rot.filter (fun x => x.tile ≠ t.idx)
                           rotSend := u1.rotSend ++ (u1.rot.filter (fun x => x.tile = t.idx)).map (fun x => (x, 0)) }
  else s1

/-- The direct layer's source index at a raster row (R197). -/
def State.directIndex (s : State) (h : Nat) (l : Layer) (r : Nat) : Nat :=
  (clampInt 0 (((s.srcSize h l).2 : Int) - 1) (sourcePos (r - l.dstY) l.srcY l.srcH l.dstH).1).toNat

/-- The class-0 line whose first output row this is. -/
def State.c0Mark (s : State) (h r : Nat) : Option (Nat × Nat × Nat × Nat) :=
  match s.direct h with
  | none => none
  | some l =>
    if !l.inRow r || (s.head h).off.contains l.i then none
    else
      let i := s.directIndex h l r
      if r ≠ l.dstY ∧ s.directIndex h l (r - 1) = i then none
      else ((s.head h).lines.find? (fun k => k.h.line = i && some k.h.frame == (s.head h).cam)).map (fun k =>
        (k.h.sid, k.h.frame, i, k.h.time))

/-- Flags of a row (R207, R210). -/
def State.rowFlags (s : State) (h r : Nat) : Nat :=
  let u := s.head h
  let dir := (s.directRows h r).foldl (fun f j =>
    match u.lines.find? (fun k => k.h.line = j && some k.h.frame == u.cam) with | some k => f ||| k.h.flags | none => f) 0
  let hit (ls : List Nat) : Bool := (s.layersOn h).any (fun l => ls.contains l.i && l.inRow r)
  (dir - (dir &&& (fSOF ||| fEOF))) ||| (if hit u.off then fUNDERRUN else 0) ||| (if hit u.poisoned then fPOISONED else 0) |||
    (if u.leap then fLEAP else 0) ||| (if r = 0 then fSOF else 0) ||| (if r + 1 = s.rasH h then fEOF else 0)

/-- The header of a row's packet (R210). -/
def State.rowHdr (s : State) (h r flags : Nat) : Hdr :=
  { sid := s.fld (headA h) HEAD_SID_STREAM_ID, cls := if (s.direct h).isSome then 0 else 1
    frame := s.fld (headA h) HEAD_FRAME_FRAME, line := r, calId := (s.head h).calId, flags := flags
    time := (s.head h).rowNs % 2 ^ 32 }

/-- An active row is composed, calibrated and handed to the framers (R200, R203, R213, R218). -/
def State.composeRow (s : State) (h r : Nat) : State :=
  let s1 := s.checkSurfaces h r
  let flat := s1.flatTiles h r
  let base := s1.rowFlags h r
  let ems := flat.filter (fun t => s1.tileEm h t.idx)
  let (em, fl, s2) := s1.emDecide h none r ((flat.map (·.tw)).sum) (ems ≠ [])
  let flags := base ||| fl
  let c0 := s2.c0Mark h r
  let first := (flat.head?).map (·.idx)
  let s3 := flat.foldl (fun t q =>
    let v := q.lineOf r
    let px := (List.range q.tw).map (fun c => t.composePx h (q.raster c v).1 r)
    t.sendLine h q v flags (t.tileCodes h q v em px) (if some q.idx = first then c0 else none)) s2
  let s4 := (s3.rotTiles h r).foldl (fun t q => t.rotRow h r base q) s3
  let u := s4.head h
  let inRow := ((s4.layersOn h).filter (fun l => l.inRow r)).map (·.i)
  s4.setHead h { u with flags := u.flags ||| flags, hdr0 := if r = 0 then s.rowHdr h r flags else u.hdr0
                        poisoned := u.poisoned.filter (fun i => !inRow.contains i)
                        emRows := u.emRows.filter (fun e => e.tile ≠ none || decide (r < e.line))
                        covers := u.covers.filter (fun c => decide (r < c.row)) }

/-- The covers of the direct layer, which is not fetched, are judged at the row's start (R209). -/
def State.coverDirect (s : State) (h r : Nat) : State :=
  match s.direct h with
  | none => s
  | some l =>
    if l.inRow r then
      s.setHead h { s.head h with covers := (s.head h).covers ++ (s.coversOver h l r).map (fun g => ⟨r, g, l.i⟩) }
    else s

/-- A row begins: fetches are issued, and an active row is composed. -/
def State.beginRow (s : State) (h : Nat) : State :=
  let u := s.head h
  let r := u.rows
  let s1 := s.setHead h { u with rows := r + 1, rowOpen := true, waiting := false, rowNs := s.nowNs }
  if r ≥ s1.rasH h then s1
  else
    let s2 := (s1.surfaces h).foldl (fun t l =>
      if l.inRow r then t.issueTo h l (maxOf (t.rowsOf h l (r - l.dstY)) + 9) else t) s1
    let s3 := if r + 4 < s2.rasH h then s2.wantEm h (none, r + 4) else s2
    let s4 := (s3.coverDirect h r).composeRow h r
    s4.rotPump h false (s4.rotCount h)

/-- The row that is due: it begins, waits for direct lines, or goes on without them (R206, R207). -/
def State.dueRow (s : State) (h : Nat) : State :=
  let u := s.head h
  let seen := match s.direct h with
    | some l => l.segs.any (fun g => !(s.coversOver h l u.rows).contains g)
    | none => false
  let need := if u.rows < s.rasH h && seen then s.directRows h u.rows else []
  let dl := match s.direct h with | some l => l.i | none => 16
  if need.any (fun j => u.lostLine j && !u.hasLine j) then (s.underrun h dl false).beginRow h
  else if need.all u.hasLine then s.beginRow h
  else if u.waiting then s
  else (s.setHead h { u with waiting := true, waitTick := s.tick }).incFld (headA h) HEAD_CNT2_WAIT_ROWS 1

/-- A row has ended; the next frame may start (Table 8-8). -/
def State.rowEnded (s : State) (h : Nat) : State :=
  let b := headA h
  let s1 := s.setHead h { s.head h with rowOpen := false }
  let u := s1.head h
  if !s1.inForceFlag b HEAD_CTRL_LOCK_EN then
    (if u.rows ≥ s1.inForce b HEAD_VTNOM_VT_NOM then s1.headStart h .unlocked else s1)
  else if u.early && decide (u.rows ≥ s1.inForce b HEAD_VT_VT_MIN) then s1.headStart h .early
  else if u.rows ≥ s1.inForce b HEAD_VT_VT_MAX then s1.headStart h .forced
  else s1

end Sys2Proof.Machine
end

