-- ==== Sys2Proof/Machine/CamFrame.lean ====
section
/-! DEFINITION. Frame starts and ends of camera ports: Solstice, calendar entries, injected packets, midpoints, lock events
(R99 to R126, R204), and the calendar's triggers. -/
namespace Sys2Proof.Machine

/-! ### Solstice of a port (R105, R121) -/

/-- The port's SH group commits; a bad WIDTH or HEIGHT does not, and sets CFG_ERR (SIZE_COMMIT). -/
def State.sizeCommit (s : State) (p : Nat) : State :=
  let b := campA p
  let keep := sizeKeep (b + CAMP_SIZE) (s.candidate (b + CAMP_SIZE))
  (s.solsticeBut b (fun a => if a = b + CAMP_SIZE then keep else 0)).sizeErr (b + CAMP_SIZE) keep

/-! ### Control packets at a port (R26, R124, R508) -/

/-- An entry names a register of the port's own blocks. -/
def ownEntry (p : Nat) (e : CtlEntry) : Bool :=
  match regAt e.addr with
  | some w => w.die = 0 && w.inst = p && (w.blk = .camp || w.blk = .cal)
  | none => false

/-- The port or its calendar applies an entry that names it; a reserved OP is skipped and recorded by the block (R27). -/
def State.applyOwn (s : State) (p sid : Nat) (by' : Option Req) (e : CtlEntry) : State :=
  if e.op ≠ 1 ∧ e.op ≠ 2 then s.record 0 0x04 1 (srcOf 0 (bits e.addr 23 16) p) e.addr (info8 sid)
  else
    let m := if e.op = 2 then e.mask else 0xFFFFFFFF
    let x : WCtx := ⟨by'.getD .host, .packet, by'.isSome⟩
    let off := e.addr % 0x400
    (if bits e.addr 23 16 = 0x10 then campWrite x p off e.addr e.value m s else calWrite x p off e.addr e.value m s).1

/-- A control packet enters a port's stream: the port applies its own entries, the others travel on (R26). -/
def State.pushControl (s : State) (p : Nat) (by' : Option Req) (es : List CtlEntry) : State :=
  let sid := s.portSid p
  let s1 := (es.filter (ownEntry p)).foldl (fun t e => t.applyOwn p sid by' e) s
  let rest := es.filter (fun e => !ownEntry p e)
  if rest = [] then s1
  else s1.pushPkt p ⟨s1.campHdr p 0 fCONTROL s1.time32, .control rest by'⟩

/-- The camera port that is the enabled source of a stream (R508). -/
def State.camSource (s : State) (sid : Nat) : Option Nat := (List.range 12).find? (fun p => s.campOn p && s.portSid p = sid)

/-- One injection waiting for the port enters its stream, and GO clears. -/
def State.injectOne (s : State) (p : Nat) (j : Nat × Req) : State :=
  let s1 : State := (s.withFab { s.fab with inject := s.fab.inject.filter (fun x => x.1 ≠ j.1) })
  (s1.setFlag fabA (FAB_INJ_CTL_GO.nth 0x10 j.1) false).pushControl p (some j.2) (s.injEntries j.1)

/-- Injections waiting for a boundary of the port's stream, in channel order (R508). -/
def State.waitingFor (s : State) (p : Nat) : List (Nat × Req) :=
  (List.range 4).flatMap (fun k => s.fab.inject.filter (fun j => j.1 = k && s.fld fabA (FAB_INJ_CTL_STREAM_ID.nth 0x10 k) = s.portSid p))
/-- A boundary between packets at a port: what waits is injected. -/
def State.portBoundary (s : State) (p : Nat) : State := (s.waitingFor p).foldl (fun t j => t.injectOne p j) s

/-! ### Calendar entries at a frame start (R119, R120, R125) -/

/-- Entries whose target is earlier than the frame that starts are freed (R120). -/
def State.expire (s : State) (p frame : Nat) : State :=
  (s.armed p).foldl (fun t i =>
    if earlier32 (t.calEntry p i).target frame then (t.freeCalEntry p i).incFld (calA p) CAL_CNT_EXPIRED 1 else t) s

/-- ENTRY_MATCH: the entry that takes effect is freed and names the frame; duplicates are freed (R120, R125). -/
def State.entryMatch (s : State) (p frame : Nat) : State × Option CalEntry :=
  match s.matching p frame with
  | [] => (s, none)
  | i :: dups =>
    let e := s.calEntry p i
    let s1 := dups.foldl (fun t j => (t.freeCalEntry p j).incFld (calA p) CAL_CNT_DUPS 1) s
    (((s1.freeCalEntry p i).setFld (calA p) CAL_INFORCE_CAL_ID (e.calId i)).setFld (calA p) CAL_INFORCE_F_FRAME frame, some e)
/-- EXP_OFFSET of the entry that takes effect is loaded at the Solstice (R125). -/
def State.loadExp (s : State) (p : Nat) (e : Option CalEntry) : State :=
  match e with
  | some x => if x.expEn then s.loadForce (calA p + CAL_EXPOFS) x.exp else s
  | none => s

/-! ### The exposure midpoint (R126) -/

/-- The midpoint of the frame that starts, in ns; before time 0 it is 0. -/
def State.midNs (s : State) (p : Nat) : Nat :=
  (((s.camp p).fvNs.getD 0 : Int) + toSigned 32 (s.inForce (calA p) CAL_EXPOFS_EXP_OFFSET)).toNat
/-- The midpoint is shown, and goes to the axes of the port. -/
def State.formMidpoint (s : State) (p : Nat) : State :=
  let c := s.camp p
  let n := s.midNs p
  let s1 := (s.setFld (calA p) CAL_MID_NS_MID_NS (n % 1000000000)).setCal p { s.cal p with mid := n }
  s1.midpoint p ⟨n, s.portSid p, c.frame, c.calId, c.flags &&& fMISSED != 0⟩

/-! ### Lock events (R204) -/

/-- D in ns, and whether it was clamped at 0. -/
def State.lockDelay (s : State) (h p : Nat) : Nat × Bool :=
  match s.direct h with
  | none => (0, false)
  | some l =>
    let v := match (List.range 4).find? (fun n => s.flag fabA (C0_STREAM_EN.nth 4 n) && s.fld fabA (C0_STREAM_STREAM_ID.nth 4 n) = l.sid) with
      | some n => s.fld fabA (C0_STREAM_V.nth 4 n)
      | none => 0
    let d : Int := (3000 * s.fld (headA h) HEAD_GFV_G_NS + 3 * ((l.srcY + v + 1) * s.fld (campA p) CAMP_TLINE_TLINE_PS) + 1536 * 2000 : Nat)
      - (l.dstY * (s.head h).tOut * 2000 : Nat)
    (d.toNat / 3000, decide (d < 0))

/-- A running locked head observes the frame start of its port: a new event replaces the target. -/
def State.lockEvent (s : State) (p : Nat) : State :=
  (List.range 4).foldl (fun t h =>
    if t.headRuns h && t.inForceFlag (headA h) HEAD_CTRL_LOCK_EN && t.inForce (headA h) HEAD_CTRL_LOCK_PORT = p then
      let (d, clamp) := t.lockDelay h p
      let t1 := if clamp then t.setFlag (headA h) HEAD_STATUS_D_CLAMP true else t
      let c := t.camp p
      t1.setHead h { t.head h with gFrom := some t.nowNs, early := false
                                   target := some { ns := t.nowNs + d, frame := c.frame, calId := c.calId, clamp := clamp } }
    else t) s

/-! ### Frame start -/

/-- T_frame, from one FV rising edge to the next, both since EN rose (R111). -/
def State.measureFrame (s : State) (p : Nat) : State :=
  match (s.camp p).fvNs with
  | none => s
  | some t =>
    if (s.camp p).first then s
    else (s.setFld (campA p) CAMP_TFRAME_TFRAME_NS (sat 32 (s.nowNs - t))).setFlag (calA p) CAL_STATUS_NO_TFRAME false

/-- The frame opens: it is stamped and numbered, and the port's flags follow (R99, R103, R104, R110, R112). -/
def State.openCamFrame (s : State) (p frame : Nat) : State :=
  let b := campA p
  let c := s.camp p
  let s1 := s.setCamp p { c with fv := true, inFrame := true, first := false, frame := frame, flags := 0, fvNs := some s.nowNs
                                 fvTick := s.tick, fvFallNs := none, lineOpen := false, lineDrop := false, lines := 0
                                 overflow := false, long := false, last4 := [], lineOk := false, lateNext := false
                                 deadlines := 0 }
  let s2 := (s.gangOf p).foldl (fun t q =>
    t.setCamp q { t.camp q with training := { (t.camp q).training with moved := 0 } }) s1
  (((s2.setFlag b CAMP_STATUS_IN_FRAME true).setFlag b CAMP_STATUS_CK_LOST false).setFlag b CAMP_STATUS_NO_SIGNAL false).setFld b
    CAMP_FRAME_FRAME_NEXT ((frame + 1) % 2 ^ 32)

/-- What the calendar does at the frame start: misses and expiries, the entry that takes effect, MISSED (R119, R120, R125). -/
def State.calFrame (s : State) (p frame : Nat) : State × Option CalEntry :=
  let (s1, e) := if s.calRuns p then ((s.expire p frame).entryMatch p frame) else (s, none)
  let k := s1.cal p
  let missed := k.missed.contains frame
  let c := s1.camp p
  let s2 := s1.setCamp p { c with flags := if missed then fMISSED else 0, calId := s1.fld (calA p) CAL_INFORCE_CAL_ID }
  (s2.setCal p { k with missed := k.missed.filter (fun f => f ≠ frame && !earlier32 f frame) }, e)

/-- The parameter set of the entry that takes effect, ahead of the frame-start packet (R124). -/
def State.paramInject (s : State) (p : Nat) (e : Option CalEntry) : State :=
  match e with
  | none => s
  | some x => if x.pset < 64 then s.pushControl p none (s.psetEntries p x.pset) else s

/-- FV rises (R99, R105, R110 to R112, R120 to R126, R204): the freeze, where its point has not been reached; what the calendar
decides; the injected packets; the Solstice; and the frame-start packet. -/
def State.frameStart (s : State) (p : Nat) : State :=
  let late := (s.camp p).lateNext
  let next := s.nextCamFrame p
  let s0 := if s.flag (calA p) CAL_STATUS_NO_TFRAME then s else s.freezeStream p
  let s1 := if s.calRuns p then s0.lateEntries p next else s0
  let s2 := (s1.measureFrame p).openCamFrame p next
  let (s3, e) := s2.calFrame p next
  let s4 := (s3.portBoundary p).paramInject p e
  let s5 := ((s4.sizeCommit p).solstice (calA p)).loadExp p e
  let s6 := s5.pushPkt p ⟨s5.campHdr p 0 (if late then fLATE else 0) s5.time32, .frameStart⟩
  (s6.formMidpoint p).lockEvent p

/-- CAMERA_FRAME_START: FV rises at an enabled port or at the leader of an enabled gang. -/
def execCameraFrameStart (p : Fin 12) (s : State) : Out3 :=
  onLive s fun s => if s.campOn p && !(s.camp p).inFrame then s.frameStart p else s
/-- CAMERA_FRAME_END: FV falls; `parts`: what the line still open has received (R99, R101). -/
def execCameraFrameEnd (p : Fin 12) (parts : List LinePart) (s : State) : Out3 :=
  onLive s fun s => if s.campOn p then (s.frameEnd p parts).portBoundary p else s
/-- CAMERA_LINE_END: LV falls, and the line is judged (R93, R99 to R101). -/
def execCameraLineEnd (p : Fin 12) (parts : List LinePart) (s : State) : Out3 :=
  onLive s fun s => if s.campOn p then (s.lineEnd p parts).portBoundary p else s

/-- CAMERA_STAMP_READ: a read of CAMP_FVTS_NS answers and latches CAMP_FVTS_SEC (R110). -/
def execCameraStampRead (_r : Req) (p : Fin 12) (s : State) : Out3 :=
  onLive s fun s =>
    match campRead p CAMP_FVTS_NS s with
    | some (v, t) => t.answerWith v
    | none => s
/-- CAL_MIDPOINT_READ: a read of CAL_MID_NS answers; CAL_MID_SEC holds the seconds of the same midpoint (R126). -/
def execCalMidpointRead (_r : Req) (p : Fin 12) (s : State) : Out3 :=
  onLive s fun s =>
    match calRead p CAL_MID_NS s with
    | some (v, t) => t.answerWith v
    | none => s

/-! ### Triggers (R116 to R118) -/

/-- The writes of an entry go to the controller, or miss at once. -/
def State.trigger (s : State) (p i : Nat) : State :=
  let e := s.calEntry p i
  let c := s.fld (calA p) CAL_CTRL_TWC
  let dl := s.calDeadlineNs p
  let items := s.calItems p i dl
  if s.flag (calA p) CAL_STATUS_NO_TFRAME || decide (dl ≤ s.nowNs) || items.any (fun x => x.alen ≠ 1 && x.alen ≠ 2) then s.calMiss p i
  else
    let s1 := s.setCalEntry p i { e with state := 2, acked := 0 }
    let k := s1.cal p
    ((s1.setCal p { k with waiting := k.waiting ++ items }).refill c).twcKick c

/-- CAL_TRIGGER: TRIG_LINES x T_line after FV of frame F - K - 1 has fallen (R117). -/
def execCalTrigger (p : Fin 12) (entry : Fin 256) (s : State) : Out3 :=
  onLive s fun s =>
    let e := s.calEntry p entry
    let c := s.camp p
    if s.calRuns p && e.state = 1 && decide (0 < e.wlCount) && s.trigDue p && s.trigFrame p e = c.frame then s.trigger p entry
    else s

end Sys2Proof.Machine
end

