-- ==== Sys2Proof/Machine/Hevc.lean ====
section
/-! DEFINITION. H.265 bit strings: fields and Exp-Golomb codes written and read, NAL units, emulation prevention. Their form
is that of ITU-T H.265, which R234 and R264 name (notes/assumptions/83.md). -/
namespace Sys2Proof.Machine

/-! ### Writing -/

/-- A number of n bits, most significant first. -/
def bitsBE : Nat → Nat → List Bool
  | 0, _ => []
  | n + 1, v => v.testBit n :: bitsBE n v
/-- u(n). -/
def putU (n v : Nat) : List Bool := bitsBE n v
/-- The number of bits of v + 1, less one. -/
def ueLen (v : Nat) : Nat := Nat.log2 (v + 1)
/-- ue(v): as many zeros as follow the first one, then v + 1. -/
def putUe (v : Nat) : List Bool := bitsBE (2 * ueLen v + 1) (v + 1)
/-- se(v). -/
def putSe (i : Int) : List Bool := putUe (if i > 0 then 2 * i.toNat - 1 else 2 * i.natAbs)
/-- A flag. -/
def putF (b : Bool) : List Bool := [b]

/-- The number of bits, most significant first. -/
def natOfBits (l : List Bool) : Nat := l.foldl (fun n b => 2 * n + b2n b) 0
/-- Bytes from bits; the last one is filled with zeros. -/
def packMsb (l : List Bool) : List Byte :=
  (List.range (divCeil l.length 8)).map (fun i =>
    let b := (l.drop (8 * i)).take 8
    BitVec.ofNat 8 (natOfBits b * 2 ^ (8 - b.length)))
/-- The bits of bytes. -/
def unpackMsb (b : List Byte) : List Bool := b.flatMap (fun x => bitsBE 8 x.toNat)
/-- rbsp_trailing_bits or byte_alignment: a one, then zeros. -/
def withStop (l : List Bool) : List Byte := packMsb (l ++ [true])

/-- Emulation prevention: a 0x03 before a byte of 0 to 3 that follows two zeros (R249). -/
def escape : Nat → List Byte → List Byte
  | _, [] => []
  | z, b :: t =>
    if 2 ≤ z ∧ b.toNat ≤ 3 then 3 :: b :: escape (if b.toNat = 0 then 1 else 0) t
    else b :: escape (if b.toNat = 0 then z + 1 else 0) t
/-- Emulation prevention bytes taken out. -/
def unescape : Nat → List Byte → List Byte
  | _, [] => []
  | z, b :: t => if 2 ≤ z ∧ b.toNat = 3 then unescape 0 t else b :: unescape (if b.toNat = 0 then z + 1 else 0) t

/-- The two bytes in front of a NAL unit. -/
def nalHead (type tid : Nat) : List Byte := packMsb (putU 1 0 ++ putU 6 type ++ putU 6 0 ++ putU 3 (tid + 1))
/-- A NAL unit with its start code (R261). -/
def nalUnit (b : List Byte) : List Byte := [0, 0, 0, 1] ++ b
/-- A NAL unit of a parameter set or header whose bits these are. -/
def rbspNal (type : Nat) (l : List Bool) : List Byte := nalUnit (nalHead type 0 ++ escape 0 (withStop l))
/-- A prefix SEI NAL unit of one message. -/
def seiNal (type : Nat) (payload : List Byte) : List Byte :=
  let size := List.replicate (payload.length / 255) (255 : Byte) ++ toBytes 1 (payload.length % 255)
  nalUnit (nalHead 39 0 ++ escape 0 (toBytes 1 type ++ size ++ payload ++ [0x80]))
/-- An SEI payload from bits: where it ends within a byte, a one and zeros fill it. -/
def seiBits (l : List Bool) : List Byte := if l.length % 8 = 0 then packMsb l else withStop l

/-! ### Reading -/

/-- A reader of bits; none is an error of the stream (R273). -/
abbrev Rd := StateT (List Bool) Option

/-- u(n). -/
def rdU (n : Nat) : Rd Nat := fun l =>
  let h := l.take n
  if h.length < n then none else some (natOfBits h, l.drop n)
/-- A flag. -/
def rdF : Rd Bool := do return (← rdU 1) == 1
/-- Zeros before a one, at most n. -/
def zerosUpTo : Nat → List Bool → Option (Nat × List Bool)
  | 0, _ => none
  | _, [] => none
  | _ + 1, true :: t => some (0, t)
  | n + 1, false :: t => (zerosUpTo n t).map (fun p => (p.1 + 1, p.2))
/-- ue(v). -/
def rdUe : Rd Nat := do
  let k ← (fun l => zerosUpTo 32 l : Rd Nat)
  return 2 ^ k - 1 + (← rdU k)
/-- se(v). -/
def rdSe : Rd Int := do
  let k ← rdUe
  return if k % 2 = 1 then ((k + 1) / 2 : Nat) else -((k / 2 : Nat) : Int)
/-- A value must be in its range. -/
def must (p : Bool) : Rd Unit := fun l => if p then some ((), l) else none
/-- n times. -/
def times {α : Type} (n : Nat) (r : Rd α) : Rd (List α) :=
  match n with
  | 0 => return []
  | n + 1 => do
    let a ← r
    return a :: (← times n r)
/-- Present or not. -/
def whenF {α : Type} (b : Bool) (d : α) (r : Rd α) : Rd α := if b then r else return d
/-- Nothing is left but the stop bit and zeros. -/
def rdStop : Rd Unit := do
  must (← rdF)
  let rest ← (fun l => some (l, []) : Rd (List Bool))
  must (rest.all (fun b => !b))

/-- Bits that number n values. -/
def clog2 (n : Nat) : Nat := if n ≤ 1 then 0 else Nat.log2 (n - 1) + 1

/-! ### Tiles -/

/-- Sizes with uniform spacing: n CTBs in count parts. -/
def uniform (n count : Nat) : List Nat := (List.range count).map (fun i => (i + 1) * n / count - i * n / count)
/-- Where each part begins, and its size. -/
def spans : Nat → List Nat → List (Nat × Nat)
  | _, [] => []
  | o, n :: t => (o, n) :: spans (o + n) t
/-- The CTBs of each tile, in raster order of tiles and within them, by their raster addresses in a picture of w CTBs a row. -/
def tilesOf (w : Nat) (colW rowH : List Nat) : List (List Nat) :=
  (spans 0 rowH).flatMap (fun r => (spans 0 colW).map (fun c =>
    (List.range r.2).flatMap (fun j => (List.range c.2).map (fun i => (r.1 + j) * w + c.1 + i))))

/-! ### Byte streams (Annex B) -/

/-- A NAL unit as it lies in a byte stream: where its start code begins, and its bytes; whether a read of them was poisoned. -/
structure Nal where
  start : Nat
  bytes : List Byte
  poisoned : Bool
  deriving DecidableEq, Repr

/-- The scan: `i` the next byte's place, `z` the zeros just before it, the NAL unit under way with its bytes reversed. A byte whose
read was poisoned is none, and reads zero (R275). -/
def scanNals (i z : Nat) (cur : Option Nal) : List (Option Byte) → List Nal
  | [] => match cur with
    | some n => [{ n with bytes := (n.bytes.dropWhile (fun b => b.toNat = 0)).reverse }]
    | none => []
  | o :: t =>
    let b := o.getD 0
    if 2 ≤ z ∧ b.toNat = 1 then
      (match cur with
        | some n => [{ n with bytes := (n.bytes.dropWhile (fun b => b.toNat = 0)).reverse }]
        | none => []) ++ scanNals (i + 1) 0 (some ⟨if 3 ≤ z then i - 3 else i - 2, [], false⟩) t
    else
      scanNals (i + 1) (if b.toNat = 0 then z + 1 else 0)
        (cur.map (fun n => { n with bytes := b :: n.bytes, poisoned := n.poisoned || o.isNone })) t

/-- nal_unit_type, nuh_layer_id and TemporalId. -/
def Nal.type (n : Nal) : Nat := ((n.bytes[0]?).getD 0).toNat / 2 % 64
def Nal.layer (n : Nal) : Nat := ((n.bytes[0]?).getD 0).toNat % 2 * 32 + ((n.bytes[1]?).getD 0).toNat / 8
def Nal.tid (n : Nal) : Nat := ((n.bytes[1]?).getD 0).toNat % 8 - 1
/-- A slice segment. -/
def Nal.isVcl (n : Nal) : Bool := n.layer = 0 && (decide (n.type < 10) || (decide (16 ≤ n.type) && decide (n.type < 22)))
/-- The bits after the NAL unit's two bytes. -/
def Nal.rbsp (n : Nal) : List Bool := unpackMsb (unescape 0 (n.bytes.drop 2))
/-- A slice segment that is the first of its picture. -/
def Nal.isFirst (n : Nal) : Bool := n.isVcl && decide (128 ≤ ((n.bytes[2]?).getD 0).toNat)
/-- Once a picture's slices have come, this NAL unit begins the next access unit. -/
def Nal.opensAu (n : Nal) : Bool :=
  n.layer = 0 && (n.isFirst || (decide (32 ≤ n.type) && decide (n.type ≤ 35)) || n.type = 39 ||
    (decide (41 ≤ n.type) && decide (n.type ≤ 44)) || (decide (48 ≤ n.type) && decide (n.type ≤ 55)))

/-- The NAL units of the first access unit, and where the next one begins. -/
def firstAu : Bool → List Nal → List Nal × Option Nat
  | _, [] => ([], none)
  | seen, n :: t =>
    if seen && n.opensAu then ([], some n.start)
    else
      let r := firstAu (seen || n.isVcl) t
      (n :: r.1, r.2)

end Sys2Proof.Machine
end

