-- ==== Sys2Proof/Machine/CtxBytes.lean ====
section
/-! DEFINITION. The bytes of a context block, and what encoding makes of them: tiles, cores, references (R237 to R249). -/
namespace Sys2Proof.Machine

/-! ### Context bytes (Tables 10-2 and 11-1) -/

/-- Luma area of whole CTUs, and CTUs. -/
def ctuW (w : Nat) : Nat := divCeil w 64
def ctuCount (p : List Byte) : Nat := ctuW (at' p 36 2) * ctuW (at' p 38 2)
/-- Cores of a mask, ascending. -/
def maskCores (m : Nat) : List Nat := (List.range 8).filter (fun v => m.testBit v)
def splitOf (p : List Byte) : Nat := at' p 6 1 % 4
def gopOf (p : List Byte) : Nat := at' p 3 1 % 4
def groupLog (p : List Byte) : Nat := at' p 3 1 / 4 % 4
def refsOf (p : List Byte) : Nat := at' p 3 1 / 16 % 8
def tileCols (p : List Byte) : Nat := at' p 6 1 / 4 % 8 + 1
def tileRows (p : List Byte) : Nat := at' p 6 1 / 32 % 4 + 1

/-- The coded size: the crop padded to a multiple of 8 (R235). -/
def pad8 (n : Nat) : Nat := (n + 7) / 8 * 8
def codedW (p : List Byte) : Nat := pad8 (at' p 36 2)
def codedH (p : List Byte) : Nat := pad8 (at' p 38 2)
/-- 4:2:2 chroma, and bits of a sample (Table 10-1). -/
def chroma422 (p : List Byte) : Bool := at' p 0 1 = 4
def codedDepth (p : List Byte) : Nat := if at' p 0 1 = 1 then 8 else 10
/-- log2 of the scale of a proxy (MFE_SCALE). -/
def scaleLog (p : List Byte) : Nat := at' p 43 1 % 4

/-- D of R241: pictures that the work area holds. -/
def picStore (p : List Byte) : Nat := match gopOf p with | 0 => 1 | 1 => refsOf p + 1 | _ => refsOf p + 2 ^ groupLog p

/-- An option bit (byte 79). -/
def optOn (p : List Byte) (i : Nat) : Bool := (at' p 79 1).testBit i

/-! ### Tiles, wavefront and cores (R248, R249) -/

/-- CTUs in a row, and rows of them. -/
def ctuCols (p : List Byte) : Nat := ctuW (at' p 36 2)
def ctuRows (p : List Byte) : Nat := ctuW (at' p 38 2)
/-- The picture's slices by the raster addresses of their CTUs: a slice for each tile with SPLIT = 1, else one (R248, R249). -/
def slicesOf (p : List Byte) : List (List Nat) :=
  if splitOf p = 1 then tilesOf (ctuCols p) (uniform (ctuCols p) (tileCols p)) (uniform (ctuRows p) (tileRows p))
  else [List.range (ctuCount p)]
/-- What the j-th of m cores codes, in its order, as places in the picture's coding order: tile k goes to core k mod m, CTU row r
with wavefront to core r mod m. -/
def shareOf (p : List Byte) (m j : Nat) : List Nat :=
  if splitOf p = 1 then
    ((spans 0 ((slicesOf p).map (·.length))).zip (List.range (slicesOf p).length)).flatMap (fun e =>
      if e.2 % m = j then (List.range e.1.2).map (· + e.1.1) else [])
  else if splitOf p = 2 then (List.range (ctuCount p)).filter (fun i => i / max 1 (ctuCols p) % m = j)
  else if j = 0 then List.range (ctuCount p) else []

/-! ### References (R246, R252) -/

/-- A POC into a list, nearest to the picture first, earlier ones first at the same distance. -/
def byDistance (poc : Int) : Int → List Int → List Int
  | r, [] => [r]
  | r, q :: t =>
    if (r - poc).natAbs < (q - poc).natAbs ∨ ((r - poc).natAbs = (q - poc).natAbs ∧ r < q) then r :: q :: t
    else q :: byDistance poc r t
/-- The pictures that a picture refers to: the REFS nearest earlier ones for P, the REFS nearest of the group for B. -/
def activeRefs (p : List Byte) (type : Nat) (poc : Int) (kept : List Int) : List Int :=
  if type = 1 then ((kept.filter (fun r => decide (r < poc))).foldl (fun l r => byDistance poc r l) []).take (refsOf p)
  else if type = 2 then (kept.foldl (fun l r => byDistance poc r l) []).take (refsOf p)
  else []

end Sys2Proof.Machine
end

