-- ==== Sys2Proof/Machine/CodecStat.lean ====
section
/-! DEFINITION. Where a codec context's status block lies and how the codec reads and writes it (R239, R266), and the context bits
of VCC0. -/
namespace Sys2Proof.Machine

def State.ctxAddr (s : State) (c : Nat) : Nat := s.fld (vccA 0) VCC_CTXBASE_ADDR * 256 + 512 * c
/-- The core that masters the fabric for a context: the first of its mask. -/
def State.ctxReq (s : State) (c : Nat) : Req :=
  .codec (Fin.ofNat 8 (((List.range 8).find? (fun v =>
    (at' (s.ctx c).p (if (s.ctx c).dec then 10 else 7) 1).testBit v)).getD 0))
/-- A number in the status block. -/
def State.ctxStat (s : State) (c o n : Nat) : Nat := leNat (s.peek (s.ctxReq c) (s.ctxAddr c + o) n)
def State.setStat (s : State) (c o n v : Nat) : State := s.put (s.ctxReq c) (s.ctxAddr c + o) (toBytes n v)
/-- A status counter goes up by n. -/
def State.incStat (s : State) (c o n : Nat) : State := s.setStat c o 4 (s.ctxStat c o 4 + n)

/-! ### Bits of VCC0's context registers -/

def lohi (lo hi : Fld) (c : Nat) : Fld := if c < 32 then lo else hi
def State.ctxBit (s : State) (lo hi : Fld) (c : Nat) (b : Bool) : State := s.setBit (vccA 0) (lohi lo hi c) (c % 32) b

/-- Bytes whose format and place the spec does not state go into the context's work area: saved state, reference pictures (R239,
R247, notes/assumptions/80.md). -/
def State.workSave (s : State) (c i : Nat) : State :=
  let x := s.ctx c
  let room := at' x.p (if x.dec then 112 else 160) 4 * 4096
  let o := Config.workPlace i % max 1 room
  (s.put (s.ctxReq c) (at' x.p (if x.dec then 104 else 152) 8 + o) ((Config.workBytes s.free).take (room - o))).usedFree

end Sys2Proof.Machine
end

