-- ==== Sys2Proof/Machine/HevcSets.lean ====
section
/-! DEFINITION. H.265 parameter sets and slice segment headers as a decoder reads them (R264, R268, R273, R274;
notes/assumptions/83.md). A value outside the range that H.265 allows ends the reader with none. -/
namespace Sys2Proof.Machine

/-! ### Parts of parameter sets -/

/-- general_profile_idc, its eight constraint flags of the range extensions, and general_level_idc. -/
def rdPtl (maxSub : Nat) : Rd (Nat × Nat × Nat) := do
  let _space ← rdU 2
  let _tier ← rdU 1
  let idc ← rdU 5
  let _compat ← rdU 32
  let _source ← rdU 4
  let constraint ← rdU 8
  let _rest ← rdU 36
  let level ← rdU 8
  let sub ← times maxSub (do return (← rdF, ← rdF))
  let _pad ← rdU (if maxSub = 0 then 0 else 2 * (8 - maxSub))
  for e in sub do
    let _p ← rdU (if e.1 then 88 else 0)
    let _l ← rdU (if e.2 then 8 else 0)
  return (idc, constraint, level)

/-- scaling_list_data: only its extent matters here. -/
def rdScaling : Rd Unit := do
  for size in List.range 4 do
    for _ in List.range (if size = 3 then 2 else 6) do
      if ← rdF then
        let _dc ← whenF (size > 1) 0 rdSe
        let _c ← times (min 64 (2 ^ (4 + 2 * size))) rdSe
      else
        let _delta ← rdUe

/-- st_ref_pic_set number idx of num; `prev` are those before it. -/
def rdRps (idx num : Nat) (prev : List Rps) : Rd Rps := do
  if ← whenF (idx ≠ 0) false rdF then
    let back ← whenF (idx = num) 0 rdUe
    let sign ← rdU 1
    let mag ← rdUe
    must (decide (back + 1 ≤ idx) && decide (mag < 32768))
    let r := (prev[idx - (back + 1)]?).getD ⟨[], []⟩
    let delta : Int := if sign = 1 then -((mag + 1 : Nat) : Int) else (mag + 1 : Nat)
    let n := r.neg.length + r.pos.length
    let flag : Rd (Bool × Bool) := do
      let used ← rdF
      let use ← whenF (!used) true rdF
      return (used, use)
    let flags ← times (n + 1) flag
    let steps : List Int := (r.neg ++ r.pos).map (·.1) ++ [0]
    let es := (steps.zip flags).map (fun e => (e.1 + delta, e.2))
    let a := es.take r.neg.length
    let b := (es.drop r.neg.length).take r.pos.length
    let c := es.drop n
    let pick (p : Int → Bool) (l : List (Int × Bool × Bool)) : List (Int × Bool) :=
      (l.filter (fun e => p e.1 && e.2.2)).map (fun e => (e.1, e.2.1))
    return ⟨pick (fun i => decide (i < 0)) (b.reverse ++ c ++ a), pick (fun i => decide (i > 0)) (a.reverse ++ c ++ b)⟩
  else
    let n ← rdUe
    let m ← rdUe
    must (decide (n + m ≤ 16))
    let half (k : Nat) : Rd (List (Nat × Bool)) := times k (do return (← rdUe, ← rdF))
    let s0 ← half n
    let s1 ← half m
    let sums (l : List (Nat × Bool)) : List (Int × Bool) :=
      (l.foldl (fun (acc : List (Int × Bool) × Int) e =>
        let d := acc.2 + (e.1 + 1 : Nat)
        (acc.1 ++ [(d, e.2)], d)) ([], 0)).1
    return ⟨(sums s0).map (fun e => (-e.1, e.2)), sums s1⟩

/-- The parameter sets of a number, one after the other. -/
def rdRpsAll (num : Nat) : Nat → List Rps → Rd (List Rps)
  | 0, acc => return acc
  | n + 1, acc => do
    let r ← rdRps acc.length num acc
    rdRpsAll num n (acc ++ [r])

/-- hrd_parameters with the common information. -/
def rdHrd (maxSub : Nat) : Rd Unit := do
  let nal ← rdF
  let vcl ← rdF
  let sub ← whenF (nal || vcl) false rdF
  let _s ← rdU (if sub then 19 else 0)
  let _scale ← rdU (if nal || vcl then 8 else 0)
  let _sub ← rdU (if sub then 4 else 0)
  let _len ← rdU (if nal || vcl then 15 else 0)
  for _ in List.range (maxSub + 1) do
    let general ← rdF
    let within ← whenF (!general) true rdF
    let _elem ← whenF within 0 rdUe
    let low ← whenF (!within) false rdF
    let cpb ← whenF (!low) 0 rdUe
    must (decide (cpb ≤ 31))
    for _ in List.range (b2n nal + b2n vcl) do
      let _c ← times (cpb + 1) (do
        let _a ← rdUe
        let _b ← rdUe
        let _c ← whenF sub 0 rdUe
        let _d ← whenF sub 0 rdUe
        rdF)

/-- The VUI: matrix_coeffs, transfer_characteristics, full range. -/
def rdVui (maxSub : Nat) : Rd (Nat × Nat × Bool) := do
  if ← rdF then
    let idc ← rdU 8
    let _sar ← rdU (if idc = 255 then 32 else 0)
  let ovr ← rdF
  let _o ← rdU (b2n ovr)
  let signal ← rdF
  let _format ← rdU (if signal then 3 else 0)
  let full ← whenF signal false rdF
  let desc ← whenF signal false rdF
  let _prim ← rdU (if desc then 8 else 0)
  let transfer ← whenF desc 2 (rdU 8)
  let matrix ← whenF desc 2 (rdU 8)
  let chroma ← rdF
  let _c ← times (if chroma then 2 else 0) rdUe
  let _flags ← rdU 3
  let window ← rdF
  let _w ← times (if window then 4 else 0) rdUe
  if ← rdF then
    let _t ← rdU 64
    let poc ← rdF
    let _n ← whenF poc 0 rdUe
    if ← rdF then
      rdHrd maxSub
  if ← rdF then
    let _r ← rdU 3
    let _n ← times 5 rdUe
  return (matrix, transfer, full)

/-! ### Parameter sets -/

/-- A VPS: its number, and its layers less one. -/
def rdVps : Rd (Nat × Nat) := do
  let id ← rdU 4
  let _base ← rdU 2
  let layers ← rdU 6
  return (id, layers)

/-- A profile of R264: Main, Main 10, and Main 4:2:2 10 among the range extensions. -/
def profileOk (idc constraint chroma depthY depthC : Nat) : Bool :=
  if idc = 1 then chroma = 1 && depthY = 8 && depthC = 8
  else if idc = 2 then chroma = 1 && decide (depthY ≤ 10) && decide (depthC ≤ 10)
  else idc = 4 && constraint = 0xD0 && decide (1 ≤ chroma) && decide (chroma ≤ 2) && decide (depthY ≤ 10) && decide (depthC ≤ 10)

/-- An SPS; `layers` answers a VPS's layers less one. -/
def rdSps (layers : Nat → Option Nat) : Rd Sps := do
  let vps ← rdU 4
  let maxSub ← rdU 3
  must (decide (maxSub ≤ 6))
  let _nest ← rdU 1
  let (idc, constraint, level) ← rdPtl maxSub
  let id ← rdUe
  let chroma ← rdUe
  must (decide (id ≤ 15) && decide (chroma ≤ 3))
  let _sep ← whenF (chroma = 3) false rdF
  let w ← rdUe
  let h ← rdUe
  let cropped ← rdF
  let win ← times (if cropped then 4 else 0) rdUe
  let dY ← rdUe
  let dC ← rdUe
  let lsb ← rdUe
  must (decide (dY ≤ 8) && decide (dC ≤ 8) && decide (lsb ≤ 12) && decide (0 < w) && decide (0 < h))
  let every ← rdF
  let ord ← times (if every then maxSub + 1 else 1) (do return (← rdUe, ← rdUe, ← rdUe))
  let top := (ord.getLast?).getD (0, 0, 0)
  must (decide (top.1 ≤ 15) && decide (top.2.1 ≤ top.1))
  let minCb ← rdUe
  let diffCb ← rdUe
  let minTb ← rdUe
  let diffTb ← rdUe
  let _inter ← rdUe
  let _intra ← rdUe
  let ctb := minCb + 3 + diffCb
  must (decide (4 ≤ ctb) && decide (ctb ≤ 6) && decide (minTb + 2 < minCb + 3) && decide (minTb + 2 + diffTb ≤ min ctb 5) &&
    decide (w % 2 ^ (minCb + 3) = 0) && decide (h % 2 ^ (minCb + 3) = 0))
  if ← rdF then
    if ← rdF then
      rdScaling
  let _amp ← rdU 1
  let sao ← rdF
  if ← rdF then
    let _depth ← rdU 8
    let _size ← times 2 rdUe
    let _filter ← rdU 1
  let num ← rdUe
  must (decide (num ≤ 64))
  let rps ← rdRpsAll num num []
  let long ← rdF
  let nLt ← whenF long 0 rdUe
  must (decide (nLt ≤ 32))
  let lt ← times nLt (do return (← rdU (lsb + 4), ← rdF))
  let tmvp ← rdF
  let _strong ← rdU 1
  let hasVui ← rdF
  let vui ← whenF hasVui none (do return some (← rdVui maxSub))
  let ext ← rdF
  let exts ← rdU (if ext then 8 else 0)
  let range ← rdU (if exts ≥ 128 then 9 else 0)
  if exts % 128 = 0 then
    rdStop
  let sub := if chroma = 1 then [2, 2, 2, 2] else [2, 2, 1, 1]
  return { id := id, vps := vps, chroma := chroma, w := w, h := h
           fits := profileOk idc constraint chroma (dY + 8) (dC + 8) && decide (level ≤ 186) && range = 0 && exts % 128 = 0 &&
             decide (8 ≤ w) && decide (w ≤ 16384) && decide (8 ≤ h) && decide (h ≤ 16384) && decide (w * h ≤ 35651584) &&
             layers vps == some 0
           win := if cropped then (win.zip sub).map (fun e => e.1 * e.2) else [0, 0, 0, 0]
           depthY := dY + 8, depthC := dC + 8, lsbBits := lsb + 4, maxDec := top.1 + 1, reorder := top.2.1, latency := top.2.2
           ctbLog := ctb, sao := sao, rps := rps, long := long, ltSps := lt, tmvp := tmvp, vui := vui }

/-- A PPS. -/
def rdPps : Rd Pps := do
  let id ← rdUe
  let sps ← rdUe
  must (decide (id ≤ 63) && decide (sps ≤ 15))
  let dependent ← rdF
  let outFlag ← rdF
  let extra ← rdU 3
  let _sign ← rdU 1
  let cabacInit ← rdF
  let l0 ← rdUe
  let l1 ← rdUe
  must (decide (l0 ≤ 14) && decide (l1 ≤ 14))
  let _qp ← rdSe
  let _intra ← rdU 1
  let skip ← rdF
  let cuQp ← rdF
  let _depth ← whenF cuQp 0 rdUe
  let _cb ← rdSe
  let _cr ← rdSe
  let sliceChroma ← rdF
  let weighted ← rdF
  let bipred ← rdF
  let _bypass ← rdU 1
  let tiles ← rdF
  let sync ← rdF
  let cols ← whenF tiles 0 rdUe
  let rows ← whenF tiles 0 rdUe
  must (decide (cols < 20) && decide (rows < 22))
  let uniform ← whenF tiles true rdF
  let colW ← times (if uniform then 0 else cols) (do return (← rdUe) + 1)
  let rowH ← times (if uniform then 0 else rows) (do return (← rdUe) + 1)
  let _across ← rdU (b2n tiles)
  let loopSlices ← rdF
  let control ← rdF
  let override ← whenF control false rdF
  let noDeblock ← whenF control false rdF
  let _offs ← times (if control && !noDeblock then 2 else 0) rdSe
  if ← rdF then
    rdScaling
  let listsMod ← rdF
  let _merge ← rdUe
  let sliceExt ← rdF
  let ext ← rdF
  let exts ← rdU (if ext then 8 else 0)
  let mut cuChroma := false
  if exts ≥ 128 then
    let _skip ← whenF skip 0 rdUe
    let _cross ← rdU 1
    cuChroma ← rdF
    if cuChroma then
      let _d ← rdUe
      let n ← rdUe
      must (decide (n ≤ 5))
      let _l ← times (2 * (n + 1)) rdSe
    let _sao ← times 2 rdUe
  if exts % 128 = 0 then
    rdStop
  return { id := id, sps := sps, dependent := dependent, outFlag := outFlag, extra := extra, cabacInit := cabacInit, l0 := l0 + 1
           l1 := l1 + 1, sliceChroma := sliceChroma, weighted := weighted, bipred := bipred, tiles := tiles, sync := sync
           cols := cols + 1, rows := rows + 1, colW := colW, rowH := rowH, loopSlices := loopSlices, override := override
           noDeblock := noDeblock, listsMod := listsMod, sliceExt := sliceExt, cuChromaQp := cuChroma }

/-! ### Slice segment headers -/

/-- CTBs in a row, and rows of them. -/
def Sps.ctbW (q : Sps) : Nat := divCeil q.w (2 ^ q.ctbLog)
def Sps.ctbH (q : Sps) : Nat := divCeil q.h (2 ^ q.ctbLog)
def Sps.ctus (q : Sps) : Nat := q.ctbW * q.ctbH

/-- The start of a slice segment header: first_slice_segment_in_pic_flag, no_output_of_prior_pics_flag, the PPS's number. -/
def rdSliceStart (nut : Nat) : Rd (Bool × Bool × Nat) := do
  let first ← rdF
  let noOut ← whenF (decide (16 ≤ nut) && decide (nut ≤ 23)) false rdF
  let pps ← rdUe
  must (decide (pps ≤ 63))
  return (first, noOut, pps)

/-- The long-term references of a slice: POC bits or the whole difference, as the slice and the SPS give them. -/
def rdLong (q : Sps) : Rd (List (Nat × Option Nat × Bool)) := do
  let nSps ← whenF (q.ltSps ≠ []) 0 rdUe
  let nPics ← rdUe
  must (decide (nSps + nPics ≤ 32))
  let a ← times nSps (do
    let k ← rdU (clog2 q.ltSps.length)
    let e := (q.ltSps[k]?).getD (0, false)
    let msb ← rdF
    let d ← whenF msb 0 rdUe
    return (e.1, (if msb then some d else none), e.2))
  let b ← times nPics (do
    let v ← rdU q.lsbBits
    let used ← rdF
    let msb ← rdF
    let d ← whenF msb 0 rdUe
    return (v, (if msb then some d else none), used))
  let sums (l : List (Nat × Option Nat × Bool)) : List (Nat × Option Nat × Bool) :=
    (l.foldl (fun (acc : List (Nat × Option Nat × Bool) × Nat) e =>
      let d := acc.2 + e.2.1.getD 0
      (acc.1 ++ [(e.1, e.2.1.map (fun _ => d), e.2.2)], d)) ([], 0)).1
  return sums a ++ sums b

/-- pred_weight_table: only its extent matters here. -/
def rdWeights (l0 l1 : Nat) : Rd Unit := do
  let luma ← rdUe
  let _chroma ← rdSe
  must (decide (luma ≤ 7))
  for n in (if l1 = 0 then [l0] else [l0, l1]) do
    let y ← times n rdF
    let c ← times n rdF
    for e in y.zip c do
      let _y ← times (if e.1 then 2 else 0) rdSe
      let _c ← times (if e.2 then 4 else 0) rdSe

/-- The rest of a slice segment header; `prev` is the independent one before it in the picture. -/
def rdSlice (q : Sps) (p : Pps) (nut : Nat) (first noOut : Bool) (prev : Option SliceHdr) : Rd SliceHdr := do
  let dependent ← whenF (!first && p.dependent) false rdF
  let addr ← whenF (!first) 0 (rdU (clog2 q.ctus))
  must (decide (addr < q.ctus) && (first || decide (0 < addr)))
  let finish : Rd Unit := do
    if p.tiles || p.sync then
      let n ← rdUe
      must (decide (n ≤ 440 * 32))
      let len ← whenF (n ≠ 0) 0 rdUe
      must (decide (len ≤ 31))
      let _e ← times n (rdU (len + 1))
    if p.sliceExt then
      let n ← rdUe
      must (decide (n ≤ 256))
      let _x ← rdU (8 * n)
    must (← rdF)
  if dependent then
    match prev with
    | none => fun _ => none
    | some h =>
      finish
      return { h with first := first, noOut := noOut, dependent := true, addr := addr }
  else
    let _extra ← rdU p.extra
    let type ← rdUe
    must (decide (type ≤ 2) && (type = 2 || !(decide (16 ≤ nut) && decide (nut ≤ 23))))
    let out ← whenF p.outFlag true rdF
    let idr := decide (nut = 19 ∨ nut = 20)
    let lsb ← rdU (if idr then 0 else q.lsbBits)
    let ready ← whenF (!idr) true rdF
    let st ← (if idr then return ⟨[], []⟩
      else if ready then do
        let k ← rdU (clog2 q.rps.length)
        must (decide (k < q.rps.length))
        return (q.rps[k]?).getD ⟨[], []⟩
      else rdRps q.rps.length q.rps.length q.rps)
    let raw ← whenF (!idr && q.long) [] (rdLong q)
    let lt : List (Int × Bool × Bool) := raw.map (fun e =>
      match e.2.1 with
      | some d => ((d * 2 ^ q.lsbBits + lsb : Nat) - (e.1 : Int), true, e.2.2)
      | none => ((e.1 : Nat), false, e.2.2))
    let tmvp ← whenF (!idr && q.tmvp) false rdF
    let saoY ← whenF q.sao false rdF
    let saoC ← whenF q.sao false rdF
    let total := ((st.neg ++ st.pos).filter (·.2)).length + (lt.filter (fun e => e.2.2)).length
    let override ← whenF (type ≠ 2) false rdF
    let n0 ← whenF override p.l0 (do return (← rdUe) + 1)
    let n1 ← whenF (override && type = 0) p.l1 (do return (← rdUe) + 1)
    must (decide (n0 ≤ 15) && decide (n1 ≤ 15) && (type = 2 || decide (0 < total)))
    let modify := p.listsMod && decide (total > 1) && type ≠ 2
    let mod0 ← whenF modify false rdF
    let e0 ← times (if mod0 then n0 else 0) (rdU (clog2 total))
    let mod1 ← whenF (modify && type = 0) false rdF
    let _e1 ← times (if mod1 then n1 else 0) (rdU (clog2 total))
    let _mvd ← rdU (if type = 0 then 1 else 0)
    let _init ← rdU (if type ≠ 2 ∧ p.cabacInit then 1 else 0)
    let from0 ← whenF (tmvp && type = 0) true rdF
    let _col ← whenF (tmvp && type ≠ 2 && ((from0 && decide (n0 > 1)) || (!from0 && decide (n1 > 1)))) 0 rdUe
    if (p.weighted && type = 1) || (p.bipred && type = 0) then
      rdWeights n0 (if type = 0 then n1 else 0)
    let merge ← whenF (type ≠ 2) 0 rdUe
    must (decide (merge ≤ 4))
    let _qp ← rdSe
    let _chroma ← times (if p.sliceChroma then 2 else 0) rdSe
    let _cu ← rdU (if p.cuChromaQp then 1 else 0)
    let ovr ← whenF p.override false rdF
    let off ← whenF ovr p.noDeblock rdF
    let _o ← times (if ovr && !off then 2 else 0) rdSe
    let _loop ← rdU (if p.loopSlices && (saoY || saoC || !off) then 1 else 0)
    finish
    return { first := first, noOut := noOut, dependent := false, addr := addr, type := type, out := out, lsb := lsb, st := st, lt := lt
             entry0 := (e0[0]?).getD 0 }

end Sys2Proof.Machine
end

