-- ==== Sys2Proof/Machine/VideoOut.lean ====
section
/-! DEFINITION. Decoded pictures: concealment (R272, R274, R275) and conversion to a surface (R269). -/
namespace Sys2Proof.Machine

/-- Width and height of the chroma planes. -/
def DecodedPic.cw (d : DecodedPic) : Nat := (d.width + 1) / 2
def DecodedPic.ch (d : DecodedPic) : Nat := if d.chroma = 2 then d.height else (d.height + 1) / 2
/-- Mid-grey of luma and chroma (R272). -/
def DecodedPic.greyY (d : DecodedPic) : Nat := 2 ^ (d.depthY - 1)
def DecodedPic.greyC (d : DecodedPic) : Nat := 2 ^ (d.depthC - 1)
/-- The CTU of a luma position. -/
def DecodedPic.ctuAt (d : DecodedPic) (x y : Nat) : Nat :=
  y / (max 1 d.ctb) * divCeil d.width (max 1 d.ctb) + x / (max 1 d.ctb)
/-- What an output picture shows: the conformance window. -/
def DecodedPic.outW (d : DecodedPic) : Nat := d.width - (d.win.getD 0 0 + d.win.getD 1 0)
def DecodedPic.outH (d : DecodedPic) : Nat := d.height - (d.win.getD 2 0 + d.win.getD 3 0)

/-- Where the samples of a CTU come from: the decoded data; mid-grey; a copy of another picture. -/
inductive CtuSrc where
  | data
  | grey
  | copy (o : DecodedPic)
  deriving DecidableEq, Repr

/-- A plane after concealment: sx and sy are luma samples per sample; `old` a picture's plane and its width and height. A sample
copied from beyond another picture's edge is open: `beyond` (notes/assumptions/84.md). -/
def DecodedPic.fixPlane (d : DecodedPic) (sx sy w h grey beyond : Nat) (v : List Nat) (src : Nat → CtuSrc)
    (old : DecodedPic → List Nat × Nat × Nat) : List Nat :=
  (List.range (w * h)).map (fun i =>
    match src (d.ctuAt (i % w * sx) (i / w * sy)) with
    | .data => (v[i]?).getD 0
    | .grey => grey
    | .copy o =>
      let (l, ow, oh) := old o
      if i % w < ow ∧ i / w < oh then (l[i / w * ow + i % w]?).getD grey else beyond % (2 * grey))

/-- The picture with its concealed CTUs filled (R272, R275). -/
def DecodedPic.concealed (d : DecodedPic) (src : Nat → CtuSrc) (beyond : Nat) : DecodedPic :=
  let sy := if d.chroma = 2 then 1 else 2
  { d with y := d.fixPlane 1 1 d.width d.height d.greyY beyond d.y src (fun o => (o.y, o.width, o.height))
           cb := d.fixPlane 2 sy d.cw d.ch d.greyC beyond d.cb src (fun o => (o.cb, o.cw, o.ch))
           cr := d.fixPlane 2 sy d.cw d.ch d.greyC beyond d.cr src (fun o => (o.cr, o.cw, o.ch)) }
/-- A generated mid-grey picture (R274). -/
def DecodedPic.generated (d : DecodedPic) (poc : Int) : DecodedPic :=
  { d with y := List.replicate (d.width * d.height) d.greyY, cb := List.replicate (d.cw * d.ch) d.greyC
           cr := List.replicate (d.cw * d.ch) d.greyC, poc := poc }

/-- A chroma sample at full resolution in binary32 (R269 step 1). -/
def DecodedPic.chromaAt (d : DecodedPic) (c : List Nat) (x y : Nat) : Nat :=
  let at1 (i j : Int) : Nat :=
    c.getD ((clampInt 0 ((d.ch : Int) - 1) j).toNat * d.cw + (clampInt 0 ((d.cw : Int) - 1) i).toNat) 0
  let row (i : Int) : Nat :=
    if d.chroma = 2 then fInt (at1 i y : Nat)
    else
      let j : Int := (y / 2 : Nat)
      fDiv (fAdd (fMul (fInt 3) (fInt (at1 i j : Nat))) (fInt (at1 i (if y % 2 = 0 then j - 1 else j + 1) : Nat))) (fInt 4)
  let i : Int := (x / 2 : Nat)
  if x % 2 = 0 then row i else fDiv (fAdd (row i) (row (i + 1))) (fInt 2)

/-- ST 2084 EOTF with L = 1 at 10,000 cd/m², and the inverse BT.2100 HLG OETF. -/
def eotfPq (e : Nat) : Nat :=
  let p := fPow e 32 2523
  let n := fMax 0 (fSub p (fRatio 3424 4096))
  fPow (fDiv n (fSub (fRatio 2413 128) (fMul (fRatio 2392 128) p))) 16384 2610
def eotfHlg (e : Nat) : Nat :=
  if fLe e (fRatio 1 2) then fDiv (fMul e e) (fInt 3)
  else
    let z := fDiv (fSub e (fRatio 55991073 100000000)) (fRatio 17883277 100000000)
    fDiv (fAdd (r155 (trExp ((fv z).floorScaled trB))) (fRatio 28466892 100000000)) (fInt 12)

/-- Transfer, matrix and range that a context's CONVERT byte and the VUI give (R269): TF 1 SDR, 2 PQ, 3 HLG; MATRIX 1 BT.709, 2
BT.2020; RANGE 1 narrow, 2 full. -/
def convertOf (b : Nat) (vui : Option (Nat × Nat × Bool)) : Nat × Nat × Nat :=
  let (m, t, full) := vui.getD (1, 1, false)
  (if b % 4 ≠ 0 then b % 4 else if t = 16 then 2 else if t = 18 then 3 else 1,
   if b / 4 % 4 ≠ 0 then b / 4 % 4 else if m = 9 then 2 else 1,
   if b / 16 % 4 ≠ 0 then b / 16 % 4 else if full then 2 else 1)

/-- A pixel of the surface, four binary16 values (R269 steps 2 to 5). -/
def DecodedPic.surfPx (d : DecodedPic) (conv : Nat × Nat × Nat) (m : List Nat) (scale x y : Nat) : List Nat :=
  let (tf, mat, range) := conv
  let up (depth v : Nat) : Nat := fMul v (fInt (2 ^ (10 - depth) : Nat))
  let x := x + d.win.getD 0 0
  let y := y + d.win.getD 2 0
  let yy := up d.depthY (fInt ((d.y[y * d.width + x]?).getD 0 : Nat))
  let cb := up d.depthC (d.chromaAt d.cb x y)
  let cr := up d.depthC (d.chromaAt d.cr x y)
  let full := decide (range = 2)
  let l := if full then fDiv yy (fInt 1023) else fDiv (fSub yy (fInt 64)) (fInt 876)
  let ch (v : Nat) : Nat := fDiv (fSub v (fInt 512)) (if full then fInt 1023 else fInt 896)
  let (kr, kb) := lumaK (if mat = 1 then 0 else 1)
  let r := fAdd l (fMul (fSub (fInt 2) (fMul (fInt 2) kr)) (ch cr))
  let b := fAdd l (fMul (fSub (fInt 2) (fMul (fInt 2) kb)) (ch cb))
  let g := fDiv (fSub (fSub l (fMul kr r)) (fMul kb b)) (fSub (fSub fOne kr) kb)
  let lin (v : Nat) : Nat :=
    let e := fClamp 0 fOne v
    if tf = 2 then eotfPq e else if tf = 3 then eotfHlg e else fPow e 24 10
  let li := [lin r, lin g, lin b]
  ((List.range 3).map (fun k => pfToHalf (toPF (fMul scale (fDot ((m.drop (3 * k)).take 3) li))))) ++ [0x3C00]

/-- A row of the surface in FORMAT 0 (Table 8-4). -/
def DecodedPic.surfRow (d : DecodedPic) (conv : Nat × Nat × Nat) (m : List Nat) (scale y : Nat) : List Byte :=
  (List.range d.outW).flatMap (fun x => (d.surfPx conv m scale x y).flatMap (toBytes 2))

end Sys2Proof.Machine
end

