-- ==== Sys2Proof/Machine/DecOps.lean ====
section
/-! DEFINITION. Decoding: the access unit that comes next (R264, R268, R273, R274), the decoded picture buffer, output (R270,
R271), concealment (R272 to R275). -/
namespace Sys2Proof.Machine

/-! ### The next access unit -/

/-- The bytes of the input ring from the context's place up to WR_PTR, none where a read is answered with poison (R268, R275). -/
def State.inBytes (s : State) (c w : Nat) : List (Option Byte) × State :=
  let x := s.ctx c
  let size := max 1 (at' x.p 24 4)
  (List.range (w - x.pos)).foldl (fun (acc : List (Option Byte) × State) i =>
    let r := acc.2.busRead (s.ctxReq c) (at' x.p 16 8 + (x.pos + i) % size) 1
    (acc.1 ++ [r.1.bind (·[0]?)], r.2)) ([], s)

/-- A parameter set takes the place of the one with its number. -/
def putSet {α : Type} (num : α → Nat) (a : α) (l : List α) : List α := a :: l.filter (fun b => num b ≠ num a)
/-- A parameter set NAL unit: one without fault is in force from then on, a faulty one is ignored (R273). -/
def VCtx.readSet (x : VCtx) (n : Nal) : VCtx :=
  if n.layer ≠ 0 || n.poisoned then x
  else
    match n.type with
    | 32 => match rdVps.run n.rbsp with | some (v, _) => { x with vpss := putSet (·.1) v x.vpss } | none => x
    | 33 =>
      match (rdSps (fun k => (x.vpss.find? (fun v => v.1 = k)).map (·.2))).run n.rbsp with
      | some (q, _) => { x with spss := putSet (·.id) q x.spss }
      | none => x
    | 34 => match rdPps.run n.rbsp with | some (q, _) => { x with ppss := putSet (·.id) q x.ppss } | none => x
    | _ => x

/-- A sequence that a context can decode: within R264 and within what the context holds (R266, Table 11-3). -/
def Sps.fitsCtx (q : Sps) (p : List Byte) : Bool :=
  q.fits && decide (q.w ≤ at' p 4 2) && decide (q.h ≤ at' p 6 2) && decide (q.chroma ≤ at' p 2 1) && decide (q.maxDec ≤ at' p 1 1)

/-- The sets that a slice segment names; none: absent or unsupported. -/
def VCtx.setsOf (x : VCtx) (pps : Nat) : Option (Sps × Pps) :=
  (x.ppss.find? (fun q => q.id = pps)).bind (fun q => ((x.spss.find? (fun r => r.id = q.sps)).filter (·.fitsCtx x.p)).map (·, q))

/-- The slice segments of an access unit: each one's header, none if it is in error (R273). -/
def VCtx.readSegs (x : VCtx) (prev : Option SliceHdr) : List Nal → List Seg
  | [] => []
  | n :: t =>
    if !n.isVcl then x.readSegs prev t
    else
      let h : Option SliceHdr :=
        match (rdSliceStart n.type).run n.rbsp with
        | some ((first, noOut, k), rest) =>
          match x.setsOf k with
          | some (q, p) => ((rdSlice q p n.type first noOut prev).run rest).map (·.1)
          | none => none
        | none => none
      ⟨h, n.poisoned⟩ :: x.readSegs (match h with | some g => if g.dependent then prev else some g | none => prev) t

/-- What is to be done with an access unit: nothing in it to decode, dropped with a code, or a picture. -/
inductive AuKind where
  | empty
  | drop (code : Nat)
  | pic (i : DecInfo)
  deriving DecidableEq, Repr

/-- PicOrderCntVal of a picture whose low bits are given (H.265 8.3.1). -/
def pocOf (bits lsb : Nat) (prev : Int) : Int :=
  let m : Int := (2 ^ bits : Nat)
  let pl := prev % m
  let pm := prev - pl
  if (lsb : Int) < pl ∧ pl - lsb ≥ m / 2 then pm + m + lsb
  else if (lsb : Int) > pl ∧ (lsb : Int) - pl > m / 2 then pm - m + lsb
  else pm + lsb

/-- The context once it has read the parameter sets of an access unit, and what becomes of the unit. An access unit whose slice
segment headers are all in error names no picture: it is dropped with code 1 (notes/assumptions/84.md). -/
def VCtx.readAu (x : VCtx) (off len : Nat) (ns : List Nal) : VCtx × AuKind :=
  let y := ns.foldl (fun y n => y.readSet n) x
  match ns.filter (·.isVcl) with
  | [] => (y, .empty)
  | n :: _ =>
    let nut := n.type
    let irap := decide (16 ≤ nut) && decide (nut ≤ 23)
    let fresh := irap && (decide (nut ≤ 20) || x.waitIrap || x.afterEos)
    if x.waitIrap && !irap then (y, .drop 7)
    else if (nut = 8 ∨ nut = 9) && x.noRasl then (y, .drop 7)
    else
      let segs := y.readSegs none ns
      let names := (ns.filter (·.isVcl)).filterMap (fun m => ((rdSliceStart m.type).run m.rbsp).map (·.1.2.2))
      if names.any (fun k => (y.setsOf k).isNone) then (y, .drop 6)
      else
        match names.head?.bind y.setsOf, segs.findSome? (·.hdr) with
        | some (q, p), some h =>
          let poc := if nut = 19 ∨ nut = 20 then 0 else if fresh then (h.lsb : Int) else pocOf q.lsbBits h.lsb x.prevPoc
          (y, .pic { off := off, len := len, sps := q, pps := p, nut := nut, tid := n.tid, poc := poc, noRasl := fresh, segs := segs })
        | _, _ => (y, .drop 1)

/-- CTBs in tile order, tile after tile. -/
def DecInfo.tiles (i : DecInfo) : List (List Nat) :=
  let w := i.sps.ctbW
  let h := i.sps.ctbH
  let rest (n : Nat) (l : List Nat) : List Nat := l ++ [n - l.sum]
  tilesOf w (if i.pps.colW = [] then uniform w i.pps.cols else rest w i.pps.colW)
    (if i.pps.rowH = [] then uniform h i.pps.rows else rest h i.pps.rowH)
/-- A picture that several cores decode (R265). -/
def DecInfo.parallel (i : DecInfo) : Bool := i.pps.sync || decide (i.tiles.length > 1)
/-- Of the picture's cores, the one that decodes a CTU: by its tile, or with wavefront by its row (R265). -/
def DecInfo.coreOf (i : DecInfo) (cores : List Nat) (ctu : Nat) : Nat :=
  let k := if decide (i.tiles.length > 1) then (i.tiles.findIdx? (·.contains ctu)).getD 0
    else if i.pps.sync then ctu / max 1 i.sps.ctbW else 0
  (cores[k % max 1 cores.length]?).getD (cores.headD 0)

/-! ### References (R274) -/

/-- A reference of a picture: POC, or its low bits only; and whether it is a long-term one. -/
structure RefSel where
  poc : Int
  whole : Bool
  long : Bool
  cur : Bool
  deriving DecidableEq, Repr

/-- The references that a slice's reference picture set names, in the order of the initial list 0: before, after, long-term. -/
def refsOfHdr (poc : Int) (h : SliceHdr) : List RefSel :=
  (h.st.neg ++ h.st.pos).map (fun e => ⟨poc + e.1, true, false, e.2⟩) ++
    h.lt.map (fun e => ⟨if e.2.1 then poc - e.1 else e.1, e.2.1, true, e.2.2⟩)
/-- A picture of the DPB is the one that a reference names. -/
def RefSel.names (r : RefSel) (bits : Nat) (e : DpbPic) : Bool :=
  e.ref && (if r.whole then e.pic.poc == r.poc else e.pic.poc % (2 ^ bits : Nat) == r.poc)

/-- The first picture of a slice's RefPicList0. -/
def firstRef (bits : Nat) (poc : Int) (dpb : List DpbPic) (h : SliceHdr) : Option DecodedPic :=
  let l := (refsOfHdr poc h).filter (·.cur)
  if h.type = 2 then none else (l[h.entry0]?).bind (fun r => (dpb.find? (r.names bits)).map (·.pic))

/-! ### The decoded picture buffer (R264, R270; notes/assumptions/83.md) -/

/-- The waiting picture that comes first in output order leaves for the surface ring. -/
def VCtx.bump (x : VCtx) : VCtx :=
  let first := x.dpb.foldl (fun (b : Option DpbPic) e =>
    if !e.waiting then b else match b with | some f => if e.pic.poc < f.pic.poc then some e else b | none => some e) none
  match first with
  | none => x
  | some f =>
    { x with dpb := (x.dpb.map (fun e => if e.pic.poc = f.pic.poc then { e with waiting := false } else e)).filter (fun e =>
               e.waiting || e.ref)
             outQ := x.outQ ++ [⟨x.nextK, f, false⟩], nextK := x.nextK + 1 }
/-- Output while something holds, at most n times. -/
def VCtx.bumpWhile (x : VCtx) (p : VCtx → Bool) : Nat → VCtx
  | 0 => x
  | n + 1 => if p x then x.bump.bumpWhile p n else x
/-- Every waiting picture is output. -/
def VCtx.flush (x : VCtx) : VCtx := x.bumpWhile (fun y => y.dpb.any (·.waiting)) (x.dpb.length + 1)
/-- Too many pictures wait, or one waits too long. -/
def tooMany (q : Sps) (x : VCtx) : Bool :=
  let w := x.dpb.filter (·.waiting)
  decide (w.length > q.reorder) || (decide (0 < q.latency) && w.any (fun e => decide (e.latency ≥ q.reorder + q.latency - 1)))

/-- What the access units of these pictures were is complete. -/
def VCtx.auDone (x : VCtx) (off : Nat) : VCtx := { x with aus := x.aus.map (fun e => if e.1 = off then (e.1, e.2.1, true) else e) }

/-- The DPB before a picture: an IRAP with NoRaslOutputFlag empties it, with or without output; else the pictures that the reference
picture set does not name go as soon as they are output, and room is made (H.265 C.5.2.2). Its access units left without output are
the second part. -/
def VCtx.makeRoom (x : VCtx) (i : DecInfo) (h : SliceHdr) : VCtx × Nat :=
  if i.noRasl then
    if i.nut = 21 ∨ h.noOut then
      let lost := x.dpb.filter (·.waiting)
      (lost.foldl (fun y e => y.auDone e.off) { x with dpb := [] }, lost.length)
    else ({ x.flush with dpb := [] }, 0)
  else
    let rs := refsOfHdr i.poc h
    let kept := (x.dpb.map (fun e =>
      { e with ref := rs.any (·.names i.sps.lsbBits e), long := rs.any (fun r => r.long && r.names i.sps.lsbBits e) })).filter
        (fun e => e.ref || e.waiting)
    ({ x with dpb := kept }.bumpWhile (fun y => tooMany i.sps y ||
      (decide (y.dpb.length ≥ i.sps.maxDec) && y.dpb.any (·.waiting))) (kept.length + 1), 0)
/-- A picture enters the DPB, and further pictures are output (H.265 C.5.2.3). -/
def VCtx.enter (x : VCtx) (q : Sps) (e : DpbPic) : VCtx :=
  let old := x.dpb.map (fun d => if d.waiting && e.waiting then { d with latency := d.latency + 1 } else d)
  { x with dpb := old ++ [e] }.bumpWhile (tooMany q) (old.length + 1)

/-! ### The input ring -/

/-- RD_PTR moves past every access unit whose pictures are complete (R271). -/
def dropDone : Nat → List (Nat × Nat × Bool) → Nat × List (Nat × Nat × Bool)
  | rd, [] => (rd, [])
  | rd, e :: t => if e.2.2 then dropDone e.2.1 t else (rd, e :: t)
def State.moveRd (s : State) (c : Nat) : State :=
  let x := s.ctx c
  let (rd, l) := dropDone x.rd x.aus
  (s.setCtx c { x with rd := rd, aus := l }).setStat c 264 8 rd

/-! ### The surface ring (R269, R270) -/

/-- Where a row of an output picture lies, and its bytes; a row that would leave the surface ring is not written (R275). -/
def State.decRow (s : State) (c : Nat) (o : OutPic) (y : Nat) : Option (Nat × List Byte) :=
  let p := (s.ctx c).p
  let a := at' p 32 8 + o.k % 2 ^ at' p 12 1 * at' p 40 4 + 256 + y * at' p 44 4
  let b := o.d.pic.surfRow (convertOf (at' p 15 1) o.d.pic.vui) ((List.range 9).map (fun i => at' p (48 + 4 * i) 4)) (at' p 84 4) y
  if a + b.length ≤ at' p 32 8 + 2 ^ at' p 12 1 * at' p 40 4 then some (a, b) else none
/-- The bodies of output pictures are written when their buffers are free: picture k once k - N + 2 has been published. -/
def State.decBody (s : State) (c : Nat) (o : OutPic) : State :=
  (List.range o.d.pic.outH).foldl (fun t y => match s.decRow c o y with | some r => t.put (s.ctxReq c) r.1 r.2 | none => t) s
def State.decPump (s : State) (c : Nat) : State :=
  let x := s.ctx c
  let can (o : OutPic) : Bool := !o.ready && decide (o.k + 3 ≤ 2 ^ at' x.p 12 1 + x.published)
  let s1 := (x.outQ.filter can).foldl (fun t o => t.decBody c o) s
  s1.setCtx c { s1.ctx c with outQ := x.outQ.map (fun o => if can o then { o with ready := true } else o) }

/-! ### Concealment (R272, R273, R275) -/

/-- A byte range that the core may read or write (R275). -/
def ctxMayUse (p : List Byte) (ctxAddr a : Nat) : Bool :=
  let inR (base size : Nat) : Bool := decide (base ≤ a) && decide (a < base + size)
  inR (at' p 16 8) (at' p 24 4) || inR (at' p 104 8) (at' p 112 4 * 4096) || inR (at' p 32 8) (2 ^ at' p 12 1 * at' p 40 4) ||
    inR (at' p 88 8) (64 * 2 ^ at' p 96 1) || inR (ctxAddr + 264) 248

/-- A fault found while a picture is decoded: its code, its CTU, the address of an access out of bounds. -/
structure DecFault where
  code : Nat
  ctu : Nat
  addr : Option Nat
  deriving DecidableEq, Repr

/-- How a slice segment went: the CTUs decoded and those to conceal with it, and its fault. `order` are the CTUs in tile order, `ends`
where the next segments begin in that order. A segment whose input was poisoned and whose hardware names no point is in error from
its first CTU on. -/
def segResult (order : List Nat) (may : Nat → Bool) (g : Seg) (r : SegRun) (stop : Nat) : List Nat × List Nat × Option DecFault :=
  match g.hdr with
  | none => ([], [], some ⟨if g.poisoned then 5 else 1, 0, none⟩)
  | some h =>
    let at0 := (order.findIdx? (· = h.addr)).getD 0
    let own := (order.drop at0).take (stop - at0)
    let fault := match r.fault with
      | some .damage => some (if g.poisoned then SegFault.poison else .damage)
      | some (.bound a) => if may a then none else some (.bound a)
      | f => f
    let (n, f) := if g.poisoned && fault.isNone then (0, some SegFault.poison) else (r.count, fault)
    let ctu := (own[n]?).getD h.addr
    match f with
    | none => (own.take n, [], none)
    | some .damage => (own.take n, own.drop n, some ⟨1, ctu, none⟩)
    | some .poison => (own.take n, own.drop n, some ⟨5, ctu, none⟩)
    | some (.bound a) => (own.take n, own.drop n, some ⟨3, ctu, some a⟩)

/-- Where the segment after one begins in tile order: the first later segment whose header is whole, else the picture's end. -/
def segStop (order : List Nat) : List Seg → Nat
  | [] => order.length
  | g :: t => match g.hdr with | some h => (order.findIdx? (· = h.addr)).getD order.length | none => segStop order t

/-- Every slice segment of a picture in turn: CTUs decoded; CTUs concealed, each with its slice header; faults. -/
def segResults (order : List Nat) (may : Nat → Bool) : List Seg → List SegRun → List Nat × List (Nat × SliceHdr) × List DecFault
  | [], _ => ([], [], [])
  | g :: t, rs =>
    let r := segResult order may g ((rs.head?).getD ⟨0, none⟩) (segStop order t)
    let u := segResults order may t rs.tail
    (r.1 ++ u.1, (match g.hdr with | some h => r.2.1.map (·, h) | none => []) ++ u.2.1, r.2.2.toList ++ u.2.2)

end Sys2Proof.Machine
end

