-- ==== Sys2Proof/Machine/EncHdr.lean ====
section
/-! DEFINITION. The headers that the codec firmware writes: parameter sets, SEI messages, slice headers (R234, R236, R246, R248,
R249, R254 to R257). A field that the spec leaves open is a value of the firmware: Config.codecHeader, of the release `fw` and the
field's number here (notes/assumptions/79.md). -/
namespace Sys2Proof.Machine

/-- An open field below n. -/
def openHdr (fw i n : Nat) : Nat := Config.codecHeader fw i % n

/-! ### Parameter sets -/

/-- Temporal sub-layers less one: the levels of a B group. -/
def subLayers (p : List Byte) : Nat := if gopOf p = 2 then groupLog p else 0
/-- profile_tier_level: the profile, tier and level of the context (R234, Table 10-1). -/
def ptlBits (fw : Nat) (p : List Byte) : List Bool :=
  let idc := at' p 0 1
  putU 2 0 ++ putU 1 (at' p 2 1) ++ putU 5 idc ++
    putU 32 (if idc = 1 then 2 ^ 30 + 2 ^ 29 else if idc = 2 then 2 ^ 29 else 2 ^ 27) ++ putU 4 (openHdr fw 27 16) ++
    putU 8 (if idc = 4 then 0xD0 else 0) ++ putU 36 (if idc = 4 then 2 ^ 35 else 0) ++ putU 8 (at' p 1 1) ++
    putU (2 * subLayers p) 0 ++ putU (if subLayers p = 0 then 0 else 2 * (8 - subLayers p)) 0
/-- Pictures of the DPB, pictures that go before one in coding and after it in output, no latency limit. -/
def dpbBits (p : List Byte) : List Bool :=
  putUe (picStore p - 1) ++ putUe (if gopOf p = 2 then groupLog p else 0) ++ putUe 0
/-- temporal_id_nesting_flag. -/
def nestBits (fw : Nat) (p : List Byte) : List Bool := putU 1 (if subLayers p = 0 then 1 else openHdr fw 28 2)
/-- The VPS. -/
def vpsBits (fw : Nat) (p : List Byte) : List Bool :=
  putU 4 0 ++ putU 2 3 ++ putU 6 0 ++ putU 3 (subLayers p) ++ nestBits fw p ++ putU 16 0xFFFF ++ ptlBits fw p ++ putF false ++
    dpbBits p ++ putU 6 0 ++ putUe 0 ++ putF false ++ putF false

/-- Widths of the HRD's delays: the initial one, the removal delay, the output delay. -/
def delayLens (fw : Nat) : List Nat := [openHdr fw 17 32 + 1, openHdr fw 18 32 + 1, openHdr fw 19 32 + 1]
/-- A rate or size in units of 2^k, at least one unit; the rounding of one that is no multiple is the firmware's. -/
def hrdUnits (fw k v : Nat) : Nat := max 1 (v / 2 ^ k + (if v % 2 ^ k = 0 then 0 else openHdr fw 29 2))
/-- The peak rate that the HRD states: RATE for CBR, MAX_RATE for capped VBR; for constant QP the spec states none. -/
def hrdRate (fw : Nat) (p : List Byte) : Nat :=
  match at' p 44 1 with | 0 => at' p 52 4 | 1 => at' p 56 4 | _ => Config.codecHeader fw 30 % 2 ^ 32
/-- hrd_parameters: one CPB, cbr_flag 1 for CBR (R255). -/
def hrdBits (fw : Nat) (p : List Byte) : List Bool :=
  let br := openHdr fw 15 16
  let cs := openHdr fw 16 16
  let fixed := openHdr fw 23 2
  let within := if fixed = 1 then 1 else openHdr fw 31 2
  putU 1 1 ++ putU 1 0 ++ putU 1 0 ++ putU 4 br ++ putU 4 cs ++ (delayLens fw).flatMap (fun l => putU 5 (l - 1)) ++
    (List.range (subLayers p + 1)).flatMap (fun _ =>
      putU 1 fixed ++ (if fixed = 1 then [] else putU 1 within) ++ (if within = 1 then putUe (openHdr fw 32 2048) else putU 1 0) ++
        putUe 0 ++ putUe (hrdUnits fw (6 + br) (hrdRate fw p) - 1) ++ putUe (hrdUnits fw (4 + cs) (at' p 60 4) - 1) ++
        putF (at' p 44 1 = 0))
/-- The VUI: COLOUR, the range, chroma_sample_loc 0, the timing, the HRD (R255). -/
def vuiBits (fw : Nat) (p : List Byte) : List Bool :=
  putF false ++ putF false ++ putF true ++ putU 3 (openHdr fw 4 6) ++ putF (optOn p 0) ++ putF true ++ putU 8 (at' p 76 1) ++
    putU 8 (at' p 77 1) ++ putU 8 (at' p 78 1) ++ putF true ++ putUe 0 ++ putUe 0 ++ putU 3 0 ++ putF false ++ putF true ++
    putU 32 (at' p 68 4) ++ putU 32 (at' p 72 4) ++ putF false ++ putF (optOn p 1) ++ (if optOn p 1 then hrdBits fw p else []) ++
    putF false
/-- The SPS: the tools of R236, the conformance window of R235, log2_max_pic_order_cnt_lsb 16 (R246). -/
def spsBits (fw : Nat) (p : List Byte) : List Bool :=
  let d := codedDepth p - 8
  let sy := if chroma422 p then 1 else 2
  putU 4 0 ++ putU 3 (subLayers p) ++ nestBits fw p ++ ptlBits fw p ++ putUe 0 ++ putUe (if chroma422 p then 2 else 1) ++
    putUe (codedW p) ++ putUe (codedH p) ++ putF true ++ putUe 0 ++ putUe ((codedW p - at' p 36 2) / 2) ++ putUe 0 ++
    putUe ((codedH p - at' p 38 2) / sy) ++ putUe d ++ putUe d ++ putUe 12 ++ putF false ++ dpbBits p ++
    putUe 0 ++ putUe 3 ++ putUe 0 ++ putUe 3 ++ putUe (openHdr fw 1 5) ++ putUe (openHdr fw 2 5) ++
    putF false ++ putF false ++ putF (optOn p 7) ++ putF false ++ putUe 0 ++ putF false ++ putF true ++ putU 1 (openHdr fw 3 2) ++
    putF true ++ vuiBits fw p ++ putF false
/-- init_qp. -/
def initQp (fw : Nat) : Int := openHdr fw 5 52
/-- The PPS: sign data hiding, transform skip, no weighted prediction, no lossless coding, tiles or wavefront with filtering across
their edges, deblocking on (R236, R248, R249). -/
def ppsBits (fw : Nat) (p : List Byte) : List Bool :=
  putUe 0 ++ putUe 0 ++ putF false ++ putF false ++ putU 3 0 ++ putF true ++ putU 1 (openHdr fw 7 2) ++ putUe (openHdr fw 24 15) ++
    putUe (openHdr fw 25 15) ++ putSe (initQp fw - 26) ++ putU 1 (openHdr fw 6 2) ++ putF true ++ putF true ++
    putUe (openHdr fw 22 4) ++ putSe ((openHdr fw 8 25 : Nat) - (12 : Int)) ++ putSe ((openHdr fw 9 25 : Nat) - (12 : Int)) ++
    putF false ++ putF false ++ putF false ++ putF false ++ putF (splitOf p = 1) ++ putF (splitOf p = 2) ++
    (if splitOf p = 1 then putUe (tileCols p - 1) ++ putUe (tileRows p - 1) ++ putF true ++ putF true else []) ++
    putF true ++ putF false ++ putF false ++ putF false ++ putUe (openHdr fw 10 5) ++ putF false ++ putF false
/-- VPS, SPS and PPS with their start codes (R254). -/
def paramSets (fw : Nat) (p : List Byte) : List Byte :=
  rbspNal 32 (vpsBits fw p) ++ rbspNal 33 (spsBits fw p) ++ rbspNal 34 (ppsBits fw p)

/-! ### SEI messages -/

/-- Buffering period: the delays are the firmware's. -/
def bufferingSei (fw : Nat) (d : List Nat) : List Byte :=
  let l := delayLens fw
  let v (i : Nat) : Nat := (d[i]?).getD 0
  seiBits (putUe 0 ++ putF false ++ putU 1 (v 0) ++ putU (l.getD 1 1) (v 1) ++ putU (l.getD 0 1) (v 2) ++ putU (l.getD 0 1) (v 3))
/-- Picture timing. -/
def timingSei (fw : Nat) (d : List Nat) : List Byte :=
  let l := delayLens fw
  seiBits (putU (l.getD 1 1) ((d[4]?).getD 0) ++ putU (l.getD 2 1) ((d[5]?).getD 0))

/-- The time code of a frame: hours, minutes, seconds, frames (R256). -/
def timeCode (p : List Byte) (frame : Nat) : Nat × Nat × Nat × Nat :=
  let r := max 1 (at' p 116 1)
  let base := ((at' p 108 1 * 60 + at' p 109 1) * 60 + at' p 110 1) * r + at' p 111 1
  let day : Int := 86400 * r
  let n := (((base : Int) + toSigned 32 (frame + 2 ^ 32 - at' p 112 4)) % day).toNat
  (n / r / 3600, n / r / 60 % 60, n / r % 60, n % r)
/-- Its SEI payload: one clock timestamp, counting_type 0, full_timestamp_flag 1. -/
def timeCodeSei (p : List Byte) (frame : Nat) : List Byte :=
  let (h, m, sec, f) := timeCode p frame
  seiBits (putU 2 1 ++ putU 1 1 ++ putU 1 0 ++ putU 5 0 ++ putU 1 1 ++ putU 1 0 ++ putU 1 0 ++ putU 9 f ++ putU 6 sec ++ putU 6 m ++
    putU 5 h ++ putU 5 0)
/-- Numbers of n bytes, most significant byte first. -/
def swapEach (n : Nat) (l : List Byte) (count : Nat) : List Byte :=
  (List.range count).flatMap (fun i => ((l.drop (n * i)).take n).reverse)
def mdcvSei (p : List Byte) : List Byte := swapEach 2 (p.drop 80) 8 ++ swapEach 4 (p.drop 96) 2
def cllSei (p : List Byte) : List Byte := swapEach 2 (p.drop 104) 2
/-- The UUID of the pose SEI. -/
def poseUuid : List Byte := [0x4e, 0x1f, 0x0c, 0x7a, 0x93, 0xd2, 0x4b, 0x58, 0xa6, 0xe1, 0x20, 0xc4, 0xd7, 0xb9, 0xf0, 0x35]

/-- The access unit's NAL units before the slices, in order (R254); `pose` is the pose SEI's body. -/
def auHead (fw : Nat) (t : Taken) (delays : List Nat) (pose : List Byte) : List Byte :=
  let idr := decide (t.type = 0)
  let p := t.p
  (if optOn p 6 then
      nalUnit (nalHead 35 0 ++ withStop (putU 3 (if t.type = 0 ∨ t.type = 3 then 0 else if t.type = 1 then 1 else 2))) else []) ++
    (if idr then paramSets fw p else []) ++
    (if optOn p 1 then (if idr then seiNal 0 (bufferingSei fw delays) else []) ++ seiNal 1 (timingSei fw delays) else []) ++
    (if optOn p 2 then seiNal 136 (timeCodeSei p t.frame) else []) ++
    (if optOn p 3 && idr then seiNal 137 (mdcvSei p) else []) ++
    (if optOn p 4 && idr then seiNal 144 (cllSei p) else []) ++
    (if optOn p 5 then seiNal 5 (poseUuid ++ pose) else [])

/-! ### Slices -/

/-- nal_unit_type of a picture's slices; one that nothing refers to may have either trailing type. -/
def sliceNal (fw : Nat) (t : Taken) : Nat :=
  if t.type = 0 then 19 + openHdr fw 0 2
  else if t.type = 3 ∨ (t.type = 2 ∧ t.level = groupLog t.p) then openHdr fw 14 2
  else 1
/-- TemporalId. -/
def tidOf (t : Taken) : Nat := if t.type = 2 then t.level else 0
/-- The bits of a reference picture set: the kept pictures before and after, each marked by whether this picture refers to it. -/
def rpsBits (poc : Int) (kept act : List Int) : List Bool :=
  let near (l : List Int) : List Int := l.foldl (fun s r => byDistance poc r s) []
  let neg := near (kept.filter (fun r => decide (r < poc)))
  let pos := near (kept.filter (fun r => decide (r > poc)))
  let steps (l : List Int) : List Bool :=
    (l.foldl (fun (a : List Bool × Int) r =>
      (a.1 ++ putUe ((r - a.2).natAbs - 1) ++ putF (act.contains r), r)) ([], poc)).1
  putF false ++ putUe neg.length ++ putUe pos.length ++ steps neg ++ steps pos
/-- A slice header up to its alignment: `addr` its first CTU; `entry` the sizes of its substreams with wavefront (R249). SliceQpY is the
firmware's: rows and CTUs change their QP by cu_qp_delta. -/
def sliceBits (fw : Nat) (t : Taken) (kept : List Int) (addr : Nat) (entry : List Nat) : List Bool :=
  let p := t.p
  let act := activeRefs p t.type t.poc kept
  let n0 := max 1 (act.filter (fun r => decide (r < t.poc))).length
  let n1 := max 1 (act.filter (fun r => decide (r > t.poc))).length
  let inter := decide (t.type = 1 ∨ t.type = 2)
  let b := decide (t.type = 2)
  let from0 := openHdr fw 12 2
  putF (addr = 0) ++ (if t.type = 0 then putF false else []) ++ putUe 0 ++
    (if addr = 0 then [] else putU (clog2 (ctuCount p)) addr) ++
    putUe (if b then 0 else if inter then 1 else 2) ++
    (if t.type = 0 then [] else putU 16 (ofSigned 16 t.poc) ++ rpsBits t.poc kept act ++ putF true) ++
    (if optOn p 7 then putF true ++ putF true else []) ++
    (if inter then
      putF true ++ putUe (n0 - 1) ++ (if b then putUe (n1 - 1) ++ putU 1 (openHdr fw 11 2) else []) ++
        (if openHdr fw 7 2 = 1 then putU 1 (openHdr fw 21 2) else []) ++
        (if b then putU 1 from0 else []) ++
        (let n := if b ∧ from0 = 0 then n1 else n0
         if n > 1 then putUe (openHdr fw 13 n) else []) ++
        putUe 0
     else []) ++
    putSe ((openHdr fw 33 52 : Nat) - initQp fw) ++ putF true ++
    (if splitOf p = 1 then putUe 0
     else if splitOf p = 2 then
       putUe entry.length ++ (if entry = [] then [] else
         putUe (openHdr fw 20 32) ++ entry.flatMap (fun e => putU (openHdr fw 20 32 + 1) (e - 1)))
     else [])
/-- A slice segment NAL unit up to its data. -/
def sliceHead (fw : Nat) (t : Taken) (kept : List Int) (addr : Nat) (entry : List Nat) : List Byte :=
  nalUnit (nalHead (sliceNal fw t) (tidOf t) ++ escape 0 (withStop (sliceBits fw t kept addr entry)))

/-! ### Substreams (R249) -/

/-- Zero bytes at the end of a stream. -/
def zerosAtEnd (l : List Byte) : Nat := (l.reverse.takeWhile (fun b => b.toNat = 0)).length
/-- A substream after z zero bytes: a 0x03 before the byte that would complete 0x00 0x00 and 0x00 to 0x03 across the join. -/
def joined (z : Nat) : List Byte → List Byte
  | [] => []
  | [x] => if 2 ≤ z ∧ x.toNat ≤ 3 then [3, x] else [x]
  | x :: y :: r =>
    if 2 ≤ z ∧ x.toNat ≤ 3 then 3 :: x :: y :: r
    else if 1 ≤ z ∧ x.toNat = 0 ∧ y.toNat ≤ 3 then x :: 3 :: y :: r
    else x :: y :: r
/-- Substreams joined in order: each as it stands in the output. -/
def joinStreams : List Byte → List (List Byte) → List (List Byte)
  | _, [] => []
  | acc, b :: t =>
    let c := joined (zerosAtEnd acc) b
    c :: joinStreams (acc ++ c) t

end Sys2Proof.Machine
end

