-- ==== Sys2Proof/Machine/EncPic.lean ====
section
/-! DEFINITION. Encoding a picture: its source samples (R235), motion search (R251, R252), row QP (R259), exhaustion (R260). -/
namespace Sys2Proof.Machine

/-! ### Source samples (R235) -/

/-- A sample in the coded depth: 10 bits of a broadcast word, 8 bits of a proxy byte. -/
def codedSample (p : List Byte) (raw : Nat) : Nat :=
  if at' p 10 1 = 0 then
    let v := raw / 64
    if codedDepth p = 8 then min 255 ((v + 2) / 4) else v
  else if codedDepth p = 8 then raw else raw * 4
/-- Bytes of a source sample. -/
def srcBytes (p : List Byte) : Nat := if at' p 10 1 = 0 then 2 else 1
/-- n numbers with the last one repeated. -/
def edged (n : Nat) (l : List Nat) : List Nat := l ++ List.replicate (n - l.length) (l.getLastD 0)
/-- n rows with the last one repeated. -/
def edgedRows (n : Nat) (l : List (List Nat)) : List (List Nat) := l ++ List.replicate (n - l.length) (l.getLastD [])
/-- 4:2:0 rows from 4:2:2 ones: the mean of two, halves up; a last row alone as it is. -/
def halfRows : List (List Nat) → List (List Nat)
  | [] => []
  | [r] => [r]
  | r :: q :: t => (r.zip q).map (fun e => (e.1 + e.2 + 1) / 2) :: halfRows t

/-- One row of source samples, none for poison. -/
def State.srcRow (s : State) (r : Req) (p : List Byte) (a n : Nat) : Option (List Nat) × State :=
  let x := s.busRead r a (n * srcBytes p)
  (x.1.map (fun b => (numsOf (srcBytes p) b).map (codedSample p)), x.2)
/-- Rows one pitch apart. -/
def State.srcRows (s : State) (r : Req) (p : List Byte) (a n : Nat) : Nat → Option (List (List Nat)) × State
  | 0 => (some [], s)
  | k + 1 =>
    let x := s.srcRow r p a n
    let y := x.2.srcRows r p (a + at' p 28 4) n k
    (x.1.bind (fun v => y.1.map (v :: ·)), y.2)
/-- Every second number, from the first or the second. -/
def everyOther (odd : Bool) (l : List Nat) : List Nat :=
  (List.range (l.length / 2)).map (fun i => (l[2 * i + b2n odd]?).getD 0)

/-- The crop of a source buffer in the coded format; none when a read was answered with poison (R235, R245). Chroma lies behind the
luma plane, as pairs at the same pitch (Table 7-4). -/
def State.srcPic (s : State) (r : Req) (p : List Byte) (buf : Nat) : Option SrcPic × State :=
  let x := at' p 32 2
  let y := at' p 34 2
  let w := at' p 36 2
  let h := at' p 38 2
  let pitch := at' p 28 4
  let sub := if at' p 10 1 = 0 then 1 else 2
  let luma := s.srcRows r p (buf + 256 + y * pitch + x * srcBytes p) w h
  let chroma := luma.2.srcRows r p (buf + 256 + pitch * at' p 26 2 + y / sub * pitch + x * srcBytes p) w (divCeil h sub)
  let pic := luma.1.bind (fun l => chroma.1.map (fun c =>
    let c2 := if at' p 10 1 = 0 ∧ !chroma422 p then halfRows c else c
    let ch := if chroma422 p then codedH p else codedH p / 2
    let plane (n m : Nat) (rows : List (List Nat)) : List Nat := (edgedRows m (rows.map (edged n))).flatten
    { w := codedW p, h := codedH p, y := plane (codedW p) (codedH p) l
      cb := plane (codedW p / 2) ch (c2.map (everyOther false)), cr := plane (codedW p / 2) ch (c2.map (everyOther true)) : SrcPic }))
  (pic, chroma.2)

/-- 4,096 times the variance of the 8 x 8 luma block at a position. -/
def SrcPic.variance (q : SrcPic) (x y : Nat) : Nat :=
  let v := (List.range 64).map (fun k => (q.y[(y + k / 8) * q.w + x + k % 8]?).getD 0)
  64 * (v.map (fun a => a * a)).sum - v.sum * v.sum
/-- A_r of CTU row r, times 4,096 (R259). -/
def SrcPic.activity (q : SrcPic) (r : Nat) : Nat :=
  ((List.range (min 8 ((q.h - 64 * r) / 8))).flatMap (fun j =>
    (List.range (q.w / 8)).map (fun i => q.variance (8 * i) (64 * r + 8 * j)))).sum

/-! ### Motion search (R251, R252) -/

/-- The vector of a field's block, in quarter proxy pels. -/
def FieldCopy.at (f : FieldCopy) (bw i j : Nat) : Vec :=
  let o := 64 + 8 * (j * bw + i)
  ⟨toSigned 16 (at' f.body o 2), toSigned 16 (at' f.body (o + 2) 2)⟩
/-- A field or global vector over a frame distance, in quarter luma samples: round(2 x v x d / s). -/
def scaleVec (p : List Byte) (d : Int) (v : Vec) : Vec :=
  ⟨roundAway (2 * v.x * d) (2 ^ scaleLog p), roundAway (2 * v.y * d) (2 ^ scaleLog p)⟩
/-- The field and the block that cover a luma position of the crop, in source coordinates; rows owned by PIPE_B lie in its own
block grid (R250). -/
def blockAt (t : Taken) (x y : Nat) : Option (FieldCopy × Vec) :=
  let p := t.p
  let s := 2 ^ scaleLog p
  let w := at' p 24 2 * s
  let h := at' p 26 2 * s
  let sx := (at' p 32 2 + x) * s
  let sy := (at' p 34 2 + y) * s
  let bw := divCeil w 32
  match t.fields with
  | [f] => some (f, f.at bw (sx / 32) (sy / 32))
  | [f, g] => if sy < h / 2 then some (f, f.at bw (sx / 32) (sy / 32)) else some (g, g.at bw (sx / 32) ((sy - (h / 2 - 8)) / 32))
  | _ => none

/-- H.265's scaling of a co-located vector by POC distances. -/
def colocatedVec (v : Vec) (td tb : Int) : Vec :=
  let d := clampInt (-128) 127 td
  let b := clampInt (-128) 127 tb
  let tx := Int.tdiv (16384 + (d.natAbs / 2 : Nat)) d
  let k := clampInt (-4096) 4095 ((b * tx + 32) >>> 6)
  let one (a : Int) : Int :=
    let m : Int := ((k * a).natAbs + 127) / 256
    clampInt (-32768) 32767 (if k * a < 0 then -m else m)
  if d = 0 ∨ d = b then v else ⟨one v.x, one v.y⟩

/-- The candidates of a unit in the order of R251: MFE, global, the neighbours' final vectors, the co-located one, zero. -/
def candidates (t : Taken) (d : Int) (before : List PuOut) (col : List PuOut) (u : PuIn) : List Vec :=
  let f := if t.noMfe then none else blockAt t (u.x + u.w / 2) (u.y + u.h / 2)
  let near (o : Option Nat) : List Vec := match o.bind (fun i => before[i]?) with | some n => [n.mv] | none => []
  (match f with | some (c, v) => [scaleVec t.p d v, scaleVec t.p d c.g] | none => []) ++
    near u.left ++ near u.above ++ near u.aboveRight ++
    (match u.colocated.bind (fun i => col[i]?) with | some n => [colocatedVec n.mv n.dist d] | none => []) ++ [⟨0, 0⟩]
/-- The candidate of least SAD + λ x mv bits, the first of equals (notes/assumptions/82.md). -/
def keepLeast (lambda : Nat) : List (Vec × Nat) → Vec × Nat → Vec
  | [], b => b.1
  | (v, sad) :: t, b =>
    let c := sad + lambda * Config.mvBits v.x v.y
    keepLeast lambda t (if c < b.2 then (v, c) else b)
/-- What the search around the kept candidate can reach at a depth (Table 10-3), in quarter samples of a component. -/
def reach (depth : Nat) (d : Int) : Int :=
  let r : Int := match depth with | 0 => 64 | 1 => 32 | 2 => 16 | _ => 0
  let sub := d % 4
  let whole := clampInt (-r) r (d - sub)
  whole + (if depth ≥ 2 then sub / 2 * 2 else sub)
/-- A unit's motion. -/
def searchUnit (t : Taken) (depth qp : Nat) (act : List Int) (col before : List PuOut) (u : PuIn) : PuOut :=
  let ref := (act[u.ref]?).getD t.poc
  let d := t.poc - ref
  let cs := (candidates t d before col u).zip (u.sads ++ List.replicate 8 0)
  let kept := match cs with
    | [] => (⟨0, 0⟩ : Vec)
    | (v, sad) :: r => keepLeast (Config.searchLambda qp) r (v, sad + Config.searchLambda qp * Config.mvBits v.x v.y)
  ⟨⟨kept.x + reach depth u.delta.x, kept.y + reach depth u.delta.y⟩, d⟩
/-- The motion of a picture's units, each after those before it. -/
def searchUnits (t : Taken) (depth qp : Nat) (act : List Int) (col : List PuOut) : List PuOut → List PuIn → List PuOut
  | acc, [] => acc
  | acc, u :: r => searchUnits t depth qp act col (acc ++ [searchUnit t depth qp act col acc u]) r

/-! ### Exhaustion (R260) -/

/-- A coded CTU: its bits, and whether it was coded in exhaustion. -/
structure CtuOut where
  bits : List Bool
  exh : Bool
  deriving DecidableEq, Repr

/-- What a picture of a type costs at least per CTU. -/
def rho (type : Nat) : Nat := if type = 0 ∨ type = 3 then 96 else 32

/-- A core's share of the CTUs: after each, the check against the bits that the CTUs still to come need (R260). -/
def codeShare (rho share : Nat) : Nat → Bool → List CtuCode → List CtuOut
  | _, _, [] => []
  | spent, exh, b :: t =>
    let left := rho * t.length
    if !exh && decide (spent + b.normal.length + left ≤ share) then
      ⟨b.normal, false⟩ :: codeShare rho share (spent + b.normal.length) false t
    else if spent + b.exh.length + left ≤ share then ⟨b.exh, true⟩ :: codeShare rho share (spent + b.exh.length) true t
    else
      let f := b.fall.take rho
      ⟨f, true⟩ :: codeShare rho share (spent + f.length) true t

/-- The CTUs of a picture as the cores' shares leave them, in coding order: `heads` the slice-header bits of each core, h and cap H
and C (R260). -/
def codeCtus (t : Taken) (m h cap : Nat) (heads : List Nat) (ctus : List CtuCode) : List CtuOut :=
  let none' : CtuCode := ⟨[], [], []⟩
  let n := ctuCount t.p
  let done := (List.range m).flatMap (fun j =>
    let mine := shareOf t.p m j
    let hj := (heads[j]?).getD 0
    mine.zip (codeShare (rho t.type) (hj + (cap - h) * mine.length / max 1 n) hj false (mine.map (fun i => (ctus[i]?).getD none'))))
  (List.range n).map (fun i => ((done.find? (fun e => e.1 = i)).map (·.2)).getD ⟨[], false⟩)

/-! ### Row QP (R259) -/

/-- The first row's QP: what the last picture of the type would have needed, or the context's starting value. -/
def firstQp (x : VCtx) (t : Taken) (target : Nat) : Nat :=
  let p := t.p
  let start := if t.type = 0 ∨ t.type = 3 then at' p 48 1 else if t.type = 1 then at' p 49 1 else at' p 50 1 + (t.level - 1)
  if at' p 44 1 = 2 then start
  else
    match x.lastQp.find? (fun e => e.1 = (if t.type = 0 ∨ t.type = 3 then 0 else t.type)) with
    | some e => clampNat (at' p 46 1) (at' p 47 1) (Config.qpNeeded e.2.1 e.2.2 target)
    | none => clampNat (at' p 46 1) (at' p 47 1) start
/-- The QP of the next row: up a step when the bits spent exceed the target so far by more than 10 %, down when they are as much
below it. How far a step goes, up to DQP_ROW, is open: `step` (notes/assumptions/81.md). -/
def nextQp (p : List Byte) (qp step spent target den : Nat) : Nat :=
  if 10 * spent * den > 11 * target then min (at' p 47 1) (qp + step)
  else if 10 * spent * den < 9 * target then max (at' p 46 1) (qp - step)
  else qp
/-- The QPs of the rows: `acts` the activities of the rows, `bits` what each row cost, `sum` the activity of the picture; spent and
act are those of the rows before. -/
def rowQps (t : Taken) (target sum : Nat) (step : Nat → Nat) : Nat → Nat → Nat → Nat → List (Nat × Nat) → List Nat
  | _, _, _, _, [] => []
  | r, qp, spent, act, (a, b) :: rest =>
    let q := if at' t.p 44 1 = 2 then qp
      else if sum = 0 then nextQp t.p qp (step r) (spent + b) (Config.flatTarget target r) 1
      else nextQp t.p qp (step r) (spent + b) (target * (act + a)) sum
    qp :: rowQps t target sum step (r + 1) q (spent + b) (act + a) rest

end Sys2Proof.Machine
end

