-- ==== Sys2Proof/Machine/CodecOps.lean ====
section
/-! DEFINITION. HEVC encoding: contexts, commands, taking frames, groups, scheduling, rate control, access units (R234 to
R262). -/
namespace Sys2Proof.Machine

/-! ### START (R241, R267) -/

/-- Bytes that a table gives as zero are zero. -/
def zeroAt (p : List Byte) (l : List (Nat × Nat)) : Bool := l.all (fun e => at' p e.1 e.2 = 0)
/-- An MFE number or 0xF. -/
def mfeNum (n : Nat) : Bool := decide (n < 8) || n = 15
/-- A value that Table 10-2 reserves, or a profile and source that Table 10-1 does not allow (R241, code 1). -/
def encReserved (p : List Byte) : Bool :=
  let b (o : Nat) : Nat := at' p o 1
  !([1, 2, 4].contains (b 0)) || decide (b 1 > 186) || decide (b 2 > 1) || gopOf p = 3 || decide (b 3 ≥ 128) ||
    (gopOf p = 2 && groupLog p = 0) || decide (refsOf p < 1 ∨ refsOf p > 4) || decide (at' p 4 2 > 32767) || splitOf p = 3 ||
    decide (b 6 ≥ 128) || decide (b 10 > 1) || decide (b 11 % 8 > 4) || b 11 / 8 % 4 = 0 || decide (b 11 ≥ 32) || b 40 = 0 ||
    decide (b 41 > 7) || decide (b 44 > 2) || decide (b 45 < 1 ∨ b 45 > 6) || decide (b 46 > b 47 ∨ b 47 > 51) ||
    decide (b 48 > 51 ∨ b 49 > 51 ∨ b 50 > 51) || b 116 = 0 || decide (b 140 > 12) || (b 0 = 4 && b 10 = 1) ||
    !(mfeNum (b 42 % 16) && mfeNum (b 42 / 16)) || decide (b 43 > 2) || (b 10 = 0 && b 43 ≠ 0) ||
    !(zeroAt p [(51, 1), (117, 3), (141, 3), (164, 92)]) ||
    decide (at' p 12 8 % 256 ≠ 0 ∨ at' p 128 8 % 4096 ≠ 0 ∨ at' p 136 4 % 4096 ≠ 0 ∨ at' p 144 8 % 64 ≠ 0 ∨ at' p 152 8 % 4096 ≠ 0)

/-- Code 2: the crop and its size (R237). -/
def encBadCrop (p : List Byte) : Bool :=
  let x := at' p 32 2
  let y := at' p 34 2
  let w := at' p 36 2
  let h := at' p 38 2
  decide (x + w > at' p 24 2 ∨ y + h > at' p 26 2 ∨ x % 2 = 1 ∨ y % 2 = 1 ∨ w % 2 = 1 ∨ h % 2 = 1 ∨ w < 64 ∨ w > 16384 ∨ h < 64 ∨
    h > 8704 ∨ w * h > 35651584)
/-- Code 3: cores and tiles. -/
def encBadCores (p : List Byte) : Bool :=
  let m := (maskCores (at' p 7 1)).length
  m = 0 || (splitOf p = 0 && decide (m > 1)) ||
    (splitOf p = 1 && (decide (tileCols p * tileRows p < m) || decide (ctuW (at' p 36 2) / tileCols p < 4)))
/-- Code 4: the work area. -/
def encSmallWork (p : List Byte) : Bool :=
  let a := ctuCount p * 4096
  let c := if at' p 0 1 = 4 then 4 else 3
  let d := picStore p
  decide (at' p 160 4 * 4096 < d * (a * c + a / 16) + 2 * (64 + 8 * divCeil (at' p 24 2) 32 * divCeil (at' p 26 2) 32) + 65536)
/-- The pose SEI's body without a record (Table 10-5). -/
def noPose (sid calId frame : Nat) : List Byte :=
  [1, 2, 0, 0] ++ toBytesBE 2 sid ++ toBytesBE 2 calId ++ toBytesBE 4 frame ++ List.replicate 12 0
/-- A slice's first CTU, and its header without the sizes of its substreams, which are written last (R249). -/
def sliceHeads (fw : Nat) (t : Taken) (kept : List Int) : List (List Byte) :=
  (slicesOf t.p).map (fun l => sliceHead fw t kept (l.headD 0) (List.replicate (if splitOf t.p = 2 then ctuRows t.p - 1 else 0) 0))
/-- The bits of each core's slice headers: a tile's are its core's, any other slice's the first core's (R260). -/
def headShares (m : Nat) (heads : List (List Byte)) : List Nat :=
  (List.range m).map (fun j =>
    8 * ((heads.zip (List.range heads.length)).map (fun e => if e.2 % m = j then e.1.length else 0)).sum)
/-- H: the bits of the NAL units before the slice data, and 8 for each join (R260). -/
def headBits (p : List Byte) (front : List Byte) (heads : List (List Byte)) : Nat :=
  8 * front.length + 8 * (heads.map (·.length)).sum + (if splitOf p = 2 then 8 * (ctuRows p - 1) else 0)
/-- The floor of R260 for a context's first picture, an IDR without a pose. -/
def idrFloor (fw : Nat) (p : List Byte) : Nat :=
  let t : Taken := { frame := 0, src := 0, hdr := 0, fvNs := 0, poc := 0, type := 0, level := 0, p := p }
  headBits p (auHead fw t [] (noPose 0 0 0)) (sliceHeads fw t []) + rho 0 * ctuCount p
/-- Code 5: the cap below the floor, or too small a ring. -/
def encBadCap (fw : Nat) (p : List Byte) : Bool :=
  decide (at' p 64 4 < idrFloor fw p) || decide (at' p 136 4 < at' p 64 4 / 4 + 8192)

/-- The codes of R267 for a decode context. -/
def decCode (p : List Byte) : Nat :=
  let b (o : Nat) : Nat := at' p o 1
  let a := ctuW (at' p 4 2) * ctuW (at' p 6 2) * 4096
  if b 1 < 1 ∨ b 1 > 16 ∨ b 2 < 1 ∨ b 2 > 2 ∨ b 11 > 7 ∨ b 12 < 2 ∨ b 12 > 4 ∨ b 13 > 7 ∨ b 14 = 0 ∨ b 15 / 4 % 4 = 3 ∨
      b 15 / 16 % 4 = 3 ∨ b 15 ≥ 64 ∨ b 96 > 12 ∨ zeroAt p [(3, 1), (28, 4), (97, 7), (116, 140)] = false ∨ at' p 16 8 % 4096 ≠ 0 ∨
      at' p 24 4 % 4096 ≠ 0 ∨ at' p 32 8 % 256 ≠ 0 ∨ at' p 40 4 % 256 ≠ 0 ∨ at' p 44 4 % 256 ≠ 0 ∨ at' p 44 4 < at' p 4 2 * 8 ∨
      at' p 88 8 % 64 ≠ 0 ∨ at' p 104 8 % 4096 ≠ 0 then 1
  else if at' p 4 2 < 8 ∨ at' p 4 2 > 16384 ∨ at' p 6 2 < 8 ∨ at' p 6 2 > 16384 then 2
  else if b 10 = 0 then 3
  else if at' p 112 4 * 4096 < (b 1 + 1) * (a * (if b 2 = 2 then 4 else 3) + a / 16) + 65536 then 4
  else 0

/-- The refusal code of START; 0: accepted (R241, R267). -/
def startCode (fw : Nat) (running : Bool) (p : List Byte) : Nat :=
  if running then 6
  else if at' p 0 1 = 0x80 then decCode p
  else if encReserved p then 1 else if encBadCrop p then 2 else if encBadCores p then 3 else if encSmallWork p then 4
  else if encBadCap fw p then 5 else 0

/-! ### Groups (R244, R246) -/

/-- Pictures of a group coded in order as P. -/
def asP (l : List Taken) : List Taken := l.map (fun t => { t with type := 1, level := 0 })
/-- The B pictures between positions lo and hi, middle first, then each half, one level down. -/
def dyadic (g : List Taken) (level lo hi : Nat) : Nat → List Taken
  | 0 => []
  | n + 1 =>
    if hi ≤ lo + 1 then []
    else
      let m := (lo + hi) / 2
      (match g[m - 1]? with | some t => [{ t with type := 2, level := level }] | none => []) ++
        dyadic g (level + 1) lo m n ++ dyadic g (level + 1) m hi n
/-- Coding order of a whole group: the last picture as P, then the dyadic B pictures. -/
def groupOrder (g : List Taken) : List Taken := asP (g.drop (g.length - 1)) ++ dyadic g 1 0 g.length 4

/-- An open group is closed (R244). -/
def VCtx.closeGroup (x : VCtx) : VCtx := { x with ready := x.ready ++ asP x.group, group := [] }

/-- A frame is taken (R242, R244, R246). -/
def VCtx.take (x : VCtx) (t : Taken) : VCtx :=
  let per := at' x.p 4 2
  let div := at' x.p 40 1
  let x0 := { x with expect := some ((t.frame + div) % 2 ^ 32) }
  if x.needIdr || (per ≠ 0 && decide (x.sinceIdr ≥ per)) then
    let y := x0.closeGroup
    { y with ready := y.ready ++ [{ t with type := 0, level := 0, poc := 0 }], needIdr := false, idrFrame := t.frame, sinceIdr := 1 }
  else
    let u := { t with poc := toSigned 32 (t.frame + 2 ^ 32 - x.idrFrame % 2 ^ 32) }
    let y := { x0 with sinceIdr := x.sinceIdr + 1 }
    match gopOf x.p with
    | 0 => { y with ready := y.ready ++ [{ u with type := 3, level := 0 }] }
    | 1 => { y with ready := y.ready ++ [{ u with type := 1, level := 0 }] }
    | _ =>
      let g := y.group ++ [u]
      if g.length ≥ 2 ^ groupLog x.p then { y with ready := y.ready ++ groupOrder g, group := [] } else { y with group := g }

/-- A frame is skipped: counted, and an open group closes (R243, R244). -/
def State.skipFrame (s : State) (c n : Nat) (next : Option Nat) : State :=
  let x := (s.ctx c).closeGroup
  (s.setCtx c { x with skipBefore := x.skipBefore + n, expect := next }).incStat c 276 n

/-! ### Source heads (R242) -/

/-- Offsets of the expected heads. -/
def headOfs (p : List Byte) : List Nat :=
  (if (at' p 11 1).testBit 3 then [0] else []) ++ (if (at' p 11 1).testBit 4 then [64] else [])
def srcBuf (p : List Byte) (frame : Nat) : Nat := at' p 12 8 + frame % 2 ^ (at' p 11 1 % 8) * at' p 20 4
/-- FRAME of a head, and its WRITE_ERR. -/
def headFrameOf (b : List Byte) : Nat := bits (at' b 0 16) 115 84
def headErrOf (b : List Byte) : Bool := (at' b 36 4).testBit 0
/-- The buffer heads at some offsets as a unit reads them; none for poison. -/
def State.readHeadsAt (s : State) (r : Req) (offs : List Nat) (a : Nat) : Option (List (List Byte)) × State :=
  offs.foldl (fun acc o =>
    let x := acc.2.busRead r (a + o) 64
    (acc.1.bind (fun l => x.1.map (fun b => l ++ [b])), x.2)) (some [], s)
/-- The expected heads of a buffer as the codec reads them. -/
def State.readHeads (s : State) (r : Req) (p : List Byte) (a : Nat) : Option (List (List Byte)) × State := s.readHeadsAt r (headOfs p) a
/-- Every expected head is read and shows a frame. -/
def State.headsShow (s : State) (r : Req) (p : List Byte) (a frame : Nat) : Bool :=
  match (s.readHeads r p a).1 with
  | some hs => hs.all (fun b => headFrameOf b = frame)
  | none => false

/-- The picture that a buffer's heads describe: head 0's header with the flags of all expected heads, and its FV stamp (R262). -/
def takenOf (p : List Byte) (a frame : Nat) (head0 : List Byte) (hs : List (List Byte)) : Taken :=
  let fl := hs.foldl (fun f b => f ||| bits (at' b 0 16) 53 38) 0
  { frame := frame, src := a, hdr := putBits (at' head0 0 16) 53 38 fl
    fvNs := at' head0 16 8 * 1000000000 + at' head0 24 4 % 2 ^ 30, poc := 0, type := 0, level := 0, p := p }

/-- The newest FRAME that the ring's heads show: the first expected frame after START. Heads that cannot be read show none. -/
def State.firstFrame (s : State) (r : Req) (p : List Byte) : Nat :=
  let fs := (List.range (2 ^ (at' p 11 1 % 8))).filterMap (fun k =>
    ((s.readHeads r p (at' p 12 8 + k * at' p 20 4)).1.bind (·.head?)).map headFrameOf)
  match fs with
  | [] => 0
  | f :: t => t.foldl (fun m g => if earlier32 m g then g else m) f

/-! ### The motion field of a frame taken (R250) -/

/-- The MFEs that a context names: the stream's, or PIPE's and PIPE_B's. -/
def mfesOf (p : List Byte) : List Nat :=
  let b := at' p 42 1
  [b % 16, b / 16].filter (fun m => m < 8)
/-- Bytes of a field of the source frame, or of half of it with 8 lines more (R149, R150). -/
def fieldSize (p : List Byte) : Nat :=
  let s := 2 ^ scaleLog p
  let h := at' p 26 2 * s
  64 + 8 * divCeil (at' p 24 2 * s) 32 * divCeil (if (mfesOf p).length = 2 then h / 2 + 8 else h) 32
/-- The field event for a frame. -/
def State.fieldEvent (s : State) (m frame : Nat) : Option FieldEvent :=
  (UMap.get noField s.codec.fields m).find? (fun e => e.frame = frame)

/-- What the codec found of a frame's fields. -/
structure FieldUse where
  copies : List FieldCopy := []
  ok : Bool := true
  stale : Bool := false
  bad : Bool := false
  deriving DecidableEq, Repr

/-- One field is copied to the field store, its head read before and after: `moved` when it changed in between. -/
def State.copyField (s : State) (c : Nat) (p : List Byte) (frame m : Nat) (moved poison : Bool) (u : FieldUse) : FieldUse × State :=
  let a := s.fld (mfeA m) (if frame % 2 = 0 then MFE_FLD_BASE0_ADDR else MFE_FLD_BASE1_ADDR) * 256
  let x := s.take (s.ctxReq c) a (fieldSize p)
  let room := at' p 160 4 * 4096
  let o := Config.workPlace (1 + m) % max 1 (room - fieldSize p)
  let t := x.2.2.put (s.ctxReq c) (at' p 152 8 + o) (x.1.take room)
  let e := s.fieldEvent m frame
  let event := (e.map (·.ok)).getD false
  let head := headFrameOf x.1 = frame && !moved
  ({ copies := u.copies ++ [⟨(e.map (·.g)).getD ⟨0, 0⟩, x.1⟩], ok := u.ok && event && head && !x.2.1 && !poison
     stale := u.stale || (event && !head), bad := u.bad || (e.map (fun f => !f.ok)).getD false }, t)
/-- The fields of a frame taken, and with them whether its picture may use them (R250). -/
def State.copyFields (s : State) (c : Nat) (t : Taken) (moved poison : Bool) : Taken × Bool × State :=
  let r := (mfesOf t.p).foldl (fun (acc : FieldUse × State) m => acc.2.copyField c t.p t.frame m moved poison acc.1) ({}, s)
  let use := r.1.ok && mfesOf t.p ≠ []
  ({ t with fields := if use then r.1.copies else [], noMfe := !use, stale := r.1.stale }, r.1.bad, r.2)

/-! ### Cores and scheduling (R247) -/

/-- A core is out of service for good (Table 22-3), by itself or with its region. -/
def State.coreRetired (s : State) (v : Nat) : Bool :=
  s.flt.coresRetired.contains v || s.flt.regionsFaulted.contains (v / 2)
/-- The cores of a context that are in service. -/
def State.coresOf (s : State) (x : VCtx) : List Nat :=
  (maskCores (at' x.p (if x.dec then 10 else 7) 1)).filter (fun v => !s.coreRetired v)
/-- A core takes pictures: enabled, its firmware running, not in reset. -/
def State.coreOk (s : State) (v : Nat) : Bool :=
  s.flag (vccA v) VCC_CTRL_EN && s.flag (vccA v) VCC_STATUS_SP_RUN && !s.flag (vccA v) VCC_STATUS_FAULT && !s.coreRetired v
/-- A core is free for a context. -/
def State.coreFree (s : State) (v c : Nat) : Bool :=
  s.coreOk v && (s.vcc v).cur.isNone && ((s.vcc v).waitFor.isNone || (s.vcc v).waitFor = some c)

/-- A context has a ready picture; a decode context has one when WR_PTR is not where it was. -/
def State.hasReady (s : State) (c : Nat) : Bool :=
  let x := s.ctx c
  let w := s.ctxStat c 256 8
  x.run && x.job.isNone && (if x.dec then !x.stopping && decide (w ≠ x.pos ∨ w ≠ x.lastWr) else x.ready ≠ [])
/-- Priority, and age of the ready picture: a decode picture has no FV stamp and comes after those that have one. -/
def State.rank (s : State) (c : Nat) : Nat × Nat :=
  let x := s.ctx c
  if x.dec then (at' x.p 11 1 % 8, 2 ^ 80)
  else match x.ready with | t :: _ => (at' t.p 41 1 % 8, t.fvNs) | [] => (0, 2 ^ 80)
/-- The context that a core serves next. -/
def State.bestCtx (s : State) (v : Nat) : Option Nat :=
  match (s.vcc v).waitFor with
  | some c => if s.hasReady c then some c else none
  | none =>
    let cs := (List.range 64).filter (fun c => s.hasReady c && (s.coresOf (s.ctx c)).contains v)
    cs.foldl (fun (b : Option Nat) c =>
      match b with
      | none => some c
      | some d =>
        let (p, a) := s.rank c
        let (q, e) := s.rank d
        if q < p ∨ (q = p ∧ a < e) then some c else b) none

/-- Cores begin a context's picture; one that coded another context's saves that one's state first (R247). -/
def State.occupy (s : State) (c : Nat) (cores : List Nat) : State :=
  cores.foldl (fun t v =>
    let b := vccA v
    let t := match (t.vcc v).last with | some d => if d ≠ c ∧ (t.ctx d).run then t.workSave d 0 else t | none => t
    ((((t.setVcc v { t.vcc v with cur := some c, waitFor := none, last := some c }).setFlag b VCC_STATUS_BUSY true).setFld b VCC_STATUS_CTX c).setFlag b
      VCC_STATUS_CTX_VALID true).setFld b VCC_STATUS_DEPTH (t.vcc v).depth) s
/-- Cores are free again. -/
def State.vacate (s : State) (cores : List Nat) : State :=
  cores.foldl (fun t v =>
    let b := vccA v
    ((t.setVcc v { t.vcc v with cur := none, waitFor := none }).setFlag b VCC_STATUS_BUSY false).setFlag b VCC_STATUS_CTX_VALID false) s

/-- Cores of a job. -/
def CodecJob.cores : CodecJob → List Nat
  | .enc _ _ cs => cs
  | .dec _ _ cs => cs

/-! ### Commands at a picture boundary (R240) -/

/-- A byte stream enters a ring at an offset, wrapping. -/
def State.putRing (s : State) (r : Req) (base size ofs : Nat) (b : List Byte) : State :=
  if size = 0 then s
  else
    let o := ofs % size
    let n := size - o
    let s1 := s.put r (base + o) (b.take n)
    if b.length ≤ n then s1 else s1.put r base (b.drop n)

/-- Bytes enter a context's output ring; WR_PTR is moved by the caller. -/
def State.ctxOut (s : State) (c : Nat) (b : List Byte) : State :=
  let x := s.ctx c
  s.putRing (s.ctxReq c) (at' x.p 128 8) (at' x.p 136 4) x.wr b

/-- An encode context that has nothing left writes an end-of-sequence NAL unit and stops; a decode context stops. -/
def State.ctxHalt (s : State) (c : Nat) : State :=
  let x := s.ctx c
  let eos : List Byte := [0, 0, 0, 1, 0x48, 0x01]
  let s1 := if x.dec then s else ((s.ctxOut c eos).setStat c 256 8 (x.wr + eos.length))
  (s1.setCtx c {}).ctxBit VCC_RUN_LO_RUN VCC_RUN_HI_RUN c false
/-- STOP ends once nothing is in progress or taken. -/
def State.maybeHalt (s : State) (c : Nat) : State :=
  let x := s.ctx c
  if x.run && x.stopping && x.job.isNone && x.ready.isEmpty && x.outQ.isEmpty then s.ctxHalt c else s

/-- RESYNC: bytes up to WR_PTR are discarded, the DPB empties without output, an IRAP is awaited (R266). -/
def State.resync (s : State) (c : Nat) : State :=
  let w := s.ctxStat c 256 8
  (s.setCtx c { s.ctx c with pos := w, rd := w, lastWr := w, waitIrap := true, dpb := [], prevPic := none, aus := [], afterEos := true }).setStat c 264 8 w

/-- The bytes that UPDATE reads again: 41 and 44 to 127. -/
def updated (old new : List Byte) : List Byte :=
  old.take 41 ++ (new.drop 41).take 1 ++ (old.drop 42).take 2 ++ (new.drop 44).take 84 ++ old.drop 128

/-- The firmware release of a context's first core. -/
def State.ctxFw (s : State) (p : List Byte) : Nat := s.fld (vccA ((maskCores (at' p 7 1)).headD 0)) VCC_FWID_FW_ID
/-- A command is performed. START clears the status block; of a decode context's only the bytes that the device may write (R275). A
STOP of a decode context outputs every picture already decoded. -/
def State.ctxCommand (s : State) (op c : Nat) : State :=
  let x := s.ctx c
  let a := s.ctxAddr c
  let got := s.take (.codec 0) a 256
  let p := got.1
  match op with
  | 1 =>
    let s := got.2.2
    let code := startCode (s.ctxFw p) x.run p
    if code ≠ 0 then (s.setFld (vccA 0) VCC_CTXRES_CTX c).setFld (vccA 0) VCC_CTXRES_CODE code
    else
      let dec := decide (at' p 0 1 = 0x80)
      let first := if dec then 264 else 256
      ((s.put (.codec 0) (a + first) (List.replicate (512 - first) 0)).setCtx c { run := true, dec := dec, p := p }).ctxBit
        VCC_RUN_LO_RUN VCC_RUN_HI_RUN c true
  | 2 =>
    if x.run then
      (s.setCtx c (if x.dec then { x.flush with stopping := true } else { x.closeGroup with stopping := true })).maybeHalt c
    else s
  | 3 => if x.run then got.2.2.setCtx c { x with p := updated x.p p } else s
  | 4 => if !x.run then s else if x.dec then s.resync c else s.setCtx c { x.closeGroup with needIdr := true }
  | _ => s

/-- A picture boundary of a context: a command that waits for it is performed, and a STOP may end. -/
def State.boundary (s : State) (c : Nat) : State :=
  match s.codec.cmd with
  | some (op, d) =>
    if d = c then
      (((s.withCodec { s.codec with cmd := none }).setFlag (vccA 0) VCC_CTXCMD_BUSY false).ctxCommand op c).maybeHalt c
    else s.maybeHalt c
  | none => s.maybeHalt c

/-- A write of VCC_CTXCMD of VCC0 starts a command, or is lost (R240). -/
def State.ctxCmdWrite (s : State) (op c : Nat) : State :=
  if op < 1 ∨ op > 4 then s
  else if s.codec.cmd.isSome then s.setFlag (vccA 0) VCC_CTXCMD_CMD_LOST true
  else
    let s1 := (s.withCodec { s.codec with cmd := some (op, c) }).setFlag (vccA 0) VCC_CTXCMD_BUSY true
    if (s1.ctx c).job.isNone then s1.boundary c else s1

/-- A context can go on no more: it stops with its VCC_ERR bit (Table 22-3). -/
def State.ctxFail (s : State) (c : Nat) : State :=
  ((s.setCtx c {}).ctxBit VCC_RUN_LO_RUN VCC_RUN_HI_RUN c false).ctxBit VCC_ERR_LO_ERR VCC_ERR_HI_ERR c true

/-- A picture is abandoned (R245): counted, its cores freed, the next picture taken is an IDR. -/
def State.abandon (s : State) (c : Nat) : State :=
  let x := s.ctx c
  match x.job with
  | none => s
  | some j =>
    let s1 := match j with
      | .enc .. =>
        (match j.cores with
          | v :: _ => (s.incFld (vccA v) VCC_CNT2_ABANDONED 1)
          | [] => s).incStat c 276 1
      | .dec .. => s
    let s2 := s1.vacate j.cores
    let y := s2.ctx c
    let z : VCtx := match j with
      | .enc .. => { y with job := none, needIdr := true, skipBefore := y.skipBefore + 1 }
      | .dec i .. => { y.auDone i.off with job := none }
    let s3 := s2.setCtx c z
    (match j with | .enc .. => s3 | .dec .. => s3.moveRd c).boundary c

/-! ### Rate control (R258, R260) -/

/-- a / b rounded to the nearest, halves up. -/
def roundDiv (a b : Nat) : Nat := if b = 0 then 0 else divRound a b
/-- Ten times the weight of a picture. -/
def weight (type level : Nat) : Nat :=
  if type = 0 ∨ type = 3 then 40 else if type = 1 then 10 else match level with | 1 => 6 | 2 => 4 | _ => 3
/-- Ten times the weights of a whole group, and its length. -/
def groupWeight (g : Nat) : Nat := 10 + (List.range g).foldl (fun t l => t + 2 ^ l * weight 2 (l + 1)) 0
/-- The mean weight as a fraction: ten times the sum, and the count. -/
def meanWeight (p : List Byte) : Nat × Nat :=
  let per := at' p 4 2
  let g := groupLog p
  if per = 0 then
    match gopOf p with | 0 => (40, 1) | 1 => (10, 1) | _ => (groupWeight g, 2 ^ g)
  else
    match gopOf p with
    | 0 => (40 * per, per)
    | 1 => (40 + 10 * (per - 1), per)
    | _ => (40 + (per - 1) / 2 ^ g * groupWeight g + (per - 1) % 2 ^ g * 10, per)
/-- Bits of a picture at a rate: rate x UNITS_IN_TICK / TIME_SCALE. -/
def perPicture (p : List Byte) (rate : Nat) : Nat := roundDiv (rate * at' p 68 4) (at' p 72 4)
/-- T_raw. -/
def tRaw (t : Taken) : Nat :=
  let (sum, n) := meanWeight t.p
  roundDiv (at' t.p 52 4 * at' t.p 68 4 * weight t.type t.level * n) (at' t.p 72 4 * sum)
/-- The cap C and whether it was raised to the floor H + rho x n. -/
def capOf (x : VCtx) (t : Taken) (h : Nat) : Nat × Bool :=
  let floor := h + rho t.type * ctuCount t.p
  let c := min (at' t.p 64 4) (at' t.p 60 4 - x.level)
  if c < floor then (floor, true) else (c, false)
/-- The target T. -/
def targetOf (x : VCtx) (t : Taken) (cap : Nat) : Nat :=
  let r := tRaw t
  (clampInt (r / 4 : Nat) cap ((r : Int) - x.debt)).toNat

/-! ### Pose (R257) -/

/-- The pose record of a frame at POSE_BASE, if there is one that can be read (R257, R437). -/
def State.poseRecord (s : State) (r : Req) (base sid frame : Nat) : Option (List Byte) × State :=
  if base = 0 then (none, s)
  else
    match (List.range 12).find? (fun p => (s.tget .poseTable 0 (4 * p)).toNat * 256 = base) with
    | none => (none, s)
    | some p =>
      let lg := min 12 ((s.tget .poseTable 0 (4 * p + 1)).toNat % 16)
      let x := s.busRead r (base + 256 * (frame % 2 ^ lg)) 256
      (x.1.filter (fun b => bits (at' b 0 16) 127 118 = sid && headFrameOf b = frame), x.2)
/-- The pose SEI's body (Table 10-5). -/
def poseBody (sid calId frame : Nat) (r : Option (List Byte)) : List Byte :=
  let be (n v : Nat) : List Byte := toBytesBE n v
  match r with
  | none => noPose sid calId frame
  | some b =>
    let n := min 16 (at' b 28 1)
    let missed := b2n (bits (at' b 0 16) 53 38 &&& fMISSED ≠ 0)
    be 1 1 ++ be 1 missed ++ be 1 n ++ be 1 0 ++ be 2 sid ++ be 2 calId ++ be 4 frame ++ be 6 (at' b 16 8) ++
      be 4 (at' b 24 4) ++ be 2 0 ++
      (List.range n).flatMap (fun i =>
        let q := 32 + 12 * i
        be 1 (at' b q 1) ++ be 1 (at' b (q + 1) 1) ++ be 2 0 ++ be 4 (at' b (q + 4) 4) ++ be 4 (at' b (q + 8) 4))

/-! ### A coded picture (R249, R254 to R260) -/

/-- A picture as its cores leave it: the access unit, H, the cap and whether it was raised, the target, the CTUs, the rows' QPs. -/
structure CodedAu where
  bytes : List Byte
  head : Nat
  cap : Nat
  raised : Bool
  target : Nat
  ctus : List CtuOut
  qps : List Nat
  qp0 : Nat
  deriving DecidableEq, Repr

/-- The raster addresses of the CTUs in coding order. -/
def ctuOrder (p : List Byte) : List Nat := (slicesOf p).flatten
/-- The slices of a picture with their data: a tile's CTUs make its slice; with wavefront the rows are substreams of one (R248,
R249). -/
def sliceUnits (fw : Nat) (t : Taken) (kept : List Int) (outs : List CtuOut) : List Byte :=
  ((slicesOf t.p).zip (spans 0 ((slicesOf t.p).map (·.length)))).flatMap (fun e =>
    let mine := (outs.drop e.2.1).take e.2.2
    if splitOf t.p = 2 then
      let n := max 1 (ctuCols t.p)
      let subs := joinStreams [] ((List.range (ctuRows t.p)).map (fun r => packMsb (((mine.drop (r * n)).take n).flatMap (·.bits))))
      sliceHead fw t kept (e.1.headD 0) ((subs.dropLast).map (·.length)) ++ subs.flatten
    else sliceHead fw t kept (e.1.headD 0) [] ++ packMsb (mine.flatMap (·.bits)))

/-- A picture is coded: headers, shares, slices. -/
def codePicture (fw : Nat) (x : VCtx) (t : Taken) (src : SrcPic) (m : Nat) (pose : List Byte) (step : Nat → Nat) (k : CodedPic) :
    CodedAu :=
  let p := t.p
  let front := auHead fw t k.delays pose
  let heads := sliceHeads fw t x.refs
  let h := headBits p front heads
  let (cap, raised) := capOf x t h
  let target := targetOf x t cap
  let qp0 := firstQp x t target
  let outs := codeCtus t m h cap (headShares m heads) k.ctus
  let at1 := (ctuOrder p).zip outs
  let row (r : Nat) : Nat := ((at1.filter (fun e => e.1 / max 1 (ctuCols p) = r)).map (fun e => e.2.bits.length)).sum
  let acts := (List.range (ctuRows p)).map src.activity
  let qps := rowQps t target acts.sum step 0 qp0 h 0 (acts.zip ((List.range (ctuRows p)).map row))
  { bytes := front ++ sliceUnits fw t x.refs outs, head := h, cap := cap, raised := raised, target := target
    ctus := outs, qps := qps, qp0 := qp0 }

/-- The first CTU in exhaustion, by its address in the picture. -/
def CodedAu.exhausted (a : CodedAu) (p : List Byte) : Option Nat :=
  (((ctuOrder p).zip a.ctus).filter (fun e => e.2.exh)).foldl (fun (m : Option Nat) e =>
    some (match m with | some n => min n e.1 | none => e.1)) none
/-- The QPs of the CTUs: QP_MAX in exhaustion, else the row's. -/
def CodedAu.ctuQps (a : CodedAu) (p : List Byte) : List Nat :=
  ((ctuOrder p).zip a.ctus).map (fun e => if e.2.exh then at' p 47 1 else (a.qps[e.1 / max 1 (ctuCols p)]?).getD a.qp0)

end Sys2Proof.Machine
end

