-- ==== Sys2Proof/Machine/Escalate.lean ====
section
/-! DEFINITION. Escalation of codec cores, engines, clusters and regions (R474, Table 22-3). Region r holds codec cores 2r and
2r + 1 and clusters 4r to 4r + 3. -/
namespace Sys2Proof.Machine

/-- Times within 1 s of now, this one included. -/
def State.recentTimes (s : State) (k : Nat) : List Nat :=
  (s.tick :: UMap.get (fun _ => []) s.flt.recent k).filter (fun t => decide (s.tick < t + usTicks 1000000)) |>.take 4
/-- One more event of a unit within 1 s; true at the fourth. -/
def State.countRecent (s : State) (k : Nat) : State × Bool :=
  let l := s.recentTimes k
  ((s.withFlt { s.flt with recent := UMap.set (fun _ => []) s.flt.recent k l }), decide (l.length ≥ 4))

/-- The die of a region, and a region's number within its die. -/
def regionDie (r : Nat) : Nat := 1 + r / 2

/-- Contexts that have no core left stop with their VCC_ERR bit; those in progress on a core that left are abandoned. -/
def State.dropCores (s : State) : State :=
  (List.range 64).foldl (fun t c =>
    let x := t.ctx c
    if !x.run then t
    else
      let hit := match x.job with | some j => j.cores.any t.coreRetired | none => false
      let t1 := if hit then t.abandon c else t
      if (t1.ctx c).run && (t1.coresOf (t1.ctx c)).isEmpty then t1.ctxFail c else t1) s

/-- A region fault: its clusters and codec cores leave scheduling. -/
def State.regionFault (s : State) (r : Nat) : State :=
  if s.flt.regionsFaulted.contains r then s
  else
    ((s.withFlt { s.flt with regionsFaulted := r :: s.flt.regionsFaulted }).record (regionDie r) 0x14 3
      (srcOf (regionDie r) 0x08 0) 0 (info8 (1 + r * 16))).dropCores

/-- A codec core is retired; with both of a region the region faults. -/
def State.retireCore (s : State) (v : Nat) : State :=
  if s.flt.coresRetired.contains v then s
  else
    let s1 := (s.withFlt { s.flt with coresRetired := v :: s.flt.coresRetired }).dropCores
    if s1.flt.coresRetired.contains (v / 2 * 2) && s1.flt.coresRetired.contains (v / 2 * 2 + 1) then s1.regionFault (v / 2) else s1

/-- A core error or watchdog (R263): the snapshot, the reset, the pictures in progress; four resets within 1 s retire it. -/
def State.coreFault (s : State) (v : Nat) : State :=
  let die := 1 + v / 4
  let c := ((s.vcc v).cur).getD 0
  let s1 := (s.record die 0x12 2 (srcOf die 0x88 (v % 4)) 0 (info8 c)).setFlag (vccA v) VCC_STATUS_FAULT true
  let s2 := match (s.vcc v).cur with | some k => s1.abandon k | none => s1.vacate [v]
  let r := s2.countRecent (128 + v)
  if r.2 then r.1.retireCore v else r.1

/-- Faulted clusters of a region. -/
def State.faultedIn (s : State) (r : Nat) : Nat := (s.flt.clustersFaulted.filter (fun j => decide (j / 4 = r))).length
/-- Two cluster faults of a region make a region fault. -/
def State.checkRegion (s : State) (r : Nat) : State := if s.faultedIn r ≥ 2 then s.regionFault r else s
/-- A cluster fault: dispatch stops (Table 22-3). The engines' side is the caller's. -/
def State.markCluster (s : State) (k : Nat) : State :=
  if s.flt.clustersFaulted.contains k then s
  else
    ((s.withFlt { s.flt with clustersFaulted := k :: s.flt.clustersFaulted }).record (regionDie (k / 4)) 0x14 3
      (srcOf (regionDie (k / 4)) 0x08 0) 0 (info8 (k * 16))).checkRegion (k / 4)

end Sys2Proof.Machine
end

