-- ==== Sys2Proof/Machine/PipeOps.lean ====
section
/-! DEFINITION. Operations of the pipes over the state: slots and their settings in force, tables, rings, the reference
buffers, and where a pipe's stream goes next (R128 to R188). -/
namespace Sys2Proof.Machine

def State.slot (s : State) (pipe k : Nat) : PipeSlot := ((s.pipe pipe).slots[k]?).getD {}
def State.setSlot (s : State) (pipe k : Nat) (x : PipeSlot) : State :=
  s.setPipe pipe { s.pipe pipe with slots := (s.pipe pipe).slots.setIfInBounds k x }
/-- The slot that a stream is routed to: the lowest that names it (R151). -/
def State.slotFor (s : State) (pipe sid : Nat) : Option Nat :=
  (List.range 3).find? (fun k => s.fld (pipeA pipe) (FE_SCTRL_STREAM_ID.nth 0x40 k) = sid)
/-- A front-end setting in force of a slot. -/
def State.fe (s : State) (pipe k : Nat) (f : Fld) : Nat := s.inForce (pipeA pipe) (f.nth 0x40 k)
/-- A colour setting in force of a slot. -/
def State.col (s : State) (pipe k : Nat) (f : Fld) : Nat := s.inForce (pipeA pipe) (f.nth 0x60 k)
def State.feOn (s : State) (pipe k : Nat) (f : Fld) : Bool := s.fe pipe k f != 0
def State.colOn (s : State) (pipe k : Nat) (f : Fld) : Bool := s.col pipe k f != 0
/-- An event bit of a slot's COL_SCTRL. -/
def State.colEvt (s : State) (pipe k : Nat) (f : Fld) : State := s.setFlag (pipeA pipe) (f.nth 0x60 k) true

/-! ### Tables (Table 6-4, Table 7-5) -/

def feKey (k table bank i : Nat) : Nat := ((k * 8 + table) * 2 + bank) * 2 ^ 16 + i
def colKey (k table bank i : Nat) : Nat := (((if table = 3 then 0 else k) * 8 + table) * 2 + bank) * 2 ^ 20 + i
/-- An entry of the bank in use of a front-end table. -/
def State.feTab (s : State) (pipe k table i : Nat) : Nat :=
  (s.tget .fe pipe (feKey k table (if table = 0 then 0 else s.fe pipe k FE_SCTRL_TBANK) i)).toNat
/-- An entry of the bank in use of a slot's colour table. -/
def State.colTab (s : State) (pipe k table i : Nat) : Nat :=
  (s.tget .colour pipe (colKey k table (s.col pipe k (if table = 3 then COL_SCTRL_LUT_BANK else COL_SCTRL_CRV_BANK)) i)).toNat

/-- The descriptor in force of a slot (R159). -/
def State.mos (s : State) (pipe k : Nat) : Mos :=
  ⟨s.col pipe k MOS_D0_CELLS_01, s.col pipe k MOS_D1_CELLS_23, s.col pipe k MOS_CFG_PHASE_X, s.col pipe k MOS_CFG_PHASE_Y⟩

/-- MOS_CFG shows what the descriptor in force gives (R160). -/
def State.showMos (s : State) (pipe k : Nat) : State :=
  let b := pipeA pipe
  let m := s.mos pipe k
  ((s.setFld b (MOS_CFG_P4.nth 0x60 k) (b2n m.p4)).setFld b (MOS_CFG_GUIDE_C.nth 0x60 k) (b2n m.guideC)).setFld b
    (MOS_CFG_IR_PRESENT.nth 0x60 k) (b2n m.ir)

/-- The 16-bit value of a channel code among five registers' fields; 0 for the unused code 7. -/
def State.chan5 (s : State) (pipe k : Nat) (fs : List Fld) (c : Nat) : Nat :=
  match fs[c]? with | some f => s.fe pipe k f | none => 0
def blackFlds : List Fld := [FE_BL_RG_BL_R, FE_BL_RG_BL_G, FE_BL_BC_BL_B, FE_BL_BC_BL_C, FE_BL_IRP_BL_IR]
def whiteFlds : List Fld := [FE_WB_RG_WB_R, FE_WB_RG_WB_G, FE_WB_BC_WB_B, FE_WB_BC_WB_C, FE_WB_IR_WB_IR]

/-- The window stage's settings in force (R129 to R134). -/
def State.winSet (s : State) (pipe k : Nat) : WinSet :=
  { mos := s.mos pipe k, defEn := s.feOn pipe k FE_SCTRL_DEF_EN, dddEn := s.feOn pipe k FE_SCTRL_DDD_EN
    snrEn := s.feOn pipe k FE_SCTRL_SNR_EN, dddK := s.fe pipe k FE_DEF_DDD_K, scale := s.fe pipe k FE_NR_SNR_SCALE
    curve := (List.range 320).map (fun i => s.feTab pipe k 1 i % 65536)
    weights := (List.range 49).map (s.feTab pipe k 2), mapped := (s.slot pipe k).mapped }
def WinSet.inUse (c : WinSet) : Bool := c.defEn || c.dddEn || c.snrEn

/-! ### The lines that a pipe owns (R150) -/

def PipeSlot.ownLo (x : PipeSlot) : Nat := if x.half = 2 then x.height / 2 else 0
def PipeSlot.ownHi (x : PipeSlot) : Nat := if x.half = 1 then x.height / 2 - 1 else x.height - 1
def PipeSlot.owns (x : PipeSlot) (n : Nat) : Bool := decide (x.ownLo ≤ n ∧ n ≤ x.ownHi)
/-- The first and last line that reaches the pipe. -/
def PipeSlot.firstLine (x : PipeSlot) : Nat := max x.from' (if x.half = 2 then x.height / 2 - 8 else 0)
def PipeSlot.lastLine (x : PipeSlot) : Nat := if x.half = 1 then x.height / 2 + 7 else x.height - 1

/-- The highest line among rows. -/
def topRow (rows : List RawRow) : Nat := rows.foldl (fun m r => max m r.n) 0

/-! ### Walking the defect map (R131) -/

/-- Entries that count, and how many were out of order. -/
def walkMap : Option (Nat × Nat) → List Nat → List MapEntry × Nat
  | _, [] => ([], 0)
  | last, w :: t =>
    let e : MapEntry := ⟨bits w 31 28, bits w 27 14, bits w 13 0⟩
    if e.kind = 15 then ([], 0)
    else
      let r := walkMap (some (e.y, e.x)) t
      let late := match last with | some (y, x) => decide (e.y < y ∨ (e.y = y ∧ e.x ≤ x)) | none => false
      if late then (r.1, r.2 + 1)
      else if e.kind ≤ 2 then (e :: r.1, r.2) else r

/-! ### Rings (R178 to R180) -/

def up256 (n : Nat) : Nat := divCeil n 256 * 256
def up4096 (n : Nat) : Nat := divCeil n 4096 * 4096
/-- The proxy's box (R177). -/
def State.prxScale (s : State) (pipe k : Nat) : Nat :=
  let v := s.col pipe k OUT_CFG_PRX_SCALE
  if v = 1 then 2 else if v = 2 then 4 else 1
/-- Plane bytes of an output (Table 7-4). -/
def planeBytes (kind w h sc : Nat) : Nat :=
  match kind with
  | 0 => h * up256 (w * 8)
  | 1 => 2 * h * up256 (w * 2)
  | 2 => (h / sc) * up256 (w / sc) + divCeil (h / sc) 2 * up256 (w / sc)
  | _ => h * up256 (w * 2)
def ringFld : Nat → Fld
  | 0 => OUT_CFG_WALL_RING | 1 => OUT_CFG_BC_RING | 2 => OUT_CFG_PRX_RING | _ => OUT_CFG_IR_RING
def baseFld : Nat → Fld
  | 0 => WALL_BASE_ADDR | 1 => BC_BASE_ADDR | 2 => PRX_BASE_ADDR | _ => IR_BASE_ADDR
/-- The address of the buffer of frame F of an output. -/
def State.ringAddr (s : State) (pipe k kind frame w h : Nat) : Nat :=
  let n := 2 ^ s.col pipe k (ringFld kind)
  s.col pipe k (baseFld kind) * 256 + (frame % n) * up4096 (256 + planeBytes kind w h (s.prxScale pipe k))

/-- Which outputs of a slot are on (Table 7-1, R166). -/
def State.outOn (s : State) (pipe k kind : Nat) : Bool :=
  match kind with
  | 0 => s.colOn pipe k COL_SCTRL_WALL_WR
  | 1 => s.colOn pipe k COL_SCTRL_BC_EN
  | 2 => s.colOn pipe k COL_SCTRL_PRX_EN
  | _ => s.colOn pipe k COL_SCTRL_IR_EXP && (s.mos pipe k).ir && s.colOn pipe k COL_SCTRL_DM_EN

/-- Lines of an output that wait for DRAM (R180: 8 lines hold). -/
def PipeSlot.held (x : PipeSlot) (kind : Nat) : Nat := ((x.runs.filter (fun r => r.kind = kind)).map (fun r => r.waiting.length)).sum

/-- The last run satisfying p, changed. -/
def updRun (p : OutRun → Bool) (f : OutRun → OutRun) : List OutRun → List OutRun
  | [] => []
  | r :: t => if p r && !(t.any p) then f r :: t else r :: updRun p f t

/-- A line enters an output's buffer, or is dropped when 8 lines wait or the output is or was shed in this frame (R180, R465). -/
def PipeSlot.ringLine (x : PipeSlot) (shed : Bool) (kind : Nat) (flags : Nat) (l : RingLine) : PipeSlot :=
  let full := decide (x.held kind ≥ 8)
  { x with runs := updRun (fun r => r.kind = kind && !r.ended) (fun r =>
      if full || shed || r.shed then { r with dropped := r.dropped + 1, shed := r.shed || shed }
      else { r with waiting := r.waiting ++ [l], flags := r.flags ||| flags, lastLine := l.row
                    firstLine := match r.firstLine with | none => some l.row | some a => some a }) x.runs }

/-- The parts of a ring line go to memory (R38, R323). -/
def State.storeParts (s : State) (pipe : Nat) (parts : List (Nat × List Byte)) : State :=
  parts.foldl (fun t e => t.put (.pipe (Fin.ofNat 8 pipe)) e.1 e.2) s

/-- DRAM answers the oldest waiting writes of an output (R180). -/
def State.ringAnswer (s : State) (pipe k kind : Nat) (err : Bool) : Nat → State
  | 0 => s
  | n + 1 =>
    let x := s.slot pipe k
    match x.runs.find? (fun r => r.kind = kind && r.waiting ≠ []) with
    | none => s
    | some r =>
      match r.waiting with
      | [] => s
      | l :: rest =>
        let s1 := if err then s.colEvt pipe k COL_SCTRL_OUT_ERR else s.storeParts pipe l.parts
        let pop : List OutRun → List OutRun := fun rs => rs.map (fun q =>
          if q = r then { q with waiting := rest, err := q.err || err } else q)
        State.ringAnswer (s1.setSlot pipe k { s1.slot pipe k with runs := pop (s1.slot pipe k).runs }) pipe k kind err n

/-- A buffer head (Table 7-6). -/
def bufHead (h : Hdr) (flags fvNs first last dropped : Nat) (err half : Bool) : List Byte :=
  toBytes 16 { h with flags := flags }.toNat ++ toBytes 8 (fvNs / 1000000000) ++ toBytes 4 (fvNs % 1000000000) ++
    toBytes 2 first ++ toBytes 2 last ++ toBytes 4 dropped ++ toBytes 4 (b2n err + 2 * b2n half) ++ toBytes 24 0

/-! ### The reference (R139 to R141) -/

def State.tnr (s : State) (pipe : Nat) : Tnr := (s.pipe pipe).tnr
def State.setTnr (s : State) (pipe : Nat) (t : Tnr) : State := s.setPipe pipe { s.pipe pipe with tnr := t }
def refPitch (w : Nat) : Nat := up256 (w * 2)
def State.refBase (s : State) (pipe buf : Nat) : Nat :=
  s.fld (pipeA pipe) (if buf = 0 then FE_REF_BASE0_ADDR else FE_REF_BASE1_ADDR) * 256
def Tnr.valid (t : Tnr) (buf : Nat) : List Nat := if buf = 0 then t.valid0 else t.valid1
/-- LEVEL and HWM of the write buffer. -/
def State.showRef (s : State) (pipe : Nat) : State :=
  let n := (s.tnr pipe).writes.length
  (s.setFld (pipeA pipe) FE_REFBUF_LEVEL n).maxFld (pipeA pipe) FE_REFBUF_HWM n
/-- TNR works on a slot (R136). -/
def State.tnrOn (s : State) (pipe k : Nat) : Bool :=
  s.fld (pipeA pipe) FE_CTRL_TNR_SLOT = k && s.feOn pipe k FE_SCTRL_TNR_EN

/-! ### The next unit of a stream -/

/-- The head whose direct layer in force takes a stream. -/
def State.headOf (s : State) (sid : Nat) : Option Nat :=
  (List.range 4).find? (fun h => (List.range 16).any (fun l =>
    s.inForceFlag (headA h) (LYR_CTRL_EN.nth 0x18 l) && s.inForce (headA h) (LYR_CTRL_TYPE.nth 0x18 l) = 0 &&
      s.inForce (headA h) (LYR_CTRL_STREAM_ID.nth 0x18 l) = sid))

/-- Packets at the front that no command of a head takes: only lines and control packets matter to it. -/
def skipFree : List Pkt → List Pkt
  | [] => []
  | k :: t => match k.body with | .line _ => k :: t | .control _ _ => k :: t | _ => skipFree t

/-- A control packet leaves its stream with entries that nobody applied (R27, R28): `die` and `src` are the consumer's. -/
def State.consume (s : State) (die src : Nat) (k : Pkt) : State :=
  match k.body with
  | .control (e :: _) _ => s.record die 0x04 1 src e.addr (info8 k.h.sid)
  | _ => s

/-- The port whose stream this is. -/
def State.portOf (s : State) (sid : Nat) : Option Nat :=
  (List.range 12).find? (fun p => s.fld (campA p) CAMP_STREAM_STREAM_ID = sid && s.flag (campA p) CAMP_CTRL_EN &&
    !s.flag (campA p) CAMP_STATUS_MEMBER)
/-- The other pipe of a gang of four's stream (R94). -/
def State.partner (s : State) (pipe sid : Nat) : Option Nat :=
  match s.portOf sid with
  | some p =>
    let c := s.camp p
    if c.gang ≠ 2 then none else if c.pipe = pipe then some c.pipeB else if c.pipeB = pipe then some c.pipe else none
  | none => none

/-- A packet goes on from a pipe: to the head that takes its stream, over a working bridge (R13), else its stream ends here. -/
def State.sendOn (s : State) (pipe : Nat) (k : Pkt) : State :=
  match s.headOf k.h.sid with
  | some h =>
    if s.noBridge (pipeDie pipe) then s else s.setHead h { s.head h with inQ := skipFree ((s.head h).inQ ++ [k]) }
  | none => s.consume (pipeDie pipe) (srcOf (pipeDie pipe) 0x80 (pipe % 4)) k
/-- Packets of a stream that wait at a pipe are no longer waiting. -/
def State.dropJoin (s : State) (pipe sid : Nat) : State :=
  s.setPipe pipe { s.pipe pipe with join := (s.pipe pipe).join.filter (fun k => k.h.sid ≠ sid) }
/-- Packets of a stream that wait at a pipe. -/
def State.joining (s : State) (pipe sid : Nat) : List Pkt := (s.pipe pipe).join.filter (fun k => k.h.sid = sid)
def Pkt.isControl (k : Pkt) : Bool := match k.body with | .control _ _ => true | _ => false
/-- The entries that neither pipe of a gang of four has applied: one packet goes on with them, if there are any (R26, R27). -/
def Pkt.meet (a b : Pkt) : List Pkt :=
  match a.body, b.body with
  | .control x r, .control y _ =>
    let es := x.filter (fun e => y.contains e)
    if es = [] then [] else [⟨a.h, .control es r⟩]
  | _, _ => []
/-- A packet leaves a pipe. The two copies of a gang of four's control packet become one again: the pipe that is first waits with
what follows until the other's copy has come, so that the packet keeps its place in the stream (R26). -/
def State.pipeOut (s : State) (pipe : Nat) (k : Pkt) : State :=
  let sid := k.h.sid
  match s.partner pipe sid with
  | none => (s.joining pipe sid ++ [k]).foldl (fun t q => t.sendOn pipe q) (s.dropJoin pipe sid)
  | some other =>
    if s.joining pipe sid ≠ [] then s.setPipe pipe { s.pipe pipe with join := (s.pipe pipe).join ++ [k] }
    else if !k.isControl then s.sendOn pipe k
    else
      match s.joining other sid with
      | [] => s.setPipe pipe { s.pipe pipe with join := (s.pipe pipe).join ++ [k] }
      | c :: rest =>
        let free := rest.takeWhile (fun q => !q.isControl)
        let s1 := (c.meet k).foldl (fun t q => t.sendOn pipe q) (s.dropJoin other sid)
        let s2 := free.foldl (fun t q => t.sendOn other q) s1
        s2.setPipe other { s2.pipe other with join := (s2.pipe other).join ++ rest.drop free.length }

/-- Late markers at the front pass through (R103). -/
def State.passLate (s : State) (pipe : Nat) : List Pkt → State
  | [] => s.setPipe pipe { s.pipe pipe with inQ := [] }
  | k :: t =>
    match k.body with
    | .late => State.passLate (s.pipeOut pipe k) pipe t
    | _ => s.setPipe pipe { s.pipe pipe with inQ := k :: t }
/-- The pipe's queue with late markers gone from its front. -/
def State.settle (s : State) (pipe : Nat) : State := s.passLate pipe (s.pipe pipe).inQ
/-- The pipe has dealt with the packet in front. -/
def State.popPipe (s : State) (pipe : Nat) : State := s.passLate pipe ((s.pipe pipe).inQ.drop 1)

/-- The packet in front. -/
def State.pipeFront (s : State) (pipe : Nat) : Option Pkt := (s.pipe pipe).inQ.head?

/-- Control packets of a slot that follow lines below n leave (R26). -/
def State.freeBehind (s : State) (pipe k n : Nat) : State :=
  let x := s.slot pipe k
  ((x.behind.filter (fun e => decide (e.1 < n))).map (·.2)).foldl (fun t q => t.pipeOut pipe q)
    (s.setSlot pipe k { x with behind := x.behind.filter (fun e => decide (n ≤ e.1)) })

/-- The full time of a stamp's low 32 bits: the latest not after now (R19). -/
def State.fullTime (s : State) (t : Nat) : Nat := s.nowNs - ((s.nowNs + 2 ^ 32 - t % 2 ^ 32) % 2 ^ 32)

end Sys2Proof.Machine
end

