-- ==== Sys2Proof/Machine/CodecCmds.lean ====
section
/-! DEFINITION. The commands of the codec cores (R234 to R277), and their registers. -/
namespace Sys2Proof.Machine

/-! ### Registers -/

/-- VDC_CLR (R277). -/
def State.vdcClear (s : State) (v : Nat) : State :=
  ((s.wr (vccA v + VDC_ERR) 0).wr (vccA v + VDC_BADADDR_LO) 0).wr (vccA v + VDC_BADADDR_HI) 0

/-- Writes of VCC registers with an effect of their own; the context registers exist in VCC0 only. -/
def vccWrite (x : WCtx) (v off a : Nat) (val m : Word) (s : State) : State × WRes :=
  if v ≠ 0 ∧ VCC_CTXBASE ≤ off ∧ off ≤ VCC_ERR_HI then okW s
  else if off = VCC_CTXCMD then
    let (op, c) := (bits (val &&& m).toNat 27 24, bits (val &&& m).toNat 5 0)
    if s.codec.cmd.isSome ∧ 1 ≤ op ∧ op ≤ 4 then okW (s.ctxCmdWrite op c)
    else
      let (s1, r) := s.genWrite x a val m
      (s1.ctxCmdWrite op c, r)
  else if off = VDC_CLR then okW (if (val &&& m).toNat.testBit 0 then s.vdcClear v else s)
  else s.genWrite x a val m
/-- Reads of the context registers of other instances. -/
def vccRead (v off : Nat) (s : State) : Option (Word × State) :=
  if v ≠ 0 ∧ VCC_CTXBASE ≤ off ∧ off ≤ VCC_ERR_HI then some (0, s) else none

/-- A write of VCC_CTXCMD with an OP. -/
def State.ctxOp (s : State) (r : Req) (op : Nat) (c : Nat) : State :=
  (vccWrite (ctxOf r) 0 VCC_CTXCMD (vccA 0 + VCC_CTXCMD) (wd (op * 2 ^ 24 + c)) 0xFFFFFFFF s).1

/-- CTX_START: OP 1 (R240, R241, R267). -/
def execCtxStart (r : Req) (ctx : Fin 64) (s : State) : Out3 := onLive s fun s => s.ctxOp r 1 ctx
/-- CTX_STOP: OP 2 (R240). -/
def execCtxStop (r : Req) (ctx : Fin 64) (s : State) : Out3 := onLive s fun s => s.ctxOp r 2 ctx
/-- CTX_UPDATE: OP 3 (R240). -/
def execCtxUpdate (r : Req) (ctx : Fin 64) (s : State) : Out3 := onLive s fun s => s.ctxOp r 3 ctx
/-- CTX_IDR: OP 4 on an encode context (R240, R244). -/
def execCtxIdr (r : Req) (ctx : Fin 64) (s : State) : Out3 := onLive s fun s => s.ctxOp r 4 ctx
/-- CTX_RESYNC: OP 4 on a decode context (R266). -/
def execCtxResync (r : Req) (ctx : Fin 64) (s : State) : Out3 := onLive s fun s => s.ctxOp r 4 ctx

/-! ### Taking frames -/

/-- SOURCE_POLL: the heads of the expected buffer are read (R242, R243); a poisoned read shows nothing; a context that is shed takes
nothing (R465). A frame that is taken has its motion fields copied: `fieldMoved` when a field's head changed during the copy,
`fieldPoison` when a field was read with poison (R250). -/
def execSourcePoll (ctx : Fin 64) (poison fieldMoved fieldPoison : Bool) (s : State) : Out3 :=
  onLive s fun s =>
    let x := s.ctx ctx
    if !x.run || x.dec || x.stopping || poison then s
    else
      let r := s.ctxReq ctx
      let e := x.expect.getD (s.firstFrame r x.p)
      let a := srcBuf x.p e
      let got := s.readHeads r x.p a
      let s := got.2
      match got.1 with
      | none => s
      | some hs =>
        let fs := hs.map headFrameOf
        let skip := some ((e + at' x.p 40 1) % 2 ^ 32)
        match fs.filter (fun f => earlier32 e f) with
        | f :: t => s.skipFrame ctx 1 (some (t.foldl (fun m g => if earlier32 m g then g else m) f))
        | [] =>
          if hs.any headErrOf && fs.contains e then s.skipFrame ctx 1 skip
          else if s.isShed 0 ctx && fs.contains e then s.skipFrame ctx 1 skip
          else if fs.all (fun f => f = e) && fs ≠ [] then
            let head0 := s.take r a 64
            let f := head0.2.2.copyFields ctx (takenOf x.p a e head0.1 hs) fieldMoved fieldPoison
            let s1 := f.2.2.setCtx ctx ({ x with expect := some e }.take f.1)
            let b := vccA ((s1.coresOf x).headD 0)
            let s2 := if f.2.1 then s1.incFld b VCC_FLDCNT_FIELD_BAD 1 else s1
            (if f.1.stale then s2.incFld b VCC_FLDCNT_FIELD_STALE 1 else s2).setStat ctx 292 4 e
          else s.setCtx ctx { x with expect := some e }

/-! ### Coding -/

/-- A context's first ready picture begins on its cores: its heads and its source samples are read (R235, R243, R245, R247). -/
def State.beginPicture (s : State) (c : Nat) (cores : List Nat) (poison : Bool) : State :=
  let x := s.ctx c
  match x.ready with
  | [] => s
  | t :: rest =>
    let s0 := s.setCtx c { x with ready := rest }
    let free := at' t.p 136 4 - (x.wr - s.ctxStat c 264 8)
    if free < at' t.p 64 4 / 8 + 4096 then
      let s1 := (s0.incStat c 276 1).incStat c 280 1
      let y := s1.ctx c
      ((s1.setCtx c { y with skipBefore := y.skipBefore + 1, sinceIdr := y.sinceIdr - 1, needIdr := y.needIdr || t.type = 0 }).vacate
        cores).boundary c
    else
      let r := s.ctxReq c
      let s1 := s0.occupy c cores
      let heads := s1.readHeads r t.p t.src
      let pic := heads.2.srcPic r t.p t.src
      let none' : SrcPic := ⟨0, 0, [], [], []⟩
      let s2 := pic.2.setCtx c { pic.2.ctx c with job := some (.enc t (pic.1.getD none') cores) }
      if poison || !s1.headsShow r t.p t.src t.frame || pic.1.isNone then s2.abandon c
      else if t.noMfe then s2.incFld (vccA (cores.headD 0)) VCC_CNT2_NO_MFE 1 else s2

/-- PICTURE_START: at a picture boundary a core takes the highest-priority ready picture; one that several cores share starts
when all of them are free (R247). `poison`: a read of the source is answered with poison. -/
def execPictureStart (core : Fin 8) (poison : Bool) (s : State) : Out3 :=
  onLive s fun s =>
    if !s.coreOk core || (s.vcc core).cur.isSome then s
    else
      match s.bestCtx core with
      | none => s.setVcc core { s.vcc core with waitFor := none }
      | some c =>
        if (s.ctx c).dec then s
        else
          let cores := s.coresOf (s.ctx c)
          if cores.all (fun v => s.coreFree v c) then s.beginPicture c cores poison
          else s.setVcc core { s.vcc core with waitFor := some c }

/-- The access-unit record (Table 10-6). -/
def auRecord (x : VCtx) (t : Taken) (len target : Nat) (exh : Option Nat) (events qp type : Nat) : List Byte :=
  toBytes 16 t.hdr ++ toBytes 8 x.wr ++ toBytes 4 len ++ toBytes 4 (ofSigned 32 t.poc) ++ toBytes 1 type ++ toBytes 1 qp ++
    toBytes 2 events ++ toBytes 4 target ++ toBytes 4 (exh.getD 0xFFFFFFFF) ++ toBytes 4 x.skipBefore ++
    toBytes 6 (t.fvNs / 1000000000) ++ toBytes 4 (t.fvNs % 1000000000) ++ toBytes 6 0

/-- The pose record of a picture, as read when it is coded. -/
def State.poseFor (s : State) (c : Nat) (t : Taken) : Option (List Byte) × State :=
  if optOn t.p 5 then s.poseRecord (s.ctxReq c) (at' t.p 120 8) (bits t.hdr 127 118) t.frame else (none, s)
/-- How far a QP step goes, from 1 to DQP_ROW: open (notes/assumptions/81.md). -/
def State.qpStep (s : State) (p : List Byte) (r : Nat) : Nat := 1 + Config.freeValue (s.free + r) % max 1 (at' p 45 1)
/-- The access unit of a picture. -/
def State.coded (s : State) (c : Nat) (t : Taken) (src : SrcPic) (cores : List Nat) (k : CodedPic) : CodedAu :=
  codePicture (s.ctxFw t.p) (s.ctx c) t src cores.length
    (poseBody (bits t.hdr 127 118) (bits t.hdr 69 54) t.frame (s.poseFor c t).1) (s.qpStep t.p) k

/-- A coded picture leaves (R258, R260 to R262): its access unit, its record, WR_PTR, the event; its motion and its place among the
references are kept. The TYPE of an I picture that is no IDR is not stated, nor the rounding of the mean QP: free values. -/
def State.finishPicture (s : State) (c : Nat) (t : Taken) (src : SrcPic) (cores : List Nat) (k : CodedPic) : State :=
  let x := s.ctx c
  let a := s.coded c t src cores k
  let pose := s.poseFor c t
  let spent := 8 * a.bytes.length
  if spent > a.cap then s
  else
    let exh := a.exhausted t.p
    let ev := b2n exh.isSome + 2 * b2n t.noMfe + 4 * b2n t.stale + 8 * b2n a.raised + 16 * b2n (optOn t.p 5 && pose.1.isNone)
    let u0 := { pose.2 with free := s.free + ctuRows t.p }
    let type := if t.type = 3 then (u0.fresh 4).toNat else t.type
    let q := u0.usedFree.openQuot ((a.ctuQps t.p).sum : Nat) (max 1 (ctuCount t.p) : Nat)
    let rec0 := auRecord x t a.bytes.length a.target exh ev q.1.toNat (type + tidOf t * 16)
    let s1 := q.2.ctxOut c a.bytes
    let s2 := s1.put (s.ctxReq c) (at' t.p 144 8 + 64 * (x.auCount % 2 ^ at' t.p 140 1)) rec0
    let b := perPicture t.p (at' t.p 52 4)
    let peak := perPicture t.p (at' t.p 56 4)
    let debt := max (-(b : Int)) (x.debt + spent - tRaw t)
    let level := match at' t.p 44 1 with | 0 => x.level + spent - b | 1 => x.level + spent - peak | _ => x.level
    let s3 := ((s2.setStat c 256 8 (x.wr + a.bytes.length)).setStat c 272 4 (x.auCount + 1)).setStat c 284 4 (ofSigned 32 debt)
    let s5 := ((s3.setStat c 288 4 level).ctxBit VCC_EVT_LO_EVT VCC_EVT_HI_EVT c true).workSave c 0
    let s6 := cores.foldl (fun u v =>
      let w := u.incFld (vccA v) VCC_CNT_PICTURES 1
      let w1 := if exh.isSome then w.incFld (vccA v) VCC_CNT_EXHAUSTED 1 else w
      let j := (cores.findIdx? (· = v)).getD 0
      w1.setVcc v { w1.vcc v with ctus := (w1.vcc v).ctus + (shareOf t.p cores.length j).length }) s5
    let class' := if t.type = 3 then 0 else t.type
    let depth := s.fld (vccA (cores.headD 0)) VCC_STATUS_DEPTH
    let s7 := s6.setCtx c { s6.ctx c with
      job := none, wr := x.wr + a.bytes.length, auCount := x.auCount + 1, debt := debt, level := level, skipBefore := 0
      refs := (t.poc :: (if t.type = 0 then [] else x.refs)).take (picStore t.p - 1)
      lastQp := (class', a.qp0, spent) :: x.lastQp.filter (fun e => e.1 ≠ class')
      units := searchUnits t depth a.qp0 (activeRefs t.p t.type t.poc x.refs) x.units [] k.units }
    (s7.vacate cores).boundary c

/-- PICTURE_DONE: a core has coded its picture; heads that changed or poisoned reads abandon it (R245, R261). -/
def execPictureDone (core : Fin 8) (coded : CodedPic) (poison : Bool) (s : State) : Out3 :=
  onLive s fun s =>
    match (s.vcc core).cur with
    | none => s
    | some c =>
      match (s.ctx c).job with
      | some (.enc t src cores) =>
        let r := s.ctxReq c
        let ok := s.headsShow r t.p t.src t.frame
        let s := (s.readHeads r t.p t.src).2
        if poison || !ok then s.abandon c else s.finishPicture c t src cores coded
      | _ => s

/-- CORE_WATCHDOG: a core's picture is overdue, or it reports an internal error (R263). -/
def execCoreWatchdog (core : Fin 8) (s : State) : Out3 :=
  onLive s fun s => if s.flag (vccA core) VCC_STATUS_FAULT then s else s.coreFault core
/-- CORE_RESET_DONE: the core is back in service, unless it is retired (R263). -/
def execCoreResetDone (core : Fin 8) (s : State) : Out3 :=
  onLive s fun s => if s.coreRetired core then s else s.setFlag (vccA core) VCC_STATUS_FAULT false

/-! ### Decoding -/

/-- An error of a decode picture: the first is held, a later one sets NESTED (R277). -/
def State.vdcError (s : State) (v code c ctu : Nat) : State :=
  let b := vccA v
  if code = 0 then s
  else if s.fld b VDC_ERR_CODE ≠ 0 then s.setFlag b VDC_ERR_NESTED true
  else ((s.setFld b VDC_ERR_CODE code).setFld b VDC_ERR_CTX c).setFld b VDC_ERR_CTU ctu

/-- An access unit is dropped (R268, R273, R274). -/
def State.dropAu (s : State) (c v len code : Nat) : State :=
  let x := s.ctx c
  let s1 := s.setCtx c { x with pos := x.pos + len, aus := x.aus ++ [(x.pos, x.pos + len, true)] }
  (((s1.incStat c 276 1).incFld (vccA v) VDC_CNT3_DROPPED 1).vdcError v code c 0).moveRd c

/-- An access unit of a decode context is begun: its parameter sets are read; a picture starts on its cores, or the unit is dropped
(R265, R268, R273, R274, R276). `len` bytes from the context's place hold the NAL units ns. -/
def State.beginAu (s : State) (core c len : Nat) (ns : List Nal) : State :=
  let x := s.ctx c
  let ended := ns.any (fun n => n.type = 36 || n.type = 37)
  let (y, kind) := x.readAu x.pos len ns
  match kind with
  | .empty =>
    (s.setCtx c { y with pos := x.pos + len, aus := x.aus ++ [(x.pos, x.pos + len, true)], afterEos := x.afterEos || ended }).moveRd c
  | .drop code => (s.setCtx c { y with afterEos := x.afterEos || ended }).dropAu c core len code
  | .pic i =>
    let cores := if i.parallel then s.coresOf x else [core]
    if !cores.all (fun v => s.coreFree v c) then s.setVcc core { s.vcc core with waitFor := some c }
    else
      let texp := divCeil i.sps.ctus (max 1 cores.length) * 4640 + 24000
      let irap := decide (16 ≤ i.nut)
      -- RASL, RADL and sub-layer non-reference pictures do not carry the POC on (H.265 8.3.1)
      let anchor := i.tid = 0 && !(decide (6 ≤ i.nut) && decide (i.nut ≤ 9)) && !(decide (i.nut < 16) && i.nut % 2 = 0)
      let z : VCtx := { y with
        pos := x.pos + len, waitIrap := false, aus := x.aus ++ [(x.pos, x.pos + len, false)]
        job := some (.dec i texp cores), prevPoc := if anchor then i.poc else x.prevPoc
        noRasl := if irap then i.noRasl else x.noRasl, afterEos := ended }
      cores.foldl (fun t v => t.setFld (vccA v) VDC_TEXP_CYCLES texp) ((s.setCtx c z).occupy c cores)

/-- DECODE_PICTURE_START: the core takes the next access unit of the context that it serves, which lies whole before WR_PTR (R268). -/
def execDecodePictureStart (core : Fin 8) (s : State) : Out3 :=
  onLive s fun s =>
    if !s.coreOk core || (s.vcc core).cur.isSome then s
    else
      match s.bestCtx core with
      | none => s.setVcc core { s.vcc core with waitFor := none }
      | some c =>
        let x := s.ctx c
        let w := s.ctxStat c 256 8
        if !x.dec then s
        else if w < x.lastWr ∨ w > x.rd + at' x.p 24 4 then (s.vdcError core 3 c 0).resync c
        else if w ≤ x.pos then s.setCtx c { x with lastWr := w }
        else
          let b := s.inBytes c w
          let au := firstAu false (scanNals 0 0 none b.1)
          (b.2.setCtx c { x with lastWr := w }).beginAu core c (au.2.getD b.1.length) au.1

/-- Where the samples of a picture's CTUs come from (R272, R273, R275): concealed ones from the slice's first reference, else from
the picture decoded before, else mid-grey; mid-grey where a reference was poisoned. CTUs that no slice covers are concealed. -/
def ctuSource (i : DecInfo) (dpb : List DpbPic) (prev : Option DecodedPic) (done : List Nat) (hidden : List (Nat × SliceHdr))
    (badRef : List Nat) (ctu : Nat) : CtuSrc :=
  let before := match prev with | some o => CtuSrc.copy o | none => .grey
  match hidden.find? (fun e => e.1 = ctu) with
  | some e => match firstRef i.sps.lsbBits i.poc dpb e.2 with | some o => .copy o | none => before
  | none => if badRef.contains ctu then .grey else if done.contains ctu then .data else before

/-- A decode picture ends: concealment, flags, the DPB, output order (R269 to R276). Each error goes to the core that decodes its CTU
(R277). -/
def State.finishDecode (s : State) (core c : Nat) (i : DecInfo) (cores : List Nat) (d : DecRun) (watchdog : Bool) : State :=
  let x := s.ctx c
  let a := s.ctxAddr c
  let h := (i.segs.findSome? (·.hdr)).getD ⟨true, false, false, 0, 2, true, 0, ⟨[], []⟩, [], 0⟩
  let room := x.makeRoom i h
  let order := i.tiles.flatten
  let base : DecodedPic := { width := i.sps.w, height := i.sps.h, win := i.sps.win, chroma := i.sps.chroma, depthY := i.sps.depthY
                             depthC := i.sps.depthC, ctb := 2 ^ i.sps.ctbLog, y := d.y, cb := d.cb, cr := d.cr, poc := i.poc
                             type := 2 - ((i.segs.filterMap (·.hdr)).map (·.type)).foldl min 2, tid := i.tid, vui := i.sps.vui }
  let gone := (refsOfHdr i.poc h).filter (fun r => r.cur && !room.1.dpb.any (r.names i.sps.lsbBits))
  let gen : List DpbPic := gone.map (fun r => ⟨base.generated r.poc, i.off, 0, 0, 0, 0, false, true, r.long, 0⟩)
  let dpb := room.1.dpb ++ gen
  let (done, hidden, faults) := segResults order (ctxMayUse x.p a) i.segs d.segs
  let src := ctuSource i dpb x.prevPic done hidden d.badRef
  let n := (order.filter (fun k => src k != .data)).length
  let pic := base.concealed src (Config.freeValue s.free)
  let missing := decide (gone ≠ [])
  let outside := faults.filterMap (fun f => f.addr.map (fun b => (i.coreOf cores f.ctu, b)))
  let poisoned := faults.any (fun f => f.code = 5) || decide (d.badRef ≠ [])
  let all := (if missing then [(⟨4, 0, none⟩ : DecFault)] else []) ++ faults ++ d.badRef.map (fun k => ⟨5, k, none⟩) ++
    (if watchdog then [⟨2, 0, none⟩] else [])
  let conc := decide (n > 0) || watchdog || missing
  let flags := (if conc then fCONCEALED else 0) ||| (if missing then fSUBSTITUTED else 0) ||| (if poisoned then fPOISONED else 0)
  let ev := b2n conc + 2 * b2n missing + 4 * b2n watchdog + 8 * b2n (outside ≠ []) + 16 * b2n poisoned
  let shown := h.out
  let e : DpbPic := ⟨pic, i.off, flags, ev, (all.head?.map (·.code)).getD 0, n, shown, true, false, 0⟩
  let y : VCtx := { { room.1 with dpb := dpb }.enter i.sps e with prevPic := some pic, job := none }
  let y1 := if shown then y else y.auDone i.off
  let s1 := all.foldl (fun t f => t.vdcError (if f.code = 2 ∨ f.code = 4 then core else i.coreOf cores f.ctu) f.code c f.ctu)
    ({ s with free := s.free + 1 }.setCtx c y1)
  let s2 := if watchdog then s1.incFld (vccA core) VDC_CNT2_WATCHDOGS 1 else s1
  let s3 := if missing then s2.incFld (vccA core) VDC_CNT2_SUBSTITUTED 1 else s2
  let s4 := outside.foldl (fun (t : State) (o : Nat × Nat) =>
    let b := vccA o.1
    let u := t.incFld b VDC_CNT3_BOUND_ERRS 1
    if u.rd (b + VDC_BADADDR_LO) == 0 && u.rd (b + VDC_BADADDR_HI) == 0 then
      (u.setFld b VDC_BADADDR_LO_ADDR (o.2 % 2 ^ 32)).setFld b VDC_BADADDR_HI_ADDR (o.2 / 2 ^ 32)
    else u) s3
  let s5 := if room.2 = 0 then s4
    else (s4.incStat c 276 room.2).incFld (vccA core) VDC_CNT3_DROPPED room.2
  (((((s5.workSave c 0).vacate cores).moveRd c).decPump c)).boundary c

/-- The decode picture in progress on a core. -/
def State.decJob (s : State) (core : Nat) : Option (Nat × DecInfo × List Nat) :=
  match (s.vcc core).cur with
  | none => none
  | some c => match (s.ctx c).job with | some (.dec i _ cores) => some (c, i, cores) | _ => none

/-- DECODE_PICTURE_DONE: a picture is decoded. -/
def execDecodePictureDone (core : Fin 8) (run : DecRun) (s : State) : Out3 :=
  onLive s fun s =>
    match s.decJob core with
    | some (c, i, cores) => s.finishDecode core c i cores run false
    | none => s
/-- DECODE_WATCHDOG: at 2 x T_exp the picture is stopped; the CTUs that no slice has finished are concealed (R276). -/
def execDecodeWatchdog (core : Fin 8) (run : DecRun) (s : State) : Out3 :=
  onLive s fun s =>
    match s.decJob core with
    | some (c, i, cores) => s.finishDecode core c i cores run true
    | none => s
/-- DECODE_STOP_TIMEOUT: the hardware does not stop within 100 µs: the core is reset; the picture is not output (R276, R277). -/
def execDecodeStopTimeout (core : Fin 8) (s : State) : Out3 :=
  onLive s fun s =>
    match s.decJob core with
    | some (c, _, _) =>
      ((((s.incStat c 276 1).incFld (vccA core) VDC_CNT3_DROPPED 1).incFld (vccA core) VDC_CNT2_WATCHDOGS 1).vdcError core 2 c 0).coreFault
        core
    | none => s

/-- The next ready picture of a context is published: head, record, event, RD_PTR (R270, R271). -/
def State.publish (s : State) (c : Nat) (o : OutPic) (rest : List OutPic) : State :=
  let x := s.ctx c
  let h : Hdr := { sid := at' x.p 8 2, cls := 1, frame := o.k, line := 0, calId := 0xFFFF, flags := o.d.flags, time := s.time32 }
  let a := at' x.p 32 8 + o.k % 2 ^ at' x.p 12 1 * at' x.p 40 4
  let s1 := s.put (s.ctxReq c) a (bufHead h o.d.flags s.nowNs 0 (o.d.pic.outH - 1) 0 false false)
  let r := toBytes 16 h.toNat ++ toBytes 8 o.d.off ++ toBytes 4 (ofSigned 32 o.d.pic.poc) ++
    toBytes 1 (o.d.pic.type + o.d.pic.tid * 16) ++ toBytes 1 o.d.code ++ toBytes 2 o.d.events ++ toBytes 4 o.d.conc ++ toBytes 28 0
  let s2 := s1.put (s.ctxReq c) (at' x.p 88 8 + 64 * (o.k % 2 ^ at' x.p 96 1)) r
  let s3 := (s2.setStat c 272 4 (o.k + 1)).ctxBit VCC_EVT_LO_EVT VCC_EVT_HI_EVT c true
  let v := (s.coresOf x).headD 0
  let s4 := s3.incFld (vccA v) VDC_CNT_PICTURES 1
  let s5 := if o.d.flags &&& fCONCEALED ≠ 0 then (s4.incStat c 280 1).incFld (vccA v) VDC_CNT_CONCEALED 1 else s4
  let y := { (s5.ctx c).auDone o.d.off with outQ := rest, published := o.k + 1, paceDue := false }
  (((s5.setCtx c y).moveRd c).decPump c).maybeHalt c

/-- PICTURE_PUBLISH: bodies are written where buffers are free, and the next ready picture is published. With PACE_EN it needs a
pacing event. -/
def execPicturePublish (ctx : Fin 64) (s : State) : Out3 :=
  onLive s fun s =>
    let s := s.decPump ctx
    let x := s.ctx ctx
    match x.outQ with
    | [] => s
    | o :: rest =>
      if !x.run || !x.dec || !o.ready || ((at' x.p 13 1).testBit 2 && !x.paceDue) then s else s.publish ctx o rest

/-- VDC_CLEAR: a write of VDC_CLR (R277). -/
def execVdcClear (r : Req) (core : Fin 8) (value : Word) (s : State) : Out3 :=
  onLive s fun s => (vccWrite (ctxOf r) core VDC_CLR (vccA core + VDC_CLR) value 0xFFFFFFFF s).1

/-! ### Firmware (R253) -/

/-- A payload that passes every check of Table 10-4. -/
def vcfwOk (p : List Byte) : Bool :=
  decide (p.length ≥ 32) && p.take 4 = [0x56, 0x43, 0x46, 0x57] && at' p 4 2 = 1 && at' p 6 2 = 1 &&
    decide (at' p 12 4 % 4 = 0 ∧ at' p 12 4 ≤ 65536 ∧ at' p 16 4 ≤ 32768) && decide (p.length = 32 + at' p 12 4 + at' p 16 4) &&
    decide (at' p 20 4 < at' p 12 4) && at' p 24 4 = crc32c (p.drop 32) && at' p 28 4 = 0
/-- A core is given a payload: its images are loaded and it runs, or it stays stopped with FW_BAD. -/
def State.loadCore (s : State) (v : Nat) (p : List Byte) : State :=
  let b := vccA v
  if vcfwOk p then
    ((((s.setVcc v { s.vcc v with imem := (p.drop 32).take (at' p 12 4), dmem := p.drop (32 + at' p 12 4), entry := at' p 20 4 }).setFld b
      VCC_FWID_FW_ID (at' p 8 4))).setFlag b VCC_STATUS_SP_RUN true).setFlag b VCC_STATUS_FW_BAD false
  else (s.setFlag b VCC_STATUS_FW_BAD true).setFlag b VCC_STATUS_SP_RUN false

end Sys2Proof.Machine
end

