-- ==== Sys2Proof/Machine/Dma.lean ====
section
/-! DEFINITION. The hub DMA (R326 to R339). -/
namespace Sys2Proof.Machine

/-! ### States and sets -/

/-- STATE of a channel: 0 IDLE, 1 RUN, 2 DRAIN, 3 PAUSED, 4 ERROR. -/
def State.dmaState (s : State) (n : Nat) : Nat := s.fld (dmaA n) DMA_STATUS_STATE
def State.dmaPaused (s : State) (n : Nat) : Bool := s.flag (dmaA n) DMA_CTRL_PAUSE || s.flag dmagA DMA_GCTL_PAUSE_ALL
def State.dmaTo (s : State) (n st : Nat) : State :=
  (s.setFld (dmaA n) DMA_STATUS_STATE st).setBit dmagA DMA_BUSY_BUSY n (st != 0)

/-- Start of a row on the source and on the destination side (R326). -/
def DmaSet.srcRow (d : DmaSet) (i : Nat) : Nat := (((d.src : Int) + i * d.sStride.toInt) % 2 ^ 40).toNat
def DmaSet.dstRow (d : DmaSet) (i : Nat) : Nat := (((d.dst : Int) + i * d.dStride.toInt) % 2 ^ 40).toNat

/-- A set as the seven words at channel offsets 0x008 to 0x020. -/
def DmaSet.word (d : DmaSet) (k : Nat) : Word :=
  match k with
  | 0 => wd d.src
  | 1 => wd d.dst
  | 2 => wd (d.dst / 2 ^ 32 % 256 * 65536 + d.src / 2 ^ 32 % 256)
  | 3 => wd d.rowBytes
  | 4 => wd (b2n d.cls1 * 2 ^ 31 + d.rows)
  | 5 => d.sStride
  | _ => d.dStride

/-- A set with one word written. -/
def DmaSet.put (d : DmaSet) (k : Nat) (w : Word) : DmaSet :=
  let v := w.toNat
  match k with
  | 0 => { d with src := d.src / 2 ^ 32 * 2 ^ 32 + v }
  | 1 => { d with dst := d.dst / 2 ^ 32 * 2 ^ 32 + v }
  | 2 => { d with src := v % 256 * 2 ^ 32 + d.src % 2 ^ 32, dst := v / 65536 % 256 * 2 ^ 32 + d.dst % 2 ^ 32 }
  | 3 => { d with rowBytes := v % 2 ^ 24 }
  | 4 => { d with cls1 := v.testBit 31, rows := v % 65536 }
  | 5 => { d with sStride := w }
  | _ => { d with dStride := w }

/-- The write-side position (R333). -/
def DmaU.active (u : DmaU) : DmaSet :=
  { u.set with src := (u.set.srcRow u.wRow + u.wOff) % 2 ^ 40, dst := (u.set.dstRow u.wRow + u.wOff) % 2 ^ 40
               rowBytes := if u.wRow ≥ u.set.rows then 0 else u.set.rowBytes - u.wOff, rows := u.set.rows - u.wRow }

/-- The active set shows in the registers. -/
def State.showDma (s : State) (n : Nat) : State :=
  let d := (s.dma n).active
  (List.range 7).foldl (fun t k => t.wr (dmaA n + DMA_SRC_LO + 4 * k) (d.word k)) s

/-- The shadow set loads into the active set (R331, R332); paused, the channel comes to rest in PAUSED (R337). -/
def State.dmaLoad (s : State) (n : Nat) (start : Bool) : State :=
  let u := s.dma n
  (((s.setDma n { shadow := u.shadow, set := u.shadow, turn := u.turn }).setFlag (dmaA n) DMA_STATUS_SHADOW_FULL false).showDma n).dmaTo n
    (if start && !s.dmaPaused n then 1 else 3)

/-- A channel with nothing to do, or with the set that waits. -/
def State.dmaNext (s : State) (n : Nat) (start : Bool) : State :=
  if s.flag (dmaA n) DMA_STATUS_SHADOW_FULL then s.dmaLoad n start else s.dmaTo n 0

/-! ### Errors (R334, R335) -/

/-- An error is noted: the first one of the transfer, unless one is held already. -/
def State.dmaError (s : State) (n cause addr : Nat) : State :=
  let u := s.dma n
  match u.err with
  | none => s.setDma n { u with err := some (cause, addr) }
  | some _ => s.setFlag (dmaA n) DMA_STATUS_NESTED true

/-- The channel enters ERROR. -/
def State.dmaFail (s : State) (n cause addr : Nat) : State :=
  let b := dmaA n
  let s1 := if s.fld b DMA_STATUS_CAUSE = 0 then
      ((s.setFld b DMA_STATUS_CAUSE cause).setFld b DMA_STATUS_ERRADDR_HI (addr / 2 ^ 32)).wr (b + DMA_ERRADDR) (wd addr)
    else s.setFlag b DMA_STATUS_NESTED true
  ((s1.setBit dmagA DMA_ERR_ERR n true).record 0 0x1A 1 (srcOf 0 0x38 n) addr (info8 cause)).dmaTo n 4

/-! ### The funnel (R328, R329) -/

/-- The byte of a row at a place, if a read has returned it. -/
def DmaU.byteAt (u : DmaU) (row off : Nat) : Option Byte :=
  match u.reads.find? (fun r => r.row = row && decide (r.off ≤ off) && decide (off < r.off + r.n)) with
  | some ⟨_, o, _, some (some d)⟩ => d[off - o]?
  | _ => none

/-- A destination byte that overlaps a source byte or another destination row (R328). -/
def DmaSet.clash (d : DmaSet) (row a : Nat) : Bool :=
  (List.range d.rows).any (fun i =>
    (decide (d.srcRow i ≤ a) && decide (a < d.srcRow i + d.rowBytes)) ||
      (i != row && decide (d.dstRow i ≤ a) && decide (a < d.dstRow i + d.rowBytes)))

/-- The bytes to write from an address up: an overlapping one is a free value (notes/assumptions/1.md). -/
def State.funnel (s : State) (d : DmaSet) (row a : Nat) (l : List Byte) : List Byte :=
  (List.range l.length).map (fun i =>
    if d.clash row (a + i) then BitVec.ofNat 8 (Config.freeValue (s.free + i)) else (l[i]?).getD 0)

/-- KiB written are counted. -/
def State.dmaMoved (s : State) (k : Nat) : State :=
  let t := s.dmaRest + k
  (s.withDmaRest (t % 1024)).incFld dmagA DMA_MOVED_KIB (t / 1024)

/-- One write of a channel: refused, or performed and in flight. -/
def State.dmaWriteAt (s : State) (n row a : Nat) (l : List Byte) : State :=
  let u := s.dma n
  let bad := match regionOf a with
    | .reserved => true | .control => true
    | .dram => decide (a + l.length > s.usableBytes)
    | _ => false
  if bad then
    (if regionOf a = .control then s else s.addressError 0 (.hubDma (Fin.ofNat 32 n)) a true).dmaError n 4 a
  else
    let f := s.funnel u.set row a l
    let s0 := if u.set.clash row a || u.set.clash row (a + l.length - 1) then { s with free := s.free + l.length } else s
    let w := s0.busWrite (.hubDma (Fin.ofNat 32 n)) a f
    (w.2.dmaMoved l.length).setDma n { u with writes := u.writes ++ [⟨a, w.1⟩] }

/-- The write that the funnel can issue next: the bytes up to the end of the destination block or of the row; in a flush,
fewer of them. -/
def DmaU.nextWrite (u : DmaU) (flush : Bool) : Option (List Byte) :=
  if u.wRow ≥ u.set.rows then none
  else
    let a := u.set.dstRow u.wRow + u.wOff
    let len := min (64 - a % 64) (u.set.rowBytes - u.wOff)
    let got := ((List.range len).map (fun i => u.byteAt u.wRow (u.wOff + i))).takeWhile (·.isSome) |>.filterMap id
    if got.length = len then some got else if flush && got ≠ [] then some got else none

/-- Reads whose bytes have all been written are forgotten. -/
def DmaU.forget (u : DmaU) : DmaU :=
  { u with reads := u.reads.filter (fun r => r.back = none || decide (u.wRow < r.row) ||
      (r.row = u.wRow && decide (u.wOff < r.off + r.n))) }

/-- Writes are issued as far as the data reaches. -/
def State.dmaPump (s : State) (n : Nat) (flush : Bool) : Nat → State
  | 0 => s
  | k + 1 =>
    let u := s.dma n
    match u.nextWrite flush with
    | none => s
    | some l =>
      let s1 := s.dmaWriteAt n u.wRow ((u.set.dstRow u.wRow + u.wOff) % 2 ^ 40) l
      let v := s1.dma n
      let o := u.wOff + l.length
      let v1 : DmaU := if o ≥ u.set.rowBytes then { v with wRow := u.wRow + 1, wOff := 0 } else { v with wOff := o }
      State.dmaPump ((s1.setDma n v1.forget).showDma n) n flush k

/-- Data that a failed read leaves beyond the write side are written on their own (R334). -/
def State.dmaTail (s : State) (n : Nat) : State :=
  let u := s.dma n
  let s1 := u.reads.foldl (fun (t : State) r =>
    match r.back with
    | some (some d) =>
      let from' := if r.row = u.wRow ∧ r.off < u.wOff then u.wOff - r.off else 0
      if d.length ≤ from' then t else t.dmaWriteAt n r.row ((u.set.dstRow r.row + r.off + from') % 2 ^ 40) (d.drop from')
    | _ => t) s
  s1.setDma n { s1.dma n with reads := [] }

/-! ### Progress -/

/-- Every read of the transfer has been issued. -/
def DmaU.allRead (u : DmaU) : Bool := decide (u.set.rows ≤ u.rRow)
/-- A read is outstanding. -/
def DmaU.waiting (u : DmaU) : Bool := u.reads.any (fun r => r.back = none)

/-- What follows when reads or writes have come back: DONE, ERROR or PAUSED (R332, R334, R337). -/
def State.dmaSettle (s : State) (n : Nat) : State :=
  let u := s.dma n
  let st := s.dmaState n
  if st != 1 && st != 2 || u.waiting then s
  else
    match u.err with
    | some (c, a) =>
      if u.reads ≠ [] then
        let s1 := (s.dmaPump n true 64).dmaTail n
        if (s1.dma n).writes = [] then s1.dmaFail n c a else s1
      else if u.writes = [] then s.dmaFail n c a else s
    | none =>
      if u.wRow ≥ u.set.rows ∧ u.writes = [] then
        let s1 := s.setBit dmagA DMA_DONE_DONE n true
        if st = 2 then
          (if s1.flag (dmaA n) DMA_STATUS_SHADOW_FULL then s1.dmaLoad n false else s1.dmaTo n 0)
        else s1.dmaNext n true
      else if st = 2 then
        let s1 := s.dmaPump n true 64
        if (s1.dma n).writes = [] then s1.dmaTo n 3 else s1
      else s

/-- A channel has a read to issue: at most 32 are in flight (R327). -/
def State.dmaReads (s : State) (n : Nat) : Bool :=
  let u := s.dma n
  s.dmaState n = 1 && !u.allRead && u.err.isNone && decide ((u.reads.filter (fun r => r.back = none)).length < 32)
/-- Channels with work take turns: none of the others has waited longer (R327). -/
def State.dmaTurn (s : State) (n : Nat) : Bool :=
  (List.range 32).all (fun k => !s.dmaReads k || decide ((s.dma n).turn ≤ (s.dma k).turn))
/-- The number of the next turn. -/
def State.dmaNextTurn (s : State) : Nat := ((List.range 32).map (fun k => (s.dma k).turn)).foldl max 0 + 1

/-- DMA_READ_ISSUE: the channel's next read, in its turn, inside one aligned block of 64 bytes (R327, R329). -/
def State.dmaReadIssue (s : State) (n : Nat) : State :=
  let u := s.dma n
  if !s.dmaReads n || !s.dmaTurn n then s
  else
    let a := (u.set.srcRow u.rRow + u.rOff) % 2 ^ 40
    let len := min (64 - a % 64) (u.set.rowBytes - u.rOff)
    let bad := match regionOf a with
      | .reserved => true | .control => true
      | .dram => decide (a + len > s.usableBytes)
      | _ => false
    if bad then
      ((if regionOf a = .control then s else s.addressError 0 (.hubDma (Fin.ofNat 32 n)) a false).dmaError n 4 a).dmaSettle n
    else
      let o := u.rOff + len
      let v : DmaU := { u with reads := u.reads ++ [⟨u.rRow, u.rOff, len, none⟩], turn := s.dmaNextTurn }
      s.setDma n (if o ≥ u.set.rowBytes then { v with rRow := u.rRow + 1, rOff := 0 } else { v with rOff := o })

def execDmaReadIssue (n : Fin 32) (s : State) : Out3 := onLive s fun s => s.dmaReadIssue n

/-- The k-th outstanding read gets its data. -/
def giveBack (k : Nat) (d : Option (List Byte)) : List DmaRead → List DmaRead
  | [] => []
  | r :: t =>
    if r.back.isSome then r :: giveBack k d t
    else if k = 0 then { r with back := some d } :: t
    else r :: giveBack (k - 1) d t

/-- DMA_READ_RETURN: an outstanding read is answered, and the funnel issues the matching writes (R329, R334). -/
def State.dmaReadReturn (s : State) (n k : Nat) (ans : BusAns) : State :=
  let u := s.dma n
  match (u.reads.filter (fun r => r.back = none))[k]? with
  | none => s
  | some r =>
    let a := (u.set.srcRow r.row + r.off) % 2 ^ 40
    let q := s.busRead (.hubDma (Fin.ofNat 32 n)) a r.n
    let data := if ans = .ok then q.1 else none
    let s1 := q.2.setDma n { q.2.dma n with reads := giveBack k data u.reads }
    let s2 := if data = none then s1.dmaError n (if ans = .error then 2 else 1) a else s1
    (s2.dmaPump n false 64).dmaSettle n

def execDmaReadReturn (n : Fin 32) (which : Fin 32) (answer : BusAns) (s : State) : Out3 :=
  onLive s fun s => s.dmaReadReturn n which answer

/-- DMA_WRITE_RESPONSE: a write in flight is answered; they complete in any order (R338). -/
def State.dmaResponse (s : State) (n k : Nat) (error : Bool) : State :=
  let u := s.dma n
  match u.writes[k]? with
  | none => s
  | some w =>
    let s1 := s.setDma n { u with writes := u.writes.eraseIdx k }
    (if error || !w.ok then s1.dmaError n 3 w.addr else s1).dmaSettle n

def execDmaWriteResponse (n : Fin 32) (which : Nat) (error : Bool) (s : State) : Out3 :=
  onLive s fun s => s.dmaResponse n which error

/-! ### Registers (R330, R331, R336, R337) -/

/-- ARM (R331). -/
def State.dmaArm (s : State) (n : Nat) : State :=
  let b := dmaA n
  let u := s.dma n
  if u.shadow.rowBytes = 0 || u.shadow.rows = 0 || s.flag b DMA_STATUS_SHADOW_FULL then s.setFlag b DMA_STATUS_CFG_ERR true
  else
    let s1 := s.setFlag b DMA_STATUS_SHADOW_FULL true
    if s.dmaState n = 0 then s1.dmaLoad n true else s1

/-- ABORT (R336): in PAUSED the active set is dropped, in ERROR its position stays (R333). -/
def State.dmaAbort (s : State) (n : Nat) : State :=
  let b := dmaA n
  let u := s.dma n
  if s.dmaState n = 3 ∨ s.dmaState n = 4 then
    let s1 := ((((s.setFld b DMA_STATUS_CAUSE 0).setFlag b DMA_STATUS_NESTED false).setFld b DMA_STATUS_ERRADDR_HI 0).wr
      (b + DMA_ERRADDR) 0).setDma n
      (if s.dmaState n = 3 then { shadow := u.shadow, turn := u.turn } else { u with reads := [], writes := [], err := none })
    (s1.showDma n).dmaNext n true
  else s

/-- PAUSE or PAUSE_ALL has changed (R337). -/
def State.dmaFollow (s : State) (n : Nat) : State :=
  let st := s.dmaState n
  if s.dmaPaused n then (if st = 1 then (s.dmaTo n 2).dmaSettle n else s)
  else if st = 2 ∨ st = 3 then (s.dmaTo n 1).dmaSettle n
  else s

/-- Writes of channel registers. DISARM acts before ABORT, and ARM last, when one write holds several. -/
def dmaWrite (c : WCtx) (n off a : Nat) (v m : Word) (s : State) : State × WRes :=
  let b := dmaA n
  let w := (v &&& m).toNat
  if off = DMA_CTRL then
    let s1 := ((s.genWrite c a v (m &&& 0x10000000)).1).dmaFollow n
    let s2 := if w.testBit 29 then s1.setFlag b DMA_STATUS_SHADOW_FULL false else s1
    let s3 := if w.testBit 30 then s2.dmaAbort n else s2
    okW (if w.testBit 31 then s3.dmaArm n else s3)
  else if DMA_SRC_LO ≤ off ∧ off ≤ DMA_DSTRIDE then
    if s.flag b DMA_STATUS_SHADOW_FULL then refusedW (s.setFlag b DMA_STATUS_CFG_ERR true)
    else
      let k := (off - DMA_SRC_LO) / 4
      let u := s.dma n
      okW (s.setDma n { u with shadow := u.shadow.put k ((u.shadow.word k &&& ~~~ m) ||| (v &&& m)) })
  else s.genWrite c a v m

/-- Writes of the common registers. -/
def dmagWrite (c : WCtx) (off a : Nat) (v m : Word) (s : State) : State × WRes :=
  let s1 := (s.genWrite c a v m)
  if off = DMA_GCTL then ((List.range 32).foldl (fun t n => t.dmaFollow n) s1.1, s1.2) else s1

/-- Reads of the common registers that are windows: the shadow set of the channel chosen. -/
def dmagRead (off : Nat) (s : State) : Option (Word × State) :=
  if DMA_VIEW ≤ off ∧ off < DMA_VIEW + 28 then
    some ((s.dma (s.fld dmagA DMA_VIEWSEL_CH)).shadow.word ((off - DMA_VIEW) / 4), s)
  else none

/-- A write of a channel's control register that keeps PAUSE. -/
def State.dmaCtl (s : State) (r : Req) (n : Nat) (v : Word) : State :=
  (dmaWrite (ctxOf r) n DMA_CTRL (dmaA n + DMA_CTRL) (v ||| (s.rd (dmaA n + DMA_CTRL) &&& 0x10000000)) 0xFFFFFFFF s).1

def execDmaArm (r : Req) (n : Fin 32) (s : State) : Out3 := onLive s fun s => s.dmaCtl r n 0x80000000
def execDmaDisarm (r : Req) (n : Fin 32) (s : State) : Out3 := onLive s fun s => s.dmaCtl r n 0x20000000
def execDmaAbort (r : Req) (n : Fin 32) (s : State) : Out3 := onLive s fun s => s.dmaCtl r n 0x40000000
def execDmaPause (r : Req) (n : Fin 32) (s : State) : Out3 := onLive s fun s => s.dmaCtl r n 0x10000000
def execDmaUnpause (r : Req) (n : Fin 32) (s : State) : Out3 :=
  onLive s fun s => (dmaWrite (ctxOf r) n DMA_CTRL (dmaA n + DMA_CTRL) 0 0xFFFFFFFF s).1
def execDmaPauseAll (r : Req) (s : State) : Out3 :=
  onLive s fun s => (dmagWrite (ctxOf r) DMA_GCTL (dmagA + DMA_GCTL) 1 0xFFFFFFFF s).1
def execDmaUnpauseAll (r : Req) (s : State) : Out3 :=
  onLive s fun s => (dmagWrite (ctxOf r) DMA_GCTL (dmagA + DMA_GCTL) 0 0xFFFFFFFF s).1
/-- DMA_SHADOW_WRITE: a write of one of the seven words of the shadow set. -/
def execDmaShadowWrite (r : Req) (n : Fin 32) (word : Fin 7) (value : Word) (s : State) : Out3 :=
  onLive s fun s => (dmaWrite (ctxOf r) n (DMA_SRC_LO + 4 * word) (dmaA n + DMA_SRC_LO + 4 * word) value 0xFFFFFFFF s).1

end Sys2Proof.Machine
end

