-- ==== Sys2Proof/Machine/Dram.lean ====
section
/-! DEFINITION. The memory controllers: queues, slots, protection, the freeze, training and diagnosis (R302 to R325). -/
namespace Sys2Proof.Machine

/-! ### Queues (R314 to R316) -/

/-- QLEVEL shows the requests queued. -/
def State.showDch (s : State) (n : Nat) : State :=
  (s.setFld (dchA n) DCH_QLEVEL_WRQ (s.dch n).wrQ.length).setFld (dchA n) DCH_QLEVEL_RDQ (s.dch n).rdQ.length

/-- A request that an earlier one holds back (R316), or one whose unit a read-modify-write has open (R307). -/
def Dch.held' (d : Dch) (q : DramReq) : Bool :=
  d.flight.any (fun f => f.req.write && f.req.shares q) ||
    d.wrQ.any (fun w => decide (w.seq < q.seq) && w.overlaps q) ||
    (q.write && d.rdQ.any (fun r => decide (r.seq < q.seq) && r.overlaps q))

/-- A read waits on a hazard. -/
def Dch.hazard (d : Dch) : Bool := d.rdQ.any (fun r => d.wrQ.any (fun w => decide (w.seq < r.seq) && w.overlaps r))
/-- The age cap of 2 us (R314). -/
def DramReq.aged (q : DramReq) (tick : Nat) : Bool := decide (q.tick + 800 ≤ tick)
/-- Writes are being issued (R315). -/
def Dch.batch (d : Dch) (tick : Nat) : Bool := d.level || d.wrQ.any (fun w => w.aged tick) || d.hazard
/-- The level cause of a batch: from 48 writes down to 16 (R315). -/
def Dch.setLevel (d : Dch) : Dch :=
  { d with level := if d.wrQ.length ≥ 48 then true else if d.wrQ.length ≤ 16 then false else d.level }

/-- DRAM_REQUEST: a request reaches a channel. Frozen, it is answered with poison, a write with an error (R323); a full queue
does not take it. -/
def State.dramRequest (s : State) (n : Nat) (ch : Fin 16) (q : DramReq) : State :=
  let d := s.dch n
  if s.chFrozen n then s.emit (.dram ch) 3 [b2n q.write, q.addr]
  else if !s.flag (dchA n) DCH_STATUS_IN_USE || decide (s.dataBytes < q.hi) then s
  else if q.write then
    (if d.wrQ.length ≥ 64 then s
     else (s.setDch n ({ d with wrQ := d.wrQ ++ [{ q with seq := d.seq }], seq := d.seq + 1 }).setLevel).showDch n)
  else if d.rdQ.length ≥ 64 then s
  else (s.setDch n { d with rdQ := d.rdQ ++ [{ q with seq := d.seq }], seq := d.seq + 1 }).showDch n

/-- The class of a request: of an engine that runs a job and of a hub DMA channel it is what CLASS1 selects (R293, R327). -/
def State.reqClass (s : State) (r : Req) (cls : Nat) : Nat :=
  match r with
  | .engine e => (match (s.core (.engine e)).job with | some j => if j.cls1 then 1 else 2 | none => cls)
  | .hubDma n => if (s.dma n).set.cls1 then 1 else 2
  | _ => cls

def execDramRequest (channel : Fin 16) (write : Bool) (cls : Fin 4) (r : Req) (addr : BitVec 34) (data : List (BitVec 8))
    (s : State) : Out3 :=
  onLive s fun s => s.dramRequest channel channel
    { addr := addr.toNat, write := write, cls := s.reqClass r cls, src := r.src, tick := s.tick, seq := 0
      data := if write then data.take (64 - addr.toNat % 64) else [] }

/-! ### The slot (R313 to R315) -/

/-- The bank of a request within its sub-channel: rank x 16 + bank, and its row. -/
def State.bankOf (s : State) (q : DramReq) : Nat × Nat :=
  let c := s.cutAddr q.addr
  (c.2.2.2.1 * 16 + c.2.2.1, c.2.2.2.2)
/-- The sub-channel of a request. -/
def DramReq.sub (q : DramReq) : Nat := bits q.addr 6 6
/-- Is the request's row open? -/
def State.rowHit (s : State) (d : Dch) (q : DramReq) : Bool :=
  let b := s.bankOf q
  (d.rows.find? (fun r => r.1 = q.sub * 32 + b.1)).map (·.2) = some b.2

/-- The weights of classes 1 to 3; 0 is taken as 1 (R42, CLS_WEIGHT). -/
def State.weights (s : State) : List Nat :=
  [CLS_WEIGHT_W1, CLS_WEIGHT_W2, CLS_WEIGHT_W3].map (fun f => max 1 (s.fld fabA f))

/-- The class to serve among those that wait, and what is left of the weights (R42, notes/assumptions/6.md). -/
def pickClass (w credit : List Nat) (waits : Nat → Bool) : Option Nat × List Nat :=
  let has (l : List Nat) : Option Nat := [1, 2, 3].find? (fun c => waits c && decide (0 < (l[c - 1]?).getD 0))
  match has credit with
  | some c => (some c, credit.set (c - 1) ((credit[c - 1]?).getD 0 - 1))
  | none =>
    match has w with
    | some c => (some c, w.set (c - 1) ((w[c - 1]?).getD 0 - 1))
    | none => ([1, 2, 3].find? waits, credit)

/-- A slot of the frame of 25 is a reserved one (R313). -/
def reservedSlot (slot : Nat) : Bool := slot % 8 = 0 && slot != 24
/-- The next slot of a sub-channel. -/
def Dch.slot (d : Dch) (sub : Nat) : Nat := if sub = 0 then d.slotA else d.slotB

/-- The request that a slot of a sub-channel issues, and the weights left (R314, R315). -/
def State.slotPick (s : State) (n sub : Nat) (busy : List Nat) : Option DramReq × List Nat :=
  let d := s.dch n
  let able (q : DramReq) : Bool := q.sub = sub && !busy.contains (s.bankOf q).1 && !d.held' q
  let rd := d.rdQ.filter able
  let wr := d.wrQ.filter able
  let both := mergeSeq d.rdQ d.wrQ |>.filter able
  let reserved := reservedSlot (d.slot sub)
  let zero := rd.find? (fun q => q.cls = 0)
  let waits0 := d.rdQ.any (fun q => q.cls = 0 && q.sub = sub)
  let batch := d.batch s.tick
  let pool := if batch then wr else rd
  let hits := pool.filter (fun q => q.cls ≠ 0 && s.rowHit d q)
  let byClass := pickClass s.weights d.credit (fun c => hits.any (fun q => q.cls = c))
  let rule1 := if reserved then zero else none
  let rule2 := if reserved && waits0 then none else both.find? (fun q => q.aged s.tick)
  let rule3 := if batch then none else zero
  match rule1, rule2, rule3 with
  | some q, _, _ => (some q, d.credit)
  | none, some q, _ => (some q, d.credit)
  | none, none, some q => (some q, d.credit)
  | none, none, none =>
    match byClass.1 with
    | some c => (hits.find? (fun q => q.cls = c), byClass.2)
    | none => (pool.head?, d.credit)

/-- Write-backs of corrected units enter the write queue at class 3 while it has room (R308). -/
def Dch.fillQueue (d : Dch) (tick src : Nat) : Dch :=
  let now := d.owed.take (64 - d.wrQ.length)
  let reqs := (now.zip (List.range now.length)).map (fun e =>
    ({ addr := e.1, write := true, cls := 3, src := src, tick := tick, seq := d.seq + e.2, back := true } : DramReq))
  ({ d with wrQ := d.wrQ ++ reqs, owed := d.owed.drop now.length, seq := d.seq + now.length }).setLevel

/-- A slot passes; the request picked is issued. A read is performed; a write of whole units is, and a partial one reads its
units first (R307). -/
def State.slotIssue (s : State) (n : Nat) (ch : Fin 16) (sub : Nat) (busy : List Nat) : State :=
  if s.chFrozen n || !s.flag (dchA n) DCH_STATUS_IN_USE then s
  else
    let p := s.slotPick n sub busy
    let d0 := s.dch n
    let d1 : Dch := if sub = 0 then { d0 with slotA := (d0.slotA + 1) % 25 } else { d0 with slotB := (d0.slotB + 1) % 25 }
    match p.1 with
    | none => s.setDch n d1
    | some q =>
      let b := s.bankOf q
      let key := sub * 32 + b.1
      let d2 : Dch := { d1 with rows := (key, b.2) :: d1.rows.filter (fun r => r.1 ≠ key), credit := p.2 }
      let whole := q.addr % 32 = 0 && q.data.length % 32 = 0
      let s1 : State :=
        if q.write then
          (if whole then (s.setDch n (Dch.setLevel { d2 with wrQ := d2.wrQ.filter (fun x => x.seq ≠ q.seq) })).performWrite n q
           else s.setDch n (Dch.setLevel { d2 with wrQ := d2.wrQ.filter (fun x => x.seq ≠ q.seq), flight := d2.flight ++ [⟨q, false⟩] }))
        else s.setDch n { d2 with rdQ := d2.rdQ.filter (fun x => x.seq ≠ q.seq), flight := d2.flight ++ [⟨s.readNow n q, false⟩] }
      let s2 := s1.setDch n ((s1.dch n).fillQueue s.tick (srcOf 0 0x30 n))
      (s2.showDch n).emit (.dram ch) (b2n (q.write && whole)) [q.addr]

def execDramSlotIssue (channel : Fin 16) (sub : Bool) (busy : List Nat) (s : State) : Out3 :=
  onLive s fun s => s.slotIssue channel channel (b2n sub) busy

/-! ### The freeze (R322 to R324) -/

/-- A snapshot entry (Table 13-3). -/
def State.snapEntry (s : State) (n i tick : Nat) (q : DramReq) : State :=
  let age := sat 16 ((tick - q.tick) * 5 / 64)
  ((s.tset .snapshot n (4 * i) (wd q.addr)).tset .snapshot n (4 * i + 1)
    (wd (bits q.addr 33 32 + 4 * b2n q.write + 8 * q.cls + 32 + age * 65536))).tset .snapshot n (4 * i + 2) (wd q.src)

/-- The snapshot table of a channel: empty. -/
def State.snapClear (s : State) (n : Nat) : State :=
  (List.range 512).foldl (fun t i => t.tset .snapshot n i 0) s

/-- Entries from a place up. -/
def State.snapQueue (s : State) (n tick : Nat) : Nat → List DramReq → State
  | _, [] => s
  | i, q :: t => State.snapQueue (s.snapEntry n i tick q) n tick (i + 1) t

/-- The cause of a freeze: 1 inline, 2 link after retry, 3 command path (DCH_UE_INFO). -/
structure UeCause where
  cause : Nat
  addr : Nat
  cls : Nat
  src : Nat
  syndrome : Nat
  deriving DecidableEq, Repr

/-- The snapshot registers take a cause, or count it while one is held (R323, R324). -/
def State.snapUe (s : State) (n : Nat) (u : UeCause) : State :=
  let b := dchA n
  let d := s.dch n
  if d.held then (s.incFld b DCH_UE_SRC_NEST_COUNT 1).setFlag b DCH_STATUS_NESTED true
  else
    let s1 := ((s.snapClear n).snapQueue n s.tick 0 d.rdQ).snapQueue n s.tick 64 d.wrQ
    ((((s1.wr (b + DCH_UE_ADDR_LO) (wd u.addr)).wr (b + DCH_UE_ADDR_HI) (wd (bits u.addr 33 32))).wr (b + DCH_UE_INFO)
      (wd (u.cause * 2 ^ 20 + u.cls * 2 ^ 18 + u.syndrome))).wr (b + DCH_UE_SRC) (wd u.src)).setDch n { d with held := true }

/-- A cause of R322 on a channel: it freezes at once, and everything queued is answered with poison. -/
def State.freezeChannel (s : State) (n : Nat) (ch : Fin 16) (u : UeCause) : State :=
  let b := dchA n
  let was := s.chFrozen n
  let s1 := s.snapUe n u
  let d := s1.dch n
  let s2 := (d.rdQ ++ d.wrQ ++ d.flight.map (·.req)).foldl (fun t (q : DramReq) => t.emit (.dram ch) 3 [b2n q.write, q.addr]) s1
  let s3 := (s2.setDch n { d with rdQ := [], wrQ := [], flight := [], owed := [], level := false }).showDch n
  if was then s3
  else
    let s4 := ((s3.setFlag b DCH_STATUS_FROZEN true).setBit dmcA DMC_STATUS_FROZEN n true).setFlag dmcA DMC_EVT_FREEZE true
    let s5 := s4.record 0 0x18 2 (srcOf 0 0x30 n) u.addr (info8 n)
    if ((List.range 16).filter (fun k => s5.chFrozen k)).length = 3 then s5.packageFault 4 n else s5

/-! ### Read data (R305 to R308) -/

/-- The cause that a request's access gives, at a unit of it. -/
def DramReq.ue (q : DramReq) (cause syndrome unit : Nat) : UeCause := ⟨cause, unit, q.cls, q.src, syndrome⟩
/-- The channel address of unit i of what a request reads. -/
def DramReq.unit (q : DramReq) (i : Nat) : Nat := (if q.write || q.scrub then q.addr / 32 * 32 else q.addr / 64 * 64) + 32 * i
/-- The units of a return with what the inline code finds in each; the units not listed are clean. -/
def DramReq.units (q : DramReq) (inline : List InlineEcc) : List (Nat × InlineEcc) :=
  (inline.zip (List.range inline.length)).map (fun e => (q.unit e.2, e.1))
/-- The first uncorrectable unit of a return, and its syndrome. -/
def firstBad : List (Nat × InlineEcc) → Option (Nat × Nat)
  | [] => none
  | (u, .failed y) :: _ => some (u, y.toNat)
  | _ :: t => firstBad t

/-- The oldest read returns: link ECC, then the inline code unit by unit. A read is answered; the read of a read-modify-write is
followed by its write; the last unit of a scrub ends a pass. Each corrected unit counts, and is written back at class 3; a
read-modify-write writes its unit itself (R308). -/
def State.readReturn (s : State) (n : Nat) (ch : Fin 16) (link : LinkEcc) (inline : List InlineEcc) : State :=
  let b := dchA n
  let d := s.dch n
  match d.flight with
  | [] => s
  | f :: rest =>
    let s1 := match link with
      | .clean => s
      | .corrected => s.incFld b DCH_CECNT_LINK_CE 1
      | .failed => if f.retry then s else s.incFld b DCH_CNT_LINK_RETRY 1
    if link = .failed && !f.retry then s1.setDch n { d with flight := { f with retry := true } :: rest }
    else if link = .failed then s1.freezeChannel n ch (f.req.ue 2 0 (f.req.addr / 32 * 32))
    else
      let us := f.req.units inline
      match firstBad us with
      | some (u, y) => (s1.setDch n { d with badUnits := u / 32 :: d.badUnits }).freezeChannel n ch (f.req.ue 1 y u)
      | none =>
        let fixed := (us.filter (fun e => e.2 = .corrected)).map (·.1)
        let s2 := (s1.incFld b DCH_CECNT_INLINE_CE fixed.length).setDch n
          (({ d with flight := rest, owed := d.owed ++ (if f.req.write then [] else fixed) }).fillQueue s.tick (srcOf 0 0x30 n))
        let s3 := s2.showDch n
        if f.req.write then s3.performWrite n f.req
        else if f.req.scrub then
          (if f.req.addr + 32 ≥ s.dataBytes then s3.incFld b DCH_CNT_SCRUB_PASSES 1 else s3)
        else s3.emit (.dram ch) 2 (f.req.addr :: f.req.data.map (·.toNat))

def execDramReadReturn (channel : Fin 16) (link : LinkEcc) (inline : List InlineEcc) (s : State) : Out3 :=
  onLive s fun s => s.readReturn channel channel link inline

/-- COMMAND_PATH_PARITY_ERROR: the channel freezes with the request that the command was formed from, if any (R322, R323). -/
def execCommandPathParityError (channel : Fin 16) (write : Bool) (entry : Option (Fin 64)) (s : State) : Out3 :=
  onLive s fun s =>
    let d := s.dch channel
    let q : Option DramReq := match entry with
      | some i => (if write then d.wrQ else d.rdQ)[i.val]?
      | none => none
    s.freezeChannel channel channel (match q with | some q => q.ue 3 0 (q.addr / 32 * 32) | none => ⟨3, 0, 0, 0, 0⟩)

/-! ### Refresh, temperature, training (R318 to R321) -/

/-- DRAM_REFRESH: a per-bank refresh closes the bank's row; in a reserved slot none is issued (R318). -/
def execDramRefresh (channel : Fin 16) (sub : Bool) (bank : Fin 32) (s : State) : Out3 :=
  onLive s fun s =>
    let d := s.dch channel
    let key := b2n sub * 32 + bank
    if !s.flag (dchA channel) DCH_STATUS_IN_USE || reservedSlot (d.slot (b2n sub)) then s
    else (s.setDch channel { d with rows := d.rows.filter (fun r => r.1 ≠ key) }).emit (.dram channel) 4 [key]

/-- DRAM_HOT: some channel in use reports a temperature above its range (R462). -/
def State.showDramHot (s : State) : State :=
  let on := s.thm.dramHot.any (fun n => s.flag (dchA n) DCH_STATUS_IN_USE)
  let rise := on && !s.flag thmA THM_STATUS_DRAM_HOT
  let s1 := s.setFlag thmA THM_STATUS_DRAM_HOT on
  if rise then s1.setFlag thmA THM_EVT_DRAM_HOT true else s1

/-- MR4_POLL: what MR4 of each die of the channel gives: the hottest code, derating, and an over-temperature event for each die
that reports it (R319). -/
def execMr4Poll (channel : Fin 16) (dies : List DieTemp) (s : State) : Out3 :=
  onLive s fun s =>
    let b := dchA channel
    let s1 := (s.setFld b DCH_TEMP_MR4 ((dies.map (·.code.toNat)).foldl max 0)).setFlag b DCH_STATUS_DERATE (dies.any (·.derate))
    let others := s1.thm.dramHot.filter (· ≠ channel.val)
    let s2 := (s1.withThm { s1.thm with dramHot := if dies.any (·.beyond) then channel.val :: others else others })
    ((dies.filter (·.beyond)).foldl (fun t _ => t.record 0 0x19 1 (srcOf 0 0x30 channel) 0 (info8 channel)) s2).showDramHot

/-- DRAM_DRIFT_CHECK: drift is corrected within the current eye, which no register and no data shows (R321). -/
def execDramDriftCheck (_channel : Fin 16) (s : State) : Out3 := .next s

/-- A retrain begins on a channel in use. -/
def State.retrain (s : State) (n : Nat) : State :=
  if s.flag (dchA n) DCH_STATUS_IN_USE && !(s.dch n).retraining then s.setDch n { s.dch n with retraining := true, steps := 0 } else s

/-- DRAM_RETRAIN: PERIOD_MS has passed. -/
def execDramRetrain (channel : Fin 16) (s : State) : Out3 := onLive s fun s => s.retrain channel

/-- A retrain step may run: outside reserved slots, 20 us after the last one, and on no frozen channel (R321, R323). -/
def State.stepDue (s : State) (n : Nat) : Bool :=
  let d := s.dch n
  d.retraining && !s.chFrozen n && !reservedSlot d.slotA && !reservedSlot d.slotB && d.stepAt.all (fun t => decide (t + 8000 ≤ s.tick))
/-- DRAM_RETRAIN_STEP: one step runs, where it may. -/
def execDramRetrainStep (channel : Fin 16) (s : State) : Out3 :=
  onLive s fun s =>
    let d := s.dch channel
    if s.stepDue channel then s.setDch channel { d with steps := d.steps + 1, stepAt := some s.tick } else s

/-- A retrain ends (R321): with no working setting the previous ones stay; a low figure of merit degrades the channel. -/
def State.retrainDone (s : State) (n : Nat) (working : Bool) (fom : Nat) : State :=
  let b := dchA n
  if !(s.dch n).retraining then s
  else
    let s1 := (s.setDch n { s.dch n with retraining := false }).setFlag b DCH_RETRAIN_NOW false
    let s2 := if working then s1 else s1.setFlag b DCH_STATUS_RETRAIN_FAIL true
    let s3 := s2.setFld b DCH_FOM_FOM fom
    if fom < s.fld b DCH_FOM_FOM_MIN then
      (((s3.setFlag b DCH_STATUS_DEGRADED true).setBit dmcA DMC_STATUS_DEGRADED n true).setFlag dmcA DMC_EVT_DEGRADE true).record
        0 0x19 1 (srcOf 0 0x30 n) 0 (info8 n)
    else s3

def execDramRetrainDone (channel : Fin 16) (working : Bool) (fom : BitVec 8) (s : State) : Out3 :=
  onLive s fun s => s.retrainDone channel working fom.toNat

/-- DRAM_SCRUB: the next unit of the pass is read at class 3 (R308), unless Vigil pauses scrubbing (Table 21-4). -/
def State.scrub (s : State) (n : Nat) : State :=
  let d := s.dch n
  if s.thm.pause || s.fld dmcA DMC_CTRL_SCRUB_HOURS = 0 || s.chFrozen n || !s.flag (dchA n) DCH_STATUS_IN_USE || decide (d.rdQ.length ≥ 64) then s
  else
    let q : DramReq := { addr := 32 * d.scrubUnit, write := false, cls := 3, src := srcOf 0 0x30 n, tick := s.tick, seq := d.seq
                         scrub := true }
    (s.setDch n { d with rdQ := d.rdQ ++ [q], seq := d.seq + 1
                         scrubUnit := if 32 * (d.scrubUnit + 1) ≥ s.dataBytes then 0 else d.scrubUnit + 1 }).showDch n

def execDramScrub (channel : Fin 16) (s : State) : Out3 := onLive s fun s => s.scrub channel

/-! ### Registers and diagnosis (R311, R312, R324, R325) -/

/-- The 32 bytes of a unit of the data region. -/
def State.unitNat (s : State) (n u : Nat) : Nat :=
  match s.devAddr n (32 * u) with | some a => s.memNat a 32 | none => 0
/-- The check bits stored for a unit (R306). -/
def State.unitCheck (s : State) (n u : Nat) : Nat := Config.checkBits (32 * u) (s.unitNat n u) % 2 ^ 16

/-- What a diagnostic read returns: 32 bytes and check bits; a unit with an uncorrectable error holds a free value. -/
def State.diagUnit (s : State) (n u : Nat) : Nat × Nat × State :=
  if 32 * u ≥ s.capBytes then (0, 0, s)
  else if 32 * u < s.dataBytes then
    (if u ∈ (s.dch n).badUnits then (Config.freeValue s.free % 2 ^ 256, Config.freeValue (s.free + 1) % 2 ^ 16, { s with free := s.free + 2 })
     else (s.unitNat n u, s.unitCheck n u, s))
  else
    let first := (32 * u - s.dataBytes) / 2
    let check (i : Nat) : Nat :=
      if 32 * (first + i) ≥ s.dataBytes then 0
      else if first + i ∈ (s.dch n).badUnits then Config.freeValue (s.free + i) % 2 ^ 16
      else s.unitCheck n (first + i)
    ((List.range 16).foldl (fun v i => v + check i * 2 ^ (16 * i)) 0, 0, { s with free := s.free + 16 })

/-- DRAM_DIAG_DONE: the data appear (R325). -/
def execDramDiagDone (channel : Fin 16) (s : State) : Out3 :=
  onLive s fun s =>
    let n := channel.val
    let b := dchA n
    if !(s.dch n).diag then s
    else
      let r := s.diagUnit n (s.fld b DCH_DIAGADDR_UNIT)
      let s1 := r.2.2.setDch n { s.dch n with diag := false }
      let s2 := (List.range 8).foldl (fun t i => t.setFld b (DCH_DIAGDATA_DATA.nth 4 i) (r.1 / 2 ^ (32 * i))) s1
      ((s2.setFld b DCH_DIAGDATA8_CHECK r.2.1).setFlag b DCH_DIAGCTL_DONE true).setFlag b DCH_DIAGCTL_GO false

/-- Writes of DCH registers. -/
def dchWrite (c : WCtx) (n off a : Nat) (v m : Word) (s : State) : State × WRes :=
  let b := dchA n
  let w := v &&& m
  if off = DCH_RETRAIN then
    let s1 := (s.genWrite c a v m).1
    if w.toNat.testBit 0 then okW (if s1.flag b DCH_STATUS_IN_USE then s1.retrain n else s1.setFlag b DCH_RETRAIN_NOW false)
    else okW s1
  else if off = DCH_DIAGCTL then
    let s1 := (s.genWrite c a v m).1
    if w.toNat.testBit 31 then
      okW (if s.chFrozen n then s1.setDch n { s1.dch n with diag := true } else s1.setFlag b DCH_DIAGCTL_GO (s.flag b DCH_DIAGCTL_GO))
    else okW s1
  else if off = DCH_CLR then
    if w.toNat.testBit 0 then
      let s1 := ((s.snapClear n).setDch n { s.dch n with held := false }).setFlag b DCH_STATUS_NESTED false
      okW ((((s1.wr (b + DCH_UE_ADDR_LO) 0).wr (b + DCH_UE_ADDR_HI) 0).wr (b + DCH_UE_INFO) 0).wr (b + DCH_UE_SRC) 0)
    else okW s
  else s.genWrite c a v m

/-- Reads of DCH registers that are windows. -/
def dchRead (n off : Nat) (s : State) : Option (Word × State) :=
  if off = DCH_SNAPDATA then
    some (s.tget .snapshot n (s.fld (dchA n) DCH_SNAPIDX_INDEX), s.advance (dchA n) 512 DCH_SNAPIDX_INDEX)
  else none

/-- The translation of an address shows in the result registers (R312); above the capacity the other fields are free. -/
def State.translate (s : State) (a : Nat) : State :=
  if s.usableBytes ≤ a then
    ((s.wr (dmcA + DMC_XLATE_RES0) ((s.fresh 32 &&& 0xFFFE0000) ||| 1)).usedFree).wr (dmcA + DMC_XLATE_RES1)
      (s.usedFree.fresh 32 &&& 0x3FFFF) |>.usedFree
  else
    let (ch, l) := s.chanOf a
    let (sub, col, bank, rank, row) := s.cutAddr l
    (s.wr (dmcA + DMC_XLATE_RES0) (wd (ch * 2 ^ 28 + sub * 2 ^ 27 + rank * 2 ^ 26 + bank * 2 ^ 22 + col * 2 ^ 17))).wr
      (dmcA + DMC_XLATE_RES1) (wd row)

/-- Writes of DMC registers. A bank mask that breaks R311 is refused; where LK fields are locked no mask is taken at all (R5). -/
def dmcWrite (c : WCtx) (off a : Nat) (v m : Word) (s : State) : State × WRes :=
  if DMC_BANK_MASK ≤ off ∧ off < DMC_BANK_MASK + 16 then
    let k := (off - DMC_BANK_MASK) / 4
    let new := ((s.rd a &&& ~~~ m) ||| (v &&& m)).toNat
    let bad := new % 16 ≠ 2 ^ k
    let s1 := if bad then s.setFlag dmcA DMC_EVT_CFG_ERR true else s
    if bad && !s.locked then refusedW s1 else s1.genWrite c a v m
  else if off = DMC_XLATE_HI then
    let s1 := (s.genWrite c a v m).1
    okW (s1.translate (s1.fld dmcA DMC_XLATE_HI_ADDR * 2 ^ 32 + s1.fld dmcA DMC_XLATE_LO_ADDR))
  else s.genWrite c a v m

/-- DRAM_RETRAIN_NOW: a write of DCH_RETRAIN with NOW = 1 that keeps PERIOD_MS. -/
def execDramRetrainNow (r : Req) (channel : Fin 16) (s : State) : Out3 :=
  onLive s fun s =>
    (dchWrite (ctxOf r) channel DCH_RETRAIN (dchA channel + DCH_RETRAIN) (s.rd (dchA channel + DCH_RETRAIN) ||| 1) 0xFFFFFFFF s).1

/-- DRAM_DIAG_READ: a write of GO. -/
def execDramDiagRead (r : Req) (channel : Fin 16) (s : State) : Out3 :=
  onLive s fun s => (dchWrite (ctxOf r) channel DCH_DIAGCTL (dchA channel + DCH_DIAGCTL) 0x80000000 0xFFFFFFFF s).1

/-- DRAM_SNAPSHOT_CLEAR: a write of CLR. -/
def execDramSnapshotClear (r : Req) (channel : Fin 16) (s : State) : Out3 :=
  onLive s fun s => (dchWrite (ctxOf r) channel DCH_CLR (dchA channel + DCH_CLR) 1 0xFFFFFFFF s).1

/-- ADDRESS_TRANSLATE: a write of DMC_XLATE_HI. -/
def execAddressTranslate (r : Req) (value : Word) (s : State) : Out3 :=
  onLive s fun s => (dmcWrite (ctxOf r) DMC_XLATE_HI (dmcA + DMC_XLATE_HI) value 0xFFFFFFFF s).1

/-- DMC_MASK_WRITE: a write of a bank or channel mask. -/
def execDmcMaskWrite (r : Req) (bank : Bool) (k : Fin 4) (value : Word) (s : State) : Out3 :=
  onLive s fun s =>
    let off := (if bank then DMC_BANK_MASK else DMC_CH_MASK) + 4 * k
    (dmcWrite (ctxOf r) off (dmcA + off) value 0xFFFFFFFF s).1

end Sys2Proof.Machine
end

