-- ==== Sys2Proof/Machine/Thermal.lean ====
section
/-! DEFINITION. Thermal sensors, thresholds and the Vigil governor (R454 to R469, R489). -/
namespace Sys2Proof.Machine

/-! ### Sensors (R454 to R458) -/

/-- A sensor's reading field. -/
def tsF (n : Nat) : Fld := (if n % 2 = 0 then THM_TS_TEMP else THM_TS_TEMP_ODD).nth 4 (n / 2)
def State.tsRead (s : State) (n : Nat) : Int := toSigned 16 (s.fld thmA (tsF n))
def tsFailF (n : Nat) : Fld := ⟨THM_TSFAIL_LO + 4 * (n / 32), n % 32, n % 32⟩
def State.tsFailed (s : State) (n : Nat) : Bool := s.flag thmA (tsFailF n)
/-- The sensors of a die: first and number (Table 21-1). -/
def tsOfDie (die : Nat) : List Nat :=
  match die with
  | 0 => List.range 16
  | 1 => (List.range 24).map (· + 16)
  | _ => (List.range 24).map (· + 40)
def dieOfTs (n : Nat) : Nat := if n < 16 then 0 else if n < 40 then 1 else 2
/-- Working sensors of a die that have converted. -/
def State.tsWork (s : State) (die : Nat) : List Nat := (tsOfDie die).filter (fun n => !s.tsFailed n && s.thm.seen.contains n)

/-- Insertion sort. -/
def insertInt (a : Int) : List Int → List Int
  | [] => [a]
  | b :: t => if a ≤ b then a :: b :: t else b :: insertInt a t
def sortInt : List Int → List Int
  | [] => []
  | a :: t => insertInt a (sortInt t)
/-- Twice the median; of an even number, the sum of the middle two. -/
def twoMedian (l : List Int) : Option Int :=
  let q := sortInt l
  if q = [] then none
  else if q.length % 2 = 1 then (q[q.length / 2]?).map (2 * ·)
  else some ((q[q.length / 2]?).getD 0 + (q[q.length / 2 - 1]?).getD 0)

/-- T_die: the highest working sensor, or 135 degrees with fewer than 8 in use (R455, R456). -/
def State.tDie (s : State) (die : Nat) : Int :=
  if ((tsOfDie die).filter (fun n => !s.tsFailed n)).length < 8 then 540
  else
    match (s.tsWork die).map s.tsRead with
    | [] => 0
    | a :: t => t.foldl max a

/-- A T_die can be told: a sensor of the die has converted, or too few are in use. -/
def State.dieKnown (s : State) (die : Nat) : Bool :=
  decide (((tsOfDie die).filter (fun n => !s.tsFailed n)).length < 8) || decide (s.tsWork die ≠ [])
/-- T_hot: the highest T_die (R456). -/
def State.hottest (s : State) : Int :=
  match ([0, 1, 2].filter s.dieKnown).map s.tDie with
  | [] => 0
  | a :: t => t.foldl max a

/-- A flag with its event bit: sets and clears; true when it rises (R457). -/
def State.thmFlag (s : State) (f : Fld) (e : Option Fld) (up down : Bool) : State × Bool :=
  let was := s.flag thmA f
  let now := if was then !down else up
  let s1 := s.setFlag thmA f now
  (match e with | some x => if now && !was then s1.setFlag thmA x true else s1 | none => s1, now && !was)

/-- A sensor-fault, LIMIT or vigil-lost event. -/
def State.thmRecord (s : State) (sensor : Nat) : State := s.record 0 0x28 1 (srcOf 0 0x09 0) 0 (info8 sensor)

/-- LIMIT has risen: the event, HEALTH, and with HO_ON_LIMIT the hand-over (R457, R478, R480). -/
def State.limitRise (s : State) (sensor : Nat) : State :=
  let s1 := s.thmRecord sensor
  let s2 := (s1.withPair { s1.pair with due := true })
  if s2.flag advA PAIR_CTRL_HO_ON_LIMIT && s2.paired && s2.active && !s2.pair.yielding then s2.askYield else s2

/-- TRIP has risen: the flag and its event (R457). -/
def State.tripRise (s : State) (sensor : Nat) : State :=
  (s.setFlag thmA THM_STATUS_TRIP true).record 0 0x29 4 (srcOf 0 0x09 0) 0 (info8 sensor)

/-- T_die and T_hot are shown and compared with the thresholds; window and guard markers follow (Table 21-2, R469, R80). -/
def State.judgeHot (s : State) (sensor : Nat) : State :=
  let h := s.tDie 0
  let c0 := s.tDie 1
  let c1 := s.tDie 2
  let t := s.hottest
  let w (i : Int) : Nat := ofSigned 16 i
  let s1 := (s.wr (thmA + THM_THOT) (wd (w c0 * 65536 + w h))).wr (thmA + THM_THOT2) (wd (w t * 65536 + w c1))
  let g : Int := s1.fld thmA THM_TCFG_T_TARGET * 4
  let s2 := (s1.thmFlag THM_STATUS_HOT (some THM_EVT_HOT) (decide (t ≥ g)) (decide (t ≤ g - 12))).1
  let s3 := (s2.thmFlag THM_STATUS_WARN (some THM_EVT_WARN) (decide (t ≥ 500)) (decide (t ≤ 488))).1
  let s4 := (s3.thmFlag THM_STATUS_THROTTLE (some THM_EVT_THROTTLE) (decide (t ≥ 540)) (decide (t ≤ 528))).1
  let p := s4.thmFlag THM_STATUS_LIMIT (some THM_EVT_LIMIT) (decide (t > 600)) (decide (t ≤ 588))
  let s5 := if p.2 then p.1.limitRise sensor
    else if s4.flag thmA THM_STATUS_LIMIT ≠ p.1.flag thmA THM_STATUS_LIMIT then { p.1 with pair := { p.1.pair with due := true } }
    else p.1
  let q := s5.thmFlag THM_STATUS_TRIP none (decide (t ≥ 640)) (decide (t ≤ 628))
  let s6 := if q.2 then q.1.tripRise sensor else q.1
  s6.windowStep.guardStep

/-- A sensor fails (R455). -/
def State.failSensor (s : State) (n : Nat) : State :=
  if s.tsFailed n then s
  else ((s.setFlag thmA (tsFailF n) true).setFlag thmA THM_EVT_TSFAIL true).thmRecord n

/-- The trip: THERMTRIP_N falls and the device stops; the flag and its event come now if T_hot has not raised them (R458). -/
def State.trip (s : State) (n : Nat) : State :=
  let s1 := if s.flag thmA THM_STATUS_TRIP then s else s.tripRise n
  s1.withThm { s1.thm with tripped := true }

/-- A reading fails its sensor: out of range, or too far from the median of the others (R455). -/
def State.badReading (s : State) (n : Nat) (v : Int) : Bool :=
  decide (v < -240 ∨ v > 800) ||
    (match twoMedian (((s.tsWork (dieOfTs n)).filter (· ≠ n)).map s.tsRead) with
     | some m => decide ((2 * v - m).natAbs > 320)
     | none => false)

/-- SENSOR_CONVERSION (R454 to R458). -/
def execSensorConversion (sensor : Fin 64) (reading : BitVec 16) (s : State) : Out3 :=
  onLive s fun s =>
    let n := sensor.val
    let v := toSigned 16 reading.toNat
    let s0 := s.setFld thmA (tsF n) reading.toNat
    let s1 := s0.withThm { s0.thm with readAt := (n, s.tick) :: s0.thm.readAt.filter (fun e => e.1 ≠ n) }
    if s1.tsFailed n then s1
    else if s1.badReading n v then (s1.failSensor n).judgeHot n
    else
      let u := s1.thm
      let hot := decide (v ≥ 640)
      let again := hot && u.hot.contains n
      let s2 := (s1.withThm { u with seen := if u.seen.contains n then u.seen else n :: u.seen,
                                          hot := if hot then n :: u.hot.filter (· ≠ n) else u.hot.filter (· ≠ n) })
      let s3 := s2.judgeHot n
      if again then s3.trip n else s3

/-- A sensor's conversion has been due for 200 us: it began, at the latest, when the one before it completed. -/
def State.tsOverdue (s : State) (n : Nat) : Bool :=
  decide (((s.thm.readAt.find? (fun e => e.1 = n)).map (·.2)).getD 0 + usTicks 200 ≤ s.tick)

/-- SENSOR_TIMEOUT: a conversion has not completed within 200 us (R455). -/
def execSensorTimeout (sensor : Fin 64) (s : State) : Out3 :=
  onLive s fun s => if s.tsOverdue sensor then (s.failSensor sensor).judgeHot sensor else s

/-! ### The ladder (R460, R461) -/

/-- ENG_TOP in 100 MHz. -/
def State.engTop (s : State) : Nat :=
  let c := s.fld thmA THM_CTRL_ENG_CAP
  if c < 8 ∨ c > 18 then 18 else c
/-- The rank of queue q of cluster c. -/
def State.queueRank (s : State) (c q : Nat) : Nat :=
  bits (s.fld thmA (THM_QRANK_RANK.nth 4 (c / 4))) (8 * (c % 4) + 2 * q + 1) (8 * (c % 4) + 2 * q)
/-- Queues of a rank, as 4 x cluster + queue. -/
def State.queuesOf (s : State) (rank : Nat) : List Nat := (List.range 64).filter (fun i => s.queueRank (i / 4) (i % 4) = rank)
/-- Enabled output entries, by RANK and then index. -/
def State.shedOrder (s : State) : List Nat :=
  let on := (List.range 32).filter (fun i => entryEn (s.outEntry i) && decide (entryKind (s.outEntry i) ≤ 4))
  (List.range 256).flatMap (fun r => on.filter (fun i => entryRank (s.outEntry i) = r))
/-- The ladder (Table 21-4). -/
def State.ladder (s : State) : List VAct :=
  [.hold 0, .depth 1, .depth 2, .depth 3] ++ List.replicate (s.engTop - 8) .freq ++
    (([1, 2, 3].filter (fun r => s.queuesOf r ≠ [])).map VAct.hold) ++ s.shedOrder.map VAct.shed ++
    List.replicate (min 12 (s.fld thmA THM_CTRL_FAST_MAX)) VAct.fast

/-- Step S. -/
def State.vigilStep (s : State) : Nat := s.fld thmA THM_STEP_S

/-- An output that is no longer shed: a context's next picture is an IDR (R465). -/
def State.release (s : State) (i : Nat) : State :=
  let w := s.outEntry i
  if entryKind w = 0 then s.setCtx (entryTarget w) { s.ctx (entryTarget w) with needIdr := true } else s

/-- FREQ and FAST of every cluster, ENG_C0 and ENG_C1 (R279). -/
def State.showFast (s : State) (f : Nat) : State :=
  (List.range 16).foldl (fun t c => t.setFld (engA c) ENG_STATUS_FAST f) (s.setFld thmA THM_OPPT_FAST f)

/-- Step n of the ladder is in force: what it holds, sheds and slows down (R464 to R466). In the vigil-lost state fasting is
8/16 (R468). -/
def State.applyStep (s : State) (n : Nat) : State :=
  let acts := s.ladder.take n
  let held := acts.flatMap (fun (a : VAct) => match a with | .hold r => s.queuesOf r | _ => [])
  let shed := acts.filterMap (fun (a : VAct) => match a with | .shed i => some i | _ => none)
  let depth := (acts.filter (fun (a : VAct) => match a with | .depth _ => true | _ => false)).length
  let fast := (acts.filter (fun a => decide (a = VAct.fast))).length
  let gone := s.thm.shed.filter (fun i => !shed.contains i)
  let s1 := gone.foldl State.release s
  let s2 := (s1.withThm { s1.thm with held := held, shed := shed, pause := acts.contains (.hold 0),
                                           slow := (acts.filter (fun a => decide (a = VAct.freq))).length })
  let mask (lo : Nat) : Nat := (List.range 32).foldl (fun m i => if held.contains (lo + i) then m + 2 ^ i else m) 0
  let clusters := (List.range 16).foldl (fun m c => if held.any (fun i => i / 4 = c) then m + 2 ^ c else m) 0
  let s3 := (((s2.setFld thmA THM_QHELD_Q0_HELD (mask 0)).setFld thmA THM_QHELD_Q1_HELD (mask 32)).setFld thmA
    THM_QHELD_CLUSTERS clusters).setFld thmA THM_OPPT_DEPTH depth
  let s4 := (List.range 8).foldl (fun t v => t.setVcc v { t.vcc v with depth := depth }) s3
  let s5 := s4.showFast (if s.thm.lost then 8 else fast)
  (s5.setFld thmA THM_STEP_S n).setFld thmA THM_STEP_S_TOP s.ladder.length

/-- The ladder has changed: S is clamped to its top (R460). -/
def State.reLadder (s : State) : State := s.applyStep (min s.vigilStep s.ladder.length)

/-! ### ENG frequency and voltage (R461, R489) -/

def State.dieFreq (s : State) (die : Nat) : DieFreq := if die = 0 then s.thm.c0 else s.thm.c1
def State.setDieFreq (s : State) (die : Nat) (d : DieFreq) : State :=
  if die = 0 then (s.withThm { s.thm with c0 := d }) else (s.withThm { s.thm with c1 := d })
def engF (die : Nat) : Fld := if die = 0 then THM_OPPT_ENG_C0 else THM_OPPT_ENG_C1
def State.engFreq (s : State) (die : Nat) : Nat := s.fld thmA (engF die)
def State.engBin (s : State) (die : Nat) : Nat := s.fld thmA (if die = 0 then THM_OPPT_ENG_BIN_C0 else THM_OPPT_ENG_BIN_C1)

/-- A voltage is requested (R489): the fused voltage plus MARGIN_MV, in 5 mV steps within 550 to 800. -/
def State.avsAsk (s : State) (die : Fin 2) (f : Nat) (raise : Option Nat) : State :=
  let q := s.openQuot ((Config.fusedMv die (s.engBin die) f + min 50 (s.fld gpioA AVS_CTRL_MARGIN_MV) : Nat) : Int) 5
  let mv := clampNat 550 800 (5 * q.1.toNat)
  (q.2.setDieFreq die { s.dieFreq die with avs := some ⟨mv, raise, s.tick⟩ }).emit (.avs die) 0 [die, mv]

/-- A die moves towards the frequency of the step in force: up by one step in a tick, down at once (R461). -/
def State.moveFreq (s : State) (die : Fin 2) (target : Nat) : State :=
  let d := s.dieFreq die
  let f := s.engFreq die
  if f < target then
    (if d.due.isSome || d.avs.isSome then s
     else if s.flag gpioA AVS_CTRL_AVS_EN then s.avsAsk die (f + 1) (some (f + 1))
     else s.setDieFreq die { d with due := some (f + 1) })
  else if target < f then s.setDieFreq die { d with due := some target, avs := d.avs.map (fun a => { a with raise := none }) }
  else s

/-- The frequency of the step in force on a die. -/
def State.freqWanted (s : State) (die : Nat) : Nat := max 8 (min (s.engBin die) (s.engTop - s.thm.slow))

/-- ENG_FREQ_CHANGE: a frequency decided takes effect; after a lowering the new voltage is written (R279, R489). -/
def execEngFreqChange (die : Fin 2) (s : State) : Out3 :=
  onLive s fun s =>
    let d := s.dieFreq die
    match d.due with
    | none => s
    | some g =>
      let lower := decide (g < s.engFreq die)
      let s1 := ((s.setDieFreq die { d with due := none }).setFld thmA (engF die) g)
      let s2 := (List.range 8).foldl (fun t c => t.setFld (engA (die * 8 + c)) ENG_STATUS_FREQ g) s1
      if lower && s2.flag gpioA AVS_CTRL_AVS_EN then s2.avsAsk die g none else s2

/-- AVS_REQUEST_ACK: the regulator has acknowledged a voltage write, and the voltage has settled or 5 us have passed (R489). -/
def execAvsRequestAck (die : Fin 2) (s : State) : Out3 :=
  onLive s fun s =>
    let d := s.dieFreq die
    match d.avs with
    | none => s
    | some a =>
      (s.setDieFreq die { due := match a.raise with | some f => some f | none => d.due, avs := none }).setFld gpioA
        (if die.val = 0 then AVS_VOLT_V_C0 else AVS_VOLT_V_C1) a.mv

/-- AVS_TIMEOUT: a voltage write is abandoned; a raise is not made (R489). -/
def execAvsTimeout (die : Fin 2) (s : State) : Out3 :=
  onLive s fun s =>
    let d := s.dieFreq die
    if !d.avs.any (fun a => decide (a.tick + usTicks 20 ≤ s.tick)) then s
    else ((s.setDieFreq die { d with avs := none }).setFlag gpioA AVS_EVT_AVS_ERR true).incFld gpioA AVS_EVT_ERRORS 1

/-! ### The tick (R459, R462, R463, R467, R468) -/

/-- The governor's power in 0.25 W. -/
def State.vigilPower (s : State) : Nat :=
  let e := s.fld thmA THM_PEST_P_EST
  if s.thm.fresh then max e (s.fld thmA THM_PMEAS_P_MEAS) else e

/-- The settling condition of the last step taken. -/
def State.settled (s : State) (since : Nat) : Bool :=
  let ms := max 1 (s.fld thmA THM_CTRL_SETTLE_MS)
  match s.thm.last with
  | none => true
  | some .freq => decide (1 ≤ since)
  | some .fast => decide (1 ≤ since)
  | some (.depth _) =>
    decide (ms ≤ since) || (List.range 8).all (fun v => (s.vcc v).cur.isNone ||
      s.fld (vccA v) VCC_STATUS_DEPTH = s.fld thmA THM_OPPT_DEPTH)
  | some _ => decide (ms ≤ since)

/-- Where S goes at a tick (R462, R463). -/
def State.nextStep (s : State) (since : Nat) (above under : Bool) : Nat :=
  let n := s.vigilStep
  let top := s.ladder.length
  let low := s.fld thmA THM_TCFG_S_MIN
  let hold := max 1 (s.fld thmA THM_CTRL_HOLD_MS)
  let k :=
    if !s.flag thmA THM_CTRL_EN then low
    else if s.flag thmA THM_STATUS_THROTTLE && decide (n < top) then n + 1
    else if above && s.settled since && decide (n < top) then n + 1
    else if under && decide (low < n) && decide (hold ≤ since) then n - 1
    else n
  min top (max k low)

/-- A tick of the governor with the estimate of power over the last millisecond. -/
def State.vigilTick (s0 : State) (pest : Nat) : State :=
  let s := (s0.setFld thmA THM_PEST_P_EST pest).showDramHot
  let limit := if s.fld thmA THM_PLIMIT_P_LIMIT = 0 then 960 else s.fld thmA THM_PLIMIT_P_LIMIT
  let p := s.vigilPower
  let hotD := s.flag thmA THM_STATUS_DRAM_HOT
  let above := decide (p > limit) || s.flag thmA THM_STATUS_HOT || hotD || s.flag thmA THM_STATUS_THROTTLE
  let under := decide (p + s.fld thmA THM_PLIMIT_P_HYST < limit) && decide (s.tHot < s.fld thmA THM_TCFG_T_TARGET * 4 - 12) && !hotD
  let since := min 65535 (s.thm.since + 1)
  let was := s.vigilStep
  let n := s.nextStep since above under
  let act := if n > was then s.ladder[n - 1]? else s.ladder[was - 1]?
  let u := { s.thm with lost := false, ranTick := s.tick, since := if n = was then since else 0, last := if n = was then s.thm.last else act }
  let s1 := (s.withThm u).setFlag thmA THM_STATUS_VIGIL_LOST false
  let s2 := s1.applyStep n
  let s3 := s2.setFlag thmA THM_STATUS_SETTLED (s2.settled u.since)
  let top := s3.ladder.length
  let short := if above && decide (n = top) then true else if n < top then false else s3.flag thmA THM_STATUS_BUDGET_SHORT
  let s4 := (s3.thmFlag THM_STATUS_BUDGET_SHORT (some THM_EVT_BUDGET_SHORT) short (!short)).1
  (s4.moveFreq 0 (s4.freqWanted 0)).moveFreq 1 (s4.freqWanted 1)

/-- VIGIL_TICK: `pest`: what the activity counts and the leakage model give, in 0.25 W (R459, R462). -/
def execVigilTick (pest : BitVec 16) (s : State) : Out3 := onLive s fun s => s.vigilTick pest.toNat

/-- VIGIL_LOST: no tick for 10 ms (R468). -/
def execVigilLost (s : State) : Out3 :=
  onLive s fun s =>
    if s.thm.lost || decide (s.tick < s.thm.ranTick + usTicks 10000) then s else
    let s1 := (s.withThm { s.thm with lost := true }).showFast 8
    let s2 := ((s1.setFlag thmA THM_STATUS_VIGIL_LOST true).setFlag thmA THM_EVT_VIGIL_LOST true).thmRecord 0
    (s2.moveFreq 0 8).moveFreq 1 8

/-- PMEAS_STALE: 20 ms after the last write (R459). -/
def execPmeasStale (s : State) : Out3 :=
  onLive s fun s => if s.tick < s.thm.measTick + usTicks 20000 then s else s.withThm { s.thm with fresh := false }

/-! ### Registers -/

/-- Writes of THM registers. -/
def thmWrite (c : WCtx) (off a : Nat) (v m : Word) (s : State) : State × WRes :=
  if off = THM_TCFG then
    let t := bits ((s.rd a &&& ~~~ m) ||| (v &&& m)).toNat 13 6
    s.genWrite c a (putFld v THM_TCFG_T_TARGET (clampNat 85 135 t)) m
  else if off = THM_PMEAS then
    let p := s.genWrite c a v m
    (p.1.withThm { p.1.thm with fresh := true, measTick := s.tick }, p.2)
  else if off = THM_CTRL ∨ (THM_QRANK ≤ off ∧ off < THM_QRANK + 0x10) then
    let p := s.genWrite c a v m
    (p.1.reLadder, p.2)
  else if off = THM_ODATA then
    let i := s.fld thmA THM_OIDX_ENTRY
    let new := (s.outEntry i &&& ~~~ m) ||| (v &&& m &&& 0xFFF0003F)
    let old := s.outEntry i
    let moved := s.thm.shed.contains i && decide (entryKind old ≠ entryKind new ∨ entryTarget old ≠ entryTarget new)
    let s0 := if moved then (s.release i).withThm { (s.release i).thm with shed := s.thm.shed.filter (· ≠ i) } else s
    let s1 := s0.advance (thmA + THM_OIDX) 32 ⟨0, 4, 0⟩
    let s2 := (s1.tset .output 0 i new).reLadder
    okW (if c.journal then s2.journal (alEntry a i) m new else s2)
  else s.genWrite c a v m

/-- Reads of THM registers that are windows (THM_ODATA, SHED). -/
def thmRead (off : Nat) (s : State) : Option (Word × State) :=
  if off = THM_ODATA then
    let i := s.fld thmA THM_OIDX_ENTRY
    some (s.outEntry i, s.advance (thmA + THM_OIDX) 32 ⟨0, 4, 0⟩)
  else if off = THM_QHELD then
    let lo := if (s.fld thmA THM_OIDX_ENTRY).testBit 4 then 16 else 0
    let m := (List.range 16).foldl (fun n i => if s.thm.shed.contains (lo + i) then n + 2 ^ i else n) 0
    some (putFld (s.rd (thmA + off)) THM_QHELD_SHED m, s)
  else none

/-- POWER_MEASURE_WRITE: a write of THM_PMEAS (R459). -/
def execPowerMeasureWrite (r : Req) (value : BitVec 16) (s : State) : Out3 :=
  onLive s fun s => (thmWrite (ctxOf r) THM_PMEAS (thmA + THM_PMEAS) (wd value.toNat) 0xFFFFFFFF s).1
/-- STEP_MIN_WRITE: a write of THM_TCFG with a new S_MIN (R463). -/
def execStepMinWrite (r : Req) (smin : BitVec 6) (s : State) : Out3 :=
  onLive s fun s =>
    let a := thmA + THM_TCFG
    (thmWrite (ctxOf r) THM_TCFG a (putFld (s.rd a) THM_TCFG_S_MIN smin.toNat) 0xFFFFFFFF s).1
/-- OUTPUT_ENTRY_WRITE: a write of THM_ODATA (R460, R505). -/
def execOutputEntryWrite (r : Req) (value : Word) (s : State) : Out3 :=
  onLive s fun s => (thmWrite (ctxOf r) THM_ODATA (thmA + THM_ODATA) value 0xFFFFFFFF s).1
/-- QUEUE_RANK_WRITE: a write of THM_QRANKk (R460). -/
def execQueueRankWrite (r : Req) (k : Fin 4) (value : Word) (s : State) : Out3 :=
  onLive s fun s => (thmWrite (ctxOf r) (THM_QRANK + 4 * k) (thmA + THM_QRANK + 4 * k) value 0xFFFFFFFF s).1

end Sys2Proof.Machine
end

