-- ==== Sys2Proof/Machine/EngRegs.lean ====
section
/-! DEFINITION. Cluster registers: doorbells, queue set-up, quiesce, the start of a firmware load (R290, R298, R299). -/
namespace Sys2Proof.Machine

/-- The engine with local index i of a cluster. -/
def engOf (c i : Nat) : WCore := .engine (Fin.ofNat 128 (8 * c + i))
def State.eng (s : State) (c i : Nat) : EngU := s.core (engOf c i)

/-- Dispatch has stopped: QUIESCE, a load, a failed load, a cluster or region fault (R297, R298, Table 22-3). -/
def State.dispatchStopped (s : State) (c : Nat) : Bool :=
  s.flag (engA c) ENG_CTRL_QUIESCE || s.flag (engA c) ENG_FWCTL_GO || s.flag (engA c) ENG_STATUS_FW_BAD ||
    s.flt.clustersFaulted.contains c || s.flt.regionsFaulted.contains (c / 4)

/-- BUSY and QUIESCED. -/
def State.showCluster (s : State) (c : Nat) : State :=
  let busy := (List.range 8).foldl (fun m i => m + b2n (s.eng c i).run * 2 ^ i) 0
  (s.setFld (engA c) ENG_STATUS_BUSY busy).setFlag (engA c) ENG_STATUS_QUIESCED (s.dispatchStopped c && busy = 0)

/-- Entries of a queue: 2^QLOG, values 13 to 15 taken as 12. -/
def State.qEntries (s : State) (c q : Nat) : Nat := 2 ^ min 12 (bits (s.fld (engA c) ENG_QCFG_QLOG3_QLOG0) (4 * q + 3) (4 * q))
def State.qOn (s : State) (c q : Nat) : Bool := (s.fld (engA c) ENG_QCFG_QEN).testBit q
/-- Jobs that wait in a queue. -/
def State.qLevel (s : State) (c q : Nat) : Nat :=
  (s.fld (engA c) (ENG_QPTR_WR.nth 4 q) + 65536 - s.fld (engA c) (ENG_QPTR_RD.nth 4 q)) % 65536

/-- The doorbell: a new WR, ignored with QERR where it would pass the ring; a job posted to a gated cluster wakes it (R9, R290). -/
def engDoorbell (x : WCtx) (c q a : Nat) (v m : Word) (s : State) : State × WRes :=
  let wr := bits ((s.rd a &&& ~~~ m) ||| (v &&& m)).toNat 15 0
  if (wr + 65536 - s.fld (engA c) (ENG_QPTR_RD.nth 4 q)) % 65536 > s.qEntries c q then
    refusedW (s.setBit (engA c) ENG_EVT_QERR q true)
  else
    let (s1, r) := s.genWrite x a v m
    let posted := s1.fld (engA c) (ENG_QPTR_WR.nth 4 q) != s.fld (engA c) (ENG_QPTR_WR.nth 4 q)
    (if posted && s1.flag (engA c) ENG_STATUS_GATED then s1.setClu c { s1.clu c with waking := true } else s1, r)

/-- Queues whose QEN rises start with WR = RD = 0; their first job is looked at afresh. -/
def engQcfg (x : WCtx) (c a : Nat) (v m : Word) (s : State) : State × WRes :=
  let (s1, r) := s.genWrite x a v m
  ((List.range 4).foldl (fun t q =>
    if t.qOn c q && !s.qOn c q then
      (t.wr (engA c + ENG_QPTR + 4 * q) 0).setClu c { t.clu c with blocked := (t.clu c).blocked.filter (· ≠ q) }
    else t) s1, r)

/-- Writes of ENG registers; c is the cluster. -/
def engWrite (x : WCtx) (c off a : Nat) (v m : Word) (s : State) : State × WRes :=
  if ENG_QPTR ≤ off ∧ off < ENG_QPTR + 16 then engDoorbell x c ((off - ENG_QPTR) / 4) a v m s
  else if off = ENG_QCFG then engQcfg x c a v m s
  else if off = ENG_CTRL ∨ off = ENG_FWCTL then
    let (s1, r) := s.genWrite x a v m
    ((s1.setClu c { s1.clu c with blocked := [] }).showCluster c, r)
  else s.genWrite x a v m

end Sys2Proof.Machine
end

