-- ==== Sys2Proof/Machine/TimeOps.lean ====
section
/-! DEFINITION. The time counter, its sources and trackers (R389 to R396). Fine amounts are whole numbers of 2^-72 x 10^-7 ns, in
which INC x (1 + RATE), the slew step and both clamps are exact. -/
namespace Sys2Proof.Machine

/-- One nanosecond, one 2^-8 ns and one 2^-32 ns in the fine unit. -/
def fineNs : Int := 2 ^ 72 * 10000000
def fine8 : Int := 2 ^ 64 * 10000000
def fine32 : Int := 2 ^ 40 * 10000000

/-- SLEW_PPM as taken: 0 as 1, above 100 as 100. -/
def State.slewPpm (s : State) : Nat := clampNat 1 100 (s.fld timeA TIME_CTRL_SLEW_PPM)
/-- The base increment, clamped (R390). -/
def State.baseInc (s : State) : Int :=
  let inc : Nat := s.fld timeA TIME_INC_NS_INC_NS * 2 ^ 32 + s.fld timeA TIME_INC_FRAC_INC_FRAC
  clampInt (24975 * 1000 * 2 ^ 72) (25025 * 1000 * 2 ^ 72) (inc * (2 ^ 40 + s.time.rate) * 10000000)
/-- The slew step: SLEW_PPM of 2.5 ns towards the remaining slew, the last one cut (R390). -/
def State.slewStep (s : State) : Int :=
  let k : Int := 25 * s.slewPpm * 2 ^ 72
  clampInt (-k) k s.time.slew

/-- The counter gains delta; true when a second begins. -/
def TimeU.gain (t : TimeU) (delta : Int) : TimeU :=
  let all : Nat := (t.ns * 2 ^ 32 + t.frac) * (2 ^ 40 * 10000000) + t.rem + delta.toNat
  let f32 := all / (2 ^ 40 * 10000000)
  let ns := f32 / 2 ^ 32
  { t with ns := if ns ≥ 1000000000 then ns - 1000000000 else ns
           sec := if ns ≥ 1000000000 then (t.sec + 1) % 2 ^ 64 else t.sec
           frac := f32 % 2 ^ 32
           rem := all % (2 ^ 40 * 10000000) }

/-- Codec CTU counts move to VCC_LOAD once a second. -/
def State.loadSecond (s : State) : State :=
  (List.range 8).foldl (fun t v =>
    let u := t.vcc v
    (t.setFld (vccA v) VCC_LOAD_CTUS (sat 32 u.ctus)).setVcc v { u with ctus := 0 }) s

/-- One TMC tick (R390). -/
def State.oneTick (s : State) : State :=
  let base := s.baseInc
  let delta := clampInt (24975 * 1000 * 2 ^ 72) (25025 * 1000 * 2 ^ 72) (base + s.slewStep)
  let s1 := { s with tick := s.tick + 1, time := { s.time.gain delta with slew := s.time.slew - (delta - base) } }
  if s1.tick % 400000000 = 0 then s1.loadSecond else s1
/-- n ticks. -/
def State.ticks : Nat → State → State
  | 0, s => s
  | n + 1, s => State.ticks n s.oneTick

/-! ### Trackers (R395, R396) -/

/-- Tracker d's registers. -/
def domF (f : Fld) (d : Nat) : Fld := f.nth 0x10 d
def State.dom (s : State) (d : Nat) : Tracker := if d = 0 then s.time.dom0 else s.time.dom1
def State.setDom (s : State) (d : Nat) (t : Tracker) : State :=
  if d = 0 then (s.withTime { s.time with dom0 := t }) else (s.withTime { s.time with dom1 := t })
/-- Usable: EN = 1, neither STALE nor LOST. -/
def State.usable (s : State) (d : Nat) : Bool :=
  s.flag timeA (domF DOM_CTRL_EN d) && !s.flag timeA (domF DOM_UPD_STALE d) && !s.flag timeA (domF DOM_CTRL_LOST d)
/-- The domain that ACTIVE names. -/
def State.activeDom (s : State) : Nat := s.fld timeA TIME_CTRL_ACTIVE
def State.timeSrc (s : State) : Nat := s.fld timeA TIME_CTRL_SRC
def State.holdover (s : State) : Bool := s.flag timeA TIME_STATUS_HOLDOVER
/-- OFS carried forward from the moment of commit (R395). -/
def State.carried (s : State) (d : Nat) : Int :=
  let t := s.dom d
  t.ofs + (t.rate - s.time.rate) * (s.now32 - t.upd32) * 10000000
/-- The counter takes a tracker's rate and offset. -/
def State.takeDom (s : State) (d : Nat) : State :=
  (s.withTime { s.time with slew := s.carried d, rate := (s.dom d).rate })
/-- Equinox switch (R396). -/
def State.equinox (s : State) (d : Nat) : State :=
  (((s.takeDom d).setFld timeA TIME_CTRL_ACTIVE d).setFlag timeA TIME_STATUS_EQUINOX true).setFlag timeA TIME_STATUS_HOLDOVER false
/-- The domain in force is not usable: a switch, or holdover (R396). -/
def State.domainGone (s : State) : State :=
  let o := 1 - s.activeDom
  if s.usable o then s.equinox o else s.setFlag timeA TIME_STATUS_HOLDOVER true
/-- The device acts at once when the domain in force has stopped being usable (R396). -/
def State.checkDomain (s : State) : State :=
  if s.timeSrc = 1 && !s.holdover && !s.usable s.activeDom then s.domainGone else s
/-- SRC takes a new value (R394, R390). -/
def State.setSrc (s : State) (v : Nat) : State :=
  let old := s.timeSrc
  let s1 := s.setFld timeA TIME_CTRL_SRC v
  if v = old then s1
  else
    let s2 := if old = 1 then s1.setFlag timeA TIME_STATUS_HOLDOVER false else s1
    if v = 1 then (if s2.usable s2.activeDom then s2.takeDom s2.activeDom else s2.domainGone)
    else if v = 0 then (s2.withTime { s2.time with rate := 0 })
    else s2

/-- UPD of a tracker (R395, R396). -/
def State.domUpdate (s : State) (d : Nat) : State :=
  let ofs := toSigned 32 (s.fld timeA (domF DOM_OFS_OFS d)) * fine8
  let rate := toSigned 32 (s.fld timeA (domF DOM_RATE_RATE d))
  let s1 := ((s.setDom d ⟨ofs, rate, s.now32⟩).setFlag timeA (domF DOM_UPD_STALE d) false).setFlag timeA (domF DOM_CTRL_LOST d) false
  let en := s1.flag timeA (domF DOM_CTRL_EN d)
  if s1.timeSrc ≠ 1 || !en then s1
  else if s1.holdover then
    (if d = s1.activeDom then (s1.takeDom d).setFlag timeA TIME_STATUS_HOLDOVER false else s1.equinox d)
  else if d = s1.activeDom then s1.takeDom d
  else s1

/-! ### Steps and slew (R392, R393) -/

/-- A stamp moved by a step. -/
def moved (d : Int) (n : Nat) : Nat := ((n : Int) + d).toNat
def TwcItem.moved (d : Int) (x : TwcItem) : TwcItem := { x with deadline := Machine.moved d x.deadline }

/-- Stamps kept to predict edges move with a step of d ns (d32 in 2^-32 ns); lines stamped before it are marked for the class-0 monitors (R392). -/
def State.moveStamps (s : State) (d d32 : Int) : State :=
  { s with
    camps := s.camps.map (fun c => { c with fvNs := c.fvNs.map (moved d), fvFallNs := c.fvFallNs.map (moved d), lineAt := c.lineAt + d32
                                            stepMark := some (c.frame, c.lines) })
    cals := s.cals.map (fun c => { c with waiting := c.waiting.map (TwcItem.moved d) })
    twcs := s.twcs.map (fun t => { t with queue := t.queue.map (TwcItem.moved d)
                                          cur := match t.cur with
                                            | some (.item x) => some (.item (x.moved d))
                                            | o => o })
    heads := s.heads.map (fun u => { u with target := u.target.map (fun t => { t with ns := moved d t.ns }) })
    axes := s.axes.map (fun u => { u with hist := u.hist.map (fun e => { e with ns := moved d e.ns }) })
    poses := s.poses.map (fun u => { u with waiting := u.waiting.map (fun m => { m with ns := moved d m.ns }) }) }

/-- GO in TIME_SET_CTL (R392). -/
def State.timeStep (s : State) : State :=
  let ns := s.fld timeA TIME_SET_NS_NS
  if ns ≥ 1000000000 then s.setFlag timeA TIME_STATUS_CFG_ERR true
  else
    let sec := s.fld timeA TIME_SET_SEC_HI_SEC * 2 ^ 32 + s.fld timeA TIME_SET_SEC_LO_SEC
    let old := s.now32
    let oldNs : Int := s.nowNs
    let oldRem : Int := s.time.rem
    let s1 := (s.withTime { s.time with sec := sec, ns := ns, frac := 0, rem := 0, slew := 0 })
    let size := s1.now32 - old
    let fall (t : Tracker) : Tracker := { t with ofs := t.ofs - (size * fine32 - oldRem), upd32 := t.upd32 + size }
    let s2 := (s1.withTime { s1.time with dom0 := fall s1.time.dom0, dom1 := fall s1.time.dom1 })
    (s2.moveStamps ((s1.nowNs : Int) - oldNs) size).setFlag timeA TIME_STATUS_STEPPED true

/-- A value written to TIME_SLEW (R393). -/
def State.addSlew (s : State) (v : Word) : State :=
  let n := s.time.slew + toSigned 32 v.toNat * fine8
  if n > 8000000 * fineNs ∨ n < -(8000000 * fineNs) then s.setFlag timeA TIME_STATUS_CFG_ERR true
  else (s.withTime { s.time with slew := n })

/-- TIME_SLEW as read: truncated toward zero (R393). -/
def State.slewRead (s : State) : Word := wd (ofSigned 32 (Int.tdiv s.time.slew fine8))

/-! ### Registers -/

/-- A write of TIME_CTRL (R394, R396): what ACTIVE names is settled before SRC changes. -/
def timeCtrl (c : WCtx) (a : Nat) (v m : Word) (s : State) : State × WRes :=
  let old := s.rd a
  let new := (old &&& ~~~ m) ||| (v &&& m)
  let src := bits new.toNat 1 0
  let act := bits new.toNat 4 4
  let oldSrc := s.timeSrc
  let late := decide (s.fld advA ADV_SYSCFG_COUNT > 1) && s.phase = 7 && decide (src ≠ oldSrc) && c.path != .replay
  let badSrc := decide (src = 3) || late
  let toAct := decide (act ≠ s.activeDom)
  let switch := toAct && oldSrc = 1 && (src = 1 || badSrc)
  let badAct := switch && !s.usable act
  let s0 := if badSrc || badAct then s.setFlag timeA TIME_STATUS_CFG_ERR true else s
  let dropM : Word := (if badSrc then 3 else 0) ||| (if badAct then 0x10 else 0)
  let m1 := m &&& ~~~ dropM
  let p := s0.genWrite c a ((v &&& ~~~ (3 : Word)) ||| wd oldSrc) m1
  let s1 := if switch && !badAct then p.1.equinox act else p.1
  let s2 := if badSrc then s1 else s1.setSrc src
  let s3 := if c.journal && decide (src ≠ oldSrc) && !badSrc then s2.journal (alReg a) 3 (wd src) else s2
  (s3, if badSrc || badAct then .refused else p.2)

/-- Writes of TIME registers. -/
def timeWrite (c : WCtx) (off a : Nat) (v m : Word) (s : State) : State × WRes :=
  if off = TIME_CTRL then timeCtrl c a v m s
  else if off = TIME_SET_CTL then
    (if (v &&& m).toNat.testBit 0 then
      (if s.fld timeA TIME_SET_NS_NS ≥ 1000000000 then refusedW s.timeStep else okW s.timeStep) else okW s)
  else if off = TIME_SLEW then
    let s1 := s.addSlew (v &&& m)
    if s1.time.slew = s.time.slew && toSigned 32 (v &&& m).toNat ≠ 0 then refusedW s1 else okW s1
  else if off = DOM_CTRL ∨ off = DOM_CTRL + 0x10 then
    let p := s.genWrite c a v m
    (p.1.checkDomain, p.2)
  else if off = DOM_UPD ∨ off = DOM_UPD + 0x10 then
    okW (if (v &&& m).toNat.testBit 0 then s.domUpdate ((off - DOM_UPD) / 0x10) else s)
  else s.genWrite c a v m

/-- Reads of TIME registers that show the counter (R391, R393). -/
def timeRead (off : Nat) (s : State) : Option (Word × State) :=
  if off = TIME_RD_NS then
    some (wd s.time.ns, (((s.wr (timeA + TIME_RD_SEC_LO) (wd s.time.sec)).wr (timeA + TIME_RD_SEC_HI) (wd (s.time.sec / 2 ^ 32))).wr
      (timeA + TIME_RD_FRAC) (wd s.time.frac)))
  else if off = TIME_SLEW then some (s.slewRead, s)
  else if off = TIME_STATUS then
    some (putFld (s.rd (timeA + off)) TIME_STATUS_SLEWING (b2n (decide (s.time.slew ≠ 0))), s)
  else none

end Sys2Proof.Machine
end

