-- ==== Sys2Proof/Machine/Eth.lean ====
section
/-! DEFINITION. Ethernet ports (R398 to R404). -/
namespace Sys2Proof.Machine

/-! ### Registers -/

/-- A write of ETH_CTRL: reserved MODE or FEC, or RS-FEC at 10 Gbit/s, is refused (R398). -/
def ethCtrl (c : WCtx) (k a : Nat) (v m : Word) (s : State) : State × WRes :=
  let n := ((s.rd a &&& ~~~ m) ||| (v &&& m)).toNat
  let mode := bits n 30 29
  let fec := bits n 28 27
  let bad := mode = 0 || mode = 3 || fec = 3 || (fec = 2 && mode = 1)
  let s0 := if bad then s.setFlag (ethA k) ETH_STATUS_CFG_ERR true else s
  let p := s0.genWrite c a v (if bad then m &&& 0x87FFFFFF else m)
  (p.1.quadsFollow, if bad then .refused else p.2)

/-- log2 of a ring's entries, clamped to 4 to 12 (R400). -/
def State.ringLog (s : State) (k : Nat) (f : Fld) : Nat := clampNat 4 12 (s.fld (ethA k) f)
/-- Entries posted and not finished. -/
def State.ringUsed (s : State) (k : Nat) (rd wr : Fld) : Nat :=
  (s.fld (ethA k) wr + 65536 - s.fld (ethA k) rd) % 65536
/-- A doorbell; one that would make the ring overfull is ignored (R290, R400). -/
def ethDoorbell (c : WCtx) (k a : Nat) (rd log : Fld) (v m : Word) (s : State) : State × WRes :=
  let w := bits ((s.rd a &&& ~~~ m) ||| (v &&& m)).toNat 15 0
  if (w + 65536 - s.fld (ethA k) rd) % 65536 > 2 ^ s.ringLog k log then okW s else s.genWrite c a v m

/-- Writes of ETH registers. -/
def ethWrite (c : WCtx) (k off a : Nat) (v m : Word) (s : State) : State × WRes :=
  if off = ETH_CTRL then ethCtrl c k a v m s
  else if off = ETH_TX_PTR then ethDoorbell c k a ETH_TX_PTR_RD ETH_RING_CFG_TX_LOG v m s
  else if off = ETH_RX0_PTR then ethDoorbell c k a ETH_RX0_PTR_RD ETH_RING_CFG_RX0_LOG v m s
  else if off = ETH_RX1_PTR then ethDoorbell c k a ETH_RX1_PTR_RD ETH_RING_CFG_RX1_LOG v m s
  else s.genWrite c a v m

/-- ETH_CONFIG_WRITE: a write of ETH_CTRL. -/
def execEthConfigWrite (r : Req) (k : Fin 4) (value : Word) (s : State) : Out3 :=
  onLive s fun s => (ethWrite (ctxOf r) k ETH_CTRL (ethA k + ETH_CTRL) value 0xFFFFFFFF s).1
/-- ETH_TX_DOORBELL: a write of the transmit WR. -/
def execEthTxDoorbell (r : Req) (k : Fin 4) (wr : BitVec 16) (s : State) : Out3 :=
  onLive s fun s => (ethWrite (ctxOf r) k ETH_TX_PTR (ethA k + ETH_TX_PTR) (wd wr.toNat) 0xFFFF s).1
/-- ETH_RX_DOORBELL: a write of a receive WR; `ring`: ring 1. -/
def execEthRxDoorbell (r : Req) (k : Fin 4) (ring : Bool) (wr : BitVec 16) (s : State) : Out3 :=
  onLive s fun s =>
    let off := if ring then ETH_RX1_PTR else ETH_RX0_PTR
    (ethWrite (ctxOf r) k off (ethA k + off) (wd wr.toNat) 0xFFFF s).1

/-! ### Frames -/

/-- MAX_FRAME as taken. -/
def State.maxFrame (s : State) (k : Nat) : Nat :=
  let v := s.fld (ethA k) ETH_CTRL_MAX_FRAME
  if v < 64 ∨ v > 9216 then 9216 else v
/-- The port's address, bytes in order of transmission. -/
def State.macOf (s : State) (k : Nat) : List Byte :=
  toBytesBE 2 (s.fld (ethA k) ETH_MAC_HI_MAC) ++ toBytesBE 4 (s.fld (ethA k) ETH_MAC_LO_MAC)
/-- A big-endian number in a frame. -/
def beAt (f : List Byte) (o n : Nat) : Nat := leNat ((f.drop o).take n).reverse
/-- Bytes of a frame replaced. -/
def putAt (f : List Byte) (o : Nat) (b : List Byte) : List Byte := f.take o ++ b ++ f.drop (o + b.length)
/-- PTP multicast addresses (R399). -/
def ptpMacs : List Nat := [0x011B19000000, 0x0180C200000E, 0x01005E000181, 0x01005E00006B, 0x333300000181, 0x33330000006B]

/-- A frame is accepted (R399). -/
def State.accepts (s : State) (k : Nat) (f : List Byte) : Bool :=
  let d := beAt f 0 6
  f.take 6 = s.macOf k || d = 0xFFFFFFFFFFFF ||
    (d.testBit 40 && s.flag (ethA k) ETH_CTRL_MCAST_ALL) || ptpMacs.contains d || s.flag (ethA k) ETH_CTRL_PROMISC

/-- Where the EtherType stands: after zero, one or two tags (R399). -/
def typeAt (f : List Byte) : Nat :=
  let tag (o : Nat) : Bool := beAt f o 2 = 0x8100 || beAt f o 2 = 0x88A8
  if tag 12 then (if tag 16 then 20 else 16) else 12

/-- A PTP frame's header offset, and whether it is an event frame (R399). -/
def ptpOf (f : List Byte) : Option (Nat × Bool) :=
  let t := typeAt f
  let o := t + 2
  let et := beAt f t 2
  let udp (u : Nat) : Option (Nat × Bool) :=
    let port := beAt f (u + 2) 2
    if port = 319 ∨ port = 320 then some (u + 8, decide (port = 319)) else none
  if et = 0x88F7 then some (o, decide (beAt f o 1 % 16 ≤ 3))
  else if et = 0x0800 ∧ beAt f o 1 / 16 = 4 ∧ beAt f (o + 9) 1 = 17 then udp (o + beAt f o 1 % 16 * 4)
  else if et = 0x86DD ∧ beAt f (o + 6) 1 = 17 then udp (o + 40)
  else none

/-- A stamp: nanoseconds, and a fraction in 2^-16 ns. -/
structure EthStamp where
  ns : Nat
  frac16 : Nat
  deriving DecidableEq, Repr

/-- The time now moved by a delay in ps (R403): the fraction of the stamp is that of the delay in ps, truncated to 2^-16 ns. -/
def State.stampPs (s : State) (ps : Int) : EthStamp :=
  let t : Int := s.nowNs * 1000 + ps
  ⟨(t / 1000).toNat, (t % 1000).toNat * 65536 / 1000⟩

/-- Seconds (48 bits) and nanoseconds as a descriptor holds them (Table 17-1, bytes 16 to 31). -/
def EthStamp.bytes (t : EthStamp) : List Byte :=
  toBytes 6 (t.ns / 1000000000) ++ toBytes 2 0 ++ toBytes 4 (t.ns % 1000000000) ++ toBytes 4 0

/-- The 16-bit one's complement sum of bytes. -/
def onesSum : List Byte → Nat
  | a :: b :: t => a.toNat * 256 + b.toNat + onesSum t
  | [a] => a.toNat * 256
  | [] => 0
/-- A sum folded into 16 bits. -/
def fold16 (n : Nat) : Nat :=
  let a := n % 65536 + n / 65536
  let b := a % 65536 + a / 65536
  b % 65536 + b / 65536

/-- The last 2 bytes of a UDP payload adjusted so that the sum over the changed bytes stays what it was (R404). -/
def keepSum (old new : List Byte) (o ending : Nat) : List Byte :=
  let before := fold16 (onesSum ((old.take ending).drop o))
  let now := fold16 (onesSum ((new.take (ending - 2)).drop o ++ [0, 0]))
  let fit := fold16 (before + (65535 - now))
  let odd := (ending - 2 - o) % 2 = 1
  putAt new (ending - 2) (if odd then (toBytesBE 2 fit).reverse else toBytesBE 2 fit)

/-- One-step insertion into a frame (R404): the frame, and false where TS_ERR is to be set. -/
def oneStep (f : List Byte) (o : Nat) (turn v6 : Bool) (reqNs : Nat) (t : EthStamp) : List Byte × Bool :=
  let type := beAt f o 1 % 16
  let fits := decide (o + (if turn then 54 else 44) ≤ f.length)
  let ok := fits && (if turn then type = 3 else type = 0)
  if !ok then (f, false)
  else
    let corr := beAt f (o + 8) 8
    let f1 :=
      if turn then
        let d : Int := ((t.ns : Int) - (reqNs : Int)) * 65536 + t.frac16
        putAt f (o + 8) (toBytesBE 8 (ofSigned 64 ((corr : Int) + d)))
      else
        putAt (putAt f (o + 8) (toBytesBE 8 (corr + t.frac16))) (o + 34)
          (toBytesBE 6 (t.ns / 1000000000) ++ toBytesBE 4 (t.ns % 1000000000))
    let et := beAt f (typeAt f) 2
    if et = 0x88F7 then (f1, true)
    else if v6 then
      let ending := o - 8 + beAt f (o - 4) 2
      (if o + 2 ≤ ending ∧ ending ≤ f.length then keepSum f f1 o ending else f1, true)
    else (putAt f1 (o - 2) [0, 0], true)

/-- The descriptor at RD of a ring. -/
def State.ethDesc (s : State) (k : Nat) (base rd log : Fld) : Nat :=
  s.fld (ethA k) base * 256 + 32 * (s.fld (ethA k) rd % 2 ^ s.ringLog k log)

/-- Words of a frame that leaves a port. -/
def State.ethEmit (s : State) (k : Fin 4) (f : List Byte) (badFcs : Bool) : State :=
  let fcs := crc32 f
  s.emitLane 14 4 (.eth k) 0 ((f ++ toBytes 4 (if badFcs then 2 ^ 32 - 1 - fcs else fcs)).map (·.toNat))

/-- STATUS of a descriptor. -/
def ethStatus (tsValid tsErr ptp event err : Bool) : Nat :=
  1 + 2 * b2n tsValid + 4 * b2n tsErr + 8 * b2n ptp + 16 * b2n event + 32 * b2n err

/-- A transmit descriptor is finished: status, stamp, RD, TX_DONE (R401). -/
def State.ethFinish (s : State) (k : Fin 4) (d : Nat) (status : Nat) (stamp : Option EthStamp) : State :=
  let b := ethA k
  let s1 := s.put (.eth k) (d + 14) (toBytes 2 status)
  let s2 := match stamp with | some t => s1.put (.eth k) (d + 16) t.bytes | none => s1
  let s3 := (s2.setFld b ETH_TX_PTR_RD (s2.fld b ETH_TX_PTR_RD + 1)).setFlag b ETH_EVT_TX_DONE true
  if status.testBit 2 then s3.setFlag b ETH_EVT_TS_ERR true else s3

/-- ETH_FRAME_TRANSMIT: the descriptor at RD of the transmit ring is served. `answer`: how its buffer read was answered (R401,
R403, R404); a descriptor read with poison ends as a buffer read does, with nothing sent (notes/assumptions/72.md). -/
def execEthFrameTransmit (k : Fin 4) (answer : BusAns) (s : State) : Out3 :=
  onLive s fun s =>
    let b := ethA k
    if !s.flag b ETH_CTRL_EN || s.ringUsed k ETH_TX_PTR_RD ETH_TX_PTR_WR = 0 || !s.flag b ETH_STATUS_LINK_UP then s
    else
      let d := s.ethDesc k ETH_TX_BASE_ADDR ETH_TX_PTR_RD ETH_RING_CFG_TX_LOG
      let desc := s.take (.eth k) d 32
      let len := at' desc.1 8 2
      let flags := at' desc.1 10 2
      let s := desc.2.2
      if desc.2.1 then s.ethFinish k d (ethStatus false false false false true) none
      else if len > s.maxFrame k - 4 then s.ethFinish k d (ethStatus false false false false true) none
      else
        let rd := s.busRead (.eth k) (at' desc.1 0 8) len
        let raw := rd.1.getD (List.replicate len 0)
        let s := rd.2
        let t := s.stampPs (s.fld b ETH_TXDLY_TX_DELAY_PS)
        let want := flags % 4 ≠ 0
        if answer ≠ .ok ∨ rd.1.isNone then
          (s.ethEmit k raw true).ethFinish k d (ethStatus false false false false true) none
        else
          let f0 := raw ++ List.replicate (60 - raw.length) 0
          let p := if flags.testBit 1 then
              oneStep f0 (at' desc.1 12 2) (flags.testBit 2) (flags.testBit 3)
                (at' desc.1 16 6 * 1000000000 + at' desc.1 24 4 % 2 ^ 30) t
            else (f0, true)
          (s.ethEmit k p.1 false).ethFinish k d (ethStatus want (!p.2) false false false) (if want then some t else none)

/-- A received frame goes to a ring, or is dropped (R402); a descriptor whose read is poisoned is no posted one
(notes/assumptions/72.md). -/
def State.ethStore (s : State) (k : Fin 4) (f : List Byte) (ptp : Option (Nat × Bool)) : State :=
  let b := ethA k
  let zero := ptp.isSome
  let base := if zero then ETH_RX0_BASE_ADDR else ETH_RX1_BASE_ADDR
  let rd := if zero then ETH_RX0_PTR_RD else ETH_RX1_PTR_RD
  let wr := if zero then ETH_RX0_PTR_WR else ETH_RX1_PTR_WR
  let log := if zero then ETH_RING_CFG_RX0_LOG else ETH_RING_CFG_RX1_LOG
  let d := s.ethDesc k base rd log
  let used := s.ringUsed k rd wr
  let desc := if used = 0 then ([], true, s) else s.take (.eth k) d 32
  let s := desc.2.2
  if desc.2.1 ∨ f.length > at' desc.1 8 2 then
    (s.incFld b ETH_CNT_RX_DROPS 1).setFlag b ETH_EVT_RX_DROP true
  else
    let t := s.stampPs (-(s.fld b ETH_RXDLY_RX_DELAY_PS : Int))
    let s1 := (s.busWrite (.eth k) (at' desc.1 0 8) f).2
    let ofs := match ptp with | some p => p.1 | none => 0xFFFF
    let event := match ptp with | some p => p.2 | none => false
    let s2 := s1.put (.eth k) (d + 8) (toBytes 2 f.length ++ (desc.1.drop 10).take 2 ++ toBytes 2 ofs ++
      toBytes 2 (ethStatus true false zero event false) ++ t.bytes)
    (s2.setFld b rd (s2.fld b rd + 1)).setFlag b (if zero then ETH_EVT_RX0 else ETH_EVT_RX1) true

/-- ETH_FRAME_RECEIVE: a frame with its FCS comes in (R398, R399, R402). -/
def execEthFrameReceive (k : Fin 4) (frame : List Byte) (s : State) : Out3 :=
  onLive s fun s =>
    let b := ethA k
    if !s.flag b ETH_CTRL_EN || !s.flag b ETH_STATUS_LINK_UP then s
    else
      let f := frame.take (frame.length - 4)
      if toBytes 4 (crc32 f) ≠ frame.drop (frame.length - 4) then s.incFld b ETH_CNT_FCS_ERR 1
      else if frame.length > s.maxFrame k then s.incFld b ETH_CNT2_OVERSIZE 1
      else if frame.length < 64 then s
      else if beAt f 12 2 = 0x8808 then s.incFld b ETH_CNT2_CTRL_DROP 1
      else if !s.accepts k f then s
      else s.ethStore k f (ptpOf f)

/-- ETH_LINK_CHANGE: what the port's PCS shows has changed; LINK_CHG is set when the link came or went (R398). -/
def execEthLinkChange (k : Fin 4) (link : EthLink) (s : State) : Out3 :=
  onLive s fun s =>
    let b := ethA k
    let changed := decide (s.flag b ETH_STATUS_LINK_UP ≠ link.up)
    let s1 := ((((s.setFlag b ETH_STATUS_LINK_UP link.up).setFlag b ETH_STATUS_FEC_LOCK link.fecLock).setFlag b
      ETH_STATUS_LOCAL_FAULT link.localFault).setFlag b ETH_STATUS_REMOTE_FAULT link.remoteFault).setFlag b
      ETH_STATUS_BLOCK_LOCK link.blockLock
    if changed then s1.setFlag b ETH_EVT_LINK_CHG true else s1

end Sys2Proof.Machine
end

