-- ==== Sys2Proof/Machine/HeadCmds.lean ====
section
/-! DEFINITION. The commands of the display heads and of tile calibration (R189 to R219), and the registers of both. -/
namespace Sys2Proof.Machine

/-- The head may produce frames: Advent has reached A7, or maintenance state shows black (R73, R74). -/
def State.headMayRun (s : State) : Bool := decide (s.phase = 7) || s.maint
/-- A bank of filter coefficients that a committed, enabled layer uses in four-tap mode (R198). -/
def State.filterBusy (s : State) (h bank : Nat) : Bool :=
  (s.layersOn h).any (fun l => (l.vtaps = 2 && l.vbank = bank) || (l.htaps = 2 && l.hbank = bank))

/-- A write of HEAD_FILTDATA (R198). -/
def State.filterStore (s : State) (h : Nat) (v : Word) : State × WRes :=
  let b := headA h
  let i := s.fld b HEAD_FILTIDX_INDEX
  let s1 := s.setFld b HEAD_FILTIDX_INDEX (i + 1)
  if s.filterBusy h (i / 256) then refusedW (s1.setFlag b HEAD_STATUS_TBL_ERR true)
  else okW (s1.tset .headFilter h i (v &&& 0x3FF))
/-- A write of HEAD_PLDATA (R201). -/
def State.placementStore (s : State) (h : Nat) (v : Word) : State × WRes :=
  let b := headA h
  let i := s.fld b HEAD_PLIDX_INDEX
  let s1 := s.setFld b HEAD_PLIDX_INDEX (i + 1)
  if s.inForce b HEAD_CTRL_PL_BANK = i / 16384 then refusedW (s1.setFlag b HEAD_STATUS_TBL_ERR true)
  else okW (s1.tset .placement h i v)

/-- Writes of HEAD registers with an effect of their own. -/
def headWrite (x : WCtx) (h off a : Nat) (v m : Word) (s : State) : State × WRes :=
  let b := headA h
  if off = HEAD_FILTDATA then s.filterStore h v
  else if off = HEAD_PLDATA then s.placementStore h v
  else if off = HEAD_CTRL then
    let was := s.flag b HEAD_CTRL_EN
    let (s1, r) := s.genWrite x a v m
    let on := s1.flag b HEAD_CTRL_EN
    (if on && !was && s1.headMayRun && !s1.maint then s1.headStart h .first
     else if was && !on && !s1.maint then s1.headStop h
     else s1, r)
  else s.genWrite x a v m

/-- Reads of HEAD registers with an effect of their own (R198, R201, R211). -/
def headRead (h off : Nat) (s : State) : Option (Word × State) :=
  let b := headA h
  if off = HEAD_FILTDATA then
    let i := s.fld b HEAD_FILTIDX_INDEX
    some (s.tget .headFilter h i, s.setFld b HEAD_FILTIDX_INDEX (i + 1))
  else if off = HEAD_PLDATA then
    let i := s.fld b HEAD_PLIDX_INDEX
    some (s.tget .placement h i, s.setFld b HEAD_PLIDX_INDEX (i + 1))
  else if off = HEAD_FS_NS then
    some (s.rd (b + HEAD_FS_NS), s.setFld b HEAD_FS_SEC_FS_SEC ((s.head h).fsNs / 1000000000))
  else none

/-- HEAD_ENABLE: a write of HEAD_CTRL with EN = 1 (R205). -/
def execHeadEnable (r : Req) (h : Fin 4) (value : Word) (s : State) : Out3 :=
  onLive s fun s => (headWrite (ctxOf r) h HEAD_CTRL (headA h + HEAD_CTRL) (value ||| 0x80000000) 0xFFFFFFFF s).1

/-- The freeze point of a head: 2 output lines before the start that VT_MIN allows first, so row VT_MIN - 2 is due (R122). -/
def State.headFreezeDue (s : State) (h : Nat) : Bool :=
  let u := s.head h
  let n := s.inForce (headA h) HEAD_VT_VT_MIN
  decide (n ≤ u.rows + 1) || (decide (n = u.rows + 2) && !u.rowOpen)

/-- HEAD_FREEZE: the freeze before the head's Solstice: later writes of SH fields are held, and the surfaces' reads are made
(R122, R195). Before its point nothing happens. -/
def execHeadFreeze (h : Fin 4) (s : State) : Out3 :=
  onLive s fun s =>
    if s.headRuns h && !(s.head h).selecting && s.headFreezeDue h then
      let s1 := (s.freeze (headA h)).freeze (tcmA h)
      s1.setHead h { s1.head h with selecting := true, selected := false, next := [], kept := []
                                    fPred := (s1.solstice (headA h)).fPred h }
    else s

/-- SURFACE_SELECT_DONE: the reads of the freeze return; `failed` and `poisoned` name the layers whose reads went wrong
(R195). -/
def execSurfaceSelectDone (h : Fin 4) (failed poisoned : List Nat) (s : State) : Out3 :=
  onLive s fun s =>
    let u := s.head h
    if u.selecting && !u.selected then
      let t := s.selectErrors (s.headNext h) h
      t.setHead h { u with selected := true
                           next := s.selectAll (s.solstice (headA h)) h u.fPred failed poisoned
                           kept := s.selectAll s h u.fPred failed poisoned }
    else s

/-- START_TARGET_REACHED: the start target's time arrives (Table 8-8). -/
def execStartTargetReached (h : Fin 4) (s : State) : Out3 :=
  onLive s fun s =>
    let u := s.head h
    if !s.headRuns h || u.target.isNone || u.early then s
    else if u.rows ≥ s.inForce (headA h) HEAD_VT_VT_MIN then s.headStart h .target
    else if u.forced then
      let f := (u.target.map (·.frame)).getD 0
      (s.setHead h { u with target := none, lines := u.lines.filter (fun k => k.h.frame ≠ f), lost := u.lost.filter (fun e => e.1 ≠ f) }).incFld
        (headA h) HEAD_CNT2_DISCARDS 1
    else s.setHead h { u with early := true }

/-- HEAD_ROW_END: the row in progress ends; `recordWritten`: DRAM has taken the frame record that waited (R205, R212). -/
def execHeadRowEnd (h : Fin 4) (recordWritten : Bool) (s : State) : Out3 :=
  onLive s fun s =>
    if s.headRuns h && (s.head h).rowOpen then ((if recordWritten then s.flushRecord h else s)).rowEnded h else s

/-- HEAD_ROW_START: the next row is due (R190, R206). -/
def execHeadRowStart (h : Fin 4) (s : State) : Out3 :=
  onLive s fun s => if s.headRuns h && !(s.head h).rowOpen && !(s.head h).waiting then s.dueRow h else s

/-- A head keeps the lines of its camera frame, and of the frame whose start target is pending (R206). -/
def State.takeLine (s : State) (h : Nat) (k : Pkt) : State :=
  let u := s.head h
  let isOff := match s.direct h with | some l => u.off.contains l.i | none => true
  let wanted := (some k.h.frame == u.cam && !isOff) || u.target.any (fun t => t.frame = k.h.frame)
  if !wanted then s
  else
    let all := u.lines ++ [k]
    if all.length ≤ 16 then s.setHead h { u with lines := all }
    else
      match all with
      | [] => s
      | o :: rest => s.setHead h { u with lines := rest, lost := u.lost ++ [(o.h.frame, o.h.line)] }

/-- DIRECT_LINE_ARRIVAL: the line in front of the head's direct stream arrives, and a row that waited for it begins (R206). -/
def execDirectLineArrival (h : Fin 4) (s : State) : Out3 :=
  onLive s fun s =>
    match (s.head h).inQ with
    | ⟨hd, .line v⟩ :: rest =>
      let s1 := s.setHead h { s.head h with inQ := skipFree rest }
      let s2 := if s1.headRuns h then s1.takeLine h ⟨hd, .line v⟩ else s1
      if (s2.head h).waiting then s2.dueRow h else s2
    | _ => s

/-- WAIT_NS, or two line periods, have passed since the row began to wait (R206). -/
def State.waitOver (s : State) (h : Nat) : Bool :=
  let ns := s.fld (headA h) HEAD_WAIT_WAIT_NS
  let ps := if ns = 0 then 2 * s.fld (campA (s.inForce (headA h) HEAD_CTRL_LOCK_PORT)) CAMP_TLINE_TLINE_PS else 1000 * ns
  decide ((s.head h).waitTick * 2500 + ps ≤ s.tick * 2500)
/-- DIRECT_WAIT_EXPIRY: the wait of a row ends, and the direct layer underruns (R206, R207). -/
def execDirectWaitExpiry (h : Fin 4) (s : State) : Out3 :=
  onLive s fun s =>
    if s.headRuns h && (s.head h).waiting && s.waitOver h then
      (match s.direct h with | some l => s.underrun h l.i false | none => s).beginRow h
    else s

/-- SURFACE_FETCH_DONE: a source row that was fetched arrives (R196), poisoned where `poison` says so or memory does not answer
(R38, R323). -/
def execSurfaceFetchDone (h : Fin 4) (layer : Fin 16) (row : Nat) (poison : Bool) (s : State) : Out3 :=
  onLive s fun s =>
    let u := s.head h
    let w : SurfWant := ⟨layer, row⟩
    match u.surf.find? (fun x => x.layer = layer.val) with
    | some x =>
      if u.wants.contains w then
        let (b, lost, t) := s.take (headReq h) (x.rowAddr row) (x.desc.width * x.desc.pxBytes)
        let bad := poison || lost
        t.setHead h { u with wants := u.wants.filter (· ≠ w)
                             surfRows := u.surfRows ++ [⟨layer, row, bad, if bad then [] else x.desc.pixels b⟩] }
      else s
    | none => s

/-- HEAD_FILTER_WRITE: a write of HEAD_FILTDATA (R198). -/
def execHeadFilterWrite (r : Req) (h : Fin 4) (value : Word) (s : State) : Out3 :=
  onLive s fun s => (headWrite (ctxOf r) h HEAD_FILTDATA (headA h + HEAD_FILTDATA) value 0xFFFFFFFF s).1
/-- PLACEMENT_WRITE: a write of HEAD_PLDATA (R201). -/
def execPlacementWrite (r : Req) (h : Fin 4) (value : Word) (s : State) : Out3 :=
  onLive s fun s => (headWrite (ctxOf r) h HEAD_PLDATA (headA h + HEAD_PLDATA) value 0xFFFFFFFF s).1
/-- HEAD_STAMP_READ: a read of HEAD_FS_NS latches HEAD_FS_SEC (R211); the answer is the value read. -/
def execHeadStampRead (_r : Req) (h : Fin 4) (s : State) : Out3 :=
  onLive s fun s =>
    match headRead h HEAD_FS_NS s with
    | some (v, t) => t.answerWith v
    | none => s

/-- EMITTER_FETCH_DONE: the coefficients of a raster row, or of a native line of a rotated tile, arrive (R217), poisoned where
`poison` says so or memory does not answer (R38, R323). -/
def execEmitterFetchDone (h : Fin 4) (tile : Option (Fin 4096)) (line : Nat) (poison : Bool) (s : State) : Out3 :=
  onLive s fun s =>
    let u := s.head h
    let key : Option Nat := tile.map (·.val)
    if !u.emWants.contains (key, line) then s
    else
      let ts : List (Tile × Nat) := match key with
        | none => (s.flatTiles h line).map (fun (t : Tile) => (t, t.lineOf line))
        | some k => ((s.tiles h).filter (fun (t : Tile) => t.idx = k)).map (fun (t : Tile) => (t, line))
      let es := ts.filter (fun e => s.tileEm h e.1.idx)
      let reads := es.map (fun e => (s.emAddr h e.1 e.2, 9 * e.1.tw))
      let data := es.map (fun e => (e.1.idx, e.2, s.peek (headReq h) (s.emAddr h e.1 e.2) (9 * e.1.tw)))
      let bad := poison || s.readsPoison (headReq h) reads
      (s.readErrors (headReq h) reads).setHead h
        { u with emWants := u.emWants.filter (· ≠ (key, line)), emRows := u.emRows ++ [⟨key, line, bad, data⟩] }

/-- TILE_RECORD_STORE: a write of TCM_DATA: word 63 stores the record (R216). -/
def execTileRecordStore (r : Req) (h : Fin 4) (value : Word) (s : State) : Out3 :=
  onLive s fun s => (tcmWrite (ctxOf r) h TCM_DATA (tcmA h + TCM_DATA) value 0xFFFFFFFF s).1
/-- TCM_LOAD: a write of TCM_LDCTL with GO = 1 (R216). -/
def execTcmLoad (r : Req) (h : Fin 4) (value : Word) (s : State) : Out3 :=
  onLive s fun s => (tcmWrite (ctxOf r) h TCM_LDCTL (tcmA h + TCM_LDCTL) (value ||| 0x80000000) 0xFFFFFFFF s).1
/-- TCM_LOAD_DONE: the words of a load have come, up to the first whose read failed (R216). -/
def execTcmLoadDone (h : Fin 4) (failedAt : Option Nat) (s : State) : Out3 :=
  onLive s fun s =>
    match (s.head h).load with
    | some l =>
      if l.come then s
      else
        let s1 := s.setHead h { s.head h with load := some { l with come := true, fail := failedAt } }
        s1.tcmRun h (s1.tcmSteps h)
    | none => s
/-- CURVE_WRITE: a write of TCM_DATA while TCM_IDX selects the curves (R215). -/
def execCurveWrite (r : Req) (h : Fin 4) (value : Word) (s : State) : Out3 :=
  onLive s fun s => (tcmWrite (ctxOf r) h TCM_DATA (tcmA h + TCM_DATA) value 0xFFFFFFFF s).1

end Sys2Proof.Machine
end

