-- ==== Sys2Proof/Machine/Lane.lean ====
section
/-! DEFINITION. The commands of serial lanes, and the QUAD registers (R371 to R382). -/
namespace Sys2Proof.Machine

/-! ### Registers -/

/-- A quad implements a coding (R372). -/
def protoFits (q v : Nat) : Bool :=
  v = 0 || v = 1 || v = 4 || (v = 2 && decide (8 ≤ q ∧ q ≤ 13)) || (v = 3 && decide (14 ≤ q))

/-- The tap magnitudes in use: a value above the range is taken as its maximum (R375). -/
def mainTap (w : Nat) : Nat := 64 - min 16 (bits w 4 0) - min 25 (bits w 12 8)

/-- A write of QUAD_CTRL (R372, R378, R379, R382). -/
def quadCtrl (c : WCtx) (q a : Nat) (v m : Word) (s : State) : State × WRes :=
  let b := quadA q
  let pm := wd QUAD_CTRL_PROTO.mask
  let old := s.rd a
  let new := bits ((old &&& ~~~ m) ||| (v &&& m)).toNat 2 0
  let changes := decide (new ≠ bits old.toNat 2 0) && !s.locked
  let bad := changes && (!protoFits q new || s.quadBusy q)
  let s0 := if bad then s.setFlag b QUAD_STATUS_CFG_ERR true else s
  let p := s0.genWrite c a v (if bad then m &&& ~~~ pm else m)
  let wakes := decide (p.1.fld b QUAD_CTRL_PSTATE ≠ s.fld b QUAD_CTRL_PSTATE) || !p.1.flag b QUAD_CTRL_AUTO_VESPER
  let s1 := if wakes then p.1.setQuad q { p.1.quad q with autoVesper := false } else p.1
  let s2 := s1.quadsFollow
  let s3 := if s2.inL0 q then s2.setQuad q { s2.quad q with loop := s2.fld b QUAD_CTRL_LOOP } else s2
  let asked := (v &&& m).toNat.testBit QUAD_CTRL_RETRAIN.lo
  let s4 := if !asked then s3
    else if s3.inL0 q then s3.trainLanes q [0, 1, 2, 3]
    else s3.setQuad q { s3.quad q with retrain := true }
  (s4, if bad then .refused else p.2)

/-- Writes of QUAD registers. -/
def quadWrite (c : WCtx) (q off a : Nat) (v m : Word) (s : State) : State × WRes :=
  let b := quadA q
  if off = QUAD_CTRL then quadCtrl c q a v m s
  else if off = QUAD_REF then
    (if q % 2 = 1 then okW s
     else
       let p := s.genWrite c a v m
       (p.1.setFld (quadA (q + 1)) QUAD_REF_REF_MHZ (p.1.fld b QUAD_REF_REF_MHZ), p.2))
  else if off = QUAD_PRBS then
    let bad := (v &&& m).toNat.testBit 31 && !s.flag b QUAD_PRBS_EN && s.quadBusy q
    let s0 := if bad then s.setFlag b QUAD_STATUS_CFG_ERR true else s
    let p := s0.genWrite c a v (if bad then m &&& 0x7FFFFFFF else m)
    (p.1, if bad then .refused else p.2)
  else if LANE_TXEQ ≤ off ∧ off % 0x10 = 0 then
    (if s.proto q = 2 then okW s
     else
       let p := s.genWrite c a v m
       (p.1.setFld a ⟨0, 30, 24⟩ (mainTap (p.1.rd a).toNat), p.2))
  else s.genWrite c a v m

/-- QUAD_STATUS shows the bound user. -/
def quadRead (q off : Nat) (s : State) : Option (Word × State) :=
  if off = QUAD_STATUS then some (putFld (s.rd (quadA q + off)) QUAD_STATUS_USER (s.quadUser q), s) else none

/-! ### Writes as commands -/

/-- PROTO_WRITE: a write of QUAD_CTRL (R372). -/
def execProtoWrite (r : Req) (q : Fin 16) (value : Word) (s : State) : Out3 :=
  onLive s fun s => (quadWrite (ctxOf r) q QUAD_CTRL (quadA q + QUAD_CTRL) value 0xFFFFFFFF s).1
/-- QUAD_RETRAIN: a write of QUAD_CTRL with RETRAIN = 1 (R378). -/
def execQuadRetrain (r : Req) (q : Fin 16) (value : Word) (s : State) : Out3 :=
  onLive s fun s => (quadWrite (ctxOf r) q QUAD_CTRL (quadA q + QUAD_CTRL) (value ||| 0x400) 0xFFFFFFFF s).1
/-- LOOP_SELECT: a write of the byte that holds LOOP, PSTATE and PROTO (R379). -/
def execLoopSelect (r : Req) (q : Fin 16) (loop : BitVec 2) (s : State) : Out3 :=
  onLive s fun s =>
    let a := quadA q + QUAD_CTRL
    (quadWrite (ctxOf r) q QUAD_CTRL a (putFld (s.rd a) QUAD_CTRL_LOOP loop.toNat) 0xFF s).1
/-- PRBS_START: a write of QUAD_PRBS with EN = 1 (R380). -/
def execPrbsStart (r : Req) (q : Fin 16) (value : Word) (s : State) : Out3 :=
  onLive s fun s => (quadWrite (ctxOf r) q QUAD_PRBS (quadA q + QUAD_PRBS) (value ||| 0x80000000) 0xFFFFFFFF s).1
/-- PRBS_STOP: a write of QUAD_PRBS with EN = 0 (R380). -/
def execPrbsStop (r : Req) (q : Fin 16) (value : Word) (s : State) : Out3 :=
  onLive s fun s => (quadWrite (ctxOf r) q QUAD_PRBS (quadA q + QUAD_PRBS) (value &&& 0x7FFFFFFF) 0xFFFFFFFF s).1
/-- PSTATE_REQUEST: a write of the byte that holds LOOP, PSTATE and PROTO (R382). -/
def execPstateRequest (r : Req) (q : Fin 16) (pstate : BitVec 2) (s : State) : Out3 :=
  onLive s fun s =>
    let a := quadA q + QUAD_CTRL
    (quadWrite (ctxOf r) q QUAD_CTRL a (putFld (s.rd a) QUAD_CTRL_PSTATE pstate.toNat) 0xFF s).1

/-! ### Events -/

/-- AUTO_VESPER_ENTRY: 1 ms after the last user was disabled (R382). -/
def execAutoVesperEntry (q : Fin 16) (s : State) : Out3 :=
  onLive s fun s =>
    if s.flag (quadA q) QUAD_CTRL_AUTO_VESPER && s.fld (quadA q) QUAD_CTRL_PSTATE = 0 && !s.quadBusy q &&
        decide ((s.quad q).idleTick + usTicks 1000 ≤ s.tick) then
      (s.setQuad q { s.quad q with autoVesper := true }).quadFollow q
    else s

/-- LANE_POWER_EXIT: the exit time has passed: the PLL has locked, the loop asked for takes effect, the lanes train (Table
16-3, R377, R379, R382). -/
def execLanePowerExit (q : Fin 16) (s : State) : Out3 :=
  onLive s fun s =>
    let u := s.quad q
    if !u.exiting || s.power q ≠ 0 then s
    else
      let s1 := (s.setFlag (quadA q) QUAD_STATUS_PLL_LOCK true).setQuad q
        { u with exiting := false, retrain := false, loop := s.fld (quadA q) QUAD_CTRL_LOOP }
      s1.trainLanes q (s1.lanesUsed q)

/-- PLL_LOCK_TIMEOUT: no lock within 1 ms of leaving Vesper: the lanes stay not ready (R373). -/
def execPllLockTimeout (q : Fin 16) (s : State) : Out3 :=
  onLive s fun s =>
    let u := s.quad q
    if u.exiting && u.fromVesper then
      ((s.setFlag (quadA q) QUAD_STATUS_PLL_LOCK false).dropLanes q).setQuad q { u with exiting := false }
    else s

/-- A lane leaves the training list; the last one ends the retrain (RETRAIN reads 1 until done). -/
def State.trained (s : State) (q k : Nat) : State :=
  let u := s.quad q
  let left := u.training.filter (· ≠ k)
  let s1 := s.setQuad q { u with training := left }
  if left = [] then s1.setFlag (quadA q) QUAD_CTRL_RETRAIN false else s1

/-- LANE_LINK_UP: clock recovery and adaptation of a lane end with what they found (R377). -/
def execLaneLinkUp (q : Fin 16) (lane : Fin 4) (cdr block link : Bool) (fom : BitVec 8) (s : State) : Out3 :=
  onLive s fun s =>
    let b := quadA q
    if !(s.quad q).training.contains lane.val || !s.inL0 q || !s.flag b QUAD_STATUS_PLL_LOCK then s
    else
      let own := s.proto q = 1 || s.proto q = 4
      let pass := decide (s.fld b (laneF LANE_RX_FOM_PASS lane) ≤ fom.toNat)
      let ready := if own then cdr && block && pass else link
      let s1 := (((s.setFlag b (laneF LANE_STAT_CDR_LOCK lane) cdr).setFlag b (laneF LANE_STAT_BLOCK_LOCK lane) block).setFld b
        (laneF LANE_STAT_FOM lane) fom.toNat).setFlag b (laneF LANE_STAT_READY lane) ready
      let s2 := s1.trained q lane
      if ready then s2
      else
        let s3 := (s2.setFlag b (laneF LANE_STAT_RETRAIN_FAIL lane) true).incFld b (laneF LANE_CNT_RETRIES lane) 1
        s3.setQuad q { s3.quad q with failed := lane.val :: (s3.quad q).failed.filter (· ≠ lane.val) }

/-- LANE_RETRY: every 100 ms a failed lane tries again (R377). -/
def execLaneRetry (q : Fin 16) (lane : Fin 4) (s : State) : Out3 :=
  onLive s fun s => if (s.quad q).failed.contains lane.val && s.inL0 q then s.trainLanes q [lane] else s

/-- FOM_MEASURE: every 1 ms in L0 a lane is measured: its figure of merit, the CTLE setting that adaptation now uses, and the
errors that its receiver has counted since (R376, R378, R380). -/
def execFomMeasure (q : Fin 16) (lane : Fin 4) (fom : BitVec 8) (ctle : BitVec 4) (errors : Nat) (s : State) : Out3 :=
  onLive s fun s =>
    let b := quadA q
    if !s.inL0 q then s
    else
      let s1 := s.setFld b (laneF LANE_STAT_FOM lane) fom.toNat
      let s2 := if s1.flag b (laneF LANE_RX_ADAPT_EN lane) then s1.setFld b (laneF LANE_STAT_CTLE lane) ctle.toNat else s1
      let counts := !s2.flag b QUAD_PRBS_EN || (s2.fld b QUAD_PRBS_LANES).testBit lane
      let s3 := if counts then s2.incFld b (laneF LANE_CNT_ERRORS lane) errors else s2
      if fom.toNat < s3.fld b (laneF LANE_RX_FOM_MIN lane) then
        let was := s3.flag b (laneF LANE_STAT_DEGRADED lane)
        let s4 := s3.setFlag b (laneF LANE_STAT_DEGRADED lane) true
        if was then s4 else s4.record 0 0x20 1 (srcOf 0 0x48 q) 0 (info8 lane)
      else s3

/-- BLOCK_LOCK_LOSS: a Parade or Procession lane loses block lock and retrains at once (R378). -/
def execBlockLockLoss (q : Fin 16) (lane : Fin 4) (s : State) : Out3 :=
  onLive s fun s =>
    let b := quadA q
    if (s.proto q = 1 || s.proto q = 4) && s.flag b (laneF LANE_STAT_BLOCK_LOCK lane) && s.inL0 q then
      (s.setFlag b (laneF LANE_STAT_BLOCK_LOCK lane) false).trainLanes q [lane]
    else s

end Sys2Proof.Machine
end

