-- ==== Sys2Proof/Machine/MfeOps.lean ====
section
/-! DEFINITION. Motion field engines: registers, global motion, and the start of a frame (R145, R148). -/
namespace Sys2Proof.Machine

/-! ### Registers -/

/-- Writes of MFE registers: the focal table's window (Table 24-2). -/
def mfeWrite (c : WCtx) (n off a : Nat) (v m : Word) (s : State) : State × WRes :=
  if off = MFE_FDATA then
    let i := s.fld (mfeA n) MFE_FIDX_FIDX
    let k : Word := 0xFFFFF &&& m
    let new := (s.tget .focal n i &&& ~~~ k) ||| (v &&& k)
    if i > 32 then okW s
    else okW (if c.journal then (s.tset .focal n i new).journal (alEntry a i) k new else s.tset .focal n i new)
  else s.genWrite c a v m

/-- Reads of MFE registers that are windows. -/
def mfeRead (n off : Nat) (s : State) : Option (Word × State) :=
  if off = MFE_FDATA then
    let i := s.fld (mfeA n) MFE_FIDX_FIDX
    some (if i > 32 then 0 else s.tget .focal n i, s)
  else none

/-! ### Global motion (R145) -/

/-- The focal length in proxy pels as a fraction: 16 times it, over the second number. -/
def State.focalAt (s : State) (n t : Nat) : Nat × Nat :=
  let b := mfeA n
  let ax := s.fld b MFE_AXES_ZOOM_AXIS
  let lo := toSigned 32 (s.fld b ⟨MFE_ZMIN, 31, 0⟩)
  let hi := toSigned 32 (s.fld b ⟨MFE_ZMAX, 31, 0⟩)
  let f (i : Nat) : Nat := (s.tget .focal n i).toNat % 2 ^ 20
  if ax ≥ 48 ∨ hi ≤ lo then (f 0, 1)
  else
    let d := (hi - lo).toNat
    let z := toSigned 32 (s.axisAt ax t).1
    let u := 32 * (clampInt lo hi z - lo).toNat
    let i := u / d
    if i ≥ 32 then (f 32, 1) else (f i * (d - u % d) + f (i + 1) * (u % d), d)

/-- One component of G_F: 4 x f x 2 pi v / CPR x T_frame, before its sign; a free value for an axis without CPR
(notes/assumptions/1.md). -/
def State.gmAxis (s : State) (n ax t frameNs : Nat) : Int × State :=
  if ax ≥ 48 then (0, s)
  else
    let cpr := s.axCpr ax
    let v := (s.axisAt ax t).2.1
    let (f, d) := s.focalAt n t
    if v = 0 then (0, s)
    else if cpr = 0 then ((s.fresh 16).toInt, s.usedFree)
    else (clampInt (-32768) 32767 (roundAway (trPi * (8 * f * frameNs : Nat) * v) (2 ^ trB * (16 * d * cpr * 1000000000))), s)

/-- G_F of the frame whose FV rose at an instant. -/
def State.globalMotion (s : State) (n t frameNs : Nat) : Vec × State :=
  let b := mfeA n
  if !s.flag b MFE_CTRL_GM_EN then (⟨0, 0⟩, s)
  else
    let x := s.gmAxis n (s.fld b MFE_AXES_PAN_AXIS) t frameNs
    let y := x.2.gmAxis n (s.fld b MFE_AXES_TILT_AXIS) t frameNs
    (⟨if s.flag b MFE_CTRL_PAN_SIGN then -x.1 else x.1, if s.flag b MFE_CTRL_TILT_SIGN then y.1 else -y.1⟩, y.2)

/-! ### Frame start (R148) -/

def noBlk : FieldBlk := { v := ⟨0, 0⟩ }
/-- The block at column i, row j. -/
def Field.at (f : Field) (i j : Nat) : FieldBlk := (f.blks[j * f.bw + i]?).getD noBlk
/-- A vector kept within the limits of R147. -/
def limitVec (v : Vec) : Vec := ⟨clampInt (-8191) 8191 v.x, clampInt (-8191) 8191 v.y⟩

/-- The predicted field: the last field shifted by s, and moved by the change of the global motion. -/
def predict (last : Field) (first : Bool) (g : Vec) (bw bh : Nat) : List Vec :=
  let sx := roundAway g.x 64
  let sy := roundAway g.y 64
  (List.range (bw * bh)).map (fun k =>
    let i := (clampInt 0 ((last.bw : Int) - 1) ((k % bw : Nat) + sx)).toNat
    let j := (clampInt 0 ((last.bh : Int) - 1) ((k / bw : Nat) + sy)).toNat
    let v := if first || last.bw = 0 then ⟨0, 0⟩ else (last.at i j).v
    limitVec ⟨v.x + g.x - last.g.x, v.y + g.y - last.g.y⟩)

/-- The frame closes: blocks not refined keep their predicted vector; their cost and source are free values. -/
def State.closeField (s : State) (n : Nat) : State :=
  let u := s.mfe n
  let miss := (u.cur.blks.filter (fun b => !b.refined)).length
  let blks := (List.range u.cur.blks.length).map (fun k =>
    let b := (u.cur.blks[k]?).getD noBlk
    if b.refined then b
    else { b with cost := Config.freeValue (s.free + 2 * k) % 2 ^ 16, source := Config.freeValue (s.free + 2 * k + 1) % 2 ^ 8 })
  ({ s with free := s.free + (if miss = 0 then 0 else 2 * u.cur.blks.length) }.setMfe n
    { u with prev := { u.cur with blks := blks } }).incFld (mfeA n) MFE_CNT_INCOMPLETE miss

/-- A vector at a limit of R147. -/
def Vec.atLimit (v : Vec) : Bool := v.x.natAbs = 8191 || v.y.natAbs = 8191

/-- The frame-start packet reaches the MFE: Solstice, the last field closes, G_F, and for an enabled MFE the predicted field (R121,
R137, R145, R148). -/
def State.mfeStart (s : State) (n : Nat) : State :=
  match (s.mfe n).due with
  | none => s
  | some h =>
    let k := s.fld (pipeA n) FE_CTRL_TNR_SLOT
    let x := s.slot n k
    let s1 := (s.setMfe n { s.mfe n with due := none }).solstice (mfeA n)
    let s2 := s1.closeField n
    let tf := match s2.portOf h.sid with
      | some p => if s2.flag (calA p) CAL_STATUS_NO_TFRAME then 0 else s2.fld (campA p) CAMP_TFRAME_TFRAME_NS
      | none => 0
    let gm := s2.globalMotion n x.fvNs tf
    let g := gm.1
    let u := gm.2.mfe n
    let on := s.flag (mfeA n) MFE_CTRL_EN
    let lines := if x.half = 0 then x.height else x.height / 2 + 8
    let bw := divCeil x.width 32
    let bh := divCeil lines 32
    let pred := predict u.prev (gm.2.tnr n).never g bw bh
    let u1 : MfeU :=
      if on then
        { u with
          pred := pred, lines := lines, width := x.width, firstLine := x.firstLine, passed := 0
          cur := { h := h, g := g, bw := bw, bh := bh, blks := pred.map (fun v => { v := v, clamped := v.atLimit }), written := false } }
      else { u with cur := { h := h, g := g } }
    ((gm.2.setMfe n u1).wr (mfeA n + MFE_GM) (wd (ofSigned 16 g.y * 65536 + ofSigned 16 g.x))).setFlag (mfeA n) MFE_STATUS_BUSY on

end Sys2Proof.Machine
end

