-- ==== Sys2Proof/Machine/Pipe.lean ====
section
/-! DEFINITION. What a pipe does with a frame-start packet, a line and a frame-end packet, and with its DRAM traffic
(R128 to R186). -/
namespace Sys2Proof.Machine

/-! ### The window stage, the proxy and temporal noise reduction -/

/-- The proxy row of the two lines ending with n goes to DRAM (R146). -/
def State.proxyRow (s : State) (pipe k n : Nat) : State :=
  let x := s.slot pipe k
  let b := mfeA pipe
  if s.fld (pipeA pipe) FE_CTRL_TNR_SLOT ≠ k || !s.flag b MFE_CTRL_EN then s
  else
    let n' := n - x.firstLine
    let s1 := s.setMfe pipe { s.mfe pipe with passed := n' + 1 }
    if n' % 2 = 0 then s1
    else
      let mask := s.fld b MFE_CTRL_PROXY_MASK
      let mos := s.mos pipe k
      let row (m : Nat) : List Nat := match findRow x.s3 m with | some r => r.v | none => []
      let cell (i : Nat) : Nat :=
        let ps := [(2 * i, n - 1), (2 * i + 1, n - 1), (2 * i, n), (2 * i + 1, n)]
        let pick := ps.filter (fun p => mask.testBit (mos.code p.1 p.2))
        let use := if pick = [] then ps else pick
        divRound ((use.map (fun p => ((row p.2)[p.1]?).getD 0)).sum) use.length
      let base := s.fld b (if x.h.frame % 2 = 0 then MFE_PRX_BASE0_ADDR else MFE_PRX_BASE1_ADDR) * 256
      s1.put (.mfe (Fin.ofNat 8 pipe)) (base + n' / 2 * x.width) ((List.range (x.width / 2)).flatMap (fun i => toBytes 2 (cell i)))

/-- Steps 2 and 3 of a line: defects and spatial noise reduction. -/
def State.windowLine (s : State) (pipe k n : Nat) (r : RawRow) : State × RawRow :=
  let x := s.slot pipe k
  let c := s.winSet pipe k
  if !c.inUse then (s, r)
  else
    let w : Win := ⟨x.raw, x.firstLine, min x.lastLine (topRow x.raw), x.width, c.mos.period⟩
    let fix := (List.range x.width).map (fun i => c.repair w i n)
    let marked := { r with bad := fix.map (·.dyn) }
    let raw' := x.raw.map (fun q => if q.n = n then marked else q)
    let w' := { w with rows := raw' }
    let vals := (List.range x.width).map (fun i =>
      let f := (fix[i]?).getD ⟨0, false, false, false⟩
      if c.snrEn then c.denoise w' i n f.v else f.v)
    let cnt (p : Fix → Bool) : Nat := (fix.filter p).length
    let b := pipeA pipe
    let s1 := (((s.incFld b (FE_CNT_DEF_CORR.nth 0x40 k) (cnt (fun f => f.mapped && !f.unrepaired))).incFld b
      (FE_CNT_DDD_CORR.nth 0x40 k) (cnt (fun f => f.dyn && !f.unrepaired))).incFld b (FE_CNT2_UNREPAIRED.nth 0x40 k)
      (cnt (·.unrepaired))).setSlot pipe k { x with raw := raw' }
    (s1, { r with v := vals })

/-- The vector of segment j of line n (R137). -/
def State.segVec (s : State) (pipe k n j : Nat) : Vec :=
  let x := s.slot pipe k
  let m := s.mfe pipe
  if s.flag (mfeA pipe) MFE_CTRL_EN then (m.pred[(n - x.firstLine) / 32 * divCeil x.width 32 + j]?).getD ⟨0, 0⟩
  else if s.flag (mfeA pipe) MFE_CTRL_GM_EN then m.cur.g
  else ⟨0, 0⟩

/-- The reference row for row y + dy: kept within the own rows at the same phase (R138). -/
def refRow (x : PipeSlot) (P : Nat) (y : Int) : Nat :=
  let lo : Int := x.ownLo
  let hi : Int := x.ownHi
  if y < lo then (lo + (y - lo) % P).toNat else if y > hi then (hi - (hi - y) % P).toNat else y.toNat

/-- Step 4 of a line: the samples and the flags it adds (R136 to R141, R46 to R48). -/
def State.tnrLine (s : State) (pipe k : Nat) (r : RawRow) : State × RawRow :=
  if !s.tnrOn pipe k then (s, r)
  else
    let x := s.slot pipe k
    let b := pipeA pipe
    let n := r.n
    let t0 := s.tnr pipe
    let ask := n + 24
    let t1 : Tnr := { t0 with
      wanted := if !t0.never && decide (ask > x.ownLo + 23) && decide (ask ≤ x.ownHi) then t0.wanted ++ [ask] else t0.wanted
      rows := t0.rows.filter (fun q => decide (n ≤ q.row + 24)) }
    let P := (s.mos pipe k).period
    let segs := List.range (divCeil x.width 32)
    let shift (j : Nat) : Int × Int :=
      let v := s.segVec pipe k n j
      (mosShift v.x P 64, mosShift v.y P 16)
    let need := segs.map (fun j => refRow x P (n + (shift j).2))
    let readBuf := (x.h.frame + 1) % 2
    let got (m : Nat) : Option RefRow := t1.rows.find? (fun q => q.row = m)
    let poison := need.any (fun m => match got m with | some q => q.bad | none => false)
    let miss := need.any (fun m => (got m).isNone || !(t1.valid readBuf).contains m)
    let fall := !t0.never && (poison || miss)
    let c := s.winSet pipe k
    let vals := segs.flatMap (fun j =>
      let cur := (r.v.drop (32 * j)).take 32
      if t0.never || fall then cur
      else
        let row := match got (refRow x P (n + (shift j).2)) with | some q => q.v | none => []
        let seg := (List.range cur.length).map (fun i =>
          let xx := 32 * j + i
          let cv := (cur[i]?).getD 0
          (cv, c.strength (c.mos.code xx n) cv, (row[phaseIn 0 (x.width - 1) P ((xx : Int) + (shift j).1)]?).getD 0))
        blendSeg (s.fe pipe k FE_NR_ALPHA_MAX) (s.fe pipe k FE_NR_GATE) ((List.range 16).map (s.feTab pipe k 3)) seg)
    let flags := if t0.never then fTNR_OFF else if fall then fFALLBACK ||| fTNR_OFF ||| (if poison then fPOISONED else 0) else 0
    let s1 := if fall then s.incFld b (if poison then FE_TNR_STAT_POISON_LINES else FE_TNR_STAT_FALLBACK_LINES) 1 else s
    let full := decide (t1.writes.length ≥ 64)
    let t2 := if x.owns n && !full then { t1 with writes := t1.writes ++ [⟨x.h.frame % 2, n, x.h.frame, vals⟩] } else t1
    let s2 := if x.owns n && full then s1.incFld b FE_REFBUF_DROPS 1 else s1
    ((s2.setTnr pipe t2).showRef pipe, { r with v := vals, h := { r.h with flags := r.h.flags ||| flags } })

/-- Steps 5 and 6 of a line (R142 to R144): PF20 samples. -/
def State.shadeLine (s : State) (pipe k : Nat) (r : RawRow) : RawRow :=
  let x := s.slot pipe k
  let mos := s.mos pipe k
  let ped := s.fe pipe k FE_BL_IRP_PEDESTAL
  let lsc := s.feOn pipe k FE_SCTRL_LSC_EN
  let wb := s.feOn pipe k FE_SCTRL_WB_EN
  { r with v := (List.range r.v.length).map (fun i =>
      let c := mos.code i r.n
      let a := pedestalOff ((r.v[i]?).getD 0) ped
      let g := shadeGain (fun e => s.feTab pipe k 4 (c * 3072 + e) % 65536) x.width x.height i r.n
      let a1 := if lsc && decide (c ≤ 4) then pfScale a g.1 g.2 else a
      if wb && decide (c ≤ 4) then pfScale a1 (s.chan5 pipe k whiteFlds c) 4096 else a1) }

/-- Lines pass steps 2 to 6 as soon as the lines below them are there (R129); `fin`: no more lines come. -/
def State.advW (s : State) (pipe k : Nat) (fin : Bool) : Nat → State
  | 0 => s
  | fuel + 1 =>
    let x := s.slot pipe k
    let n := x.nextW
    let top := topRow x.raw
    let v := if (s.winSet pipe k).inUse then 3 else 0
    match findRow x.raw n with
    | none => s
    | some r =>
      if top ≥ n + v || top = x.lastLine || fin then
        let (s1, r3) := s.windowLine pipe k n r
        let y := s1.slot pipe k
        let s2 := (s1.setSlot pipe k { y with nextW := n + 1, s3 := (r3 :: y.s3).take 2 }).proxyRow pipe k n
        let (s3, r4) := s2.tnrLine pipe k r3
        let r6 := s3.shadeLine pipe k r4
        let z := s3.slot pipe k
        State.advW (s3.setSlot pipe k { z with s6 := z.s6 ++ [r6], raw := z.raw.filter (fun q => decide (n ≤ q.n + 4)) }) pipe k fin fuel
      else s

/-! ### The colour stages -/

/-- Coefficient i of a matrix whose first register is at `off` (R165). -/
def State.coefAt (s : State) (pipe k off i : Nat) : Nat :=
  coef (s.col pipe k ⟨off + 4 * (i / 2), if i % 2 = 0 then 15 else 31, if i % 2 = 0 then 0 else 16⟩)

/-- Step 7 of a line: pixels and IR values (R162 to R167). -/
def State.demosaicLine (s : State) (pipe k : Nat) (r : RawRow) : PixRow :=
  let x := s.slot pipe k
  let mos := s.mos pipe k
  if !s.colOn pipe k COL_SCTRL_DM_EN then ⟨r.n, r.h, r.v.map (fun v => ⟨v, v, v⟩), []⟩
  else
    let d : Dm := ⟨⟨x.s6, x.firstLine, min x.lastLine (topRow x.s6), x.width, mos.period⟩, mos, s.col pipe k MOS_CFG_DM_THR⟩
    let m := (List.range 12).map (s.coefAt pipe k IRM0)
    let cells := (List.range x.width).map (fun i => d.pixel i r.n)
    let px := cells.map (fun c =>
      Pix.of ((if mos.ir && s.colOn pipe k MOS_CFG_IRR_EN then matPix m 4 c else c.take 3).map toPF))
    ⟨r.n, r.h, px, if mos.ir then cells.map (fun c => pfToHalf (toPF (c.getD 3 0))) else []⟩

/-- Steps 8 and 9 of a pixel (R168, R169). -/
def State.matrixPix (s : State) (pipe k : Nat) (p : Pix) : Pix :=
  let m := (List.range 9).map (s.coefAt pipe k CAM0)
  let q := if s.colOn pipe k COL_SCTRL_CAM_EN then Pix.of ((matPix m 3 p.f).map toPF) else p
  q.map (fun c => toPF (fMul (pfTo32 c) (fScaled (s.col pipe k EXP_TRIM_TRIM : Nat) (-16))))

/-- Steps 10 to 12 of a pixel (R170, R171). -/
def State.lookPix (s : State) (pipe k : Nat) (p : Pix) : Pix :=
  let curve (t : Nat) (q : Pix) : Pix :=
    let e (c i : Nat) : Nat := s.colTab pipe k t (c * 4096 + i) % 65536
    ⟨curveAt (e 0) q.c0, curveAt (e 1) q.c1, curveAt (e 2) q.c2⟩
  let node (i0 i1 i2 c : Nat) : Nat :=
    let n := i2 * 4225 + i1 * 65 + i0
    if c = 0 then s.colTab pipe k 3 (2 * n) % 65536
    else if c = 1 then s.colTab pipe k 3 (2 * n) / 65536 else s.colTab pipe k 3 (2 * n + 1) % 65536
  let a := if s.colOn pipe k COL_SCTRL_PRE_EN then curve 0 p else p
  let b := if s.colOn pipe k COL_SCTRL_LUT_EN then lutAt node a else a
  if s.colOn pipe k COL_SCTRL_POST_EN then curve 1 b else b

/-- The last line that the demosaic of a line reads: two below it, or further where R135 substitutes one (R162). -/
def PipeSlot.demosaicNeeds (x : PipeSlot) (P n : Nat) : Nat :=
  (span 2).foldl (fun m (d : Int) => max m (phaseIn x.firstLine x.lastLine P ((n : Int) + d))) n

/-- Lines pass steps 7 to 12 as soon as the lines below them are there. -/
def State.advD (s : State) (pipe k : Nat) (fin : Bool) : Nat → State
  | 0 => s
  | fuel + 1 =>
    let x := s.slot pipe k
    let n := x.nextD
    let top := topRow x.s6
    let need := if s.colOn pipe k COL_SCTRL_DM_EN then x.demosaicNeeds (s.mos pipe k).period n else n
    match findRow x.s6 n with
    | none => s
    | some r =>
      if top ≥ need || top = x.lastLine || fin then
        let p7 := s.demosaicLine pipe k r
        let p9 := { p7 with px := p7.px.map (s.matrixPix pipe k) }
        let p12 := { p9 with px := p9.px.map (s.lookPix pipe k) }
        let tap := if s.colOn pipe k COL_SCTRL_HV_TAP then p9 else p7
        State.advD (s.setSlot pipe k { x with nextD := n + 1, s12 := x.s12 ++ [p12]
                                              tap := if s.colOn pipe k COL_SCTRL_HV_EN && x.owns n then x.tap ++ [tap] else x.tap
                                              s6 := x.s6.filter (fun q => decide (n ≤ q.n + 3)) }) pipe k fin fuel
      else s

/-! ### Outputs -/

/-- M_BC or M_PX, and BC_SCALE or PX_SCALE (Table 7-5). -/
def State.outMat (s : State) (pipe k : Nat) (prx : Bool) : List Nat × Nat :=
  ((List.range 9).map (fun i => s.colTab pipe k 2 ((if prx then 9 else 0) + i)), s.colTab pipe k 2 (if prx then 19 else 18))

/-- The base of the open run of an output. -/
def PipeSlot.runBase (x : PipeSlot) (kind : Nat) : Option Nat :=
  (x.runs.find? (fun r => r.kind = kind && !r.ended)).map (·.base)

/-- Proxy row r in binary32. -/
def State.prxAt (s : State) (pipe k r : Nat) : List Nat × List Nat × List Nat :=
  let x := s.slot pipe k
  let sc := s.prxScale pipe k
  let m := s.outMat pipe k true
  prxRow m.1 m.2 sc x.width (x.out.filter (fun q => decide (q.n / sc = r)))

/-- The ring lines of a line after step 13 (R174 to R178). -/
def State.ringLines (s : State) (pipe k : Nat) (p : PixRow) : List (Nat × RingLine) :=
  let x := s.slot pipe k
  let at0 (kind : Nat) (f : Nat → List RingLine) : List (Nat × RingLine) :=
    match x.runBase kind with | some b => (f (b + 256)).map (fun l => (kind, l)) | none => []
  let half (v : Nat) : List Byte := toBytes 2 (pfToHalf v)
  let wall := at0 0 (fun b => [⟨p.n, [(b + p.n * up256 (x.width * 8),
    p.px.flatMap (fun q => half q.c0 ++ half q.c1 ++ half q.c2 ++ toBytes 2 0x3C00))]⟩])
  let bc := at0 1 (fun b =>
    let pitch := up256 (x.width * 2)
    let m := s.outMat pipe k false
    let r := bcRow m.1 m.2 (s.col pipe k OUT_CFG_BC_TF) (s.col pipe k OUT_CFG_BC_PRIM) (s.colOn pipe k OUT_CFG_BC_FULL) p.px
    [⟨p.n, [(b + p.n * pitch, r.1), (b + pitch * x.height + p.n * pitch, r.2)]⟩])
  let prx := at0 2 (fun b =>
    let sc := s.prxScale pipe k
    let hp := x.height / sc
    let pitch := up256 (x.width / sc)
    let r := p.n / sc
    if (p.n + 1) % sc ≠ 0 ∨ r ≥ hp then []
    else
      let a := s.prxAt pipe k r
      let luma := (b + r * pitch, a.1.flatMap (fun v => toBytes 1 (quantPrx false v)))
      let pairs (c : List Nat) (d : List Nat) : List Byte :=
        (List.zipWith (fun u v => toBytes 1 (quantPrx true u) ++ toBytes 1 (quantPrx true v)) c d).flatten
      let mean (u v : List Nat) : List Nat := List.zipWith (fun g h => fMean [g, h]) u v
      let chroma :=
        if r % 2 = 1 then
          let z := s.prxAt pipe k (r - 1)
          [(b + pitch * hp + r / 2 * pitch, pairs (mean z.2.1 a.2.1) (mean z.2.2 a.2.2))]
        else if r + 1 = hp then [(b + pitch * hp + r / 2 * pitch, pairs a.2.1 a.2.2)] else []
      [⟨r, luma :: chroma⟩])
  let ir := at0 3 (fun b => [⟨p.n, [(b + p.n * up256 (x.width * 2), p.ir.flatMap (toBytes 2))]⟩])
  wall ++ bc ++ prx ++ ir

/-- The flags of the lines written with a line to an output: a proxy row's are those of every line of its boxes (R179). -/
def State.rowFlagsOf (s : State) (pipe k kind : Nat) (p : PixRow) : Nat :=
  let sc := s.prxScale pipe k
  if kind ≠ 2 then p.h.flags
  else ((s.slot pipe k).out.filter (fun q => decide (q.n / sc = p.n / sc))).foldl (fun f q => f ||| q.h.flags) p.h.flags

/-- A line after step 13 leaves the pipe (R174, R178, R180). -/
def State.outLine (s : State) (pipe k : Nat) (p : PixRow) : State :=
  let x := s.slot pipe k
  let s1 := s.setSlot pipe k { x with flags := x.flags ||| p.h.flags }
  let s2 := (s1.ringLines pipe k p).foldl (fun t e => t.setSlot pipe k ((t.slot pipe k).ringLine
    (decide (1 ≤ e.1) && s.isShed (e.1 + 1) (pipe * 8 + k)) e.1 (s1.rowFlagsOf pipe k e.1 p) e.2)) s1
  s2.pipeOut pipe ⟨p.h, .line (p.px.flatMap Pix.list)⟩

/-- Lines pass step 13 and leave, as soon as the line below is there; a pipe passes on only its own lines, and uses those beyond
them as the support of its proxy rows (R150, R177). -/
def State.advS (s : State) (pipe k : Nat) (fin : Bool) : Nat → State
  | 0 => s
  | fuel + 1 =>
    let x := s.slot pipe k
    let n := x.nextS
    let top := x.s12.foldl (fun m r => max m r.n) 0
    let on := s.colOn pipe k COL_SCTRL_SHP_EN
    match findPix x.s12 n with
    | none => s
    | some r =>
      if top ≥ n + b2n on || top = x.lastLine || fin then
        let f (g : Fld) : Nat := s.col pipe k g
        let lo := x.firstLine
        let hi := min x.lastLine top
        let px := if on then (List.range r.px.length).map (fun i =>
            sharpen x.s12 lo hi (f SHP_CFG_CORE) (f SHP_CFG_AMOUNT) (f SHP_CFG_LIMIT) i n ((r.px[i]?).getD ⟨0, 0, 0⟩)) else r.px
        let p : PixRow := { r with px := px }
        let keep := if s.outOn pipe k 2 then (x.out.filter (fun q => decide (n < q.n + 8))) ++ [p] else []
        let s1 := s.setSlot pipe k { x with nextS := n + 1, out := keep }
        let s2 := if x.owns n then s1.outLine pipe k p else s1
        State.advS (if (s2.slot pipe k).behind = [] then s2 else s2.freeBehind pipe k (n + 1)) pipe k fin fuel
      else s

/-- All stages move on. -/
def State.advance3 (s : State) (pipe k : Nat) (fin : Bool) : State :=
  (((s.advW pipe k fin 40).advD pipe k fin 40).advS pipe k fin 40)

end Sys2Proof.Machine
end

