-- ==== Sys2Proof/Machine/PipeCmds.lean ====
section
/-! DEFINITION. The commands of the pipes: frames, lines, reference traffic, tables, rings, Harvest (R128 to R188), and the
pipe's registers. -/
namespace Sys2Proof.Machine

/-! ### Solstice of a slot (R152, R161, R188) -/

/-- A selector that names the bank being loaded waits for the first Solstice after the load (R188). -/
def State.bankLoading (s t : State) (pipe k : Nat) (lut : Bool) : Bool :=
  match (s.pipe pipe).load with
  | none => false
  | some l =>
    if lut then l.table = 3 && t.col pipe k COL_SCTRL_LUT_BANK = l.bank && s.col pipe k COL_SCTRL_LUT_BANK ≠ l.bank
    else l.table ≠ 3 && l.slot = k && t.col pipe k COL_SCTRL_CRV_BANK = l.bank && s.col pipe k COL_SCTRL_CRV_BANK ≠ l.bank

/-- The slot's SH fields commit; an invalid descriptor group, a reserved BC_TF and a selector of a bank being loaded do not
(R161, R188, Table 7-3). -/
def State.slotSolstice (s : State) (pipe k : Nat) : State :=
  let b := pipeA pipe
  let t := s.solstice (b + k)
  let badMos := !(t.mos pipe k).valid
  let badTf := decide (t.col pipe k OUT_CFG_BC_TF = 3)
  let o := b + 0x60 * k
  let keep (a : Nat) : Word :=
    if a = o + MOS_D0 ∨ a = o + MOS_D1 then (if badMos then 0xFFFFFFFF else 0)
    else if a = o + MOS_CFG then (if badMos then wd (MOS_CFG_PHASE_X.mask + MOS_CFG_PHASE_Y.mask) else 0)
    else if a = o + OUT_CFG then (if badTf then wd OUT_CFG_BC_TF.mask else 0)
    else if a = o + COL_SCTRL then
      (if s.bankLoading t pipe k true then wd COL_SCTRL_LUT_BANK.mask else 0) |||
        (if s.bankLoading t pipe k false then wd COL_SCTRL_CRV_BANK.mask else 0)
    else 0
  let s1 := s.solsticeBut (b + k) keep
  (if badMos || badTf then s1.colEvt pipe k COL_SCTRL_CFG_ERR else s1).showMos pipe k

/-! ### Frame start -/

/-- The slot opens a frame: size, defect map, empty line stores, new ring runs. -/
def State.openSlot (s : State) (pipe k : Nat) (h : Hdr) : State :=
  let x := s.slot pipe k
  let (w, ht, half, depth) :=
    match s.portOf h.sid with
    | some p =>
      let c := s.camp p
      (s.inForce (campA p) CAMP_SIZE_WIDTH, s.inForce (campA p) CAMP_SIZE_HEIGHT,
        if c.gang = 2 then (if c.pipe = pipe then 1 else 2) else 0, if c.pack = 0 then 12 else if c.pack = 1 then 14 else 16)
    | none => (x.width, x.height, x.half, x.depth)
  let m := if s.feOn pipe k FE_SCTRL_DEF_EN || s.feOn pipe k FE_SCTRL_DDD_EN then
      walkMap none ((List.range (min 65536 (s.fe pipe k FE_DEF_DEF_COUNT))).map (s.feTab pipe k 0))
    else ([], 0)
  let y : PipeSlot := { inFrame := true, h := h, fvNs := s.fullTime h.time, width := w, height := ht, half := half
                        depth := depth, mapped := m.1, flags := h.flags
                        runs := x.runs.map (fun r => { r with ended := true }), harvest := x.harvest }
  let new : List OutRun := ((List.range 4).filter (s.outOn pipe k)).map (fun kind =>
    { kind := kind, base := s.ringAddr pipe k kind h.frame w ht, h := h, fvNs := y.fvNs, half := half = 2, flags := h.flags })
  let f := y.firstLine
  (s.setSlot pipe k { y with nextW := f, nextD := f, nextS := f, runs := y.runs ++ new }).incFld (pipeA pipe)
    (FE_CNT2_DEF_ORDER.nth 0x40 k) m.2

/-- The reference at a frame start: maps, and the prefetch of 24 rows (R140, R141). -/
def State.openTnr (s : State) (pipe k : Nat) (h : Hdr) : State :=
  if s.fld (pipeA pipe) FE_CTRL_TNR_SLOT ≠ k then s
  else
    let x := s.slot pipe k
    let t := s.tnr pipe
    let m := s.mos pipe k
    let en := s.feOn pipe k FE_SCTRL_TNR_EN
    let mos := (m.d0, m.d1, m.px + 4 * m.py)
    let cont := match t.lastFrame with | some f => decide ((f + 1) % 2 ^ 32 = h.frame) | none => false
    let fresh := t.moved || t.slot ≠ k || !cont || (en && !t.en) || t.lastSize ≠ (x.width, x.height) || t.lastMos ≠ mos ||
      (s.pipe pipe).starts.contains h.sid
    let wbuf := h.frame % 2
    let t1 : Tnr := { t with
      slot := k, moved := false, en := en, lastFrame := some h.frame, lastSize := (x.width, x.height), lastMos := mos
      frame0 := if wbuf = 0 then h.frame else t.frame0, frame1 := if wbuf = 1 then h.frame else t.frame1
      valid0 := if fresh || wbuf = 0 then [] else t.valid0, valid1 := if fresh || wbuf = 1 then [] else t.valid1
      never := fresh
      wanted := if en && !fresh then ((List.range 24).map (· + x.ownLo)).filter (fun r => decide (r ≤ x.ownHi)) else []
      rows := [] }
    s.setTnr pipe t1

/-- PIPE_FRAME_START: the frame-start packet in front reaches its slot: Solstice, a new frame, the prefetch (R140, R141, R152,
R161). -/
def execPipeFrameStart (pipe : Fin 8) (s : State) : Out3 :=
  onLive s fun s0 =>
    let s := s0.settle pipe
    match s.pipeFront pipe with
    | some ⟨h, .frameStart⟩ =>
      let s1 := match s.slotFor pipe h.sid with
        | none => s
        | some k =>
          let t := (((s.freeBehind pipe k (2 ^ 32)).slotSolstice pipe k).openSlot pipe k h).openTnr pipe k h
          let t1 := t.setPipe pipe { t.pipe pipe with starts := (t.pipe pipe).starts.filter (· ≠ h.sid) }
          if t1.fld (pipeA pipe) FE_CTRL_TNR_SLOT = k then t1.setMfe pipe { t1.mfe pipe with due := some h } else t1
      (s1.popPipe pipe).pipeOut pipe ⟨h, .frameStart⟩
    | _ => s

/-! ### Lines -/

/-- Black level of a line (R130). -/
def State.blackLine (s : State) (pipe k : Nat) (n : Nat) (v : List Nat) : List Nat :=
  let x := s.slot pipe k
  let mos := s.mos pipe k
  let ped : Int := s.fe pipe k FE_BL_IRP_PEDESTAL
  let on := s.feOn pipe k FE_SCTRL_BL_EN
  (List.range v.length).map (fun i =>
    let s16 : Int := ((v[i]?).getD 0 * 2 ^ (16 - x.depth) : Nat)
    let bl : Int := if on then s.chan5 pipe k blackFlds (mos.code i n) else 0
    (clampInt 0 65535 (s16 - bl + ped)).toNat)

/-- A line reaches a slot that has not seen its frame start, since the slot was bound within the frame: the frame is opened at this
line, with the settings in force (notes/assumptions/77.md). -/
def State.openMid (s : State) (pipe k : Nat) (h : Hdr) : State :=
  let t := (s.openSlot pipe k { h with line := 0, flags := h.flags - (h.flags &&& (fSOF ||| fEOF)) }).openTnr pipe k h
  t.setSlot pipe k { t.slot pipe k with nextW := h.line, nextD := h.line, nextS := h.line, from' := h.line }

/-- PIPE_LINE: the line in front passes through the stages of its slot; lines whose support is now there leave the pipe
(R128 to R146, R151, R157 to R182). A frame-start packet ahead of it has reached the MFE as well. `answers`: what DRAM has answered
to ring lines since. -/
def execPipeLine (pipe : Fin 8) (answers : List RingAnswer) (s : State) : Out3 :=
  onLive s fun s0 =>
    let sa := answers.foldl (fun t a => t.ringAnswer pipe a.slot a.output a.error a.lines) s0
    let s := (sa.settle pipe).mfeStart pipe
    match s.pipeFront pipe with
    | some ⟨h, .line v⟩ =>
      let s1 := s.popPipe pipe
      match s.slotFor pipe h.sid with
      | none =>
        let die := 1 + pipe.val / 4
        let depth := match s.portOf h.sid with | some p => packBits16 (s.camp p).pack | none => 16
        let px := v.flatMap (fun a => List.replicate 3 (fPF20.clampRound (.scaled ((a * 2 ^ (16 - depth) : Nat) : Int) (-16))))
        (s1.record die 0x05 1 (srcOf die 0x80 (pipe.val % 4)) 0 (info8 h.sid)).pipeOut pipe ⟨h, .line px⟩
      | some k =>
        let s2 := if (s1.slot pipe k).inFrame then s1 else s1.openMid pipe k h
        let x := s2.slot pipe k
        (s2.setSlot pipe k { x with raw := x.raw ++ [⟨h.line, h, s2.blackLine pipe k h.line v, []⟩] }).advance3 pipe k false
    | _ => s
where
  /-- Bits of a sample for a PACK value (Table 4-2). -/
  packBits16 (k : Nat) : Nat := if k = 0 then 12 else if k = 1 then 14 else 16

/-! ### Reference traffic -/

/-- REF_READ_DONE: a requested row of the read buffer arrives; it is poisoned where the memory says so as well (R38, R141, R323). -/
def execRefReadDone (pipe : Fin 8) (row : Nat) (poison : Bool) (s : State) : Out3 :=
  onLive s fun s =>
    let t := s.tnr pipe
    let x := s.slot pipe t.slot
    if !t.wanted.contains row then s
    else
      let y := s.take (.pipe pipe) (s.refBase pipe ((x.h.frame + 1) % 2) + row * refPitch x.width) (2 * x.width)
      y.2.2.setTnr pipe { t with wanted := t.wanted.filter (· ≠ row), rows := t.rows ++ [⟨row, poison || y.2.1, numsOf 2 y.1⟩] }

/-- REF_WRITE_DONE: the oldest waiting row's write is answered: without an error, and not discarded, the row is in DRAM and valid
(R140, R323). -/
def execRefWriteDone (pipe : Fin 8) (error : Bool) (s : State) : Out3 :=
  onLive s fun s =>
    let t := s.tnr pipe
    match t.writes with
    | [] => s
    | w :: rest =>
      let x := s.busWrite (.pipe pipe) (s.refBase pipe w.buf + w.row * refPitch w.v.length) (w.v.flatMap (toBytes 2))
      let s1 := if error then s else x.2
      let mark (cur : List Nat) (buf frame : Nat) : List Nat :=
        if !error && x.1 && w.buf = buf && w.frame = frame && !cur.contains w.row then w.row :: cur else cur
      (s1.setTnr pipe { t with writes := rest, valid0 := mark t.valid0 0 t.frame0, valid1 := mark t.valid1 1 t.frame1 }).showRef pipe

/-! ### Tables (R153, R187, R188) -/

/-- Entries of a front-end table (Table 6-4), and the bits of one. -/
def feEntries (table : Nat) : Nat := match table with | 0 => 65536 | 1 => 320 | 2 => 49 | 3 => 16 | 4 => 15360 | _ => 0
def feMask (table : Nat) : Word := match table with | 0 => 0xFFFFFFFF | 2 => 0xF | 3 => 0xFF | _ => 0xFFFF
/-- Entries of a colour table (Table 7-5), and the bits of one. -/
def colEntries (table : Nat) : Nat := match table with | 0 => 12288 | 1 => 12288 | 2 => 24 | 3 => 549250 | _ => 0
def colMask (table i : Nat) : Word := match table with | 2 => 0xFFFFFFFF | 3 => if i % 2 = 0 then 0xFFFFFFFF else 0xFFFF | _ => 0xFFFF

/-- An index moves on: to 0 after the last entry, else by one (R505). -/
def State.stepIndex (s : State) (b : Nat) (f : Fld) (entries : Nat) : State :=
  let i := s.fld b f
  s.setFld b f (if i + 1 = entries then 0 else i + 1)

/-- A write of FE_TDATA (R153). -/
def State.feStore (s : State) (pipe : Nat) (v : Word) : State × WRes :=
  let b := pipeA pipe
  let k := s.fld b FE_TIDX_SLOT
  let t := s.fld b FE_TIDX_TABLE
  let bank := s.fld b FE_TIDX_BANK
  let i := s.fld b FE_TIDX_INDEX
  let s1 := s.stepIndex b FE_TIDX_INDEX (feEntries t)
  if k > 2 ∨ i ≥ feEntries t then okW s1
  else
    let busy := if t = 0 then s.feOn pipe k FE_SCTRL_DEF_EN else s.fe pipe k FE_SCTRL_TBANK = bank
    if busy then refusedW (s1.setFlag b (FE_SSTAT_TBL_ERR.nth 0x40 k) true)
    else okW (s1.tset .fe pipe (feKey k t (if t = 0 then 0 else bank) i) (v &&& feMask t))

/-- A bank of a colour table is in use (R172). -/
def State.colBusy (s : State) (pipe k table bank : Nat) : Bool :=
  if table = 3 then (List.range 3).any (fun j => s.colOn pipe j COL_SCTRL_LUT_EN && s.col pipe j COL_SCTRL_LUT_BANK = bank)
  else s.col pipe k COL_SCTRL_CRV_BANK = bank &&
    (s.colOn pipe k COL_SCTRL_PRE_EN || s.colOn pipe k COL_SCTRL_POST_EN || s.colOn pipe k COL_SCTRL_BC_EN ||
      s.colOn pipe k COL_SCTRL_PRX_EN)

/-- A write of COL_TDATA (R187). -/
def State.colStore (s : State) (pipe : Nat) (v : Word) : State × WRes :=
  let b := pipeA pipe
  let k := s.fld b COL_TIDX_SLOT
  let t := s.fld b COL_TIDX_TABLE
  let bank := s.fld b COL_TIDX_BANK
  let i := s.fld b COL_TIDX_INDEX
  let s1 := s.stepIndex b COL_TIDX_INDEX (colEntries t)
  if (k > 2 ∧ t ≠ 3) ∨ i ≥ colEntries t then okW s1
  else if s.colBusy pipe k t bank then refusedW (if k ≤ 2 then s1.colEvt pipe k COL_SCTRL_TBL_ERR else s1)
  else okW (s1.tset .colour pipe (colKey k t bank i) (v &&& colMask t i))

/-- GO of COL_LDCTL starts a load, or is refused (R188). -/
def State.colGo (s : State) (pipe : Nat) : State :=
  let b := pipeA pipe
  let k := s.fld b COL_TIDX_SLOT
  let t := s.fld b COL_TIDX_TABLE
  let bank := s.fld b COL_TIDX_BANK
  let n := s.fld b COL_LDCTL_COUNT
  if s.colBusy pipe k t bank then
    let s1 := (s.setFlag b COL_LDCTL_GO false).setFlag b COL_LDCTL_LD_ERR true
    if k ≤ 2 then s1.colEvt pipe k COL_SCTRL_TBL_ERR else s1
  else if n = 0 then s.setFlag b COL_LDCTL_GO false
  else s.setPipe pipe { s.pipe pipe with load := some ⟨k, t, bank, s.fld b COL_TIDX_INDEX, n, s.fld b COL_LDADDR_ADDR * 256⟩ }

/-- TNR_SLOT has changed: both maps are cleared, and no reference exists until the next frame of the slot (R140). -/
def State.tnrMoved (s : State) (pipe : Nat) : State :=
  s.setTnr pipe { s.tnr pipe with moved := true, never := true, valid0 := [], valid1 := [], wanted := [], rows := [] }

/-- Writes of PIPE registers with an effect of their own. -/
def pipeWrite (x : WCtx) (pipe off a : Nat) (v m : Word) (s : State) : State × WRes :=
  let b := pipeA pipe
  let loading := (s.pipe pipe).load ≠ none
  if off = FE_TDATA then s.feStore pipe v
  else if off = COL_TDATA ∨ off = COL_TIDX then
    if loading then refusedW (s.setFlag b COL_LDCTL_LD_ERR true)
    else if off = COL_TDATA then s.colStore pipe v else s.genWrite x a v m
  else if off = COL_LDCTL then
    let (s1, r) := s.genWrite x a v m
    (if (v &&& m).toNat.testBit 31 && !loading then s1.colGo pipe else s1, r)
  else if off = FE_CTRL then
    let (s1, r) := s.genWrite x a v m
    (if s1.fld b FE_CTRL_TNR_SLOT = s.fld b FE_CTRL_TNR_SLOT then s1 else s1.tnrMoved pipe, r)
  else s.genWrite x a v m

/-- Reads of PIPE registers that are windows. -/
def pipeRead (pipe off : Nat) (s : State) : Option (Word × State) :=
  let b := pipeA pipe
  if off = FE_TDATA then
    let k := s.fld b FE_TIDX_SLOT
    let t := s.fld b FE_TIDX_TABLE
    let i := s.fld b FE_TIDX_INDEX
    some (if k > 2 ∨ i ≥ feEntries t then 0 else s.tget .fe pipe (feKey k t (if t = 0 then 0 else s.fld b FE_TIDX_BANK) i),
      s.stepIndex b FE_TIDX_INDEX (feEntries t))
  else if off = COL_TDATA then
    if (s.pipe pipe).load ≠ none then some (0, s.setFlag b COL_LDCTL_LD_ERR true)
    else
      let k := s.fld b COL_TIDX_SLOT
      let t := s.fld b COL_TIDX_TABLE
      let i := s.fld b COL_TIDX_INDEX
      some (if (k > 2 ∧ t ≠ 3) ∨ i ≥ colEntries t then 0 else s.tget .colour pipe (colKey k t (s.fld b COL_TIDX_BANK) i),
        s.stepIndex b COL_TIDX_INDEX (colEntries t))
  else if off = COL_TIDX ∧ (s.pipe pipe).load ≠ none then some (0, s.setFlag b COL_LDCTL_LD_ERR true)
  else if off = FE_REFBUF then some (s.rd (b + FE_REFBUF), (s.wr (b + FE_REFBUF) 0).showRef pipe)
  else none

/-- FE_TABLE_WRITE: a write of FE_TDATA (R153). -/
def execFeTableWrite (_r : Req) (pipe : Fin 8) (value : Word) (s : State) : Out3 :=
  onLive s fun s => (s.feStore pipe value).1

/-- COLOUR_TABLE_WRITE: a write of COL_TDATA (R187, R188). -/
def execColourTableWrite (r : Req) (pipe : Fin 8) (value : Word) (s : State) : Out3 :=
  onLive s fun s => (pipeWrite (ctxOf r) pipe COL_TDATA (pipeA pipe + COL_TDATA) value 0xFFFFFFFF s).1

/-- COLOUR_TABLE_LOAD: a write of COL_LDCTL whose GO is 1 (R188). -/
def execColourTableLoad (r : Req) (pipe : Fin 8) (value : Word) (s : State) : Out3 :=
  onLive s fun s =>
    (pipeWrite (ctxOf r) pipe COL_LDCTL (pipeA pipe + COL_LDCTL) (value ||| 0x80000000) 0xFFFFFFFF s).1

/-- The words of a load, each as if written to COL_TDATA, up to one whose read is poisoned: whether all have come. -/
def State.colWords (s : State) (pipe addr : Nat) : Nat → State × Bool
  | 0 => (s, true)
  | n + 1 =>
    let x := s.take (.pipe (Fin.ofNat 8 pipe)) addr 4
    if x.2.1 then (x.2.2, false) else State.colWords (x.2.2.colStore pipe (wd (leNat x.1))).1 pipe (addr + 4) n

/-- COLOUR_LOAD_DONE: the load ends with all its words, or stops at the first word whose read failed or is poisoned (R188). -/
def execColourLoadDone (pipe : Fin 8) (failedAt : Option Nat) (s : State) : Out3 :=
  onLive s fun s =>
    let b := pipeA pipe
    match (s.pipe pipe).load with
    | none => s
    | some l =>
      let n := match failedAt with | some w => min w l.count | none => l.count
      let x := s.colWords pipe l.addr n
      let s1 := x.1.setFlag b COL_LDCTL_GO false
      let s2 := if decide (n < l.count) || !x.2 then s1.setFlag b COL_LDCTL_LD_ERR true else s1
      s2.setPipe pipe { s2.pipe pipe with load := none }

/-! ### Buffer heads and Harvest (R179, R185, R186) -/

/-- The first run of an output that has ended. -/
def firstEnded (kind : Nat) : List OutRun → Option OutRun × List OutRun
  | [] => (none, [])
  | r :: t =>
    if r.kind = kind && r.ended then (some r, t)
    else
      let (x, t') := firstEnded kind t
      (x, r :: t')

/-- BUFFER_HEAD_WRITE: every body write of the oldest ended frame of an output has been answered, and the head is written
(R179, R180). -/
def execBufferHeadWrite (pipe : Fin 8) (slot : Fin 3) (output : Fin 4) (error : Bool) (s : State) : Out3 :=
  onLive s fun s =>
    let x := s.slot pipe slot
    match firstEnded output x.runs with
    | (none, _) => s
    | (some r, rest) =>
      let s1 := if error && r.waiting ≠ [] then s.colEvt pipe slot COL_SCTRL_OUT_ERR
        else r.waiting.foldl (fun t l => t.storeParts pipe l.parts) s
      let head := bufHead r.h r.flags r.fvNs (r.firstLine.getD 0) r.lastLine r.dropped (r.err || (error && r.waiting ≠ [])) r.half
      (s1.put (.pipe pipe) (r.base + if r.half then 64 else 0) head).setSlot pipe slot { s1.slot pipe slot with runs := rest }

/-- HARVEST_WRITE_START: the frame-end packet in front passes: the frame's last lines leave, the ring outputs end, and the
Harvest set is ready to be written; one still being written is abandoned (R179, R186). -/
def execHarvestWriteStart (pipe : Fin 8) (s : State) : Out3 :=
  onLive s fun s0 =>
    let s := s0.settle pipe
    match s.pipeFront pipe with
    | some ⟨h, .frameEnd⟩ =>
      let s1 := s.popPipe pipe
      let s2 : State := match s1.slotFor pipe h.sid with
        | none => s1
        | some k =>
          if !(s1.slot pipe k).inFrame then s1
          else
            let t : State := (s1.advance3 pipe k true).freeBehind pipe k (2 ^ 32)
            let x : PipeSlot := t.slot pipe k
            let lo := x.firstLine
            let hi := x.s12.foldl (fun m r => max m r.n) 0
            let own := x.s12.filter (fun r => x.owns r.n)
            let run : HarvestRun :=
              { base := t.col pipe k HV_BASE_ADDR * 256 + (x.h.frame % 2 ^ t.col pipe k OUT_CFG_HV_RING) * 0x1A000
                head := bufHead x.h (x.flags ||| h.flags) x.fvNs ((own.head?.map (·.n)).getD 0) ((own.getLast?.map (·.n)).getD 0) 0
                  false (x.half = 2)
                body := hvBody x.tap x.s12 own lo hi x.width x.height (t.col pipe k HV_THR_HI_THR) (t.col pipe k HV_THR_LO_THR) }
            let on := t.colOn pipe k COL_SCTRL_HV_EN
            let t1 := if x.harvest ≠ none then t.colEvt pipe k COL_SCTRL_HV_DROP else t
            t1.setSlot pipe k { x with inFrame := false, runs := x.runs.map (fun r => { r with ended := true })
                                       raw := [], s3 := [], s6 := [], s12 := [], out := [], tap := []
                                       harvest := if on then some run else none }
      s2.pipeOut pipe ⟨h, .frameEnd⟩
    | _ => s

/-- HARVEST_WRITE_DONE: the set's body has been written, and its head is written last (R186). -/
def execHarvestWriteDone (pipe : Fin 8) (slot : Fin 3) (error : Bool) (s : State) : Out3 :=
  onLive s fun s =>
    let x := s.slot pipe slot
    match x.harvest with
    | none => s
    | some r =>
      let s1 := if error then s.colEvt pipe slot COL_SCTRL_OUT_ERR else s.put (.pipe pipe) (r.base + 64) r.body
      let head := if error then r.head.take 36 ++ [(r.head[36]?).getD 0 ||| 1] ++ r.head.drop 37 else r.head
      (s1.put (.pipe pipe) r.base head).setSlot pipe slot { x with harvest := none }

end Sys2Proof.Machine
end

