-- ==== Sys2Proof/Machine/Mfe.lean ====
section
/-! DEFINITION. Motion field engines (R145 to R150). -/
namespace Sys2Proof.Machine

/-- MFE_FRAME_START: the frame-start packet reaches the MFE (R145, R148). -/
def execMfeFrameStart (pipe : Fin 8) (s : State) : Out3 := onLive s fun s => s.mfeStart pipe

/-! ### Refinement (R147) -/

/-- A proxy in DRAM. -/
structure Proxy where
  base : Nat
  w : Nat
  h : Nat
  deriving DecidableEq, Repr

/-- The proxy of a frame. -/
def State.proxy (s : State) (n frame : Nat) : Proxy :=
  let u := s.mfe n
  ⟨s.fld (mfeA n) (if frame % 2 = 0 then MFE_PRX_BASE0_ADDR else MFE_PRX_BASE1_ADDR) * 256, u.width / 2, u.lines / 2⟩

/-- A proxy sample; positions outside take the nearest edge. -/
def State.pel (s : State) (q : Proxy) (x y : Int) : Nat :=
  let i := (clampInt 0 ((q.w : Int) - 1) x).toNat
  let j := (clampInt 0 ((q.h : Int) - 1) y).toNat
  leNat (s.peek (.mfe 0) (q.base + j * (2 * q.w) + 2 * i) 2)

/-- Sixteen times the bilinear sample at a position in quarter pels. -/
def State.pel16 (s : State) (q : Proxy) (x y : Int) : Nat :=
  let i := Int.fdiv x 4
  let j := Int.fdiv y 4
  let a := (x - 4 * i).toNat
  let b := (y - 4 * j).toNat
  let row (k : Int) : Nat := s.pel q i k * (4 - a) + (if a = 0 then 0 else s.pel q (i + 1) k * a)
  row j * (4 - b) + (if b = 0 then 0 else row (j + 1) * b)

/-- What the search of one block needs. -/
structure Search where
  cur : Proxy
  ref : Proxy
  bx : Nat
  by' : Nat
  m : Vec
  lambda : Nat
  deriving DecidableEq, Repr

/-- Sixteen times the cost of a vector (R147): samples of the block that the proxy has. -/
def State.cost16 (s : State) (q : Search) (v : Vec) : Nat :=
  let px (k : Nat) : Nat × Nat := (16 * q.bx + k % 16, 16 * q.by' + k / 16)
  let sad := ((List.range 256).map (fun k =>
    let p := px k
    if p.1 < q.cur.w ∧ p.2 < q.cur.h then
      ((16 * s.pel q.cur p.1 p.2 : Int) - s.pel16 q.ref (4 * (p.1 : Int) + v.x) (4 * (p.2 : Int) + v.y)).natAbs
    else 0)).sum
  sad + 4 * q.lambda * ((v.x - q.m.x).natAbs + (v.y - q.m.y).natAbs)

/-- The first vector of least cost. -/
def State.least (s : State) (q : Search) : List (Vec × Nat) → Vec × Nat × Nat → Vec × Nat × Nat
  | [], best => best
  | (v, k) :: t, (w, j, c) =>
    let d := s.cost16 q v
    if d < c then s.least q t (v, k, d) else s.least q t (w, j, c)

/-- The vectors around one, within r steps of a size, in raster order; those beyond the limits are left out. -/
def around (v : Vec) (r step : Nat) : List Vec :=
  let n := 2 * r + 1
  ((List.range (n * n)).map (fun k =>
    (⟨v.x + ((k % n : Nat) - (r : Int)) * step, v.y + ((k / n : Nat) - (r : Int)) * step⟩ : Vec))).filter
    (fun w => decide (w.x.natAbs ≤ 8191) && decide (w.y.natAbs ≤ 8191))

/-- One stage of the refinement. -/
def State.refineBy (s : State) (q : Search) (r step : Nat) (b : Vec × Nat × Nat) : Vec × Nat × Nat :=
  s.least q ((around b.1 r step).map (fun v => (v, b.2.1))) b

/-- The middle one of three. -/
def mid3 (a b c : Int) : Int := max (min a b) (min (max a b) c)

/-- A refined neighbour, or none. -/
def Field.refinedAt (f : Field) (i j : Int) : Option Vec :=
  if i < 0 ∨ j < 0 ∨ i ≥ f.bw then none
  else
    let b := f.at i.toNat j.toNat
    if b.refined then some b.v else none

/-- A block is refined: the best candidate, then the search around it. -/
def State.refine (s : State) (n i j : Nat) : State :=
  let u := s.mfe n
  let f := u.cur
  let l := f.refinedAt ((i : Int) - 1) j
  let a := f.refinedAt i ((j : Int) - 1)
  let r := f.refinedAt ((i : Int) + 1) ((j : Int) - 1)
  let z (o : Option Vec) : Vec := o.getD ⟨0, 0⟩
  let q : Search := ⟨s.proxy n f.h.frame, s.proxy n (f.h.frame + 1), i, j,
    ⟨mid3 (z l).x (z a).x (z r).x, mid3 (z l).y (z a).y (z r).y⟩, s.inForce (mfeA n) MFE_LAMBDA_LAMBDA⟩
  let co : Vec := if (s.tnr n).never || decide (u.prev.bw ≠ f.bw) then ⟨0, 0⟩ else (u.prev.at i j).v
  let others := ([(l, 1), (a, 2), (r, 3), (some co, 4), (some f.g, 5)] : List (Option Vec × Nat)).filterMap
    (fun p => p.1.map (fun v => (limitVec v, p.2)))
  let c0 := s.least q others (⟨0, 0⟩, 0, s.cost16 q ⟨0, 0⟩)
  let best := s.refineBy q 1 1 (s.refineBy q 1 2 (s.refineBy q 8 4 c0))
  let cost := s.openQuot best.2.2 16
  let blk : FieldBlk := { v := best.1, cost := min 65535 cost.1.toNat, source := best.2.1, refined := true
                          clamped := best.1.atLimit }
  let u1 := cost.2.mfe n
  cost.2.setMfe n { u1 with cur := { f with blks := f.blks.set (j * f.bw + i) blk } }

/-- MFE_BLOCK_REFINE: the next block in raster order is refined once the last line of its row has passed step 3 (R147). -/
def execMfeBlockRefine (pipe : Fin 8) (column row : Nat) (s : State) : Out3 :=
  onLive s fun s =>
    let u := s.mfe pipe
    let f := u.cur
    if s.flag (mfeA pipe) MFE_CTRL_EN && !f.written && decide (column < f.bw) && decide (row < f.bh) &&
        decide (row * f.bw + column = (f.blks.filter (·.refined)).length) && decide (min (32 * (row + 1)) u.lines ≤ u.passed) then
      s.refine pipe column row
    else s

/-! ### The field in DRAM (R149, R250) -/

/-- A field record (Table 6-3). -/
def FieldBlk.bytes (b : FieldBlk) : List Byte :=
  toBytes 2 (ofSigned 16 b.v.x) ++ toBytes 2 (ofSigned 16 b.v.y) ++ toBytes 2 b.cost ++ toBytes 1 b.source ++
    toBytes 1 (b2n (!b.refined) + 2 * b2n b.clamped)
/-- A field as it lies in its buffer. -/
def Field.bytes (f : Field) : List Byte := toBytes 16 f.h.toNat ++ toBytes 48 0 ++ f.blks.flatMap FieldBlk.bytes

/-- The field of a frame is written, or its write fails; every core gets the field event. -/
def State.fieldDone (s : State) (n : Nat) (f : Field) (error : Bool) : State :=
  let b := mfeA n
  let w := s.busWrite (.mfe (Fin.ofNat 8 n))
    (s.fld b (if f.h.frame % 2 = 0 then MFE_FLD_BASE0_ADDR else MFE_FLD_BASE1_ADDR) * 256) f.bytes
  let ok := !error && w.1
  let s1 := if error then s.setFlag b MFE_STATUS_FIELD_ERR true
    else if w.1 then w.2 else w.2.setFlag b MFE_STATUS_FIELD_ERR true
  let old := (UMap.get noField s1.codec.fields n).filter (fun e => e.frame ≠ f.h.frame)
  (s1.withCodec { s1.codec with fields := UMap.set noField s1.codec.fields n ((⟨f.h.frame, f.g, ok⟩ :: old).take 64) })

/-- FIELD_WRITE_DONE: the oldest finished field: the last frame's, or this frame's once every block is refined. -/
def execFieldWriteDone (pipe : Fin 8) (error : Bool) (s : State) : Out3 :=
  onLive s fun s =>
    let u := s.mfe pipe
    if !u.prev.written then
      (s.setMfe pipe { u with prev := { u.prev with written := true } }).fieldDone pipe u.prev error
    else if !u.cur.written && u.cur.blks.all (·.refined) then
      ((s.setMfe pipe { u with cur := { u.cur with written := true } }).fieldDone pipe u.cur error).setFlag (mfeA pipe)
        MFE_STATUS_BUSY false
    else s

end Sys2Proof.Machine
end

