-- ==== Sys2Proof/Machine/Nvm.lean ====
section
/-! DEFINITION. The record store's operations: completions, the LBA map, SSD commands, the write cache, deferred errors, and how
commands go on when SSD commands end (R345 to R361). -/
namespace Sys2Proof.Machine

/-! ### Host side: queues, completions, interrupts -/

def noSq (_ : Nat) : Option NvSq := none
def noCq (_ : Nat) : Option NvCq := none
def State.sq (s : State) (q : Nat) : Option NvSq := UMap.get noSq s.nv.sqs q
def State.cq (s : State) (q : Nat) : Option NvCq := UMap.get noCq s.nv.cqs q
def State.setNv (s : State) (u : NvU) : State := (s.withNv u)
def State.setSq (s : State) (q : Nat) (x : Option NvSq) : State := s.setNv { s.nv with sqs := UMap.set noSq s.nv.sqs q x }
def State.setCq (s : State) (q : Nat) (x : Option NvCq) : State := s.setNv { s.nv with cqs := UMap.set noCq s.nv.cqs q x }

/-- The endpoint is enabled and its link is up. -/
def State.pcieUp (s : State) : Bool := s.flag pcieA PCIE_CTRL_EN && s.flag pcieA PCIE_STATUS_DL_UP
/-- An MSI-X message leaves; none while the endpoint is disabled or its link is down (R343, R511). -/
def State.msix (s : State) (v : Nat) : State := if s.pcieUp then s.emit .msix 0 [v] else s

/-- A status field: code type and code. -/
def nvSt (sct sc : Nat) : Nat := sct * 256 + sc
/-- Vendor status codes (Table 15-3). -/
def stDeferred : Nat := nvSt 7 0x80
def stTemp : Nat := nvSt 7 0x81
def stMaint : Nat := nvSt 7 0x82
def stOffline : Nat := nvSt 7 0x83
/-- Generic and command-specific codes of NVM Express 2.0 (notes/assumptions/17.md). -/
def stOpcode : Nat := nvSt 0 0x01
def stField : Nat := nvSt 0 0x02
def stAborted : Nat := nvSt 0 0x07
def stNamespace : Nat := nvSt 0 0x0B
def stSequence : Nat := nvSt 0 0x0C
def stSanitise : Nat := nvSt 0 0x1D
def stRange : Nat := nvSt 0 0x80
def stNotReady : Nat := nvSt 0 0x82
def stReadOnly : Nat := nvSt 1 0x82
def stWriteFault : Nat := nvSt 2 0x80
def stReadError : Nat := nvSt 2 0x81

/-- The 16 bytes of a completion: result, queue head, queue, command, status and phase. -/
def cqEntry (dw0 sqhd sqid cid status : Nat) (phase : Bool) : List Byte :=
  toBytes 4 dw0 ++ toBytes 4 0 ++ toBytes 2 sqhd ++ toBytes 2 sqid ++ toBytes 2 cid ++ toBytes 2 (b2n phase + 2 * status)

/-- A completion goes into its queue, and the queue's vector is signalled. -/
def State.cqWrite (s : State) (id : Nat) (q : NvCq) (e : Nat × Nat × Nat × Nat) : State :=
  let sqhd := ((s.sq e.1).map (·.head)).getD 0
  let b := cqEntry e.2.2.1 sqhd e.1 e.2.1 e.2.2.2 q.phase
  let last := decide (q.tail + 1 = q.size)
  let s1 := (s.setHostBytes (q.base + 16 * q.tail) b).emit .nvmeCq id (b.map (·.toNat))
  let s2 := s1.setCq id (some { q with tail := if last then 0 else q.tail + 1, phase := if last then !q.phase else q.phase })
  if q.ien then s2.msix q.iv else s2

/-- The completion queue has no room. -/
def NvCq.full (q : NvCq) : Bool := (q.tail + 1) % q.size = q.head

/-- A command completes: its entry is posted, or waits for room. -/
def State.nvPost (s : State) (sqid cid dw0 status : Nat) : State :=
  match s.sq sqid with
  | none => s
  | some q =>
    match s.cq q.cq with
    | none => s
    | some c =>
      let e := (sqid, cid, dw0, status)
      if c.full || c.held ≠ [] then s.setCq q.cq (some { c with held := c.held ++ [e] }) else s.cqWrite q.cq c e

/-- Entries that waited follow while there is room. -/
def State.cqDrain (s : State) (id : Nat) : Nat → State
  | 0 => s
  | n + 1 =>
    match s.cq id with
    | some c =>
      match c.held with
      | e :: rest => if c.full then s else State.cqDrain (s.cqWrite id { c with held := rest } e) id n
      | [] => s
    | none => s

/-! ### The store (R346, R347) -/

def State.nvPort (s : State) (p : Nat) : SsdU := (s.nv.ports[p]?).getD {}
def State.setNvPort (s : State) (p : Nat) (u : SsdU) : State := s.setNv { s.nv with ports := s.nv.ports.setIfInBounds p u }
/-- The ports that SSD_MASK selects. -/
def State.selected (s : State) : List Nat := (List.range 4).filter (fun i => (s.fld nvtA NVT_CTRL_SSD_MASK).testBit i)
/-- D is valid. -/
def State.dOk (s : State) : Bool := [1, 2, 4].contains s.selected.length
/-- STATE of a port: 0 absent, 1 training, 2 ready, 3 offline. -/
def State.ssdState (s : State) (p : Nat) : Nat := s.fld (nvhA p) NVH_STATUS_STATE

/-- The selected ports are ready. -/
def State.ssdsReady (s : State) : Bool := s.selected.all (fun p => s.ssdState p = 2)
/-- A label names exactly the selected SSDs. -/
def State.labelFits (s : State) (l : NvLabel) : Bool :=
  l.order.length = s.selected.length && s.selected.all (fun p => l.order.contains (s.nvPort p).ident)
/-- The copy of higher generation. -/
def newerLabel (a b : Option NvLabel) : Option NvLabel :=
  match a, b with
  | some x, some y => if x.gen < y.gen then some y else some x
  | some x, none => some x
  | none, y => y
/-- The valid copy of higher generation that an SSD holds. -/
def SsdU.best (u : SsdU) : Option NvLabel := newerLabel u.label u.label2
/-- The label of highest generation among the selected SSDs. -/
def State.bestLabel (s : State) : Option NvLabel := s.selected.foldl (fun a p => newerLabel a (s.nvPort p).best) none
/-- Every selected SSD holds a label, and all name the same SSDs in the same order (R346). -/
def State.labelsOk (s : State) : Bool :=
  match s.bestLabel with
  | none => false
  | some l => s.labelFits l && s.selected.all (fun p => (s.nvPort p).best.any (fun x => x.order = l.order))
/-- The store is ready. -/
def State.storeUp (s : State) : Bool :=
  s.flag nvtA NVT_CTRL_EN && s.dOk && s.ssdsReady && s.labelsOk && (!s.maint || s.fld dmcA DMC_CHCFG_CHANNELS != 0)

/-- STORE_STATE, SSD_COUNT and LABEL_ERR. -/
def State.showStore (s : State) : State :=
  let st := if !s.storeUp then 0 else if s.nv.san.isSome then 2 else if s.nv.fmt.isSome then 3 else 1
  let bad := s.flag nvtA NVT_CTRL_EN && (!s.dOk || (s.ssdsReady && !s.labelsOk))
  ((s.setFld nvtA NVT_STATUS_STORE_STATE st).setFld nvtA NVT_STATUS_SSD_COUNT
    (if s.flag nvtA NVT_CTRL_EN && s.dOk then s.selected.length else 0)).setFlag nvtA NVT_STATUS_LABEL_ERR bad

/-- The port of the SSD with index i. -/
def State.portAt (s : State) (i : Nat) : Nat :=
  let id := (s.nv.label.order[i]?).getD 0
  (s.selected.find? (fun p => (s.nvPort p).ident = id)).getD 0
/-- The index of a port's SSD. -/
def State.indexOf (s : State) (p : Nat) : Nat := s.nv.label.order.findIdx (fun i => i = (s.nvPort p).ident)
/-- Port and SSD LBA of a store LBA (R347). -/
def State.lbaOf (s : State) (key : Nat) : Nat × Nat :=
  let d := max 1 s.nv.label.order.length
  (s.portAt (key / 256 % d), 4096 + key / 256 / d * 256 + key % 256)

/-- Namespace-1 capacity of a port's SSD. -/
def State.ssdLbas (s : State) (p : Nat) : Nat := s.fld (nvhA p) NVH_LBAS_LO_LBAS + s.fld (nvhA p) NVH_LBAS_HI_LBAS * 2 ^ 32
/-- Stripes of the store. -/
def State.stripes (s : State) : Nat :=
  match s.selected.map s.ssdLbas with
  | [] => 0
  | c :: t => (t.foldl min c - 4096) / 256 * s.selected.length

def State.ns (s : State) (nsid : Nat) : Option NvNs := s.nv.label.nss.find? (fun n => n.nsid = nsid)
/-- Blocks of an attached namespace; 32 is the replay ring (R349). -/
def State.nsBlocks (s : State) (nsid : Nat) : Option Nat :=
  if nsid = 32 then some (s.fld nvtA NVT_REPLAY_LBAS_LBAS)
  else match s.ns nsid with | some n => if n.attached then some n.nsze else none | none => none
/-- The store LBA of a namespace LBA. -/
def State.keyOf (s : State) (nsid lba : Nat) : Nat := (((s.ns nsid).map (·.start)).getD 0) * 256 + lba

/-- A run of store LBAs cut at stripe ends: start and length. -/
def cutStripes : Nat → Nat → Nat → List (Nat × Nat)
  | 0, _, _ => []
  | f + 1, key, n =>
    if n = 0 then []
    else
      let k := min n (256 - key % 256)
      (key, k) :: cutStripes f (key + k) (n - k)
def stripesOf (key n : Nat) : List (Nat × Nat) := cutStripes (n / 256 + 2) key n

/-! ### SSD commands -/

/-- A write of the store label. -/
def SsdFor.isLabel (u : SsdFor) : Bool := match u with | .label _ _ => true | _ => false

/-- A command goes to an SSD; its identifier. -/
def State.ssdIssue (s : State) (port op lba nlb : Nat) (fua : Bool) (use : SsdFor) (data : List Byte) : Nat × State :=
  let id := s.nv.ids
  (id, (s.setNv { s.nv with ids := id + 1, ssds := s.nv.ssds ++ [⟨id, port, op, lba, nlb, fua, use, false⟩] }).emit
    (.ssd (Fin.ofNat 4 port)) op ([id, lba, nlb, b2n fua] ++ data.map (·.toNat)))

/-- A run of store LBAs as SSD commands, one a stripe. -/
def State.runIssue (s : State) (key n op : Nat) (fua : Bool) (use : Nat → SsdFor) (data : List Byte) : List Nat × State :=
  (stripesOf key n).foldl (fun (a : List Nat × State) (p : Nat × Nat) =>
    let t := a.2
    let x := t.lbaOf p.1
    let r := t.ssdIssue x.1 op x.2 p.2 fua (use p.1) ((data.drop ((p.1 - key) * 4096)).take (p.2 * 4096))
    (a.1 ++ [r.1], r.2)) ([], s)

/-- The copy of a port's label that a write updates, false for the first: one that is not valid, or the older, and not one that is
being written (R346). -/
def State.olderCopy (s : State) (p : Nat) : Bool :=
  match s.nv.ssds.findSome? (fun c => match c.use with | .label b _ => if c.port = p then some b else none | _ => none) with
  | some b => !b
  | none =>
    match (s.nvPort p).label, (s.nvPort p).label2 with
    | some x, some y => decide (y.gen < x.gen)
    | some _, none => true
    | none, _ => false
/-- Label writes to every selected SSD: the label's generation goes up (R346). -/
def State.writeLabel (s : State) : List Nat × State :=
  let s1 := s.setNv { s.nv with label := { s.nv.label with gen := s.nv.label.gen + 1 } }
  s1.selected.foldl (fun (a : List Nat × State) (p : Nat) =>
    let b := s.olderCopy p
    let r := a.2.ssdIssue p 1 (2048 * b2n b) 256 true (.label b s1.nv.label) []
    (a.1 ++ [r.1], r.2)) ([], s1)

/-- SSD Flush to the ports that hold blocks not durable. -/
def State.flushPorts (s : State) (l : List Soft) : List Nat × State :=
  ((List.range 4).filter (fun p => l.any (fun x => x.port = p))).foldl (fun (a : List Nat × State) (p : Nat) =>
    let r := a.2.ssdIssue p 0 0 0 false .other []
    (a.1 ++ [r.1], r.2)) ([], s)

/-! ### The write cache (R350) -/

/-- Blocks that the cache can hold. -/
def State.cacheCap (s : State) : Nat := min 8192 (s.fld nvtA NVT_CACHE_CACHE_MIB) * 256
/-- NVT_DIRTY. -/
def State.showDirty (s : State) : State :=
  s.setFld nvtA NVT_DIRTY_MIB (((s.nv.cache.filter (·.dirty)).length + 255) / 256)

/-- A block enters the cache; blocks stay in ascending order. -/
def putBlk (b : CBlk) : List CBlk → List CBlk
  | [] => [b]
  | x :: t =>
    if b.key < x.key then b :: x :: t
    else if b.key = x.key then { b with flying := x.flying } :: t
    else x :: putBlk b t

/-- Blocks of 4,096 bytes. -/
def toBlocks : Nat → List Byte → List (List Byte)
  | 0, _ => []
  | n + 1, l => l.take 4096 :: toBlocks n (l.drop 4096)

/-- A Write's blocks enter the cache. -/
def State.cachePut (s : State) (nsid slba : Nat) (n : Nat) (data : List Byte) : State :=
  let key := s.keyOf nsid slba
  (s.setNv { s.nv with cache := ((toBlocks n data).zip (List.range n)).foldl (fun c e =>
    putBlk ⟨key + e.2, nsid, slba + e.2, e.1, true, none⟩ c) s.nv.cache }).showDirty
/-- Blocks of a run that the cache does not hold. -/
def State.cacheNew (s : State) (key n : Nat) : Nat :=
  n - (s.nv.cache.filter (fun b => decide (key ≤ b.key ∧ b.key < key + n))).length
/-- Cached data of a run is discarded; a write-back in progress runs on. -/
def State.cacheDrop (s : State) (p : CBlk → Bool) : State :=
  let kept := (s.nv.cache.map (fun b => if p b then { b with dirty := false } else b)).filter (fun b => !p b || b.flying.isSome)
  (s.setNv { s.nv with cache := kept }).showDirty
def inRun (key n : Nat) (b : CBlk) : Bool := decide (key ≤ b.key ∧ b.key < key + n)
/-- Write-backs in progress that meet a run. -/
def State.flyingIn (s : State) (key n : Nat) : List Nat :=
  (s.nv.cache.filter (inRun key n)).filterMap (·.flying)

/-- The dirty blocks that follow a block in its stripe, all of one namespace and not in flight. -/
def runFrom (b : CBlk) : List CBlk → List CBlk
  | [] => []
  | x :: t =>
    if x.key = b.key + 1 && x.key % 256 != 0 && x.nsid = b.nsid && x.dirty && x.flying.isNone then x :: runFrom x t else []

/-- One write-back: blocks of one stripe in ascending order. -/
def State.writeBack (s : State) (bs : List CBlk) : Option Nat × State :=
  match bs with
  | [] => (none, s)
  | b :: _ =>
    let x := s.lbaOf b.key
    let r := s.ssdIssue x.1 1 x.2 bs.length false (.cache b.nsid b.key) (bs.flatMap (·.data))
    (some r.1, (r.2.setNv { r.2.nv with cache := r.2.nv.cache.map (fun y =>
      if bs.any (fun z => z.key = y.key) then { y with dirty := false, flying := some r.1 } else y) }).showDirty)

/-- The next run that can be written back, among blocks that satisfy p. -/
def nextRun (p : CBlk → Bool) : List CBlk → List CBlk
  | [] => []
  | x :: t => if x.dirty && x.flying.isNone && p x then x :: runFrom x t else nextRun p t
def State.nextBack (s : State) (p : CBlk → Bool) : List CBlk := nextRun p s.nv.cache

/-- Every dirty block that satisfies p is written back. -/
def State.backAll (s : State) (p : CBlk → Bool) : Nat → State
  | 0 => s
  | n + 1 => State.backAll ((s.writeBack (s.nextBack p)).2) p n
/-- Write-backs, in progress or dirty, of blocks that satisfy p: all issued, and waited for. -/
def State.cleanAll (s : State) (p : CBlk → Bool) : List Nat × State :=
  let t := s.backAll p s.nv.cache.length
  (((t.nv.cache.filter p).filterMap (·.flying)).eraseDups, t)

/-- SSD writes of host commands in flight that meet a run. -/
def State.hostIn (s : State) (key n : Nat) : List Nat :=
  (s.nv.ssds.filter (fun x =>
    (x.op = 1 || x.op = 8 || x.op = 9) && (match x.use with | .host _ _ => true | _ => false) &&
      (stripesOf key n).any (fun p =>
        let a := s.lbaOf p.1
        a.1 = x.port && decide (a.2 < x.lba + x.nlb ∧ x.lba < a.2 + p.2)))).map (·.id)

/-! ### Commands -/

def State.setCmd (s : State) (c : NvCmd) : State :=
  s.setNv { s.nv with cmds := s.nv.cmds.map (fun x => if x.n = c.n then c else x) }
def State.addCmd (s : State) (c : NvCmd) : State :=
  s.setNv { s.nv with cmds := s.nv.cmds ++ [{ c with n := s.nv.seq }], seq := s.nv.seq + 1 }
/-- Host memory takes data along its pages. -/
def State.prpWrite (s : State) : List (Nat × Nat) → List Byte → State
  | [], _ => s
  | (a, n) :: t, l => State.prpWrite (s.setHostBytes a (l.take n)) t (l.drop n)

/-- The head moves past entries that an Abort has completed. -/
def NvSq.passed (q : NvSq) : Nat → NvSq
  | 0 => q
  | n + 1 =>
    if q.head ≠ q.tail && q.skip.contains q.head then
      NvSq.passed { q with head := (q.head + 1) % q.size, skip := q.skip.filter (· ≠ q.head) } n
    else q
/-- A submission queue holds a command that has not been fetched or aborted. -/
def State.sqHolds (s : State) (q : Nat) : Bool :=
  match s.sq q with
  | some x => (x.passed x.size).head != x.tail
  | none => false
/-- Deletions of queues whose commands have all completed complete (R358). -/
def State.settleDeletes (s : State) : State :=
  s.nv.cmds.foldl (fun t c =>
    match c.stage with
    | .deleting q =>
      if t.nv.cmds.any (fun x => x.sq = q) || t.sqHolds q then t
      else
        let u := (t.setNv { t.nv with cmds := t.nv.cmds.filter (fun x => x.n ≠ c.n) }).setSq q none
        if c.silent then u else u.nvPost c.sq c.cid 0 0
    | _ => t) s

/-- A command ends: it is posted, unless it runs to its internal end only (R361). -/
def State.nvFinish (s : State) (c : NvCmd) (dw0 status : Nat) : State :=
  let t := s.setNv { s.nv with cmds := s.nv.cmds.filter (fun x => x.n ≠ c.n) }
  (if c.silent then t else t.nvPost c.sq c.cid dw0 status).settleDeletes

/-! ### Deferred errors and events (R355) -/

/-- The vendor event: type 7, information 0x80, log page 0xC0. -/
def eventDw : Nat := 0x7 + 0x80 * 256 + 0xC0 * 65536
/-- An event request completes with the event, or the event waits for one. -/
def State.raiseEvent (s : State) : State :=
  if s.nv.aeMasked then s.setNv { s.nv with aePending := true }
  else
    match s.nv.cmds.find? (fun c => c.stage = .event && !c.silent) with
    | none => s.setNv { s.nv with aePending := true }
    | some c => (s.setNv { s.nv with aeMasked := true, aePending := false }).nvFinish c eventDw 0

/-- A range of a namespace is logged, and the event is raised (R355 steps 1, 2; R368). -/
def State.logError (s : State) (nsid slba nlb port cause status : Nat) : State :=
  let e : DefErr := ⟨nsid, slba, nlb, s.indexOf port, cause, status, s.nowNs⟩
  (s.setNv { s.nv with log := (e :: s.nv.log).take 255, logCount := s.nv.logCount + 1 }).raiseEvent
/-- A deferred error (R355). -/
def State.deferError (s : State) (nsid slba nlb port cause status : Nat) : State :=
  let s1 := s.logError nsid slba nlb port cause status
  let s2 := s1.setNv { s1.nv with failed := if s1.nv.failed.contains nsid then s1.nv.failed else nsid :: s1.nv.failed }
  (s2.setFlag nvtA NVT_EVT_DEFER true).incFld nvtA NVT_CNT_DEFERRED 1

/-! ### Format and sanitise: what the SSDs do (R362, R363) -/

/-- SSD writes in progress to the namespaces that satisfy p. -/
def State.writesOf (s : State) (p : Nat → Bool) : List Nat :=
  (s.nv.ssds.filter (fun c => (c.op = 1 || c.op = 8 || c.op = 9) &&
    (match c.use with | .host n _ => p n | .cache n _ => p n | .task _ n _ => p n | _ => false))).map (·.id)

/-- The LBA range of an SSD that a run of stripes takes: stripes k with k mod D = i. -/
def ssdRange (start n d i : Nat) : Nat × Nat :=
  let first := start + (i + d - start % d) % d
  (4096 + first / d * 256, ((start + n + d - 1 - first) / d) * 256)

/-- The SSD commands of a format, on the SSDs that have not finished. -/
def State.formatIssue (s : State) (nsid ses : Nat) (done : List Nat) : List Nat × State :=
  match s.ns nsid with
  | none => ([], s)
  | some n =>
    let d := s.selected.length
    ((List.range d).filter (fun i => !done.contains i)).foldl (fun (a : List Nat × State) i =>
      let r := ssdRange n.start ((n.nsze + 255) / 256) d i
      if r.2 = 0 then a
      else
        let x := a.2.ssdIssue (a.2.portAt i) (if ses = 0 then 9 else 8) r.1 r.2 (ses = 1) .format []
        (a.1 ++ [x.1], x.2)) ([], s)
/-- The SSD commands of a sanitise, on the SSDs that have not finished. -/
def State.sanitiseIssue (s : State) (action : Nat) (done : List Nat) : State :=
  ((List.range s.selected.length).filter (fun i => !done.contains i)).foldl (fun t i =>
    (t.ssdIssue (t.portAt i) 0x84 action 0 false .sanitise []).2) s

/-! ### How commands go on -/

/-- The namespace covers a scope: NSID, or all. -/
def inScope (nsid x : Nat) : Bool := nsid = 0xFFFFFFFF || nsid = x

/-- Offsets of the PCIE registers that hold something. -/
def pcieRegs : List Nat := [PCIE_CTRL, PCIE_BAR4, PCIE_AER] ++ (List.range 32).map (fun n => PCIE_OB_LO + 4 * n)
/-- The PCIe registers return to their reset values, where a link reset asked for it (R343). -/
def State.pcieReset (s : State) : State :=
  if s.nv.linkReset then
    (pcieRegs.foldl (fun t o => t.wr (pcieA + o) (regReset (pcieA + o))) (s.setNv { s.nv with linkReset := false })).quadsFollow
  else s
/-- A controller reset or shutdown ends (R361). -/
def State.resetDone (s : State) (c : NvCmd) (shutdown : Bool) : State :=
  let t := s.setNv { s.nv with cmds := s.nv.cmds.filter (fun x => x.n ≠ c.n) }
  if shutdown then t.setNv { t.nv with shst := 2 }
  else (t.setNv { t.nv with rdy := false, cc := 0, shst := 0, sqs := [], cqs := [], arb := 0, vwc := true, nq := 62 * 65536 + 62
                            coal := 0, aec := 0, temps := [], vecs := [], aeMasked := false
                            cmds := t.nv.cmds.filter (fun x => !(x.stage = .event)) }).pcieReset

/-- Writes that the SSDs have completed and that can no longer be made durable become deferred errors (R361). -/
def State.deferSoft (s : State) (p : Nat → Bool) (cause status : Nat) : State :=
  (s.nv.soft.filter (fun x => p x.port)).foldl (fun t x => t.deferError x.nsid (x.key - t.keyOf x.nsid 0) x.nlb x.port cause status)
    (s.setNv { s.nv with soft := s.nv.soft.filter (fun x => !p x.port) })

/-- A Read's data, block by block: zeros where a part failed. -/
def NvCmd.assemble (c : NvCmd) : List Byte :=
  (List.range c.nlb).flatMap (fun i =>
    match c.got.find? (fun g => g.1 = i) with | some g => g.2 | none => List.replicate 4096 0)

/-- A Read begins: blocks in the cache are taken from there, the others read from the SSDs (R351). -/
def State.readIssue (s : State) (c : NvCmd) : State :=
  let key := s.keyOf c.nsid c.slba
  let got := (s.nv.cache.filter (inRun key c.nlb)).map (fun b => (b.key - key, b.data))
  let missing := (List.range c.nlb).filter (fun i => !got.any (fun g => g.1 = i))
  let runs := missing.foldl (fun (a : List (Nat × Nat)) i =>
    match a with
    | (k, n) :: t => if k + n = key + i then (k, n + 1) :: t else (key + i, 1) :: (k, n) :: t
    | [] => [(key + i, 1)]) []
  let r := runs.reverse.foldl (fun (a : List Nat × State) p =>
    let q := a.2.runIssue p.1 p.2 2 false (fun k => .host c.nsid k) []
    (a.1 ++ q.1, q.2)) ([], s)
  r.2.setCmd { c with got := got, need := r.1, stage := .media }

/-- A Write goes through to the SSDs: with FUA, with the cache disabled, or with none (R350). -/
def State.through (s : State) (fua : Bool) : Bool := fua || !s.nv.vwc || s.cacheCap = 0
/-- The cache has room for a Write. -/
def State.cacheFits (s : State) (nsid slba n : Nat) : Bool :=
  s.nv.cache.length + s.cacheNew (s.keyOf nsid slba) n ≤ s.cacheCap
/-- The ranges of a Dataset Management command: LBA and length. -/
def dsmRanges (n : Nat) (l : List Byte) : List (Nat × Nat) :=
  (List.range n).map (fun i => (fieldAt l (16 * i + 8) 8, fieldAt l (16 * i + 4) 4))
/-- The ranges of a namespace that a command names: its blocks, or those of a Dataset Management command. -/
def NvCmd.runs (c : NvCmd) : List (Nat × Nat) := if c.opc = 9 then dsmRanges (c.data.length / 16) c.data else [(c.slba, c.nlb)]
/-- What a command waits for before it begins: writes of host commands that overlap it and, where it writes to the SSDs itself, the
write-backs that do (R350, R351). -/
def State.orderNeed (s : State) (c : NvCmd) : List Nat :=
  c.runs.flatMap (fun r =>
    let key := s.keyOf c.nsid r.1
    (if c.opc = 2 || (c.opc = 1 && !s.through c.fua) then [] else s.flyingIn key r.2) ++ s.hostIn key r.2)
/-- Cached data of a command's ranges is discarded. -/
def State.dropRuns (s : State) (c : NvCmd) : State := c.runs.foldl (fun t r => t.cacheDrop (inRun (t.keyOf c.nsid r.1) r.2)) s
/-- A command's ranges go to the SSDs: a Write with FUA, the others as they ask. -/
def State.issueRuns (s : State) (c : NvCmd) : List Nat × State :=
  c.runs.foldl (fun (a : List Nat × State) r =>
    let x := a.2.runIssue (a.2.keyOf c.nsid r.1) r.2 c.opc (c.opc = 1 || (c.opc = 8 && c.fua)) (fun k => .host c.nsid k)
      (if c.opc = 1 then c.data else [])
    (a.1 ++ x.1, x.2)) ([], s)

/-- A command that waits for nothing more goes on. -/
def State.nvStep (s : State) (c : NvCmd) : State :=
  match c.stage with
  | .order =>
    let need := s.orderNeed c
    if !s.storeUp then s.nvFinish c 0 stOffline
    else if need ≠ [] then s.setCmd { c with need := need }
    else if c.opc = 2 then s.readIssue c
    else if c.opc = 1 && !s.through c.fua then
      (if s.cacheFits c.nsid c.slba c.nlb then (s.cachePut c.nsid c.slba c.nlb c.data).nvFinish c 0 0 else s.setCmd { c with stage := .room })
    else
      let t := s.dropRuns c
      let r := t.issueRuns c
      r.2.setCmd { c with stage := .media, need := r.1 }
  | .media =>
    match c.status with
    | some st => s.nvFinish c 0 st
    | none => (if c.opc = 2 then s.prpWrite c.prp c.assemble else s).nvFinish c 0 0
  | .flushing =>
    let l := s.nv.soft.filter (fun x => inScope c.nsid x.nsid)
    let r := s.flushPorts (l.filter (fun x => s.ssdState x.port = 2))
    let lost := l.any (fun x => s.ssdState x.port ≠ 2)
    r.2.setCmd { c with stage := .flushed, need := r.1, snap := l
                        status := if lost then some (c.status.getD stOffline) else c.status }
  | .flushed =>
    let t := if c.status.isSome then s else s.setNv { s.nv with soft := s.nv.soft.filter (fun x => !c.snap.contains x) }
    t.nvFinish c 0 (c.status.getD 0)
  | .label => s.nvFinish c (if c.status.isSome then 0 else c.nlb) (c.status.getD 0)
  | .reset d =>
    let t := s.deferSoft (fun p => s.ssdState p != 2) 3 0
    let r := t.flushPorts t.nv.soft
    r.2.setCmd { c with stage := .resetFlush d, need := r.1, snap := t.nv.soft }
  | .prep =>
    match s.nv.san, s.nv.fmt with
    | some (a, done), _ => (s.setNv { s.nv with cmds := s.nv.cmds.filter (fun x => x.n ≠ c.n) }).sanitiseIssue a done
    | none, some (nsid, ses) =>
      let r := s.formatIssue nsid ses ((s.nv.label.progress.map (·.2.2)).getD [])
      r.2.setCmd { c with stage := .format, need := r.1 }
    | none, none => s.setNv { s.nv with cmds := s.nv.cmds.filter (fun x => x.n ≠ c.n) }
  | .resetFlush d =>
    (s.setNv { s.nv with soft := s.nv.soft.filter (fun x => !c.snap.contains x) }).resetDone c d
  | _ => s

/-- Commands with nothing left to wait for go on, oldest first; a stage that needs nothing is passed at once. -/
def State.nvRun (s : State) : Nat → State
  | 0 => s
  | f + 1 =>
    let live (c : NvCmd) : Bool := match c.stage with
      | .order | .media | .flushing | .flushed | .label | .prep | .reset _ | .resetFlush _ => true
      | _ => false
    match s.nv.cmds.find? (fun c => c.need = [] && live c) with
    | none => s
    | some c => State.nvRun (s.nvStep c) f
/-- Writes that wait for room enter the cache while it has room, oldest first (R350). -/
def State.takeRoom (s : State) : State :=
  s.nv.cmds.foldl (fun t c =>
    if c.stage ≠ .room then t
    else if !t.storeUp then t.nvFinish c 0 stOffline
    else if t.cacheFits c.nsid c.slba c.nlb && t.hostIn (t.keyOf c.nsid c.slba) c.nlb = [] then
      (t.cachePut c.nsid c.slba c.nlb c.data).nvFinish c 0 0
    else t) s
/-- Steps that the commands at hand can take without another event. -/
def State.nvSettle (s : State) : State := (s.nvRun (4 * s.nv.cmds.length)).takeRoom

end Sys2Proof.Machine
end

