-- ==== Sys2Proof/Machine/NvmCmds.lean ====
section
/-! DEFINITION. Fetching commands of the host, and the NVM commands (R344, R349 to R355). Layouts of queue entries and PRPs are
those of NVM Express 2.0, which the spec names (notes/assumptions/17.md). -/
namespace Sys2Proof.Machine

/-- A submission queue entry: its 16 words. -/
abbrev Sqe := List Nat
def Sqe.dw (q : Sqe) (i : Nat) : Nat := (q[i]?).getD 0
def Sqe.opc (q : Sqe) : Nat := q.dw 0 % 256
def Sqe.cid (q : Sqe) : Nat := q.dw 0 / 65536
def Sqe.nsid (q : Sqe) : Nat := q.dw 1
def Sqe.prp1 (q : Sqe) : Nat := q.dw 6 + q.dw 7 * 2 ^ 32
def Sqe.prp2 (q : Sqe) : Nat := q.dw 8 + q.dw 9 * 2 ^ 32
/-- Starting LBA, number of blocks, Force Unit Access. -/
def Sqe.slba (q : Sqe) : Nat := q.dw 10 + q.dw 11 * 2 ^ 32
def Sqe.nlb (q : Sqe) : Nat := q.dw 12 % 65536 + 1
def Sqe.fua (q : Sqe) : Bool := (q.dw 12).testBit 30

/-- The entry at a slot of a queue. -/
def State.sqeAt (s : State) (q : NvSq) (i : Nat) : Sqe := (List.range 16).map (fun k => leNat (s.hostBytes (q.base + 64 * i + 4 * k) 4))

/-- The next command of a submission queue, and the state with it fetched; none where the controller fetches nothing. -/
def State.fetch (s : State) (sqid : Nat) : Option (Sqe × State) :=
  match s.sq sqid with
  | none => none
  | some q0 =>
    let q := q0.passed q0.size
    if !s.nv.rdy || !s.pcieUp || q.head = q.tail then none
    else some (s.sqeAt q q.head, s.setSq sqid (some { q with head := (q.head + 1) % q.size }))

/-! ### PRPs -/

def State.pageSize (s : State) : Nat := 4096 * 2 ^ (bits s.nv.cc 10 7)

/-- Pages named by a PRP list, from the entry at an address: the last entry of a page names the next list where more follow. -/
def State.prpList (s : State) (page : Nat) : Nat → Nat → Nat → List (Nat × Nat)
  | 0, _, _ => []
  | f + 1, at', len =>
    if len = 0 then []
    else
      let p := leNat (s.hostBytes at' 8)
      if at' % page + 8 = page && decide (len > page) then s.prpList page f p len
      else (p, min page len) :: s.prpList page f (at' + 8) (len - min page len)

/-- The pieces of host memory of a transfer. -/
def State.prps (s : State) (q : Sqe) (len : Nat) : List (Nat × Nat) :=
  let page := s.pageSize
  let first := min len (page - q.prp1 % page)
  let rest := len - first
  (if first = 0 then [] else [(q.prp1, first)]) ++
    (if rest = 0 then [] else if rest ≤ page then [(q.prp2, rest)] else s.prpList page (2 * (rest / page) + 4) q.prp2 rest)
/-- Data from the host. -/
def State.prpRead (s : State) (l : List (Nat × Nat)) : List Byte := l.flatMap (fun p => s.hostBytes p.1 p.2)

/-! ### Checks -/

/-- Fused operations and SGLs are not supported (Table 15-2). -/
def Sqe.badForm (q : Sqe) : Bool := bits (q.dw 0) 9 8 != 0 || bits (q.dw 0) 15 14 != 0

/-- Why an NVM command for a namespace does not run: no such namespace, a format, a deferred error, the range, and the state after
that answer (R355, R362). -/
def State.nvCheck (s : State) (nsid slba nlb : Nat) : Option (Nat × State) :=
  match s.nsBlocks nsid with
  | none => some (stNamespace, s)
  | some n =>
    if s.nv.fmt.any (fun f => f.1 = nsid) then some (stNotReady, s)
    else if s.nv.failed.contains nsid then
      some (stDeferred, s.setNv { s.nv with failed := s.nv.failed.filter (· ≠ nsid) })
    else if slba + nlb > n then some (stRange, s)
    else none

/-- SSD writes of record tasks in flight that meet a run (R351). -/
def State.taskIn (s : State) (key n : Nat) : List Nat :=
  (s.nv.ssds.filter (fun x =>
    (match x.use with | .task _ _ _ => true | _ => false) &&
      (stripesOf key n).any (fun p =>
        let a := s.lbaOf p.1
        a.1 = x.port && decide (a.2 < x.lba + x.nlb ∧ x.lba < a.2 + p.2)))).map (·.id)
/-- One NVM command of a queue, of the given opcode: fetched, checked and begun. None runs while a sanitise does or the store is
offline (R346, R363). -/
def State.nvmCmd (s : State) (sqid opc : Nat) (run : Sqe → State → State) : State :=
  match s.fetch sqid with
  | none => s
  | some (q, t) =>
    if sqid = 0 || q.opc ≠ opc then s
    else
      (if s.nv.san.isSome then t.nvPost sqid q.cid 0 stSanitise
       else if !s.storeUp then t.nvPost sqid q.cid 0 stOffline
       else if q.badForm then t.nvPost sqid q.cid 0 stField
       else run q t).settleDeletes

/-! ### The commands -/

/-- SQ_DOORBELL: a new tail (R344). -/
def execSqDoorbell (sq : Fin 64) (tail : Nat) (s : State) : Out3 :=
  onLive s fun s =>
    match s.sq sq with
    | some q => if s.nv.rdy && decide (tail < q.size) then s.setSq sq (some { q with tail := tail }) else s
    | none => s
/-- CQ_DOORBELL: a new head; completions that waited for room follow (R344). -/
def execCqDoorbell (cq : Fin 64) (head : Nat) (s : State) : Out3 :=
  onLive s fun s =>
    match s.cq cq with
    | some c =>
      if s.nv.rdy && decide (head < c.size) then (s.setCq cq (some { c with head := head })).cqDrain cq c.size else s
    | none => s

/-- A Flush's scope fails with a deferred error that waits to be reported (R352). -/
def State.flushFails (s : State) (nsid : Nat) : Bool := s.nv.failed.any (fun f => inScope nsid f)

/-- NVM_FLUSH: completes when every earlier Write in scope is durable (R352). -/
def State.flushRun (s : State) (sqid : Nat) (q : Sqe) : State :=
  if q.nsid ≠ 0xFFFFFFFF && s.nsBlocks q.nsid = none then s.nvPost sqid q.cid 0 stNamespace
  else if s.nv.fmt.any (fun f => f.1 = q.nsid) then s.nvPost sqid q.cid 0 stNotReady
  else if s.flushFails q.nsid then
    (s.setNv { s.nv with failed := s.nv.failed.filter (fun f => !inScope q.nsid f) }).nvPost sqid q.cid 0 stDeferred
  else
    let r := s.cleanAll (fun b => inScope q.nsid b.nsid)
    (r.2.addCmd { n := 0, sq := sqid, cid := q.cid, opc := 0, nsid := q.nsid, stage := .flushing, need := r.1 }).nvSettle
def execNvmFlush (sq : Fin 64) (s : State) : Out3 := onLive s fun s => s.nvmCmd sq 0 fun q t => t.flushRun sq q

/-- NVM_WRITE: into the cache, or through it with FUA, with the cache disabled or with none (R350). -/
def State.writeRun (s : State) (sqid : Nat) (q : Sqe) : State :=
  if q.nlb > 256 then s.nvPost sqid q.cid 0 stField
  else
    match s.nvCheck q.nsid q.slba q.nlb with
    | some (st, t) => t.nvPost sqid q.cid 0 st
    | none =>
      if q.nsid = 32 then s.nvPost sqid q.cid 0 stReadOnly
      else
        let key := s.keyOf q.nsid q.slba
        let c : NvCmd := { n := 0, sq := sqid, cid := q.cid, opc := 1, nsid := q.nsid, slba := q.slba, nlb := q.nlb, fua := q.fua
                           stage := .order, data := s.prpRead (s.prps q (q.nlb * 4096)) }
        if s.through q.fua || s.hostIn key q.nlb ≠ [] then (s.addCmd { c with need := s.orderNeed c }).nvSettle
        else if s.cacheFits q.nsid q.slba q.nlb then (s.cachePut q.nsid q.slba q.nlb c.data).nvPost sqid q.cid 0 0
        else s.addCmd { c with stage := .room }
def execNvmWrite (sq : Fin 64) (s : State) : Out3 := onLive s fun s => s.nvmCmd sq 1 fun q t => t.writeRun sq q

/-- A Read of the replay ring: the DRAM contents at this moment (R349). -/
def State.replayRead (s : State) (sqid : Nat) (q : Sqe) : State :=
  let a := s.fld nvtA NVT_REPLAY_BASE_ADDR * 256 + 4096 * q.slba
  let x := s.busRead .store a (q.nlb * 4096)
  match x.1 with
  | some b => (x.2.prpWrite (x.2.prps q (q.nlb * 4096)) b).nvPost sqid q.cid 0 0
  | none => x.2.nvPost sqid q.cid 0 stReadError
/-- NVM_READ: waits for overlapping writes that are on their way to the SSDs, then reads (R351). -/
def State.readRun (s : State) (sqid : Nat) (q : Sqe) : State :=
  if q.nlb > 256 then s.nvPost sqid q.cid 0 stField
  else
    match s.nvCheck q.nsid q.slba q.nlb with
    | some (st, t) => t.nvPost sqid q.cid 0 st
    | none =>
      if q.nsid = 32 then s.replayRead sqid q
      else
        (s.addCmd { n := 0, sq := sqid, cid := q.cid, opc := 2, nsid := q.nsid, slba := q.slba, nlb := q.nlb, stage := .order
                    need := s.taskIn (s.keyOf q.nsid q.slba) q.nlb ++ s.hostIn (s.keyOf q.nsid q.slba) q.nlb, prp := s.prps q (q.nlb * 4096) }).nvSettle
def execNvmRead (sq : Fin 64) (s : State) : Out3 := onLive s fun s => s.nvmCmd sq 2 fun q t => t.readRun sq q

/-- NVM_WRITE_ZEROES: cached data of the range goes, and the SSDs write zeros (R353). -/
def State.zeroesRun (s : State) (sqid : Nat) (q : Sqe) : State :=
  match s.nvCheck q.nsid q.slba q.nlb with
  | some (st, t) => t.nvPost sqid q.cid 0 st
  | none =>
    if q.nsid = 32 then s.nvPost sqid q.cid 0 stReadOnly
    else
      let c : NvCmd := { n := 0, sq := sqid, cid := q.cid, opc := 8, nsid := q.nsid, slba := q.slba, nlb := q.nlb, fua := q.fua
                         stage := .order }
      (s.addCmd { c with need := s.orderNeed c }).nvSettle
def execNvmWriteZeroes (sq : Fin 64) (s : State) : Out3 := onLive s fun s => s.nvmCmd sq 8 fun q t => t.zeroesRun sq q

/-- DATASET_MANAGEMENT: with the Deallocate attribute, ranges leave the cache and go to the SSDs (R353). -/
def State.dsmRun (s : State) (sqid : Nat) (q : Sqe) : State :=
  let n := q.dw 10 % 256 + 1
  let data := s.prpRead (s.prps q (16 * n))
  let rs := dsmRanges n data
  let worst := rs.foldl (fun m r => max m (r.1 + r.2)) 0
  match s.nvCheck q.nsid 0 worst with
  | some (st, t) => t.nvPost sqid q.cid 0 st
  | none =>
    if q.nsid = 32 then s.nvPost sqid q.cid 0 stReadOnly
    else if !(q.dw 11).testBit 2 then s.nvPost sqid q.cid 0 0
    else
      let c : NvCmd := { n := 0, sq := sqid, cid := q.cid, opc := 9, nsid := q.nsid, stage := .order, data := data }
      (s.addCmd { c with need := s.orderNeed c }).nvSettle
def execDatasetManagement (sq : Fin 64) (s : State) : Out3 := onLive s fun s => s.nvmCmd sq 9 fun q t => t.dsmRun sq q

/-- Opcodes of Table 15-5. -/
def nvmOpcode (o : Nat) : Bool := [0x00, 0x01, 0x02, 0x08, 0x09].contains o
def adminOpcode (o : Nat) : Bool :=
  [0x00, 0x01, 0x02, 0x04, 0x05, 0x06, 0x08, 0x09, 0x0A, 0x0C, 0x0D, 0x10, 0x11, 0x15, 0x80, 0x84].contains o
/-- Feature identifiers accepted. -/
def featureOk (f : Nat) : Bool := [0x01, 0x04, 0x06, 0x07, 0x08, 0x09, 0x0B].contains f
/-- A field of an admin command selects a form that no command of Table 15-5 has. -/
def Sqe.badSelect (q : Sqe) : Bool :=
  let o := q.opc
  (o = 0x09 && !featureOk (q.dw 10 % 256)) || (o = 0x0D && decide (q.dw 10 % 16 > 1)) || (o = 0x15 && decide (q.dw 10 % 16 > 1)) ||
    (o = 0x10 && decide (bits (q.dw 10) 5 3 > 2)) || (o = 0x84 && bits (q.dw 10) 2 0 != 2 && bits (q.dw 10) 2 0 != 3)

/-- INVALID_COMMAND_OPCODE: an opcode outside Table 15-5, or an unsupported value of a field that selects a form (R344). -/
def State.invalidRun (s : State) (sqid : Nat) : State :=
  match s.fetch sqid with
  | none => s
  | some (q, t) =>
    if (sqid = 0 && !adminOpcode q.opc) || (sqid ≠ 0 && !nvmOpcode q.opc) then (t.nvPost sqid q.cid 0 stOpcode).settleDeletes
    else if sqid = 0 && q.badSelect then t.nvPost sqid q.cid 0 stField
    else s
def execInvalidCommandOpcode (sq : Fin 64) (s : State) : Out3 := onLive s fun s => s.invalidRun sq

end Sys2Proof.Machine
end

