-- ==== Sys2Proof/Machine/NvmAdmin.lean ====
section
/-! DEFINITION. Admin commands: queues, log pages, Identify, features, Abort, events (R344, R356 to R358). Layouts are those of
NVM Express 2.0 (notes/assumptions/17.md); what neither it nor the spec fixes is free. -/
namespace Sys2Proof.Machine

/-- One admin command of the given opcode that satisfies p: fetched and run. -/
def State.adminCmd (s : State) (opc : Nat) (p : Sqe → Bool) (run : Sqe → State → State) : State :=
  match s.fetch 0 with
  | none => s
  | some (q, t) =>
    if q.opc ≠ opc || !p q then s
    else if q.badForm then t.nvPost 0 q.cid 0 stField
    else run q t
/-- The command of any form. -/
def anyForm (_ : Sqe) : Bool := true

/-- n bytes of which some are known; the others are free values. -/
def State.freeBytes (s : State) (n : Nat) (known : Nat → Option Byte) : List Byte × State :=
  ((List.range n).map (fun i => (known i).getD (BitVec.ofNat 8 (Config.freeValue (s.free + i)))), { s with free := s.free + n })
/-- Fields of a page: each at an offset. -/
def fieldsAt (l : List (Nat × List Byte)) (i : Nat) : Option Byte :=
  match l.find? (fun f => decide (f.1 ≤ i ∧ i < f.1 + f.2.length)) with
  | some f => f.2[i - f.1]?
  | none => none

/-! ### Queues -/

def stQueueId : Nat := nvSt 1 0x01
def stQueueSize : Nat := nvSt 1 0x02
/-- A queue identifier that may be created. -/
def qidOk (q limit : Nat) : Bool := decide (0 < q ∧ q ≤ limit + 1)

/-- CREATE_IO_COMPLETION_QUEUE (Table 15-5). -/
def State.createCq (s : State) (q : Sqe) : State :=
  let id := q.dw 10 % 65536
  let n := q.dw 10 / 65536
  let iv := q.dw 11 / 65536
  if !qidOk id (s.nv.nq / 65536) || (s.cq id).isSome then s.nvPost 0 q.cid 0 stQueueId
  else if n = 0 ∨ n > 4095 then s.nvPost 0 q.cid 0 stQueueSize
  else if !(q.dw 11).testBit 0 then s.nvPost 0 q.cid 0 stField
  else if iv > 255 then s.nvPost 0 q.cid 0 (nvSt 1 0x08)
  else (s.setCq id (some { base := q.prp1, size := n + 1, iv := iv, ien := (q.dw 11).testBit 1 })).nvPost 0 q.cid 0 0
def execCreateIoCompletionQueue (s : State) : Out3 := onLive s fun s => s.adminCmd 5 anyForm fun q t => t.createCq q

/-- CREATE_IO_SUBMISSION_QUEUE: priority is ignored (Table 15-5). -/
def State.createSq (s : State) (q : Sqe) : State :=
  let id := q.dw 10 % 65536
  let n := q.dw 10 / 65536
  let cq := q.dw 11 / 65536
  if !qidOk id (s.nv.nq % 65536) || (s.sq id).isSome then s.nvPost 0 q.cid 0 stQueueId
  else if n = 0 ∨ n > 4095 then s.nvPost 0 q.cid 0 stQueueSize
  else if !(q.dw 11).testBit 0 then s.nvPost 0 q.cid 0 stField
  else if cq = 0 ∨ (s.cq cq).isNone then s.nvPost 0 q.cid 0 (nvSt 1 0x00)
  else (s.setSq id (some { base := q.prp1, size := n + 1, cq := cq })).nvPost 0 q.cid 0 0
def execCreateIoSubmissionQueue (s : State) : Out3 := onLive s fun s => s.adminCmd 1 anyForm fun q t => t.createSq q

/-- A command has not yet begun (R357). -/
def NvCmd.notBegun (c : NvCmd) : Bool := match c.stage with | .room | .order | .event => true | _ => false

/-- A command that has not begun completes with Command Abort Requested. -/
def State.abortCmd (s : State) (c : NvCmd) : State := (s.nvFinish c 0 stAborted).incFld nvtA NVT_CNT_ABORTED 1

/-- A command of this kind is never aborted: a Flush, a Format NVM, a Sanitize, a Firmware Commit (R357). -/
def keepsOn (sq opc : Nat) : Bool := if sq = 0 then [0x10, 0x80, 0x84].contains opc else opc = 0
/-- Slots of a queue whose commands have not been fetched or aborted, oldest first. -/
def NvSq.waiting (x : NvSq) : List Nat :=
  ((List.range ((x.tail + x.size - x.head) % x.size)).map (fun i => (x.head + i) % x.size)).filter (fun i => !x.skip.contains i)
/-- A command that has not been fetched completes with Command Abort Requested (R357). -/
def State.abortSlot (s : State) (sq : Nat) (i : Nat) : State :=
  match s.sq sq with
  | none => s
  | some x =>
    ((s.setSq sq (some { x with skip := i :: x.skip })).nvPost sq (s.sqeAt x i).cid 0 stAborted).incFld nvtA NVT_CNT_ABORTED 1
/-- The commands that a queue still holds are aborted, but those that are never aborted. -/
def State.abortQueued (s : State) (sq : Nat) : State :=
  match s.sq sq with
  | none => s
  | some x => (x.waiting.filter (fun i => !keepsOn sq (s.sqeAt x i).opc)).foldl (fun t i => t.abortSlot sq i) s

/-- DELETE_IO_SUBMISSION_QUEUE: its commands not begun are aborted, and it completes after the others (R358). -/
def State.deleteSq (s : State) (q : Sqe) : State :=
  let id := q.dw 10 % 65536
  if id = 0 ∨ (s.sq id).isNone then s.nvPost 0 q.cid 0 stQueueId
  else
    let t := (s.nv.cmds.filter (fun c => c.sq = id && c.notBegun)).foldl (fun u c => u.abortCmd c) s
    ((t.abortQueued id).addCmd { n := 0, sq := 0, cid := q.cid, opc := 0, stage := .deleting id }).settleDeletes
def execDeleteIoSubmissionQueue (s : State) : Out3 := onLive s fun s => s.adminCmd 0 anyForm fun q t => t.deleteSq q

/-- DELETE_IO_COMPLETION_QUEUE: refused while a submission queue uses it (Table 15-5). -/
def State.deleteCq (s : State) (q : Sqe) : State :=
  let id := q.dw 10 % 65536
  if id = 0 ∨ (s.cq id).isNone then s.nvPost 0 q.cid 0 stQueueId
  else if s.nv.sqs.any (fun e => e.2.any (fun x => x.cq = id)) then s.nvPost 0 q.cid 0 (nvSt 1 0x0C)
  else (s.setCq id none).nvPost 0 q.cid 0 0
def execDeleteIoCompletionQueue (s : State) : Out3 := onLive s fun s => s.adminCmd 4 anyForm fun q t => t.deleteCq q

/-! ### Abort (R357) -/

/-- NVME_ABORT: of a command in progress, or of one that its queue still holds. -/
def State.abortRun (s : State) (q : Sqe) : State :=
  let sq := q.dw 10 % 65536
  let cid := q.dw 10 / 65536
  match s.nv.cmds.find? (fun c => c.sq = sq && c.cid = cid && !c.silent) with
  | some c => if c.notBegun then (s.abortCmd c).nvPost 0 q.cid 0 0 else s.nvPost 0 q.cid 1 0
  | none =>
    match s.sq sq with
    | none => s.nvPost 0 q.cid 1 0
    | some x =>
      match x.waiting.find? (fun i => (s.sqeAt x i).cid = cid) with
      | none => s.nvPost 0 q.cid 1 0
      | some i => if keepsOn sq (s.sqeAt x i).opc then s.nvPost 0 q.cid 1 0 else (s.abortSlot sq i).nvPost 0 q.cid 0 0
def execNvmeAbort (s : State) : Out3 := onLive s fun s => s.adminCmd 8 anyForm fun q t => t.abortRun q

/-! ### Log pages (R356) -/

/-- Log page 0xC0. -/
def State.deferLog (s : State) : List Byte :=
  toBytes 8 s.nv.logCount ++ toBytes 4 s.nv.log.length ++ toBytes 52 0 ++
    s.nv.log.reverse.flatMap (fun e =>
      toBytes 4 e.nsid ++ toBytes 8 e.slba ++ toBytes 4 e.nlb ++ toBytes 1 e.ssd ++ toBytes 1 e.cause ++ toBytes 2 e.status ++
        toBytes 8 (e.ns / 1000000000) ++ toBytes 4 (e.ns % 1000000000) ++ toBytes 32 0)
/-- The slot that the next Advent in normal mode will choose instead of the running one: 1 or 2; 0 for none (R67). -/
def State.nextSlot (s : State) : Nat :=
  let r := if s.runSlot then s.adv.slotB else s.adv.slotA
  let o := if s.runSlot then s.adv.slotA else s.adv.slotB
  if o.ok && !o.dormant && decide (o.generation > r.generation) then 2 - b2n s.runSlot else 0
/-- A log page; none for a page that is not supported. -/
def State.logPage (s : State) (lid : Nat) : Option (List Byte × State) :=
  if lid = 0x01 then some (s.freeBytes 64 (fun _ => none))
  else if lid = 0x02 then some (s.freeBytes 512 (fun _ => none))
  else if lid = 0x03 then
    some (s.freeBytes 512 (fieldsAt [(0, toBytes 1 (1 + b2n s.runSlot + 16 * s.nextSlot))]))
  else if lid = 0x05 then
    some (s.freeBytes 4096 (fun i =>
      if i ≥ 2048 then some 0
      else if (if i < 1024 then adminOpcode (i / 4) else nvmOpcode ((i - 1024) / 4)) then
        (if i % 4 = 0 then some (BitVec.ofNat 8 (Config.freeValue (s.free + i)) ||| 1) else none)
      else some 0))
  else if lid = 0x81 then
    some (s.freeBytes 512 (fieldsAt (if s.nv.san.isSome then [(2, toBytes 1 2)] else [(0, toBytes 2 0xFFFF), (2, toBytes 1 s.nv.sanStat)])))
  else if lid = 0xC0 then some (s.deferLog, s)
  else none
/-- GET_LOG_PAGE: with RAE = 0, page 0xC0 is cleared and its event may come again. -/
def State.getLog (s : State) (q : Sqe) : State :=
  let lid := q.dw 10 % 256
  let n := 4 * (q.dw 10 / 65536 + q.dw 11 % 65536 * 65536 + 1)
  let lpo := q.dw 12 + q.dw 13 * 2 ^ 32
  match s.logPage lid with
  | none => s.nvPost 0 q.cid 0 stField
  | some (page, t) =>
    if lpo > page.length ∨ n > 0x100000 then s.nvPost 0 q.cid 0 stField
    else
      let data := (page.drop lpo).take n
      let t1 := (t.prpWrite (t.prps q n) (data ++ List.replicate (n - data.length) 0)).nvPost 0 q.cid 0 0
      if lid = 0xC0 && !(q.dw 10).testBit 15 then
        let t2 := t1.setNv { t1.nv with log := [], aeMasked := false }
        if t2.nv.aePending then t2.raiseEvent else t2
      else t1
def execGetLogPage (s : State) : Out3 := onLive s fun s => s.adminCmd 2 anyForm fun q t => t.getLog q

/-! ### Identify -/

/-- Identify Controller: the fields that Table 15-2 and Table 15-5 fix. -/
def State.idController (s : State) : List (Nat × List Byte) :=
  [(0, toBytes 2 (s.fld pcieA PCIE_ID_VENDOR_ID)), (77, toBytes 1 8), (256, toBytes 2 0x0E), (258, toBytes 3 0x040303),
   (328, toBytes 4 6), (512, toBytes 2 0x4466), (516, toBytes 4 32), (520, toBytes 2 0x0C), (522, toBytes 2 0), (524, toBytes 2 0x700),
   (536, toBytes 4 0)]
/-- Identify Namespace: sizes and the one format. -/
def idNamespace (n : Nat) : List (Nat × List Byte) :=
  [(0, toBytes 8 n), (8, toBytes 8 n), (16, toBytes 8 n), (25, toBytes 3 0), (33, toBytes 1 0), (128, toBytes 3 0x0C0000)]
/-- A list of namespace identifiers above one, filled with zeros. -/
def nsidList (l : List Nat) (after : Nat) : List Byte :=
  let m := (l.filter (fun x => decide (x > after))).flatMap (fun x => toBytes 4 x)
  m ++ List.replicate (4096 - m.length) 0
def State.activeIds (s : State) : List Nat := (List.range 33).filter (fun i => (s.nsBlocks i).isSome)
def State.allocIds (s : State) : List Nat := (List.range 33).filter (fun i => (s.ns i).isSome || i = 32)
/-- Blocks of an allocated namespace. -/
def State.allocBlocks (s : State) (nsid : Nat) : Option Nat :=
  if nsid = 32 then s.nsBlocks 32 else (s.ns nsid).map (·.nsze)

/-- The page that a CNS value selects. -/
def State.idPage (s : State) (cns nsid : Nat) : Option (List Byte × State) :=
  let zeros : List Byte := List.replicate 4096 0
  if cns = 0x00 then
    (if nsid = 0 ∨ nsid > 32 then none
     else match s.nsBlocks nsid with | some n => some (s.freeBytes 4096 (fieldsAt (idNamespace n))) | none => some (zeros, s))
  else if cns = 0x01 then some (s.freeBytes 4096 (fieldsAt s.idController))
  else if cns = 0x02 then some (nsidList s.activeIds nsid, s)
  else if cns = 0x03 then (if (s.nsBlocks nsid).isSome then some (s.freeBytes 4096 (fun _ => none)) else none)
  else if cns = 0x10 then some (nsidList s.allocIds nsid, s)
  else if cns = 0x11 then
    (if nsid = 0 ∨ nsid > 32 then none
     else match s.allocBlocks nsid with | some n => some (s.freeBytes 4096 (fieldsAt (idNamespace n))) | none => some (zeros, s))
  else if cns = 0x12 then
    (if nsid = 0 ∨ nsid > 32 then none
     else some (s.freeBytes 4096 (fun i =>
       if i < 2 then (toBytes 2 (b2n (s.nsBlocks nsid).isSome))[i]? else if i < 4 && (s.nsBlocks nsid).isSome then none else some 0)))
  else if cns = 0x13 then
    some (s.freeBytes 4096 (fun i => if i < 2 then (toBytes 2 1)[i]? else if i < 4 then none else some 0))
  else none
/-- IDENTIFY. -/
def State.identify (s : State) (q : Sqe) : State :=
  let cns := q.dw 10 % 256
  match s.idPage cns q.nsid with
  | some (page, t) => (t.prpWrite (t.prps q 4096) page).nvPost 0 q.cid 0 0
  | none => s.nvPost 0 q.cid 0 (if [0x00, 0x03, 0x11, 0x12].contains cns then stNamespace else stField)
def execIdentify (s : State) : Out3 := onLive s fun s => s.adminCmd 6 anyForm fun q t => t.identify q

/-! ### Features -/

/-- Set Features of one identifier. -/
def State.setFeature (s : State) (fid : Nat) (run : Sqe → State → Nat × Nat × State) : State :=
  s.adminCmd 9 (fun q => q.dw 10 % 256 = fid) fun q t =>
    if (q.dw 10).testBit 31 then t.nvPost 0 q.cid 0 (nvSt 1 0x0D)
    else
      let r := run q t
      r.2.2.nvPost 0 q.cid r.1 r.2.1
def execSetFeaturesArbitration (s : State) : Out3 :=
  onLive s fun s => s.setFeature 1 fun q t => (0, 0, t.setNv { t.nv with arb := q.dw 11 })
def execSetFeaturesTemperatureThreshold (s : State) : Out3 :=
  onLive s fun s => s.setFeature 4 fun q t =>
    let k := bits (q.dw 11) 21 16
    let sel := k % 16
    if k / 16 > 1 ∨ (sel > 8 ∧ sel ≠ 15) then (0, stField, t)
    else
      let put (u : State) (x : Nat) : State := u.setNv { u.nv with temps := UMap.set (fun _ => 0) u.nv.temps (k / 16 * 16 + x) (q.dw 11 % 65536) }
      (0, 0, if sel = 15 then (List.range 9).foldl put t else put t sel)
def execSetFeaturesVolatileWriteCache (s : State) : Out3 :=
  onLive s fun s => s.setFeature 6 fun q t => (0, 0, t.setNv { t.nv with vwc := (q.dw 11).testBit 0 })
/-- At most 63 queues of each kind, before any is created. -/
def execSetFeaturesNumberOfQueues (s : State) : Out3 :=
  onLive s fun s => s.setFeature 7 fun q t =>
    if q.dw 11 % 65536 = 65535 ∨ q.dw 11 / 65536 = 65535 then (0, stField, t)
    else if t.nv.sqs.any (fun e => e.1 ≠ 0 && e.2.isSome) || t.nv.cqs.any (fun e => e.1 ≠ 0 && e.2.isSome) then (0, stSequence, t)
    else
      let n := min 62 (q.dw 11 % 65536) + min 62 (q.dw 11 / 65536) * 65536
      (n, 0, t.setNv { t.nv with nq := n })
def execSetFeaturesInterruptCoalescing (s : State) : Out3 :=
  onLive s fun s => s.setFeature 8 fun q t => (0, 0, t.setNv { t.nv with coal := q.dw 11 % 65536 })
def execSetFeaturesInterruptVectorConfig (s : State) : Out3 :=
  onLive s fun s => s.setFeature 9 fun q t =>
    let iv := q.dw 11 % 65536
    if iv > 255 then (0, stField, t)
    else (0, 0, t.setNv { t.nv with vecs := UMap.set (fun _ => 0) t.nv.vecs iv (bits (q.dw 11) 16 16) })
def execSetFeaturesAsyncEventConfig (s : State) : Out3 :=
  onLive s fun s => s.setFeature 11 fun q t => (0, 0, t.setNv { t.nv with aec := q.dw 11 })

/-- A feature's value: current, or default. -/
def NvU.feature (u : NvU) (fid sel : Nat) (d : NvU) : Nat :=
  let v := if sel = 0 then u else d
  if fid = 1 then v.arb
  else if fid = 4 then 0
  else if fid = 6 then b2n v.vwc
  else if fid = 7 then v.nq
  else if fid = 8 then v.coal
  else v.aec
/-- GET_FEATURES: SEL 000b to 011b (Table 15-5); no feature is saveable. -/
def State.getFeature (s : State) (q : Sqe) : State :=
  let fid := q.dw 10 % 256
  let sel := bits (q.dw 10) 10 8
  if !featureOk fid || decide (sel > 3) then s.nvPost 0 q.cid 0 stField
  else if sel = 3 then s.nvPost 0 q.cid 4 0
  else if fid = 4 then
    s.nvPost 0 q.cid (if sel = 0 then UMap.get (fun _ => 0) s.nv.temps (bits (q.dw 11) 21 16) else 0) 0
  else if fid = 9 then
    let iv := q.dw 11 % 65536
    if iv > 255 then s.nvPost 0 q.cid 0 stField
    else s.nvPost 0 q.cid (iv + 65536 * (if sel = 0 then UMap.get (fun _ => 0) s.nv.vecs iv else 0)) 0
  else s.nvPost 0 q.cid (s.nv.feature fid sel {}) 0
def execGetFeatures (s : State) : Out3 := onLive s fun s => s.adminCmd 0x0A anyForm fun q t => t.getFeature q

/-! ### Events (R355) -/

/-- ASYNCHRONOUS_EVENT_REQUEST: at most four wait; an event that waits completes one at once. -/
def State.eventRequest (s : State) (q : Sqe) : State :=
  if (s.nv.cmds.filter (fun c => c.stage = .event)).length ≥ 4 then s.nvPost 0 q.cid 0 (nvSt 1 0x05)
  else
    let t := s.addCmd { n := 0, sq := 0, cid := q.cid, opc := 0x0C, stage := .event }
    if t.nv.aePending then t.raiseEvent else t
def execAsynchronousEventRequest (s : State) : Out3 := onLive s fun s => s.adminCmd 0x0C anyForm fun q t => t.eventRequest q

end Sys2Proof.Machine
end

