-- ==== Sys2Proof/Machine/NvmStore.lean ====
section
/-! DEFINITION. Namespaces, firmware, format and sanitise, resets and shutdown (R346, R348, R359 to R364). -/
namespace Sys2Proof.Machine

/-! ### Record tasks as others see them (R365, Table 15-4) -/

def State.taskWord (s : State) (t w : Nat) : Word := s.tget .recTask 0 (16 * t + w)
def State.setTaskWord (s : State) (t w : Nat) (v : Word) : State := s.tset .recTask 0 (16 * t + w) v
def State.taskOn (s : State) (t : Nat) : Bool := (s.taskWord t 0).toNat.testBit 31
def State.taskNs (s : State) (t : Nat) : Nat := bits (s.taskWord t 0).toNat 5 0
def State.recTask (s : State) (t : Nat) : RecTask := (s.nv.tasks[t]?).getD {}
def State.setRecTask (s : State) (t : Nat) (r : RecTask) : State := s.setNv { s.nv with tasks := s.nv.tasks.setIfInBounds t r }
/-- RUN. -/
def State.showRun (s : State) : State :=
  s.setFld nvtA NVT_TASK_RUN_RUN ((List.range 16).foldl (fun m t => m + b2n (s.taskOn t) * 2 ^ t) 0)
/-- A task stops. -/
def State.stopTask (s : State) (t : Nat) : State :=
  ((s.setTaskWord t 0 (s.taskWord t 0 &&& 0x7FFFFFFF)).setRecTask t {}).showRun

/-! ### Checkpoints (R364) -/

/-- A checkpoint waits for the Almanac's next commit: kind 1 format, 2 sanitise; its value. -/
def State.checkpoint (s : State) (kind v : Nat) : State :=
  if !s.retains then s
  else (s.withAlm { s.alm with pendChk := s.alm.pendChk.filter (fun (c : Nat × Nat) => c.1 ≠ kind) ++ [(kind, v)] }).showHolding
/-- SSD indexes as a mask. -/
def maskOfList (l : List Nat) : Nat := (List.range 4).foldl (fun m i => m + b2n (l.contains i) * 2 ^ i) 0
/-- Progress goes to the Almanac and to the label (R364). -/
def State.saveProgress (s : State) : State :=
  let p := match s.nv.san, s.nv.fmt with
    | some (a, done), _ => some (2, a, done)
    | none, some (n, ses) => some (1, n + 64 * ses, s.nv.label.progress.elim [] (fun x => x.2.2))
    | none, none => none
  let s1 := s.setNv { s.nv with label := { s.nv.label with progress := p } }
  let s2 := match p with
    | some (k, v, done) => s1.checkpoint k (16 * v + maskOfList done)
    | none => (s1.checkpoint 1 0).checkpoint 2 0
  (s2.writeLabel).2

/-! ### Namespaces (R348) -/

/-- An admin command that only maintenance state allows, on a store that is up. -/
def State.nsGate (s : State) (q : Sqe) (run : State → State) : State :=
  if !s.maint then s.nvPost 0 q.cid 0 stMaint
  else if s.nv.san.isSome then s.nvPost 0 q.cid 0 stSanitise
  else if !s.storeUp then s.nvPost 0 q.cid 0 stOffline
  else run s
/-- A command that completes once the label has been rewritten, with a result. -/
def State.afterLabel (s : State) (cid result : Nat) : State :=
  let r := s.writeLabel
  (r.2.addCmd { n := 0, sq := 0, cid := cid, opc := 0x0D, stage := .label, need := r.1, nlb := result }).nvSettle
def State.setNss (s : State) (l : List NvNs) : State := s.setNv { s.nv with label := { s.nv.label with nss := l } }

/-- The lowest run of n free stripes. -/
def State.freeRun (s : State) (n : Nat) : Option Nat :=
  let ext := s.nv.label.nss.map (fun x => (x.start, (x.nsze + 255) / 256))
  let starts := 0 :: ext.map (fun e => e.1 + e.2)
  let fits := starts.filter (fun a => decide (a + n ≤ s.stripes) && ext.all (fun e => apart a n e.1 e.2))
  match fits with
  | [] => none
  | a :: t => some (t.foldl min a)

/-- NAMESPACE_CREATE. -/
def State.nsCreate (s : State) (q : Sqe) : State :=
  s.nsGate q fun s =>
    let data := s.prpRead (s.prps q 4096)
    let nsze := (fieldAt data 0 8 + 255) / 256 * 256
    if nsze = 0 then s.nvPost 0 q.cid 0 stField
    else if bits (fieldAt data 26 1) 3 0 ≠ 0 then s.nvPost 0 q.cid 0 (nvSt 1 0x0A)
    else
      match s.freeRun (nsze / 256), ((List.range 31).map (· + 1)).find? (fun i => (s.ns i).isNone) with
      | none, _ => s.nvPost 0 q.cid 0 (nvSt 1 0x15)
      | some _, none => s.nvPost 0 q.cid 0 (nvSt 1 0x16)
      | some a, some id => (s.setNss (s.nv.label.nss ++ [⟨id, a, nsze, false⟩])).afterLabel q.cid id
def execNamespaceCreate (s : State) : Out3 := onLive s fun s => s.adminCmd 0x0D (fun q => q.dw 10 % 16 = 0) fun q t => t.nsCreate q

/-- NAMESPACE_DELETE of one namespace, or of all with 0xFFFFFFFF: the stripes are freed and not erased; NSID 32 cannot be deleted
(R349). -/
def State.nsDelete (s : State) (q : Sqe) : State :=
  s.nsGate q fun s =>
    if q.nsid = 32 then s.nvPost 0 q.cid 0 stField
    else if q.nsid = 0xFFFFFFFF then
      (if s.nv.fmt.isSome then s.nvPost 0 q.cid 0 stNotReady else ((s.setNss []).cacheDrop (fun _ => true)).afterLabel q.cid 0)
    else if (s.ns q.nsid).isNone then s.nvPost 0 q.cid 0 stNamespace
    else if s.nv.fmt.any (fun f => f.1 = q.nsid) then s.nvPost 0 q.cid 0 stNotReady
    else
      ((s.setNss (s.nv.label.nss.filter (fun x => x.nsid ≠ q.nsid))).cacheDrop (fun b => b.nsid = q.nsid)).afterLabel q.cid 0
def execNamespaceDelete (s : State) : Out3 := onLive s fun s => s.adminCmd 0x0D (fun q => q.dw 10 % 16 = 1) fun q t => t.nsDelete q

/-- A namespace is attached or detached. -/
def State.nsAttach (s : State) (q : Sqe) (on : Bool) : State :=
  s.nsGate q fun s =>
    match s.ns q.nsid with
    | none => s.nvPost 0 q.cid 0 (if q.nsid = 32 then nvSt 1 (if on then 0x18 else 0x1A) else stNamespace)
    | some n =>
      if s.nv.fmt.any (fun f => f.1 = q.nsid) then s.nvPost 0 q.cid 0 stNotReady
      else if n.attached = on then s.nvPost 0 q.cid 0 (nvSt 1 (if on then 0x18 else 0x1A))
      else (s.setNss (s.nv.label.nss.map (fun x => if x.nsid = q.nsid then { x with attached := on } else x))).afterLabel q.cid 0
def execNamespaceAttach (s : State) : Out3 :=
  onLive s fun s => s.adminCmd 0x15 (fun q => q.dw 10 % 16 = 0) fun q t => t.nsAttach q true
def execNamespaceDetach (s : State) : Out3 :=
  onLive s fun s => s.adminCmd 0x15 (fun q => q.dw 10 % 16 = 1) fun q t => t.nsAttach q false

/-! ### Firmware (R359, R75) -/

def State.stageAt (s : State) : Nat := s.fld nvtA NVT_STAGE_BASE_ADDR * 256
/-- FIRMWARE_IMAGE_DOWNLOAD: the next piece, or the first of a new image. -/
def State.download (s : State) (q : Sqe) : State :=
  let n := 4 * (q.dw 10 + 1)
  let off := 4 * q.dw 11
  if (off ≠ 0 ∧ off ≠ s.nv.staged) ∨ off + n > 0x10000000 then s.nvPost 0 q.cid 0 stField
  else
    let t := s.put .store (s.stageAt + off) (s.prpRead (s.prps q n))
    (t.setNv { t.nv with staged := off + n }).nvPost 0 q.cid 0 0
def execFirmwareImageDownload (s : State) : Out3 := onLive s fun s => s.adminCmd 0x11 anyForm fun q t => t.download q

/-- The slot that provided the running image; none where the host or nothing did. -/
def State.runningSlot (s : State) : Option Bool :=
  if s.flag advA ADV_STATUS_HOSTLOAD || (s.maint && decide (s.phase < 2)) then none else some s.runSlot
/-- The slot that FS names, and whether it may be written (R359). -/
def State.commitSlot (s : State) (q : Sqe) : Option Bool :=
  let fs := bits (q.dw 10) 2 0
  let b := if fs = 0 then (match s.runningSlot with | some r => !r | none => false) else decide (fs = 2)
  if fs > 2 ∨ s.runningSlot = some b then none else some b
/-- GENERATION of a rewrite: one above the running slot's (R75). -/
def State.commitGen (s : State) : Nat :=
  match s.runningSlot with
  | some _ => s.nextGen
  | none => (max s.adv.slotA.generation s.adv.slotB.generation + 1) % 2 ^ 32

/-- Bytes of a slot go to the flash: the trace holds the offset in the slot and the bytes. -/
def State.flashSlot (s : State) (b : Bool) (off : Nat) (l : List Byte) : State := s.emit .flash (b2n b) (off :: l.map (·.toNat))
/-- A slot is written, the body first and the 64-byte header last, or the header alone; the command waits for it (R75). -/
def State.slotWrite (s : State) (cid : Nat) (b headerOnly : Bool) (img : List Byte) : State :=
  let s1 := s.setNv { s.nv with slotJob := some (b, slotHdr img) }
  let s2 := if headerOnly then s1 else s1.flashSlot b 64 (img.drop 64)
  (s2.flashSlot b 0 (img.take 64)).addCmd { n := 0, sq := 0, cid := cid, opc := 0x10, stage := .slot }

/-- Firmware Commit of an image (SLOT_REWRITE): the checks in turn, then the write. -/
def State.commitImage (s : State) (q : Sqe) (img : List Byte) (dormant headerOnly : Bool) : State :=
  match s.commitSlot q with
  | none => s.nvPost 0 q.cid 0 (nvSt 1 0x06)
  | some b =>
    if s.alm.shut then s.nvPost 0 q.cid 0 stTemp
    else if s.hitsPartition b (fieldAt img 8 4) then s.nvPost 0 q.cid 0 (nvSt 1 0x14)
    else if !(s.judgeSlot b img).valid then s.nvPost 0 q.cid 0 (nvSt 1 0x07)
    else s.slotWrite q.cid b headerOnly (reheader (img.take (fieldAt img 8 4)) s.commitGen dormant)

/-- Commit of the staged image, one flash write at a time. -/
def State.commitStaged (s : State) (action : Nat) : State :=
  if s.nv.slotJob.isSome then s
  else s.adminCmd 0x10 (fun q => bits (q.dw 10) 5 3 = action) fun q t =>
    let (img, lost, t1) := t.take .store t.stageAt t.nv.staged
    t1.commitImage q (if lost then [] else img) (decide (action = 0)) false
def execFirmwareCommitStage (s : State) : Out3 := onLive s fun s => s.commitStaged 0
def execFirmwareCommitActivate (s : State) : Out3 := onLive s fun s => s.commitStaged 1
/-- FIRMWARE_COMMIT_ACTIVATE_SLOT: the image that the slot holds, `image`, is judged, and its header alone is rewritten. -/
def execFirmwareCommitActivateSlot (image : List Byte) (s : State) : Out3 :=
  onLive s fun s =>
    if s.nv.slotJob.isSome then s
    else s.adminCmd 0x10 (fun q => bits (q.dw 10) 5 3 = 2) fun q t => t.commitImage q image false true
/-- BOOT_FLASH_WRITE_DONE: the slot holds the new image, and the commit completes (R359). -/
def execBootFlashWriteDone (s : State) : Out3 :=
  onLive s fun s =>
    match s.nv.slotJob with
    | none => s
    | some (b, h) =>
      let t : State := (s.withAdv (if b then { s.adv with slotB := h } else { s.adv with slotA := h }))
      let t1 := t.setNv { t.nv with slotJob := none }
      match t1.nv.cmds.find? (fun c => c.stage = .slot) with
      | some c => t1.nvFinish c 0 0
      | none => t1

/-! ### Format (R362, R346) -/

/-- A format begins: checkpoint, cache, record tasks, SSD commands after the namespace's writes in progress. -/
def State.formatStart (s : State) (cid nsid ses : Nat) (silent : Bool) (done : List Nat) : State :=
  let s1 := (s.setNv { s.nv with fmt := some (nsid, ses)
                                 label := { s.nv.label with progress := some (1, nsid + 64 * ses, done) } }).saveProgress
  let s2 := (s1.cacheDrop (fun b => b.nsid = nsid))
  let s3 := (List.range 16).foldl (fun t k => if t.taskOn k && t.taskNs k = nsid then t.stopTask k else t) s2
  let w := s3.writesOf (fun k => k = nsid)
  if w ≠ [] then
    (s3.addCmd { n := 0, sq := 0, cid := cid, opc := 0x80, nsid := nsid, stage := .prep, need := w, silent := silent }).showStore
  else
    let r := s3.formatIssue nsid ses done
    (r.2.addCmd { n := 0, sq := 0, cid := cid, opc := 0x80, nsid := nsid, stage := .format, need := r.1, silent := silent }).showStore

/-- LBAF 0 and SES 000b or 001b only. -/
def Sqe.formatOk (q : Sqe) : Bool := bits (q.dw 10) 3 0 = 0 && decide (bits (q.dw 10) 11 9 ≤ 1)
/-- FORMAT_NVM of one namespace. -/
def State.formatRun (s : State) (q : Sqe) : State :=
  if !q.formatOk || q.nsid = 32 || q.nsid = 0xFFFFFFFF then s.nvPost 0 q.cid 0 stField
  else if s.nv.san.isSome then s.nvPost 0 q.cid 0 stSanitise
  else if !s.storeUp then s.nvPost 0 q.cid 0 stOffline
  else if (s.ns q.nsid).isNone then s.nvPost 0 q.cid 0 stNamespace
  else if s.nv.fmt.isSome then s.nvPost 0 q.cid 0 stNotReady
  else if s.alm.shut then s.nvPost 0 q.cid 0 stTemp
  else s.formatStart q.cid q.nsid (bits (q.dw 10) 11 9) false []
def State.allNs (s : State) (q : Sqe) : Bool := q.nsid = 0xFFFFFFFF && s.maint
def execFormatNvm (s : State) : Out3 := onLive s fun s => s.adminCmd 0x80 (fun q => !s.allNs q) fun q t => t.formatRun q

/-- STORE_LABEL_FORMAT: in maintenance state, a new empty label on the selected SSDs (R346). -/
def State.labelFormat (s : State) (q : Sqe) : State :=
  if !q.formatOk then s.nvPost 0 q.cid 0 stField
  else if s.nv.san.isSome then s.nvPost 0 q.cid 0 stSanitise
  else if !s.flag nvtA NVT_CTRL_EN || !s.dOk || !s.ssdsReady then s.nvPost 0 q.cid 0 stOffline
  else if s.alm.shut then s.nvPost 0 q.cid 0 stTemp
  else
    let gen := (s.bestLabel.map (·.gen)).getD 0
    let l : NvLabel := ⟨s.selected.map (fun p => (s.nvPort p).ident), gen, [], none⟩
    ((s.setNv { s.nv with label := l, cache := [], soft := [], fmt := none }).showDirty).afterLabel q.cid 0
def execStoreLabelFormat (s : State) : Out3 := onLive s fun s => s.adminCmd 0x80 (fun q => s.allNs q) fun q t => t.labelFormat q

/-- FORMAT_DONE: every SSD has finished, and the namespace is ready again. -/
def execFormatDone (s : State) : Out3 :=
  onLive s fun s =>
    match s.nv.cmds.find? (fun c => c.stage = .format) with
    | none => s
    | some c =>
      if c.need ≠ [] then s
      else ((s.setNv { s.nv with fmt := none }).saveProgress.nvFinish c 0 (c.status.getD 0)).showStore

/-! ### Sanitise (R363) -/

/-- Steps 1 to 3: record tasks stop, the cache goes, the SSDs are sanitised after the writes in progress. -/
def State.sanitiseStart (s : State) (action : Nat) (done : List Nat) : State :=
  let s1 := (List.range 16).foldl (fun t k => if t.taskOn k then t.stopTask k else t) s
  let s2 := (s1.nv.cmds.filter (fun c => c.stage = .room)).foldl (fun t c => t.nvFinish c 0 stSanitise) s1
  let s3 := (s2.setNv { s2.nv with cache := [], soft := [], san := some (action, done), sanStat := 2 }).showDirty.saveProgress
  let w := s3.writesOf (fun _ => true)
  if w ≠ [] then (s3.addCmd { n := 0, sq := 0, cid := 0, opc := 0x84, stage := .prep, need := w, silent := true }).showStore
  else (s3.sanitiseIssue action done).showStore
def State.sanitiseRun (s : State) (q : Sqe) : State :=
  if s.nv.san.isSome then s.nvPost 0 q.cid 0 stSanitise
  else if !s.storeUp then s.nvPost 0 q.cid 0 stOffline
  else if s.alm.shut then s.nvPost 0 q.cid 0 stTemp
  else (s.sanitiseStart (bits (q.dw 10) 2 0) []).nvPost 0 q.cid 0 0
def execSanitizeBlockErase (s : State) : Out3 :=
  onLive s fun s => s.adminCmd 0x84 (fun q => bits (q.dw 10) 2 0 = 2) fun q t => t.sanitiseRun q
def execSanitizeOverwrite (s : State) : Out3 :=
  onLive s fun s => s.adminCmd 0x84 (fun q => bits (q.dw 10) 2 0 = 3) fun q t => t.sanitiseRun q

/-- Zeros over a range of DRAM that answers. -/
def State.zeroDram (s : State) (a n : Nat) : State :=
  { s with mem := s.mem.filter (fun e => !(decide (a ≤ e.1 ∧ e.1 < a + n) && s.dramOk e.1 1)) }
/-- SANITIZE_DONE: every SSD has finished: step 4, the label, and the store is usable again. -/
def execSanitizeDone (s : State) : Out3 :=
  onLive s fun s =>
    match s.nv.san with
    | none => s
    | some (_, done) =>
      if (List.range s.selected.length).all (fun i => done.contains i) then
        let s1 := s.zeroDram (s.fld nvtA NVT_REPLAY_BASE_ADDR * 256) (4096 * s.fld nvtA NVT_REPLAY_LBAS_LBAS)
        ((s1.setNv { s1.nv with san := none, sanStat := 1 }).saveProgress).showStore
      else s

/-! ### Reset and shutdown (R361, R343) -/

/-- Step 1 of a controller reset: commands not begun are discarded, the others run on unposted. -/
def State.dropHost (s : State) : State :=
  s.setNv { s.nv with cmds := (s.nv.cmds.filter (fun c =>
    !c.notBegun && (match c.stage with | .deleting _ => false | _ => true))).map (fun c => { c with silent := true }) }
/-- Completed Writes are made durable; then the reset or shutdown ends. -/
def State.drainStore (s : State) (shutdown : Bool) : State :=
  let r := s.cleanAll (fun _ => true)
  (r.2.addCmd { n := 0, sq := 0, cid := 0, opc := 0, stage := .reset shutdown, need := r.1, silent := true }).nvSettle
def State.resetting (s : State) : Bool :=
  s.nv.cmds.any (fun c => match c.stage with | .reset false => true | .resetFlush false => true | _ => false)
/-- A controller reset. -/
def State.controllerReset (s : State) : State :=
  if s.resetting then s else (s.dropHost).drainStore false
def execControllerReset (s : State) : Out3 := onLive s fun s => if s.nv.cc.testBit 0 then s.controllerReset else s
def execNvmSubsystemReset (s : State) : Out3 := onLive s fun s => s.controllerReset
/-- SHUTDOWN_NOTIFICATION: CSTS.SHST = 10b follows. -/
def execShutdownNotification (s : State) : Out3 :=
  onLive s fun s => if s.nv.rdy && !s.resetting then (s.setNv { s.nv with shst := 1 }).drainStore true else s

/-- CONTROLLER_ENABLE: CC.EN goes to 1 with AQA, ASQ and ACQ as given. -/
def execControllerEnable (cc aqa : Word) (asq acq : BitVec 64) (s : State) : Out3 :=
  onLive s fun s =>
    let c := cc.toNat
    if s.nv.cc.testBit 0 || s.resetting || !s.flag nvtA NVT_CTRL_EN || decide (bits c 10 7 > 4) || bits c 6 4 != 0 || bits c 13 11 != 0 then s
    else
      let t := s.setNv { s.nv with cc := c ||| 1, rdy := true, shst := 0 }
      (t.setSq 0 (some { base := asq.toNat, size := bits aqa.toNat 11 0 + 1, cq := 0 })).setCq 0
        (some { base := acq.toNat, size := bits aqa.toNat 27 16 + 1, iv := 0, ien := true })

/-- The NVMe registers of BAR2 as the host reads them, by offset: CAP with the values of Table 15-2, VS, CC, CSTS, AQA, ASQ, ACQ. -/
def State.nvmeReg (s : State) (off : Nat) : Nat :=
  let size (q : Option Nat) : Nat := (q.getD 1) - 1
  let asq := ((s.sq 0).map (·.base)).getD 0
  let acq := ((s.cq 0).map (·.base)).getD 0
  match off with
  | 0x00 => 4095 + 2 ^ 16 + 8 * 2 ^ 24
  | 0x04 => 2 ^ 4 + 2 ^ 5 + 4 * 2 ^ 20
  | 0x08 => 0x20000
  | 0x14 => s.nv.cc
  | 0x1C => b2n s.nv.rdy + 4 * s.nv.shst
  | 0x24 => size ((s.sq 0).map (·.size)) + 65536 * size ((s.cq 0).map (·.size))
  | 0x28 => asq % 2 ^ 32
  | 0x2C => asq / 2 ^ 32
  | 0x30 => acq % 2 ^ 32
  | 0x34 => acq / 2 ^ 32
  | _ => 0

/-- PCIE_LINK_RESET: an FLR or hot reset, or link-down: a controller reset, at whose end the PCIe registers return to their reset
values (R343). -/
def execPcieLinkReset (linkDown : Bool) (s : State) : Out3 :=
  onLive s fun s =>
    let s1 := s.setNv { s.nv with linkReset := true }
    (if linkDown then s1.wr (pcieA + PCIE_STATUS) 0 else s1.setFlag pcieA PCIE_STATUS_FLR_SEEN true).controllerReset

/-- PCIE_LINK_UP: the endpoint's link trains (R340): width in lanes, speed as MAX_SPEED. -/
def execPcieLinkUp (width : Fin 4) (speed : Fin 5) (s : State) : Out3 :=
  onLive s fun s =>
    if s.flag pcieA PCIE_CTRL_EN && decide (speed.val + 1 ≤ max 1 (min 5 (s.fld pcieA PCIE_CTRL_MAX_SPEED))) then
      ((s.setFld pcieA PCIE_STATUS_WIDTH (2 ^ width.val)).setFld pcieA PCIE_STATUS_SPEED (speed + 1)).setFlag pcieA PCIE_STATUS_DL_UP true
    else s

end Sys2Proof.Machine
end

