-- ==== Sys2Proof/Machine/NvmMedia.lean ====
section
/-! DEFINITION. SSD commands as they end, SSDs that fail or come up, the write-back, record tasks, and the NVT, NVH and PCIE
registers (R350, R355, R364 to R370, R341). -/
namespace Sys2Proof.Machine

/-! ### Record tasks: outcomes (R366 to R368) -/

/-- Bits of word 13. -/
def tFULL : Nat := 4
def tGAP : Nat := 2
def tERR : Nat := 1
def State.taskNat (s : State) (t w : Nat) : Nat := (s.taskWord t w).toNat
def State.taskInc (s : State) (t w : Nat) : State := s.setTaskWord t w (wd (s.taskNat t w + 1))
def State.taskBit (s : State) (t b : Nat) : State := s.setTaskWord t 13 (s.taskWord t 13 ||| wd b)
def State.taskStart (s : State) (t : Nat) : Nat := s.taskNat t 5 + 2 ^ 32 * s.taskNat t 6
def State.taskLen (s : State) (t : Nat) : Nat := s.taskNat t 7 + 2 ^ 32 * s.taskNat t 8
def State.taskSrc (s : State) (t : Nat) : Nat := s.taskNat t 1 + 2 ^ 32 * (s.taskNat t 2 % 256)
/-- A byte task. -/
def State.taskBytes (s : State) (t : Nat) : Bool := (s.taskWord t 0).toNat.testBit 30
/-- LBAs of a slot: of a frame, or of a block. -/
def State.slotLbas (s : State) (t : Nat) : Nat := if s.taskBytes t then 1 else max 1 (divCeil (s.taskNat t 3) 4096)
/-- Slots of the range. -/
def State.taskSlots (s : State) (t : Nat) : Nat := s.taskLen t / s.slotLbas t

/-- A frame is not recorded (R366). -/
def State.taskDrop (s : State) (t : Nat) : State :=
  ((s.taskInc t 11).taskBit t tGAP).setFlag nvtA NVT_EVT_TASK_GAP true
/-- The next slot: the range wraps, or it is full and the task stops. -/
def State.taskNext (s : State) (t : Nat) : State :=
  let n := s.taskNat t 12 + 1
  if n < s.taskSlots t then s.setTaskWord t 12 (wd n)
  else if (s.taskWord t 0).toNat.testBit 29 then s.setTaskWord t 12 0
  else ((s.setTaskWord t 12 (wd n)).taskBit t tFULL).stopTask t
/-- A record-task write has failed (R368). -/
def State.taskFail (s : State) (t nsid slba nlb port cause status : Nat) : State :=
  (((s.taskBit t tERR).stopTask t).setFlag nvtA NVT_EVT_TASK_ERR true).logError nsid slba nlb port cause status

/-- Record-task data goes to its namespace with FUA, a command for each stripe. -/
def State.taskWrite (s : State) (t slba n : Nat) (data : List Byte) : List Nat × State :=
  let ns := s.taskNs t
  let key := s.keyOf ns slba
  s.runIssue key n 1 true (fun k => .task t ns (slba + (k - key))) data

/-! ### Byte tasks (R367) -/

/-- Numbers of the context block that a byte task names. -/
def State.ringNat (s : State) (t o n : Nat) : Nat := leNat (s.peek .store (s.taskSrc t + o) n)
def State.ringWr (s : State) (t : Nat) : Nat := s.ringNat t 256 8
def State.ringRd (s : State) (t : Nat) : Nat := s.ringNat t 264 8
/-- n bytes of the context's output ring from its byte number p on; none where a read is answered with poison. -/
def State.ringBytes (s : State) (t p n : Nat) : Option (List Byte) × State :=
  let base := s.ringNat t 128 8
  let size := max 1 (s.ringNat t 136 4)
  let o := p % size
  let x := s.busRead .store (base + o) (min n (size - o))
  let y := if n ≤ size - o then (some [], x.2) else x.2.busRead .store base (n - (size - o))
  (x.1.bind (fun a => y.1.map (a ++ ·)), y.2)

/-- Bytes from RD_PTR on, padded to a block, go to the next block of the range; poison among them fails the task (R368). -/
def State.blockOut (s : State) (t n : Nat) : State :=
  let rd := s.ringRd t
  let x := s.ringBytes t rd n
  let slba := s.taskStart t + s.taskNat t 12
  match x.1 with
  | none => x.2.taskFail t (s.taskNs t) slba 1 (s.lbaOf (s.keyOf (s.taskNs t) slba)).1 4 0
  | some b =>
    let r := x.2.taskWrite t slba 1 (b ++ List.replicate (4096 - n) 0)
    r.2.setRecTask t { r.2.recTask t with busy := some rd, need := r.1, bytes := n }

/-- What a task whose EN has been cleared still writes: whole blocks, then the padded rest. -/
def State.blockRest (s : State) (t : Nat) : State :=
  match (s.recTask t).upTo with
  | none => s
  | some e =>
    let n := min 4096 (e - s.ringRd t)
    if n = 0 ∨ !s.storeUp then s.setRecTask t {} else s.blockOut t n

/-- A block is durable: RD_PTR moves on. -/
def State.blockDone (s : State) (t : Nat) : State :=
  let r := s.recTask t
  let s1 := s.put .store (s.taskSrc t + 264) (toBytes 8 ((r.busy.getD 0) + r.bytes))
  let s2 := (s1.setRecTask t { r with busy := none }).taskInc t 10
  if r.upTo.isSome then (s2.setTaskWord t 12 (wd (s2.taskNat t 12 + 1))).blockRest t else s2.taskNext t

/-- An SSD command of a record task has ended well. -/
def State.taskPart (s : State) (t id : Nat) : State :=
  let r := s.recTask t
  if !r.need.contains id then s
  else
    let need := r.need.filter (· ≠ id)
    let s1 := s.setRecTask t { r with need := need }
    if need = [] && s.taskBytes t && r.busy.isSome then s1.blockDone t else s1

/-! ### Format and sanitise: an SSD has finished (R364) -/

def State.sanPart (s : State) (i : Nat) : State :=
  match s.nv.san with
  | some (a, done) => if done.contains i then s else (s.setNv { s.nv with san := some (a, done ++ [i]) }).saveProgress
  | none => s
def State.fmtPart (s : State) (i : Nat) : State :=
  match s.nv.label.progress with
  | some (1, v, done) =>
    if done.contains i then s
    else (s.setNv { s.nv with label := { s.nv.label with progress := some (1, v, done ++ [i]) } }).saveProgress
  | _ => s

/-! ### An SSD command ends -/

/-- It has gone from the commands in progress. -/
def State.ssdGone (s : State) (c : SsdCmd) : State := s.setNv { s.nv with ssds := s.nv.ssds.filter (fun x => x.id ≠ c.id) }
/-- Blocks of a write-back that has ended leave, unless they are dirty again. -/
def State.backGone (s : State) (id : Nat) : State :=
  let fly (b : CBlk) : Bool := b.flying == some id
  (s.setNv { s.nv with cache := (s.nv.cache.filter (fun b => !fly b || b.dirty)).map (fun b =>
    if fly b then { b with flying := none } else b) }).showDirty
/-- Commands that waited for an SSD command no longer do; a failed one fixes their status. -/
def State.unneed (s : State) (id : Nat) (st : NvCmd → Option Nat) : State :=
  s.setNv { s.nv with cmds := s.nv.cmds.map (fun c =>
    if c.need.contains id then
      { c with need := c.need.filter (· ≠ id), status := match c.status with | some x => some x | none => st c }
    else c) }
/-- Blocks of a Read have come. -/
def State.readCame (s : State) (id key : Nat) (data : List Byte) (n : Nat) : State :=
  s.setNv { s.nv with cmds := s.nv.cmds.map (fun c =>
    if c.opc = 2 && c.need.contains id then
      { c with got := c.got ++ ((toBlocks n data).zip (List.range n)).map (fun e => (key + e.2 - s.keyOf c.nsid c.slba, e.1)) }
    else c) }
/-- A write that an SSD has completed without FUA is not durable yet (R350). -/
def State.addSoft (s : State) (c : SsdCmd) (nsid key : Nat) : State :=
  if c.fua then s else s.setNv { s.nv with soft := s.nv.soft ++ [⟨c.port, nsid, key, c.nlb⟩] }

/-- A copy of a port's label holds l, or nothing valid. -/
def State.setCopy (s : State) (p : Nat) (b : Bool) (l : Option NvLabel) : State :=
  s.setNvPort p (if b then { s.nvPort p with label2 := l } else { s.nvPort p with label := l })
/-- Label writes have ended: the valid copy of the highest generation is the label in use (R346). -/
def State.labelEnded (s : State) : State :=
  if s.nv.ssds.any (·.use.isLabel) then s
  else s.setNv { s.nv with label := s.bestLabel.getD s.nv.label }

/-- An SSD command has done its work. -/
def State.ssdDone (s : State) (c : SsdCmd) (data : List Byte) : State :=
  let s1 := s.ssdGone c
  let s2 := match c.use with
    | .host nsid key => if c.op = 2 then s1.readCame c.id key data c.nlb else if c.op = 8 then s1.addSoft c nsid key else s1
    | .cache nsid key => (s1.backGone c.id).addSoft c nsid key
    | .task t _ _ => s1.taskPart t c.id
    | .label b l => (s1.setCopy c.port b (some l)).labelEnded
    | .sanitise => s1.sanPart (s1.indexOf c.port)
    | .format => s1.fmtPart (s1.indexOf c.port)
    | .other => s1
  s2.unneed c.id (fun _ => none)

/-- What a host command that waited for a failed SSD command completes with. -/
def failStatus (c : SsdCmd) (cause : Nat) (x : NvCmd) : Option Nat :=
  match x.stage, c.use with
  | .order, _ => none
  | .prep, _ => none
  | _, .cache _ _ => if x.opc = 0 then some stDeferred else none
  | _, _ => some (if cause = 3 then stOffline else if c.op = 2 then stReadError else stWriteFault)

/-- An SSD command has failed: cause 1 status, 2 timeout, 3 offline (R355, R356, R368). -/
def State.ssdFailed (s : State) (c : SsdCmd) (cause status : Nat) : State :=
  let s1 := s.ssdGone c
  let s2 := match c.use with
    | .cache nsid key =>
      let lba := ((s1.nv.cache.find? (fun (b : CBlk) => b.flying == some c.id)).map (fun (b : CBlk) => b.lba)).getD (key - s1.keyOf nsid 0)
      (s1.deferError nsid lba c.nlb c.port cause status).backGone c.id
    | .task t nsid slba => if (s1.recTask t).need.contains c.id then s1.taskFail t nsid slba c.nlb c.port cause status else s1
    | .label b _ => (s1.setCopy c.port b none).labelEnded
    | .other =>
      if s1.nv.cmds.any (fun x => x.need.contains c.id && (match x.stage with | .resetFlush _ => true | _ => false)) then
        s1.deferSoft (fun p => p = c.port) cause status
      else s1
    | _ => s1
  s2.unneed c.id (failStatus c cause)

/-- Commands and writes go on after SSD commands have ended. -/
def State.mediaSettle (s : State) : State := s.nvSettle.showStore

/-! ### NVH_ERR (R370) -/

/-- The first error of a port is held; a later one sets NESTED. -/
def State.portError (s : State) (p cause status : Nat) : State :=
  if s.fld (nvhA p) NVH_ERR_CAUSE ≠ 0 then s.setFlag (nvhA p) NVH_ERR_NESTED true
  else (s.setFld (nvhA p) NVH_ERR_CAUSE cause).setFld (nvhA p) NVH_ERR_STATUS status

def State.ssdCmd (s : State) (p id : Nat) : Option SsdCmd := s.nv.ssds.find? (fun c => c.id = id && c.port = p)

/-- SSD_COMMAND_COMPLETE: a command of a port ends with a status (type × 256 + code, 0 for success) and the data it read. -/
def execSsdCommandComplete (port : Fin 4) (id status : Nat) (data : List Byte) (s : State) : Out3 :=
  onLive s fun s =>
    match s.ssdCmd port id with
    | none => s
    | some c =>
      let t := if status = 0 then s.ssdDone c data
        else if c.aborted then s.ssdFailed c 2 status
        else (s.ssdFailed c 1 status).portError port 1 status
      t.mediaSettle

/-- SSD_COMMAND_TIMEOUT: 2 s have passed, and the command is aborted. -/
def execSsdCommandTimeout (port : Fin 4) (id : Nat) (s : State) : Out3 :=
  onLive s fun s =>
    match s.ssdCmd port id with
    | none => s
    | some c =>
      if c.aborted then s
      else
        let s1 := s.setNv { s.nv with ssds := s.nv.ssds.map (fun x => if x.id = c.id then { x with aborted := true } else x) }
        ((s1.incFld (nvhA port) NVH_CNT_TIMEOUTS 1).portError port 2 0).emit (.ssd port) 0x108 [id]

/-- Every command of a port fails. -/
def State.failAll (s : State) (p cause : Nat) : State :=
  (s.nv.ssds.filter (fun c => c.port = p)).foldl (fun t c => t.ssdFailed c cause 0) s

/-- Writes in the cache whose SSD has gone are deferred errors (R355). -/
def State.deferDirty (s : State) (p : Nat) : Nat → State
  | 0 => s
  | n + 1 =>
    match s.nextBack (fun b => (s.lbaOf b.key).1 = p) with
    | [] => s
    | b :: t =>
      let s1 := s.deferError b.nsid b.lba (t.length + 1) p 3 0
      State.deferDirty (s1.cacheDrop (fun x => (b :: t).any (fun y => y.key = x.key))) p n

/-- The SSD of a port goes offline, and the store with it (R370). -/
def State.ssdOffline (s : State) (p : Nat) : State :=
  let s1 := (s.failAll p 3).deferDirty p s.nv.cache.length
  let s2 := (s1.setFld (nvhA p) NVH_STATUS_STATE 3).setNvPort p { s1.nvPort p with down := true }
  ((s2.record 0 0x1B 1 (srcOf 0 0x41 p) 0 (info8 p)).setFlag nvtA NVT_EVT_SSD_FAIL true).mediaSettle

/-- SSD_CONTROLLER_RESET: an aborted command has not ended 1 s later. -/
def execSsdControllerReset (port : Fin 4) (s : State) : Out3 :=
  onLive s fun s =>
    if !s.nv.ssds.any (fun c => c.port = port.val && c.aborted) then s
    else
      let u := s.nvPort port
      let l := (s.tick :: u.resets).filter (fun t => decide (s.tick < t + usTicks 60000000))
      let s1 := (s.setNvPort port { u with resets := l }).incFld (nvhA port) NVH_CNT_RESETS 1
      let s2 := (s1.portError port 3 0).emit (.ssd port) 0x1FF []
      if l.length ≥ 2 then s2.ssdOffline port else (s2.failAll port 2).mediaSettle

/-- The SSD answers on a link that is up. -/
def State.ssdPresent (s : State) (p : Nat) : Bool := s.ssdState p = 2
/-- SSD_LINK_DOWN. -/
def execSsdLinkDown (port : Fin 4) (s : State) : Out3 :=
  onLive s fun s => if s.ssdPresent port then (s.portError port 4 0).ssdOffline port else s
/-- SSD_FATAL_STATUS. -/
def execSsdFatalStatus (port : Fin 4) (s : State) : Out3 :=
  onLive s fun s => if s.ssdPresent port then (s.portError port 5 0).ssdOffline port else s
/-- NVH_ERROR_CLEAR: a write of NVH_ERR; 0 clears it. -/
def State.errClear (s : State) (p : Nat) (v : Word) : State := if v = 0 then s.wr (nvhA p + NVH_ERR) 0 else s
def execNvhErrorClear (_r : Req) (port : Fin 4) (value : Word) (s : State) : Out3 := onLive s fun s => s.errClear port value

/-! ### The store comes up (R346, R364, R369) -/

/-- SSDs of a mask. -/
def maskSsds (m : Nat) : List Nat := (List.range 4).filter (fun i => m.testBit i)
/-- Progress as the Almanac's last durable checkpoint of a kind holds it. -/
def State.chkProgress (s : State) : Option (Nat × Nat × List Nat) :=
  match s.alm.flash.checkpoints.find? (fun (c : Nat × Nat) => (c.1 = 1 || c.1 = 2) && c.2 != 0) with
  | some c => some (c.1, c.2 / 16, maskSsds (c.2 % 16))
  | none => none
/-- The later of the label's and the Almanac's progress. -/
def State.laterProgress (s : State) : Option (Nat × Nat × List Nat) :=
  match s.nv.label.progress, s.chkProgress with
  | some a, some b => if b.2.2.length > a.2.2.length then some b else some a
  | some a, none => some a
  | none, b => b
/-- An unfinished format or sanitise restarts. -/
def State.restartWork (s : State) : State :=
  match s.laterProgress with
  | some (2, a, done) => s.sanitiseStart a done
  | some (_, v, done) => s.formatStart 0 (v % 64) (v / 64) true done
  | none => s
/-- What follows a change that may have brought the store up. -/
def State.storeRise (s : State) (was : Bool) : State :=
  if s.storeUp && !was then
    let t := match s.bestLabel with | some l => s.setNv { s.nv with label := l } | none => s
    (if t.nv.san.isSome || t.nv.fmt.isSome then t else t.restartWork).showStore
  else s.showStore

/-- SSD_LINK_UP: an enabled port trains, at a speed up to MAX_SPEED, and identifies its SSD; one that fails a requirement is
offline with INCOMPAT. -/
def execSsdLinkUp (port : Fin 4) (info : SsdInfo) (s : State) : Out3 :=
  onLive s fun s =>
    let b := nvhA port
    if !s.flag b NVH_CTRL_EN || s.ssdState port != 1 || (s.nvPort port).down ||
        decide (max 1 (min 5 (s.fld b NVH_CTRL_MAX_SPEED)) < info.speed) then s
    else
      let s1 := (((s.setFld b NVH_STATUS_WIDTH info.width).setFld b NVH_STATUS_SPEED info.speed).setFld b NVH_LBAS_LO_LBAS
        (info.lbas % 2 ^ 32)).setFld b NVH_LBAS_HI_LBAS (info.lbas / 2 ^ 32)
      let s2 := s1.setNvPort port { s1.nvPort port with ident := info.ident, label := info.label, label2 := info.label2, down := !info.ok }
      ((s2.setFlag b NVH_STATUS_INCOMPAT (!info.ok)).setFld b NVH_STATUS_STATE (if info.ok then 2 else 3)).storeRise s.storeUp

/-! ### The cache writes back (R350) -/

/-- CACHE_WRITEBACK: the next dirty blocks go to their SSD; a poisoned read of them is a deferred error (R355). -/
def execCacheWriteback (poison : Bool) (s : State) : Out3 :=
  onLive s fun s =>
    if !s.storeUp then s
    else
      match s.nextBack (fun _ => true) with
      | [] => s
      | b :: t =>
        if poison then
          let s1 := s.deferError b.nsid b.lba (t.length + 1) (s.lbaOf b.key).1 4 0
          (s1.cacheDrop (fun x => (b :: t).any (fun y => y.key = x.key))).mediaSettle
        else (s.writeBack (b :: t)).2

/-! ### Record tasks: commands -/

/-- EN may be set (R365). -/
def State.taskOk (s : State) (t : Nat) : Bool :=
  let n := s.taskNs t
  let a := s.taskStart t
  let l := s.taskLen t
  decide (1 ≤ n ∧ n ≤ 31) && (match s.nsBlocks n with | some k => decide (a + l ≤ k) | none => false) &&
    (List.range 16).all (fun k => k = t || !s.taskOn k || s.taskNs k ≠ n || apart a l (s.taskStart k) (s.taskLen k)) &&
    s.fld nvtA NVT_STATUS_STORE_STATE = 1
def State.cfgErr (s : State) : State := s.setFlag nvtA NVT_EVT_CFG_ERR true

/-- EN is set: the task starts. -/
def State.taskEnable (s : State) (t : Nat) (v : Word) : State :=
  let s1 := s.setTaskWord t 0 (v &&& 0x7000003F)
  if !s1.taskOk t then s1.cfgErr
  else
    let s2 := [10, 11, 12, 13].foldl (fun u w => u.setTaskWord t w 0) (s1.setTaskWord t 0 (v &&& 0xF000003F))
    (s2.setRecTask t {}).showRun
/-- EN is cleared: a byte task still writes what its context has written (R367). -/
def State.taskDisable (s : State) (t : Nat) : State :=
  if !s.taskOn t then s
  else
    let r := s.recTask t
    let s1 := (s.setTaskWord t 0 (s.taskWord t 0 &&& 0x7FFFFFFF)).showRun
    if s.taskBytes t then
      let s2 := s1.setRecTask t { r with upTo := some (s.ringWr t) }
      if r.busy.isSome then s2 else s2.blockRest t
    else s1.setRecTask t {}
/-- Bits of a task word that exist: words 9, 14 and 15 are reserved, and the device writes words 10 to 13. -/
def taskMask (w : Nat) : Word :=
  match w with
  | 0 => 0xF000003F
  | 2 => 0xFF
  | 4 => 0x3F
  | _ => if w ≤ 8 then 0xFFFFFFFF else 0
/-- A write of a task word (R365). -/
def State.taskWrW (s : State) (t w : Nat) (v : Word) : State :=
  if w > 9 then s
  else if s.taskOn t then
    (if w = 0 ∧ !v.toNat.testBit 31 then s.taskDisable t else s.cfgErr)
  else if w = 0 ∧ v.toNat.testBit 31 then s.taskEnable t v
  else s.setTaskWord t w (v &&& taskMask w)

/-- RECORD_TASK_ENABLE: word 0 of a task is written with EN = 1. -/
def execRecordTaskEnable (_r : Req) (task : Fin 16) (value : Word) (s : State) : Out3 :=
  onLive s fun s => s.taskWrW task 0 (value ||| 0x80000000)
/-- RECORD_TASK_DISABLE: word 0 of a task is written with EN = 0. -/
def execRecordTaskDisable (_r : Req) (task : Fin 16) (value : Word) (s : State) : Out3 :=
  onLive s fun s => s.taskWrW task 0 (value &&& 0x7FFFFFFF)

/-- Offsets of the heads that a frame task expects. -/
def State.taskHeads (s : State) (t : Nat) : List Nat :=
  (if (s.taskNat t 4).testBit 4 then [0] else []) ++ (if (s.taskNat t 4).testBit 5 then [64] else [])
def State.taskBuf (s : State) (t frame : Nat) : Nat := s.taskSrc t + frame % 2 ^ (s.taskNat t 4 % 16) * s.taskNat t 3
/-- The newest FRAME that the heads of a frame task's ring show: the first expected. Heads that cannot be read show none. -/
def State.taskFirst (s : State) (t : Nat) : Nat :=
  match (List.range (2 ^ (s.taskNat t 4 % 16))).filterMap (fun k =>
      ((s.readHeadsAt .store (s.taskHeads t) (s.taskSrc t + k * s.taskNat t 3)).1.bind (·.head?)).map headFrameOf) with
  | [] => 0
  | f :: l => l.foldl (fun m g => if earlier32 m g then g else m) f
def State.expectNext (s : State) (t e : Nat) : State := s.setRecTask t { s.recTask t with expect := some (e % 2 ^ 32) }

/-- RECORD_FRAME_TAKE: a frame task reads the heads of its expected frame (R366). -/
def execRecordFrameTake (task : Fin 16) (s : State) : Out3 :=
  onLive s fun s =>
    let t := task.val
    let hs := s.taskHeads t
    if !s.taskOn t || s.taskBytes t || (s.recTask t).busy.isSome || !s.storeUp || hs = [] then s
    else
      let e := ((s.recTask t).expect).getD (s.taskFirst t)
      let a := s.taskBuf t e
      let got := s.readHeadsAt .store hs a
      let s := got.2
      match got.1 with
      | none => s
      | some heads =>
        let fs := heads.map headFrameOf
        match fs.filter (fun f => earlier32 e f) with
        | f :: l => (s.taskDrop t).expectNext t (l.foldl (fun m g => if earlier32 m g then g else m) f)
        | [] =>
          if !fs.contains e then s.expectNext t e
          else if heads.any headErrOf || s.isShed 1 t then (s.taskDrop t).expectNext t (e + 1)
          else if !fs.all (· = e) then s.expectNext t e
          else if s.taskNat t 12 ≥ s.taskSlots t then (s.taskBit t tFULL).stopTask t
          else
            let n := s.slotLbas t
            let slba := s.taskStart t + s.taskNat t 12 * n
            let len := s.taskNat t 3
            let x := s.busRead .store a len
            match x.1 with
            | none => x.2.taskFail t (s.taskNs t) slba n (s.lbaOf (s.keyOf (s.taskNs t) slba)).1 4 0
            | some b =>
              let r := x.2.taskWrite t slba n (b ++ List.replicate (n * 4096 - len) 0)
              r.2.setRecTask t { r.2.recTask t with expect := some e, busy := some e, need := r.1 }

/-- RECORD_FRAME_DONE: every block of the copy has been written, and the heads are read again (R366). -/
def execRecordFrameDone (task : Fin 16) (s : State) : Out3 :=
  onLive s fun s =>
    let t := task.val
    let r := s.recTask t
    match r.busy with
    | none => s
    | some e =>
      if s.taskBytes t || r.need ≠ [] then s
      else
        let got := s.readHeadsAt .store (s.taskHeads t) (s.taskBuf t e)
        let s1 := got.2.setRecTask t { r with busy := none, expect := some ((e + 1) % 2 ^ 32) }
        if (got.1.map (fun l => l.all (fun b => headFrameOf b = e))).getD false then (s1.taskInc t 10).taskNext t
        else
          let w := s1.taskWrite t (s1.taskStart t + s1.taskNat t 12 * s1.slotLbas t) 1 (List.replicate 4096 0)
          ((w.2.setRecTask t { w.2.recTask t with need := w.1 }).taskDrop t).taskNext t

/-- RECORD_BLOCK_WRITE: a byte task writes the next whole block of its context's ring (R367). -/
def execRecordBlockWrite (task : Fin 16) (s : State) : Out3 :=
  onLive s fun s =>
    let t := task.val
    if !s.taskOn t || !s.taskBytes t || (s.recTask t).busy.isSome || !s.storeUp || s.isShed 1 t || s.ringWr t < s.ringRd t + 4096 then s
    else if s.taskNat t 12 ≥ s.taskSlots t then (s.taskBit t tFULL).stopTask t
    else s.blockOut t 4096

/-! ### Registers -/

/-- Writes of NVT registers. -/
def nvtWrite (x : WCtx) (off a : Nat) (v m : Word) (s : State) : State × WRes :=
  if off = NVT_TDATA then
    let i := s.fld nvtA NVT_TIDX_INDEX
    let old := s.taskWord (i / 16) (i % 16)
    okW ((s.taskWrW (i / 16) (i % 16) ((old &&& ~~~ m) ||| (v &&& m))).advance nvtA 256 NVT_TIDX_INDEX)
  else
    let was := s.storeUp
    let (s1, r) := s.genWrite x a v m
    if off = NVT_CTRL then
      let s2 := if s1.flag nvtA NVT_CTRL_EN && !s1.dOk then s1.cfgErr else s1
      (s2.storeRise was, r)
    else (s1, r)
def nvtRead (off : Nat) (s : State) : Option (Word × State) :=
  if off = NVT_TDATA then
    let i := s.fld nvtA NVT_TIDX_INDEX
    some (s.taskWord (i / 16) (i % 16), s.advance nvtA 256 NVT_TIDX_INDEX)
  else none

/-- A port is enabled or disabled (R369, R370). -/
def State.portEnable (s : State) (p : Nat) (on : Bool) : State :=
  let b := nvhA p
  if on then
    (if (s.nvPort p).down && !s.maint then s
     else (s.setFld b NVH_STATUS_STATE 1).setNvPort p { s.nvPort p with down := false })
  else
    let s1 := if s.ssdPresent p then (s.failAll p 3).deferDirty p s.nv.cache.length else s
    let s2 := (((s1.wr (b + NVH_STATUS) 0).setFlag b NVH_STATUS_INCOMPAT (s1.flag b NVH_STATUS_INCOMPAT)).wr (b + NVH_LBAS_LO) 0).wr
      (b + NVH_LBAS_HI) 0
    (if (s2.nvPort p).down && !s2.maint then s2.setFld b NVH_STATUS_STATE 3 else s2).mediaSettle
/-- Writes of NVH registers. -/
def nvhWrite (x : WCtx) (p off a : Nat) (v m : Word) (s : State) : State × WRes :=
  if off = NVH_ERR then okW (s.errClear p ((s.rd a &&& ~~~ m) ||| (v &&& m)))
  else
    let was := s.flag (nvhA p) NVH_CTRL_EN
    let (s1, r) := s.genWrite x a v m
    let now := s1.flag (nvhA p) NVH_CTRL_EN
    if off = NVH_CTRL then ((if was = now then s1 else s1.portEnable p now).quadsFollow, r) else (s1, r)

/-- Writes of PCIE registers; a disabled endpoint has no link. -/
def pcieWrite (x : WCtx) (off a : Nat) (v m : Word) (s : State) : State × WRes :=
  let (s1, r) := s.genWrite x a v m
  if off = PCIE_CTRL then
    let s2 := if s.flag pcieA PCIE_CTRL_EN && !s1.flag pcieA PCIE_CTRL_EN && s1.flag pcieA PCIE_STATUS_DL_UP then
        s1.controllerReset.wr (pcieA + PCIE_STATUS) (s1.rd (pcieA + PCIE_STATUS) &&& 4) else s1
    (s2.quadsFollow, r)
  else (s1, r)

/-! ### BAR4 (R341) -/

/-- HOST_BAR4_ACCESS: a read of `len` bytes, or a write of `data`, at an offset of BAR4, which host-load mode does not bring up
while the image is awaited (R68). -/
def execHostBar4Access (write : Bool) (offset len : Nat) (data : List Byte) (s : State) : Out3 :=
  onLive s fun s =>
    let a := s.fld pcieA PCIE_BAR4_BAR4_BASE * 2 ^ 30 + offset
    if !s.pcieUp || s.hostLoad then s
    else if write then (s.busWrite .host a data).2
    else
      let r := s.busRead .host a len
      r.2.emit .pcie 0 (match r.1 with | some b => a :: b.map (·.toNat) | none => [a])

end Sys2Proof.Machine
end

