-- ==== Sys2Proof/Machine/PrdCmds.lean ====
section
/-! DEFINITION. The commands of the Parade trunks (R220 to R233), and their registers. -/
namespace Sys2Proof.Machine

/-- A quad is in use: another trunk names it, or its PCIe user is bound (R371). -/
def State.quadTaken (s : State) (n q : Nat) : Bool :=
  (List.range 8).any (fun k => k ≠ n && s.fld (prdA k) PRD_CTRL_QUAD = q) ||
    (decide (8 ≤ q) && s.fld (quadA q) QUAD_CTRL_PROTO = 2)
/-- Table 16-1: primary trunks on quads 0 to 3, secondary ones on 4 to 7, any on 8 to 13. -/
def quadAllowed (n q : Nat) : Bool := decide (8 ≤ q ∧ q ≤ 13) || decide (q < 8 ∧ q / 4 = n / 4)
/-- A quad that a trunk may name. -/
def State.quadFree (s : State) (n q : Nat) : Bool := quadAllowed n q && !s.quadTaken n q

/-- TX_ON follows EN and the phase (R73); in maintenance state every trunk transmits (R74). -/
def State.showTx (s : State) (n : Nat) : State :=
  let on := (s.flag (prdA n) PRD_CTRL_EN || s.maint) && s.headMayRun
  let was := s.flag (prdA n) PRD_STATUS_TX_ON
  let s1 := s.setFlag (prdA n) PRD_STATUS_TX_ON on
  if was && !on then s1.setPrd n { s1.prd n with txQ := [] }
  else if on && !was then s1.setPrd n { s1.prd n with tx := { (s1.prd n).tx with blocks := 0, pos := [0, 0, 0, 0] } }
  else s1

/-! ### Census (R230, R231) -/

/-- The trunks that send the packets of a trunk: in a ring both of its head (R227). -/
def State.sameTrunks (s : State) (n : Nat) : List Nat := if s.ring (n % 4) then [n % 4, n % 4 + 4] else [n]
/-- A packet between packets leaves on them (R225). -/
def State.prdSend (s : State) (n : Nat) (p : List Byte) : State := (s.sameTrunks n).foldl (fun t k => t.prdNow k p) s

/-- One CENSUS packet leaves with a new SEQ. -/
def State.censusOne (s : State) (q n : Nat) : State :=
  let b := prdA n
  let u := s.prd n
  let s1 := s.setPrd n { u with censusSeq := q, censusTick := s.tick, result := none, judged := false }
  let s2 := ((s1.setFlag b PRD_STATUS_CENSUS_BUSY true).setFlag b PRD_CENSUS_START true)
  s2.prdNow n (shortPkt 0x11 0xFFFF (toBytes 2 q ++ toBytes 2 0 ++ toBytes 1 0 ++ toBytes 7 0))
/-- A census starts: in a ring on both trunks of the head, with one packet and so one SEQ (R227, R231). -/
def State.censusStart (s : State) (n : Nat) : State :=
  let ks := s.sameTrunks n
  let q := ((s.prd (ks.headD n)).censusSeq + 1) % 2 ^ 16
  ks.foldl (fun t k => if t.flag (prdA k) PRD_STATUS_CENSUS_BUSY then t else t.censusOne q k) s

/-- A census entry from its 16 bytes (Table 9-5). -/
def entryAt (b : List Byte) : CensusEntry :=
  ⟨leNat (b.take 8), leNat ((b.drop 8).take 2), leNat ((b.drop 10).take 2), leNat ((b.drop 12).take 2),
    leNat ((b.drop 14).take 1), leNat ((b.drop 15).take 1)⟩
/-- The entries of a CENSUS packet. -/
def censusEntries (p : List Byte) : List CensusEntry :=
  (List.range (min (leNat ((p.drop 6).take 2)) 4608)).map (fun i => entryAt ((p.drop (16 + 16 * i)).take 16))

def dedupNat : List Nat → List Nat
  | [] => []
  | a :: t => a :: (dedupNat t).filter (· ≠ a)
/-- Entries with each identity once. -/
def dedupId : List CensusEntry → List CensusEntry
  | [] => []
  | e :: t => e :: (dedupId t).filter (fun f => f.id ≠ e.id)

/-- The counts of R231 over the entries: MISSING, UNEXPECTED, DUPLICATE, ID_MISMATCH. A hub's entry, whose address 0xFFFF is
expected nowhere, counts as any other. -/
def State.censusCounts (s : State) (h : Nat) (want : List Tile) (es : List CensusEntry) : Nat × Nat × Nat × Nat :=
  let all := (s.tiles h).map (·.addr)
  let addrs := dedupNat (want.map (·.addr))
  let ids (a : Nat) : List Nat := dedupNat ((es.filter (fun e => e.addr = a)).map (·.id))
  let expect (a : Nat) : Nat :=
    match want.find? (fun t => t.addr = a) with | some t => s.tileNat h t.idx 32 8 | none => 0
  ((addrs.filter (fun a => !es.any (fun e => e.addr = a))).length,
   (es.filter (fun e => !all.contains e.addr)).length,
   ((dedupNat (es.map (·.addr))).filter (fun a => (ids a).length > 1)).length,
   (es.filter (fun (e : CensusEntry) => expect e.addr != 0 && expect e.addr != e.id)).length)

/-- A census is judged: counts, CENSUS_MISMATCH and the record (R231). In a ring the union of both trunks is judged in the
primary, once both have come back or timed out. -/
def State.censusJudge (s : State) (n : Nat) : State :=
  let h := n % 4
  let ring := s.ring h
  let busy := ring && (s.flag (prdA h) PRD_STATUS_CENSUS_BUSY || s.flag (prdA (h + 4)) PRD_STATUS_CENSUS_BUSY)
  let res (k : Nat) : List CensusEntry := ((s.prd k).result).getD []
  let some? := if ring then (s.prd h).result.isSome || (s.prd (h + 4)).result.isSome else (s.prd n).result.isSome
  if busy || !some? then s
  else
    let es := if ring then dedupId (res h ++ res (h + 4)) else res n
    let want := (s.tiles h).filter (fun t => (s.trunksOf h t).contains n)
    let rep := if ring then h else n
    let b := prdA rep
    let (mi, un, du, im) := s.censusCounts h want es
    let s1 := ((((s.setFld b PRD_CENSUS_CNT_ENTRIES (sat 13 es.length)).setFld b PRD_CENSUS_CNT_MISSING (sat 13 mi)).setFld b
      PRD_CENSUS_CNT2_UNEXPECTED (sat 13 un)).setFld b PRD_CENSUS_CNT2_DUPLICATE (sat 13 du)).setFld b
      PRD_CENSUS_CNT3_ID_MISMATCH (sat 13 im)
    let s2 := s1.setPrd rep { s1.prd rep with judged := true }
    if mi + un + du + im = 0 then s2
    else (s2.setFlag b PRD_STATUS_CENSUS_MISMATCH true).record 0 0x21 1 (srcOf 0 0x22 rep) 0 (info8 rep)

/-! ### Reception (R223, R226, R229 to R232) -/

/-- A packet's CRC-32C is right; a packet has 7 bytes at least. -/
def crcGood (p : List Byte) : Bool := decide (7 ≤ p.length) && decide (toBytes 4 (crc32c (p.take (p.length - 4))) = p.drop (p.length - 4))
/-- The length of Table 9-3 for a type that a receiver acts on (notes/assumptions/35.md). -/
def lengthGood (p : List Byte) : Bool :=
  match leNat (p.take 1) with
  | 0x11 => p.length = 20 + 16 * leNat ((p.drop 6).take 2)
  | 0x13 => p.length = 24
  | _ => p.length = 20

/-- The trunk whose census a returning packet answers: in a ring a packet that was not turned back came all the way round, from
the other trunk of the head (R231). -/
def State.censusOwner (s : State) (n : Nat) (turned : Bool) : Nat :=
  if s.ring (n % 4) && !turned then (if n < 4 then n + 4 else n - 4) else n

/-- A census result returns (R231). -/
def State.censusBack (s : State) (n : Nat) (p : List Byte) : State :=
  let k := s.censusOwner n ((leNat ((p.drop 8).take 1)).testBit 0)
  if !s.flag (prdA k) PRD_STATUS_CENSUS_BUSY || decide ((s.prd k).censusSeq ≠ leNat ((p.drop 4).take 2)) then s
  else
    let b := prdA k
    let a := s.fld b PRD_CENSUS_BASE_ADDR * 256
    let s1 := s.put (.prd (Fin.ofNat 8 k)) a p
    let s2 := s1.setPrd k { s1.prd k with result := some (censusEntries p) }
    let s3 := ((s2.setFlag b PRD_STATUS_CENSUS_BUSY false).setFlag b PRD_STATUS_CENSUS_DONE true).setFlag b PRD_CENSUS_START false
    let s4 := s3.setFld b PRD_CENSUS_CNT_ENTRIES (sat 13 (censusEntries p).length)
    s4.censusJudge k

/-- The trunk whose poll a STATUS_REPLY answers: the one it came to, or in a ring the other one of the head. -/
def State.pollOwner (s : State) (n : Nat) (p : List Byte) : Option Nat :=
  (n :: s.sameTrunks n).find? (fun k =>
    let u := s.prd k
    let addr := leNat ((p.drop 2).take 2)
    u.polling && decide (leNat ((p.drop 4).take 2) = u.pollSeq) && (decide (addr = u.pollAddr) || decide (u.pollAddr = 0xFFFF)))
/-- A STATUS_REPLY fills the reply registers (R232). -/
def State.statusBack (s : State) (n : Nat) (p : List Byte) : State :=
  match s.pollOwner n p with
  | some n =>
    let b := prdA n
    ((((((s.setFld b PRD_REPLY0_STATUS (leNat ((p.drop 6).take 2))).setFld b PRD_REPLY0_CRC_ERRS (leNat ((p.drop 16).take 2))).setFld b
      PRD_REPLY1_ID_LO (leNat ((p.drop 8).take 4))).setFld b PRD_REPLY2_ID_HI (leNat ((p.drop 12).take 4))).setFlag b
      PRD_STATUS_POLL_DONE true).setFlag b PRD_TCTL_GO false).setPrd n { s.prd n with polling := false }
  | none => s

/-- A packet comes in at a receiver: one with a bad CRC is counted, one with another version, type or length does nothing, the
ring's own packets are discarded (R223, R227). -/
def State.prdReceive (s : State) (n : Nat) (p : List Byte) : State :=
  if !s.flag (prdA n) PRD_STATUS_RX_LOCK then s
  else if !crcGood p then s.incFld (prdA n) PRD_RXCNT_CRC_ERR 1
  else if leNat ((p.drop 1).take 1) % 16 ≠ 1 || !lengthGood p then s
  else
    match leNat (p.take 1) with
    | 4 =>
      if s.ring (n % 4) then
        (s.setFlag (prdA n) PRD_STATUS_LOOP_OK true).setPrd n { s.prd n with beaconTick := s.tick }
      else s
    | 0x11 => s.censusBack n p
    | 0x13 => s.statusBack n p
    | _ => s

/-- What a block does to the packet in progress: the packet that it completes, and what is then in progress. DESKEW, INTERCALARY
and IDLE blocks are skipped wherever they stand; a block of another type discards the packet (R220, R222, R223). -/
def parseBlk (cur : Option (List Byte)) (sync : Nat) (b : List Byte) : Option (List Byte) × Option (List Byte) :=
  if sync = 1 then (none, cur.map (· ++ b))
  else if sync ≠ 2 then (none, none)
  else
    let type := leNat (b.take 1)
    if type = 0x1E ∨ type = 0xA5 ∨ type = 0x5A then (none, cur)
    else if type = 0x78 then (none, some (b.drop 1))
    else if 0xE0 ≤ type ∧ type < 0xE8 then (cur.map (· ++ (b.drop 1).take (type - 0xE0)), none)
    else (none, none)
/-- A block comes in on a lane: it is descrambled and parsed, and a packet that it completes is received. -/
def State.prdBlock (s : State) (n : Nat) (k : LaneBlk) : State :=
  let u := s.prd n
  let r := scramble true ((u.rx.scram[k.lane.val]?).getD 0) (bitsOf k.data.toNat)
  let p := parseBlk u.rx.packet k.sync (toBytes 8 (ofBits r.1))
  let s1 := s.setPrd n { u with rx := ⟨u.rx.scram.set k.lane r.2, p.2⟩ }
  match p.1 with
  | some q => s1.prdReceive n q
  | none => s1

/-! ### Registers -/

/-- Writes of PRD registers with an effect of their own (R229, R231, R232, PRD_CTRL). -/
def prdWrite (x : WCtx) (n off a : Nat) (v m : Word) (s : State) : State × WRes :=
  let b := prdA n
  if off = PRD_CTRL then
    let q := bits (putFld (s.rd b) PRD_CTRL_QUAD (bits v.toNat PRD_CTRL_QUAD.hi PRD_CTRL_QUAD.lo)).toNat 23 20
    let named := (m &&& wd PRD_CTRL_QUAD.mask) != 0 && decide (q ≠ s.fld b PRD_CTRL_QUAD)
    let bad := named && !s.quadFree n q
    let m1 := (if bad then m &&& ~~~ (wd PRD_CTRL_QUAD.mask) else m) &&& (if n < 4 then ~~~ (wd PRD_CTRL_RING.mask) else 0xFFFFFFFF)
    let s0 := if bad then s.setFlag b PRD_STATUS_CFG_ERR true else s
    let (s1, r) := s0.genWrite x a v m1
    ((s1.showTx n).quadsFollow, if bad then .refused else r)
  else if off = PRD_CENSUS then
    let (s1, r) := s.genWrite x a v (m &&& ~~~ (wd PRD_CENSUS_START.mask))
    (if (v &&& m).toNat.testBit 31 && s1.flag b PRD_STATUS_TX_ON then s1.censusStart n else s1, r)
  else if off = PRD_TCTL then
    let (s1, r) := s.genWrite x a v (m &&& ~~~ (wd PRD_TCTL_GO.mask))
    if !(v &&& m).toNat.testBit 31 || !s1.flag b PRD_STATUS_TX_ON then (s1, r)
    else
      let dest := s1.fld b PRD_TCTL_ADDR
      if !s1.flag b PRD_TCTL_OP then
        (s1.prdSend n (shortPkt 0x10 dest (toBytes 2 (s1.fld b PRD_TLEVEL_LEVEL) ++ toBytes 10 0)), r)
      else if (s1.prd n).polling then (s1, r)
      else
        let q := ((s1.prd n).pollSeq + 1) % 2 ^ 16
        let s2 := (s1.setPrd n { s1.prd n with pollSeq := q, pollTick := s1.tick, polling := true, pollAddr := dest }).setFlag b PRD_TCTL_GO true
        (s2.prdSend n (shortPkt 0x12 dest (toBytes 2 q ++ toBytes 10 0)), r)
  else s.genWrite x a v m

/-! ### Commands -/

/-- PARADE_SEGMENT_SEND: the segment in front leaves; a class-0 line's exit is measured; packets behind it that are no
segments follow (R225, R49, R55). -/
def execParadeSegmentSend (n : Fin 8) (s : State) : Out3 :=
  onLive s fun s =>
    match (s.prd n).txQ with
    | [] => s
    | p :: rest =>
      let s1 := s.prdEmit n p.bytes
      let s2 := match p.c0 with
        | some (sid, frame, line, time) => s1.c0Exit sid frame line time
        | none => s1
      let s3 := s2.prdFlush n rest
      let h := n.val % 4
      s3.rotPump h false (s3.rotCount h)

/-- BEACON_SEND: a BEACON between packets, with the moment of sending (R225); the secondary trunk of a ring sends its own with the
primary's (R227). -/
def execBeaconSend (n : Fin 8) (s : State) : Out3 :=
  onLive s fun s =>
    if !s.ring (n.val % 4) then s.prdNow n (s.startPkt n 4 s.time32)
    else if n.val < 4 then
      (s.prdNow n (s.startPkt n 4 s.time32)).prdNow (n.val + 4) (s.startPkt (n.val + 4) 4 s.time32)
    else s

/-- LANE_MARKER_SEND: at the next lane block position that has a marker, every lane sends it: DESKEW where n mod 16,384 = 0,
INTERCALARY where n mod 4,096 = 2,048. IDLE blocks fill the lanes up to there (R221); a marker whose position falls inside a packet
has been sent there (`LaneTx.stream`). -/
def execLaneMarkerSend (n : Fin 8) (s : State) : Out3 :=
  onLive s fun s =>
    if !s.flag (prdA n) PRD_STATUS_TX_ON then s
    else
      let o := (s.prd n).tx.fill (s.prdCfg n)
      (s.setPrd n { s.prd n with tx := o.1 }).emitLane (s.prdQuad n) 1 (.trunk n) 1 o.2

/-- PRD_PACKET_RECEIVE: blocks come in on the lanes of a trunk, in the order of their aligned positions, and the packets that they
hold are received (R220, R222, R227). -/
def execPrdPacketReceive (n : Fin 8) (blocks : List LaneBlk) (s : State) : Out3 :=
  onLive s fun s => if s.flag (prdA n) PRD_STATUS_RX_LOCK then blocks.foldl (fun t k => t.prdBlock n k) s else s

/-- A sync header is one that R220 has. -/
def syncOk (h : Fin 4) : Bool := h = 1 || h = 2
/-- Block lock of a lane by its last 64 sync headers: gained when all are valid, lost when 16 are not (the lock rule of IEEE
802.3 Clause 49, notes/assumptions/35.md). -/
def blockLock (hs : List (Fin 4)) : Bool := decide (64 ≤ hs.length) && (hs.drop (hs.length - 64)).all syncOk
def blockLost (hs : List (Fin 4)) : Bool := decide (16 ≤ ((hs.drop (hs.length - 64)).filter (fun h => !syncOk h)).length)

/-- RING_BREAK: a receiver loses block lock by the sync headers that a lane gave last, or has seen no BEACON from the other end for
250 µs (R229). -/
def execRingBreak (n : Fin 8) (headers : List (Fin 4)) (s : State) : Out3 :=
  onLive s fun s =>
    let b := prdA n
    let lost := blockLost headers
    let s1 := if lost then ((s.setFlag b PRD_STATUS_RX_LOCK false).incFld b PRD_RXCNT_RELOCK 1).setPrd n
      { s.prd n with rx := { (s.prd n).rx with packet := none } } else s
    let s2 := s1.setFlag b PRD_STATUS_LOOP_OK false
    if !lost && decide (s.tick < (s.prd n).beaconTick + usTicks 250) then s
    else if !s2.ring (n.val % 4) then s2
    else
      let s3 := (s2.setFlag b PRD_STATUS_RING_BROKEN true).record 0 0x21 1 (srcOf 0 0x22 n) 0 (info8 n)
      if s3.flag b PRD_CENSUS_AUTO then s3.censusStart n else s3

/-- BRIGHTNESS_SEND: a write of PRD_TCTL with GO = 1 and OP = 0 (R232). -/
def execBrightnessSend (r : Req) (n : Fin 8) (value : Word) (s : State) : Out3 :=
  onLive s fun s =>
    (prdWrite (ctxOf r) n PRD_TCTL (prdA n + PRD_TCTL) ((value ||| 0x80000000) &&& 0xEFFFFFFF) 0xFFFFFFFF s).1
/-- STATUS_POLL_SEND: a write of PRD_TCTL with GO = 1 and OP = 1 (R232). -/
def execStatusPollSend (r : Req) (n : Fin 8) (value : Word) (s : State) : Out3 :=
  onLive s fun s => (prdWrite (ctxOf r) n PRD_TCTL (prdA n + PRD_TCTL) (value ||| 0x90000000) 0xFFFFFFFF s).1
/-- STATUS_REPLY_RECEIVE: a STATUS_REPLY comes in (R232). -/
def execStatusReplyReceive (n : Fin 8) (packet : List Byte) (s : State) : Out3 :=
  onLive s fun s => if leNat (packet.take 1) = 0x13 then s.prdReceive n packet else s
/-- STATUS_POLL_TIMEOUT: no reply within 2 ms (R232). -/
def execStatusPollTimeout (n : Fin 8) (s : State) : Out3 :=
  onLive s fun s =>
    if (s.prd n).polling && decide ((s.prd n).pollTick + usTicks 2000 ≤ s.tick) then
      ((s.setFlag (prdA n) PRD_STATUS_POLL_TIMEOUT true).setFlag (prdA n) PRD_TCTL_GO false).setPrd n { s.prd n with polling := false }
    else s

/-- CENSUS_START: a write of PRD_CENSUS with START = 1 (R231). -/
def execCensusStart (r : Req) (n : Fin 8) (value : Word) (s : State) : Out3 :=
  onLive s fun s => (prdWrite (ctxOf r) n PRD_CENSUS (prdA n + PRD_CENSUS) (value ||| 0x80000000) 0xFFFFFFFF s).1
/-- CENSUS_RESULT_RECEIVE: a CENSUS packet returns (R231). -/
def execCensusResultReceive (n : Fin 8) (packet : List Byte) (s : State) : Out3 :=
  onLive s fun s => if leNat (packet.take 1) = 0x11 then s.prdReceive n packet else s
/-- CENSUS_TIMEOUT: no result within TIMEOUT_MS (R231). -/
def execCensusTimeout (n : Fin 8) (s : State) : Out3 :=
  onLive s fun s =>
    let b := prdA n
    if s.flag b PRD_STATUS_CENSUS_BUSY && decide ((s.prd n).censusTick + usTicks (1000 * s.fld b PRD_CENSUS_TIMEOUT_MS) ≤ s.tick) then
      (((s.setFlag b PRD_STATUS_CENSUS_BUSY false).setFlag b PRD_STATUS_CENSUS_TIMEOUT true).setFlag b PRD_CENSUS_START false).censusJudge n
    else s

/-- The valid markers of an arrival: LANES 1, 2 or 4, LANE below it, and the same LANES, RATE and tag as the others of the same
SEQ (R221). -/
def validMarkers (ms : List LaneMarker) : List LaneMarker :=
  ms.filter (fun m => (m.lanes = 1 || m.lanes = 2 || m.lanes = 4) && decide (m.lane < m.lanes) &&
    ms.all (fun k => k.seq ≠ m.seq || (k.lanes = m.lanes && k.rate = m.rate && k.tag = m.tag)))
/-- Every lane has delivered a valid marker of one SEQ (R221). -/
def aligned (ms : List LaneMarker) : Bool :=
  let v := validMarkers ms
  v.any (fun m => (List.range m.lanes).all (fun l => v.any (fun k => k.seq = m.seq && k.lane = l)))

/-- The lanes that markers name have block lock: `headers` holds the sync headers that each gave last. -/
def lanesLocked (ms : List LaneMarker) (headers : List (List (Fin 4))) : Bool :=
  (validMarkers ms).any (fun m => decide (m.lanes ≤ headers.length)) && headers.all blockLock

/-- The lanes of a trunk are READY in its quad (R378). -/
def State.trunkReady (s : State) (n : Nat) : Bool := s.lanesReady (s.prdQuad n) (List.range (s.prdLanes n))

/-- PARADE_TRUNK_ALIGN: the receiver, its lanes READY and in block lock, aligns them on the markers that came in; with AUTO a census starts
(R220, R221, R231). -/
def execParadeTrunkAlign (n : Fin 8) (headers : List (List (Fin 4))) (markers : List LaneMarker) (s : State) : Out3 :=
  onLive s fun s =>
    let b := prdA n
    if s.flag b PRD_STATUS_TX_ON && aligned markers && lanesLocked markers headers && s.trunkReady n && !s.flag b PRD_STATUS_RX_LOCK then
      let s1 := (s.setFlag b PRD_STATUS_RX_LOCK true).setPrd n
        { s.prd n with rx := { (s.prd n).rx with packet := none }, beaconTick := s.tick }
      if s1.flag b PRD_CENSUS_AUTO then s1.censusStart n else s1
    else s

end Sys2Proof.Machine
end

