-- ==== Sys2Proof/Machine/Procession.lean ====
section
/-! DEFINITION. The Procession ports: heartbeats, loss, time between packages, the mirrored pair (R383 to R388, R406 to R408,
R477 to R482). -/
namespace Sys2Proof.Machine

/-! ### Ports and packets -/

/-- A port's field: the right port's bits stand 8 above the left port's. -/
def prcF (right : Bool) (f : Fld) : Fld := if right then ⟨f.off, f.hi + 8, f.lo + 8⟩ else f
def State.prcUp (s : State) (right : Bool) : Bool := s.flag advA (prcF right PRC_STATUS_L_UP)
/-- The port runs and both its lanes have block lock: the left port lanes 0 and 1 of quad 15, the right port 2 and 3 (R383,
R385). -/
def State.prcOn (s : State) (right : Bool) : Bool :=
  let k := if right then 2 else 0
  s.flag advA PRC_CTRL_EN && s.flag (quadA 15) (laneF LANE_STAT_BLOCK_LOCK k) && s.flag (quadA 15) (laneF LANE_STAT_BLOCK_LOCK (k + 1))

/-- Both lanes of a port are READY (R378). -/
def State.prcReady (s : State) (right : Bool) : Bool := s.lanesReady 15 (if right then [2, 3] else [0, 1])

/-- A packet: TYPE, VER 1, DEST, content, CRC-32C (R384). -/
def prcPacket (type dest : Nat) (content : List Byte) : List Byte :=
  let b := toBytes 1 type ++ toBytes 1 1 ++ toBytes 2 dest ++ content
  b ++ toBytes 4 (crc32c b)
/-- A port's two lanes at 25.78125 Gbit/s; TRUNK_TAG holds POSN and the side (R383). -/
def State.prcCfg (s : State) (right : Bool) : TrunkCfg := ⟨2, 1, s.fld topA TOP_STRAP_POSN + 16 * b2n right⟩
/-- A packet leaves a port as blocks on its lanes (R220, R383, R384). -/
def State.prcEmit (s : State) (right : Bool) (p : List Byte) : State :=
  let o := (s.proc right).tx.send (s.prcCfg right) (packetBlocks p)
  (s.setProc right { s.proc right with tx := o.1 }).emitLane 15 5 (.procession right) 0 o.2
/-- Bytes lo to lo + n - 1 of a packet. -/
def pktNat (p : List Byte) (lo n : Nat) : Nat := leNat ((p.drop lo).take n)
/-- A packet discarded (R384). -/
def State.prcBad (s : State) : State := s.incFld advA PRC_CNT_CRC_ERR 1
/-- The CRC holds, and version and type are known. -/
def prcGood (p : List Byte) : Bool :=
  decide (8 ≤ p.length) && decide (toBytes 4 (crc32c (p.take (p.length - 4))) = p.drop (p.length - 4)) &&
    decide (pktNat p 1 1 = 1) && decide (0x40 ≤ pktNat p 0 1 ∧ pktNat p 0 1 ≤ 0x43)

def State.myPkg (s : State) : Nat := s.fld advA ADV_SYSID_PKG_NUM
def State.myPosn (s : State) : Nat := s.fld topA TOP_STRAP_POSN

/-- PROCESSION_ALIGN: a port's receiver aligns its two lanes; DESKEW from a port of the same side is a wiring error (R383). -/
def execProcessionAlign (right : Bool) (markers : List LaneMarker) (s : State) : Out3 :=
  onLive s fun s =>
    if !s.prcOn right || !s.prcReady right || !aligned markers then s
    else
      let same := (validMarkers markers).any (fun m => decide (m.tag / 16 % 2 = b2n right))
      let s1 := s.setProc right { s.proc right with aligned := true }
      if same then s1.setFlag advA (prcF right PRC_STATUS_L_WIRING_ERR) true else s1

/-! ### Heartbeats (R385, R386) -/

/-- STATE of a HEARTBEAT (Table 16-4). -/
def State.beatState (s : State) : Nat :=
  b2n (decide (s.phase = 7)) + 2 * b2n (s.paired && s.active) + 4 * b2n (s.flag (fltA 0) FLT_STATUS_DEGRADED) + 8 * b2n s.maint +
    16 * b2n (s.flag thmA THM_STATUS_WARN)

/-- HEARTBEAT_SEND: every 50 us; an UP port that heard none since the last one counts a miss. -/
def execHeartbeatSend (right : Bool) (s : State) : Out3 :=
  onLive s fun s =>
    if !s.prcOn right then s
    else
      let u := s.proc right
      let q := (u.seq + 1) % 2 ^ 16
      let s1 := if s.prcUp right && !u.got then s.incFld advA PRC_CNT_MISSED 1 else s
      let e := u.echo.getD ⟨0, 0⟩
      let p := prcPacket 0x40 0xFFFF (toBytes 2 q ++ toBytes 1 s.myPosn ++
        toBytes 1 (s.myPkg + 16 * s.fld advA ADV_SYSID_VALID) ++ toBytes 1 s.beatState ++ toBytes 1 0 ++
        toBytes 6 s.time.sec ++ toBytes 4 s.time.ns ++ toBytes 2 e.seq ++ toBytes 6 (e.ns / 1000000000) ++
        toBytes 4 (e.ns % 1000000000))
      (s1.setProc right { u with seq := q, got := false, sentBeats := (⟨q, s.nowNs⟩ :: u.sentBeats).take 4 }).prcEmit right p

/-- The upstream port: UP, its latest TIME names the leader, is LOCKED, and has the lowest HOPS, left first (R407). -/
def State.upstream (s : State) : Option Bool :=
  let fit (r : Bool) : Option Nat :=
    match (s.proc r).time with
    | some t => if s.prcUp r && t.leader = s.time.leader && t.state.testBit 0 then some t.hops else none
    | none => none
  match fit false, fit true with
  | some a, some b => some (decide (b < a))
  | some _, none => some false
  | none, some _ => some true
  | none, none => none

/-- TIME_PRC shows the upstream and HOPS (R407). -/
def State.showUpstream (s : State) : State :=
  if s.timeSrc ≠ 2 then s
  else
    match s.upstream with
    | none => s.setFlag timeA TIME_PRC_UP_VALID false
    | some r =>
      let h := (((s.proc r).time.map (·.hops)).getD 0) + 1
      ((s.setFlag timeA TIME_PRC_UP_VALID true).setFlag timeA TIME_PRC_UP_PORT r).setFld timeA TIME_PRC_HOPS h

/-- A measured offset from the upstream: the slew, the rate and LOCKED follow (R407). `two` is twice theta, in ns. -/
def State.follow (s : State) (two : Int) : State :=
  let near := decide (two < 200 ∧ -200 < two)
  let t := s.time
  let small := if near then min 10 (t.small + 1) else 0
  let large := if near then 0 else min 10 (t.large + 1)
  let s1 := (s.withTime { t with slew := two * (fineNs / 2), rate := t.rate + Config.thetaGain two, small := small, large := large })
  if small = 10 then s1.setFlag timeA TIME_STATUS_LOCKED true
  else if large = 10 then s1.setFlag timeA TIME_STATUS_LOCKED false
  else s1

/-- The offset that a heartbeat measures (R406); no usable echo is counted. -/
def State.measure (s : State) (right : Bool) (p : List Byte) : State :=
  let stamp (lo : Nat) : Int := (pktNat p lo 6 * 1000000000 + pktNat p (lo + 6) 4 : Nat)
  match (s.proc right).sentBeats.find? (fun b => b.seq = pktNat p 20 2) with
  | none => s.incFld timeA TIME_PRC_CNT_ECHO_MISS 1
  | some b =>
    let two := (stamp 22 - (b.ns : Int)) + (stamp 10 - (s.nowNs : Int))
    let q := s.openQuot two 2
    let s1 := q.2.wr (timeA + TIME_PRC_THETA) (wd (ofSigned 32 q.1))
    if s1.timeSrc = 2 && s1.upstream = some right then s1.follow two else s1

/-- HEARTBEAT_RECEIVE: a packet of TYPE 0x40 comes in (R384 to R386, R406). -/
def execHeartbeatReceive (right : Bool) (packet : List Byte) (s : State) : Out3 :=
  onLive s fun s =>
    if !s.prcOn right || !(s.proc right).aligned then s
    else if !prcGood packet ∨ packet.length ≠ 36 then s.prcBad.setProc right { s.proc right with run := 0 }
    else if pktNat packet 0 1 ≠ 0x40 then s
    else
      let u := s.proc right
      let run := min 3 (u.run + 1)
      let k := pktNat packet 7 1
      let u1 := { u with run := run, got := true, valid := k.testBit 4, beatTick := s.tick }
      let s1 := s.setProc right { u1 with echo := some ⟨pktNat packet 4 2, s.nowNs⟩ }
      let s2 := (s1.setFld advA (prcF right PRC_NBR_L_POSN) (pktNat packet 6 1)).setFld advA (prcF right PRC_NBR_L_PKG) (k % 16)
      let s3 := if run = 3 && !s2.flag advA (prcF right PRC_STATUS_L_WIRING_ERR) then
          s2.setFlag advA (prcF right PRC_STATUS_L_UP) true else s2
      if s3.prcUp right then (s3.measure right packet).showUpstream else s3

/-! ### The mirrored pair (R477 to R482) -/

/-- The half takes over (R480): ACTIVE and ROLE follow, REQ = 2 goes out, CAUSE 0x32. -/
def State.takeover (s : State) (byLoss : Bool) : State :=
  let s1 := ((s.setFlag advA PAIR_STATUS_ROLE true).setFlag advA PAIR_STATUS_BY_LOSS byLoss).record 0 0x32 0 (srcOf 0 0x01 0) 0
    (info8 1)
  let s2 := s1.incFld advA PAIR_STATUS_HANDOVERS 1
  (s2.withPair { s2.pair with req := 2, due := true })
/-- The half may take over: a pair, standby, its own PKG_FAULT clear (R480). -/
def State.mayTake (s : State) : Bool := s.paired && !s.active && !s.flag (fltA 0) FLT_STATUS_PKG_FAULT
/-- The half becomes standby. -/
def State.stepDown (s : State) : State :=
  let s1 := (s.setFlag advA PAIR_STATUS_ROLE false).setFlag advA PAIR_STATUS_BY_LOSS false
  let s2 := s1.setFlag advA PAIR_CTRL_HANDOVER false
  (s2.withPair { s2.pair with yielding := false, req := 0, due := true })

/-- The neighbour on a port is the mirrored partner. -/
def State.partnerOn (s : State) (right : Bool) : Bool :=
  s.paired && s.fld advA (prcF right PRC_NBR_L_POSN) = s.fld advA ADV_SYSCFG_PARTNER_POSN

/-- PORT_LOST: 150 us without a valid heartbeat on an UP port (R386, R480, R482). -/
def execPortLost (right : Bool) (s : State) : Out3 :=
  onLive s fun s =>
    if !s.prcUp right || decide (s.tick < (s.proc right).beatTick + usTicks 150) then s
    else
      let s1 := (s.setFlag advA (prcF right PRC_STATUS_L_UP) false).setFlag advA (prcF right PRC_STATUS_L_LOST) true
      let s2 := s1.setProc right { s1.proc right with run := 0, time := none }
      let s3 := (s2.record 0 0x22 1 (srcOf 0 0x01 0) 0 (s2.fld advA (prcF right PRC_NBR_L_PKG) * 2 ^ 8 +
        s2.fld advA (prcF right PRC_NBR_L_POSN) * 2 ^ 12 + b2n right * 2 ^ 16)).showUpstream
      if !s3.partnerOn right then s3
      else if s3.flag advA PAIR_STATUS_PARTNER_ACTIVE && s3.mayTake then s3.takeover true
      else s3.setFlag advA PAIR_STATUS_PARTNER_OK false

/-- The port by which the partner is reached: its own, else the other way round the ring. -/
def State.partnerPort (s : State) : Option Bool :=
  let near (r : Bool) : Bool := s.prcUp r && s.partnerOn r
  if near false then some false else if near true then some true
  else if s.prcUp false then some false else if s.prcUp true then some true else none

/-- HEALTH (Table 22-4). -/
def State.health (s : State) : Nat :=
  b2n (s.flag (fltA 0) FLT_STATUS_PKG_FAULT) + 2 * b2n (s.flag (fltA 0) FLT_STATUS_DEGRADED) + 4 * b2n (s.flag thmA THM_STATUS_LIMIT) +
    8 * b2n s.maint

/-- PAIR_PACKET_SEND: every 1 ms, and at once on a change (R478). A REQ of 2 is said once. -/
def execPairPacketSend (s : State) : Out3 :=
  onLive s fun s =>
    if !s.paired then s
    else
      match s.partnerPort with
      | none => s
      | some r =>
        let q := (s.pair.seq + 1) % 2 ^ 16
        let head (h : Nat) : List Byte :=
          toBytes 4 (s.fld (headA h) HEAD_FRAME_FRAME) ++ toBytes 4 (((s.head h).cam).getD 0)
        let p := prcPacket 0x42 s.pair.partner (toBytes 2 q ++
          toBytes 1 (b2n s.active + 2 * s.fld advA PAIR_STATUS_BY_LOSS) ++ toBytes 1 s.health ++ toBytes 1 s.pair.req ++
          toBytes 3 0 ++ toBytes 4 s.adv.imgCrc ++ head 0 ++ head 1 ++ head 2 ++ head 3)
        (s.withPair { s.pair with seq := q, due := false, req := if s.pair.req = 2 then 0 else s.pair.req }).prcEmit r p

/-- Both halves are active (R481): the half that became active by loss yields; both so, the higher package number. -/
def State.bothActive (s : State) (partnerByLoss : Bool) : State :=
  let mine := s.flag advA PAIR_STATUS_BY_LOSS
  if mine && (!partnerByLoss || decide (s.myPkg > s.pair.partner)) then s.stepDown else s

/-- PAIR_PACKET_RECEIVE: a PAIR packet for this package comes in (R479 to R481). -/
def execPairPacketReceive (right : Bool) (packet : List Byte) (s : State) : Out3 :=
  onLive s fun s =>
    if !s.prcOn right || !(s.proc right).aligned then s
    else if !prcGood packet ∨ packet.length ≠ 52 then s.prcBad
    else if pktNat packet 0 1 ≠ 0x42 ∨ pktNat packet 2 2 ≠ s.myPkg ∨ !s.paired then s
    else
      let role := pktNat packet 6 1
      let health := pktNat packet 7 1
      let req := pktNat packet 8 1
      let frames (o : Nat) : List Nat := (List.range 4).map (fun n => pktNat packet (16 + 8 * n + o) 4)
      let s1 := ((s.setFlag advA PAIR_STATUS_PARTNER_OK true).setFlag advA PAIR_STATUS_PARTNER_ACTIVE (role.testBit 0)).setFlag advA
        PAIR_STATUS_PARTNER_FAULT (health.testBit 0)
      let s2 := (s1.withPair { s1.pair with heard := true, lastTick := s1.tick, hframe := frames 0, cframe := frames 4 })
      let differs := decide (pktNat packet 12 4 ≠ s2.adv.imgCrc)
      let s3 := if differs && !s2.flag advA PAIR_STATUS_PAIR_MISMATCH then
          (s2.setFlag advA PAIR_STATUS_PAIR_MISMATCH true).record 0 0x33 1 (srcOf 0 0x01 0) 0 0
        else s2
      if (req = 1 || health.testBit 0) && s3.mayTake then s3.takeover false
      else if req = 2 && s3.pair.yielding then s3.stepDown
      else if s3.active && role.testBit 0 then s3.bothActive (role.testBit 1)
      else s3

/-- PAIR_PACKET_TIMEOUT: no PAIR packet for 2 ms. -/
def execPairPacketTimeout (s : State) : Out3 :=
  onLive s fun s => if s.tick < s.pair.lastTick + usTicks 2000 then s else s.setFlag advA PAIR_STATUS_PARTNER_OK false

/-- A write of PAIR_CTRL: HANDOVER on the active half of a pair asks the partner to take over (R480). -/
def pairCtrl (c : WCtx) (a : Nat) (v m : Word) (s : State) : State × WRes :=
  let p := s.genWrite c a v (m &&& ~~~ (wd PAIR_CTRL_HANDOVER.mask))
  if (v &&& m).toNat.testBit 2 && p.1.paired && p.1.active && !p.1.pair.yielding then
    ((p.1.setFlag advA PAIR_CTRL_HANDOVER true).askYield, p.2)
  else p

/-- HANDOVER_REQUEST: a write of PAIR_CTRL with HANDOVER = 1 and the other fields as they are. -/
def execHandoverRequest (r : Req) (s : State) : Out3 :=
  onLive s fun s => (pairCtrl (ctxOf r) (advA + PAIR_CTRL) (s.rd (advA + PAIR_CTRL) ||| 4) 0xFFFFFFFF s).1

/-- HANDOVER_TIMEOUT: no REQ = 2 within 1 ms of the request (R480). -/
def execHandoverTimeout (s : State) : Out3 :=
  onLive s fun s =>
    if s.pair.yielding && decide (s.pair.askTick + usTicks 1000 ≤ s.tick) then
      let s1 := (s.withPair { s.pair with yielding := false, req := 0, due := true })
      (s1.setFlag advA PAIR_CTRL_HANDOVER false).record 0 0x33 1 (srcOf 0 0x01 0) 0 (info8 1)
    else s

/-! ### Forwarding (R384) -/

/-- PROCESSION_FORWARD: a packet for another package goes on out of the opposite port; one that this package sent ends here; one
with a bad CRC or a reserved type is discarded and counted. -/
def execProcessionForward (right : Bool) (packet : List Byte) (s : State) : Out3 :=
  onLive s fun s =>
    if !s.prcOn right || !(s.proc right).aligned then s
    else if !prcGood packet then s.prcBad
    else
      let dest := pktNat packet 2 2
      let own := pktNat packet 0 1 = 0x42 && s.paired && decide (dest = s.pair.partner)
      if dest = 0xFFFF ∨ dest = s.myPkg ∨ own ∨ !s.prcUp (!right) then s else s.prcEmit (!right) packet

/-! ### Time over the link (R407, R408) -/

/-- This package leads time. -/
def State.leads (s : State) : Bool := s.flag advA ADV_SYSID_LEADER

/-- TIME_PACKET_SEND: every 1 ms on an UP port. What the leader's steward firmware knows of the grandmaster is a free value; a
follower passes on what its upstream told. -/
def execTimePacketSend (right : Bool) (s : State) : Out3 :=
  onLive s fun s =>
    if !s.prcUp right then s
    else
      let pkt (hops state domain gm cls utc : Nat) : List Byte :=
        prcPacket 0x43 0xFFFF (toBytes 1 s.time.leader ++ toBytes 1 hops ++ toBytes 1 state ++ toBytes 1 domain ++ toBytes 8 gm ++
          toBytes 1 cls ++ toBytes 1 0 ++ toBytes 2 utc ++ toBytes 4 0)
      if s.leads then
        let gm := (s.fresh 64).toNat
        let s1 := s.usedFree
        let cls := (s1.fresh 8).toNat
        s1.usedFree.prcEmit right (pkt 0 (1 + 2 * b2n (decide (s.timeSrc = 1)) + 4 * b2n s.holdover)
          (s.fld timeA (domF DOM_CTRL_DOMAIN_NUM s.activeDom)) gm cls (s.fld timeA TIME_UTC_UTC_OFS))
      else
        let t := (s.upstream.bind (fun r => (s.proc r).time)).getD ⟨0, 0, 0, 0, 0, 0, 0⟩
        s.prcEmit right (pkt (s.fld timeA TIME_PRC_HOPS) (s.fld timeA TIME_STATUS_LOCKED + t.state / 2 % 4 * 2) t.domain t.gm
          t.clockClass t.utc)

/-- TIME_PACKET_RECEIVE: a TIME packet comes in at an UP port (R407). -/
def execTimePacketReceive (right : Bool) (packet : List Byte) (s : State) : Out3 :=
  onLive s fun s =>
    if !s.prcUp right then s
    else if !prcGood packet ∨ packet.length ≠ 28 then s.prcBad
    else if pktNat packet 0 1 ≠ 0x43 then s
    else
      let t : TimePkt := ⟨pktNat packet 4 1, pktNat packet 5 1, pktNat packet 6 1, pktNat packet 7 1, pktNat packet 8 8,
        pktNat packet 16 1, pktNat packet 18 2⟩
      (s.setProc right { s.proc right with time := some t
                                           timeTick := if t.leader = s.time.leader then s.tick else (s.proc right).timeTick }).showUpstream

/-- The lowest of some package numbers. -/
def lowest : List Nat → Option Nat
  | [] => none
  | a :: t => match lowest t with | none => some a | some b => some (min a b)

/-- A TIME packet of the leader came within the last 5 ms at an UP port (R408). -/
def State.leaderSeen (s : State) : Bool :=
  [false, true].any fun r => s.prcUp r && decide (s.tick < (s.proc r).timeTick + usTicks 5000)

/-- LEADER_TIMEOUT: no TIME packet from the leader for 5 ms. `reach`: the packages that can be reached, and whether each is locked
to PTP (R408). -/
def execLeaderTimeout (reach : List (Nat × Bool)) (s : State) : Out3 :=
  onLive s fun s =>
    if s.timeSrc ≠ 2 ∨ s.leads ∨ s.leaderSeen then s
    else
      let ptp := s.usable 0 || s.usable 1
      let all := (s.myPkg, ptp) :: reach
      let new := match lowest ((all.filter (·.2)).map (·.1)) with
        | some k => k
        | none => (lowest (all.map (·.1))).getD s.myPkg
      let s1 := (s.withTime { s.time with leader := new }).incFld timeA TIME_PRC_CNT_LEADER_CHG 1
      let s2 := s1.setFlag advA ADV_SYSID_LEADER (decide (new = s.myPkg))
      if new = s.myPkg then
        (if ptp then s2.setSrc 1 else s2.setFld timeA TIME_CTRL_SRC 0)
      else s2.showUpstream

end Sys2Proof.Machine
end

