-- ==== Sys2Proof/Machine/TimeCmds.lean ====
section
/-! DEFINITION. The commands of the time unit (R389 to R396). -/
namespace Sys2Proof.Machine

/-- TIME_TICK: n TMC ticks pass (R390). -/
def execTimeTick (n : Nat) (s : State) : Out3 := onLive s fun s => s.ticks n
/-- TIME_READ_LATCH: a read of TIME_RD_NS (R391). -/
def execTimeReadLatch (_r : Req) (s : State) : Out3 :=
  onLive s fun s => match timeRead TIME_RD_NS s with | some p => p.2.answerWith p.1 | none => s
/-- TIME_STEP: a write of GO (R392). -/
def execTimeStep (r : Req) (s : State) : Out3 :=
  onLive s fun s => (timeWrite (ctxOf r) TIME_SET_CTL (timeA + TIME_SET_CTL) 1 0xFFFFFFFF s).1
/-- SLEW_WRITE: a write of TIME_SLEW (R393). -/
def execSlewWrite (r : Req) (value : Word) (s : State) : Out3 :=
  onLive s fun s => (timeWrite (ctxOf r) TIME_SLEW (timeA + TIME_SLEW) value 0xFFFFFFFF s).1
/-- SOURCE_SELECT: a write of the byte that holds SRC and ACTIVE, with a new SRC (R394). -/
def execSourceSelect (r : Req) (src : BitVec 2) (s : State) : Out3 :=
  onLive s fun s =>
    let a := timeA + TIME_CTRL
    (timeWrite (ctxOf r) TIME_CTRL a (putFld (s.rd a) TIME_CTRL_SRC src.toNat) 0xFF s).1
/-- ACTIVE_WRITE: a write of the byte that holds SRC and ACTIVE, with a new ACTIVE (R396). -/
def execActiveWrite (r : Req) (active : Bool) (s : State) : Out3 :=
  onLive s fun s =>
    let a := timeA + TIME_CTRL
    (timeWrite (ctxOf r) TIME_CTRL a (putFld (s.rd a) TIME_CTRL_ACTIVE (b2n active)) 0xFF s).1
/-- DOMAIN_UPDATE: a write of UPD (R395). -/
def execDomainUpdate (r : Req) (d : Fin 2) (s : State) : Out3 :=
  onLive s fun s => (timeWrite (ctxOf r) (DOM_UPD + 0x10 * d) (timeA + DOM_UPD + 0x10 * d) 1 0xFFFFFFFF s).1
/-- DOMAIN_LOST: a write of LOST (R395). -/
def execDomainLost (r : Req) (d : Fin 2) (s : State) : Out3 :=
  onLive s fun s =>
    let a := timeA + DOM_CTRL + 0x10 * d.val
    (timeWrite (ctxOf r) (DOM_CTRL + 0x10 * d) a (s.rd a ||| 0x40000000) 0xFFFFFFFF s).1
/-- DOMAIN_CONTROL_WRITE: a write of DOMd_CTRL (R396). -/
def execDomainControlWrite (r : Req) (d : Fin 2) (value : Word) (s : State) : Out3 :=
  onLive s fun s => (timeWrite (ctxOf r) (DOM_CTRL + 0x10 * d) (timeA + DOM_CTRL + 0x10 * d) value 0xFFFFFFFF s).1
/-- STALE_MS have passed since a tracker's last UPD; one without an UPD is STALE (R395). -/
def State.domAged (s : State) (d : Nat) : Bool :=
  s.flag timeA (domF DOM_UPD_STALE d) ||
    decide ((s.dom d).upd32 + (s.fld timeA (domF DOM_CTRL_STALE_MS d) * 1000000 * 2 ^ 32 : Nat) ≤ s.now32)
/-- DOMAIN_STALE: STALE_MS have passed since the last UPD (R395). -/
def execDomainStale (d : Fin 2) (s : State) : Out3 :=
  onLive s fun s => if s.domAged d then (s.setFlag timeA (domF DOM_UPD_STALE d) true).checkDomain else s

end Sys2Proof.Machine
end

