-- ==== Sys2Proof/Machine/CtlBlocks.lean ====
section
/-! DEFINITION. Registers of TOP, ADV, FAB, BRG, FLT and IRQ, and the interrupt router (R22, R41, R54, R507 to R511). -/
namespace Sys2Proof.Machine

/-- A read that has a value and a state of its own, or none: the register is read by its access codes. -/
abbrev RdRes := Option (Word × State)

/-! ### TOP, ADV -/

/-- TOP_RESET with its key makes a reset due (R506). -/
def topWrite (x : WCtx) (off a : Nat) (v m : Word) (s : State) : State × WRes :=
  if off = TOP_RESET then
    let w := (v &&& m).toNat
    okW (if bits w 31 16 = 0x5254 && w.testBit 0 then (s.withAdv { s.adv with resetDue := true }) else s)
  else s.genWrite x a v m

/-- GO of ADV_HOSTGO: the image is to be read from host memory. -/
def State.hostGo (s : State) : State :=
  if s.adv.hostRead then s else ((s.setFlag advA ADV_HOSTGO_GO true).withAdv { s.adv with hostRead := true })
/-- Writes of ADV registers. -/
def advWrite (x : WCtx) (off a : Nat) (v m : Word) (s : State) : State × WRes :=
  if 0x008 ≤ off ∧ off ≤ 0x014 then
    (if !s.hostLoad then okW s
     else if off = ADV_HOSTGO then okW (if (v &&& m).toNat.testBit 0 then s.hostGo else s)
     else s.genWrite x a (if off = ADV_HOSTADDR_LO then v &&& ~~~ (0xF : Word) else v) m)
  else if off = PAIR_CTRL then pairCtrl x a v m s
  else if off = PRC_CTRL then
    let (s1, r) := s.genWrite x a v m
    (s1.quadsFollow, r)
  else s.genWrite x a v m

/-! ### FAB -/

/-- The head that is the enabled source of a stream (R508). -/
def State.headSource (s : State) (sid : Nat) : Option Nat :=
  (List.range 4).find? (fun h => s.flag (headA h) HEAD_CTRL_EN && s.fld (headA h) HEAD_SID_STREAM_ID = sid)
/-- A stream's class, or any slot, has been written (R41). -/
def State.clearAdmitted (s : State) (p : Nat → Bool) : State :=
  (s.withFab { s.fab with admitted := s.fab.admitted.filter (fun k => !p k) })

/-- FAB_SCLS: the class of stream SID (R507). -/
def State.classStore (s : State) (x : WCtx) (a : Nat) (v m : Word) : State × WRes :=
  let i := s.fld fabA FAB_SIDX_SID
  let s1 := s.advance fabA 1024 FAB_SIDX_SID
  if i = 1023 then okW s1
  else
    let new := ((s.tget .fabClass 0 i &&& ~~~ m) ||| (v &&& m)) &&& 3
    let s2 := (s1.tset .fabClass 0 i new).clearAdmitted (fun k => k % 2048 = i)
    okW (if x.journal then s2.journal (alEntry a i) 3 new else s2)

/-- A write of C0_STREAMn, judged by R54. A rejected write counts as no write for R41's second record
(notes/assumptions/73.md). -/
def State.c0Write (s : State) (x : WCtx) (n a : Nat) (v m : Word) : State × WRes :=
  let w := ((s.rd a &&& ~~~ m) ||| (v &&& m)).toNat
  let head := bits w 25 24
  let taken := (List.range 4).any (fun k => k ≠ n && s.flag fabA (C0_STREAM_EN.nth 4 k) && s.fld fabA (C0_STREAM_HEAD.nth 4 k) = head)
  if w.testBit 31 && (taken || decide (bits w 19 16 > 8)) then
    refusedW (s.record 0 0x03 1 (srcOf 0 0x03 0) 0 (info8 (bits w 9 0)))
  else
    let (s1, r) := s.genWrite x a v m
    (s1.clearAdmitted (fun _ => true), r)

/-- A write of FAB_INJ_CTL of a channel (R508). -/
def State.injControl (s : State) (x : WCtx) (k a : Nat) (v m : Word) : State × WRes :=
  let f (g : Fld) : Nat := s.fld fabA (g.nth 0x10 k)
  let err (t : State) (b : Bool) : State := t.setFlag fabA (FAB_INJ_CTL_ERR.nth 0x10 k) b
  let w := ((s.rd a &&& ~~~ m) ||| (v &&& m)).toNat
  if f FAB_INJ_CTL_GO = 1 then
    if bits w 19 16 = f FAB_INJ_CTL_COUNT ∧ bits w 9 0 = f FAB_INJ_CTL_STREAM_ID then
      okW (if (v &&& m).toNat.testBit 30 then err s false else s)
    else refusedW (err s true)
  else
    let (s1, r) := s.genWrite x a v m
    if !(v &&& m).toNat.testBit 31 then (s1, r)
    else if (s1.camSource (bits w 9 0)).isSome || (s1.headSource (bits w 9 0)).isSome then
      ((s1.withFab { s1.fab with inject := s1.fab.inject ++ [(k, x.r)] }), r)
    else (err (s1.setFlag fabA (FAB_INJ_CTL_GO.nth 0x10 k) false) true, .refused)

/-- A write of a channel's index or staging word. -/
def State.injStage (s : State) (x : WCtx) (k reg a : Nat) (v m : Word) : State × WRes :=
  if s.flag fabA (FAB_INJ_CTL_GO.nth 0x10 k) then refusedW (s.setFlag fabA (FAB_INJ_CTL_ERR.nth 0x10 k) true)
  else if reg = 4 then s.genWrite x a v m
  else
    let i := s.fld fabA (FAB_INJ_IDX_INDEX.nth 0x10 k)
    okW ((s.tset .inject k i ((s.tget .inject k i &&& ~~~ m) ||| (v &&& m))).advance fabA 64 (FAB_INJ_IDX_INDEX.nth 0x10 k))

/-- Writes of FAB registers. -/
def fabWrite (x : WCtx) (off a : Nat) (v m : Word) (s : State) : State × WRes :=
  if off = FAB_SCLS then
    let (s1, r) := s.classStore x a v m
    (s1.class0Check, r)
  else if C0_STREAM ≤ off ∧ off < C0_STREAM + 16 then
    let (s1, r) := s.c0Write x ((off - C0_STREAM) / 4) a v m
    (s1.class0Check, r)
  else if 0x10 ≤ off ∧ off < 0x50 then
    let k := (off - 0x10) / 16
    match (off - 0x10) % 16 with
    | 0 => s.injControl x k a v m
    | 4 => s.injStage x k 4 a v m
    | 8 => s.injStage x k 8 a v m
    | _ => s.genWrite x a v m
  else s.genWrite x a v m
/-- Reads of FAB registers: the windows, and C0_BOUNDn. -/
def fabRead (off : Nat) (s : State) : RdRes :=
  if off = FAB_SCLS then
    let i := s.fld fabA FAB_SIDX_SID
    some (if i = 1023 then 0 else s.tget .fabClass 0 i, s.advance fabA 1024 FAB_SIDX_SID)
  else if C0_BOUND ≤ off ∧ off < C0_BOUND + 16 then some (wd (s.c0Bound ((off - C0_BOUND) / 4)), s)
  else if 0x10 ≤ off ∧ off < 0x50 ∧ (off - 0x10) % 16 = 8 then
    let k := (off - 0x10) / 16
    let f := FAB_INJ_IDX_INDEX.nth 0x10 k
    some (s.tget .inject k (s.fld fabA f), s.advance fabA 64 f)
  else none

/-! ### BRG -/

/-- Replays of a bridge within the last 1 ms. -/
def State.replayTimes (s : State) (k : Nat) : List Nat :=
  (UMap.get (fun _ => []) s.fab.replays k).filter (fun t => decide (s.tick < t + usTicks 1000))
/-- WINDOW of a bridge: it moves on until the bridge is retired. -/
def State.replayWindow (s : State) (g b : Nat) : Nat :=
  if (s.fld (brgA g) BRG_STATUS_RETIRED).testBit b then s.fld (brgA g) (BRG_REPLAY_WINDOW.nth 4 b)
  else min 16 (s.replayTimes (8 * g + b)).length
/-- Reads of BRG registers: WINDOW follows time; the bytes carried in the last 1 ms are free values, 0 for a retired bridge. -/
def brgRead (g off : Nat) (s : State) : RdRes :=
  if 0x20 ≤ off ∧ off < 0x40 then
    let b := (off - 0x20) / 4
    let w := putFld (s.rd (brgA g + off)) (BRG_REPLAY_WINDOW.nth 4 b) (s.replayWindow g b)
    some (w, s.wr (brgA g + off) (w &&& 0xFFFF))
  else if 0x40 ≤ off ∧ off < 0x80 then
    let b := (off - 0x40) / 4 % 8
    if (s.fld (brgA g) BRG_STATUS_RETIRED).testBit b then some (0, s) else some (s.fresh 32, s.usedFree)
  else none

/-! ### FLT -/

/-- Writes of FLT registers of a die (R471, R509). -/
def fltWrite (x : WCtx) (die off a : Nat) (v m : Word) (s : State) : State × WRes :=
  let b := fltA die
  if off = FLT_TEST then
    let w := (v &&& m).toNat
    okW (s.record die (bits w 31 24) (bits w 23 21) x.r.src 0 0)
  else if off = FLT_CTRL then
    let (s1, r) := s.genWrite x a (v &&& ~~~ (1 : Word)) m
    (if (v &&& m).toNat.testBit 0 then
      (((s1.setFlag b FLT_STATUS_VALID false).setFlag b FLT_STATUS_NESTED false).setFld b FLT_STATUS_COUNT 0).setFld b
        FLT_STATUS_SEV_MAX 0
     else s1, r)
  else s.genWrite x a v m
/-- A word of a record. -/
def FaultRec.word (r : FaultRec) (i : Nat) : Word := match i with | 0 => r.w0 | 1 => r.w1 | 2 => r.w2 | _ => r.w3
/-- Reads of the log window: entry 0 is the newest. -/
def fltRead (die off : Nat) (s : State) : RdRes :=
  if off = FLT_LOGDATA then
    let i := s.fld (fltA die) FLT_LOGIDX_INDEX
    some ((((s.flt.log die)[i / 4]?).map (fun r => r.word (i % 4))).getD 0, s.advance (fltA die) 128 FLT_LOGIDX_INDEX)
  else none

/-! ### Interrupt sources (R510, Table 24-3) -/

/-- The registers of a source instance, with the bits that raise its line and the register that enables them. -/
structure IrqReg where
  addr : Nat
  mask : Word
  en : Option Nat
  deriving DecidableEq, Repr

def w1cReg (a : Nat) : IrqReg := ⟨a, (infoAt a).w1c, none⟩
def fldReg (b : Nat) (f : Fld) : IrqReg := ⟨b + f.off, wd f.mask, none⟩
/-- The registers behind a SOURCE; none for a number that names no source. -/
def irqRegs (source : Nat) : List IrqReg :=
  let die := source / 16384
  let id := source / 64 % 256
  let i := source % 64
  let base := die * 0x1000000 + id * 0x10000 + i * 0x400
  match blkOf die id i with
  | none => []
  | some (b, _) =>
    match b with
    | .flt => [fldReg base FLT_EVT_EVT]
    | .brg => [w1cReg (base + BRG_EVT)]
    | .thm => [w1cReg (base + THM_EVT)]
    | .gpio => [fldReg base AVS_EVT_AVS_ERR]
    | .camp => [w1cReg (base + CAMP_STATUS)]
    | .cal => [w1cReg (base + CAL_STATUS)]
    | .head => [w1cReg (base + HEAD_STATUS)]
    | .tcm => [w1cReg (base + TCM_STATUS)]
    | .prd => [w1cReg (base + PRD_STATUS)]
    | .dmc => [w1cReg (base + DMC_EVT)]
    | .dch => [fldReg base DCH_STATUS_RETRAIN_FAIL]
    | .dmag => [⟨base + DMA_DONE, 0xFFFFFFFF, some (base + DMA_DONE_EN)⟩, ⟨base + DMA_ERR, 0xFFFFFFFF, some (base + DMA_ERR_EN)⟩]
    | .nvt => [w1cReg (base + NVT_EVT)]
    | .nvh => [fldReg base NVH_ERR_CAUSE]
    | .time => [fldReg base TIME_STATUS_EQUINOX]
    | .eth => [w1cReg (base + ETH_EVT)]
    | .adv => [w1cReg (base + PRC_STATUS), w1cReg (base + PAIR_STATUS)]
    | .audp => [w1cReg (base + AUDP_STATUS)]
    | .axis => [w1cReg (base + AXIS_STATUS)]
    | .emu => [w1cReg (base + EMU_STATUS)]
    | .twc => [w1cReg (base + TWC_STATUS)]
    | .twt => [w1cReg (base + TWT_STATUS)]
    | .vcc =>
      if die = 1 ∧ i = 0 then
        [⟨base + VCC_EVT_LO, 0xFFFFFFFF, none⟩, ⟨base + VCC_EVT_HI, 0xFFFFFFFF, none⟩, ⟨base + VCC_ERR_LO, 0xFFFFFFFF, none⟩,
          ⟨base + VCC_ERR_HI, 0xFFFFFFFF, none⟩]
      else []
    | .eng => [w1cReg (base + ENG_EVT)]
    | _ => []

/-- A source with its line. -/
def isSource (source : Nat) : Bool := decide (source < 49152) && irqRegs source ≠ []
def State.line (s : State) (source : Nat) : Bool :=
  (irqRegs source).any (fun r => (s.rd r.addr &&& r.mask &&& (match r.en with | some e => s.rd e | none => 0xFFFFFFFF)) != 0)

/-- Every source, in ascending order. -/
def allSources : List Nat :=
  ([0, 1, 2].flatMap (fun d => (List.range 256).flatMap (fun id =>
    match blkOf d id 0, blkOf d id 63 with
    | none, none => []
    | _, _ => (List.range 64).map (fun i => srcOf d id i)))).filter isSource

/-- A route (R511): EN, MSIX, STEW, BC, VECTOR. -/
def State.route (s : State) (source : Nat) : Word := s.tget .route 0 source
def routeBit (w : Word) (f : Fld) : Bool := bits w.toNat f.hi f.lo != 0
/-- A message of a route goes out (R511). -/
def State.sendRoute (s : State) (source : Nat) : State :=
  let w := s.route source
  if routeBit w IRQ_RDATA_EN && routeBit w IRQ_RDATA_MSIX && s.pcieUp then
    (s.msix (bits w.toNat 7 0)).incFld irqA IRQ_SENT_MESSAGES 1
  else s
def State.markLine (s : State) (source : Nat) (up : Bool) : State :=
  (s.withLinesUp (if up then (if s.linesUp.contains source then s.linesUp else source :: s.linesUp)
                      else s.linesUp.filter (· ≠ source)))

/-- After a write of a register: where it belongs to a source, a line that stays 1 makes a further message, and one that fell
may rise again (R511). -/
def State.irqAfter (s : State) (a : Nat) : State :=
  let source := bits a 27 24 * 16384 + bits a 23 16 * 64 + bits a 15 10
  if (irqRegs source).any (fun r => r.addr = a || r.en == some a) then
    (if s.line source then s.sendRoute source else s.markLine source false)
  else s

/-- Target t of a route: 0 to 3 steward cores, 4 host, 5 board controller. -/
def routeTo (w : Word) (t : Nat) : Bool :=
  routeBit w IRQ_RDATA_EN && (if t < 4 then w.toNat.testBit (20 + t) else if t = 4 then routeBit w IRQ_RDATA_MSIX else routeBit w IRQ_RDATA_BC)
/-- The lowest source that asserts a target. -/
def State.firstFor (s : State) (t : Nat) : Option Nat := allSources.find? (fun k => routeTo (s.route k) t && s.line k)

/-- A write of IRQ_RDATA: enabling a route whose line is 1 counts as a rise (R511). -/
def State.routeStore (s : State) (x : WCtx) (a : Nat) (v m : Word) : State × WRes :=
  let i := s.fld irqA IRQ_RIDX_SOURCE
  let s1 := s.advance irqA 49152 IRQ_RIDX_SOURCE
  if !isSource i then okW s1
  else
    let old := s.route i
    let new := ((old &&& ~~~ m) ||| (v &&& m)) &&& 0x80F180FF
    let s2 := s1.tset .route 0 i new
    let s3 := if x.journal then s2.journal (alEntry a i) 0x80F180FF new else s2
    let on (w : Word) : Bool := routeBit w IRQ_RDATA_EN && routeBit w IRQ_RDATA_MSIX
    okW (if on new && !on old && s3.line i then (s3.sendRoute i).markLine i true else s3)
def irqWrite (x : WCtx) (off a : Nat) (v m : Word) (s : State) : State × WRes :=
  if off = IRQ_RDATA then s.routeStore x a v m else s.genWrite x a v m
def irqRead (off : Nat) (s : State) : RdRes :=
  if off = IRQ_RDATA then
    let i := s.fld irqA IRQ_RIDX_SOURCE
    some (if isSource i then s.route i ||| (if s.line i then 0x40000000 else 0) else 0, s.advance irqA 49152 IRQ_RIDX_SOURCE)
  else if IRQ_FIRST ≤ off ∧ off < IRQ_FIRST + 24 then
    some (match s.firstFor ((off - IRQ_FIRST) / 4) with | some k => wd (0x80000000 + k) | none => 0, s)
  else if off = IRQ_ASSERT then
    some (wd ((List.range 6).foldl (fun n t => n + b2n (s.firstFor t).isSome * 2 ^ t) 0), s)
  else none

/-! ### GPIO, SVC -/

/-- GPIO_IN: the levels at the pins are the board's, free values here. -/
def gpioRead (off : Nat) (s : State) : RdRes :=
  if off = GPIO_IN then some (wd (s.fresh 16).toNat, s.usedFree) else none
/-- SVC registers: the spec gives no fields (R500); a read is a free value (notes/assumptions/9.md). -/
def svcRead (s : State) : RdRes := some (s.fresh 32, s.usedFree)

end Sys2Proof.Machine
end

