-- ==== Sys2Proof/Machine/Control.lean ====
section
/-! DEFINITION. The control space (R30 to R34), control packets at pipes and heads (R26 to R29), memory requests (R35 to R39),
packet routing and bridges (R12, R13), faults of dies, interrupts, and the two-wire target (R451 to R453). -/
namespace Sys2Proof.Machine

/-! ### An access reaches a block -/

/-- The unit's number over both compute dies, `per` on each (R6). -/
def Where.unit (w : Where) (per : Nat) : Nat := (w.die - 1) * per + w.inst

/-- A write of the bits m of a register, by its block. -/
def State.blkWrite (s : State) (x : WCtx) (w : Where) (a : Nat) (v m : Word) : State × WRes :=
  match w.blk with
  | .top => topWrite x w.off a v m s
  | .adv => advWrite x w.off a v m s
  | .alm => almWrite w.off a v m s
  | .fab => fabWrite x w.off a v m s
  | .brg => s.genWrite x a v m
  | .flt => fltWrite x w.die w.off a v m s
  | .thm => thmWrite x w.off a v m s
  | .gpio => s.genWrite x a v m
  | .irq => irqWrite x w.off a v m s
  | .camp => campWrite x w.inst w.off a v m s
  | .cal => calWrite x w.inst w.off a v m s
  | .head => headWrite x w.inst w.off a v m s
  | .tcm => tcmWrite x w.inst w.off a v m s
  | .prd => prdWrite x w.inst w.off a v m s
  | .dch => dchWrite x w.inst w.off a v m s
  | .dmc => dmcWrite x w.off a v m s
  | .dma => dmaWrite x w.inst w.off a v m s
  | .dmag => dmagWrite x w.off a v m s
  | .nvt => nvtWrite x w.off a v m s
  | .nvh => nvhWrite x w.inst w.off a v m s
  | .pcie => pcieWrite x w.off a v m s
  | .quad => quadWrite x w.inst w.off a v m s
  | .eth => ethWrite x w.inst w.off a v m s
  | .time => timeWrite x w.off a v m s
  | .audp => audWrite x w.inst w.off a v m s
  | .axis => axisWrite x w.inst w.off a v m s
  | .emu => emuWrite x w.inst w.off a v m s
  | .twc => twcWrite x w.inst w.off a v m s
  | .twt => s.genWrite x a v m
  | .svc => okW s
  | .pipe => pipeWrite x (w.unit 4) w.off a v m s
  | .mfe => mfeWrite x (w.unit 4) w.off a v m s
  | .vcc => vccWrite x (w.unit 4) w.off a v m s
  | .eng => engWrite x (w.unit 8) w.off a v m s

/-- A read that a block answers in a way of its own. -/
def State.blkRead (s : State) (w : Where) : RdRes :=
  match w.blk with
  | .top => none | .adv => none | .alm => none
  | .fab => fabRead w.off s
  | .brg => brgRead w.inst w.off s
  | .flt => fltRead w.die w.off s
  | .thm => thmRead w.off s
  | .gpio => gpioRead w.off s
  | .irq => irqRead w.off s
  | .camp => campRead w.inst w.off s
  | .cal => calRead w.inst w.off s
  | .head => headRead w.inst w.off s
  | .tcm => tcmRead w.inst w.off s
  | .prd => none
  | .dch => dchRead w.inst w.off s
  | .dmc => none | .dma => none
  | .dmag => dmagRead w.off s
  | .nvt => nvtRead w.off s
  | .nvh => none | .pcie => none
  | .quad => quadRead w.inst w.off s
  | .eth => none
  | .time => timeRead w.off s
  | .audp => audRead w.inst w.off s
  | .axis => axisRead w.inst w.off s
  | .emu => none | .twt => none
  | .twc => twcRead w.inst w.off s
  | .svc => svcRead s
  | .pipe => pipeRead (w.unit 4) w.off s
  | .mfe => mfeRead (w.unit 4) w.off s
  | .vcc => vccRead (w.unit 4) w.off s
  | .eng => none

/-! ### Accesses (R31 to R34) -/

/-- A write that has reached its die: checked there (R33), and performed. -/
def State.dieWrite (s : State) (x : WCtx) (die shown a : Nat) (v m : Word) : State × WRes :=
  if s.cut x.r.die die then (s.addressError x.r.die x.r shown true, .addrErr)
  else
    match regAt a with
    | none => (s.addressError (if die ≤ 2 then die else 0) x.r shown true, .addrErr)
    | some w =>
      let (s1, r) := s.blkWrite x w a v m
      (s1.irqAfter a, r)

/-- The die field of an address. -/
def dieOf (a : Nat) : Nat := bits a 27 24
/-- A control-space write (R30, R32, R33) of the bits m. -/
def State.ctlWriteM (s : State) (x : WCtx) (a : Nat) (v m : Word) : State × WRes :=
  if dieOf a = 0xF then
    let lo := a % 0x1000000
    let (s1, r1) := s.dieWrite x 1 a (0x1000000 + lo) v m
    let (s2, r2) := s1.dieWrite x 2 a (0x2000000 + lo) v m
    (s2, if r1 = .ok then r2 else r1)
  else s.dieWrite x (dieOf a) a a v m
def State.ctlWrite (s : State) (r : Req) (a : Nat) (v : Word) : State × WRes := s.ctlWriteM ⟨r, .space, true⟩ a v 0xFFFFFFFF

/-- A control-space read: its value and the state after it; the flag is an address error. -/
def State.ctlRead (s : State) (r : Req) (a : Nat) : Word × Bool × State :=
  if dieOf a = 0xF then (0, true, s.addressError 0 r a false)
  else if s.cut r.die (dieOf a) then (0, true, s.addressError r.die r a false)
  else
    match regAt a with
    | none => (0, true, s.addressError (if dieOf a ≤ 2 then dieOf a else 0) r a false)
    | some w =>
      match s.blkRead w with
      | some (v, t) => (v, false, t)
      | none => let (v, t) := s.genRead a; (v, false, t)

/-- A write by command. -/
def State.ctlPut (s : State) (r : Req) (a : Nat) (v : Word) : State := (s.ctlWrite r a v).1
/-- A read by command: the answer is kept. -/
def State.ctlGet (s : State) (r : Req) (a : Nat) : State :=
  let x := s.ctlRead r a
  x.2.2.answerWith x.1

/-- CONTROL_SPACE_WRITE: the low 28 bits of addr are the control-space address. -/
def execControlSpaceWrite (r : Req) (addr : Nat) (value : Word) (s : State) : Out3 :=
  onLive s fun s => s.ctlPut r (addr % 2 ^ 28) value
/-- INVALID_ADDRESS_READ. -/
def execInvalidAddressRead (r : Req) (addr : Nat) (s : State) : Out3 := onLive s fun s => s.ctlGet r (addr % 2 ^ 28)
/-- RC_READ. -/
def execRcRead (r : Req) (addr : Nat) (s : State) : Out3 := onLive s fun s => s.ctlGet r (addr % 2 ^ 28)
/-- WINDOW_READ. -/
def execWindowRead (r : Req) (addr : Nat) (s : State) : Out3 := onLive s fun s => s.ctlGet r (addr % 2 ^ 28)
/-- WINDOW_WRITE. -/
def execWindowWrite (r : Req) (addr : Nat) (value : Word) (s : State) : Out3 :=
  onLive s fun s => s.ctlPut r (addr % 2 ^ 28) value
/-- C0_STREAM_WRITE (R54). -/
def execC0StreamWrite (r : Req) (n : Fin 4) (value : Word) (s : State) : Out3 :=
  onLive s fun s => s.ctlPut r (fabA + C0_STREAM + 4 * n) value
/-- ROUTE_WRITE (R510, R511). -/
def execRouteWrite (r : Req) (value : Word) (s : State) : Out3 := onLive s fun s => s.ctlPut r (irqA + IRQ_RDATA) value
/-- INJECT_CONTROL_WRITE (R508). -/
def execInjectControlWrite (r : Req) (channel : Fin 4) (value : Word) (s : State) : Out3 :=
  onLive s fun s => s.ctlPut r (fabA + FAB_INJ_CTL + 16 * channel) value
/-- FLT_CLEAR: CLR is written (R471); the other fields keep their values. -/
def execFltClear (r : Req) (die : Fin 3) (s : State) : Out3 :=
  onLive s fun s => (s.ctlWriteM ⟨r, .space, true⟩ (fltA die + FLT_CTRL) 1 1).1
/-- FAULT_TEST: a write of FLT_TEST (R509). -/
def execFaultTest (r : Req) (die : Fin 3) (value : Word) (s : State) : Out3 :=
  onLive s fun s => s.ctlPut r (fltA die + FLT_TEST) value
/-- SOFTWARE_RESET: a write of TOP_RESET (R506). -/
def execSoftwareReset (r : Req) (value : Word) (s : State) : Out3 := onLive s fun s => s.ctlPut r (topA + TOP_RESET) value
/-- QUEUE_DOORBELL: a write of ENG_QPTRq of a cluster (R290). -/
def execQueueDoorbell (r : Req) (cluster : Fin 16) (queue : Fin 4) (value : Word) (s : State) : Out3 :=
  onLive s fun s => s.ctlPut r (engA cluster + ENG_QPTR + 4 * queue) value

/-! ### Control packets (R24 to R29) -/

/-- An entry names a register of one of these blocks. One that names a register beyond its block's count names no block on the
path (notes/assumptions/73.md). -/
def entryFor (p : Where → Bool) (e : CtlEntry) : Bool := match regAt e.addr with | some w => p w | none => false
/-- A block applies an entry; a reserved OP is skipped and recorded by the block (R27). -/
def State.applyEntry (s : State) (sid : Nat) (by' : Option Req) (e : CtlEntry) : State :=
  match regAt e.addr with
  | none => s
  | some w =>
    if e.op ≠ 1 ∧ e.op ≠ 2 then s.record w.die 0x04 1 (srcOf w.die (bits e.addr 23 16) w.inst) e.addr (info8 sid)
    else
      let m := if e.op = 2 then e.mask else 0xFFFFFFFF
      ((s.blkWrite ⟨by'.getD .host, .packet, by'.isSome⟩ w e.addr e.value m).1).irqAfter e.addr
/-- The blocks of a unit apply their entries in order; the others remain. -/
def State.applyEntries (s : State) (p : Where → Bool) (sid : Nat) (by' : Option Req) (es : List CtlEntry) : State × List CtlEntry :=
  ((es.filter (entryFor p)).foldl (fun t e => t.applyEntry sid by' e) s, es.filter (fun e => !entryFor p e))

/-- The blocks on a stream's path at a pipe, and at a head that takes it. -/
def atPipe (p : Nat) (w : Where) : Bool := (w.blk = .pipe || w.blk = .mfe) && w.unit 4 = p
def atHead (h : Nat) (w : Where) : Bool := w.blk = .head && w.inst = h
/-- The blocks on the path of a head's own stream. -/
def onHead (h : Nat) (w : Where) : Bool :=
  ((w.blk = .head || w.blk = .tcm) && w.inst = h) || (w.blk = .prd && (w.inst = h || w.inst = h + 4))

/-- A control packet goes on behind the lines of its stream that are still on their way through the pipe's stages (R26). -/
def State.followLines (s : State) (p : Nat) (k : Pkt) : State :=
  match s.slotFor p k.h.sid with
  | none => s.pipeOut p k
  | some j =>
    let x := s.slot p j
    if x.inFrame && decide (x.raw ≠ []) && decide (x.nextS ≤ topRow x.raw) then
      s.setSlot p j { x with behind := x.behind ++ [(topRow x.raw, k)] }
    else s.pipeOut p k
/-- The control packet in front of a pipe: its entries are applied, and the rest travels on in its place in the stream, from a gang
of four with the entries that neither pipe has applied (R26, notes/assumptions/75.md). -/
def State.pipeControl (s : State) (p : Nat) : State :=
  match s.pipeFront p with
  | some ⟨h, .control es by'⟩ =>
    let (s1, rest) := s.applyEntries (atPipe p) h.sid by' es
    let s2 := s1.popPipe p
    if rest = [] && (s2.partner p h.sid).isNone then s2 else s2.followLines p ⟨h, .control rest by'⟩
  | _ => s
/-- The control packet in front of a head: the stream ends there. -/
def State.headControl (s : State) (h : Nat) : State :=
  match (s.head h).inQ with
  | ⟨hd, .control es by'⟩ :: t =>
    let (s1, rest) := (s.setHead h { s.head h with inQ := skipFree t }).applyEntries (atHead h) hd.sid by' es
    s1.consume 0 (srcOf 0 0x20 h) ⟨hd, .control rest by'⟩
  | _ => s
/-- CONTROL_PACKET_APPLY: a control packet has come to the front of a pipe or of a head's direct stream. -/
def execControlPacketApply (u : StreamUnit) (s : State) : Out3 :=
  onLive s fun s => match u with | .pipe p => s.pipeControl p | .head h => s.headControl h

/-- An injection into a head's own stream passes the blocks on its path; the trunk's framer is its final consumer (R27, R508). -/
def State.injectHead (s : State) (h : Nat) (j : Nat × Req) : State :=
  let sid := s.fld (headA h) HEAD_SID_STREAM_ID
  let s1 := (s.setFlag fabA (FAB_INJ_CTL_GO.nth 0x10 j.1) false).admitHead h
  let (s2, rest) := s1.applyEntries (onHead h) sid (some j.2) (s.injEntries j.1)
  match rest with
  | e :: _ => s2.record 0 0x04 1 (srcOf 0 0x22 h) e.addr (info8 sid)
  | [] => s2
/-- CONTROL_PACKET_INJECT: the next boundary between packets of the stream's source has come; without an enabled source nothing is
sent (R508). -/
def execControlPacketInject (channel : Fin 4) (s : State) : Out3 :=
  onLive s fun s =>
    match s.fab.inject.find? (fun j => j.1 = channel.val) with
    | none => s
    | some j =>
      let sid := s.fld fabA (FAB_INJ_CTL_STREAM_ID.nth 0x10 j.1)
      let gone : State := (s.withFab { s.fab with inject := s.fab.inject.filter (fun x => x.1 ≠ j.1) })
      match s.camSource sid, s.headSource sid with
      | some p, _ => if (s.camp p).lineOpen then s else s.injectOne p j
      | none, some h => gone.injectHead h j
      | none, none =>
        (gone.setFlag fabA (FAB_INJ_CTL_GO.nth 0x10 j.1) false).setFlag fabA (FAB_INJ_CTL_ERR.nth 0x10 j.1) true

/-! ### Memory requests (R35 to R39) -/

/-- A read answered: its first four bytes, or poisoned zero. -/
def State.memAnswer (s : State) (b : Option (List Byte)) : State :=
  { s with answer := wd (match b with | some l => leNat (l.take 4) | none => 0), poison := b.isNone }
/-- The die behind an address: DRAM, the outbound window and what is reserved lie at the hub. -/
def memDie (a : Nat) : Nat := match regionOf a with | .cluster k => 1 + k / 8 | _ => 0

/-- A control-space access by its device address: 32 bits and aligned, else an address error (R39), a broadcast write's on each
compute die (R32). -/
def State.memControl (s : State) (r : Req) (write : Bool) (addr len : Nat) (data : List Byte) : State :=
  let a := addr - 0xF000000000
  if len ≠ 4 ∨ addr % 4 ≠ 0 then
    let t :=
      if write && dieOf a = 0xF then (s.addressError 1 r a true).addressError 2 r a true
      else s.addressError (if dieOf a = 1 ∨ dieOf a = 2 then dieOf a else 0) r a write
    if write then t else { t with answer := 0, poison := false }
  else if write then s.ctlPut r a (wd (leNat data))
  else { s.ctlGet r a with poison := false }

/-- The physical bridge that carries a working index. -/
def State.workingBridge (s : State) (die i : Nat) : Nat :=
  let l := (List.range 8).filter (fun b => !(s.fld (brgA die) BRG_STATUS_RETIRED).testBit b)
  (l[i % max 1 l.length]?).getD 0
/-- The bridge that carries a memory request for an address (R12): the hash of its granule gives a working index. -/
def State.memBridge (s : State) (die addr : Nat) : Nat :=
  s.workingBridge die (Config.granuleHash (addr / 256) % max 1 (s.fld (brgA die) BRG_STATUS_WORKING))
/-- A memory request between two dies crosses their bridges, a packet for each granule. -/
def State.crossMem (s : State) (src dst addr len : Nat) : State :=
  let across (t : State) (die : Nat) : State :=
    (List.range ((addr + len + 255) / 256 - addr / 256)).foldl (fun t i =>
      t.emit (.bridge (Fin.ofNat 2 (die - 1))) (t.memBridge (die - 1) ((addr / 256 + i) * 256)) [(addr / 256 + i) * 256]) t
  if src = dst then s
  else
    let t := if src = 0 then s else across s src
    if dst = 0 then t else across t dst

/-- A read that waits for its completion from the host. -/
def State.pcieAsk (s : State) (q : OutReq) : State := (s.withPcie { s.pcie with outs := s.pcie.outs ++ [q] })
/-- MEMORY_REQUEST: a read of len bytes or a write of data by a fabric master. A read of host memory is answered by its
completion; a request that cannot cross is answered on its own side, a read with poisoned zero and a write with an error (R13). -/
def execMemoryRequest (r : Req) (write : Bool) (addr len : Nat) (data : List Byte) (s : State) : Out3 :=
  onLive s fun s =>
    if regionOf addr = .control then s.memControl r write addr (if write then data.length else len) data
    else if s.cut r.die (memDie addr) then s.memAnswer none
    else
      let t := s.crossMem r.die (memDie addr) addr (if write then data.length else len)
      if write then { (t.busWrite r addr data).2 with poison := false }
      else if regionOf addr = .outbound ∧ (t.hostAddr addr).isSome ∧ t.pcieUp then
        (t.emit .pcie 2 [(t.hostAddr addr).getD 0, len]).pcieAsk ⟨r, addr, len⟩
      else
        let x := t.busRead r addr len
        x.2.memAnswer x.1

/-! ### Packets and bridges (R12, R13, R22) -/

/-- STREAM_PACKET_ROUTE: a packet crosses to a compute die, or from it to the hub, at its configured class, on the working bridge
of its stream; with no working bridge it is discarded. The die that it leaves sees a class that differs (R22). -/
def execStreamPacketRoute (p : Pkt) (die : Fin 2) (toHub : Bool) (s : State) : Out3 :=
  onLive s fun s =>
    if p.h.sid ≥ 1023 then s
    else
      let cls := (s.tget .fabClass 0 p.h.sid).toNat % 4
      let saw := if toHub then 1 + die.val else 0
      let s1 := if p.h.cls ≠ cls then s.record saw 0x03 1 (srcOf saw 0x03 0) 0 (info8 p.h.sid) else s
      let s2 := s1.admitStream p.h.sid (srcOf 0 0x03 0)
      let n := s2.fld (brgA die) BRG_STATUS_WORKING
      if n = 0 then s2
      else s2.emit .stream (8 * die + s2.workingBridge die (p.h.sid % n)) [p.h.sid, s2.classOf p.h.sid, p.h.toNat]

/-- A bridge is retired (R13). -/
def State.retireBridge (s : State) (g b : Nat) : State :=
  let a := brgA g
  let n := s.fld a BRG_STATUS_WORKING - 1
  let s1 := (((s.setBit a BRG_STATUS_RETIRED b true).setBit a BRG_STATUS_UP b false).setFld a BRG_STATUS_WORKING n).setFlag a
    BRG_EVT_RETIRE true
  let s2 := (s1.setFld a (BRG_REPLAY_WINDOW.nth 4 b) 16).record 0 0x10 2 (srcOf 0 0x04 g) 0 (info8 b)
  if n = 5 then (s2.setFlag a BRG_EVT_DIE_FAULT true).dieFault (1 + g) 1 else s2
/-- BRIDGE_REPLAY: a packet is replayed; 16 replays within 1 ms retire the bridge. -/
def execBridgeReplay (brg : Fin 2) (bridge : Fin 8) (s : State) : Out3 :=
  onLive s fun s =>
    let k := 8 * brg.val + bridge.val
    if (s.fld (brgA brg) BRG_STATUS_RETIRED).testBit bridge then s
    else
      let l := (s.tick :: s.replayTimes k).take 16
      let s1 : State := (s.withFab { s.fab with replays := UMap.set (fun _ => []) s.fab.replays k l })
      let s2 := (s1.incFld (brgA brg) (BRG_REPLAY_REPLAYS.nth 4 bridge) 1).setFld (brgA brg) (BRG_REPLAY_WINDOW.nth 4 bridge) l.length
      if l.length ≥ 16 then s2.retireBridge brg bridge else s2

/-! ### Faults of dies (Table 22-6) -/

/-- DIE_NO_RESPONSE: no answer from a compute die's control space for 1 ms. -/
def execDieNoResponse (die : Fin 2) (s : State) : Out3 := onLive s fun s => s.dieFault (1 + die) 4
/-- PLL_LOSS_OF_LOCK. -/
def execPllLossOfLock (pll : Pll) (s : State) : Out3 :=
  onLive s fun s =>
    match pll with
    | .hubHub => s.dieFault 0 5
    | .hubPix => s.dieFault 0 6
    | .pix d => s.dieFault (1 + d) 2
    | .eng d => s.dieFault (1 + d) 3
/-- HUB_PARITY_ERROR. -/
def execHubParityError (s : State) : Out3 := onLive s fun s => s.dieFault 0 7

/-- IRQ_LINE_RISE: a source's line has risen; its route's message goes out (R511). -/
def execIrqLineRise (source : Nat) (s : State) : Out3 :=
  onLive s fun s =>
    if isSource source && s.line source && !s.linesUp.contains source then (s.sendRoute source).markLine source true else s

/-! ### The two-wire target (R451 to R453) -/

def State.twtOn (s : State) : Bool := s.flag twtA TWT_CTRL_EN
def State.setTwt (s : State) (t : Twt) : State := { s with twt := t }
/-- Byte i of a word, and a word with byte i replaced. -/
def byteOf (w : Word) (i : Nat) : Byte := BitVec.ofNat 8 (w.toNat / 256 ^ i)
def putByte (w : Word) (i : Nat) (b : Byte) : Word := putFld w ⟨0, 8 * i + 7, 8 * i⟩ b.toNat

/-- TWT_POINTER_WRITE: the first byte of a write transfer sets P. -/
def execTwtPointerWrite (pointer : BitVec 8) (s : State) : Out3 :=
  onLive s fun s =>
    if s.twtOn then s.setTwt { s.twt with pointer := pointer.toNat % 16, partialData := s.twt.winData } else s
/-- TWT_WIN_WRITE: a further byte goes to P, and P moves on. Byte 0x7 starts the write of WIN_DATA; it waits while an earlier
access is not performed. -/
def execTwtWinWrite (data : Byte) (s : State) : Out3 :=
  onLive s fun s =>
    let t := s.twt
    let p := t.pointer
    let t1 : Twt := { t with pointer := (p + 1) % 16 }
    if !s.twtOn then s
    else if p < 4 then s.setTwt { t1 with winAddr := putByte t.winAddr p data }
    else if p < 7 then s.setTwt { t1 with partialData := putByte t.partialData (p - 4) data }
    else if p = 7 then
      (if t.job.isSome then s
       else
        let w := putByte t.partialData 3 data
        s.setTwt { t1 with partialData := w, winData := w, job := some (.write w) })
    else if p = 8 then s.setTwt { t1 with inc := data.toNat.testBit 0 }
    else s.setTwt t1
/-- TWT_WIN_READ: a byte is read at P. Byte 0x4 starts a read of WIN_ADDR and is answered when it is done. -/
def execTwtWinRead (s : State) : Out3 :=
  onLive s fun s =>
    let t := s.twt
    let p := t.pointer
    let t1 : Twt := { t with pointer := (p + 1) % 16 }
    if !s.twtOn then s
    else if p = 4 then (if t.job.isSome then s else s.setTwt { t with job := some .read })
    else
      let b : Nat := if p < 4 then (byteOf t.winAddr p).toNat else if p < 8 then (byteOf t.winData (p - 4)).toNat
        else if p = 8 then b2n t.inc else if p = 9 then b2n t.job.isSome + 2 * b2n t.err else 0
      (s.setTwt t1).answerWith (wd b)

/-- An access has ended: counted, ERR, and WIN_ADDR moves on. -/
def State.twtEnd (s : State) (bad : Bool) : State :=
  let t := s.twt
  let s1 := s.setTwt { t with job := none, err := bad, winAddr := if t.inc then t.winAddr + 4 else t.winAddr }
  let s2 := s1.incFld twtA TWT_CNT_ACCESSES 1
  if bad then (s2.incFld twtA TWT_CNT_ERRORS 1).setFlag twtA TWT_STATUS_WIN_ERR true else s2
/-- Byte 0x4 goes out with what a read found. -/
def State.twtGive (s : State) (v : Word) : State :=
  (s.setTwt { s.twt with winData := v, partialData := v, pointer := if s.twt.pointer = 4 then 5 else s.twt.pointer }).answerWith (wd (byteOf v 0).toNat)
/-- TWT_ACCESS_DONE: the access is performed as the board controller (R452). -/
def execTwtAccessDone (s : State) : Out3 :=
  onLive s fun s =>
    let a := s.twt.winAddr.toNat % 2 ^ 28
    match s.twt.job with
    | none => s
    | some (.write v) =>
      let x := s.ctlWrite .board a v
      x.1.twtEnd (x.2 = .addrErr || x.2 = .locked)
    | some .read =>
      let x := s.ctlRead .board a
      (x.2.2.twtGive x.1).twtEnd x.2.1
/-- TWT_READ_TIMEOUT: a read has not completed within 1 ms: zero is returned, and ERR is set. -/
def execTwtReadTimeout (s : State) : Out3 :=
  onLive s fun s =>
    match s.twt.job with
    | some .read =>
      let s1 := (s.twtGive 0).setTwt { (s.twtGive 0).twt with job := none, err := true }
      ((s1.incFld twtA TWT_CNT_ACCESSES 1).incFld twtA TWT_CNT_ERRORS 1).setFlag twtA TWT_STATUS_WIN_ERR true
    | _ => s
/-- TWT_RESTART: a repeated START where an ACK was due discards the partial transfer. -/
def execTwtRestart (s : State) : Out3 :=
  onLive s fun s =>
    if s.twtOn then (s.setTwt { s.twt with partialData := s.twt.winData }).setFlag twtA TWT_STATUS_RSTART_ACK true else s

end Sys2Proof.Machine
end

