-- ==== Sys2Proof/Machine/Reset.lean ====
section
/-! DEFINITION. Reset, maintenance entry and the entry to A7 (R59, R71, R74, R458, R492, R506). -/
namespace Sys2Proof.Machine

/-- What PORST_N low leaves (R492): the commands that wait outside, host memory, what the flash journal holds durably, and the
trip latch. -/
def State.afterReset (s : State) : State :=
  let a := s.alm
  let t : State := { State.reset with pending := s.pending, hostMem := s.hostMem, free := s.free, sent := s.sent
                                      alm := { toAlmFlash := a.toAlmFlash, place := a.place, others := a.others } }
  t.withThm { t.thm with tripped := s.thm.tripped }

/-- POWER_ON_RESET: PORST_N goes low. -/
def execPowerOnReset (s : State) : Out3 := .next s.afterReset
/-- SUPPLY_REMOVAL: every rail is off, VDD_AON with them: the trip latch clears too (R458). -/
def execSupplyRemoval (s : State) : Out3 := .next (s.afterReset.withThm {})

/-! ### Entering a phase -/

def State.setPhase (s : State) (n : Nat) : State := s.setFld advA ADV_STATUS_PHASE n
/-- Lane training begins (R71, R377): every quad that is to be in L0 leaves Vesper, the others enter their state. -/
def State.startLanes (s : State) : State :=
  (List.range 16).foldl (fun t q =>
    let w := t.powerWanted q
    if w ≠ 0 then t.enterLow q w
    else if t.flag (quadA q) QUAD_STATUS_PLL_LOCK then t.trainLanes q [0, 1, 2, 3]
    else
      let t1 := t.leaveLow q
      t1.setQuad q { t1.quad q with fromVesper := true }) s
/-- Every trunk shows its transmitter, and heads that are enabled begin, in maintenance state all of them (R71, R74). -/
def State.startHeads (s : State) : State :=
  let s1 := (List.range 8).foldl (fun t n => t.showTx n) s
  (List.range 4).foldl (fun t h => if t.flag (headA h) HEAD_CTRL_EN || t.maint then t.headStart h .first else t) s1
/-- A7 (R71). -/
def State.enterA7 (s : State) : State := (s.setPhase 7).startHeads
/-- Maintenance state (R74): PHASE stays. Before A3, lanes train with the values then in force; from A2 on the ALM block works on
the partition that the image names (notes/assumptions/22.md); every trunk sends black. -/
def State.enterMaint (s : State) (cause : Nat) : State :=
  if s.maint then s
  else
    let s1 := (s.setFlag advA ADV_STATUS_MAINT true).setFld advA ADV_STATUS_CAUSE cause
    let s2 := match s1.adv.partition with | some p => s1.usePartition p | none => s1
    (if s2.phase < 3 then s2.startLanes else s2).startHeads

/-- The straps are latched and A0 begins (R59, Table 3-1); modes 3 and 5 to 7 are maintenance by strap. -/
def State.outOfReset (s : State) (bootmode posn : Nat) : State :=
  let s1 : State := (s.withAdv { s.adv with porst := true })
  let s2 := (s1.setFld topA TOP_STRAP_POSN posn).setFld topA TOP_STRAP_BOOTMODE bootmode
  if bootmode = 3 ∨ 5 ≤ bootmode then s2.enterMaint 1 else s2

/-- RESET_RELEASE: PORST_N rises. A device that has tripped stays stopped (R458). -/
def execResetRelease (bootmode : Fin 8) (posn : Fin 16) (s : State) : Out3 :=
  .next ((if s.adv.porst || s.thm.tripped then s else s.outOfReset bootmode posn).withQueue s.pending)
/-- SOFTWARE_RESET_START: 10 us after TOP_RESET was written: as PORST_N low and high again, but SW is set (R506). -/
def execSoftwareResetStart (bootmode : Fin 8) (posn : Fin 16) (s : State) : Out3 :=
  onLive s fun s =>
    if s.adv.resetDue then (s.afterReset.setFlag topA TOP_RSTCAUSE_SW true).outOfReset bootmode posn else s

/-! ### A0 (R71, R506) -/

/-- A register for each word of a list. -/
def State.wrWords (s : State) : Nat → List Word → State
  | _, [] => s
  | a, w :: t => State.wrWords (s.wr a w) (a + 4) t
/-- The registers of a die's fuses. -/
def State.showDie (s : State) (d : Nat) (f : DieFuses) : State :=
  ((s.wrWords (topA + TOP_LOT_LO + 0x20 * d) [wd f.lot, wd (f.wafer % 32 * 2 ^ 16 + f.lot / 2 ^ 32 % 2 ^ 16),
    wd (f.bin % 16 * 2 ^ 16 + f.y % 256 * 2 ^ 8 + f.x % 256)])).wrWords (topA + TOP_DSER_LO + 0x20 * d) [wd f.serial, wd (f.serial / 2 ^ 32)]
/-- Every fused register. -/
def State.showFuses (s : State) (f : Fuses) : State :=
  let s1 := ((s.setFld topA TOP_ID_STEPPING f.stepping).setFld topA TOP_SERIAL_LO_SERIAL f.serial).setFld topA
    TOP_SERIAL_HI_SERIAL (f.serial / 2 ^ 32)
  let s2 := (s1.setFlag topA TOP_FUSE_LOCK_IMAGE f.lockImage).wrWords (topA + TOP_KEYHASH) (f.keyHash.take 12)
  let s3 := ((s2.showDie 0 f.hub).showDie 1 f.c0).showDie 2 f.c1
  ((s3.wr (pcieA + PCIE_ID) f.pcieId).setFld thmA THM_OPPT_ENG_BIN_C0 f.engBinC0).setFld thmA THM_OPPT_ENG_BIN_C1 f.engBinC1

/-- The first voltage request of each compute die (R489). -/
def State.firstAvs (s : State) : State :=
  if s.flag gpioA AVS_CTRL_AVS_EN then (s.avsAsk 0 8 none).avsAsk 1 8 none else s
/-- FUSE_READ_DONE: A0 ends. A fuse read error holds the device in A0 with FAULT_N asserted. -/
def execFuseReadDone (ok : Bool) (fuses : Fuses) (s : State) : Out3 :=
  onLive s fun s =>
    if s.phase ≠ 0 || s.adv.fuseErr || s.adv.fused then s
    else if !ok then (s.withAdv { s.adv with fuseErr := true })
    else
      let s1 := ((s.withAdv { s.adv with fuses := fuses, fused := true }).showFuses fuses).firstAvs
      if s1.maint then s1 else s1.setPhase 1

end Sys2Proof.Machine
end

