-- ==== Sys2Proof/Machine/Advent.lean ====
section
/-! DEFINITION. Advent A1 to A4: slots, host images, and the records of the image (R60 to R70, R297, R253, R514, R515). -/
namespace Sys2Proof.Machine

def State.setAdv (s : State) (a : Adv) : State := (s.withAdv a)
def State.bootmode (s : State) : Nat := s.fld topA TOP_STRAP_BOOTMODE

/-! ### A1 (R60, R64 to R69) -/

/-- Slot B comes first in normal mode (R67). -/
def bFirst (a b : SlotHdr) : Bool :=
  if a.ok && b.ok then (if a.dormant = b.dormant then decide (b.generation > a.generation) else a.dormant)
  else b.ok && !a.ok

/-- FLASH_DISCOVERY_DONE: SFDP is read; the slot to check first follows from BOOTMODE and the headers. -/
def execFlashDiscoveryDone (capacity : Nat) (octal : Bool) (headerA headerB : List Byte) (s : State) : Out3 :=
  onLive s fun s =>
    if s.adv.found || !(s.phase = 1 || s.maint) then s
    else
      let a := slotHdr headerA
      let b := slotHdr headerB
      let first := if s.bootmode = 0 then bFirst a b else decide (s.bootmode = 2)
      (s.setAdv { s.adv with found := true, flashCap := capacity, slotA := a, slotB := b, checking := first }).setFlag advA
        ADV_STATUS_SLOW_FLASH (!octal)

/-- A valid image provides what A1 keeps (R69), and A2 begins. -/
def State.takeImage (s : State) (j : Judged) (img : List Byte) : State :=
  ((s.setAdv { s.adv with crcs := j.crcs, partition := j.part, imgCrc := fieldAt img 60 4 }).setFlag advA ADV_STATUS_SIG_OK j.sig).setPhase 2

/-- SLOT_CHECK_DONE: the slot at hand is judged (R64, R65, R67). -/
def execSlotCheckDone (image : List Byte) (s : State) : Out3 :=
  onLive s fun s =>
    if s.phase ≠ 1 || s.maint || !s.adv.found || decide (s.bootmode > 2) then s
    else
      let b := s.adv.checking
      let j := s.judgeSlot b image
      if j.valid then (s.setFlag advA ADV_STATUS_SLOT b).takeImage j image
      else if s.bootmode = 0 && !s.adv.second then
        (s.setAdv { s.adv with checking := !b, second := true }).setFlag advA ADV_STATUS_ALT_SLOT true
      else s.enterMaint 2

/-- HOST_LOAD_GO: GO of ADV_HOSTGO is written. -/
def execHostLoadGo (r : Req) (s : State) : Out3 := onLive s fun s => s.ctlPut r (advA + ADV_HOSTGO) 1
/-- HOST_IMAGE_READ_DONE: the ADV_HOSTLEN bytes at ADV_HOSTADDR have been read from host memory and are judged (R68). `failed`: a
completion failed or did not come, and no image is there. -/
def execHostImageReadDone (failed : Bool) (s : State) : Out3 :=
  onLive s fun s =>
    if !s.adv.hostRead || !s.hostLoad then s
    else
      let at' := (s.rd (advA + ADV_HOSTADDR_LO)).toNat / 16 * 16 + (s.rd (advA + ADV_HOSTADDR_HI)).toNat * 2 ^ 32
      let img := if failed then [] else s.hostBytes at' (s.fld advA ADV_HOSTLEN_LENGTH)
      let a := s.adv
      let flash := (if a.slotA.ok then [(0, a.slotA.length)] else []) ++
        (if a.slotB.ok then [(slotStart a.flashCap true, a.slotB.length)] else [])
      let j := judgeImage a.fuses a.flashCap flash img
      let s1 := (s.setAdv { a with hostRead := false }).setFlag advA ADV_HOSTGO_GO false
      if j.valid then (s1.setFlag advA ADV_STATUS_HOSTLOAD true).takeImage j img else s1.enterMaint 2

/-! ### Which records run (R63, R66) -/

/-- Records are being walked: A2 or A4, and no Poll record runs. -/
def State.walking (s : State) : Bool := !s.maint && (s.phase = 2 || s.phase = 4) && s.adv.poll.isNone
/-- A record is met: it is skipped by a Conditional record, or runs where its pass is now. -/
def State.meet (s : State) (mine : Bool) (f : State → State) : State :=
  if !s.walking then s
  else if 0 < s.adv.skip then s.setAdv { s.adv with skip := s.adv.skip - 1 }
  else if mine then f s else s
/-- The pass of a register-type record. -/
def State.passOf (s : State) (late : Bool) : Bool := decide (s.phase = (if late then 4 else 2))
/-- An error counts in REC_ERRS. -/
def State.recErr (s : State) : State := s.incFld advA ADV_STATUS_REC_ERRS 1
/-- A failed record is counted and logged (R515). -/
def State.recFail (s : State) (target : Nat) : State := s.recErr.record 0 0x05 1 (srcOf 0 0x01 0) target 0

/-- A word of a record is written as Advent; a target beyond 28 bits is an address error. -/
def State.imgWrite (s : State) (a : Nat) (v m : Word) : State × Bool :=
  if m == 0 then (s, true)
  else
    let x := s.ctlWriteM ⟨.advent, .image, false⟩ a v m
    (x.1, x.2 == .ok)
def State.imgWrites (s : State) : Nat → List Word → State × Bool
  | _, [] => (s, true)
  | a, w :: t =>
    let x := s.imgWrite a w 0xFFFFFFFF
    let y := State.imgWrites x.1 (a + 4) t
    (y.1, x.2 && y.2)

/-- REGISTER_WRITE_RECORD. -/
def execRegisterWriteRecord (late : Bool) (target : Nat) (words : List Word) (s : State) : Out3 :=
  onLive s fun s => s.meet (s.passOf late) fun s =>
    let x := s.imgWrites target words
    if x.2 then x.1 else x.1.recFail target
/-- MASKED_REGISTER_WRITE_RECORD. -/
def execMaskedRegisterWriteRecord (late : Bool) (target : Nat) (value mask : Word) (s : State) : Out3 :=
  onLive s fun s => s.meet (s.passOf late) fun s =>
    let x := s.imgWrite target value mask
    if x.2 then x.1 else x.1.recFail target

/-! ### Poll records (R514) -/

/-- One read of a Poll record: none where it is an address error. -/
def State.pollRead (s : State) (target : Nat) : Option Word × State :=
  let x := s.ctlRead .advent target
  (if x.2.1 then none else some x.1, x.2.2)
def pollHit (value mask v : Word) : Bool := v &&& mask == value &&& mask
/-- A Poll record ends without success. -/
def State.pollFail (s : State) (target : Nat) : State := (s.setAdv { s.adv with poll := none }).recFail target
/-- TIMEOUT has passed since the first read. -/
def State.pollOver (s : State) (p : PollRun) : Bool := decide (p.started + usTicks p.timeoutUs < s.tick)

/-- POLL_RECORD: the first read. -/
def execPollRecord (late : Bool) (target : Nat) (value mask : Word) (timeoutUs : Nat) (s : State) : Out3 :=
  onLive s fun s => s.meet (s.passOf late) fun s =>
    let t := min timeoutUs 1000000
    let x := s.pollRead target
    match x.1 with
    | none => x.2.recFail target
    | some v =>
      if pollHit value mask v then x.2
      else if t = 0 then x.2.recFail target
      else x.2.setAdv { x.2.adv with poll := some ⟨target, value, mask, x.2.tick, t⟩ }
/-- POLL_REREAD: every 10 us. -/
def execPollReread (s : State) : Out3 :=
  onLive s fun s =>
    match s.adv.poll with
    | none => s
    | some p =>
      if s.pollOver p then s.pollFail p.target
      else
        let x := s.pollRead p.target
        match x.1 with
        | none => x.2.pollFail p.target
        | some v => if pollHit p.value p.mask v then x.2.setAdv { x.2.adv with poll := none } else x.2
/-- POLL_TIMEOUT. -/
def execPollTimeout (s : State) : Out3 :=
  onLive s fun s => match s.adv.poll with | none => s | some p => s.pollFail p.target

/-! ### Records of both passes -/

/-- The value that SELECTOR chooses (Table 3-4); none for a reserved one. -/
def State.selector (s : State) (n : Nat) : Option Nat :=
  let f := s.adv.fuses
  match n with
  | 0 => some s.bootmode
  | 1 => some s.myPosn
  | 2 => some f.stepping
  | 3 => some (min f.c0.bin f.c1.bin)
  | 4 => some (f.serial % 2 ^ 32)
  | 5 => some (f.serial / 2 ^ 32 % 2 ^ 32)
  | 6 => some (if s.phase = 2 then 0 else s.fld dmcA DMC_CHCFG_CHANNELS)
  | _ => none
/-- CONDITIONAL_RECORD (R66). -/
def execConditionalRecord (selector : Nat) (mask matched : Word) (skip : Nat) (s : State) : Out3 :=
  onLive s fun s => s.meet true fun s =>
    match s.selector selector with
    | some v => if wd v &&& mask == matched then s else s.setAdv { s.adv with skip := skip }
    | none =>
      let s1 := s.setAdv { s.adv with skip := skip }
      if s.phase = 2 then s1.recErr else s1
/-- UNKNOWN_RECORD (R64): counted as the A2 pass meets it. -/
def execUnknownRecord (s : State) : Out3 := onLive s fun s => s.meet (s.phase = 2) State.recErr

/-- A record of A1: it acts while A1 keeps the image's records, and is passed over afterwards. -/
def State.meetA1 (s : State) (f : State → State) : State := if s.phase = 1 && !s.maint then f s else s.meet false id
/-- ALMANAC_PARTITION_RECORD (R76): the partition is named where it meets R64. The extents are those of the slots' headers. -/
def execAlmanacPartitionRecord (offset size epoch : Nat) (s : State) : Out3 :=
  onLive s fun s => s.meetA1 fun s =>
    let a := s.adv
    let images := (if a.slotA.ok then [(0, a.slotA.length)] else []) ++
      (if a.slotB.ok then [(slotStart a.flashCap true, a.slotB.length)] else [])
    if partOk a.flashCap offset size images then s.setAdv { a with partition := some (offset, size, epoch) } else s
/-- SIGNATURE_RECORD (R65): the result shows in SIG_OK. -/
def execSignatureRecord (key sigR sigS covered : List Byte) (s : State) : Out3 :=
  onLive s fun s => s.meetA1 fun s =>
    s.setFlag advA ADV_STATUS_SIG_OK (signatureOk (s.adv.fuses.keyHash.flatMap (fun w => toBytes 4 w.toNat)) key sigR sigS covered)
/-- END_RECORD (R64, R71): the walk ends; after A2, A3 begins with its training. -/
def execEndRecord (s : State) : Out3 :=
  onLive s fun s =>
    if !s.walking then s
    else
      let s1 := s.setAdv { s.adv with skip := 0 }
      if s.phase = 2 then (s1.setPhase 3).startLanes else s1

/-! ### Loads of A4 (R69, R70) -/

/-- A load record: its payload is checked against the CRC of A1; a mismatch is an A4 failure. -/
def State.loadRec (s : State) (payload : List Byte) (f : State → State) : State :=
  if !s.walking then s
  else if s.phase = 2 then s.meet false id
  else
    match s.adv.crcs with
    | [] => s.meet false id
    | c :: t =>
      let s1 := s.setAdv { s.adv with crcs := t }
      if 0 < s.adv.skip then s1.meet false id
      else if c ≠ crc32c payload then s1.enterMaint 4
      else f s1

/-- BLOCK_LOAD_RECORD. -/
def execBlockLoadRecord (target : Nat) (data : List Byte) (s : State) : Out3 :=
  onLive s fun s => s.loadRec data fun s => (s.busWrite .advent target data).2

/-- Words of bytes, lowest first. -/
def wordsOf (b : List Byte) (n : Nat) : List Word := (List.range n).map (fun i => wd (leNat ((b.drop (4 * i)).take 4)))
/-- Tile records from a tile on. -/
def State.storeTiles (s : State) (h tile : Nat) (data : List Byte) : Nat → State
  | 0 => s
  | n + 1 => State.storeTiles (s.storeTile h tile (wordsOf data 64)).1 h (tile + 1) (data.drop 256) n
/-- TILE_CALIBRATION_LOAD_RECORD (R515). -/
def execTileCalibrationLoadRecord (target : Nat) (data : List Byte) (s : State) : Out3 :=
  onLive s fun s => s.loadRec data fun s =>
    let off := target % 2 ^ 20
    if target ≥ 2 ^ 22 ∨ off % 256 ≠ 0 ∨ data.length % 256 ≠ 0 ∨ off + data.length > 2 ^ 20 then s.recFail target
    else s.storeTiles (bits target 21 20) (off / 256) data (data.length / 256)

/-- A memory that holds the bytes from address 0. -/
def bytesMap (b : List Byte) : UMap Byte := ((List.range b.length).zip b).filter (fun e => e.2 ≠ 0)
/-- The payload of Table 3-7 passes every check of R70. -/
def svfwOk (p : List Byte) : Bool :=
  let i := fieldAt p 12 4
  let d := fieldAt p 16 4
  let e := fieldAt p 20 4
  decide (32 ≤ p.length) && p.take 4 = [0x53, 0x56, 0x46, 0x57] && fieldAt p 4 2 = 1 && fieldAt p 6 2 = 1 &&
    decide (i % 4 = 0 ∧ i ≤ 262144 ∧ d ≤ 262144) && decide (p.length = 32 + i + d) && decide (e % 4 = 0 ∧ e < i) &&
    fieldAt p 24 4 = crc32c (p.drop 32)
/-- A steward core is given a payload; a later record decides again (R70). Where it is refused, no firmware is loaded, and
ADV_STEW_FWIDk reads 0 (notes/assumptions/22.md). -/
def State.loadSteward (s : State) (k : Fin 4) (p : List Byte) : State :=
  if svfwOk p then
    let i := fieldAt p 12 4
    let u : EngU := { imem := bytesMap ((p.drop 32).take i), dmem := bytesMap (p.drop (32 + i)), loaded := true, entry := fieldAt p 20 4 }
    ((s.setCore (.steward k) u).setBit advA ADV_STEW_FW_BAD k false).wr (advA + ADV_STEW_FWID + 4 * k) (wd (fieldAt p 8 4))
  else ((s.setCore (.steward k) {}).setBit advA ADV_STEW_FW_BAD k true).wr (advA + ADV_STEW_FWID + 4 * k) 0
/-- STEWARD_FIRMWARE_RECORD. -/
def execStewardFirmwareRecord (cores : BitVec 4) (payload : List Byte) (s : State) : Out3 :=
  onLive s fun s => s.loadRec payload fun s =>
    ([0, 1, 2, 3] : List (Fin 4)).foldl (fun (t : State) (k : Fin 4) => if cores.getLsbD k.val then t.loadSteward k payload else t) s

/-- The payload of Table 12-4 passes every check. -/
def wrfwOk (p : List Byte) : Bool :=
  let i := fieldAt p 12 4
  let d := fieldAt p 16 4
  let c := fieldAt p 20 4
  let o := fieldAt p 24 4
  decide (32 ≤ p.length) && p.take 4 = [0x57, 0x52, 0x46, 0x57] && fieldAt p 4 2 = 1 && fieldAt p 6 2 = 1 &&
    decide (i % 4 = 0 ∧ i ≤ 65536 ∧ d ≤ 131072 ∧ o % 64 = 0 ∧ o + c ≤ 2097152) && decide (p.length = 32 + i + d + c) &&
    fieldAt p 28 4 = crc32c (p.drop 32)
/-- A cluster is given a payload: the images go to its engines and its memory, or FW_BAD is set (R297). -/
def State.loadCluster (s : State) (c : Nat) (p : List Byte) : State :=
  if wrfwOk p then
    let i := fieldAt p 12 4
    let d := fieldAt p 16 4
    let im := bytesMap ((p.drop 32).take i)
    let dm := bytesMap ((p.drop (32 + i)).take d)
    let s1 := (List.range 8).foldl (fun (t : State) n => t.setCore (engOf c n) { t.eng c n with imem := im, dmem := dm, stale := [] }) s
    let s2 := s1.setMemBytes (clusterAddr c (fieldAt p 24 4)) (p.drop (32 + i + d))
    ((s2.setFlag (engA c) ENG_STATUS_FW_BAD false).setFld (engA c) ENG_FWID_FW_ID (fieldAt p 8 4)).showCluster c
  else (s.setFlag (engA c) ENG_STATUS_FW_BAD true).showCluster c
/-- ENGINE_FIRMWARE_RECORD. -/
def execEngineFirmwareRecord (clusters : BitVec 16) (payload : List Byte) (s : State) : Out3 :=
  onLive s fun s => s.loadRec payload fun s =>
    (List.range 16).foldl (fun t c => if clusters.getLsbD c then t.loadCluster c payload else t) s
/-- CODEC_FIRMWARE_RECORD (R253). -/
def execCodecFirmwareRecord (cores : BitVec 8) (payload : List Byte) (s : State) : Out3 :=
  onLive s fun s => s.loadRec payload fun s =>
    (List.range 8).foldl (fun t v => if cores.getLsbD v then t.loadCore v payload else t) s

end Sys2Proof.Machine
end

