-- ==== Sys2Proof/Machine/Homecoming.lean ====
section
/-! DEFINITION. Homecoming (R83 to R85, R387, R388, R394, R477): the census token, package numbers, the time leader, the pair. -/
namespace Sys2Proof.Machine

/-! ### Tokens (R387) -/

/-- An entry of a census token. -/
structure TokEntry where
  posn : Nat
  pkg : Nat
  pair : Bool
  serial : Nat
  lot : Nat
  wafer : Nat
  x : Nat
  y : Nat
  deriving DecidableEq, Repr

/-- A census token. -/
structure Token where
  pass : Nat
  turns : Nat
  entries : List TokEntry
  deriving DecidableEq, Repr

/-- The rank of an entry as one number: POSN, lot, wafer, die X, die Y. -/
def TokEntry.rank (e : TokEntry) : Nat := (((e.posn * 2 ^ 48 + e.lot) * 256 + e.wafer) * 256 + e.x) * 256 + e.y
def TokEntry.bytes (e : TokEntry) : List Byte :=
  toBytes 1 e.posn ++ toBytes 1 e.pkg ++ toBytes 1 (b2n e.pair) ++ toBytes 1 0 ++ toBytes 8 e.serial ++ toBytes 6 e.lot ++
    toBytes 1 e.wafer ++ toBytes 1 e.x ++ toBytes 1 e.y ++ toBytes 11 0
def tokEntryAt (p : List Byte) (o : Nat) : TokEntry :=
  { posn := pktNat p o 1, pkg := pktNat p (o + 1) 1, pair := (pktNat p (o + 2) 1).testBit 0, serial := pktNat p (o + 4) 8
    lot := pktNat p (o + 12) 6, wafer := pktNat p (o + 18) 1, x := pktNat p (o + 19) 1, y := pktNat p (o + 20) 1 }
def Token.packet (t : Token) : List Byte :=
  prcPacket 0x41 0xFFFF (toBytes 1 t.pass ++ toBytes 1 t.entries.length ++ toBytes 1 t.turns ++ toBytes 9 0 ++
    t.entries.flatMap TokEntry.bytes)
/-- The token of a packet; none where its length is not that of its entries, or it has none. -/
def tokenOf (p : List Byte) : Option Token :=
  let n := pktNat p 5 1
  if pktNat p 0 1 ≠ 0x41 ∨ n = 0 ∨ p.length ≠ 20 + 32 * n then none
  else some ⟨pktNat p 4 1, pktNat p 6 1, (List.range n).map (fun i => tokEntryAt p (16 + 32 * i))⟩

/-- The package's own entry. -/
def State.ownEntry (s : State) : TokEntry :=
  let f := s.adv.fuses
  { posn := s.myPosn, pkg := if s.flag advA ADV_SYSID_VALID then s.myPkg else 0xFF, pair := s.flag advA ADV_SYSCFG_PAIR_EN
    serial := f.serial % 2 ^ 64, lot := f.hub.lot % 2 ^ 48, wafer := f.hub.wafer % 256, x := f.hub.x % 256, y := f.hub.y % 256 }
/-- The same package. -/
def TokEntry.same (a b : TokEntry) : Bool := a.rank = b.rank && a.serial = b.serial

/-- Packages of the pair or a single one: COUNT, 0 taken as 1. -/
def State.sysCount (s : State) : Nat := max 1 (s.fld advA ADV_SYSCFG_COUNT)
/-- The package takes part in the census: A5 is complete. -/
def State.inCensus (s : State) : Bool := !s.maint && decide (6 ≤ s.phase) && decide (1 < s.sysCount)
/-- A token leaves by the port opposite to the one it came by, or turns back (R387). -/
def State.passOn (s : State) (cameRight : Bool) (t : Token) : State :=
  if s.prcUp (!cameRight) then s.prcEmit (!cameRight) t.packet
  else s.prcEmit cameRight { t with turns := (t.turns + 1) % 256 }.packet
/-- A token starts out of the right port, or out of the left port where the right one is not UP. -/
def State.sendOut (s : State) (t : Token) : State :=
  if s.prcUp true then s.prcEmit true t.packet else if s.prcUp false then s.prcEmit false t.packet else s

/-! ### Numbers (R83 step 4, R85) -/

/-- The lowest package number not in a list. -/
def lowestFree (used : List Nat) : Nat := ((List.range 16).find? (fun n => !used.contains n)).getD 15
/-- Entries in ascending rank. -/
def insertRank (e : TokEntry) : List TokEntry → List TokEntry
  | [] => [e]
  | w :: t => if e.rank ≤ w.rank then e :: w :: t else w :: insertRank e t
def sortRank : List TokEntry → List TokEntry
  | [] => []
  | e :: t => insertRank e (sortRank t)
/-- The numbers of entries in rank order: those assigned stay, the others take the lowest free one. -/
def numbersFor : List TokEntry → List Nat → List (TokEntry × Nat)
  | [], _ => []
  | e :: t, used =>
    if e.pkg ≠ 0xFF then (e, e.pkg) :: numbersFor t used
    else
      let n := lowestFree used
      (e, n) :: numbersFor t (n :: used)
/-- The origin fills PKG; the entries keep their places. -/
def fillPkg (l : List TokEntry) : List TokEntry :=
  let given := numbersFor (sortRank l) ((l.filter (fun e => e.pkg ≠ 0xFF)).map (·.pkg))
  l.map (fun e => match given.find? (fun g => g.1.same e) with | some g => { e with pkg := g.2 } | none => e)

/-- A package takes its number, and what the pass says of the others. -/
def State.takeNumbers (s : State) (l : List TokEntry) : State :=
  match l.find? (fun e => e.same s.ownEntry) with
  | none => s
  | some e =>
    let s1 := if s.flag advA ADV_SYSID_VALID then s
      else (s.setFld advA ADV_SYSID_PKG_NUM e.pkg).setFlag advA ADV_SYSID_VALID true
    let s2 := s1.setFld advA ADV_SYSID_PRESENT (l.foldl (fun m x => m ||| 2 ^ (x.pkg % 16)) 0)
    (s2.withAdv { s2.adv with known := l.map (fun x => (x.pkg, x.posn, x.pair)) })

/-! ### Steps 5 to 7 (R83, R394, R477) -/

/-- The time leader: the lowest-numbered package locked to PTP, or package 0; every package sets SRC (R394). -/
def State.setLeader (s : State) (locked : List Nat) : State :=
  let mine := s.usable 0 || s.usable 1
  let lead := (lowest ((locked.filter (· ≠ s.myPkg)) ++ (if mine then [s.myPkg] else []))).getD 0
  let s1 := (s.withTime { s.time with leader := lead }).setFlag advA ADV_SYSID_LEADER (decide (lead = s.myPkg))
  if lead = s.myPkg then s1.setSrc (if mine then 1 else 0) else s1.setSrc 2
/-- A neighbour on an UP port stands at the configured partner's POSN (R388). -/
def State.nextToPartner (s : State) : Bool :=
  [false, true].any (fun r => s.prcUp r && s.fld advA (prcF r PRC_NBR_L_POSN) = s.fld advA ADV_SYSCFG_PARTNER_POSN)
/-- The pair is confirmed, and the active half chosen (R84, R388, R477). -/
def State.confirmPair (s : State) (partnerPrefers : Bool) : State :=
  let want := s.fld advA ADV_SYSCFG_PARTNER_POSN
  match s.adv.known.find? (fun (k : Nat × Nat × Bool) => k.2.1 = want && k.2.2 && k.1 ≠ s.myPkg) with
  | none => s
  | some k =>
    if !s.flag advA ADV_SYSCFG_PAIR_EN || !s.nextToPartner then s
    else
      let mine := s.flag advA PAIR_CTRL_PREFER
      let act := if mine = partnerPrefers then decide (s.myPkg < k.1) else mine
      (((s.withPair { s.pair with partner := k.1 }).setFlag advA ADV_SYSID_PAIR_OK true).setFlag advA PAIR_STATUS_ROLE act)
/-- Steps 5 and 6, and the run (R83). -/
def State.comeHome (s : State) (locked : List Nat) (partnerPrefers : Bool) : State :=
  if s.phase ≠ 6 then s else ((s.setLeader locked).confirmPair partnerPrefers).enterA7
/-- The packages configured are present. -/
def State.allHere (s : State) : Bool := decide (s.sysCount ≤ s.adv.known.length)
/-- A second pass has been seen. -/
def State.assigned (s : State) (l : List TokEntry) (locked : List Nat) (partnerPrefers : Bool) : State :=
  let s1 := s.takeNumbers l
  if s1.allHere then s1.comeHome locked partnerPrefers else s1

/-! ### Commands -/

/-- CENSUS_TOKEN_START: every 100 ms, unless a token of a better origin came within the last 100 ms, or all packages are present. A
package with no neighbour is the whole census. -/
def execCensusTokenStart (s : State) : Out3 :=
  onLive s fun s =>
    let seen := match s.adv.better with | some t => decide (s.tick < t + usTicks 100000) | none => false
    if !s.inCensus || s.allHere || seen then s
    else
      let t : Token := ⟨1, 0, [s.ownEntry]⟩
      if s.prcUp true || s.prcUp false then s.sendOut t else s.takeNumbers (fillPkg t.entries)

/-- A pass-1 token has come back to its origin complete: TURNS 0 round a ring, 2 along a chain, 1 where the origin is an end. -/
def State.passComplete (s : State) (t : Token) : Bool :=
  t.turns = 0 || t.turns = 2 || (t.turns = 1 && !(s.prcUp false && s.prcUp true))
/-- A token meets its origin. -/
def State.tokenHome (s : State) (right : Bool) (t : Token) (locked : List Nat) (partnerPrefers : Bool) : State :=
  if !s.passComplete t then s.passOn right t
  else if t.pass ≠ 1 then s
  else
    let l := fillPkg t.entries
    (s.sendOut ⟨2, 0, l⟩).assigned l locked partnerPrefers
/-- A token of a better origin passes. -/
def State.tokenPass (s : State) (right : Bool) (t : Token) (locked : List Nat) (partnerPrefers : Bool) : State :=
  let s1 : State := (s.withAdv { s.adv with better := some s.tick })
  if t.pass = 1 then
    let l := if t.entries.any (fun e => e.same s1.ownEntry) then t.entries else t.entries ++ [s1.ownEntry]
    s1.passOn right { t with entries := l }
  else (s1.passOn right t).assigned t.entries locked partnerPrefers

/-- PROCESSION_CENSUS_RECEIVE: a token comes in by a port. `locked`: the other packages that are locked to PTP; `partnerPrefers`:
PREFER of the configured partner. No packet carries either (notes/assumptions/20.md). -/
def execProcessionCensusReceive (right : Bool) (packet : List Byte) (locked : List Nat) (partnerPrefers : Bool) (s : State) : Out3 :=
  onLive s fun s =>
    if !s.prcOn right || !(s.proc right).aligned then s
    else if !prcGood packet then s.prcBad
    else
      match tokenOf packet with
      | none => s
      | some t =>
        if !s.inCensus then s
        else
          match t.entries.head? with
          | none => s
          | some o =>
            if o.same s.ownEntry then s.tokenHome right t locked partnerPrefers
            else if o.rank > s.ownEntry.rank then s
            else s.tokenPass right t locked partnerPrefers

/-- CENSUS_WAIT_EXPIRY: WAIT_MS has passed since the first pass; the packages present go on (R85). -/
def execCensusWaitExpiry (locked : List Nat) (partnerPrefers : Bool) (s : State) : Out3 :=
  onLive s fun s => if s.inCensus && s.flag advA ADV_SYSID_VALID then s.comeHome locked partnerPrefers else s

end Sys2Proof.Machine
end

