-- ==== Sys2Proof/Machine/Werok.lean ====
section
/-! DEFINITION. A Werok core: its registers, its fetch, its memory accesses, its faults, the end of a job (R280 to R288, R293 to
R296, R300, R70). -/
namespace Sys2Proof.Machine

/-! ### Registers (R293, R300) -/

/-- An engine. -/
def WCore.isEng : WCore → Bool
  | .engine _ => true
  | .steward _ => false
def WCore.req : WCore → Req
  | .engine e => .engine e
  | .steward k => .steward k
/-- The cluster and the local index of an engine. -/
def WCore.cluster : WCore → Nat
  | .engine e => e.val / 8
  | .steward _ => 0
def WCore.local' : WCore → Nat
  | .engine e => e.val % 8
  | .steward _ => 0
/-- Sizes of IMEM and DMEM. -/
def WCore.imemSize (u : WCore) : Nat := if u.isEng then 0x10000 else 0x40000
def WCore.dmemSize (u : WCore) : Nat := if u.isEng then 0x20000 else 0x40000

def zeroWord (_ : Nat) : Word := 0
def undefReg (_ : Nat) : Option Nat := none
/-- x0 reads zero. -/
def EngU.xr (c : EngU) (k : Nat) : Word := if k = 0 then 0 else UMap.get zeroWord c.x k
/-- x0 ignores writes. -/
def EngU.setX (c : EngU) (k : Nat) (v : Word) : EngU := if k = 0 then c else { c with x := UMap.set zeroWord c.x k v }
/-- A vector register as a number of 512 bits; one not written since the job began is a free value (R293). -/
def EngU.vr (c : EngU) (k : Nat) : Nat := ((UMap.get undefReg c.v k).getD (Config.freeValue (c.open' + k))) % 2 ^ 512
def EngU.setV (c : EngU) (k n : Nat) : EngU := { c with v := UMap.set undefReg c.v k (some (n % 2 ^ 512)) }
def EngU.mr (c : EngU) (k : Nat) : Nat := ((UMap.get undefReg c.m k).getD (Config.freeValue (c.open' + 32 + k))) % 2 ^ 64
def EngU.setM (c : EngU) (k n : Nat) : EngU := { c with m := UMap.set undefReg c.m k (some (n % 2 ^ 64)) }

def State.xr (s : State) (u : WCore) (k : Nat) : Word := (s.core u).xr k
def State.setX (s : State) (u : WCore) (k : Nat) (v : Word) : State := s.setCore u ((s.core u).setX k v)
def State.vr (s : State) (u : WCore) (k : Nat) : Nat := (s.core u).vr k
def State.setV (s : State) (u : WCore) (k n : Nat) : State := s.setCore u ((s.core u).setV k n)
def State.mr (s : State) (u : WCore) (k : Nat) : Nat := (s.core u).mr k
def State.setM (s : State) (u : WCore) (k n : Nat) : State := s.setCore u ((s.core u).setM k n)
/-- The next instruction is at a. -/
def State.setPc (s : State) (u : WCore) (a : Nat) : State := s.setCore u { s.core u with pc := a % 2 ^ 32 }
def State.pcOf (s : State) (u : WCore) : Nat := (s.core u).pc
/-- On to the following instruction. -/
def State.adv4 (s : State) (u : WCore) : State := s.setPc u (s.pcOf u + 4)

/-! ### Instruction words (Table 12-5 to Table 12-9) -/

def fRd (w : Nat) : Nat := bits w 25 21
def fRs1 (w : Nat) : Nat := bits w 20 16
def fRs2 (w : Nat) : Nat := bits w 15 11
def fImm (w : Nat) : Nat := bits w 15 0
def fMask (w : Nat) : Nat := bits w 10 8
def fType (w : Nat) : Nat := bits w 7 6
/-- The sign-extended immediate. -/
def sImm (w : Nat) : Word := wd (ofSigned 32 (toSigned 16 (fImm w)))

/-- Opcode and function of a word as one number: FUNC in format A, IMM[6:5] for the shifts by an immediate, FUNC[5:0] in format
D. -/
def opKey (w : Nat) : Nat :=
  let op := bits w 31 26
  let f := if op ≤ 1 ∨ op = 0x1C ∨ op = 0x2C then bits w 10 0
    else if op = 0x0A then bits w 6 5
    else if op = 0x30 ∨ op = 0x31 ∨ op = 0x36 then bits w 5 0
    else 0
  op * 2048 + f
/-- The key of an opcode and function. -/
abbrev key (op f : Nat) : Nat := op * 2048 + f

/-- A CSR of Table 12-9. -/
def csrOk (n : Nat) : Bool := decide (n ≤ 3) || decide (0x11 ≤ n ∧ n ≤ 0x1F)
/-- A mask register. -/
def maskReg (k : Nat) : Bool := decide (1 ≤ k ∧ k ≤ 7)
/-- Table 12-6 to Table 12-8 assign the word on an engine. -/
def engAssigned (w : Nat) : Bool :=
  let op := bits w 31 26
  let f := opKey w % 2048
  let ty := fType w
  let cmp := maskReg (fRd w)
  match op with
  | 0x00 => decide (f ≤ 0xD)
  | 0x01 => decide (f ≤ 6)
  | 0x0A => decide (f ≤ 2)
  | 0x1C => decide (f ≤ 5)
  | 0x28 => true | 0x29 => true
  | 0x2C => decide (f ≤ 0xB)
  | 0x2D => csrOk (bits w 11 0)
  | 0x2E => csrOk (bits w 11 0)
  | 0x30 => decide (f ≤ 0x15) && decide (ty ≤ 2) && (cmp || !decide (0x10 ≤ f ∧ f ≤ 0x12))
  | 0x31 => decide (f ≤ 0xE) && decide (ty = 1 ∨ ty = 2) && (cmp || !decide (f = 8 ∨ f = 9))
  | 0x32 => true | 0x33 => true
  | 0x34 => decide (bits w 10 0 ≤ 2) | 0x35 => decide (bits w 10 0 ≤ 2)
  | 0x36 =>
    decide (f ≤ 9) && (if f = 7 then decide (ty = 1 ∨ ty = 2) else decide (ty ≤ 2)) && (f ≠ 8 || cmp) && (f ≠ 9 || maskReg (fRs1 w))
  | _ => decide (4 ≤ op ∧ op ≤ 0xB) || decide (0x10 ≤ op ∧ op ≤ 0x14) || decide (0x18 ≤ op ∧ op ≤ 0x1A) || decide (0x20 ≤ op ∧ op ≤ 0x25)
/-- The same on a steward core: no vector opcode, no JEND, CDMA, DMAW or TRAP (R70). -/
def stewAssigned (w : Nat) : Bool :=
  let op := bits w 31 26
  let f := opKey w % 2048
  engAssigned w && decide (op < 0x30) && !(op = 0x2C && (f = 3 || f = 9 || f = 0xA || f = 0xB))
def opAssigned (u : WCore) (w : Nat) : Bool := if u.isEng then engAssigned w else stewAssigned w

/-! ### Fetch and issue -/

def byteAt (m : UMap Byte) (a : Nat) : Byte := UMap.get (fun _ => 0) m a
/-- A byte of IMEM as fetched: bytes that a transfer has written are seen after DMAW and IFENCE (R289). -/
def EngU.fetchByte (c : EngU) (a : Nat) : Byte :=
  match c.stale.find? (fun (e : Nat × Byte × Option Word) => e.1 = a) with
  | some e => e.2.1
  | none => byteAt c.imem a
/-- The word at pc. -/
def EngU.fetch (c : EngU) : Nat := leNat ((List.range 4).map (fun i => c.fetchByte (c.pc + i)))
/-- The core issues: it runs, waits for nothing, and pc is in IMEM. -/
def State.issues (s : State) (u : WCore) : Bool :=
  let c := s.core u
  c.run && c.drain.isNone && c.watch.isNone
def State.pcIn (s : State) (u : WCore) : Bool := decide ((s.core u).pc < u.imemSize)

/-! ### Leaving the store buffer (R283, R285) -/

/-- A store reaches its target: the control space by 32 bits, anything else as data. One that cannot cross is answered with an
error (R13), which is none of an engine's faults (R296). -/
def State.storeOut (s : State) (r : Req) (i : SbItem) : State :=
  if regionOf i.addr = .control then s.memControl r true i.addr i.data.length i.data
  else if s.cut r.die (memDie i.addr) then s
  else (s.busWrite r i.addr i.data).2
/-- Everything in the store buffer is accepted, in order. -/
def State.drainSb (s : State) (u : WCore) : State :=
  let c := s.core u
  c.sb.foldl (fun t i => t.storeOut u.req i) (s.setCore u { c with sb := [] })

/-! ### Jobs and faults (R294, R296, R474) -/

/-- A completion record, where COMP_ADDR is not zero. -/
def State.jobRecord (s : State) (r : Req) (j : WJob) (status idx value : Nat) : State :=
  if j.comp = 0 then s
  else s.storeOut r ⟨j.comp, toBytes 2 j.id ++ toBytes 1 status ++ toBytes 1 idx ++ toBytes 4 value⟩
/-- JOB_DONE and the counts. -/
def State.jobCount (s : State) (c : Nat) (j : WJob) (status : Nat) : State :=
  let s1 := if j.irq then s.setBit (engA c) ENG_EVT_JOB_DONE j.queue true else s
  if status = 0 then s1.incFld (engA c) ENG_CNT_JOBS 1 else s1.incFld (engA c) ENG_CNT_JOB_ERRS 1
/-- A job ends (R294). The issue opportunities it used are a free value; TRAP reports rs1 instead. -/
def State.jobEnd (s : State) (e : Fin 128) (status : Nat) (trap : Option Word) : State :=
  let u : WCore := .engine e
  let s1 := s.drainSb u
  let c := s1.core u
  let k := u.cluster
  match c.job with
  | none => s1.setCore u { c with run := false, drain := none, watch := none, asks := [] }
  | some j =>
    let v := match trap with | some w => w.toNat | none => (s1.fresh 32).toNat
    let s2 := s1.usedFree.setCore u { c with run := false, job := none, drain := none, watch := none, asks := [] }
    let s3 := (s2.jobRecord u.req j status u.local' v).jobCount k j status
    (s3.setClu k { s3.clu k with blocked := [] }).showCluster k

/-- Running jobs of a faulted cluster end with STATUS 1. -/
def State.clusterDown (s : State) (k : Nat) : State :=
  let s1 := s.markCluster k
  ((List.range 8).foldl (fun t i =>
    match engOf k i with
    | .engine e => if (t.core (.engine e)).run then t.jobEnd e 1 none else t
    | _ => t) s1).showCluster k
/-- Engines of a cluster that are retired. -/
def State.retiredIn (s : State) (k : Nat) : Nat := (s.flt.enginesRetired.filter (fun e => decide (e / 8 = k))).length
/-- Four faults within 1 s retire an engine; three retired engines fault the cluster. -/
def State.countFault (s : State) (e : Nat) : State :=
  let r := s.countRecent e
  if r.2 && !s.flt.enginesRetired.contains e then
    let s1 : State := (r.1.withFlt { r.1.flt with enginesRetired := e :: r.1.flt.enginesRetired })
    if s1.retiredIn (e / 8) ≥ 3 then s1.clusterDown (e / 8) else s1
  else r.1

/-- An engine's fault (R296): the record, the reset, the end of the job. The engine cause is a free value. -/
def State.engineFault (s : State) (e : Fin 128) (status : Nat) : State :=
  let u : WCore := .engine e
  let die := 1 + e.val / 64
  let s1 := (s.record die 0x11 2 (u.req.src) (s.pcOf u) (info8 (s.fresh 8).toNat)).usedFree
  let s2 := s1.jobEnd e status none
  let s3 := s2.setCore u { s2.core u with cache := [], sb := [], cdma := [], results := [], wins := [], stale := [] }
  (s3.setBit (engA u.cluster) ENG_STATUS_FAULT u.local' true).countFault e
/-- A steward core stops until the next Advent (R70). -/
def State.stewardFault (s : State) (k : Fin 4) : State :=
  let u : WCore := .steward k
  let s1 := (s.record 0 0x11 2 u.req.src (s.pcOf u) (info8 (s.fresh 8).toNat)).usedFree
  let s2 := s1.drainSb u
  (s2.setCore u { s2.core u with run := false, loaded := false, drain := none, watch := none, asks := [] }).setBit advA ADV_STEW_RUN k
    false
/-- A fault of a core. -/
def State.coreTrap (s : State) (u : WCore) : State :=
  match u with
  | .engine e => s.engineFault e 1
  | .steward k => s.stewardFault k

/-- An instruction: the core issues, its word is assigned and is the one named. Every instruction that does not wait for the
store buffer finds it accepted. -/
def State.issue (s : State) (u : WCore) (k : Nat) (f : Nat → State → State) : State :=
  let w := (s.core u).fetch
  if s.issues u && s.pcIn u && opAssigned u w && opKey w = k then f w (s.drainSb u) else s
/-- The same for FENCE, SIG and JEND, which wait for it (R285). -/
def State.issueHold (s : State) (u : WCore) (k : Nat) (f : Nat → State → State) : State :=
  let w := (s.core u).fetch
  if s.issues u && s.pcIn u && opAssigned u w && opKey w = k then f w s else s

/-! ### Accesses (R280 to R288) -/

/-- Where an access goes (Table 12-1). -/
inductive Tgt where
  | dmem (off : Nat)
  /-- The engine's own cluster memory at its local address. -/
  | own (addr : Nat)
  | win (addr : Nat) (cached : Bool)
  | fault
  deriving DecidableEq, Repr

/-- WINw. -/
def EngU.win (c : EngU) (w : Nat) : Nat := (UMap.get zeroWord c.wins w).toNat
/-- The target of an access of n bytes. -/
def State.tgt (s : State) (u : WCore) (a n : Nat) : Tgt :=
  if a % n ≠ 0 then .fault
  else if a < u.dmemSize then .dmem a
  else if a < 0x10000000 then
    (if u.isEng && decide (0x100000 ≤ a ∧ a < 0x300000) then .own (clusterAddr u.cluster (a - 0x100000)) else .fault)
  else
    let w := (s.core u).win (a / 0x10000000)
    let d := bits w 31 20 * 0x10000000 + a % 0x10000000
    if w.testBit 0 then .win d (w.testBit 1 && u.isEng && decide (d < s.usableBytes)) else .fault

/-- What a read finds. -/
inductive Ld where
  | bytes (l : List Byte)
  | poison
  | fault
  /-- The answer of the host is still to come. -/
  | wait
  deriving DecidableEq, Repr

/-- An uncorrectable error in the memory of a cluster (R288, Table 22-3). -/
def State.cmemError (s : State) (k a : Nat) : State :=
  (((s.record (1 + k / 8) 0x13 3 (srcOf (1 + k / 8) 0x90 (k % 8 * 8)) a (info8 k)).setFlag (engA k) ENG_EVT_CMEM_ERR true).clusterDown k)

/-- The same where a read by another unit finds the error, if it is in cluster memory. -/
def State.cmemAt (s : State) (a : Nat) : State := match regionOf a with | .cluster k => s.cmemError k a | _ => s

/-- Cache lines with one replaced or added. Past 512 lines a victim leaves, which one is a free value; dirty, it enters the store
buffer (R283). -/
def EngU.putLine (c : EngU) (l : CLine) (pick : Nat) : EngU :=
  let rest := c.cache.filter (fun x => x.addr ≠ l.addr)
  if rest.length < 512 then { c with cache := l :: rest }
  else
    let i := pick % rest.length
    let out := match rest[i]? with | some x => if x.dirty then [(⟨x.addr, x.data⟩ : SbItem)] else [] | none => []
    { c with cache := l :: rest.eraseIdx i, sb := c.sb ++ out }
/-- The line of a cached address: a hit, or a fill. A fill finds every earlier store and write-back accepted (R285). -/
def State.lineOf (s : State) (u : WCore) (d : Nat) : Option CLine × State :=
  let base := d / 64 * 64
  match (s.core u).cache.find? (fun x => x.addr = base) with
  | some l => (some l, s)
  | none =>
    let t := s.drainSb u
    let x := if t.cut u.req.die 0 then (none, t) else t.busRead u.req base 64
    match x.1 with
    | none => (none, x.2)
    | some b =>
      let l : CLine := ⟨base, b, false⟩
      (some l, x.2.usedFree.setCore u ((x.2.core u).putLine l (x.2.fresh 32).toNat))

/-- An uncached read of device memory. `bad`: the cluster memory read holds an uncorrectable error. -/
def State.readOut (s : State) (u : WCore) (d n : Nat) (bad : Bool) : Ld × State :=
  match regionOf d with
  | .control =>
    if n ≠ 4 then
      let a := d - 0xF000000000
      (.bytes (List.replicate n 0), s.addressError (if dieOf a = 1 ∨ dieOf a = 2 then dieOf a else 0) u.req a false)
    else
      let x := s.ctlRead u.req (d - 0xF000000000)
      (.bytes (toBytes 4 x.1.toNat), x.2.2)
  | .cluster k =>
    if s.cut u.req.die (memDie d) then (.poison, s)
    else if bad then (.poison, s.cmemError k d)
    else (.bytes (s.memBytes d n), s)
  | .outbound =>
    if s.cut u.req.die 0 then (.poison, s)
    else if (s.hostAddr d).isSome && s.pcieUp then
      match (s.core u).asks.find? (fun q => q.addr = d && q.len = n) with
      | some q =>
        (match q.answer with | none => (.wait, s) | some none => (.poison, s) | some (some b) => (.bytes b, s))
      | none =>
        let s1 := (s.emit .pcie 2 [(s.hostAddr d).getD 0, n]).pcieAsk ⟨u.req, d, n⟩
        (.wait, s1.setCore u { s1.core u with asks := (s1.core u).asks ++ [⟨d, n, none⟩] })
    else
      let x := s.busRead u.req d n
      ((match x.1 with | some b => .bytes b | none => .poison), x.2)
  | _ =>
    if s.cut u.req.die 0 then (.poison, s)
    else
      let x := s.busRead u.req d n
      ((match x.1 with | some b => .bytes b | none => .poison), x.2)

/-- A read of n bytes at an engine address. `bad`: the DMEM or cluster memory read holds an uncorrectable error (R288, R296). -/
def State.coreRead (s : State) (u : WCore) (a n : Nat) (bad : Bool) : Ld × State :=
  match s.tgt u a n with
  | .fault => (.fault, s)
  | .dmem o => (if bad then .fault else .bytes ((List.range n).map (fun i => byteAt (s.core u).dmem (o + i))), s)
  | .own d => if bad then (.poison, s.cmemError u.cluster d) else (.bytes (s.memBytes d n), s)
  | .win d true =>
    let x := s.lineOf u d
    ((match x.1 with | some l => .bytes ((l.data.drop (d % 64)).take n) | none => .poison), x.2)
  | .win d false => s.readOut u d n bad

/-- Bytes over bytes from a place on. -/
def overwrite (l : List Byte) (i : Nat) (b : List Byte) : List Byte := l.take i ++ b ++ l.drop (i + b.length)
/-- Bytes stored into a sparse byte memory. -/
def putBytes (m : UMap Byte) : Nat → List Byte → UMap Byte
  | _, [] => m
  | a, b :: t => putBytes (UMap.set (fun _ => 0) m a b) (a + 1) t
/-- Stored uncached: device memory and the control space by way of the store buffer. -/
def State.queueStore (s : State) (u : WCore) (d : Nat) (b : List Byte) : State :=
  s.setCore u { s.core u with sb := (s.core u).sb ++ [⟨d, b⟩] }
/-- A store; false is an address fault, or a line that could not be filled. -/
def State.coreWrite (s : State) (u : WCore) (a : Nat) (b : List Byte) (uncached : Bool) : Bool × State :=
  match s.tgt u a b.length with
  | .fault => (false, s)
  | .dmem o => (true, s.setCore u { s.core u with dmem := putBytes (s.core u).dmem o b })
  | .own d => (true, s.setMemBytes d b)
  | .win d cached =>
    if uncached || !cached then (true, s.queueStore u d b)
    else
      let x := s.lineOf u d
      match x.1 with
      | none => (false, x.2)
      | some l =>
        let l1 : CLine := ⟨l.addr, overwrite l.data (d % 64) b, true⟩
        (true, x.2.usedFree.setCore u ((x.2.core u).putLine l1 (x.2.fresh 32).toNat))

end Sys2Proof.Machine
end

