-- ==== Sys2Proof/Machine/WerokInt.lean ====
section
/-! DEFINITION. Scalar Werok instructions: arithmetic, memory, atomics, branches, the system group, CSRs (Table 12-7). -/
namespace Sys2Proof.Machine

/-! ### Shapes -/

/-- rd := f rs1 rs2. -/
def State.alu (s : State) (u : WCore) (k : Nat) (f : Word → Word → Word) : State :=
  s.issue u k fun w t => (t.setX u (fRd w) (f (t.xr u (fRs1 w)) (t.xr u (fRs2 w)))).adv4 u
/-- rd := f rs1 w, w the instruction's word. -/
def State.aluI (s : State) (u : WCore) (k : Nat) (f : Word → Nat → Word) : State :=
  s.issue u k fun w t => (t.setX u (fRd w) (f (t.xr u (fRs1 w)) w)).adv4 u
def boolW (b : Bool) : Word := if b then 1 else 0
/-- A read's bytes go to f; poison and an address fault stop the core; an answer still to come leaves the instruction at hand. -/
def State.onRead (x : Ld × State) (u : WCore) (f : List Byte → State → State) : State :=
  match x.1 with
  | .bytes l => f l (x.2.setCore u { x.2.core u with asks := [] })
  | .poison => x.2.coreTrap u
  | .fault => x.2.coreTrap u
  | .wait => x.2
/-- A load of n bytes; `conv` extends them. -/
def State.loadX (s : State) (u : WCore) (k n : Nat) (conv : Nat → Word) (bad : Bool) : State :=
  s.issue u k fun w t =>
    State.onRead (t.coreRead u (t.xr u (fRs1 w) + sImm w).toNat n bad) u fun l t1 => (t1.setX u (fRd w) (conv (leNat l))).adv4 u
/-- A store of the low n bytes of rs2, which stands in the rd field. -/
def State.storeX (s : State) (u : WCore) (k n : Nat) : State :=
  s.issue u k fun w t =>
    let x := t.coreWrite u (t.xr u (fRs1 w) + sImm w).toNat (toBytes n (t.xr u (fRd w)).toNat) false
    if x.1 then x.2.adv4 u else x.2.coreTrap u
/-- The target of an atomic: cluster memory, the engine's own at its local address, another one through a window (R287). -/
def State.atomicAt (s : State) (u : WCore) (a : Nat) : Option Nat :=
  match s.tgt u a 4 with
  | .own d => some d
  | .win d _ =>
    match regionOf d with
    | .cluster k => if u.isEng && k = u.cluster then none else some d
    | _ => none
  | _ => none
/-- An atomic: rd := old; the word becomes f old rd rs2. `bad`: it holds an uncorrectable error. -/
def State.atomic (s : State) (u : WCore) (k : Nat) (bad : Bool) (f : Word → Word → Word → Word) : State :=
  s.issue u k fun w t =>
    match t.atomicAt u (t.xr u (fRs1 w)).toNat with
    | none => t.coreTrap u
    | some d =>
      if t.cut u.req.die (memDie d) then t.coreTrap u
      else if bad then (t.cmemError ((d - 0xE000000000) / 0x400000) d).coreTrap u
      else
        let old := wd (t.memNat d 4)
        let new := f old (t.xr u (fRd w)) (t.xr u (fRs2 w))
        ((t.setMemBytes d (toBytes 4 new.toNat)).setX u (fRd w) old).adv4 u
/-- A branch. -/
def State.branch (s : State) (u : WCore) (k : Nat) (f : Word → Word → Bool) : State :=
  s.issue u k fun w t =>
    if f (t.xr u (fRs1 w)) (t.xr u (fRd w)) then t.setPc u (wd (t.pcOf u) + 4 * sImm w).toNat else t.adv4 u

/-! ### Arithmetic -/

def execAdd (u : WCore) (s : State) : Out3 := onLive s fun s => s.alu u (key 0x00 0x000) (· + ·)
def execSub (u : WCore) (s : State) : Out3 := onLive s fun s => s.alu u (key 0x00 0x001) (· - ·)
def execAnd (u : WCore) (s : State) : Out3 := onLive s fun s => s.alu u (key 0x00 0x002) (· &&& ·)
def execOr (u : WCore) (s : State) : Out3 := onLive s fun s => s.alu u (key 0x00 0x003) (· ||| ·)
def execXor (u : WCore) (s : State) : Out3 := onLive s fun s => s.alu u (key 0x00 0x004) (· ^^^ ·)
def execSll (u : WCore) (s : State) : Out3 := onLive s fun s => s.alu u (key 0x00 0x005) (fun a b => a <<< (b.toNat % 32))
def execSrl (u : WCore) (s : State) : Out3 := onLive s fun s => s.alu u (key 0x00 0x006) (fun a b => a >>> (b.toNat % 32))
def execSra (u : WCore) (s : State) : Out3 := onLive s fun s => s.alu u (key 0x00 0x007) (fun a b => a.sshiftRight (b.toNat % 32))
def execSlt (u : WCore) (s : State) : Out3 := onLive s fun s => s.alu u (key 0x00 0x008) (fun a b => boolW (a.slt b))
def execSltu (u : WCore) (s : State) : Out3 := onLive s fun s => s.alu u (key 0x00 0x009) (fun a b => boolW (a.ult b))
def execMin (u : WCore) (s : State) : Out3 := onLive s fun s => s.alu u (key 0x00 0x00A) (fun a b => if b.slt a then b else a)
def execMax (u : WCore) (s : State) : Out3 := onLive s fun s => s.alu u (key 0x00 0x00B) (fun a b => if a.slt b then b else a)
/-- Leading zeros of a word; 32 for zero. -/
def clz32 (a : Word) : Nat := if a == 0 then 32 else 31 - Nat.log2 a.toNat
def popc32 (a : Word) : Nat := ((List.range 32).filter (fun i => a.getLsbD i)).length
def execClz (u : WCore) (s : State) : Out3 := onLive s fun s => s.alu u (key 0x00 0x00C) (fun a _ => wd (clz32 a))
def execPopc (u : WCore) (s : State) : Out3 := onLive s fun s => s.alu u (key 0x00 0x00D) (fun a _ => wd (popc32 a))
def execMul (u : WCore) (s : State) : Out3 := onLive s fun s => s.alu u (key 0x01 0x000) (· * ·)
/-- The high 32 bits of a signed product. -/
def mulhW (a b : Word) : Word := wd (ofSigned 32 (Int.fdiv (a.toInt * b.toInt) (2 ^ 32)))
def mulhuW (a b : Word) : Word := wd (a.toNat * b.toNat / 2 ^ 32)
def execMulh (u : WCore) (s : State) : Out3 := onLive s fun s => s.alu u (key 0x01 0x001) mulhW
def execMulhu (u : WCore) (s : State) : Out3 := onLive s fun s => s.alu u (key 0x01 0x002) mulhuW
/-- The quotient, truncated; all ones for a divisor of 0. -/
def divW (a b : Word) : Word := if b == 0 then 0xFFFFFFFF else wd (ofSigned 32 (Int.tdiv a.toInt b.toInt))
def divuW (a b : Word) : Word := if b == 0 then 0xFFFFFFFF else a / b
/-- The remainder, with the dividend's sign; the dividend for a divisor of 0. -/
def remW (a b : Word) : Word := if b == 0 then a else wd (ofSigned 32 (Int.tmod a.toInt b.toInt))
def remuW (a b : Word) : Word := if b == 0 then a else a % b
def execDiv (u : WCore) (s : State) : Out3 := onLive s fun s => s.alu u (key 0x01 0x003) divW
def execDivu (u : WCore) (s : State) : Out3 := onLive s fun s => s.alu u (key 0x01 0x004) divuW
def execRem (u : WCore) (s : State) : Out3 := onLive s fun s => s.alu u (key 0x01 0x005) remW
def execRemu (u : WCore) (s : State) : Out3 := onLive s fun s => s.alu u (key 0x01 0x006) remuW

def execAddi (u : WCore) (s : State) : Out3 := onLive s fun s => s.aluI u (key 0x04 0) (fun a w => a + sImm w)
def execAndi (u : WCore) (s : State) : Out3 := onLive s fun s => s.aluI u (key 0x05 0) (fun a w => a &&& wd (fImm w))
def execOri (u : WCore) (s : State) : Out3 := onLive s fun s => s.aluI u (key 0x06 0) (fun a w => a ||| wd (fImm w))
def execXori (u : WCore) (s : State) : Out3 := onLive s fun s => s.aluI u (key 0x07 0) (fun a w => a ^^^ wd (fImm w))
def execSlti (u : WCore) (s : State) : Out3 := onLive s fun s => s.aluI u (key 0x08 0) (fun a w => boolW (a.slt (sImm w)))
def execSltiu (u : WCore) (s : State) : Out3 := onLive s fun s => s.aluI u (key 0x09 0) (fun a w => boolW (a.ult (sImm w)))
def execSlli (u : WCore) (s : State) : Out3 := onLive s fun s => s.aluI u (key 0x0A 0) (fun a w => a <<< bits w 4 0)
def execSrli (u : WCore) (s : State) : Out3 := onLive s fun s => s.aluI u (key 0x0A 1) (fun a w => a >>> bits w 4 0)
def execSrai (u : WCore) (s : State) : Out3 := onLive s fun s => s.aluI u (key 0x0A 2) (fun a w => a.sshiftRight (bits w 4 0))
def execLui (u : WCore) (s : State) : Out3 := onLive s fun s => s.aluI u (key 0x0B 0) (fun _ w => wd (fImm w * 2 ^ 16))

/-! ### Memory -/

def execLw (u : WCore) (bad : Bool) (s : State) : Out3 := onLive s fun s => s.loadX u (key 0x10 0) 4 wd bad
def execLh (u : WCore) (bad : Bool) (s : State) : Out3 :=
  onLive s fun s => s.loadX u (key 0x11 0) 2 (fun n => wd (ofSigned 32 (toSigned 16 n))) bad
def execLhu (u : WCore) (bad : Bool) (s : State) : Out3 := onLive s fun s => s.loadX u (key 0x12 0) 2 wd bad
def execLb (u : WCore) (bad : Bool) (s : State) : Out3 :=
  onLive s fun s => s.loadX u (key 0x13 0) 1 (fun n => wd (ofSigned 32 (toSigned 8 n))) bad
def execLbu (u : WCore) (bad : Bool) (s : State) : Out3 := onLive s fun s => s.loadX u (key 0x14 0) 1 wd bad
def execSw (u : WCore) (s : State) : Out3 := onLive s fun s => s.storeX u (key 0x18 0) 4
def execSh (u : WCore) (s : State) : Out3 := onLive s fun s => s.storeX u (key 0x19 0) 2
def execSb (u : WCore) (s : State) : Out3 := onLive s fun s => s.storeX u (key 0x1A 0) 1

def execAadd (u : WCore) (bad : Bool) (s : State) : Out3 := onLive s fun s => s.atomic u (key 0x1C 0) bad (fun o _ b => o + b)
def execAswp (u : WCore) (bad : Bool) (s : State) : Out3 := onLive s fun s => s.atomic u (key 0x1C 1) bad (fun _ _ b => b)
def execAand (u : WCore) (bad : Bool) (s : State) : Out3 := onLive s fun s => s.atomic u (key 0x1C 2) bad (fun o _ b => o &&& b)
def execAor (u : WCore) (bad : Bool) (s : State) : Out3 := onLive s fun s => s.atomic u (key 0x1C 3) bad (fun o _ b => o ||| b)
def execAmaxu (u : WCore) (bad : Bool) (s : State) : Out3 :=
  onLive s fun s => s.atomic u (key 0x1C 4) bad (fun o _ b => if o.ult b then b else o)
def execAcas (u : WCore) (bad : Bool) (s : State) : Out3 :=
  onLive s fun s => s.atomic u (key 0x1C 5) bad (fun o d b => if o == d then b else o)

/-! ### Branches and jumps -/

def execBeq (u : WCore) (s : State) : Out3 := onLive s fun s => s.branch u (key 0x20 0) (· == ·)
def execBne (u : WCore) (s : State) : Out3 := onLive s fun s => s.branch u (key 0x21 0) (· != ·)
def execBlt (u : WCore) (s : State) : Out3 := onLive s fun s => s.branch u (key 0x22 0) BitVec.slt
def execBge (u : WCore) (s : State) : Out3 := onLive s fun s => s.branch u (key 0x23 0) (fun a b => !a.slt b)
def execBltu (u : WCore) (s : State) : Out3 := onLive s fun s => s.branch u (key 0x24 0) BitVec.ult
def execBgeu (u : WCore) (s : State) : Out3 := onLive s fun s => s.branch u (key 0x25 0) (fun a b => !a.ult b)
/-- JAL links in x31. -/
def execJal (u : WCore) (s : State) : Out3 :=
  onLive s fun s => s.issue u (key 0x28 0) fun w t =>
    (t.setX u 31 (wd (t.pcOf u) + 4)).setPc u (wd (t.pcOf u) + 4 * wd (ofSigned 32 (toSigned 26 w))).toNat
def execJalr (u : WCore) (s : State) : Out3 :=
  onLive s fun s => s.issue u (key 0x29 0) fun w t =>
    (t.setX u (fRd w) (wd (t.pcOf u) + 4)).setPc u ((t.xr u (fRs1 w) + sImm w) &&& ~~~ (3 : Word)).toNat

/-! ### The system group (R284, R285, R289, R294) -/

/-- What waits for the store buffer is done. -/
def State.drained (s : State) (u : WCore) (d : Drain) : State :=
  let s1 := s.drainSb u
  let s2 := s1.setCore u { s1.core u with drain := none }
  match d with
  | .fence => s2.adv4 u
  | .sig a v =>
    let x := s2.coreWrite u a (toBytes 4 v.toNat) true
    if x.1 then (x.2.drainSb u).adv4 u else x.2.coreTrap u
  | .jend => match u with | .engine e => s2.jobEnd e 0 none | .steward _ => s2
/-- At once where the store buffer is empty, else when it has drained. -/
def State.waitDrain (s : State) (u : WCore) (d : Drain) : State :=
  if (s.core u).sb = [] then s.drained u d else s.setCore u { s.core u with drain := some d }
def execFence (u : WCore) (s : State) : Out3 := onLive s fun s => s.issueHold u (key 0x2C 0) fun _ t => t.waitDrain u .fence
/-- IFENCE: what a finished transfer has written to IMEM is fetched from now on. -/
def execIfence (u : WCore) (s : State) : Out3 :=
  onLive s fun s => s.issue u (key 0x2C 1) fun _ t =>
    (t.setCore u { t.core u with stale := (t.core u).stale.filter (fun (e : Nat × Byte × Option Word) => e.2.2.isSome) }).adv4 u
def execSig (u : WCore) (s : State) : Out3 :=
  onLive s fun s => s.issueHold u (key 0x2C 2) fun w t => t.waitDrain u (.sig (t.xr u (fRs1 w)).toNat (t.xr u (fRs2 w)))
def execJend (u : WCore) (s : State) : Out3 := onLive s fun s => s.issueHold u (key 0x2C 3) fun _ t => t.waitDrain u .jend
/-- FENCE_DRAINED: everything in the store buffer has been accepted. -/
def execFenceDrained (u : WCore) (s : State) : Out3 :=
  onLive s fun s => match (s.core u).drain with | some d => s.drained u d | none => s

/-- WAIT: on while the own-cluster-memory word equals rs2. `bad`: it holds an uncorrectable error (R288). -/
def execWait (u : WCore) (bad : Bool) (s : State) : Out3 :=
  onLive s fun s => s.issue u (key 0x2C 4) fun w t =>
    match t.tgt u (t.xr u (fRs1 w)).toNat 4 with
    | .own d =>
      let v := t.xr u (fRs2 w)
      if bad then (t.cmemError u.cluster d).coreTrap u
      else if wd (t.memNat d 4) != v then t.adv4 u else t.setCore u { t.core u with watch := some (d, v) }
    | _ => t.coreTrap u
/-- WAIT_WAKE: the word differs. -/
def execWaitWake (u : WCore) (s : State) : Out3 :=
  onLive s fun s =>
    match (s.core u).watch with
    | some (d, v) => if wd (s.memNat d 4) != v then (s.setCore u { s.core u with watch := none }).adv4 u else s
    | none => s

/-- The cached line of an engine address, if it is cached (R284). -/
def State.cachedLine (s : State) (u : WCore) (a : Nat) : Option CLine :=
  match s.tgt u a 1 with
  | .win d true => (s.core u).cache.find? (fun x => x.addr = d / 64 * 64)
  | _ => none
/-- Maintenance of one line: write back, discard; nothing for an address that is not cached. -/
def State.lineOp (s : State) (u : WCore) (k : Nat) (clean drop : Bool) : State :=
  s.issue u k fun w t =>
    match t.cachedLine u (t.xr u (fRs1 w)).toNat with
    | none => t.adv4 u
    | some l =>
      let c := t.core u
      let sb := if clean && l.dirty then c.sb ++ [⟨l.addr, l.data⟩] else c.sb
      let cache := if drop then c.cache.filter (fun x => x.addr ≠ l.addr)
        else if clean then c.cache.map (fun x => if x.addr = l.addr then { x with dirty := false } else x) else c.cache
      (t.setCore u { c with sb := sb, cache := cache }).adv4 u
def execCln (u : WCore) (s : State) : Out3 := onLive s fun s => s.lineOp u (key 0x2C 5) true false
def execInv (u : WCore) (s : State) : Out3 := onLive s fun s => s.lineOp u (key 0x2C 6) false true
def execCli (u : WCore) (s : State) : Out3 := onLive s fun s => s.lineOp u (key 0x2C 7) true true
/-- Every dirty line is written back. -/
def EngU.cleanAll (c : EngU) : EngU :=
  { c with sb := c.sb ++ (c.cache.filter (fun x => x.dirty)).map (fun x => ⟨x.addr, x.data⟩)
           cache := c.cache.map (fun x => { x with dirty := false }) }
def execClnall (u : WCore) (s : State) : Out3 :=
  onLive s fun s => s.issue u (key 0x2C 8) fun _ t => (t.setCore u (t.core u).cleanAll).adv4 u

/-- A free slot of the four. -/
def EngU.freeSlot (c : EngU) : Option Nat := (List.range 4).find? (fun i => !c.cdma.any (fun x => x.slot = i))
/-- CDMA: the descriptor at a 32-byte aligned place of DMEM; a fifth transfer waits. The ticket's value is free, but for the slot in
its low bits. `bad`: DMEM holds an uncorrectable error there. -/
def execCdma (u : WCore) (bad : Bool) (s : State) : Out3 :=
  onLive s fun s => s.issue u (key 0x2C 9) fun w t =>
    let a := (t.xr u (fRs1 w)).toNat
    match t.tgt u a 32 with
    | .dmem o =>
      if bad then t.coreTrap u
      else
        match (t.core u).freeSlot with
        | none => t
        | some k =>
          let n (i len : Nat) : Nat := leNat ((List.range len).map (fun j => byteAt (t.core u).dmem (o + i + j)))
          let ticket := wd (4 * (t.fresh 30).toNat + k)
          let x : Cdma := ⟨ticket, k, n 0 8, n 8 8, n 16 4, n 20 2, n 24 4, n 28 4⟩
          let t1 := t.usedFree.setCore u { t.core u with cdma := (t.core u).cdma ++ [x] }
          (t1.setX u (fRd w) ticket).adv4 u
    | _ => t.coreTrap u
/-- DMAW: waits for the ticket; for a ticket that is none of the engine's the result is a free value. -/
def execDmaw (u : WCore) (s : State) : Out3 :=
  onLive s fun s => s.issue u (key 0x2C 0xA) fun w t =>
    let c := t.core u
    let k := t.xr u (fRs1 w)
    match c.results.find? (fun (r : Word × Nat) => r.1 == k) with
    | some r =>
      let t1 := t.setCore u { c with results := c.results.filter (fun (x : Word × Nat) => x.1 != k)
                                     stale := c.stale.map (fun (e : Nat × Byte × Option Word) => if e.2.2 = some k then (e.1, e.2.1, none) else e) }
      (t1.setX u (fRd w) (wd r.2)).adv4 u
    | none =>
      if c.cdma.any (fun x => x.ticket == k) then t else (t.usedFree.setX u (fRd w) (t.fresh 32)).adv4 u
/-- TRAP: the job ends with STATUS 4. -/
def execTrap (u : WCore) (s : State) : Out3 :=
  onLive s fun s => s.issue u (key 0x2C 0xB) fun w t =>
    match u with
    | .engine e => t.jobEnd e 4 (some (t.xr u (fRs1 w)))
    | .steward _ => t

/-! ### CSRs (Table 12-9) -/

/-- A CSR's value. ICOUNT is a free value, and so are ENGID, JOBID and QUEUE on a steward core, which has none. -/
def State.csrRead (s : State) (u : WCore) (n : Nat) : Word × State :=
  let c := s.core u
  if 0x11 ≤ n then (UMap.get zeroWord c.wins (n - 0x10), s)
  else
    match u, n with
    | .engine e, 0 => (wd e.val, s)
    | .engine _, 1 => (wd ((c.job.map (·.id)).getD 0), s)
    | .engine _, 2 => (wd ((c.job.map (·.queue)).getD 0), s)
    | _, _ => (s.fresh 32, s.usedFree)
def execCsrr (u : WCore) (s : State) : Out3 :=
  onLive s fun s => s.issue u (key 0x2D 0) fun w t =>
    let x := t.csrRead u (bits w 11 0)
    (x.2.setX u (fRd w) x.1).adv4 u
/-- A write of a WINw CSR; the read-only CSRs ignore it. -/
def execCsrw (u : WCore) (s : State) : Out3 :=
  onLive s fun s => s.issue u (key 0x2E 0) fun w t =>
    let n := bits w 11 0
    if 0x11 ≤ n then
      (t.setCore u { t.core u with wins := UMap.set zeroWord (t.core u).wins (n - 0x10) (t.xr u (fRs1 w) &&& 0xFFF00003) }).adv4 u
    else t.adv4 u

/-- UNASSIGNED_OPCODE: an unassigned opcode, function or CSR, a word outside IMEM, or an uncorrectable error in IMEM (R296, R70). -/
def execUnassignedOpcode (u : WCore) (eccError : Bool) (s : State) : Out3 :=
  onLive s fun s =>
    if s.issues u && (eccError || !s.pcIn u || !opAssigned u (s.core u).fetch) then s.coreTrap u else s

end Sys2Proof.Machine
end

