-- ==== Sys2Proof/Machine/Jobs.lean ====
section
/-! DEFINITION. Dispatch, descriptors, budgets, run-time firmware, power gating, the cluster DMA, completions from the host (R288
to R299, R342, R8, R9). -/
namespace Sys2Proof.Machine

/-! ### Dispatch (R292, R293, R295) -/

/-- Engine i of a cluster may take a job: EN, no job, not in reset. -/
def State.engFree (s : State) (c i : Nat) : Bool :=
  (s.fld (engA c) ENG_CTRL_EN).testBit i && !(s.eng c i).run && !(s.fld (engA c) ENG_STATUS_FAULT).testBit i
/-- A queue that may dispatch: enabled, not empty, not held by Vigil. -/
def State.queueReady (s : State) (c q : Nat) : Bool :=
  s.qOn c q && decide (0 < s.qLevel c q) && !s.thm.held.contains (4 * c + q)
/-- The cluster dispatches. -/
def State.dispatches (s : State) (c : Nat) : Bool :=
  !s.dispatchStopped c && !s.flag (engA c) ENG_STATUS_GATED && (s.clu c).picked.isNone && (List.range 8).any (s.engFree c)
/-- JOB_DISPATCH: the dispatcher turns to the head of the lowest-numbered queue that may dispatch, those apart whose head waits for
an engine or a barrier. -/
def execJobDispatch (c : Fin 16) (s : State) : Out3 :=
  onLive s fun s =>
    if !s.dispatches c then s
    else
      match [0, 1, 2, 3].find? (fun q => s.queueReady c q && !(s.clu c).blocked.contains q) with
      | none => s
      | some q => s.setClu c { s.clu c with picked := some q }

/-- The entry at RD of a queue. -/
def State.headEntry (s : State) (c q : Nat) : Nat :=
  s.fld (engA c) (ENG_QBASE_ADDR.nth 4 q) * 256 + s.fld (engA c) (ENG_QPTR_RD.nth 4 q) % s.qEntries c q * 64
/-- RD moves on. -/
def State.consumeJob (s : State) (c q : Nat) : State :=
  s.setFld (engA c) (ENG_QPTR_RD.nth 4 q) ((s.fld (engA c) (ENG_QPTR_RD.nth 4 q) + 1) % 65536)
/-- The job of a descriptor (Table 12-3). -/
def jobOf (q : Nat) (d : List Byte) : WJob :=
  let f := fieldAt d 5 1
  { id := fieldAt d 6 2, queue := q, irq := f.testBit 0, cls1 := f.testBit 2, budget := fieldAt d 8 4, comp := fieldAt d 48 8 }
/-- A bad descriptor (R295). -/
def State.badDesc (s : State) (c : Nat) (d : List Byte) : Bool :=
  let mask := fieldAt d 4 1
  fieldAt d 2 2 ≠ 0 || decide (fieldAt d 5 1 ≥ 8) || fieldAt d 12 4 ≠ 0 || fieldAt d 56 8 ≠ 0 || fieldAt d 0 2 % 4 ≠ 0 ||
    (mask ≠ 0 && (mask &&& s.fld (engA c) ENG_CTRL_EN) = 0)
/-- A job starts on an engine (R293). Vector and mask registers are free values from here on; instructions that the engine wrote into
its own IMEM still wait for DMAW and IFENCE (R289). -/
def State.startJob (s : State) (e : Fin 128) (j : WJob) (d : List Byte) : State :=
  let u : WCore := .engine e
  let c := s.core u
  let x : UMap Word := (List.range 8).foldl (fun m i => UMap.set zeroWord m (i + 1) (wd (fieldAt d (16 + 4 * i) 4))) []
  let s1 := s.setCore u { c with run := true, job := some j, pc := fieldAt d 0 2, x := x, v := [], m := [], open' := s.free
                                 drain := none, watch := none, asks := [] }
  { s1 with free := s.free + 40 }
/-- A job of the queue is running. -/
def State.queueRuns (s : State) (c q : Nat) : Bool :=
  (List.range 8).any (fun i => match (s.eng c i).job with | some j => j.queue = q | none => false)
/-- The descriptor at the head of a queue has come. -/
def State.takeDesc (s : State) (c q : Nat) (d : List Byte) : State :=
  let j := jobOf q d
  let mask := fieldAt d 4 1
  if s.badDesc c d then
    -- STATUS 3: no engine ran it, so the engine of the record is a free value, and no issue opportunity was used
    let s1 := ((s.consumeJob c q).setBit (engA c) ENG_EVT_QERR q true).usedFree
    (s1.jobRecord (engOf c 0).req j 3 (s.fresh 8).toNat 0).jobCount c j 3
  else if (fieldAt d 5 1).testBit 1 && s.queueRuns c q then
    s.setClu c { s.clu c with blocked := q :: (s.clu c).blocked }
  else
    match (List.range 8).find? (fun i => s.engFree c i && (mask = 0 || mask.testBit i)) with
    | none => s.setClu c { s.clu c with blocked := q :: (s.clu c).blocked }
    | some i => ((s.consumeJob c q).startJob (Fin.ofNat 128 (8 * c + i)) j d).showCluster c
/-- JOB_DESCRIPTOR_READ_DONE. `bad`: the read returns poison or fails, in cluster memory by an uncorrectable error (R288); the job is
then consumed without a record. -/
def execJobDescriptorReadDone (c : Fin 16) (bad : Bool) (s : State) : Out3 :=
  onLive s fun s =>
    match (s.clu c).picked with
    | none => s
    | some q =>
      let s1 := s.setClu c { s.clu c with picked := none }
      if !s1.queueReady c q || s1.dispatchStopped c then s1
      else
        let r := (engOf c 0).req
        let a := s1.headEntry c q
        let x := if s1.cut r.die (memDie a) then (none, s1) else if bad then (none, s1.cmemAt a) else s1.busRead r a 64
        match x.1 with
        | none => (((x.2.consumeJob c q).setBit (engA c) ENG_EVT_QERR q true).incFld (engA c) ENG_CNT_JOB_ERRS 1)
        | some d => x.2.takeDesc c q d

/-- JOB_BUDGET_EXPIRY (R294, R296). -/
def execJobBudgetExpiry (e : Fin 128) (s : State) : Out3 :=
  onLive s fun s =>
    match (s.core (.engine e)).job with
    | some j => if j.budget = 0 then s else s.engineFault e 2
    | none => s
/-- ENGINE_RESET_DONE: the engine is back in service, unless it is retired (R296, Table 22-3). -/
def execEngineResetDone (e : Fin 128) (s : State) : Out3 :=
  onLive s fun s =>
    let c := e.val / 8
    if s.flt.enginesRetired.contains e.val then s
    else
      let s1 := s.setBit (engA c) ENG_STATUS_FAULT (e.val % 8) false
      s1.setClu c { s1.clu c with blocked := [] }

/-! ### Run-time firmware (R298) -/

/-- ENGINE_FIRMWARE_LOAD: a write of ENG_FWCTL. -/
def execEngineFirmwareLoad (r : Req) (c : Fin 16) (value : Word) (s : State) : Out3 :=
  onLive s fun s => s.ctlPut r (engA c + ENG_FWCTL) value
/-- The payload at ENG_FWADDR, of the length that its header gives; none where a read fails. -/
def State.fwPayload (s : State) (c : Nat) : Option (List Byte) × State :=
  let a := s.fld (engA c) ENG_FWADDR_ADDR * 256
  let r := (engOf c 0).req
  if s.cut r.die (memDie a) then (none, s)
  else
    let x := s.busRead r a 32
    match x.1 with
    | none => x
    | some h =>
      let n := fieldAt h 12 4 + fieldAt h 16 4 + fieldAt h 20 4
      if n > 65536 + 131072 + 2097152 then (some h, x.2)
      else
        let y := x.2.busRead r (a + 32) n
        (y.1.map (fun b => h ++ b), y.2)
/-- ENGINE_FIRMWARE_LOAD_DONE: the running jobs have ended and the images have been read. `bad`: a read failed, in cluster memory by
an uncorrectable error (R288). -/
def execEngineFirmwareLoadDone (c : Fin 16) (bad : Bool) (s : State) : Out3 :=
  onLive s fun s =>
    if !s.flag (engA c) ENG_FWCTL_GO || (List.range 8).any (fun i => (s.eng c i).run) then s
    else
      let x := if bad then (none, s.cmemAt (s.fld (engA c) ENG_FWADDR_ADDR * 256)) else s.fwPayload c
      let s1 := x.2.setFlag (engA c) ENG_FWCTL_GO false
      match x.1 with
      | none => ((s1.setFlag (engA c) ENG_FWCTL_LD_ERR true).setFlag (engA c) ENG_STATUS_FW_BAD true).showCluster c
      | some p => if wrfwOk p then s1.loadCluster c p else (s1.setFlag (engA c) ENG_FWCTL_LD_ERR true).loadCluster c p

/-! ### Power gating (R8, R9, R299) -/

/-- CLUSTER_GATE: idle for 100 us, GATE_EN set; every engine cleans its cache first. -/
def execClusterGate (c : Fin 16) (s : State) : Out3 :=
  onLive s fun s =>
    let idle := (List.range 8).all (fun i => !(s.eng c i).run)
    let empty := [0, 1, 2, 3].all (fun q => !s.qOn c q || s.qLevel c q = 0)
    if !s.flag (engA c) ENG_CTRL_GATE_EN || !idle || !empty || s.flag (engA c) ENG_STATUS_GATED then s
    else
      let s1 := (List.range 8).foldl (fun (t : State) i => (t.setCore (engOf c i) (t.eng c i).cleanAll).drainSb (engOf c i)) s
      s1.setFlag (engA c) ENG_STATUS_GATED true
/-- CLUSTER_WAKE_DONE. -/
def execClusterWakeDone (c : Fin 16) (s : State) : Out3 :=
  onLive s fun s =>
    if (s.clu c).waking then (s.setClu c { s.clu c with waking := false }).setFlag (engA c) ENG_STATUS_GATED false else s

/-! ### The cluster DMA (R289) -/

/-- A local address: engine, IMEM or DMEM, offset; none where it is no local address that exists. -/
def localAddr (a : Nat) : Option (Nat × Bool × Nat) :=
  let off := bits a 16 0
  if bits a 62 23 ≠ 0 ∨ bits a 18 17 ≠ 0 ∨ (a.testBit 19 ∧ 0x10000 ≤ off) then none else some (bits a 22 20, a.testBit 19, off)
/-- A piece read by an engine's transfer: its bytes, or the error code. A piece of the control space is a control-space access
(R39). -/
def State.cdmaRead (s : State) (e : Fin 128) (a n : Nat) : Except Nat (List Byte) × State :=
  if a.testBit 63 then
    match localAddr a with
    | none => (.error 2, s)
    | some (i, imem, off) =>
      let c := s.eng (e.val / 8) i
      if off + n > (if imem then 0x10000 else 0x20000) then (.error 2, s)
      else (.ok ((List.range n).map (fun j => byteAt (if imem then c.imem else c.dmem) (off + j))), s)
  else if a ≥ 2 ^ 40 then (.error 2, s)
  else if regionOf a = .control then
    if n = 4 ∧ a % 4 = 0 then
      let x := s.ctlRead (.engine e) (a - 0xF000000000)
      (if x.2.1 then .error 2 else .ok (toBytes 4 x.1.toNat), x.2.2)
    else (.error 2, { s.memControl (.engine e) false a n [] with answer := s.answer, poison := s.poison })
  else if s.cut (Req.engine e).die (memDie a) then (.error 1, s)
  else
    let x := s.busRead (.engine e) a n
    ((match x.1 with | some b => .ok b | none => .error 1), x.2)
/-- Bytes that an engine's own IMEM is fetched with until DMAW and IFENCE. -/
def EngU.keepOld (c : EngU) (ticket : Word) (off : Nat) : Nat → EngU
  | 0 => c
  | n + 1 =>
    let d := c.keepOld ticket off n
    let a := off + n
    if d.stale.any (fun (x : Nat × Byte × Option Word) => x.1 = a) then
      { d with stale := d.stale.map (fun (x : Nat × Byte × Option Word) => if x.1 = a then (x.1, x.2.1, some ticket) else x) }
    else { d with stale := (a, byteAt d.imem a, some ticket) :: d.stale }
/-- A piece written: 0, or the error code. -/
def State.cdmaWrite (s : State) (e : Fin 128) (ticket : Word) (a : Nat) (b : List Byte) : Nat × State :=
  if a.testBit 63 then
    match localAddr a with
    | none => (2, s)
    | some (i, imem, off) =>
      let u := engOf (e.val / 8) i
      let c := s.core u
      if off + b.length > (if imem then 0x10000 else 0x20000) then (2, s)
      else if !imem then (0, s.setCore u { c with dmem := putBytes c.dmem off b })
      else if i ≠ e.val % 8 ∧ c.run then (3, s)
      else
        let c1 := if i = e.val % 8 then c.keepOld ticket off b.length else c
        (0, s.setCore u { c1 with imem := putBytes c1.imem off b })
  else if a ≥ 2 ^ 40 then (2, s)
  else if regionOf a = .control then
    if b.length = 4 ∧ a % 4 = 0 then
      let x := s.ctlWrite (.engine e) (a - 0xF000000000) (wd (leNat b))
      (if x.2 = .addrErr then 2 else 0, x.1)
    else (2, s.memControl (.engine e) true a b.length b)
  else if s.cut (Req.engine e).die (memDie a) then (2, s)
  else
    let x := s.busWrite (.engine e) a b
    ((if x.1 then 0 else 2), x.2)
/-- The pieces of a transfer: each row is cut at 64-byte boundaries of its source. -/
def rowPieces (src dst : Nat) : Nat → Nat → List (Nat × Nat × Nat)
  | 0, _ => []
  | _ + 1, 0 => []
  | f + 1, left =>
    let n := min left (64 - src % 64)
    (src, dst, n) :: rowPieces (src + n) (dst + n) f (left - n)
def Cdma.pieces (x : Cdma) : List (Nat × Nat × Nat) :=
  (List.range x.rows).flatMap (fun r =>
    rowPieces (x.src + r * x.srcStride) (x.dst + r * x.dstStride) (x.rowBytes / 64 + 2) x.rowBytes)
/-- A transfer performed, piece by piece, up to the first error. `bad`: the piece whose source holds an uncorrectable error. -/
def State.cdmaRun (s : State) (e : Fin 128) (ticket : Word) (bad : Option Nat) : Nat → List (Nat × Nat × Nat) → Nat × State
  | _, [] => (0, s)
  | i, (a, d, n) :: t =>
    if bad = some i then
      (1, match regionOf a with | .cluster k => if a.testBit 63 then s else s.cmemError k a | _ => s)
    else
      let x := s.cdmaRead e a n
      match x.1 with
      | .error k => (k, x.2)
      | .ok b =>
        let y := x.2.cdmaWrite e ticket d b
        if y.1 = 0 then State.cdmaRun y.2 e ticket bad (i + 1) t else y
/-- CDMA_TRANSFER_DONE: the transfer in a slot has been performed. -/
def execCdmaTransferDone (e : Fin 128) (slot : Fin 4) (bad : Option Nat) (s : State) : Out3 :=
  onLive s fun s =>
    let u : WCore := .engine e
    match (s.core u).cdma.find? (fun x => x.slot = slot.val) with
    | none => s
    | some x =>
      let r := s.cdmaRun e x.ticket bad 0 x.pieces
      let c := r.2.core u
      let s1 := if c.cdma.any (fun y => y.slot = slot.val) then
          r.2.setCore u { c with cdma := c.cdma.filter (fun y => y.slot ≠ slot.val), results := c.results ++ [(x.ticket, r.1)] }
        else r.2
      if r.1 = 0 then s1 else s1.setFlag (engA u.cluster) ENG_EVT_CDMA_ERR true

/-! ### Completions from the host (R342) -/

/-- An outbound read is answered: a core keeps the answer for its instruction, any other requester has its data. -/
def State.answerOut (s : State) (q : OutReq) (b : Option (List Byte)) : State :=
  let give (u : WCore) : State :=
    let c := s.core u
    s.setCore u { c with asks := c.asks.map (fun x => if x.addr = q.addr ∧ x.len = q.len ∧ x.answer.isNone then { x with answer := some b } else x) }
  match q.r with
  | .engine e => if (s.core (.engine e)).asks.any (fun x => x.addr = q.addr && x.len = q.len) then give (.engine e) else s.memAnswer b
  | .steward k => if (s.core (.steward k)).asks.any (fun x => x.addr = q.addr && x.len = q.len) then give (.steward k) else s.memAnswer b
  | _ => s.memAnswer b
/-- Outbound request i leaves the list and is answered. -/
def State.completeOut (s : State) (i : Nat) (bad : Bool) : State :=
  match s.pcie.outs[i]? with
  | none => s
  | some q =>
    let s1 : State := (s.withPcie { s.pcie with outs := s.pcie.outs.eraseIdx i })
    let b : Option (List Byte) := if bad then none else (s1.hostAddr q.addr).map (fun h => s1.hostBytes h q.len)
    s1.answerOut q b
/-- PCIE_OUTBOUND_COMPLETION: `bad` for Unsupported Request, Completer Abort or poison. -/
def execPcieOutboundCompletion (i : Nat) (bad : Bool) (s : State) : Out3 := onLive s fun s => s.completeOut i bad
/-- OUTBOUND_COMPLETION_TIMEOUT: 50 ms without a completion. -/
def execOutboundCompletionTimeout (i : Nat) (s : State) : Out3 := onLive s fun s => s.completeOut i true

end Sys2Proof.Machine
end

