-- ==== Sys2Proof/Machine/Replay.lean ====
section
/-! DEFINITION. Advent A3, the end of A4, and the Almanac replay of A5 (R72, R76 to R82, R320, R503). -/
namespace Sys2Proof.Machine

/-! ### A3 (R72, R320) -/

/-- A reserved RATE or CAP fails every channel. -/
def State.dramCfgBad (s : State) : Bool := decide (s.fld dmcA DMC_CTRL_RATE > 4) || !capOk (s.fld dmcA DMC_GEOM_CAP)
/-- The ranks that answered have the organisation that CAP and RANKS say: each sub-channel holds CAP / 2, in equal ranks of
LPDDR5X devices that make up its 16 bits (R304, R320). -/
def State.orgOk (s : State) (ranks : List RankOrg) : Bool :=
  let n := s.fld dmcA DMC_GEOM_RANKS + 1
  ranks.length = n && ranks.all (fun r => r.lpddr5x && (r.width = 8 || r.width = 16) &&
    decide (r.gbit * (16 / r.width) * 2 * n = s.fld dmcA DMC_GEOM_CAP * 8))
/-- Channel n fails: the organisation is another one, a step finds no setting, the test pattern fails, or FOM is below
FOM_PASS. -/
def State.chFails (s : State) (failed : BitVec 16) (foms : List Nat) (orgs : List (List RankOrg)) (n : Nat) : Bool :=
  s.dramCfgBad || failed.getLsbD n || !s.orgOk ((orgs[n]?).getD []) ||
    decide (min 255 ((foms[n]?).getD 0) < s.fld (dchA n) DCH_FOM_FOM_PASS)
/-- The pairs used of those that work: 8, 7, 6 or 4 of them, the lowest-numbered. -/
def usePairs (ok : List Nat) : List Nat := if ok.length = 5 then ok.take 4 else if ok.length < 4 then [] else ok
/-- Bits of a list of places. -/
def pairMask (l : List Nat) : Nat := l.foldl (fun m e => m ||| 2 ^ e) 0

/-- What training shows in a channel's registers. -/
def State.showTrained (s : State) (bad : List Nat) (use : List Nat) (foms : List Nat) (n : Nat) : State :=
  let b := dchA n
  let on := use.contains (n / 2)
  (((s.setFld b DCH_FOM_FOM (min 255 ((foms[n]?).getD 0))).setFlag b DCH_STATUS_TRAINED (!bad.contains n)).setFlag b
    DCH_STATUS_EXCLUDED (!on)).setFlag b DCH_STATUS_IN_USE on
/-- The channels have trained: the count, the capacity, the masks in force (R72, R306, R311). -/
def State.takeChannels (s : State) (bad : List Nat) (foms : List Nat) : State :=
  let pairBad (e : Nat) : Bool := bad.contains (2 * e) || bad.contains (2 * e + 1)
  let use := if bad.length > 4 then [] else usePairs ((List.range 8).filter (fun e => !pairBad e))
  let s1 := (List.range 16).foldl (fun t n => t.showTrained bad use foms n) s
  let s2 := ((s1.setFld dmcA DMC_CHCFG_PAIR_USE (pairMask use)).setFld dmcA DMC_CHCFG_PAIR_FAIL
    (pairMask ((List.range 8).filter pairBad))).setFld dmcA DMC_CHCFG_CHANNELS (2 * use.length)
  let s3 := s2.setFld dmcA DMC_USABLE_MIB (s2.fld dmcA DMC_GEOM_CAP * 960 * (2 * use.length))
  (s3.withMasks (⟨(List.range 4).map (fun k => s3.fld dmcA (DMC_CH_MASK_MASK.nth 4 k)),
                      (List.range 4).map (fun k => s3.fld dmcA (DMC_BANK_MASK_MASK.nth 4 k))⟩))

/-- DRAM_TRAINING_DONE: A3 ends; `orgs` holds what the ranks of each channel reported. In maintenance entered before A3 the
training is made as well, and PHASE stays (R74). -/
def execDramTrainingDone (failed : BitVec 16) (foms : List Nat) (orgs : List (List RankOrg)) (s : State) : Out3 :=
  onLive s fun s =>
    let early := s.maint && decide (s.phase < 3)
    if !early && (s.phase ≠ 3 || s.maint) then s
    else
      let bad := (List.range 16).filter (s.chFails failed foms orgs)
      let s1 := s.takeChannels bad foms
      if early then s1 else if bad.length > 4 then s1.enterMaint 3 else s1.setPhase 4

/-! ### The end of A4 (R70) -/

/-- A loaded steward core starts at ENTRY. -/
def State.startSteward (s : State) (k : Fin 4) : State :=
  let u := s.core (.steward k)
  if u.loaded then (s.setCore (.steward k) { u with run := true, pc := u.entry, x := [] }).setBit advA ADV_STEW_RUN k true else s
/-- ADVENT_A4_END. -/
def execAdventA4End (s : State) : Out3 :=
  onLive s fun s =>
    if s.phase ≠ 4 || !s.walking then s
    else (([0, 1, 2, 3] : List (Fin 4)).foldl (fun (t : State) (k : Fin 4) => t.startSteward k) s).setPhase 5

/-! ### A5 (R80, R81, R503) -/

/-- Fields named EN, RX_EN or TX_EN whose access type is AL (R503). -/
def enFields : Blk → List Fld
  | .fab => [C0_STREAM_EN] | .camp => [CAMP_CTRL_EN] | .cal => [CAL_CTRL_EN] | .mfe => [MFE_CTRL_EN]
  | .head => [HEAD_CTRL_EN, LYR_CTRL_EN] | .prd => [PRD_CTRL_EN] | .vcc => [VCC_CTRL_EN] | .eng => [ENG_CTRL_EN]
  | .nvt => [NVT_CTRL_EN] | .nvh => [NVH_CTRL_EN] | .time => [DOM_CTRL_EN] | .eth => [ETH_CTRL_EN]
  | .audp => [AUDP_CTRL_RX_EN, AUDP_CTRL_TX_EN] | .axis => [AXIS_CTRL_EN] | .emu => [EMU_CTRL_EN]
  | .twc => [TWC_CTRL_EN, TWC_LDATA_EN] | .irq => [IRQ_RDATA_EN]
  | _ => []
/-- The bits of those fields in a register. -/
def enMask (w : Where) : Word :=
  wd (accMask (w.blk.rows.filter (fun r => (enFields w.blk).contains r.f)) w.off (fun _ => true))
/-- The index register of a window whose data register is AL, and the value that selects entry i. -/
def windowIndex (w : Where) (i : Nat) : Option (Nat × Nat) :=
  match w.blk with
  | .fab => some (FAB_SIDX, i)
  | .mfe => some (MFE_FIDX, i)
  | .thm => some (THM_OIDX, i)
  | .twc => some (TWC_LIDX, i)
  | .irq => some (IRQ_RIDX, i)
  | .axis => some (AXIS_PIDX, if 64 ≤ i then maskOf AXIS_PIDX_TABLE.hi AXIS_PIDX_TABLE.lo + (i - 64) else i)
  | _ => none

/-- A retained value is written; the index register of a window keeps what it held. -/
def State.replayWrite (s : State) (a : Nat) (entry : Option Nat) (w : Where) (v m : Word) : State × WRes :=
  let x : WCtx := ⟨.advent, .replay, false⟩
  match entry with
  | none => s.blkWrite x w a v m
  | some i =>
    match windowIndex w i with
    | none => (s, .ok)
    | some (off, k) =>
      let ia := a - w.off + off
      let old := s.rd ia
      let y := (s.wr ia (wd k)).blkWrite x w a v m
      (y.1.wr ia old, y.2)
/-- One pass over a value; a refused write is counted (R503). -/
def State.replayVal (s : State) (second : Bool) (e : AlVal) : State :=
  let a := e.key / 2 ^ 32
  let i := e.key % 2 ^ 32
  match regAt a with
  | none => s
  | some w =>
    let m := if second then e.mask &&& enMask w else e.mask &&& ~~~ (enMask w)
    if m == 0 then s
    else
      let x := s.replayWrite a (if i = 0 then none else some (i - 1)) w e.value m
      if x.2 = .ok then x.1 else x.1.recErr
/-- Values in ascending order of their key. -/
def insertAl (v : AlVal) : List AlVal → List AlVal
  | [] => [v]
  | w :: t => if v.key ≤ w.key then v :: w :: t else w :: insertAl v t
def sortAl : List AlVal → List AlVal
  | [] => []
  | v :: t => insertAl v (sortAl t)
/-- The two passes. -/
def State.replayAll (s : State) (l : List AlVal) : State :=
  let k := sortAl l
  k.foldl (fun t e => t.replayVal true e) (k.foldl (fun t e => t.replayVal false e) s)

/-- Held entries were, or may have been, lost (R78, R80). -/
def State.heldLost (s : State) : State :=
  if s.alm.guard || s.alm.incomplete then (s.setFlag almA ALM_STATUS_HELD_LOST true).record 0 0x2B 1 (srcOf 0 0x02 0) 0 0 else s
/-- A5 on the partition that the image names: the AL values of its epoch are replayed. -/
def State.replayJournal (s : State) (p : Nat × Nat × Nat) : State :=
  let s1 := s.usePartition p
  match (s.alm.goTo (p.1, p.2.1)).epoch with
  | none => s1
  | some old =>
    let s2 := s1.heldLost
    if old = p.2.2 then s2.replayAll s2.alm.flash.al
    else
      (s2.withAlm { s2.alm with flash := { s2.alm.flash with al := [] }, epoch := some p.2.2 }).setFlag almA
        ALM_STATUS_EPOCH_NEW true
/-- A5 ends: the shadow and active copies of every SH field are equal (R512), and MOS_CFG shows the descriptors in force (R160);
Homecoming follows where COUNT > 1, else A7 (R71). -/
def State.endA5 (s : State) : State :=
  let t := (List.range 24).foldl (fun u n => u.showMos (n / 3) (n % 3)) s.commitAll
  if t.fld advA ADV_SYSCFG_COUNT > 1 then t.setPhase 6 else t.enterA7

/-- ALMANAC_REPLAY: `readable` is false where no commit group of the partition can be read. -/
def execAlmanacReplay (readable : Bool) (s : State) : Out3 :=
  onLive s fun s =>
    if s.phase ≠ 5 || s.maint then s
    else
      match s.adv.partition with
      | none => ((s.withAlm { s.alm with pendAl := [], pendChk := [], pendLog := [], pendLedger := false }).showHolding).endA5
      | some p => if !readable then s.enterMaint 5 else (s.replayJournal p).endA5

end Sys2Proof.Machine
end

