-- ==== Sys2Proof/Machine/WerokVec.lean ====
section
/-! DEFINITION. Vector Werok instructions (R301, Table 12-8). A vector register is a number of 512 bits; lane 0 is its lowest. -/
namespace Sys2Proof.Machine

/-! ### Lanes -/

/-- Lane i of w bits. -/
def lane (v w i : Nat) : Nat := v / 2 ^ (w * i) % 2 ^ w
def sLane (v w i : Nat) : Int := toSigned w (lane v w i)
/-- A vector from its lanes. -/
def vecOf (w n : Nat) (f : Nat → Nat) : Nat := (List.range n).foldl (fun a i => a + (f i % 2 ^ w) * 2 ^ (w * i)) 0
/-- Bits of a lane of TYPE 0, 1, 2. -/
def widthOf (ty : Nat) : Nat := 8 * 2 ^ ty
def lanesOf (ty : Nat) : Nat := 64 / 2 ^ ty
/-- Lane i is enabled by MASK. -/
def State.enabled (s : State) (u : WCore) (w i : Nat) : Bool := fMask w = 0 || (s.mr u (fMask w)).testBit i
/-- vd with the enabled lanes replaced. -/
def State.putLanes (s : State) (u : WCore) (w wid n : Nat) (f : Nat → Nat) : State :=
  let old := s.vr u (fRd w)
  s.setV u (fRd w) (vecOf wid n (fun i => if s.enabled u w i then f i else lane old wid i))

/-- vd lane := f vd vs1 vs2, lane by lane, at the width that TYPE gives. -/
def State.lanes3 (s : State) (u : WCore) (k : Nat) (f : Nat → Nat → Nat → Nat → Nat) : State :=
  s.issue u k fun w t =>
    let b := widthOf (fType w)
    let d := t.vr u (fRd w)
    let x := t.vr u (fRs1 w)
    let y := t.vr u (fRs2 w)
    (t.putLanes u w b (lanesOf (fType w)) (fun i => f b (lane d b i) (lane x b i) (lane y b i))).adv4 u
/-- A signed operation on two lanes, saturated to the width. -/
def satS (b : Nat) (i : Int) : Nat := ofSigned b (clampInt (-(2 ^ (b - 1) : Nat)) ((2 ^ (b - 1) : Nat) - 1) i)
/-- m[vd] bit i := a compare; bits of lanes that are not enabled, and beyond the lanes, keep their value. -/
def State.compare (s : State) (u : WCore) (k : Nat) (f : Nat → Nat → Nat → Bool) : State :=
  s.issue u k fun w t =>
    let b := widthOf (fType w)
    let x := t.vr u (fRs1 w)
    let y := t.vr u (fRs2 w)
    let n := lanesOf (fType w)
    let old := t.mr u (fRd w)
    (t.setM u (fRd w) ((List.range 64).foldl (fun m i =>
      m + b2n (if i < n ∧ t.enabled u w i then f b (lane x b i) (lane y b i) else old.testBit i) * 2 ^ i) 0)).adv4 u

/-! ### Integer lanes -/

def execVadd (u : WCore) (s : State) : Out3 := onLive s fun s => s.lanes3 u (key 0x30 0x00) (fun _ _ x y => x + y)
def execVsub (u : WCore) (s : State) : Out3 := onLive s fun s => s.lanes3 u (key 0x30 0x01) (fun b _ x y => x + 2 ^ b - y)
def execVadds (u : WCore) (s : State) : Out3 :=
  onLive s fun s => s.lanes3 u (key 0x30 0x02) (fun b _ x y => satS b (toSigned b x + toSigned b y))
def execVsubs (u : WCore) (s : State) : Out3 :=
  onLive s fun s => s.lanes3 u (key 0x30 0x03) (fun b _ x y => satS b (toSigned b x - toSigned b y))
def execVmul (u : WCore) (s : State) : Out3 := onLive s fun s => s.lanes3 u (key 0x30 0x04) (fun _ _ x y => x * y)
def execVmulh (u : WCore) (s : State) : Out3 :=
  onLive s fun s => s.lanes3 u (key 0x30 0x05) (fun b _ x y => ofSigned b (Int.fdiv (toSigned b x * toSigned b y) (2 ^ b)))
def execVmac (u : WCore) (s : State) : Out3 := onLive s fun s => s.lanes3 u (key 0x30 0x06) (fun _ d x y => d + x * y)
def execVmin (u : WCore) (s : State) : Out3 :=
  onLive s fun s => s.lanes3 u (key 0x30 0x07) (fun b _ x y => if toSigned b y < toSigned b x then y else x)
def execVmax (u : WCore) (s : State) : Out3 :=
  onLive s fun s => s.lanes3 u (key 0x30 0x08) (fun b _ x y => if toSigned b x < toSigned b y then y else x)
def execVand (u : WCore) (s : State) : Out3 := onLive s fun s => s.lanes3 u (key 0x30 0x09) (fun _ _ x y => x &&& y)
def execVor (u : WCore) (s : State) : Out3 := onLive s fun s => s.lanes3 u (key 0x30 0x0A) (fun _ _ x y => x ||| y)
def execVxor (u : WCore) (s : State) : Out3 := onLive s fun s => s.lanes3 u (key 0x30 0x0B) (fun _ _ x y => x ^^^ y)
def execVshl (u : WCore) (s : State) : Out3 := onLive s fun s => s.lanes3 u (key 0x30 0x0C) (fun b _ x y => x <<< (y % b))
def execVshr (u : WCore) (s : State) : Out3 := onLive s fun s => s.lanes3 u (key 0x30 0x0D) (fun b _ x y => x >>> (y % b))
def execVsra (u : WCore) (s : State) : Out3 :=
  onLive s fun s => s.lanes3 u (key 0x30 0x0E) (fun b _ x y => ofSigned b (Int.fdiv (toSigned b x) (2 ^ (y % b))))
/-- VSEL: all lanes are written. -/
def execVsel (u : WCore) (s : State) : Out3 :=
  onLive s fun s => s.issue u (key 0x30 0x0F) fun w t =>
    let b := widthOf (fType w)
    let x := t.vr u (fRs1 w)
    let y := t.vr u (fRs2 w)
    (t.setV u (fRd w) (vecOf b (lanesOf (fType w)) (fun i => if t.enabled u w i then lane x b i else lane y b i))).adv4 u
def execVcmpeq (u : WCore) (s : State) : Out3 := onLive s fun s => s.compare u (key 0x30 0x10) (fun _ x y => x = y)
def execVcmplt (u : WCore) (s : State) : Out3 :=
  onLive s fun s => s.compare u (key 0x30 0x11) (fun b x y => decide (toSigned b x < toSigned b y))
def execVcmpltu (u : WCore) (s : State) : Out3 := onLive s fun s => s.compare u (key 0x30 0x12) (fun _ x y => decide (x < y))
/-- The result for a TYPE that has no width to go to is a free value. -/
def State.freeVec (s : State) (u : WCore) (w : Nat) : State :=
  (s.usedFree.setV u (fRd w) (s.fresh 512).toNat).adv4 u
/-- Half of the lanes, sign-extended to the next width. -/
def State.extend (s : State) (u : WCore) (k : Nat) (high : Bool) : State :=
  s.issue u k fun w t =>
    let b := widthOf (fType w)
    let n := lanesOf (fType w) / 2
    let x := t.vr u (fRs1 w)
    if fType w = 2 then t.freeVec u w
    else (t.putLanes u w (2 * b) n (fun i => ofSigned (2 * b) (sLane x b (i + (if high then n else 0))))).adv4 u
def execVxtl (u : WCore) (s : State) : Out3 := onLive s fun s => s.extend u (key 0x30 0x13) false
def execVxth (u : WCore) (s : State) : Out3 := onLive s fun s => s.extend u (key 0x30 0x14) true
/-- VPACK: TYPE is the source width. -/
def execVpack (u : WCore) (s : State) : Out3 :=
  onLive s fun s => s.issue u (key 0x30 0x15) fun w t =>
    let b := widthOf (fType w)
    let n := lanesOf (fType w)
    let x := t.vr u (fRs1 w)
    let y := t.vr u (fRs2 w)
    if fType w = 0 then t.freeVec u w
    else (t.putLanes u w (b / 2) (2 * n) (fun i => satS (b / 2) (if i < n then sLane x b i else sLane y b (i - n)))).adv4 u

/-! ### Float lanes -/

/-- The format of a width. -/
def fmtOf (b : Nat) : Fmt := if b = 16 then f16 else f32
/-- A float operation on lanes, rounded once. -/
def State.float3 (s : State) (u : WCore) (k : Nat) (f : FVal → FVal → FVal → FVal) : State :=
  s.lanes3 u k (fun b d x y => (fmtOf b).round (f ((fmtOf b).val d) ((fmtOf b).val x) ((fmtOf b).val y)))
def execVfadd (u : WCore) (s : State) : Out3 := onLive s fun s => s.float3 u (key 0x31 0x00) (fun _ x y => x.add y)
def execVfsub (u : WCore) (s : State) : Out3 := onLive s fun s => s.float3 u (key 0x31 0x01) (fun _ x y => x.add y.neg)
def execVfmul (u : WCore) (s : State) : Out3 := onLive s fun s => s.float3 u (key 0x31 0x02) (fun _ x y => x.mul y)
def execVfma (u : WCore) (s : State) : Out3 := onLive s fun s => s.float3 u (key 0x31 0x03) (fun d x y => d.add (x.mul y))
/-- A zero with its sign bit. -/
def FVal.negZero : FVal → Bool
  | .fin true 0 _ _ => true
  | _ => false
def FVal.isZero : FVal → Bool
  | .fin _ 0 _ _ => true
  | _ => false
/-- IEEE 754 minimumNumber: a number beats a NaN, -0 is below +0. -/
def FVal.minNum (x y : FVal) : FVal :=
  if x = .nan then y else if y = .nan then x
  else if x.isZero && y.isZero then (if x.negZero then x else y)
  else if y.lt x then y else x
def FVal.maxNum (x y : FVal) : FVal :=
  if x = .nan then y else if y = .nan then x
  else if x.isZero && y.isZero then (if x.negZero then y else x)
  else if x.lt y then y else x
def execVfmin (u : WCore) (s : State) : Out3 := onLive s fun s => s.float3 u (key 0x31 0x04) (fun _ x y => x.minNum y)
def execVfmax (u : WCore) (s : State) : Out3 := onLive s fun s => s.float3 u (key 0x31 0x05) (fun _ x y => x.maxNum y)

/-- A result with the error that the operand's pattern has, at most 2^-12 of it before rounding (notes/assumptions/26.md). -/
def withError (b x : Nat) (v : FVal) : FVal :=
  let k : Int := (Config.approxError b x % 8189 : Nat) - 4094
  v.mul (.fin false (2 ^ 24 + k).toNat 1 (-24))
/-- 1 / sqrt x to far more bits than the error; -0 gives -infinity, a negative number NaN. -/
def FVal.rsqrt : FVal → FVal
  | .nan => .nan
  | .inf neg => if neg then .nan else .fin false 0 1 0
  | .fin neg n d e =>
    if n = 0 then .inf neg
    else if neg then .nan
    else
      -- sqrt (d / n * 2^-e) = sqrt (d * n * 4^80 * 2^(e mod 2)) / n * 2^(-(e + e mod 2) / 2 - 80)
      let r := (e % 2).toNat
      .fin false (Nat.sqrt (d * n * 2 ^ 160 * 2 ^ r)) n (-(Int.fdiv (e + r) 2) - 80)
def execVfrcp (u : WCore) (s : State) : Out3 :=
  onLive s fun s => s.lanes3 u (key 0x31 0x06)
    (fun b _ x _ => (fmtOf b).round (withError b x ((FVal.fin false 1 1 0).div ((fmtOf b).val x))))
def execVfrsq (u : WCore) (s : State) : Out3 :=
  onLive s fun s => s.lanes3 u (key 0x31 0x07) (fun b _ x _ => (fmtOf b).round (withError b x ((fmtOf b).val x).rsqrt))
def execVfcmplt (u : WCore) (s : State) : Out3 :=
  onLive s fun s => s.compare u (key 0x31 0x08) (fun b x y => ((fmtOf b).val x).lt ((fmtOf b).val y))
def execVfcmpeq (u : WCore) (s : State) : Out3 :=
  onLive s fun s => s.compare u (key 0x31 0x09) (fun b x y => ((fmtOf b).val x).eq ((fmtOf b).val y))
def execVcvtf (u : WCore) (s : State) : Out3 :=
  onLive s fun s => s.lanes3 u (key 0x31 0x0A) (fun b _ x _ => (fmtOf b).round (.ofInt (toSigned b x)))
/-- To the nearest integer, ties to even, saturated; `nan` for a NaN. -/
def FVal.toIntLane (v : FVal) (b nan : Nat) : Nat :=
  match v with
  | .nan => nan
  | .inf neg => if neg then 2 ^ (b - 1) else 2 ^ (b - 1) - 1
  | .fin neg n d e =>
    let m : Nat := if 0 ≤ e then rneDiv (n * 2 ^ e.toNat) d else rneDiv n (d * 2 ^ (-e).toNat)
    satS b (if neg then -(m : Int) else (m : Int))
/-- VCVTI: what a NaN becomes is a free value. -/
def execVcvti (u : WCore) (s : State) : Out3 :=
  onLive s fun s => s.issue u (key 0x31 0x0B) fun w t =>
    let b := widthOf (fType w)
    let x := t.vr u (fRs1 w)
    let free := (t.fresh 512).toNat
    (t.usedFree.putLanes u w b (lanesOf (fType w)) (fun i => ((fmtOf b).val (lane x b i)).toIntLane b (lane free b i))).adv4 u
/-- Half of the FP16 lanes as FP32. -/
def State.widen (s : State) (u : WCore) (k : Nat) (high : Bool) : State :=
  s.issue u k fun w t =>
    let x := t.vr u (fRs1 w)
    (t.putLanes u w 32 16 (fun i => f32.round (f16.val (lane x 16 (i + (if high then 16 else 0)))))).adv4 u
def execVfwidl (u : WCore) (s : State) : Out3 := onLive s fun s => s.widen u (key 0x31 0x0C) false
def execVfwidh (u : WCore) (s : State) : Out3 := onLive s fun s => s.widen u (key 0x31 0x0D) true
def execVfnarr (u : WCore) (s : State) : Out3 :=
  onLive s fun s => s.issue u (key 0x31 0x0E) fun w t =>
    let x := t.vr u (fRs1 w)
    let y := t.vr u (fRs2 w)
    (t.putLanes u w 16 32 (fun i => f16.round (f32.val (if i < 16 then lane x 32 i else lane y 32 (i - 16))))).adv4 u

/-! ### Vector loads and stores -/

/-- The address of VLD and VST: rs1 + 64 x IMM. -/
def State.vecAddr (s : State) (u : WCore) (w : Nat) : Nat := (s.xr u (fRs1 w) + 64 * sImm w).toNat
def execVld (u : WCore) (bad : Bool) (s : State) : Out3 :=
  onLive s fun s => s.issue u (key 0x32 0) fun w t =>
    State.onRead (t.coreRead u (t.vecAddr u w) 64 bad) u fun l t1 => (t1.setV u (fRd w) (leNat l)).adv4 u
def execVst (u : WCore) (s : State) : Out3 :=
  onLive s fun s => s.issue u (key 0x33 0) fun w t =>
    let x := t.coreWrite u (t.vecAddr u w) (toBytes 64 (t.vr u (fRd w))) false
    if x.1 then x.2.adv4 u else x.2.coreTrap u
/-- The address of lane i of VLDS and VSTS: rs1 + i x rs2. -/
def State.laneAddr (s : State) (u : WCore) (w i : Nat) : Nat := (s.xr u (fRs1 w) + wd i * s.xr u (fRs2 w)).toNat
/-- Lanes read one after another; the first that does not come ends the reads. -/
def State.gather (s : State) (u : WCore) (size : Nat) (bad : Bool) : List Nat → List Byte → Ld × State
  | [], acc => (.bytes acc, s)
  | a :: t, acc =>
    let x := s.coreRead u a size bad
    match x.1 with
    | .bytes l => State.gather x.2 u size bad t (acc ++ l)
    | r => (r, x.2)
def State.scatter (s : State) (u : WCore) (size : Nat) (v : Nat) : List (Nat × Nat) → Bool × State
  | [] => (true, s)
  | (i, a) :: t =>
    let x := s.coreWrite u a (toBytes size (lane v (8 * size) i)) false
    if x.1 then State.scatter x.2 u size v t else x
/-- Bytes of a lane (FUNC). -/
def laneSize (w : Nat) : Nat := 2 ^ bits w 1 0
def execVlds (u : WCore) (bad : Bool) (s : State) : Out3 :=
  onLive s fun s => s.issue u (key 0x34 0) fun w t =>
    let n := laneSize w
    State.onRead (t.gather u n bad ((List.range (64 / n)).map (t.laneAddr u w)) []) u fun l t1 => (t1.setV u (fRd w) (leNat l)).adv4 u
def execVsts (u : WCore) (s : State) : Out3 :=
  onLive s fun s => s.issue u (key 0x35 0) fun w t =>
    let n := laneSize w
    let x := t.scatter u n (t.vr u (fRd w)) ((List.range (64 / n)).map (fun i => (i, t.laneAddr u w i)))
    if x.1 then x.2.adv4 u else x.2.coreTrap u

/-! ### Moves, reductions, masks -/

def execVbcst (u : WCore) (s : State) : Out3 :=
  onLive s fun s => s.issue u (key 0x36 0x00) fun w t =>
    let x := (t.xr u (fRs1 w)).toNat
    (t.putLanes u w (widthOf (fType w)) (lanesOf (fType w)) (fun _ => x)).adv4 u
/-- A signed lane as a word. -/
def laneWord (v b i : Nat) : Word := wd (ofSigned 32 (sLane v b i))
def execVext (u : WCore) (s : State) : Out3 :=
  onLive s fun s => s.issue u (key 0x36 0x01) fun w t =>
    let i := (t.xr u (fRs2 w)).toNat % lanesOf (fType w)
    (t.setX u (fRd w) (laneWord (t.vr u (fRs1 w)) (widthOf (fType w)) i)).adv4 u
def execVins (u : WCore) (s : State) : Out3 :=
  onLive s fun s => s.issue u (key 0x36 0x02) fun w t =>
    let b := widthOf (fType w)
    let k := (t.xr u (fRs2 w)).toNat % lanesOf (fType w)
    let x := (t.xr u (fRs1 w)).toNat
    let old := t.vr u (fRd w)
    (t.putLanes u w b (lanesOf (fType w)) (fun i => if i = k then x else lane old b i)).adv4 u
def execVperm (u : WCore) (s : State) : Out3 :=
  onLive s fun s => s.issue u (key 0x36 0x03) fun w t =>
    let b := widthOf (fType w)
    let n := lanesOf (fType w)
    let x := t.vr u (fRs1 w)
    let y := t.vr u (fRs2 w)
    (t.putLanes u w b n (fun i => lane x b (lane y b i % n))).adv4 u
/-- The enabled lanes of vs1, in lane order. -/
def State.enabledLanes (s : State) (u : WCore) (w : Nat) : List Nat :=
  ((List.range (lanesOf (fType w))).filter (s.enabled u w)).map (lane (s.vr u (fRs1 w)) (widthOf (fType w)))
/-- x[vd] := a reduction of the enabled lanes as signed numbers. -/
def State.reduce (s : State) (u : WCore) (k : Nat) (start : Nat → Int) (f : Int → Int → Int) : State :=
  s.issue u k fun w t =>
    let b := widthOf (fType w)
    (t.setX u (fRd w) (wd (ofSigned 32 (((t.enabledLanes u w).map (toSigned b)).foldl f (start b))))).adv4 u
def execVradd (u : WCore) (s : State) : Out3 := onLive s fun s => s.reduce u (key 0x36 0x04) (fun _ => 0) (· + ·)
def execVrmax (u : WCore) (s : State) : Out3 :=
  onLive s fun s => s.reduce u (key 0x36 0x05) (fun b => -((2 : Int) ^ (b - 1))) max
def execVrmin (u : WCore) (s : State) : Out3 :=
  onLive s fun s => s.reduce u (key 0x36 0x06) (fun b => (2 : Int) ^ (b - 1) - 1) min
/-- Neighbours added, a last one alone carried on. -/
def pairSums : List Nat → List Nat
  | a :: b :: t => f32.round ((f32.val a).add (f32.val b)) :: pairSums t
  | l => l
/-- Added pairwise in lane order until one is left; 0 for none. -/
def treeSum : Nat → List Nat → Nat
  | _, [] => 0
  | _, [a] => a
  | 0, a :: _ => a
  | n + 1, l => treeSum n (pairSums l)
def execVfradd (u : WCore) (s : State) : Out3 :=
  onLive s fun s => s.issue u (key 0x36 0x07) fun w t =>
    let l := (t.enabledLanes u w).map (fun x => f32.round ((fmtOf (widthOf (fType w))).val x))
    (t.setX u (fRd w) (wd (treeSum 6 l))).adv4 u
def execMset (u : WCore) (s : State) : Out3 :=
  onLive s fun s => s.issue u (key 0x36 0x08) fun w t =>
    (t.setM u (fRd w) ((t.xr u (fRs1 w)).toNat + (t.xr u (fRs2 w)).toNat * 2 ^ 32)).adv4 u
def execMget (u : WCore) (s : State) : Out3 :=
  onLive s fun s => s.issue u (key 0x36 0x09) fun w t =>
    let m := t.mr u (fRs1 w)
    (t.setX u (fRd w) (wd (if fRs2 w = 0 then m else m / 2 ^ 32))).adv4 u

end Sys2Proof.Machine
end

