-- ==== Sys2Proof/Machine/Dispatch.lean ====
section
/-! DEFINITION. Which meaning each command has: one arm per constructor. -/
namespace Sys2Proof.Machine

def exec (i : Instr) (s : State) : Host.Outcome State Fault Refusal :=
  match i with
  | .controlSpaceWrite r addr value => Sys2Proof.Machine.execControlSpaceWrite r addr value s
  | .invalidAddressRead r addr => Sys2Proof.Machine.execInvalidAddressRead r addr s
  | .rcRead r addr => Sys2Proof.Machine.execRcRead r addr s
  | .windowRead r addr => Sys2Proof.Machine.execWindowRead r addr s
  | .windowWrite r addr value => Sys2Proof.Machine.execWindowWrite r addr value s
  | .memoryRequest r write addr len data => Sys2Proof.Machine.execMemoryRequest r write addr len data s
  | .streamPacketRoute p die toHub => Sys2Proof.Machine.execStreamPacketRoute p die toHub s
  | .bridgeReplay brg bridge => Sys2Proof.Machine.execBridgeReplay brg bridge s
  | .controlPacketApply u => Sys2Proof.Machine.execControlPacketApply u s
  | .c0StreamWrite r n value => Sys2Proof.Machine.execC0StreamWrite r n value s
  | .powerOnReset => Sys2Proof.Machine.execPowerOnReset s
  | .resetRelease bootmode posn => Sys2Proof.Machine.execResetRelease bootmode posn s
  | .fuseReadDone ok fuses => Sys2Proof.Machine.execFuseReadDone ok fuses s
  | .flashDiscoveryDone capacity octal headerA headerB => Sys2Proof.Machine.execFlashDiscoveryDone capacity octal headerA headerB s
  | .slotCheckDone image => Sys2Proof.Machine.execSlotCheckDone image s
  | .hostLoadGo r => Sys2Proof.Machine.execHostLoadGo r s
  | .hostImageReadDone failed => Sys2Proof.Machine.execHostImageReadDone failed s
  | .registerWriteRecord late target words => Sys2Proof.Machine.execRegisterWriteRecord late target words s
  | .maskedRegisterWriteRecord late target value mask => Sys2Proof.Machine.execMaskedRegisterWriteRecord late target value mask s
  | .pollRecord late target value mask timeoutUs => Sys2Proof.Machine.execPollRecord late target value mask timeoutUs s
  | .pollReread => Sys2Proof.Machine.execPollReread s
  | .pollTimeout => Sys2Proof.Machine.execPollTimeout s
  | .conditionalRecord selector mask matched skip => Sys2Proof.Machine.execConditionalRecord selector mask matched skip s
  | .almanacPartitionRecord offset size epoch => Sys2Proof.Machine.execAlmanacPartitionRecord offset size epoch s
  | .signatureRecord key sigR sigS covered => Sys2Proof.Machine.execSignatureRecord key sigR sigS covered s
  | .endRecord => Sys2Proof.Machine.execEndRecord s
  | .unknownRecord => Sys2Proof.Machine.execUnknownRecord s
  | .blockLoadRecord target data => Sys2Proof.Machine.execBlockLoadRecord target data s
  | .tileCalibrationLoadRecord target data => Sys2Proof.Machine.execTileCalibrationLoadRecord target data s
  | .stewardFirmwareRecord cores payload => Sys2Proof.Machine.execStewardFirmwareRecord cores payload s
  | .engineFirmwareRecord clusters payload => Sys2Proof.Machine.execEngineFirmwareRecord clusters payload s
  | .codecFirmwareRecord cores payload => Sys2Proof.Machine.execCodecFirmwareRecord cores payload s
  | .dramTrainingDone failed foms orgs => Sys2Proof.Machine.execDramTrainingDone failed foms orgs s
  | .adventA4End => Sys2Proof.Machine.execAdventA4End s
  | .almanacReplay readable => Sys2Proof.Machine.execAlmanacReplay readable s
  | .censusTokenStart => Sys2Proof.Machine.execCensusTokenStart s
  | .processionCensusReceive right packet locked partnerPrefers => Sys2Proof.Machine.execProcessionCensusReceive right packet locked partnerPrefers s
  | .censusWaitExpiry locked partnerPrefers => Sys2Proof.Machine.execCensusWaitExpiry locked partnerPrefers s
  | .almanacCommit r fewErased => Sys2Proof.Machine.execAlmanacCommit r fewErased s
  | .almanacPeriodicCommit fewErased => Sys2Proof.Machine.execAlmanacPeriodicCommit fewErased s
  | .almanacCommitDone => Sys2Proof.Machine.execAlmanacCommitDone s
  | .discardAl r => Sys2Proof.Machine.execDiscardAl r s
  | .powerFail => Sys2Proof.Machine.execPowerFail s
  | .powerFailClear => Sys2Proof.Machine.execPowerFailClear s
  | .wearLedgerTick => Sys2Proof.Machine.execWearLedgerTick s
  | .campEnable r p value => Sys2Proof.Machine.execCampEnable r p value s
  | .campDisable r p value => Sys2Proof.Machine.execCampDisable r p value s
  | .cameraFrameStart p => Sys2Proof.Machine.execCameraFrameStart p s
  | .cameraFrameEnd p parts => Sys2Proof.Machine.execCameraFrameEnd p parts s
  | .cameraLineStart p => Sys2Proof.Machine.execCameraLineStart p s
  | .cameraLineEnd p parts => Sys2Proof.Machine.execCameraLineEnd p parts s
  | .lineTimeout p => Sys2Proof.Machine.execLineTimeout p s
  | .frameDeadline p => Sys2Proof.Machine.execFrameDeadline p s
  | .clockLost p parts => Sys2Proof.Machine.execClockLost p parts s
  | .trainingStart p write => Sys2Proof.Machine.execTrainingStart p write s
  | .trainingBurst p cycles => Sys2Proof.Machine.execTrainingBurst p cycles s
  | .trainingEnd p => Sys2Proof.Machine.execTrainingEnd p s
  | .tapWrite r p value => Sys2Proof.Machine.execTapWrite r p value s
  | .cameraStampRead r p => Sys2Proof.Machine.execCameraStampRead r p s
  | .pipeLineDone pipe => Sys2Proof.Machine.execPipeLineDone pipe s
  | .calEntryStore r p value => Sys2Proof.Machine.execCalEntryStore r p value s
  | .writeListStore r p value => Sys2Proof.Machine.execWriteListStore r p value s
  | .calTrigger p entry => Sys2Proof.Machine.execCalTrigger p entry s
  | .calDeadline p entry => Sys2Proof.Machine.execCalDeadline p entry s
  | .freeze p => Sys2Proof.Machine.execFreeze p s
  | .calMidpointRead r p => Sys2Proof.Machine.execCalMidpointRead r p s
  | .pipeFrameStart pipe => Sys2Proof.Machine.execPipeFrameStart pipe s
  | .pipeLine pipe answers => Sys2Proof.Machine.execPipeLine pipe answers s
  | .refReadDone pipe row poison => Sys2Proof.Machine.execRefReadDone pipe row poison s
  | .refWriteDone pipe error => Sys2Proof.Machine.execRefWriteDone pipe error s
  | .feTableWrite r pipe value => Sys2Proof.Machine.execFeTableWrite r pipe value s
  | .mfeFrameStart pipe => Sys2Proof.Machine.execMfeFrameStart pipe s
  | .mfeBlockRefine pipe column row => Sys2Proof.Machine.execMfeBlockRefine pipe column row s
  | .fieldWriteDone pipe error => Sys2Proof.Machine.execFieldWriteDone pipe error s
  | .colourTableWrite r pipe value => Sys2Proof.Machine.execColourTableWrite r pipe value s
  | .colourTableLoad r pipe value => Sys2Proof.Machine.execColourTableLoad r pipe value s
  | .colourLoadDone pipe failedAt => Sys2Proof.Machine.execColourLoadDone pipe failedAt s
  | .bufferHeadWrite pipe slot output error => Sys2Proof.Machine.execBufferHeadWrite pipe slot output error s
  | .harvestWriteStart pipe => Sys2Proof.Machine.execHarvestWriteStart pipe s
  | .harvestWriteDone pipe slot error => Sys2Proof.Machine.execHarvestWriteDone pipe slot error s
  | .headEnable r h value => Sys2Proof.Machine.execHeadEnable r h value s
  | .headFreeze h => Sys2Proof.Machine.execHeadFreeze h s
  | .surfaceSelectDone h failed poisoned => Sys2Proof.Machine.execSurfaceSelectDone h failed poisoned s
  | .startTargetReached h => Sys2Proof.Machine.execStartTargetReached h s
  | .headRowEnd h recordWritten => Sys2Proof.Machine.execHeadRowEnd h recordWritten s
  | .headRowStart h => Sys2Proof.Machine.execHeadRowStart h s
  | .directLineArrival h => Sys2Proof.Machine.execDirectLineArrival h s
  | .directWaitExpiry h => Sys2Proof.Machine.execDirectWaitExpiry h s
  | .surfaceFetchDone h layer row poison => Sys2Proof.Machine.execSurfaceFetchDone h layer row poison s
  | .headFilterWrite r h value => Sys2Proof.Machine.execHeadFilterWrite r h value s
  | .placementWrite r h value => Sys2Proof.Machine.execPlacementWrite r h value s
  | .headStampRead r h => Sys2Proof.Machine.execHeadStampRead r h s
  | .emitterFetchDone h tile line poison => Sys2Proof.Machine.execEmitterFetchDone h tile line poison s
  | .tileRecordStore r h value => Sys2Proof.Machine.execTileRecordStore r h value s
  | .tcmLoad r h value => Sys2Proof.Machine.execTcmLoad r h value s
  | .tcmLoadDone h failedAt => Sys2Proof.Machine.execTcmLoadDone h failedAt s
  | .curveWrite r h value => Sys2Proof.Machine.execCurveWrite r h value s
  | .paradeSegmentSend n => Sys2Proof.Machine.execParadeSegmentSend n s
  | .beaconSend n => Sys2Proof.Machine.execBeaconSend n s
  | .laneMarkerSend n => Sys2Proof.Machine.execLaneMarkerSend n s
  | .prdPacketReceive n blocks => Sys2Proof.Machine.execPrdPacketReceive n blocks s
  | .ringBreak n headers => Sys2Proof.Machine.execRingBreak n headers s
  | .brightnessSend r n value => Sys2Proof.Machine.execBrightnessSend r n value s
  | .statusPollSend r n value => Sys2Proof.Machine.execStatusPollSend r n value s
  | .statusReplyReceive n packet => Sys2Proof.Machine.execStatusReplyReceive n packet s
  | .statusPollTimeout n => Sys2Proof.Machine.execStatusPollTimeout n s
  | .censusStart r n value => Sys2Proof.Machine.execCensusStart r n value s
  | .censusResultReceive n packet => Sys2Proof.Machine.execCensusResultReceive n packet s
  | .censusTimeout n => Sys2Proof.Machine.execCensusTimeout n s
  | .ctxStart r ctx => Sys2Proof.Machine.execCtxStart r ctx s
  | .ctxStop r ctx => Sys2Proof.Machine.execCtxStop r ctx s
  | .ctxUpdate r ctx => Sys2Proof.Machine.execCtxUpdate r ctx s
  | .ctxIdr r ctx => Sys2Proof.Machine.execCtxIdr r ctx s
  | .ctxResync r ctx => Sys2Proof.Machine.execCtxResync r ctx s
  | .sourcePoll ctx poison fieldMoved fieldPoison => Sys2Proof.Machine.execSourcePoll ctx poison fieldMoved fieldPoison s
  | .pictureStart core poison => Sys2Proof.Machine.execPictureStart core poison s
  | .pictureDone core coded poison => Sys2Proof.Machine.execPictureDone core coded poison s
  | .coreWatchdog core => Sys2Proof.Machine.execCoreWatchdog core s
  | .coreResetDone core => Sys2Proof.Machine.execCoreResetDone core s
  | .decodePictureStart core => Sys2Proof.Machine.execDecodePictureStart core s
  | .decodePictureDone core run => Sys2Proof.Machine.execDecodePictureDone core run s
  | .decodeWatchdog core run => Sys2Proof.Machine.execDecodeWatchdog core run s
  | .decodeStopTimeout core => Sys2Proof.Machine.execDecodeStopTimeout core s
  | .picturePublish ctx => Sys2Proof.Machine.execPicturePublish ctx s
  | .vdcClear r core value => Sys2Proof.Machine.execVdcClear r core value s
  | .queueDoorbell r cluster queue value => Sys2Proof.Machine.execQueueDoorbell r cluster queue value s
  | .jobDispatch c => Sys2Proof.Machine.execJobDispatch c s
  | .jobDescriptorReadDone c bad => Sys2Proof.Machine.execJobDescriptorReadDone c bad s
  | .jobBudgetExpiry e => Sys2Proof.Machine.execJobBudgetExpiry e s
  | .engineResetDone e => Sys2Proof.Machine.execEngineResetDone e s
  | .engineFirmwareLoad r c value => Sys2Proof.Machine.execEngineFirmwareLoad r c value s
  | .engineFirmwareLoadDone c bad => Sys2Proof.Machine.execEngineFirmwareLoadDone c bad s
  | .clusterGate c => Sys2Proof.Machine.execClusterGate c s
  | .engFreqChange die => Sys2Proof.Machine.execEngFreqChange die s
  | .cdmaTransferDone e slot bad => Sys2Proof.Machine.execCdmaTransferDone e slot bad s
  | .fenceDrained u => Sys2Proof.Machine.execFenceDrained u s
  | .waitWake u => Sys2Proof.Machine.execWaitWake u s
  | .add u => Sys2Proof.Machine.execAdd u s
  | .sub u => Sys2Proof.Machine.execSub u s
  | .and u => Sys2Proof.Machine.execAnd u s
  | .or u => Sys2Proof.Machine.execOr u s
  | .xor u => Sys2Proof.Machine.execXor u s
  | .sll u => Sys2Proof.Machine.execSll u s
  | .srl u => Sys2Proof.Machine.execSrl u s
  | .sra u => Sys2Proof.Machine.execSra u s
  | .slt u => Sys2Proof.Machine.execSlt u s
  | .sltu u => Sys2Proof.Machine.execSltu u s
  | .min u => Sys2Proof.Machine.execMin u s
  | .max u => Sys2Proof.Machine.execMax u s
  | .clz u => Sys2Proof.Machine.execClz u s
  | .popc u => Sys2Proof.Machine.execPopc u s
  | .mul u => Sys2Proof.Machine.execMul u s
  | .mulh u => Sys2Proof.Machine.execMulh u s
  | .mulhu u => Sys2Proof.Machine.execMulhu u s
  | .div u => Sys2Proof.Machine.execDiv u s
  | .divu u => Sys2Proof.Machine.execDivu u s
  | .rem u => Sys2Proof.Machine.execRem u s
  | .remu u => Sys2Proof.Machine.execRemu u s
  | .addi u => Sys2Proof.Machine.execAddi u s
  | .andi u => Sys2Proof.Machine.execAndi u s
  | .ori u => Sys2Proof.Machine.execOri u s
  | .xori u => Sys2Proof.Machine.execXori u s
  | .slti u => Sys2Proof.Machine.execSlti u s
  | .sltiu u => Sys2Proof.Machine.execSltiu u s
  | .slli u => Sys2Proof.Machine.execSlli u s
  | .srli u => Sys2Proof.Machine.execSrli u s
  | .srai u => Sys2Proof.Machine.execSrai u s
  | .lui u => Sys2Proof.Machine.execLui u s
  | .lw u bad => Sys2Proof.Machine.execLw u bad s
  | .lh u bad => Sys2Proof.Machine.execLh u bad s
  | .lhu u bad => Sys2Proof.Machine.execLhu u bad s
  | .lb u bad => Sys2Proof.Machine.execLb u bad s
  | .lbu u bad => Sys2Proof.Machine.execLbu u bad s
  | .sw u => Sys2Proof.Machine.execSw u s
  | .sh u => Sys2Proof.Machine.execSh u s
  | .sb u => Sys2Proof.Machine.execSb u s
  | .aadd u bad => Sys2Proof.Machine.execAadd u bad s
  | .aswp u bad => Sys2Proof.Machine.execAswp u bad s
  | .aand u bad => Sys2Proof.Machine.execAand u bad s
  | .aor u bad => Sys2Proof.Machine.execAor u bad s
  | .amaxu u bad => Sys2Proof.Machine.execAmaxu u bad s
  | .acas u bad => Sys2Proof.Machine.execAcas u bad s
  | .beq u => Sys2Proof.Machine.execBeq u s
  | .bne u => Sys2Proof.Machine.execBne u s
  | .blt u => Sys2Proof.Machine.execBlt u s
  | .bge u => Sys2Proof.Machine.execBge u s
  | .bltu u => Sys2Proof.Machine.execBltu u s
  | .bgeu u => Sys2Proof.Machine.execBgeu u s
  | .jal u => Sys2Proof.Machine.execJal u s
  | .jalr u => Sys2Proof.Machine.execJalr u s
  | .fence u => Sys2Proof.Machine.execFence u s
  | .ifence u => Sys2Proof.Machine.execIfence u s
  | .sig u => Sys2Proof.Machine.execSig u s
  | .jend u => Sys2Proof.Machine.execJend u s
  | .wait u bad => Sys2Proof.Machine.execWait u bad s
  | .cln u => Sys2Proof.Machine.execCln u s
  | .inv u => Sys2Proof.Machine.execInv u s
  | .cli u => Sys2Proof.Machine.execCli u s
  | .clnall u => Sys2Proof.Machine.execClnall u s
  | .cdma u bad => Sys2Proof.Machine.execCdma u bad s
  | .dmaw u => Sys2Proof.Machine.execDmaw u s
  | .trap u => Sys2Proof.Machine.execTrap u s
  | .csrr u => Sys2Proof.Machine.execCsrr u s
  | .csrw u => Sys2Proof.Machine.execCsrw u s
  | .unassignedOpcode u eccError => Sys2Proof.Machine.execUnassignedOpcode u eccError s
  | .vadd u => Sys2Proof.Machine.execVadd u s
  | .vsub u => Sys2Proof.Machine.execVsub u s
  | .vadds u => Sys2Proof.Machine.execVadds u s
  | .vsubs u => Sys2Proof.Machine.execVsubs u s
  | .vmul u => Sys2Proof.Machine.execVmul u s
  | .vmulh u => Sys2Proof.Machine.execVmulh u s
  | .vmac u => Sys2Proof.Machine.execVmac u s
  | .vmin u => Sys2Proof.Machine.execVmin u s
  | .vmax u => Sys2Proof.Machine.execVmax u s
  | .vand u => Sys2Proof.Machine.execVand u s
  | .vor u => Sys2Proof.Machine.execVor u s
  | .vxor u => Sys2Proof.Machine.execVxor u s
  | .vshl u => Sys2Proof.Machine.execVshl u s
  | .vshr u => Sys2Proof.Machine.execVshr u s
  | .vsra u => Sys2Proof.Machine.execVsra u s
  | .vsel u => Sys2Proof.Machine.execVsel u s
  | .vcmpeq u => Sys2Proof.Machine.execVcmpeq u s
  | .vcmplt u => Sys2Proof.Machine.execVcmplt u s
  | .vcmpltu u => Sys2Proof.Machine.execVcmpltu u s
  | .vxtl u => Sys2Proof.Machine.execVxtl u s
  | .vxth u => Sys2Proof.Machine.execVxth u s
  | .vpack u => Sys2Proof.Machine.execVpack u s
  | .vfadd u => Sys2Proof.Machine.execVfadd u s
  | .vfsub u => Sys2Proof.Machine.execVfsub u s
  | .vfmul u => Sys2Proof.Machine.execVfmul u s
  | .vfma u => Sys2Proof.Machine.execVfma u s
  | .vfmin u => Sys2Proof.Machine.execVfmin u s
  | .vfmax u => Sys2Proof.Machine.execVfmax u s
  | .vfrcp u => Sys2Proof.Machine.execVfrcp u s
  | .vfrsq u => Sys2Proof.Machine.execVfrsq u s
  | .vfcmplt u => Sys2Proof.Machine.execVfcmplt u s
  | .vfcmpeq u => Sys2Proof.Machine.execVfcmpeq u s
  | .vcvtf u => Sys2Proof.Machine.execVcvtf u s
  | .vcvti u => Sys2Proof.Machine.execVcvti u s
  | .vfwidl u => Sys2Proof.Machine.execVfwidl u s
  | .vfwidh u => Sys2Proof.Machine.execVfwidh u s
  | .vfnarr u => Sys2Proof.Machine.execVfnarr u s
  | .vld u bad => Sys2Proof.Machine.execVld u bad s
  | .vst u => Sys2Proof.Machine.execVst u s
  | .vlds u bad => Sys2Proof.Machine.execVlds u bad s
  | .vsts u => Sys2Proof.Machine.execVsts u s
  | .vbcst u => Sys2Proof.Machine.execVbcst u s
  | .vext u => Sys2Proof.Machine.execVext u s
  | .vins u => Sys2Proof.Machine.execVins u s
  | .vperm u => Sys2Proof.Machine.execVperm u s
  | .vradd u => Sys2Proof.Machine.execVradd u s
  | .vrmax u => Sys2Proof.Machine.execVrmax u s
  | .vrmin u => Sys2Proof.Machine.execVrmin u s
  | .vfradd u => Sys2Proof.Machine.execVfradd u s
  | .mset u => Sys2Proof.Machine.execMset u s
  | .mget u => Sys2Proof.Machine.execMget u s
  | .dramRequest channel write cls r addr data => Sys2Proof.Machine.execDramRequest channel write cls r addr data s
  | .dramSlotIssue channel sub busy => Sys2Proof.Machine.execDramSlotIssue channel sub busy s
  | .dramReadReturn channel link inline => Sys2Proof.Machine.execDramReadReturn channel link inline s
  | .commandPathParityError channel write entry => Sys2Proof.Machine.execCommandPathParityError channel write entry s
  | .dramRefresh channel sub bank => Sys2Proof.Machine.execDramRefresh channel sub bank s
  | .mr4Poll channel dies => Sys2Proof.Machine.execMr4Poll channel dies s
  | .dramDriftCheck channel => Sys2Proof.Machine.execDramDriftCheck channel s
  | .dramRetrain channel => Sys2Proof.Machine.execDramRetrain channel s
  | .dramRetrainNow r channel => Sys2Proof.Machine.execDramRetrainNow r channel s
  | .dramRetrainStep channel => Sys2Proof.Machine.execDramRetrainStep channel s
  | .dramRetrainDone channel working fom => Sys2Proof.Machine.execDramRetrainDone channel working fom s
  | .dramScrub channel => Sys2Proof.Machine.execDramScrub channel s
  | .dramDiagRead r channel => Sys2Proof.Machine.execDramDiagRead r channel s
  | .dramDiagDone channel => Sys2Proof.Machine.execDramDiagDone channel s
  | .dramSnapshotClear r channel => Sys2Proof.Machine.execDramSnapshotClear r channel s
  | .addressTranslate r value => Sys2Proof.Machine.execAddressTranslate r value s
  | .dmcMaskWrite r bank k value => Sys2Proof.Machine.execDmcMaskWrite r bank k value s
  | .dmaArm r n => Sys2Proof.Machine.execDmaArm r n s
  | .dmaDisarm r n => Sys2Proof.Machine.execDmaDisarm r n s
  | .dmaAbort r n => Sys2Proof.Machine.execDmaAbort r n s
  | .dmaPause r n => Sys2Proof.Machine.execDmaPause r n s
  | .dmaUnpause r n => Sys2Proof.Machine.execDmaUnpause r n s
  | .dmaPauseAll r => Sys2Proof.Machine.execDmaPauseAll r s
  | .dmaUnpauseAll r => Sys2Proof.Machine.execDmaUnpauseAll r s
  | .dmaShadowWrite r n word value => Sys2Proof.Machine.execDmaShadowWrite r n word value s
  | .dmaReadIssue n => Sys2Proof.Machine.execDmaReadIssue n s
  | .dmaReadReturn n which answer => Sys2Proof.Machine.execDmaReadReturn n which answer s
  | .dmaWriteResponse n which error => Sys2Proof.Machine.execDmaWriteResponse n which error s
  | .sqDoorbell sq tail => Sys2Proof.Machine.execSqDoorbell sq tail s
  | .cqDoorbell cq head => Sys2Proof.Machine.execCqDoorbell cq head s
  | .nvmFlush sq => Sys2Proof.Machine.execNvmFlush sq s
  | .nvmWrite sq => Sys2Proof.Machine.execNvmWrite sq s
  | .nvmRead sq => Sys2Proof.Machine.execNvmRead sq s
  | .nvmWriteZeroes sq => Sys2Proof.Machine.execNvmWriteZeroes sq s
  | .datasetManagement sq => Sys2Proof.Machine.execDatasetManagement sq s
  | .invalidCommandOpcode sq => Sys2Proof.Machine.execInvalidCommandOpcode sq s
  | .createIoSubmissionQueue => Sys2Proof.Machine.execCreateIoSubmissionQueue s
  | .deleteIoSubmissionQueue => Sys2Proof.Machine.execDeleteIoSubmissionQueue s
  | .createIoCompletionQueue => Sys2Proof.Machine.execCreateIoCompletionQueue s
  | .deleteIoCompletionQueue => Sys2Proof.Machine.execDeleteIoCompletionQueue s
  | .getLogPage => Sys2Proof.Machine.execGetLogPage s
  | .identify => Sys2Proof.Machine.execIdentify s
  | .nvmeAbort => Sys2Proof.Machine.execNvmeAbort s
  | .setFeaturesArbitration => Sys2Proof.Machine.execSetFeaturesArbitration s
  | .setFeaturesTemperatureThreshold => Sys2Proof.Machine.execSetFeaturesTemperatureThreshold s
  | .setFeaturesVolatileWriteCache => Sys2Proof.Machine.execSetFeaturesVolatileWriteCache s
  | .setFeaturesNumberOfQueues => Sys2Proof.Machine.execSetFeaturesNumberOfQueues s
  | .setFeaturesInterruptCoalescing => Sys2Proof.Machine.execSetFeaturesInterruptCoalescing s
  | .setFeaturesInterruptVectorConfig => Sys2Proof.Machine.execSetFeaturesInterruptVectorConfig s
  | .setFeaturesAsyncEventConfig => Sys2Proof.Machine.execSetFeaturesAsyncEventConfig s
  | .getFeatures => Sys2Proof.Machine.execGetFeatures s
  | .asynchronousEventRequest => Sys2Proof.Machine.execAsynchronousEventRequest s
  | .namespaceCreate => Sys2Proof.Machine.execNamespaceCreate s
  | .namespaceDelete => Sys2Proof.Machine.execNamespaceDelete s
  | .namespaceAttach => Sys2Proof.Machine.execNamespaceAttach s
  | .namespaceDetach => Sys2Proof.Machine.execNamespaceDetach s
  | .firmwareImageDownload => Sys2Proof.Machine.execFirmwareImageDownload s
  | .firmwareCommitStage => Sys2Proof.Machine.execFirmwareCommitStage s
  | .firmwareCommitActivate => Sys2Proof.Machine.execFirmwareCommitActivate s
  | .firmwareCommitActivateSlot image => Sys2Proof.Machine.execFirmwareCommitActivateSlot image s
  | .formatNvm => Sys2Proof.Machine.execFormatNvm s
  | .storeLabelFormat => Sys2Proof.Machine.execStoreLabelFormat s
  | .sanitizeBlockErase => Sys2Proof.Machine.execSanitizeBlockErase s
  | .sanitizeOverwrite => Sys2Proof.Machine.execSanitizeOverwrite s
  | .formatDone => Sys2Proof.Machine.execFormatDone s
  | .sanitizeDone => Sys2Proof.Machine.execSanitizeDone s
  | .controllerReset => Sys2Proof.Machine.execControllerReset s
  | .nvmSubsystemReset => Sys2Proof.Machine.execNvmSubsystemReset s
  | .controllerEnable cc aqa asq acq => Sys2Proof.Machine.execControllerEnable cc aqa asq acq s
  | .shutdownNotification => Sys2Proof.Machine.execShutdownNotification s
  | .pcieLinkReset linkDown => Sys2Proof.Machine.execPcieLinkReset linkDown s
  | .hostBar4Access write offset len data => Sys2Proof.Machine.execHostBar4Access write offset len data s
  | .outboundCompletionTimeout k => Sys2Proof.Machine.execOutboundCompletionTimeout k s
  | .cacheWriteback poison => Sys2Proof.Machine.execCacheWriteback poison s
  | .ssdCommandComplete port id status data => Sys2Proof.Machine.execSsdCommandComplete port id status data s
  | .ssdCommandTimeout port id => Sys2Proof.Machine.execSsdCommandTimeout port id s
  | .ssdControllerReset port => Sys2Proof.Machine.execSsdControllerReset port s
  | .ssdLinkUp port info => Sys2Proof.Machine.execSsdLinkUp port info s
  | .ssdLinkDown port => Sys2Proof.Machine.execSsdLinkDown port s
  | .nvhErrorClear r port value => Sys2Proof.Machine.execNvhErrorClear r port value s
  | .recordTaskEnable r task value => Sys2Proof.Machine.execRecordTaskEnable r task value s
  | .recordTaskDisable r task value => Sys2Proof.Machine.execRecordTaskDisable r task value s
  | .recordFrameTake task => Sys2Proof.Machine.execRecordFrameTake task s
  | .recordFrameDone task => Sys2Proof.Machine.execRecordFrameDone task s
  | .recordBlockWrite task => Sys2Proof.Machine.execRecordBlockWrite task s
  | .protoWrite r q value => Sys2Proof.Machine.execProtoWrite r q value s
  | .quadRetrain r q value => Sys2Proof.Machine.execQuadRetrain r q value s
  | .loopSelect r q loop => Sys2Proof.Machine.execLoopSelect r q loop s
  | .prbsStart r q value => Sys2Proof.Machine.execPrbsStart r q value s
  | .prbsStop r q value => Sys2Proof.Machine.execPrbsStop r q value s
  | .pstateRequest r q pstate => Sys2Proof.Machine.execPstateRequest r q pstate s
  | .autoVesperEntry q => Sys2Proof.Machine.execAutoVesperEntry q s
  | .lanePowerExit q => Sys2Proof.Machine.execLanePowerExit q s
  | .pllLockTimeout q => Sys2Proof.Machine.execPllLockTimeout q s
  | .laneLinkUp q lane cdr block link fom => Sys2Proof.Machine.execLaneLinkUp q lane cdr block link fom s
  | .laneRetry q lane => Sys2Proof.Machine.execLaneRetry q lane s
  | .fomMeasure q lane fom ctle errors => Sys2Proof.Machine.execFomMeasure q lane fom ctle errors s
  | .blockLockLoss q lane => Sys2Proof.Machine.execBlockLockLoss q lane s
  | .processionAlign right markers => Sys2Proof.Machine.execProcessionAlign right markers s
  | .heartbeatSend right => Sys2Proof.Machine.execHeartbeatSend right s
  | .heartbeatReceive right packet => Sys2Proof.Machine.execHeartbeatReceive right packet s
  | .portLost right => Sys2Proof.Machine.execPortLost right s
  | .processionForward right packet => Sys2Proof.Machine.execProcessionForward right packet s
  | .timePacketSend right => Sys2Proof.Machine.execTimePacketSend right s
  | .timePacketReceive right packet => Sys2Proof.Machine.execTimePacketReceive right packet s
  | .leaderTimeout reach => Sys2Proof.Machine.execLeaderTimeout reach s
  | .pairPacketSend => Sys2Proof.Machine.execPairPacketSend s
  | .pairPacketReceive right packet => Sys2Proof.Machine.execPairPacketReceive right packet s
  | .handoverRequest r => Sys2Proof.Machine.execHandoverRequest r s
  | .handoverTimeout => Sys2Proof.Machine.execHandoverTimeout s
  | .timeTick n => Sys2Proof.Machine.execTimeTick n s
  | .timeReadLatch r => Sys2Proof.Machine.execTimeReadLatch r s
  | .timeStep r => Sys2Proof.Machine.execTimeStep r s
  | .slewWrite r value => Sys2Proof.Machine.execSlewWrite r value s
  | .sourceSelect r src => Sys2Proof.Machine.execSourceSelect r src s
  | .domainUpdate r d => Sys2Proof.Machine.execDomainUpdate r d s
  | .domainLost r d => Sys2Proof.Machine.execDomainLost r d s
  | .domainStale d => Sys2Proof.Machine.execDomainStale d s
  | .domainControlWrite r d value => Sys2Proof.Machine.execDomainControlWrite r d value s
  | .activeWrite r active => Sys2Proof.Machine.execActiveWrite r active s
  | .ethConfigWrite r k value => Sys2Proof.Machine.execEthConfigWrite r k value s
  | .ethTxDoorbell r k wr => Sys2Proof.Machine.execEthTxDoorbell r k wr s
  | .ethFrameTransmit k answer => Sys2Proof.Machine.execEthFrameTransmit k answer s
  | .ethRxDoorbell r k ring wr => Sys2Proof.Machine.execEthRxDoorbell r k ring wr s
  | .ethFrameReceive k frame => Sys2Proof.Machine.execEthFrameReceive k frame s
  | .ethLinkChange k link => Sys2Proof.Machine.execEthLinkChange k link s
  | .audioRxEnable r p value => Sys2Proof.Machine.execAudioRxEnable r p value s
  | .audioTxEnable r p value => Sys2Proof.Machine.execAudioTxEnable r p value s
  | .audioFormatWrite r p tx value => Sys2Proof.Machine.execAudioFormatWrite r p tx value s
  | .audioFrameTick fam double data => Sys2Proof.Machine.execAudioFrameTick fam double data s
  | .audioFrameReceive p length slots => Sys2Proof.Machine.execAudioFrameReceive p length slots s
  | .audioTxFrameSync p => Sys2Proof.Machine.execAudioTxFrameSync p s
  | .audioBlockWrite p => Sys2Proof.Machine.execAudioBlockWrite p s
  | .audioBlockHeadWrite p => Sys2Proof.Machine.execAudioBlockHeadWrite p s
  | .audioBlockFetch p error => Sys2Proof.Machine.execAudioBlockFetch p error s
  | .audioBlockTarget p next => Sys2Proof.Machine.execAudioBlockTarget p next s
  | .audioMute r p tx => Sys2Proof.Machine.execAudioMute r p tx s
  | .audioUnmute r p tx => Sys2Proof.Machine.execAudioUnmute r p tx s
  | .slotMaskWrite r p tx value => Sys2Proof.Machine.execSlotMaskWrite r p tx value s
  | .rampEnd p tx => Sys2Proof.Machine.execRampEnd p tx s
  | .clockLoopUpdate fam phase => Sys2Proof.Machine.execClockLoopUpdate fam phase s
  | .loopModeWrite r fam value => Sys2Proof.Machine.execLoopModeWrite r fam value s
  | .blockStampRead r p => Sys2Proof.Machine.execBlockStampRead r p s
  | .axisConfigWrite r axis param value => Sys2Proof.Machine.execAxisConfigWrite r axis param value s
  | .axisEnable r axis value => Sys2Proof.Machine.execAxisEnable r axis value s
  | .quadratureEdge axis a b => Sys2Proof.Machine.execQuadratureEdge axis a b s
  | .hallEdge axis a b z => Sys2Proof.Machine.execHallEdge axis a b z s
  | .analogSample axis sin cos => Sys2Proof.Machine.execAnalogSample axis sin cos s
  | .ssiPoll axis => Sys2Proof.Machine.execSsiPoll axis s
  | .ssiFrameDone axis startHigh data => Sys2Proof.Machine.execSsiFrameDone axis startHigh data s
  | .indexEvent axis level => Sys2Proof.Machine.execIndexEvent axis level s
  | .positionPreset r axis value => Sys2Proof.Machine.execPositionPreset r axis value s
  | .historySample axis => Sys2Proof.Machine.execHistorySample axis s
  | .velocityTimeout axis => Sys2Proof.Machine.execVelocityTimeout axis s
  | .poseForm p => Sys2Proof.Machine.execPoseForm p s
  | .poseRecordCommit p => Sys2Proof.Machine.execPoseRecordCommit p s
  | .emuEnable r e value => Sys2Proof.Machine.execEmuEnable r e value s
  | .emuStepOut e => Sys2Proof.Machine.execEmuStepOut e s
  | .emuZPulseEnd e => Sys2Proof.Machine.execEmuZPulseEnd e s
  | .twcGo r c value => Sys2Proof.Machine.execTwcGo r c value s
  | .twcRecover r c value => Sys2Proof.Machine.execTwcRecover r c value s
  | .twcBusFree c => Sys2Proof.Machine.execTwcBusFree c s
  | .twcTransferDone c result data => Sys2Proof.Machine.execTwcTransferDone c result data s
  | .arbitrationLoss c => Sys2Proof.Machine.execArbitrationLoss c s
  | .twcRetry c => Sys2Proof.Machine.execTwcRetry c s
  | .busError c => Sys2Proof.Machine.execBusError c s
  | .stretchTimeout c sdaLow => Sys2Proof.Machine.execStretchTimeout c sdaLow s
  | .busRecovery c sda => Sys2Proof.Machine.execBusRecovery c sda s
  | .sclStuck c => Sys2Proof.Machine.execSclStuck c s
  | .sdaStuck c => Sys2Proof.Machine.execSdaStuck c s
  | .lanternCall c => Sys2Proof.Machine.execLanternCall c s
  | .twtPointerWrite pointer => Sys2Proof.Machine.execTwtPointerWrite pointer s
  | .twtWinWrite data => Sys2Proof.Machine.execTwtWinWrite data s
  | .twtWinRead => Sys2Proof.Machine.execTwtWinRead s
  | .twtReadTimeout => Sys2Proof.Machine.execTwtReadTimeout s
  | .twtAccessDone => Sys2Proof.Machine.execTwtAccessDone s
  | .twtRestart => Sys2Proof.Machine.execTwtRestart s
  | .sensorConversion sensor reading => Sys2Proof.Machine.execSensorConversion sensor reading s
  | .sensorTimeout sensor => Sys2Proof.Machine.execSensorTimeout sensor s
  | .vigilTick pest => Sys2Proof.Machine.execVigilTick pest s
  | .vigilLost => Sys2Proof.Machine.execVigilLost s
  | .powerMeasureWrite r value => Sys2Proof.Machine.execPowerMeasureWrite r value s
  | .pmeasStale => Sys2Proof.Machine.execPmeasStale s
  | .stepMinWrite r smin => Sys2Proof.Machine.execStepMinWrite r smin s
  | .outputEntryWrite r value => Sys2Proof.Machine.execOutputEntryWrite r value s
  | .queueRankWrite r k value => Sys2Proof.Machine.execQueueRankWrite r k value s
  | .fltClear r die => Sys2Proof.Machine.execFltClear r die s
  | .faultTest r die value => Sys2Proof.Machine.execFaultTest r die value s
  | .dieNoResponse die => Sys2Proof.Machine.execDieNoResponse die s
  | .pllLossOfLock pll => Sys2Proof.Machine.execPllLossOfLock pll s
  | .hubParityError => Sys2Proof.Machine.execHubParityError s
  | .avsRequestAck die => Sys2Proof.Machine.execAvsRequestAck die s
  | .avsTimeout die => Sys2Proof.Machine.execAvsTimeout die s
  | .softwareReset r value => Sys2Proof.Machine.execSoftwareReset r value s
  | .softwareResetStart bootmode posn => Sys2Proof.Machine.execSoftwareResetStart bootmode posn s
  | .controlPacketInject channel => Sys2Proof.Machine.execControlPacketInject channel s
  | .injectControlWrite r channel value => Sys2Proof.Machine.execInjectControlWrite r channel value s
  | .routeWrite r value => Sys2Proof.Machine.execRouteWrite r value s
  | .irqLineRise source => Sys2Proof.Machine.execIrqLineRise source s
  | .supplyRemoval => Sys2Proof.Machine.execSupplyRemoval s
  | .bootFlashWriteDone => Sys2Proof.Machine.execBootFlashWriteDone s
  | .pcieLinkUp width speed => Sys2Proof.Machine.execPcieLinkUp width speed s
  | .paradeTrunkAlign n headers markers => Sys2Proof.Machine.execParadeTrunkAlign n headers markers s
  | .clusterWakeDone c => Sys2Proof.Machine.execClusterWakeDone c s
  | .ssdFatalStatus port => Sys2Proof.Machine.execSsdFatalStatus port s
  | .pairPacketTimeout => Sys2Proof.Machine.execPairPacketTimeout s
  | .busStartSeen c => Sys2Proof.Machine.execBusStartSeen c s
  | .pcieOutboundCompletion k bad => Sys2Proof.Machine.execPcieOutboundCompletion k bad s

end Sys2Proof.Machine
end

