-- ==== Sys2Proof/WellFormed.lean ====
section
/-! DEFINITION. What a command may carry beyond what its operands' types say: addresses within their buses (R30, R35), lengths
and targets within their fields (R63), package numbers (R83), interrupt sources (R510). -/
namespace Sys2Proof
open Sys2Proof.Machine

/-- A control-space address has 28 bits (R30). -/
def ctlAddr (a : Nat) : Bool := decide (a < 2 ^ 28)
/-- TARGET of a record has 64 bits (R63). -/
def target64 (a : Nat) : Bool := decide (a < 2 ^ 64)
/-- PLEN of a record has 32 bits (R63). -/
def plen (b : List Byte) : Bool := decide (b.length < 2 ^ 32)

/-- A command is well formed. -/
def Instr.wellFormed : Instr → Bool
  | .controlSpaceWrite _ addr _ => ctlAddr addr
  | .invalidAddressRead _ addr => ctlAddr addr
  | .rcRead _ addr => ctlAddr addr
  | .windowRead _ addr => ctlAddr addr
  | .windowWrite _ addr _ => ctlAddr addr
  | .memoryRequest _ write addr len data => decide (addr < 2 ^ 40) && (if write then data != [] else decide (0 < len))
  | .streamPacketRoute _ _ _ => true
  | .bridgeReplay _ _ => true
  | .controlPacketApply _ => true
  | .c0StreamWrite _ _ _ => true
  | .powerOnReset => true
  | .resetRelease _ _ => true
  | .fuseReadDone _ _ => true
  | .flashDiscoveryDone _ _ headerA headerB => decide (headerA.length ≤ 64 ∧ headerB.length ≤ 64)
  | .slotCheckDone _ => true
  | .hostLoadGo _ => true
  | .hostImageReadDone _ => true
  | .registerWriteRecord _ target words => target64 target && decide (words.length < 2 ^ 30)
  | .maskedRegisterWriteRecord _ target _ _ => target64 target
  | .pollRecord _ target _ _ timeoutUs => target64 target && decide (timeoutUs < 2 ^ 32)
  | .pollReread => true
  | .pollTimeout => true
  | .conditionalRecord selector _ _ skip => decide (selector < 2 ^ 32 ∧ skip < 2 ^ 32)
  | .almanacPartitionRecord offset size epoch => decide (offset < 2 ^ 32 ∧ size < 2 ^ 32 ∧ epoch < 2 ^ 32)
  | .signatureRecord key sigR sigS _ => decide (key.length = 97 ∧ sigR.length = 48 ∧ sigS.length = 48)
  | .endRecord => true
  | .unknownRecord => true
  | .blockLoadRecord target data => target64 target && plen data
  | .tileCalibrationLoadRecord target data => target64 target && plen data
  | .stewardFirmwareRecord _ payload => plen payload
  | .engineFirmwareRecord _ payload => plen payload
  | .codecFirmwareRecord _ payload => plen payload
  | .dramTrainingDone _ foms orgs => decide (foms.length = 16 ∧ orgs.length = 16)
  | .adventA4End => true
  | .almanacReplay _ => true
  | .censusTokenStart => true
  | .processionCensusReceive _ _ locked _ => locked.all (fun k => decide (k < 16))
  | .censusWaitExpiry locked _ => locked.all (fun k => decide (k < 16))
  | .almanacCommit _ _ => true
  | .almanacPeriodicCommit _ => true
  | .almanacCommitDone => true
  | .discardAl _ => true
  | .powerFail => true
  | .powerFailClear => true
  | .wearLedgerTick => true
  | .campEnable _ _ _ => true
  | .campDisable _ _ _ => true
  | .cameraFrameStart _ => true
  | .cameraFrameEnd _ _ => true
  | .cameraLineStart _ => true
  | .cameraLineEnd _ _ => true
  | .lineTimeout _ => true
  | .frameDeadline _ => true
  | .clockLost _ _ => true
  | .trainingStart _ _ => true
  | .trainingBurst _ _ => true
  | .trainingEnd _ => true
  | .tapWrite _ _ _ => true
  | .cameraStampRead _ _ => true
  | .pipeLineDone _ => true
  | .calEntryStore _ _ _ => true
  | .writeListStore _ _ _ => true
  | .calTrigger _ _ => true
  | .calDeadline _ _ => true
  | .freeze _ => true
  | .calMidpointRead _ _ => true
  | .pipeFrameStart _ => true
  | .pipeLine _ _ => true
  | .refReadDone _ _ _ => true
  | .refWriteDone _ _ => true
  | .feTableWrite _ _ _ => true
  | .mfeFrameStart _ => true
  | .mfeBlockRefine _ _ _ => true
  | .fieldWriteDone _ _ => true
  | .colourTableWrite _ _ _ => true
  | .colourTableLoad _ _ _ => true
  | .colourLoadDone _ _ => true
  | .bufferHeadWrite _ _ _ _ => true
  | .harvestWriteStart _ => true
  | .harvestWriteDone _ _ _ => true
  | .headEnable _ _ _ => true
  | .headFreeze _ => true
  | .surfaceSelectDone _ failed poisoned => failed.all (fun l => decide (l < 16)) && poisoned.all (fun l => decide (l < 16))
  | .startTargetReached _ => true
  | .headRowEnd _ _ => true
  | .headRowStart _ => true
  | .directLineArrival _ => true
  | .directWaitExpiry _ => true
  | .surfaceFetchDone _ _ _ _ => true
  | .headFilterWrite _ _ _ => true
  | .placementWrite _ _ _ => true
  | .headStampRead _ _ => true
  | .emitterFetchDone _ _ _ _ => true
  | .tileRecordStore _ _ _ => true
  | .tcmLoad _ _ _ => true
  | .tcmLoadDone _ _ => true
  | .curveWrite _ _ _ => true
  | .paradeSegmentSend _ => true
  | .beaconSend _ => true
  | .laneMarkerSend _ => true
  | .prdPacketReceive _ _ => true
  | .ringBreak _ _ => true
  | .brightnessSend _ _ _ => true
  | .statusPollSend _ _ _ => true
  | .statusReplyReceive _ _ => true
  | .statusPollTimeout _ => true
  | .censusStart _ _ _ => true
  | .censusResultReceive _ _ => true
  | .censusTimeout _ => true
  | .ctxStart _ _ => true
  | .ctxStop _ _ => true
  | .ctxUpdate _ _ => true
  | .ctxIdr _ _ => true
  | .ctxResync _ _ => true
  | .sourcePoll _ _ _ _ => true
  | .pictureStart _ _ => true
  | .pictureDone _ _ _ => true
  | .coreWatchdog _ => true
  | .coreResetDone _ => true
  | .decodePictureStart _ => true
  | .decodePictureDone _ _ => true
  | .decodeWatchdog _ _ => true
  | .decodeStopTimeout _ => true
  | .picturePublish _ => true
  | .vdcClear _ _ _ => true
  | .queueDoorbell _ _ _ _ => true
  | .jobDispatch _ => true
  | .jobDescriptorReadDone _ _ => true
  | .jobBudgetExpiry _ => true
  | .engineResetDone _ => true
  | .engineFirmwareLoad _ _ _ => true
  | .engineFirmwareLoadDone _ _ => true
  | .clusterGate _ => true
  | .engFreqChange _ => true
  | .cdmaTransferDone _ _ _ => true
  | .fenceDrained _ => true
  | .waitWake _ => true
  | .add _ => true
  | .sub _ => true
  | .and _ => true
  | .or _ => true
  | .xor _ => true
  | .sll _ => true
  | .srl _ => true
  | .sra _ => true
  | .slt _ => true
  | .sltu _ => true
  | .min _ => true
  | .max _ => true
  | .clz _ => true
  | .popc _ => true
  | .mul _ => true
  | .mulh _ => true
  | .mulhu _ => true
  | .div _ => true
  | .divu _ => true
  | .rem _ => true
  | .remu _ => true
  | .addi _ => true
  | .andi _ => true
  | .ori _ => true
  | .xori _ => true
  | .slti _ => true
  | .sltiu _ => true
  | .slli _ => true
  | .srli _ => true
  | .srai _ => true
  | .lui _ => true
  | .lw _ _ => true
  | .lh _ _ => true
  | .lhu _ _ => true
  | .lb _ _ => true
  | .lbu _ _ => true
  | .sw _ => true
  | .sh _ => true
  | .sb _ => true
  | .aadd _ _ => true
  | .aswp _ _ => true
  | .aand _ _ => true
  | .aor _ _ => true
  | .amaxu _ _ => true
  | .acas _ _ => true
  | .beq _ => true
  | .bne _ => true
  | .blt _ => true
  | .bge _ => true
  | .bltu _ => true
  | .bgeu _ => true
  | .jal _ => true
  | .jalr _ => true
  | .fence _ => true
  | .ifence _ => true
  | .sig _ => true
  | .jend _ => true
  | .wait _ _ => true
  | .cln _ => true
  | .inv _ => true
  | .cli _ => true
  | .clnall _ => true
  | .cdma _ _ => true
  | .dmaw _ => true
  | .trap _ => true
  | .csrr _ => true
  | .csrw _ => true
  | .unassignedOpcode _ _ => true
  | .vadd _ => true
  | .vsub _ => true
  | .vadds _ => true
  | .vsubs _ => true
  | .vmul _ => true
  | .vmulh _ => true
  | .vmac _ => true
  | .vmin _ => true
  | .vmax _ => true
  | .vand _ => true
  | .vor _ => true
  | .vxor _ => true
  | .vshl _ => true
  | .vshr _ => true
  | .vsra _ => true
  | .vsel _ => true
  | .vcmpeq _ => true
  | .vcmplt _ => true
  | .vcmpltu _ => true
  | .vxtl _ => true
  | .vxth _ => true
  | .vpack _ => true
  | .vfadd _ => true
  | .vfsub _ => true
  | .vfmul _ => true
  | .vfma _ => true
  | .vfmin _ => true
  | .vfmax _ => true
  | .vfrcp _ => true
  | .vfrsq _ => true
  | .vfcmplt _ => true
  | .vfcmpeq _ => true
  | .vcvtf _ => true
  | .vcvti _ => true
  | .vfwidl _ => true
  | .vfwidh _ => true
  | .vfnarr _ => true
  | .vld _ _ => true
  | .vst _ => true
  | .vlds _ _ => true
  | .vsts _ => true
  | .vbcst _ => true
  | .vext _ => true
  | .vins _ => true
  | .vperm _ => true
  | .vradd _ => true
  | .vrmax _ => true
  | .vrmin _ => true
  | .vfradd _ => true
  | .mset _ => true
  | .mget _ => true
  | .dramRequest _ _ _ _ _ _ => true
  | .dramSlotIssue _ _ busy => busy.all (fun b => decide (b < 32))
  | .dramReadReturn _ _ _ => true
  | .commandPathParityError _ _ _ => true
  | .dramRefresh _ _ _ => true
  | .mr4Poll _ _ => true
  | .dramDriftCheck _ => true
  | .dramRetrain _ => true
  | .dramRetrainNow _ _ => true
  | .dramRetrainStep _ => true
  | .dramRetrainDone _ _ _ => true
  | .dramScrub _ => true
  | .dramDiagRead _ _ => true
  | .dramDiagDone _ => true
  | .dramSnapshotClear _ _ => true
  | .addressTranslate _ _ => true
  | .dmcMaskWrite _ _ _ _ => true
  | .dmaArm _ _ => true
  | .dmaDisarm _ _ => true
  | .dmaAbort _ _ => true
  | .dmaPause _ _ => true
  | .dmaUnpause _ _ => true
  | .dmaPauseAll _ => true
  | .dmaUnpauseAll _ => true
  | .dmaShadowWrite _ _ _ _ => true
  | .dmaReadIssue _ => true
  | .dmaReadReturn _ _ _ => true
  | .dmaWriteResponse _ _ _ => true
  | .sqDoorbell _ tail => decide (tail < 2 ^ 16)
  | .cqDoorbell _ head => decide (head < 2 ^ 16)
  | .nvmFlush _ => true
  | .nvmWrite _ => true
  | .nvmRead _ => true
  | .nvmWriteZeroes _ => true
  | .datasetManagement _ => true
  | .invalidCommandOpcode _ => true
  | .createIoSubmissionQueue => true
  | .deleteIoSubmissionQueue => true
  | .createIoCompletionQueue => true
  | .deleteIoCompletionQueue => true
  | .getLogPage => true
  | .identify => true
  | .nvmeAbort => true
  | .setFeaturesArbitration => true
  | .setFeaturesTemperatureThreshold => true
  | .setFeaturesVolatileWriteCache => true
  | .setFeaturesNumberOfQueues => true
  | .setFeaturesInterruptCoalescing => true
  | .setFeaturesInterruptVectorConfig => true
  | .setFeaturesAsyncEventConfig => true
  | .getFeatures => true
  | .asynchronousEventRequest => true
  | .namespaceCreate => true
  | .namespaceDelete => true
  | .namespaceAttach => true
  | .namespaceDetach => true
  | .firmwareImageDownload => true
  | .firmwareCommitStage => true
  | .firmwareCommitActivate => true
  | .firmwareCommitActivateSlot _ => true
  | .formatNvm => true
  | .storeLabelFormat => true
  | .sanitizeBlockErase => true
  | .sanitizeOverwrite => true
  | .formatDone => true
  | .sanitizeDone => true
  | .controllerReset => true
  | .nvmSubsystemReset => true
  | .controllerEnable _ _ _ _ => true
  | .shutdownNotification => true
  | .pcieLinkReset _ => true
  | .hostBar4Access write offset len data => decide (offset < 2 ^ 36) && (if write then data != [] else decide (0 < len))
  | .outboundCompletionTimeout _ => true
  | .cacheWriteback _ => true
  | .ssdCommandComplete _ _ _ _ => true
  | .ssdCommandTimeout _ _ => true
  | .ssdControllerReset _ => true
  | .ssdLinkUp _ _ => true
  | .ssdLinkDown _ => true
  | .nvhErrorClear _ _ _ => true
  | .recordTaskEnable _ _ _ => true
  | .recordTaskDisable _ _ _ => true
  | .recordFrameTake _ => true
  | .recordFrameDone _ => true
  | .recordBlockWrite _ => true
  | .protoWrite _ _ _ => true
  | .quadRetrain _ _ _ => true
  | .loopSelect _ _ _ => true
  | .prbsStart _ _ _ => true
  | .prbsStop _ _ _ => true
  | .pstateRequest _ _ _ => true
  | .autoVesperEntry _ => true
  | .lanePowerExit _ => true
  | .pllLockTimeout _ => true
  | .laneLinkUp _ _ _ _ _ _ => true
  | .laneRetry _ _ => true
  | .fomMeasure _ _ _ _ _ => true
  | .blockLockLoss _ _ => true
  | .processionAlign _ _ => true
  | .heartbeatSend _ => true
  | .heartbeatReceive _ _ => true
  | .portLost _ => true
  | .processionForward _ _ => true
  | .timePacketSend _ => true
  | .timePacketReceive _ _ => true
  | .leaderTimeout reach => reach.all (fun k => decide (k.1 < 16))
  | .pairPacketSend => true
  | .pairPacketReceive _ _ => true
  | .handoverRequest _ => true
  | .handoverTimeout => true
  | .timeTick _ => true
  | .timeReadLatch _ => true
  | .timeStep _ => true
  | .slewWrite _ _ => true
  | .sourceSelect _ _ => true
  | .domainUpdate _ _ => true
  | .domainLost _ _ => true
  | .domainStale _ => true
  | .domainControlWrite _ _ _ => true
  | .activeWrite _ _ => true
  | .ethConfigWrite _ _ _ => true
  | .ethTxDoorbell _ _ _ => true
  | .ethFrameTransmit _ _ => true
  | .ethRxDoorbell _ _ _ _ => true
  | .ethFrameReceive _ _ => true
  | .ethLinkChange _ _ => true
  | .audioRxEnable _ _ _ => true
  | .audioTxEnable _ _ _ => true
  | .audioFormatWrite _ _ _ _ => true
  | .audioFrameTick _ _ _ => true
  | .audioFrameReceive _ _ _ => true
  | .audioTxFrameSync _ => true
  | .audioBlockWrite _ => true
  | .audioBlockHeadWrite _ => true
  | .audioBlockFetch _ _ => true
  | .audioBlockTarget _ _ => true
  | .audioMute _ _ _ => true
  | .audioUnmute _ _ _ => true
  | .slotMaskWrite _ _ _ _ => true
  | .rampEnd _ _ => true
  | .clockLoopUpdate _ _ => true
  | .loopModeWrite _ _ _ => true
  | .blockStampRead _ _ => true
  | .axisConfigWrite _ _ _ _ => true
  | .axisEnable _ _ _ => true
  | .quadratureEdge _ _ _ => true
  | .hallEdge _ _ _ _ => true
  | .analogSample _ _ _ => true
  | .ssiPoll _ => true
  | .ssiFrameDone _ _ _ => true
  | .indexEvent _ _ => true
  | .positionPreset _ _ _ => true
  | .historySample _ => true
  | .velocityTimeout _ => true
  | .poseForm _ => true
  | .poseRecordCommit _ => true
  | .emuEnable _ _ _ => true
  | .emuStepOut _ => true
  | .emuZPulseEnd _ => true
  | .twcGo _ _ _ => true
  | .twcRecover _ _ _ => true
  | .twcBusFree _ => true
  | .twcTransferDone _ _ _ => true
  | .arbitrationLoss _ => true
  | .twcRetry _ => true
  | .busError _ => true
  | .stretchTimeout _ _ => true
  | .busRecovery _ _ => true
  | .sclStuck _ => true
  | .sdaStuck _ => true
  | .lanternCall _ => true
  | .twtPointerWrite _ => true
  | .twtWinWrite _ => true
  | .twtWinRead => true
  | .twtReadTimeout => true
  | .twtAccessDone => true
  | .twtRestart => true
  | .sensorConversion _ _ => true
  | .sensorTimeout _ => true
  | .vigilTick _ => true
  | .vigilLost => true
  | .powerMeasureWrite _ _ => true
  | .pmeasStale => true
  | .stepMinWrite _ _ => true
  | .outputEntryWrite _ _ => true
  | .queueRankWrite _ _ _ => true
  | .fltClear _ _ => true
  | .faultTest _ _ _ => true
  | .dieNoResponse _ => true
  | .pllLossOfLock _ => true
  | .hubParityError => true
  | .avsRequestAck _ => true
  | .avsTimeout _ => true
  | .softwareReset _ _ => true
  | .softwareResetStart _ _ => true
  | .controlPacketInject _ => true
  | .injectControlWrite _ _ _ => true
  | .routeWrite _ _ => true
  | .irqLineRise source => decide (source < 49152)
  | .supplyRemoval => true
  | .bootFlashWriteDone => true
  | .pcieLinkUp _ _ => true
  | .paradeTrunkAlign _ _ _ => true
  | .clusterWakeDone _ => true
  | .ssdFatalStatus _ => true
  | .pairPacketTimeout => true
  | .busStartSeen _ => true
  | .pcieOutboundCompletion _ _ => true

end Sys2Proof
end

