-- ==== Sys2Proof/Safety.lean ====
section
/-! DEFINITION. What a sound state is, in the terms the statements use: canonical memory, held in reset, tripped. -/
namespace Sys2Proof.Machine

/-- A memory in its canonical form: addresses strictly rising, no entry equal to what an unlisted address reads as. -/
abbrev Memory.wf (m : List Host.Cell) : Bool := UMap.wf noByte m

/-- The register file, the tables and both memories are in canonical form. -/
def State.canonical (s : State) : Bool :=
  UMap.wf regReset s.regs && UMap.wf regReset s.act && UMap.wf tblReset s.tbl && Memory.wf s.mem && Memory.wf s.hostMem

/-- The trip latch is set (R458). -/
def State.tripped (s : State) : Bool := s.thm.tripped

/-- Every command that waits is well formed. -/
def State.queueOk (s : State) : Bool := s.pending.all Instr.wellFormed

/-- The command takes the supplies away (R458). -/
def isSupplyRemoval (c : Instr) : Bool := match c with | .supplyRemoval => true | _ => false
/-- The command lets PORST_N rise (R59). -/
def isRelease (c : Instr) : Bool := match c with | .resetRelease _ _ => true | _ => false

/-- The device has tripped, and no removal of its supplies waits: it is to stay stopped (R458). -/
def State.stopped (s : State) : Prop := s.tripped = true ∧ s.pending.all (fun c => !isSupplyRemoval c) = true

/-- PORST_N is low, no release waits, and every register and memory is as reset leaves it (R492). -/
def State.heldInReset (s : State) : Prop :=
  s.adv.porst = false ∧ s.pending.all (fun c => !isRelease c) = true ∧ s.mem = [] ∧ s.tbl = [] ∧ s.regs = []

/-! ### What a command changes -/

/-- The parts of the state, one for each field. -/
inductive Part where
  | pending | regs | act | due | held | frozen | tbl | mem | hostMem | adv | alm | fab | flt | pair | linesUp | camps
  | cals | twcs | twt | pipes | mfes | heads | prds | codec | vccs | time | dchs | masks | dmas | dmaRest | axes | emus
  | poses | quads | procs | auds | thm | engs | stews | clus | pcie | nv | tick | answer | poison | free | sent
  deriving DecidableEq, Repr

/-- A part is the same in two states. -/
def Part.same (p : Part) (s t : State) : Prop :=
  match p with
  | .pending => t.pending = s.pending
  | .regs => t.regs = s.regs
  | .act => t.act = s.act
  | .due => t.due = s.due
  | .held => t.held = s.held
  | .frozen => t.frozen = s.frozen
  | .tbl => t.tbl = s.tbl
  | .mem => t.mem = s.mem
  | .hostMem => t.hostMem = s.hostMem
  | .adv => t.adv = s.adv
  | .alm => t.alm = s.alm
  | .fab => t.fab = s.fab
  | .flt => t.flt = s.flt
  | .pair => t.pair = s.pair
  | .linesUp => t.linesUp = s.linesUp
  | .camps => t.camps = s.camps
  | .cals => t.cals = s.cals
  | .twcs => t.twcs = s.twcs
  | .twt => t.twt = s.twt
  | .pipes => t.pipes = s.pipes
  | .mfes => t.mfes = s.mfes
  | .heads => t.heads = s.heads
  | .prds => t.prds = s.prds
  | .codec => t.codec = s.codec
  | .vccs => t.vccs = s.vccs
  | .time => t.time = s.time
  | .dchs => t.dchs = s.dchs
  | .masks => t.masks = s.masks
  | .dmas => t.dmas = s.dmas
  | .dmaRest => t.dmaRest = s.dmaRest
  | .axes => t.axes = s.axes
  | .emus => t.emus = s.emus
  | .poses => t.poses = s.poses
  | .quads => t.quads = s.quads
  | .procs => t.procs = s.procs
  | .auds => t.auds = s.auds
  | .thm => t.thm = s.thm
  | .engs => t.engs = s.engs
  | .stews => t.stews = s.stews
  | .clus => t.clus = s.clus
  | .pcie => t.pcie = s.pcie
  | .nv => t.nv = s.nv
  | .tick => t.tick = s.tick
  | .answer => t.answer = s.answer
  | .poison => t.poison = s.poison
  | .free => t.free = s.free
  | .sent => t.sent = s.sent

/-- Nothing but the named parts differs. -/
def Frame (changed : List Part) (s t : State) : Prop := ∀ p : Part, p ∉ changed → p.same s t

/-- No register but those at the named addresses differs. -/
def RegFrame (changed : List Nat) (s t : State) : Prop := ∀ a : Nat, a ∉ changed → t.rd a = s.rd a

/-- No register of a block instance differs but those of the instances at the named bases. -/
def BlockFrame (changed : List Nat) (s t : State) : Prop := ∀ a : Nat, a - a % 0x400 ∉ changed → t.rd a = s.rd a

/-- The command completes, and the next state satisfies P. -/
def Completes (c : Instr) (s : State) (P : State → Prop) : Prop := ∃ t : State, exec c s = .next t ∧ P t

/-! ### What the statements say of registers and records -/

/-- A write of the register does what its access codes say and no more: none of the registers with an effect of their own, which
have commands of their own. -/
def Where.plain (w : Where) : Bool :=
  match w.blk with
  | .brg | .gpio | .twt => true
  | .alm | .svc => false
  | .top => w.off != TOP_RESET
  | .adv => decide (w.off < 0x008 ∨ 0x014 < w.off) && !([PAIR_CTRL, PRC_CTRL].contains w.off)
  | .fab => w.off != FAB_SCLS && decide (w.off < 0x10 ∨ 0x50 ≤ w.off) && decide (w.off < C0_STREAM ∨ C0_STREAM + 16 ≤ w.off)
  | .flt => !([FLT_TEST, FLT_CTRL].contains w.off)
  | .thm => !([THM_TCFG, THM_PMEAS, THM_CTRL, THM_ODATA].contains w.off) && decide (w.off < THM_QRANK ∨ THM_QRANK + 0x10 ≤ w.off)
  | .irq => w.off != IRQ_RDATA
  | .camp => !([CAMP_CTRL, CAMP_FRAME, CAMP_STREAM, CAMP_TRCTL, CAMP_TAP].contains w.off)
  | .cal => decide (w.off < CAL_ENTRY0 ∨ CAL_ENTRY3 < w.off) && !([CAL_WDATA0, CAL_WDATA1, CAL_PDATA, CAL_CTRL].contains w.off)
  | .head => !([HEAD_FILTDATA, HEAD_PLDATA, HEAD_CTRL].contains w.off)
  | .tcm => !([TCM_DATA, TCM_LDCTL].contains w.off)
  | .prd => !([PRD_CTRL, PRD_CENSUS, PRD_TCTL].contains w.off)
  | .dch => !([DCH_RETRAIN, DCH_DIAGCTL, DCH_CLR].contains w.off)
  | .dmc => decide (w.off < DMC_BANK_MASK ∨ DMC_BANK_MASK + 16 ≤ w.off) && w.off != DMC_XLATE_HI
  | .dma => w.off != DMA_CTRL && decide (w.off < DMA_SRC_LO ∨ DMA_DSTRIDE < w.off)
  | .dmag => w.off != DMA_GCTL
  | .nvt => !([NVT_TDATA, NVT_CTRL].contains w.off)
  | .nvh => !([NVH_ERR, NVH_CTRL].contains w.off)
  | .pcie => w.off != PCIE_CTRL
  | .quad => decide (w.off < LANE_TXEQ) && !([QUAD_CTRL, QUAD_REF, QUAD_PRBS].contains w.off)
  | .eth => !([ETH_CTRL, ETH_TX_PTR, ETH_RX0_PTR, ETH_RX1_PTR].contains w.off)
  | .time => !([TIME_CTRL, TIME_SET_CTL, TIME_SLEW, DOM_CTRL, DOM_CTRL + 0x10, DOM_UPD, DOM_UPD + 0x10].contains w.off)
  | .audp => !([AUDP_CTRL, AUDP_RXFMT, AUDP_TXFMT, AUDP_LOOP, AUDP_STEER].contains w.off)
  | .axis => !([AXIS_CTRL, AXIS_PDATA, AXIS_POS].contains w.off)
  | .emu => w.off != EMU_CTRL
  | .twc => !([TWC_CMD, TWC_CTRL, TWC_LDATA].contains w.off)
  | .pipe => !([FE_TDATA, COL_TDATA, COL_TIDX, COL_LDCTL, FE_CTRL].contains w.off)
  | .mfe => w.off != MFE_FDATA
  | .vcc => decide (w.off < VCC_CTXBASE ∨ VCC_ERR_HI < w.off) && !([VCC_CTXCMD, VDC_CLR].contains w.off)
  | .eng => decide (w.off < ENG_QPTR ∨ ENG_QPTR + 16 ≤ w.off) && !([ENG_QCFG, ENG_CTRL, ENG_FWCTL].contains w.off)

/-- What a write of v leaves in a register with these access codes (Table 0-3). -/
def RegInfo.written (i : RegInfo) (old v : Word) : Word :=
  (((old &&& ~~~ i.rw) ||| (v &&& i.rw)) &&& ~~~ (v &&& i.w1c)) ||| (v &&& i.w1s)

/-- A data bit matches the training word in every one of these cycles (R95, R97). -/
def bitPasses (word : Word) (cs : List BurstCycle) (i : Nat) : Bool := cs.all (fun c => (c.matching word).toNat.testBit i)

/-- The newest record in the log of a die is this one, made at the time of s; the log keeps 32 (R473). -/
def Logged (die cause sev src addr info : Nat) (s t : State) : Prop :=
  t.flt.log die = (faultRec cause sev src addr info s.time32 :: s.flt.log die).take 32

/-- Every byte of device memory outside n bytes from an address up reads as before. -/
def MemFrame (lo n : Nat) (s t : State) : Prop := ∀ a : Nat, a < lo ∨ lo + n ≤ a → t.memByte a = s.memByte a

/-- Every byte of device memory outside two such ranges reads as before. -/
def MemFrame2 (lo n lo2 n2 : Nat) (s t : State) : Prop :=
  ∀ a : Nat, a < lo ∨ lo + n ≤ a → a < lo2 ∨ lo2 + n2 ≤ a → t.memByte a = s.memByte a

/-- Every byte of host memory outside n bytes from an address up reads as before. -/
def HostFrame (lo n : Nat) (s t : State) : Prop := ∀ a : Nat, a < lo ∨ lo + n ≤ a → t.hostByte a = s.hostByte a

/-! ### Accesses of the device's own blocks -/

/-- n bytes of DRAM from an address up are accessed at once: they lie below the usable capacity, their channels answer, and nothing
is queued. -/
abbrev State.answersAt (s : State) (a n : Nat) : Prop :=
  regionOf a = .dram ∧ a + n ≤ s.usableBytes ∧ s.dramOk a n = true ∧ s.dramIdle = true
/-- The parts of the state that an access at any address may change. -/
def busParts : List Part := [.regs, .alm, .flt, .mem, .hostMem, .dchs, .sent]
/-- The register blocks that such an access may change: the hub's fault log and what shows it, and the DRAM channels. -/
def busBlocks : List Nat := [fltA 0, almA, nvtA] ++ (List.range 16).map dchA

/-! ### What an instruction of a Werok core changes -/

/-- The core runs and waits for nothing, the word at its pc is w, Table 12-6 to Table 12-9 assign it, and its store buffer is
empty. -/
def State.atWord (s : State) (u : WCore) (w : Nat) : Bool :=
  s.live && s.issues u && s.pcIn u && decide ((s.core u).fetch = w) && opAssigned u w && decide ((s.core u).sb = [])

/-- An entry of a table of instructions: the command, the opcode and function of its word, and its result. -/
structure OpRow (α : Type) where
  cmd : Instr
  key : Nat
  value : α
  deriving DecidableEq

/-- A little-endian number of n bytes of a core's DMEM. -/
def State.dmemNat (s : State) (u : WCore) (a n : Nat) : Nat := leNat ((List.range n).map (fun i => byteAt (s.core u).dmem (a + i)))

/-- No other core differs, and nothing that is no core. -/
def OnlyCore (u : WCore) (s t : State) : Prop := (∀ c : WCore, c ≠ u → t.core c = s.core c) ∧ Frame [.engs, .stews] s t

/-- The core is at a place; of it nothing but pc differs. -/
def Jumps (u : WCore) (pc : Nat) (s t : State) : Prop :=
  t.core u = { s.core u with pc := pc % 2 ^ 32 } ∧ OnlyCore u s t

/-- Scalar register d holds v, x0 still 0, and the next instruction follows; no other register differs. -/
def SetsX (u : WCore) (d : Nat) (v : Word) (s t : State) : Prop :=
  t.xr u d = (if d = 0 then 0 else v) ∧ (∀ k : Nat, k ≠ d → t.xr u k = s.xr u k) ∧ t.pcOf u = (s.pcOf u + 4) % 2 ^ 32 ∧
    t.core u = { s.core u with x := (t.core u).x, pc := (t.core u).pc } ∧ OnlyCore u s t

/-- DMEM holds the bytes b from a on, and the next instruction follows; no other byte differs. -/
def SetsD (u : WCore) (a : Nat) (b : List Byte) (s t : State) : Prop :=
  (List.range b.length).map (fun i => byteAt (t.core u).dmem (a + i)) = b ∧
    (∀ k : Nat, k < a ∨ a + b.length ≤ k → byteAt (t.core u).dmem k = byteAt (s.core u).dmem k) ∧
    t.core u = { s.core u with dmem := (t.core u).dmem, pc := (s.pcOf u + 4) % 2 ^ 32 } ∧ OnlyCore u s t

/-- Register d holds the old word o and the word of cluster memory at a holds v, and the next instruction follows; no other
register, byte or core differs. -/
def Swaps (u : WCore) (d a : Nat) (o v : Word) (s t : State) : Prop :=
  t.xr u d = (if d = 0 then 0 else o) ∧ (∀ k : Nat, k ≠ d → t.xr u k = s.xr u k) ∧ t.memBytes a 4 = toBytes 4 v.toNat ∧
    MemFrame a 4 s t ∧ t.core u = { s.core u with x := (t.core u).x, pc := (s.pcOf u + 4) % 2 ^ 32 } ∧
    (∀ c : WCore, c ≠ u → t.core c = s.core c) ∧ Frame [.engs, .stews, .mem] s t

/-- Only vector register d and pc differ: the next instruction follows. -/
def OnlyV (u : WCore) (d : Nat) (s t : State) : Prop :=
  (∀ k : Nat, k ≠ d → t.vr u k = s.vr u k) ∧
    t.core u = { s.core u with v := (t.core u).v, pc := (s.pcOf u + 4) % 2 ^ 32 } ∧ OnlyCore u s t

/-- Only mask register d and pc differ: the next instruction follows. -/
def OnlyM (u : WCore) (d : Nat) (s t : State) : Prop :=
  (∀ k : Nat, k ≠ d → t.mr u k = s.mr u k) ∧
    t.core u = { s.core u with m := (t.core u).m, pc := (s.pcOf u + 4) % 2 ^ 32 } ∧ OnlyCore u s t

/-- Bytes of DMEM outside n bytes from each of these addresses are as before. -/
def DmemFrame (u : WCore) (l : List Nat) (n : Nat) (s t : State) : Prop :=
  ∀ k : Nat, (∀ a ∈ l, k < a ∨ a + n ≤ k) → byteAt (t.core u).dmem k = byteAt (s.core u).dmem k

/-- No entry of a windowed table but entry i of instance n of table b differs. -/
def TblFrame (b : Tbl) (n i : Nat) (s t : State) : Prop :=
  ∀ k : Nat, k ≠ tblKey b n i → UMap.get tblReset t.tbl k = UMap.get tblReset s.tbl k

/-- A time counter as one number, in 2^-72 x 10^-7 ns (R389). -/
def TimeU.fine (t : TimeU) : Nat := ((t.sec * 1000000000 + t.ns) * 2 ^ 32 + t.frac) * (2 ^ 40 * 10000000) + t.rem

/-- A quad is in the power state that its users and registers ask for (R382). -/
def State.quadSettled (s : State) (q : Nat) : Bool :=
  decide (s.powerWanted q = s.power q) && decide ((s.quad q).used = s.quadBusy q) && !((s.quad q).autoVesper && s.quadBusy q)
/-- Every quad is. -/
def State.quadsSettled (s : State) : Bool := (List.range 16).all s.quadSettled

/-- The registers that a record of a die may change: its FLT instance, ALM_STATUS and NVT_STATUS. -/
def recordRegs (die : Nat) : List Nat :=
  [fltA die, fltA die + 4, fltA die + 8, fltA die + 12, fltA die + FLT_STATUS, fltA die + FLT_TOTAL, fltA die + FLT_EVT,
    almA + ALM_STATUS, nvtA + NVT_STATUS]

/-- The registers of the trunks on a quad that the loss of its lanes may change. -/
def State.trunkRegs (s : State) (q : Nat) : List Nat :=
  (List.range 8).flatMap fun n => if s.prdQuad n = q then [prdA n + PRD_STATUS, prdA n + PRD_RXCNT] else []
/-- Lanes of a quad lose READY: a trunk that uses one of them is no longer locked and drops the packet in progress, a Procession port on
one of them is no longer aligned; no other trunk or port notices (R378). -/
abbrev LanesLost (q : Nat) (lanes : List Nat) (s t : State) : Prop :=
  (∀ n : Fin 8, if s.quadUser q = 1 ∧ s.prdQuad n = q ∧ s.flag (prdA n) PRD_STATUS_RX_LOCK = true ∧ lanes.any (s.lanesUsed q).contains = true then
      t.flag (prdA n) PRD_STATUS_RX_LOCK = false ∧ (t.prd n).rx = { (s.prd n).rx with packet := none } ∧
      t.fld (prdA n) PRD_RXCNT_RELOCK = min (s.fld (prdA n) PRD_RXCNT_RELOCK + 1) 0xFFFF
    else t.prd n = s.prd n ∧ t.rd (prdA n + PRD_STATUS) = s.rd (prdA n + PRD_STATUS) ∧ t.rd (prdA n + PRD_RXCNT) = s.rd (prdA n + PRD_RXCNT)) ∧
  ∀ r : Bool, t.proc r = { s.proc r with aligned := (s.proc r).aligned && !(decide (s.quadUser q = 5) && lanes.any (fun k => k / 2 = b2n r)) }

/-- What leaves on the lanes of a quad by its user, if its loop lets anything leave (R379). -/
def State.lit (s : State) (q user : Nat) (o : Out) : List Out := if s.onBalls q user then [o] else []

/-! ### The host's NVMe commands -/

/-- The queue after its next command has been fetched. -/
def NvSq.next (x : NvSq) : NvSq := { x with head := (x.head + 1) % x.size }

/-- The command deletes a queue. -/
def NvCmd.deletes (c : NvCmd) : Bool := match c.stage with | .deleting _ => true | _ => false
/-- The controller is enabled, its link is up, submission queue x (number `id`) holds q as its next command, its completion queue c
has room, and no queue is being deleted. -/
abbrev State.offers (s : State) (id : Nat) (x : NvSq) (c : NvCq) (q : Sqe) : Prop :=
  s.nv.rdy = true ∧ s.pcieUp = true ∧ s.sq id = some x ∧ s.cq x.cq = some c ∧ x.head ≠ x.tail ∧ x.skip.contains x.head = false ∧
    s.sqeAt x x.head = q ∧ q.badForm = false ∧ c.held = [] ∧ c.full = false ∧
    ∀ k ∈ s.nv.cmds, k.deletes = false

/-- A command waits for an SSD command, for an event, for the flash or for a format. -/
def NvCmd.awaits (c : NvCmd) : Bool :=
  (!c.need.isEmpty && (match c.stage with | .deleting _ | .room => false | _ => true)) ||
    (match c.stage with | .event | .slot | .format => true | _ => false)
/-- Every command in progress waits, no Write waits for room, no queue is being deleted, and the commands' numbers precede the next
one's. -/
abbrev State.nvCalm (s : State) : Prop := ∀ k ∈ s.nv.cmds, k.awaits = true ∧ k.n < s.nv.seq

/-- A namespace takes commands up to a block: no sanitise or format runs, the store is ready, no deferred error waits to be
reported, and the block lies in an attached namespace. -/
abbrev State.takes (s : State) (nsid last : Nat) : Prop :=
  s.nv.san = none ∧ s.storeUp = true ∧ s.nv.fmt = none ∧ nsid ∉ s.nv.failed ∧
    (s.nsBlocks nsid).any (fun n => decide (last ≤ n)) = true

/-- A Write (opcode 1), Read (2) or Write Zeroes (8) is turned away with a status: a sanitise runs, the store is offline, there is no
such attached namespace, a format runs on it, the range passes its end, or namespace 32 would be written. -/
abbrev State.turnsAway (s : State) (q : Sqe) (st : Nat) : Prop :=
  (s.nv.san.isSome = true ∧ st = 0x1D) ∨ (s.nv.san = none ∧ s.storeUp = false ∧ st = 0x783) ∨
    (s.nv.san = none ∧ s.storeUp = true ∧ s.nsBlocks q.nsid = none ∧ st = 0x0B) ∨
    (s.nv.san = none ∧ s.storeUp = true ∧ (s.nsBlocks q.nsid).isSome = true ∧ s.nv.fmt.any (fun f => f.1 = q.nsid) = true ∧
      st = 0x82) ∨
    (s.nv.san = none ∧ s.storeUp = true ∧ s.nv.fmt = none ∧ q.nsid ∉ s.nv.failed ∧
      (s.nsBlocks q.nsid).any (fun n => decide (n < q.slba + q.nlb)) = true ∧ st = 0x80) ∨
    (s.takes q.nsid (q.slba + q.nlb) ∧ q.nsid = 32 ∧ q.opc ≠ 2 ∧ st = 0x182)
/-- Such a command meets a deferred error of its namespace. -/
abbrev State.defers (s : State) (q : Sqe) : Prop :=
  s.nv.san = none ∧ s.storeUp = true ∧ (s.nsBlocks q.nsid).isSome = true ∧ s.nv.fmt = none ∧ q.nsid ∈ s.nv.failed

/-- Submission queue `id` stands at x, and a completion with this result and status has been posted to completion queue c. -/
def Posted (id : Nat) (x : NvSq) (c : NvCq) (cid dw0 st : Nat) (s t : State) : Prop :=
  t.sq id = some x ∧
  t.cq x.cq = some { c with
    tail := if c.tail + 1 = c.size then 0 else c.tail + 1, phase := if c.tail + 1 = c.size then !c.phase else c.phase } ∧
  (∀ i : Fin 16, some (t.hostByte (c.base + 16 * c.tail + i)) = (cqEntry dw0 x.head id cid st c.phase)[i.val]?) ∧
  t.sent = (if c.ien && s.pcieUp then [⟨.msix, 0, [c.iv]⟩] else []) ++
    ⟨.nvmeCq, x.cq, (cqEntry dw0 x.head id cid st c.phase).map (·.toNat)⟩ :: s.sent
/-- No queue differs but the named submission and completion queues. -/
def QueueFrame (sqs cqs : List Nat) (s t : State) : Prop :=
  (∀ k : Nat, k ∉ sqs → t.sq k = s.sq k) ∧ (∀ k : Nat, k ∉ cqs → t.cq k = s.cq k)
/-- Command q of a submission queue has been fetched; no other queue differs. -/
def Fetched (id : Nat) (x : NvSq) (s t : State) : Prop := t.sq id = some x.next ∧ QueueFrame [id] [] s t
/-- Command q has been fetched and its completion posted; no other queue and no other byte of host memory differs. -/
def Answered (id : Nat) (x : NvSq) (c : NvCq) (q : Sqe) (dw0 st : Nat) (s t : State) : Prop :=
  Posted id x.next c q.cid dw0 st s t ∧ QueueFrame [id] [x.cq] s t ∧ HostFrame (c.base + 16 * c.tail) 16 s t
/-- Every byte of host memory outside two such ranges reads as before. -/
def HostFrame2 (lo n lo2 n2 : Nat) (s t : State) : Prop :=
  ∀ a : Nat, a < lo ∨ lo + n ≤ a → a < lo2 ∨ lo2 + n2 ≤ a → t.hostByte a = s.hostByte a

/-! ### The record store -/

/-- The writes of a label, one to the older copy of each selected SSD, numbered from n (R346). -/
def State.labelWrites (s : State) (l : NvLabel) (n : Nat) : List SsdCmd :=
  (List.range s.selected.length).map (fun i =>
    let p := (s.selected[i]?).getD 0
    let b := s.olderCopy p
    ⟨n + i, p, 1, 2048 * b2n b, 256, true, .label b l, false⟩)
/-- SSD commands without data as they leave, the last first. -/
def leftSsd (l : List SsdCmd) : List Out :=
  (l.map (fun c => ⟨.ssd (Fin.ofNat 4 c.port), c.op, [c.id, c.lba, c.nlb, b2n c.fua]⟩)).reverse
/-- The admin command has been fetched, the label has become l with the next generation, its writes have left, and the command waits
for them and will complete with a result. -/
def Relabels (x : NvSq) (q : Sqe) (l : NvLabel) (result : Nat) (s t : State) : Prop :=
  let l' : NvLabel := { l with gen := l.gen + 1 }
  Fetched 0 x s t ∧
  t.nv = { s.nv with
    sqs := t.nv.sqs, cache := t.nv.cache, soft := t.nv.soft, fmt := t.nv.fmt, label := l'
    ids := s.nv.ids + s.selected.length, ssds := s.nv.ssds ++ s.labelWrites l' s.nv.ids, seq := s.nv.seq + 1
    cmds := s.nv.cmds ++ [{
      n := s.nv.seq, sq := 0, cid := q.cid, opc := 0x0D, nlb := result, stage := .label
      need := (s.labelWrites l' s.nv.ids).map (·.id) }] } ∧
  t.sent = leftSsd (s.labelWrites l' s.nv.ids) ++ s.sent

/-- No table entry but the named words of the named record tasks differs (R365). -/
def TaskFrame (tasks words : List Nat) (s t : State) : Prop :=
  ∀ k : Nat, (∀ i ∈ tasks, ∀ w ∈ words, k ≠ tblKey .recTask 0 (16 * i + w)) → UMap.get tblReset t.tbl k = UMap.get tblReset s.tbl k
/-- RUN shows which record tasks are enabled. -/
def State.runShown (s : State) : Prop := ∀ i : Fin 16, (s.fld nvtA NVT_TASK_RUN_RUN).testBit i = s.taskOn i
/-- A record task may be enabled with this first word (R365): it names an attached namespace from 1 to 31 that holds its range, no
enabled task's range meets its own, and the store is ready. -/
abbrev State.mayRecord (s : State) (task : Nat) (v : Word) : Prop :=
  0 < v.toNat % 64 ∧ v.toNat % 64 < 32 ∧
    (s.nsBlocks (v.toNat % 64)).any (fun n => decide (s.taskStart task + s.taskLen task ≤ n)) = true ∧
    (∀ k : Fin 16, k.val ≠ task → s.taskOn k = true → s.taskNs k = v.toNat % 64 →
      apart (s.taskStart task) (s.taskLen task) (s.taskStart k) (s.taskLen k) = true) ∧
    s.fld nvtA NVT_STATUS_STORE_STATE = 1

end Sys2Proof.Machine
end

