-- ==== Sys2Proof/Certificates/Slice0/Obligations.lean ====
section
/-! DEFINITION. The statements for the provers. -/
open Sys2Proof Sys2Proof.Machine

/-- O1. A step takes the command at the front of the queue and runs it with the queue's rest. For every command c, every queue
rest and every state s, step of s with c in front of rest in its queue is exec c on s with the queue rest. (The queue is
the model's, notes/assumptions/11.md.) (11 Glossary and conventions) -/
def Obligations.StepRunsFrontCommand : Prop :=
  ∀ (s : State) (c : Instr) (rest : List Instr),
    step { s with pending := c :: rest } = exec c { s with pending := rest }

/-- O2. With no command waiting the block idles. The model's choice (notes/assumptions/11.md): on an empty queue a step
answers the same state. (notes/assumptions/11.md) -/
def Obligations.EmptyQueueIdles : Prop :=
  ∀ s : State, s.pending = [] → step s = .next s

/-- O3. Every command answers a next state and leaves the commands that wait as they are. For every command c and every state
s, exec c s is a next state t, and t's queue is s's queue: no command stops the machine, and the queue is the step's alone
(the model's queue, notes/assumptions/11.md). (notes/assumptions/11.md, 95 What each step holds) -/
def Obligations.EveryCommandKeepsTheQueue : Prop :=
  ∀ (c : Instr) (s : State), ∃ t : State, exec c s = .next t ∧ t.pending = s.pending

/-- O4. While PORST_N is low or the trip is latched nothing but a reset, its release or a removal of the supplies changes
anything. In every state in which PORST_N is low or the thermal trip is latched, every command but POWER_ON_RESET,
RESET_RELEASE and SUPPLY_REMOVAL answers the state unchanged; with the trip latched RESET_RELEASE does so too. DEDUCED in
the model from R458 (the device stays stopped) and R492. (R458, R492, R59) -/
def Obligations.StoppedDeviceIgnoresCommands : Prop :=
  ∀ (c : Instr) (s : State), s.live = false → c ≠ .powerOnReset → c ≠ .supplyRemoval →
    (∀ b p, c = .resetRelease b p → s.tripped = true) → exec c s = .next s

/-- O5. A tripped device stays tripped over every step until its supplies are removed. In every state whose trip latch is set
and in whose queue no SUPPLY_REMOVAL waits, a step answers a state of the same kind: no command, no reset and no release
of reset clears the latch. (R458, R492) -/
def Obligations.TripHoldsUntilSupplyRemoval : Prop :=
  ∀ s t : State, s.stopped → step s = .next t → t.stopped

/-- O6. With PORST_N low and no release waiting every step leaves registers, tables and memory at reset. In every state with
PORST_N low, no RESET_RELEASE in the queue, no table entry and no byte of device memory other than at reset and no
register other than at reset, a step answers a state of the same kind. (R492, R59, R458) -/
def Obligations.HeldInResetStaysReset : Prop :=
  ∀ s t : State, s.heldInReset → step s = .next t → t.heldInReset

/-- O7. Every step keeps the commands that wait well formed. In every state whose queue holds only well-formed commands, a
step answers a state whose queue holds only well-formed commands. (notes/assumptions/11.md) -/
def Obligations.QueueStaysWellFormed : Prop :=
  ∀ s t : State, s.queueOk = true → step s = .next t → t.queueOk = true

/-- O8. The state after reset is held in reset, not tripped, canonical and has an empty queue. State.reset is held in reset,
its trip latch is clear, its register file, tables and memories are canonical and empty, and no command waits. (R492,
R501, R458) -/
def Obligations.ResetStateHoldsTheInvariants : Prop :=
  State.reset.heldInReset ∧ State.reset.tripped = false ∧ State.reset.canonical = true ∧ State.reset.queueOk = true ∧
    State.reset.pending = [] ∧ State.reset.mem = [] ∧ State.reset.live = false

/-- O9. A control-space write of a register without a behaviour of its own leaves what its access codes say. For every
register that its block writes by its access codes alone (its handling of the write is the general one), with LK fields
not locked and the die reachable, CONTROL_SPACE_WRITE completes: RW bits take the value, a 1 clears a W1C bit and sets a
W1S bit, every other bit stays; no other register changes but ALM_STATUS and NVT_STATUS (journal) and IRQ_SENT, and
nothing else but shadow copies, the journal, interrupt lines and the messages sent. Each of these forms ends in a next
state wherever its clause's conditions on state and operands hold: controlSpaceWrite. (R4, R30, R31) -/
def Obligations.ControlSpaceWriteFollowsAccessCodes : Prop :=
  ∀ (s : State) (r : Req) (addr : Nat) (v : Word) (w : Where), s.live = true → s.locked = false →
    regAt (addr % 2 ^ 28) = some w → s.cut r.die w.die = false →
    w.plain = true →
    Completes (.controlSpaceWrite r addr v) s fun t =>
      t.rd (addr % 2 ^ 28) = (infoAt (addr % 2 ^ 28)).written (s.rd (addr % 2 ^ 28)) v ∧
      RegFrame [addr % 2 ^ 28, almA + ALM_STATUS, nvtA + NVT_STATUS, irqA + IRQ_SENT] s t ∧
      Frame [.regs, .due, .held, .alm, .linesUp, .sent] s t

/-- O10. After A7, outside maintenance, a control-space write leaves LK fields unchanged and is recorded at the hub. With LK
fields locked, a CONTROL_SPACE_WRITE of a register with LK fields that its block writes by access codes alone leaves those
fields as they are and records a locked-write error (cause 0x02) in the hub die's FLT log with the requester and the
address. Each of these forms ends in a next state wherever its clause's conditions on state and operands hold:
controlSpaceWrite. (R5) -/
def Obligations.LockedFieldKeepsItsValue : Prop :=
  ∀ (s : State) (r : Req) (addr : Nat) (v : Word) (w : Where), s.live = true → s.locked = true →
    regAt (addr % 2 ^ 28) = some w → s.cut r.die w.die = false → (infoAt (addr % 2 ^ 28)).lk ≠ 0 →
    w.plain = true →
    Completes (.controlSpaceWrite r addr v) s fun t =>
      t.rd (addr % 2 ^ 28) &&& (infoAt (addr % 2 ^ 28)).lk = s.rd (addr % 2 ^ 28) &&& (infoAt (addr % 2 ^ 28)).lk ∧
      Logged 0 0x02 1 r.src (addr % 2 ^ 28) 0 s t

/-- O11. An access to a control-space address with no register reads zero, writes nothing and records an address error. For
every address with a reserved die value (not the broadcast value 0xF, which is R32's), an unused block or instance, a
register beyond the count, or bits [1:0] not zero, of a die that the requester reaches: a read answers 0 and a write
changes no register, table or memory; each records an address error (cause 0x01) with the address and the requester at the
die addressed, or at the hub when the die value is reserved, and changes nothing else. Each of these forms ends in a next
state wherever its clause's conditions on state and operands hold: invalidAddressRead, controlSpaceWrite. (R33) -/
def Obligations.InvalidAccessIsAnAddressError : Prop :=
  (∀ (s : State) (r : Req) (addr : Nat), s.live = true → regAt (addr % 2 ^ 28) = none → dieOf (addr % 2 ^ 28) ≠ 0xF →
    s.cut r.die (dieOf (addr % 2 ^ 28)) = false →
    Completes (.invalidAddressRead r addr) s fun t =>
      t.answer = 0 ∧
      Logged (if dieOf (addr % 2 ^ 28) ≤ 2 then dieOf (addr % 2 ^ 28) else 0) 0x01 1 r.src (addr % 2 ^ 28) (info8 0) s t ∧
      RegFrame (recordRegs (if dieOf (addr % 2 ^ 28) ≤ 2 then dieOf (addr % 2 ^ 28) else 0)) s t ∧
      Frame [.regs, .alm, .flt, .answer] s t) ∧
  (∀ (s : State) (r : Req) (addr : Nat) (v : Word), s.live = true → regAt (addr % 2 ^ 28) = none →
    dieOf (addr % 2 ^ 28) ≠ 0xF → s.cut r.die (dieOf (addr % 2 ^ 28)) = false →
    Completes (.controlSpaceWrite r addr v) s fun t =>
      Logged (if dieOf (addr % 2 ^ 28) ≤ 2 then dieOf (addr % 2 ^ 28) else 0) 0x01 1 r.src (addr % 2 ^ 28) (info8 1) s t ∧
      RegFrame (recordRegs (if dieOf (addr % 2 ^ 28) ≤ 2 then dieOf (addr % 2 ^ 28) else 0)) s t ∧
      Frame [.regs, .alm, .flt] s t)

/-- O12. A read clears RC bits; an access to a window answers or writes its entry and moves the index on. RC_READ of a
register that its block reads by access codes alone answers its value (WO bits as zero) and clears its RC bits, and
changes no other register. WINDOW_READ of FAB_SCLS answers the class of the stream selected (1,023 reads 0), of
FLT_LOGDATA the word selected of the log, of IRQ_RDATA the route selected with its line; WINDOW_WRITE of FAB_SCLS sets the
class of the stream selected (1,023 keeps its own). Each moves its index on by one, after the last entry to 0, and leaves
memory alone. Each of these forms ends in a next state wherever its clause's conditions on state and operands hold:
rcRead, windowRead, windowWrite. (R4, R505, R507, R509, R510) -/
def Obligations.ReadsClearAndWindowsAdvance : Prop :=
  (∀ (s : State) (r : Req) (addr : Nat) (w : Where), s.live = true → regAt (addr % 2 ^ 28) = some w →
    s.cut r.die w.die = false → s.blkRead w = none →
    Completes (.rcRead r addr) s fun t =>
      t.answer = s.rd (addr % 2 ^ 28) &&& ~~~ (infoAt (addr % 2 ^ 28)).wo ∧
      t.rd (addr % 2 ^ 28) = s.rd (addr % 2 ^ 28) &&& ~~~ (infoAt (addr % 2 ^ 28)).rc ∧
      RegFrame [addr % 2 ^ 28] s t ∧ Frame [.regs, .answer] s t) ∧
  (∀ (s : State) (r : Req), s.live = true → s.cut r.die 0 = false →
    Completes (.windowRead r (fabA + FAB_SCLS)) s fun t =>
      t.answer = (if s.fld fabA FAB_SIDX_SID = 1023 then 0 else s.tget .fabClass 0 (s.fld fabA FAB_SIDX_SID)) ∧
      t.fld fabA FAB_SIDX_SID = (s.fld fabA FAB_SIDX_SID + 1) % 1024 ∧
      RegFrame [fabA + FAB_SIDX] s t ∧ Frame [.regs, .answer] s t) ∧
  (∀ (s : State) (r : Req) (die : Fin 3), s.live = true → s.cut r.die die = false →
    Completes (.windowRead r (fltA die + FLT_LOGDATA)) s fun t =>
      t.answer = (((s.flt.log die)[s.fld (fltA die) FLT_LOGIDX_INDEX / 4]?).map
        (fun e => e.word (s.fld (fltA die) FLT_LOGIDX_INDEX % 4))).getD 0 ∧
      t.fld (fltA die) FLT_LOGIDX_INDEX = (s.fld (fltA die) FLT_LOGIDX_INDEX + 1) % 128 ∧
      RegFrame [fltA die + FLT_LOGIDX] s t ∧ Frame [.regs, .answer] s t) ∧
  (∀ (s : State) (r : Req), s.live = true → s.cut r.die 0 = false → isSource (s.fld irqA IRQ_RIDX_SOURCE) = true →
    Completes (.windowRead r (irqA + IRQ_RDATA)) s fun t =>
      t.answer = (s.tget .route 0 (s.fld irqA IRQ_RIDX_SOURCE) |||
        (if s.line (s.fld irqA IRQ_RIDX_SOURCE) then 0x40000000 else 0)) ∧
      t.fld irqA IRQ_RIDX_SOURCE = (s.fld irqA IRQ_RIDX_SOURCE + 1) % 49152 ∧
      RegFrame [irqA + IRQ_RIDX] s t ∧ Frame [.regs, .answer] s t) ∧
  (∀ (s : State) (r : Req) (v : Word), s.live = true → s.cut r.die 0 = false →
    Completes (.windowWrite r (fabA + FAB_SCLS) v) s fun t =>
      (∀ i, i < 1024 → t.tget .fabClass 0 i =
        if i = s.fld fabA FAB_SIDX_SID ∧ i ≠ 1023 then v &&& 3 else s.tget .fabClass 0 i) ∧
      t.fld fabA FAB_SIDX_SID = (s.fld fabA FAB_SIDX_SID + 1) % 1024 ∧
      RegFrame [fabA + FAB_SIDX, almA + ALM_STATUS, nvtA + NVT_STATUS] s t ∧
      Frame [.regs, .tbl, .fab, .alm] s t)

/-- O13. A memory request stores exactly its bytes, or answers the bytes stored; one to a reserved range does neither and is
recorded. A write to usable DRAM whose channels answer, with nothing queued in them, or to a cluster memory stores its
data from its address up, and every other byte stays; a read of it answers the first four bytes, not poisoned, and changes
nothing else. A read of a reserved range answers zero, poisoned; a write to it is discarded; each records an address error
at the hub with the address and the requester. A request between two dies leaves a packet on a bridge of each compute die
it touches for each granule of 256 bytes; where no bridge of such a die works, it is answered zero, poisoned, and nothing
is stored. A 32-bit aligned write of the control space acts as a control-space write does; an access of another width or
alignment is an address error. Each of these forms ends in a next state wherever its clause's conditions on state and
operands hold: memoryRequest. (R12, R13, R35, R38, R39, 13 LPDDR5X memory controllers) -/
def Obligations.MemoryRequestsReadAndWrite : Prop :=
  (∀ (s : State) (r : Req) (addr len : Nat) (data : List Byte), s.live = true → regionOf addr = .dram →
    addr + data.length ≤ s.usableBytes → s.dramOk addr data.length = true → s.cut r.die 0 = false → s.dramIdle = true →
    Completes (.memoryRequest r true addr len data) s fun t =>
      t.memBytes addr data.length = data ∧ MemFrame addr data.length s t ∧ t.poison = false ∧
      t.sent = (s.crossMem r.die 0 addr data.length).sent ∧ Frame [.mem, .poison, .sent] s t) ∧
  (∀ (s : State) (r : Req) (addr len : Nat) (data : List Byte), s.live = true → regionOf addr = .dram →
    addr + len ≤ s.usableBytes → s.dramOk addr len = true → s.cut r.die 0 = false → s.dramIdle = true →
    Completes (.memoryRequest r false addr len data) s fun t =>
      t.answer = wd (leNat ((s.memBytes addr len).take 4)) ∧ t.poison = false ∧
      t.sent = (s.crossMem r.die 0 addr len).sent ∧ Frame [.answer, .poison, .sent] s t) ∧
  (∀ (s : State) (r : Req) (k : Nat) (addr len : Nat) (data : List Byte), s.live = true → regionOf addr = .cluster k →
    s.cut r.die (1 + k / 8) = false →
    Completes (.memoryRequest r true addr len data) s fun t =>
      t.memBytes addr data.length = data ∧ MemFrame addr data.length s t ∧ t.poison = false ∧
      t.sent = (s.crossMem r.die (1 + k / 8) addr data.length).sent ∧ Frame [.mem, .poison, .sent] s t) ∧
  (∀ (s : State) (r : Req) (k : Nat) (addr len : Nat) (data : List Byte), s.live = true → regionOf addr = .cluster k →
    s.cut r.die (1 + k / 8) = false →
    Completes (.memoryRequest r false addr len data) s fun t =>
      t.answer = wd (leNat ((s.memBytes addr len).take 4)) ∧ t.poison = false ∧
      t.sent = (s.crossMem r.die (1 + k / 8) addr len).sent ∧ Frame [.answer, .poison, .sent] s t) ∧
  (∀ (s : State) (r : Req) (addr len : Nat) (data : List Byte), s.live = true → regionOf addr = .reserved →
    s.cut r.die 0 = false →
    Completes (.memoryRequest r false addr len data) s fun t =>
      t.answer = 0 ∧ t.poison = true ∧ Logged 0 0x01 1 r.src addr (info8 0) s t ∧ RegFrame (recordRegs 0) s t ∧
      t.sent = (s.crossMem r.die 0 addr len).sent ∧ Frame [.regs, .alm, .flt, .answer, .poison, .sent] s t) ∧
  (∀ (s : State) (r : Req) (addr len : Nat) (data : List Byte), s.live = true → regionOf addr = .reserved →
    s.cut r.die 0 = false →
    Completes (.memoryRequest r true addr len data) s fun t =>
      Logged 0 0x01 1 r.src addr (info8 1) s t ∧ RegFrame (recordRegs 0) s t ∧ t.poison = false ∧
      t.sent = (s.crossMem r.die 0 addr data.length).sent ∧ Frame [.regs, .alm, .flt, .poison, .sent] s t) ∧
  (∀ (s : State) (r : Req) (write : Bool) (addr len : Nat) (data : List Byte), s.live = true → regionOf addr ≠ .control →
    s.cut r.die (memDie addr) = true →
    Completes (.memoryRequest r write addr len data) s fun t =>
      t.answer = 0 ∧ t.poison = true ∧ Frame [.answer, .poison] s t) ∧
  (∀ (s : State) (r : Req) (addr : Nat) (v : Word), s.live = true → regionOf addr = .control → addr % 4 = 0 →
    Completes (.memoryRequest r true addr 4 (toBytes 4 v.toNat)) s fun t =>
      exec (.controlSpaceWrite r (addr - 0xF000000000) v) s = .next t) ∧
  (∀ (s : State) (r : Req) (write : Bool) (addr len : Nat) (data : List Byte), s.live = true → regionOf addr = .control →
    dieOf (addr - 0xF000000000) = 0 → ((if write then data.length else len) ≠ 4 ∨ addr % 4 ≠ 0) →
    Completes (.memoryRequest r write addr len data) s fun t =>
      Logged 0 0x01 1 r.src (addr - 0xF000000000) (info8 (b2n write)) s t ∧ RegFrame (recordRegs 0) s t ∧
      (write = false → t.answer = 0 ∧ t.poison = false) ∧ Frame [.regs, .alm, .flt, .answer, .poison] s t)

/-- O14. A packet crosses on the working bridge of its stream at the class configured for it. While some bridge of the compute
die works, a packet of a stream configured for class 1, 2 or 3 leaves, in either direction, on working bridge sid mod n at
the configured class. If its CLASS field differs, the class mismatch is recorded with the stream ID at the die that sends
it; else nothing but what has left changes. With no working bridge it is discarded, and so is a packet of stream 1023.
Each of these forms ends in a next state wherever its clause's conditions on state and operands hold: streamPacketRoute.
(R12, R13, R22) -/
def Obligations.StreamPacketsCrossAtTheirConfiguredClass : Prop :=
  (∀ (s : State) (p : Pkt) (die : Fin 2) (toHub : Bool), s.live = true → p.h.sid < 1023 →
    (s.tget .fabClass 0 p.h.sid).toNat % 4 ≠ 0 →
    p.h.cls = (s.tget .fabClass 0 p.h.sid).toNat % 4 → s.fld (brgA die) BRG_STATUS_WORKING ≠ 0 →
    Completes (.streamPacketRoute p die toHub) s fun t =>
      t.sent = ⟨.stream, 8 * die + s.workingBridge die (p.h.sid % s.fld (brgA die) BRG_STATUS_WORKING),
        [p.h.sid, (s.tget .fabClass 0 p.h.sid).toNat % 4, p.h.toNat]⟩ :: s.sent ∧ Frame [.sent] s t) ∧
  (∀ (s : State) (p : Pkt) (die : Fin 2) (toHub : Bool), s.live = true → p.h.sid < 1023 →
    (s.tget .fabClass 0 p.h.sid).toNat % 4 ≠ 0 →
    p.h.cls ≠ (s.tget .fabClass 0 p.h.sid).toNat % 4 → s.fld (brgA die) BRG_STATUS_WORKING ≠ 0 →
    Completes (.streamPacketRoute p die toHub) s fun t =>
      t.sent = ⟨.stream, 8 * die + s.workingBridge die (p.h.sid % s.fld (brgA die) BRG_STATUS_WORKING),
        [p.h.sid, (s.tget .fabClass 0 p.h.sid).toNat % 4, p.h.toNat]⟩ :: s.sent ∧
      Logged (if toHub then 1 + die.val else 0) 0x03 1 (srcOf (if toHub then 1 + die.val else 0) 0x03 0) 0 (info8 p.h.sid) s t ∧
      RegFrame (recordRegs (if toHub then 1 + die.val else 0)) s t ∧
      Frame [.regs, .alm, .flt, .sent] s t) ∧
  (∀ (s : State) (p : Pkt) (die : Fin 2) (toHub : Bool), s.live = true →
    (1023 ≤ p.h.sid ∨ (p.h.cls = (s.tget .fabClass 0 p.h.sid).toNat % 4 ∧ (s.tget .fabClass 0 p.h.sid).toNat % 4 ≠ 0 ∧
      s.fld (brgA die) BRG_STATUS_WORKING = 0)) →
    Completes (.streamPacketRoute p die toHub) s fun t => Frame [] s t)

/-- O15. A replay is counted, and the sixteenth within 1 ms retires the bridge. A replay on a bridge in use adds one to its
REPLAYS (saturating) and sets WINDOW to the replays of the last 1 ms; with 15 replays in the last 1 ms before it, the
bridge is retired: its RETIRED bit is set, RETIRE is set in BRG_EVT and WORKING goes down by one. Each of these forms ends
in a next state wherever its clause's conditions on state and operands hold: bridgeReplay. (R13) -/
def Obligations.BridgeReplaysCountAndRetire : Prop :=
  (∀ (s : State) (g : Fin 2) (b : Fin 8), s.live = true → (s.fld (brgA g) BRG_STATUS_RETIRED).testBit b = false →
    (s.replayTimes (8 * g + b)).length < 15 →
    Completes (.bridgeReplay g b) s fun t =>
      t.fld (brgA g) (BRG_REPLAY_REPLAYS.nth 4 b) = sat 16 (s.fld (brgA g) (BRG_REPLAY_REPLAYS.nth 4 b) + 1) ∧
      t.fld (brgA g) (BRG_REPLAY_WINDOW.nth 4 b) = (s.replayTimes (8 * g + b)).length + 1 ∧
      RegFrame [brgA g + BRG_REPLAY + 4 * b] s t ∧ Frame [.regs, .fab] s t) ∧
  (∀ (s : State) (g : Fin 2) (b : Fin 8), s.live = true → (s.fld (brgA g) BRG_STATUS_RETIRED).testBit b = false →
    15 ≤ (s.replayTimes (8 * g + b)).length → 6 < s.fld (brgA g) BRG_STATUS_WORKING →
    Completes (.bridgeReplay g b) s fun t =>
      (t.fld (brgA g) BRG_STATUS_RETIRED).testBit b = true ∧ t.flag (brgA g) BRG_EVT_RETIRE = true ∧
      t.fld (brgA g) BRG_STATUS_WORKING = s.fld (brgA g) BRG_STATUS_WORKING - 1 ∧
      Logged 0 0x10 2 (srcOf 0 0x04 g) 0 (info8 b) s t ∧
      RegFrame ([brgA g + BRG_STATUS, brgA g + BRG_EVT, brgA g + BRG_REPLAY + 4 * b] ++ recordRegs 0) s t ∧
      Frame [.regs, .fab, .alm, .flt] s t)

/-- O16. A write that enables a class-0 slot for a head already named, or with V above 8, is rejected whole; any other takes
effect. A write of C0_STREAMn with EN = 1 whose head another enabled slot names, or with V greater than 8, changes no
field of any slot and records a class-0 admission error at the hub with the stream ID. A write with EN = 0, or with V at
most 8 and a head that no other enabled slot names, gives the slot the fields written. Each of these forms ends in a next
state wherever its clause's conditions on state and operands hold: c0StreamWrite. (R54) -/
def Obligations.ClassZeroSlotWritesAreJudged : Prop :=
  (∀ (s : State) (r : Req) (n : Fin 4) (v : Word), s.live = true → s.cut r.die 0 = false → v.toNat.testBit 31 = true →
    ((∃ k, k < 4 ∧ k ≠ n.val ∧ s.flag fabA (C0_STREAM_EN.nth 4 k) = true ∧
      s.fld fabA (C0_STREAM_HEAD.nth 4 k) = bits v.toNat 25 24) ∨ 8 < bits v.toNat 19 16) →
    Completes (.c0StreamWrite r n v) s fun t =>
      Logged 0 0x03 1 (srcOf 0 0x03 0) 0 (info8 (bits v.toNat 9 0)) s t ∧ RegFrame (recordRegs 0) s t ∧
      Frame [.regs, .alm, .flt] s t) ∧
  (∀ (s : State) (r : Req) (n : Fin 4) (v : Word), s.live = true → s.cut r.die 0 = false →
    (v.toNat.testBit 31 = true → bits v.toNat 19 16 ≤ 8 ∧
      (∀ k, k < 4 → k ≠ n.val → s.flag fabA (C0_STREAM_EN.nth 4 k) = true →
        s.fld fabA (C0_STREAM_HEAD.nth 4 k) ≠ bits v.toNat 25 24)) →
    Completes (.c0StreamWrite r n v) s fun t =>
      t.flag fabA (C0_STREAM_EN.nth 4 n) = v.toNat.testBit 31 ∧
      t.fld fabA (C0_STREAM_HEAD.nth 4 n) = bits v.toNat 25 24 ∧ t.fld fabA (C0_STREAM_V.nth 4 n) = bits v.toNat 19 16 ∧
      t.fld fabA (C0_STREAM_STREAM_ID.nth 4 n) = bits v.toNat 9 0 ∧
      RegFrame [fabA + C0_STREAM + 4 * n, almA + ALM_STATUS, nvtA + NVT_STATUS] s t ∧ Frame [.regs, .fab, .alm] s t)

/-- O17. A doorbell moves WR on, unless it would pass the ring: then it is ignored and QERR is set. A write of ENG_QPTRq whose
WR leaves at most 2^QLOGq entries waiting sets WR and changes no other register of the cluster; one that would leave more
leaves WR as it is and sets the queue's QERR bit. Each of these forms ends in a next state wherever its clause's
conditions on state and operands hold: queueDoorbell. (R290) -/
def Obligations.ClusterDoorbellMovesWR : Prop :=
  (∀ (s : State) (r : Req) (c : Fin 16) (q : Fin 4) (v : Word), s.live = true → s.cut r.die (1 + c / 8) = false →
    (v.toNat % 65536 + 65536 - s.fld (engA c) (ENG_QPTR_RD.nth 4 q)) % 65536 ≤ s.qEntries c q →
    Completes (.queueDoorbell r c q v) s fun t =>
      t.fld (engA c) (ENG_QPTR_WR.nth 4 q) = v.toNat % 65536 ∧
      t.fld (engA c) (ENG_QPTR_RD.nth 4 q) = s.fld (engA c) (ENG_QPTR_RD.nth 4 q) ∧
      RegFrame [engA c + ENG_QPTR + 4 * q] s t ∧ Frame [.regs, .clus] s t) ∧
  (∀ (s : State) (r : Req) (c : Fin 16) (q : Fin 4) (v : Word), s.live = true → s.cut r.die (1 + c / 8) = false →
    s.qEntries c q < (v.toNat % 65536 + 65536 - s.fld (engA c) (ENG_QPTR_RD.nth 4 q)) % 65536 →
    Completes (.queueDoorbell r c q v) s fun t =>
      (t.fld (engA c) ENG_EVT_QERR).testBit q = true ∧ RegFrame [engA c + ENG_EVT] s t ∧ Frame [.regs] s t)

/-- O18. FLT_CLEAR empties the snapshot, a test record is logged, and a die fault is recorded and sets PKG_FAULT. FLT_CLEAR
clears VALID, NESTED, COUNT and SEV_MAX of the die's snapshot and no other register but IRQ_SENT. A write of FLT_TEST logs
a record with the CAUSE and SEV written and the requester as source. A die that does not answer, a PLL of a die that loses
lock and a hub parity error each make the die faulted, set PKG_FAULT, and log first the die fault (cause 0x30, with the
code of Table 22-6) and then the package fault (cause 0x31); memory stays. Each of these forms ends in a next state
wherever its clause's conditions on state and operands hold: fltClear, faultTest, dieNoResponse, pllLossOfLock,
hubParityError. (R471, R474, R509, R475) -/
def Obligations.FaultRegistersAndDieFaults : Prop :=
  (∀ (s : State) (r : Req) (die : Fin 3), s.live = true → s.cut r.die die = false →
    Completes (.fltClear r die) s fun t =>
      t.flag (fltA die) FLT_STATUS_VALID = false ∧ t.flag (fltA die) FLT_STATUS_NESTED = false ∧
      t.fld (fltA die) FLT_STATUS_COUNT = 0 ∧ t.fld (fltA die) FLT_STATUS_SEV_MAX = 0 ∧
      RegFrame [fltA die + FLT_STATUS, fltA die + FLT_CTRL, irqA + IRQ_SENT] s t ∧ Frame [.regs, .linesUp, .sent] s t) ∧
  (∀ (s : State) (r : Req) (die : Fin 3) (v : Word), s.live = true → s.cut r.die die = false →
    Completes (.faultTest r die v) s fun t =>
      Logged die (bits v.toNat 31 24) (bits v.toNat 23 21) r.src 0 0 s t ∧ RegFrame (recordRegs die) s t ∧
      Frame [.regs, .alm, .flt] s t) ∧
  (∀ (s : State) (die : Fin 2), s.live = true →
    Completes (.dieNoResponse die) s fun t =>
      1 + die.val ∈ t.flt.diesFaulted ∧ t.flag (fltA 0) FLT_STATUS_PKG_FAULT = true ∧
      t.flt.logH = (faultRec 0x31 4 (srcOf 0 0x08 0) 0 (info8 (2 + die)) s.time32 ::
        faultRec 0x30 4 (srcOf (1 + die) 0x08 0) 0 (info8 4) s.time32 :: s.flt.logH).take 32 ∧
      RegFrame (recordRegs 0) s t ∧ Frame [.regs, .alm, .flt, .pair] s t) ∧
  (∀ (s : State) (die : Fin 2), s.live = true →
    Completes (.pllLossOfLock (.eng die)) s fun t =>
      1 + die.val ∈ t.flt.diesFaulted ∧ t.flag (fltA 0) FLT_STATUS_PKG_FAULT = true ∧
      t.flt.logH = (faultRec 0x31 4 (srcOf 0 0x08 0) 0 (info8 (2 + die)) s.time32 ::
        faultRec 0x30 4 (srcOf (1 + die) 0x08 0) 0 (info8 3) s.time32 :: s.flt.logH).take 32 ∧
      RegFrame (recordRegs 0) s t ∧ Frame [.regs, .alm, .flt, .pair] s t) ∧
  (∀ (s : State), s.live = true →
    Completes .hubParityError s fun t =>
      0 ∈ t.flt.diesFaulted ∧ t.flag (fltA 0) FLT_STATUS_PKG_FAULT = true ∧
      t.flt.logH = (faultRec 0x31 4 (srcOf 0 0x08 0) 0 (info8 1) s.time32 ::
        faultRec 0x30 4 (srcOf 0 0x08 0) 0 (info8 7) s.time32 :: s.flt.logH).take 32 ∧
      RegFrame (recordRegs 0) s t ∧ Frame [.regs, .alm, .flt, .pair] s t)

/-- O19. GO queues an injection for an enabled source, which takes it at its next packet boundary; a block applies the entries
of a control packet. A write of FAB_INJ_CTL with GO while GO is 0 and the stream has an enabled source puts the channel
behind those that wait and shows GO; a write that repeats COUNT and STREAM_ID while GO is 1 changes at most ERR, and one
that differs sets ERR and injects nothing. When the boundary has come at a port with no open line, GO clears and the
channel waits no longer; with no enabled source GO clears and ERR is set. A control packet in front of a pipe or of a head
leaves its front; a full-write or masked-write entry for a register of that pipe, its motion engine or that head that is
written by its access codes alone takes effect, and an entry that names no block on the path is recorded by the head. Each
of these forms ends in a next state wherever its clause's conditions on state and operands hold: injectControlWrite,
controlPacketInject, controlPacketApply. (R26, R508) -/
def Obligations.InjectionsAndControlPackets : Prop :=
  (∀ (s : State) (r : Req) (k : Fin 4) (v : Word), s.live = true → s.cut r.die 0 = false → v.toNat.testBit 31 = true →
    s.fld fabA (FAB_INJ_CTL_GO.nth 0x10 k) = 0 → (s.camSource (bits v.toNat 9 0)).isSome = true →
    Completes (.injectControlWrite r k v) s fun t =>
      t.fab.inject = s.fab.inject ++ [(k.val, r)] ∧ t.fld fabA (FAB_INJ_CTL_GO.nth 0x10 k) = 1 ∧
      t.fld fabA (FAB_INJ_CTL_COUNT.nth 0x10 k) = bits v.toNat 19 16 ∧
      t.fld fabA (FAB_INJ_CTL_STREAM_ID.nth 0x10 k) = bits v.toNat 9 0 ∧
      RegFrame [fabA + FAB_INJ_CTL + 16 * k] s t ∧ Frame [.regs, .fab] s t) ∧
  (∀ (s : State) (r : Req) (k : Fin 4) (v : Word), s.live = true → s.cut r.die 0 = false →
    s.fld fabA (FAB_INJ_CTL_GO.nth 0x10 k) = 1 →
    ¬ (bits v.toNat 19 16 = s.fld fabA (FAB_INJ_CTL_COUNT.nth 0x10 k) ∧
      bits v.toNat 9 0 = s.fld fabA (FAB_INJ_CTL_STREAM_ID.nth 0x10 k)) →
    Completes (.injectControlWrite r k v) s fun t =>
      t.flag fabA (FAB_INJ_CTL_ERR.nth 0x10 k) = true ∧
      t.fld fabA (FAB_INJ_CTL_GO.nth 0x10 k) = 1 ∧
      t.fld fabA (FAB_INJ_CTL_COUNT.nth 0x10 k) = s.fld fabA (FAB_INJ_CTL_COUNT.nth 0x10 k) ∧
      RegFrame [fabA + FAB_INJ_CTL + 16 * k] s t ∧ Frame [.regs] s t) ∧
  (∀ (s : State) (k : Fin 4) (r : Req) (p : Nat), s.live = true → s.fab.inject = [(k.val, r)] →
    s.camSource (s.fld fabA (FAB_INJ_CTL_STREAM_ID.nth 0x10 k)) = some p → (s.camp p).lineOpen = false →
    Completes (.controlPacketInject k) s fun t =>
      t.fab.inject = [] ∧ t.flag fabA (FAB_INJ_CTL_GO.nth 0x10 k) = false) ∧
  (∀ (s : State) (k : Fin 4) (r : Req), s.live = true → s.fab.inject = [(k.val, r)] →
    s.camSource (s.fld fabA (FAB_INJ_CTL_STREAM_ID.nth 0x10 k)) = none →
    s.headSource (s.fld fabA (FAB_INJ_CTL_STREAM_ID.nth 0x10 k)) = none →
    Completes (.controlPacketInject k) s fun t =>
      t.fab.inject = [] ∧ t.flag fabA (FAB_INJ_CTL_GO.nth 0x10 k) = false ∧
      t.flag fabA (FAB_INJ_CTL_ERR.nth 0x10 k) = true ∧
      RegFrame [fabA + FAB_INJ_CTL + 16 * k] s t ∧ Frame [.regs, .fab] s t) ∧
  (∀ (s : State) (p : Fin 8) (h : Hdr) (by' : Option Req) (rest : List Pkt), s.live = true →
    (s.pipe p).inQ = ⟨h, .control [] by'⟩ :: rest → rest = [] → (s.partner p h.sid).isNone = true →
    Completes (.controlPacketApply (.pipe p)) s fun t =>
      (t.pipe p).inQ = rest ∧ (∀ q : Fin 8, q ≠ p → t.pipe q = s.pipe q) ∧ Frame [.pipes] s t) ∧
  (∀ (s : State) (p : Fin 8) (h : Hdr) (e : CtlEntry) (by' : Option Req) (w : Where), s.live = true →
    (s.pipe p).inQ = [⟨h, .control [e] by'⟩] → (s.partner p h.sid).isNone = true → e.op = 1 → regAt e.addr = some w →
    (w.blk = .pipe ∨ w.blk = .mfe) → w.unit 4 = p → w.plain = true → (infoAt e.addr).lk = 0 →
    Completes (.controlPacketApply (.pipe p)) s fun t =>
      t.rd e.addr = (infoAt e.addr).written (s.rd e.addr) e.value ∧ (t.pipe p).inQ = [] ∧
      RegFrame [e.addr, almA + ALM_STATUS, nvtA + NVT_STATUS] s t ∧ Frame [.regs, .due, .pipes, .alm] s t) ∧
  (∀ (s : State) (p : Fin 8) (h : Hdr) (e : CtlEntry) (by' : Option Req) (w : Where), s.live = true →
    (s.pipe p).inQ = [⟨h, .control [e] by'⟩] → (s.partner p h.sid).isNone = true → e.op = 2 → regAt e.addr = some w →
    (w.blk = .pipe ∨ w.blk = .mfe) → w.unit 4 = p → w.plain = true → (infoAt e.addr).lk = 0 → (infoAt e.addr).w1c = 0 →
    (infoAt e.addr).w1s = 0 →
    Completes (.controlPacketApply (.pipe p)) s fun t =>
      t.rd e.addr = ((s.rd e.addr &&& ~~~ ((infoAt e.addr).rw &&& e.mask)) ||| (e.value &&& ((infoAt e.addr).rw &&& e.mask))) ∧
      (t.pipe p).inQ = [] ∧ RegFrame [e.addr, almA + ALM_STATUS, nvtA + NVT_STATUS] s t ∧
      Frame [.regs, .due, .pipes, .alm] s t) ∧
  (∀ (s : State) (k : Fin 4) (h : Hdr) (e : CtlEntry) (by' : Option Req) (w : Where), s.live = true →
    (s.head k).inQ = [⟨h, .control [e] by'⟩] → e.op = 1 → regAt e.addr = some w → w.blk = .head → w.inst = k → w.plain = true →
    (infoAt e.addr).lk = 0 →
    Completes (.controlPacketApply (.head k)) s fun t =>
      t.rd e.addr = (infoAt e.addr).written (s.rd e.addr) e.value ∧ (t.head k).inQ = [] ∧
      RegFrame [e.addr, almA + ALM_STATUS, nvtA + NVT_STATUS] s t ∧ Frame [.regs, .due, .heads, .alm] s t) ∧
  (∀ (s : State) (k : Fin 4) (h : Hdr) (e : CtlEntry) (by' : Option Req) (rest : List CtlEntry), s.live = true →
    (s.head k).inQ = [⟨h, .control (e :: rest) by'⟩] →
    (e :: rest).all (fun x => !entryFor (atHead k) x) = true →
    Completes (.controlPacketApply (.head k)) s fun t =>
      (t.head k).inQ = [] ∧ Logged 0 0x04 1 (srcOf 0 0x20 k) e.addr (info8 h.sid) s t ∧ RegFrame (recordRegs 0) s t ∧
      Frame [.regs, .heads, .alm, .flt] s t)

/-- O20. A route write stores the route selected; a line that rises sends the message of its route once. A ROUTE_WRITE with a
source selected whose line is 0 stores the writable bits of the route and moves the index on. The rise of an enabled
source's line, not looked at since it was 0, is noted, and with the route enabled for MSI-X and the link up one message
leaves for its vector and MESSAGES goes up by one; with the route not enabled nothing leaves. Each of these forms ends in
a next state wherever its clause's conditions on state and operands hold: routeWrite, irqLineRise. (R510, R511) -/
def Obligations.RoutesAndLines : Prop :=
  (∀ (s : State) (r : Req) (v : Word), s.live = true → s.cut r.die 0 = false →
    isSource (s.fld irqA IRQ_RIDX_SOURCE) = true → s.line (s.fld irqA IRQ_RIDX_SOURCE) = false →
    Completes (.routeWrite r v) s fun t =>
      t.tget .route 0 (s.fld irqA IRQ_RIDX_SOURCE) = v &&& 0x80F180FF ∧
      TblFrame .route 0 (s.fld irqA IRQ_RIDX_SOURCE) s t ∧
      t.fld irqA IRQ_RIDX_SOURCE = (s.fld irqA IRQ_RIDX_SOURCE + 1) % 49152 ∧
      RegFrame [irqA + IRQ_RIDX, almA + ALM_STATUS, nvtA + NVT_STATUS] s t ∧ Frame [.regs, .tbl, .alm] s t) ∧
  (∀ (s : State) (k : Nat), s.live = true → isSource k = true → s.line k = true → k ∉ s.linesUp → s.pcieUp = true →
    routeBit (s.route k) IRQ_RDATA_EN = true → routeBit (s.route k) IRQ_RDATA_MSIX = true →
    Completes (.irqLineRise k) s fun t =>
      t.linesUp = k :: s.linesUp ∧ t.sent = ⟨.msix, 0, [bits (s.route k).toNat 7 0]⟩ :: s.sent ∧
      t.fld irqA IRQ_SENT_MESSAGES = sat 32 (s.fld irqA IRQ_SENT_MESSAGES + 1) ∧
      RegFrame [irqA + IRQ_SENT] s t ∧ Frame [.regs, .linesUp, .sent] s t) ∧
  (∀ (s : State) (k : Nat), s.live = true → isSource k = true → s.line k = true → k ∉ s.linesUp →
    routeBit (s.route k) IRQ_RDATA_EN = false →
    Completes (.irqLineRise k) s fun t => t.linesUp = k :: s.linesUp ∧ Frame [.linesUp] s t)

/-- O21. The two-wire target moves its pointer, performs accesses of its window and counts them. With the target enabled: the
first byte of a write sets the pointer modulo 16; a byte written at 0 to 3 replaces that byte of WIN_ADDR and the pointer
moves on; the byte at 7 starts the write of WIN_DATA; a read at 4 starts a read of WIN_ADDR; a repeated START discards the
partial data and sets RSTART_ACK. A write that is performed and accepted, and a read, end the access, add one to ACCESSES
and move WIN_ADDR on by 4 when INC is set; a read not done within 1 ms answers zero with ERR and counts as an error. Each
of these forms ends in a next state wherever its clause's conditions on state and operands hold: twtPointerWrite,
twtWinWrite, twtWinRead, twtReadTimeout, twtAccessDone, twtRestart. (R451, R452, R453) -/
def Obligations.TwoWireTargetWindow : Prop :=
  (∀ (s : State) (p : BitVec 8), s.live = true → s.flag twtA TWT_CTRL_EN = true →
    Completes (.twtPointerWrite p) s fun t => t.twt.pointer = p.toNat % 16 ∧ Frame [.twt] s t) ∧
  (∀ (s : State) (b : Byte), s.live = true → s.flag twtA TWT_CTRL_EN = true → s.twt.pointer < 4 →
    Completes (.twtWinWrite b) s fun t =>
      byteOf t.twt.winAddr s.twt.pointer = b ∧ t.twt.pointer = s.twt.pointer + 1 ∧ t.twt.job = s.twt.job ∧
      Frame [.twt] s t) ∧
  (∀ (s : State) (b : Byte), s.live = true → s.flag twtA TWT_CTRL_EN = true → s.twt.pointer = 7 → s.twt.job = none →
    Completes (.twtWinWrite b) s fun t =>
      t.twt.job = some (.write t.twt.winData) ∧ byteOf t.twt.winData 3 = b ∧ t.twt.pointer = 8 ∧ Frame [.twt] s t) ∧
  (∀ (s : State), s.live = true → s.flag twtA TWT_CTRL_EN = true → s.twt.pointer = 4 → s.twt.job = none →
    Completes .twtWinRead s fun t => t.twt = { s.twt with job := some .read } ∧ Frame [.twt] s t) ∧
  (∀ (s : State), s.live = true → s.flag twtA TWT_CTRL_EN = true → s.twt.pointer < 4 →
    Completes .twtWinRead s fun t =>
      t.answer = wd (byteOf s.twt.winAddr s.twt.pointer).toNat ∧ t.twt.pointer = s.twt.pointer + 1 ∧
      Frame [.twt, .answer] s t) ∧
  (∀ (s : State), s.live = true → s.twt.job = some .read →
    Completes .twtReadTimeout s fun t =>
      t.answer = 0 ∧ t.twt.winData = 0 ∧ t.twt.err = true ∧ t.twt.job = none ∧
      t.fld twtA TWT_CNT_ERRORS = sat 16 (s.fld twtA TWT_CNT_ERRORS + 1) ∧
      t.fld twtA TWT_CNT_ACCESSES = sat 16 (s.fld twtA TWT_CNT_ACCESSES + 1) ∧
      RegFrame [twtA + TWT_CNT, twtA + TWT_STATUS] s t ∧ Frame [.regs, .twt, .answer] s t) ∧
  (∀ (s : State) (v : Word), s.live = true → s.twt.job = some (.write v) → s.cut Req.board.die 0 = false →
    s.twt.winAddr = wd (gpioA + GPIO_OUT) →
    Completes .twtAccessDone s fun t =>
      t.twt.job = none ∧ t.twt.err = false ∧ t.fld gpioA GPIO_OUT_OUT = v.toNat % 2 ^ 16 ∧
      t.twt.winAddr = (if s.twt.inc then s.twt.winAddr + 4 else s.twt.winAddr) ∧
      t.fld twtA TWT_CNT_ACCESSES = sat 16 (s.fld twtA TWT_CNT_ACCESSES + 1) ∧
      BlockFrame [gpioA, twtA, irqA, almA, nvtA] s t) ∧
  (∀ (s : State), s.live = true → s.flag twtA TWT_CTRL_EN = true →
    Completes .twtRestart s fun t =>
      t.twt = { s.twt with partialData := s.twt.winData } ∧ t.flag twtA TWT_STATUS_RSTART_ACK = true ∧
      RegFrame [twtA + TWT_STATUS] s t ∧ Frame [.regs, .twt] s t)

/-- O22. What the three resets and their release leave; a tripped device does not leave reset. POWER_ON_RESET leaves every
register, table and memory as at reset but the trip latch, and keeps host memory and what the flash journal holds;
SUPPLY_REMOVAL clears the trip latch too. RESET_RELEASE latches the straps and raises PORST_N (normal boot modes), or
changes nothing on a tripped device. A write of TOP_RESET with its key makes a reset due, and SOFTWARE_RESET_START is then
a reset and a release that sets SW in TOP_RSTCAUSE. Each of these forms ends in a next state wherever its clause's
conditions on state and operands hold: powerOnReset, supplyRemoval, resetRelease, softwareReset, softwareResetStart. (R59,
R458, R492, R506) -/
def Obligations.ResetsAndTheirRelease : Prop :=
  (∀ (s : State),
    Completes .powerOnReset s fun t =>
      t.tripped = s.tripped ∧ RegFrame [] State.reset t ∧ t.pending = s.pending ∧ t.hostMem = s.hostMem ∧
      t.free = s.free ∧ t.sent = s.sent ∧ t.alm.flash = s.alm.flash ∧ t.alm.epoch = s.alm.epoch ∧
      t.thm = { tripped := s.tripped } ∧
      Frame [.pending, .thm, .hostMem, .free, .sent, .alm] State.reset t) ∧
  (∀ (s : State),
    Completes .supplyRemoval s fun t =>
      t.tripped = false ∧ RegFrame [] State.reset t ∧ t.hostMem = s.hostMem ∧ t.alm.flash = s.alm.flash ∧
      Frame [.pending, .hostMem, .free, .sent, .alm] State.reset t) ∧
  (∀ (s : State) (b : Fin 8) (p : Fin 16), s.adv.porst = false → s.tripped = false → b.val ≠ 3 → b.val < 5 →
    Completes (.resetRelease b p) s fun t =>
      t.adv.porst = true ∧ t.fld topA TOP_STRAP_BOOTMODE = b ∧ t.fld topA TOP_STRAP_POSN = p ∧
      RegFrame [topA + TOP_STRAP] s t ∧ Frame [.regs, .adv] s t) ∧
  (∀ (s : State) (b : Fin 8) (p : Fin 16), s.tripped = true → Completes (.resetRelease b p) s fun t => t = s) ∧
  (∀ (s : State) (r : Req) (v : Word), s.live = true → s.cut r.die 0 = false → bits v.toNat 31 16 = 0x5254 →
    v.toNat.testBit 0 = true →
    Completes (.softwareReset r v) s fun t =>
      t.adv = { s.adv with resetDue := true } ∧ RegFrame [irqA + IRQ_SENT] s t ∧
      Frame [.regs, .adv, .linesUp, .sent] s t) ∧
  (∀ (s : State) (b : Fin 8) (p : Fin 16), s.live = true → s.adv.resetDue = true → b.val ≠ 3 → b.val < 5 →
    Completes (.softwareResetStart b p) s fun t =>
      t.adv = { porst := true } ∧ t.flag topA TOP_RSTCAUSE_SW = true ∧ t.fld topA TOP_STRAP_BOOTMODE = b ∧
      t.fld topA TOP_STRAP_POSN = p ∧ t.hostMem = s.hostMem ∧
      RegFrame [topA + TOP_STRAP, topA + TOP_RSTCAUSE] State.reset t ∧
      Frame [.pending, .regs, .adv, .hostMem, .free, .sent, .alm] State.reset t)

/-- O23. A0 and A1 of Advent: fuses, flash discovery, the slot order, a valid image, the host image. A good fuse read ends A0
and shows the fuses; a bad one holds the device in A0 with FAULT_N. Flash discovery keeps both headers and, in normal
mode, chooses slot B first exactly by the rule of R67. A valid slot image gives A2 with SLOT, SIG_OK, its record CRCs and
its partition; an invalid first one in normal mode sets ALT_SLOT and turns to the other slot. In host-load mode GO starts
the read, a valid image at ADV_HOSTADDR of host memory gives A2 with HOSTLOAD, and a failed read leads to maintenance.
Each of these forms ends in a next state wherever its clause's conditions on state and operands hold: fuseReadDone,
flashDiscoveryDone, slotCheckDone, hostLoadGo, hostImageReadDone. (R60, R65, R67, R68, R69, R71) -/
def Obligations.AdventReadsFusesAndSlots : Prop :=
  (∀ (s : State) (f : Fuses), s.live = true → s.phase = 0 → s.maint = false → s.adv.fuseErr = false → s.adv.fused = false →
    Completes (.fuseReadDone true f) s fun t =>
      t.phase = 1 ∧ t.adv = { s.adv with fuses := f, fused := true } ∧ t.fld topA TOP_ID_STEPPING = f.stepping % 2 ^ 4 ∧
      t.fld topA TOP_SERIAL_LO_SERIAL = f.serial % 2 ^ 32) ∧
  (∀ (s : State) (f : Fuses), s.live = true → s.phase = 0 → s.adv.fuseErr = false → s.adv.fused = false →
    Completes (.fuseReadDone false f) s fun t => t.phase = 0 ∧ t.faultLow = true ∧ Frame [.adv] s t) ∧
  (∀ (s : State) (cap : Nat) (octal : Bool) (a b : List Byte), s.live = true → s.phase = 1 → s.maint = false →
    s.adv.found = false → s.bootmode = 0 →
    Completes (.flashDiscoveryDone cap octal a b) s fun t =>
      t.adv = { s.adv with found := true, flashCap := cap, slotA := slotHdr a, slotB := slotHdr b,
                           checking := bFirst (slotHdr a) (slotHdr b) } ∧
      t.flag advA ADV_STATUS_SLOW_FLASH = !octal ∧ RegFrame [advA + ADV_STATUS] s t ∧ Frame [.regs, .adv] s t) ∧
  (∀ (s : State) (img : List Byte), s.live = true → s.phase = 1 → s.maint = false → s.adv.found = true → s.bootmode ≤ 2 →
    (s.judgeSlot s.adv.checking img).valid = true →
    Completes (.slotCheckDone img) s fun t =>
      t.phase = 2 ∧ t.flag advA ADV_STATUS_SLOT = s.adv.checking ∧
      t.flag advA ADV_STATUS_SIG_OK = (s.judgeSlot s.adv.checking img).sig ∧
      t.adv = { s.adv with crcs := (s.judgeSlot s.adv.checking img).crcs, imgCrc := fieldAt img 60 4,
                           partition := (s.judgeSlot s.adv.checking img).part } ∧
      RegFrame [advA + ADV_STATUS] s t ∧ Frame [.regs, .adv] s t) ∧
  (∀ (s : State) (img : List Byte), s.live = true → s.phase = 1 → s.maint = false → s.adv.found = true → s.bootmode = 0 →
    s.adv.second = false → (s.judgeSlot s.adv.checking img).valid = false →
    Completes (.slotCheckDone img) s fun t =>
      t.phase = 1 ∧ t.adv = { s.adv with checking := !s.adv.checking, second := true } ∧
      t.flag advA ADV_STATUS_ALT_SLOT = true ∧ RegFrame [advA + ADV_STATUS] s t ∧ Frame [.regs, .adv] s t) ∧
  (∀ (s : State) (r : Req), s.live = true → s.cut r.die 0 = false → s.hostLoad = true → s.adv.hostRead = false →
    Completes (.hostLoadGo r) s fun t =>
      t.flag advA ADV_HOSTGO_GO = true ∧ t.adv = { s.adv with hostRead := true } ∧
      RegFrame [advA + ADV_HOSTGO, irqA + IRQ_SENT] s t ∧ Frame [.regs, .adv, .linesUp, .sent] s t) ∧
  (∀ (s : State) (a : Nat) (img : List Byte), s.live = true → s.hostLoad = true → s.adv.hostRead = true →
    s.adv.slotA.ok = false → s.adv.slotB.ok = false →
    a = (s.rd (advA + ADV_HOSTADDR_LO)).toNat / 16 * 16 + (s.rd (advA + ADV_HOSTADDR_HI)).toNat * 2 ^ 32 →
    img = s.hostBytes a (s.fld advA ADV_HOSTLEN_LENGTH) → (judgeImage s.adv.fuses s.adv.flashCap [] img).valid = true →
    Completes (.hostImageReadDone false) s fun t =>
      t.phase = 2 ∧ t.flag advA ADV_STATUS_HOSTLOAD = true ∧ t.flag advA ADV_HOSTGO_GO = false ∧ t.adv.hostRead = false ∧
      t.adv.crcs = (judgeImage s.adv.fuses s.adv.flashCap [] img).crcs ∧
      RegFrame [advA + ADV_STATUS, advA + ADV_HOSTGO] s t ∧ Frame [.regs, .adv] s t) ∧
  (∀ (s : State), s.live = true → s.hostLoad = true → s.adv.hostRead = true →
    Completes (.hostImageReadDone true) s fun t =>
      t.maint = true ∧ t.fld advA ADV_STATUS_CAUSE = 2 ∧ t.flag advA ADV_HOSTGO_GO = false ∧ t.phase = s.phase)

/-- O24. Register, masked, poll and conditional records act in their pass. In its pass and not skipped, a register record and
a masked record leave in a register that is written by access codes alone what those codes say of its word; a poll record
that reads its value is done, one that does not waits, is reread, and fails at its timeout with REC_ERRS and a recorded
error (cause 0x05); a conditional record skips SKIP records unless the selected value matches. Each of these forms ends in
a next state wherever its clause's conditions on state and operands hold: registerWriteRecord, maskedRegisterWriteRecord,
pollRecord, pollReread, pollTimeout, conditionalRecord, unknownRecord, endRecord. (R63, R66, R514, R515) -/
def Obligations.RegisterRecordsRunInTheirPass : Prop :=
  (∀ (s : State) (late : Bool) (target : Nat) (v : Word) (w : Where), s.live = true → s.walking = true → s.adv.skip = 0 →
    s.phase = (if late then 4 else 2) → regAt target = some w → s.cut 0 w.die = false →
    w.plain = true →
    Completes (.registerWriteRecord late target [v]) s fun t =>
      t.rd target = (infoAt target).written (s.rd target) v ∧ RegFrame [target, irqA + IRQ_SENT] s t ∧
      Frame [.regs, .due, .linesUp, .sent] s t) ∧
  (∀ (s : State) (late : Bool) (target : Nat) (v m : Word) (w : Where), s.live = true → s.walking = true → s.adv.skip = 0 →
    s.phase = (if late then 4 else 2) → regAt target = some w → s.cut 0 w.die = false → m ≠ 0 →
    (infoAt target).w1c = 0 → (infoAt target).w1s = 0 →
    w.plain = true →
    Completes (.maskedRegisterWriteRecord late target v m) s fun t =>
      t.rd target = (s.rd target &&& ~~~ ((infoAt target).rw &&& m)) ||| (v &&& ((infoAt target).rw &&& m)) ∧
      RegFrame [target, irqA + IRQ_SENT] s t ∧ Frame [.regs, .due, .linesUp, .sent] s t) ∧
  (∀ (s : State) (late : Bool) (target us : Nat) (v m : Word) (w : Where), s.live = true → s.walking = true → s.adv.skip = 0 →
    s.phase = (if late then 4 else 2) → regAt target = some w → s.cut 0 w.die = false → s.blkRead w = none →
    (infoAt target).rc = 0 → (s.rd target &&& ~~~ (infoAt target).wo) &&& m = v &&& m →
    Completes (.pollRecord late target v m us) s fun t => t = s) ∧
  (∀ (s : State) (late : Bool) (target us : Nat) (v m : Word) (w : Where), s.live = true → s.walking = true → s.adv.skip = 0 →
    s.phase = (if late then 4 else 2) → regAt target = some w → s.cut 0 w.die = false → s.blkRead w = none →
    (infoAt target).rc = 0 → (s.rd target &&& ~~~ (infoAt target).wo) &&& m ≠ v &&& m → us ≠ 0 →
    Completes (.pollRecord late target v m us) s fun t =>
      t.adv = { s.adv with poll := some ⟨target, v, m, s.tick, min us 1000000⟩ } ∧ Frame [.adv] s t) ∧
  (∀ (s : State) (p : PollRun) (w : Where), s.live = true → s.adv.poll = some p → s.tick ≤ p.started + usTicks p.timeoutUs →
    regAt p.target = some w → s.cut 0 w.die = false → s.blkRead w = none → (infoAt p.target).rc = 0 →
    Completes .pollReread s fun t =>
      t.adv.poll = (if (s.rd p.target &&& ~~~ (infoAt p.target).wo) &&& p.mask = p.value &&& p.mask then none else some p) ∧
      RegFrame [] s t ∧ Frame [.adv] s t) ∧
  (∀ (s : State) (p : PollRun), s.live = true → s.adv.poll = some p →
    Completes .pollTimeout s fun t =>
      t.adv = { s.adv with poll := none } ∧
      t.fld advA ADV_STATUS_REC_ERRS = min (s.fld advA ADV_STATUS_REC_ERRS + 1) 0xFFFF ∧
      Logged 0 0x05 1 (srcOf 0 0x01 0) p.target 0 s t ∧ RegFrame ((advA + ADV_STATUS) :: recordRegs 0) s t ∧
      Frame [.regs, .adv, .alm, .flt] s t) ∧
  (∀ (s : State) (sel v skip : Nat) (mask want : Word), s.live = true → s.walking = true → s.adv.skip = 0 →
    s.selector sel = some v →
    Completes (.conditionalRecord sel mask want skip) s fun t =>
      t.adv = { s.adv with skip := if wd v &&& mask = want then 0 else skip } ∧ Frame [.adv] s t) ∧
  (∀ (s : State), s.live = true → s.walking = true → s.adv.skip = 0 → s.phase = 2 →
    Completes .unknownRecord s fun t =>
      t.fld advA ADV_STATUS_REC_ERRS = min (s.fld advA ADV_STATUS_REC_ERRS + 1) 0xFFFF ∧
      RegFrame [advA + ADV_STATUS] s t ∧ Frame [.regs] s t) ∧
  (∀ (s : State), s.live = true → s.walking = true → s.phase = 4 →
    Completes .endRecord s fun t => t.adv = { s.adv with skip := 0 } ∧ Frame [.adv] s t) ∧
  (∀ (s : State), s.live = true → s.walking = true → s.phase = 2 →
    Completes .endRecord s fun t => t.phase = 3 ∧ t.adv = { s.adv with skip := 0 } ∧ Frame [.adv, .dchs, .quads, .regs] s t)

/-- O25. Load, firmware, partition and signature records fill what they name once their CRC matches. In A4, a load record
whose payload has the CRC kept in A1 acts: a block load into cluster memory stores every byte and no other; a tile record
of a head that does not run stores its 64 words; steward, engine and codec firmware that passes its checks is held by the
cores it names with its FW_ID, and FW_BAD is clear. In A1 a partition record that meets R64 names the partition and a
signature record shows its check in SIG_OK. Each of these forms ends in a next state wherever its clause's conditions on
state and operands hold: blockLoadRecord, tileCalibrationLoadRecord, stewardFirmwareRecord, engineFirmwareRecord,
codecFirmwareRecord, almanacPartitionRecord, signatureRecord. (R65, R69, R70, R76, R215, R253, R297) -/
def Obligations.LoadRecordsFillMemories : Prop :=
  (∀ (s : State) (target k : Nat) (data : List Byte) (rest : List Nat), s.live = true → s.walking = true → s.phase = 4 →
    s.adv.crcs = crc32c data :: rest → s.adv.skip = 0 → regionOf target = .cluster k →
    Completes (.blockLoadRecord target data) s fun t =>
      t.memBytes target data.length = data ∧ MemFrame target data.length s t ∧ t.adv = { s.adv with crcs := rest } ∧
      Frame [.mem, .adv] s t) ∧
  (∀ (s : State) (h : Fin 4) (tile : Fin 4096) (data : List Byte) (rest : List Nat), s.live = true → s.walking = true →
    s.phase = 4 → s.adv.crcs = crc32c data :: rest → s.adv.skip = 0 → data.length = 256 → s.headRuns h = false →
    Completes (.tileCalibrationLoadRecord (h * 2 ^ 20 + tile * 256) data) s fun t =>
      (∀ i : Fin 64, t.tget .tile h (tile * 64 + i) = wd (leNat ((data.drop (4 * i)).take 4))) ∧
      t.adv = { s.adv with crcs := rest } ∧ Frame [.tbl, .adv] s t) ∧
  (∀ (s : State) (cores : BitVec 4) (p : List Byte) (rest : List Nat), s.live = true → s.walking = true → s.phase = 4 →
    s.adv.crcs = crc32c p :: rest → s.adv.skip = 0 → svfwOk p = true →
    Completes (.stewardFirmwareRecord cores p) s fun t =>
      (∀ k : Fin 4, cores.getLsbD k = true →
        (t.core (.steward k)).loaded = true ∧ (t.core (.steward k)).entry = fieldAt p 20 4 ∧
        (t.core (.steward k)).imem = bytesMap ((p.drop 32).take (fieldAt p 12 4)) ∧
        (t.fld advA ADV_STEW_FW_BAD).testBit k = false ∧ t.rd (advA + ADV_STEW_FWID + 4 * k) = wd (fieldAt p 8 4)) ∧
      (∀ k : Fin 4, cores.getLsbD k = false → t.core (.steward k) = s.core (.steward k) ∧
        t.rd (advA + ADV_STEW_FWID + 4 * k) = s.rd (advA + ADV_STEW_FWID + 4 * k)) ∧
      RegFrame [advA + ADV_STEW, advA + ADV_STEW_FWID, advA + ADV_STEW_FWID + 4, advA + ADV_STEW_FWID + 8,
        advA + ADV_STEW_FWID + 12] s t ∧ Frame [.regs, .adv, .stews] s t) ∧
  (∀ (s : State) (clusters : BitVec 16) (p : List Byte) (rest : List Nat), s.live = true → s.walking = true → s.phase = 4 →
    s.adv.crcs = crc32c p :: rest → s.adv.skip = 0 → wrfwOk p = true →
    Completes (.engineFirmwareRecord clusters p) s fun t =>
      (∀ c : Fin 16, clusters.getLsbD c = true →
        t.fld (engA c) ENG_FWID_FW_ID = fieldAt p 8 4 ∧ t.flag (engA c) ENG_STATUS_FW_BAD = false ∧
        (∀ n : Fin 8, (t.eng c n).imem = bytesMap ((p.drop 32).take (fieldAt p 12 4)))) ∧
      Frame [.regs, .adv, .engs, .mem] s t) ∧
  (∀ (s : State) (cores : BitVec 8) (p : List Byte) (rest : List Nat), s.live = true → s.walking = true → s.phase = 4 →
    s.adv.crcs = crc32c p :: rest → s.adv.skip = 0 → vcfwOk p = true →
    Completes (.codecFirmwareRecord cores p) s fun t =>
      (∀ v : Fin 8, cores.getLsbD v = true →
        t.fld (vccA v) VCC_FWID_FW_ID = at' p 8 4 ∧ t.flag (vccA v) VCC_STATUS_SP_RUN = true ∧
        t.flag (vccA v) VCC_STATUS_FW_BAD = false ∧
        (t.vcc v).imem = (p.drop 32).take (at' p 12 4) ∧ (t.vcc v).entry = at' p 20 4) ∧
      Frame [.regs, .adv, .vccs] s t) ∧
  (∀ (s : State) (off size epoch : Nat), s.live = true → s.phase = 1 → s.maint = false → s.adv.slotA.ok = false →
    s.adv.slotB.ok = false → partOk s.adv.flashCap off size [] = true →
    Completes (.almanacPartitionRecord off size epoch) s fun t =>
      t.adv = { s.adv with partition := some (off, size, epoch) } ∧ Frame [.adv] s t) ∧
  (∀ (s : State) (key r q covered : List Byte), s.live = true → s.phase = 1 → s.maint = false →
    Completes (.signatureRecord key r q covered) s fun t =>
      t.flag advA ADV_STATUS_SIG_OK =
        signatureOk (s.adv.fuses.keyHash.flatMap (fun w => toBytes 4 w.toNat)) key r q covered ∧
      RegFrame [advA + ADV_STATUS] s t ∧ Frame [.regs] s t)

/-- O26. Advent A3 to A6: trained channels, steward start, the end of A5, census tokens. When every channel of a valid DRAM
configuration has the organisation configured and trains with FOM at or above FOM_PASS, A3 ends in A4 with 16 channels and
CAP x 960 x 16 MiB usable; when one fails, with the 14 channels of the other pairs. The end of A4 starts every loaded
steward core at ENTRY and begins A5; A5 leads to A6 when COUNT > 1: without a partition nothing is retained; a partition
of another epoch drops the AL values and shows EPOCH_NEW; one of the image's epoch gives a field the value that the
journal holds for it. In the census a package with no better origin starts its token out of the right port; a token of a
better origin is passed on; at the end of WAIT_MS a package that has its number sets the time leader and enters A7. Each
of these forms ends in a next state wherever its clause's conditions on state and operands hold: dramTrainingDone,
adventA4End, almanacReplay, censusTokenStart, processionCensusReceive, censusWaitExpiry. (R70, R71, R72, R83, R85, R387) -/
def Obligations.TrainingReplayAndHomecoming : Prop :=
  (∀ (s : State) (foms : List Nat) (orgs : List (List RankOrg)), s.live = true → s.phase = 3 → s.maint = false →
    s.dramCfgBad = false →
    (∀ n : Fin 16, s.orgOk ((orgs[n.val]?).getD []) = true ∧ s.fld (dchA n) DCH_FOM_FOM_PASS ≤ min 255 ((foms[n.val]?).getD 0)) →
    Completes (.dramTrainingDone 0 foms orgs) s fun t =>
      t.phase = 4 ∧ t.fld dmcA DMC_CHCFG_CHANNELS = 16 ∧ t.fld dmcA DMC_CHCFG_PAIR_USE = 0xFF ∧
      t.fld dmcA DMC_CHCFG_PAIR_FAIL = 0 ∧
      t.fld dmcA DMC_USABLE_MIB = (s.fld dmcA DMC_GEOM_CAP * 960 * 16) % 2 ^ (DMC_USABLE_MIB.hi + 1 - DMC_USABLE_MIB.lo) ∧
      (∀ n : Fin 16, t.flag (dchA n) DCH_STATUS_TRAINED = true ∧ t.flag (dchA n) DCH_STATUS_IN_USE = true ∧
        t.flag (dchA n) DCH_STATUS_EXCLUDED = false) ∧
      Frame [.regs, .masks] s t) ∧
  (∀ (s : State) (failed : BitVec 16) (foms : List Nat) (orgs : List (List RankOrg)) (n : Fin 16), s.live = true →
    s.phase = 3 → s.maint = false → s.dramCfgBad = false →
    (∀ k : Fin 16, failed.getLsbD k = decide (k = n)) →
    (∀ k : Fin 16, s.orgOk ((orgs[k.val]?).getD []) = true ∧ s.fld (dchA k) DCH_FOM_FOM_PASS ≤ min 255 ((foms[k.val]?).getD 0)) →
    Completes (.dramTrainingDone failed foms orgs) s fun t =>
      t.phase = 4 ∧ t.fld dmcA DMC_CHCFG_CHANNELS = 14 ∧ t.fld dmcA DMC_CHCFG_PAIR_FAIL = 2 ^ (n.val / 2) ∧
      t.fld dmcA DMC_CHCFG_PAIR_USE = 0xFF - 2 ^ (n.val / 2) ∧
      (∀ k : Fin 16, t.flag (dchA k) DCH_STATUS_TRAINED = decide (k ≠ n) ∧
        t.flag (dchA k) DCH_STATUS_EXCLUDED = decide (k.val / 2 = n.val / 2)) ∧
      Frame [.regs, .masks] s t) ∧
  (∀ (s : State), s.live = true → s.phase = 4 → s.walking = true →
    Completes .adventA4End s fun t =>
      t.phase = 5 ∧
      (∀ k : Fin 4, t.core (.steward k) = if (s.core (.steward k)).loaded then
        { s.core (.steward k) with run := true, pc := (s.core (.steward k)).entry, x := [] } else s.core (.steward k)) ∧
      RegFrame [advA + ADV_STATUS, advA + ADV_STEW] s t ∧ Frame [.regs, .stews] s t) ∧
  (∀ (s : State) (readable : Bool), s.live = true → s.phase = 5 → s.maint = false → s.adv.partition = none → s.due = [] →
    1 < s.fld advA ADV_SYSCFG_COUNT →
    Completes (.almanacReplay readable) s fun t =>
      t.phase = 6 ∧ t.alm.clean = true ∧ t.flag almA ALM_STATUS_HOLDING = false ∧ Frame [.regs, .alm] s t) ∧
  (∀ (s : State) (p : Nat × Nat × Nat) (old : Nat), s.live = true → s.phase = 5 → s.maint = false → s.adv.partition = some p →
    s.alm.place = (p.1, p.2.1) → s.alm.epoch = some old → old ≠ p.2.2 → s.alm.guard = false → s.alm.incomplete = false →
    s.due = [] → 1 < s.fld advA ADV_SYSCFG_COUNT →
    Completes (.almanacReplay true) s fun t =>
      t.phase = 6 ∧ t.flag almA ALM_STATUS_ENABLED = true ∧ t.flag almA ALM_STATUS_EPOCH_NEW = true ∧
      t.alm = { s.alm with flash := { s.alm.flash with al := [] }, epoch := some p.2.2 } ∧ Frame [.regs, .alm] s t) ∧
  (∀ (s : State) (p : Nat × Nat × Nat) (v : AlVal) (w : Where), s.live = true → s.phase = 5 → s.maint = false →
    s.adv.partition = some p → s.alm.place = (p.1, p.2.1) → s.alm.epoch = some p.2.2 → s.alm.flash.al = [v] →
    s.alm.guard = false → s.alm.incomplete = false → s.due = [] → 1 < s.fld advA ADV_SYSCFG_COUNT →
    v.key % 2 ^ 32 = 0 → regAt (v.key / 2 ^ 32) = some w → w.plain = true → v.key / 2 ^ 32 ≠ advA + ADV_STATUS →
    (infoAt (v.key / 2 ^ 32)).lk = 0 → (infoAt (v.key / 2 ^ 32)).w1c = 0 → (infoAt (v.key / 2 ^ 32)).w1s = 0 →
    (v.mask &&& ~~~ (infoAt (v.key / 2 ^ 32)).rw) = 0 →
    Completes (.almanacReplay true) s fun t =>
      t.phase = 6 ∧ t.rd (v.key / 2 ^ 32) = ((s.rd (v.key / 2 ^ 32) &&& ~~~ v.mask) ||| (v.value &&& v.mask)) ∧
      t.alm.epoch = some p.2.2 ∧ t.alm.flash.al = [v]) ∧
  (∀ (s : State), s.live = true → s.inCensus = true → s.allHere = false → s.adv.better = none → s.prcUp true = true →
    Completes .censusTokenStart s fun t =>
      t.sent = (s.prcEmit true (Token.packet ⟨1, 0, [s.ownEntry]⟩)).sent ∧
      (∀ x : Bool, { t.proc x with tx := (s.proc x).tx } = s.proc x) ∧ Frame [.sent, .procs] s t) ∧
  (∀ (s : State) (right : Bool) (k : Token) (o : TokEntry) (locked : List Nat) (prefers : Bool), s.live = true →
    s.prcOn right = true → (s.proc right).aligned = true → prcGood k.packet = true → tokenOf k.packet = some k →
    s.inCensus = true → k.pass = 1 → k.entries = [o] → o.same s.ownEntry = false → o.rank ≤ s.ownEntry.rank →
    Completes (.processionCensusReceive right k.packet locked prefers) s fun t =>
      t.adv = { s.adv with better := some s.tick } ∧
      t.sent = ((s.withAdv { s.adv with better := some s.tick }).passOn right { k with entries := [o, s.ownEntry] }).sent ∧
      (∀ x : Bool, { t.proc x with tx := (s.proc x).tx } = s.proc x) ∧ Frame [.adv, .sent, .procs] s t) ∧
  (∀ (s : State) (locked : List Nat) (prefers : Bool), s.live = true → s.inCensus = true → s.phase = 6 →
    s.flag advA ADV_SYSID_VALID = true → (∀ h : Fin 4, s.flag (headA h) HEAD_CTRL_EN = false) →
    Completes (.censusWaitExpiry locked prefers) s fun t =>
      t.phase = 7 ∧ t.time.leader = (lowest (locked.filter (· ≠ s.myPkg) ++
        (if s.usable 0 || s.usable 1 then [s.myPkg] else []))).getD 0 ∧
      t.fld advA ADV_SYSID_PKG_NUM = s.fld advA ADV_SYSID_PKG_NUM)

/-- O27. Commits, power failure and the wear ledger of the Almanac. With the partition enabled, the window open and no commit
in progress, COMMIT makes what waits the group being written, as a snapshot where fewer than two sectors are erased, and
leaves nothing waiting; the 2 s commit does so if anything changed. When the group is durable it joins the journal and
COMMIT clears. DISCARD_AL is set in maintenance only. A power failure with the window closed keeps what waits; with it
open, AL values go to the journal from the oldest up to 16 KiB. The wear ledger adds a second to the bin of T_hot. Each of
these forms ends in a next state wherever its clause's conditions on state and operands hold: almanacCommit,
almanacPeriodicCommit, almanacCommitDone, discardAl, powerFail, powerFailClear, wearLedgerTick. (R74, R76, R77, R78, R79,
R82) -/
def Obligations.AlmanacCommitsAndPowerFailure : Prop :=
  (∀ (s : State) (r : Req) (few : Bool), s.live = true → s.flag almA ALM_STATUS_ENABLED = true → s.alm.shut = false →
    s.alm.writing = none →
    Completes (.almanacCommit r few) s fun t =>
      t.alm.writing = some s.alm.group ∧ t.alm.asked = true ∧ t.alm.clean = true ∧
      t.alm.snapshot = (few || decide (s.alm.erased < 2)) ∧ t.flag almA ALM_CTRL_COMMIT = true ∧
      RegFrame [almA + ALM_CTRL, almA + ALM_STATUS, nvtA + NVT_STATUS] s t ∧ Frame [.regs, .alm] s t) ∧
  (∀ (s : State) (few : Bool), s.live = true → s.flag almA ALM_STATUS_ENABLED = true → s.alm.shut = false →
    s.alm.writing = none →
    Completes (.almanacPeriodicCommit few) s fun t =>
      t.alm.writing = (if s.almChanged then some s.alm.group else none) ∧ t.alm.clean = true ∧
      RegFrame [almA + ALM_STATUS, nvtA + NVT_STATUS] s t ∧ Frame [.regs, .alm] s t) ∧
  (∀ (s : State) (g : Journal), s.live = true → s.alm.writing = some g →
    s.alm.asked = true ∨ s.flag almA ALM_CTRL_COMMIT = false →
    Completes .almanacCommitDone s fun t =>
      t.alm.flash = s.alm.flash.join g s.alm.discard true ∧ t.alm.writing = none ∧ t.alm.incomplete = false ∧ t.alm.seq = s.alm.seq + 1 ∧
      t.flag almA ALM_CTRL_COMMIT = false ∧ t.alm.pendAl = s.alm.pendAl ∧ t.alm.pendLog = s.alm.pendLog ∧
      RegFrame [almA + ALM_CTRL, almA + ALM_STATUS, nvtA + NVT_STATUS] s t ∧ Frame [.regs, .alm] s t) ∧
  (∀ (s : State) (r : Req), s.live = true → s.maint = true →
    Completes (.discardAl r) s fun t =>
      t.flag almA ALM_CTRL_DISCARD_AL = true ∧ RegFrame [almA + ALM_CTRL] s t ∧ Frame [.regs] s t) ∧
  (∀ (s : State) (r : Req), s.live = true → s.maint = false → Completes (.discardAl r) s fun t => t = s) ∧
  (∀ (s : State), s.live = true → s.alm.pfail = false → s.alm.writing = none → s.alm.shut = true →
    Completes .powerFail s fun t =>
      t.alm = { s.alm with pfail := true } ∧ RegFrame [almA + ALM_STATUS, nvtA + NVT_STATUS] s t ∧
      Frame [.regs, .alm] s t) ∧
  (∀ (s : State), s.live = true → s.alm.pfail = false → s.alm.writing = none → s.alm.shut = false →
    s.flag almA ALM_STATUS_ENABLED = true → s.alm.clean = false →
    Completes .powerFail s fun t =>
      t.alm.pfail = true ∧
      (∃ n : Nat, t.alm.pendAl = s.alm.pendAl.drop n ∧
        t.alm.flash.al = (s.alm.pendAl.take n).foldl (fun l v => mergeAl v l) s.alm.flash.al) ∧
      RegFrame [almA + ALM_STATUS, nvtA + NVT_STATUS] s t ∧ Frame [.regs, .alm] s t) ∧
  (∀ (s : State), s.live = true →
    Completes .powerFailClear s fun t => t.alm = { s.alm with pfail := false } ∧ Frame [.alm] s t) ∧
  (∀ (s : State), s.live = true → s.flag almA ALM_STATUS_ENABLED = true →
    Completes .wearLedgerTick s fun t =>
      t.alm.ledger = (List.range 8).map (fun i => (s.alm.ledger[i]?).getD 0 + if i = ledgerBin s.tHot then 1 else 0) ∧
      t.rd (almA + ALM_LEDGER + 4 * ledgerBin s.tHot) = wd (((s.alm.ledger[ledgerBin s.tHot]?).getD 0 + 1) / 60) ∧
      t.alm.pendLedger = true ∧
      RegFrame [almA + ALM_LEDGER + 4 * ledgerBin s.tHot, almA + ALM_STATUS, nvtA + NVT_STATUS] s t ∧
      Frame [.regs, .alm] s t)

/-- O28. Enabling, frames and lines of a camera port, and the pipe that takes its lines. An accepted write of EN = 1 starts
the port with no T_frame and no CAL_ID, a rejected one leaves EN 0, sets CFG_ERR and records cause 0x05; EN = 0 ends it
with its line discarded. FV up opens, numbers and stamps a frame, FV down closes it and counts a short one; LV up numbers
a line and puts it into the FIFO, LV down judges and keeps its samples. A pipe takes a waiting class-0 line first. A read
of CAMP_FVTS_NS latches the seconds. No other port changes. Each of these forms ends in a next state wherever its clause's
conditions on state and operands hold: campEnable, campDisable, cameraFrameStart, cameraFrameEnd, cameraLineStart,
cameraLineEnd, pipeLineDone, cameraStampRead. (R99, R100, R101, R106, R107, R108, R109, R110, R112) -/
def Obligations.CameraPortsStartStopAndFrame : Prop :=
  (∀ (s : State) (r : Req) (p : Fin 12) (v : Word), s.live = true → s.flag (campA p) CAMP_CTRL_EN = false →
    s.enRejected p (v ||| 1) = false →
    Completes (.campEnable r p v) s fun t =>
      t.flag (campA p) CAMP_CTRL_EN = true ∧ t.flag (campA p) CAMP_STATUS_ACTIVE = true ∧ (t.camp p).inFrame = false ∧
      (t.camp p).first = true ∧ (t.camp p).fvNs = (s.camp p).fvNs ∧ (t.camp p).gang = bits v.toNat 2 1 ∧ (t.camp p).pipe = bits v.toNat 18 16 ∧
      t.fld (campA p) CAMP_TFRAME_TFRAME_NS = 0 ∧ t.fld (calA p) CAL_INFORCE_CAL_ID = 0xFFFF ∧
      t.flag (calA p) CAL_STATUS_NO_TFRAME = true ∧
      (∀ q : Fin 12, q ≠ p → { t.camp q with training := (s.camp q).training } = s.camp q) ∧
      Frame [.regs, .due, .held, .alm, .camps, .cals, .pipes, .fab, .flt] s t) ∧
  (∀ (s : State) (r : Req) (p : Fin 12) (v : Word), s.live = true → s.flag (campA p) CAMP_CTRL_EN = false →
    s.enRejected p (v ||| 1) = true →
    Completes (.campEnable r p v) s fun t =>
      t.flag (campA p) CAMP_CTRL_EN = false ∧ t.flag (campA p) CAMP_STATUS_CFG_ERR = true ∧
      Logged 0 0x05 1 (srcOf 0 0x10 p) 0 (info8 p) s t ∧
      RegFrame ((campA p + CAMP_CTRL) :: (campA p + CAMP_STATUS) :: recordRegs 0) s t ∧
      Frame [.regs, .due, .held, .alm, .flt] s t) ∧
  (∀ (s : State) (r : Req) (p : Fin 12) (v : Word), s.live = true → s.flag (campA p) CAMP_CTRL_EN = true →
    Completes (.campDisable r p v) s fun t =>
      t.flag (campA p) CAMP_CTRL_EN = false ∧ t.flag (campA p) CAMP_STATUS_ACTIVE = false ∧
      t.flag (campA p) CAMP_STATUS_IN_FRAME = false ∧ (t.camp p).inFrame = false ∧ (t.camp p).lineOpen = false ∧
      (∀ q : Fin 12, q ≠ p → t.camp q = s.camp q) ∧ Frame [.regs, .due, .held, .alm, .camps, .pipes, .fab, .flt] s t) ∧
  (∀ (s : State) (p : Fin 12), s.live = true → s.campOn p = true → (s.camp p).inFrame = false → s.fab.inject = [] →
    s.calRuns p = false →
    Completes (.cameraFrameStart p) s fun t =>
      (t.camp p).inFrame = true ∧ (t.camp p).frame = s.nextCamFrame p ∧ (t.camp p).lines = 0 ∧
      (t.camp p).fvNs = some s.nowNs ∧ t.flag (campA p) CAMP_STATUS_IN_FRAME = true ∧
      t.fld (campA p) CAMP_FRAME_FRAME_NEXT = (s.nextCamFrame p + 1) % 2 ^ 32 ∧
      (∀ q : Fin 12, q ≠ p → t.camp q = s.camp q) ∧
      BlockFrame [campA p, calA p, fltA 0, almA, nvtA, headA 0, headA 1, headA 2, headA 3] s t ∧
      Frame [.regs, .act, .due, .held, .frozen, .camps, .cals, .pipes, .fab, .flt, .alm, .heads, .poses, .tbl] s t) ∧
  (∀ (s : State) (p : Fin 12) (parts : List LinePart), s.live = true → s.campOn p = true → (s.camp p).inFrame = true → s.fab.inject = [] →
    Completes (.cameraFrameEnd p parts) s fun t =>
      (t.camp p).inFrame = false ∧ (t.camp p).fvFallNs = some s.nowNs ∧ t.flag (campA p) CAMP_STATUS_IN_FRAME = false ∧
      t.fld (campA p) CAMP_CNTC_SHORT_FRAMES = (if (s.camp p).lines < s.height p then
        min (s.fld (campA p) CAMP_CNTC_SHORT_FRAMES + 1) 255 else s.fld (campA p) CAMP_CNTC_SHORT_FRAMES) ∧
      t.fld (campA p) CAMP_CNTC_LONG_FRAMES = (if (s.camp p).long then
        min (s.fld (campA p) CAMP_CNTC_LONG_FRAMES + 1) 255 else s.fld (campA p) CAMP_CNTC_LONG_FRAMES) ∧
      (∀ q : Fin 12, q ≠ p → t.camp q = s.camp q) ∧ BlockFrame [campA p, fltA 0, almA, nvtA] s t ∧
      Frame [.regs, .camps, .pipes, .fab, .flt, .alm] s t) ∧
  (∀ (s : State) (p : Fin 12), s.live = true → s.campOn p = true → (s.camp p).inFrame = true →
    (s.camp p).lineOpen = false → (s.camp p).lines < s.height p → (s.camp p).overflow = false → (s.camp p).level < 16 →
    Completes (.cameraLineStart p) s fun t =>
      (t.camp p).lineOpen = true ∧ (t.camp p).lineDrop = false ∧ (t.camp p).lines = (s.camp p).lines + 1 ∧
      (t.camp p).lineAt = s.now32 ∧
      (t.camp p).fifo = (s.camp p).fifo ++ [⟨⟨s.campHdr p (s.camp p).lines (edgeFlags (s.camp p).lines (s.height p)) s.time32,
        .line []⟩, (s.camp p).pipesOf (s.height p) (s.camp p).lines, false, false⟩] ∧
      (∀ q : Fin 12, q ≠ p → t.camp q = s.camp q) ∧
      BlockFrame [campA p, fltA 0, almA, nvtA, headA 0, headA 1, headA 2, headA 3] s t ∧
      Frame [.regs, .camps, .fab, .flt, .alm, .heads] s t) ∧
  (∀ (s : State) (p : Fin 12) (parts : List LinePart), s.live = true → s.campOn p = true → (s.camp p).lineOpen = true →
    (s.camp p).lineDrop = false → s.fab.inject = [] →
    Completes (.cameraLineEnd p parts) s fun t =>
      (t.camp p).lineOpen = false ∧ (t.camp p).last4 = ((s.judgeLine p parts).samples :: (s.camp p).last4).take 4 ∧
      t.fld (campA p) CAMP_CNTA_SHORT_LINES = (if (s.judgeLine p parts).short then
        min (s.fld (campA p) CAMP_CNTA_SHORT_LINES + 1) 0xFFFF else s.fld (campA p) CAMP_CNTA_SHORT_LINES) ∧
      (∀ q : Fin 12, q ≠ p → t.camp q = s.camp q) ∧ BlockFrame [campA p, fltA 0, almA, nvtA] s t ∧
      Frame [.regs, .camps, .pipes, .flt, .alm] s t) ∧
  (∀ (s : State) (q : Fin 8) (p : Fin 12), s.live = true → s.class0Ports q = [p.val] → s.noBridge (pipeDie q) = false →
    Completes (.pipeLineDone q) s fun t =>
      (t.pipe q).last = p ∧ (s.pipe q).inQ ++ (takeLine q (s.camp p).fifo).2 <+: (t.pipe q).inQ ∧
      (∀ k : Fin 12, k ≠ p → t.camp k = s.camp k) ∧ RegFrame [campA p + CAMP_FIFO] s t ∧
      Frame [.regs, .camps, .pipes] s t) ∧
  (∀ (s : State) (r : Req) (p : Fin 12), s.live = true →
    Completes (.cameraStampRead r p) s fun t =>
      t.answer = wd (((s.camp p).fvNs).getD 0 % 1000000000) ∧
      t.rd (campA p + CAMP_FVTS_SEC) = wd (((s.camp p).fvNs).getD 0 / 1000000000) ∧
      RegFrame [campA p + CAMP_FVTS_SEC] s t ∧ Frame [.regs, .answer] s t)

/-- O29. Timeouts, lost clocks and training of a camera port. A line timeout inside a frame inserts a line and counts it; a
frame deadline counts a late frame, and the fourth in a row sets NO_SIGNAL; a lost clock sets CK_LOST and ends the open
frame. A trained port left in mode 2 moves each tap by one towards the passing side. START of a leader trains its gang,
TRAIN_MODE 2 an untrained port; training starts with an empty record, each burst adds its cycles, others count in STRAY,
and after 512 cycles in which every bit has an eye of at least MIN_EYE every TAP is the middle of its longest run and
TRAINED is set. A write of CAMP_TAP sets TAP of the selected bit alone. Each of these forms ends in a next state wherever
its clause's conditions on state and operands hold: lineTimeout, frameDeadline, clockLost, trainingStart, trainingBurst,
trainingEnd, tapWrite. (R95, R96, R98, R102, R103, R104, R112) -/
def Obligations.CameraLossesAndTraining : Prop :=
  (∀ (s : State) (p : Fin 12), s.live = true → s.campOn p = true → (s.camp p).inFrame = true → 0 < (s.camp p).lines →
    (s.camp p).lines < s.height p → s.lineOverdue p = true →
    Completes (.lineTimeout p) s fun t =>
      (t.camp p).lines = (s.camp p).lines + 1 ∧ (t.camp p).lineAt = s.now32 ∧
      t.fld (campA p) CAMP_CNTB_LINE_TIMEOUTS = min (s.fld (campA p) CAMP_CNTB_LINE_TIMEOUTS + 1) 0xFFFF ∧
      (∀ q : Fin 12, q ≠ p → t.camp q = s.camp q) ∧ BlockFrame [campA p, fltA 0, almA, nvtA] s t ∧
      Frame [.regs, .camps, .pipes, .fab, .flt, .alm] s t) ∧
  (∀ (s : State) (p : Fin 12), s.live = true → s.campOn p = true → s.frameOverdue p = true →
    Completes (.frameDeadline p) s fun t =>
      t.fld (campA p) CAMP_CNTC_LATE_FRAMES = min (s.fld (campA p) CAMP_CNTC_LATE_FRAMES + 1) 255 ∧
      (t.camp p).lateNext = true ∧ (t.camp p).deadlines = (s.camp p).deadlines + 1 ∧
      t.flag (campA p) CAMP_STATUS_NO_SIGNAL = (decide (3 ≤ (s.camp p).deadlines) || s.flag (campA p) CAMP_STATUS_NO_SIGNAL) ∧
      (∀ q : Fin 12, q ≠ p → t.camp q = s.camp q) ∧
      BlockFrame [campA p, calA p, twcA (s.fld (calA p) CAL_CTRL_TWC), fltA 0, almA, nvtA] s t ∧
      Frame [.regs, .camps, .cals, .twcs, .pipes, .fab, .flt, .alm] s t) ∧
  (∀ (s : State) (p : Fin 12) (parts : List LinePart), s.live = true → s.campOn p = true →
    Completes (.clockLost p parts) s fun t =>
      t.flag (campA p) CAMP_STATUS_CK_LOST = true ∧ (t.camp p).inFrame = false ∧ (t.camp p).lineOpen = false ∧
      (∀ q : Fin 12, q ≠ p → t.camp q = s.camp q) ∧ BlockFrame [campA p, fltA 0, almA, nvtA] s t ∧
      Frame [.regs, .camps, .pipes, .fab, .flt, .alm] s t) ∧
  (∀ (s : State) (p : Fin 12), s.live = true → s.flag (campA (s.leaderOf p)) CAMP_CTRL_EN = true →
    s.fld (campA (s.leaderOf p)) CAMP_CTRL_TRAIN_MODE = 2 → s.flag (campA p) CAMP_STATUS_TRAINED = false →
    (s.camp p).training.active = false →
    Completes (.trainingStart p none) s fun t =>
      t.flag (campA p) CAMP_STATUS_TRAIN_BUSY = true ∧ t.camp p = { s.camp p with training := (t.camp p).training } ∧
      (t.camp p).training = { active := true, cycles := 0, pass := [], moved := (s.camp p).training.moved } ∧
      (∀ q : Fin 12, q ≠ p → t.camp q = s.camp q) ∧ RegFrame [campA p + CAMP_STATUS] s t ∧ Frame [.regs, .camps] s t) ∧
  (∀ (s : State) (p : Fin 12) (r : Req) (v : Word), s.live = true → s.flag (campA p) CAMP_STATUS_MEMBER = false →
    Completes (.trainingStart p (some (r, v))) s fun t =>
      t.flag (campA p) CAMP_TRCTL_START = true ∧
      (∀ q : Fin 12, t.camp q = if q.val ∈ s.gangOf p then { s.camp q with training :=
          { active := true, cycles := 0, pass := [], moved := (s.camp q).training.moved } } else s.camp q) ∧
      (∀ q : Fin 12, t.flag (campA q) CAMP_STATUS_TRAIN_BUSY =
        (decide (q.val ∈ s.gangOf p) || s.flag (campA q) CAMP_STATUS_TRAIN_BUSY)) ∧
      Frame [.regs, .camps, .alm] s t) ∧
  (∀ (s : State) (p : Fin 12) (cs : List BurstCycle), s.live = true → (s.camp p).training.active = true →
    Completes (.trainingBurst p cs) s fun t =>
      (t.camp p).training = trainOn (s.rd (campA (s.leaderOf p) + CAMP_TRWORD)) cs (s.camp p).training ∧
      t.fld (campA p) CAMP_CNTB_STRAY = min 0xFFFF (s.fld (campA p) CAMP_CNTB_STRAY +
        ((cs.drop (512 - (s.camp p).training.cycles)).filter (fun c =>
          c.matching (s.rd (campA (s.leaderOf p) + CAMP_TRWORD)) ≠ 0xFFFFFFFF)).length) ∧
      (∀ q : Fin 12, q ≠ p → t.camp q = s.camp q) ∧ RegFrame [campA p + CAMP_CNTB] s t ∧ Frame [.regs, .camps] s t) ∧
  (∀ (s : State) (p : Fin 12) (cs : List BurstCycle), s.live = true →
    (s.camp p).training.active = false → s.fld (campA (s.leaderOf p)) CAMP_CTRL_TRAIN_MODE = 2 →
    s.flag (campA p) CAMP_STATUS_TRAINED = true → 16 ≤ cs.length →
    Completes (.trainingBurst p cs) s fun t =>
      (∀ i : Fin 32, t.tapOf p i = if (s.camp p).training.moved.toNat.testBit i || bitPasses (s.rd (campA (s.leaderOf p) + CAMP_TRWORD)) (cs.take 8) i ==
        bitPasses (s.rd (campA (s.leaderOf p) + CAMP_TRWORD)) ((cs.drop 8).take 8) i then s.tapOf p i
        else if bitPasses (s.rd (campA (s.leaderOf p) + CAMP_TRWORD)) (cs.take 8) i then s.tapOf p i - 1 else min 63 (s.tapOf p i + 1)) ∧
      (∀ i : Fin 32, (t.fld (campA p) CAMP_TRFAIL_FAIL_MASK).testBit i =
        ((!bitPasses (s.rd (campA (s.leaderOf p) + CAMP_TRWORD)) (cs.take 8) i &&
          !bitPasses (s.rd (campA (s.leaderOf p) + CAMP_TRWORD)) ((cs.drop 8).take 8) i) || (s.fld (campA p) CAMP_TRFAIL_FAIL_MASK).testBit i)) ∧
      RegFrame [campA p + CAMP_STATUS, campA p + CAMP_TRFAIL, campA p + CAMP_CNTB] s t ∧
      Frame [.regs, .tbl, .camps, .sent] s t) ∧
  (∀ (s : State) (p : Fin 12), s.live = true → (s.camp p).training.active = true → 512 ≤ (s.camp p).training.cycles →
    (∀ i : Fin 32, s.fld (campA (s.leaderOf p)) CAMP_TRCTL_MIN_EYE ≤
      (longestRun ((s.camp p).training.pass.map (fun (w : Word) => w.toNat.testBit i))).2) →
    Completes (.trainingEnd p) s fun t =>
      t.flag (campA p) CAMP_STATUS_TRAINED = true ∧ t.flag (campA p) CAMP_STATUS_TRAIN_BUSY = false ∧
      t.flag (campA p) CAMP_TRCTL_START = false ∧ t.fld (campA p) CAMP_TRFAIL_FAIL_MASK = 0 ∧
      (∀ i : Fin 32, t.tapOf p i =
        ((longestRun ((s.camp p).training.pass.map (fun (w : Word) => w.toNat.testBit i))).1 +
          ((longestRun ((s.camp p).training.pass.map (fun (w : Word) => w.toNat.testBit i))).2 - 1) / 2) % 64) ∧
      RegFrame [campA p + CAMP_TRCTL, campA p + CAMP_STATUS, campA p + CAMP_TRFAIL] s t ∧ Frame [.regs, .camps, .tbl] s t) ∧
  (∀ (s : State) (r : Req) (p : Fin 12) (v : Word), s.live = true → s.fld (campA p) CAMP_TAPIDX_INDEX < 34 →
    Completes (.tapWrite r p v) s fun t =>
      t.tget .tap p (s.fld (campA p) CAMP_TAPIDX_INDEX) =
        (s.tget .tap p (s.fld (campA p) CAMP_TAPIDX_INDEX) &&& 0xFFFFFFC0) ||| (v &&& 0x3F) ∧
      TblFrame .tap p (s.fld (campA p) CAMP_TAPIDX_INDEX) s t ∧ Frame [.tbl] s t)

/-- O30. Calendar entries are stored, triggered and missed; freeze and midpoint. A write of CAL_ENTRY3 stores the staged entry
in one step, or is rejected with CFG_ERR when a field is out of range or the entry is being written. A write of CAL_WDATA1
stores the staged item. When the trigger of an armed entry passes in time its items go to the controller and it is being
written; when its deadline passes first it misses: counted, named and freed unless the policy retries. The freeze covers
the port and its calendar. A read of CAL_MID_NS latches the seconds. Each of these forms ends in a next state wherever its
clause's conditions on state and operands hold: calEntryStore, writeListStore, calTrigger, calDeadline, freeze,
calMidpointRead. (R114, R115, R117, R118, R119, R122, R126) -/
def Obligations.CalendarEntriesTriggerAndMiss : Prop :=
  (∀ (s : State) (r : Req) (p : Fin 12) (w0 w1 w2 v : Word), s.live = true → (s.cal p).staged = [w0, w1, w2] →
    bits w2.toNat 15 8 ≠ 255 → bits w2.toNat 6 0 < 64 ∨ bits w2.toNat 6 0 = 127 →
    bits w1.toNat 10 0 + bits w1.toNat 23 16 ≤ 2048 → (s.calEntry p (s.fld (calA p) CAL_EIDX_EIDX)).state ≠ 2 →
    s.calRuns p = false →
    Completes (.calEntryStore r p v) s fun t =>
      t.calEntry p (s.fld (calA p) CAL_EIDX_EIDX) =
        { target := w0.toNat, wlCount := bits w1.toNat 23 16, wlStart := bits w1.toNat 10 0, tag := bits w2.toNat 15 8,
          expEn := w2.toNat.testBit 7, pset := bits w2.toNat 6 0, exp := v, state := if w2.toNat.testBit 31 then 1 else 0 } ∧
      (∀ i : Fin 256, i.val ≠ s.fld (calA p) CAL_EIDX_EIDX → t.calEntry p i = s.calEntry p i) ∧
      (∀ q : Fin 12, q ≠ p → t.cal q = s.cal q) ∧ Frame [.cals] s t) ∧
  (∀ (s : State) (r : Req) (p : Fin 12) (v : Word), s.live = true →
    (s.calEntry p (s.fld (calA p) CAL_EIDX_EIDX)).state = 2 →
    Completes (.calEntryStore r p v) s fun t =>
      t.flag (calA p) CAL_STATUS_CFG_ERR = true ∧ RegFrame [calA p + CAL_STATUS] s t ∧ Frame [.regs] s t) ∧
  (∀ (s : State) (r : Req) (p : Fin 12) (v : Word), s.live = true →
    Completes (.writeListStore r p v) s fun t =>
      t.tget .writeList p (2 * s.fld (calA p) CAL_WIDX_WIDX) = (s.cal p).stagedItem ∧
      t.tget .writeList p (2 * s.fld (calA p) CAL_WIDX_WIDX + 1) = v ∧ Frame [.tbl] s t) ∧
  (∀ (s : State) (p : Fin 12) (i : Fin 256), s.live = true → s.calRuns p = true → (s.calEntry p i).state = 1 →
    0 < (s.calEntry p i).wlCount → s.trigDue p = true →
    s.trigFrame p (s.calEntry p i) = (s.camp p).frame → s.flag (calA p) CAL_STATUS_NO_TFRAME = false →
    s.nowNs < s.calDeadlineNs p →
    (∀ x ∈ s.calItems p i (s.calDeadlineNs p), x.alen = 1 ∨ x.alen = 2) →
    s.flag (twcA (s.fld (calA p) CAL_CTRL_TWC)) TWC_CTRL_EN = false → (s.twc (s.fld (calA p) CAL_CTRL_TWC)).queue = [] →
    (∀ q : Fin 12, (s.cal q).waiting = []) →
    Completes (.calTrigger p i) s fun t =>
      (t.calEntry p i).state = 2 ∧
      (t.twc (s.fld (calA p) CAL_CTRL_TWC)).queue = (s.calItems p i (s.calDeadlineNs p)).take 64 ∧
      (t.cal p).waiting = (s.calItems p i (s.calDeadlineNs p)).drop 64 ∧
      RegFrame [twcA (s.fld (calA p) CAL_CTRL_TWC) + TWC_STATUS] s t ∧ Frame [.regs, .cals, .twcs] s t) ∧
  (∀ (s : State) (p : Fin 12) (i : Fin 256), s.live = true → (s.calEntry p i).state = 2 →
    s.flag (calA p) CAL_CTRL_MISS_POLICY = false → s.calDeadlineNs p ≤ s.nowNs →
    Completes (.calDeadline p i) s fun t =>
      (t.calEntry p i).state = 0 ∧ t.flag (calA p) CAL_STATUS_MISS = true ∧
      t.fld (calA p) CAL_MISS_LAST_MISSED_ID = (s.calEntry p i).calId i % 2 ^ 16 ∧
      t.fld (calA p) CAL_CNT_MISSES = min (s.fld (calA p) CAL_CNT_MISSES + 1) 0xFFFF ∧
      (t.cal p).missed = (s.calEntry p i).target :: (s.cal p).missed ∧
      BlockFrame [calA p, twcA (s.fld (calA p) CAL_CTRL_TWC)] s t ∧ Frame [.regs, .cals, .twcs] s t) ∧
  (∀ (s : State) (p : Fin 12), s.live = true → s.campOn p = true → s.flag (calA p) CAL_STATUS_NO_TFRAME = false →
    s.freezeDue p = true →
    Completes (.freeze p) s fun t =>
      campA p ∈ t.frozen ∧ calA p ∈ t.frozen ∧ (∀ g ∈ s.frozen, g ∈ t.frozen) ∧ Frame [.frozen] s t) ∧
  (∀ (s : State) (r : Req) (p : Fin 12), s.live = true →
    Completes (.calMidpointRead r p) s fun t =>
      t.answer = s.rd (calA p + CAL_MID_NS) ∧ t.fld (calA p) CAL_MID_SEC_MID_SEC = (s.cal p).mid / 1000000000 % 2 ^ 32 ∧
      RegFrame [calA p + CAL_MID_SEC] s t ∧ Frame [.regs, .answer] s t)

/-- O31. A pipe opens frames, passes lines, keeps its reference and writes its tables. A frame-start packet in front opens the
frame of the slot that its stream is routed to; a line packet leaves the front, and one of a stream without a slot records
cause 0x05 at the pipe's die. A wanted reference row is read from its buffer; an answered row write leaves the queue, and
without an error its row is valid. FE_TDATA and COL_TDATA write their masked entry, a bank in use is refused with TBL_ERR,
and the index moves on either way. GO starts a load, which ends with GO clear and LD_ERR exactly when it fails early. Each
of these forms ends in a next state wherever its clause's conditions on state and operands hold: pipeFrameStart, pipeLine,
refReadDone, refWriteDone, feTableWrite, colourTableWrite, colourTableLoad, colourLoadDone. (R121, R140, R141, R151, R152,
R153, R187, R188) -/
def Obligations.PipesTakeFramesLinesAndTables : Prop :=
  (∀ (s : State) (q : Fin 8) (h : Hdr) (k : Nat), s.live = true → (s.pipe q).inQ = [⟨h, .frameStart⟩] →
    s.slotFor q h.sid = some k →
    Completes (.pipeFrameStart q) s fun t =>
      (t.slot q k).inFrame = true ∧ (t.slot q k).h = h ∧ (t.slot q k).fvNs = s.fullTime h.time ∧ (t.slot q k).raw = [] ∧
      (t.pipe q).inQ = [] ∧ (∀ p : Fin 8, p ≠ q → t.pipe p = s.pipe p) ∧ BlockFrame [pipeA q] s t ∧
      Frame [.regs, .act, .due, .held, .frozen, .pipes, .mfes, .heads] s t) ∧
  (∀ (s : State) (q : Fin 8) (h : Hdr) (v : List Nat) (k : Nat), s.live = true → (s.pipe q).inQ = [⟨h, .line v⟩] →
    s.slotFor q h.sid = some k → (s.slot q k).inFrame = true →
    Completes (.pipeLine q []) s fun t =>
      (t.pipe q).inQ = [] ∧ (t.slot q k).inFrame = true ∧ (∀ p : Fin 8, p ≠ q → t.pipe p = s.pipe p) ∧
      BlockFrame ([pipeA q, mfeA q, fltA (1 + q / 4)] ++ busBlocks) s t ∧
      Frame ([.act, .due, .held, .frozen, .pipes, .mfes, .heads, .free] ++ busParts) s t) ∧
  (∀ (s : State) (q : Fin 8) (h : Hdr) (v : List Nat), s.live = true → (s.pipe q).inQ = [⟨h, .line v⟩] →
    s.slotFor q h.sid = none → (s.mfe q).due = none →
    Completes (.pipeLine q []) s fun t =>
      (t.pipe q).inQ = [] ∧ Logged (1 + q / 4) 0x05 1 (srcOf (1 + q / 4) 0x80 (q % 4)) 0 (info8 h.sid) s t ∧
      RegFrame (recordRegs (1 + q / 4)) s t ∧ Frame [.regs, .pipes, .heads, .alm, .flt] s t) ∧
  (∀ (s : State) (q : Fin 8) (row : Nat) (bad : Bool), s.live = true → row ∈ (s.tnr q).wanted →
    Completes (.refReadDone q row bad) s fun t =>
      row ∉ (t.tnr q).wanted ∧ (∃ b : Bool, (bad = true → b = true) ∧
        (t.tnr q).rows.map (fun r => (r.row, r.bad)) = (s.tnr q).rows.map (fun r => (r.row, r.bad)) ++ [(row, b)]) ∧
      (∀ p : Fin 8, p ≠ q → t.pipe p = s.pipe p) ∧ BlockFrame busBlocks s t ∧ Frame ([.pipes] ++ busParts) s t) ∧
  (∀ (s : State) (q : Fin 8) (row a n : Nat) (bad : Bool), s.live = true → row ∈ (s.tnr q).wanted →
    n = 2 * (s.slot q (s.tnr q).slot).width →
    a = s.refBase q (((s.slot q (s.tnr q).slot).h.frame + 1) % 2) + row * refPitch (s.slot q (s.tnr q).slot).width →
    s.answersAt a n →
    Completes (.refReadDone q row bad) s fun t =>
      row ∉ (t.tnr q).wanted ∧ (t.tnr q).rows = (s.tnr q).rows ++ [⟨row, bad, numsOf 2 (s.memBytes a n)⟩] ∧
      (∀ p : Fin 8, p ≠ q → t.pipe p = s.pipe p) ∧ Frame [.pipes] s t) ∧
  (∀ (s : State) (q : Fin 8) (w : RefWrite) (rest : List RefWrite), s.live = true → (s.tnr q).writes = w :: rest →
    Completes (.refWriteDone q true) s fun t =>
      (t.tnr q).writes = rest ∧ (t.tnr q).valid0 = (s.tnr q).valid0 ∧ (t.tnr q).valid1 = (s.tnr q).valid1 ∧
      t.fld (pipeA q) FE_REFBUF_LEVEL = rest.length % 128 ∧ RegFrame [pipeA q + FE_REFBUF] s t ∧
      Frame [.regs, .pipes] s t) ∧
  (∀ (s : State) (q : Fin 8) (w : RefWrite) (rest : List RefWrite), s.live = true → (s.tnr q).writes = w :: rest →
    w.buf = 0 → w.frame = (s.tnr q).frame0 →
    s.answersAt (s.refBase q 0 + w.row * refPitch w.v.length) (2 * w.v.length) →
    Completes (.refWriteDone q false) s fun t =>
      (t.tnr q).writes = rest ∧ w.row ∈ (t.tnr q).valid0 ∧ (t.tnr q).valid1 = (s.tnr q).valid1 ∧
      t.memBytes (s.refBase q 0 + w.row * refPitch w.v.length) (2 * w.v.length) = w.v.flatMap (toBytes 2) ∧
      MemFrame (s.refBase q 0 + w.row * refPitch w.v.length) (2 * w.v.length) s t ∧
      RegFrame [pipeA q + FE_REFBUF] s t ∧ Frame [.regs, .pipes, .mem] s t) ∧
  (∀ (s : State) (r : Req) (q : Fin 8) (v : Word), s.live = true → s.fld (pipeA q) FE_TIDX_SLOT ≤ 2 →
    s.fld (pipeA q) FE_TIDX_INDEX < feEntries (s.fld (pipeA q) FE_TIDX_TABLE) → s.fld (pipeA q) FE_TIDX_TABLE ≠ 0 →
    s.fe q (s.fld (pipeA q) FE_TIDX_SLOT) FE_SCTRL_TBANK ≠ s.fld (pipeA q) FE_TIDX_BANK →
    Completes (.feTableWrite r q v) s fun t =>
      t.tget .fe q (feKey (s.fld (pipeA q) FE_TIDX_SLOT) (s.fld (pipeA q) FE_TIDX_TABLE) (s.fld (pipeA q) FE_TIDX_BANK)
        (s.fld (pipeA q) FE_TIDX_INDEX)) = v &&& feMask (s.fld (pipeA q) FE_TIDX_TABLE) ∧
      t.fld (pipeA q) FE_TIDX_INDEX =
        (s.fld (pipeA q) FE_TIDX_INDEX + 1) % feEntries (s.fld (pipeA q) FE_TIDX_TABLE) ∧
      RegFrame [pipeA q + FE_TIDX] s t ∧ Frame [.regs, .tbl] s t) ∧
  (∀ (s : State) (r : Req) (q : Fin 8) (v : Word), s.live = true → s.fld (pipeA q) FE_TIDX_SLOT ≤ 2 →
    s.fld (pipeA q) FE_TIDX_INDEX < feEntries (s.fld (pipeA q) FE_TIDX_TABLE) → s.fld (pipeA q) FE_TIDX_TABLE ≠ 0 →
    s.fe q (s.fld (pipeA q) FE_TIDX_SLOT) FE_SCTRL_TBANK = s.fld (pipeA q) FE_TIDX_BANK →
    Completes (.feTableWrite r q v) s fun t =>
      t.flag (pipeA q) (FE_SSTAT_TBL_ERR.nth 0x40 (s.fld (pipeA q) FE_TIDX_SLOT)) = true ∧ Frame [.regs] s t) ∧
  (∀ (s : State) (r : Req) (q : Fin 8) (v : Word), s.live = true → (s.pipe q).load = none →
    s.fld (pipeA q) COL_TIDX_SLOT ≤ 2 ∨ s.fld (pipeA q) COL_TIDX_TABLE = 3 →
    s.fld (pipeA q) COL_TIDX_INDEX < colEntries (s.fld (pipeA q) COL_TIDX_TABLE) →
    s.colBusy q (s.fld (pipeA q) COL_TIDX_SLOT) (s.fld (pipeA q) COL_TIDX_TABLE) (s.fld (pipeA q) COL_TIDX_BANK) = false →
    Completes (.colourTableWrite r q v) s fun t =>
      t.tget .colour q (colKey (s.fld (pipeA q) COL_TIDX_SLOT) (s.fld (pipeA q) COL_TIDX_TABLE) (s.fld (pipeA q) COL_TIDX_BANK)
        (s.fld (pipeA q) COL_TIDX_INDEX)) =
        v &&& colMask (s.fld (pipeA q) COL_TIDX_TABLE) (s.fld (pipeA q) COL_TIDX_INDEX) ∧
      t.fld (pipeA q) COL_TIDX_INDEX =
        (s.fld (pipeA q) COL_TIDX_INDEX + 1) % colEntries (s.fld (pipeA q) COL_TIDX_TABLE) ∧
      RegFrame [pipeA q + COL_TIDX] s t ∧ Frame [.regs, .tbl] s t) ∧
  (∀ (s : State) (r : Req) (q : Fin 8) (v : Word), s.live = true → (s.pipe q).load = none → bits v.toNat 19 0 ≠ 0 →
    s.colBusy q (s.fld (pipeA q) COL_TIDX_SLOT) (s.fld (pipeA q) COL_TIDX_TABLE) (s.fld (pipeA q) COL_TIDX_BANK) = false →
    Completes (.colourTableLoad r q v) s fun t =>
      (t.pipe q).load = some ⟨s.fld (pipeA q) COL_TIDX_SLOT, s.fld (pipeA q) COL_TIDX_TABLE, s.fld (pipeA q) COL_TIDX_BANK,
        s.fld (pipeA q) COL_TIDX_INDEX, bits v.toNat 19 0, s.fld (pipeA q) COL_LDADDR_ADDR * 256⟩ ∧
      t.flag (pipeA q) COL_LDCTL_GO = true ∧ RegFrame [pipeA q + COL_LDCTL] s t ∧ Frame [.regs, .pipes] s t) ∧
  (∀ (s : State) (q : Fin 8) (l : ColLoad) (fail : Option Nat), s.live = true → (s.pipe q).load = some l →
    Completes (.colourLoadDone q fail) s fun t =>
      (t.pipe q).load = none ∧ t.flag (pipeA q) COL_LDCTL_GO = false ∧
      (decide (fail.getD l.count < l.count) = true → t.flag (pipeA q) COL_LDCTL_LD_ERR = true) ∧
      BlockFrame (pipeA q :: busBlocks) s t ∧ Frame ([.pipes, .tbl] ++ busParts) s t)

/-- O32. Motion fields open, refine and are written; buffer heads and Harvest sets follow their bodies. At a frame start an
enabled engine closes the last field, counts its unrefined blocks and opens one for the frame with BUSY set, a disabled
one notes the frame's motion alone. The next block in raster order whose rows have passed is refined, and no other block
changes. A written field is marked and tells the codec its frame. The head of an ended ring frame is written at its buffer
and the frame leaves the list. A frame-end packet closes the slot's frame, and a finished Harvest set writes its body and
its head. Each of these forms ends in a next state wherever its clause's conditions on state and operands hold:
mfeFrameStart, mfeBlockRefine, fieldWriteDone, bufferHeadWrite, harvestWriteStart, harvestWriteDone. (R145, R147, R148,
R149, R179, R185, R186) -/
def Obligations.MotionFieldsAndBufferHeads : Prop :=
  (∀ (s : State) (q : Fin 8) (h : Hdr), s.live = true → (s.mfe q).due = some h → s.flag (mfeA q) MFE_CTRL_EN = true →
    Completes (.mfeFrameStart q) s fun t =>
      (t.mfe q).due = none ∧ (t.mfe q).cur.h = h ∧ (t.mfe q).cur.written = false ∧ (t.mfe q).passed = 0 ∧
      (t.mfe q).prev.h = (s.mfe q).cur.h ∧ t.flag (mfeA q) MFE_STATUS_BUSY = true ∧
      t.fld (mfeA q) MFE_CNT_INCOMPLETE =
        min (s.fld (mfeA q) MFE_CNT_INCOMPLETE + ((s.mfe q).cur.blks.filter (fun b => !b.refined)).length) 0xFFFF ∧
      (∀ p : Fin 8, p ≠ q → t.mfe p = s.mfe p) ∧
      RegFrame [mfeA q + MFE_CNT, mfeA q + MFE_GM, mfeA q + MFE_STATUS] s t ∧
      Frame [.regs, .act, .due, .held, .frozen, .mfes, .free] s t) ∧
  (∀ (s : State) (q : Fin 8) (h : Hdr), s.live = true → (s.mfe q).due = some h → s.flag (mfeA q) MFE_CTRL_EN = false →
    Completes (.mfeFrameStart q) s fun t =>
      (t.mfe q).due = none ∧ (t.mfe q).cur.h = h ∧ (t.mfe q).cur.blks = [] ∧ (t.mfe q).prev.h = (s.mfe q).cur.h ∧
      t.flag (mfeA q) MFE_STATUS_BUSY = false ∧ (∀ p : Fin 8, p ≠ q → t.mfe p = s.mfe p) ∧
      RegFrame [mfeA q + MFE_CNT, mfeA q + MFE_GM, mfeA q + MFE_STATUS] s t ∧
      Frame [.regs, .act, .due, .held, .frozen, .mfes, .free] s t) ∧
  (∀ (s : State) (q : Fin 8) (i j : Nat), s.live = true → s.flag (mfeA q) MFE_CTRL_EN = true →
    (s.mfe q).cur.written = false → i < (s.mfe q).cur.bw → j < (s.mfe q).cur.bh →
    (s.mfe q).cur.blks.length = (s.mfe q).cur.bw * (s.mfe q).cur.bh →
    j * (s.mfe q).cur.bw + i = ((s.mfe q).cur.blks.filter (·.refined)).length →
    min (32 * (j + 1)) (s.mfe q).lines ≤ (s.mfe q).passed →
    Completes (.mfeBlockRefine q i j) s fun t =>
      ((t.mfe q).cur.at i j).refined = true ∧ ((t.mfe q).cur.at i j).cost ≤ 65535 ∧
      ((t.mfe q).cur.at i j).v.x.natAbs ≤ 8191 ∧ ((t.mfe q).cur.at i j).v.y.natAbs ≤ 8191 ∧
      ((t.mfe q).cur.blks.eraseIdx (j * (s.mfe q).cur.bw + i)) = ((s.mfe q).cur.blks.eraseIdx (j * (s.mfe q).cur.bw + i)) ∧
      (∀ p : Fin 8, p ≠ q → t.mfe p = s.mfe p) ∧ Frame [.mfes, .free] s t) ∧
  (∀ (s : State) (q : Fin 8), s.live = true → (s.mfe q).prev.written = false →
    Completes (.fieldWriteDone q true) s fun t =>
      (t.mfe q).prev.written = true ∧ (t.mfe q).cur = (s.mfe q).cur ∧
      (UMap.get noField t.codec.fields q).head? = some ⟨(s.mfe q).prev.h.frame, (s.mfe q).prev.g, false⟩ ∧
      t.flag (mfeA q) MFE_STATUS_FIELD_ERR = true ∧
      RegFrame [mfeA q + MFE_STATUS] s t ∧ Frame [.regs, .mfes, .codec] s t) ∧
  (∀ (s : State) (q : Fin 8) (a : Nat), s.live = true → (s.mfe q).prev.written = false →
    a = s.fld (mfeA q) (if (s.mfe q).prev.h.frame % 2 = 0 then MFE_FLD_BASE0_ADDR else MFE_FLD_BASE1_ADDR) * 256 →
    s.answersAt a (s.mfe q).prev.bytes.length →
    Completes (.fieldWriteDone q false) s fun t =>
      (t.mfe q).prev.written = true ∧ (t.mfe q).cur = (s.mfe q).cur ∧
      (UMap.get noField t.codec.fields q).head? = some ⟨(s.mfe q).prev.h.frame, (s.mfe q).prev.g, true⟩ ∧
      t.memBytes a (s.mfe q).prev.bytes.length = (s.mfe q).prev.bytes ∧ MemFrame a (s.mfe q).prev.bytes.length s t ∧
      Frame [.mfes, .codec, .mem] s t) ∧
  (∀ (s : State) (q : Fin 8) (k : Fin 3) (o : Fin 4) (r : OutRun) (rest : List OutRun), s.live = true →
    firstEnded o (s.slot q k).runs = (some r, rest) → r.waiting = [] → r.half = false → s.answersAt r.base 64 →
    Completes (.bufferHeadWrite q k o false) s fun t =>
      t.memBytes r.base 64 = bufHead r.h r.flags r.fvNs (r.firstLine.getD 0) r.lastLine r.dropped r.err false ∧
      (t.slot q k).runs = rest ∧ MemFrame r.base 64 s t ∧ Frame [.pipes, .mem] s t) ∧
  (∀ (s : State) (q : Fin 8) (h : Hdr) (k : Nat), s.live = true → (s.pipe q).inQ = [⟨h, .frameEnd⟩] →
    s.slotFor q h.sid = some k → (s.slot q k).inFrame = true →
    Completes (.harvestWriteStart q) s fun t =>
      (t.slot q k).inFrame = false ∧ (t.slot q k).raw = [] ∧ (t.slot q k).tap = [] ∧ (t.pipe q).inQ = [] ∧
      (t.slot q k).runs.all (·.ended) = true ∧
      (t.slot q k).harvest.isSome = s.colOn q k COL_SCTRL_HV_EN ∧
      (∀ p : Fin 8, p ≠ q → t.pipe p = s.pipe p) ∧ BlockFrame ([pipeA q, fltA (1 + q / 4)] ++ busBlocks) s t ∧
      Frame ([.pipes, .mfes, .heads, .free] ++ busParts) s t) ∧
  (∀ (s : State) (q : Fin 8) (k : Fin 3) (r : HarvestRun), s.live = true → (s.slot q k).harvest = some r →
    r.head.length = 64 → s.answersAt r.base 64 → s.answersAt (r.base + 64) r.body.length →
    Completes (.harvestWriteDone q k false) s fun t =>
      t.memBytes r.base 64 = r.head ∧ t.memBytes (r.base + 64) r.body.length = r.body ∧ (t.slot q k).harvest = none ∧
      MemFrame r.base (64 + r.body.length) s t ∧ Frame [.pipes, .mem] s t)

/-- O33. Heads are enabled, freeze, start frames, begin and end rows and take their lines. EN = 1 starts an idle head, when
Advent lets heads run, with FRAME 0 unless its row period is 0. The freeze covers the head and its tile calibration and
begins the surface reads, whose answers are kept once. A target reached before VT_MIN rows arms an early start; a row end
below VT_NOM only closes the row, and at VT_NOM an unlocked head opens the next frame. A blanking row and a row without a
direct layer begin at once; a line of the awaited frame is held; an expired wait switches the direct layer off and begins
the row. A fetched surface row is no longer wanted. Each of these forms ends in a next state wherever its clause's
conditions on state and operands hold: headEnable, headFreeze, surfaceSelectDone, startTargetReached, headRowEnd,
headRowStart, directLineArrival, directWaitExpiry, surfaceFetchDone. (R122, R190, R195, R196, R205, R206, R207, R212) -/
def Obligations.HeadsStartFreezeAndRunRows : Prop :=
  (∀ (s : State) (r : Req) (h : Fin 4) (v : Word), s.live = true → s.flag (headA h) HEAD_CTRL_EN = false →
    s.headMayRun = true → s.maint = false →
    Completes (.headEnable r h v) s fun t =>
      t.flag (headA h) HEAD_CTRL_EN = true ∧
      (t.inForce (headA h) HEAD_OLP_OL_PERIOD ≠ 0 → t.flag (headA h) HEAD_STATUS_RUNNING = true ∧
        t.fld (headA h) HEAD_FRAME_FRAME = 0 ∧ (t.head h).rows = 0 ∧ (t.head h).fsNs = s.nowNs) ∧
      (∀ k : Fin 4, k ≠ h → t.head k = s.head k) ∧
      Frame ([.act, .due, .held, .frozen, .codec, .fab, .heads, .prds, .tbl] ++ busParts) s t) ∧
  (∀ (s : State) (r : Req) (h : Fin 4) (v : Word), s.live = true → s.flag (headA h) HEAD_CTRL_EN = false →
    s.headMayRun = false →
    Completes (.headEnable r h v) s fun t =>
      t.flag (headA h) HEAD_CTRL_EN = true ∧ t.heads = s.heads ∧
      RegFrame [headA h + HEAD_CTRL, almA + ALM_STATUS, nvtA + NVT_STATUS] s t ∧ Frame [.regs, .due, .held, .alm] s t) ∧
  (∀ (s : State) (h : Fin 4), s.live = true → s.headRuns h = true → (s.head h).selecting = false →
    s.headFreezeDue h = true →
    Completes (.headFreeze h) s fun t =>
      (t.head h).selecting = true ∧ (t.head h).selected = false ∧ headA h ∈ t.frozen ∧ tcmA h ∈ t.frozen ∧
      (∀ g ∈ s.frozen, g ∈ t.frozen) ∧ (∀ k : Fin 4, k ≠ h → t.head k = s.head k) ∧ Frame [.frozen, .heads] s t) ∧
  (∀ (s : State) (h : Fin 4) (failed poisoned : List Nat), s.live = true → (s.head h).selecting = true →
    (s.head h).selected = false →
    Completes (.surfaceSelectDone h failed poisoned) s fun t =>
      t.head h = { s.head h with
        selected := true, next := s.selectAll (s.solstice (headA h)) h (s.head h).fPred failed poisoned,
        kept := s.selectAll s h (s.head h).fPred failed poisoned } ∧
      (∀ k : Fin 4, k ≠ h → t.head k = s.head k) ∧ BlockFrame busBlocks s t ∧ Frame ([.heads] ++ busParts) s t) ∧
  (∀ (s : State) (h : Fin 4), s.live = true → s.headRuns h = true → (s.head h).target.isSome = true →
    (s.head h).early = false → (s.head h).forced = false → (s.head h).rows < s.inForce (headA h) HEAD_VT_VT_MIN →
    Completes (.startTargetReached h) s fun t =>
      t.head h = { s.head h with early := true } ∧ (∀ k : Fin 4, k ≠ h → t.head k = s.head k) ∧ Frame [.heads] s t) ∧
  (∀ (s : State) (h : Fin 4), s.live = true → s.headRuns h = true → (s.head h).rowOpen = true →
    s.inForceFlag (headA h) HEAD_CTRL_LOCK_EN = false → (s.head h).rows < s.inForce (headA h) HEAD_VTNOM_VT_NOM →
    Completes (.headRowEnd h false) s fun t =>
      t.head h = { s.head h with rowOpen := false } ∧ (∀ k : Fin 4, k ≠ h → t.head k = s.head k) ∧ Frame [.heads] s t) ∧
  (∀ (s : State) (h : Fin 4), s.live = true → s.headRuns h = true → (s.head h).rowOpen = true →
    s.inForceFlag (headA h) HEAD_CTRL_LOCK_EN = false → s.inForce (headA h) HEAD_VTNOM_VT_NOM ≤ (s.head h).rows →
    Completes (.headRowEnd h false) s fun t =>
      (t.inForce (headA h) HEAD_OLP_OL_PERIOD ≠ 0 →
        t.fld (headA h) HEAD_FRAME_FRAME = (s.fld (headA h) HEAD_FRAME_FRAME + 1) % 2 ^ 32 ∧ (t.head h).rows = 0 ∧
        (t.head h).fsNs = s.nowNs ∧ t.flag (headA h) HEAD_STATUS_RUNNING = true) ∧
      (∀ k : Fin 4, k ≠ h → t.head k = s.head k) ∧
      Frame ([.act, .due, .held, .frozen, .codec, .fab, .heads, .prds, .tbl] ++ busParts) s t) ∧
  (∀ (s : State) (h : Fin 4), s.live = true → s.headRuns h = true → (s.head h).rowOpen = false →
    (s.head h).waiting = false → s.rasH h ≤ (s.head h).rows →
    Completes (.headRowStart h) s fun t =>
      t.head h = { s.head h with rows := (s.head h).rows + 1, rowOpen := true, rowNs := s.nowNs } ∧
      (∀ k : Fin 4, k ≠ h → t.head k = s.head k) ∧ Frame [.heads] s t) ∧
  (∀ (s : State) (h : Fin 4), s.live = true → s.headRuns h = true → (s.head h).rowOpen = false →
    (s.head h).waiting = false → s.direct h = none →
    Completes (.headRowStart h) s fun t =>
      (t.head h).rows = (s.head h).rows + 1 ∧ (t.head h).rowOpen = true ∧ (t.head h).rowNs = s.nowNs ∧
      (∀ k : Fin 4, k ≠ h → t.head k = s.head k) ∧ Frame [.regs, .heads, .prds, .sent, .alm, .flt] s t) ∧
  (∀ (s : State) (h : Fin 4) (hd : Hdr) (v : List Nat), s.live = true → (s.head h).inQ = [⟨hd, .line v⟩] →
    (s.head h).waiting = false → s.headRuns h = true → (s.head h).lines.length < 16 →
    (s.head h).target.any (fun t => t.frame = hd.frame) = true →
    Completes (.directLineArrival h) s fun t =>
      t.head h = { s.head h with inQ := [], lines := (s.head h).lines ++ [⟨hd, .line v⟩] } ∧
      (∀ k : Fin 4, k ≠ h → t.head k = s.head k) ∧ Frame [.heads] s t) ∧
  (∀ (s : State) (h : Fin 4), s.live = true → s.headRuns h = true → (s.head h).waiting = true → s.waitOver h = true →
    Completes (.directWaitExpiry h) s fun t =>
      (t.head h).rows = (s.head h).rows + 1 ∧ (t.head h).rowOpen = true ∧ (t.head h).waiting = false ∧
      (∀ l, s.direct h = some l → l.i ∈ (t.head h).off) ∧
      (∀ k : Fin 4, k ≠ h → t.head k = s.head k) ∧ Frame [.regs, .heads, .prds, .sent, .alm, .flt] s t) ∧
  (∀ (s : State) (h : Fin 4) (l : Fin 16) (row : Nat) (bad : Bool), s.live = true →
    (s.head h).surf.any (fun x => x.layer = l.val) = true → ⟨l.val, row⟩ ∈ (s.head h).wants →
    Completes (.surfaceFetchDone h l row bad) s fun t =>
      ⟨l.val, row⟩ ∉ (t.head h).wants ∧
      (∃ b : Bool, (bad = true → b = true) ∧ (t.head h).surfRows.map (fun x => (x.layer, x.row, x.poison)) =
        (s.head h).surfRows.map (fun x => (x.layer, x.row, x.poison)) ++ [(l.val, row, b)]) ∧
      (∀ k : Fin 4, k ≠ h → t.head k = s.head k) ∧ BlockFrame busBlocks s t ∧ Frame ([.heads] ++ busParts) s t) ∧
  (∀ (s : State) (h : Fin 4) (l : Fin 16) (row : Nat) (x : SurfSel), s.live = true →
    (s.head h).surf.find? (fun x => x.layer = l.val) = some x → ⟨l.val, row⟩ ∈ (s.head h).wants →
    s.answersAt (x.rowAddr row) (x.desc.width * x.desc.pxBytes) →
    Completes (.surfaceFetchDone h l row false) s fun t =>
      ⟨l.val, row⟩ ∉ (t.head h).wants ∧
      (t.head h).surfRows = (s.head h).surfRows ++
        [⟨l, row, false, x.desc.pixels (s.memBytes (x.rowAddr row) (x.desc.width * x.desc.pxBytes))⟩] ∧
      (∀ k : Fin 4, k ≠ h → t.head k = s.head k) ∧ Frame [.heads] s t)

/-- O34. Filter, placement, curve and tile records are written, loaded and refused. HEAD_FILTDATA and HEAD_PLDATA write the
entry selected unless its bank is in use, which sets TBL_ERR; the index moves on either way. A read of HEAD_FS_NS latches
the seconds. Fetched coefficients are kept. Words 0 to 62 of a tile record are staged and word 63 stores the record, at
once while the head does not run, else into the queue of 16. A curve entry is written unless its bank is in use. GO of
TCM_LDCTL starts a load; a load whose first read fails sets LD_ERR, and a load of one curve word writes it. Each of these
forms ends in a next state wherever its clause's conditions on state and operands hold: headFilterWrite, placementWrite,
headStampRead, emitterFetchDone, tileRecordStore, curveWrite, tcmLoad, tcmLoadDone. (R198, R201, R211, R215, R216, R217) -/
def Obligations.HeadAndCalibrationTables : Prop :=
  (∀ (s : State) (r : Req) (h : Fin 4) (v : Word), s.live = true →
    s.filterBusy h (s.fld (headA h) HEAD_FILTIDX_INDEX / 256) = false →
    Completes (.headFilterWrite r h v) s fun t =>
      t.tget .headFilter h (s.fld (headA h) HEAD_FILTIDX_INDEX) = v &&& 0x3FF ∧
      t.fld (headA h) HEAD_FILTIDX_INDEX = (s.fld (headA h) HEAD_FILTIDX_INDEX + 1) % 1024 ∧
      TblFrame .headFilter h (s.fld (headA h) HEAD_FILTIDX_INDEX) s t ∧ RegFrame [headA h + HEAD_FILTIDX] s t ∧
      Frame [.regs, .tbl] s t) ∧
  (∀ (s : State) (r : Req) (h : Fin 4) (v : Word), s.live = true →
    s.filterBusy h (s.fld (headA h) HEAD_FILTIDX_INDEX / 256) = true →
    Completes (.headFilterWrite r h v) s fun t =>
      t.flag (headA h) HEAD_STATUS_TBL_ERR = true ∧ RegFrame [headA h + HEAD_FILTIDX, headA h + HEAD_STATUS] s t ∧
      Frame [.regs] s t) ∧
  (∀ (s : State) (r : Req) (h : Fin 4) (v : Word), s.live = true →
    s.inForce (headA h) HEAD_CTRL_PL_BANK ≠ s.fld (headA h) HEAD_PLIDX_INDEX / 16384 →
    Completes (.placementWrite r h v) s fun t =>
      t.tget .placement h (s.fld (headA h) HEAD_PLIDX_INDEX) = v ∧
      t.fld (headA h) HEAD_PLIDX_INDEX = (s.fld (headA h) HEAD_PLIDX_INDEX + 1) % 32768 ∧
      TblFrame .placement h (s.fld (headA h) HEAD_PLIDX_INDEX) s t ∧ RegFrame [headA h + HEAD_PLIDX] s t ∧
      Frame [.regs, .tbl] s t) ∧
  (∀ (s : State) (r : Req) (h : Fin 4) (v : Word), s.live = true →
    s.inForce (headA h) HEAD_CTRL_PL_BANK = s.fld (headA h) HEAD_PLIDX_INDEX / 16384 →
    Completes (.placementWrite r h v) s fun t =>
      t.flag (headA h) HEAD_STATUS_TBL_ERR = true ∧ RegFrame [headA h + HEAD_PLIDX, headA h + HEAD_STATUS] s t ∧
      Frame [.regs] s t) ∧
  (∀ (s : State) (r : Req) (h : Fin 4), s.live = true →
    Completes (.headStampRead r h) s fun t =>
      t.answer = s.rd (headA h + HEAD_FS_NS) ∧
      t.fld (headA h) HEAD_FS_SEC_FS_SEC = (s.head h).fsNs / 1000000000 % 2 ^ 32 ∧
      RegFrame [headA h + HEAD_FS_SEC] s t ∧ Frame [.regs, .answer] s t) ∧
  (∀ (s : State) (h : Fin 4) (tile : Option (Fin 4096)) (line : Nat) (bad : Bool), s.live = true →
    (tile.map (·.val), line) ∈ (s.head h).emWants →
    Completes (.emitterFetchDone h tile line bad) s fun t =>
      (tile.map (·.val), line) ∉ (t.head h).emWants ∧
      (∃ b : Bool, (bad = true → b = true) ∧ (t.head h).emRows.map (fun e => (e.tile, e.line, e.bad)) =
        (s.head h).emRows.map (fun e => (e.tile, e.line, e.bad)) ++ [(tile.map (·.val), line, b)]) ∧
      (∀ k : Fin 4, k ≠ h → t.head k = s.head k) ∧ BlockFrame busBlocks s t ∧ Frame ([.heads] ++ busParts) s t) ∧
  (∀ (s : State) (r : Req) (h : Fin 4) (v : Word), s.live = true → s.flag (tcmA h) TCM_IDX_TABLE = false →
    s.fld (tcmA h) TCM_IDX_INDEX % 64 ≠ 63 →
    Completes (.tileRecordStore r h v) s fun t =>
      t.tget .tileStage h (s.fld (tcmA h) TCM_IDX_INDEX % 64) = v ∧
      t.fld (tcmA h) TCM_IDX_INDEX = (s.fld (tcmA h) TCM_IDX_INDEX + 1) % 2 ^ 18 ∧
      TblFrame .tileStage h (s.fld (tcmA h) TCM_IDX_INDEX % 64) s t ∧ RegFrame [tcmA h + TCM_IDX] s t ∧
      Frame [.regs, .tbl] s t) ∧
  (∀ (s : State) (r : Req) (h : Fin 4) (v : Word), s.live = true → s.flag (tcmA h) TCM_IDX_TABLE = false →
    s.fld (tcmA h) TCM_IDX_INDEX % 64 = 63 → s.headRuns h = false →
    Completes (.tileRecordStore r h v) s fun t =>
      (∀ j : Fin 64, t.tget .tile h (s.fld (tcmA h) TCM_IDX_INDEX / 64 * 64 + j) =
        if j.val = 63 then v else s.tget .tileStage h j) ∧
      RegFrame [tcmA h + TCM_IDX] s t ∧ Frame [.regs, .tbl] s t) ∧
  (∀ (s : State) (r : Req) (h : Fin 4) (v : Word), s.live = true → s.flag (tcmA h) TCM_IDX_TABLE = false →
    s.fld (tcmA h) TCM_IDX_INDEX % 64 = 63 → s.headRuns h = true → (s.head h).queue.length < 16 →
    Completes (.tileRecordStore r h v) s fun t =>
      (t.head h).queue.map (·.1) = (s.head h).queue.map (·.1) ++ [s.fld (tcmA h) TCM_IDX_INDEX / 64] ∧
      t.fld (tcmA h) TCM_STATUS_PEND = (s.head h).queue.length + 1 ∧
      RegFrame [tcmA h + TCM_IDX, tcmA h + TCM_STATUS] s t ∧ Frame [.regs, .tbl, .heads] s t) ∧
  (∀ (s : State) (r : Req) (h : Fin 4) (v : Word), s.live = true → s.flag (tcmA h) TCM_IDX_TABLE = true →
    s.fld (tcmA h) TCM_IDX_INDEX < 98304 → s.headRuns h = false →
    Completes (.curveWrite r h v) s fun t =>
      t.tget .curve h (s.fld (tcmA h) TCM_IDX_INDEX) = v &&& 0xFFFF ∧
      t.fld (tcmA h) TCM_IDX_INDEX = (s.fld (tcmA h) TCM_IDX_INDEX + 1) % 98304 ∧
      TblFrame .curve h (s.fld (tcmA h) TCM_IDX_INDEX) s t ∧ RegFrame [tcmA h + TCM_IDX] s t ∧ Frame [.regs, .tbl] s t) ∧
  (∀ (s : State) (r : Req) (h : Fin 4) (v : Word), s.live = true → s.flag (tcmA h) TCM_IDX_TABLE = true →
    s.fld (tcmA h) TCM_IDX_INDEX < 98304 → s.headRuns h = true →
    s.inForce (tcmA h) TCM_CTRL_CRV_BANK = s.fld (tcmA h) TCM_IDX_INDEX / 49152 →
    Completes (.curveWrite r h v) s fun t =>
      t.flag (tcmA h) TCM_STATUS_TBL_ERR = true ∧ RegFrame [tcmA h + TCM_IDX, tcmA h + TCM_STATUS] s t ∧
      Frame [.regs] s t) ∧
  (∀ (s : State) (r : Req) (h : Fin 4) (v : Word), s.live = true → (s.head h).load = none → bits v.toNat 17 0 ≠ 0 →
    Completes (.tcmLoad r h v) s fun t =>
      (t.head h).load = some ⟨s.fld (tcmA h) TCM_LDADDR_ADDR * 256, bits v.toNat 17 0, none, false⟩ ∧
      t.flag (tcmA h) TCM_LDCTL_GO = true ∧ RegFrame [tcmA h + TCM_LDCTL] s t ∧ Frame [.regs, .heads] s t) ∧
  (∀ (s : State) (h : Fin 4) (l : TcmLoad), s.live = true → (s.head h).load = some l → l.come = false → l.left ≠ 0 →
    Completes (.tcmLoadDone h (some 0)) s fun t =>
      (t.head h).load = none ∧ t.flag (tcmA h) TCM_LDCTL_GO = false ∧ t.flag (tcmA h) TCM_LDCTL_LD_ERR = true ∧
      RegFrame [tcmA h + TCM_LDCTL] s t ∧ Frame [.regs, .heads] s t) ∧
  (∀ (s : State) (h : Fin 4) (l : TcmLoad), s.live = true → (s.head h).load = some l → l.come = false → l.left = 1 →
    s.flag (tcmA h) TCM_IDX_TABLE = true → s.fld (tcmA h) TCM_IDX_INDEX < 98304 → s.headRuns h = false →
    s.answersAt l.addr 4 →
    Completes (.tcmLoadDone h none) s fun t =>
      t.tget .curve h (s.fld (tcmA h) TCM_IDX_INDEX) = wd (s.memNat l.addr 4) &&& 0xFFFF ∧ (t.head h).load = none ∧
      t.flag (tcmA h) TCM_LDCTL_GO = false ∧ TblFrame .curve h (s.fld (tcmA h) TCM_IDX_INDEX) s t ∧
      RegFrame [tcmA h + TCM_LDCTL, tcmA h + TCM_IDX] s t ∧ Frame [.regs, .heads, .tbl] s t)

/-- O35. Parade trunks send segments, beacons and markers, poll tiles, run a census and judge what comes in. A segment, a
beacon, a brightness packet or a poll leaves, where the trunk's quad drives its balls, as the scrambled blocks of its
packet on the trunk's lanes and is counted, in a ring on both trunks; a lane marker leaves on every lane. A block that
comes in is descrambled: START opens a packet, data extends it, a bad sync header drops it, TERMINATE completes it: with a
bad CRC it is counted, and a ring's own BEACON sets LOOP_OK. A lost lock clears RX_LOCK and counts in RELOCK; in a ring
RING_BROKEN is set and recorded (cause 0x21). A matching reply fills the reply registers and ends the poll; no reply ends
it with POLL_TIMEOUT. A census is outstanding until its result or its timeout; alignment on READY lanes sets RX_LOCK. Each
of these forms ends in a next state wherever its clause's conditions on state and operands hold: paradeSegmentSend,
beaconSend, laneMarkerSend, prdPacketReceive, ringBreak, brightnessSend, statusPollSend, statusReplyReceive,
statusPollTimeout, censusStart, censusResultReceive, censusTimeout, paradeTrunkAlign. (R221, R223, R225, R227, R229, R230,
R231, R232) -/
def Obligations.ParadeTrunksSendAndReceive : Prop :=
  (∀ (s : State) (n : Fin 8) (p : PrdPkt) (rest : List PrdPkt), s.live = true → (s.prd n).txQ = p :: rest →
    rest.all (·.isSegment) = true → p.c0 = none → (s.head (n % 4)).rotSend = [] → (s.head (n % 4)).ended = true →
    Completes (.paradeSegmentSend n) s fun t =>
      (t.prd n).txQ = rest ∧ (t.prd n).tx.blocks = (s.prd n).tx.blocks + (packetBlocks p.bytes).length ∧
      t.sent = s.lit (s.prdQuad n) 1 ⟨.trunk n, 0, ((s.prd n).tx.send (s.prdCfg n) (packetBlocks p.bytes)).2⟩ ++ s.sent ∧
      t.fld (prdA n) PRD_TXCNT_PACKETS = min (s.fld (prdA n) PRD_TXCNT_PACKETS + 1) 0xFFFFFFFF ∧
      (∀ k : Fin 8, k ≠ n → t.prd k = s.prd k) ∧ RegFrame [prdA n + PRD_TXCNT] s t ∧ Frame [.regs, .prds, .sent] s t) ∧
  (∀ (s : State) (n : Fin 8), s.live = true → s.flag (prdA n) PRD_STATUS_TX_ON = true → s.ring (n % 4) = false →
    Completes (.beaconSend n) s fun t =>
      t.sent = s.lit (s.prdQuad n) 1 ⟨.trunk n, 0, ((s.prd n).tx.send (s.prdCfg n) (packetBlocks (s.startPkt n 4 s.time32))).2⟩ ++ s.sent ∧
      t.fld (prdA n) PRD_TXCNT_PACKETS = min (s.fld (prdA n) PRD_TXCNT_PACKETS + 1) 0xFFFFFFFF ∧
      (t.prd n).txQ = (s.prd n).txQ ∧ RegFrame [prdA n + PRD_TXCNT] s t ∧ Frame [.regs, .prds, .sent] s t) ∧
  (∀ (s : State) (n : Fin 4), s.live = true → s.flag (prdA n) PRD_STATUS_TX_ON = true →
    s.flag (prdA (n + 4)) PRD_STATUS_TX_ON = true → s.ring n = true → s.onBalls (s.prdQuad n) 1 = true →
    s.onBalls (s.prdQuad (n + 4)) 1 = true →
    Completes (.beaconSend (Fin.ofNat 8 n.val)) s fun t =>
      t.sent.length = s.sent.length + 2 ∧
      (∀ k ∈ [n.val, n.val + 4], t.fld (prdA k) PRD_TXCNT_PACKETS = min (s.fld (prdA k) PRD_TXCNT_PACKETS + 1) 0xFFFFFFFF) ∧
      RegFrame [prdA n + PRD_TXCNT, prdA (n + 4) + PRD_TXCNT] s t ∧ Frame [.regs, .prds, .sent] s t) ∧
  (∀ (s : State) (n : Fin 8), s.live = true → s.flag (prdA n) PRD_STATUS_TX_ON = true →
    Completes (.laneMarkerSend n) s fun t =>
      t.prd n = { s.prd n with tx := ((s.prd n).tx.fill (s.prdCfg n)).1 } ∧
      t.sent = s.lit (s.prdQuad n) 1 ⟨.trunk n, 1, ((s.prd n).tx.fill (s.prdCfg n)).2⟩ ++ s.sent ∧
      (∀ k : Fin 8, k ≠ n → t.prd k = s.prd k) ∧ Frame [.prds, .sent] s t) ∧
  (∀ (s : State) (n : Fin 8) (k : LaneBlk) (b : List Byte), s.live = true → s.flag (prdA n) PRD_STATUS_RX_LOCK = true →
    b = toBytes 8 (ofBits (scramble true (((s.prd n).rx.scram[k.lane.val]?).getD 0) (bitsOf k.data.toNat)).1) →
    k.sync = 2 → leNat (b.take 1) = 0x78 →
    Completes (.prdPacketReceive n [k]) s fun t =>
      (t.prd n).rx.packet = some (b.drop 1) ∧ t.prd n = { s.prd n with rx := (t.prd n).rx } ∧
      (∀ j : Fin 8, j ≠ n → t.prd j = s.prd j) ∧ Frame [.prds] s t) ∧
  (∀ (s : State) (n : Fin 8) (k : LaneBlk) (b : List Byte), s.live = true → s.flag (prdA n) PRD_STATUS_RX_LOCK = true →
    b = toBytes 8 (ofBits (scramble true (((s.prd n).rx.scram[k.lane.val]?).getD 0) (bitsOf k.data.toNat)).1) →
    k.sync ≠ 2 →
    Completes (.prdPacketReceive n [k]) s fun t =>
      (t.prd n).rx.packet = (if k.sync = 1 then (s.prd n).rx.packet.map (· ++ b) else none) ∧
      t.prd n = { s.prd n with rx := (t.prd n).rx } ∧ (∀ j : Fin 8, j ≠ n → t.prd j = s.prd j) ∧ Frame [.prds] s t) ∧
  (∀ (s : State) (n : Fin 8) (k : LaneBlk) (b p : List Byte) (j : Fin 8), s.live = true →
    s.flag (prdA n) PRD_STATUS_RX_LOCK = true →
    b = toBytes 8 (ofBits (scramble true (((s.prd n).rx.scram[k.lane.val]?).getD 0) (bitsOf k.data.toNat)).1) →
    k.sync = 2 → leNat (b.take 1) = 0xE0 + j → (s.prd n).rx.packet = some p → crcGood (p ++ (b.drop 1).take j) = false →
    Completes (.prdPacketReceive n [k]) s fun t =>
      (t.prd n).rx.packet = none ∧ t.fld (prdA n) PRD_RXCNT_CRC_ERR = min (s.fld (prdA n) PRD_RXCNT_CRC_ERR + 1) 0xFFFF ∧
      RegFrame [prdA n + PRD_RXCNT] s t ∧ Frame [.regs, .prds] s t) ∧
  (∀ (s : State) (n : Fin 8) (k : LaneBlk) (b p q : List Byte) (j : Fin 8), s.live = true →
    s.flag (prdA n) PRD_STATUS_RX_LOCK = true →
    b = toBytes 8 (ofBits (scramble true (((s.prd n).rx.scram[k.lane.val]?).getD 0) (bitsOf k.data.toNat)).1) →
    k.sync = 2 → leNat (b.take 1) = 0xE0 + j → (s.prd n).rx.packet = some p → q = p ++ (b.drop 1).take j →
    crcGood q = true → q.length = 20 → leNat ((q.drop 1).take 1) % 16 = 1 → leNat (q.take 1) = 4 → s.ring (n % 4) = true →
    Completes (.prdPacketReceive n [k]) s fun t =>
      (t.prd n).rx.packet = none ∧ (t.prd n).beaconTick = s.tick ∧ t.flag (prdA n) PRD_STATUS_LOOP_OK = true ∧
      RegFrame [prdA n + PRD_STATUS] s t ∧ Frame [.regs, .prds] s t) ∧
  (∀ (s : State) (n : Fin 8) (hs : List (Fin 4)), s.live = true → s.ring (n % 4) = false → blockLost hs = true →
    Completes (.ringBreak n hs) s fun t =>
      t.flag (prdA n) PRD_STATUS_RX_LOCK = false ∧ t.flag (prdA n) PRD_STATUS_LOOP_OK = false ∧
      t.fld (prdA n) PRD_RXCNT_RELOCK = min (s.fld (prdA n) PRD_RXCNT_RELOCK + 1) 0xFFFF ∧
      (t.prd n).rx.packet = none ∧ RegFrame [prdA n + PRD_STATUS, prdA n + PRD_RXCNT] s t ∧ Frame [.regs, .prds] s t) ∧
  (∀ (s : State) (n : Fin 8) (hs : List (Fin 4)), s.live = true → s.ring (n % 4) = true → blockLost hs = false →
    (s.prd n).beaconTick + usTicks 250 ≤ s.tick → s.flag (prdA n) PRD_CENSUS_AUTO = false →
    Completes (.ringBreak n hs) s fun t =>
      t.flag (prdA n) PRD_STATUS_RING_BROKEN = true ∧ t.flag (prdA n) PRD_STATUS_LOOP_OK = false ∧
      Logged 0 0x21 1 (srcOf 0 0x22 n) 0 (info8 n) s t ∧ RegFrame ((prdA n + PRD_STATUS) :: recordRegs 0) s t ∧
      Frame [.regs, .alm, .flt] s t) ∧
  (∀ (s : State) (r : Req) (n : Fin 8) (v : Word), s.live = true → s.flag (prdA n) PRD_STATUS_TX_ON = true →
    s.ring (n % 4) = false →
    Completes (.brightnessSend r n v) s fun t =>
      t.sent = s.lit (s.prdQuad n) 1 ⟨.trunk n, 0, ((s.prd n).tx.send (s.prdCfg n) (packetBlocks (shortPkt 0x10 (bits v.toNat 15 0)
        (toBytes 2 (s.fld (prdA n) PRD_TLEVEL_LEVEL) ++ toBytes 10 0)))).2⟩ ++ s.sent ∧
      t.fld (prdA n) PRD_TCTL_ADDR = bits v.toNat 15 0 ∧ t.flag (prdA n) PRD_TCTL_GO = s.flag (prdA n) PRD_TCTL_GO ∧
      RegFrame [prdA n + PRD_TCTL, prdA n + PRD_TXCNT] s t ∧ Frame [.regs, .prds, .sent] s t) ∧
  (∀ (s : State) (r : Req) (n : Fin 8) (v : Word), s.live = true → s.flag (prdA n) PRD_STATUS_TX_ON = true →
    (s.prd n).polling = false → s.ring (n % 4) = false →
    Completes (.statusPollSend r n v) s fun t =>
      (t.prd n).polling = true ∧ (t.prd n).pollSeq = ((s.prd n).pollSeq + 1) % 2 ^ 16 ∧ (t.prd n).pollTick = s.tick ∧
      (t.prd n).pollAddr = bits v.toNat 15 0 ∧ t.flag (prdA n) PRD_TCTL_GO = true ∧
      t.sent = s.lit (s.prdQuad n) 1 ⟨.trunk n, 0, ((s.prd n).tx.send (s.prdCfg n) (packetBlocks (shortPkt 0x12 (bits v.toNat 15 0)
        (toBytes 2 (((s.prd n).pollSeq + 1) % 2 ^ 16) ++ toBytes 10 0)))).2⟩ ++ s.sent ∧
      RegFrame [prdA n + PRD_TCTL, prdA n + PRD_TXCNT] s t ∧ Frame [.regs, .prds, .sent] s t) ∧
  (∀ (s : State) (r : Req) (n : Fin 8) (v : Word), s.live = true → s.ring (n % 4) = true →
    s.flag (prdA (n % 4)) PRD_STATUS_TX_ON = true → s.flag (prdA (n % 4 + 4)) PRD_STATUS_TX_ON = true →
    (s.prd n).polling = false → s.onBalls (s.prdQuad (n % 4)) 1 = true → s.onBalls (s.prdQuad (n % 4 + 4)) 1 = true →
    Completes (.brightnessSend r n v) s fun t => t.sent.length = s.sent.length + 2 ∧ Frame [.regs, .prds, .sent] s t) ∧
  (∀ (s : State) (r : Req) (n : Fin 8) (v : Word), s.live = true → s.ring (n % 4) = true →
    s.flag (prdA (n % 4)) PRD_STATUS_TX_ON = true → s.flag (prdA (n % 4 + 4)) PRD_STATUS_TX_ON = true →
    (s.prd n).polling = false → s.onBalls (s.prdQuad (n % 4)) 1 = true → s.onBalls (s.prdQuad (n % 4 + 4)) 1 = true →
    Completes (.statusPollSend r n v) s fun t =>
      (t.prd n).polling = true ∧ t.sent.length = s.sent.length + 2 ∧ Frame [.regs, .prds, .sent] s t) ∧
  (∀ (s : State) (n : Fin 8) (p : List Byte), s.live = true → s.flag (prdA n) PRD_STATUS_RX_LOCK = true →
    crcGood p = true → leNat ((p.drop 1).take 1) % 16 = 1 → leNat (p.take 1) = 0x13 → p.length = 24 → (s.prd n).polling = true →
    leNat ((p.drop 4).take 2) = (s.prd n).pollSeq → leNat ((p.drop 2).take 2) = (s.prd n).pollAddr →
    Completes (.statusReplyReceive n p) s fun t =>
      t.fld (prdA n) PRD_REPLY0_STATUS = leNat ((p.drop 6).take 2) ∧
      t.fld (prdA n) PRD_REPLY1_ID_LO = leNat ((p.drop 8).take 4) ∧
      t.fld (prdA n) PRD_REPLY2_ID_HI = leNat ((p.drop 12).take 4) ∧
      t.fld (prdA n) PRD_REPLY0_CRC_ERRS = leNat ((p.drop 16).take 2) ∧
      t.flag (prdA n) PRD_STATUS_POLL_DONE = true ∧ t.flag (prdA n) PRD_TCTL_GO = false ∧
      t.prd n = { s.prd n with polling := false } ∧
      RegFrame [prdA n + PRD_REPLY0, prdA n + PRD_REPLY1, prdA n + PRD_REPLY2, prdA n + PRD_STATUS, prdA n + PRD_TCTL] s t ∧
      Frame [.regs, .prds] s t) ∧
  (∀ (s : State) (n : Fin 8), s.live = true → (s.prd n).polling = true →
    (s.prd n).pollTick + usTicks 2000 ≤ s.tick →
    Completes (.statusPollTimeout n) s fun t =>
      t.flag (prdA n) PRD_STATUS_POLL_TIMEOUT = true ∧ t.flag (prdA n) PRD_TCTL_GO = false ∧
      t.prd n = { s.prd n with polling := false } ∧ RegFrame [prdA n + PRD_STATUS, prdA n + PRD_TCTL] s t ∧
      Frame [.regs, .prds] s t) ∧
  (∀ (s : State) (r : Req) (n : Fin 8) (v : Word), s.live = true → s.flag (prdA n) PRD_STATUS_TX_ON = true →
    s.ring (n % 4) = false → s.flag (prdA n) PRD_STATUS_CENSUS_BUSY = false →
    Completes (.censusStart r n v) s fun t =>
      t.flag (prdA n) PRD_STATUS_CENSUS_BUSY = true ∧ t.flag (prdA n) PRD_CENSUS_START = true ∧
      (t.prd n).censusSeq = ((s.prd n).censusSeq + 1) % 2 ^ 16 ∧ (t.prd n).censusTick = s.tick ∧ (t.prd n).result = none ∧
      (s.onBalls (s.prdQuad n) 1 = true → t.sent.length = s.sent.length + 1) ∧ (s.onBalls (s.prdQuad n) 1 = false → t.sent = s.sent) ∧
      RegFrame [prdA n + PRD_CENSUS, prdA n + PRD_STATUS, prdA n + PRD_TXCNT, almA + ALM_STATUS, nvtA + NVT_STATUS] s t ∧
      Frame [.regs, .prds, .sent, .alm] s t) ∧
  (∀ (s : State) (n : Fin 8) (p : List Byte), s.live = true → s.flag (prdA n) PRD_STATUS_RX_LOCK = true →
    crcGood p = true → leNat ((p.drop 1).take 1) % 16 = 1 → leNat (p.take 1) = 0x11 →
    p.length = 20 + 16 * leNat ((p.drop 6).take 2) → s.ring (n % 4) = false →
    s.answersAt (s.fld (prdA n) PRD_CENSUS_BASE_ADDR * 256) p.length →
    s.flag (prdA n) PRD_STATUS_CENSUS_BUSY = true → leNat ((p.drop 4).take 2) = (s.prd n).censusSeq →
    Completes (.censusResultReceive n p) s fun t =>
      t.flag (prdA n) PRD_STATUS_CENSUS_BUSY = false ∧ t.flag (prdA n) PRD_STATUS_CENSUS_DONE = true ∧
      t.flag (prdA n) PRD_CENSUS_START = false ∧ (t.prd n).result = some (censusEntries p) ∧ (t.prd n).judged = true ∧
      t.memBytes (s.fld (prdA n) PRD_CENSUS_BASE_ADDR * 256) p.length = p ∧
      MemFrame (s.fld (prdA n) PRD_CENSUS_BASE_ADDR * 256) p.length s t ∧
      BlockFrame [prdA n, fltA 0, almA, nvtA] s t ∧ Frame [.regs, .prds, .mem, .alm, .flt] s t) ∧
  (∀ (s : State) (n : Fin 8), s.live = true → s.flag (prdA n) PRD_STATUS_CENSUS_BUSY = true → (s.prd n).result = none →
    s.ring (n % 4) = false → (s.prd n).censusTick + usTicks (1000 * s.fld (prdA n) PRD_CENSUS_TIMEOUT_MS) ≤ s.tick →
    Completes (.censusTimeout n) s fun t =>
      t.flag (prdA n) PRD_STATUS_CENSUS_BUSY = false ∧ t.flag (prdA n) PRD_STATUS_CENSUS_TIMEOUT = true ∧
      t.flag (prdA n) PRD_CENSUS_START = false ∧ RegFrame [prdA n + PRD_STATUS, prdA n + PRD_CENSUS] s t ∧
      Frame [.regs] s t) ∧
  (∀ (s : State) (n : Fin 8) (hs : List (List (Fin 4))) (ms : List LaneMarker), s.live = true →
    s.flag (prdA n) PRD_STATUS_TX_ON = true → aligned ms = true → lanesLocked ms hs = true →
    s.trunkReady n = true → s.flag (prdA n) PRD_STATUS_RX_LOCK = false → s.flag (prdA n) PRD_CENSUS_AUTO = false →
    Completes (.paradeTrunkAlign n hs ms) s fun t =>
      t.flag (prdA n) PRD_STATUS_RX_LOCK = true ∧ (t.prd n).rx.packet = none ∧ (t.prd n).beaconTick = s.tick ∧
      RegFrame [prdA n + PRD_STATUS] s t ∧ Frame [.regs, .prds] s t)

/-- O36. Codec contexts obey START, STOP, UPDATE, IDR and RESYNC, and take or skip the frames of their ring. START of a
stopped context without a picture in progress reads its bytes, clears its status block (of a decode context the part that
the device may write) and sets its RUN bit, or, where a check fails, leaves it stopped with the code in VCC_CTXRES. A
command while another waits is lost, with CMD_LOST; one during a picture waits, with BUSY. STOP of a context with taken
frames, or decoded pictures not output, only marks it; with nothing left an encode context writes an end of sequence and
both kinds stop. UPDATE reads bytes 41 and 44 to 127; IDR closes the open group; RESYNC discards up to WR_PTR. Frame E is
taken when every head shows it, with its motion field where one is named and good; a WRITE_ERR skips it. A core that is
not retired leaves FAULT; VDC_CLR clears the error held. (Commands at once without a picture in progress: the model's
reading, log entry 60.). Each of these forms ends in a next state wherever its clause's conditions on state and operands
hold: ctxStart, ctxStop, ctxUpdate, ctxIdr, ctxResync, sourcePoll, coreResetDone, vdcClear. (R240, R241, R242, R243, R244,
R250, R263, R266, R275, R277) -/
def Obligations.CodecContextsTakeCommandsAndFrames : Prop :=
  (∀ (s : State) (r : Req) (c : Fin 64) (p : List Byte), s.live = true → s.codec.cmd = none → (s.ctx c).run = false →
    (s.ctx c).job = none → s.answersAt (s.ctxAddr c) 512 → s.memBytes (s.ctxAddr c) 256 = p →
    startCode (s.ctxFw p) false p = 0 → at' p 0 1 ≠ 0x80 →
    Completes (.ctxStart r c) s fun t =>
      t.ctx c = { run := true, dec := false, p := p } ∧
      t.memBytes (s.ctxAddr c + 256) 256 = List.replicate 256 0 ∧ MemFrame (s.ctxAddr c + 256) 256 s t ∧
      (t.fld (vccA 0) (lohi VCC_RUN_LO_RUN VCC_RUN_HI_RUN c)).testBit (c % 32) = true ∧
      (∀ k : Fin 64, k ≠ c → t.ctx k = s.ctx k) ∧
      RegFrame [vccA 0 + VCC_CTXCMD, vccA 0 + VCC_RUN_LO, vccA 0 + VCC_RUN_HI, almA + ALM_STATUS, nvtA + NVT_STATUS] s t ∧
      Frame [.regs, .mem, .codec, .alm] s t) ∧
  (∀ (s : State) (r : Req) (c : Fin 64) (p : List Byte), s.live = true → s.codec.cmd = none → (s.ctx c).run = false →
    (s.ctx c).job = none → s.answersAt (s.ctxAddr c) 512 → s.memBytes (s.ctxAddr c) 256 = p →
    startCode (s.ctxFw p) false p = 0 → at' p 0 1 = 0x80 →
    Completes (.ctxStart r c) s fun t =>
      t.ctx c = { run := true, dec := true, p := p } ∧
      t.memBytes (s.ctxAddr c + 264) 248 = List.replicate 248 0 ∧ MemFrame (s.ctxAddr c + 264) 248 s t ∧
      (t.fld (vccA 0) (lohi VCC_RUN_LO_RUN VCC_RUN_HI_RUN c)).testBit (c % 32) = true ∧
      (∀ k : Fin 64, k ≠ c → t.ctx k = s.ctx k) ∧
      RegFrame [vccA 0 + VCC_CTXCMD, vccA 0 + VCC_RUN_LO, vccA 0 + VCC_RUN_HI, almA + ALM_STATUS, nvtA + NVT_STATUS] s t ∧
      Frame [.regs, .mem, .codec, .alm] s t) ∧
  (∀ (s : State) (r : Req) (c : Fin 64) (p : List Byte), s.live = true → s.codec.cmd = none → (s.ctx c).stopping = false →
    (s.ctx c).job = none → s.answersAt (s.ctxAddr c) 256 → s.memBytes (s.ctxAddr c) 256 = p →
    startCode (s.ctxFw p) (s.ctx c).run p ≠ 0 →
    Completes (.ctxStart r c) s fun t =>
      t.fld (vccA 0) VCC_CTXRES_CODE = startCode (s.ctxFw p) (s.ctx c).run p ∧
      t.fld (vccA 0) VCC_CTXRES_CTX = c ∧ t.codec = s.codec ∧
      RegFrame [vccA 0 + VCC_CTXCMD, vccA 0 + VCC_CTXRES, almA + ALM_STATUS, nvtA + NVT_STATUS] s t ∧ Frame [.regs, .alm] s t) ∧
  (∀ (s : State) (r : Req) (c : Fin 64), s.live = true → s.codec.cmd.isSome = true →
    Completes (.ctxStart r c) s fun t =>
      t.flag (vccA 0) VCC_CTXCMD_CMD_LOST = true ∧ RegFrame [vccA 0 + VCC_CTXCMD] s t ∧ Frame [.regs] s t) ∧
  (∀ (s : State) (r : Req) (c : Fin 64), s.live = true → s.codec.cmd = none → (s.ctx c).job.isSome = true →
    Completes (.ctxStop r c) s fun t =>
      t.codec = { s.codec with cmd := some (2, c.val) } ∧ t.flag (vccA 0) VCC_CTXCMD_BUSY = true ∧
      RegFrame [vccA 0 + VCC_CTXCMD, almA + ALM_STATUS, nvtA + NVT_STATUS] s t ∧ Frame [.regs, .codec, .alm] s t) ∧
  (∀ (s : State) (r : Req) (c : Fin 64), s.live = true → s.codec.cmd = none → (s.ctx c).job = none → (s.ctx c).run = true →
    (s.ctx c).dec = false → (s.ctx c).ready ≠ [] →
    Completes (.ctxStop r c) s fun t =>
      t.ctx c = { (s.ctx c).closeGroup with stopping := true } ∧ (∀ k : Fin 64, k ≠ c → t.ctx k = s.ctx k) ∧
      RegFrame [vccA 0 + VCC_CTXCMD, almA + ALM_STATUS, nvtA + NVT_STATUS] s t ∧ Frame [.regs, .codec, .alm] s t) ∧
  (∀ (s : State) (r : Req) (c : Fin 64), s.live = true → s.codec.cmd = none → (s.ctx c).job = none → (s.ctx c).run = true →
    (s.ctx c).dec = true → (s.ctx c).dpb.any (·.waiting) = true →
    Completes (.ctxStop r c) s fun t =>
      t.ctx c = { (s.ctx c).flush with stopping := true } ∧ (∀ k : Fin 64, k ≠ c → t.ctx k = s.ctx k) ∧
      RegFrame [vccA 0 + VCC_CTXCMD, almA + ALM_STATUS, nvtA + NVT_STATUS] s t ∧ Frame [.regs, .codec, .alm] s t) ∧
  (∀ (s : State) (r : Req) (c : Fin 64), s.live = true → s.codec.cmd = none → (s.ctx c).job = none → (s.ctx c).run = true →
    (s.ctx c).dec = true → (s.ctx c).ready = [] → (s.ctx c).outQ = [] → (s.ctx c).dpb.any (·.waiting) = false →
    Completes (.ctxStop r c) s fun t =>
      t.ctx c = {} ∧ (t.fld (vccA 0) (lohi VCC_RUN_LO_RUN VCC_RUN_HI_RUN c)).testBit (c % 32) = false ∧
      (∀ k : Fin 64, k ≠ c → t.ctx k = s.ctx k) ∧
      RegFrame [vccA 0 + VCC_CTXCMD, vccA 0 + VCC_RUN_LO, vccA 0 + VCC_RUN_HI, almA + ALM_STATUS, nvtA + NVT_STATUS] s t ∧
      Frame [.regs, .codec, .alm] s t) ∧
  (∀ (s : State) (r : Req) (c : Fin 64) (base size : Nat), s.live = true → s.codec.cmd = none → (s.ctx c).job = none →
    (s.ctx c).run = true → (s.ctx c).dec = false → (s.ctx c).ready = [] → (s.ctx c).group = [] → (s.ctx c).outQ = [] →
    at' (s.ctx c).p 128 8 = base → at' (s.ctx c).p 136 4 = size → (s.ctx c).wr % size + 6 ≤ size →
    s.answersAt (base + (s.ctx c).wr % size) 6 → s.answersAt (s.ctxAddr c + 256) 8 →
    base + size ≤ s.ctxAddr c + 256 →
    Completes (.ctxStop r c) s fun t =>
      t.ctx c = {} ∧ t.memBytes (base + (s.ctx c).wr % size) 6 = [0, 0, 0, 1, 0x48, 0x01] ∧
      t.memNat (s.ctxAddr c + 256) 8 = ((s.ctx c).wr + 6) % 2 ^ 64 ∧
      (t.fld (vccA 0) (lohi VCC_RUN_LO_RUN VCC_RUN_HI_RUN c)).testBit (c % 32) = false ∧
      MemFrame2 (base + (s.ctx c).wr % size) 6 (s.ctxAddr c + 256) 8 s t ∧
      (∀ k : Fin 64, k ≠ c → t.ctx k = s.ctx k) ∧
      RegFrame [vccA 0 + VCC_CTXCMD, vccA 0 + VCC_RUN_LO, vccA 0 + VCC_RUN_HI, almA + ALM_STATUS, nvtA + NVT_STATUS] s t ∧
      Frame [.regs, .mem, .codec, .alm] s t) ∧
  (∀ (s : State) (r : Req) (c : Fin 64), s.live = true → s.codec.cmd = none → (s.ctx c).job = none → (s.ctx c).run = true →
    (s.ctx c).stopping = false → s.answersAt (s.ctxAddr c) 256 →
    Completes (.ctxUpdate r c) s fun t =>
      t.ctx c = { s.ctx c with p := updated (s.ctx c).p (s.memBytes (s.ctxAddr c) 256) } ∧
      (∀ k : Fin 64, k ≠ c → t.ctx k = s.ctx k) ∧
      RegFrame [vccA 0 + VCC_CTXCMD, almA + ALM_STATUS, nvtA + NVT_STATUS] s t ∧ Frame [.regs, .codec, .alm] s t) ∧
  (∀ (s : State) (r : Req) (c : Fin 64), s.live = true → s.codec.cmd = none → (s.ctx c).job = none → (s.ctx c).run = true →
    (s.ctx c).stopping = false → (s.ctx c).dec = false →
    Completes (.ctxIdr r c) s fun t =>
      t.ctx c = { (s.ctx c).closeGroup with needIdr := true } ∧ (∀ k : Fin 64, k ≠ c → t.ctx k = s.ctx k) ∧
      RegFrame [vccA 0 + VCC_CTXCMD, almA + ALM_STATUS, nvtA + NVT_STATUS] s t ∧ Frame [.regs, .codec, .alm] s t) ∧
  (∀ (s : State) (r : Req) (c : Fin 64), s.live = true → s.codec.cmd = none → (s.ctx c).job = none → (s.ctx c).run = true →
    (s.ctx c).stopping = false → (s.ctx c).dec = true → s.answersAt (s.ctxAddr c + 256) 16 →
    Completes (.ctxResync r c) s fun t =>
      t.ctx c = { s.ctx c with pos := s.ctxStat c 256 8, rd := s.ctxStat c 256 8, lastWr := s.ctxStat c 256 8, waitIrap := true,
                               dpb := [], prevPic := none, aus := [], afterEos := true } ∧
      t.ctxStat c 264 8 = s.ctxStat c 256 8 ∧ MemFrame (s.ctxAddr c + 264) 8 s t ∧ (∀ k : Fin 64, k ≠ c → t.ctx k = s.ctx k) ∧
      RegFrame [vccA 0 + VCC_CTXCMD, almA + ALM_STATUS, nvtA + NVT_STATUS] s t ∧ Frame [.regs, .mem, .codec, .alm] s t) ∧
  (∀ (s : State) (c : Fin 64) (p : List Byte) (e a : Nat) (hs : List (List Byte)), s.live = true → (s.ctx c).run = true →
    (s.ctx c).dec = false → (s.ctx c).stopping = false → (s.ctx c).p = p → (s.ctx c).expect = some e → srcBuf p e = a →
    (headOfs p).map (fun o => s.memBytes (a + o) 64) = hs → hs ≠ [] → hs.all (fun b => headFrameOf b = e) = true →
    hs.any headErrOf = false → s.isShed 0 c = false → s.answersAt a 128 →
    mfesOf p = [] → s.answersAt (s.ctxAddr c + 292) 4 →
    Completes (.sourcePoll c false false false) s fun t =>
      t.ctx c = (s.ctx c).take (takenOf p a e (s.memBytes a 64) hs) ∧ t.ctxStat c 292 4 = e % 2 ^ 32 ∧
      MemFrame (s.ctxAddr c + 292) 4 s t ∧ (∀ k : Fin 64, k ≠ c → t.ctx k = s.ctx k) ∧ Frame [.codec, .mem] s t) ∧
  (∀ (s : State) (c : Fin 64) (p : List Byte) (e a : Nat) (hs : List (List Byte)) (m f : Nat) (g : Vec), 
    s.live = true → (s.ctx c).run = true → (s.ctx c).dec = false → (s.ctx c).stopping = false → (s.ctx c).p = p → (s.ctx c).expect = some e → srcBuf p e = a →
    (headOfs p).map (fun o => s.memBytes (a + o) 64) = hs → hs ≠ [] → hs.all (fun b => headFrameOf b = e) = true →
    hs.any headErrOf = false → s.isShed 0 c = false → s.answersAt a 128 →
    mfesOf p = [m] → s.fld (mfeA m) (if e % 2 = 0 then MFE_FLD_BASE0_ADDR else MFE_FLD_BASE1_ADDR) * 256 = f →
    s.answersAt f (fieldSize p) → headFrameOf (s.memBytes f (fieldSize p)) = e → s.fieldEvent m e = some ⟨e, g, true⟩ →
    Completes (.sourcePoll c false false false) s fun t =>
      t.ctx c = (s.ctx c).take { takenOf p a e (s.memBytes a 64) hs with
        fields := [⟨g, s.memBytes f (fieldSize p)⟩], noMfe := false } ∧
      (∀ k : Fin 64, k ≠ c → t.ctx k = s.ctx k) ∧ BlockFrame busBlocks s t ∧ Frame ([.codec] ++ busParts) s t) ∧
  (∀ (s : State) (c : Fin 64) (p : List Byte) (e a : Nat) (hs : List (List Byte)), s.live = true → (s.ctx c).run = true →
    (s.ctx c).dec = false → (s.ctx c).stopping = false → (s.ctx c).p = p → (s.ctx c).expect = some e → srcBuf p e = a →
    (headOfs p).map (fun o => s.memBytes (a + o) 64) = hs → hs ≠ [] → hs.all (fun b => headFrameOf b = e) = true →
    hs.any headErrOf = true → s.answersAt a 128 →
    s.answersAt (s.ctxAddr c + 276) 4 →
    Completes (.sourcePoll c false false false) s fun t =>
      (t.ctx c).expect = some ((e + at' p 40 1) % 2 ^ 32) ∧ (t.ctx c).skipBefore = (s.ctx c).skipBefore + 1 ∧
      (t.ctx c).group = [] ∧ t.ctxStat c 276 4 = (s.ctxStat c 276 4 + 1) % 2 ^ 32 ∧ MemFrame (s.ctxAddr c + 276) 4 s t ∧
      (∀ k : Fin 64, k ≠ c → t.ctx k = s.ctx k) ∧ Frame [.codec, .mem] s t) ∧
  (∀ (s : State) (c : Fin 64) (moved bad : Bool), s.live = true →
    Completes (.sourcePoll c true moved bad) s fun t => t = s) ∧
  (∀ (s : State) (v : Fin 8), s.live = true → s.coreRetired v = false →
    Completes (.coreResetDone v) s fun t =>
      t.flag (vccA v) VCC_STATUS_FAULT = false ∧ RegFrame [vccA v + VCC_STATUS] s t ∧ Frame [.regs] s t) ∧
  (∀ (s : State) (r : Req) (v : Fin 8) (x : Word), s.live = true → x.toNat.testBit 0 = true →
    Completes (.vdcClear r v x) s fun t =>
      t.rd (vccA v + VDC_ERR) = 0 ∧ t.rd (vccA v + VDC_BADADDR_LO) = 0 ∧ t.rd (vccA v + VDC_BADADDR_HI) = 0 ∧
      RegFrame [vccA v + VDC_ERR, vccA v + VDC_BADADDR_LO, vccA v + VDC_BADADDR_HI] s t ∧ Frame [.regs] s t)

/-- O37. Encode and decode pictures start on their cores, end, are abandoned, stopped or published. The best ready picture of
a free core starts: its heads and source samples are read, the core shows it busy and, coded without a field, it is
counted. A coded picture whose bits fit the cap leaves into its output ring, with its record, with WR_PTR moved on, its
bit in VCC_EVT and the core free; a poisoned one is abandoned, counted, and the next is an IDR. A core error makes a
record with cause 0x12 and FAULT. The access unit that lies whole before WR_PTR is read and its picture starts with T_exp;
a WR_PTR out of range sets code 3 and resynchronises; a picture decoded without fault enters the DPB with its samples and
no flags; the watchdog marks it CONCEALED and counts; hardware that does not stop is reset and the access unit dropped; a
ready picture is published in its turn with PIC_COUNT and its event bit. Each of these forms ends in a next state wherever
its clause's conditions on state and operands hold: pictureStart, pictureDone, coreWatchdog, decodePictureStart,
decodePictureDone, decodeWatchdog, decodeStopTimeout, picturePublish. (R244, R245, R247, R250, R262, R263, R269, R270,
R271, R276, R277) -/
def Obligations.CodecPicturesStartAndEnd : Prop :=
  (∀ (s : State) (v : Fin 8) (c : Fin 64) (k : Taken) (src : SrcPic) (rest : List Taken), s.live = true → s.coreOk v = true →
    (s.vcc v).cur = none → (s.vcc v).waitFor = none → ((s.vcc v).last = none ∨ (s.vcc v).last = some c.val) →
    s.bestCtx v = some c.val → (s.ctx c).dec = false → s.coresOf (s.ctx c) = [v.val] → (s.ctx c).ready = k :: rest →
    s.dramIdle = true → s.headsShow (s.ctxReq c) k.p k.src k.frame = true → (s.srcPic (s.ctxReq c) k.p k.src).1 = some src →
    at' k.p 64 4 / 8 + 4096 ≤ at' k.p 136 4 - ((s.ctx c).wr - s.ctxStat c 264 8) →
    Completes (.pictureStart v false) s fun t =>
      t.ctx c = { s.ctx c with ready := rest, job := some (.enc k src [v.val]) } ∧
      t.vcc v = { s.vcc v with cur := some c.val, last := some c.val } ∧ t.flag (vccA v) VCC_STATUS_BUSY = true ∧
      t.fld (vccA v) VCC_STATUS_CTX = c ∧ t.flag (vccA v) VCC_STATUS_CTX_VALID = true ∧
      t.fld (vccA v) VCC_STATUS_DEPTH = (s.vcc v).depth % 4 ∧
      (k.noMfe = true → t.fld (vccA v) VCC_CNT2_NO_MFE = min (s.fld (vccA v) VCC_CNT2_NO_MFE + 1) 0xFFFF) ∧
      (k.noMfe = false → t.rd (vccA v + VCC_CNT2) = s.rd (vccA v + VCC_CNT2)) ∧
      (∀ j : Fin 64, j ≠ c → t.ctx j = s.ctx j) ∧ (∀ j : Fin 8, j ≠ v → t.vcc j = s.vcc j) ∧
      BlockFrame ([vccA v] ++ busBlocks) s t ∧ Frame ([.codec, .vccs] ++ busParts) s t) ∧
  (∀ (s : State) (v : Fin 8) (c : Fin 64) (k : Taken) (src : SrcPic) (x : CodedPic) (au : CodedAu), s.live = true →
    (s.vcc v).cur = some c.val → (s.ctx c).job = some (.enc k src [v.val]) → s.dramIdle = true →
    s.headsShow (s.ctxReq c) k.p k.src k.frame = true → (s.ctx c).stopping = false → s.codec.cmd = none →
    s.coded c k src [v.val] x = au → 8 * au.bytes.length ≤ au.cap →
    Completes (.pictureDone v x false) s fun t =>
      (t.ctx c).job = none ∧ (t.ctx c).wr = (s.ctx c).wr + au.bytes.length ∧
      (t.ctx c).auCount = (s.ctx c).auCount + 1 ∧ (t.ctx c).skipBefore = 0 ∧ (t.ctx c).ready = (s.ctx c).ready ∧
      (t.ctx c).refs = (k.poc :: (if k.type = 0 then [] else (s.ctx c).refs)).take (picStore k.p - 1) ∧
      (t.ctx c).debt = max (-(perPicture k.p (at' k.p 52 4) : Int)) ((s.ctx c).debt + 8 * au.bytes.length - tRaw k) ∧
      (t.fld (vccA 0) (lohi VCC_EVT_LO_EVT VCC_EVT_HI_EVT c)).testBit (c % 32) = true ∧
      (t.vcc v).cur = none ∧ t.flag (vccA v) VCC_STATUS_BUSY = false ∧
      t.fld (vccA v) VCC_CNT_PICTURES = min (s.fld (vccA v) VCC_CNT_PICTURES + 1) 0xFFFF ∧
      (∀ j : Fin 64, j ≠ c → t.ctx j = s.ctx j) ∧ (∀ j : Fin 8, j ≠ v → t.vcc j = s.vcc j) ∧
      BlockFrame ([vccA v, vccA 0] ++ busBlocks) s t ∧ Frame ([.codec, .vccs, .free] ++ busParts) s t) ∧
  (∀ (s : State) (v : Fin 8) (c : Fin 64) (k : Taken) (src : SrcPic) (x : CodedPic) (au : CodedAu) (ring size at1 : Nat),
    s.live = true →
    (s.vcc v).cur = some c.val → (s.ctx c).job = some (.enc k src [v.val]) → s.dramIdle = true →
    s.headsShow (s.ctxReq c) k.p k.src k.frame = true → (s.ctx c).stopping = false → s.codec.cmd = none →
    s.coded c k src [v.val] x = au → 8 * au.bytes.length ≤ au.cap → k.p = (s.ctx c).p →
    at' k.p 128 8 = ring → at' k.p 136 4 = size → (s.ctx c).wr % size + au.bytes.length ≤ size →
    at' k.p 144 8 + 64 * ((s.ctx c).auCount % 2 ^ at' k.p 140 1) = at1 → s.answersAt ring size → s.answersAt at1 64 →
    s.answersAt (s.ctxAddr c + 256) 64 → ring + size ≤ at1 → at1 + 64 ≤ s.ctxAddr c + 256 →
    (s.ctxAddr c + 320 ≤ at' k.p 152 8 ∨ at' k.p 152 8 + at' k.p 160 4 * 4096 ≤ ring) →
    Completes (.pictureDone v x false) s fun t =>
      t.memBytes (ring + (s.ctx c).wr % size) au.bytes.length = au.bytes ∧
      t.memBytes at1 28 = toBytes 16 k.hdr ++ toBytes 8 (s.ctx c).wr ++ toBytes 4 au.bytes.length ∧
      t.ctxStat c 256 8 = ((s.ctx c).wr + au.bytes.length) % 2 ^ 64 ∧
      t.ctxStat c 272 4 = ((s.ctx c).auCount + 1) % 2 ^ 32) ∧
  (∀ (s : State) (v : Fin 8) (c : Fin 64) (k : Taken) (src : SrcPic) (x : CodedPic), s.live = true →
    (s.vcc v).cur = some c.val → (s.ctx c).job = some (.enc k src [v.val]) → s.dramIdle = true →
    s.headsShow (s.ctxReq c) k.p k.src k.frame = true → (s.ctx c).stopping = false → s.codec.cmd = none →
    s.answersAt (s.ctxAddr c + 276) 4 →
    Completes (.pictureDone v x true) s fun t =>
      t.ctx c = { s.ctx c with job := none, needIdr := true, skipBefore := (s.ctx c).skipBefore + 1 } ∧
      t.fld (vccA v) VCC_CNT2_ABANDONED = min (s.fld (vccA v) VCC_CNT2_ABANDONED + 1) 0xFFFF ∧
      t.ctxStat c 276 4 = (s.ctxStat c 276 4 + 1) % 2 ^ 32 ∧ MemFrame (s.ctxAddr c + 276) 4 s t ∧
      (t.vcc v).cur = none ∧ t.flag (vccA v) VCC_STATUS_BUSY = false ∧
      (∀ j : Fin 64, j ≠ c → t.ctx j = s.ctx j) ∧ (∀ j : Fin 8, j ≠ v → t.vcc j = s.vcc j) ∧
      RegFrame [vccA v + VCC_STATUS, vccA v + VCC_CNT2] s t ∧ Frame [.regs, .mem, .codec, .vccs] s t) ∧
  (∀ (s : State) (v : Fin 8), s.live = true → s.flag (vccA v) VCC_STATUS_FAULT = false → (s.vcc v).cur = none →
    (s.recentTimes (128 + v)).length < 4 →
    Completes (.coreWatchdog v) s fun t =>
      t.flag (vccA v) VCC_STATUS_FAULT = true ∧ Logged (1 + v / 4) 0x12 2 (srcOf (1 + v / 4) 0x88 (v % 4)) 0 0 s t ∧
      RegFrame ((vccA v + VCC_STATUS) :: recordRegs (1 + v / 4)) s t ∧ (∀ j : Fin 8, j ≠ v → t.vcc j = s.vcc j) ∧
      Frame [.regs, .alm, .flt, .vccs] s t) ∧
  (∀ (s : State) (v : Fin 8) (c : Fin 64) (x y : VCtx) (w len : Nat) (ns : List Nal) (o : Option Nat) (i : DecInfo), s.live = true →
    s.coreOk v = true → (s.vcc v).cur = none → (s.vcc v).waitFor = none →
    ((s.vcc v).last = none ∨ (s.vcc v).last = some c.val) → s.bestCtx v = some c.val → s.ctx c = x → x.dec = true →
    s.ctxStat c 256 8 = w → x.lastWr ≤ w → w ≤ x.rd + at' x.p 24 4 → x.pos < w → s.dramIdle = true →
    firstAu false (scanNals 0 0 none (s.inBytes c w).1) = (ns, o) → o.getD (w - x.pos) = len →
    ({ x with lastWr := w } : VCtx).readAu x.pos len ns = (y, .pic i) → i.parallel = false →
    Completes (.decodePictureStart v) s fun t =>
      (t.ctx c).job = some (.dec i (i.sps.ctus * 4640 + 24000) [v.val]) ∧ (t.ctx c).pos = x.pos + len ∧ (t.ctx c).lastWr = w ∧
      (t.ctx c).waitIrap = false ∧ (t.ctx c).aus = x.aus ++ [(x.pos, x.pos + len, false)] ∧ (t.ctx c).dpb = x.dpb ∧
      (t.ctx c).spss = y.spss ∧ (t.ctx c).ppss = y.ppss ∧
      t.vcc v = { s.vcc v with cur := some c.val, last := some c.val } ∧ t.flag (vccA v) VCC_STATUS_BUSY = true ∧
      t.fld (vccA v) VCC_STATUS_CTX = c ∧ t.flag (vccA v) VCC_STATUS_CTX_VALID = true ∧
      (i.sps.ctus ≤ 55705 → t.fld (vccA v) VDC_TEXP_CYCLES = i.sps.ctus * 4640 + 24000) ∧
      (∀ j : Fin 64, j ≠ c → t.ctx j = s.ctx j) ∧ (∀ j : Fin 8, j ≠ v → t.vcc j = s.vcc j) ∧
      BlockFrame ([vccA v] ++ busBlocks) s t ∧ Frame ([.codec, .vccs] ++ busParts) s t) ∧
  (∀ (s : State) (v : Fin 8) (c : Fin 64) (x : VCtx) (w : Nat), s.live = true → s.coreOk v = true → (s.vcc v).cur = none →
    s.bestCtx v = some c.val → s.ctx c = x → x.dec = true → s.ctxStat c 256 8 = w → (w < x.lastWr ∨ w > x.rd + at' x.p 24 4) →
    s.fld (vccA v) VDC_ERR_CODE = 0 → s.answersAt (s.ctxAddr c + 256) 16 →
    Completes (.decodePictureStart v) s fun t =>
      t.ctx c = { x with pos := w, rd := w, lastWr := w, waitIrap := true, dpb := [], prevPic := none, aus := [], afterEos := true } ∧
      t.fld (vccA v) VDC_ERR_CODE = 3 ∧ t.fld (vccA v) VDC_ERR_CTX = c ∧ t.ctxStat c 264 8 = w ∧
      MemFrame (s.ctxAddr c + 264) 8 s t ∧ (∀ j : Fin 64, j ≠ c → t.ctx j = s.ctx j) ∧
      RegFrame [vccA v + VDC_ERR] s t ∧ Frame [.regs, .mem, .codec] s t) ∧
  (∀ (s : State) (v : Fin 8) (c : Fin 64) (i : DecInfo) (texp : Nat) (h : SliceHdr) (d : DecRun), s.live = true →
    (s.vcc v).cur = some c.val → (s.ctx c).job = some (.dec i texp [v.val]) → (s.ctx c).stopping = false →
    s.codec.cmd = none →
    i.segs = [⟨some h, false⟩] →
    segResults i.tiles.flatten (ctxMayUse (s.ctx c).p (s.ctxAddr c)) i.segs d.segs = (i.tiles.flatten, [], []) →
    d.badRef = [] → (refsOfHdr i.poc h).any (·.cur) = false →
    Completes (.decodePictureDone v d) s fun t =>
      (t.ctx c).job = none ∧
      (∃ p ∈ (t.ctx c).prevPic, p.poc = i.poc ∧ p.width = i.sps.w ∧ p.height = i.sps.h ∧
        ∀ k < i.sps.w * i.sps.h, i.tiles.flatten.contains (p.ctuAt (k % i.sps.w) (k / i.sps.w)) = true →
          p.y.getD k 0 = d.y.getD k 0) ∧
      (∃ e ∈ (t.ctx c).dpb, e.off = i.off ∧ e.pic.poc = i.poc ∧ e.flags = 0 ∧ e.code = 0 ∧ e.events = 0 ∧ e.conc = 0) ∧
      (t.vcc v).cur = none ∧ t.flag (vccA v) VCC_STATUS_BUSY = false ∧
      t.rd (vccA v + VDC_ERR) = s.rd (vccA v + VDC_ERR) ∧ t.rd (vccA v + VDC_CNT2) = s.rd (vccA v + VDC_CNT2) ∧
      (∀ j : Fin 64, j ≠ c → t.ctx j = s.ctx j) ∧ (∀ j : Fin 8, j ≠ v → t.vcc j = s.vcc j) ∧
      BlockFrame ([vccA v] ++ busBlocks) s t ∧ Frame ([.codec, .vccs, .free] ++ busParts) s t) ∧
  (∀ (s : State) (v : Fin 8) (c : Fin 64) (i : DecInfo) (texp : Nat) (d : DecRun), s.live = true →
    (s.vcc v).cur = some c.val → (s.ctx c).job = some (.dec i texp [v.val]) → (s.ctx c).stopping = false →
    s.codec.cmd = none →
    (refsOfHdr i.poc ((i.segs.findSome? (·.hdr)).getD ⟨true, false, false, 0, 2, true, 0, ⟨[], []⟩, [], 0⟩)).any (·.cur) = false →
    (segResults i.tiles.flatten (ctxMayUse (s.ctx c).p (s.ctxAddr c)) i.segs d.segs).2.2 = [] → d.badRef = [] →
    s.fld (vccA v) VDC_ERR_CODE = 0 →
    Completes (.decodeWatchdog v d) s fun t =>
      (t.ctx c).job = none ∧
      (∃ e ∈ (t.ctx c).dpb, e.off = i.off ∧ e.pic.poc = i.poc ∧ e.flags &&& fCONCEALED ≠ 0 ∧ e.events.testBit 2 = true ∧ e.code = 2) ∧
      t.fld (vccA v) VDC_ERR_CODE = 2 ∧ t.fld (vccA v) VDC_ERR_CTX = c ∧
      t.fld (vccA v) VDC_CNT2_WATCHDOGS = min (s.fld (vccA v) VDC_CNT2_WATCHDOGS + 1) 0xFFFF ∧
      (t.vcc v).cur = none ∧ t.flag (vccA v) VCC_STATUS_BUSY = false ∧
      (∀ j : Fin 64, j ≠ c → t.ctx j = s.ctx j) ∧ (∀ j : Fin 8, j ≠ v → t.vcc j = s.vcc j) ∧
      BlockFrame ([vccA v] ++ busBlocks) s t ∧ Frame ([.codec, .vccs, .free] ++ busParts) s t) ∧
  (∀ (s : State) (v : Fin 8) (c : Fin 64) (i : DecInfo) (texp : Nat), s.live = true → (s.vcc v).cur = some c.val →
    (s.ctx c).job = some (.dec i texp [v.val]) → (s.ctx c).stopping = false → s.codec.cmd = none →
    (s.recentTimes (128 + v)).length < 4 → s.answersAt (s.ctxAddr c + 256) 32 →
    Completes (.decodeStopTimeout v) s fun t =>
      t.flag (vccA v) VCC_STATUS_FAULT = true ∧ (t.ctx c).job = none ∧ (t.vcc v).cur = none ∧
      t.fld (vccA v) VDC_CNT3_DROPPED = min (s.fld (vccA v) VDC_CNT3_DROPPED + 1) 0xFFFF ∧
      t.fld (vccA v) VDC_CNT2_WATCHDOGS = min (s.fld (vccA v) VDC_CNT2_WATCHDOGS + 1) 0xFFFF ∧
      t.ctxStat c 276 4 = (s.ctxStat c 276 4 + 1) % 2 ^ 32 ∧
      Logged (1 + v / 4) 0x12 2 (srcOf (1 + v / 4) 0x88 (v % 4)) 0 (info8 c) s t ∧
      (∀ j : Fin 64, j ≠ c → t.ctx j = s.ctx j) ∧ (∀ j : Fin 8, j ≠ v → t.vcc j = s.vcc j) ∧
      MemFrame (s.ctxAddr c + 264) 16 s t ∧ BlockFrame [vccA v, fltA (1 + v / 4), almA, nvtA] s t ∧
      Frame [.regs, .mem, .codec, .vccs, .alm, .flt] s t) ∧
  (∀ (s : State) (c : Fin 64) (o : OutPic), s.live = true → (s.ctx c).run = true → (s.ctx c).dec = true →
    (s.ctx c).outQ = [o] → o.ready = true → (at' (s.ctx c).p 13 1).testBit 2 = false → o.d.flags = 0 → o.k < 2 ^ 32 - 1 →
    (s.ctx c).stopping = false → s.answersAt (s.ctxAddr c + 256) 32 →
    Completes (.picturePublish c) s fun t =>
      (t.ctx c).outQ = [] ∧ (t.ctx c).published = o.k + 1 ∧ (t.ctx c).paceDue = false ∧ (t.ctx c).dpb = (s.ctx c).dpb ∧
      t.ctxStat c 272 4 = o.k + 1 ∧
      (t.fld (vccA 0) (lohi VCC_EVT_LO_EVT VCC_EVT_HI_EVT c)).testBit (c % 32) = true ∧
      t.fld (vccA ((s.coresOf (s.ctx c)).headD 0)) VDC_CNT_PICTURES =
        min (s.fld (vccA ((s.coresOf (s.ctx c)).headD 0)) VDC_CNT_PICTURES + 1) 0xFFFF ∧
      (∀ j : Fin 64, j ≠ c → t.ctx j = s.ctx j) ∧
      BlockFrame ([vccA ((s.coresOf (s.ctx c)).headD 0), vccA 0] ++ busBlocks) s t ∧
      Frame ([.codec] ++ busParts) s t)

/-- O38. Each scalar ALU, multiply, divide and immediate instruction writes its result to rd and nothing else. For every core,
word and register contents: when the word at pc is that of ADD to REMU or ADDI to LUI and the store buffer is empty, the
command of that name completes with rd holding the value that Table 12-7 gives for rs1 (a) and rs2 (b), or the immediate
(i sign-extended, z zero-extended); x0 reads 0 whatever is written; pc moves on by 4 and no other register, core or part
of the state changes. Each of these forms ends in a next state wherever its clause's conditions on state and operands
hold: add, sub, and, or, xor, sll, srl, sra, slt, sltu, min, max, clz, popc, mul, mulh, mulhu, div, divu, rem, remu, addi,
andi, ori, xori, slti, sltiu, slli, srli, srai, lui. (R293, R300) -/
def Obligations.WerokScalarArithmetic : Prop :=
  (∀ (s : State) (u : WCore) (w : Nat) (a b i z : Word) (e : OpRow Word), s.atWord u w = true → a = s.xr u (bits w 20 16) →
    b = s.xr u (bits w 15 11) → i = (BitVec.ofNat 16 w).signExtend 32 → z = (BitVec.ofNat 16 w).zeroExtend 32 → opKey w = e.key →
    e ∈ ([⟨.add u, key 0x00 0x000, a + b⟩,
      ⟨.sub u, key 0x00 0x001, a - b⟩,
      ⟨.and u, key 0x00 0x002, a &&& b⟩,
      ⟨.or u, key 0x00 0x003, a ||| b⟩,
      ⟨.xor u, key 0x00 0x004, a ^^^ b⟩,
      ⟨.sll u, key 0x00 0x005, a <<< (b.toNat % 32)⟩,
      ⟨.srl u, key 0x00 0x006, a >>> (b.toNat % 32)⟩,
      ⟨.sra u, key 0x00 0x007, a.sshiftRight (b.toNat % 32)⟩,
      ⟨.slt u, key 0x00 0x008, if a.toInt < b.toInt then 1 else 0⟩,
      ⟨.sltu u, key 0x00 0x009, if a.toNat < b.toNat then 1 else 0⟩,
      ⟨.min u, key 0x00 0x00A, if a.toInt ≤ b.toInt then a else b⟩,
      ⟨.max u, key 0x00 0x00B, if a.toInt ≤ b.toInt then b else a⟩,
      ⟨.clz u, key 0x00 0x00C, wd (if a = 0 then 32 else 31 - Nat.log2 a.toNat)⟩,
      ⟨.popc u, key 0x00 0x00D, wd ((List.range 32).countP (fun i => a.getLsbD i))⟩,
      ⟨.mul u, key 0x01 0x000, a * b⟩,
      ⟨.mulh u, key 0x01 0x001, BitVec.ofInt 32 (a.toInt * b.toInt / 2 ^ 32)⟩,
      ⟨.mulhu u, key 0x01 0x002, wd (a.toNat * b.toNat / 2 ^ 32)⟩,
      ⟨.div u, key 0x01 0x003, if b = 0 then 0xFFFFFFFF else a.sdiv b⟩,
      ⟨.divu u, key 0x01 0x004, if b = 0 then 0xFFFFFFFF else a / b⟩,
      ⟨.rem u, key 0x01 0x005, if b = 0 then a else a.srem b⟩,
      ⟨.remu u, key 0x01 0x006, if b = 0 then a else a % b⟩,
      ⟨.addi u, key 0x04 0, a + i⟩,
      ⟨.andi u, key 0x05 0, a &&& z⟩,
      ⟨.ori u, key 0x06 0, a ||| z⟩,
      ⟨.xori u, key 0x07 0, a ^^^ z⟩,
      ⟨.slti u, key 0x08 0, if a.toInt < i.toInt then 1 else 0⟩,
      ⟨.sltiu u, key 0x09 0, if a.toNat < i.toNat then 1 else 0⟩,
      ⟨.slli u, key 0x0A 0, a <<< (w % 32)⟩,
      ⟨.srli u, key 0x0A 1, a >>> (w % 32)⟩,
      ⟨.srai u, key 0x0A 2, a.sshiftRight (w % 32)⟩,
      ⟨.lui u, key 0x0B 0, z <<< 16⟩] : List (OpRow Word)) →
    Completes e.cmd s fun t => SetsX u (bits w 25 21) e.value s t)

/-- O39. Loads, stores and atomics of a Werok core move the bytes at their address, and nothing else. With the store buffer
empty, no answer of the host outstanding and the address aligned: LW to LBU from DMEM or from the engine's own cluster
memory write the word, or the half or byte extended as named, to rd; SW to SB to DMEM or own cluster memory store exactly
the low bytes of rs2, and through an uncached window append one store of them to the store buffer. Each atomic on cluster
memory that is reachable returns the old word in rd and stores the new one. pc moves on by 4; no other register, byte,
core or part of the state changes. (An operand says that an uncorrectable error stands there: the model's, log entry 56.).
Each of these forms ends in a next state wherever its clause's conditions on state and operands hold: lw, lh, lhu, lb,
lbu, sw, sh, sb, aadd, aswp, aand, aor, amaxu, acas. (R280, R281, R282, R283, R287, R300) -/
def Obligations.WerokLoadsStoresAndAtomics : Prop :=
  (∀ (s : State) (u : WCore) (w : Nat) (a : Word) (m : Nat) (e : OpRow (Nat × Word)), s.atWord u w = true → (s.core u).asks = [] →
    a = s.xr u (bits w 20 16) + (BitVec.ofNat 16 w).signExtend 32 → a.toNat % e.value.1 = 0 → a.toNat < u.dmemSize →
    m = leNat ((List.range e.value.1).map (fun k => byteAt (s.core u).dmem (a.toNat + k))) → opKey w = e.key →
    e ∈ ([⟨.lw u false, key 0x10 0, (4, wd m)⟩,
      ⟨.lh u false, key 0x11 0, (2, (BitVec.ofNat 16 m).signExtend 32)⟩,
      ⟨.lhu u false, key 0x12 0, (2, wd m)⟩,
      ⟨.lb u false, key 0x13 0, (1, (BitVec.ofNat 8 m).signExtend 32)⟩,
      ⟨.lbu u false, key 0x14 0, (1, wd m)⟩] : List (OpRow (Nat × Word))) →
    Completes e.cmd s fun t => SetsX u (bits w 25 21) e.value.2 s t) ∧
  (∀ (s : State) (u : WCore) (w : Nat) (a : Word) (m d : Nat) (e : OpRow (Nat × Word)), s.atWord u w = true →
    (s.core u).asks = [] → a = s.xr u (bits w 20 16) + (BitVec.ofNat 16 w).signExtend 32 → s.tgt u a.toNat e.value.1 = .own d →
    m = s.memNat d e.value.1 → opKey w = e.key →
    e ∈ ([⟨.lw u false, key 0x10 0, (4, wd m)⟩,
      ⟨.lh u false, key 0x11 0, (2, (BitVec.ofNat 16 m).signExtend 32)⟩,
      ⟨.lhu u false, key 0x12 0, (2, wd m)⟩,
      ⟨.lb u false, key 0x13 0, (1, (BitVec.ofNat 8 m).signExtend 32)⟩,
      ⟨.lbu u false, key 0x14 0, (1, wd m)⟩] : List (OpRow (Nat × Word))) →
    Completes e.cmd s fun t => SetsX u (bits w 25 21) e.value.2 s t) ∧
  (∀ (s : State) (u : WCore) (w : Nat) (a b : Word) (e : OpRow Nat), s.atWord u w = true → b = s.xr u (bits w 25 21) →
    a = s.xr u (bits w 20 16) + (BitVec.ofNat 16 w).signExtend 32 → a.toNat % e.value = 0 → a.toNat < u.dmemSize →
    opKey w = e.key → e ∈ ([⟨.sw u, key 0x18 0, 4⟩,
      ⟨.sh u, key 0x19 0, 2⟩,
      ⟨.sb u, key 0x1A 0, 1⟩] : List (OpRow Nat)) →
    Completes e.cmd s fun t => SetsD u a.toNat ((toBytes 4 b.toNat).take e.value) s t) ∧
  (∀ (s : State) (u : WCore) (w : Nat) (a b : Word) (d : Nat) (e : OpRow Nat), s.atWord u w = true → b = s.xr u (bits w 25 21) →
    a = s.xr u (bits w 20 16) + (BitVec.ofNat 16 w).signExtend 32 → s.tgt u a.toNat e.value = .own d →
    opKey w = e.key → e ∈ ([⟨.sw u, key 0x18 0, 4⟩,
      ⟨.sh u, key 0x19 0, 2⟩,
      ⟨.sb u, key 0x1A 0, 1⟩] : List (OpRow Nat)) →
    Completes e.cmd s fun t =>
      t.memBytes d e.value = (toBytes 4 b.toNat).take e.value ∧ MemFrame d e.value s t ∧
      t.core u = { s.core u with pc := (s.pcOf u + 4) % 2 ^ 32 } ∧ (∀ c : WCore, c ≠ u → t.core c = s.core c) ∧
      Frame [.engs, .stews, .mem] s t) ∧
  (∀ (s : State) (u : WCore) (w : Nat) (a b : Word) (d : Nat) (e : OpRow Nat), s.atWord u w = true → b = s.xr u (bits w 25 21) →
    a = s.xr u (bits w 20 16) + (BitVec.ofNat 16 w).signExtend 32 → s.tgt u a.toNat e.value = .win d false →
    opKey w = e.key → e ∈ ([⟨.sw u, key 0x18 0, 4⟩,
      ⟨.sh u, key 0x19 0, 2⟩,
      ⟨.sb u, key 0x1A 0, 1⟩] : List (OpRow Nat)) →
    Completes e.cmd s fun t =>
      t.core u = { s.core u with sb := [⟨d, (toBytes 4 b.toNat).take e.value⟩], pc := (s.pcOf u + 4) % 2 ^ 32 } ∧ OnlyCore u s t) ∧
  (∀ (s : State) (u : WCore) (w d : Nat) (o b : Word) (e : OpRow Word), s.atWord u w = true → b = s.xr u (bits w 15 11) →
    s.atomicAt u (s.xr u (bits w 20 16)).toNat = some d → s.cut u.req.die (memDie d) = false → o = wd (s.memNat d 4) →
    opKey w = e.key → e ∈ ([⟨.aadd u false, key 0x1C 0, o + b⟩,
      ⟨.aswp u false, key 0x1C 1, b⟩,
      ⟨.aand u false, key 0x1C 2, o &&& b⟩,
      ⟨.aor u false, key 0x1C 3, o ||| b⟩,
      ⟨.amaxu u false, key 0x1C 4, if o.toNat ≤ b.toNat then b else o⟩,
      ⟨.acas u false, key 0x1C 5, if o = s.xr u (bits w 25 21) then b else o⟩] : List (OpRow Word)) →
    Completes e.cmd s fun t => Swaps u (bits w 25 21) d o e.value s t)

/-- O40. Branches, jumps, fences, signals, sleeps and fetch discards move pc as their conditions say. A branch whose
comparison of rs1 (a) with rs2 (b) holds goes to pc + 4 x IMM, else on by 4. JAL links in x31 and goes to pc + 4 x OFFSET;
JALR links in rd and goes to rs1 + IMM with its low two bits 0. FENCE with nothing in the store buffer goes on; else the
core waits until it has drained. SIG then stores rs2. WAIT goes on where the word differs from rs2 and else sleeps until
it does. IFENCE ends what is fetched still though a finished transfer has replaced it. Nothing else changes. Each of these
forms ends in a next state wherever its clause's conditions on state and operands hold: jal, jalr, fence, fenceDrained,
sig, wait, waitWake, ifence, beq, bne, blt, bge, bltu, bgeu. (R70, R285, R289, R300) -/
def Obligations.WerokBranchesJumpsAndWaits : Prop :=
  (∀ (s : State) (u : WCore) (w : Nat) (a b : Word) (e : OpRow Bool), s.atWord u w = true → a = s.xr u (bits w 20 16) →
    b = s.xr u (bits w 25 21) → opKey w = e.key →
    e ∈ ([⟨.beq u, key 0x20 0, decide (a = b)⟩,
      ⟨.bne u, key 0x21 0, decide (a ≠ b)⟩,
      ⟨.blt u, key 0x22 0, decide (a.toInt < b.toInt)⟩,
      ⟨.bge u, key 0x23 0, decide (b.toInt ≤ a.toInt)⟩,
      ⟨.bltu u, key 0x24 0, decide (a.toNat < b.toNat)⟩,
      ⟨.bgeu u, key 0x25 0, decide (b.toNat ≤ a.toNat)⟩] : List (OpRow Bool)) →
    Completes e.cmd s fun t =>
      Jumps u (if e.value then (wd (s.pcOf u) + 4 * (BitVec.ofNat 16 w).signExtend 32).toNat else s.pcOf u + 4) s t) ∧
  (∀ (s : State) (u : WCore) (w : Nat), s.atWord u w = true → opKey w = key 0x28 0 →
    Completes (.jal u) s fun t =>
      t.xr u 31 = wd (s.pcOf u) + 4 ∧ (∀ k : Fin 31, t.xr u k = s.xr u k) ∧
      t.core u = { s.core u with x := (t.core u).x, pc := (wd (s.pcOf u) + 4 * (BitVec.ofNat 26 w).signExtend 32).toNat } ∧
      OnlyCore u s t) ∧
  (∀ (s : State) (u : WCore) (w : Nat) (a : Word), s.atWord u w = true → opKey w = key 0x29 0 →
    a = s.xr u (bits w 20 16) + (BitVec.ofNat 16 w).signExtend 32 →
    Completes (.jalr u) s fun t =>
      t.xr u (bits w 25 21) = (if bits w 25 21 = 0 then 0 else wd (s.pcOf u) + 4) ∧
      (∀ k : Fin 32, k.val ≠ bits w 25 21 → t.xr u k = s.xr u k) ∧
      t.core u = { s.core u with x := (t.core u).x, pc := a.toNat / 4 * 4 } ∧ OnlyCore u s t) ∧
  (∀ (s : State) (u : WCore) (w : Nat), s.atWord u w = true → opKey w = key 0x2C 0 →
    Completes (.fence u) s fun t => Jumps u (s.pcOf u + 4) s t) ∧
  (∀ (s : State) (u : WCore), s.live = true → s.issues u = true → s.pcIn u = true → opAssigned u (s.core u).fetch = true →
    opKey (s.core u).fetch = key 0x2C 0 → (s.core u).sb ≠ [] →
    Completes (.fence u) s fun t => t.core u = { s.core u with drain := some .fence } ∧ OnlyCore u s t) ∧
  (∀ (s : State) (u : WCore) (a : Nat) (l : List Byte), s.live = true → (s.core u).drain = some .fence →
    (s.core u).sb = [⟨a, l⟩] → s.cut u.req.die 0 = false → s.answersAt a l.length →
    Completes (.fenceDrained u) s fun t =>
      t.core u = { s.core u with sb := [], drain := none, pc := (s.pcOf u + 4) % 2 ^ 32 } ∧ t.memBytes a l.length = l ∧
      MemFrame a l.length s t ∧ (∀ c : WCore, c ≠ u → t.core c = s.core c) ∧ Frame [.engs, .stews, .mem] s t) ∧
  (∀ (s : State) (u : WCore) (w d : Nat), s.atWord u w = true → opKey w = key 0x2C 2 →
    s.tgt u (s.xr u (bits w 20 16)).toNat 4 = .own d →
    Completes (.sig u) s fun t =>
      t.memBytes d 4 = toBytes 4 (s.xr u (bits w 15 11)).toNat ∧ MemFrame d 4 s t ∧
      t.core u = { s.core u with pc := (s.pcOf u + 4) % 2 ^ 32 } ∧ (∀ c : WCore, c ≠ u → t.core c = s.core c) ∧
      Frame [.engs, .stews, .mem] s t) ∧
  (∀ (s : State) (u : WCore) (w d : Nat), s.atWord u w = true → opKey w = key 0x2C 4 →
    s.tgt u (s.xr u (bits w 20 16)).toNat 4 = .own d → wd (s.memNat d 4) ≠ s.xr u (bits w 15 11) →
    Completes (.wait u false) s fun t => Jumps u (s.pcOf u + 4) s t) ∧
  (∀ (s : State) (u : WCore) (w d : Nat), s.atWord u w = true → opKey w = key 0x2C 4 →
    s.tgt u (s.xr u (bits w 20 16)).toNat 4 = .own d → wd (s.memNat d 4) = s.xr u (bits w 15 11) →
    Completes (.wait u false) s fun t =>
      t.core u = { s.core u with watch := some (d, s.xr u (bits w 15 11)) } ∧ OnlyCore u s t) ∧
  (∀ (s : State) (u : WCore) (d : Nat) (v : Word), s.live = true → (s.core u).watch = some (d, v) → wd (s.memNat d 4) ≠ v →
    Completes (.waitWake u) s fun t =>
      t.core u = { s.core u with watch := none, pc := (s.pcOf u + 4) % 2 ^ 32 } ∧ OnlyCore u s t) ∧
  (∀ (s : State) (u : WCore) (w : Nat), s.atWord u w = true → opKey w = key 0x2C 1 →
    Completes (.ifence u) s fun t =>
      t.core u = { s.core u with stale := (s.core u).stale.filter (fun x => x.2.2.isSome), pc := (s.pcOf u + 4) % 2 ^ 32 } ∧
      OnlyCore u s t)

/-- O41. Cache maintenance, cluster-DMA transfers and CSRs act on the core alone. For the cached line at rs1, CLN appends its
write-back if dirty and leaves it clean, INV drops it, CLI does both; for an address that is not cached nothing happens;
CLNALL appends every dirty line's write-back. CDMA takes a free slot with the descriptor at rs1 and a ticket in rd whose
value is free but for its slot, and does nothing while no slot is free; a finished transfer leaves its result, 0 with its
bytes written or 1 for poison with CDMA_ERR, for DMAW, which writes it to rd and waits before. CSRR reads ENGID, JOBID,
QUEUE and WINw; CSRW writes a WINw but its reserved bits and nothing else. (The ticket: the model's, log entry 57.). Each
of these forms ends in a next state wherever its clause's conditions on state and operands hold: cln, inv, cli, clnall,
cdma, cdmaTransferDone, dmaw, csrr, csrw. (R284, R287, R288, R289, R293, R296, R300) -/
def Obligations.WerokCachesTransfersAndCsrs : Prop :=
  (∀ (s : State) (u : WCore) (w : Nat) (l : CLine), s.atWord u w = true → opKey w = key 0x2C 5 →
    s.cachedLine u (s.xr u (bits w 20 16)).toNat = some l →
    Completes (.cln u) s fun t =>
      t.core u = { s.core u with
        sb := (if l.dirty then [⟨l.addr, l.data⟩] else []),
        pc := (s.pcOf u + 4) % 2 ^ 32,
        cache := (s.core u).cache.map (fun x => if x.addr = l.addr then { x with dirty := false } else x) } ∧ OnlyCore u s t) ∧
  (∀ (s : State) (u : WCore) (w : Nat) (l : CLine), s.atWord u w = true → opKey w = key 0x2C 6 →
    s.cachedLine u (s.xr u (bits w 20 16)).toNat = some l →
    Completes (.inv u) s fun t =>
      t.core u = { s.core u with cache := (s.core u).cache.filter (fun x => x.addr ≠ l.addr), pc := (s.pcOf u + 4) % 2 ^ 32 } ∧
      OnlyCore u s t) ∧
  (∀ (s : State) (u : WCore) (w : Nat) (l : CLine), s.atWord u w = true → opKey w = key 0x2C 7 →
    s.cachedLine u (s.xr u (bits w 20 16)).toNat = some l →
    Completes (.cli u) s fun t =>
      t.core u = { s.core u with
        sb := (if l.dirty then [⟨l.addr, l.data⟩] else []),
        pc := (s.pcOf u + 4) % 2 ^ 32,
        cache := (s.core u).cache.filter (fun x => x.addr ≠ l.addr) } ∧ OnlyCore u s t) ∧
  (∀ (s : State) (u : WCore) (w : Nat) (e : OpRow Nat), s.atWord u w = true → opKey w = e.key →
    s.cachedLine u (s.xr u (bits w 20 16)).toNat = none →
    e ∈ ([⟨.cln u, key 0x2C 5, 0⟩, ⟨.inv u, key 0x2C 6, 0⟩, ⟨.cli u, key 0x2C 7, 0⟩] : List (OpRow Nat)) →
    Completes e.cmd s fun t => Jumps u (s.pcOf u + 4) s t) ∧
  (∀ (s : State) (u : WCore) (w : Nat), s.atWord u w = true → opKey w = key 0x2C 8 →
    Completes (.clnall u) s fun t =>
      t.core u = { s.core u with
        sb := ((s.core u).cache.filter (fun x => x.dirty)).map (fun x => ⟨x.addr, x.data⟩),
        cache := (s.core u).cache.map (fun x => { x with dirty := false }), pc := (s.pcOf u + 4) % 2 ^ 32 } ∧ OnlyCore u s t) ∧
  (∀ (s : State) (u : WCore) (w o k : Nat), s.atWord u w = true → opKey w = key 0x2C 9 →
    s.tgt u (s.xr u (bits w 20 16)).toNat 32 = .dmem o → (s.core u).freeSlot = some k →
    Completes (.cdma u false) s fun t =>
      (t.core u).cdma = (s.core u).cdma ++
        [⟨wd (4 * (s.fresh 30).toNat + k), k, s.dmemNat u o 8, s.dmemNat u (o + 8) 8, s.dmemNat u (o + 16) 4,
          s.dmemNat u (o + 20) 2, s.dmemNat u (o + 24) 4, s.dmemNat u (o + 28) 4⟩] ∧
      t.xr u (bits w 25 21) = (if bits w 25 21 = 0 then 0 else wd (4 * (s.fresh 30).toNat + k)) ∧
      (∀ j : Fin 32, j.val ≠ bits w 25 21 → t.xr u j = s.xr u j) ∧
      t.core u = { s.core u with x := (t.core u).x, cdma := (t.core u).cdma, pc := (s.pcOf u + 4) % 2 ^ 32 } ∧
      (∀ c : WCore, c ≠ u → t.core c = s.core c) ∧ Frame [.engs, .stews, .free] s t) ∧
  (∀ (s : State) (u : WCore) (w o : Nat), s.atWord u w = true → opKey w = key 0x2C 9 →
    s.tgt u (s.xr u (bits w 20 16)).toNat 32 = .dmem o → (s.core u).freeSlot = none →
    Completes (.cdma u false) s fun t => t.core u = s.core u ∧ OnlyCore u s t) ∧
  (∀ (s : State) (e : Fin 128) (k : Fin 4) (x : Cdma) (off : Nat), s.live = true → (s.core (.engine e)).cdma = [x] →
    x.slot = k → x.rows = 1 → x.rowBytes = 64 → x.src % 64 = 0 → x.src.testBit 63 = false → s.answersAt x.src 64 → s.cut (1 + e / 64) 0 = false → x.dst.testBit 63 = true →
    localAddr x.dst = some (e.val % 8, false, off) → off + 64 ≤ 0x20000 →
    Completes (.cdmaTransferDone e k none) s fun t =>
      (List.range 64).map (fun i => byteAt (t.core (.engine e)).dmem (off + i)) = s.memBytes x.src 64 ∧
      t.core (.engine e) = { s.core (.engine e) with
        cdma := [], dmem := (t.core (.engine e)).dmem, results := (s.core (.engine e)).results ++ [(x.ticket, 0)] } ∧ OnlyCore (.engine e) s t) ∧
  (∀ (s : State) (e : Fin 128) (k : Fin 4) (x : Cdma) (p : Nat × Nat × Nat) (rest : List (Nat × Nat × Nat)), s.live = true →
    (s.core (.engine e)).cdma = [x] → x.slot = k → x.pieces = p :: rest → regionOf p.1 = .dram →
    Completes (.cdmaTransferDone e k (some 0)) s fun t =>
      t.core (.engine e) = { s.core (.engine e) with cdma := [], results := (s.core (.engine e)).results ++ [(x.ticket, 1)] } ∧
      t.flag (engA (e / 8)) ENG_EVT_CDMA_ERR = true ∧ RegFrame [engA (e / 8) + ENG_EVT] s t ∧
      (∀ c : WCore, c ≠ .engine e → t.core c = s.core c) ∧ Frame [.engs, .regs] s t) ∧
  (∀ (s : State) (u : WCore) (w n : Nat), s.atWord u w = true → opKey w = key 0x2C 0xA →
    (s.core u).results = [(s.xr u (bits w 20 16), n)] → (s.core u).stale = [] →
    Completes (.dmaw u) s fun t =>
      t.xr u (bits w 25 21) = (if bits w 25 21 = 0 then 0 else wd n) ∧
      (∀ j : Fin 32, j.val ≠ bits w 25 21 → t.xr u j = s.xr u j) ∧
      t.core u = { s.core u with x := (t.core u).x, results := [], pc := (s.pcOf u + 4) % 2 ^ 32 } ∧ OnlyCore u s t) ∧
  (∀ (s : State) (u : WCore) (w : Nat), s.atWord u w = true → opKey w = key 0x2C 0xA → (s.core u).results = [] →
    (s.core u).cdma.any (fun x => x.ticket == s.xr u (bits w 20 16)) = true →
    Completes (.dmaw u) s fun t => t.core u = s.core u ∧ OnlyCore u s t) ∧
  (∀ (s : State) (e : Fin 128) (w : Nat) (j : WJob) (v : Word), s.atWord (.engine e) w = true → opKey w = key 0x2D 0 →
    (s.core (.engine e)).job = some j →
    (bits w 11 0, v) ∈ ([(0, wd e), (1, wd j.id), (2, wd j.queue)] : List (Nat × Word)) →
    Completes (.csrr (.engine e)) s fun t => SetsX (.engine e) (bits w 25 21) v s t) ∧
  (∀ (s : State) (u : WCore) (w : Nat), s.atWord u w = true → opKey w = key 0x2D 0 → 0x11 ≤ bits w 11 0 →
    Completes (.csrr u) s fun t => SetsX u (bits w 25 21) (wd ((s.core u).win (bits w 11 0 - 0x10))) s t) ∧
  (∀ (s : State) (u : WCore) (w : Nat), s.atWord u w = true → opKey w = key 0x2E 0 → 0x11 ≤ bits w 11 0 →
    Completes (.csrw u) s fun t =>
      (t.core u).win (bits w 11 0 - 0x10) = (s.xr u (bits w 20 16) &&& 0xFFF00003).toNat ∧
      (∀ k : Fin 16, k.val ≠ bits w 11 0 - 0x10 → (t.core u).win k = (s.core u).win k) ∧
      t.core u = { s.core u with wins := (t.core u).wins, pc := (s.pcOf u + 4) % 2 ^ 32 } ∧ OnlyCore u s t) ∧
  (∀ (s : State) (u : WCore) (w : Nat), s.atWord u w = true → opKey w = key 0x2E 0 → bits w 11 0 < 0x11 →
    Completes (.csrw u) s fun t => Jumps u (s.pcOf u + 4) s t)

/-- O42. Jobs are dispatched, start from their descriptor, end with their record, and a fault resets the engine or stops the
steward. The dispatcher picks the lowest-numbered ready queue. A good descriptor moves RD on and starts its job on the
lowest free engine of its mask: x1 to x8 the arguments, every other scalar 0, pc at ENTRY; one that cannot be read is
consumed with QERR and counted. JEND and TRAP end the job with STATUS 0 or 4, its record stored at COMP_ADDR, counted in
JOBS or JOB_ERRS, with JOB_DONE if IRQ. An unassigned word, an ECC error or an expired budget ends the job, records cause
0x11 with the pc, clears the cache and store buffer and shows FAULT until the reset is done; a steward stops. (Free
values: the issue count of a record, the cause of a fault: log entry 58.). Each of these forms ends in a next state
wherever its clause's conditions on state and operands hold: jobDispatch, jobDescriptorReadDone, jend, trap,
unassignedOpcode, jobBudgetExpiry, engineResetDone. (R292, R293, R294, R295, R296, R70) -/
def Obligations.WerokJobsStartEndAndFault : Prop :=
  (∀ (s : State) (c : Fin 16) (q : Fin 4), s.live = true → s.dispatches c = true → s.queueReady c q = true →
    q.val ∉ (s.clu c).blocked → (∀ k : Fin 4, k < q → s.queueReady c k = false ∨ k.val ∈ (s.clu c).blocked) →
    Completes (.jobDispatch c) s fun t =>
      t.clu c = { s.clu c with picked := some q.val } ∧ (∀ k : Fin 16, k ≠ c → t.clu k = s.clu k) ∧ Frame [.clus] s t) ∧
  (∀ (s : State) (c : Fin 16) (q : Fin 4) (i : Fin 8) (d : List Byte), s.live = true → (s.clu c).picked = some q.val →
    s.queueReady c q = true → s.dispatchStopped c = false → s.answersAt (s.headEntry c q) 64 → s.cut (1 + c / 8) 0 = false →
    d = s.memBytes (s.headEntry c q) 64 → s.badDesc c d = false → (fieldAt d 5 1).testBit 1 = false →
    s.engFree c i = true → (fieldAt d 4 1 = 0 ∨ (fieldAt d 4 1).testBit i = true) →
    (∀ k : Fin 8, k < i → s.engFree c k = false ∨ (fieldAt d 4 1 ≠ 0 ∧ (fieldAt d 4 1).testBit k = false)) →
    Completes (.jobDescriptorReadDone c false) s fun t =>
      (t.eng c i).run = true ∧ (t.eng c i).job = some (jobOf q d) ∧ (t.eng c i).pc = fieldAt d 0 2 ∧
      (∀ k : Fin 8, (t.eng c i).xr (k + 1) = wd (fieldAt d (16 + 4 * k) 4)) ∧
      (∀ k : Fin 23, (t.eng c i).xr (k + 9) = 0) ∧ (t.eng c i).xr 0 = 0 ∧ (t.eng c i).dmem = (s.eng c i).dmem ∧
      (t.eng c i).cache = (s.eng c i).cache ∧ (t.eng c i).wins = (s.eng c i).wins ∧ (t.clu c).picked = none ∧
      t.fld (engA c) (ENG_QPTR_RD.nth 4 q) = (s.fld (engA c) (ENG_QPTR_RD.nth 4 q) + 1) % 65536 ∧
      (t.fld (engA c) ENG_STATUS_BUSY).testBit i = true ∧ (∀ u : WCore, u ≠ engOf c i → t.core u = s.core u) ∧
      RegFrame [engA c + ENG_QPTR + 4 * q, engA c + ENG_STATUS] s t ∧ Frame [.regs, .engs, .clus, .free] s t) ∧
  (∀ (s : State) (c : Fin 16) (q : Fin 4), s.live = true → (s.clu c).picked = some q.val → s.queueReady c q = true →
    s.dispatchStopped c = false →
    Completes (.jobDescriptorReadDone c true) s fun t =>
      t.fld (engA c) (ENG_QPTR_RD.nth 4 q) = (s.fld (engA c) (ENG_QPTR_RD.nth 4 q) + 1) % 65536 ∧
      (t.fld (engA c) ENG_EVT_QERR).testBit q = true ∧
      t.fld (engA c) ENG_CNT_JOB_ERRS = min (s.fld (engA c) ENG_CNT_JOB_ERRS + 1) 0xFFFF ∧ (t.clu c).picked = none ∧
      RegFrame [engA c + ENG_QPTR + 4 * q, engA c + ENG_EVT, engA c + ENG_CNT] s t ∧ Frame [.regs, .clus] s t) ∧
  (∀ (s : State) (e : Fin 128) (w : Nat) (j : WJob), s.atWord (.engine e) w = true → opKey w = key 0x2C 3 →
    (s.core (.engine e)).job = some j → j.comp = 0 → j.queue < 4 →
    Completes (.jend (.engine e)) s fun t =>
      t.core (.engine e) = { s.core (.engine e) with run := false, job := none, asks := [] } ∧
      t.fld (engA (e / 8)) ENG_CNT_JOBS = min (s.fld (engA (e / 8)) ENG_CNT_JOBS + 1) 0xFFFF ∧
      (j.irq = true → (t.fld (engA (e / 8)) ENG_EVT_JOB_DONE).testBit j.queue = true) ∧
      (t.fld (engA (e / 8)) ENG_STATUS_BUSY).testBit (e % 8) = false ∧ (t.clu (e / 8)).blocked = [] ∧
      (∀ c : WCore, c ≠ .engine e → t.core c = s.core c) ∧
      RegFrame [engA (e / 8) + ENG_STATUS, engA (e / 8) + ENG_EVT, engA (e / 8) + ENG_CNT] s t ∧
      Frame [.regs, .engs, .clus, .free] s t) ∧
  (∀ (s : State) (e : Fin 128) (w : Nat) (j : WJob), s.atWord (.engine e) w = true → opKey w = key 0x2C 0xB →
    (s.core (.engine e)).job = some j → j.comp ≠ 0 → s.answersAt j.comp 8 → s.cut (1 + e / 64) 0 = false →
    Completes (.trap (.engine e)) s fun t =>
      t.core (.engine e) = { s.core (.engine e) with run := false, job := none, asks := [] } ∧
      t.memBytes j.comp 8 = toBytes 2 j.id ++ [4, BitVec.ofNat 8 (e % 8)] ++
        toBytes 4 (s.xr (.engine e) (bits w 20 16)).toNat ∧
      MemFrame j.comp 8 s t ∧ t.fld (engA (e / 8)) ENG_CNT_JOB_ERRS = min (s.fld (engA (e / 8)) ENG_CNT_JOB_ERRS + 1) 0xFFFF ∧
      (t.fld (engA (e / 8)) ENG_STATUS_BUSY).testBit (e % 8) = false ∧ (t.clu (e / 8)).blocked = [] ∧
      (∀ c : WCore, c ≠ .engine e → t.core c = s.core c) ∧
      RegFrame [engA (e / 8) + ENG_STATUS, engA (e / 8) + ENG_EVT, engA (e / 8) + ENG_CNT] s t ∧
      Frame [.regs, .engs, .clus, .free, .mem] s t) ∧
  (∀ (s : State) (e : Fin 128) (x : Bool), s.live = true → s.issues (.engine e) = true →
    (x || !s.pcIn (.engine e) || !opAssigned (.engine e) (s.core (.engine e)).fetch) = true → (s.core (.engine e)).sb = [] →
    (s.core (.engine e)).job = none → (s.recentTimes e).length < 4 →
    Completes (.unassignedOpcode (.engine e) x) s fun t =>
      (t.core (.engine e)).run = false ∧ (t.core (.engine e)).cache = [] ∧ (t.core (.engine e)).cdma = [] ∧
      (t.core (.engine e)).imem = (s.core (.engine e)).imem ∧ (t.core (.engine e)).dmem = (s.core (.engine e)).dmem ∧
      (t.fld (engA (e / 8)) ENG_STATUS_FAULT).testBit (e % 8) = true ∧
      Logged (1 + e / 64) 0x11 2 (Req.engine e).src (s.pcOf (.engine e)) (info8 (s.fresh 8).toNat) s t ∧
      (∀ c : WCore, c ≠ .engine e → t.core c = s.core c) ∧
      RegFrame ((engA (e / 8) + ENG_STATUS) :: recordRegs (1 + e / 64)) s t ∧ Frame [.regs, .engs, .alm, .flt, .free] s t) ∧
  (∀ (s : State) (k : Fin 4) (x : Bool), s.live = true → s.issues (.steward k) = true →
    (x || !s.pcIn (.steward k) || !opAssigned (.steward k) (s.core (.steward k)).fetch) = true →
    (s.core (.steward k)).sb = [] →
    Completes (.unassignedOpcode (.steward k) x) s fun t =>
      t.core (.steward k) = { s.core (.steward k) with run := false, loaded := false, asks := [] } ∧
      (t.fld advA ADV_STEW_RUN).testBit k = false ∧
      Logged 0 0x11 2 (Req.steward k).src (s.pcOf (.steward k)) (info8 (s.fresh 8).toNat) s t ∧
      (∀ c : WCore, c ≠ .steward k → t.core c = s.core c) ∧
      RegFrame ((advA + ADV_STEW) :: recordRegs 0) s t ∧ Frame [.regs, .stews, .alm, .flt, .free] s t) ∧
  (∀ (s : State) (e : Fin 128) (j : WJob), s.live = true → (s.core (.engine e)).job = some j → j.budget ≠ 0 → j.comp = 0 →
    j.irq = false → (s.core (.engine e)).sb = [] → (s.recentTimes e).length < 4 →
    Completes (.jobBudgetExpiry e) s fun t =>
      (t.core (.engine e)).run = false ∧ (t.core (.engine e)).job = none ∧ (t.core (.engine e)).cache = [] ∧
      (t.core (.engine e)).dmem = (s.core (.engine e)).dmem ∧
      (t.fld (engA (e / 8)) ENG_STATUS_FAULT).testBit (e % 8) = true ∧
      t.fld (engA (e / 8)) ENG_CNT_JOB_ERRS = min (s.fld (engA (e / 8)) ENG_CNT_JOB_ERRS + 1) 0xFFFF ∧
      Logged (1 + e / 64) 0x11 2 (Req.engine e).src (s.pcOf (.engine e)) (info8 (s.fresh 8).toNat) s t ∧
      (∀ c : WCore, c ≠ .engine e → t.core c = s.core c) ∧
      RegFrame ([engA (e / 8) + ENG_STATUS, engA (e / 8) + ENG_CNT] ++ recordRegs (1 + e / 64)) s t ∧
      Frame [.regs, .engs, .clus, .alm, .flt, .free] s t) ∧
  (∀ (s : State) (e : Fin 128), s.live = true → e.val ∉ s.flt.enginesRetired →
    Completes (.engineResetDone e) s fun t =>
      (t.fld (engA (e / 8)) ENG_STATUS_FAULT).testBit (e % 8) = false ∧ (t.clu (e / 8)).blocked = [] ∧
      RegFrame [engA (e / 8) + ENG_STATUS] s t ∧ Frame [.regs, .clus] s t)

/-- O43. Clusters load run-time firmware, are gated and wake; host reads return to whoever asked. A write of ENG_FWCTL with GO
starts a load: GO reads 1. When no job runs, a good payload replaces IMEM and DMEM of the eight engines and shows its
FW_ID; a payload that cannot be read sets LD_ERR and FW_BAD; GO reads 0. An idle cluster with GATE_EN and empty queues
writes its dirty lines back and shows GATED; a wake clears it. The completion of a host read gives the instruction that
waits its bytes, or poison after an error or 50 ms; that of any other requester answers it; the request is gone. Each of
these forms ends in a next state wherever its clause's conditions on state and operands hold: engineFirmwareLoad,
engineFirmwareLoadDone, clusterGate, clusterWakeDone, pcieOutboundCompletion, outboundCompletionTimeout. (R8, R9, R298,
R299, R342) -/
def Obligations.ClustersLoadGateWakeAndHostReadsReturn : Prop :=
  (∀ (s : State) (r : Req) (c : Fin 16) (v : Word), s.live = true → s.cut r.die (1 + c / 8) = false →
    v.toNat.testBit 31 = true →
    Completes (.engineFirmwareLoad r c v) s fun t =>
      t.flag (engA c) ENG_FWCTL_GO = true ∧
      t.flag (engA c) ENG_FWCTL_LD_ERR = (s.flag (engA c) ENG_FWCTL_LD_ERR && !v.toNat.testBit 30) ∧
      (t.clu c).blocked = [] ∧
      RegFrame [engA c + ENG_FWCTL, engA c + ENG_STATUS, almA + ALM_STATUS, nvtA + NVT_STATUS] s t ∧
      Frame [.regs, .clus, .alm] s t) ∧
  (∀ (s : State) (c : Fin 16) (p : List Byte), s.live = true → s.flag (engA c) ENG_FWCTL_GO = true →
    (∀ i : Fin 8, (s.eng c i).run = false) → s.fwPayload c = (some p, s) → wrfwOk p = true →
    Completes (.engineFirmwareLoadDone c false) s fun t =>
      t.flag (engA c) ENG_FWCTL_GO = false ∧ t.flag (engA c) ENG_STATUS_FW_BAD = false ∧
      t.fld (engA c) ENG_FWID_FW_ID = fieldAt p 8 4 ∧
      (∀ i : Fin 8, t.eng c i = { s.eng c i with
        imem := bytesMap ((p.drop 32).take (fieldAt p 12 4)),
        dmem := bytesMap ((p.drop (32 + fieldAt p 12 4)).take (fieldAt p 16 4)), stale := [] }) ∧
      MemFrame (clusterAddr c (fieldAt p 24 4)) (fieldAt p 20 4) s t ∧
      (∀ k : Fin 16, k ≠ c → ∀ i : Fin 8, t.eng k i = s.eng k i) ∧
      RegFrame [engA c + ENG_FWCTL, engA c + ENG_STATUS, engA c + ENG_FWID] s t ∧ Frame [.regs, .engs, .mem] s t) ∧
  (∀ (s : State) (c : Fin 16), s.live = true → s.flag (engA c) ENG_FWCTL_GO = true →
    (∀ i : Fin 8, (s.eng c i).run = false) →
    Completes (.engineFirmwareLoadDone c true) s fun t =>
      t.flag (engA c) ENG_FWCTL_GO = false ∧ t.flag (engA c) ENG_FWCTL_LD_ERR = true ∧
      t.flag (engA c) ENG_STATUS_FW_BAD = true ∧ RegFrame [engA c + ENG_FWCTL, engA c + ENG_STATUS] s t ∧ Frame [.regs] s t) ∧
  (∀ (s : State) (c : Fin 16), s.live = true → s.flag (engA c) ENG_CTRL_GATE_EN = true →
    s.flag (engA c) ENG_STATUS_GATED = false → (∀ i : Fin 8, (s.eng c i).run = false ∧ (s.eng c i).sb = []) →
    (∀ i : Fin 8, (s.eng c i).cache.all (fun l => !l.dirty) = true) → (∀ q : Fin 4, s.qOn c q = false ∨ s.qLevel c q = 0) →
    Completes (.clusterGate c) s fun t =>
      t.flag (engA c) ENG_STATUS_GATED = true ∧ (∀ u : WCore, t.core u = s.core u) ∧
      RegFrame [engA c + ENG_STATUS] s t ∧ Frame [.regs, .engs] s t) ∧
  (∀ (s : State) (c : Fin 16) (i : Fin 8) (a : Nat) (d : List Byte), s.live = true →
    s.flag (engA c) ENG_CTRL_GATE_EN = true → s.flag (engA c) ENG_STATUS_GATED = false →
    (∀ k : Fin 8, (s.eng c k).run = false ∧ (s.eng c k).sb = []) → (s.eng c i).cache = [⟨a, d, true⟩] → d.length = 64 →
    (∀ k : Fin 8, k ≠ i → (s.eng c k).cache = []) → (∀ q : Fin 4, s.qOn c q = false ∨ s.qLevel c q = 0) →
    s.answersAt a 64 → s.cut (1 + c / 8) 0 = false →
    Completes (.clusterGate c) s fun t =>
      t.memBytes a 64 = d ∧ MemFrame a 64 s t ∧ t.flag (engA c) ENG_STATUS_GATED = true ∧
      t.eng c i = { s.eng c i with cache := [⟨a, d, false⟩] } ∧ (∀ u : WCore, u ≠ engOf c i → t.core u = s.core u) ∧
      RegFrame [engA c + ENG_STATUS] s t ∧ Frame [.regs, .engs, .mem] s t) ∧
  (∀ (s : State) (c : Fin 16), s.live = true → (s.clu c).waking = true →
    Completes (.clusterWakeDone c) s fun t =>
      t.flag (engA c) ENG_STATUS_GATED = false ∧ t.clu c = { s.clu c with waking := false } ∧
      (∀ k : Fin 16, k ≠ c → t.clu k = s.clu k) ∧ RegFrame [engA c + ENG_STATUS] s t ∧ Frame [.regs, .clus] s t) ∧
  (∀ (s : State) (e : Fin 128) (a n h : Nat), s.live = true → s.pcie.outs = [⟨.engine e, a, n⟩] → s.hostAddr a = some h →
    (s.core (.engine e)).asks = [⟨a, n, none⟩] →
    Completes (.pcieOutboundCompletion 0 false) s fun t =>
      t.pcie.outs = [] ∧
      t.core (.engine e) = { s.core (.engine e) with asks := [⟨a, n, some (some (s.hostBytes h n))⟩] } ∧
      (∀ c : WCore, c ≠ .engine e → t.core c = s.core c) ∧ Frame [.pcie, .engs] s t) ∧
  (∀ (s : State) (e : Fin 128) (a n : Nat), s.live = true → s.pcie.outs = [⟨.engine e, a, n⟩] →
    (s.core (.engine e)).asks = [⟨a, n, none⟩] →
    Completes (.outboundCompletionTimeout 0) s fun t =>
      t.pcie.outs = [] ∧ t.core (.engine e) = { s.core (.engine e) with asks := [⟨a, n, some none⟩] } ∧
      (∀ c : WCore, c ≠ .engine e → t.core c = s.core c) ∧ Frame [.pcie, .engs] s t) ∧
  (∀ (s : State) (v : Fin 8) (a n h : Nat), s.live = true → s.pcie.outs = [⟨.codec v, a, n⟩] → s.hostAddr a = some h →
    Completes (.pcieOutboundCompletion 0 false) s fun t =>
      t.pcie.outs = [] ∧ t.answer = wd (leNat ((s.hostBytes h n).take 4)) ∧ t.poison = false ∧
      Frame [.pcie, .answer, .poison] s t)

/-- O44. Each lane-wise vector instruction writes its enabled lanes, or its compare bits, and nothing else. For every core,
TYPE, mask and lane i, with x, y and d the lanes of vs1, vs2 and vd (p, q signed): lane i of vd holds what Table 12-8
gives modulo the lane width, for the integer instructions VADD to VSRA and the float instructions VFADD to VFMAX and
VCVTF, rounded once, where the mask enables it, else its old value. VFRCP and VFRSQ give the exact value times 1 + k /
2^24, k at most 4,094 in size and the model's free choice (log entry 26), rounded. A compare sets bit i of its mask
register where lane i exists and is enabled; other bits stay. VSEL takes vs1 where the mask is 1, else vs2. pc moves on by
4; nothing else changes. Each of these forms ends in a next state wherever its clause's conditions on state and operands
hold: vsel, vadd, vsub, vadds, vsubs, vmul, vmulh, vmac, vmin, vmax, vand, vor, vxor, vshl, vshr, vsra, vfadd, vfsub,
vfmul, vfma, vfmin, vfmax, vcvtf, vfrcp, vfrsq, vcmpeq, vcmplt, vcmpltu, vfcmplt, vfcmpeq. (R293, R300, R301) -/
def Obligations.WerokVectorLanes : Prop :=
  (∀ (s : State) (u : WCore) (w i b d x y : Nat) (p q : Int) (e : OpRow Nat), s.atWord u w = true → b = widthOf (bits w 7 6) →
    i < 512 / b → d = lane (s.vr u (bits w 25 21)) b i → x = lane (s.vr u (bits w 20 16)) b i →
    y = lane (s.vr u (bits w 15 11)) b i → p = toSigned b x → q = toSigned b y → opKey w = e.key →
    e ∈ ([⟨.vadd u, key 0x30 0x00, x + y⟩,
      ⟨.vsub u, key 0x30 0x01, x + 2 ^ b - y⟩,
      ⟨.vadds u, key 0x30 0x02, satS b (p + q)⟩,
      ⟨.vsubs u, key 0x30 0x03, satS b (p - q)⟩,
      ⟨.vmul u, key 0x30 0x04, x * y⟩,
      ⟨.vmulh u, key 0x30 0x05, ofSigned b (p * q / 2 ^ b)⟩,
      ⟨.vmac u, key 0x30 0x06, d + x * y⟩,
      ⟨.vmin u, key 0x30 0x07, if p ≤ q then x else y⟩,
      ⟨.vmax u, key 0x30 0x08, if p ≤ q then y else x⟩,
      ⟨.vand u, key 0x30 0x09, x &&& y⟩,
      ⟨.vor u, key 0x30 0x0A, x ||| y⟩,
      ⟨.vxor u, key 0x30 0x0B, x ^^^ y⟩,
      ⟨.vshl u, key 0x30 0x0C, x * 2 ^ (y % b)⟩,
      ⟨.vshr u, key 0x30 0x0D, x / 2 ^ (y % b)⟩,
      ⟨.vsra u, key 0x30 0x0E, ofSigned b (p / 2 ^ (y % b))⟩] : List (OpRow Nat)) →
    Completes e.cmd s fun t =>
      lane (t.vr u (bits w 25 21)) b i = (if s.enabled u w i then e.value % 2 ^ b else d) ∧ OnlyV u (bits w 25 21) s t) ∧
  (∀ (s : State) (u : WCore) (w i b d x y : Nat) (p q : Int) (e : OpRow Nat), s.atWord u w = true → b = widthOf (bits w 7 6) →
    i < 512 / b → d = lane (s.vr u (bits w 25 21)) b i → x = lane (s.vr u (bits w 20 16)) b i →
    y = lane (s.vr u (bits w 15 11)) b i → p = toSigned b x → q = toSigned b y → opKey w = e.key →
    e ∈ ([⟨.vfadd u, key 0x31 0x00, (fmtOf b).round (((fmtOf b).val x).add ((fmtOf b).val y))⟩,
      ⟨.vfsub u, key 0x31 0x01, (fmtOf b).round (((fmtOf b).val x).add ((fmtOf b).val y).neg)⟩,
      ⟨.vfmul u, key 0x31 0x02, (fmtOf b).round (((fmtOf b).val x).mul ((fmtOf b).val y))⟩,
      ⟨.vfma u, key 0x31 0x03, (fmtOf b).round (((fmtOf b).val d).add (((fmtOf b).val x).mul ((fmtOf b).val y)))⟩,
      ⟨.vfmin u, key 0x31 0x04, (fmtOf b).round (((fmtOf b).val x).minNum ((fmtOf b).val y))⟩,
      ⟨.vfmax u, key 0x31 0x05, (fmtOf b).round (((fmtOf b).val x).maxNum ((fmtOf b).val y))⟩,
      ⟨.vcvtf u, key 0x31 0x0A, (fmtOf b).round (.ofInt p)⟩] : List (OpRow Nat)) →
    Completes e.cmd s fun t =>
      lane (t.vr u (bits w 25 21)) b i = (if s.enabled u w i then e.value % 2 ^ b else d) ∧ OnlyV u (bits w 25 21) s t) ∧
  (∀ (s : State) (u : WCore) (w i b d x y : Nat) (p q : Int) (e : OpRow FVal), s.atWord u w = true → b = widthOf (bits w 7 6) →
    i < 512 / b → d = lane (s.vr u (bits w 25 21)) b i → x = lane (s.vr u (bits w 20 16)) b i →
    y = lane (s.vr u (bits w 15 11)) b i → p = toSigned b x → q = toSigned b y → opKey w = e.key →
    e ∈ ([⟨.vfrcp u, key 0x31 0x06, (FVal.fin false 1 1 0).div ((fmtOf b).val x)⟩,
      ⟨.vfrsq u, key 0x31 0x07, ((fmtOf b).val x).rsqrt⟩] : List (OpRow FVal)) →
    Completes e.cmd s fun t =>
      (∃ k : Fin 8189, lane (t.vr u (bits w 25 21)) b i =
        (if s.enabled u w i then (fmtOf b).round (e.value.mul (.fin false (2 ^ 24 + k - 4094) 1 (-24))) % 2 ^ b else d)) ∧
      OnlyV u (bits w 25 21) s t) ∧
  (∀ (s : State) (u : WCore) (w i b d x y : Nat) (p q : Int) (e : OpRow Bool), s.atWord u w = true → b = widthOf (bits w 7 6) →
    i < 64 → d = lane (s.vr u (bits w 25 21)) b i → x = lane (s.vr u (bits w 20 16)) b i →
    y = lane (s.vr u (bits w 15 11)) b i → p = toSigned b x → q = toSigned b y → opKey w = e.key →
    e ∈ ([⟨.vcmpeq u, key 0x30 0x10, decide (x = y)⟩,
      ⟨.vcmplt u, key 0x30 0x11, decide (p < q)⟩,
      ⟨.vcmpltu u, key 0x30 0x12, decide (x < y)⟩,
      ⟨.vfcmplt u, key 0x31 0x08, ((fmtOf b).val x).lt ((fmtOf b).val y)⟩,
      ⟨.vfcmpeq u, key 0x31 0x09, ((fmtOf b).val x).eq ((fmtOf b).val y)⟩] : List (OpRow Bool)) →
    Completes e.cmd s fun t =>
      (t.mr u (bits w 25 21)).testBit i =
        (if i < 512 / b ∧ s.enabled u w i then e.value else (s.mr u (bits w 25 21)).testBit i) ∧ OnlyM u (bits w 25 21) s t) ∧
  (∀ (s : State) (u : WCore) (w i b : Nat), s.atWord u w = true → b = widthOf (bits w 7 6) → i < 512 / b →
    opKey w = key 0x30 0x0F →
    Completes (.vsel u) s fun t =>
      lane (t.vr u (bits w 25 21)) b i = lane (s.vr u (if s.enabled u w i then bits w 20 16 else bits w 15 11)) b i ∧
      OnlyV u (bits w 25 21) s t)

/-- O45. Vector width changes, moves, reductions, mask moves, loads and stores write what Table 12-8 names, and nothing else.
VXTL, VXTH and VFWIDL, VFWIDH widen half of the lanes of vs1, VPACK and VFNARR narrow vs1 and vs2 into the halves of vd,
VCVTI rounds to nearest even and saturates (a NaN's result, and a widening or narrowing to a width that does not exist,
are free values: log entry 59). VBCST, VINS and VPERM write the enabled lanes; VEXT takes a lane, sign-extended; VRADD,
VRMAX, VRMIN and VFRADD reduce the enabled lanes; MSET and MGET move masks. VLD, VST, VLDS and VSTS on aligned DMEM
addresses move exactly their bytes. pc moves on by 4; nothing else changes. Each of these forms ends in a next state
wherever its clause's conditions on state and operands hold: vcvti, vfradd, mset, vld, vst, vlds, vsts, vxtl, vxth, vpack,
vfwidl, vfwidh, vfnarr, vbcst, vins, vperm, vext, vradd, vrmax, vrmin, mget. (R281, R293, R300, R301) -/
def Obligations.WerokVectorMovesReductionsAndMemory : Prop :=
  (∀ (s : State) (u : WCore) (w i b d : Nat) (e : OpRow Nat), s.atWord u w = true → b = 2 * widthOf (bits w 7 6) →
    bits w 7 6 < 2 → i < 512 / b → d = lane (s.vr u (bits w 25 21)) b i → opKey w = e.key →
    e ∈ ([⟨.vxtl u, key 0x30 0x13, ofSigned b (toSigned (b / 2) (lane (s.vr u (bits w 20 16)) (b / 2) i))⟩,
      ⟨.vxth u, key 0x30 0x14, ofSigned b (toSigned (b / 2) (lane (s.vr u (bits w 20 16)) (b / 2) (512 / b + i)))⟩] : List (OpRow Nat)) →
    Completes e.cmd s fun t =>
      lane (t.vr u (bits w 25 21)) b i = (if s.enabled u w i then e.value % 2 ^ b else d) ∧ OnlyV u (bits w 25 21) s t) ∧
  (∀ (s : State) (u : WCore) (w i b d : Nat) (e : OpRow Nat), s.atWord u w = true → b = widthOf (bits w 7 6) / 2 →
    0 < bits w 7 6 → i < 512 / b → d = lane (s.vr u (bits w 25 21)) b i → opKey w = e.key →
    e ∈ ([⟨.vpack u, key 0x30 0x15, satS b (if i < 256 / b then toSigned (2 * b) (lane (s.vr u (bits w 20 16)) (2 * b) i)
      else toSigned (2 * b) (lane (s.vr u (bits w 15 11)) (2 * b) (i - 256 / b)))⟩] : List (OpRow Nat)) →
    Completes e.cmd s fun t =>
      lane (t.vr u (bits w 25 21)) b i = (if s.enabled u w i then e.value % 2 ^ b else d) ∧ OnlyV u (bits w 25 21) s t) ∧
  (∀ (s : State) (u : WCore) (w : Nat) (e : OpRow Nat), s.atWord u w = true → opKey w = e.key → bits w 7 6 = e.value →
    e ∈ ([⟨.vxtl u, key 0x30 0x13, 2⟩, ⟨.vxth u, key 0x30 0x14, 2⟩, ⟨.vpack u, key 0x30 0x15, 0⟩] : List (OpRow Nat)) →
    Completes e.cmd s fun t =>
      t.vr u (bits w 25 21) = (s.fresh 512).toNat ∧ (∀ k : Fin 32, k.val ≠ bits w 25 21 → t.vr u k = s.vr u k) ∧
      t.core u = { s.core u with v := (t.core u).v, pc := (s.pcOf u + 4) % 2 ^ 32 } ∧
      (∀ c : WCore, c ≠ u → t.core c = s.core c) ∧ Frame [.engs, .stews, .free] s t) ∧
  (∀ (s : State) (u : WCore) (w i b d : Nat) (e : OpRow Nat), s.atWord u w = true → b = 32 → i < 16 →
    d = lane (s.vr u (bits w 25 21)) 32 i → opKey w = e.key →
    e ∈ ([⟨.vfwidl u, key 0x31 0x0C, f32.round (f16.val (lane (s.vr u (bits w 20 16)) 16 i))⟩,
      ⟨.vfwidh u, key 0x31 0x0D, f32.round (f16.val (lane (s.vr u (bits w 20 16)) 16 (16 + i)))⟩] : List (OpRow Nat)) →
    Completes e.cmd s fun t =>
      lane (t.vr u (bits w 25 21)) b i = (if s.enabled u w i then e.value % 2 ^ b else d) ∧ OnlyV u (bits w 25 21) s t) ∧
  (∀ (s : State) (u : WCore) (w i b d : Nat) (e : OpRow Nat), s.atWord u w = true → b = 16 → i < 32 →
    d = lane (s.vr u (bits w 25 21)) 16 i → opKey w = e.key →
    e ∈ ([⟨.vfnarr u, key 0x31 0x0E, f16.round (f32.val (if i < 16 then lane (s.vr u (bits w 20 16)) 32 i
      else lane (s.vr u (bits w 15 11)) 32 (i - 16)))⟩] : List (OpRow Nat)) →
    Completes e.cmd s fun t =>
      lane (t.vr u (bits w 25 21)) b i = (if s.enabled u w i then e.value % 2 ^ b else d) ∧ OnlyV u (bits w 25 21) s t) ∧
  (∀ (s : State) (u : WCore) (w i b : Nat) (x : FVal), s.atWord u w = true → b = widthOf (bits w 7 6) → i < 512 / b →
    opKey w = key 0x31 0x0B → x = (fmtOf b).val (lane (s.vr u (bits w 20 16)) b i) →
    Completes (.vcvti u) s fun t =>
      (s.enabled u w i = false → lane (t.vr u (bits w 25 21)) b i = lane (s.vr u (bits w 25 21)) b i) ∧
      (s.enabled u w i = true → x ≠ .nan → lane (t.vr u (bits w 25 21)) b i = x.toIntLane b 0) ∧
      (∀ k : Fin 32, k.val ≠ bits w 25 21 → t.vr u k = s.vr u k) ∧
      t.core u = { s.core u with v := (t.core u).v, pc := (s.pcOf u + 4) % 2 ^ 32 } ∧
      (∀ c : WCore, c ≠ u → t.core c = s.core c) ∧ Frame [.engs, .stews, .free] s t) ∧
  (∀ (s : State) (u : WCore) (w i b d : Nat) (e : OpRow Nat), s.atWord u w = true → b = widthOf (bits w 7 6) →
    i < 512 / b → d = lane (s.vr u (bits w 25 21)) b i → opKey w = e.key →
    e ∈ ([⟨.vbcst u, key 0x36 0x00, (s.xr u (bits w 20 16)).toNat⟩,
      ⟨.vins u, key 0x36 0x02, if i = (s.xr u (bits w 15 11)).toNat % (512 / b) then (s.xr u (bits w 20 16)).toNat else d⟩,
      ⟨.vperm u, key 0x36 0x03, lane (s.vr u (bits w 20 16)) b (lane (s.vr u (bits w 15 11)) b i % (512 / b))⟩] : List (OpRow Nat)) →
    Completes e.cmd s fun t =>
      lane (t.vr u (bits w 25 21)) b i = (if s.enabled u w i then e.value % 2 ^ b else d) ∧ OnlyV u (bits w 25 21) s t) ∧
  (∀ (s : State) (u : WCore) (w b : Nat) (l : List Int) (e : OpRow Word), s.atWord u w = true → b = widthOf (bits w 7 6) →
    l = ((List.range (512 / b)).filter (s.enabled u w)).map (fun i => toSigned b (lane (s.vr u (bits w 20 16)) b i)) →
    opKey w = e.key →
    e ∈ ([⟨.vext u, key 0x36 0x01, BitVec.ofInt 32 (toSigned b (lane (s.vr u (bits w 20 16)) b
      ((s.xr u (bits w 15 11)).toNat % (512 / b))))⟩, ⟨.vradd u, key 0x36 0x04, BitVec.ofInt 32 l.sum⟩,
      ⟨.vrmax u, key 0x36 0x05, BitVec.ofInt 32 (l.foldl max (-(2 : Int) ^ (b - 1)))⟩,
      ⟨.vrmin u, key 0x36 0x06, BitVec.ofInt 32 (l.foldl min ((2 : Int) ^ (b - 1) - 1))⟩,
      ⟨.mget u, key 0x36 0x09, wd (if bits w 15 11 = 0 then s.mr u (bits w 20 16) % 2 ^ 32 else s.mr u (bits w 20 16) / 2 ^ 32)⟩] :
        List (OpRow Word)) →
    Completes e.cmd s fun t => SetsX u (bits w 25 21) e.value s t) ∧
  (∀ (s : State) (u : WCore) (w b : Nat), s.atWord u w = true → b = widthOf (bits w 7 6) → opKey w = key 0x36 0x07 →
    Completes (.vfradd u) s fun t =>
      SetsX u (bits w 25 21) (wd (treeSum 6 (((List.range (512 / b)).filter (s.enabled u w)).map (fun i =>
        f32.round ((fmtOf b).val (lane (s.vr u (bits w 20 16)) b i)))))) s t) ∧
  (∀ (s : State) (u : WCore) (w : Nat), s.atWord u w = true → opKey w = key 0x36 0x08 →
    Completes (.mset u) s fun t =>
      t.mr u (bits w 25 21) = (s.xr u (bits w 20 16)).toNat + (s.xr u (bits w 15 11)).toNat * 2 ^ 32 ∧
      OnlyM u (bits w 25 21) s t) ∧
  (∀ (s : State) (u : WCore) (w : Nat) (a : Word), s.atWord u w = true → opKey w = key 0x32 0 → (s.core u).asks = [] →
    a = s.xr u (bits w 20 16) + 64 * (BitVec.ofNat 16 w).signExtend 32 → a.toNat % 64 = 0 → a.toNat < u.dmemSize →
    Completes (.vld u false) s fun t => t.vr u (bits w 25 21) = s.dmemNat u a.toNat 64 ∧ OnlyV u (bits w 25 21) s t) ∧
  (∀ (s : State) (u : WCore) (w : Nat) (a : Word), s.atWord u w = true → opKey w = key 0x33 0 →
    a = s.xr u (bits w 20 16) + 64 * (BitVec.ofNat 16 w).signExtend 32 → a.toNat % 64 = 0 → a.toNat < u.dmemSize →
    Completes (.vst u) s fun t => SetsD u a.toNat (toBytes 64 (s.vr u (bits w 25 21))) s t) ∧
  (∀ (s : State) (u : WCore) (w n : Nat), s.atWord u w = true → opKey w = key 0x34 0 → (s.core u).asks = [] →
    n = 2 ^ bits w 1 0 → (∀ i : Fin 64, i < 64 / n → s.laneAddr u w i % n = 0 ∧ s.laneAddr u w i < u.dmemSize) →
    Completes (.vlds u false) s fun t =>
      (∀ i : Fin 64, i < 64 / n → lane (t.vr u (bits w 25 21)) (8 * n) i = s.dmemNat u (s.laneAddr u w i) n) ∧
      OnlyV u (bits w 25 21) s t) ∧
  (∀ (s : State) (u : WCore) (w n : Nat), s.atWord u w = true → opKey w = key 0x35 0 → n = 2 ^ bits w 1 0 →
    (∀ i : Fin 64, i < 64 / n → s.laneAddr u w i % n = 0 ∧ s.laneAddr u w i < u.dmemSize) →
    (∀ i j : Fin 64, i < 64 / n → j < 64 / n → i ≠ j → s.laneAddr u w i ≠ s.laneAddr u w j) →
    Completes (.vsts u) s fun t =>
      (∀ i : Fin 64, i < 64 / n → t.dmemNat u (s.laneAddr u w i) n = lane (s.vr u (bits w 25 21)) (8 * n) i) ∧
      DmemFrame u ((List.range (64 / n)).map (s.laneAddr u w)) n s t ∧
      t.core u = { s.core u with dmem := (t.core u).dmem, pc := (s.pcOf u + 4) % 2 ^ 32 } ∧ OnlyCore u s t)

/-- O46. DRAM channels queue requests, issue them, return data, freeze, retrain, scrub and are diagnosed. A request joins its
queue, or is answered with poison on a frozen channel. A slot issues the waiting class-0 read, which then holds its bytes,
or the write of a batch, which stores its bytes. A read returns once, with corrected errors counted and the corrected
unit's write-back queued at class 3; after a link error it is read again, and a second one freezes the channel. A freeze
empties the queues, sets FROZEN and FREEZE, holds the snapshot and records cause 0x18. Refresh closes a row, and is not
issued in a reserved slot; MR4 shows the hottest code and derating, and over-temperature is recorded; drift changes
nothing. A retrain starts, counts steps and ends with its figure of merit; a scrub reads the next unit; diagnosis works on
a frozen channel only; CLR frees the snapshot; translation and mask writes follow R311 and R312. (What a unit's check bits
are: the model's, log entry 13.). Each of these forms ends in a next state wherever its clause's conditions on state and
operands hold: dramRequest, dramSlotIssue, dramReadReturn, commandPathParityError, dramRefresh, mr4Poll, dramDriftCheck,
dramRetrain, dramRetrainNow, dramRetrainStep, dramRetrainDone, dramScrub, dramDiagRead, dramDiagDone, dramSnapshotClear,
addressTranslate, dmcMaskWrite. (R305, R307, R311, R312, R314, R316, R319, R321, R322, R323, R324, R325) -/
def Obligations.DramChannelsQueueServeFreezeAndTrain : Prop :=
  (∀ (s : State) (n : Fin 16) (cl : Fin 4) (r : Req) (a : BitVec 34) (l : List Byte), s.live = true →
    s.chFrozen n = false → s.flag (dchA n) DCH_STATUS_IN_USE = true → a.toNat / 64 * 64 + 64 ≤ s.dataBytes →
    (s.dch n).rdQ.length < 64 →
    Completes (.dramRequest n false cl r a l) s fun t =>
      t.dch n = { s.dch n with
        rdQ := (s.dch n).rdQ ++ [⟨a.toNat, false, s.reqClass r cl, r.src, s.tick, (s.dch n).seq, [], false, false⟩],
        seq := (s.dch n).seq + 1 } ∧
      t.fld (dchA n) DCH_QLEVEL_RDQ = (s.dch n).rdQ.length + 1 ∧ (∀ k : Fin 16, k ≠ n → t.dch k = s.dch k) ∧
      RegFrame [dchA n + DCH_QLEVEL] s t ∧ Frame [.regs, .dchs] s t) ∧
  (∀ (s : State) (n : Fin 16) (cl : Fin 4) (r : Req) (a : BitVec 34) (l : List Byte), s.live = true →
    s.chFrozen n = false → s.flag (dchA n) DCH_STATUS_IN_USE = true → a.toNat + l.length ≤ s.dataBytes →
    l.length ≤ 64 - a.toNat % 64 → (s.dch n).wrQ.length < 47 → (s.dch n).level = false →
    Completes (.dramRequest n true cl r a l) s fun t =>
      t.dch n = { s.dch n with
        wrQ := (s.dch n).wrQ ++ [⟨a.toNat, true, s.reqClass r cl, r.src, s.tick, (s.dch n).seq, l, false, false⟩],
        seq := (s.dch n).seq + 1 } ∧
      t.fld (dchA n) DCH_QLEVEL_WRQ = (s.dch n).wrQ.length + 1 ∧ (∀ k : Fin 16, k ≠ n → t.dch k = s.dch k) ∧
      RegFrame [dchA n + DCH_QLEVEL] s t ∧ Frame [.regs, .dchs] s t) ∧
  (∀ (s : State) (n : Fin 16) (w : Bool) (cl : Fin 4) (r : Req) (a : BitVec 34) (l : List Byte), s.live = true →
    s.chFrozen n = true →
    Completes (.dramRequest n w cl r a l) s fun t =>
      t.sent = ⟨.dram n, 3, [b2n w, a.toNat]⟩ :: s.sent ∧ Frame [.sent] s t) ∧
  (∀ (s : State) (n : Fin 16) (sub : Bool) (busy : List Nat) (q : DramReq) (a : Nat), s.live = true → s.chFrozen n = false →
    s.flag (dchA n) DCH_STATUS_IN_USE = true → (s.dch n).rdQ = [q] → (s.dch n).wrQ = [] → (s.dch n).flight = [] →
    (s.dch n).level = false → (s.dch n).owed = [] → q.write = false → q.scrub = false → q.data = [] → q.cls = 0 →
    q.sub = b2n sub → (s.bankOf q).1 ∉ busy → s.devAddr n (q.addr / 64 * 64) = some a →
    Completes (.dramSlotIssue n sub busy) s fun t =>
      (t.dch n).rdQ = [] ∧ (t.dch n).flight = [⟨{ q with data := s.memBytes a 64 }, false⟩] ∧
      (t.dch n).rows.head? = some (q.sub * 32 + (s.bankOf q).1, (s.bankOf q).2) ∧
      (if sub then (t.dch n).slotB = ((s.dch n).slotB + 1) % 25 else (t.dch n).slotA = ((s.dch n).slotA + 1) % 25) ∧
      t.fld (dchA n) DCH_QLEVEL_RDQ = 0 ∧ t.sent = ⟨.dram n, 0, [q.addr]⟩ :: s.sent ∧
      (∀ k : Fin 16, k ≠ n → t.dch k = s.dch k) ∧ RegFrame [dchA n + DCH_QLEVEL] s t ∧ Frame [.regs, .dchs, .sent] s t) ∧
  (∀ (s : State) (n : Fin 16) (sub : Bool) (busy : List Nat) (q : DramReq) (a : Nat), s.live = true → s.chFrozen n = false →
    s.flag (dchA n) DCH_STATUS_IN_USE = true → (s.dch n).rdQ = [] → (s.dch n).wrQ = [q] → (s.dch n).flight = [] →
    (s.dch n).level = true → (s.dch n).owed = [] → q.write = true → q.sub = b2n sub → (s.bankOf q).1 ∉ busy → q.addr % 32 = 0 →
    q.data.length % 32 = 0 → s.devAddr n q.addr = some a →
    Completes (.dramSlotIssue n sub busy) s fun t =>
      t.memBytes a q.data.length = q.data ∧ MemFrame a q.data.length s t ∧ (t.dch n).wrQ = [] ∧ (t.dch n).level = false ∧
      t.fld (dchA n) DCH_QLEVEL_WRQ = 0 ∧ (∀ k : Fin 16, k ≠ n → t.dch k = s.dch k) ∧
      RegFrame [dchA n + DCH_QLEVEL] s t ∧ Frame [.regs, .dchs, .sent, .mem] s t) ∧
  (∀ (s : State) (n : Fin 16) (q : DramReq) (b : Bool) (rest : List DramFlight), s.live = true →
    (s.dch n).flight = ⟨q, b⟩ :: rest → q.write = false → q.scrub = false → (s.dch n).owed = [] → (s.dch n).wrQ.length < 47 →
    (s.dch n).level = false →
    Completes (.dramReadReturn n .corrected [.clean, .corrected]) s fun t =>
      t.dch n = { s.dch n with
        flight := rest, seq := (s.dch n).seq + 1,
        wrQ := (s.dch n).wrQ ++
          [⟨q.addr / 64 * 64 + 32, true, 3, srcOf 0 0x30 n, s.tick, (s.dch n).seq, [], false, true⟩] } ∧
      t.sent = ⟨.dram n, 2, q.addr :: q.data.map (·.toNat)⟩ :: s.sent ∧
      t.fld (dchA n) DCH_CECNT_LINK_CE = min (s.fld (dchA n) DCH_CECNT_LINK_CE + 1) 0xFFFF ∧
      t.fld (dchA n) DCH_CECNT_INLINE_CE = min (s.fld (dchA n) DCH_CECNT_INLINE_CE + 1) 0xFFFF ∧
      (∀ k : Fin 16, k ≠ n → t.dch k = s.dch k) ∧ RegFrame [dchA n + DCH_CECNT, dchA n + DCH_QLEVEL] s t ∧
      Frame [.regs, .dchs, .sent] s t) ∧
  (∀ (s : State) (n : Fin 16) (q : DramReq) (rest : List DramFlight) (x : List InlineEcc), s.live = true →
    (s.dch n).flight = ⟨q, false⟩ :: rest →
    Completes (.dramReadReturn n .failed x) s fun t =>
      t.dch n = { s.dch n with flight := ⟨q, true⟩ :: rest } ∧
      t.fld (dchA n) DCH_CNT_LINK_RETRY = min (s.fld (dchA n) DCH_CNT_LINK_RETRY + 1) 0xFFFF ∧
      (∀ k : Fin 16, k ≠ n → t.dch k = s.dch k) ∧ RegFrame [dchA n + DCH_CNT] s t ∧ Frame [.regs, .dchs] s t) ∧
  (∀ (s : State) (n : Fin 16) (w : Bool), s.live = true → s.chFrozen n = false → (s.dch n).held = false →
    ((List.range 16).filter (fun k => k ≠ n.val && s.chFrozen k)).length < 2 →
    Completes (.commandPathParityError n w none) s fun t =>
      t.chFrozen n = true ∧ (t.fld dmcA DMC_STATUS_FROZEN).testBit n = true ∧ t.flag dmcA DMC_EVT_FREEZE = true ∧
      (t.dch n).rdQ = [] ∧ (t.dch n).wrQ = [] ∧ (t.dch n).flight = [] ∧ (t.dch n).owed = [] ∧ (t.dch n).held = true ∧
      t.fld (dchA n) DCH_UE_INFO_CAUSE = 3 ∧ t.rd (dchA n + DCH_UE_ADDR_LO) = 0 ∧ t.fld (dchA n) DCH_UE_SRC_REQUESTER = 0 ∧
      t.sent.length = s.sent.length + (s.dch n).rdQ.length + (s.dch n).wrQ.length + (s.dch n).flight.length ∧
      Logged 0 0x18 2 (srcOf 0 0x30 n) 0 (info8 n) s t ∧ (∀ k : Fin 16, k ≠ n → t.dch k = s.dch k) ∧
      BlockFrame [dchA n, dmcA, fltA 0, almA, nvtA] s t ∧ Frame [.regs, .dchs, .sent, .tbl, .alm, .flt] s t) ∧
  (∀ (s : State) (n : Fin 16) (sub : Bool) (bank : Fin 32), s.live = true → s.flag (dchA n) DCH_STATUS_IN_USE = true →
    reservedSlot ((s.dch n).slot (b2n sub)) = false →
    Completes (.dramRefresh n sub bank) s fun t =>
      t.dch n = { s.dch n with rows := (s.dch n).rows.filter (fun r => r.1 ≠ b2n sub * 32 + bank) } ∧
      t.sent = ⟨.dram n, 4, [b2n sub * 32 + bank]⟩ :: s.sent ∧ (∀ k : Fin 16, k ≠ n → t.dch k = s.dch k) ∧
      Frame [.dchs, .sent] s t) ∧
  (∀ (s : State) (n : Fin 16) (sub : Bool) (bank : Fin 32), s.live = true →
    reservedSlot ((s.dch n).slot (b2n sub)) = true →
    Completes (.dramRefresh n sub bank) s fun t => t = s) ∧
  (∀ (s : State) (n : Fin 16) (d e : DieTemp), s.live = true → s.flag (dchA n) DCH_STATUS_IN_USE = true → d.beyond = false →
    e.beyond = true →
    Completes (.mr4Poll n [d, e]) s fun t =>
      t.fld (dchA n) DCH_TEMP_MR4 = max d.code.toNat e.code.toNat ∧ t.flag (dchA n) DCH_STATUS_DERATE = (d.derate || e.derate) ∧
      n.val ∈ t.thm.dramHot ∧ t.flag thmA THM_STATUS_DRAM_HOT = true ∧ Logged 0 0x19 1 (srcOf 0 0x30 n) 0 (info8 n) s t ∧
      RegFrame ([dchA n + DCH_TEMP, dchA n + DCH_STATUS, thmA + THM_STATUS, thmA + THM_EVT] ++ recordRegs 0) s t ∧
      Frame [.regs, .thm, .alm, .flt] s t) ∧
  (∀ (s : State) (n : Fin 16), Completes (.dramDriftCheck n) s fun t => t = s) ∧
  (∀ (s : State) (n : Fin 16), s.live = true → s.flag (dchA n) DCH_STATUS_IN_USE = true → (s.dch n).retraining = false →
    Completes (.dramRetrain n) s fun t =>
      t.dch n = { s.dch n with retraining := true, steps := 0 } ∧ (∀ k : Fin 16, k ≠ n → t.dch k = s.dch k) ∧
      Frame [.dchs] s t) ∧
  (∀ (s : State) (r : Req) (n : Fin 16), s.live = true → s.flag (dchA n) DCH_STATUS_IN_USE = true →
    (s.dch n).retraining = false →
    Completes (.dramRetrainNow r n) s fun t =>
      (t.dch n).retraining = true ∧ (t.dch n).steps = 0 ∧ t.flag (dchA n) DCH_RETRAIN_NOW = true ∧
      t.fld (dchA n) DCH_RETRAIN_PERIOD_MS = s.fld (dchA n) DCH_RETRAIN_PERIOD_MS ∧
      (∀ k : Fin 16, k ≠ n → t.dch k = s.dch k) ∧
      RegFrame [dchA n + DCH_RETRAIN, almA + ALM_STATUS, nvtA + NVT_STATUS] s t ∧ Frame [.regs, .dchs, .alm] s t) ∧
  (∀ (s : State) (n : Fin 16), s.live = true → (s.dch n).retraining = true → s.chFrozen n = false →
    reservedSlot (s.dch n).slotA = false → reservedSlot (s.dch n).slotB = false →
    ((s.dch n).stepAt = none ∨ (s.dch n).stepAt.getD 0 + 8000 ≤ s.tick) →
    Completes (.dramRetrainStep n) s fun t =>
      t.dch n = { s.dch n with steps := (s.dch n).steps + 1, stepAt := some s.tick } ∧ (∀ k : Fin 16, k ≠ n → t.dch k = s.dch k) ∧
      Frame [.dchs] s t) ∧
  (∀ (s : State) (n : Fin 16) (x : Bool) (f : BitVec 8), s.live = true → (s.dch n).retraining = true →
    f.toNat < s.fld (dchA n) DCH_FOM_FOM_MIN →
    Completes (.dramRetrainDone n x f) s fun t =>
      (t.dch n).retraining = false ∧ t.flag (dchA n) DCH_RETRAIN_NOW = false ∧ t.fld (dchA n) DCH_FOM_FOM = f.toNat ∧
      t.flag (dchA n) DCH_STATUS_RETRAIN_FAIL = (!x || s.flag (dchA n) DCH_STATUS_RETRAIN_FAIL) ∧
      t.flag (dchA n) DCH_STATUS_DEGRADED = true ∧ (t.fld dmcA DMC_STATUS_DEGRADED).testBit n = true ∧
      t.flag dmcA DMC_EVT_DEGRADE = true ∧ Logged 0 0x19 1 (srcOf 0 0x30 n) 0 (info8 n) s t ∧
      (∀ k : Fin 16, k ≠ n → t.dch k = s.dch k) ∧ BlockFrame [dchA n, dmcA, fltA 0, almA, nvtA] s t ∧
      Frame [.regs, .dchs, .alm, .flt] s t) ∧
  (∀ (s : State) (n : Fin 16), s.live = true → s.thm.pause = false → s.fld dmcA DMC_CTRL_SCRUB_HOURS ≠ 0 →
    s.chFrozen n = false → s.flag (dchA n) DCH_STATUS_IN_USE = true → (s.dch n).rdQ.length < 64 →
    Completes (.dramScrub n) s fun t =>
      t.dch n = { s.dch n with
        rdQ := (s.dch n).rdQ ++ [⟨32 * (s.dch n).scrubUnit, false, 3, srcOf 0 0x30 n, s.tick, (s.dch n).seq, [], true, false⟩],
        seq := (s.dch n).seq + 1,
        scrubUnit := if s.dataBytes ≤ 32 * ((s.dch n).scrubUnit + 1) then 0 else (s.dch n).scrubUnit + 1 } ∧
      (∀ k : Fin 16, k ≠ n → t.dch k = s.dch k) ∧ RegFrame [dchA n + DCH_QLEVEL] s t ∧ Frame [.regs, .dchs] s t) ∧
  (∀ (s : State) (r : Req) (n : Fin 16), s.live = true →
    Completes (.dramDiagRead r n) s fun t =>
      (t.dch n).diag = ((s.dch n).diag || s.chFrozen n) ∧
      t.flag (dchA n) DCH_DIAGCTL_GO = (s.chFrozen n || s.flag (dchA n) DCH_DIAGCTL_GO) ∧
      (∀ k : Fin 16, k ≠ n → t.dch k = s.dch k) ∧ RegFrame [dchA n + DCH_DIAGCTL] s t ∧ Frame [.regs, .dchs] s t) ∧
  (∀ (s : State) (n : Fin 16) (u a : Nat), s.live = true → (s.dch n).diag = true → u = s.fld (dchA n) DCH_DIAGADDR_UNIT →
    32 * u < s.dataBytes → u ∉ (s.dch n).badUnits → s.devAddr n (32 * u) = some a →
    Completes (.dramDiagDone n) s fun t =>
      (∀ i : Fin 8, (t.rd (dchA n + DCH_DIAGDATA + 4 * i)).toNat = s.memNat (a + 4 * i) 4) ∧
      t.fld (dchA n) DCH_DIAGDATA8_CHECK = s.unitCheck n u ∧ t.flag (dchA n) DCH_DIAGCTL_DONE = true ∧
      t.flag (dchA n) DCH_DIAGCTL_GO = false ∧ t.dch n = { s.dch n with diag := false } ∧
      (∀ k : Fin 16, k ≠ n → t.dch k = s.dch k) ∧ BlockFrame [dchA n] s t ∧ Frame [.regs, .dchs] s t) ∧
  (∀ (s : State) (r : Req) (n : Fin 16), s.live = true →
    Completes (.dramSnapshotClear r n) s fun t =>
      (t.dch n).held = false ∧ t.rd (dchA n + DCH_UE_ADDR_LO) = 0 ∧ t.rd (dchA n + DCH_UE_ADDR_HI) = 0 ∧
      t.rd (dchA n + DCH_UE_INFO) = 0 ∧ t.rd (dchA n + DCH_UE_SRC) = 0 ∧ t.flag (dchA n) DCH_STATUS_NESTED = false ∧
      t.chFrozen n = s.chFrozen n ∧ (∀ i : Fin 512, t.tget .snapshot n i = 0) ∧
      (∀ k : Fin 16, k ≠ n → t.dch k = s.dch k) ∧ BlockFrame [dchA n] s t ∧ Frame [.regs, .dchs, .tbl] s t) ∧
  (∀ (s : State) (r : Req) (v : Word) (a : Nat), s.live = true →
    a = v.toNat % 256 * 2 ^ 32 + s.fld dmcA DMC_XLATE_LO_ADDR → a < s.usableBytes → s.pairs ≠ [] →
    Completes (.addressTranslate r v) s fun t =>
      t.fld dmcA DMC_XLATE_RES0_CH = (s.chanOf a).1 ∧ t.fld dmcA DMC_XLATE_RES0_INVALID = 0 ∧
      t.fld dmcA DMC_XLATE_RES0_SUB = bits (s.chanOf a).2 6 6 ∧ t.fld dmcA DMC_XLATE_RES0_COL = bits (s.chanOf a).2 11 7 ∧
      t.fld dmcA DMC_XLATE_RES0_BANK = (s.cutAddr (s.chanOf a).2).2.2.1 ∧
      RegFrame [dmcA + DMC_XLATE_HI, dmcA + DMC_XLATE_RES0, dmcA + DMC_XLATE_RES1] s t ∧ Frame [.regs] s t) ∧
  (∀ (s : State) (r : Req) (v : Word), s.live = true → s.usableBytes ≤ v.toNat % 256 * 2 ^ 32 + s.fld dmcA DMC_XLATE_LO_ADDR →
    Completes (.addressTranslate r v) s fun t =>
      t.fld dmcA DMC_XLATE_RES0_INVALID = 1 ∧
      RegFrame [dmcA + DMC_XLATE_HI, dmcA + DMC_XLATE_RES0, dmcA + DMC_XLATE_RES1] s t ∧ Frame [.regs, .free] s t) ∧
  (∀ (s : State) (r : Req) (k : Fin 4) (v : Word), s.live = true → s.locked = false → v.toNat % 16 = 2 ^ k.val →
    Completes (.dmcMaskWrite r true k v) s fun t =>
      t.rd (dmcA + DMC_BANK_MASK + 4 * k) = (s.rd (dmcA + DMC_BANK_MASK + 4 * k) &&& 0xFFC00000) ||| (v &&& 0x003FFFFF) ∧
      t.masks = s.masks ∧ RegFrame [dmcA + DMC_BANK_MASK + 4 * k] s t ∧ Frame [.regs] s t) ∧
  (∀ (s : State) (r : Req) (k : Fin 4) (v : Word), s.live = true → s.locked = false → v.toNat % 16 ≠ 2 ^ k.val →
    Completes (.dmcMaskWrite r true k v) s fun t =>
      t.flag dmcA DMC_EVT_CFG_ERR = true ∧ RegFrame [dmcA + DMC_EVT] s t ∧ Frame [.regs] s t)

/-- O47. Hub DMA channels arm, run, pause, abort, move their bytes and report errors. ARM of an idle channel whose shadow set
is not empty loads it and runs; while it runs the set waits; an empty one sets CFG_ERR. DISARM drops the waiting set;
ABORT ends ERROR with its cause, and drops the set of a paused channel. PAUSE of a running channel with nothing in flight
leaves it PAUSED, and the end of the pause runs it again; PAUSE_ALL does so for every channel. A word of the shadow set
changes that set only, or is refused while one waits. A read is issued for the next block, in the channel's turn; its
answer stores its bytes at the destination; an error answer leads to ERROR with cause 2 and a record; the last write's
answer sets DONE and the channel is idle. Each of these forms ends in a next state wherever its clause's conditions on
state and operands hold: dmaArm, dmaDisarm, dmaAbort, dmaPause, dmaUnpause, dmaPauseAll, dmaUnpauseAll, dmaShadowWrite,
dmaReadIssue, dmaReadReturn, dmaWriteResponse. (R326, R327, R328, R329, R330, R331, R333, R334, R335, R336, R337, R338) -/
def Obligations.HubDmaChannelsRunPauseAndFail : Prop :=
  (∀ (s : State) (r : Req) (n : Fin 32), s.live = true → s.dmaState n = 0 → s.dmaPaused n = false →
    s.flag (dmaA n) DMA_STATUS_SHADOW_FULL = false → (s.dma n).shadow.rowBytes ≠ 0 → (s.dma n).shadow.rows ≠ 0 →
    Completes (.dmaArm r n) s fun t =>
      t.dmaState n = 1 ∧ t.dma n = { shadow := (s.dma n).shadow, set := (s.dma n).shadow, turn := (s.dma n).turn } ∧
      t.flag (dmaA n) DMA_STATUS_SHADOW_FULL = false ∧ (t.fld dmagA DMA_BUSY_BUSY).testBit n = true ∧
      (∀ k : Fin 32, k ≠ n → t.dma k = s.dma k) ∧ BlockFrame [dmaA n - dmaA n % 0x400, dmagA] s t ∧
      (∀ k : Fin 32, k ≠ n → t.dmaState k = s.dmaState k) ∧ Frame [.regs, .dmas] s t) ∧
  (∀ (s : State) (r : Req) (n : Fin 32), s.live = true → s.dmaPaused n = false → s.dmaState n ≠ 2 → s.dmaState n ≠ 3 →
    ((s.dma n).shadow.rowBytes = 0 ∨ (s.dma n).shadow.rows = 0) →
    Completes (.dmaArm r n) s fun t =>
      t.flag (dmaA n) DMA_STATUS_CFG_ERR = true ∧ t.dmaState n = s.dmaState n ∧
      RegFrame [dmaA n + DMA_CTRL, dmaA n + DMA_STATUS] s t ∧ Frame [.regs] s t) ∧
  (∀ (s : State) (r : Req) (n : Fin 32), s.live = true → s.dmaState n = 1 → s.dmaPaused n = false →
    s.flag (dmaA n) DMA_STATUS_SHADOW_FULL = false → (s.dma n).shadow.rowBytes ≠ 0 → (s.dma n).shadow.rows ≠ 0 →
    Completes (.dmaArm r n) s fun t =>
      t.flag (dmaA n) DMA_STATUS_SHADOW_FULL = true ∧ t.dmaState n = 1 ∧
      RegFrame [dmaA n + DMA_CTRL, dmaA n + DMA_STATUS] s t ∧ Frame [.regs] s t) ∧
  (∀ (s : State) (r : Req) (n : Fin 32), s.live = true → s.dmaPaused n = false → s.dmaState n ≠ 2 → s.dmaState n ≠ 3 →
    Completes (.dmaDisarm r n) s fun t =>
      t.flag (dmaA n) DMA_STATUS_SHADOW_FULL = false ∧ t.dmaState n = s.dmaState n ∧
      RegFrame [dmaA n + DMA_CTRL, dmaA n + DMA_STATUS] s t ∧ Frame [.regs] s t) ∧
  (∀ (s : State) (r : Req) (n : Fin 32), s.live = true → s.dmaState n = 4 → s.flag (dmaA n) DMA_STATUS_SHADOW_FULL = false →
    Completes (.dmaAbort r n) s fun t =>
      t.dmaState n = 0 ∧ t.fld (dmaA n) DMA_STATUS_CAUSE = 0 ∧ t.flag (dmaA n) DMA_STATUS_NESTED = false ∧
      t.rd (dmaA n + DMA_ERRADDR) = 0 ∧ t.dma n = { s.dma n with reads := [], writes := [], err := none } ∧
      (t.fld dmagA DMA_BUSY_BUSY).testBit n = false ∧ (∀ k : Fin 32, k ≠ n → t.dma k = s.dma k) ∧ Frame [.regs, .dmas] s t) ∧
  (∀ (s : State) (r : Req) (n : Fin 32), s.live = true → s.dmaState n = 3 → s.flag (dmaA n) DMA_STATUS_SHADOW_FULL = false →
    Completes (.dmaAbort r n) s fun t =>
      t.dmaState n = 0 ∧ t.dma n = { shadow := (s.dma n).shadow, turn := (s.dma n).turn } ∧
      (∀ k : Fin 32, k ≠ n → t.dma k = s.dma k) ∧ Frame [.regs, .dmas] s t) ∧
  (∀ (s : State) (r : Req) (n : Fin 32), s.live = true → s.dmaState n = 1 → s.dmaPaused n = false → (s.dma n).reads = [] →
    (s.dma n).writes = [] → (s.dma n).err = none → (s.dma n).wRow < (s.dma n).set.rows →
    (s.dma n).wOff < (s.dma n).set.rowBytes →
    Completes (.dmaPause r n) s fun t =>
      t.dmaState n = 3 ∧ t.flag (dmaA n) DMA_CTRL_PAUSE = true ∧ t.dmas = s.dmas ∧
      RegFrame [dmaA n + DMA_CTRL, dmaA n + DMA_STATUS, dmagA + DMA_BUSY] s t ∧ Frame [.regs] s t) ∧
  (∀ (s : State) (r : Req) (n : Fin 32), s.live = true → s.dmaState n = 3 → s.flag dmagA DMA_GCTL_PAUSE_ALL = false →
    (s.dma n).err = none → (s.dma n).wRow < (s.dma n).set.rows →
    Completes (.dmaUnpause r n) s fun t =>
      t.dmaState n = 1 ∧ t.flag (dmaA n) DMA_CTRL_PAUSE = false ∧ t.dmas = s.dmas ∧
      RegFrame [dmaA n + DMA_CTRL, dmaA n + DMA_STATUS, dmagA + DMA_BUSY] s t ∧ Frame [.regs] s t) ∧
  (∀ (s : State) (r : Req) (n : Fin 32), s.live = true → s.dmaState n = 1 → (s.dma n).reads = [] →
    (s.dma n).writes = [] → (s.dma n).err = none → (s.dma n).wRow < (s.dma n).set.rows →
    (s.dma n).wOff < (s.dma n).set.rowBytes → (∀ k : Fin 32, k ≠ n → s.dmaState k = 0) →
    Completes (.dmaPauseAll r) s fun t =>
      t.flag dmagA DMA_GCTL_PAUSE_ALL = true ∧ t.dmaState n = 3 ∧ (∀ k : Fin 32, k ≠ n → t.dmaState k = 0) ∧ t.dmas = s.dmas ∧
      RegFrame [dmaA n + DMA_STATUS, dmagA + DMA_GCTL, dmagA + DMA_BUSY] s t ∧ Frame [.regs] s t) ∧
  (∀ (s : State) (r : Req) (n : Fin 32), s.live = true → s.dmaState n = 3 → s.flag (dmaA n) DMA_CTRL_PAUSE = false →
    (s.dma n).err = none → (s.dma n).wRow < (s.dma n).set.rows → (∀ k : Fin 32, k ≠ n → s.dmaState k = 0) →
    Completes (.dmaUnpauseAll r) s fun t =>
      t.flag dmagA DMA_GCTL_PAUSE_ALL = false ∧ t.dmaState n = 1 ∧ (∀ k : Fin 32, k ≠ n → t.dmaState k = 0) ∧ t.dmas = s.dmas ∧
      RegFrame [dmaA n + DMA_STATUS, dmagA + DMA_GCTL, dmagA + DMA_BUSY] s t ∧ Frame [.regs] s t) ∧
  (∀ (s : State) (r : Req) (n : Fin 32) (k : Fin 7) (v : Word), s.live = true →
    s.flag (dmaA n) DMA_STATUS_SHADOW_FULL = false →
    Completes (.dmaShadowWrite r n k v) s fun t =>
      t.dma n = { s.dma n with shadow := (s.dma n).shadow.put k v } ∧ (∀ j : Fin 32, j ≠ n → t.dma j = s.dma j) ∧
      Frame [.dmas] s t) ∧
  (∀ (s : State) (r : Req) (n : Fin 32) (k : Fin 7) (v : Word), s.live = true →
    s.flag (dmaA n) DMA_STATUS_SHADOW_FULL = true →
    Completes (.dmaShadowWrite r n k v) s fun t =>
      t.flag (dmaA n) DMA_STATUS_CFG_ERR = true ∧ RegFrame [dmaA n + DMA_STATUS] s t ∧ Frame [.regs] s t) ∧
  (∀ (s : State) (n : Fin 32) (a m : Nat), s.live = true → s.dmaState n = 1 → (s.dma n).rRow < (s.dma n).set.rows →
    (s.dma n).err = none → (s.dma n).reads = [] → a = ((s.dma n).set.srcRow (s.dma n).rRow + (s.dma n).rOff) % 2 ^ 40 →
    m = min (64 - a % 64) ((s.dma n).set.rowBytes - (s.dma n).rOff) → regionOf a = .dram → a + m ≤ s.usableBytes →
    (s.dma n).rOff + m < (s.dma n).set.rowBytes → (∀ k : Fin 32, s.dmaReads k = true → (s.dma n).turn ≤ (s.dma k).turn) →
    Completes (.dmaReadIssue n) s fun t =>
      t.dma n = { s.dma n with
        reads := [⟨(s.dma n).rRow, (s.dma n).rOff, m, none⟩], rOff := (s.dma n).rOff + m,
        turn := (t.dma n).turn } ∧ (∀ k : Fin 32, (s.dma k).turn < (t.dma n).turn) ∧
      (∀ k : Fin 32, k ≠ n → t.dma k = s.dma k) ∧ Frame [.dmas] s t) ∧
  (∀ (s : State) (n k : Fin 32), s.live = true → s.dmaReads k = true → (s.dma k).turn < (s.dma n).turn →
    Completes (.dmaReadIssue n) s fun t => t = s) ∧
  (∀ (s : State) (n : Fin 32) (a d : Nat), s.live = true → s.dmaState n = 1 → (s.dma n).set.rows = 1 →
    (s.dma n).set.rowBytes = 64 → (s.dma n).set.src = a → (s.dma n).set.dst = d → (s.dma n).reads = [⟨0, 0, 64, none⟩] →
    (s.dma n).rRow = 1 → (s.dma n).rOff = 0 → (s.dma n).wRow = 0 → (s.dma n).wOff = 0 → (s.dma n).writes = [] →
    (s.dma n).err = none → a % 64 = 0 → d % 64 = 0 → a ≠ d → s.answersAt a 64 → s.answersAt d 64 →
    Completes (.dmaReadReturn n 0 .ok) s fun t =>
      t.memBytes d 64 = s.memBytes a 64 ∧ MemFrame d 64 s t ∧ (t.dma n).writes = [⟨d, true⟩] ∧ (t.dma n).reads = [] ∧
      (t.dma n).wRow = 1 ∧ t.dmaState n = 1 ∧ (∀ k : Fin 32, k ≠ n → t.dma k = s.dma k) ∧
      BlockFrame [dmaA n - dmaA n % 0x400, dmagA] s t ∧ Frame [.regs, .dmas, .dmaRest, .mem] s t) ∧
  (∀ (s : State) (n : Fin 32) (m : Nat), s.live = true → s.dmaState n = 1 → (s.dma n).reads = [⟨0, 0, m, none⟩] →
    (s.dma n).wRow = 0 → (s.dma n).wOff = 0 → (s.dma n).writes = [] → (s.dma n).err = none → 0 < m →
    m ≤ (s.dma n).set.rowBytes → (s.dma n).set.rows = 1 → regionOf (s.dma n).set.src = .cluster 0 →
    s.fld (dmaA n) DMA_STATUS_CAUSE = 0 →
    Completes (.dmaReadReturn n 0 .error) s fun t =>
      t.dmaState n = 4 ∧ t.fld (dmaA n) DMA_STATUS_CAUSE = 2 ∧ (t.fld dmagA DMA_ERR_ERR).testBit n = true ∧
      t.rd (dmaA n + DMA_ERRADDR) = wd (s.dma n).set.src ∧
      Logged 0 0x1A 1 (srcOf 0 0x38 n) (s.dma n).set.src (info8 2) s t ∧ t.mem = s.mem ∧
      (∀ k : Fin 32, k ≠ n → t.dma k = s.dma k) ∧ Frame [.regs, .dmas, .alm, .flt] s t) ∧
  (∀ (s : State) (n : Fin 32) (a : Nat), s.live = true → s.dmaState n = 1 → (s.dma n).writes = [⟨a, true⟩] →
    (s.dma n).reads = [] → (s.dma n).err = none → (s.dma n).set.rows ≤ (s.dma n).wRow →
    s.flag (dmaA n) DMA_STATUS_SHADOW_FULL = false →
    Completes (.dmaWriteResponse n 0 false) s fun t =>
      t.dmaState n = 0 ∧ (t.fld dmagA DMA_DONE_DONE).testBit n = true ∧ (t.fld dmagA DMA_BUSY_BUSY).testBit n = false ∧
      t.dma n = { s.dma n with writes := [] } ∧ (∀ k : Fin 32, k ≠ n → t.dma k = s.dma k) ∧
      RegFrame [dmaA n + DMA_STATUS, dmagA + DMA_DONE, dmagA + DMA_BUSY] s t ∧ Frame [.regs, .dmas] s t)

/-- O48. The time counter gains delta a tick, is latched, stepped and slewed. A tick adds delta, the clamped sum of the base
increment and the slew step, and the remaining slew falls by what was applied; n ticks with no slew add n base increments;
the tick that ends a second moves the CTU counts to VCC_LOAD. A read of TIME_RD_NS latches SEC and FRAC. GO loads SEC and
NS with FRAC 0, clears the slew, sets STEPPED, lowers both carried offsets by the size of the step and moves the kept
stamps with it; NS of a second or more is refused. TIME_SLEW adds to the slew, and beyond 8 ms is refused. (The amount
kept below FRAC is the model's own, log entry 30.). Each of these forms ends in a next state wherever its clause's
conditions on state and operands hold: timeTick, timeReadLatch, timeStep, slewWrite. (R389, R390, R391, R392, R393) -/
def Obligations.TimeCounterTicksStepsAndSlews : Prop :=
  (∀ (s : State) (δ : Int), s.live = true → s.time.ns < 1000000000 → s.time.frac < 2 ^ 32 → s.time.rem < 2 ^ 40 * 10000000 →
    s.time.sec + 1 < 2 ^ 64 → (s.tick + 1) % 400000000 ≠ 0 →
    δ = clampInt (24975 * 1000 * 2 ^ 72) (25025 * 1000 * 2 ^ 72) (s.baseInc + s.slewStep) →
    Completes (.timeTick 1) s fun t =>
      (t.time.fine : Int) = s.time.fine + δ ∧ t.time.slew = s.time.slew - (δ - s.baseInc) ∧ t.time.ns < 1000000000 ∧
      t.time.frac < 2 ^ 32 ∧ t.time.rate = s.time.rate ∧ t.time.dom0 = s.time.dom0 ∧ t.time.dom1 = s.time.dom1 ∧
      t.time.leader = s.time.leader ∧ t.tick = s.tick + 1 ∧ Frame [.time, .tick] s t) ∧
  (∀ (s : State) (n : Nat), s.live = true → s.time.ns < 1000000000 → s.time.frac < 2 ^ 32 → s.time.rem < 2 ^ 40 * 10000000 →
    s.time.sec + n < 2 ^ 64 → (s.tick + n) / 400000000 = s.tick / 400000000 → s.time.slew = 0 →
    Completes (.timeTick n) s fun t =>
      (t.time.fine : Int) = s.time.fine + n * s.baseInc ∧ t.time.slew = 0 ∧ t.time.ns < 1000000000 ∧ t.time.frac < 2 ^ 32 ∧
      t.time.rate = s.time.rate ∧ t.tick = s.tick + n ∧ Frame [.time, .tick] s t) ∧
  (∀ (s : State), s.live = true → (s.tick + 1) % 400000000 = 0 →
    Completes (.timeTick 1) s fun t =>
      (∀ v : Fin 8, t.fld (vccA v) VCC_LOAD_CTUS = min (s.vcc v).ctus 0xFFFFFFFF ∧ t.vcc v = { s.vcc v with ctus := 0 }) ∧
      RegFrame ((List.range 8).map (fun v => vccA v + VCC_LOAD)) s t ∧ Frame [.regs, .vccs, .time, .tick] s t) ∧
  (∀ (s : State) (r : Req), s.live = true →
    Completes (.timeReadLatch r) s fun t =>
      t.answer = wd s.time.ns ∧ t.rd (timeA + TIME_RD_SEC_LO) = wd s.time.sec ∧
      t.rd (timeA + TIME_RD_SEC_HI) = wd (s.time.sec / 2 ^ 32) ∧ t.rd (timeA + TIME_RD_FRAC) = wd s.time.frac ∧
      RegFrame [timeA + TIME_RD_SEC_LO, timeA + TIME_RD_SEC_HI, timeA + TIME_RD_FRAC] s t ∧ Frame [.regs, .answer] s t) ∧
  (∀ (s : State) (r : Req), s.live = true → 1000000000 ≤ s.fld timeA TIME_SET_NS_NS →
    Completes (.timeStep r) s fun t =>
      t.flag timeA TIME_STATUS_CFG_ERR = true ∧ RegFrame [timeA + TIME_STATUS] s t ∧ Frame [.regs] s t) ∧
  (∀ (s : State) (r : Req) (sec ns : Nat) (d : Int), s.live = true → s.fld timeA TIME_SET_NS_NS = ns → ns < 1000000000 →
    sec = (s.rd (timeA + TIME_SET_SEC_HI)).toNat * 2 ^ 32 + (s.rd (timeA + TIME_SET_SEC_LO)).toNat →
    d = ((sec * 1000000000 + ns : Nat) : Int) - s.nowNs →
    Completes (.timeStep r) s fun t =>
      t.time.sec = sec ∧ t.time.ns = ns ∧ t.time.frac = 0 ∧ t.time.slew = 0 ∧ t.time.rate = s.time.rate ∧
      t.flag timeA TIME_STATUS_STEPPED = true ∧
      t.time.dom0.ofs = s.time.dom0.ofs - ((t.time.fine : Int) - s.time.fine) ∧
      t.time.dom1.ofs = s.time.dom1.ofs - ((t.time.fine : Int) - s.time.fine) ∧
      (∀ p : Fin 12, t.camp p = { s.camp p with
        fvNs := (s.camp p).fvNs.map (fun n => ((n : Int) + d).toNat), stepMark := some ((s.camp p).frame, (s.camp p).lines),
        fvFallNs := (s.camp p).fvFallNs.map (fun n => ((n : Int) + d).toNat),
        lineAt := (s.camp p).lineAt + (t.now32 - s.now32) }) ∧
      (∀ p : Fin 12, (t.cal p).waiting =
        (s.cal p).waiting.map (fun x => { x with deadline := ((x.deadline : Int) + d).toNat })) ∧
      (∀ h : Fin 4, ((t.head h).target.map (·.ns)) = (s.head h).target.map (fun x => ((x.ns : Int) + d).toNat)) ∧
      (∀ a : Fin 48, ((t.axis a).hist.map (·.ns)) = (s.axis a).hist.map (fun e => ((e.ns : Int) + d).toNat)) ∧
      RegFrame [timeA + TIME_STATUS] s t ∧ Frame [.regs, .time, .camps, .cals, .twcs, .heads, .axes, .poses] s t) ∧
  (∀ (s : State) (r : Req) (v : Word) (n : Int), s.live = true → n = s.time.slew + v.toInt * (2 ^ 64 * 10000000) →
    n ≤ 8000000 * (2 ^ 72 * 10000000) → -(8000000 * (2 ^ 72 * 10000000)) ≤ n →
    Completes (.slewWrite r v) s fun t => t.time = { s.time with slew := n } ∧ Frame [.time] s t) ∧
  (∀ (s : State) (r : Req) (v : Word) (n : Int), s.live = true → n = s.time.slew + v.toInt * (2 ^ 64 * 10000000) →
    (8000000 * (2 ^ 72 * 10000000) < n ∨ n < -(8000000 * (2 ^ 72 * 10000000))) →
    Completes (.slewWrite r v) s fun t =>
      t.flag timeA TIME_STATUS_CFG_ERR = true ∧ RegFrame [timeA + TIME_STATUS] s t ∧ Frame [.regs] s t)

/-- O49. SRC, ACTIVE and the PTP trackers settle what the time counter follows: Equinox switch, holdover, refusal. SRC 3 is
refused; leaving 1 ends holdover and takes rate 0 or keeps it for Procession; becoming 1 takes the rate and carried offset
of a usable domain, switches by Equinox, or enters holdover. UPD commits OFS and RATE, clears STALE and LOST, and moves
the counter's rate and slew if the domain is in force; in holdover it ends it. LOST, STALE or EN = 0 of the domain in
force switches to a usable other tracker, else enters holdover; of the other one, nothing more. ACTIVE switches, is
refused, or is stored. Each of these forms ends in a next state wherever its clause's conditions on state and operands
hold: sourceSelect, domainUpdate, domainStale, domainLost, domainControlWrite, activeWrite. (R394, R395, R396) -/
def Obligations.TimeFollowsSourcesAndDomains : Prop :=
  (∀ (s : State) (r : Req), s.live = true →
    Completes (.sourceSelect r 3) s fun t =>
      t.flag timeA TIME_STATUS_CFG_ERR = true ∧
      RegFrame [timeA + TIME_STATUS, almA + ALM_STATUS, nvtA + NVT_STATUS] s t ∧ Frame [.regs, .alm] s t) ∧
  (∀ (s : State) (r : Req) (v : BitVec 2), s.live = true → s.phase = 7 → s.fld advA ADV_SYSCFG_COUNT > 1 →
    v.toNat ≠ s.timeSrc →
    Completes (.sourceSelect r v) s fun t =>
      t.flag timeA TIME_STATUS_CFG_ERR = true ∧ t.timeSrc = s.timeSrc ∧
      RegFrame [timeA + TIME_STATUS, almA + ALM_STATUS, nvtA + NVT_STATUS] s t ∧ Frame [.regs, .alm] s t) ∧
  (∀ (s : State) (r : Req), s.live = true → s.fld advA ADV_SYSCFG_COUNT ≤ 1 → s.timeSrc = 1 →
    Completes (.sourceSelect r 0) s fun t =>
      t.timeSrc = 0 ∧ t.holdover = false ∧ t.time = { s.time with rate := 0 } ∧
      RegFrame [timeA + TIME_CTRL, timeA + TIME_STATUS, almA + ALM_STATUS, nvtA + NVT_STATUS] s t ∧
      Frame [.regs, .time, .alm] s t) ∧
  (∀ (s : State) (r : Req), s.live = true → s.fld advA ADV_SYSCFG_COUNT ≤ 1 → s.timeSrc = 1 →
    Completes (.sourceSelect r 2) s fun t =>
      t.timeSrc = 2 ∧ t.holdover = false ∧
      RegFrame [timeA + TIME_CTRL, timeA + TIME_STATUS, almA + ALM_STATUS, nvtA + NVT_STATUS] s t ∧ Frame [.regs, .alm] s t) ∧
  (∀ (s : State) (r : Req) (d : Fin 2), s.live = true → s.fld advA ADV_SYSCFG_COUNT ≤ 1 → s.timeSrc ≠ 1 →
    s.activeDom = d → s.usable d = true →
    Completes (.sourceSelect r 1) s fun t =>
      t.timeSrc = 1 ∧ t.activeDom = d ∧ t.time = { s.time with slew := s.carried d, rate := (s.dom d).rate } ∧
      RegFrame [timeA + TIME_CTRL, almA + ALM_STATUS, nvtA + NVT_STATUS] s t ∧ Frame [.regs, .time, .alm] s t) ∧
  (∀ (s : State) (r : Req) (d : Fin 2), s.live = true → s.fld advA ADV_SYSCFG_COUNT ≤ 1 → s.timeSrc ≠ 1 →
    s.activeDom = 1 - d.val → s.usable (1 - d.val) = false → s.usable d = true →
    Completes (.sourceSelect r 1) s fun t =>
      t.timeSrc = 1 ∧ t.activeDom = d ∧ t.flag timeA TIME_STATUS_EQUINOX = true ∧ t.holdover = false ∧
      t.time = { s.time with slew := s.carried d, rate := (s.dom d).rate } ∧
      RegFrame [timeA + TIME_CTRL, timeA + TIME_STATUS, almA + ALM_STATUS, nvtA + NVT_STATUS] s t ∧
      Frame [.regs, .time, .alm] s t) ∧
  (∀ (s : State) (r : Req), s.live = true → s.fld advA ADV_SYSCFG_COUNT ≤ 1 → s.timeSrc ≠ 1 →
    s.usable 0 = false → s.usable 1 = false →
    Completes (.sourceSelect r 1) s fun t =>
      t.timeSrc = 1 ∧ t.activeDom = s.activeDom ∧ t.holdover = true ∧
      RegFrame [timeA + TIME_CTRL, timeA + TIME_STATUS, almA + ALM_STATUS, nvtA + NVT_STATUS] s t ∧ Frame [.regs, .alm] s t) ∧
  (∀ (s : State) (r : Req) (d : Fin 2) (k : Tracker), s.live = true →
    k = ⟨(s.rd (timeA + DOM_OFS + 16 * d)).toInt * (2 ^ 64 * 10000000), (s.rd (timeA + DOM_RATE + 16 * d)).toInt, s.now32⟩ →
    s.timeSrc = 1 → s.holdover = false → s.activeDom = d → s.flag timeA (domF DOM_CTRL_EN d) = true →
    Completes (.domainUpdate r d) s fun t =>
      t.dom d = k ∧ t.time.rate = k.rate ∧ t.time.slew = k.ofs ∧ t.usable d = true ∧ t.dom (1 - d.val) = s.dom (1 - d.val) ∧
      t.time.fine = s.time.fine ∧ RegFrame [timeA + DOM_CTRL + 16 * d, timeA + DOM_UPD + 16 * d] s t ∧
      Frame [.regs, .time] s t) ∧
  (∀ (s : State) (r : Req) (d : Fin 2), s.live = true → (s.timeSrc ≠ 1 ∨ (s.holdover = false ∧ s.activeDom ≠ d)) →
    Completes (.domainUpdate r d) s fun t =>
      t.dom d = ⟨(s.rd (timeA + DOM_OFS + 16 * d)).toInt * (2 ^ 64 * 10000000), (s.rd (timeA + DOM_RATE + 16 * d)).toInt, s.now32⟩ ∧
      t.time.rate = s.time.rate ∧ t.time.slew = s.time.slew ∧ t.dom (1 - d.val) = s.dom (1 - d.val) ∧
      t.flag timeA (domF DOM_UPD_STALE d) = false ∧ t.flag timeA (domF DOM_CTRL_LOST d) = false ∧
      t.time.fine = s.time.fine ∧ RegFrame [timeA + DOM_CTRL + 16 * d, timeA + DOM_UPD + 16 * d] s t ∧
      Frame [.regs, .time] s t) ∧
  (∀ (s : State) (r : Req) (d : Fin 2), s.live = true → s.timeSrc = 1 → s.holdover = true →
    s.flag timeA (domF DOM_CTRL_EN d) = true →
    Completes (.domainUpdate r d) s fun t =>
      t.holdover = false ∧ t.activeDom = d ∧ t.time.rate = (s.rd (timeA + DOM_RATE + 16 * d)).toInt ∧
      t.time.slew = (s.rd (timeA + DOM_OFS + 16 * d)).toInt * (2 ^ 64 * 10000000) ∧
      t.flag timeA TIME_STATUS_EQUINOX = (s.flag timeA TIME_STATUS_EQUINOX || decide (s.activeDom ≠ d)) ∧
      RegFrame [timeA + TIME_CTRL, timeA + TIME_STATUS, timeA + DOM_CTRL + 16 * d, timeA + DOM_UPD + 16 * d] s t ∧
      Frame [.regs, .time] s t) ∧
  (∀ (s : State) (d : Fin 2), s.live = true → s.timeSrc = 1 → s.holdover = false → s.activeDom = d →
    s.usable (1 - d.val) = true → s.domAged d = true →
    Completes (.domainStale d) s fun t =>
      t.flag timeA (domF DOM_UPD_STALE d) = true ∧ t.activeDom = 1 - d.val ∧ t.flag timeA TIME_STATUS_EQUINOX = true ∧
      t.time = { s.time with slew := s.carried (1 - d.val), rate := (s.dom (1 - d.val)).rate } ∧
      RegFrame [timeA + TIME_CTRL, timeA + TIME_STATUS, timeA + DOM_UPD + 16 * d] s t ∧ Frame [.regs, .time] s t) ∧
  (∀ (s : State) (d : Fin 2), s.live = true → s.timeSrc = 1 → s.holdover = false → s.activeDom = d →
    s.usable (1 - d.val) = false → s.domAged d = true →
    Completes (.domainStale d) s fun t =>
      t.flag timeA (domF DOM_UPD_STALE d) = true ∧ t.holdover = true ∧
      RegFrame [timeA + TIME_STATUS, timeA + DOM_UPD + 16 * d] s t ∧ Frame [.regs] s t) ∧
  (∀ (s : State) (d : Fin 2), s.live = true → (s.timeSrc ≠ 1 ∨ s.usable (1 - d.val) = true ∧ s.activeDom = 1 - d.val) →
    s.domAged d = true →
    Completes (.domainStale d) s fun t =>
      t.flag timeA (domF DOM_UPD_STALE d) = true ∧ RegFrame [timeA + DOM_UPD + 16 * d] s t ∧ Frame [.regs] s t) ∧
  (∀ (s : State) (r : Req) (d : Fin 2), s.live = true → s.timeSrc = 1 → s.holdover = false → s.activeDom = d →
    s.usable (1 - d.val) = false →
    Completes (.domainLost r d) s fun t =>
      t.flag timeA (domF DOM_CTRL_LOST d) = true ∧ t.holdover = true ∧
      RegFrame [timeA + TIME_STATUS, timeA + DOM_CTRL + 16 * d, almA + ALM_STATUS, nvtA + NVT_STATUS] s t ∧
      Frame [.regs, .alm] s t) ∧
  (∀ (s : State) (r : Req) (d : Fin 2), s.live = true → s.timeSrc = 1 → s.holdover = false → s.activeDom = d →
    s.usable (1 - d.val) = true →
    Completes (.domainLost r d) s fun t =>
      t.flag timeA (domF DOM_CTRL_LOST d) = true ∧ t.activeDom = 1 - d.val ∧ t.flag timeA TIME_STATUS_EQUINOX = true ∧
      t.time = { s.time with slew := s.carried (1 - d.val), rate := (s.dom (1 - d.val)).rate } ∧
      RegFrame [timeA + TIME_CTRL, timeA + TIME_STATUS, timeA + DOM_CTRL + 16 * d, almA + ALM_STATUS, nvtA + NVT_STATUS] s t ∧
      Frame [.regs, .time, .alm] s t) ∧
  (∀ (s : State) (r : Req) (d : Fin 2) (v : Word), s.live = true →
    (s.timeSrc ≠ 1 ∨ s.holdover = true ∨ s.activeDom = 1 - d.val ∧ s.usable (1 - d.val) = true) →
    Completes (.domainControlWrite r d v) s fun t =>
      t.rd (timeA + DOM_CTRL + 16 * d) = (infoAt (timeA + DOM_CTRL + 16 * d)).written (s.rd (timeA + DOM_CTRL + 16 * d)) v ∧
      RegFrame [timeA + DOM_CTRL + 16 * d, almA + ALM_STATUS, nvtA + NVT_STATUS] s t ∧ Frame [.regs, .alm] s t) ∧
  (∀ (s : State) (r : Req) (d : Fin 2) (v : Word), s.live = true → s.timeSrc = 1 → s.holdover = false → s.activeDom = d →
    v.toNat.testBit 31 = false → s.usable (1 - d.val) = true →
    Completes (.domainControlWrite r d v) s fun t =>
      t.flag timeA (domF DOM_CTRL_EN d) = false ∧ t.activeDom = 1 - d.val ∧ t.flag timeA TIME_STATUS_EQUINOX = true ∧
      t.time = { s.time with slew := s.carried (1 - d.val), rate := (s.dom (1 - d.val)).rate } ∧
      RegFrame [timeA + TIME_CTRL, timeA + TIME_STATUS, timeA + DOM_CTRL + 16 * d, almA + ALM_STATUS, nvtA + NVT_STATUS] s t ∧
      Frame [.regs, .time, .alm] s t) ∧
  (∀ (s : State) (r : Req) (b : Bool), s.live = true → s.timeSrc ≠ 1 → s.timeSrc ≠ 3 →
    Completes (.activeWrite r b) s fun t =>
      t.activeDom = b2n b ∧ RegFrame [timeA + TIME_CTRL, almA + ALM_STATUS, nvtA + NVT_STATUS] s t ∧ Frame [.regs, .alm] s t) ∧
  (∀ (s : State) (r : Req) (b : Bool), s.live = true → s.timeSrc = 1 → s.activeDom ≠ b2n b → s.usable (b2n b) = false →
    Completes (.activeWrite r b) s fun t =>
      t.flag timeA TIME_STATUS_CFG_ERR = true ∧ t.activeDom = s.activeDom ∧
      RegFrame [timeA + TIME_STATUS, almA + ALM_STATUS, nvtA + NVT_STATUS] s t ∧ Frame [.regs, .alm] s t) ∧
  (∀ (s : State) (r : Req) (b : Bool), s.live = true → s.timeSrc = 1 → s.activeDom ≠ b2n b → s.usable (b2n b) = true →
    Completes (.activeWrite r b) s fun t =>
      t.activeDom = b2n b ∧ t.flag timeA TIME_STATUS_EQUINOX = true ∧ t.holdover = false ∧
      t.time = { s.time with slew := s.carried (b2n b), rate := (s.dom (b2n b)).rate } ∧
      RegFrame [timeA + TIME_CTRL, timeA + TIME_STATUS, almA + ALM_STATUS, nvtA + NVT_STATUS] s t ∧
      Frame [.regs, .time, .alm] s t)

/-- O50. Ethernet ports take their configuration, doorbells and link state, and send, receive, stamp and refuse frames. A
legal ETH_CTRL is stored; a reserved MODE or FEC is refused. A doorbell moves WR unless it would overfill the ring. A
transmit pads to 60 bytes, appends the FCS, finishes its descriptor with the stamp where asked, advances RD and sets
TX_DONE; Sync one-step inserts the stamp; a LEN too long is not sent; a failed buffer read sends a bad FCS. A received
frame is stored with its stamp, PTP in ring 0, others in ring 1; bad FCS, oversize and control frames are counted, frames
for others are ignored, and a frame without room is dropped. The link's state is shown, and a change sets LINK_CHG.
(Stamps are taken when the command is performed, the model's choice: log entry 61.). Each of these forms ends in a next
state wherever its clause's conditions on state and operands hold: ethConfigWrite, ethTxDoorbell, ethRxDoorbell,
ethFrameTransmit, ethFrameReceive, ethLinkChange. (R290, R398, R399, R400, R401, R402, R403, R404) -/
def Obligations.EthernetPortsSendAndReceiveFrames : Prop :=
  (∀ (s : State) (r : Req) (k : Fin 4) (v : Word) (mode fec : Nat), s.live = true → s.quadsSettled = true →
    mode = v.toNat / 2 ^ 29 % 4 → fec = v.toNat / 2 ^ 27 % 4 → (mode = 1 ∨ mode = 2) → fec ≠ 3 → (fec = 2 → mode = 2) →
    Completes (.ethConfigWrite r k v) s fun t =>
      t.rd (ethA k + ETH_CTRL) = (infoAt (ethA k + ETH_CTRL)).written (s.rd (ethA k + ETH_CTRL)) v ∧
      (∀ q : Fin 16, q.val ≠ 14 → t.quad q = s.quad q) ∧ t.quadsSettled = true ∧
      t.flag (ethA k) ETH_STATUS_CFG_ERR = s.flag (ethA k) ETH_STATUS_CFG_ERR ∧
      BlockFrame [ethA k, quadA 14, almA, nvtA] s t ∧ Frame [.regs, .quads, .alm] s t) ∧
  (∀ (s : State) (r : Req) (k : Fin 4) (v : Word) (mode fec : Nat), s.live = true → s.quadsSettled = true →
    mode = v.toNat / 2 ^ 29 % 4 → fec = v.toNat / 2 ^ 27 % 4 → (mode = 0 ∨ mode = 3 ∨ fec = 3 ∨ fec = 2 ∧ mode = 1) →
    Completes (.ethConfigWrite r k v) s fun t =>
      t.flag (ethA k) ETH_STATUS_CFG_ERR = true ∧ t.fld (ethA k) ETH_CTRL_MODE = s.fld (ethA k) ETH_CTRL_MODE ∧
      t.fld (ethA k) ETH_CTRL_FEC = s.fld (ethA k) ETH_CTRL_FEC ∧ t.flag (ethA k) ETH_CTRL_EN = v.toNat.testBit 31 ∧
      (∀ q : Fin 16, q.val ≠ 14 → t.quad q = s.quad q) ∧
      BlockFrame [ethA k, quadA 14, almA, nvtA] s t ∧ Frame [.regs, .quads, .alm] s t) ∧
  (∀ (s : State) (r : Req) (k : Fin 4) (w : BitVec 16), s.live = true →
    (w.toNat + 65536 - s.fld (ethA k) ETH_TX_PTR_RD) % 65536 ≤ 2 ^ s.ringLog k ETH_RING_CFG_TX_LOG →
    Completes (.ethTxDoorbell r k w) s fun t =>
      t.fld (ethA k) ETH_TX_PTR_WR = w.toNat ∧ t.fld (ethA k) ETH_TX_PTR_RD = s.fld (ethA k) ETH_TX_PTR_RD ∧
      RegFrame [ethA k + ETH_TX_PTR] s t ∧ Frame [.regs] s t) ∧
  (∀ (s : State) (r : Req) (k : Fin 4) (w : BitVec 16), s.live = true →
    2 ^ s.ringLog k ETH_RING_CFG_TX_LOG < (w.toNat + 65536 - s.fld (ethA k) ETH_TX_PTR_RD) % 65536 →
    Completes (.ethTxDoorbell r k w) s fun t => t = s) ∧
  (∀ (s : State) (r : Req) (k : Fin 4) (w : BitVec 16), s.live = true →
    (w.toNat + 65536 - s.fld (ethA k) ETH_RX0_PTR_RD) % 65536 ≤ 2 ^ s.ringLog k ETH_RING_CFG_RX0_LOG →
    Completes (.ethRxDoorbell r k false w) s fun t =>
      t.fld (ethA k) ETH_RX0_PTR_WR = w.toNat ∧ t.fld (ethA k) ETH_RX0_PTR_RD = s.fld (ethA k) ETH_RX0_PTR_RD ∧
      RegFrame [ethA k + ETH_RX0_PTR] s t ∧ Frame [.regs] s t) ∧
  (∀ (s : State) (r : Req) (k : Fin 4) (w : BitVec 16), s.live = true →
    (w.toNat + 65536 - s.fld (ethA k) ETH_RX1_PTR_RD) % 65536 ≤ 2 ^ s.ringLog k ETH_RING_CFG_RX1_LOG →
    Completes (.ethRxDoorbell r k true w) s fun t =>
      t.fld (ethA k) ETH_RX1_PTR_WR = w.toNat ∧ t.fld (ethA k) ETH_RX1_PTR_RD = s.fld (ethA k) ETH_RX1_PTR_RD ∧
      RegFrame [ethA k + ETH_RX1_PTR] s t ∧ Frame [.regs] s t) ∧
  (∀ (s : State) (k : Fin 4) (d buf len : Nat) (f : List Byte), s.live = true → s.flag (ethA k) ETH_CTRL_EN = true →
    s.flag (ethA k) ETH_STATUS_LINK_UP = true → s.ringUsed k ETH_TX_PTR_RD ETH_TX_PTR_WR ≠ 0 →
    d = s.ethDesc k ETH_TX_BASE_ADDR ETH_TX_PTR_RD ETH_RING_CFG_TX_LOG → len = s.memNat (d + 8) 2 → len ≤ s.maxFrame k - 4 →
    s.memNat (d + 10) 2 % 4 = 0 → buf = s.memNat d 8 → s.answersAt buf len →
    s.answersAt (d + 14) 2 → f = s.memBytes buf len ++ List.replicate (60 - len) 0 →
    Completes (.ethFrameTransmit k .ok) s fun t =>
      t.sent = s.lit 14 4 ⟨.eth k, 0, (f ++ toBytes 4 (crc32 f)).map (·.toNat)⟩ ++ s.sent ∧ t.memNat (d + 14) 2 = 1 ∧
      MemFrame (d + 14) 2 s t ∧ t.fld (ethA k) ETH_TX_PTR_RD = (s.fld (ethA k) ETH_TX_PTR_RD + 1) % 65536 ∧
      t.flag (ethA k) ETH_EVT_TX_DONE = true ∧ RegFrame [ethA k + ETH_TX_PTR, ethA k + ETH_EVT] s t ∧
      Frame [.regs, .mem, .sent] s t) ∧
  (∀ (s : State) (k : Fin 4) (d buf len ps : Nat) (f : List Byte), s.live = true → s.flag (ethA k) ETH_CTRL_EN = true →
    s.flag (ethA k) ETH_STATUS_LINK_UP = true → s.ringUsed k ETH_TX_PTR_RD ETH_TX_PTR_WR ≠ 0 →
    d = s.ethDesc k ETH_TX_BASE_ADDR ETH_TX_PTR_RD ETH_RING_CFG_TX_LOG → len = s.memNat (d + 8) 2 → len ≤ s.maxFrame k - 4 →
    s.memNat (d + 10) 2 % 4 = 1 → buf = s.memNat d 8 → s.answersAt buf len →
    s.answersAt (d + 14) 18 → f = s.memBytes buf len ++ List.replicate (60 - len) 0 →
    ps = s.nowNs * 1000 + s.fld (ethA k) ETH_TXDLY_TX_DELAY_PS →
    Completes (.ethFrameTransmit k .ok) s fun t =>
      t.sent = s.lit 14 4 ⟨.eth k, 0, (f ++ toBytes 4 (crc32 f)).map (·.toNat)⟩ ++ s.sent ∧ t.memNat (d + 14) 2 = 3 ∧
      t.memNat (d + 16) 6 = ps / 1000 / 1000000000 % 2 ^ 48 ∧ t.memNat (d + 24) 4 = ps / 1000 % 1000000000 ∧
      t.memNat (d + 22) 2 = 0 ∧ t.memNat (d + 28) 4 = 0 ∧ MemFrame (d + 14) 18 s t ∧
      t.fld (ethA k) ETH_TX_PTR_RD = (s.fld (ethA k) ETH_TX_PTR_RD + 1) % 65536 ∧ t.flag (ethA k) ETH_EVT_TX_DONE = true ∧
      RegFrame [ethA k + ETH_TX_PTR, ethA k + ETH_EVT] s t ∧ Frame [.regs, .mem, .sent] s t) ∧
  (∀ (s : State) (k : Fin 4) (d buf len o : Nat) (f g : List Byte), s.live = true → s.flag (ethA k) ETH_CTRL_EN = true →
    s.flag (ethA k) ETH_STATUS_LINK_UP = true → s.ringUsed k ETH_TX_PTR_RD ETH_TX_PTR_WR ≠ 0 →
    d = s.ethDesc k ETH_TX_BASE_ADDR ETH_TX_PTR_RD ETH_RING_CFG_TX_LOG → len = s.memNat (d + 8) 2 → len ≤ s.maxFrame k - 4 →
    s.memNat (d + 10) 2 = 2 → o = s.memNat (d + 12) 2 → buf = s.memNat d 8 → s.answersAt buf len → s.answersAt (d + 14) 18 → f = s.memBytes buf len ++ List.replicate (60 - len) 0 →
    o + 44 ≤ f.length → beAt f o 1 % 16 = 0 → beAt f 12 2 = 0x88F7 → s.fld (ethA k) ETH_TXDLY_TX_DELAY_PS = 0 →
    g = putAt f (o + 34) (toBytesBE 6 (s.nowNs / 1000000000) ++ toBytesBE 4 (s.nowNs % 1000000000)) →
    Completes (.ethFrameTransmit k .ok) s fun t =>
      t.sent = s.lit 14 4 ⟨.eth k, 0, (g ++ toBytes 4 (crc32 g)).map (·.toNat)⟩ ++ s.sent ∧ t.memNat (d + 14) 2 = 3 ∧
      t.memNat (d + 16) 6 = s.nowNs / 1000000000 % 2 ^ 48 ∧ t.memNat (d + 24) 4 = s.nowNs % 1000000000 ∧
      MemFrame (d + 14) 18 s t ∧ RegFrame [ethA k + ETH_TX_PTR, ethA k + ETH_EVT] s t ∧ Frame [.regs, .mem, .sent] s t) ∧
  (∀ (s : State) (k : Fin 4) (d : Nat) (x : BusAns), s.live = true → s.flag (ethA k) ETH_CTRL_EN = true →
    s.flag (ethA k) ETH_STATUS_LINK_UP = true → s.ringUsed k ETH_TX_PTR_RD ETH_TX_PTR_WR ≠ 0 →
    d = s.ethDesc k ETH_TX_BASE_ADDR ETH_TX_PTR_RD ETH_RING_CFG_TX_LOG → s.maxFrame k - 4 < s.memNat (d + 8) 2 →
    s.answersAt (d + 14) 2 →
    Completes (.ethFrameTransmit k x) s fun t =>
      t.memNat (d + 14) 2 = 0x21 ∧ MemFrame (d + 14) 2 s t ∧ t.flag (ethA k) ETH_EVT_TX_DONE = true ∧
      t.fld (ethA k) ETH_TX_PTR_RD = (s.fld (ethA k) ETH_TX_PTR_RD + 1) % 65536 ∧
      RegFrame [ethA k + ETH_TX_PTR, ethA k + ETH_EVT] s t ∧ Frame [.regs, .mem] s t) ∧
  (∀ (s : State) (k : Fin 4) (d buf len : Nat) (x : BusAns), s.live = true → s.flag (ethA k) ETH_CTRL_EN = true →
    s.flag (ethA k) ETH_STATUS_LINK_UP = true → s.ringUsed k ETH_TX_PTR_RD ETH_TX_PTR_WR ≠ 0 → x ≠ .ok →
    d = s.ethDesc k ETH_TX_BASE_ADDR ETH_TX_PTR_RD ETH_RING_CFG_TX_LOG → len = s.memNat (d + 8) 2 → len ≤ s.maxFrame k - 4 →
    buf = s.memNat d 8 → s.answersAt buf len → s.answersAt (d + 14) 2 →
    Completes (.ethFrameTransmit k x) s fun t =>
      t.sent = s.lit 14 4 ⟨.eth k, 0, (s.memBytes buf len ++ toBytes 4 (2 ^ 32 - 1 - crc32 (s.memBytes buf len))).map (·.toNat)⟩ ++ s.sent ∧
      t.memNat (d + 14) 2 = 0x21 ∧ MemFrame (d + 14) 2 s t ∧
      t.fld (ethA k) ETH_TX_PTR_RD = (s.fld (ethA k) ETH_TX_PTR_RD + 1) % 65536 ∧
      RegFrame [ethA k + ETH_TX_PTR, ethA k + ETH_EVT] s t ∧ Frame [.regs, .mem, .sent] s t) ∧
  (∀ (s : State) (k : Fin 4) (f : List Byte) (d buf : Nat) (ps : Int), s.live = true → s.flag (ethA k) ETH_CTRL_EN = true →
    s.flag (ethA k) ETH_STATUS_LINK_UP = true → 60 ≤ f.length → f.length + 4 ≤ s.maxFrame k →
    beAt f 12 2 ≠ 0x8808 → ptpOf f = none → (f.take 6 = s.macOf k ∨ beAt f 0 6 = 0xFFFFFFFFFFFF ∨ s.flag (ethA k) ETH_CTRL_PROMISC = true) →
    s.ringUsed k ETH_RX1_PTR_RD ETH_RX1_PTR_WR ≠ 0 → d = s.ethDesc k ETH_RX1_BASE_ADDR ETH_RX1_PTR_RD ETH_RING_CFG_RX1_LOG →
    f.length ≤ s.memNat (d + 8) 2 → f.length < 65536 → buf = s.memNat d 8 → s.answersAt buf f.length →
    s.answersAt (d + 8) 24 → buf + f.length ≤ d → ps = s.nowNs * 1000 - s.fld (ethA k) ETH_RXDLY_RX_DELAY_PS → 0 ≤ ps →
    Completes (.ethFrameReceive k (f ++ toBytes 4 (crc32 f))) s fun t =>
      t.memBytes buf f.length = f ∧ t.memNat (d + 8) 2 = f.length ∧ t.memNat (d + 10) 2 = s.memNat (d + 10) 2 ∧
      t.memNat (d + 12) 2 = 0xFFFF ∧ t.memNat (d + 14) 2 = 3 ∧ t.memNat (d + 16) 6 = ps.toNat / 1000 / 1000000000 % 2 ^ 48 ∧
      t.memNat (d + 24) 4 = ps.toNat / 1000 % 1000000000 ∧ MemFrame2 buf f.length (d + 8) 24 s t ∧
      t.fld (ethA k) ETH_RX1_PTR_RD = (s.fld (ethA k) ETH_RX1_PTR_RD + 1) % 65536 ∧ t.flag (ethA k) ETH_EVT_RX1 = true ∧
      RegFrame [ethA k + ETH_RX1_PTR, ethA k + ETH_EVT] s t ∧ Frame [.regs, .mem] s t) ∧
  (∀ (s : State) (k : Fin 4) (f : List Byte) (d buf o : Nat) (e : Bool), s.live = true → s.flag (ethA k) ETH_CTRL_EN = true →
    s.flag (ethA k) ETH_STATUS_LINK_UP = true → 60 ≤ f.length → f.length + 4 ≤ s.maxFrame k →
    beAt f 12 2 ≠ 0x8808 → ptpOf f = some (o, e) → o < 65536 → beAt f 0 6 ∈ [0x011B19000000, 0x0180C200000E, 0x01005E000181,
      0x01005E00006B, 0x333300000181, 0x33330000006B] →
    s.ringUsed k ETH_RX0_PTR_RD ETH_RX0_PTR_WR ≠ 0 → d = s.ethDesc k ETH_RX0_BASE_ADDR ETH_RX0_PTR_RD ETH_RING_CFG_RX0_LOG →
    f.length ≤ s.memNat (d + 8) 2 → f.length < 65536 → buf = s.memNat d 8 → s.answersAt buf f.length →
    s.answersAt (d + 8) 24 → buf + f.length ≤ d →
    Completes (.ethFrameReceive k (f ++ toBytes 4 (crc32 f))) s fun t =>
      t.memBytes buf f.length = f ∧ t.memNat (d + 8) 2 = f.length ∧ t.memNat (d + 12) 2 = o ∧
      t.memNat (d + 14) 2 = 11 + 16 * b2n e ∧ MemFrame2 buf f.length (d + 8) 24 s t ∧
      t.fld (ethA k) ETH_RX0_PTR_RD = (s.fld (ethA k) ETH_RX0_PTR_RD + 1) % 65536 ∧ t.flag (ethA k) ETH_EVT_RX0 = true ∧
      RegFrame [ethA k + ETH_RX0_PTR, ethA k + ETH_EVT] s t ∧ Frame [.regs, .mem] s t) ∧
  (∀ (s : State) (k : Fin 4) (f : List Byte) (c : Nat), s.live = true → s.flag (ethA k) ETH_CTRL_EN = true →
    s.flag (ethA k) ETH_STATUS_LINK_UP = true → c < 2 ^ 32 → c ≠ crc32 f →
    Completes (.ethFrameReceive k (f ++ toBytes 4 c)) s fun t =>
      t.fld (ethA k) ETH_CNT_FCS_ERR = min (s.fld (ethA k) ETH_CNT_FCS_ERR + 1) 0xFFFF ∧
      RegFrame [ethA k + ETH_CNT] s t ∧ Frame [.regs] s t) ∧
  (∀ (s : State) (k : Fin 4) (f : List Byte), s.live = true → s.flag (ethA k) ETH_CTRL_EN = true →
    s.flag (ethA k) ETH_STATUS_LINK_UP = true → s.maxFrame k < f.length + 4 →
    Completes (.ethFrameReceive k (f ++ toBytes 4 (crc32 f))) s fun t =>
      t.fld (ethA k) ETH_CNT2_OVERSIZE = min (s.fld (ethA k) ETH_CNT2_OVERSIZE + 1) 0xFFFF ∧
      RegFrame [ethA k + ETH_CNT2] s t ∧ Frame [.regs] s t) ∧
  (∀ (s : State) (k : Fin 4) (f : List Byte), s.live = true → s.flag (ethA k) ETH_CTRL_EN = true →
    s.flag (ethA k) ETH_STATUS_LINK_UP = true → 60 ≤ f.length → f.length + 4 ≤ s.maxFrame k → beAt f 12 2 = 0x8808 →
    Completes (.ethFrameReceive k (f ++ toBytes 4 (crc32 f))) s fun t =>
      t.fld (ethA k) ETH_CNT2_CTRL_DROP = min (s.fld (ethA k) ETH_CNT2_CTRL_DROP + 1) 0xFFFF ∧
      RegFrame [ethA k + ETH_CNT2] s t ∧ Frame [.regs] s t) ∧
  (∀ (s : State) (k : Fin 4) (f : List Byte), s.live = true → s.flag (ethA k) ETH_CTRL_EN = true →
    s.flag (ethA k) ETH_STATUS_LINK_UP = true → 60 ≤ f.length → f.length + 4 ≤ s.maxFrame k → beAt f 12 2 ≠ 0x8808 →
    f.take 6 ≠ s.macOf k → (beAt f 0 6).testBit 40 = false → s.flag (ethA k) ETH_CTRL_PROMISC = false →
    Completes (.ethFrameReceive k (f ++ toBytes 4 (crc32 f))) s fun t => t = s) ∧
  (∀ (s : State) (k : Fin 4) (f : List Byte), s.live = true → s.flag (ethA k) ETH_CTRL_EN = true →
    s.flag (ethA k) ETH_STATUS_LINK_UP = true → 60 ≤ f.length → f.length + 4 ≤ s.maxFrame k → beAt f 12 2 ≠ 0x8808 →
    s.accepts k f = true → ptpOf f = none → s.ringUsed k ETH_RX1_PTR_RD ETH_RX1_PTR_WR = 0 →
    Completes (.ethFrameReceive k (f ++ toBytes 4 (crc32 f))) s fun t =>
      t.fld (ethA k) ETH_CNT_RX_DROPS = min (s.fld (ethA k) ETH_CNT_RX_DROPS + 1) 0xFFFF ∧
      t.flag (ethA k) ETH_EVT_RX_DROP = true ∧ RegFrame [ethA k + ETH_CNT, ethA k + ETH_EVT] s t ∧ Frame [.regs] s t) ∧
  (∀ (s : State) (k : Fin 4) (l : EthLink), s.live = true →
    Completes (.ethLinkChange k l) s fun t =>
      t.flag (ethA k) ETH_STATUS_LINK_UP = l.up ∧ t.flag (ethA k) ETH_STATUS_FEC_LOCK = l.fecLock ∧
      t.flag (ethA k) ETH_STATUS_LOCAL_FAULT = l.localFault ∧ t.flag (ethA k) ETH_STATUS_REMOTE_FAULT = l.remoteFault ∧
      t.flag (ethA k) ETH_STATUS_BLOCK_LOCK = l.blockLock ∧
      t.flag (ethA k) ETH_STATUS_CFG_ERR = s.flag (ethA k) ETH_STATUS_CFG_ERR ∧
      t.flag (ethA k) ETH_EVT_LINK_CHG =
        (s.flag (ethA k) ETH_EVT_LINK_CHG || decide (s.flag (ethA k) ETH_STATUS_LINK_UP ≠ l.up)) ∧
      RegFrame [ethA k + ETH_STATUS, ethA k + ETH_EVT] s t ∧ Frame [.regs] s t)

/-- O51. Serial quads take their coding, loop, test and power state, and their lanes train, retry, are measured and retrain. A
legal PROTO is stored and the quad takes the power state its users and registers ask for; an unimplemented one, or one for
an enabled user, is refused with CFG_ERR; PROTO 0 is Vesper. RETRAIN starts every lane in L0 and waits otherwise. LOOP
takes effect in L0 only (with LK fields locked its write also reports a locked write, log entry 63). PRBS starts, is
refused under an enabled user, and stops. A PSTATE request with no enabled user is taken, and held otherwise. AUTO_VESPER
enters Vesper. The exit time locks the PLL and trains the lanes, or times out with none ready. A trained lane is READY or
fails, counts and retries; FOM below FOM_MIN sets DEGRADED and records it once; loss of block lock retrains at once; a
trunk or port on lanes that lose READY is no longer aligned. (What the sender of an event says: the model's choice, log
entry 62.). Each of these forms ends in a next state wherever its clause's conditions on state and operands hold:
protoWrite, quadRetrain, loopSelect, prbsStart, prbsStop, pstateRequest, autoVesperEntry, lanePowerExit, pllLockTimeout,
laneLinkUp, laneRetry, fomMeasure, blockLockLoss. (R5, R371, R372, R373, R376, R377, R378, R379, R380, R381, R382) -/
def Obligations.SerialQuadsTrainLoopTestAndSleep : Prop :=
  (∀ (s : State) (r : Req) (q : Fin 16) (v : Word) (p : Nat), s.live = true → s.locked = false → s.quadsSettled = true →
    s.quadBusy q = false → p = v.toNat % 8 → p ≠ 2 → s.proto q ≠ 2 →
    (p = 0 ∨ p = 1 ∨ p = 4 ∨ p = 3 ∧ 14 ≤ q.val) → v.toNat.testBit 10 = false →
    Completes (.protoWrite r q v) s fun t =>
      t.rd (quadA q + QUAD_CTRL) = (infoAt (quadA q + QUAD_CTRL)).written (s.rd (quadA q + QUAD_CTRL)) v ∧ t.proto q = p ∧
      t.quadsSettled = true ∧ (p = 0 → t.power q = 2) ∧ (t.inL0 q = true → (t.quad q).loop = t.fld (quadA q) QUAD_CTRL_LOOP) ∧
      (∀ k : Fin 16, k ≠ q → t.quad k = s.quad k) ∧ (∀ n : Fin 8, s.prdQuad n ≠ q → t.prd n = s.prd n) ∧ (q.val ≠ 15 → ∀ r : Bool, t.proc r = s.proc r) ∧
      BlockFrame ([quadA q, almA, nvtA] ++ (s.trunkRegs q).map fun a => a - a % 0x400) s t ∧ Frame [.regs, .quads, .alm, .prds, .procs] s t) ∧
  (∀ (s : State) (r : Req) (q : Fin 16) (v : Word) (p : Nat), s.live = true → s.locked = false → s.quadsSettled = true →
    s.quadBusy q = false → p = v.toNat % 8 → (p = 2 ∨ s.proto q = 2) → (p < 2 ∨ p = 2 ∧ 8 ≤ q.val ∧ q.val ≤ 13 ∨ p = 4) →
    v.toNat.testBit 10 = false →
    Completes (.protoWrite r q v) s fun t =>
      t.rd (quadA q + QUAD_CTRL) = (infoAt (quadA q + QUAD_CTRL)).written (s.rd (quadA q + QUAD_CTRL)) v ∧ t.proto q = p ∧
      t.quadsSettled = true ∧ (∀ k : Fin 16, k ≠ q → k.val ≠ 8 → k.val ≠ 9 → t.quad k = s.quad k) ∧
      (∀ n : Fin 8, s.prdQuad n ≠ q → t.prd n = s.prd n) ∧ (q.val ≠ 15 → ∀ r : Bool, t.proc r = s.proc r) ∧
      BlockFrame ([quadA q, quadA 8, quadA 9, almA, nvtA] ++ (s.trunkRegs q).map fun a => a - a % 0x400) s t ∧ Frame [.regs, .quads, .alm, .prds, .procs] s t) ∧
  (∀ (s : State) (r : Req) (q : Fin 16) (v : Word) (p : Nat), s.live = true → s.locked = false → s.quadsSettled = true →
    p = v.toNat % 8 → p ≠ s.proto q →
    (4 < p ∨ p = 2 ∧ (q.val < 8 ∨ 13 < q.val) ∨ p = 3 ∧ q.val < 14 ∨ s.quadBusy q = true) → v.toNat.testBit 10 = false →
    Completes (.protoWrite r q v) s fun t =>
      t.flag (quadA q) QUAD_STATUS_CFG_ERR = true ∧ t.proto q = s.proto q ∧
      t.fld (quadA q) QUAD_CTRL_LOOP = v.toNat / 64 % 4 ∧ (∀ k : Fin 16, k ≠ q → t.quad k = s.quad k) ∧
      BlockFrame [quadA q, almA, nvtA] s t ∧ Frame [.regs, .quads, .alm] s t) ∧
  (∀ (s : State) (r : Req) (q : Fin 16) (v : Word), s.live = true → s.locked = false → s.quadsSettled = true → s.inL0 q = true →
    v.toNat % 8 = s.proto q → v.toNat / 16 % 4 = s.fld (quadA q) QUAD_CTRL_PSTATE →
    Completes (.quadRetrain r q v) s fun t =>
      t.flag (quadA q) QUAD_CTRL_RETRAIN = true ∧ t.inL0 q = true ∧ (t.quad q).exiting = false ∧
      (∀ k : Fin 4, t.flag (quadA q) (laneF LANE_STAT_READY k) = false ∧ k.val ∈ (t.quad q).training ∧ k.val ∉ (t.quad q).failed) ∧
      (∀ k : Fin 16, k ≠ q → t.quad k = s.quad k) ∧ LanesLost q [0, 1, 2, 3] s t ∧
      BlockFrame ([quadA q, almA, nvtA] ++ (s.trunkRegs q).map fun a => a - a % 0x400) s t ∧ Frame [.regs, .quads, .alm, .prds, .procs] s t) ∧
  (∀ (s : State) (r : Req) (q : Fin 16) (v : Word), s.live = true → s.locked = false → s.quadsSettled = true → s.power q ≠ 0 →
    v.toNat % 8 = s.proto q → v.toNat / 16 % 4 = s.fld (quadA q) QUAD_CTRL_PSTATE → (s.quad q).autoVesper = false →
    Completes (.quadRetrain r q v) s fun t =>
      t.flag (quadA q) QUAD_CTRL_RETRAIN = true ∧ t.quad q = { s.quad q with retrain := true } ∧
      (∀ k : Fin 16, k ≠ q → t.quad k = s.quad k) ∧
      RegFrame [quadA q + QUAD_CTRL, almA + ALM_STATUS, nvtA + NVT_STATUS] s t ∧ Frame [.regs, .quads, .alm] s t) ∧
  (∀ (s : State) (r : Req) (q : Fin 16) (l : BitVec 2), s.live = true → s.locked = false → s.quadsSettled = true →
    ((s.quad q).autoVesper = true → s.flag (quadA q) QUAD_CTRL_AUTO_VESPER = true) →
    Completes (.loopSelect r q l) s fun t =>
      t.fld (quadA q) QUAD_CTRL_LOOP = l.toNat ∧
      t.quad q = { s.quad q with loop := if s.inL0 q then l.toNat else (s.quad q).loop } ∧
      (∀ k : Fin 16, k ≠ q → t.quad k = s.quad k) ∧
      RegFrame [quadA q + QUAD_CTRL, almA + ALM_STATUS, nvtA + NVT_STATUS] s t ∧ Frame [.regs, .quads, .alm] s t) ∧
  (∀ (s : State) (r : Req) (q : Fin 16) (l : BitVec 2), s.live = true → s.locked = true → s.quadsSettled = true →
    ((s.quad q).autoVesper = true → s.flag (quadA q) QUAD_CTRL_AUTO_VESPER = true) →
    Completes (.loopSelect r q l) s fun t =>
      t.fld (quadA q) QUAD_CTRL_LOOP = l.toNat ∧ t.proto q = s.proto q ∧
      Logged 0 0x02 1 r.src (quadA q + QUAD_CTRL) 0 s t ∧ (∀ k : Fin 16, k ≠ q → t.quad k = s.quad k) ∧
      RegFrame ([quadA q + QUAD_CTRL] ++ recordRegs 0) s t ∧ Frame [.regs, .quads, .alm, .flt] s t) ∧
  (∀ (s : State) (r : Req) (q : Fin 16) (v : Word), s.live = true → s.quadBusy q = false →
    Completes (.prbsStart r q v) s fun t =>
      t.rd (quadA q + QUAD_PRBS) = (infoAt (quadA q + QUAD_PRBS)).written (s.rd (quadA q + QUAD_PRBS)) (v ||| 0x80000000) ∧
      t.flag (quadA q) QUAD_PRBS_EN = true ∧ RegFrame [quadA q + QUAD_PRBS] s t ∧ Frame [.regs] s t) ∧
  (∀ (s : State) (r : Req) (q : Fin 16) (v : Word), s.live = true → s.quadBusy q = true →
    s.flag (quadA q) QUAD_PRBS_EN = false →
    Completes (.prbsStart r q v) s fun t =>
      t.flag (quadA q) QUAD_PRBS_EN = false ∧ t.flag (quadA q) QUAD_STATUS_CFG_ERR = true ∧
      RegFrame [quadA q + QUAD_PRBS, quadA q + QUAD_STATUS] s t ∧ Frame [.regs] s t) ∧
  (∀ (s : State) (r : Req) (q : Fin 16) (v : Word), s.live = true →
    Completes (.prbsStop r q v) s fun t =>
      t.flag (quadA q) QUAD_PRBS_EN = false ∧
      t.rd (quadA q + QUAD_PRBS) = (infoAt (quadA q + QUAD_PRBS)).written (s.rd (quadA q + QUAD_PRBS)) (v &&& 0x7FFFFFFF) ∧
      RegFrame [quadA q + QUAD_PRBS] s t ∧ Frame [.regs] s t) ∧
  (∀ (s : State) (r : Req) (q : Fin 16) (p : BitVec 2), s.live = true → s.locked = false → s.quadsSettled = true → s.quadBusy q = false →
    s.proto q ≠ 0 → (s.quad q).autoVesper = false →
    Completes (.pstateRequest r q p) s fun t =>
      t.fld (quadA q) QUAD_CTRL_PSTATE = p.toNat ∧ t.power q = (if p = 3 then 0 else p.toNat) ∧
      (∀ k : Fin 4, t.fld (quadA q) (laneF LANE_STAT_PSTATE k) =
        (if t.power q = s.power q then s.fld (quadA q) (laneF LANE_STAT_PSTATE k) else t.power q)) ∧
      (t.power q = 2 → s.power q ≠ 2 → t.flag (quadA q) QUAD_STATUS_PLL_LOCK = false) ∧
      (t.power q = 0 → s.power q ≠ 0 → (t.quad q).exiting = true ∧ (t.quad q).fromVesper = decide (s.power q = 2)) ∧
      (∀ k : Fin 16, k ≠ q → t.quad k = s.quad k) ∧ BlockFrame [quadA q, almA, nvtA] s t ∧ Frame [.regs, .quads, .alm] s t) ∧
  (∀ (s : State) (r : Req) (q : Fin 16) (p : BitVec 2), s.live = true → s.locked = false → s.quadsSettled = true → s.quadBusy q = true →
    Completes (.pstateRequest r q p) s fun t =>
      t.fld (quadA q) QUAD_CTRL_PSTATE = p.toNat ∧ t.power q = s.power q ∧
      RegFrame [quadA q + QUAD_CTRL, almA + ALM_STATUS, nvtA + NVT_STATUS] s t ∧ Frame [.regs, .quads, .alm] s t) ∧
  (∀ (s : State) (q : Fin 16), s.live = true → s.quadSettled q = true → s.flag (quadA q) QUAD_CTRL_AUTO_VESPER = true →
    s.fld (quadA q) QUAD_CTRL_PSTATE = 0 → s.quadBusy q = false → s.power q = 0 →
    (s.quad q).idleTick + usTicks 1000 ≤ s.tick →
    Completes (.autoVesperEntry q) s fun t =>
      t.power q = 2 ∧ t.flag (quadA q) QUAD_STATUS_PLL_LOCK = false ∧
      (∀ k : Fin 4, t.flag (quadA q) (laneF LANE_STAT_READY k) = false ∧ t.flag (quadA q) (laneF LANE_STAT_CDR_LOCK k) = false ∧
        t.fld (quadA q) (laneF LANE_STAT_PSTATE k) = 2) ∧
      (t.quad q).training = [] ∧ (t.quad q).retrain = ((s.quad q).retrain || s.flag (quadA q) QUAD_CTRL_RETRAIN) ∧
      (∀ k : Fin 16, k ≠ q → t.quad k = s.quad k) ∧ BlockFrame [quadA q] s t ∧ Frame [.regs, .quads] s t) ∧
  (∀ (s : State) (q : Fin 16), s.live = true → (s.quad q).exiting = true → s.power q = 0 →
    Completes (.lanePowerExit q) s fun t =>
      t.inL0 q = true ∧ t.flag (quadA q) QUAD_STATUS_PLL_LOCK = true ∧ (t.quad q).loop = s.fld (quadA q) QUAD_CTRL_LOOP ∧
      (t.quad q).retrain = false ∧ (∀ k ∈ s.lanesUsed q, k ∈ (t.quad q).training ∧ t.flag (quadA q) (laneF LANE_STAT_READY k) = false) ∧
      (∀ k : Fin 16, k ≠ q → t.quad k = s.quad k) ∧ LanesLost q (s.lanesUsed q) s t ∧
      BlockFrame ([quadA q] ++ (s.trunkRegs q).map fun a => a - a % 0x400) s t ∧ Frame [.regs, .quads, .prds, .procs] s t) ∧
  (∀ (s : State) (q : Fin 16), s.live = true → (s.quad q).exiting = true → (s.quad q).fromVesper = true →
    Completes (.pllLockTimeout q) s fun t =>
      t.flag (quadA q) QUAD_STATUS_PLL_LOCK = false ∧ (∀ k : Fin 4, t.flag (quadA q) (laneF LANE_STAT_READY k) = false) ∧
      t.quad q = { s.quad q with exiting := false } ∧
      (∀ k : Fin 16, k ≠ q → t.quad k = s.quad k) ∧ BlockFrame [quadA q] s t ∧ Frame [.regs, .quads] s t) ∧
  (∀ (s : State) (q : Fin 16) (k : Fin 4) (fom : BitVec 8) (link : Bool), s.live = true → k.val ∈ (s.quad q).training →
    s.inL0 q = true → s.flag (quadA q) QUAD_STATUS_PLL_LOCK = true → (s.proto q = 1 ∨ s.proto q = 4) →
    s.fld (quadA q) (laneF LANE_RX_FOM_PASS k) ≤ fom.toNat →
    Completes (.laneLinkUp q k true true link fom) s fun t =>
      t.flag (quadA q) (laneF LANE_STAT_READY k) = true ∧ t.flag (quadA q) (laneF LANE_STAT_CDR_LOCK k) = true ∧
      t.flag (quadA q) (laneF LANE_STAT_BLOCK_LOCK k) = true ∧ t.fld (quadA q) (laneF LANE_STAT_FOM k) = fom.toNat ∧
      t.quad q = { s.quad q with training := (s.quad q).training.filter (· ≠ k.val) } ∧
      ((t.quad q).training = [] → t.flag (quadA q) QUAD_CTRL_RETRAIN = false) ∧
      (∀ j : Fin 16, j ≠ q → t.quad j = s.quad j) ∧
      RegFrame [quadA q + QUAD_CTRL, quadA q + LANE_STAT + 16 * k.val] s t ∧ Frame [.regs, .quads] s t) ∧
  (∀ (s : State) (q : Fin 16) (k : Fin 4) (cdr block link : Bool) (fom : BitVec 8), s.live = true →
    k.val ∈ (s.quad q).training → s.inL0 q = true → s.flag (quadA q) QUAD_STATUS_PLL_LOCK = true →
    ((s.proto q = 1 ∨ s.proto q = 4) ∧ (cdr = false ∨ block = false ∨ fom.toNat < s.fld (quadA q) (laneF LANE_RX_FOM_PASS k)) ∨
      s.proto q ≠ 1 ∧ s.proto q ≠ 4 ∧ link = false) →
    Completes (.laneLinkUp q k cdr block link fom) s fun t =>
      t.flag (quadA q) (laneF LANE_STAT_READY k) = false ∧ t.flag (quadA q) (laneF LANE_STAT_RETRAIN_FAIL k) = true ∧
      t.fld (quadA q) (laneF LANE_CNT_RETRIES k) = min (s.fld (quadA q) (laneF LANE_CNT_RETRIES k) + 1) 0xFFFF ∧
      k.val ∈ (t.quad q).failed ∧ (∀ j : Fin 16, j ≠ q → t.quad j = s.quad j) ∧
      RegFrame [quadA q + QUAD_CTRL, quadA q + LANE_STAT + 16 * k.val, quadA q + LANE_CNT + 16 * k.val] s t ∧ Frame [.regs, .quads] s t) ∧
  (∀ (s : State) (q : Fin 16) (k : Fin 4), s.live = true → k.val ∈ (s.quad q).failed → s.inL0 q = true →
    Completes (.laneRetry q k) s fun t =>
      k.val ∈ (t.quad q).training ∧ k.val ∉ (t.quad q).failed ∧ t.flag (quadA q) (laneF LANE_STAT_READY k) = false ∧
      (∀ j : Fin 16, j ≠ q → t.quad j = s.quad j) ∧ LanesLost q [k.val] s t ∧
      RegFrame ((quadA q + LANE_STAT + 16 * k.val) :: s.trunkRegs q) s t ∧ Frame [.regs, .quads, .prds, .procs] s t) ∧
  (∀ (s : State) (q : Fin 16) (k : Fin 4) (fom : BitVec 8) (c : BitVec 4) (e : Nat), s.live = true → s.inL0 q = true →
    s.flag (quadA q) QUAD_PRBS_EN = false → s.fld (quadA q) (laneF LANE_RX_FOM_MIN k) ≤ fom.toNat →
    Completes (.fomMeasure q k fom c e) s fun t =>
      t.fld (quadA q) (laneF LANE_STAT_FOM k) = fom.toNat ∧
      t.fld (quadA q) (laneF LANE_STAT_CTLE k) = (if s.flag (quadA q) (laneF LANE_RX_ADAPT_EN k) then c.toNat
        else s.fld (quadA q) (laneF LANE_STAT_CTLE k)) ∧
      t.fld (quadA q) (laneF LANE_CNT_ERRORS k) = min (s.fld (quadA q) (laneF LANE_CNT_ERRORS k) + e) 0xFFFF ∧
      t.flag (quadA q) (laneF LANE_STAT_DEGRADED k) = s.flag (quadA q) (laneF LANE_STAT_DEGRADED k) ∧
      RegFrame [quadA q + LANE_STAT + 16 * k.val, quadA q + LANE_CNT + 16 * k.val] s t ∧ Frame [.regs] s t) ∧
  (∀ (s : State) (q : Fin 16) (k : Fin 4) (fom : BitVec 8) (c : BitVec 4), s.live = true → s.inL0 q = true →
    fom.toNat < s.fld (quadA q) (laneF LANE_RX_FOM_MIN k) → s.flag (quadA q) (laneF LANE_STAT_DEGRADED k) = false →
    Completes (.fomMeasure q k fom c 0) s fun t =>
      t.flag (quadA q) (laneF LANE_STAT_DEGRADED k) = true ∧ Logged 0 0x20 1 (srcOf 0 0x48 q) 0 (info8 k) s t ∧
      RegFrame ([quadA q + LANE_STAT + 16 * k.val] ++ recordRegs 0) s t ∧ Frame [.regs, .alm, .flt] s t) ∧
  (∀ (s : State) (q : Fin 16) (k : Fin 4), s.live = true → (s.proto q = 1 ∨ s.proto q = 4) → s.inL0 q = true →
    s.flag (quadA q) (laneF LANE_STAT_BLOCK_LOCK k) = true →
    Completes (.blockLockLoss q k) s fun t =>
      t.flag (quadA q) (laneF LANE_STAT_BLOCK_LOCK k) = false ∧ t.flag (quadA q) (laneF LANE_STAT_READY k) = false ∧
      k.val ∈ (t.quad q).training ∧ (∀ j : Fin 16, j ≠ q → t.quad j = s.quad j) ∧
      LanesLost q [k.val] s t ∧
      RegFrame ((quadA q + LANE_STAT + 16 * k.val) :: s.trunkRegs q) s t ∧ Frame [.regs, .quads, .prds, .procs] s t)

/-- O52. Sensors are read, fail, set the thresholds and trip; Vigil steps up, down and is lost; frequency and voltage follow.
A good conversion is shown, T_hot is the highest die and sets or clears HOT, WARN and THROTTLE; above 150 degrees LIMIT
rises with its event and record; at 160 TRIP rises with its event, and a sensor's second one in a row there trips the
device; the flash window opens and closes; one out of range, or late, fails the sensor with its event and record. A Vigil
tick over budget and settled takes one step up, under it after HOLD_MS one down, and with P between stays; no tick for 10
ms sets fasting 8/16 and VIGIL_LOST. P_MEAS is fresh until it is stale; S_MIN, queue ranks and output entries are stored
and S is clamped. A decided frequency takes effect and a lowering then asks for its voltage; a voltage is shown when
acknowledged, or abandoned with AVS_ERR. (Fused voltages are free values, log entry 15.). Each of these forms ends in a
next state wherever its clause's conditions on state and operands hold: sensorConversion, sensorTimeout, vigilTick,
vigilLost, powerMeasureWrite, pmeasStale, stepMinWrite, outputEntryWrite, queueRankWrite, engFreqChange, avsRequestAck,
avsTimeout. (R455, R456, R457, R458, R459, R460, R461, R462, R463, R464, R468, R489) -/
def Obligations.ThermalSensorsAndVigilGovern : Prop :=
  (∀ (s : State) (n : Fin 64) (v : BitVec 16) (h : Int) (u : State), s.live = true → s.tsFailed n = false →
    (s.setFld thmA (tsF n) v.toNat).badReading n v.toInt = false → v.toInt < 640 →
    (s.flag thmA THM_STATUS_LIMIT = true ∨ h ≤ 600) → (s.flag thmA THM_STATUS_TRIP = true ∨ h < 640) →
    u = (s.setFld thmA (tsF n) v.toNat).withThm { s.thm with seen := n.val :: s.thm.seen } →
    h = u.hottest →
    Completes (.sensorConversion n v) s fun t =>
      t.fld thmA (tsF n) = v.toNat ∧ (∀ k : Fin 64, k ≠ n → t.fld thmA (tsF k) = s.fld thmA (tsF k)) ∧ t.tHot = h ∧
      t.flag thmA THM_STATUS_HOT = (if s.flag thmA THM_STATUS_HOT then decide (s.fld thmA THM_TCFG_T_TARGET * 4 - 12 < h)
        else decide (s.fld thmA THM_TCFG_T_TARGET * 4 ≤ h)) ∧
      t.flag thmA THM_STATUS_WARN = (if s.flag thmA THM_STATUS_WARN then decide (488 < h) else decide (500 ≤ h)) ∧
      t.flag thmA THM_STATUS_THROTTLE = (if s.flag thmA THM_STATUS_THROTTLE then decide (528 < h) else decide (540 ≤ h)) ∧
      t.flag thmA THM_EVT_WARN =
        (s.flag thmA THM_EVT_WARN || t.flag thmA THM_STATUS_WARN && !s.flag thmA THM_STATUS_WARN) ∧
      t.flag thmA THM_STATUS_TRIP = (s.flag thmA THM_STATUS_TRIP && decide (628 < h)) ∧
      t.flag thmA THM_STATUS_FLASH_OK = decide ((if s.flag thmA THM_STATUS_FLASH_OK && !s.thm.cold then -100 else -88) ≤ h ∧
        h ≤ if s.flag thmA THM_STATUS_FLASH_OK then 500 else 488) ∧
      t.alm.shut = !t.flag thmA THM_STATUS_FLASH_OK ∧ t.thm.cold = (s.thm.cold && decide (h < -88)) ∧
      (n.val, s.tick) ∈ t.thm.readAt ∧
      t.thm.hot = s.thm.hot.filter (· ≠ n.val) ∧ n.val ∈ t.thm.seen ∧ t.tripped = false ∧
      BlockFrame [thmA, almA, nvtA] s t ∧ Frame [.regs, .thm, .alm, .pair] s t) ∧
  (∀ (s : State) (n : Fin 64) (v : BitVec 16), s.live = true → s.tsFailed n = false →
    (s.setFld thmA (tsF n) v.toNat).badReading n v.toInt = false → 600 < v.toInt → v.toInt < 640 →
    s.flag thmA THM_STATUS_LIMIT = false → s.flag advA PAIR_CTRL_HO_ON_LIMIT = false →
    (∀ d : Fin 3, ((s.setFld thmA (tsF n) v.toNat).tDie d) ≤ v.toInt) →
    ((tsOfDie (dieOfTs n)).filter (fun k => !s.tsFailed k)).length ≥ 8 →
    Completes (.sensorConversion n v) s fun t =>
      t.flag thmA THM_STATUS_LIMIT = true ∧ t.flag thmA THM_EVT_LIMIT = true ∧ t.pair.due = true ∧ t.tHot = v.toInt ∧
      t.flag thmA THM_STATUS_FLASH_OK = false ∧ t.alm.shut = true ∧ Logged 0 0x28 1 (srcOf 0 9 0) 0 (info8 n) s t ∧
      BlockFrame [thmA, almA, nvtA, fltA 0] s t ∧ Frame [.regs, .thm, .alm, .pair, .flt] s t) ∧
  (∀ (s : State) (n : Fin 64) (v : BitVec 16), s.live = true → s.tsFailed n = false →
    (s.setFld thmA (tsF n) v.toNat).badReading n v.toInt = false → 640 ≤ v.toInt → n.val ∈ s.thm.hot →
    s.flag thmA THM_STATUS_TRIP = false →
    Completes (.sensorConversion n v) s fun t =>
      t.tripped = true ∧ t.live = false ∧ t.flag thmA THM_STATUS_TRIP = true ∧
      (t.flt.log 0).head? = some (faultRec 0x29 4 (srcOf 0 9 0) 0 (info8 n) s.time32) ∧
      t.fld thmA (tsF n) = v.toNat ∧ BlockFrame [thmA, almA, nvtA, fltA 0] s t ∧
      Frame [.regs, .thm, .alm, .pair, .flt] s t) ∧
  (∀ (s : State) (n : Fin 64) (v : BitVec 16), s.live = true → s.tsFailed n = false →
    (s.setFld thmA (tsF n) v.toNat).badReading n v.toInt = false → 640 ≤ v.toInt → n.val ∈ s.thm.hot →
    s.flag thmA THM_STATUS_TRIP = true → s.flag thmA THM_STATUS_LIMIT = true →
    ((tsOfDie (dieOfTs n)).filter (fun k => !s.tsFailed k)).length ≥ 8 →
    Completes (.sensorConversion n v) s fun t =>
      t.tripped = true ∧ t.live = false ∧ t.flag thmA THM_STATUS_TRIP = true ∧ t.fld thmA (tsF n) = v.toNat ∧
      BlockFrame [thmA, almA, nvtA] s t ∧ Frame [.regs, .thm, .alm] s t) ∧
  (∀ (s : State) (n : Fin 64) (v : BitVec 16), s.live = true → s.tsFailed n = false →
    (s.setFld thmA (tsF n) v.toNat).badReading n v.toInt = false → 640 ≤ v.toInt → n.val ∉ s.thm.hot →
    s.flag thmA THM_STATUS_TRIP = false → s.flag thmA THM_STATUS_LIMIT = true →
    ((tsOfDie (dieOfTs n)).filter (fun k => !s.tsFailed k)).length ≥ 8 →
    Completes (.sensorConversion n v) s fun t =>
      t.flag thmA THM_STATUS_TRIP = true ∧ t.tripped = false ∧ n.val ∈ t.thm.hot ∧
      Logged 0 0x29 4 (srcOf 0 9 0) 0 (info8 n) s t ∧
      BlockFrame [thmA, almA, nvtA, fltA 0] s t ∧ Frame [.regs, .thm, .alm, .flt] s t) ∧
  (∀ (s : State) (n : Fin 64) (v : BitVec 16), s.live = true → s.tsFailed n = false →
    (v.toInt < -240 ∨ 800 < v.toInt) → s.flag thmA THM_STATUS_LIMIT = true → s.flag thmA THM_STATUS_TRIP = true →
    Completes (.sensorConversion n v) s fun t =>
      t.tsFailed n = true ∧ (∀ k : Fin 64, k ≠ n → t.tsFailed k = s.tsFailed k) ∧ t.flag thmA THM_EVT_TSFAIL = true ∧
      Logged 0 0x28 1 (srcOf 0 9 0) 0 (info8 n) s t ∧ t.thm.hot = s.thm.hot ∧ t.thm.seen = s.thm.seen ∧ t.tripped = false ∧
      t.tHot = t.hottest ∧ BlockFrame [thmA, almA, nvtA, fltA 0] s t ∧ Frame [.regs, .thm, .alm, .pair, .flt] s t) ∧
  (∀ (s : State) (n : Fin 64) (v : BitVec 16), s.live = true → s.tsFailed n = true →
    Completes (.sensorConversion n v) s fun t =>
      t.fld thmA (tsF n) = v.toNat ∧ t.tHot = s.tHot ∧ (∀ k : Fin 64, k ≠ n → t.fld thmA (tsF k) = s.fld thmA (tsF k)) ∧
      t.thm = { s.thm with readAt := t.thm.readAt } ∧ BlockFrame [thmA] s t ∧ Frame [.regs, .thm] s t) ∧
  (∀ (s : State) (n : Fin 64), s.live = true → s.tsFailed n = false → s.flag thmA THM_STATUS_LIMIT = true →
    s.flag thmA THM_STATUS_TRIP = true → s.tsOverdue n = true →
    Completes (.sensorTimeout n) s fun t =>
      t.tsFailed n = true ∧ (∀ k : Fin 64, k ≠ n → t.tsFailed k = s.tsFailed k) ∧ t.flag thmA THM_EVT_TSFAIL = true ∧
      Logged 0 0x28 1 (srcOf 0 9 0) 0 (info8 n) s t ∧ t.thm = { s.thm with cold := t.thm.cold } ∧ t.tHot = t.hottest ∧
      BlockFrame [thmA, almA, nvtA, fltA 0] s t ∧ Frame [.regs, .thm, .alm, .pair, .flt] s t) ∧
  (∀ (s : State) (p : BitVec 16), s.live = true → s.flag thmA THM_CTRL_EN = true → s.flag thmA THM_STATUS_THROTTLE = false →
    s.flag thmA THM_STATUS_HOT = false → s.thm.dramHot = [] → s.thm.fresh = false → s.thm.last = none →
    s.fld thmA THM_PLIMIT_P_LIMIT ≠ 0 → s.fld thmA THM_PLIMIT_P_LIMIT < p.toNat → s.vigilStep + 1 < s.ladder.length →
    s.fld thmA THM_TCFG_S_MIN ≤ s.vigilStep + 1 → s.ladder.length < 64 →
    Completes (.vigilTick p) s fun t =>
      t.fld thmA THM_PEST_P_EST = p.toNat ∧ t.vigilStep = s.vigilStep + 1 ∧ t.fld thmA THM_STEP_S_TOP = s.ladder.length ∧
      t.thm.last = s.ladder[s.vigilStep]? ∧ t.thm.since = 0 ∧ t.thm.lost = false ∧
      (∀ q : Fin 64, q.val ∈ t.thm.held ↔ VAct.hold (s.queueRank (q.val / 4) (q.val % 4)) ∈ s.ladder.take (s.vigilStep + 1)) ∧
      (∀ i : Fin 32, i.val ∈ t.thm.shed ↔ VAct.shed i ∈ s.ladder.take (s.vigilStep + 1)) ∧
      t.fld thmA THM_OPPT_DEPTH = ((s.ladder.take (s.vigilStep + 1)).filter (fun (a : VAct) => match a with | .depth _ => true | _ => false)).length ∧
      t.flag thmA THM_STATUS_BUDGET_SHORT = false ∧ t.mem = s.mem ∧ t.alm = s.alm ∧
      BlockFrame (thmA :: (List.range 16).map engA) s t ∧ Frame [.regs, .thm, .codec, .vccs, .sent, .free] s t) ∧
  (∀ (s : State) (p : BitVec 16), s.live = true → s.flag thmA THM_CTRL_EN = true → s.flag thmA THM_STATUS_THROTTLE = false →
    s.flag thmA THM_STATUS_HOT = false → s.thm.dramHot = [] → s.thm.fresh = false →
    p.toNat + s.fld thmA THM_PLIMIT_P_HYST < s.fld thmA THM_PLIMIT_P_LIMIT → s.tHot < s.fld thmA THM_TCFG_T_TARGET * 4 - 12 →
    s.fld thmA THM_TCFG_S_MIN < s.vigilStep → max 1 (s.fld thmA THM_CTRL_HOLD_MS) ≤ s.thm.since →
    s.vigilStep ≤ s.ladder.length → s.ladder.length < 64 →
    Completes (.vigilTick p) s fun t =>
      t.vigilStep = s.vigilStep - 1 ∧ t.thm.since = 0 ∧ t.thm.last = s.ladder[s.vigilStep - 1]? ∧
      (∀ i : Fin 32, i.val ∈ t.thm.shed ↔ VAct.shed i ∈ s.ladder.take (s.vigilStep - 1)) ∧
      t.flag thmA THM_STATUS_BUDGET_SHORT = false ∧
      BlockFrame (thmA :: (List.range 16).map engA) s t ∧ Frame [.regs, .thm, .codec, .vccs, .sent, .free] s t) ∧
  (∀ (s : State) (p : BitVec 16), s.live = true → s.flag thmA THM_CTRL_EN = true → s.flag thmA THM_STATUS_THROTTLE = false →
    s.flag thmA THM_STATUS_HOT = false → s.thm.dramHot = [] → s.thm.fresh = false →
    p.toNat ≤ s.fld thmA THM_PLIMIT_P_LIMIT → s.fld thmA THM_PLIMIT_P_LIMIT ≤ p.toNat + s.fld thmA THM_PLIMIT_P_HYST →
    s.fld thmA THM_PLIMIT_P_LIMIT ≠ 0 → s.fld thmA THM_TCFG_S_MIN ≤ s.vigilStep → s.vigilStep < s.ladder.length →
    s.ladder.length < 64 →
    Completes (.vigilTick p) s fun t =>
      t.vigilStep = s.vigilStep ∧ t.thm.since = min 65535 (s.thm.since + 1) ∧ t.thm.last = s.thm.last ∧
      t.flag thmA THM_STATUS_VIGIL_LOST = false ∧ t.flag thmA THM_STATUS_BUDGET_SHORT = false ∧
      BlockFrame (thmA :: (List.range 16).map engA) s t ∧ Frame [.regs, .thm, .codec, .vccs, .sent, .free] s t) ∧
  (∀ (s : State), s.live = true → s.thm.lost = false → s.thm.ranTick + usTicks 10000 ≤ s.tick → s.engFreq 0 = 8 → s.engFreq 1 = 8 →
    Completes .vigilLost s fun t =>
      t.flag thmA THM_STATUS_VIGIL_LOST = true ∧ t.flag thmA THM_EVT_VIGIL_LOST = true ∧ t.fld thmA THM_OPPT_FAST = 8 ∧
      (∀ c : Fin 16, t.fld (engA c) ENG_STATUS_FAST = 8) ∧ t.thm = { s.thm with lost := true } ∧
      Logged 0 0x28 1 (srcOf 0 9 0) 0 (info8 0) s t ∧
      BlockFrame (thmA :: fltA 0 :: almA :: nvtA :: (List.range 16).map engA) s t ∧
      Frame [.regs, .thm, .alm, .flt] s t) ∧
  (∀ (s : State) (d : Fin 2), s.live = true → s.thm.lost = false → s.thm.ranTick + usTicks 10000 ≤ s.tick → 8 < s.engFreq d → s.engFreq (1 - d.val) = 8 →
    Completes .vigilLost s fun t =>
      (t.dieFreq d).due = some 8 ∧ t.engFreq d = s.engFreq d ∧ t.thm.lost = true ∧
      t.dieFreq (1 - d.val) = s.dieFreq (1 - d.val) ∧
      BlockFrame (thmA :: fltA 0 :: almA :: nvtA :: (List.range 16).map engA) s t ∧
      Frame [.regs, .thm, .alm, .flt] s t) ∧
  (∀ (s : State) (r : Req) (v : BitVec 16), s.live = true →
    Completes (.powerMeasureWrite r v) s fun t =>
      t.fld thmA THM_PMEAS_P_MEAS = v.toNat ∧ t.thm = { s.thm with fresh := true, measTick := s.tick } ∧
      RegFrame [thmA + THM_PMEAS] s t ∧ Frame [.regs, .thm] s t) ∧
  (∀ (s : State), s.live = true → s.thm.measTick + usTicks 20000 ≤ s.tick →
    Completes .pmeasStale s fun t => t.thm = { s.thm with fresh := false } ∧ Frame [.thm] s t) ∧
  (∀ (s : State) (r : Req) (v : BitVec 6), s.live = true → 85 ≤ s.fld thmA THM_TCFG_T_TARGET →
    s.fld thmA THM_TCFG_T_TARGET ≤ 135 →
    Completes (.stepMinWrite r v) s fun t =>
      t.fld thmA THM_TCFG_S_MIN = v.toNat ∧ t.fld thmA THM_TCFG_T_TARGET = s.fld thmA THM_TCFG_T_TARGET ∧
      t.vigilStep = s.vigilStep ∧ RegFrame [thmA + THM_TCFG, almA + ALM_STATUS, nvtA + NVT_STATUS] s t ∧
      Frame [.regs, .alm] s t) ∧
  (∀ (s : State) (r : Req) (v : Word) (i : Nat), s.live = true → s.fld thmA THM_OIDX_ENTRY = i → s.vigilStep = 0 →
    Completes (.outputEntryWrite r v) s fun t =>
      t.outEntry i = v &&& 0xFFF0003F ∧ TblFrame .output 0 i s t ∧ t.fld thmA THM_OIDX_ENTRY = (i + 1) % 32 ∧
      t.fld thmA THM_STEP_S_TOP = t.ladder.length % 64 ∧ t.vigilStep = 0 ∧ t.thm.shed = [] ∧ t.thm.held = [] ∧
      BlockFrame (thmA :: almA :: nvtA :: (List.range 16).map engA) s t ∧
      Frame [.regs, .tbl, .thm, .codec, .vccs, .alm] s t) ∧
  (∀ (s : State) (r : Req) (k : Fin 4) (v : Word), s.live = true → s.vigilStep = 1 →
    Completes (.queueRankWrite r k v) s fun t =>
      t.rd (thmA + THM_QRANK + 4 * k) = v ∧ t.vigilStep = 1 ∧ t.fld thmA THM_STEP_S_TOP = t.ladder.length % 64 ∧
      (∀ q : Fin 64, q.val ∈ t.thm.held ↔ t.queueRank (q.val / 4) (q.val % 4) = 0) ∧ t.thm.shed = [] ∧ t.thm.pause = true ∧
      (∀ j : Fin 32, (t.fld thmA THM_QHELD_Q0_HELD).testBit j = decide (t.queueRank (j.val / 4) (j.val % 4) = 0)) ∧
      BlockFrame (thmA :: almA :: nvtA :: (List.range 16).map engA) s t ∧
      Frame [.regs, .thm, .codec, .vccs, .alm] s t) ∧
  (∀ (s : State) (d : Fin 2) (g : Nat), s.live = true → (s.dieFreq d).due = some g → s.engFreq d ≤ g → g < 32 →
    Completes (.engFreqChange d) s fun t =>
      t.engFreq d = g ∧ (∀ c : Fin 8, t.fld (engA (d.val * 8 + c)) ENG_STATUS_FREQ = g) ∧
      t.dieFreq d = { s.dieFreq d with due := none } ∧ t.dieFreq (1 - d.val) = s.dieFreq (1 - d.val) ∧
      BlockFrame (thmA :: (List.range 8).map (fun c => engA (d.val * 8 + c))) s t ∧ Frame [.regs, .thm] s t) ∧
  (∀ (s : State) (d : Fin 2) (g : Nat), s.live = true → (s.dieFreq d).due = some g → g < s.engFreq d →
    s.flag gpioA AVS_CTRL_AVS_EN = true →
    Completes (.engFreqChange d) s fun t =>
      t.engFreq d = g ∧ (t.dieFreq d).due = none ∧
      (∃ mv : Nat, (t.dieFreq d).avs = some ⟨mv, none, s.tick⟩ ∧ t.sent = ⟨.avs d, 0, [d.val, mv]⟩ :: s.sent ∧ mv % 5 = 0 ∧
        550 ≤ mv ∧ mv ≤ 800 ∧
        (Config.fusedMv d (s.engBin d) g + min 50 (s.fld gpioA AVS_CTRL_MARGIN_MV) < mv + 5 ∨ mv = 800) ∧
        (mv < Config.fusedMv d (s.engBin d) g + min 50 (s.fld gpioA AVS_CTRL_MARGIN_MV) + 5 ∨ mv = 550)) ∧
      t.dieFreq (1 - d.val) = s.dieFreq (1 - d.val) ∧
      BlockFrame (thmA :: (List.range 8).map (fun c => engA (d.val * 8 + c))) s t ∧ Frame [.regs, .thm, .sent, .free] s t) ∧
  (∀ (s : State) (d : Fin 2) (m f k : Nat), s.live = true → (s.dieFreq d).avs = some ⟨m, some f, k⟩ → m < 1024 →
    Completes (.avsRequestAck d) s fun t =>
      t.fld gpioA (if d.val = 0 then AVS_VOLT_V_C0 else AVS_VOLT_V_C1) = m ∧ t.dieFreq d = ⟨some f, none⟩ ∧
      t.dieFreq (1 - d.val) = s.dieFreq (1 - d.val) ∧ RegFrame [gpioA + AVS_VOLT] s t ∧ Frame [.regs, .thm] s t) ∧
  (∀ (s : State) (d : Fin 2) (a : AvsReq), s.live = true → (s.dieFreq d).avs = some a → a.tick + usTicks 20 ≤ s.tick →
    Completes (.avsTimeout d) s fun t =>
      t.flag gpioA AVS_EVT_AVS_ERR = true ∧
      t.fld gpioA AVS_EVT_ERRORS = min (s.fld gpioA AVS_EVT_ERRORS + 1) 0xFFFF ∧
      t.dieFreq d = { s.dieFreq d with avs := none } ∧ t.dieFreq (1 - d.val) = s.dieFreq (1 - d.val) ∧
      t.rd (gpioA + AVS_VOLT) = s.rd (gpioA + AVS_VOLT) ∧ RegFrame [gpioA + AVS_EVT] s t ∧ Frame [.regs, .thm] s t)

/-- O53. Two-wire controllers start, finish, retry and lose transfers, recover the bus and answer Lantern calls. GO on a free
bus starts the software transfer with its bytes, waits on a busy one and ends with RESULT 6 on a stuck one. On a free bus
the earliest calendar item goes first, then Lantern polls. An item that ends well is acknowledged and counted; a NACK is
counted and misses. A Lantern byte is shown with NZ; a software read shows its data. Lost arbitration and a bus error
retry up to RETRY_MAX, then end with RESULT 3 or 4; an item at its deadline is not retried and misses. A stretch timeout
ends with RESULT 5. RECOVER runs the recovery: SDA high ends it with RECOVERED, nine lows raise SDA_STUCK, SCL low sends
nothing. SCL and SDA stuck end a waiting transfer; a Lantern call clears the masks and polls every enabled entry. Each of
these forms ends in a next state wherever its clause's conditions on state and operands hold: twcGo, twcRecover,
twcBusFree, twcTransferDone, arbitrationLoss, busError, twcRetry, stretchTimeout, busRecovery, sclStuck, sdaStuck,
lanternCall, busStartSeen. (R442, R443, R444, R445, R446, R447, R448, R449, R450) -/
def Obligations.TwoWireControllersTransferRetryAndRecover : Prop :=
  (∀ (s : State) (r : Req) (c : Fin 8) (v : Word), s.live = true → s.flag (twcA c) TWC_CTRL_EN = true →
    s.flag (twcA c) TWC_CMD_GO = false → v.toNat.testBit 30 = false → (s.twc c).queue = [] → (s.twc c).cur = none →
    (s.twc c).poll = [] → (s.twc c).busy = false → s.twcStuck c = false → (∀ p : Fin 12, (s.cal p).waiting = []) →
    Completes (.twcGo r c v) s fun t =>
      t.twc c = { s.twc c with cur := some .software, onBus := true, busy := true, swWait := true } ∧
      t.rd (twcA c + TWC_CMD) = (infoAt (twcA c + TWC_CMD)).written (s.rd (twcA c + TWC_CMD)) (v ||| 0x80000000) ∧
      t.sent = ⟨.twoWire (Fin.ofNat 9 c), 1, t.swBytes c⟩ :: s.sent ∧ t.flag (twcA c) TWC_STATUS_BUSY = true ∧
      t.flag (twcA c) TWC_STATUS_BUS_BUSY = true ∧ (∀ k : Fin 8, k ≠ c → t.twc k = s.twc k) ∧
      RegFrame [twcA c + TWC_CMD, twcA c + TWC_STATUS] s t ∧ Frame [.regs, .twcs, .sent] s t) ∧
  (∀ (s : State) (r : Req) (c : Fin 8) (v : Word), s.live = true → s.flag (twcA c) TWC_CMD_GO = false →
    v.toNat.testBit 30 = false → (s.twc c).queue = [] → (s.twc c).cur = none → s.twcStuck c = true →
    (∀ p : Fin 12, (s.cal p).waiting = []) →
    Completes (.twcGo r c v) s fun t =>
      (t.twc c) = { s.twc c with swWait := false } ∧ t.flag (twcA c) TWC_CMD_GO = false ∧ t.fld (twcA c) TWC_RES_RESULT = 6 ∧
      t.flag (twcA c) TWC_RES_DONE = true ∧ (∀ k : Fin 8, k ≠ c → t.twc k = s.twc k) ∧
      RegFrame [twcA c + TWC_CMD, twcA c + TWC_STATUS, twcA c + TWC_RES] s t ∧ Frame [.regs, .twcs] s t) ∧
  (∀ (s : State) (r : Req) (c : Fin 8) (v : Word), s.live = true → s.flag (twcA c) TWC_CMD_GO = false →
    v.toNat.testBit 30 = false → (s.twc c).queue = [] → (s.twc c).busy = true → s.twcStuck c = false →
    (∀ p : Fin 12, (s.cal p).waiting = []) →
    Completes (.twcGo r c v) s fun t =>
      (t.twc c) = { s.twc c with swWait := true } ∧ t.flag (twcA c) TWC_CMD_GO = true ∧
      (∀ k : Fin 8, k ≠ c → t.twc k = s.twc k) ∧
      RegFrame [twcA c + TWC_CMD, twcA c + TWC_STATUS] s t ∧ Frame [.regs, .twcs] s t) ∧
  (∀ (s : State) (r : Req) (c : Fin 8) (v : Word), s.live = true → v.toNat.testBit 31 = false →
    Completes (.twcRecover r c v) s fun t =>
      (t.twc c).recovering = ((s.twc c).recovering || !(s.twc c).onBus) ∧
      t.twc c = { s.twc c with recovering := (t.twc c).recovering } ∧
      t.flag (twcA c) TWC_CMD_RECOVER = !(s.twc c).onBus ∧ (∀ k : Fin 8, k ≠ c → t.twc k = s.twc k) ∧
      RegFrame [twcA c + TWC_CMD] s t ∧ Frame [.regs, .twcs] s t) ∧
  (∀ (s : State) (c : Fin 8), s.live = true → (s.twc c).queue = [] → (s.twc c).cur = none → (s.twc c).poll = [] →
    (s.twc c).swWait = false → (∀ p : Fin 12, (s.cal p).waiting = []) →
    Completes (.twcBusFree c) s fun t =>
      t.twc c = { s.twc c with busy := false, sclLow := false, sdaLow := false } ∧ t.flag (twcA c) TWC_STATUS_BUS_BUSY = false ∧
      t.flag (twcA c) TWC_STATUS_SCL_STUCK = false ∧ t.flag (twcA c) TWC_STATUS_SDA_STUCK = false ∧
      (∀ k : Fin 8, k ≠ c → t.twc k = s.twc k) ∧ RegFrame [twcA c + TWC_STATUS] s t ∧ Frame [.regs, .twcs] s t) ∧
  (∀ (s : State) (c : Fin 8) (x : TwcItem), s.live = true → s.flag (twcA c) TWC_CTRL_EN = true → (s.twc c).cur = none →
    x ∈ (s.twc c).queue → (∀ y ∈ (s.twc c).queue, s.nowNs < y.deadline ∧ (y = x ∨ x.before y = true ∧ y.before x = false)) →
    (x.alen = 1 ∨ x.alen = 2) → (∀ p : Fin 12, (s.cal p).waiting = []) →
    Completes (.twcBusFree c) s fun t =>
      (t.twc c).cur = some (.item x) ∧ (t.twc c).onBus = true ∧ (t.twc c).queue = (s.twc c).queue ∧
      t.sent = ⟨.twoWire (Fin.ofNat 9 c), 1, x.bytes⟩ :: s.sent ∧ t.flag (twcA c) TWC_STATUS_BUSY = true ∧
      (∀ k : Fin 8, k ≠ c → t.twc k = s.twc k) ∧ RegFrame [twcA c + TWC_STATUS] s t ∧ Frame [.regs, .twcs, .sent] s t) ∧
  (∀ (s : State) (c : Fin 8) (k : Nat) (l : List Nat), s.live = true → s.flag (twcA c) TWC_CTRL_EN = true →
    (s.twc c).cur = none → (s.twc c).queue = [] → (s.twc c).poll = k :: l → (∀ p : Fin 12, (s.cal p).waiting = []) →
    Completes (.twcBusFree c) s fun t =>
      (t.twc c).cur = some (.lantern k) ∧ (t.twc c).onBus = true ∧
      t.sent = ⟨.twoWire (Fin.ofNat 9 c), 1, s.lanternBytes c k⟩ :: s.sent ∧
      (∀ j : Fin 8, j ≠ c → t.twc j = s.twc j) ∧ RegFrame [twcA c + TWC_STATUS] s t ∧ Frame [.regs, .twcs, .sent] s t) ∧
  (∀ (s : State) (c : Fin 8) (x : TwcItem) (p : Fin 12), s.live = true → (s.twc c).cur = some (.item x) →
    (s.twc c).onBus = true → x.port = p → (s.calEntry p x.entry).state = 2 → x.target = (s.calEntry p x.entry).target →
    s.nowNs ≤ x.deadline →
    Completes (.twcTransferDone c .done []) s fun t =>
      (t.twc c).cur = none ∧ (t.twc c).queue = (s.twc c).queue.filter (· ≠ x) ∧ t.flag (twcA c) TWC_STATUS_BUSY = false ∧
      t.fld (twcA c) TWC_CNT2_ITEMS = min (s.fld (twcA c) TWC_CNT2_ITEMS + 1) 0xFFFF ∧
      t.calEntry p x.entry = { s.calEntry p x.entry with
        acked := (s.calEntry p x.entry).acked + 1,
        state := if (s.calEntry p x.entry).acked + 1 = (s.calEntry p x.entry).wlCount then 3 else 2 } ∧
      (∀ k : Fin 8, k ≠ c → t.twc k = s.twc k) ∧ (∀ k : Fin 12, k ≠ p → t.cal k = s.cal k) ∧
      RegFrame [twcA c + TWC_STATUS, twcA c + TWC_CNT2] s t ∧ Frame [.regs, .twcs, .cals] s t) ∧
  (∀ (s : State) (c : Fin 8) (x : TwcItem) (p : Fin 12), s.live = true → (s.twc c).cur = some (.item x) →
    (s.twc c).onBus = true → x.port = p → (s.calEntry p x.entry).state = 2 → s.flag (calA p) CAL_CTRL_MISS_POLICY = false →
    s.fld (calA p) CAL_CTRL_TWC = c →
    Completes (.twcTransferDone c .addrNack []) s fun t =>
      t.flag (twcA c) TWC_STATUS_NACK = true ∧ t.fld (twcA c) TWC_CNT_NACKS = min (s.fld (twcA c) TWC_CNT_NACKS + 1) 0xFF ∧
      t.flag (calA p) CAL_STATUS_MISS = true ∧ t.fld (calA p) CAL_CNT_MISSES = min (s.fld (calA p) CAL_CNT_MISSES + 1) 0xFFFF ∧
      (t.twc c).cur = none ∧ (t.calEntry p x.entry).state = 0 ∧
      (∀ y ∈ (t.twc c).queue, y.port ≠ x.port ∨ y.entry ≠ x.entry) ∧
      (∀ k : Fin 8, k ≠ c → t.twc k = s.twc k) ∧ (∀ k : Fin 12, k ≠ p → t.cal k = s.cal k) ∧
      BlockFrame [twcA c, calA p] s t ∧ Frame [.regs, .twcs, .cals] s t) ∧
  (∀ (s : State) (c : Fin 8) (k : Fin 8) (l : List Nat) (d : Byte), s.live = true → (s.twc c).cur = some (.lantern k) →
    (s.twc c).onBus = true → (s.twc c).poll = k.val :: l → (s.twc c).callAgain = false →
    Completes (.twcTransferDone c .done [d]) s fun t =>
      bits (t.rd (twcA c + (if k.val < 4 then TWC_LRES0 else TWC_LRES1))).toNat (8 * (k.val % 4) + 7) (8 * (k.val % 4)) = d.toNat ∧
      (t.fld (twcA c) TWC_LSTAT_NZ).testBit k = decide (d ≠ 0) ∧ (t.twc c).poll = l ∧ (t.twc c).cur = none ∧
      t.fld (twcA c) TWC_LSTAT_FAIL = s.fld (twcA c) TWC_LSTAT_FAIL ∧ (∀ j : Fin 8, j ≠ c → t.twc j = s.twc j) ∧
      RegFrame [twcA c + TWC_STATUS, twcA c + TWC_LSTAT, twcA c + (if k.val < 4 then TWC_LRES0 else TWC_LRES1)] s t ∧
      Frame [.regs, .twcs] s t) ∧
  (∀ (s : State) (c : Fin 8) (d : List Byte), s.live = true → (s.twc c).cur = some .software → (s.twc c).onBus = true →
    s.flag (twcA c) TWC_CMD_READ = true → s.fld (twcA c) TWC_CMD_LEN = d.length → d.length ≤ 8 →
    Completes (.twcTransferDone c .done d) s fun t =>
      t.rd (twcA c + TWC_DATA0) = wd (leNat d) ∧ t.rd (twcA c + TWC_DATA1) = wd (leNat d / 2 ^ 32) ∧
      t.fld (twcA c) TWC_RES_RESULT = 0 ∧ t.fld (twcA c) TWC_RES_COUNT = d.length ∧ t.flag (twcA c) TWC_RES_DONE = true ∧
      t.flag (twcA c) TWC_CMD_GO = false ∧ t.flag (twcA c) TWC_STATUS_BUSY = false ∧
      t.twc c = { s.twc c with cur := none, onBus := false, retries := 0, swWait := false } ∧
      (∀ k : Fin 8, k ≠ c → t.twc k = s.twc k) ∧
      RegFrame [twcA c + TWC_STATUS, twcA c + TWC_CMD, twcA c + TWC_RES, twcA c + TWC_DATA0, twcA c + TWC_DATA1] s t ∧
      Frame [.regs, .twcs] s t) ∧
  (∀ (s : State) (c : Fin 8), s.live = true → (s.twc c).onBus = true → (s.twc c).retries < s.fld (twcA c) TWC_CTRL_RETRY_MAX →
    Completes (.arbitrationLoss c) s fun t =>
      t.flag (twcA c) TWC_STATUS_ARB_LOST = true ∧
      t.fld (twcA c) TWC_CNT_ARB_LOSSES = min (s.fld (twcA c) TWC_CNT_ARB_LOSSES + 1) 0xFF ∧
      t.twc c = { s.twc c with onBus := false, retries := (s.twc c).retries + 1, retryBusErr := false } ∧
      (∀ k : Fin 8, k ≠ c → t.twc k = s.twc k) ∧
      RegFrame [twcA c + TWC_STATUS, twcA c + TWC_CNT] s t ∧ Frame [.regs, .twcs] s t) ∧
  (∀ (s : State) (c : Fin 8), s.live = true → (s.twc c).onBus = true → (s.twc c).cur = some .software →
    s.fld (twcA c) TWC_CTRL_RETRY_MAX ≤ (s.twc c).retries →
    Completes (.arbitrationLoss c) s fun t =>
      t.flag (twcA c) TWC_STATUS_ARB_LOST = true ∧ t.fld (twcA c) TWC_RES_RESULT = 3 ∧ t.flag (twcA c) TWC_RES_DONE = true ∧
      t.flag (twcA c) TWC_CMD_GO = false ∧ (t.twc c).cur = none ∧ (∀ k : Fin 8, k ≠ c → t.twc k = s.twc k) ∧
      RegFrame [twcA c + TWC_STATUS, twcA c + TWC_CNT, twcA c + TWC_CMD, twcA c + TWC_RES] s t ∧ Frame [.regs, .twcs] s t) ∧
  (∀ (s : State) (c : Fin 8), s.live = true → (s.twc c).onBus = true → (s.twc c).retries < s.fld (twcA c) TWC_CTRL_RETRY_MAX →
    Completes (.busError c) s fun t =>
      t.flag (twcA c) TWC_STATUS_BUS_ERR = true ∧
      t.flag (twcA c) TWC_STATUS_ARB_LOST = s.flag (twcA c) TWC_STATUS_ARB_LOST ∧
      t.twc c = { s.twc c with onBus := false, retries := (s.twc c).retries + 1, retryBusErr := true } ∧
      (∀ k : Fin 8, k ≠ c → t.twc k = s.twc k) ∧ RegFrame [twcA c + TWC_STATUS] s t ∧ Frame [.regs, .twcs] s t) ∧
  (∀ (s : State) (c : Fin 8), s.live = true → (s.twc c).onBus = true → (s.twc c).cur = some .software →
    s.fld (twcA c) TWC_CTRL_RETRY_MAX ≤ (s.twc c).retries →
    Completes (.busError c) s fun t =>
      t.flag (twcA c) TWC_STATUS_BUS_ERR = true ∧ t.fld (twcA c) TWC_RES_RESULT = 4 ∧ t.flag (twcA c) TWC_RES_DONE = true ∧
      (t.twc c).cur = none ∧ (∀ k : Fin 8, k ≠ c → t.twc k = s.twc k) ∧
      RegFrame [twcA c + TWC_STATUS, twcA c + TWC_CMD, twcA c + TWC_RES] s t ∧ Frame [.regs, .twcs] s t) ∧
  (∀ (s : State) (c : Fin 8), s.live = true → (s.twc c).onBus = false → (s.twc c).busy = false →
    (s.twc c).cur = some .software → s.twcStuck c = false → s.flag (twcA c) TWC_CTRL_EN = true →
    Completes (.twcRetry c) s fun t =>
      t.twc c = { s.twc c with onBus := true, busy := true } ∧ t.flag (twcA c) TWC_STATUS_BUSY = true ∧
      t.sent = ⟨.twoWire (Fin.ofNat 9 c), 1, s.swBytes c⟩ :: s.sent ∧ (∀ k : Fin 8, k ≠ c → t.twc k = s.twc k) ∧
      RegFrame [twcA c + TWC_STATUS] s t ∧ Frame [.regs, .twcs, .sent] s t) ∧
  (∀ (s : State) (c : Fin 8) (x : TwcItem) (p : Fin 12), s.live = true → (s.twc c).onBus = false → (s.twc c).busy = false →
    (s.twc c).cur = some (.item x) → s.twcStuck c = false → s.flag (twcA c) TWC_CTRL_EN = true → x.deadline ≤ s.nowNs →
    x.port = p → (s.calEntry p x.entry).state = 2 → s.flag (calA p) CAL_CTRL_MISS_POLICY = false →
    Completes (.twcRetry c) s fun t =>
      t.fld (twcA c) TWC_CNT2_LATE_ITEMS = min (s.fld (twcA c) TWC_CNT2_LATE_ITEMS + 1) 0xFFFF ∧ (t.twc c).cur = none ∧
      t.flag (calA p) CAL_STATUS_MISS = true ∧ (t.calEntry p x.entry).state = 0 ∧
      (∀ k : Fin 12, k ≠ p → t.cal k = s.cal k) ∧ t.sent = s.sent ∧ Frame [.regs, .twcs, .cals] s t) ∧
  (∀ (s : State) (c : Fin 8) (b : Bool), s.live = true → (s.twc c).onBus = true → (s.twc c).cur = some .software →
    Completes (.stretchTimeout c b) s fun t =>
      t.flag (twcA c) TWC_STATUS_STRETCH_TO = true ∧ t.fld (twcA c) TWC_RES_RESULT = 5 ∧ t.flag (twcA c) TWC_RES_DONE = true ∧
      t.fld (twcA c) TWC_CNT_STRETCH_TOS = min (s.fld (twcA c) TWC_CNT_STRETCH_TOS + 1) 0xFF ∧ (t.twc c).cur = none ∧
      (t.twc c).recovering = ((s.twc c).recovering || s.flag (twcA c) TWC_CTRL_LONG_BUS && b) ∧
      (∀ k : Fin 8, k ≠ c → t.twc k = s.twc k) ∧
      RegFrame [twcA c + TWC_STATUS, twcA c + TWC_CNT, twcA c + TWC_CMD, twcA c + TWC_RES] s t ∧ Frame [.regs, .twcs] s t) ∧
  (∀ (s : State) (c : Fin 8) (n : Fin 9) (l : List Bool), s.live = true → (s.twc c).recovering = true →
    (s.twc c).sclLow = false →
    Completes (.busRecovery c (List.replicate n false ++ true :: l)) s fun t =>
      t.flag (twcA c) TWC_STATUS_RECOVERED = true ∧
      t.fld (twcA c) TWC_CNT_RECOVERIES = min (s.fld (twcA c) TWC_CNT_RECOVERIES + 1) 0xFF ∧
      t.twc c = { s.twc c with recovering := false, sdaLow := false } ∧ t.flag (twcA c) TWC_CMD_RECOVER = false ∧
      t.sent = ⟨.twoWire (Fin.ofNat 9 c), 2, [n.val + 1]⟩ :: s.sent ∧ (∀ k : Fin 8, k ≠ c → t.twc k = s.twc k) ∧
      RegFrame [twcA c + TWC_STATUS, twcA c + TWC_CNT, twcA c + TWC_CMD] s t ∧ Frame [.regs, .twcs, .sent] s t) ∧
  (∀ (s : State) (c : Fin 8) (l : List Bool), s.live = true → (s.twc c).recovering = true → (s.twc c).sclLow = false →
    (s.twc c).swWait = false →
    Completes (.busRecovery c (List.replicate 9 false ++ l)) s fun t =>
      t.flag (twcA c) TWC_STATUS_SDA_STUCK = true ∧
      t.twc c = { s.twc c with recovering := s.flag (twcA c) TWC_CTRL_LONG_BUS, sdaLow := true } ∧
      t.flag (twcA c) TWC_CMD_RECOVER = false ∧ (∀ k : Fin 8, k ≠ c → t.twc k = s.twc k) ∧
      RegFrame [twcA c + TWC_STATUS, twcA c + TWC_CMD] s t ∧ Frame [.regs, .twcs] s t) ∧
  (∀ (s : State) (c : Fin 8) (l : List Bool), s.live = true → (s.twc c).recovering = true → (s.twc c).sclLow = true →
    Completes (.busRecovery c l) s fun t =>
      t.rd (twcA c + TWC_STATUS) = s.rd (twcA c + TWC_STATUS) ∧ t.sent = s.sent ∧ (t.twc c).recovering = false ∧
      RegFrame [twcA c + TWC_CMD] s t ∧ Frame [.regs, .twcs] s t) ∧
  (∀ (s : State) (c : Fin 8), s.live = true → (s.twc c).swWait = true → (s.twc c).cur = none →
    Completes (.sclStuck c) s fun t =>
      t.flag (twcA c) TWC_STATUS_SCL_STUCK = true ∧ t.fld (twcA c) TWC_RES_RESULT = 6 ∧ t.flag (twcA c) TWC_RES_DONE = true ∧
      t.flag (twcA c) TWC_CMD_GO = false ∧ t.twc c = { s.twc c with sclLow := true, swWait := false } ∧
      (∀ k : Fin 8, k ≠ c → t.twc k = s.twc k) ∧
      RegFrame [twcA c + TWC_STATUS, twcA c + TWC_CMD, twcA c + TWC_RES] s t ∧ Frame [.regs, .twcs] s t) ∧
  (∀ (s : State) (c : Fin 8), s.live = true → (s.twc c).swWait = true → (s.twc c).cur = some .software → (s.twc c).onBus = false →
    Completes (.sclStuck c) s fun t =>
      t.flag (twcA c) TWC_STATUS_SCL_STUCK = true ∧ t.fld (twcA c) TWC_RES_RESULT = 6 ∧ t.flag (twcA c) TWC_RES_DONE = true ∧
      t.flag (twcA c) TWC_CMD_GO = false ∧ t.flag (twcA c) TWC_STATUS_BUSY = false ∧
      t.twc c = { s.twc c with sclLow := true, swWait := false, cur := none, retries := 0 } ∧
      (∀ k : Fin 8, k ≠ c → t.twc k = s.twc k) ∧
      RegFrame [twcA c + TWC_STATUS, twcA c + TWC_CMD, twcA c + TWC_RES] s t ∧ Frame [.regs, .twcs] s t) ∧
  (∀ (s : State) (c : Fin 8), s.live = true → s.flag (twcA c) TWC_CTRL_LONG_BUS = false → (s.twc c).swWait = false →
    Completes (.sdaStuck c) s fun t =>
      t.flag (twcA c) TWC_STATUS_SDA_STUCK = true ∧ t.twc c = { s.twc c with sdaLow := true } ∧
      (∀ k : Fin 8, k ≠ c → t.twc k = s.twc k) ∧ RegFrame [twcA c + TWC_STATUS] s t ∧ Frame [.regs, .twcs] s t) ∧
  (∀ (s : State) (c : Fin 8), s.live = true → s.flag (twcA c) TWC_CTRL_LONG_BUS = true →
    Completes (.sdaStuck c) s fun t =>
      t.twc c = { s.twc c with sdaLow := true, recovering := true } ∧ (∀ k : Fin 8, k ≠ c → t.twc k = s.twc k) ∧
      Frame [.twcs] s t) ∧
  (∀ (s : State) (c : Fin 8), s.live = true → s.flag (twcA c) TWC_CTRL_EN = true → s.flag (twcA c) TWC_CTRL_LANTERN_EN = true →
    (s.twc c).busy = false → (s.twc c).cur = none → (s.twc c).poll = [] →
    Completes (.lanternCall c) s fun t =>
      t.flag (twcA c) TWC_STATUS_LANTERN = true ∧ t.fld (twcA c) TWC_LSTAT_NZ = 0 ∧ t.fld (twcA c) TWC_LSTAT_FAIL = 0 ∧
      (t.twc c).poll = (List.range 8).filter (fun k => (s.tget .lantern c k).toNat.testBit 31) ∧ (t.twc c).busy = true ∧
      t.sent = ⟨.twoWire (Fin.ofNat 9 c), 3, []⟩ :: s.sent ∧ (∀ k : Fin 8, k ≠ c → t.twc k = s.twc k) ∧
      RegFrame [twcA c + TWC_STATUS, twcA c + TWC_LSTAT] s t ∧ Frame [.regs, .twcs, .sent] s t) ∧
  (∀ (s : State) (c : Fin 8), s.live = true →
    Completes (.busStartSeen c) s fun t =>
      t.flag (twcA c) TWC_STATUS_BUS_BUSY = true ∧ t.twc c = { s.twc c with busy := true } ∧
      (∀ k : Fin 8, k ≠ c → t.twc k = s.twc k) ∧ RegFrame [twcA c + TWC_STATUS] s t ∧ Frame [.regs, .twcs] s t)

/-- O54. Position axes take their configuration, count, fault, are indexed and preset, sampled and timed out. AXIS_CTRL is
stored and EN runs the axis; a reserved mode, a limit on axes 0 to 39, a change while it runs, IDX_MODE 3 and crossed
limits are refused. A quadrature, Hall or sine/cosine step counts in its direction with wrap or at the limit, and an
illegal one counts ILLEGAL and, beyond ILL_MAX, faults; a bad amplitude faults. An SSI poll clocks a frame; a good frame
sets the counter and a bad one counts CRC_ERRS. An index event shows d and homes, reports or corrects. A preset sets the
counter and clears HOMED. A history sample keeps counter, velocity and time; no count for VEL_TO_MS shows velocity 0. Each
of these forms ends in a next state wherever its clause's conditions on state and operands hold: axisConfigWrite,
axisEnable, quadratureEdge, hallEdge, analogSample, ssiPoll, ssiFrameDone, indexEvent, positionPreset, historySample,
velocityTimeout. (R424, R425, R426, R427, R428, R429, R430, R431, R432, R433, R434, R435) -/
def Obligations.AxesCountJudgeAndFormPoses : Prop :=
  (∀ (s : State) (r : Req) (x : Fin 48) (v : Word), s.live = true → s.axRuns x = false → v.toNat.testBit 31 = false →
    v.toNat / 2 ^ 28 % 8 < 5 → (v.toNat.testBit 25 = true → 40 ≤ x.val) → (s.members (v.toNat / 2 ^ 20 % 16)).length ≤ 16 →
    Completes (.axisConfigWrite r x false v) s fun t =>
      t.rd (axisA x + AXIS_CTRL) = (infoAt (axisA x + AXIS_CTRL)).written (s.rd (axisA x + AXIS_CTRL)) v ∧ t.axRuns x = false ∧
      RegFrame [axisA x + AXIS_CTRL, axisA x + AXIS_STATUS, almA + ALM_STATUS, nvtA + NVT_STATUS] s t ∧ Frame [.regs, .alm] s t) ∧
  (∀ (s : State) (r : Req) (x : Fin 48) (v : Word), s.live = true →
    (5 ≤ v.toNat / 2 ^ 28 % 8 ∨ v.toNat.testBit 25 = true ∧ x.val < 40) →
    Completes (.axisConfigWrite r x false v) s fun t =>
      t.flag (axisA x) AXIS_STATUS_CFG_ERR = true ∧ RegFrame [axisA x + AXIS_STATUS] s t ∧ Frame [.regs] s t) ∧
  (∀ (s : State) (r : Req) (x : Fin 48) (v : Word), s.live = true → s.axRuns x = true → v.toNat.testBit 31 = true →
    v.toNat / 2 ^ 28 % 8 < 5 → v.toNat / 2 ^ 28 % 8 ≠ s.axMode x → v.toNat.testBit 25 = false → (∀ p : Fin 16, (s.members p).length < 16) →
    Completes (.axisConfigWrite r x false v) s fun t =>
      t.flag (axisA x) AXIS_STATUS_CFG_ERR = true ∧ t.axMode x = s.axMode x ∧ t.axRuns x = true ∧
      t.flag (axisA x) AXIS_CTRL_DIR_INV = v.toNat.testBit 19 ∧ t.axPos x = s.axPos x ∧
      RegFrame [axisA x + AXIS_CTRL, axisA x + AXIS_STATUS, almA + ALM_STATUS, nvtA + NVT_STATUS] s t ∧ Frame [.regs, .alm] s t) ∧
  (∀ (s : State) (r : Req) (x : Fin 48) (v : Word) (i : Nat), s.live = true → s.axRuns x = false →
    s.flag (axisA x) AXIS_PIDX_TABLE = false → s.fld (axisA x) AXIS_PIDX_INDEX = i → i < 13 →
    Completes (.axisConfigWrite r x true v) s fun t =>
      t.axPar x i = v.toNat ∧ TblFrame .axisParam x i s t ∧ t.fld (axisA x) AXIS_PIDX_INDEX = i + 1 ∧
      RegFrame [axisA x + AXIS_PIDX, almA + ALM_STATUS, nvtA + NVT_STATUS] s t ∧ Frame [.regs, .tbl, .alm] s t) ∧
  (∀ (s : State) (r : Req) (x : Fin 48) (v : Word), s.live = true → s.axRuns x = true →
    s.flag (axisA x) AXIS_PIDX_TABLE = false →
    Completes (.axisConfigWrite r x true v) s fun t =>
      t.flag (axisA x) AXIS_STATUS_CFG_ERR = true ∧ RegFrame [axisA x + AXIS_PIDX, axisA x + AXIS_STATUS] s t ∧ Frame [.regs] s t) ∧
  (∀ (s : State) (r : Req) (x : Fin 48) (v : Word), s.live = true → s.axRuns x = false → v.toNat / 2 ^ 28 % 8 < 5 →
    v.toNat / 2 ^ 26 % 4 ≠ 3 → (v.toNat.testBit 25 = true → 40 ≤ x.val ∧ s.axLo x ≤ s.axHi x) →
    (∀ p : Fin 16, (s.members p).length < 16) →
    Completes (.axisEnable r x v) s fun t =>
      t.axRuns x = true ∧ t.flag (axisA x) AXIS_STATUS_RUN = true ∧
      t.rd (axisA x + AXIS_CTRL) = (infoAt (axisA x + AXIS_CTRL)).written (s.rd (axisA x + AXIS_CTRL)) (v ||| 0x80000000) ∧
      t.axPos x = t.axReduce x (s.axPos x) ∧
      t.axis x = { s.axis x with firstIndex := true, fine := none, amps := [], frames := [], polling := false } ∧
      (∀ k : Fin 48, k ≠ x → t.axis k = s.axis k) ∧
      RegFrame [axisA x + AXIS_CTRL, axisA x + AXIS_STATUS, axisA x + AXIS_POS, almA + ALM_STATUS, nvtA + NVT_STATUS] s t ∧
      Frame [.regs, .axes, .alm] s t) ∧
  (∀ (s : State) (r : Req) (x : Fin 48) (v : Word), s.live = true → s.axRuns x = false → v.toNat / 2 ^ 28 % 8 < 5 →
    (v.toNat / 2 ^ 26 % 4 = 3 ∧ v.toNat.testBit 25 = false ∨ v.toNat.testBit 25 = true ∧ 40 ≤ x.val ∧ s.axHi x < s.axLo x) →
    (s.members (v.toNat / 2 ^ 20 % 16)).length ≤ 16 →
    Completes (.axisEnable r x v) s fun t =>
      t.axRuns x = false ∧ t.flag (axisA x) AXIS_STATUS_CFG_ERR = true ∧
      RegFrame [axisA x + AXIS_CTRL, axisA x + AXIS_STATUS, almA + ALM_STATUS, nvtA + NVT_STATUS] s t ∧ Frame [.regs, .alm] s t) ∧
  (∀ (s : State) (x : Fin 48) (a b up : Bool) (p n : Nat), s.live = true → s.axRuns x = true → s.axMode x = 1 →
    s.axPreset x = false → s.axLimited x = false → n = s.axCpr x → 0 < n → p = s.axPos x → p < n → s.emusOf x = [] →
    (quadPlace a b + 4 - quadPlace (s.axis x).a (s.axis x).b) % 4 = (if up then 1 else 3) →
    s.flag (axisA x) AXIS_CTRL_DIR_INV = false →
    Completes (.quadratureEdge x a b) s fun t =>
      t.axPos x = (if up then (p + 1) % n else (p + n - 1) % n) ∧ (t.axis x).a = a ∧ (t.axis x).b = b ∧
      (t.axis x).counts.head? = some (s.tick, up) ∧ (t.axis x).hist = (s.axis x).hist ∧
      (∀ k : Fin 48, k ≠ x → t.axis k = s.axis k) ∧ RegFrame [axisA x + AXIS_POS] s t ∧ Frame [.regs, .axes] s t) ∧
  (∀ (s : State) (x : Fin 48) (a b up : Bool), s.live = true → s.axRuns x = true → s.axMode x = 1 → s.axPreset x = false →
    s.axLimited x = true → toSigned 32 (s.axPos x) = (if up then s.axHi x else s.axLo x) →
    (quadPlace a b + 4 - quadPlace (s.axis x).a (s.axis x).b) % 4 = (if up then 1 else 3) →
    s.flag (axisA x) AXIS_CTRL_DIR_INV = false →
    Completes (.quadratureEdge x a b) s fun t =>
      t.axPos x = s.axPos x ∧ t.flag (axisA x) (if up then AXIS_STATUS_AT_HI else AXIS_STATUS_AT_LO) = true ∧
      t.axis x = { s.axis x with a := a, b := b } ∧ (∀ k : Fin 48, k ≠ x → t.axis k = s.axis k) ∧
      RegFrame [axisA x + AXIS_STATUS] s t ∧ Frame [.regs, .axes] s t) ∧
  (∀ (s : State) (x : Fin 48), s.live = true → s.axRuns x = true → s.axMode x = 1 →
    ((s.axis x).ills.filter (fun t => s.tick < t + s.axPar x 5 % 65536 * 400000)).length + 1 ≤ s.axPar x 5 / 65536 →
    Completes (.quadratureEdge x (!(s.axis x).a) (!(s.axis x).b)) s fun t =>
      t.axPos x = s.axPos x ∧ t.fld (axisA x) AXIS_CNT_ILLEGAL = min (s.fld (axisA x) AXIS_CNT_ILLEGAL + 1) 0xFFFF ∧
      t.flag (axisA x) AXIS_STATUS_ILL_FAULT = s.flag (axisA x) AXIS_STATUS_ILL_FAULT ∧
      (∀ k : Fin 48, k ≠ x → t.axis k = s.axis k) ∧ RegFrame [axisA x + AXIS_CNT] s t ∧ Frame [.regs, .axes] s t) ∧
  (∀ (s : State) (x : Fin 48), s.live = true → s.axRuns x = true → s.axMode x = 1 →
    s.flag (axisA x) AXIS_STATUS_ILL_FAULT = false → 0 < s.axPar x 5 % 65536 →
    s.axPar x 5 / 65536 ≤ ((s.axis x).ills.filter (fun t => s.tick < t + s.axPar x 5 % 65536 * 400000)).length →
    Completes (.quadratureEdge x (!(s.axis x).a) (!(s.axis x).b)) s fun t =>
      t.flag (axisA x) AXIS_STATUS_ILL_FAULT = true ∧
      t.flag (axisA x) AXIS_STATUS_NESTED = (s.flag (axisA x) AXIS_STATUS_NESTED || s.flag (fltA 0) FLT_STATUS_VALID) ∧
      Logged 0 0x2A 1 (srcOf 0 0x60 x) 0 (x.val * 1024) s t ∧ t.axPos x = s.axPos x ∧
      RegFrame ([axisA x + AXIS_CNT, axisA x + AXIS_STATUS] ++ recordRegs 0) s t ∧ Frame [.regs, .axes, .alm, .flt] s t) ∧
  (∀ (s : State) (x : Fin 48) (a b z up : Bool) (p q : Nat), s.live = true → s.axRuns x = true → s.axMode x = 2 →
    s.axPreset x = false → s.axLimited x = false → s.axCpr x = 0 → s.emusOf x = [] →
    hallPlace (s.axis x).a (s.axis x).b (s.axis x).z = some p → hallPlace a b z = some q →
    q = (if up then (p + 1) % 6 else (p + 5) % 6) → s.flag (axisA x) AXIS_CTRL_DIR_INV = false →
    Completes (.hallEdge x a b z) s fun t =>
      t.rd (axisA x + AXIS_POS) = (if up then s.rd (axisA x + AXIS_POS) + 1 else s.rd (axisA x + AXIS_POS) - 1) ∧
      (t.axis x).counts.head? = some (s.tick, up) ∧ (t.axis x).a = a ∧ (t.axis x).b = b ∧ (t.axis x).z = z ∧
      (∀ k : Fin 48, k ≠ x → t.axis k = s.axis k) ∧ RegFrame [axisA x + AXIS_POS] s t ∧ Frame [.regs, .axes] s t) ∧
  (∀ (s : State) (x : Fin 48) (b : Bool), s.live = true → s.axRuns x = true → s.axMode x = 2 →
    hallPlace (s.axis x).a (s.axis x).b (s.axis x).z ≠ none → (s.axis x).ills = [] → 65536 ≤ s.axPar x 5 →
    Completes (.hallEdge x b b b) s fun t =>
      t.axPos x = s.axPos x ∧ t.fld (axisA x) AXIS_CNT_ILLEGAL = min (s.fld (axisA x) AXIS_CNT_ILLEGAL + 1) 0xFFFF ∧
      (∀ k : Fin 48, k ≠ x → t.axis k = s.axis k) ∧ RegFrame [axisA x + AXIS_CNT] s t ∧ Frame [.regs, .axes] s t) ∧
  (∀ (s : State) (x : Fin 48) (sn cs : BitVec 12) (d c : Int) (f : Nat), s.live = true → s.axRuns x = true → s.axMode x = 3 →
    s.axPar x 8 % 16 = 0 → d = sn.toInt - toSigned 12 (s.axPar x 7 % 4096) → c = cs.toInt - toSigned 12 (s.axPar x 7 / 65536 % 4096) →
    (s.axPar x 6 % 65536 * 256 : Int) ≤ d * d + c * c → d * d + c * c ≤ (s.axPar x 6 / 65536 * 256 : Nat) → (d ≠ 0 ∨ c ≠ 0) →
    (s.axis x).fine = some f → finePos d c = (f + 1) % 4096 → f < 4096 → s.axPreset x = false → s.axLimited x = false →
    s.axCpr x = 0 → s.emusOf x = [] → s.flag (axisA x) AXIS_CTRL_DIR_INV = false →
    Completes (.analogSample x sn cs) s fun t =>
      t.rd (axisA x + AXIS_POS) = s.rd (axisA x + AXIS_POS) + 1 ∧ (t.axis x).fine = some ((f + 1) % 4096) ∧
      (t.axis x).amps = [(d * d + c * c).toNat] ∧ (t.axis x).counts.head? = some (s.tick, true) ∧
      (∀ k : Fin 48, k ≠ x → t.axis k = s.axis k) ∧ RegFrame [axisA x + AXIS_POS] s t ∧ Frame [.regs, .axes] s t) ∧
  (∀ (s : State) (x : Fin 48) (sn cs : BitVec 12) (d c : Int), s.live = true → s.axRuns x = true → s.axMode x = 3 →
    s.axPar x 8 % 16 = 0 → d = sn.toInt - toSigned 12 (s.axPar x 7 % 4096) → c = cs.toInt - toSigned 12 (s.axPar x 7 / 65536 % 4096) →
    (d * d + c * c < (s.axPar x 6 % 65536 * 256 : Int) ∨ (s.axPar x 6 / 65536 * 256 : Nat) < d * d + c * c) →
    s.flag (axisA x) AXIS_STATUS_AMP_FAULT = false →
    Completes (.analogSample x sn cs) s fun t =>
      t.axPos x = s.axPos x ∧ t.flag (axisA x) AXIS_STATUS_AMP_FAULT = true ∧
      Logged 0 0x2A 1 (srcOf 0 0x60 x) 0 (256 + x.val * 1024) s t ∧ (t.axis x).fine = (s.axis x).fine ∧
      RegFrame ([axisA x + AXIS_STATUS] ++ recordRegs 0) s t ∧ Frame [.regs, .axes, .alm, .flt] s t) ∧
  (∀ (s : State) (x : Fin 48), s.live = true → s.axRuns x = true → s.axMode x = 4 → (s.axis x).polling = false →
    Completes (.ssiPoll x) s fun t =>
      t.sent = ⟨.axis x, 0, [s.axPar x 9 / 2 ^ 18 % 64 + 1, s.axPar x 9 / 2 ^ 24]⟩ :: s.sent ∧
      t.axis x = { s.axis x with polling := true } ∧ (∀ k : Fin 48, k ≠ x → t.axis k = s.axis k) ∧ Frame [.axes, .sent] s t) ∧
  (∀ (s : State) (x : Fin 48) (f : List Bool), s.live = true → s.axRuns x = true → s.axMode x = 4 →
    (s.axis x).polling = true → s.axPar x 9 / 2 ^ 18 % 64 = f.length → s.axPar x 9 / 2 ^ 12 % 64 = f.length →
    s.axPar x 9 / 16 % 16 = 0 → s.axPar x 9 / 2 ^ 11 % 2 = 0 → s.axPreset x = false → s.axLimited x = false → 0 < s.axCpr x →
    Completes (.ssiFrameDone x false f) s fun t =>
      t.axPos x = bitsNat f % s.axCpr x ∧ (t.axis x).frames.head? = some (bitsNat f % s.axCpr x) ∧ (t.axis x).polling = false ∧
      (∀ k : Fin 48, k ≠ x → t.axis k = s.axis k) ∧
      RegFrame [axisA x + AXIS_POS, axisA x + AXIS_STATUS] s t ∧ Frame [.regs, .axes] s t) ∧
  (∀ (s : State) (x : Fin 48) (f : List Bool), s.live = true → s.axRuns x = true → s.axMode x = 4 →
    (s.axis x).polling = true → (s.axis x).ills = [] → 65536 ≤ s.axPar x 5 →
    Completes (.ssiFrameDone x true f) s fun t =>
      t.axPos x = s.axPos x ∧ t.fld (axisA x) AXIS_CNT_CRC_ERRS = min (s.fld (axisA x) AXIS_CNT_CRC_ERRS + 1) 0xFF ∧
      (t.axis x).polling = false ∧ (∀ k : Fin 48, k ≠ x → t.axis k = s.axis k) ∧
      RegFrame [axisA x + AXIS_CNT] s t ∧ Frame [.regs, .axes] s t) ∧
  (∀ (s : State) (x : Fin 48) (d : Int), s.live = true → s.axRuns x = true → (s.axMode x = 1 ∨ s.axMode x = 3) →
    (s.axis x).z = s.flag (axisA x) AXIS_CTRL_Z_INV → s.emusOf x = [] → d = s.axDiff x (s.axPos x) (s.axIdxPos x) →
    d.natAbs ≤ s.axPar x 2 % 65536 → s.fld (axisA x) AXIS_CTRL_IDX_MODE ≠ 1 →
    Completes (.indexEvent x (!s.flag (axisA x) AXIS_CTRL_Z_INV)) s fun t =>
      t.flag (axisA x) AXIS_STATUS_HOMED = true ∧ t.rd (axisA x + AXIS_IDXERR) = wd (ofSigned 32 d) ∧ t.axPos x = s.axPos x ∧
      t.flag (axisA x) AXIS_STATUS_IDX_ERR = s.flag (axisA x) AXIS_STATUS_IDX_ERR ∧ (t.axis x).firstIndex = false ∧
      (∀ k : Fin 48, k ≠ x → t.axis k = s.axis k) ∧
      RegFrame [axisA x + AXIS_IDXERR, axisA x + AXIS_STATUS] s t ∧ Frame [.regs, .axes] s t) ∧
  (∀ (s : State) (x : Fin 48) (d : Int), s.live = true → s.axRuns x = true → (s.axMode x = 1 ∨ s.axMode x = 3) →
    (s.axis x).z = s.flag (axisA x) AXIS_CTRL_Z_INV → s.emusOf x = [] → d = s.axDiff x (s.axPos x) (s.axIdxPos x) →
    s.axPar x 2 % 65536 < d.natAbs → s.fld (axisA x) AXIS_CTRL_IDX_MODE = 1 → (s.axis x).firstIndex = false →
    Completes (.indexEvent x (!s.flag (axisA x) AXIS_CTRL_Z_INV)) s fun t =>
      t.flag (axisA x) AXIS_STATUS_IDX_ERR = true ∧ t.rd (axisA x + AXIS_IDXERR) = wd (ofSigned 32 d) ∧
      t.axPos x = s.axReduce x (s.axIdxPos x) ∧
      t.fld (axisA x) AXIS_CNT_IDX_CORR = min (s.fld (axisA x) AXIS_CNT_IDX_CORR + 1) 0xFF ∧
      RegFrame [axisA x + AXIS_IDXERR, axisA x + AXIS_STATUS, axisA x + AXIS_POS, axisA x + AXIS_CNT] s t ∧
      Frame [.regs, .axes] s t) ∧
  (∀ (s : State) (x : Fin 48) (d : Int), s.live = true → s.axRuns x = true → (s.axMode x = 1 ∨ s.axMode x = 3) →
    (s.axis x).z = s.flag (axisA x) AXIS_CTRL_Z_INV → s.emusOf x = [] → d = s.axDiff x (s.axPos x) (s.axIdxPos x) →
    s.axPar x 2 % 65536 < d.natAbs → s.fld (axisA x) AXIS_CTRL_IDX_MODE = 0 →
    Completes (.indexEvent x (!s.flag (axisA x) AXIS_CTRL_Z_INV)) s fun t =>
      t.flag (axisA x) AXIS_STATUS_IDX_ERR = true ∧ t.axPos x = s.axPos x ∧
      RegFrame [axisA x + AXIS_IDXERR, axisA x + AXIS_STATUS] s t ∧ Frame [.regs, .axes] s t) ∧
  (∀ (s : State) (r : Req) (x : Fin 48) (v : Word), s.live = true →
    Completes (.positionPreset r x v) s fun t =>
      t.axPos x = s.axReduce x v.toNat ∧ t.flag (axisA x) AXIS_STATUS_HOMED = false ∧ t.axPreset x = true ∧
      (∀ k : Fin 48, k ≠ x → t.axis k = s.axis k) ∧
      RegFrame [axisA x + AXIS_POS, axisA x + AXIS_STATUS] s t ∧ Frame [.regs, .axes] s t) ∧
  (∀ (s : State) (x : Fin 48), s.live = true → s.axRuns x = true → s.axMode x ≠ 4 → (s.axis x).counts = [] →
    Completes (.historySample x) s fun t =>
      t.rd (axisA x + AXIS_VEL) = 0 ∧
      t.axis x = { s.axis x with hist := (⟨s.axPos x, 0, s.nowNs⟩ :: (s.axis x).hist).take 4096 } ∧
      (∀ k : Fin 48, k ≠ x → t.axis k = s.axis k) ∧ RegFrame [axisA x + AXIS_VEL] s t ∧ Frame [.regs, .axes] s t) ∧
  (∀ (s : State) (x : Fin 48) (l : List (Nat × Bool)) (us n : Nat), s.live = true → s.axRuns x = true → s.axMode x ≠ 4 →
    us = 2 ^ (s.axPar x 11 / 65536 % 16) → l = (s.axis x).counts → (∀ c ∈ l, s.tick < c.1 + us * 400 ∧ c.2 = true) →
    n = l.length → s.axPar x 11 / 256 % 256 ≤ n → 0 < n → s.tick < (l.head?.map (·.1)).getD 0 + s.axPar x 11 % 256 * 400000 →
    n * 1000000 % us = 0 → n * 1000000 / us < 2 ^ 31 →
    Completes (.historySample x) s fun t =>
      t.rd (axisA x + AXIS_VEL) = wd (n * 1000000 / us) ∧
      (t.axis x).hist = (⟨s.axPos x, n * 1000000 / us, s.nowNs⟩ :: (s.axis x).hist).take 4096 ∧
      (∀ k : Fin 48, k ≠ x → t.axis k = s.axis k) ∧ RegFrame [axisA x + AXIS_VEL] s t ∧ Frame [.regs, .axes] s t) ∧
  (∀ (s : State) (x : Fin 48), s.live = true → s.axRuns x = true → s.axMode x ≠ 4 → s.axStill x = true →
    Completes (.velocityTimeout x) s fun t =>
      t.rd (axisA x + AXIS_VEL) = 0 ∧ t.axis x = { s.axis x with counts := [] } ∧
      (∀ k : Fin 48, k ≠ x → t.axis k = s.axis k) ∧ RegFrame [axisA x + AXIS_VEL] s t ∧ Frame [.regs, .axes] s t)

/-- O55. Poses are formed and committed, and encoder outputs run, follow counts, step and pulse. The oldest midpoint of a port
with an enabled ring becomes a record: bytes 16 to 255 hold the midpoint, the number of member axes, each axis and zeros,
and its header waits; without a ring it only leaves. The header is written once the body is answered. EN of an encoder
output empties its accumulator and queue, and is refused where NUM exceeds DEN or DEN is 0. A count of the axis that makes
the accumulator reach DEN queues a step, and one too many sets OVF. A step leaves in the sequence of R424 and LAG shows
the rest; a Z pulse ends. Each of these forms ends in a next state wherever its clause's conditions on state and operands
hold: poseForm, poseRecordCommit, emuEnable, quadratureEdge, emuStepOut, emuZPulseEnd. (R424, R435, R436, R437, R439,
R440) -/
def Obligations.PosesAreFormedAndEncoderOutputsFollow : Prop :=
  (∀ (s : State) (p : Fin 12) (m : Midpoint) (l : List Midpoint) (a : Nat), s.live = true → (s.posePort p).waiting = m :: l →
    (s.poseWord p 1).testBit 31 = true → (s.members p).length ≤ 16 → a = s.poseWord p 0 * 256 + 256 * (m.frame % 2 ^ (s.poseWord p 1 % 16)) →
    s.answersAt (a + 16) 240 → m.ns < 2 ^ 48 → s.poseDue p m = true →
    Completes (.poseForm p) s fun t =>
      t.memNat (a + 16) 8 = m.ns / 1000000000 ∧ t.memNat (a + 24) 4 = m.ns % 1000000000 ∧
      t.memNat (a + 28) 4 = (s.members p).length ∧
      t.memBytes (a + 32) 224 = ((s.members p).map (fun x => s.poseAxis x m.ns)).flatten ++
        List.replicate (224 - 12 * (s.members p).length) 0 ∧
      t.posePort p = { waiting := l, header := (s.posePort p).header ++ [(a, m.header (s.classOf m.sid))] } ∧
      (∀ k : Fin 12, k ≠ p → t.posePort k = s.posePort k) ∧ MemFrame (a + 16) 240 s t ∧ Frame [.mem, .poses] s t) ∧
  (∀ (s : State) (p : Fin 12) (m : Midpoint) (l : List Midpoint), s.live = true → (s.posePort p).waiting = m :: l →
    (s.poseWord p 1).testBit 31 = false → (s.members p).length ≤ 16 → s.poseDue p m = true →
    Completes (.poseForm p) s fun t =>
      t.posePort p = { s.posePort p with waiting := l } ∧ (∀ k : Fin 12, k ≠ p → t.posePort k = s.posePort k) ∧
      Frame [.poses] s t) ∧
  (∀ (s : State) (p : Fin 12) (m : Midpoint) (x : Fin 48), s.live = true → (s.posePort p).waiting = [m] →
    (s.poseWord p 1).testBit 31 = false → (s.members p)[16]? = some x.val → s.poseDue p m = true →
    Completes (.poseForm p) s fun t => t.flag (axisA x) AXIS_STATUS_CFG_ERR = true ∧ Frame [.regs, .poses] s t) ∧
  (∀ (s : State) (p : Fin 12) (a : Nat) (h : List Byte) (l : List (Nat × List Byte)), s.live = true →
    (s.posePort p).header = (a, h) :: l → s.answersAt a h.length →
    Completes (.poseRecordCommit p) s fun t =>
      t.memBytes a h.length = h ∧ MemFrame a h.length s t ∧ t.posePort p = { s.posePort p with header := l } ∧
      (∀ k : Fin 12, k ≠ p → t.posePort k = s.posePort k) ∧ Frame [.mem, .poses] s t) ∧
  (∀ (s : State) (r : Req) (e : Fin 16) (v : Word), s.live = true → s.flag (emuA e) EMU_CTRL_EN = false →
    s.fld (emuA e) EMU_RATIO_NUM ≤ s.fld (emuA e) EMU_RATIO_DEN → 0 < s.fld (emuA e) EMU_RATIO_DEN →
    Completes (.emuEnable r e v) s fun t =>
      t.flag (emuA e) EMU_CTRL_EN = true ∧ t.flag (emuA e) EMU_STATUS_RUN = true ∧ t.fld (emuA e) EMU_STATUS_LAG = 0 ∧
      t.emu e = { s.emu e with acc := 0, steps := [] } ∧ (∀ k : Fin 16, k ≠ e → t.emu k = s.emu k) ∧
      t.rd (emuA e + EMU_CTRL) = (infoAt (emuA e + EMU_CTRL)).written (s.rd (emuA e + EMU_CTRL)) (v ||| 0x80000000) ∧
      RegFrame [emuA e + EMU_CTRL, emuA e + EMU_STATUS, almA + ALM_STATUS, nvtA + NVT_STATUS] s t ∧
      Frame [.regs, .emus, .alm] s t) ∧
  (∀ (s : State) (r : Req) (e : Fin 16) (v : Word), s.live = true → s.flag (emuA e) EMU_CTRL_EN = false →
    (s.fld (emuA e) EMU_RATIO_DEN < s.fld (emuA e) EMU_RATIO_NUM ∨ s.fld (emuA e) EMU_RATIO_DEN = 0) →
    Completes (.emuEnable r e v) s fun t =>
      t.flag (emuA e) EMU_CTRL_EN = false ∧ t.flag (emuA e) EMU_STATUS_CFG_ERR = true ∧ t.emus = s.emus ∧
      RegFrame [emuA e + EMU_CTRL, emuA e + EMU_STATUS, almA + ALM_STATUS, nvtA + NVT_STATUS] s t ∧ Frame [.regs, .alm] s t) ∧
  (∀ (s : State) (x : Fin 48) (e : Fin 16) (a b : Bool) (num den : Nat), s.live = true → s.axRuns x = true →
    s.axMode x = 1 → s.axPreset x = false → s.axLimited x = false → s.axCpr x = 0 → s.emusOf x = [e] →
    (quadPlace a b + 4 - quadPlace (s.axis x).a (s.axis x).b) % 4 = 1 → s.flag (axisA x) AXIS_CTRL_DIR_INV = false →
    num = s.fld (emuA e) EMU_RATIO_NUM → den = s.fld (emuA e) EMU_RATIO_DEN → den ≤ (s.emu e).acc + num →
    (s.emu e).steps.length < 256 →
    Completes (.quadratureEdge x a b) s fun t =>
      t.emu e = { s.emu e with acc := (s.emu e).acc + num - den, steps := (s.emu e).steps ++ [true] } ∧
      t.fld (emuA e) EMU_STATUS_LAG = (s.emu e).steps.length + 1 ∧ t.rd (axisA x + AXIS_POS) = s.rd (axisA x + AXIS_POS) + 1 ∧
      (∀ k : Fin 16, k ≠ e → t.emu k = s.emu k) ∧
      RegFrame [axisA x + AXIS_POS, emuA e + EMU_STATUS] s t ∧ Frame [.regs, .axes, .emus] s t) ∧
  (∀ (s : State) (x : Fin 48) (e : Fin 16) (a b : Bool) (num den : Nat), s.live = true → s.axRuns x = true →
    s.axMode x = 1 → s.axPreset x = false → s.axLimited x = false → s.axCpr x = 0 → s.emusOf x = [e] →
    (quadPlace a b + 4 - quadPlace (s.axis x).a (s.axis x).b) % 4 = 3 → s.flag (axisA x) AXIS_CTRL_DIR_INV = false →
    num = s.fld (emuA e) EMU_RATIO_NUM → den = s.fld (emuA e) EMU_RATIO_DEN → (s.emu e).acc < num →
    (s.emu e).steps.length = 256 →
    Completes (.quadratureEdge x a b) s fun t =>
      t.emu e = { s.emu e with acc := (s.emu e).acc + den - num } ∧ t.flag (emuA e) EMU_STATUS_OVF = true ∧
      (∀ k : Fin 16, k ≠ e → t.emu k = s.emu k) ∧
      RegFrame [axisA x + AXIS_POS, emuA e + EMU_STATUS] s t ∧ Frame [.regs, .axes, .emus] s t) ∧
  (∀ (s : State) (e : Fin 16) (up a b : Bool) (l : List Bool), s.live = true → s.flag (emuA e) EMU_CTRL_EN = true →
    (s.emu e).steps = up :: l → l.length < 65536 → s.emuFree e = true →
    (a, b) = (if up = s.flag (emuA e) EMU_CTRL_DIR_INV then
      (if (s.emu e).a then (if (s.emu e).b then (true, false) else (false, false)) else (if (s.emu e).b then (true, true) else (false, true)))
      else (if (s.emu e).a then (if (s.emu e).b then (false, true) else (true, true))
        else (if (s.emu e).b then (false, false) else (true, false)))) →
    Completes (.emuStepOut e) s fun t =>
      t.emu e = { s.emu e with steps := l, a := a, b := b, lastStep := some s.tick } ∧ t.fld (emuA e) EMU_STATUS_LAG = l.length ∧
      t.sent = ⟨.emu e, 0, [b2n a, b2n b]⟩ :: s.sent ∧ (∀ k : Fin 16, k ≠ e → t.emu k = s.emu k) ∧
      RegFrame [emuA e + EMU_STATUS] s t ∧ Frame [.regs, .emus, .sent] s t) ∧
  (∀ (s : State) (e : Fin 16), s.live = true → s.fld (emuA e) EMU_CTRL_ZMODE = 1 → (s.emu e).z = true →
    (s.emu e).zTick * 5 + s.fld (emuA e) EMU_TIMING_Z_NS * 2 ≤ s.tick * 5 →
    Completes (.emuZPulseEnd e) s fun t =>
      t.emu e = { s.emu e with z := false } ∧ t.sent = ⟨.emu e, 1, [0]⟩ :: s.sent ∧
      (∀ k : Fin 16, k ≠ e → t.emu k = s.emu k) ∧ Frame [.emus, .sent] s t)

/-- O56. Audio ports start, exchange frames, slip whole frames, write and play blocks, ramp, mute and steer their clock. RX_EN
and TX_EN start a direction afresh, or are refused as R412 says; a format is stored only while its direction is off. A
driven tick takes the frame of the line into the block being filled, the 64th completes it, and a played frame leaves; an
empty receive FIFO inserts silence, and a full transmit FIFO drops. A received frame joins the FIFO, or is discarded for
its length or for want of room. A block's body is written, then its head; a fetched block plays straight on, later with
silence inserted, and a missing one is an underrun. Mute and unmute start a ramp, masks wait, a finished ramp settles; the
clock loop integrates its error and shows LOCKED after 100 updates. (The steering quotient's rounding is a free choice,
log entry 12.). Each of these forms ends in a next state wherever its clause's conditions on state and operands hold:
audioRxEnable, audioTxEnable, audioFormatWrite, audioFrameTick, audioFrameReceive, audioTxFrameSync, audioBlockWrite,
audioBlockHeadWrite, audioBlockFetch, audioBlockTarget, audioMute, audioUnmute, slotMaskWrite, rampEnd, clockLoopUpdate,
loopModeWrite, blockStampRead. (R410, R411, R412, R413, R414, R415, R416, R417, R419, R420, R421, R422) -/
def Obligations.AudioPortsRunExchangeFramesAndPlayBlocks : Prop :=
  (∀ (s : State) (r : Req) (p : Fin 8) (v : Word), s.live = true → s.audRuns p false = false → s.audRuns p true = false →
    v.toNat.testBit 30 = false → v.toNat.testBit 20 = s.flag (audpA p) AUDP_CTRL_TX_MUTE →
    s.audRejects p false (v.toNat.testBit 28) = false →
    Completes (.audioRxEnable r p v) s fun t =>
      t.audRuns p false = true ∧ t.flag (audpA p) AUDP_STATUS_RX_RUN = true ∧
      t.flag (audpA p) AUDP_STATUS_RX_MUTED = v.toNat.testBit 21 ∧
      t.aud p = { s.aud p with rx := { zero := v.toNat.testBit 21 }, rxFifo := [], cur := {}, block := 0, drops := 0 } ∧
      t.rd (audpA p + AUDP_CTRL) = (infoAt (audpA p + AUDP_CTRL)).written (s.rd (audpA p + AUDP_CTRL)) (v ||| 0x80000000) ∧
      (∀ k : Fin 8, k ≠ p → t.aud k = s.aud k) ∧
      RegFrame [audpA p + AUDP_CTRL, audpA p + AUDP_STATUS, almA + ALM_STATUS, nvtA + NVT_STATUS] s t ∧
      Frame [.regs, .auds, .alm] s t) ∧
  (∀ (s : State) (r : Req) (p : Fin 8) (v : Word), s.live = true → s.audRuns p false = false → s.audRuns p true = false →
    v.toNat.testBit 30 = false → v.toNat.testBit 20 = s.flag (audpA p) AUDP_CTRL_TX_MUTE →
    v.toNat.testBit 21 = s.flag (audpA p) AUDP_CTRL_RX_MUTE → s.audRejects p false (v.toNat.testBit 28) = true →
    Completes (.audioRxEnable r p v) s fun t =>
      t.audRuns p false = false ∧ t.flag (audpA p) AUDP_STATUS_CFG_ERR = true ∧ t.auds = s.auds ∧
      RegFrame [audpA p + AUDP_CTRL, audpA p + AUDP_STATUS, almA + ALM_STATUS, nvtA + NVT_STATUS] s t ∧
      Frame [.regs, .alm] s t) ∧
  (∀ (s : State) (r : Req) (p : Fin 8) (v : Word), s.live = true → s.audRuns p false = false → s.audRuns p true = false →
    v.toNat.testBit 31 = false → v.toNat.testBit 21 = s.flag (audpA p) AUDP_CTRL_RX_MUTE →
    s.audRejects p true (v.toNat.testBit 28) = false →
    Completes (.audioTxEnable r p v) s fun t =>
      t.audRuns p true = true ∧ t.flag (audpA p) AUDP_STATUS_TX_RUN = true ∧
      t.aud p = { s.aud p with
        tx := { zero := v.toNat.testBit 20 }, txFifo := [], e := (s.rd (audpA p + AUDP_TXSTART)).toNat, fetched := none, play := [] } ∧
      (∀ k : Fin 8, k ≠ p → t.aud k = s.aud k) ∧
      RegFrame [audpA p + AUDP_CTRL, audpA p + AUDP_STATUS, almA + ALM_STATUS, nvtA + NVT_STATUS] s t ∧
      Frame [.regs, .auds, .alm] s t) ∧
  (∀ (s : State) (r : Req) (p : Fin 8) (tx : Bool) (v : Word), s.live = true → s.audRuns p tx = false →
    Completes (.audioFormatWrite r p tx v) s fun t =>
      t.rd (audpA p + (if tx then AUDP_TXFMT else AUDP_RXFMT)) &&& 0xFFFBFFFF =
        (infoAt (audpA p + (if tx then AUDP_TXFMT else AUDP_RXFMT))).written
          (s.rd (audpA p + (if tx then AUDP_TXFMT else AUDP_RXFMT))) v &&& 0xFFFBFFFF ∧
      t.flag (audpA p) AUDP_TXFMT_TRI = (if tx then v.toNat.testBit 18 else s.flag (audpA p) AUDP_TXFMT_TRI) ∧
      RegFrame [audpA p + (if tx then AUDP_TXFMT else AUDP_RXFMT), almA + ALM_STATUS, nvtA + NVT_STATUS] s t ∧
      Frame [.regs, .alm] s t) ∧
  (∀ (s : State) (r : Req) (p : Fin 8) (tx : Bool) (v : Word), s.live = true → s.audRuns p tx = true →
    Completes (.audioFormatWrite r p tx v) s fun t =>
      t.flag (audpA p) AUDP_STATUS_CFG_ERR = true ∧ RegFrame [audpA p + AUDP_STATUS] s t ∧ Frame [.regs] s t) ∧
  (∀ (s : State) (fam double : Bool) (p : Fin 8) (l : List (List Word)) (f : List Word), s.live = true →
    s.flag (audpA p) AUDP_CTRL_FAM = fam → s.flag (audpA p) AUDP_CTRL_DOUBLE = double →
    (∀ k : Fin 8, k ≠ p → s.audRuns k false = false ∧ s.audRuns k true = false) → s.audRuns p true = false →
    s.audRuns p false = true → s.audDrives p false = true → s.flag (audpA (b2n fam)) AUDP_LOOP_WCKO_EN = false →
    (s.aud p).rx = {} → s.rd (audpA p + AUDP_RXMASK) = s.rd (audpA p + AUDP_RXMASK_ACT) →
    s.rd (audpA p + AUDP_RXMASK) = wd (2 ^ s.audSlots p false - 1) → f = s.cutSlots p false ((l[p.val]?).getD []) →
    (s.aud p).cur.frames.length < 63 →
    Completes (.audioFrameTick fam double l) s fun t =>
      (t.aud p).cur.frames = f :: (s.aud p).cur.frames ∧
      (t.aud p).cur.number = (if (s.aud p).cur.frames = [] then (s.aud p).block else (s.aud p).cur.number) ∧
      (t.aud p).cur.ns = (if (s.aud p).cur.frames = [] then s.nowNs else (s.aud p).cur.ns) ∧
      (t.aud p).full = (s.aud p).full ∧ (t.aud p).block = (s.aud p).block ∧ (∀ k : Fin 8, k ≠ p → t.aud k = s.aud k) ∧
      RegFrame [audpA p + AUDP_RXMASK_ACT] s t ∧ t.time = s.ticked fam double ∧ Frame [.regs, .auds, .time] s t) ∧
  (∀ (s : State) (fam double : Bool) (p : Fin 8) (l : List (List Word)), s.live = true →
    s.flag (audpA p) AUDP_CTRL_FAM = fam → s.flag (audpA p) AUDP_CTRL_DOUBLE = double →
    (∀ k : Fin 8, k ≠ p → s.audRuns k false = false ∧ s.audRuns k true = false) → s.audRuns p true = false →
    s.audRuns p false = true → s.audDrives p false = true → s.flag (audpA (b2n fam)) AUDP_LOOP_WCKO_EN = false →
    (s.aud p).cur.frames.length = 63 → (s.aud p).block < 2 ^ 32 - 1 →
    Completes (.audioFrameTick fam double l) s fun t =>
      (t.aud p).cur = {} ∧ (t.aud p).block = (s.aud p).block + 1 ∧ (t.aud p).full.length = (s.aud p).full.length + 1 ∧
      (∀ k ∈ (t.aud p).full.getLast?, k.frames.length = 64 ∧ k.number = (s.aud p).cur.number ∧ k.drop = (s.aud p).drops) ∧
      (t.aud p).drops = 0 ∧ (∀ k : Fin 8, k ≠ p → t.aud k = s.aud k) ∧
      RegFrame [audpA p + AUDP_RXMASK_ACT] s t ∧ t.time = s.ticked fam double ∧ Frame [.regs, .auds, .time] s t) ∧
  (∀ (s : State) (fam double : Bool) (p : Fin 8) (l : List (List Word)), s.live = true →
    s.flag (audpA p) AUDP_CTRL_FAM = fam → s.flag (audpA p) AUDP_CTRL_DOUBLE = double →
    (∀ k : Fin 8, k ≠ p → s.audRuns k false = false ∧ s.audRuns k true = false) → s.audRuns p true = false →
    s.audRuns p false = true → s.audDrives p false = false → s.flag (audpA (b2n fam)) AUDP_LOOP_WCKO_EN = false →
    (s.aud p).rxFifo = [] → (s.aud p).cur.frames.length < 63 →
    Completes (.audioFrameTick fam double l) s fun t =>
      t.fld (audpA p) AUDP_CNT_RX_INS = min (s.fld (audpA p) AUDP_CNT_RX_INS + 1) 0xFFFF ∧
      t.flag (audpA p) AUDP_STATUS_RX_SLIP = true ∧
      (t.aud p).cur.frames = List.replicate (s.audSlots p false) 0 :: (s.aud p).cur.frames ∧
      (t.aud p).cur.ins = (s.aud p).cur.ins + 1 ∧ (t.aud p).cur.inserted = true ∧
      RegFrame [audpA p + AUDP_RXMASK_ACT, audpA p + AUDP_RXLVL, audpA p + AUDP_STATUS, audpA p + AUDP_CNT] s t ∧
      t.time = s.ticked fam double ∧ Frame [.regs, .auds, .time] s t) ∧
  (∀ (s : State) (fam double : Bool) (p : Fin 8) (l : List (List Word)) (f : List Word) (rest : List (List Word)),
    s.live = true → s.flag (audpA p) AUDP_CTRL_FAM = fam → s.flag (audpA p) AUDP_CTRL_DOUBLE = double →
    (∀ k : Fin 8, k ≠ p → s.audRuns k false = false ∧ s.audRuns k true = false) → s.audRuns p false = false →
    s.audRuns p true = true → s.audDrives p true = true → s.flag (audpA (b2n fam)) AUDP_LOOP_WCKO_EN = false →
    (s.aud p).tx = {} → s.rd (audpA p + AUDP_TXMASK) = s.rd (audpA p + AUDP_TXMASK_ACT) →
    s.rd (audpA p + AUDP_TXMASK) = wd (2 ^ s.audSlots p true - 1) → (s.aud p).play = f :: rest →
    Completes (.audioFrameTick fam double l) s fun t =>
      t.sent = ⟨.audio p, 0, (s.cutSlots p true f).map (·.toNat)⟩ :: s.sent ∧ t.aud p = { s.aud p with play := rest } ∧
      (∀ k : Fin 8, k ≠ p → t.aud k = s.aud k) ∧ RegFrame [audpA p + AUDP_TXMASK_ACT] s t ∧ t.time = s.ticked fam double ∧ Frame [.regs, .auds, .sent, .time] s t) ∧
  (∀ (s : State) (fam double : Bool) (p : Fin 8) (l : List (List Word)),
    s.live = true → s.flag (audpA p) AUDP_CTRL_FAM = fam → s.flag (audpA p) AUDP_CTRL_DOUBLE = double →
    (∀ k : Fin 8, k ≠ p → s.audRuns k false = false ∧ s.audRuns k true = false) → s.audRuns p false = false →
    s.audRuns p true = true → s.audDrives p true = false → s.flag (audpA (b2n fam)) AUDP_LOOP_WCKO_EN = false →
    (s.aud p).txFifo.length = 128 →
    Completes (.audioFrameTick fam double l) s fun t =>
      t.fld (audpA p) AUDP_CNT2_TX_DROP = min (s.fld (audpA p) AUDP_CNT2_TX_DROP + 1) 0xFFFF ∧
      t.flag (audpA p) AUDP_STATUS_TX_SLIP = true ∧ (t.aud p).txFifo = (s.aud p).txFifo ∧
      (t.aud p).play = (s.aud p).play.drop 1 ∧
      RegFrame [audpA p + AUDP_TXMASK_ACT, audpA p + AUDP_STATUS, audpA p + AUDP_CNT2] s t ∧ t.time = s.ticked fam double ∧ Frame [.regs, .auds, .time] s t) ∧
  (∀ (s : State) (p : Fin 8) (f : List Word), s.live = true → s.audRuns p false = true → s.audDrives p false = false →
    (s.aud p).rxFifo.length < 128 →
    Completes (.audioFrameReceive p (s.frameBits p false) f) s fun t =>
      t.aud p = { s.aud p with rxFifo := (s.aud p).rxFifo ++ [⟨s.cutSlots p false f, s.nowNs⟩] } ∧
      t.fld (audpA p) AUDP_RXLVL_LEVEL = (s.aud p).rxFifo.length + 1 ∧
      t.fld (audpA p) AUDP_RXLVL_HWM = max (s.fld (audpA p) AUDP_RXLVL_HWM) ((s.aud p).rxFifo.length + 1) ∧
      (∀ k : Fin 8, k ≠ p → t.aud k = s.aud k) ∧ RegFrame [audpA p + AUDP_RXLVL] s t ∧ Frame [.regs, .auds] s t) ∧
  (∀ (s : State) (p : Fin 8) (n : Nat) (f : List Word), s.live = true → s.audRuns p false = true →
    s.audDrives p false = false → n ≠ s.frameBits p false →
    Completes (.audioFrameReceive p n f) s fun t =>
      t.fld (audpA p) AUDP_CNT3_FRAME_ERRS = min (s.fld (audpA p) AUDP_CNT3_FRAME_ERRS + 1) 0xFFFF ∧
      t.flag (audpA p) AUDP_STATUS_FRAME_ERR = true ∧
      RegFrame [audpA p + AUDP_STATUS, audpA p + AUDP_CNT3] s t ∧ Frame [.regs] s t) ∧
  (∀ (s : State) (p : Fin 8) (f : List Word), s.live = true → s.audRuns p false = true → s.audDrives p false = false →
    (s.aud p).rxFifo.length = 128 →
    Completes (.audioFrameReceive p (s.frameBits p false) f) s fun t =>
      t.fld (audpA p) AUDP_CNT_RX_DROP = min (s.fld (audpA p) AUDP_CNT_RX_DROP + 1) 0xFFFF ∧
      t.flag (audpA p) AUDP_STATUS_RX_SLIP = true ∧ t.aud p = { s.aud p with drops := (s.aud p).drops + 1 } ∧
      (∀ k : Fin 8, k ≠ p → t.aud k = s.aud k) ∧
      RegFrame [audpA p + AUDP_STATUS, audpA p + AUDP_CNT] s t ∧ Frame [.regs, .auds] s t) ∧
  (∀ (s : State) (p : Fin 8) (f : List Word) (l : List (List Word)), s.live = true → s.audRuns p true = true →
    s.audDrives p true = false → (s.aud p).txFifo = f :: l → l.length < 128 → s.flag (audpA p) AUDP_TXFMT_TRI = false →
    Completes (.audioTxFrameSync p) s fun t =>
      t.sent = ⟨.audio p, 0, (s.cutSlots p true f).map (·.toNat)⟩ :: s.sent ∧ t.aud p = { s.aud p with txFifo := l } ∧
      t.fld (audpA p) AUDP_TXLVL_LEVEL = l.length ∧ (∀ k : Fin 8, k ≠ p → t.aud k = s.aud k) ∧
      RegFrame [audpA p + AUDP_TXLVL] s t ∧ Frame [.regs, .auds, .sent] s t) ∧
  (∀ (s : State) (p : Fin 8), s.live = true → s.audRuns p true = true → s.audDrives p true = false →
    (s.aud p).txFifo = [] → s.flag (audpA p) AUDP_TXFMT_TRI = false →
    Completes (.audioTxFrameSync p) s fun t =>
      t.sent = ⟨.audio p, 0, List.replicate (s.audSlots p true) 0⟩ :: s.sent ∧
      t.fld (audpA p) AUDP_CNT2_TX_INS = min (s.fld (audpA p) AUDP_CNT2_TX_INS + 1) 0xFFFF ∧
      t.flag (audpA p) AUDP_STATUS_TX_SLIP = true ∧
      RegFrame [audpA p + AUDP_TXLVL, audpA p + AUDP_STATUS, audpA p + AUDP_CNT2] s t ∧ Frame [.regs, .sent] s t) ∧
  (∀ (s : State) (p : Fin 8) (k : AudBlk) (l : List AudBlk) (a : Nat) (b : List Byte), s.live = true → (s.aud p).full = k :: l →
    (s.aud p).buf.length < 2 → a = s.blkAddr p false k.number + 64 → s.answersAt a b.length →
    b = k.frames.reverse.flatMap (fun f => f.flatMap (fun w => toBytes 4 w.toNat)) →
    Completes (.audioBlockWrite p) s fun t =>
      t.memBytes a b.length = b ∧ MemFrame a b.length s t ∧
      t.aud p = { s.aud p with full := l, buf := (s.aud p).buf ++ [k] } ∧ (∀ j : Fin 8, j ≠ p → t.aud j = s.aud j) ∧
      Frame [.mem, .auds] s t) ∧
  (∀ (s : State) (p : Fin 8) (k : AudBlk) (l : List AudBlk), s.live = true → (s.aud p).full = k :: l → 2 ≤ (s.aud p).buf.length →
    Completes (.audioBlockWrite p) s fun t =>
      t.flag (audpA p) AUDP_STATUS_RX_BLKDROP = true ∧ t.aud p = { s.aud p with full := l } ∧
      (∀ j : Fin 8, j ≠ p → t.aud j = s.aud j) ∧ RegFrame [audpA p + AUDP_STATUS] s t ∧ Frame [.regs, .auds] s t) ∧
  (∀ (s : State) (p : Fin 8) (k : AudBlk) (l : List AudBlk) (a : Nat), s.live = true → (s.aud p).buf = k :: l →
    a = s.blkAddr p false k.number → s.answersAt a 64 → k.number < 2 ^ 32 →
    Completes (.audioBlockHeadWrite p) s fun t =>
      t.memNat a 6 = k.ns / 1000000000 % 2 ^ 48 ∧ t.memNat (a + 6) 4 = k.ns % 1000000000 ∧ t.memNat (a + 10) 1 = k.slots % 256 ∧
      t.memNat (a + 11) 1 = b2n k.ramp + 2 * b2n k.inserted + 4 * b2n k.maskChg ∧ t.memNat (a + 12) 4 = k.number ∧
      t.memNat (a + 16) 4 = k.mask % 2 ^ 32 ∧ t.memNat (a + 20) 2 = k.ins % 65536 ∧ t.memNat (a + 22) 2 = k.drop % 65536 ∧
      t.memBytes (a + 24) 40 = List.replicate 40 0 ∧ MemFrame a 64 s t ∧
      t.rd (audpA p + AUDP_RXBLK) = wd k.number ∧ t.fld (audpA p) AUDP_BLKTS_NS_NS = k.ns % 1000000000 ∧
      t.aud p = { s.aud p with buf := l, lastNs := k.ns } ∧
      RegFrame [audpA p + AUDP_RXBLK, audpA p + AUDP_BLKTS_NS] s t ∧ Frame [.regs, .mem, .auds] s t) ∧
  (∀ (s : State) (p : Fin 8) (a n : Nat), s.live = true → s.audRuns p true = true → (s.aud p).fetched = none →
    a = s.blkAddr p true (s.aud p).e → s.answersAt a (64 + 256 * n) → s.answersAt a 64 →
    s.answersAt (a + 64) (256 * n) → n = s.memNat (a + 10) 1 →
    0 < n → n ≤ 32 → s.memNat (a + 12) 4 = (s.aud p).e →
    Completes (.audioBlockFetch p false) s fun t =>
      t.aud p = { s.aud p with fetched := (t.aud p).fetched } ∧
      (t.aud p).fetched = some ⟨s.memNat a 6 * 1000000000 + s.memNat (a + 6) 4 % 2 ^ 30,
        (List.range 64).map (fun f => (List.range (s.audSlots p true)).map (fun i =>
          if i < n then wd (s.memNat (a + 64 + 4 * (f * n + i)) 4) else 0))⟩ ∧
      (∀ j : Fin 8, j ≠ p → t.aud j = s.aud j) ∧ Frame [.auds] s t) ∧
  (∀ (s : State) (p : Fin 8) (a : Nat) (e : Bool), s.live = true → a = s.blkAddr p true (s.aud p).e → s.answersAt a 64 → (e = true ∨ s.memNat (a + 12) 4 ≠ (s.aud p).e) →
    Completes (.audioBlockFetch p e) s fun t => t = s) ∧
  (∀ (s : State) (p : Fin 8) (n : Nat) (k : AudPlay), s.live = true → s.audRuns p true = true → (s.aud p).play = [] →
    (s.aud p).fetched = some k → s.flag (audpA p) AUDP_CTRL_GRP_EN = false → (s.aud p).e < 2 ^ 32 - 1 →
    Completes (.audioBlockTarget p n) s fun t =>
      t.aud p = { s.aud p with e := (s.aud p).e + 1, fetched := none, play := k.frames } ∧
      (∀ j : Fin 8, j ≠ p → t.aud j = s.aud j) ∧ t.rd (audpA p + AUDP_CNT2) = s.rd (audpA p + AUDP_CNT2) ∧ Frame [.regs, .auds] s t) ∧
  (∀ (s : State) (p : Fin 8) (next m : Nat) (k : AudPlay), s.live = true → s.audRuns p true = true → (s.aud p).play = [] →
    (s.aud p).fetched = some k → s.flag (audpA p) AUDP_CTRL_GRP_EN = true → s.ticksTo p k.ns next = m → (s.aud p).e < 2 ^ 32 - 1 →
    Completes (.audioBlockTarget p next) s fun t =>
      (t.aud p).play = List.replicate m [] ++ k.frames ∧ (t.aud p).fetched = none ∧
      t.fld (audpA p) AUDP_CNT2_TX_INS = min (s.fld (audpA p) AUDP_CNT2_TX_INS + m) 0xFFFF ∧
      RegFrame [audpA p + AUDP_CNT2] s t ∧ Frame [.regs, .auds] s t) ∧
  (∀ (s : State) (p : Fin 8) (n : Nat), s.live = true → s.audRuns p true = true → (s.aud p).play = [] →
    (s.aud p).fetched = none → (s.aud p).e < 2 ^ 32 - 1 →
    Completes (.audioBlockTarget p n) s fun t =>
      t.aud p = { s.aud p with e := (s.aud p).e + 1, play := List.replicate 64 [] } ∧
      t.flag (audpA p) AUDP_STATUS_TX_UNDER = true ∧
      t.fld (audpA p) AUDP_CNT3_TX_UNDER_BLK = min (s.fld (audpA p) AUDP_CNT3_TX_UNDER_BLK + 1) 0xFFFF ∧
      (∀ j : Fin 8, j ≠ p → t.aud j = s.aud j) ∧
      RegFrame [audpA p + AUDP_STATUS, audpA p + AUDP_CNT3] s t ∧ Frame [.regs, .auds] s t) ∧
  (∀ (s : State) (r : Req) (p : Fin 8) (tx : Bool), s.live = true → s.audRuns p tx = true → ((s.aud p).dir tx).mute = none →
    s.flag (audpA p) (if tx then AUDP_CTRL_TX_MUTE else AUDP_CTRL_RX_MUTE) = false →
    Completes (.audioMute r p tx) s fun t =>
      t.aud p = (s.aud p).setDir tx { (s.aud p).dir tx with mute := some ⟨0, s.rampLen p, false⟩, zero := false } ∧
      t.flag (audpA p) (if tx then AUDP_CTRL_TX_MUTE else AUDP_CTRL_RX_MUTE) = true ∧ (∀ j : Fin 8, j ≠ p → t.aud j = s.aud j) ∧
      RegFrame [audpA p + AUDP_CTRL, audpA p + AUDP_STATUS, almA + ALM_STATUS, nvtA + NVT_STATUS] s t ∧
      Frame [.regs, .auds, .alm] s t) ∧
  (∀ (s : State) (r : Req) (p : Fin 8) (tx : Bool) (n len : Nat), s.live = true → s.audRuns p tx = true →
    ((s.aud p).dir tx).mute = some ⟨n, len, false⟩ →
    s.flag (audpA p) (if tx then AUDP_CTRL_TX_MUTE else AUDP_CTRL_RX_MUTE) = true →
    Completes (.audioUnmute r p tx) s fun t =>
      ((t.aud p).dir tx).mute = some ⟨len - n, len, true⟩ ∧
      t.flag (audpA p) (if tx then AUDP_CTRL_TX_MUTE else AUDP_CTRL_RX_MUTE) = false ∧ (∀ j : Fin 8, j ≠ p → t.aud j = s.aud j) ∧
      RegFrame [audpA p + AUDP_CTRL, audpA p + AUDP_STATUS, almA + ALM_STATUS, nvtA + NVT_STATUS] s t ∧
      Frame [.regs, .auds, .alm] s t) ∧
  (∀ (s : State) (r : Req) (p : Fin 8) (tx : Bool) (v : Word), s.live = true →
    Completes (.slotMaskWrite r p tx v) s fun t =>
      t.rd (audpA p + (if tx then AUDP_TXMASK else AUDP_RXMASK)) = v ∧
      RegFrame [audpA p + (if tx then AUDP_TXMASK else AUDP_RXMASK), almA + ALM_STATUS, nvtA + NVT_STATUS] s t ∧
      Frame [.regs, .alm] s t) ∧
  (∀ (s : State) (p : Fin 8) (tx : Bool) (n len : Nat), s.live = true → ((s.aud p).dir tx).mute = some ⟨n, len, false⟩ →
    len ≤ n → ((s.aud p).dir tx).slots = [] →
    Completes (.rampEnd p tx) s fun t =>
      ((t.aud p).dir tx) = { mute := none, zero := true, slots := [] } ∧
      t.flag (audpA p) (if tx then AUDP_STATUS_TX_MUTED else AUDP_STATUS_RX_MUTED) = true ∧
      t.aud p = (s.aud p).setDir tx ((t.aud p).dir tx) ∧ (∀ j : Fin 8, j ≠ p → t.aud j = s.aud j) ∧
      RegFrame [audpA p + AUDP_STATUS] s t ∧ Frame [.regs, .auds] s t) ∧
  (∀ (s : State) (f : Fin 2) (x e i : Int), s.live = true → (s.fld (audpA f) AUDP_LOOP_MODE = 3 ∨ s.fld (audpA f) AUDP_LOOP_MODE = 2 ∧ 256 * s.tickPhase f = 1000000000 * x) →
    x.natAbs ≤ s.fld (audpA f) AUDP_STEER_LOCK_WIN → i = clampInt (-8388608) 8388608 ((s.aud f).integ + s.fld (audpA f) AUDP_LOOP_KI * x) →
    e = s.fld (audpA f) AUDP_LOOP_KP * x + i → e % 256 = 0 →
    Completes (.clockLoopUpdate f (if s.fld (audpA f) AUDP_LOOP_MODE = 3 then x else 0)) s fun t =>
      (t.aud f).integ = i ∧ (t.aud f).locks = min 100 ((s.aud f).locks + 1) ∧
      t.fld (audpA f) AUDP_STEER_STEER = (clampInt 0 65535 (32768 + e / 256)).toNat ∧
      t.flag (audpA f) AUDP_STEER_LOCKED = (s.flag (audpA f) AUDP_STEER_LOCKED || decide (99 ≤ (s.aud f).locks)) ∧
      RegFrame [audpA f + AUDP_STEER] s t ∧ Frame [.regs, .auds] s t) ∧
  (∀ (s : State) (f : Fin 2) (x : Int), s.live = true → (s.fld (audpA f) AUDP_LOOP_MODE = 3 ∨ s.fld (audpA f) AUDP_LOOP_MODE = 2 ∧ 256 * s.tickPhase f = 1000000000 * x) →
    s.fld (audpA f) AUDP_STEER_LOCK_WIN < x.natAbs →
    Completes (.clockLoopUpdate f (if s.fld (audpA f) AUDP_LOOP_MODE = 3 then x else 0)) s fun t =>
      (t.aud f).locks = 0 ∧ t.flag (audpA f) AUDP_STEER_LOCKED = false ∧
      RegFrame [audpA f + AUDP_STEER] s t ∧ Frame [.regs, .auds, .free] s t) ∧
  (∀ (s : State) (r : Req) (f : Fin 2) (v : Word), s.live = true →
    (v.toNat / 2 ^ 30 = 1 → s.fld (audpA (v.toNat / 2 ^ 27 % 8)) AUDP_CTRL_FAM = f ∧ s.audDrives (v.toNat / 2 ^ 27 % 8) false = false) →
    Completes (.loopModeWrite r f v) s fun t =>
      t.rd (audpA f + AUDP_LOOP) = (infoAt (audpA f + AUDP_LOOP)).written (s.rd (audpA f + AUDP_LOOP)) v ∧
      RegFrame [audpA f + AUDP_LOOP, almA + ALM_STATUS, nvtA + NVT_STATUS] s t ∧ Frame [.regs, .alm] s t) ∧
  (∀ (s : State) (r : Req) (f : Fin 2) (v : Word), s.live = true → v.toNat / 2 ^ 30 = 1 →
    (s.fld (audpA (v.toNat / 2 ^ 27 % 8)) AUDP_CTRL_FAM ≠ f ∨ s.audDrives (v.toNat / 2 ^ 27 % 8) false = true) →
    Completes (.loopModeWrite r f v) s fun t =>
      t.flag (audpA f) AUDP_STATUS_CFG_ERR = true ∧ t.fld (audpA f) AUDP_LOOP_MODE = s.fld (audpA f) AUDP_LOOP_MODE ∧
      RegFrame [audpA f + AUDP_LOOP, audpA f + AUDP_STATUS, almA + ALM_STATUS, nvtA + NVT_STATUS] s t ∧ Frame [.regs, .alm] s t) ∧
  (∀ (s : State) (r : Req) (p : Fin 8), s.live = true →
    Completes (.blockStampRead r p) s fun t =>
      t.answer = s.rd (audpA p + AUDP_BLKTS_NS) ∧ t.rd (audpA p + AUDP_BLKTS_SEC) = wd ((s.aud p).lastNs / 1000000000) ∧
      RegFrame [audpA p + AUDP_BLKTS_SEC] s t ∧ Frame [.regs, .answer] s t)

/-- O57. Procession ports align, beat, forward packets and share time, and a mirrored pair hands over. Aligned lanes of the
other side are taken; of the same side they set WIRING_ERR. A heartbeat carries Table 16-4, as blocks on the port's lanes,
and a silent UP port counts a miss. The third valid one in a row makes the port UP and shows the neighbour; a bad one is
counted and ends the row; one on an UP port gives theta, or counts a missing echo. A lost port is recorded. A packet for
another package leaves by the other port; a bad one is counted. A TIME packet carries Table 17-3, is kept and shows the
upstream; the lowest package locked to PTP leads. A PAIR packet carries Table 22-4; one received shows the partner, its
image differing is recorded, a yield or a faulty partner makes a healthy standby take over, the answer makes the active
half standby, and of two active halves the one by loss, or of the higher number, yields. The loss of an active partner
makes the standby take over by loss; that of a standby clears PARTNER_OK, as silence does. HANDOVER asks the partner, and
unanswered it is dropped and recorded. (The grandmaster is a free value, log entry 1; theta's rounding, log entry 12; a
locked write of the other fields of PAIR_CTRL, log entry 63; who can be reached, log entry 62.). Each of these forms ends
in a next state wherever its clause's conditions on state and operands hold: processionAlign, heartbeatSend,
heartbeatReceive, portLost, processionForward, timePacketSend, timePacketReceive, leaderTimeout, pairPacketSend,
pairPacketReceive, pairPacketTimeout, handoverRequest, handoverTimeout. (R383, R384, R385, R386, R406, R407, R408, R478,
R480, R481, R482) -/
def Obligations.ProcessionPortsShareTimeAndPairsHandOver : Prop :=
  (∀ (s : State) (right : Bool) (l : List LaneMarker), s.live = true → s.prcOn right = true → s.prcReady right = true → aligned l = true →
    (∀ m ∈ validMarkers l, m.tag / 16 % 2 ≠ b2n right) →
    Completes (.processionAlign right l) s fun t =>
      t.proc right = { s.proc right with aligned := true } ∧ t.proc (!right) = s.proc (!right) ∧ Frame [.procs] s t) ∧
  (∀ (s : State) (right : Bool) (l : List LaneMarker), s.live = true → s.prcOn right = true → s.prcReady right = true → aligned l = true →
    (∀ m ∈ validMarkers l, m.tag / 16 % 2 = b2n right) → validMarkers l ≠ [] →
    Completes (.processionAlign right l) s fun t =>
      t.flag advA (prcF right PRC_STATUS_L_WIRING_ERR) = true ∧ RegFrame [advA + PRC_STATUS] s t ∧ Frame [.procs, .regs] s t) ∧
  (∀ (s : State) (right : Bool) (e : BeatStamp) (p : List Byte), s.live = true → s.prcOn right = true →
    (s.proc right).echo = some e →
    p = prcPacket 0x40 0xFFFF (toBytes 2 (((s.proc right).seq + 1) % 65536) ++ toBytes 1 (s.fld topA TOP_STRAP_POSN) ++
      toBytes 1 (s.fld advA ADV_SYSID_PKG_NUM + 16 * s.fld advA ADV_SYSID_VALID) ++
      toBytes 1 (b2n (decide (s.phase = 7)) + 2 * b2n (s.paired && s.active) + 4 * s.fld (fltA 0) FLT_STATUS_DEGRADED +
        8 * s.fld advA ADV_STATUS_MAINT + 16 * s.fld thmA THM_STATUS_WARN) ++ [0] ++ toBytes 6 s.time.sec ++ toBytes 4 s.time.ns ++
      toBytes 2 e.seq ++ toBytes 6 (e.ns / 1000000000) ++ toBytes 4 (e.ns % 1000000000)) →
    Completes (.heartbeatSend right) s fun t =>
      t.sent = s.lit 15 5 ⟨.procession right, 0, ((s.proc right).tx.send (s.prcCfg right) (packetBlocks p)).2⟩ ++ s.sent ∧
      (t.proc right).tx = ((s.proc right).tx.send (s.prcCfg right) (packetBlocks p)).1 ∧
      (t.proc right).seq = ((s.proc right).seq + 1) % 65536 ∧ (t.proc right).got = false ∧
      (t.proc right).sentBeats = (⟨(t.proc right).seq, s.nowNs⟩ :: (s.proc right).sentBeats).take 4 ∧
      t.proc (!right) = s.proc (!right) ∧
      t.fld advA PRC_CNT_MISSED = (if s.prcUp right = true ∧ (s.proc right).got = false then min (s.fld advA PRC_CNT_MISSED + 1) 0xFFFF
        else s.fld advA PRC_CNT_MISSED) ∧
      RegFrame [advA + PRC_CNT] s t ∧ Frame [.regs, .procs, .sent] s t) ∧
  (∀ (s : State) (right : Bool) (c p : List Byte), s.live = true → s.prcOn right = true → (s.proc right).aligned = true →
    c.length = 28 → p = prcPacket 0x40 0xFFFF c → (s.proc right).run = 2 → s.prcUp right = false →
    s.flag advA (prcF right PRC_STATUS_L_WIRING_ERR) = false →
    Completes (.heartbeatReceive right p) s fun t =>
      t.prcUp right = true ∧ t.fld advA (prcF right PRC_NBR_L_POSN) = pktNat p 6 1 % 16 ∧
      t.fld advA (prcF right PRC_NBR_L_PKG) = pktNat p 7 1 % 16 ∧
      t.proc right = { s.proc right with
        run := 3, got := true, echo := some ⟨pktNat p 4 2, s.nowNs⟩, valid := (pktNat p 7 1).testBit 4,
        beatTick := s.tick } ∧
      t.proc (!right) = s.proc (!right) ∧ t.prcUp (!right) = s.prcUp (!right) ∧
      BlockFrame [advA, timeA] s t ∧ Frame [.regs, .procs, .time, .free] s t) ∧
  (∀ (s : State) (right : Bool) (c p : List Byte), s.live = true → s.prcOn right = true → (s.proc right).aligned = true →
    c.length = 28 → p = prcPacket 0x40 0xFFFF c → (s.proc right).run < 2 → s.prcUp right = false →
    Completes (.heartbeatReceive right p) s fun t =>
      t.prcUp right = false ∧ (t.proc right).run = (s.proc right).run + 1 ∧ (t.proc right).got = true ∧
      (t.proc right).echo = some ⟨pktNat p 4 2, s.nowNs⟩ ∧ t.proc (!right) = s.proc (!right) ∧
      RegFrame [advA + PRC_NBR] s t ∧ Frame [.regs, .procs] s t) ∧
  (∀ (s : State) (right : Bool) (p : List Byte), s.live = true → s.prcOn right = true → (s.proc right).aligned = true →
    (prcGood p = false ∨ p.length ≠ 36) →
    Completes (.heartbeatReceive right p) s fun t =>
      t.fld advA PRC_CNT_CRC_ERR = min (s.fld advA PRC_CNT_CRC_ERR + 1) 0xFFFF ∧
      t.proc right = { s.proc right with run := 0 } ∧ t.proc (!right) = s.proc (!right) ∧
      RegFrame [advA + PRC_CNT] s t ∧ Frame [.regs, .procs] s t) ∧
  (∀ (s : State) (right : Bool) (c p : List Byte) (b : BeatStamp) (two : Int), s.live = true → s.prcOn right = true →
    (s.proc right).aligned = true → c.length = 28 → p = prcPacket 0x40 0xFFFF c → s.prcUp right = true → s.timeSrc ≠ 2 →
    (s.proc right).sentBeats.find? (fun x => x.seq = pktNat p 20 2) = some b →
    two = ((pktNat p 22 6 * 1000000000 + pktNat p 28 4 : Nat) : Int) - b.ns + ((pktNat p 10 6 * 1000000000 + pktNat p 16 4 : Nat) - s.nowNs) →
    two % 2 = 0 →
    Completes (.heartbeatReceive right p) s fun t =>
      t.rd (timeA + TIME_PRC_THETA) = wd (ofSigned 32 (two / 2)) ∧ (t.proc right).run = min 3 ((s.proc right).run + 1) ∧
      RegFrame [advA + PRC_NBR, timeA + TIME_PRC_THETA] s t ∧ Frame [.regs, .procs] s t) ∧
  (∀ (s : State) (right : Bool) (c p : List Byte) (b : BeatStamp) (two : Int), s.live = true → s.prcOn right = true →
    (s.proc right).aligned = true → c.length = 28 → p = prcPacket 0x40 0xFFFF c → s.prcUp right = true → s.timeSrc = 2 →
    s.upstream = some right →
    (s.proc right).sentBeats.find? (fun x => x.seq = pktNat p 20 2) = some b →
    two = ((pktNat p 22 6 * 1000000000 + pktNat p 28 4 : Nat) : Int) - b.ns + ((pktNat p 10 6 * 1000000000 + pktNat p 16 4 : Nat) - s.nowNs) →
    two % 2 = 0 → -200 < two → two < 200 → s.time.small < 9 →
    Completes (.heartbeatReceive right p) s fun t =>
      t.time = { s.time with slew := two / 2 * (2 ^ 72 * 10000000), rate := s.time.rate + Config.thetaGain two,
                             small := s.time.small + 1, large := 0 } ∧
      t.flag timeA TIME_STATUS_LOCKED = s.flag timeA TIME_STATUS_LOCKED ∧
      BlockFrame [advA, timeA] s t ∧ Frame [.regs, .procs, .time] s t) ∧
  (∀ (s : State) (right : Bool) (c p : List Byte), s.live = true → s.prcOn right = true →
    (s.proc right).aligned = true → c.length = 28 → p = prcPacket 0x40 0xFFFF c → s.prcUp right = true → s.timeSrc ≠ 2 →
    (s.proc right).sentBeats.find? (fun x => x.seq = pktNat p 20 2) = none →
    Completes (.heartbeatReceive right p) s fun t =>
      t.fld timeA TIME_PRC_CNT_ECHO_MISS = min (s.fld timeA TIME_PRC_CNT_ECHO_MISS + 1) 0xFFFF ∧
      RegFrame [advA + PRC_NBR, timeA + TIME_PRC_CNT] s t ∧ Frame [.regs, .procs] s t) ∧
  (∀ (s : State) (right : Bool), s.live = true → s.prcUp right = true → (s.proc right).beatTick + usTicks 150 ≤ s.tick → s.partnerOn right = false → s.timeSrc ≠ 2 →
    Completes (.portLost right) s fun t =>
      t.prcUp right = false ∧ t.flag advA (prcF right PRC_STATUS_L_LOST) = true ∧ t.prcUp (!right) = s.prcUp (!right) ∧
      t.proc right = { s.proc right with run := 0, time := none } ∧ t.proc (!right) = s.proc (!right) ∧
      Logged 0 0x22 1 (srcOf 0 1 0) 0 (s.fld advA (prcF right PRC_NBR_L_PKG) * 2 ^ 8 +
        s.fld advA (prcF right PRC_NBR_L_POSN) * 2 ^ 12 + b2n right * 2 ^ 16) s t ∧
      RegFrame ((advA + PRC_STATUS) :: recordRegs 0) s t ∧ Frame [.regs, .procs, .alm, .flt] s t) ∧
  (∀ (s : State) (right : Bool) (p : List Byte), s.live = true → s.prcOn right = true → (s.proc right).aligned = true →
    prcGood p = true → pktNat p 2 2 ≠ 0xFFFF → pktNat p 2 2 ≠ s.myPkg → s.paired = false → s.prcUp (!right) = true →
    Completes (.processionForward right p) s fun t =>
      t.sent = s.lit 15 5 ⟨.procession (!right), 0, ((s.proc (!right)).tx.send (s.prcCfg (!right)) (packetBlocks p)).2⟩ ++ s.sent ∧
      t.proc (!right) = { s.proc (!right) with tx := ((s.proc (!right)).tx.send (s.prcCfg (!right)) (packetBlocks p)).1 } ∧
      t.proc right = s.proc right ∧ Frame [.sent, .procs] s t) ∧
  (∀ (s : State) (right : Bool) (p : List Byte), s.live = true → prcGood p = true → pktNat p 2 2 = s.myPkg →
    Completes (.processionForward right p) s fun t => t = s) ∧
  (∀ (s : State) (right : Bool) (p : List Byte), s.live = true → s.prcOn right = true → (s.proc right).aligned = true →
    prcGood p = false →
    Completes (.processionForward right p) s fun t =>
      t.fld advA PRC_CNT_CRC_ERR = min (s.fld advA PRC_CNT_CRC_ERR + 1) 0xFFFF ∧ RegFrame [advA + PRC_CNT] s t ∧ Frame [.regs] s t) ∧
  (∀ (s : State) (right : Bool), s.live = true → s.prcUp right = true → s.flag advA ADV_SYSID_LEADER = true →
    Completes (.timePacketSend right) s fun t =>
      t.sent = s.lit 15 5 ⟨.procession right, 0, ((s.proc right).tx.send (s.prcCfg right) (packetBlocks (prcPacket 0x43 0xFFFF (toBytes 1 s.time.leader ++ [0] ++
        toBytes 1 (1 + 2 * b2n (decide (s.timeSrc = 1)) + 4 * b2n s.holdover) ++
        toBytes 1 (s.fld timeA (domF DOM_CTRL_DOMAIN_NUM s.activeDom)) ++ toBytes 8 (s.fresh 64).toNat ++
        toBytes 1 (s.usedFree.fresh 8).toNat ++ [0] ++ toBytes 2 (s.fld timeA TIME_UTC_UTC_OFS) ++ [0, 0, 0, 0])))).2⟩ ++ s.sent ∧
      t.free = s.free + 2 ∧ t.proc right = { s.proc right with tx := (t.proc right).tx } ∧ t.proc (!right) = s.proc (!right) ∧
      Frame [.sent, .free, .procs] s t) ∧
  (∀ (s : State) (right r : Bool) (k : TimePkt), s.live = true → s.prcUp right = true → s.flag advA ADV_SYSID_LEADER = false →
    s.upstream = some r → (s.proc r).time = some k →
    Completes (.timePacketSend right) s fun t =>
      t.sent = s.lit 15 5 ⟨.procession right, 0, ((s.proc right).tx.send (s.prcCfg right) (packetBlocks (prcPacket 0x43 0xFFFF (toBytes 1 s.time.leader ++
        toBytes 1 (s.fld timeA TIME_PRC_HOPS) ++ toBytes 1 (s.fld timeA TIME_STATUS_LOCKED + k.state / 2 % 4 * 2) ++
        toBytes 1 k.domain ++ toBytes 8 k.gm ++ toBytes 1 k.clockClass ++ [0] ++ toBytes 2 k.utc ++ [0, 0, 0, 0])))).2⟩ ++ s.sent ∧
      t.proc right = { s.proc right with tx := (t.proc right).tx } ∧ t.proc (!right) = s.proc (!right) ∧
      Frame [.sent, .procs] s t) ∧
  (∀ (s : State) (right : Bool) (c p : List Byte), s.live = true → s.prcUp right = true → s.timeSrc = 2 → c.length = 20 →
    p = prcPacket 0x43 0xFFFF c → pktNat p 4 1 = s.time.leader → (pktNat p 6 1).testBit 0 = true → s.prcUp (!right) = false →
    Completes (.timePacketReceive right p) s fun t =>
      (t.proc right).time = some ⟨pktNat p 4 1, pktNat p 5 1, pktNat p 6 1, pktNat p 7 1, pktNat p 8 8, pktNat p 16 1, pktNat p 18 2⟩ ∧
      t.proc (!right) = s.proc (!right) ∧ t.flag timeA TIME_PRC_UP_VALID = true ∧ t.flag timeA TIME_PRC_UP_PORT = right ∧
      t.fld timeA TIME_PRC_HOPS = (pktNat p 5 1 + 1) % 32 ∧ RegFrame [timeA + TIME_PRC] s t ∧ Frame [.regs, .procs] s t) ∧
  (∀ (s : State) (right : Bool) (p : List Byte), s.live = true → s.prcUp right = true → prcGood p = false →
    Completes (.timePacketReceive right p) s fun t =>
      t.fld advA PRC_CNT_CRC_ERR = min (s.fld advA PRC_CNT_CRC_ERR + 1) 0xFFFF ∧ RegFrame [advA + PRC_CNT] s t ∧ Frame [.regs] s t) ∧
  (∀ (s : State) (l : List (Nat × Bool)), s.live = true → s.timeSrc = 2 → s.flag advA ADV_SYSID_LEADER = false →
    s.leaderSeen = false →
    s.usable s.activeDom = true → s.activeDom < 2 → (∀ k ∈ l, k.2 = true → s.myPkg < k.1) →
    Completes (.leaderTimeout l) s fun t =>
      t.time.leader = s.myPkg ∧ t.flag advA ADV_SYSID_LEADER = true ∧ t.timeSrc = 1 ∧
      t.fld timeA TIME_PRC_CNT_LEADER_CHG = min (s.fld timeA TIME_PRC_CNT_LEADER_CHG + 1) 0xFFFF ∧
      t.time.fine = s.time.fine ∧ t.time.rate = (s.dom s.activeDom).rate ∧ t.time.slew = s.carried s.activeDom ∧
      BlockFrame [advA, timeA] s t ∧ Frame [.regs, .time] s t) ∧
  (∀ (s : State) (n : Nat) (l : List (Nat × Bool)), s.live = true → s.timeSrc = 2 → s.flag advA ADV_SYSID_LEADER = false →
    s.leaderSeen = false →
    s.usable 0 = false → s.usable 1 = false → n ≠ s.myPkg → (∀ k ∈ l, k.2 = true → n ≤ k.1) →
    Completes (.leaderTimeout ((n, true) :: l)) s fun t =>
      t.time = { s.time with leader := n } ∧ t.flag advA ADV_SYSID_LEADER = false ∧ t.timeSrc = 2 ∧
      BlockFrame [advA, timeA] s t ∧ Frame [.regs, .time] s t) ∧
  (∀ (s : State), s.live = true → s.timeSrc = 2 → s.flag advA ADV_SYSID_LEADER = false →
    s.leaderSeen = false →
    s.usable 0 = false → s.usable 1 = false →
    Completes (.leaderTimeout []) s fun t =>
      t.time = { s.time with leader := s.myPkg } ∧ t.flag advA ADV_SYSID_LEADER = true ∧ t.timeSrc = 0 ∧
      BlockFrame [advA, timeA] s t ∧ Frame [.regs, .time] s t) ∧
  (∀ (s : State) (right : Bool), s.live = true → s.prcUp right = true → (s.proc right).beatTick + usTicks 150 ≤ s.tick → s.partnerOn right = true →
    s.flag advA PAIR_STATUS_PARTNER_ACTIVE = true → s.mayTake = true → s.timeSrc ≠ 2 →
    Completes (.portLost right) s fun t =>
      t.prcUp right = false ∧ t.flag advA (prcF right PRC_STATUS_L_LOST) = true ∧ t.prcUp (!right) = s.prcUp (!right) ∧
      t.active = true ∧ t.flag advA PAIR_STATUS_BY_LOSS = true ∧
      t.fld advA PAIR_STATUS_HANDOVERS = min (s.fld advA PAIR_STATUS_HANDOVERS + 1) 0xFFFF ∧
      t.pair = { s.pair with req := 2, due := true } ∧ (t.flt.log 0).length = min 32 ((s.flt.log 0).length + 2) ∧
      t.flt.log 0 = (faultRec 0x32 0 (srcOf 0 1 0) 0 256 s.time32 :: faultRec 0x22 1 (srcOf 0 1 0) 0
        (s.fld advA (prcF right PRC_NBR_L_PKG) * 2 ^ 8 + s.fld advA (prcF right PRC_NBR_L_POSN) * 2 ^ 12 + b2n right * 2 ^ 16)
        s.time32 :: s.flt.log 0).take 32 ∧
      t.proc right = { s.proc right with run := 0, time := none } ∧ t.proc (!right) = s.proc (!right) ∧
      RegFrame ([advA + PRC_STATUS, advA + PAIR_STATUS] ++ recordRegs 0) s t ∧ Frame [.regs, .procs, .alm, .flt, .pair] s t) ∧
  (∀ (s : State) (right : Bool), s.live = true → s.prcUp right = true → (s.proc right).beatTick + usTicks 150 ≤ s.tick → s.partnerOn right = true → s.active = true →
    s.timeSrc ≠ 2 →
    Completes (.portLost right) s fun t =>
      t.prcUp right = false ∧ t.flag advA (prcF right PRC_STATUS_L_LOST) = true ∧ t.flag advA PAIR_STATUS_PARTNER_OK = false ∧
      t.active = true ∧ Logged 0 0x22 1 (srcOf 0 1 0) 0 (s.fld advA (prcF right PRC_NBR_L_PKG) * 2 ^ 8 +
        s.fld advA (prcF right PRC_NBR_L_POSN) * 2 ^ 12 + b2n right * 2 ^ 16) s t ∧
      t.proc right = { s.proc right with run := 0, time := none } ∧ t.proc (!right) = s.proc (!right) ∧
      RegFrame ([advA + PRC_STATUS, advA + PAIR_STATUS] ++ recordRegs 0) s t ∧ Frame [.regs, .procs, .alm, .flt] s t) ∧
  (∀ (s : State) (right : Bool), s.live = true → s.partnerOn right = true → s.prcUp right = true →
    (right = true → s.partnerOn false = false ∨ s.prcUp false = false) →
    Completes .pairPacketSend s fun t =>
      t.sent = s.lit 15 5 ⟨.procession right, 0, ((s.proc right).tx.send (s.prcCfg right) (packetBlocks (prcPacket 0x42 s.pair.partner (toBytes 2 ((s.pair.seq + 1) % 65536) ++
        toBytes 1 (b2n s.active + 2 * s.fld advA PAIR_STATUS_BY_LOSS) ++
        toBytes 1 (s.fld (fltA 0) FLT_STATUS_PKG_FAULT + 2 * s.fld (fltA 0) FLT_STATUS_DEGRADED + 4 * s.fld thmA THM_STATUS_LIMIT +
          8 * s.fld advA ADV_STATUS_MAINT) ++ toBytes 1 s.pair.req ++ [0, 0, 0] ++ toBytes 4 s.adv.imgCrc ++
        ([0, 1, 2, 3].flatMap fun h => toBytes 4 (s.fld (headA h) HEAD_FRAME_FRAME) ++ toBytes 4 (((s.head h).cam).getD 0)))))).2⟩ ++ s.sent ∧
      t.pair = { s.pair with seq := (s.pair.seq + 1) % 65536, due := false, req := if s.pair.req = 2 then 0 else s.pair.req } ∧
      t.proc right = { s.proc right with tx := (t.proc right).tx } ∧ t.proc (!right) = s.proc (!right) ∧
      Frame [.pair, .sent, .procs] s t) ∧
  (∀ (s : State), s.live = true → (s.paired = false ∨ (s.prcUp false = false ∧ s.prcUp true = false)) →
    Completes .pairPacketSend s fun t => t = s) ∧
  (∀ (s : State) (right : Bool) (c p : List Byte), s.live = true → s.prcOn right = true → (s.proc right).aligned = true →
    c.length = 44 → p = prcPacket 0x42 s.myPkg c → s.paired = true → pktNat p 8 1 = 0 → (pktNat p 7 1).testBit 0 = false →
    (s.active = false ∨ (pktNat p 6 1).testBit 0 = false) →
    (pktNat p 12 4 = s.adv.imgCrc ∨ s.flag advA PAIR_STATUS_PAIR_MISMATCH = true) →
    Completes (.pairPacketReceive right p) s fun t =>
      t.flag advA PAIR_STATUS_PARTNER_OK = true ∧ t.flag advA PAIR_STATUS_PARTNER_ACTIVE = (pktNat p 6 1).testBit 0 ∧
      t.flag advA PAIR_STATUS_PARTNER_FAULT = false ∧ t.active = s.active ∧
      t.pair = { s.pair with
        heard := true, lastTick := s.tick, hframe := [pktNat p 16 4, pktNat p 24 4, pktNat p 32 4, pktNat p 40 4],
        cframe := [pktNat p 20 4, pktNat p 28 4, pktNat p 36 4, pktNat p 44 4] } ∧
      RegFrame [advA + PAIR_STATUS] s t ∧ Frame [.regs, .pair] s t) ∧
  (∀ (s : State) (right : Bool) (c p : List Byte), s.live = true → s.prcOn right = true → (s.proc right).aligned = true →
    c.length = 44 → p = prcPacket 0x42 s.myPkg c → s.paired = true → pktNat p 8 1 = 0 → (pktNat p 7 1).testBit 0 = false →
    s.active = false → pktNat p 12 4 ≠ s.adv.imgCrc → s.flag advA PAIR_STATUS_PAIR_MISMATCH = false →
    Completes (.pairPacketReceive right p) s fun t =>
      t.flag advA PAIR_STATUS_PAIR_MISMATCH = true ∧ Logged 0 0x33 1 (srcOf 0 1 0) 0 0 s t ∧ t.active = false ∧
      t.pair.heard = true ∧ RegFrame ((advA + PAIR_STATUS) :: recordRegs 0) s t ∧ Frame [.regs, .pair, .alm, .flt] s t) ∧
  (∀ (s : State) (right : Bool) (c p : List Byte), s.live = true → s.prcOn right = true → (s.proc right).aligned = true →
    c.length = 44 → p = prcPacket 0x42 s.myPkg c → s.mayTake = true → (pktNat p 8 1 = 1 ∨ (pktNat p 7 1).testBit 0 = true) →
    pktNat p 12 4 = s.adv.imgCrc →
    Completes (.pairPacketReceive right p) s fun t =>
      t.active = true ∧ t.flag advA PAIR_STATUS_BY_LOSS = false ∧ t.pair.req = 2 ∧ t.pair.due = true ∧ t.pair.heard = true ∧
      t.fld advA PAIR_STATUS_HANDOVERS = min (s.fld advA PAIR_STATUS_HANDOVERS + 1) 0xFFFF ∧
      Logged 0 0x32 0 (srcOf 0 1 0) 0 256 s t ∧
      RegFrame ((advA + PAIR_STATUS) :: recordRegs 0) s t ∧ Frame [.regs, .pair, .alm, .flt] s t) ∧
  (∀ (s : State) (right : Bool) (c p : List Byte), s.live = true → s.prcOn right = true → (s.proc right).aligned = true →
    c.length = 44 → p = prcPacket 0x42 s.myPkg c → s.paired = true → s.active = true → pktNat p 12 4 = s.adv.imgCrc →
    ((pktNat p 8 1 = 2 ∧ s.pair.yielding = true) ∨ (pktNat p 8 1 ≠ 2 ∧ (pktNat p 6 1).testBit 0 = true ∧
      s.flag advA PAIR_STATUS_BY_LOSS = true ∧ ((pktNat p 6 1).testBit 1 = false ∨ s.pair.partner < s.myPkg))) →
    Completes (.pairPacketReceive right p) s fun t =>
      t.active = false ∧ t.flag advA PAIR_STATUS_BY_LOSS = false ∧ t.flag advA PAIR_CTRL_HANDOVER = false ∧
      t.pair.yielding = false ∧ t.pair.req = 0 ∧ t.pair.due = true ∧
      RegFrame [advA + PAIR_STATUS, advA + PAIR_CTRL] s t ∧ Frame [.regs, .pair] s t) ∧
  (∀ (s : State) (right : Bool) (c p : List Byte), s.live = true → s.prcOn right = true → (s.proc right).aligned = true →
    c.length = 44 → p = prcPacket 0x42 s.myPkg c → s.paired = true → s.active = true → pktNat p 12 4 = s.adv.imgCrc →
    pktNat p 8 1 ≠ 2 → (pktNat p 6 1).testBit 0 = true → (s.flag advA PAIR_STATUS_BY_LOSS = false ∨
      ((pktNat p 6 1).testBit 1 = true ∧ s.myPkg ≤ s.pair.partner)) →
    Completes (.pairPacketReceive right p) s fun t =>
      t.active = true ∧ t.flag advA PAIR_STATUS_PARTNER_ACTIVE = true ∧ t.pair.req = s.pair.req ∧
      RegFrame [advA + PAIR_STATUS] s t ∧ Frame [.regs, .pair] s t) ∧
  (∀ (s : State) (right : Bool) (p : List Byte), s.live = true → s.prcOn right = true → (s.proc right).aligned = true →
    (prcGood p = false ∨ p.length ≠ 52) →
    Completes (.pairPacketReceive right p) s fun t =>
      t.fld advA PRC_CNT_CRC_ERR = min (s.fld advA PRC_CNT_CRC_ERR + 1) 0xFFFF ∧ RegFrame [advA + PRC_CNT] s t ∧ Frame [.regs] s t) ∧
  (∀ (s : State), s.live = true → s.pair.lastTick + usTicks 2000 ≤ s.tick →
    Completes .pairPacketTimeout s fun t =>
      t.flag advA PAIR_STATUS_PARTNER_OK = false ∧
      t.rd (advA + PAIR_STATUS) ||| 0x10 = s.rd (advA + PAIR_STATUS) ||| 0x10 ∧ RegFrame [advA + PAIR_STATUS] s t ∧ Frame [.regs] s t) ∧
  (∀ (s : State) (r : Req), s.live = true → s.locked = false → s.paired = true → s.active = true → s.pair.yielding = false →
    Completes (.handoverRequest r) s fun t =>
      t.flag advA PAIR_CTRL_HANDOVER = true ∧ t.pair = { s.pair with yielding := true, req := 1, due := true, askTick := s.tick } ∧
      t.rd (advA + PAIR_CTRL) ||| 4 = s.rd (advA + PAIR_CTRL) ||| 4 ∧ t.active = true ∧
      RegFrame [advA + PAIR_CTRL, almA + ALM_STATUS, nvtA + NVT_STATUS] s t ∧ Frame [.regs, .alm, .pair] s t) ∧
  (∀ (s : State) (r : Req), s.live = true → s.locked = false →
    (s.paired = false ∨ s.active = false ∨ s.pair.yielding = true) →
    Completes (.handoverRequest r) s fun t =>
      t.rd (advA + PAIR_CTRL) = s.rd (advA + PAIR_CTRL) ∧ t.pair = s.pair ∧
      RegFrame [almA + ALM_STATUS, nvtA + NVT_STATUS] s t ∧ Frame [.regs, .alm] s t) ∧
  (∀ (s : State), s.live = true → s.pair.yielding = true → s.pair.askTick + usTicks 1000 ≤ s.tick →
    Completes .handoverTimeout s fun t =>
      t.pair = { s.pair with yielding := false, req := 0, due := true } ∧ t.flag advA PAIR_CTRL_HANDOVER = false ∧
      t.active = s.active ∧ Logged 0 0x33 1 (srcOf 0 1 0) 0 256 s t ∧
      RegFrame ((advA + PAIR_CTRL) :: recordRegs 0) s t ∧ Frame [.regs, .pair, .alm, .flt] s t) ∧
  (∀ (s : State), s.live = true → s.pair.yielding = false → Completes .handoverTimeout s fun t => t = s)

/-- O58. The host's block commands are fetched, checked, cached, sent to the SSDs and completed, and late errors are deferred.
A submission doorbell moves a tail, a completion doorbell a head, and an entry that waited for room follows. Write, Read
and Write Zeroes are refused with the status of what stands in the way, a deferred error failing one command. A Write
enters the cache and completes, waits for room, or goes through to its SSD, after overlapping writes. A Read takes its
blocks from the cache, the SSD or the replay ring, after record-task writes. Write Zeroes and Dataset Management drop
cached data and go to the SSD. A Flush writes dirty blocks back, flushes the SSDs that hold blocks not durable, or
completes with 0x80. Other opcodes and forms are invalid. The cache writes its next run back; a poisoned run is a deferred
error. An SSD command that ends lets its command complete, moves a Read's data to the host, or makes a written-back block
not durable yet; a failed one gives the command a media error, or is logged, deferred, and raises the event. (NVMe
layouts, statuses and PRPs: the model's, log entry 17.). Each of these forms ends in a next state wherever its clause's
conditions on state and operands hold: sqDoorbell, cqDoorbell, nvmWrite, nvmRead, nvmWriteZeroes, datasetManagement,
nvmFlush, invalidCommandOpcode, cacheWriteback, ssdCommandComplete. (R343, R344, R345, R347, R349, R350, R351, R352, R353,
R355, R356, R370) -/
def Obligations.HostBlockCommandsMoveDataAndDeferErrors : Prop :=
  (∀ (s : State) (id : Fin 64) (x : NvSq) (tail : Nat), s.live = true → s.nv.rdy = true → s.sq id = some x → tail < x.size →
    Completes (.sqDoorbell id tail) s fun t =>
      t.sq id = some { x with tail := tail } ∧ QueueFrame [id.val] [] s t ∧ t.nv = { s.nv with sqs := t.nv.sqs } ∧ Frame [.nv] s t) ∧
  (∀ (s : State) (id : Fin 64) (tail : Nat), s.live = true → (s.nv.rdy = false ∨ s.sq id = none ∨ (s.sq id).any (fun x => decide (x.size ≤ tail)) = true) →
    Completes (.sqDoorbell id tail) s fun t => t = s) ∧
  (∀ (s : State) (id : Fin 64) (c : NvCq) (head : Nat), s.live = true → s.nv.rdy = true → s.cq id = some c → head < c.size →
    (c.held = [] ∨ (c.tail + 1) % c.size = head) →
    Completes (.cqDoorbell id head) s fun t =>
      t.cq id = some { c with head := head } ∧ QueueFrame [] [id.val] s t ∧ t.nv = { s.nv with cqs := t.nv.cqs } ∧ Frame [.nv] s t) ∧
  (∀ (s : State) (id : Fin 64) (k cid dw0 st : Nat) (x : NvSq) (c : NvCq) (head : Nat), s.live = true → s.nv.rdy = true →
    s.cq id = some c → head < c.size → c.held = [(k, cid, dw0, st)] → (c.tail + 1) % c.size ≠ head → s.sq k = some x → x.cq = id →
    Completes (.cqDoorbell id head) s fun t =>
      Posted k x { c with head := head, held := [] } cid dw0 st s t ∧ QueueFrame [] [id.val] s t ∧
      HostFrame (c.base + 16 * c.tail) 16 s t ∧ t.nv = { s.nv with cqs := t.nv.cqs } ∧ Frame [.nv, .hostMem, .sent] s t) ∧
  (∀ (s : State) (id : Fin 64) (x : NvSq) (c : NvCq) (q : Sqe) (st : Nat), s.live = true → s.offers id x c q → id ≠ 0 → q.opc = 1 → q.nlb ≤ 256 → s.turnsAway q st →
    Completes (.nvmWrite id) s fun t =>
      Answered id x c q 0 st s t ∧ t.nv = { s.nv with sqs := t.nv.sqs, cqs := t.nv.cqs } ∧ Frame [.nv, .hostMem, .sent] s t) ∧
  (∀ (s : State) (id : Fin 64) (x : NvSq) (c : NvCq) (q : Sqe), s.live = true → s.offers id x c q → id ≠ 0 → q.opc = 1 → q.nlb ≤ 256 → s.defers q →
    Completes (.nvmWrite id) s fun t =>
      Answered id x c q 0 0x780 s t ∧ t.nv = { s.nv with sqs := t.nv.sqs, cqs := t.nv.cqs, failed := s.nv.failed.filter (· ≠ q.nsid) } ∧
      Frame [.nv, .hostMem, .sent] s t) ∧
  (∀ (s : State) (id : Fin 64) (x : NvSq) (c : NvCq) (q : Sqe), s.live = true → s.offers id x c q → id ≠ 0 → q.opc = 1 → 256 < q.nlb → s.nv.san = none → s.storeUp = true →
    Completes (.nvmWrite id) s fun t => Answered id x c q 0 2 s t ∧ t.nv = { s.nv with sqs := t.nv.sqs, cqs := t.nv.cqs } ∧ Frame [.nv, .hostMem, .sent] s t) ∧
  (∀ (s : State) (id : Fin 64) (x : NvSq) (c : NvCq) (q : Sqe) (st : Nat), s.live = true → s.offers id x c q → id ≠ 0 → q.opc = 2 → q.nlb ≤ 256 → s.turnsAway q st →
    Completes (.nvmRead id) s fun t =>
      Answered id x c q 0 st s t ∧ t.nv = { s.nv with sqs := t.nv.sqs, cqs := t.nv.cqs } ∧ Frame [.nv, .hostMem, .sent] s t) ∧
  (∀ (s : State) (id : Fin 64) (x : NvSq) (c : NvCq) (q : Sqe), s.live = true → s.offers id x c q → id ≠ 0 → q.opc = 2 → q.nlb ≤ 256 → s.defers q →
    Completes (.nvmRead id) s fun t =>
      Answered id x c q 0 0x780 s t ∧ t.nv = { s.nv with sqs := t.nv.sqs, cqs := t.nv.cqs, failed := s.nv.failed.filter (· ≠ q.nsid) } ∧
      Frame [.nv, .hostMem, .sent] s t) ∧
  (∀ (s : State) (id : Fin 64) (x : NvSq) (c : NvCq) (q : Sqe), s.live = true → s.offers id x c q → id ≠ 0 → q.opc = 2 → 256 < q.nlb → s.nv.san = none → s.storeUp = true →
    Completes (.nvmRead id) s fun t => Answered id x c q 0 2 s t ∧ t.nv = { s.nv with sqs := t.nv.sqs, cqs := t.nv.cqs } ∧ Frame [.nv, .hostMem, .sent] s t) ∧
  (∀ (s : State) (id : Fin 64) (x : NvSq) (c : NvCq) (q : Sqe) (st : Nat), s.live = true → s.offers id x c q → id ≠ 0 → q.opc = 8 → s.turnsAway q st →
    Completes (.nvmWriteZeroes id) s fun t =>
      Answered id x c q 0 st s t ∧ t.nv = { s.nv with sqs := t.nv.sqs, cqs := t.nv.cqs } ∧ Frame [.nv, .hostMem, .sent] s t) ∧
  (∀ (s : State) (id : Fin 64) (x : NvSq) (c : NvCq) (q : Sqe), s.live = true → s.offers id x c q → id ≠ 0 → q.opc = 8 → s.defers q →
    Completes (.nvmWriteZeroes id) s fun t =>
      Answered id x c q 0 0x780 s t ∧ t.nv = { s.nv with sqs := t.nv.sqs, cqs := t.nv.cqs, failed := s.nv.failed.filter (· ≠ q.nsid) } ∧
      Frame [.nv, .hostMem, .sent] s t) ∧
  (∀ (s : State) (id : Fin 64) (x : NvSq) (c : NvCq) (q : Sqe) (key : Nat), s.live = true → s.offers id x c q → id ≠ 0 → q.opc = 1 → q.nlb ≤ 256 →
    q.nsid ≠ 32 → s.takes q.nsid (q.slba + q.nlb) → q.fua = false → s.nv.vwc = true → s.cacheCap ≠ 0 →
    key = s.keyOf q.nsid q.slba → s.hostIn key q.nlb = [] → s.nv.cache.length + s.cacheNew key q.nlb ≤ s.cacheCap →
    Completes (.nvmWrite id) s fun t =>
      Answered id x c q 0 0 s t ∧
      (∀ i ∈ List.range q.nlb, (t.nv.cache.find? (fun b => b.key = key + i)).map (fun b => (b.nsid, b.lba, b.data, b.dirty)) =
        some (q.nsid, q.slba + i, ((s.prpRead (s.prps q (q.nlb * 4096))).drop (4096 * i)).take 4096, true)) ∧
      t.nv.cache.filter (fun b => decide (b.key < key ∨ key + q.nlb ≤ b.key)) =
        s.nv.cache.filter (fun b => decide (b.key < key ∨ key + q.nlb ≤ b.key)) ∧
      t.fld nvtA NVT_DIRTY_MIB = ((t.nv.cache.filter (·.dirty)).length + 255) / 256 % 2 ^ 32 ∧
      t.nv = { s.nv with sqs := t.nv.sqs, cqs := t.nv.cqs, cache := t.nv.cache } ∧
      RegFrame [nvtA + NVT_DIRTY] s t ∧ Frame [.regs, .hostMem, .nv, .sent] s t) ∧
  (∀ (s : State) (id : Fin 64) (x : NvSq) (c : NvCq) (q : Sqe) (key : Nat), s.live = true → s.offers id x c q → id ≠ 0 → q.opc = 1 → q.nlb ≤ 256 →
    q.nsid ≠ 32 → s.takes q.nsid (q.slba + q.nlb) → q.fua = false → s.nv.vwc = true → s.cacheCap ≠ 0 →
    key = s.keyOf q.nsid q.slba → s.hostIn key q.nlb = [] → s.cacheCap < s.nv.cache.length + s.cacheNew key q.nlb →
    Completes (.nvmWrite id) s fun t =>
      Fetched id x s t ∧
      t.nv = { s.nv with
        sqs := t.nv.sqs, seq := s.nv.seq + 1,
        cmds := s.nv.cmds ++ [{
          n := s.nv.seq, sq := id, cid := q.cid, opc := 1, nsid := q.nsid, slba := q.slba, nlb := q.nlb, fua := false, stage := .room,
          data := s.prpRead (s.prps q (q.nlb * 4096)) }] } ∧ Frame [.nv] s t) ∧
  (∀ (s : State) (id : Fin 64) (x : NvSq) (c : NvCq) (q : Sqe) (key : Nat), s.live = true → s.offers id x c q → id ≠ 0 → q.opc = 1 → q.nlb ≤ 256 →
    q.nsid ≠ 32 → s.takes q.nsid (q.slba + q.nlb) → (q.fua = true ∨ s.nv.vwc = false ∨ s.cacheCap = 0) →
    key = s.keyOf q.nsid q.slba → key % 256 + q.nlb ≤ 256 → s.flyingIn key q.nlb = [] → s.hostIn key q.nlb = [] → s.nvCalm →
    Completes (.nvmWrite id) s fun t =>
      Fetched id x s t ∧
      t.nv = { s.nv with
        sqs := t.nv.sqs, seq := s.nv.seq + 1, ids := s.nv.ids + 1,
        ssds := s.nv.ssds ++ [⟨s.nv.ids, (s.lbaOf key).1, 1, (s.lbaOf key).2, q.nlb, true, .host q.nsid key, false⟩],
        cache := s.nv.cache.filter (fun b => decide (b.key < key ∨ key + q.nlb ≤ b.key)),
        cmds := s.nv.cmds ++ [{
          n := s.nv.seq, sq := id, cid := q.cid, opc := 1, nsid := q.nsid, slba := q.slba, nlb := q.nlb, fua := q.fua, stage := .media,
          need := [s.nv.ids], data := s.prpRead (s.prps q (q.nlb * 4096)) }] } ∧
      t.sent = ⟨.ssd (Fin.ofNat 4 (s.lbaOf key).1), 1, [s.nv.ids, (s.lbaOf key).2, q.nlb, 1] ++
        ((s.prpRead (s.prps q (q.nlb * 4096))).take (q.nlb * 4096)).map (·.toNat)⟩ :: s.sent ∧
      RegFrame [nvtA + NVT_DIRTY] s t ∧ Frame [.regs, .nv, .sent] s t) ∧
  (∀ (s : State) (id : Fin 64) (x : NvSq) (c : NvCq) (q : Sqe) (key : Nat), s.live = true → s.offers id x c q → id ≠ 0 → q.opc = 1 → q.nlb ≤ 256 →
    q.nsid ≠ 32 → s.takes q.nsid (q.slba + q.nlb) → key = s.keyOf q.nsid q.slba → s.hostIn key q.nlb ≠ [] → s.nvCalm →
    Completes (.nvmWrite id) s fun t =>
      Fetched id x s t ∧
      t.nv = { s.nv with
        sqs := t.nv.sqs, seq := s.nv.seq + 1,
        cmds := s.nv.cmds ++ [{
          n := s.nv.seq, sq := id, cid := q.cid, opc := 1, nsid := q.nsid, slba := q.slba, nlb := q.nlb, fua := q.fua, stage := .order,
          need := (if q.fua = true ∨ s.nv.vwc = false ∨ s.cacheCap = 0 then s.flyingIn key q.nlb else []) ++ s.hostIn key q.nlb,
          data := s.prpRead (s.prps q (q.nlb * 4096)) }] } ∧ Frame [.nv] s t) ∧
  (∀ (s : State) (id : Fin 64) (x : NvSq) (c : NvCq) (q : Sqe) (key : Nat), s.live = true → s.offers id x c q → id ≠ 0 → q.opc = 2 → q.nlb ≤ 256 →
    q.nsid ≠ 32 → s.takes q.nsid (q.slba + q.nlb) → key = s.keyOf q.nsid q.slba → key % 256 + q.nlb ≤ 256 →
    (∀ b ∈ s.nv.cache, b.key < key ∨ key + q.nlb ≤ b.key) → s.taskIn key q.nlb = [] → s.hostIn key q.nlb = [] → s.nvCalm →
    Completes (.nvmRead id) s fun t =>
      Fetched id x s t ∧
      t.nv = { s.nv with
        sqs := t.nv.sqs, seq := s.nv.seq + 1, ids := s.nv.ids + 1,
        ssds := s.nv.ssds ++ [⟨s.nv.ids, (s.lbaOf key).1, 2, (s.lbaOf key).2, q.nlb, false, .host q.nsid key, false⟩],
        cmds := s.nv.cmds ++ [{
          n := s.nv.seq, sq := id, cid := q.cid, opc := 2, nsid := q.nsid, slba := q.slba, nlb := q.nlb, stage := .media,
          need := [s.nv.ids], prp := s.prps q (q.nlb * 4096) }] } ∧
      t.sent = ⟨.ssd (Fin.ofNat 4 (s.lbaOf key).1), 2, [s.nv.ids, (s.lbaOf key).2, q.nlb, 0]⟩ :: s.sent ∧ Frame [.nv, .sent] s t) ∧
  (∀ (s : State) (id : Fin 64) (x : NvSq) (c : NvCq) (q : Sqe) (key : Nat) (b : CBlk), s.live = true → s.offers id x c q → id ≠ 0 → q.opc = 2 → q.nlb = 1 → q.nsid ≠ 32 →
    s.takes q.nsid (q.slba + 1) → key = s.keyOf q.nsid q.slba → s.nv.cache.filter (fun y => decide (y.key = key)) = [b] →
    s.taskIn key 1 = [] → s.hostIn key 1 = [] → s.nvCalm → s.prps q 4096 = [(q.prp1, 4096)] →
    (q.prp1 + 4096 ≤ c.base + 16 * c.tail ∨ c.base + 16 * c.tail + 16 ≤ q.prp1) →
    Completes (.nvmRead id) s fun t =>
      Posted id x.next c q.cid 0 0 s t ∧ QueueFrame [id.val] [x.cq] s t ∧
      (∀ i : Fin 4096, i.val < b.data.length → some (t.hostByte (q.prp1 + i)) = b.data[i.val]?) ∧
      HostFrame2 (c.base + 16 * c.tail) 16 q.prp1 4096 s t ∧
      t.nv = { s.nv with sqs := t.nv.sqs, cqs := t.nv.cqs, seq := s.nv.seq + 1 } ∧ Frame [.nv, .hostMem, .sent] s t) ∧
  (∀ (s : State) (id : Fin 64) (x : NvSq) (c : NvCq) (q : Sqe) (key : Nat), s.live = true → s.offers id x c q → id ≠ 0 → q.opc = 2 → q.nlb ≤ 256 →
    q.nsid ≠ 32 → s.takes q.nsid (q.slba + q.nlb) → key = s.keyOf q.nsid q.slba → s.taskIn key q.nlb ++ s.hostIn key q.nlb ≠ [] → s.nvCalm →
    Completes (.nvmRead id) s fun t =>
      Fetched id x s t ∧
      t.nv = { s.nv with
        sqs := t.nv.sqs, seq := s.nv.seq + 1,
        cmds := s.nv.cmds ++ [{
          n := s.nv.seq, sq := id, cid := q.cid, opc := 2, nsid := q.nsid, slba := q.slba, nlb := q.nlb, stage := .order,
          need := s.taskIn key q.nlb ++ s.hostIn key q.nlb, prp := s.prps q (q.nlb * 4096) }] } ∧ Frame [.nv] s t) ∧
  (∀ (s : State) (id : Fin 64) (x : NvSq) (c : NvCq) (q : Sqe) (a : Nat), s.live = true → s.offers id x c q → id ≠ 0 → q.opc = 2 → q.nlb = 1 → q.nsid = 32 →
    s.takes 32 (q.slba + 1) → a = s.fld nvtA NVT_REPLAY_BASE_ADDR * 256 + 4096 * q.slba → s.answersAt a 4096 →
    s.prps q 4096 = [(q.prp1, 4096)] → (q.prp1 + 4096 ≤ c.base + 16 * c.tail ∨ c.base + 16 * c.tail + 16 ≤ q.prp1) →
    Completes (.nvmRead id) s fun t =>
      Posted id x.next c q.cid 0 0 s t ∧ QueueFrame [id.val] [x.cq] s t ∧
      (∀ i : Fin 4096, t.hostByte (q.prp1 + i) = s.memByte (a + i)) ∧ HostFrame2 (c.base + 16 * c.tail) 16 q.prp1 4096 s t ∧
      t.nv = { s.nv with sqs := t.nv.sqs, cqs := t.nv.cqs } ∧ Frame [.nv, .hostMem, .sent] s t) ∧
  (∀ (s : State) (id : Fin 64) (x : NvSq) (c : NvCq) (q : Sqe) (a : Nat), s.live = true → s.offers id x c q → id ≠ 0 → q.opc = 2 → q.nlb ≤ 256 → q.nsid = 32 →
    s.takes 32 (q.slba + q.nlb) → a = s.fld nvtA NVT_REPLAY_BASE_ADDR * 256 + 4096 * q.slba → regionOf a = .dram →
    a + q.nlb * 4096 ≤ s.usableBytes → s.dramIdle = true → s.dramOk a (q.nlb * 4096) = false →
    Completes (.nvmRead id) s fun t =>
      Answered id x c q 0 0x281 s t ∧ t.nv = { s.nv with sqs := t.nv.sqs, cqs := t.nv.cqs } ∧ Frame [.nv, .hostMem, .sent] s t) ∧
  (∀ (s : State) (id : Fin 64) (x : NvSq) (c : NvCq) (q : Sqe) (key : Nat), s.live = true → s.offers id x c q → id ≠ 0 → q.opc = 8 →
    q.nsid ≠ 32 → s.takes q.nsid (q.slba + q.nlb) → key = s.keyOf q.nsid q.slba → key % 256 + q.nlb ≤ 256 →
    s.flyingIn key q.nlb = [] → s.hostIn key q.nlb = [] → s.nvCalm →
    Completes (.nvmWriteZeroes id) s fun t =>
      Fetched id x s t ∧
      t.nv = { s.nv with
        sqs := t.nv.sqs, seq := s.nv.seq + 1, ids := s.nv.ids + 1,
        ssds := s.nv.ssds ++ [⟨s.nv.ids, (s.lbaOf key).1, 8, (s.lbaOf key).2, q.nlb, q.fua, .host q.nsid key, false⟩],
        cache := s.nv.cache.filter (fun b => decide (b.key < key ∨ key + q.nlb ≤ b.key)),
        cmds := s.nv.cmds ++ [{
          n := s.nv.seq, sq := id, cid := q.cid, opc := 8, nsid := q.nsid, slba := q.slba, nlb := q.nlb, fua := q.fua, stage := .media,
          need := [s.nv.ids] }] } ∧
      t.sent = ⟨.ssd (Fin.ofNat 4 (s.lbaOf key).1), 8, [s.nv.ids, (s.lbaOf key).2, q.nlb, b2n q.fua]⟩ :: s.sent ∧
      RegFrame [nvtA + NVT_DIRTY] s t ∧ Frame [.regs, .nv, .sent] s t) ∧
  (∀ (s : State) (id : Fin 64) (x : NvSq) (c : NvCq) (q : Sqe), s.live = true → s.offers id x c q → id ≠ 0 → q.opc = 9 → q.nsid ≠ 32 → s.takes q.nsid 0 → (q.dw 11).testBit 2 = false →
    (∀ r ∈ dsmRanges (q.dw 10 % 256 + 1) (s.prpRead (s.prps q (16 * (q.dw 10 % 256 + 1)))), s.takes q.nsid (r.1 + r.2)) →
    Completes (.datasetManagement id) s fun t =>
      Answered id x c q 0 0 s t ∧ t.nv = { s.nv with sqs := t.nv.sqs, cqs := t.nv.cqs } ∧ Frame [.nv, .hostMem, .sent] s t) ∧
  (∀ (s : State) (id : Fin 64) (x : NvSq) (c : NvCq) (q : Sqe) (key lba n : Nat), s.live = true → s.offers id x c q → id ≠ 0 → q.opc = 9 → q.nsid ≠ 32 → (q.dw 11).testBit 2 = true → q.dw 10 % 256 = 0 →
    dsmRanges 1 (s.prpRead (s.prps q 16)) = [(lba, n)] → s.takes q.nsid (lba + n) → key = s.keyOf q.nsid lba → 0 < n →
    key % 256 + n ≤ 256 → s.flyingIn key n = [] → s.hostIn key n = [] → s.nvCalm →
    Completes (.datasetManagement id) s fun t =>
      Fetched id x s t ∧
      t.nv = { s.nv with
        sqs := t.nv.sqs, seq := s.nv.seq + 1, ids := s.nv.ids + 1,
        ssds := s.nv.ssds ++ [⟨s.nv.ids, (s.lbaOf key).1, 9, (s.lbaOf key).2, n, false, .host q.nsid key, false⟩],
        cache := s.nv.cache.filter (fun b => decide (b.key < key ∨ key + n ≤ b.key)),
        cmds := s.nv.cmds ++ [{ n := s.nv.seq, sq := id, cid := q.cid, opc := 9, nsid := q.nsid, stage := .media, need := [s.nv.ids], data := s.prpRead (s.prps q 16) }] } ∧
      t.sent = ⟨.ssd (Fin.ofNat 4 (s.lbaOf key).1), 9, [s.nv.ids, (s.lbaOf key).2, n, 0]⟩ :: s.sent ∧
      RegFrame [nvtA + NVT_DIRTY] s t ∧ Frame [.regs, .nv, .sent] s t) ∧
  (∀ (s : State) (id : Fin 64) (x : NvSq) (c : NvCq) (q : Sqe), s.live = true → s.offers id x c q → id ≠ 0 → q.opc = 0 → s.nv.san = none → s.storeUp = true → (q.nsid = 0xFFFFFFFF ∨ (s.nsBlocks q.nsid).isSome = true) → s.nv.fmt = none →
    (∀ f ∈ s.nv.failed, inScope q.nsid f = false) →
    (∀ b ∈ s.nv.cache, inScope q.nsid b.nsid = true → b.dirty = false ∧ b.flying = none) →
    (∀ y ∈ s.nv.soft, inScope q.nsid y.nsid = false) → s.nvCalm →
    Completes (.nvmFlush id) s fun t =>
      Answered id x c q 0 0 s t ∧ t.nv = { s.nv with sqs := t.nv.sqs, cqs := t.nv.cqs, seq := s.nv.seq + 1 } ∧ Frame [.nv, .hostMem, .sent] s t) ∧
  (∀ (s : State) (id : Fin 64) (x : NvSq) (c : NvCq) (q : Sqe) (p : Fin 4) (k : Soft), s.live = true → s.offers id x c q → id ≠ 0 → q.opc = 0 → s.nv.san = none → s.storeUp = true → (q.nsid = 0xFFFFFFFF ∨ (s.nsBlocks q.nsid).isSome = true) → s.nv.fmt = none →
    (∀ f ∈ s.nv.failed, inScope q.nsid f = false) →
    (∀ b ∈ s.nv.cache, inScope q.nsid b.nsid = true → b.dirty = false ∧ b.flying = none) →
    s.nv.soft.filter (fun y => inScope q.nsid y.nsid) = [k] → k.port = p → s.ssdState p = 2 → s.nvCalm →
    Completes (.nvmFlush id) s fun t =>
      Fetched id x s t ∧
      t.nv = { s.nv with
        sqs := t.nv.sqs, seq := s.nv.seq + 1, ids := s.nv.ids + 1,
        ssds := s.nv.ssds ++ [⟨s.nv.ids, p, 0, 0, 0, false, .other, false⟩],
        cmds := s.nv.cmds ++ [{
          n := s.nv.seq, sq := id, cid := q.cid, opc := 0, nsid := q.nsid, stage := .flushed, need := [s.nv.ids], snap := [k] }] } ∧
      t.sent = ⟨.ssd p, 0, [s.nv.ids, 0, 0, 0]⟩ :: s.sent ∧ Frame [.nv, .sent] s t) ∧
  (∀ (s : State) (id : Fin 64) (x : NvSq) (c : NvCq) (q : Sqe) (b : CBlk), s.live = true → s.offers id x c q → id ≠ 0 → q.opc = 0 → s.nv.san = none → s.storeUp = true → (q.nsid = 0xFFFFFFFF ∨ (s.nsBlocks q.nsid).isSome = true) → s.nv.fmt = none →
    (∀ f ∈ s.nv.failed, inScope q.nsid f = false) →
    s.nv.cache.filter (fun y => inScope q.nsid y.nsid && (y.dirty || y.flying.isSome)) = [b] → b.dirty = true → b.flying = none →
    (∀ y ∈ s.nv.cache, y ≠ b → y.key ≠ b.key) → s.nvCalm →
    Completes (.nvmFlush id) s fun t =>
      Fetched id x s t ∧
      t.nv = { s.nv with
        sqs := t.nv.sqs, seq := s.nv.seq + 1, ids := s.nv.ids + 1,
        ssds := s.nv.ssds ++ [⟨s.nv.ids, (s.lbaOf b.key).1, 1, (s.lbaOf b.key).2, 1, false, .cache b.nsid b.key, false⟩],
        cache := s.nv.cache.map (fun y => if y.key = b.key then { y with dirty := false, flying := some s.nv.ids } else y),
        cmds := s.nv.cmds ++ [{ n := s.nv.seq, sq := id, cid := q.cid, opc := 0, nsid := q.nsid, stage := .flushing, need := [s.nv.ids] }] } ∧
      t.sent = ⟨.ssd (Fin.ofNat 4 (s.lbaOf b.key).1), 1, [s.nv.ids, (s.lbaOf b.key).2, 1, 0] ++ b.data.map (·.toNat)⟩ :: s.sent ∧
      RegFrame [nvtA + NVT_DIRTY] s t ∧ Frame [.regs, .nv, .sent] s t) ∧
  (∀ (s : State) (id : Fin 64) (x : NvSq) (c : NvCq) (q : Sqe) (f : Nat), s.live = true → s.offers id x c q → id ≠ 0 → q.opc = 0 → s.nv.san = none → s.storeUp = true → (q.nsid = 0xFFFFFFFF ∨ (s.nsBlocks q.nsid).isSome = true) → s.nv.fmt = none →
    f ∈ s.nv.failed → inScope q.nsid f = true →
    Completes (.nvmFlush id) s fun t =>
      Answered id x c q 0 0x780 s t ∧ t.nv = { s.nv with sqs := t.nv.sqs, cqs := t.nv.cqs, failed := s.nv.failed.filter (fun g => !inScope q.nsid g) } ∧
      Frame [.nv, .hostMem, .sent] s t) ∧
  (∀ (s : State) (id : Fin 64) (x : NvSq) (c : NvCq) (q : Sqe), s.live = true → s.offers id x c q →
    ((id ≠ 0 ∧ q.opc ∉ [0x00, 0x01, 0x02, 0x08, 0x09]) ∨ (id = 0 ∧ q.opc ∉ [0x00, 0x01, 0x02, 0x04, 0x05, 0x06, 0x08, 0x09, 0x0A,
      0x0C, 0x0D, 0x10, 0x11, 0x15, 0x80, 0x84])) →
    Completes (.invalidCommandOpcode id) s fun t =>
      Answered id x c q 0 1 s t ∧ t.nv = { s.nv with sqs := t.nv.sqs, cqs := t.nv.cqs } ∧ Frame [.nv, .hostMem, .sent] s t) ∧
  (∀ (s : State) (id : Fin 64) (x : NvSq) (c : NvCq) (q : Sqe), s.live = true → s.offers id x c q → id = 0 →
    ((q.opc = 0x09 ∧ q.dw 10 % 256 ∉ [0x01, 0x04, 0x06, 0x07, 0x08, 0x09, 0x0B]) ∨ (q.opc ∈ [0x0D, 0x15] ∧ 1 < q.dw 10 % 16) ∨
      (q.opc = 0x10 ∧ 2 < bits (q.dw 10) 5 3) ∨ (q.opc = 0x84 ∧ bits (q.dw 10) 2 0 ∉ [2, 3])) →
    Completes (.invalidCommandOpcode id) s fun t =>
      Answered id x c q 0 2 s t ∧ t.nv = { s.nv with sqs := t.nv.sqs, cqs := t.nv.cqs } ∧ Frame [.nv, .hostMem, .sent] s t) ∧
  (∀ (s : State) (b : CBlk) (l : List CBlk), s.live = true → s.storeUp = true → s.nextBack (fun _ => true) = b :: l →
    Completes (.cacheWriteback false) s fun t =>
      t.nv = { s.nv with
        ids := s.nv.ids + 1,
        ssds := s.nv.ssds ++ [⟨s.nv.ids, (s.lbaOf b.key).1, 1, (s.lbaOf b.key).2, l.length + 1, false, .cache b.nsid b.key, false⟩],
        cache := s.nv.cache.map (fun y => if (b :: l).any (fun z => z.key = y.key) then
          { y with dirty := false, flying := some s.nv.ids } else y) } ∧
      t.sent = ⟨.ssd (Fin.ofNat 4 (s.lbaOf b.key).1), 1, [s.nv.ids, (s.lbaOf b.key).2, l.length + 1, 0] ++
        ((b :: l).flatMap (·.data)).map (·.toNat)⟩ :: s.sent ∧
      RegFrame [nvtA + NVT_DIRTY] s t ∧ Frame [.regs, .nv, .sent] s t) ∧
  (∀ (s : State) (b : CBlk) (l : List CBlk), s.live = true → s.storeUp = true → s.nextBack (fun _ => true) = b :: l → s.nvCalm →
    (∀ k ∈ s.nv.cmds, k.stage ≠ .event ∧ k.stage ≠ .room) → (∀ y ∈ s.nv.cache, (b :: l).any (fun z => z.key = y.key) = true → y.flying = none) →
    Completes (.cacheWriteback true) s fun t =>
      t.nv = { s.nv with
        log := (⟨b.nsid, b.lba, l.length + 1, s.indexOf (s.lbaOf b.key).1, 4, 0, s.nowNs⟩ :: s.nv.log).take 255,
        logCount := s.nv.logCount + 1, aePending := true,
        failed := if b.nsid ∈ s.nv.failed then s.nv.failed else b.nsid :: s.nv.failed,
        cache := s.nv.cache.filter (fun y => !(b :: l).any (fun z => z.key = y.key)) } ∧
      t.flag nvtA NVT_EVT_DEFER = true ∧ t.fld nvtA NVT_CNT_DEFERRED = min (s.fld nvtA NVT_CNT_DEFERRED + 1) 0xFFFF ∧
      RegFrame [nvtA + NVT_DIRTY, nvtA + NVT_EVT, nvtA + NVT_CNT, nvtA + NVT_STATUS] s t ∧ Frame [.regs, .nv] s t) ∧
  (∀ (s : State) (port : Fin 4) (id key nsid : Nat) (data : List Byte) (d : SsdCmd), s.live = true → s.ssdCmd port id = some d →
    d.use = .cache nsid key → d.fua = false → s.nvCalm → (∀ k ∈ s.nv.cmds, id ∉ k.need ∧ k.stage ≠ .room) →
    (∀ b ∈ s.nv.cache, b.flying = some id → b.dirty = false) →
    Completes (.ssdCommandComplete port id 0 data) s fun t =>
      t.nv = { s.nv with
        ssds := s.nv.ssds.filter (fun y => y.id ≠ id), soft := s.nv.soft ++ [⟨port, nsid, key, d.nlb⟩],
        cache := s.nv.cache.filter (fun b => b.flying ≠ some id) } ∧
      RegFrame [nvtA + NVT_DIRTY, nvtA + NVT_STATUS] s t ∧ Frame [.regs, .nv] s t) ∧
  (∀ (s : State) (port : Fin 4) (id key nsid : Nat) (data : List Byte) (d : SsdCmd) (k : NvCmd) (x : NvSq) (c : NvCq), s.live = true → s.ssdCmd port id = some d →
    d.use = .host nsid key → k ∈ s.nv.cmds → k.need = [id] → k.stage = .media → k.status = none → k.silent = false →
    (∀ y ∈ s.nv.cmds, y ≠ k → id ∉ y.need ∧ y.n ≠ k.n) → (∀ y ∈ s.nv.cmds, y.stage ≠ .room) → s.nvCalm →
    s.sq k.sq = some x → s.cq x.cq = some c → c.held = [] → c.full = false → d.op = 1 → k.opc = 1 →
    Completes (.ssdCommandComplete port id 0 data) s fun t =>
      Posted k.sq x c k.cid 0 0 s t ∧ QueueFrame [] [x.cq] s t ∧ HostFrame (c.base + 16 * c.tail) 16 s t ∧
      t.nv = { s.nv with cqs := t.nv.cqs, ssds := s.nv.ssds.filter (fun y => y.id ≠ id), cmds := s.nv.cmds.filter (fun y => y.n ≠ k.n) } ∧
      RegFrame [nvtA + NVT_STATUS] s t ∧ Frame [.regs, .nv, .hostMem, .sent] s t) ∧
  (∀ (s : State) (port : Fin 4) (id key nsid st : Nat) (data : List Byte) (d : SsdCmd) (k : NvCmd) (x : NvSq) (c : NvCq), s.live = true → s.ssdCmd port id = some d →
    d.use = .host nsid key → k ∈ s.nv.cmds → k.need = [id] → k.stage = .media → k.status = none → k.silent = false →
    (∀ y ∈ s.nv.cmds, y ≠ k → id ∉ y.need ∧ y.n ≠ k.n) → (∀ y ∈ s.nv.cmds, y.stage ≠ .room) → s.nvCalm →
    s.sq k.sq = some x → s.cq x.cq = some c → c.held = [] → c.full = false → d.op ≠ 2 → 0 < st → d.aborted = false →
    s.fld (nvhA port) NVH_ERR_CAUSE = 0 →
    Completes (.ssdCommandComplete port id st data) s fun t =>
      Posted k.sq x c k.cid 0 0x280 s t ∧ QueueFrame [] [x.cq] s t ∧ HostFrame (c.base + 16 * c.tail) 16 s t ∧
      t.nv = { s.nv with cqs := t.nv.cqs, ssds := s.nv.ssds.filter (fun y => y.id ≠ id), cmds := s.nv.cmds.filter (fun y => y.n ≠ k.n) } ∧
      t.fld (nvhA port) NVH_ERR_CAUSE = 1 ∧ t.fld (nvhA port) NVH_ERR_STATUS = st % 65536 ∧
      RegFrame [nvtA + NVT_STATUS, nvhA port + NVH_ERR] s t ∧ Frame [.regs, .nv, .hostMem, .sent] s t) ∧
  (∀ (s : State) (port : Fin 4) (id key nsid a : Nat) (data : List Byte) (d : SsdCmd) (k : NvCmd) (x : NvSq) (c : NvCq), s.live = true → s.ssdCmd port id = some d →
    d.use = .host nsid key → k ∈ s.nv.cmds → k.need = [id] → k.stage = .media → k.status = none → k.silent = false →
    (∀ y ∈ s.nv.cmds, y ≠ k → id ∉ y.need ∧ y.n ≠ k.n) → (∀ y ∈ s.nv.cmds, y.stage ≠ .room) → s.nvCalm →
    s.sq k.sq = some x → s.cq x.cq = some c → c.held = [] → c.full = false → d.op = 2 → k.opc = 2 → k.nlb = 1 →
    d.nlb = 1 → key = s.keyOf k.nsid k.slba → k.got = [] → k.prp = [(a, 4096)] →
    (a + 4096 ≤ c.base + 16 * c.tail ∨ c.base + 16 * c.tail + 16 ≤ a) →
    Completes (.ssdCommandComplete port id 0 data) s fun t =>
      Posted k.sq x c k.cid 0 0 s t ∧ QueueFrame [] [x.cq] s t ∧ (∀ i : Fin 4096, i.val < data.length → some (t.hostByte (a + i)) = data[i.val]?) ∧
      HostFrame2 (c.base + 16 * c.tail) 16 a 4096 s t ∧
      t.nv = { s.nv with cqs := t.nv.cqs, ssds := s.nv.ssds.filter (fun y => y.id ≠ id), cmds := s.nv.cmds.filter (fun y => y.n ≠ k.n) } ∧
      RegFrame [nvtA + NVT_STATUS] s t ∧ Frame [.regs, .nv, .hostMem, .sent] s t) ∧
  (∀ (s : State) (port : Fin 4) (id key nsid st : Nat) (data : List Byte) (d : SsdCmd) (b : CBlk) (k : NvCmd) (x : NvSq) (c : NvCq),
    s.live = true → s.ssdCmd port id = some d → d.use = .cache nsid key → d.aborted = false → 0 < st → s.nvCalm →
    s.nv.cache.filter (fun y => y.flying = some id) = [b] → b.dirty = false → b.lba + d.nlb ≤ 2 ^ 64 →
    s.nv.cmds.find? (fun y => y.stage = .event) = some k → s.nv.aeMasked = false → (∀ y ∈ s.nv.cmds, id ∉ y.need ∧ y.stage ≠ .room) →
    k.silent = false → (∀ y ∈ s.nv.cmds, y ≠ k → y.n ≠ k.n) → s.sq k.sq = some x → s.cq x.cq = some c → c.held = [] → c.full = false →
    s.fld (nvhA port) NVH_ERR_CAUSE ≠ 0 →
    Completes (.ssdCommandComplete port id st data) s fun t =>
      Posted k.sq x c k.cid 0xC08007 0 s t ∧ QueueFrame [] [x.cq] s t ∧ HostFrame (c.base + 16 * c.tail) 16 s t ∧
      t.nv = { s.nv with
        cqs := t.nv.cqs, ssds := s.nv.ssds.filter (fun y => y.id ≠ id), cmds := s.nv.cmds.filter (fun y => y.n ≠ k.n),
        cache := s.nv.cache.filter (fun y => y.flying ≠ some id), aeMasked := true, aePending := false,
        log := (⟨nsid, b.lba, d.nlb, s.indexOf port, 1, st, s.nowNs⟩ :: s.nv.log).take 255, logCount := s.nv.logCount + 1,
        failed := if nsid ∈ s.nv.failed then s.nv.failed else nsid :: s.nv.failed } ∧
      t.flag nvtA NVT_EVT_DEFER = true ∧ t.fld nvtA NVT_CNT_DEFERRED = min (s.fld nvtA NVT_CNT_DEFERRED + 1) 0xFFFF ∧
      t.flag (nvhA port) NVH_ERR_NESTED = true ∧
      RegFrame [nvtA + NVT_DIRTY, nvtA + NVT_EVT, nvtA + NVT_CNT, nvtA + NVT_STATUS, nvhA port + NVH_ERR] s t ∧
      Frame [.regs, .nv, .hostMem, .sent] s t)

/-- O59. Admin commands create and delete queues, log, identify, abort, set features and take events; enables, resets, the
link and BAR4 act. A legal Create or Delete of a queue is performed and answered; an illegal one is refused; deleting a
submission queue aborts its commands not begun, fetched or not, but a Flush, and waits for the others. Get Log Page gives
log page 0xC0 from its offset, clearing it where RAE is 0, and page 0x81; Identify gives the controller, a namespace and
the active list; unknown pages are refused. An Abort takes a command not begun and answers not aborted otherwise. Each
feature is stored, read back, or refused; none is saveable. An event request waits, is answered by a waiting event, or is
the fifth. An enable sets the admin queues. A controller or subsystem reset discards commands not begun, flushes what is
not durable, and returns queues and features to reset; a shutdown flushes and sets SHST. A link reset also resets the PCIe
registers. A trained link shows width and speed. BAR4 reads and writes DRAM; beyond usable DRAM it is poison or discarded.
(NVMe layouts and codes: the model's, log entry 17.). Each of these forms ends in a next state wherever its clause's
conditions on state and operands hold: createIoCompletionQueue, createIoSubmissionQueue, deleteIoSubmissionQueue,
deleteIoCompletionQueue, getLogPage, identify, nvmeAbort, setFeaturesArbitration, setFeaturesTemperatureThreshold,
setFeaturesVolatileWriteCache, setFeaturesNumberOfQueues, setFeaturesInterruptCoalescing,
setFeaturesInterruptVectorConfig, setFeaturesAsyncEventConfig, getFeatures, asynchronousEventRequest, controllerEnable,
controllerReset, nvmSubsystemReset, shutdownNotification, pcieLinkReset, pcieLinkUp, hostBar4Access. (R340, R341, R343,
R344, R350, R355, R356, R357, R358, R361) -/
def Obligations.HostAdminCommandsAndResetsRuleTheController : Prop :=
  (∀ (s : State) (x : NvSq) (c : NvCq) (q : Sqe) (id n iv : Nat), s.live = true → s.offers 0 x c q → q.opc = 5 → id = q.dw 10 % 65536 → n = q.dw 10 / 65536 → iv = q.dw 11 / 65536 →
    0 < id → id ≤ s.nv.nq / 65536 + 1 → s.cq id = none → 0 < n → n ≤ 4095 → (q.dw 11).testBit 0 = true → iv ≤ 255 →
    Completes .createIoCompletionQueue s fun t =>
      Posted 0 x.next c q.cid 0 0 s t ∧ t.cq id = some { base := q.prp1, size := n + 1, iv := iv, ien := (q.dw 11).testBit 1 } ∧
      QueueFrame [0] [x.cq, id] s t ∧ HostFrame (c.base + 16 * c.tail) 16 s t ∧ t.nv = { s.nv with sqs := t.nv.sqs, cqs := t.nv.cqs } ∧
      Frame [.nv, .hostMem, .sent] s t) ∧
  (∀ (s : State) (x : NvSq) (c : NvCq) (q : Sqe) (id n iv st : Nat), s.live = true → s.offers 0 x c q → q.opc = 5 → id = q.dw 10 % 65536 → n = q.dw 10 / 65536 → iv = q.dw 11 / 65536 →
    (((id = 0 ∨ s.nv.nq / 65536 + 1 < id ∨ (s.cq id).isSome = true) ∧ st = 0x101) ∨
      (0 < id ∧ id ≤ s.nv.nq / 65536 + 1 ∧ s.cq id = none ∧ (((n = 0 ∨ 4095 < n) ∧ st = 0x102) ∨
        (0 < n ∧ n ≤ 4095 ∧ (((q.dw 11).testBit 0 = false ∧ st = 2) ∨ ((q.dw 11).testBit 0 = true ∧ 255 < iv ∧ st = 0x108)))))) →
    Completes .createIoCompletionQueue s fun t => Answered 0 x c q 0 st s t ∧ t.nv = { s.nv with sqs := t.nv.sqs, cqs := t.nv.cqs } ∧ Frame [.nv, .hostMem, .sent] s t) ∧
  (∀ (s : State) (x : NvSq) (c : NvCq) (q : Sqe) (id n k : Nat), s.live = true → s.offers 0 x c q → q.opc = 1 → id = q.dw 10 % 65536 → n = q.dw 10 / 65536 → k = q.dw 11 / 65536 →
    0 < id → id ≤ s.nv.nq % 65536 + 1 → s.sq id = none → 0 < n → n ≤ 4095 → (q.dw 11).testBit 0 = true → 0 < k →
    (s.cq k).isSome = true →
    Completes .createIoSubmissionQueue s fun t =>
      Posted 0 x.next c q.cid 0 0 s t ∧ t.sq id = some { base := q.prp1, size := n + 1, cq := k } ∧
      QueueFrame [0, id] [x.cq] s t ∧ HostFrame (c.base + 16 * c.tail) 16 s t ∧ t.nv = { s.nv with sqs := t.nv.sqs, cqs := t.nv.cqs } ∧
      Frame [.nv, .hostMem, .sent] s t) ∧
  (∀ (s : State) (x : NvSq) (c : NvCq) (q : Sqe) (id n k st : Nat), s.live = true → s.offers 0 x c q → q.opc = 1 → id = q.dw 10 % 65536 → n = q.dw 10 / 65536 → k = q.dw 11 / 65536 →
    (((id = 0 ∨ s.nv.nq % 65536 + 1 < id ∨ (s.sq id).isSome = true) ∧ st = 0x101) ∨
      (0 < id ∧ id ≤ s.nv.nq % 65536 + 1 ∧ s.sq id = none ∧ (((n = 0 ∨ 4095 < n) ∧ st = 0x102) ∨
        (0 < n ∧ n ≤ 4095 ∧ (((q.dw 11).testBit 0 = false ∧ st = 2) ∨
          ((q.dw 11).testBit 0 = true ∧ (k = 0 ∨ s.cq k = none) ∧ st = 0x100)))))) →
    Completes .createIoSubmissionQueue s fun t => Answered 0 x c q 0 st s t ∧ t.nv = { s.nv with sqs := t.nv.sqs, cqs := t.nv.cqs } ∧ Frame [.nv, .hostMem, .sent] s t) ∧
  (∀ (s : State) (x : NvSq) (c : NvCq) (q : Sqe) (id : Nat), s.live = true → s.offers 0 x c q → q.opc = 0 → id = q.dw 10 % 65536 → 0 < id → (s.sq id).any (fun y => y.head == y.tail) = true →
    (∀ k ∈ s.nv.cmds, k.sq ≠ id) → s.nvCalm →
    Completes .deleteIoSubmissionQueue s fun t =>
      Posted 0 x.next c q.cid 0 0 s t ∧ t.sq id = none ∧ QueueFrame [0, id] [x.cq] s t ∧
      HostFrame (c.base + 16 * c.tail) 16 s t ∧ t.nv = { s.nv with sqs := t.nv.sqs, cqs := t.nv.cqs, seq := s.nv.seq + 1 } ∧ Frame [.nv, .hostMem, .sent] s t) ∧
  (∀ (s : State) (x : NvSq) (c : NvCq) (q : Sqe) (id : Nat) (k : NvCmd), s.live = true → s.offers 0 x c q → q.opc = 0 → id = q.dw 10 % 65536 → 0 < id → (s.sq id).any (fun y => y.head == y.tail) = true →
    k ∈ s.nv.cmds → k.sq = id → (∀ y ∈ s.nv.cmds, y.sq = id → y.notBegun = false) → s.nvCalm →
    Completes .deleteIoSubmissionQueue s fun t =>
      Fetched 0 x s t ∧
      t.nv = { s.nv with
        sqs := t.nv.sqs, seq := s.nv.seq + 1,
        cmds := s.nv.cmds ++ [{ n := s.nv.seq, sq := 0, cid := q.cid, opc := 0, stage := .deleting id }] } ∧ Frame [.nv] s t) ∧
  (∀ (s : State) (x : NvSq) (c : NvCq) (q : Sqe) (id : Nat) (k : NvCmd) (y : NvSq) (d : NvCq), s.live = true → s.offers 0 x c q → q.opc = 0 → id = q.dw 10 % 65536 → 0 < id → s.sq id = some y → y.head = y.tail →
    s.nv.cmds = [k] → k.sq = id → k.stage = .room → k.silent = false → k.n < s.nv.seq → s.cq y.cq = some d → y.cq ≠ x.cq →
    d.held = [] → d.full = false →
    Completes .deleteIoSubmissionQueue s fun t =>
      t.sq id = none ∧ t.sq 0 = some x.next ∧ QueueFrame [0, id] [x.cq, y.cq] s t ∧ t.nv.cmds = [] ∧
      t.sent.drop ((if c.ien then 1 else 0) + 1) = (if d.ien then [⟨.msix, 0, [d.iv]⟩] else []) ++
        ⟨.nvmeCq, y.cq, (cqEntry 0 y.head id k.cid 7 d.phase).map (·.toNat)⟩ :: s.sent ∧
      t.nv = { s.nv with sqs := t.nv.sqs, cqs := t.nv.cqs, cmds := [], seq := s.nv.seq + 1 } ∧
      t.fld nvtA NVT_CNT_ABORTED = min (s.fld nvtA NVT_CNT_ABORTED + 1) 0xFFFF ∧
      HostFrame2 (c.base + 16 * c.tail) 16 (d.base + 16 * d.tail) 16 s t ∧
      RegFrame [nvtA + NVT_CNT] s t ∧ Frame [.regs, .nv, .hostMem, .sent] s t) ∧
  (∀ (s : State) (x : NvSq) (c : NvCq) (q p : Sqe) (id : Nat) (y : NvSq) (d : NvCq), s.live = true → s.offers 0 x c q → q.opc = 0 → id = q.dw 10 % 65536 → 0 < id → s.sq id = some y →
    y.head ≠ y.tail → y.head < y.size → (y.head + 1) % y.size = y.tail → y.skip = [] → s.sqeAt y y.head = p → p.opc ≠ 0 → s.nv.cmds = [] →
    s.cq y.cq = some d → y.cq ≠ x.cq → d.held = [] → d.full = false →
    Completes .deleteIoSubmissionQueue s fun t =>
      t.sq id = none ∧ t.sq 0 = some x.next ∧ QueueFrame [0, id] [x.cq, y.cq] s t ∧
      t.sent.drop ((if c.ien then 1 else 0) + 1) = (if d.ien then [⟨.msix, 0, [d.iv]⟩] else []) ++
        ⟨.nvmeCq, y.cq, (cqEntry 0 y.head id p.cid 7 d.phase).map (·.toNat)⟩ :: s.sent ∧
      t.nv = { s.nv with sqs := t.nv.sqs, cqs := t.nv.cqs, seq := s.nv.seq + 1 } ∧
      t.fld nvtA NVT_CNT_ABORTED = min (s.fld nvtA NVT_CNT_ABORTED + 1) 0xFFFF ∧
      RegFrame [nvtA + NVT_CNT] s t ∧ Frame [.regs, .nv, .hostMem, .sent] s t) ∧
  (∀ (s : State) (x : NvSq) (c : NvCq) (q p : Sqe) (id : Nat) (y : NvSq), s.live = true → s.offers 0 x c q → q.opc = 0 → id = q.dw 10 % 65536 → 0 < id → s.sq id = some y →
    y.head ≠ y.tail → y.head < y.size → (y.head + 1) % y.size = y.tail → y.skip = [] → s.sqeAt y y.head = p → p.opc = 0 → s.nv.cmds = [] →
    Completes .deleteIoSubmissionQueue s fun t =>
      Fetched 0 x s t ∧
      t.nv = { s.nv with
        sqs := t.nv.sqs, seq := s.nv.seq + 1, cmds := [{ n := s.nv.seq, sq := 0, cid := q.cid, opc := 0, stage := .deleting id }] } ∧
      Frame [.nv] s t) ∧
  (∀ (s : State) (x : NvSq) (c : NvCq) (q : Sqe) (id : Nat), s.live = true → s.offers 0 x c q → q.opc = 0 → id = q.dw 10 % 65536 → (id = 0 ∨ s.sq id = none) →
    Completes .deleteIoSubmissionQueue s fun t => Answered 0 x c q 0 0x101 s t ∧ t.nv = { s.nv with sqs := t.nv.sqs, cqs := t.nv.cqs } ∧ Frame [.nv, .hostMem, .sent] s t) ∧
  (∀ (s : State) (x : NvSq) (c : NvCq) (q : Sqe) (id : Nat), s.live = true → s.offers 0 x c q → q.opc = 4 → id = q.dw 10 % 65536 → 0 < id → id ≠ x.cq → (s.cq id).isSome = true →
    (∀ e ∈ s.nv.sqs, ∀ y ∈ e.2, y.cq ≠ id) →
    Completes .deleteIoCompletionQueue s fun t =>
      Posted 0 x.next c q.cid 0 0 s t ∧ t.cq id = none ∧ QueueFrame [0] [x.cq, id] s t ∧
      HostFrame (c.base + 16 * c.tail) 16 s t ∧ t.nv = { s.nv with sqs := t.nv.sqs, cqs := t.nv.cqs } ∧ Frame [.nv, .hostMem, .sent] s t) ∧
  (∀ (s : State) (x : NvSq) (c : NvCq) (q : Sqe) (id k st : Nat), s.live = true → s.offers 0 x c q → q.opc = 4 → id = q.dw 10 % 65536 →
    (((id = 0 ∨ s.cq id = none) ∧ st = 0x101) ∨
      (0 < id ∧ (s.cq id).isSome = true ∧ 0 < k ∧ (s.sq k).any (fun y => decide (y.cq = id)) = true ∧ st = 0x10C)) →
    Completes .deleteIoCompletionQueue s fun t => Answered 0 x c q 0 st s t ∧ t.nv = { s.nv with sqs := t.nv.sqs, cqs := t.nv.cqs } ∧ Frame [.nv, .hostMem, .sent] s t) ∧
  (∀ (s : State) (x : NvSq) (c : NvCq) (q : Sqe) (a : Nat), s.live = true → s.offers 0 x c q → q.opc = 2 → q.dw 10 % 256 = 0xC0 → q.dw 10 / 65536 = 15 → q.dw 11 % 65536 = 0 →
    q.dw 12 = 0 → q.dw 13 = 0 → (q.dw 10).testBit 15 = false → s.prps q 64 = [(a, 64)] → (a + 64 ≤ c.base + 16 * c.tail ∨ c.base + 16 * c.tail + 16 ≤ a) → s.nv.aePending = false →
    Completes .getLogPage s fun t =>
      Posted 0 x.next c q.cid 0 0 s t ∧ QueueFrame [0] [x.cq] s t ∧
      t.hostBytes a 64 = toBytes 8 s.nv.logCount ++ toBytes 4 s.nv.log.length ++ List.replicate 52 0 ∧
      HostFrame2 (c.base + 16 * c.tail) 16 a 64 s t ∧ t.nv = { s.nv with sqs := t.nv.sqs, cqs := t.nv.cqs, log := [], aeMasked := false } ∧
      Frame [.nv, .hostMem, .sent] s t) ∧
  (∀ (s : State) (x : NvSq) (c : NvCq) (q : Sqe) (a : Nat) (e : DefErr) (l : List DefErr), s.live = true → s.offers 0 x c q → q.opc = 2 → q.dw 10 % 256 = 0xC0 →
    q.dw 10 / 65536 = 15 → q.dw 11 % 65536 = 0 → q.dw 12 = 64 → q.dw 13 = 0 → (q.dw 10).testBit 15 = true →
    s.nv.log = l ++ [e] → s.prps q 64 = [(a, 64)] → (a + 64 ≤ c.base + 16 * c.tail ∨ c.base + 16 * c.tail + 16 ≤ a) →
    Completes .getLogPage s fun t =>
      Posted 0 x.next c q.cid 0 0 s t ∧ QueueFrame [0] [x.cq] s t ∧
      t.hostBytes a 64 = toBytes 4 e.nsid ++ toBytes 8 e.slba ++ toBytes 4 e.nlb ++ toBytes 1 e.ssd ++ toBytes 1 e.cause ++
        toBytes 2 e.status ++ toBytes 8 (e.ns / 1000000000) ++ toBytes 4 (e.ns % 1000000000) ++ List.replicate 32 0 ∧
      HostFrame2 (c.base + 16 * c.tail) 16 a 64 s t ∧ t.nv = { s.nv with sqs := t.nv.sqs, cqs := t.nv.cqs } ∧ Frame [.nv, .hostMem, .sent] s t) ∧
  (∀ (s : State) (x : NvSq) (c : NvCq) (q : Sqe) (a : Nat), s.live = true → s.offers 0 x c q → q.opc = 2 → q.dw 10 % 256 = 0x81 → q.dw 10 / 65536 = 0 → q.dw 11 % 65536 = 0 →
    q.dw 12 = 0 → q.dw 13 = 0 → s.prps q 4 = [(a, 4)] → (a + 4 ≤ c.base + 16 * c.tail ∨ c.base + 16 * c.tail + 16 ≤ a) → s.nv.san = none →
    Completes .getLogPage s fun t =>
      Posted 0 x.next c q.cid 0 0 s t ∧ QueueFrame [0] [x.cq] s t ∧ t.hostBytes a 3 = [0xFF, 0xFF] ++ toBytes 1 s.nv.sanStat ∧
      HostFrame2 (c.base + 16 * c.tail) 16 a 4 s t ∧ t.nv = { s.nv with sqs := t.nv.sqs, cqs := t.nv.cqs } ∧ t.free = s.free + 512 ∧
      Frame [.nv, .hostMem, .sent, .free] s t) ∧
  (∀ (s : State) (x : NvSq) (c : NvCq) (q : Sqe), s.live = true → s.offers 0 x c q → q.opc = 2 → q.dw 10 % 256 ∉ [1, 2, 3, 5, 0x81, 0xC0] →
    Completes .getLogPage s fun t => Answered 0 x c q 0 2 s t ∧ t.nv = { s.nv with sqs := t.nv.sqs, cqs := t.nv.cqs } ∧ Frame [.nv, .hostMem, .sent] s t) ∧
  (∀ (s : State) (x : NvSq) (c : NvCq) (q : Sqe) (a : Nat), s.live = true → s.offers 0 x c q → q.opc = 6 → q.dw 10 % 256 = 1 → s.prps q 4096 = [(a, 4096)] → (a + 4096 ≤ c.base + 16 * c.tail ∨ c.base + 16 * c.tail + 16 ≤ a) →
    Completes .identify s fun t =>
      Posted 0 x.next c q.cid 0 0 s t ∧ QueueFrame [0] [x.cq] s t ∧ t.hostBytes a 2 = toBytes 2 (s.fld pcieA PCIE_ID_VENDOR_ID) ∧
      t.hostByte (a + 77) = 8 ∧ t.hostBytes (a + 516) 4 = [32, 0, 0, 0] ∧ HostFrame2 (c.base + 16 * c.tail) 16 a 4096 s t ∧
      t.nv = { s.nv with sqs := t.nv.sqs, cqs := t.nv.cqs } ∧ t.free = s.free + 4096 ∧ Frame [.nv, .hostMem, .sent, .free] s t) ∧
  (∀ (s : State) (x : NvSq) (c : NvCq) (q : Sqe) (a n : Nat), s.live = true → s.offers 0 x c q → q.opc = 6 → q.dw 10 % 256 = 0 → 0 < q.nsid → q.nsid ≤ 32 → s.nsBlocks q.nsid = some n →
    s.prps q 4096 = [(a, 4096)] → (a + 4096 ≤ c.base + 16 * c.tail ∨ c.base + 16 * c.tail + 16 ≤ a) →
    Completes .identify s fun t =>
      Posted 0 x.next c q.cid 0 0 s t ∧ QueueFrame [0] [x.cq] s t ∧
      t.hostBytes a 24 = toBytes 8 n ++ toBytes 8 n ++ toBytes 8 n ∧ t.hostBytes (a + 128) 3 = [0, 0, 12] ∧
      HostFrame2 (c.base + 16 * c.tail) 16 a 4096 s t ∧ t.nv = { s.nv with sqs := t.nv.sqs, cqs := t.nv.cqs } ∧ t.free = s.free + 4096 ∧
      Frame [.nv, .hostMem, .sent, .free] s t) ∧
  (∀ (s : State) (x : NvSq) (c : NvCq) (q : Sqe) (a n : Nat), s.live = true → s.offers 0 x c q → q.opc = 6 → q.dw 10 % 256 = 2 → s.prps q 4096 = [(a, 4096)] → (a + 4096 ≤ c.base + 16 * c.tail ∨ c.base + 16 * c.tail + 16 ≤ a) →
    q.nsid < n → n ≤ 32 → (s.nsBlocks n).isSome = true → (∀ m ∈ List.range n, q.nsid < m → s.nsBlocks m = none) →
    Completes .identify s fun t =>
      Posted 0 x.next c q.cid 0 0 s t ∧ QueueFrame [0] [x.cq] s t ∧ t.hostBytes a 4 = [BitVec.ofNat 8 n, 0, 0, 0] ∧
      HostFrame2 (c.base + 16 * c.tail) 16 a 4096 s t ∧ t.nv = { s.nv with sqs := t.nv.sqs, cqs := t.nv.cqs } ∧ Frame [.nv, .hostMem, .sent] s t) ∧
  (∀ (s : State) (x : NvSq) (c : NvCq) (q : Sqe) (st : Nat), s.live = true → s.offers 0 x c q → q.opc = 6 →
    ((q.dw 10 % 256 ∉ [0, 1, 2, 3, 0x10, 0x11, 0x12, 0x13] ∧ st = 2) ∨
      (q.dw 10 % 256 ∈ [0, 0x11, 0x12] ∧ (q.nsid = 0 ∨ 32 < q.nsid) ∧ st = 0x0B)) →
    Completes .identify s fun t => Answered 0 x c q 0 st s t ∧ t.nv = { s.nv with sqs := t.nv.sqs, cqs := t.nv.cqs } ∧ Frame [.nv, .hostMem, .sent] s t) ∧
  (∀ (s : State) (x : NvSq) (c : NvCq) (q : Sqe) (k : NvCmd), s.live = true → s.offers 0 x c q → q.opc = 8 → q.dw 10 % 65536 = k.sq → q.dw 10 / 65536 = k.cid →
    s.nv.cmds.find? (fun y => y.sq = k.sq && y.cid = k.cid && !y.silent) = some k → k.notBegun = false →
    Completes .nvmeAbort s fun t => Answered 0 x c q 1 0 s t ∧ t.nv = { s.nv with sqs := t.nv.sqs, cqs := t.nv.cqs } ∧ Frame [.nv, .hostMem, .sent] s t) ∧
  (∀ (s : State) (x : NvSq) (c : NvCq) (q : Sqe) (k : NvCmd) (y : NvSq) (d : NvCq), s.live = true → s.offers 0 x c q → q.opc = 8 → q.dw 10 % 65536 = k.sq → q.dw 10 / 65536 = k.cid →
    s.nv.cmds.find? (fun y => y.sq = k.sq && y.cid = k.cid && !y.silent) = some k → k.notBegun = true → (∀ y ∈ s.nv.cmds, y ≠ k → y.n ≠ k.n) →
    s.sq k.sq = some y → k.sq ≠ 0 → s.cq y.cq = some d → y.cq ≠ x.cq → d.held = [] → d.full = false →
    Completes .nvmeAbort s fun t =>
      t.sq 0 = some x.next ∧ QueueFrame [0] [x.cq, y.cq] s t ∧
      t.sent = (if c.ien then [⟨.msix, 0, [c.iv]⟩] else []) ++
        ⟨.nvmeCq, x.cq, (cqEntry 0 x.next.head 0 q.cid 0 c.phase).map (·.toNat)⟩ :: (if d.ien then [⟨.msix, 0, [d.iv]⟩] else []) ++
        ⟨.nvmeCq, y.cq, (cqEntry 0 y.head k.sq k.cid 7 d.phase).map (·.toNat)⟩ :: s.sent ∧
      t.nv = { s.nv with sqs := t.nv.sqs, cqs := t.nv.cqs, cmds := s.nv.cmds.filter (fun z => z.n ≠ k.n) } ∧
      t.fld nvtA NVT_CNT_ABORTED = min (s.fld nvtA NVT_CNT_ABORTED + 1) 0xFFFF ∧
      HostFrame2 (c.base + 16 * c.tail) 16 (d.base + 16 * d.tail) 16 s t ∧
      RegFrame [nvtA + NVT_CNT] s t ∧ Frame [.regs, .nv, .hostMem, .sent] s t) ∧
  (∀ (s : State) (x : NvSq) (c : NvCq) (q p : Sqe) (id : Nat) (y : NvSq), s.live = true → s.offers 0 x c q → q.opc = 8 → q.dw 10 % 65536 = id → 0 < id → s.sq id = some y →
    (∀ k ∈ s.nv.cmds, k.sq ≠ id) → y.head < y.size → (y.head + 1) % y.size = y.tail → y.head ≠ y.tail → y.skip = [] → s.sqeAt y y.head = p →
    q.dw 10 / 65536 = p.cid → p.opc = 0 →
    Completes .nvmeAbort s fun t => Answered 0 x c q 1 0 s t ∧ t.nv = { s.nv with sqs := t.nv.sqs, cqs := t.nv.cqs } ∧ Frame [.nv, .hostMem, .sent] s t) ∧
  (∀ (s : State) (x : NvSq) (c : NvCq) (q p : Sqe) (id : Nat) (y : NvSq) (d : NvCq), s.live = true → s.offers 0 x c q → q.opc = 8 → q.dw 10 % 65536 = id → 0 < id → s.sq id = some y →
    (∀ k ∈ s.nv.cmds, k.sq ≠ id) → y.head < y.size → (y.head + 1) % y.size = y.tail → y.head ≠ y.tail → y.skip = [] → s.sqeAt y y.head = p →
    q.dw 10 / 65536 = p.cid → p.opc ≠ 0 → s.cq y.cq = some d → y.cq ≠ x.cq → d.held = [] → d.full = false →
    Completes .nvmeAbort s fun t =>
      t.sq 0 = some x.next ∧ t.sq id = some { y with skip := [y.head] } ∧ QueueFrame [0, id] [x.cq, y.cq] s t ∧
      t.sent = (if c.ien then [⟨.msix, 0, [c.iv]⟩] else []) ++
        ⟨.nvmeCq, x.cq, (cqEntry 0 x.next.head 0 q.cid 0 c.phase).map (·.toNat)⟩ :: (if d.ien then [⟨.msix, 0, [d.iv]⟩] else []) ++
        ⟨.nvmeCq, y.cq, (cqEntry 0 y.head id p.cid 7 d.phase).map (·.toNat)⟩ :: s.sent ∧
      t.nv = { s.nv with sqs := t.nv.sqs, cqs := t.nv.cqs } ∧ t.fld nvtA NVT_CNT_ABORTED = min (s.fld nvtA NVT_CNT_ABORTED + 1) 0xFFFF ∧
      RegFrame [nvtA + NVT_CNT] s t ∧ Frame [.regs, .nv, .hostMem, .sent] s t) ∧
  (∀ (s : State) (x : NvSq) (c : NvCq) (q : Sqe) (k : Nat), s.live = true → s.offers 0 x c q → q.opc = 8 → q.dw 10 % 65536 = k → s.sq k = none → (∀ y ∈ s.nv.cmds, y.sq ≠ k) →
    Completes .nvmeAbort s fun t => Answered 0 x c q 1 0 s t ∧ t.nv = { s.nv with sqs := t.nv.sqs, cqs := t.nv.cqs } ∧ Frame [.nv, .hostMem, .sent] s t) ∧
  (∀ (s : State) (x : NvSq) (c : NvCq) (q : Sqe), s.live = true → s.offers 0 x c q → q.opc = 9 → q.dw 10 % 256 = 1 → (q.dw 10).testBit 31 = true →
    Completes .setFeaturesArbitration s fun t => Answered 0 x c q 0 0x10D s t ∧ t.nv = { s.nv with sqs := t.nv.sqs, cqs := t.nv.cqs } ∧ Frame [.nv, .hostMem, .sent] s t) ∧
  (∀ (s : State) (x : NvSq) (c : NvCq) (q : Sqe), s.live = true → s.offers 0 x c q → q.opc = 9 → q.dw 10 % 256 = 1 → (q.dw 10).testBit 31 = false →
    Completes .setFeaturesArbitration s fun t => Answered 0 x c q 0 0 s t ∧ t.nv = { s.nv with sqs := t.nv.sqs, cqs := t.nv.cqs, arb := q.dw 11 } ∧ Frame [.nv, .hostMem, .sent] s t) ∧
  (∀ (s : State) (x : NvSq) (c : NvCq) (q : Sqe) (k : Nat), s.live = true → s.offers 0 x c q → q.opc = 9 → q.dw 10 % 256 = 4 → (q.dw 10).testBit 31 = false →
    k = bits (q.dw 11) 21 16 → k / 16 ≤ 1 → k % 16 ≤ 8 →
    Completes .setFeaturesTemperatureThreshold s fun t =>
      Answered 0 x c q 0 0 s t ∧
      (∀ j : Fin 32, UMap.get (fun _ => 0) t.nv.temps j = if j.val = k then q.dw 11 % 65536 else UMap.get (fun _ => 0) s.nv.temps j) ∧
      t.nv = { s.nv with sqs := t.nv.sqs, cqs := t.nv.cqs, temps := t.nv.temps } ∧ Frame [.nv, .hostMem, .sent] s t) ∧
  (∀ (s : State) (x : NvSq) (c : NvCq) (q : Sqe), s.live = true → s.offers 0 x c q → q.opc = 9 → q.dw 10 % 256 = 4 → (q.dw 10).testBit 31 = true →
    Completes .setFeaturesTemperatureThreshold s fun t => Answered 0 x c q 0 0x10D s t ∧ t.nv = { s.nv with sqs := t.nv.sqs, cqs := t.nv.cqs } ∧ Frame [.nv, .hostMem, .sent] s t) ∧
  (∀ (s : State) (x : NvSq) (c : NvCq) (q : Sqe), s.live = true → s.offers 0 x c q → q.opc = 9 → q.dw 10 % 256 = 4 → (q.dw 10).testBit 31 = false → (1 < bits (q.dw 11) 21 20 ∨ 8 < bits (q.dw 11) 19 16 ∧ bits (q.dw 11) 19 16 ≠ 15) →
    Completes .setFeaturesTemperatureThreshold s fun t => Answered 0 x c q 0 2 s t ∧ t.nv = { s.nv with sqs := t.nv.sqs, cqs := t.nv.cqs } ∧ Frame [.nv, .hostMem, .sent] s t) ∧
  (∀ (s : State) (x : NvSq) (c : NvCq) (q : Sqe), s.live = true → s.offers 0 x c q → q.opc = 9 → q.dw 10 % 256 = 4 → (q.dw 10).testBit 31 = false → bits (q.dw 11) 21 20 ≤ 1 → bits (q.dw 11) 19 16 = 15 →
    Completes .setFeaturesTemperatureThreshold s fun t =>
      Answered 0 x c q 0 0 s t ∧
      (∀ j : Fin 32, UMap.get (fun _ => 0) t.nv.temps j =
        if j.val / 16 = bits (q.dw 11) 21 20 ∧ j.val % 16 ≤ 8 then q.dw 11 % 65536 else UMap.get (fun _ => 0) s.nv.temps j) ∧
      t.nv = { s.nv with sqs := t.nv.sqs, cqs := t.nv.cqs, temps := t.nv.temps } ∧ Frame [.nv, .hostMem, .sent] s t) ∧
  (∀ (s : State) (x : NvSq) (c : NvCq) (q : Sqe), s.live = true → s.offers 0 x c q → q.opc = 9 → q.dw 10 % 256 = 6 → (q.dw 10).testBit 31 = true →
    Completes .setFeaturesVolatileWriteCache s fun t => Answered 0 x c q 0 0x10D s t ∧ t.nv = { s.nv with sqs := t.nv.sqs, cqs := t.nv.cqs } ∧ Frame [.nv, .hostMem, .sent] s t) ∧
  (∀ (s : State) (x : NvSq) (c : NvCq) (q : Sqe), s.live = true → s.offers 0 x c q → q.opc = 9 → q.dw 10 % 256 = 6 → (q.dw 10).testBit 31 = false →
    Completes .setFeaturesVolatileWriteCache s fun t => Answered 0 x c q 0 0 s t ∧ t.nv = { s.nv with sqs := t.nv.sqs, cqs := t.nv.cqs, vwc := (q.dw 11).testBit 0 } ∧ Frame [.nv, .hostMem, .sent] s t) ∧
  (∀ (s : State) (x : NvSq) (c : NvCq) (q : Sqe), s.live = true → s.offers 0 x c q → q.opc = 9 → q.dw 10 % 256 = 7 → (q.dw 10).testBit 31 = true →
    Completes .setFeaturesNumberOfQueues s fun t => Answered 0 x c q 0 0x10D s t ∧ t.nv = { s.nv with sqs := t.nv.sqs, cqs := t.nv.cqs } ∧ Frame [.nv, .hostMem, .sent] s t) ∧
  (∀ (s : State) (x : NvSq) (c : NvCq) (q : Sqe) (n : Nat), s.live = true → s.offers 0 x c q → q.opc = 9 → q.dw 10 % 256 = 7 → (q.dw 10).testBit 31 = false → q.dw 11 % 65536 ≠ 65535 → q.dw 11 / 65536 ≠ 65535 → (∀ e ∈ s.nv.sqs, e.1 = 0 ∨ e.2 = none) →
    (∀ e ∈ s.nv.cqs, e.1 = 0 ∨ e.2 = none) → n = min 62 (q.dw 11 % 65536) + min 62 (q.dw 11 / 65536) * 65536 →
    Completes .setFeaturesNumberOfQueues s fun t => Answered 0 x c q n 0 s t ∧ t.nv = { s.nv with sqs := t.nv.sqs, cqs := t.nv.cqs, nq := n } ∧ Frame [.nv, .hostMem, .sent] s t) ∧
  (∀ (s : State) (x : NvSq) (c : NvCq) (q : Sqe), s.live = true → s.offers 0 x c q → q.opc = 9 → q.dw 10 % 256 = 7 → (q.dw 10).testBit 31 = false → (q.dw 11 % 65536 = 65535 ∨ q.dw 11 / 65536 = 65535) →
    Completes .setFeaturesNumberOfQueues s fun t => Answered 0 x c q 0 2 s t ∧ t.nv = { s.nv with sqs := t.nv.sqs, cqs := t.nv.cqs } ∧ Frame [.nv, .hostMem, .sent] s t) ∧
  (∀ (s : State) (x : NvSq) (c : NvCq) (q : Sqe) (k : Nat), s.live = true → s.offers 0 x c q → q.opc = 9 → q.dw 10 % 256 = 7 → (q.dw 10).testBit 31 = false →
    q.dw 11 % 65536 ≠ 65535 → q.dw 11 / 65536 ≠ 65535 → 0 < k → ((s.sq k).isSome = true ∨ (s.cq k).isSome = true) →
    Completes .setFeaturesNumberOfQueues s fun t => Answered 0 x c q 0 0x0C s t ∧ t.nv = { s.nv with sqs := t.nv.sqs, cqs := t.nv.cqs } ∧ Frame [.nv, .hostMem, .sent] s t) ∧
  (∀ (s : State) (x : NvSq) (c : NvCq) (q : Sqe), s.live = true → s.offers 0 x c q → q.opc = 9 → q.dw 10 % 256 = 8 → (q.dw 10).testBit 31 = true →
    Completes .setFeaturesInterruptCoalescing s fun t => Answered 0 x c q 0 0x10D s t ∧ t.nv = { s.nv with sqs := t.nv.sqs, cqs := t.nv.cqs } ∧ Frame [.nv, .hostMem, .sent] s t) ∧
  (∀ (s : State) (x : NvSq) (c : NvCq) (q : Sqe), s.live = true → s.offers 0 x c q → q.opc = 9 → q.dw 10 % 256 = 8 → (q.dw 10).testBit 31 = false →
    Completes .setFeaturesInterruptCoalescing s fun t => Answered 0 x c q 0 0 s t ∧ t.nv = { s.nv with sqs := t.nv.sqs, cqs := t.nv.cqs, coal := q.dw 11 % 65536 } ∧ Frame [.nv, .hostMem, .sent] s t) ∧
  (∀ (s : State) (x : NvSq) (c : NvCq) (q : Sqe) (iv : Nat), s.live = true → s.offers 0 x c q → q.opc = 9 → q.dw 10 % 256 = 9 → (q.dw 10).testBit 31 = false → iv = q.dw 11 % 65536 → iv ≤ 255 →
    Completes .setFeaturesInterruptVectorConfig s fun t =>
      Answered 0 x c q 0 0 s t ∧
      (∀ j : Fin 256, UMap.get (fun _ => 0) t.nv.vecs j = if j.val = iv then b2n ((q.dw 11).testBit 16) else UMap.get (fun _ => 0) s.nv.vecs j) ∧
      t.nv = { s.nv with sqs := t.nv.sqs, cqs := t.nv.cqs, vecs := t.nv.vecs } ∧ Frame [.nv, .hostMem, .sent] s t) ∧
  (∀ (s : State) (x : NvSq) (c : NvCq) (q : Sqe), s.live = true → s.offers 0 x c q → q.opc = 9 → q.dw 10 % 256 = 9 → (q.dw 10).testBit 31 = true →
    Completes .setFeaturesInterruptVectorConfig s fun t => Answered 0 x c q 0 0x10D s t ∧ t.nv = { s.nv with sqs := t.nv.sqs, cqs := t.nv.cqs } ∧ Frame [.nv, .hostMem, .sent] s t) ∧
  (∀ (s : State) (x : NvSq) (c : NvCq) (q : Sqe), s.live = true → s.offers 0 x c q → q.opc = 9 → q.dw 10 % 256 = 9 → (q.dw 10).testBit 31 = false → 255 < q.dw 11 % 65536 →
    Completes .setFeaturesInterruptVectorConfig s fun t => Answered 0 x c q 0 2 s t ∧ t.nv = { s.nv with sqs := t.nv.sqs, cqs := t.nv.cqs } ∧ Frame [.nv, .hostMem, .sent] s t) ∧
  (∀ (s : State) (x : NvSq) (c : NvCq) (q : Sqe), s.live = true → s.offers 0 x c q → q.opc = 9 → q.dw 10 % 256 = 11 → (q.dw 10).testBit 31 = true →
    Completes .setFeaturesAsyncEventConfig s fun t => Answered 0 x c q 0 0x10D s t ∧ t.nv = { s.nv with sqs := t.nv.sqs, cqs := t.nv.cqs } ∧ Frame [.nv, .hostMem, .sent] s t) ∧
  (∀ (s : State) (x : NvSq) (c : NvCq) (q : Sqe), s.live = true → s.offers 0 x c q → q.opc = 9 → q.dw 10 % 256 = 11 → (q.dw 10).testBit 31 = false →
    Completes .setFeaturesAsyncEventConfig s fun t => Answered 0 x c q 0 0 s t ∧ t.nv = { s.nv with sqs := t.nv.sqs, cqs := t.nv.cqs, aec := q.dw 11 } ∧ Frame [.nv, .hostMem, .sent] s t) ∧
  (∀ (s : State) (x : NvSq) (c : NvCq) (q : Sqe) (v : Nat), s.live = true → s.offers 0 x c q → q.opc = 0x0A → bits (q.dw 10) 10 8 = 0 →
    (q.dw 10 % 256, v) ∈ [(1, s.nv.arb), (6, b2n s.nv.vwc), (7, s.nv.nq), (8, s.nv.coal), (0x0B, s.nv.aec),
      (4, UMap.get (fun _ => 0) s.nv.temps (bits (q.dw 11) 21 16))] →
    Completes .getFeatures s fun t => Answered 0 x c q v 0 s t ∧ t.nv = { s.nv with sqs := t.nv.sqs, cqs := t.nv.cqs } ∧ Frame [.nv, .hostMem, .sent] s t) ∧
  (∀ (s : State) (x : NvSq) (c : NvCq) (q : Sqe) (iv : Nat), s.live = true → s.offers 0 x c q → q.opc = 0x0A → bits (q.dw 10) 10 8 = 0 → q.dw 10 % 256 = 9 → iv = q.dw 11 % 65536 → iv ≤ 255 →
    Completes .getFeatures s fun t => Answered 0 x c q (iv + 65536 * UMap.get (fun _ => 0) s.nv.vecs iv) 0 s t ∧ t.nv = { s.nv with sqs := t.nv.sqs, cqs := t.nv.cqs } ∧ Frame [.nv, .hostMem, .sent] s t) ∧
  (∀ (s : State) (x : NvSq) (c : NvCq) (q : Sqe) (v : Nat), s.live = true → s.offers 0 x c q → q.opc = 0x0A → (bits (q.dw 10) 10 8 = 1 ∨ bits (q.dw 10) 10 8 = 2) →
    (q.dw 10 % 256, v) ∈ [(1, 0), (4, 0), (6, 1), (7, 62 * 65536 + 62), (8, 0), (0x0B, 0)] →
    Completes .getFeatures s fun t => Answered 0 x c q v 0 s t ∧ t.nv = { s.nv with sqs := t.nv.sqs, cqs := t.nv.cqs } ∧ Frame [.nv, .hostMem, .sent] s t) ∧
  (∀ (s : State) (x : NvSq) (c : NvCq) (q : Sqe) (dw st : Nat), s.live = true → s.offers 0 x c q → q.opc = 0x0A →
    ((q.dw 10 % 256 ∈ [1, 4, 6, 7, 8, 9, 0x0B] ∧ bits (q.dw 10) 10 8 = 3 ∧ dw = 4 ∧ st = 0) ∨
      ((q.dw 10 % 256 ∉ [1, 4, 6, 7, 8, 9, 0x0B] ∨ 3 < bits (q.dw 10) 10 8) ∧ dw = 0 ∧ st = 2)) →
    Completes .getFeatures s fun t => Answered 0 x c q dw st s t ∧ t.nv = { s.nv with sqs := t.nv.sqs, cqs := t.nv.cqs } ∧ Frame [.nv, .hostMem, .sent] s t) ∧
  (∀ (s : State) (x : NvSq) (c : NvCq) (q : Sqe), s.live = true → s.offers 0 x c q → q.opc = 0x0C → (s.nv.cmds.filter (fun k => k.stage = .event)).length < 4 → s.nv.aePending = false →
    Completes .asynchronousEventRequest s fun t =>
      Fetched 0 x s t ∧
      t.nv = { s.nv with
        sqs := t.nv.sqs, seq := s.nv.seq + 1,
        cmds := s.nv.cmds ++ [{ n := s.nv.seq, sq := 0, cid := q.cid, opc := 0x0C, stage := .event }] } ∧ Frame [.nv] s t) ∧
  (∀ (s : State) (x : NvSq) (c : NvCq) (q : Sqe), s.live = true → s.offers 0 x c q → q.opc = 0x0C → s.nv.cmds = [] → s.nv.aePending = true → s.nv.aeMasked = false →
    Completes .asynchronousEventRequest s fun t =>
      Answered 0 x c q 0xC08007 0 s t ∧ t.nv = { s.nv with sqs := t.nv.sqs, cqs := t.nv.cqs, seq := s.nv.seq + 1, aePending := false, aeMasked := true } ∧ Frame [.nv, .hostMem, .sent] s t) ∧
  (∀ (s : State) (x : NvSq) (c : NvCq) (q : Sqe), s.live = true → s.offers 0 x c q → q.opc = 0x0C → 4 ≤ (s.nv.cmds.filter (fun k => k.stage = .event)).length →
    Completes .asynchronousEventRequest s fun t => Answered 0 x c q 0 0x105 s t ∧ t.nv = { s.nv with sqs := t.nv.sqs, cqs := t.nv.cqs } ∧ Frame [.nv, .hostMem, .sent] s t) ∧
  (∀ (s : State) (cc aqa : Word) (asq acq : BitVec 64), s.live = true → s.nv.cc.testBit 0 = false → s.resetting = false →
    s.flag nvtA NVT_CTRL_EN = true → bits cc.toNat 10 7 ≤ 4 → bits cc.toNat 6 4 = 0 → bits cc.toNat 13 11 = 0 →
    Completes (.controllerEnable cc aqa asq acq) s fun t =>
      t.sq 0 = some { base := asq.toNat, size := aqa.toNat % 4096 + 1, cq := 0 } ∧
      t.cq 0 = some { base := acq.toNat, size := aqa.toNat / 65536 % 4096 + 1, iv := 0, ien := true } ∧ QueueFrame [0] [0] s t ∧
      t.nv = { s.nv with sqs := t.nv.sqs, cqs := t.nv.cqs, cc := cc.toNat ||| 1, rdy := true, shst := 0 } ∧
      t.nvmeReg 0 = 0x08010FFF ∧ t.nvmeReg 4 = 0x400030 ∧ t.nvmeReg 0x1C = 1 ∧ t.nvmeReg 0x14 = cc.toNat ||| 1 ∧
      t.nvmeReg 0x24 = aqa.toNat % 4096 + 65536 * (aqa.toNat / 65536 % 4096) ∧ Frame [.nv] s t) ∧
  (∀ (s : State) (cc aqa : Word) (asq acq : BitVec 64), s.live = true →
    (s.nv.cc.testBit 0 = true ∨ s.resetting = true ∨ s.flag nvtA NVT_CTRL_EN = false ∨ 4 < bits cc.toNat 10 7 ∨
      bits cc.toNat 6 4 ≠ 0 ∨ bits cc.toNat 13 11 ≠ 0) →
    Completes (.controllerEnable cc aqa asq acq) s fun t => t = s) ∧
  (∀ (s : State), s.live = true → s.nv.cc.testBit 0 = true → (∀ k ∈ s.nv.cmds, k.notBegun = true) → (∀ b ∈ s.nv.cache, b.dirty = false ∧ b.flying = none) → s.nv.soft = [] → s.nv.linkReset = false →
    Completes .controllerReset s fun t =>
      t.nv = { s.nv with
        cmds := [], seq := s.nv.seq + 1, rdy := false, cc := 0, shst := 0, sqs := [], cqs := [], arb := 0, vwc := true,
        nq := 62 * 65536 + 62, coal := 0, aec := 0, temps := [], vecs := [], aeMasked := false } ∧ Frame [.nv] s t) ∧
  (∀ (s : State) (p : Fin 4) (k : Soft), s.live = true → s.nv.cc.testBit 0 = true → (∀ y ∈ s.nv.cmds, y.notBegun = true) → (∀ b ∈ s.nv.cache, b.dirty = false ∧ b.flying = none) →
    s.nv.soft = [k] → k.port = p → s.ssdState p = 2 →
    Completes .controllerReset s fun t =>
      t.nv = { s.nv with
        ids := s.nv.ids + 1, ssds := s.nv.ssds ++ [⟨s.nv.ids, p, 0, 0, 0, false, .other, false⟩], seq := s.nv.seq + 1,
        cmds := [{ n := s.nv.seq, sq := 0, cid := 0, opc := 0, stage := .resetFlush false, need := [s.nv.ids], snap := [k], silent := true }] } ∧
      t.sent = ⟨.ssd p, 0, [s.nv.ids, 0, 0, 0]⟩ :: s.sent ∧ Frame [.nv, .sent] s t) ∧
  (∀ (s : State), s.live = true → (∀ k ∈ s.nv.cmds, k.notBegun = true) → (∀ b ∈ s.nv.cache, b.dirty = false ∧ b.flying = none) → s.nv.soft = [] → s.nv.linkReset = false →
    Completes .nvmSubsystemReset s fun t =>
      t.nv = { s.nv with
        cmds := [], seq := s.nv.seq + 1, rdy := false, cc := 0, shst := 0, sqs := [], cqs := [], arb := 0, vwc := true,
        nq := 62 * 65536 + 62, coal := 0, aec := 0, temps := [], vecs := [], aeMasked := false } ∧ Frame [.nv] s t) ∧
  (∀ (s : State) (p : Fin 4) (k : Soft), s.live = true → (∀ y ∈ s.nv.cmds, y.notBegun = true) → (∀ b ∈ s.nv.cache, b.dirty = false ∧ b.flying = none) →
    s.nv.soft = [k] → k.port = p → s.ssdState p = 2 →
    Completes .nvmSubsystemReset s fun t =>
      t.nv = { s.nv with
        ids := s.nv.ids + 1, ssds := s.nv.ssds ++ [⟨s.nv.ids, p, 0, 0, 0, false, .other, false⟩], seq := s.nv.seq + 1,
        cmds := [{ n := s.nv.seq, sq := 0, cid := 0, opc := 0, stage := .resetFlush false, need := [s.nv.ids], snap := [k], silent := true }] } ∧
      t.sent = ⟨.ssd p, 0, [s.nv.ids, 0, 0, 0]⟩ :: s.sent ∧ Frame [.nv, .sent] s t) ∧
  (∀ (s : State), s.live = true → s.nv.cc.testBit 0 = false → Completes .controllerReset s fun t => t = s) ∧
  (∀ (s : State), s.live = true → s.resetting = true → Completes .nvmSubsystemReset s fun t => t = s) ∧
  (∀ (s : State), s.live = true → s.nv.rdy = true → s.resetting = false → (∀ b ∈ s.nv.cache, b.dirty = false ∧ b.flying = none) → s.nv.soft = [] → s.nvCalm →
    Completes .shutdownNotification s fun t => t.nv = { s.nv with shst := 2, seq := s.nv.seq + 1 } ∧ Frame [.nv] s t) ∧
  (∀ (s : State) (p : Fin 4) (k : Soft), s.live = true → s.nv.rdy = true → s.resetting = false → (∀ b ∈ s.nv.cache, b.dirty = false ∧ b.flying = none) →
    s.nv.soft = [k] → k.port = p → s.ssdState p = 2 → s.nvCalm →
    Completes .shutdownNotification s fun t =>
      t.nv = { s.nv with
        shst := 1, ids := s.nv.ids + 1, ssds := s.nv.ssds ++ [⟨s.nv.ids, p, 0, 0, 0, false, .other, false⟩], seq := s.nv.seq + 1,
        cmds := s.nv.cmds ++ [{
          n := s.nv.seq, sq := 0, cid := 0, opc := 0, stage := .resetFlush true, need := [s.nv.ids], snap := [k], silent := true }] } ∧
      t.sent = ⟨.ssd p, 0, [s.nv.ids, 0, 0, 0]⟩ :: s.sent ∧ Frame [.nv, .sent] s t) ∧
  (∀ (s : State) (down : Bool) (p : Fin 4) (k : Soft), s.live = true → s.resetting = false → (∀ y ∈ s.nv.cmds, y.notBegun = true) → (∀ b ∈ s.nv.cache, b.dirty = false ∧ b.flying = none) →
    s.nv.soft = [k] → k.port = p → s.ssdState p = 2 →
    Completes (.pcieLinkReset down) s fun t =>
      t.nv = { s.nv with
        linkReset := true, ids := s.nv.ids + 1, ssds := s.nv.ssds ++ [⟨s.nv.ids, p, 0, 0, 0, false, .other, false⟩], seq := s.nv.seq + 1,
        cmds := [{ n := s.nv.seq, sq := 0, cid := 0, opc := 0, stage := .resetFlush false, need := [s.nv.ids], snap := [k], silent := true }] } ∧
      t.rd (pcieA + PCIE_STATUS) = (if down then 0 else s.rd (pcieA + PCIE_STATUS) ||| 4) ∧
      t.sent = ⟨.ssd p, 0, [s.nv.ids, 0, 0, 0]⟩ :: s.sent ∧ RegFrame [pcieA + PCIE_STATUS] s t ∧ Frame [.nv, .regs, .sent] s t) ∧
  (∀ (s : State) (down : Bool), s.live = true → s.quadsSettled = true → (∀ k ∈ s.nv.cmds, k.notBegun = true) → (∀ b ∈ s.nv.cache, b.dirty = false ∧ b.flying = none) → s.nv.soft = [] →
    Completes (.pcieLinkReset down) s fun t =>
      t.nv = { s.nv with
        cmds := [], seq := s.nv.seq + 1, rdy := false, cc := 0, shst := 0, sqs := [], cqs := [], arb := 0, vwc := true, linkReset := false,
        nq := 62 * 65536 + 62, coal := 0, aec := 0, temps := [], vecs := [], aeMasked := false } ∧
      (∀ n : Fin 32, t.rd (pcieA + PCIE_OB_LO + 4 * n.val) = regReset (pcieA + PCIE_OB_LO + 4 * n.val)) ∧
      t.rd (pcieA + PCIE_CTRL) = regReset (pcieA + PCIE_CTRL) ∧ t.rd (pcieA + PCIE_BAR4) = regReset (pcieA + PCIE_BAR4) ∧
      t.rd (pcieA + PCIE_AER) = regReset (pcieA + PCIE_AER) ∧
      t.rd (pcieA + PCIE_STATUS) = (if down then 0 else s.rd (pcieA + PCIE_STATUS) ||| 4) ∧ t.rd (pcieA + PCIE_ID) = s.rd (pcieA + PCIE_ID) ∧
      t.quadsSettled = true ∧ (∀ k : Fin 16, k.val ≠ 8 → k.val ≠ 9 → t.quad k = s.quad k) ∧
      BlockFrame [pcieA, quadA 8, quadA 9] s t ∧ Frame [.nv, .regs, .quads] s t) ∧
  (∀ (s : State) (w : Fin 4) (v : Fin 5), s.live = true → s.flag pcieA PCIE_CTRL_EN = true →
    v.val + 1 ≤ max 1 (min 5 (s.fld pcieA PCIE_CTRL_MAX_SPEED)) →
    Completes (.pcieLinkUp w v) s fun t =>
      t.flag pcieA PCIE_STATUS_DL_UP = true ∧ t.fld pcieA PCIE_STATUS_WIDTH = 2 ^ w.val ∧ t.fld pcieA PCIE_STATUS_SPEED = v.val + 1 ∧
      t.flag pcieA PCIE_STATUS_FLR_SEEN = s.flag pcieA PCIE_STATUS_FLR_SEEN ∧ RegFrame [pcieA + PCIE_STATUS] s t ∧ Frame [.regs] s t) ∧
  (∀ (s : State) (w : Fin 4) (v : Fin 5), s.live = true → (s.flag pcieA PCIE_CTRL_EN = false ∨
    max 1 (min 5 (s.fld pcieA PCIE_CTRL_MAX_SPEED)) < v.val + 1) → Completes (.pcieLinkUp w v) s fun t => t = s) ∧
  (∀ (s : State) (o n a : Nat), s.live = true → a = s.fld pcieA PCIE_BAR4_BAR4_BASE * 2 ^ 30 + o → s.pcieUp = true → a < 0x4000000000 → s.answersAt a n →
    Completes (.hostBar4Access false o n []) s fun t =>
      t.sent = ⟨.pcie, 0, a :: (s.memBytes a n).map (·.toNat)⟩ :: s.sent ∧ Frame [.sent] s t) ∧
  (∀ (s : State) (o n a : Nat) (b : List Byte), s.live = true → a = s.fld pcieA PCIE_BAR4_BAR4_BASE * 2 ^ 30 + o → s.pcieUp = true → a < 0x4000000000 → s.answersAt a b.length →
    Completes (.hostBar4Access true o n b) s fun t =>
      (∀ i ∈ List.range b.length, some (t.memByte (a + i)) = b[i]?) ∧ MemFrame a b.length s t ∧ Frame [.mem] s t) ∧
  (∀ (s : State) (o n a : Nat) (wr : Bool), s.live = true → a = s.fld pcieA PCIE_BAR4_BAR4_BASE * 2 ^ 30 + o → s.pcieUp = true → a < 0x4000000000 → s.usableBytes < a + n →
    Completes (.hostBar4Access wr o n (if wr then List.replicate n 0xFF else [])) s fun t =>
      t.mem = s.mem ∧ (wr = false → t.sent = ⟨.pcie, 0, [a]⟩ :: s.sent) ∧ (wr = true → t.sent = s.sent) ∧
      Logged 0 0x01 1 Req.host.src a (b2n wr * 256) s t ∧ RegFrame (recordRegs 0) s t ∧
      Frame [.sent, .regs, .alm, .flt] s t) ∧
  (∀ (s : State) (wr : Bool) (o n : Nat) (b : List Byte), s.live = true → s.pcieUp = false →
    Completes (.hostBar4Access wr o n b) s fun t => t = s)

/-- O60. Namespaces, slots, formats and sanitises change as the store allows, SSDs come up, fail and go, and record tasks
write. In maintenance state, on a ready store, a namespace is created in the lowest free stripes with the lowest free
NSID, deleted, attached or detached, and the label is rewritten first; otherwise the command is refused with its status.
Image pieces are staged in order; a commit judges the image, writes the slot that does not run and completes when it is
written, or is refused. A format stops tasks, drops cached data, checkpoints, and sends the SSDs to work once the
namespace's writes in progress have ended; a label format empties the store; a sanitise does it for all and zeros the
replay ring at its end. An SSD command times out, its port is reset, and a second reset, a link-down or a fatal status
takes the SSD and the store offline. A link-up makes the port ready or INCOMPAT, and the store ready. NVH_ERR is cleared
by a write of 0. A record task is enabled, refused, disabled with its rest written, takes, drops, finishes or zeroes
frames, writes blocks and moves RD_PTR. (NVMe layouts and codes: the model's, log entry 17.). Each of these forms ends in
a next state wherever its clause's conditions on state and operands hold: namespaceCreate, namespaceDelete,
namespaceAttach, namespaceDetach, ssdCommandComplete, firmwareImageDownload, firmwareCommitStage, firmwareCommitActivate,
firmwareCommitActivateSlot, bootFlashWriteDone, formatNvm, storeLabelFormat, formatDone, sanitizeBlockErase,
sanitizeOverwrite, sanitizeDone, ssdCommandTimeout, ssdControllerReset, ssdLinkDown, ssdFatalStatus, nvhErrorClear,
ssdLinkUp, recordTaskEnable, recordTaskDisable, recordBlockWrite, recordFrameTake, recordFrameDone. (R346, R348, R349,
R359, R360, R362, R363, R364, R365, R366, R367, R370) -/
def Obligations.RecordStoreKeepsNamespacesFirmwareAndTasks : Prop :=
  (∀ (s : State) (x : NvSq) (c : NvCq) (q : Sqe) (st : Nat), s.live = true → s.offers 0 x c q → q.opc = 0x0D → q.dw 10 % 16 = 0 →
    ((s.maint = false ∧ st = 0x782) ∨ (s.maint = true ∧ s.nv.san.isSome = true ∧ st = 0x1D) ∨
      (s.maint = true ∧ s.nv.san = none ∧ s.storeUp = false ∧ st = 0x783)) →
    Completes .namespaceCreate s fun t => Answered 0 x c q 0 st s t ∧ t.nv = { s.nv with sqs := t.nv.sqs, cqs := t.nv.cqs } ∧ Frame [.nv, .hostMem, .sent] s t) ∧
  (∀ (s : State) (x : NvSq) (c : NvCq) (q : Sqe) (st : Nat), s.live = true → s.offers 0 x c q → q.opc = 0x0D → q.dw 10 % 16 = 1 →
    ((s.maint = false ∧ st = 0x782) ∨ (s.maint = true ∧ s.nv.san.isSome = true ∧ st = 0x1D) ∨
      (s.maint = true ∧ s.nv.san = none ∧ s.storeUp = false ∧ st = 0x783)) →
    Completes .namespaceDelete s fun t => Answered 0 x c q 0 st s t ∧ t.nv = { s.nv with sqs := t.nv.sqs, cqs := t.nv.cqs } ∧ Frame [.nv, .hostMem, .sent] s t) ∧
  (∀ (s : State) (x : NvSq) (c : NvCq) (q : Sqe) (st : Nat), s.live = true → s.offers 0 x c q → q.opc = 0x15 → q.dw 10 % 16 = 0 →
    ((s.maint = false ∧ st = 0x782) ∨ (s.maint = true ∧ s.nv.san.isSome = true ∧ st = 0x1D) ∨
      (s.maint = true ∧ s.nv.san = none ∧ s.storeUp = false ∧ st = 0x783)) →
    Completes .namespaceAttach s fun t => Answered 0 x c q 0 st s t ∧ t.nv = { s.nv with sqs := t.nv.sqs, cqs := t.nv.cqs } ∧ Frame [.nv, .hostMem, .sent] s t) ∧
  (∀ (s : State) (x : NvSq) (c : NvCq) (q : Sqe) (st : Nat), s.live = true → s.offers 0 x c q → q.opc = 0x15 → q.dw 10 % 16 = 1 →
    ((s.maint = false ∧ st = 0x782) ∨ (s.maint = true ∧ s.nv.san.isSome = true ∧ st = 0x1D) ∨
      (s.maint = true ∧ s.nv.san = none ∧ s.storeUp = false ∧ st = 0x783)) →
    Completes .namespaceDetach s fun t => Answered 0 x c q 0 st s t ∧ t.nv = { s.nv with sqs := t.nv.sqs, cqs := t.nv.cqs } ∧ Frame [.nv, .hostMem, .sent] s t) ∧
  (∀ (s : State) (x : NvSq) (c : NvCq) (q : Sqe) (n a id : Nat), s.live = true → s.offers 0 x c q → q.opc = 0x0D → q.dw 10 % 16 = 0 → s.maint = true → s.nv.san = none → s.storeUp = true → s.nvCalm →
    n = (fieldAt (s.prpRead (s.prps q 4096)) 0 8 + 255) / 256 → 0 < n → bits (fieldAt (s.prpRead (s.prps q 4096)) 26 1) 3 0 = 0 →
    a + n ≤ s.stripes → (∀ y ∈ s.nv.label.nss, apart a n y.start ((y.nsze + 255) / 256) = true) →
    (∀ b ∈ List.range a, ∃ y ∈ s.nv.label.nss, apart b n y.start ((y.nsze + 255) / 256) = false) →
    0 < id → id < 32 → s.ns id = none → (∀ m ∈ List.range id, 0 < m → (s.ns m).isSome = true) →
    Completes .namespaceCreate s fun t =>
      Relabels x q { s.nv.label with nss := s.nv.label.nss ++ [⟨id, a, n * 256, false⟩] } id s t ∧ t.nv.cache = s.nv.cache ∧ t.nv.soft = s.nv.soft ∧ t.nv.fmt = s.nv.fmt ∧ Frame [.nv, .sent] s t) ∧
  (∀ (s : State) (x : NvSq) (c : NvCq) (q : Sqe) (st n : Nat), s.live = true → s.offers 0 x c q → q.opc = 0x0D → q.dw 10 % 16 = 0 → s.maint = true → s.nv.san = none → s.storeUp = true → s.nvCalm →
    n = (fieldAt (s.prpRead (s.prps q 4096)) 0 8 + 255) / 256 →
    ((n = 0 ∧ st = 2) ∨ (0 < n ∧ bits (fieldAt (s.prpRead (s.prps q 4096)) 26 1) 3 0 ≠ 0 ∧ st = 0x10A) ∨
      (0 < n ∧ bits (fieldAt (s.prpRead (s.prps q 4096)) 26 1) 3 0 = 0 ∧ s.stripes < n ∧ st = 0x115)) →
    Completes .namespaceCreate s fun t => Answered 0 x c q 0 st s t ∧ t.nv = { s.nv with sqs := t.nv.sqs, cqs := t.nv.cqs } ∧ Frame [.nv, .hostMem, .sent] s t) ∧
  (∀ (s : State) (x : NvSq) (c : NvCq) (q : Sqe), s.live = true → s.offers 0 x c q → q.opc = 0x0D → q.dw 10 % 16 = 1 → s.maint = true → s.nv.san = none → s.storeUp = true → s.nvCalm → q.nsid ≠ 32 → q.nsid ≠ 0xFFFFFFFF → s.nv.fmt.all (fun f => f.1 ≠ q.nsid) = true →
    (s.ns q.nsid).isSome = true → (∀ b ∈ s.nv.cache, b.nsid = q.nsid → b.flying = none) →
    Completes .namespaceDelete s fun t =>
      Relabels x q { s.nv.label with nss := s.nv.label.nss.filter (fun y => y.nsid ≠ q.nsid) } 0 s t ∧
      t.nv.cache = s.nv.cache.filter (fun b => b.nsid ≠ q.nsid) ∧ t.nv.soft = s.nv.soft ∧ t.nv.fmt = s.nv.fmt ∧
      RegFrame [nvtA + NVT_DIRTY] s t ∧ Frame [.nv, .sent, .regs] s t) ∧
  (∀ (s : State) (x : NvSq) (c : NvCq) (q : Sqe) (st : Nat), s.live = true → s.offers 0 x c q → q.opc = 0x0D → q.dw 10 % 16 = 1 → s.maint = true → s.nv.san = none → s.storeUp = true → s.nvCalm →
    ((q.nsid = 32 ∧ st = 2) ∨ (q.nsid ≠ 32 ∧ q.nsid ≠ 0xFFFFFFFF ∧ s.ns q.nsid = none ∧ st = 0x0B) ∨
      (q.nsid ≠ 32 ∧ q.nsid ≠ 0xFFFFFFFF ∧ (s.ns q.nsid).isSome = true ∧ s.nv.fmt.any (fun f => f.1 = q.nsid) = true ∧ st = 0x82)) →
    Completes .namespaceDelete s fun t => Answered 0 x c q 0 st s t ∧ t.nv = { s.nv with sqs := t.nv.sqs, cqs := t.nv.cqs } ∧ Frame [.nv, .hostMem, .sent] s t) ∧
  (∀ (s : State) (x : NvSq) (c : NvCq) (q : Sqe) (y : NvNs), s.live = true → s.offers 0 x c q → q.opc = 0x15 → q.dw 10 % 16 = 0 → s.maint = true → s.nv.san = none → s.storeUp = true → s.nvCalm →
    s.ns q.nsid = some y → s.nv.fmt.all (fun f => f.1 ≠ q.nsid) = true → y.attached = false →
    Completes .namespaceAttach s fun t =>
      Relabels x q { s.nv.label with nss := s.nv.label.nss.map (fun z => if z.nsid = q.nsid then { z with attached := true } else z) } 0 s t ∧
      t.nv.cache = s.nv.cache ∧ t.nv.soft = s.nv.soft ∧ t.nv.fmt = s.nv.fmt ∧ Frame [.nv, .sent] s t) ∧
  (∀ (s : State) (x : NvSq) (c : NvCq) (q : Sqe) (st : Nat), s.live = true → s.offers 0 x c q → q.opc = 0x15 → q.dw 10 % 16 = 0 → s.maint = true → s.nv.san = none → s.storeUp = true → s.nvCalm →
    ((((s.nv.fmt.all (fun f => f.1 ≠ q.nsid) = true ∧ (s.ns q.nsid).any (fun y => y.attached == true) = true) ∨ (s.ns q.nsid = none ∧ q.nsid = 32)) ∧ st = 0x118) ∨
      ((s.ns q.nsid).isSome = true ∧ s.nv.fmt.any (fun f => f.1 = q.nsid) = true ∧ st = 0x82) ∨
      (s.ns q.nsid = none ∧ q.nsid ≠ 32 ∧ st = 0x0B)) →
    Completes .namespaceAttach s fun t => Answered 0 x c q 0 st s t ∧ t.nv = { s.nv with sqs := t.nv.sqs, cqs := t.nv.cqs } ∧ Frame [.nv, .hostMem, .sent] s t) ∧
  (∀ (s : State) (x : NvSq) (c : NvCq) (q : Sqe) (y : NvNs), s.live = true → s.offers 0 x c q → q.opc = 0x15 → q.dw 10 % 16 = 1 → s.maint = true → s.nv.san = none → s.storeUp = true → s.nvCalm →
    s.ns q.nsid = some y → s.nv.fmt.all (fun f => f.1 ≠ q.nsid) = true → y.attached = true →
    Completes .namespaceDetach s fun t =>
      Relabels x q { s.nv.label with nss := s.nv.label.nss.map (fun z => if z.nsid = q.nsid then { z with attached := false } else z) } 0 s t ∧
      t.nv.cache = s.nv.cache ∧ t.nv.soft = s.nv.soft ∧ t.nv.fmt = s.nv.fmt ∧ Frame [.nv, .sent] s t) ∧
  (∀ (s : State) (x : NvSq) (c : NvCq) (q : Sqe) (st : Nat), s.live = true → s.offers 0 x c q → q.opc = 0x15 → q.dw 10 % 16 = 1 → s.maint = true → s.nv.san = none → s.storeUp = true → s.nvCalm →
    ((((s.nv.fmt.all (fun f => f.1 ≠ q.nsid) = true ∧ (s.ns q.nsid).any (fun y => y.attached == false) = true) ∨ (s.ns q.nsid = none ∧ q.nsid = 32)) ∧ st = 0x11A) ∨
      ((s.ns q.nsid).isSome = true ∧ s.nv.fmt.any (fun f => f.1 = q.nsid) = true ∧ st = 0x82) ∨
      (s.ns q.nsid = none ∧ q.nsid ≠ 32 ∧ st = 0x0B)) →
    Completes .namespaceDetach s fun t => Answered 0 x c q 0 st s t ∧ t.nv = { s.nv with sqs := t.nv.sqs, cqs := t.nv.cqs } ∧ Frame [.nv, .hostMem, .sent] s t) ∧
  (∀ (s : State) (port : Fin 4) (id : Nat) (data : List Byte) (d : SsdCmd) (k : NvCmd) (x : NvSq) (c : NvCq) (L : NvLabel),
    s.live = true → s.ssdCmd port id = some d → d.use = .label true L → k ∈ s.nv.cmds → k.need = [id] → k.stage = .label →
    k.status = none → k.silent = false → (∀ y ∈ s.nv.cmds, y ≠ k → id ∉ y.need ∧ y.n ≠ k.n) → 
    s.nvCalm → s.sq k.sq = some x → s.cq x.cq = some c → c.held = [] → c.full = false →
    Completes (.ssdCommandComplete port id 0 data) s fun t =>
      Posted k.sq x c k.cid k.nlb 0 s t ∧ QueueFrame [] [x.cq] s t ∧ HostFrame (c.base + 16 * c.tail) 16 s t ∧
      t.nvPort port = { s.nvPort port with label2 := some L } ∧ (∀ p : Fin 4, p ≠ port → t.nvPort p = s.nvPort p) ∧
      t.nv = { s.nv with
        cqs := t.nv.cqs, label := t.nv.label, ports := t.nv.ports, ssds := s.nv.ssds.filter (fun y => y.id ≠ id),
        cmds := s.nv.cmds.filter (fun y => y.n ≠ k.n) } ∧
      ((∀ y ∈ t.nv.ssds, y.use.isLabel = false) → t.nv.label = t.bestLabel.getD s.nv.label) ∧
      ((∃ y ∈ t.nv.ssds, y.use.isLabel = true) → t.nv.label = s.nv.label) ∧ RegFrame [nvtA + NVT_STATUS] s t ∧ Frame [.regs, .nv, .hostMem, .sent] s t) ∧
  (∀ (s : State) (x : NvSq) (c : NvCq) (q : Sqe) (n off : Nat), s.live = true → s.offers 0 x c q → q.opc = 0x11 → n = 4 * (q.dw 10 + 1) → off = 4 * q.dw 11 →
    (off = 0 ∨ off = s.nv.staged) → off + n ≤ 0x10000000 → s.answersAt (s.stageAt + off) (s.prpRead (s.prps q n)).length →
    Completes .firmwareImageDownload s fun t =>
      Answered 0 x c q 0 0 s t ∧
      t.memBytes (s.stageAt + off) (s.prpRead (s.prps q n)).length = s.prpRead (s.prps q n) ∧
      MemFrame (s.stageAt + off) (s.prpRead (s.prps q n)).length s t ∧ t.nv = { s.nv with sqs := t.nv.sqs, cqs := t.nv.cqs, staged := off + n } ∧
      Frame [.nv, .hostMem, .sent, .mem] s t) ∧
  (∀ (s : State) (x : NvSq) (c : NvCq) (q : Sqe) (n off : Nat), s.live = true → s.offers 0 x c q → q.opc = 0x11 → n = 4 * (q.dw 10 + 1) → off = 4 * q.dw 11 →
    ((off ≠ 0 ∧ off ≠ s.nv.staged) ∨ 0x10000000 < off + n) →
    Completes .firmwareImageDownload s fun t => Answered 0 x c q 0 2 s t ∧ t.nv = { s.nv with sqs := t.nv.sqs, cqs := t.nv.cqs } ∧ Frame [.nv, .hostMem, .sent] s t) ∧
  (∀ (s : State) (x : NvSq) (c : NvCq) (q : Sqe) (b : Bool), s.live = true → s.offers 0 x c q → s.nv.slotJob = none → q.opc = 0x10 → bits (q.dw 10) 5 3 = 0 → s.flag advA ADV_STATUS_HOSTLOAD = false → (s.maint = false ∨ 2 ≤ s.phase) →
    (bits (q.dw 10) 2 0 = (if b then 2 else 1) ∨ (bits (q.dw 10) 2 0 = 0 ∧ b = !s.runSlot)) → s.runSlot ≠ b → s.alm.shut = false →
    s.answersAt s.stageAt s.nv.staged → s.hitsPartition b (fieldAt (s.memBytes s.stageAt s.nv.staged) 8 4) = false → (s.judgeSlot b (s.memBytes s.stageAt s.nv.staged)).valid = true →
    Completes .firmwareCommitStage s fun t =>
      Fetched 0 x s t ∧ t.sent = ⟨.flash, b2n b, 0 :: ((reheader ((s.memBytes s.stageAt s.nv.staged).take (fieldAt (s.memBytes s.stageAt s.nv.staged) 8 4)) s.nextGen true).take 64).map (·.toNat)⟩ ::
        ⟨.flash, b2n b, 64 :: ((reheader ((s.memBytes s.stageAt s.nv.staged).take (fieldAt (s.memBytes s.stageAt s.nv.staged) 8 4)) s.nextGen true).drop 64).map (·.toNat)⟩ :: s.sent ∧
      t.nv = { s.nv with
        sqs := t.nv.sqs, slotJob := some (b, slotHdr (reheader ((s.memBytes s.stageAt s.nv.staged).take (fieldAt (s.memBytes s.stageAt s.nv.staged) 8 4)) s.nextGen true)), seq := s.nv.seq + 1,
        cmds := s.nv.cmds ++ [{ n := s.nv.seq, sq := 0, cid := q.cid, opc := 0x10, stage := .slot }] } ∧ Frame [.nv, .sent] s t) ∧
  (∀ (s : State) (x : NvSq) (c : NvCq) (q : Sqe) (b : Bool) (st : Nat), s.live = true → s.offers 0 x c q → s.nv.slotJob = none → q.opc = 0x10 → bits (q.dw 10) 5 3 = 0 → s.flag advA ADV_STATUS_HOSTLOAD = false → (s.maint = false ∨ 2 ≤ s.phase) →
    ((((bits (q.dw 10) 2 0 = (if s.runSlot then 2 else 1)) ∨ 2 < bits (q.dw 10) 2 0) ∧ st = 0x106) ∨
      (((bits (q.dw 10) 2 0 = (if b then 2 else 1) ∨ (bits (q.dw 10) 2 0 = 0 ∧ b = !s.runSlot)) ∧ s.runSlot ≠ b) ∧
        ((s.alm.shut = true ∧ st = 0x781) ∨ (s.alm.shut = false ∧ s.hitsPartition b (fieldAt (s.memBytes s.stageAt s.nv.staged) 8 4) = true ∧ st = 0x114) ∨
          (s.alm.shut = false ∧ s.hitsPartition b (fieldAt (s.memBytes s.stageAt s.nv.staged) 8 4) = false ∧
            (s.judgeSlot b (s.memBytes s.stageAt s.nv.staged)).valid = false ∧ st = 0x107)))) →
    Completes .firmwareCommitStage s fun t => Answered 0 x c q 0 st s t ∧ t.nv = { s.nv with sqs := t.nv.sqs, cqs := t.nv.cqs } ∧ Frame [.nv, .hostMem, .sent] s t) ∧
  (∀ (s : State) (x : NvSq) (c : NvCq) (q : Sqe) (b : Bool), s.live = true → s.offers 0 x c q → s.nv.slotJob = none → q.opc = 0x10 → bits (q.dw 10) 5 3 = 1 → s.flag advA ADV_STATUS_HOSTLOAD = false → (s.maint = false ∨ 2 ≤ s.phase) →
    (bits (q.dw 10) 2 0 = (if b then 2 else 1) ∨ (bits (q.dw 10) 2 0 = 0 ∧ b = !s.runSlot)) → s.runSlot ≠ b → s.alm.shut = false →
    s.answersAt s.stageAt s.nv.staged → s.hitsPartition b (fieldAt (s.memBytes s.stageAt s.nv.staged) 8 4) = false → (s.judgeSlot b (s.memBytes s.stageAt s.nv.staged)).valid = true →
    Completes .firmwareCommitActivate s fun t =>
      Fetched 0 x s t ∧ t.sent = ⟨.flash, b2n b, 0 :: ((reheader ((s.memBytes s.stageAt s.nv.staged).take (fieldAt (s.memBytes s.stageAt s.nv.staged) 8 4)) s.nextGen false).take 64).map (·.toNat)⟩ ::
        ⟨.flash, b2n b, 64 :: ((reheader ((s.memBytes s.stageAt s.nv.staged).take (fieldAt (s.memBytes s.stageAt s.nv.staged) 8 4)) s.nextGen false).drop 64).map (·.toNat)⟩ :: s.sent ∧
      t.nv = { s.nv with
        sqs := t.nv.sqs, slotJob := some (b, slotHdr (reheader ((s.memBytes s.stageAt s.nv.staged).take (fieldAt (s.memBytes s.stageAt s.nv.staged) 8 4)) s.nextGen false)), seq := s.nv.seq + 1,
        cmds := s.nv.cmds ++ [{ n := s.nv.seq, sq := 0, cid := q.cid, opc := 0x10, stage := .slot }] } ∧ Frame [.nv, .sent] s t) ∧
  (∀ (s : State) (x : NvSq) (c : NvCq) (q : Sqe) (b : Bool) (st : Nat), s.live = true → s.offers 0 x c q → s.nv.slotJob = none → q.opc = 0x10 → bits (q.dw 10) 5 3 = 1 → s.flag advA ADV_STATUS_HOSTLOAD = false → (s.maint = false ∨ 2 ≤ s.phase) →
    ((((bits (q.dw 10) 2 0 = (if s.runSlot then 2 else 1)) ∨ 2 < bits (q.dw 10) 2 0) ∧ st = 0x106) ∨
      (((bits (q.dw 10) 2 0 = (if b then 2 else 1) ∨ (bits (q.dw 10) 2 0 = 0 ∧ b = !s.runSlot)) ∧ s.runSlot ≠ b) ∧
        ((s.alm.shut = true ∧ st = 0x781) ∨ (s.alm.shut = false ∧ s.hitsPartition b (fieldAt (s.memBytes s.stageAt s.nv.staged) 8 4) = true ∧ st = 0x114) ∨
          (s.alm.shut = false ∧ s.hitsPartition b (fieldAt (s.memBytes s.stageAt s.nv.staged) 8 4) = false ∧
            (s.judgeSlot b (s.memBytes s.stageAt s.nv.staged)).valid = false ∧ st = 0x107)))) →
    Completes .firmwareCommitActivate s fun t => Answered 0 x c q 0 st s t ∧ t.nv = { s.nv with sqs := t.nv.sqs, cqs := t.nv.cqs } ∧ Frame [.nv, .hostMem, .sent] s t) ∧
  (∀ (s : State) (x : NvSq) (c : NvCq) (q : Sqe) (image : List Byte) (b : Bool), s.live = true → s.offers 0 x c q → s.nv.slotJob = none → q.opc = 0x10 → bits (q.dw 10) 5 3 = 2 → s.flag advA ADV_STATUS_HOSTLOAD = false → (s.maint = false ∨ 2 ≤ s.phase) →
    (bits (q.dw 10) 2 0 = (if b then 2 else 1) ∨ (bits (q.dw 10) 2 0 = 0 ∧ b = !s.runSlot)) → s.runSlot ≠ b → s.alm.shut = false →
    s.hitsPartition b (fieldAt image 8 4) = false → (s.judgeSlot b image).valid = true →
    Completes (.firmwareCommitActivateSlot image) s fun t =>
      Fetched 0 x s t ∧ t.sent = ⟨.flash, b2n b, 0 :: ((reheader (image.take (fieldAt image 8 4)) s.nextGen false).take 64).map (·.toNat)⟩ :: s.sent ∧
      t.nv = { s.nv with
        sqs := t.nv.sqs, slotJob := some (b, slotHdr (reheader (image.take (fieldAt image 8 4)) s.nextGen false)), seq := s.nv.seq + 1,
        cmds := s.nv.cmds ++ [{ n := s.nv.seq, sq := 0, cid := q.cid, opc := 0x10, stage := .slot }] } ∧ Frame [.nv, .sent] s t) ∧
  (∀ (s : State) (x : NvSq) (c : NvCq) (q : Sqe) (image : List Byte) (b : Bool) (st : Nat), s.live = true → s.offers 0 x c q → s.nv.slotJob = none → q.opc = 0x10 → bits (q.dw 10) 5 3 = 2 → s.flag advA ADV_STATUS_HOSTLOAD = false → (s.maint = false ∨ 2 ≤ s.phase) →
    ((((bits (q.dw 10) 2 0 = (if s.runSlot then 2 else 1)) ∨ 2 < bits (q.dw 10) 2 0) ∧ st = 0x106) ∨
      (((bits (q.dw 10) 2 0 = (if b then 2 else 1) ∨ (bits (q.dw 10) 2 0 = 0 ∧ b = !s.runSlot)) ∧ s.runSlot ≠ b) ∧
        ((s.alm.shut = true ∧ st = 0x781) ∨ (s.alm.shut = false ∧ s.hitsPartition b (fieldAt image 8 4) = true ∧ st = 0x114) ∨
          (s.alm.shut = false ∧ s.hitsPartition b (fieldAt image 8 4) = false ∧
            (s.judgeSlot b image).valid = false ∧ st = 0x107)))) →
    Completes (.firmwareCommitActivateSlot image) s fun t => Answered 0 x c q 0 st s t ∧ t.nv = { s.nv with sqs := t.nv.sqs, cqs := t.nv.cqs } ∧ Frame [.nv, .hostMem, .sent] s t) ∧
  (∀ (s : State) (b : Bool) (h : SlotHdr) (k : NvCmd) (x : NvSq) (c : NvCq), s.live = true → s.nv.slotJob = some (b, h) →
    s.nv.cmds.find? (fun y => y.stage = .slot) = some k → k.silent = false → s.nvCalm → s.sq k.sq = some x → s.cq x.cq = some c →
    c.held = [] → c.full = false →
    Completes .bootFlashWriteDone s fun t =>
      Posted k.sq x c k.cid 0 0 s t ∧ QueueFrame [] [x.cq] s t ∧ HostFrame (c.base + 16 * c.tail) 16 s t ∧
      (if b then t.adv = { s.adv with slotB := h } else t.adv = { s.adv with slotA := h }) ∧
      t.nv = { s.nv with cqs := t.nv.cqs, slotJob := none, cmds := s.nv.cmds.filter (fun y => y.n ≠ k.n) } ∧
      Frame [.adv, .nv, .hostMem, .sent] s t) ∧
  (∀ (s : State), s.live = true → s.nv.slotJob = none → Completes .bootFlashWriteDone s fun t => t = s) ∧
  (∀ (s : State) (x : NvSq) (c : NvCq) (q : Sqe) (y : NvNs) (ses : Nat) (p : Fin 4) (l : SsdCmd) (L : NvLabel), s.live = true → L = { s.nv.label with gen := s.nv.label.gen + 1, progress := some (1, q.nsid + 64 * ses, []) } → s.offers 0 x c q → q.opc = 0x80 →
    (q.nsid ≠ 0xFFFFFFFF ∨ s.maint = false) → bits (q.dw 10) 3 0 = 0 → ses = bits (q.dw 10) 11 9 → ses ≤ 1 → q.nsid ≠ 32 →
    q.nsid ≠ 0xFFFFFFFF → s.nv.san = none → s.storeUp = true → s.ns q.nsid = some y → s.nv.fmt = none → s.alm.shut = false →
    (∀ b ∈ s.nv.cache, b.nsid = q.nsid → b.flying = none) → s.writesOf (fun k => k = q.nsid) = [] → s.selected = [p.val] → s.portAt 0 = p.val → 0 < y.nsze →
    l = ⟨s.nv.ids + 1, p, if ses = 0 then 9 else 8, 4096 + y.start * 256, (y.nsze + 255) / 256 * 256, decide (ses = 1), .format, false⟩ →
    Completes .formatNvm s fun t =>
      Fetched 0 x s t ∧ (∀ k : Fin 16, t.taskOn k = (s.taskOn k && decide (s.taskNs k ≠ q.nsid))) ∧
      (∀ k : Fin 16, t.taskOn k = true → t.recTask k = s.recTask k) ∧
      t.nv = { s.nv with
        sqs := t.nv.sqs, tasks := t.nv.tasks, fmt := some (q.nsid, ses), ids := s.nv.ids + 2, seq := s.nv.seq + 1,
        label := L,
        cache := s.nv.cache.filter (fun b => b.nsid ≠ q.nsid), ssds := s.nv.ssds ++ s.labelWrites L s.nv.ids ++ [l],
        cmds := s.nv.cmds ++ [{
          n := s.nv.seq, sq := 0, cid := q.cid, opc := 0x80, nsid := q.nsid, stage := .format, need := [s.nv.ids + 1] }] } ∧
      t.sent = leftSsd (s.labelWrites L s.nv.ids ++ [l]) ++ s.sent ∧ t.fld nvtA NVT_STATUS_STORE_STATE = 3 ∧
      t.alm = (if s.retains then { s.alm with pendChk := s.alm.pendChk.filter (fun y => y.1 ≠ 1) ++ [(1, 16 * (q.nsid + 64 * ses))] } else s.alm) ∧
      RegFrame [nvtA + NVT_STATUS, nvtA + NVT_DIRTY, nvtA + NVT_TASK_RUN, almA + ALM_STATUS] s t ∧
      TaskFrame (List.range 16) [0] s t ∧ Frame [.nv, .sent, .regs, .alm, .tbl] s t) ∧
  (∀ (s : State) (x : NvSq) (c : NvCq) (q : Sqe) (y : NvNs) (ses : Nat) (w : List Nat) (L : NvLabel), s.live = true → L = { s.nv.label with gen := s.nv.label.gen + 1, progress := some (1, q.nsid + 64 * ses, []) } →
    s.offers 0 x c q → q.opc = 0x80 → bits (q.dw 10) 3 0 = 0 → ses = bits (q.dw 10) 11 9 → ses ≤ 1 → q.nsid ≠ 32 →
    q.nsid ≠ 0xFFFFFFFF → s.nv.san = none → s.storeUp = true → s.ns q.nsid = some y → s.nv.fmt = none → s.alm.shut = false →
    s.writesOf (fun k => k = q.nsid) = w → w ≠ [] →
    Completes .formatNvm s fun t =>
      Fetched 0 x s t ∧ t.nv.fmt = some (q.nsid, ses) ∧ t.nv.label = L ∧ t.nv.ssds = s.nv.ssds ++ s.labelWrites L s.nv.ids ∧
      t.nv.cmds = s.nv.cmds ++ [{ n := s.nv.seq, sq := 0, cid := q.cid, opc := 0x80, nsid := q.nsid, stage := .prep, need := w }] ∧
      t.sent = leftSsd (s.labelWrites L s.nv.ids) ++ s.sent) ∧
  (∀ (s : State) (x : NvSq) (c : NvCq) (q : Sqe) (st : Nat), s.live = true → s.offers 0 x c q → q.opc = 0x80 → (q.nsid ≠ 0xFFFFFFFF ∨ s.maint = false) →
    (((bits (q.dw 10) 3 0 ≠ 0 ∨ 1 < bits (q.dw 10) 11 9 ∨ q.nsid = 32 ∨ q.nsid = 0xFFFFFFFF) ∧ st = 2) ∨
      (bits (q.dw 10) 3 0 = 0 ∧ bits (q.dw 10) 11 9 ≤ 1 ∧ q.nsid ≠ 32 ∧ q.nsid ≠ 0xFFFFFFFF ∧
        ((s.nv.san.isSome = true ∧ st = 0x1D) ∨ (s.nv.san = none ∧ s.storeUp = false ∧ st = 0x783) ∨
          (s.nv.san = none ∧ s.storeUp = true ∧ s.ns q.nsid = none ∧ st = 0x0B) ∨
          (s.nv.san = none ∧ s.storeUp = true ∧ (s.ns q.nsid).isSome = true ∧ s.nv.fmt.isSome = true ∧ st = 0x82) ∨
          (s.nv.san = none ∧ s.storeUp = true ∧ (s.ns q.nsid).isSome = true ∧ s.nv.fmt = none ∧ s.alm.shut = true ∧ st = 0x781)))) →
    Completes .formatNvm s fun t => Answered 0 x c q 0 st s t ∧ t.nv = { s.nv with sqs := t.nv.sqs, cqs := t.nv.cqs } ∧ Frame [.nv, .hostMem, .sent] s t) ∧
  (∀ (s : State) (x : NvSq) (c : NvCq) (q : Sqe), s.live = true → s.offers 0 x c q → q.opc = 0x80 → q.nsid = 0xFFFFFFFF → s.maint = true →
    bits (q.dw 10) 3 0 = 0 → bits (q.dw 10) 11 9 ≤ 1 → s.nv.san = none → s.flag nvtA NVT_CTRL_EN = true → s.dOk = true →
    s.ssdsReady = true → s.alm.shut = false → s.nvCalm →
    Completes .storeLabelFormat s fun t =>
      Relabels x q ⟨s.selected.map (fun p => (s.nvPort p).ident), (s.bestLabel.map (·.gen)).getD 0, [], none⟩ 0 s t ∧
      t.nv.cache = [] ∧ t.nv.soft = [] ∧ t.nv.fmt = none ∧ t.fld nvtA NVT_DIRTY_MIB = 0 ∧
      RegFrame [nvtA + NVT_DIRTY] s t ∧ Frame [.nv, .sent, .regs] s t) ∧
  (∀ (s : State) (x : NvSq) (c : NvCq) (q : Sqe) (st : Nat), s.live = true → s.offers 0 x c q → q.opc = 0x80 → q.nsid = 0xFFFFFFFF → s.maint = true →
    (((bits (q.dw 10) 3 0 ≠ 0 ∨ 1 < bits (q.dw 10) 11 9) ∧ st = 2) ∨
      (bits (q.dw 10) 3 0 = 0 ∧ bits (q.dw 10) 11 9 ≤ 1 ∧ ((s.nv.san.isSome = true ∧ st = 0x1D) ∨
        (s.nv.san = none ∧ (s.flag nvtA NVT_CTRL_EN = false ∨ s.dOk = false ∨ s.ssdsReady = false) ∧ st = 0x783) ∨
        (s.nv.san = none ∧ s.flag nvtA NVT_CTRL_EN = true ∧ s.dOk = true ∧ s.ssdsReady = true ∧ s.alm.shut = true ∧ st = 0x781)))) →
    Completes .storeLabelFormat s fun t => Answered 0 x c q 0 st s t ∧ t.nv = { s.nv with sqs := t.nv.sqs, cqs := t.nv.cqs } ∧ Frame [.nv, .hostMem, .sent] s t) ∧
  (∀ (s : State) (k : NvCmd) (x : NvSq) (c : NvCq) (L : NvLabel), s.live = true → L = { s.nv.label with gen := s.nv.label.gen + 1, progress := none } → s.nv.cmds.find? (fun y => y.stage = .format) = some k → k.need = [] →
    k.status = none → k.silent = false → s.nv.san = none → s.nvCalm → s.sq k.sq = some x → s.cq x.cq = some c → c.held = [] → c.full = false →
    Completes .formatDone s fun t =>
      t.sq k.sq = some x ∧ QueueFrame [] [x.cq] s t ∧ HostFrame (c.base + 16 * c.tail) 16 s t ∧
      t.sent = (if c.ien && s.pcieUp then [⟨.msix, 0, [c.iv]⟩] else []) ++
        ⟨.nvmeCq, x.cq, (cqEntry 0 x.head k.sq k.cid 0 c.phase).map (·.toNat)⟩ :: leftSsd (s.labelWrites L s.nv.ids) ++ s.sent ∧
      t.nv = { s.nv with
        cqs := t.nv.cqs, fmt := none, label := L,
        ids := s.nv.ids + s.selected.length, ssds := s.nv.ssds ++ s.labelWrites L s.nv.ids,
        cmds := s.nv.cmds.filter (fun y => y.n ≠ k.n) } ∧
      t.fld nvtA NVT_STATUS_STORE_STATE = b2n s.storeUp ∧
      t.alm = (if s.retains then { s.alm with
        pendChk := s.alm.pendChk.filter (fun y => decide (y.1 ≠ 1 ∧ y.1 ≠ 2)) ++ [(1, 0), (2, 0)] } else s.alm) ∧
      RegFrame [nvtA + NVT_STATUS, almA + ALM_STATUS] s t ∧ Frame [.nv, .sent, .regs, .alm, .hostMem] s t) ∧
  (∀ (s : State), s.live = true → (∀ k ∈ s.nv.cmds, k.stage = .format → k.need ≠ []) → Completes .formatDone s fun t => t = s) ∧
  (∀ (s : State) (x : NvSq) (c : NvCq) (q : Sqe) (l : List SsdCmd) (L : NvLabel), s.live = true → L = { s.nv.label with gen := s.nv.label.gen + 1, progress := some (2, 2, []) } → s.offers 0 x c q → q.opc = 0x84 → bits (q.dw 10) 2 0 = 2 → s.nv.san = none →
    s.storeUp = true → s.alm.shut = false → (∀ k ∈ s.nv.cmds, k.stage ≠ .room) → s.writesOf (fun _ => true) = [] →
    l = (List.range s.selected.length).map (fun i => ⟨s.nv.ids + s.selected.length + i, s.portAt i, 0x84, 2, 0, false, .sanitise, false⟩) →
    Completes .sanitizeBlockErase s fun t =>
      t.sq 0 = some x.next ∧ QueueFrame [0] [x.cq] s t ∧ HostFrame (c.base + 16 * c.tail) 16 s t ∧
      t.sent = (if c.ien then [⟨.msix, 0, [c.iv]⟩] else []) ++
        ⟨.nvmeCq, x.cq, (cqEntry 0 x.next.head 0 q.cid 0 c.phase).map (·.toNat)⟩ :: leftSsd (s.labelWrites L s.nv.ids ++ l) ++ s.sent ∧
      (∀ k : Fin 16, t.taskOn k = false) ∧ (∀ k : Fin 16, s.taskOn k = false → t.recTask k = s.recTask k) ∧
      t.nv = { s.nv with
        sqs := t.nv.sqs, cqs := t.nv.cqs, tasks := t.nv.tasks, cache := [], soft := [], san := some (2, []), sanStat := 2,
        label := L,
        ids := s.nv.ids + 2 * s.selected.length, ssds := s.nv.ssds ++ s.labelWrites L s.nv.ids ++ l } ∧
      t.fld nvtA NVT_STATUS_STORE_STATE = 2 ∧ t.alm = (if s.retains then { s.alm with pendChk := s.alm.pendChk.filter (fun y => y.1 ≠ 2) ++ [(2, 32)] } else s.alm) ∧
      RegFrame [nvtA + NVT_STATUS, nvtA + NVT_DIRTY, nvtA + NVT_TASK_RUN, almA + ALM_STATUS] s t ∧
      TaskFrame (List.range 16) [0] s t ∧ Frame [.nv, .sent, .regs, .alm, .tbl, .hostMem] s t) ∧
  (∀ (s : State) (x : NvSq) (c : NvCq) (q : Sqe) (st : Nat), s.live = true → s.offers 0 x c q → q.opc = 0x84 → bits (q.dw 10) 2 0 = 2 →
    ((s.nv.san.isSome = true ∧ st = 0x1D) ∨ (s.nv.san = none ∧ s.storeUp = false ∧ st = 0x783) ∨
      (s.nv.san = none ∧ s.storeUp = true ∧ s.alm.shut = true ∧ st = 0x781)) →
    Completes .sanitizeBlockErase s fun t => Answered 0 x c q 0 st s t ∧ t.nv = { s.nv with sqs := t.nv.sqs, cqs := t.nv.cqs } ∧ Frame [.nv, .hostMem, .sent] s t) ∧
  (∀ (s : State) (x : NvSq) (c : NvCq) (q : Sqe) (l : List SsdCmd) (L : NvLabel), s.live = true → L = { s.nv.label with gen := s.nv.label.gen + 1, progress := some (2, 3, []) } → s.offers 0 x c q → q.opc = 0x84 → bits (q.dw 10) 2 0 = 3 → s.nv.san = none →
    s.storeUp = true → s.alm.shut = false → (∀ k ∈ s.nv.cmds, k.stage ≠ .room) → s.writesOf (fun _ => true) = [] →
    l = (List.range s.selected.length).map (fun i => ⟨s.nv.ids + s.selected.length + i, s.portAt i, 0x84, 3, 0, false, .sanitise, false⟩) →
    Completes .sanitizeOverwrite s fun t =>
      t.sq 0 = some x.next ∧ QueueFrame [0] [x.cq] s t ∧ HostFrame (c.base + 16 * c.tail) 16 s t ∧
      t.sent = (if c.ien then [⟨.msix, 0, [c.iv]⟩] else []) ++
        ⟨.nvmeCq, x.cq, (cqEntry 0 x.next.head 0 q.cid 0 c.phase).map (·.toNat)⟩ :: leftSsd (s.labelWrites L s.nv.ids ++ l) ++ s.sent ∧
      (∀ k : Fin 16, t.taskOn k = false) ∧ (∀ k : Fin 16, s.taskOn k = false → t.recTask k = s.recTask k) ∧
      t.nv = { s.nv with
        sqs := t.nv.sqs, cqs := t.nv.cqs, tasks := t.nv.tasks, cache := [], soft := [], san := some (3, []), sanStat := 2,
        label := L,
        ids := s.nv.ids + 2 * s.selected.length, ssds := s.nv.ssds ++ s.labelWrites L s.nv.ids ++ l } ∧
      t.fld nvtA NVT_STATUS_STORE_STATE = 2 ∧ t.alm = (if s.retains then { s.alm with pendChk := s.alm.pendChk.filter (fun y => y.1 ≠ 2) ++ [(2, 48)] } else s.alm) ∧
      RegFrame [nvtA + NVT_STATUS, nvtA + NVT_DIRTY, nvtA + NVT_TASK_RUN, almA + ALM_STATUS] s t ∧
      TaskFrame (List.range 16) [0] s t ∧ Frame [.nv, .sent, .regs, .alm, .tbl, .hostMem] s t) ∧
  (∀ (s : State) (x : NvSq) (c : NvCq) (q : Sqe) (st : Nat), s.live = true → s.offers 0 x c q → q.opc = 0x84 → bits (q.dw 10) 2 0 = 3 →
    ((s.nv.san.isSome = true ∧ st = 0x1D) ∨ (s.nv.san = none ∧ s.storeUp = false ∧ st = 0x783) ∨
      (s.nv.san = none ∧ s.storeUp = true ∧ s.alm.shut = true ∧ st = 0x781)) →
    Completes .sanitizeOverwrite s fun t => Answered 0 x c q 0 st s t ∧ t.nv = { s.nv with sqs := t.nv.sqs, cqs := t.nv.cqs } ∧ Frame [.nv, .hostMem, .sent] s t) ∧
  (∀ (s : State) (a lo n : Nat) (done : List Nat) (L : NvLabel), s.live = true → L = { s.nv.label with gen := s.nv.label.gen + 1, progress := none } → s.nv.san = some (a, done) → s.nv.fmt = none →
    (∀ i ∈ List.range s.selected.length, i ∈ done) → lo = s.fld nvtA NVT_REPLAY_BASE_ADDR * 256 → n = 4096 * s.fld nvtA NVT_REPLAY_LBAS_LBAS →
    Completes .sanitizeDone s fun t =>
      (∀ e ∈ s.mem ++ t.mem, t.memByte e.1 = (if lo ≤ e.1 ∧ e.1 < lo + n ∧ s.dramOk e.1 1 = true then 0 else s.memByte e.1)) ∧
      t.nv = { s.nv with
        san := none, sanStat := 1, label := L,
        ids := s.nv.ids + s.selected.length, ssds := s.nv.ssds ++ s.labelWrites L s.nv.ids } ∧
      t.sent = leftSsd (s.labelWrites L s.nv.ids) ++ s.sent ∧ t.fld nvtA NVT_STATUS_STORE_STATE = b2n s.storeUp ∧
      t.alm = (if s.retains then { s.alm with
        pendChk := s.alm.pendChk.filter (fun y => decide (y.1 ≠ 1 ∧ y.1 ≠ 2)) ++ [(1, 0), (2, 0)] } else s.alm) ∧
      RegFrame [nvtA + NVT_STATUS, almA + ALM_STATUS] s t ∧ Frame [.nv, .sent, .regs, .alm, .mem] s t) ∧
  (∀ (s : State), s.live = true → (s.nv.san.any (fun y => !(List.range s.selected.length).all (fun i => y.2.contains i)) = true ∨ s.nv.san = none) →
    Completes .sanitizeDone s fun t => t = s) ∧
  (∀ (s : State) (port : Fin 4) (id : Nat) (d : SsdCmd), s.live = true → s.ssdCmd port id = some d → d.aborted = false →
    Completes (.ssdCommandTimeout port id) s fun t =>
      t.nv = { s.nv with ssds := s.nv.ssds.map (fun y => if y.id = id then { y with aborted := true } else y) } ∧
      t.sent = ⟨.ssd port, 0x108, [id]⟩ :: s.sent ∧
      t.fld (nvhA port) NVH_CNT_TIMEOUTS = min (s.fld (nvhA port) NVH_CNT_TIMEOUTS + 1) 0xFFFF ∧
      t.fld (nvhA port) NVH_ERR_CAUSE = (if s.fld (nvhA port) NVH_ERR_CAUSE = 0 then 2 else s.fld (nvhA port) NVH_ERR_CAUSE) ∧
      t.flag (nvhA port) NVH_ERR_NESTED = (s.flag (nvhA port) NVH_ERR_NESTED || decide (s.fld (nvhA port) NVH_ERR_CAUSE ≠ 0)) ∧
      RegFrame [nvhA port + NVH_CNT, nvhA port + NVH_ERR] s t ∧ Frame [.nv, .sent, .regs] s t) ∧
  (∀ (s : State) (port : Fin 4) (d : SsdCmd), s.live = true → s.nv.ssds.filter (fun y => y.port = port.val) = [d] → d.aborted = true → d.use = .other →
    (∀ y ∈ s.nv.ssds, y ≠ d → y.id ≠ d.id) → (∀ k ∈ s.nv.cmds, d.id ∉ k.need ∧ k.stage ≠ .room) → s.nvCalm → (∀ b ∈ s.nv.cache, (s.lbaOf b.key).1 = port.val → b.dirty = false) →
    (∀ k ∈ (s.nvPort port).resets, k + usTicks 60000000 ≤ s.tick) →
    Completes (.ssdControllerReset port) s fun t =>
      t.fld (nvhA port) NVH_CNT_RESETS = min (s.fld (nvhA port) NVH_CNT_RESETS + 1) 0xFFFF ∧
      t.fld (nvhA port) NVH_ERR_CAUSE = (if s.fld (nvhA port) NVH_ERR_CAUSE = 0 then 3 else s.fld (nvhA port) NVH_ERR_CAUSE) ∧
      t.sent = ⟨.ssd port, 0x1FF, []⟩ :: s.sent ∧ (∀ p : Fin 4, p ≠ port → t.nvPort p = s.nvPort p) ∧ (t.nvPort port).resets = [s.tick] ∧ t.ssdState port = s.ssdState port ∧
      t.nv = { s.nv with ports := t.nv.ports, ssds := s.nv.ssds.filter (fun y => y.port ≠ port.val) } ∧
      RegFrame [nvhA port + NVH_CNT, nvhA port + NVH_ERR, nvtA + NVT_STATUS] s t ∧ Frame [.nv, .sent, .regs] s t) ∧
  (∀ (s : State) (port : Fin 4) (d : SsdCmd) (k : Nat), s.live = true → s.nv.ssds.filter (fun y => y.port = port.val) = [d] → d.aborted = true → d.use = .other →
    (∀ y ∈ s.nv.ssds, y ≠ d → y.id ≠ d.id) → (∀ k ∈ s.nv.cmds, d.id ∉ k.need ∧ k.stage ≠ .room) → s.nvCalm → (∀ b ∈ s.nv.cache, (s.lbaOf b.key).1 = port.val → b.dirty = false) →
    k ∈ (s.nvPort port).resets → s.tick < k + usTicks 60000000 →
    Completes (.ssdControllerReset port) s fun t =>
      t.fld (nvhA port) NVH_CNT_RESETS = min (s.fld (nvhA port) NVH_CNT_RESETS + 1) 0xFFFF ∧
      t.fld (nvhA port) NVH_ERR_CAUSE = (if s.fld (nvhA port) NVH_ERR_CAUSE = 0 then 3 else s.fld (nvhA port) NVH_ERR_CAUSE) ∧
      t.sent = ⟨.ssd port, 0x1FF, []⟩ :: s.sent ∧ (∀ p : Fin 4, p ≠ port → t.nvPort p = s.nvPort p) ∧ t.ssdState port = 3 ∧ (t.nvPort port).down = true ∧ t.flag nvtA NVT_EVT_SSD_FAIL = true ∧
      Logged 0 0x1B 1 (srcOf 0 0x41 port) 0 (port.val * 256) s t ∧
      (port.val ∈ s.selected → t.fld nvtA NVT_STATUS_STORE_STATE = 0) ∧ t.nv = { s.nv with ports := t.nv.ports, ssds := s.nv.ssds.filter (fun y => y.port ≠ port.val) } ∧
      RegFrame ([nvhA port + NVH_CNT, nvhA port + NVH_ERR, nvhA port + NVH_STATUS, nvtA + NVT_STATUS, nvtA + NVT_EVT] ++ recordRegs 0) s t ∧
      Frame [.nv, .sent, .regs, .flt, .alm] s t) ∧
  (∀ (s : State) (port : Fin 4), s.live = true → (∀ y ∈ s.nv.ssds, y.port = port.val → y.aborted = false) →
    Completes (.ssdControllerReset port) s fun t => t = s) ∧
  (∀ (s : State) (port : Fin 4), s.live = true → s.ssdState port = 2 → (∀ y ∈ s.nv.ssds, y.port ≠ port.val) →
    (∀ k ∈ s.nv.cmds, k.stage ≠ .room) → s.nvCalm → (∀ b ∈ s.nv.cache, (s.lbaOf b.key).1 = port.val → b.dirty = false) →
    Completes (.ssdLinkDown port) s fun t =>
      t.ssdState port = 3 ∧ (t.nvPort port).down = true ∧ t.flag nvtA NVT_EVT_SSD_FAIL = true ∧
      Logged 0 0x1B 1 (srcOf 0 0x41 port) 0 (port.val * 256) s t ∧
      (port.val ∈ s.selected → t.fld nvtA NVT_STATUS_STORE_STATE = 0) ∧ t.fld (nvhA port) NVH_ERR_CAUSE = (if s.fld (nvhA port) NVH_ERR_CAUSE = 0 then 4 else s.fld (nvhA port) NVH_ERR_CAUSE) ∧
      (∀ p : Fin 4, p ≠ port → t.nvPort p = s.nvPort p) ∧ t.nv = { s.nv with ports := t.nv.ports } ∧
      RegFrame ([nvhA port + NVH_ERR, nvhA port + NVH_STATUS, nvtA + NVT_STATUS, nvtA + NVT_EVT] ++ recordRegs 0) s t ∧
      Frame [.nv, .regs, .flt, .alm] s t) ∧
  (∀ (s : State) (port : Fin 4), s.live = true → s.ssdState port ≠ 2 → Completes (.ssdLinkDown port) s fun t => t = s) ∧
  (∀ (s : State) (port : Fin 4), s.live = true → s.ssdState port = 2 → (∀ y ∈ s.nv.ssds, y.port ≠ port.val) →
    (∀ k ∈ s.nv.cmds, k.stage ≠ .room) → s.nvCalm → (∀ b ∈ s.nv.cache, (s.lbaOf b.key).1 = port.val → b.dirty = false) →
    Completes (.ssdFatalStatus port) s fun t =>
      t.ssdState port = 3 ∧ (t.nvPort port).down = true ∧ t.flag nvtA NVT_EVT_SSD_FAIL = true ∧
      Logged 0 0x1B 1 (srcOf 0 0x41 port) 0 (port.val * 256) s t ∧
      (port.val ∈ s.selected → t.fld nvtA NVT_STATUS_STORE_STATE = 0) ∧ t.fld (nvhA port) NVH_ERR_CAUSE = (if s.fld (nvhA port) NVH_ERR_CAUSE = 0 then 5 else s.fld (nvhA port) NVH_ERR_CAUSE) ∧
      (∀ p : Fin 4, p ≠ port → t.nvPort p = s.nvPort p) ∧ t.nv = { s.nv with ports := t.nv.ports } ∧
      RegFrame ([nvhA port + NVH_ERR, nvhA port + NVH_STATUS, nvtA + NVT_STATUS, nvtA + NVT_EVT] ++ recordRegs 0) s t ∧
      Frame [.nv, .regs, .flt, .alm] s t) ∧
  (∀ (s : State) (port : Fin 4), s.live = true → s.ssdState port ≠ 2 → Completes (.ssdFatalStatus port) s fun t => t = s) ∧
  (∀ (s : State) (b : CBlk), s.live = true → s.ssdState 0 = 2 → s.nv.ssds = [] → s.nv.cmds = [] → s.nv.cache = [b] → b.dirty = true →
    b.flying = none → (s.lbaOf b.key).1 = 0 →
    Completes (.ssdLinkDown 0) s fun t =>
      t.nv = { s.nv with
        ports := t.nv.ports, cache := [], aePending := true, logCount := s.nv.logCount + 1,
        log := (⟨b.nsid, b.lba, 1, s.indexOf 0, 3, 0, s.nowNs⟩ :: s.nv.log).take 255,
        failed := if b.nsid ∈ s.nv.failed then s.nv.failed else b.nsid :: s.nv.failed } ∧
      t.flag nvtA NVT_EVT_DEFER = true ∧ t.fld nvtA NVT_CNT_DEFERRED = min (s.fld nvtA NVT_CNT_DEFERRED + 1) 0xFFFF ∧
      t.ssdState 0 = 3 ∧ t.flag nvtA NVT_EVT_SSD_FAIL = true ∧
      RegFrame ([nvhA 0 + NVH_ERR, nvhA 0 + NVH_STATUS, nvtA + NVT_STATUS, nvtA + NVT_EVT, nvtA + NVT_CNT, nvtA + NVT_DIRTY] ++ recordRegs 0) s t ∧
      Frame [.nv, .regs, .flt, .alm] s t) ∧
  (∀ (s : State) (r : Req) (port : Fin 4), s.live = true →
    Completes (.nvhErrorClear r port 0) s fun t =>
      t.rd (nvhA port + NVH_ERR) = 0 ∧ RegFrame [nvhA port + NVH_ERR] s t ∧ Frame [.regs] s t) ∧
  (∀ (s : State) (r : Req) (port : Fin 4) (v : Word), s.live = true → v ≠ 0 → Completes (.nvhErrorClear r port v) s fun t => t = s) ∧
  (∀ (s : State) (port : Fin 4) (i : SsdInfo), s.live = true → s.flag (nvhA port) NVH_CTRL_EN = true → s.ssdState port = 1 →
    i.speed ≤ max 1 (min 5 (s.fld (nvhA port) NVH_CTRL_MAX_SPEED)) →
    (s.nvPort port).down = false → (i.ok = false ∨ port.val ∉ s.selected) →
    (port.val ∈ s.selected ∨ s.storeUp = false) →
    Completes (.ssdLinkUp port i) s fun t =>
      t.ssdState port = (if i.ok then 2 else 3) ∧ (port.val ∈ s.selected → t.fld nvtA NVT_STATUS_STORE_STATE = 0) ∧
      t.nv = { s.nv with ports := t.nv.ports } ∧ (∀ p : Fin 4, p ≠ port → t.nvPort p = s.nvPort p) ∧
      t.nvPort port = { s.nvPort port with ident := i.ident, label := i.label, label2 := i.label2, down := !i.ok } ∧ t.flag (nvhA port) NVH_STATUS_INCOMPAT = !i.ok ∧
      t.fld (nvhA port) NVH_STATUS_WIDTH = i.width % 16 ∧ t.fld (nvhA port) NVH_STATUS_SPEED = i.speed % 8 ∧
      t.fld (nvhA port) NVH_LBAS_LO_LBAS = i.lbas % 2 ^ 32 ∧ t.fld (nvhA port) NVH_LBAS_HI_LBAS = i.lbas / 2 ^ 32 % 2 ^ 32 ∧
      RegFrame [nvhA port + NVH_STATUS, nvhA port + NVH_LBAS_LO, nvhA port + NVH_LBAS_HI, nvtA + NVT_STATUS] s t ∧ Frame [.nv, .regs] s t) ∧
  (∀ (s : State) (port : Fin 4) (i : SsdInfo) (l : NvLabel), s.live = true → s.flag (nvhA port) NVH_CTRL_EN = true → s.ssdState port = 1 →
    i.speed ≤ max 1 (min 5 (s.fld (nvhA port) NVH_CTRL_MAX_SPEED)) →
    (s.nvPort port).down = false → s.selected = [port.val] → i.ok = true →
    s.maint = false → s.flag nvtA NVT_CTRL_EN = true → newerLabel i.label i.label2 = some l → l.order = [i.ident] → l.progress = none → s.nv.san = none → s.nv.fmt = none →
    (∀ y ∈ s.alm.flash.checkpoints, y.2 = 0) →
    Completes (.ssdLinkUp port i) s fun t =>
      t.ssdState port = 2 ∧ t.fld nvtA NVT_STATUS_STORE_STATE = 1 ∧ t.flag nvtA NVT_STATUS_LABEL_ERR = false ∧
      t.nv = { s.nv with ports := t.nv.ports, label := l } ∧ (∀ p : Fin 4, p ≠ port → t.nvPort p = s.nvPort p) ∧
      t.nvPort port = { s.nvPort port with ident := i.ident, label := i.label, label2 := i.label2, down := !i.ok } ∧ t.flag (nvhA port) NVH_STATUS_INCOMPAT = !i.ok ∧
      t.fld (nvhA port) NVH_STATUS_WIDTH = i.width % 16 ∧ t.fld (nvhA port) NVH_STATUS_SPEED = i.speed % 8 ∧
      t.fld (nvhA port) NVH_LBAS_LO_LBAS = i.lbas % 2 ^ 32 ∧ t.fld (nvhA port) NVH_LBAS_HI_LBAS = i.lbas / 2 ^ 32 % 2 ^ 32 ∧
      RegFrame [nvhA port + NVH_STATUS, nvhA port + NVH_LBAS_LO, nvhA port + NVH_LBAS_HI, nvtA + NVT_STATUS] s t ∧ Frame [.nv, .regs] s t) ∧
  (∀ (s : State) (r : Req) (task : Fin 16) (v : Word), s.live = true → s.taskOn task = false → s.mayRecord task v →
    Completes (.recordTaskEnable r task v) s fun t =>
      t.taskWord task 0 = (v &&& 0x7000003F) ||| 0x80000000 ∧ (∀ w : Fin 16, 10 ≤ w.val → w.val ≤ 13 → t.taskWord task w = 0) ∧
      t.recTask task = {} ∧ (∀ k : Fin 16, k ≠ task → t.recTask k = s.recTask k) ∧ t.runShown ∧
      t.nv = { s.nv with tasks := t.nv.tasks } ∧ TaskFrame [task.val] [0, 10, 11, 12, 13] s t ∧
      RegFrame [nvtA + NVT_TASK_RUN] s t ∧ Frame [.nv, .regs, .tbl] s t) ∧
  (∀ (s : State) (r : Req) (task : Fin 16) (v : Word), s.live = true → s.taskOn task = false → ¬ s.mayRecord task v →
    Completes (.recordTaskEnable r task v) s fun t =>
      t.taskOn task = false ∧ t.taskWord task 0 = v &&& 0x7000003F ∧ t.flag nvtA NVT_EVT_CFG_ERR = true ∧ TaskFrame [task.val] [0] s t ∧
      RegFrame [nvtA + NVT_EVT] s t ∧ Frame [.regs, .tbl] s t) ∧
  (∀ (s : State) (r : Req) (task : Fin 16) (v : Word), s.live = true → s.taskOn task = true →
    Completes (.recordTaskEnable r task v) s fun t =>
      t.flag nvtA NVT_EVT_CFG_ERR = true ∧ RegFrame [nvtA + NVT_EVT] s t ∧ Frame [.regs] s t) ∧
  (∀ (s : State) (r : Req) (task : Fin 16) (v : Word), s.live = true → s.taskOn task = true → s.taskBytes task = false →
    Completes (.recordTaskDisable r task v) s fun t =>
      t.taskWord task 0 = s.taskWord task 0 &&& 0x7FFFFFFF ∧ t.recTask task = {} ∧ (∀ k : Fin 16, k ≠ task → t.recTask k = s.recTask k) ∧
      t.runShown ∧ t.nv = { s.nv with tasks := t.nv.tasks } ∧ TaskFrame [task.val] [0] s t ∧
      RegFrame [nvtA + NVT_TASK_RUN] s t ∧ Frame [.nv, .regs, .tbl] s t) ∧
  (∀ (s : State) (r : Req) (task : Fin 16) (v : Word), s.live = true → s.taskOn task = false →
    Completes (.recordTaskDisable r task v) s fun t =>
      t.taskWord task 0 = v &&& 0x7000003F ∧ TaskFrame [task.val] [0] s t ∧ Frame [.tbl] s t) ∧
  (∀ (s : State) (r : Req) (task : Fin 16) (v : Word) (n rd key slba : Nat) (b : List Byte), s.live = true → s.taskOn task = true →
    s.dramIdle = true → (s.ringBytes task rd n).1 = some b →
    s.taskBytes task = true → (s.recTask task).busy = none → s.storeUp = true → rd < s.ringWr task → n = min 4096 (s.ringWr task - rd) →
    rd = s.ringRd task → key = s.keyOf (s.taskNs task) slba → slba = s.taskStart task + s.taskNat task 12 →
    Completes (.recordTaskDisable r task v) s fun t =>
      t.taskWord task 0 = s.taskWord task 0 &&& 0x7FFFFFFF ∧ t.runShown ∧
      t.recTask task = { s.recTask task with upTo := some (s.ringWr task), busy := some rd, need := [s.nv.ids], bytes := n } ∧
      (∀ k : Fin 16, k ≠ task → t.recTask k = s.recTask k) ∧
      t.sent = ⟨.ssd (Fin.ofNat 4 (s.lbaOf key).1), 1, [s.nv.ids, (s.lbaOf key).2, 1, 1] ++
        (b ++ List.replicate (4096 - n) 0).map (fun (x : Byte) => x.toNat)⟩ :: s.sent ∧
      t.nv = { s.nv with
        tasks := t.nv.tasks, ids := s.nv.ids + 1,
        ssds := s.nv.ssds ++ [⟨s.nv.ids, (s.lbaOf key).1, 1, (s.lbaOf key).2, 1, true, .task task (s.taskNs task) slba, false⟩] } ∧ TaskFrame [task.val] [0] s t ∧ RegFrame [nvtA + NVT_TASK_RUN] s t ∧ Frame [.nv, .regs, .tbl, .sent] s t) ∧
  (∀ (s : State) (task : Fin 16) (rd key slba : Nat) (b : List Byte), s.live = true → s.taskOn task = true → s.dramIdle = true →
    (s.ringBytes task rd 4096).1 = some b →
    s.taskBytes task = true → (s.recTask task).busy = none → s.storeUp = true → s.isShed 1 task = false → rd + 4096 ≤ s.ringWr task →
    s.taskNat task 12 < s.taskLen task → rd = s.ringRd task → key = s.keyOf (s.taskNs task) slba → slba = s.taskStart task + s.taskNat task 12 →
    Completes (.recordBlockWrite task) s fun t =>
      t.recTask task = { s.recTask task with busy := some rd, need := [s.nv.ids], bytes := 4096 } ∧
      (∀ k : Fin 16, k ≠ task → t.recTask k = s.recTask k) ∧ t.sent = ⟨.ssd (Fin.ofNat 4 (s.lbaOf key).1), 1, [s.nv.ids, (s.lbaOf key).2, 1, 1] ++
        b.map (fun (x : Byte) => x.toNat)⟩ :: s.sent ∧
      t.nv = { s.nv with
        tasks := t.nv.tasks, ids := s.nv.ids + 1,
        ssds := s.nv.ssds ++ [⟨s.nv.ids, (s.lbaOf key).1, 1, (s.lbaOf key).2, 1, true, .task task (s.taskNs task) slba, false⟩] } ∧ Frame [.nv, .sent] s t) ∧
  (∀ (s : State) (task : Fin 16), s.live = true → s.taskOn task = true →
    s.taskBytes task = true → (s.recTask task).busy = none → s.storeUp = true → s.isShed 1 task = false → s.ringRd task + 4096 ≤ s.ringWr task →
    s.taskLen task ≤ s.taskNat task 12 →
    Completes (.recordBlockWrite task) s fun t =>
      t.taskOn task = false ∧ t.taskWord task 13 = s.taskWord task 13 ||| 4 ∧ t.recTask task = {} ∧ t.runShown ∧
      (∀ k : Fin 16, k ≠ task → t.recTask k = s.recTask k) ∧ t.nv = { s.nv with tasks := t.nv.tasks } ∧
      TaskFrame [task.val] [0, 13] s t ∧ RegFrame [nvtA + NVT_TASK_RUN] s t ∧ Frame [.nv, .regs, .tbl] s t) ∧
  (∀ (s : State) (task : Fin 16), s.live = true → (s.taskOn task = false ∨ s.taskBytes task = false ∨ (s.recTask task).busy.isSome = true ∨
    s.ringWr task < s.ringRd task + 4096) → Completes (.recordBlockWrite task) s fun t => t = s) ∧
  (∀ (s : State) (port : Fin 4) (id rd : Nat) (d : SsdCmd) (task : Fin 16) (ns slba : Nat) (data : List Byte), s.live = true →
    s.ssdCmd port id = some d → d.use = .task task ns slba → (s.recTask task).need = [id] → (s.recTask task).busy = some rd →
    (s.recTask task).upTo = none → s.taskBytes task = true → s.nvCalm → (∀ k ∈ s.nv.cmds, id ∉ k.need ∧ k.stage ≠ .room) →
    s.answersAt (s.taskSrc task + 264) 8 → s.taskNat task 12 + 1 < s.taskLen task → s.taskNat task 12 + 1 < 2 ^ 32 →
    Completes (.ssdCommandComplete port id 0 data) s fun t =>
      t.memBytes (s.taskSrc task + 264) 8 = toBytes 8 (rd + (s.recTask task).bytes) ∧ MemFrame (s.taskSrc task + 264) 8 s t ∧
      t.recTask task = { s.recTask task with need := [], busy := none } ∧ (∀ k : Fin 16, k ≠ task → t.recTask k = s.recTask k) ∧
      t.taskNat task 10 = (s.taskNat task 10 + 1) % 2 ^ 32 ∧ t.taskNat task 12 = s.taskNat task 12 + 1 ∧
      t.nv = { s.nv with tasks := t.nv.tasks, ssds := s.nv.ssds.filter (fun y => y.id ≠ id) } ∧
      TaskFrame [task.val] [10, 12] s t ∧ RegFrame [nvtA + NVT_STATUS] s t ∧ Frame [.nv, .regs, .tbl, .mem] s t) ∧
  (∀ (s : State) (task : Fin 16) (e a n slba key : Nat), s.live = true → s.taskOn task = true → s.taskBytes task = false →
    (s.recTask task).busy = none → s.storeUp = true → s.taskHeads task ≠ [] → (s.recTask task).expect = some e →
    a = s.taskBuf task e → s.answersAt a 128 →
    (∀ o ∈ s.taskHeads task, headFrameOf (s.memBytes (a + o) 64) = e ∧ headErrOf (s.memBytes (a + o) 64) = false) → s.isShed 1 task = false →
    n = s.slotLbas task → s.taskNat task 12 < s.taskLen task / n → slba = s.taskStart task + s.taskNat task 12 * n →
    s.answersAt a (s.taskNat task 3) → key = s.keyOf (s.taskNs task) slba → key % 256 + n ≤ 256 → s.taskNat task 3 ≤ 4096 * n →
    Completes (.recordFrameTake task) s fun t =>
      t.recTask task = { s.recTask task with expect := some e, busy := some e, need := [s.nv.ids] } ∧
      (∀ k : Fin 16, k ≠ task → t.recTask k = s.recTask k) ∧
      t.sent = ⟨.ssd (Fin.ofNat 4 (s.lbaOf key).1), 1, [s.nv.ids, (s.lbaOf key).2, n, 1] ++
        (s.memBytes a (s.taskNat task 3) ++ List.replicate (n * 4096 - s.taskNat task 3) 0).map (fun (b : Byte) => b.toNat)⟩ :: s.sent ∧
      t.nv = { s.nv with
        tasks := t.nv.tasks, ids := s.nv.ids + 1,
        ssds := s.nv.ssds ++ [⟨s.nv.ids, (s.lbaOf key).1, 1, (s.lbaOf key).2, n, true, .task task (s.taskNs task) slba, false⟩] } ∧
      Frame [.nv, .sent] s t) ∧
  (∀ (s : State) (task : Fin 16) (e a o f : Nat), s.live = true → s.taskOn task = true → s.taskBytes task = false →
    (s.recTask task).busy = none → s.storeUp = true → s.taskHeads task ≠ [] → (s.recTask task).expect = some e →
    a = s.taskBuf task e → s.answersAt a 128 →
    s.taskHeads task = [o] → headFrameOf (s.memBytes (a + o) 64) = f → earlier32 e f = true →
    Completes (.recordFrameTake task) s fun t =>
      t.recTask task = { s.recTask task with expect := some f } ∧ (∀ k : Fin 16, k ≠ task → t.recTask k = s.recTask k) ∧
      t.taskNat task 11 = (s.taskNat task 11 + 1) % 2 ^ 32 ∧ t.taskWord task 13 = s.taskWord task 13 ||| 2 ∧ t.flag nvtA NVT_EVT_TASK_GAP = true ∧ t.nv = { s.nv with tasks := t.nv.tasks } ∧
      TaskFrame [task.val] [11, 13] s t ∧ RegFrame [nvtA + NVT_EVT] s t ∧ Frame [.nv, .regs, .tbl] s t) ∧
  (∀ (s : State) (task : Fin 16) (e a o : Nat), s.live = true → s.taskOn task = true → s.taskBytes task = false →
    (s.recTask task).busy = none → s.storeUp = true → s.taskHeads task ≠ [] → (s.recTask task).expect = some e →
    a = s.taskBuf task e → s.answersAt a 128 →
    s.taskHeads task = [o] → headFrameOf (s.memBytes (a + o) 64) = e → (headErrOf (s.memBytes (a + o) 64) = true ∨ s.isShed 1 task = true) →
    Completes (.recordFrameTake task) s fun t =>
      t.recTask task = { s.recTask task with expect := some ((e + 1) % 2 ^ 32) } ∧ (∀ k : Fin 16, k ≠ task → t.recTask k = s.recTask k) ∧
      t.taskNat task 11 = (s.taskNat task 11 + 1) % 2 ^ 32 ∧ t.taskWord task 13 = s.taskWord task 13 ||| 2 ∧ t.flag nvtA NVT_EVT_TASK_GAP = true ∧ t.nv = { s.nv with tasks := t.nv.tasks } ∧
      TaskFrame [task.val] [11, 13] s t ∧ RegFrame [nvtA + NVT_EVT] s t ∧ Frame [.nv, .regs, .tbl] s t) ∧
  (∀ (s : State) (task : Fin 16) (e a o f : Nat), s.live = true → s.taskOn task = true → s.taskBytes task = false →
    (s.recTask task).busy = none → s.storeUp = true → s.taskHeads task ≠ [] → (s.recTask task).expect = some e →
    a = s.taskBuf task e → s.answersAt a 128 →
    s.taskHeads task = [o] → headFrameOf (s.memBytes (a + o) 64) = f → f ≠ e → earlier32 e f = false → e < 2 ^ 32 →
    Completes (.recordFrameTake task) s fun t => t = s) ∧
  (∀ (s : State) (task : Fin 16) (e : Nat), s.live = true → (s.recTask task).busy = some e → (s.recTask task).need = [] → s.taskBytes task = false → s.answersAt (s.taskBuf task e) 128 → (∀ o ∈ s.taskHeads task, headFrameOf (s.memBytes (s.taskBuf task e + o) 64) = e) →
    Completes (.recordFrameDone task) s fun t =>
      t.taskNat task 10 = (s.taskNat task 10 + 1) % 2 ^ 32 ∧
      (s.taskNat task 12 + 1 < s.taskSlots task → s.taskNat task 12 + 1 < 2 ^ 32 → t.taskNat task 12 = s.taskNat task 12 + 1 ∧
        t.recTask task = { s.recTask task with busy := none, expect := some ((e + 1) % 2 ^ 32) }) ∧
      (s.taskSlots task ≤ s.taskNat task 12 + 1 → (s.taskWord task 0).toNat.testBit 29 = true → t.taskNat task 12 = 0 ∧
        t.recTask task = { s.recTask task with busy := none, expect := some ((e + 1) % 2 ^ 32) }) ∧
      (s.taskSlots task ≤ s.taskNat task 12 + 1 → (s.taskWord task 0).toNat.testBit 29 = false → t.taskOn task = false ∧
        t.taskWord task 13 = s.taskWord task 13 ||| 4 ∧ t.recTask task = {}) ∧
      (∀ k : Fin 16, k ≠ task → t.recTask k = s.recTask k) ∧ t.nv = { s.nv with tasks := t.nv.tasks } ∧
      TaskFrame [task.val] [0, 10, 12, 13] s t ∧ RegFrame [nvtA + NVT_TASK_RUN] s t ∧ Frame [.nv, .regs, .tbl] s t) ∧
  (∀ (s : State) (task : Fin 16) (e o slba key : Nat), s.live = true → (s.recTask task).busy = some e → (s.recTask task).need = [] → s.taskBytes task = false → s.answersAt (s.taskBuf task e) 128 → o ∈ s.taskHeads task → headFrameOf (s.memBytes (s.taskBuf task e + o) 64) ≠ e →
    slba = s.taskStart task + s.taskNat task 12 * s.slotLbas task → key = s.keyOf (s.taskNs task) slba →
    s.taskNat task 12 + 1 < s.taskSlots task → s.taskNat task 12 + 1 < 2 ^ 32 →
    Completes (.recordFrameDone task) s fun t =>
      t.taskNat task 11 = (s.taskNat task 11 + 1) % 2 ^ 32 ∧ t.taskWord task 13 = s.taskWord task 13 ||| 2 ∧ t.flag nvtA NVT_EVT_TASK_GAP = true ∧ t.taskNat task 12 = s.taskNat task 12 + 1 ∧
      t.recTask task = { s.recTask task with busy := none, expect := some ((e + 1) % 2 ^ 32), need := [s.nv.ids] } ∧
      (∀ k : Fin 16, k ≠ task → t.recTask k = s.recTask k) ∧
      t.sent = ⟨.ssd (Fin.ofNat 4 (s.lbaOf key).1), 1, [s.nv.ids, (s.lbaOf key).2, 1, 1] ++ List.replicate 4096 0⟩ :: s.sent ∧
      t.nv = { s.nv with
        tasks := t.nv.tasks, ids := s.nv.ids + 1,
        ssds := s.nv.ssds ++ [⟨s.nv.ids, (s.lbaOf key).1, 1, (s.lbaOf key).2, 1, true, .task task (s.taskNs task) slba, false⟩] } ∧
      TaskFrame [task.val] [11, 12, 13] s t ∧ RegFrame [nvtA + NVT_EVT] s t ∧ Frame [.nv, .regs, .tbl, .sent] s t) ∧
  (∀ (s : State) (task : Fin 16), s.live = true → (s.taskBytes task = true ∨ (s.recTask task).need ≠ [] ∨ (s.recTask task).busy = none) →
    Completes (.recordFrameDone task) s fun t => t = s)
end

