-- ==== Sys2Proof/Laws/State.lean ====
section
/-! SUPPORT. What each named update leaves alone: one statement per update, a conjunct for each field, all by rfl. -/
namespace Sys2Proof.Machine

variable (s : State)

@[simp] theorem State.wr_pending (a : Nat) (v : Word) : (s.wr a v).pending = s.pending := rfl
@[simp] theorem State.wr_act (a : Nat) (v : Word) : (s.wr a v).act = s.act := rfl
@[simp] theorem State.wr_due (a : Nat) (v : Word) : (s.wr a v).due = s.due := rfl
@[simp] theorem State.wr_held (a : Nat) (v : Word) : (s.wr a v).held = s.held := rfl
@[simp] theorem State.wr_frozen (a : Nat) (v : Word) : (s.wr a v).frozen = s.frozen := rfl
@[simp] theorem State.wr_tbl (a : Nat) (v : Word) : (s.wr a v).tbl = s.tbl := rfl
@[simp] theorem State.wr_mem (a : Nat) (v : Word) : (s.wr a v).mem = s.mem := rfl
@[simp] theorem State.wr_hostMem (a : Nat) (v : Word) : (s.wr a v).hostMem = s.hostMem := rfl
@[simp] theorem State.wr_adv (a : Nat) (v : Word) : (s.wr a v).adv = s.adv := rfl
@[simp] theorem State.wr_alm (a : Nat) (v : Word) : (s.wr a v).alm = s.alm := rfl
@[simp] theorem State.wr_fab (a : Nat) (v : Word) : (s.wr a v).fab = s.fab := rfl
@[simp] theorem State.wr_flt (a : Nat) (v : Word) : (s.wr a v).flt = s.flt := rfl
@[simp] theorem State.wr_pair (a : Nat) (v : Word) : (s.wr a v).pair = s.pair := rfl
@[simp] theorem State.wr_linesUp (a : Nat) (v : Word) : (s.wr a v).linesUp = s.linesUp := rfl
@[simp] theorem State.wr_camps (a : Nat) (v : Word) : (s.wr a v).camps = s.camps := rfl
@[simp] theorem State.wr_cals (a : Nat) (v : Word) : (s.wr a v).cals = s.cals := rfl
@[simp] theorem State.wr_twcs (a : Nat) (v : Word) : (s.wr a v).twcs = s.twcs := rfl
@[simp] theorem State.wr_twt (a : Nat) (v : Word) : (s.wr a v).twt = s.twt := rfl
@[simp] theorem State.wr_pipes (a : Nat) (v : Word) : (s.wr a v).pipes = s.pipes := rfl
@[simp] theorem State.wr_mfes (a : Nat) (v : Word) : (s.wr a v).mfes = s.mfes := rfl
@[simp] theorem State.wr_heads (a : Nat) (v : Word) : (s.wr a v).heads = s.heads := rfl
@[simp] theorem State.wr_prds (a : Nat) (v : Word) : (s.wr a v).prds = s.prds := rfl
@[simp] theorem State.wr_codec (a : Nat) (v : Word) : (s.wr a v).codec = s.codec := rfl
@[simp] theorem State.wr_vccs (a : Nat) (v : Word) : (s.wr a v).vccs = s.vccs := rfl
@[simp] theorem State.wr_time (a : Nat) (v : Word) : (s.wr a v).time = s.time := rfl
@[simp] theorem State.wr_dchs (a : Nat) (v : Word) : (s.wr a v).dchs = s.dchs := rfl
@[simp] theorem State.wr_masks (a : Nat) (v : Word) : (s.wr a v).masks = s.masks := rfl
@[simp] theorem State.wr_dmas (a : Nat) (v : Word) : (s.wr a v).dmas = s.dmas := rfl
@[simp] theorem State.wr_dmaRest (a : Nat) (v : Word) : (s.wr a v).dmaRest = s.dmaRest := rfl
@[simp] theorem State.wr_axes (a : Nat) (v : Word) : (s.wr a v).axes = s.axes := rfl
@[simp] theorem State.wr_emus (a : Nat) (v : Word) : (s.wr a v).emus = s.emus := rfl
@[simp] theorem State.wr_poses (a : Nat) (v : Word) : (s.wr a v).poses = s.poses := rfl
@[simp] theorem State.wr_quads (a : Nat) (v : Word) : (s.wr a v).quads = s.quads := rfl
@[simp] theorem State.wr_procs (a : Nat) (v : Word) : (s.wr a v).procs = s.procs := rfl
@[simp] theorem State.wr_auds (a : Nat) (v : Word) : (s.wr a v).auds = s.auds := rfl
@[simp] theorem State.wr_thm (a : Nat) (v : Word) : (s.wr a v).thm = s.thm := rfl
@[simp] theorem State.wr_engs (a : Nat) (v : Word) : (s.wr a v).engs = s.engs := rfl
@[simp] theorem State.wr_stews (a : Nat) (v : Word) : (s.wr a v).stews = s.stews := rfl
@[simp] theorem State.wr_clus (a : Nat) (v : Word) : (s.wr a v).clus = s.clus := rfl
@[simp] theorem State.wr_pcie (a : Nat) (v : Word) : (s.wr a v).pcie = s.pcie := rfl
@[simp] theorem State.wr_nv (a : Nat) (v : Word) : (s.wr a v).nv = s.nv := rfl
@[simp] theorem State.wr_tick (a : Nat) (v : Word) : (s.wr a v).tick = s.tick := rfl
@[simp] theorem State.wr_answer (a : Nat) (v : Word) : (s.wr a v).answer = s.answer := rfl
@[simp] theorem State.wr_poison (a : Nat) (v : Word) : (s.wr a v).poison = s.poison := rfl
@[simp] theorem State.wr_free (a : Nat) (v : Word) : (s.wr a v).free = s.free := rfl
@[simp] theorem State.wr_sent (a : Nat) (v : Word) : (s.wr a v).sent = s.sent := rfl
@[simp] theorem State.setForce_pending (a : Nat) (v : Word) : (s.setForce a v).pending = s.pending := rfl
@[simp] theorem State.setForce_due (a : Nat) (v : Word) : (s.setForce a v).due = s.due := rfl
@[simp] theorem State.setForce_held (a : Nat) (v : Word) : (s.setForce a v).held = s.held := rfl
@[simp] theorem State.setForce_frozen (a : Nat) (v : Word) : (s.setForce a v).frozen = s.frozen := rfl
@[simp] theorem State.setForce_tbl (a : Nat) (v : Word) : (s.setForce a v).tbl = s.tbl := rfl
@[simp] theorem State.setForce_mem (a : Nat) (v : Word) : (s.setForce a v).mem = s.mem := rfl
@[simp] theorem State.setForce_hostMem (a : Nat) (v : Word) : (s.setForce a v).hostMem = s.hostMem := rfl
@[simp] theorem State.setForce_adv (a : Nat) (v : Word) : (s.setForce a v).adv = s.adv := rfl
@[simp] theorem State.setForce_alm (a : Nat) (v : Word) : (s.setForce a v).alm = s.alm := rfl
@[simp] theorem State.setForce_fab (a : Nat) (v : Word) : (s.setForce a v).fab = s.fab := rfl
@[simp] theorem State.setForce_flt (a : Nat) (v : Word) : (s.setForce a v).flt = s.flt := rfl
@[simp] theorem State.setForce_pair (a : Nat) (v : Word) : (s.setForce a v).pair = s.pair := rfl
@[simp] theorem State.setForce_linesUp (a : Nat) (v : Word) : (s.setForce a v).linesUp = s.linesUp := rfl
@[simp] theorem State.setForce_camps (a : Nat) (v : Word) : (s.setForce a v).camps = s.camps := rfl
@[simp] theorem State.setForce_cals (a : Nat) (v : Word) : (s.setForce a v).cals = s.cals := rfl
@[simp] theorem State.setForce_twcs (a : Nat) (v : Word) : (s.setForce a v).twcs = s.twcs := rfl
@[simp] theorem State.setForce_twt (a : Nat) (v : Word) : (s.setForce a v).twt = s.twt := rfl
@[simp] theorem State.setForce_pipes (a : Nat) (v : Word) : (s.setForce a v).pipes = s.pipes := rfl
@[simp] theorem State.setForce_mfes (a : Nat) (v : Word) : (s.setForce a v).mfes = s.mfes := rfl
@[simp] theorem State.setForce_heads (a : Nat) (v : Word) : (s.setForce a v).heads = s.heads := rfl
@[simp] theorem State.setForce_prds (a : Nat) (v : Word) : (s.setForce a v).prds = s.prds := rfl
@[simp] theorem State.setForce_codec (a : Nat) (v : Word) : (s.setForce a v).codec = s.codec := rfl
@[simp] theorem State.setForce_vccs (a : Nat) (v : Word) : (s.setForce a v).vccs = s.vccs := rfl
@[simp] theorem State.setForce_time (a : Nat) (v : Word) : (s.setForce a v).time = s.time := rfl
@[simp] theorem State.setForce_dchs (a : Nat) (v : Word) : (s.setForce a v).dchs = s.dchs := rfl
@[simp] theorem State.setForce_masks (a : Nat) (v : Word) : (s.setForce a v).masks = s.masks := rfl
@[simp] theorem State.setForce_dmas (a : Nat) (v : Word) : (s.setForce a v).dmas = s.dmas := rfl
@[simp] theorem State.setForce_dmaRest (a : Nat) (v : Word) : (s.setForce a v).dmaRest = s.dmaRest := rfl
@[simp] theorem State.setForce_axes (a : Nat) (v : Word) : (s.setForce a v).axes = s.axes := rfl
@[simp] theorem State.setForce_emus (a : Nat) (v : Word) : (s.setForce a v).emus = s.emus := rfl
@[simp] theorem State.setForce_poses (a : Nat) (v : Word) : (s.setForce a v).poses = s.poses := rfl
@[simp] theorem State.setForce_quads (a : Nat) (v : Word) : (s.setForce a v).quads = s.quads := rfl
@[simp] theorem State.setForce_procs (a : Nat) (v : Word) : (s.setForce a v).procs = s.procs := rfl
@[simp] theorem State.setForce_auds (a : Nat) (v : Word) : (s.setForce a v).auds = s.auds := rfl
@[simp] theorem State.setForce_thm (a : Nat) (v : Word) : (s.setForce a v).thm = s.thm := rfl
@[simp] theorem State.setForce_engs (a : Nat) (v : Word) : (s.setForce a v).engs = s.engs := rfl
@[simp] theorem State.setForce_stews (a : Nat) (v : Word) : (s.setForce a v).stews = s.stews := rfl
@[simp] theorem State.setForce_clus (a : Nat) (v : Word) : (s.setForce a v).clus = s.clus := rfl
@[simp] theorem State.setForce_pcie (a : Nat) (v : Word) : (s.setForce a v).pcie = s.pcie := rfl
@[simp] theorem State.setForce_nv (a : Nat) (v : Word) : (s.setForce a v).nv = s.nv := rfl
@[simp] theorem State.setForce_tick (a : Nat) (v : Word) : (s.setForce a v).tick = s.tick := rfl
@[simp] theorem State.setForce_answer (a : Nat) (v : Word) : (s.setForce a v).answer = s.answer := rfl
@[simp] theorem State.setForce_poison (a : Nat) (v : Word) : (s.setForce a v).poison = s.poison := rfl
@[simp] theorem State.setForce_free (a : Nat) (v : Word) : (s.setForce a v).free = s.free := rfl
@[simp] theorem State.setForce_sent (a : Nat) (v : Word) : (s.setForce a v).sent = s.sent := rfl
@[simp] theorem State.tset_pending (t : Tbl) (n i : Nat) (v : Word) : (s.tset t n i v).pending = s.pending := rfl
@[simp] theorem State.tset_regs (t : Tbl) (n i : Nat) (v : Word) : (s.tset t n i v).regs = s.regs := rfl
@[simp] theorem State.tset_act (t : Tbl) (n i : Nat) (v : Word) : (s.tset t n i v).act = s.act := rfl
@[simp] theorem State.tset_due (t : Tbl) (n i : Nat) (v : Word) : (s.tset t n i v).due = s.due := rfl
@[simp] theorem State.tset_held (t : Tbl) (n i : Nat) (v : Word) : (s.tset t n i v).held = s.held := rfl
@[simp] theorem State.tset_frozen (t : Tbl) (n i : Nat) (v : Word) : (s.tset t n i v).frozen = s.frozen := rfl
@[simp] theorem State.tset_mem (t : Tbl) (n i : Nat) (v : Word) : (s.tset t n i v).mem = s.mem := rfl
@[simp] theorem State.tset_hostMem (t : Tbl) (n i : Nat) (v : Word) : (s.tset t n i v).hostMem = s.hostMem := rfl
@[simp] theorem State.tset_adv (t : Tbl) (n i : Nat) (v : Word) : (s.tset t n i v).adv = s.adv := rfl
@[simp] theorem State.tset_alm (t : Tbl) (n i : Nat) (v : Word) : (s.tset t n i v).alm = s.alm := rfl
@[simp] theorem State.tset_fab (t : Tbl) (n i : Nat) (v : Word) : (s.tset t n i v).fab = s.fab := rfl
@[simp] theorem State.tset_flt (t : Tbl) (n i : Nat) (v : Word) : (s.tset t n i v).flt = s.flt := rfl
@[simp] theorem State.tset_pair (t : Tbl) (n i : Nat) (v : Word) : (s.tset t n i v).pair = s.pair := rfl
@[simp] theorem State.tset_linesUp (t : Tbl) (n i : Nat) (v : Word) : (s.tset t n i v).linesUp = s.linesUp := rfl
@[simp] theorem State.tset_camps (t : Tbl) (n i : Nat) (v : Word) : (s.tset t n i v).camps = s.camps := rfl
@[simp] theorem State.tset_cals (t : Tbl) (n i : Nat) (v : Word) : (s.tset t n i v).cals = s.cals := rfl
@[simp] theorem State.tset_twcs (t : Tbl) (n i : Nat) (v : Word) : (s.tset t n i v).twcs = s.twcs := rfl
@[simp] theorem State.tset_twt (t : Tbl) (n i : Nat) (v : Word) : (s.tset t n i v).twt = s.twt := rfl
@[simp] theorem State.tset_pipes (t : Tbl) (n i : Nat) (v : Word) : (s.tset t n i v).pipes = s.pipes := rfl
@[simp] theorem State.tset_mfes (t : Tbl) (n i : Nat) (v : Word) : (s.tset t n i v).mfes = s.mfes := rfl
@[simp] theorem State.tset_heads (t : Tbl) (n i : Nat) (v : Word) : (s.tset t n i v).heads = s.heads := rfl
@[simp] theorem State.tset_prds (t : Tbl) (n i : Nat) (v : Word) : (s.tset t n i v).prds = s.prds := rfl
@[simp] theorem State.tset_codec (t : Tbl) (n i : Nat) (v : Word) : (s.tset t n i v).codec = s.codec := rfl
@[simp] theorem State.tset_vccs (t : Tbl) (n i : Nat) (v : Word) : (s.tset t n i v).vccs = s.vccs := rfl
@[simp] theorem State.tset_time (t : Tbl) (n i : Nat) (v : Word) : (s.tset t n i v).time = s.time := rfl
@[simp] theorem State.tset_dchs (t : Tbl) (n i : Nat) (v : Word) : (s.tset t n i v).dchs = s.dchs := rfl
@[simp] theorem State.tset_masks (t : Tbl) (n i : Nat) (v : Word) : (s.tset t n i v).masks = s.masks := rfl
@[simp] theorem State.tset_dmas (t : Tbl) (n i : Nat) (v : Word) : (s.tset t n i v).dmas = s.dmas := rfl
@[simp] theorem State.tset_dmaRest (t : Tbl) (n i : Nat) (v : Word) : (s.tset t n i v).dmaRest = s.dmaRest := rfl
@[simp] theorem State.tset_axes (t : Tbl) (n i : Nat) (v : Word) : (s.tset t n i v).axes = s.axes := rfl
@[simp] theorem State.tset_emus (t : Tbl) (n i : Nat) (v : Word) : (s.tset t n i v).emus = s.emus := rfl
@[simp] theorem State.tset_poses (t : Tbl) (n i : Nat) (v : Word) : (s.tset t n i v).poses = s.poses := rfl
@[simp] theorem State.tset_quads (t : Tbl) (n i : Nat) (v : Word) : (s.tset t n i v).quads = s.quads := rfl
@[simp] theorem State.tset_procs (t : Tbl) (n i : Nat) (v : Word) : (s.tset t n i v).procs = s.procs := rfl
@[simp] theorem State.tset_auds (t : Tbl) (n i : Nat) (v : Word) : (s.tset t n i v).auds = s.auds := rfl
@[simp] theorem State.tset_thm (t : Tbl) (n i : Nat) (v : Word) : (s.tset t n i v).thm = s.thm := rfl
@[simp] theorem State.tset_engs (t : Tbl) (n i : Nat) (v : Word) : (s.tset t n i v).engs = s.engs := rfl
@[simp] theorem State.tset_stews (t : Tbl) (n i : Nat) (v : Word) : (s.tset t n i v).stews = s.stews := rfl
@[simp] theorem State.tset_clus (t : Tbl) (n i : Nat) (v : Word) : (s.tset t n i v).clus = s.clus := rfl
@[simp] theorem State.tset_pcie (t : Tbl) (n i : Nat) (v : Word) : (s.tset t n i v).pcie = s.pcie := rfl
@[simp] theorem State.tset_nv (t : Tbl) (n i : Nat) (v : Word) : (s.tset t n i v).nv = s.nv := rfl
@[simp] theorem State.tset_tick (t : Tbl) (n i : Nat) (v : Word) : (s.tset t n i v).tick = s.tick := rfl
@[simp] theorem State.tset_answer (t : Tbl) (n i : Nat) (v : Word) : (s.tset t n i v).answer = s.answer := rfl
@[simp] theorem State.tset_poison (t : Tbl) (n i : Nat) (v : Word) : (s.tset t n i v).poison = s.poison := rfl
@[simp] theorem State.tset_free (t : Tbl) (n i : Nat) (v : Word) : (s.tset t n i v).free = s.free := rfl
@[simp] theorem State.tset_sent (t : Tbl) (n i : Nat) (v : Word) : (s.tset t n i v).sent = s.sent := rfl
@[simp] theorem State.setMemByte_pending (a : Nat) (b : Byte) : (s.setMemByte a b).pending = s.pending := rfl
@[simp] theorem State.setMemByte_regs (a : Nat) (b : Byte) : (s.setMemByte a b).regs = s.regs := rfl
@[simp] theorem State.setMemByte_act (a : Nat) (b : Byte) : (s.setMemByte a b).act = s.act := rfl
@[simp] theorem State.setMemByte_due (a : Nat) (b : Byte) : (s.setMemByte a b).due = s.due := rfl
@[simp] theorem State.setMemByte_held (a : Nat) (b : Byte) : (s.setMemByte a b).held = s.held := rfl
@[simp] theorem State.setMemByte_frozen (a : Nat) (b : Byte) : (s.setMemByte a b).frozen = s.frozen := rfl
@[simp] theorem State.setMemByte_tbl (a : Nat) (b : Byte) : (s.setMemByte a b).tbl = s.tbl := rfl
@[simp] theorem State.setMemByte_hostMem (a : Nat) (b : Byte) : (s.setMemByte a b).hostMem = s.hostMem := rfl
@[simp] theorem State.setMemByte_adv (a : Nat) (b : Byte) : (s.setMemByte a b).adv = s.adv := rfl
@[simp] theorem State.setMemByte_alm (a : Nat) (b : Byte) : (s.setMemByte a b).alm = s.alm := rfl
@[simp] theorem State.setMemByte_fab (a : Nat) (b : Byte) : (s.setMemByte a b).fab = s.fab := rfl
@[simp] theorem State.setMemByte_flt (a : Nat) (b : Byte) : (s.setMemByte a b).flt = s.flt := rfl
@[simp] theorem State.setMemByte_pair (a : Nat) (b : Byte) : (s.setMemByte a b).pair = s.pair := rfl
@[simp] theorem State.setMemByte_linesUp (a : Nat) (b : Byte) : (s.setMemByte a b).linesUp = s.linesUp := rfl
@[simp] theorem State.setMemByte_camps (a : Nat) (b : Byte) : (s.setMemByte a b).camps = s.camps := rfl
@[simp] theorem State.setMemByte_cals (a : Nat) (b : Byte) : (s.setMemByte a b).cals = s.cals := rfl
@[simp] theorem State.setMemByte_twcs (a : Nat) (b : Byte) : (s.setMemByte a b).twcs = s.twcs := rfl
@[simp] theorem State.setMemByte_twt (a : Nat) (b : Byte) : (s.setMemByte a b).twt = s.twt := rfl
@[simp] theorem State.setMemByte_pipes (a : Nat) (b : Byte) : (s.setMemByte a b).pipes = s.pipes := rfl
@[simp] theorem State.setMemByte_mfes (a : Nat) (b : Byte) : (s.setMemByte a b).mfes = s.mfes := rfl
@[simp] theorem State.setMemByte_heads (a : Nat) (b : Byte) : (s.setMemByte a b).heads = s.heads := rfl
@[simp] theorem State.setMemByte_prds (a : Nat) (b : Byte) : (s.setMemByte a b).prds = s.prds := rfl
@[simp] theorem State.setMemByte_codec (a : Nat) (b : Byte) : (s.setMemByte a b).codec = s.codec := rfl
@[simp] theorem State.setMemByte_vccs (a : Nat) (b : Byte) : (s.setMemByte a b).vccs = s.vccs := rfl
@[simp] theorem State.setMemByte_time (a : Nat) (b : Byte) : (s.setMemByte a b).time = s.time := rfl
@[simp] theorem State.setMemByte_dchs (a : Nat) (b : Byte) : (s.setMemByte a b).dchs = s.dchs := rfl
@[simp] theorem State.setMemByte_masks (a : Nat) (b : Byte) : (s.setMemByte a b).masks = s.masks := rfl
@[simp] theorem State.setMemByte_dmas (a : Nat) (b : Byte) : (s.setMemByte a b).dmas = s.dmas := rfl
@[simp] theorem State.setMemByte_dmaRest (a : Nat) (b : Byte) : (s.setMemByte a b).dmaRest = s.dmaRest := rfl
@[simp] theorem State.setMemByte_axes (a : Nat) (b : Byte) : (s.setMemByte a b).axes = s.axes := rfl
@[simp] theorem State.setMemByte_emus (a : Nat) (b : Byte) : (s.setMemByte a b).emus = s.emus := rfl
@[simp] theorem State.setMemByte_poses (a : Nat) (b : Byte) : (s.setMemByte a b).poses = s.poses := rfl
@[simp] theorem State.setMemByte_quads (a : Nat) (b : Byte) : (s.setMemByte a b).quads = s.quads := rfl
@[simp] theorem State.setMemByte_procs (a : Nat) (b : Byte) : (s.setMemByte a b).procs = s.procs := rfl
@[simp] theorem State.setMemByte_auds (a : Nat) (b : Byte) : (s.setMemByte a b).auds = s.auds := rfl
@[simp] theorem State.setMemByte_thm (a : Nat) (b : Byte) : (s.setMemByte a b).thm = s.thm := rfl
@[simp] theorem State.setMemByte_engs (a : Nat) (b : Byte) : (s.setMemByte a b).engs = s.engs := rfl
@[simp] theorem State.setMemByte_stews (a : Nat) (b : Byte) : (s.setMemByte a b).stews = s.stews := rfl
@[simp] theorem State.setMemByte_clus (a : Nat) (b : Byte) : (s.setMemByte a b).clus = s.clus := rfl
@[simp] theorem State.setMemByte_pcie (a : Nat) (b : Byte) : (s.setMemByte a b).pcie = s.pcie := rfl
@[simp] theorem State.setMemByte_nv (a : Nat) (b : Byte) : (s.setMemByte a b).nv = s.nv := rfl
@[simp] theorem State.setMemByte_tick (a : Nat) (b : Byte) : (s.setMemByte a b).tick = s.tick := rfl
@[simp] theorem State.setMemByte_answer (a : Nat) (b : Byte) : (s.setMemByte a b).answer = s.answer := rfl
@[simp] theorem State.setMemByte_poison (a : Nat) (b : Byte) : (s.setMemByte a b).poison = s.poison := rfl
@[simp] theorem State.setMemByte_free (a : Nat) (b : Byte) : (s.setMemByte a b).free = s.free := rfl
@[simp] theorem State.setMemByte_sent (a : Nat) (b : Byte) : (s.setMemByte a b).sent = s.sent := rfl
@[simp] theorem State.usedFree_pending : (s.usedFree).pending = s.pending := rfl
@[simp] theorem State.usedFree_regs : (s.usedFree).regs = s.regs := rfl
@[simp] theorem State.usedFree_act : (s.usedFree).act = s.act := rfl
@[simp] theorem State.usedFree_due : (s.usedFree).due = s.due := rfl
@[simp] theorem State.usedFree_held : (s.usedFree).held = s.held := rfl
@[simp] theorem State.usedFree_frozen : (s.usedFree).frozen = s.frozen := rfl
@[simp] theorem State.usedFree_tbl : (s.usedFree).tbl = s.tbl := rfl
@[simp] theorem State.usedFree_mem : (s.usedFree).mem = s.mem := rfl
@[simp] theorem State.usedFree_hostMem : (s.usedFree).hostMem = s.hostMem := rfl
@[simp] theorem State.usedFree_adv : (s.usedFree).adv = s.adv := rfl
@[simp] theorem State.usedFree_alm : (s.usedFree).alm = s.alm := rfl
@[simp] theorem State.usedFree_fab : (s.usedFree).fab = s.fab := rfl
@[simp] theorem State.usedFree_flt : (s.usedFree).flt = s.flt := rfl
@[simp] theorem State.usedFree_pair : (s.usedFree).pair = s.pair := rfl
@[simp] theorem State.usedFree_linesUp : (s.usedFree).linesUp = s.linesUp := rfl
@[simp] theorem State.usedFree_camps : (s.usedFree).camps = s.camps := rfl
@[simp] theorem State.usedFree_cals : (s.usedFree).cals = s.cals := rfl
@[simp] theorem State.usedFree_twcs : (s.usedFree).twcs = s.twcs := rfl
@[simp] theorem State.usedFree_twt : (s.usedFree).twt = s.twt := rfl
@[simp] theorem State.usedFree_pipes : (s.usedFree).pipes = s.pipes := rfl
@[simp] theorem State.usedFree_mfes : (s.usedFree).mfes = s.mfes := rfl
@[simp] theorem State.usedFree_heads : (s.usedFree).heads = s.heads := rfl
@[simp] theorem State.usedFree_prds : (s.usedFree).prds = s.prds := rfl
@[simp] theorem State.usedFree_codec : (s.usedFree).codec = s.codec := rfl
@[simp] theorem State.usedFree_vccs : (s.usedFree).vccs = s.vccs := rfl
@[simp] theorem State.usedFree_time : (s.usedFree).time = s.time := rfl
@[simp] theorem State.usedFree_dchs : (s.usedFree).dchs = s.dchs := rfl
@[simp] theorem State.usedFree_masks : (s.usedFree).masks = s.masks := rfl
@[simp] theorem State.usedFree_dmas : (s.usedFree).dmas = s.dmas := rfl
@[simp] theorem State.usedFree_dmaRest : (s.usedFree).dmaRest = s.dmaRest := rfl
@[simp] theorem State.usedFree_axes : (s.usedFree).axes = s.axes := rfl
@[simp] theorem State.usedFree_emus : (s.usedFree).emus = s.emus := rfl
@[simp] theorem State.usedFree_poses : (s.usedFree).poses = s.poses := rfl
@[simp] theorem State.usedFree_quads : (s.usedFree).quads = s.quads := rfl
@[simp] theorem State.usedFree_procs : (s.usedFree).procs = s.procs := rfl
@[simp] theorem State.usedFree_auds : (s.usedFree).auds = s.auds := rfl
@[simp] theorem State.usedFree_thm : (s.usedFree).thm = s.thm := rfl
@[simp] theorem State.usedFree_engs : (s.usedFree).engs = s.engs := rfl
@[simp] theorem State.usedFree_stews : (s.usedFree).stews = s.stews := rfl
@[simp] theorem State.usedFree_clus : (s.usedFree).clus = s.clus := rfl
@[simp] theorem State.usedFree_pcie : (s.usedFree).pcie = s.pcie := rfl
@[simp] theorem State.usedFree_nv : (s.usedFree).nv = s.nv := rfl
@[simp] theorem State.usedFree_tick : (s.usedFree).tick = s.tick := rfl
@[simp] theorem State.usedFree_answer : (s.usedFree).answer = s.answer := rfl
@[simp] theorem State.usedFree_poison : (s.usedFree).poison = s.poison := rfl
@[simp] theorem State.usedFree_sent : (s.usedFree).sent = s.sent := rfl
@[simp] theorem State.withQueue_regs (q : List Instr) : (s.withQueue q).regs = s.regs := rfl
@[simp] theorem State.withQueue_act (q : List Instr) : (s.withQueue q).act = s.act := rfl
@[simp] theorem State.withQueue_due (q : List Instr) : (s.withQueue q).due = s.due := rfl
@[simp] theorem State.withQueue_held (q : List Instr) : (s.withQueue q).held = s.held := rfl
@[simp] theorem State.withQueue_frozen (q : List Instr) : (s.withQueue q).frozen = s.frozen := rfl
@[simp] theorem State.withQueue_tbl (q : List Instr) : (s.withQueue q).tbl = s.tbl := rfl
@[simp] theorem State.withQueue_mem (q : List Instr) : (s.withQueue q).mem = s.mem := rfl
@[simp] theorem State.withQueue_hostMem (q : List Instr) : (s.withQueue q).hostMem = s.hostMem := rfl
@[simp] theorem State.withQueue_adv (q : List Instr) : (s.withQueue q).adv = s.adv := rfl
@[simp] theorem State.withQueue_alm (q : List Instr) : (s.withQueue q).alm = s.alm := rfl
@[simp] theorem State.withQueue_fab (q : List Instr) : (s.withQueue q).fab = s.fab := rfl
@[simp] theorem State.withQueue_flt (q : List Instr) : (s.withQueue q).flt = s.flt := rfl
@[simp] theorem State.withQueue_pair (q : List Instr) : (s.withQueue q).pair = s.pair := rfl
@[simp] theorem State.withQueue_linesUp (q : List Instr) : (s.withQueue q).linesUp = s.linesUp := rfl
@[simp] theorem State.withQueue_camps (q : List Instr) : (s.withQueue q).camps = s.camps := rfl
@[simp] theorem State.withQueue_cals (q : List Instr) : (s.withQueue q).cals = s.cals := rfl
@[simp] theorem State.withQueue_twcs (q : List Instr) : (s.withQueue q).twcs = s.twcs := rfl
@[simp] theorem State.withQueue_twt (q : List Instr) : (s.withQueue q).twt = s.twt := rfl
@[simp] theorem State.withQueue_pipes (q : List Instr) : (s.withQueue q).pipes = s.pipes := rfl
@[simp] theorem State.withQueue_mfes (q : List Instr) : (s.withQueue q).mfes = s.mfes := rfl
@[simp] theorem State.withQueue_heads (q : List Instr) : (s.withQueue q).heads = s.heads := rfl
@[simp] theorem State.withQueue_prds (q : List Instr) : (s.withQueue q).prds = s.prds := rfl
@[simp] theorem State.withQueue_codec (q : List Instr) : (s.withQueue q).codec = s.codec := rfl
@[simp] theorem State.withQueue_vccs (q : List Instr) : (s.withQueue q).vccs = s.vccs := rfl
@[simp] theorem State.withQueue_time (q : List Instr) : (s.withQueue q).time = s.time := rfl
@[simp] theorem State.withQueue_dchs (q : List Instr) : (s.withQueue q).dchs = s.dchs := rfl
@[simp] theorem State.withQueue_masks (q : List Instr) : (s.withQueue q).masks = s.masks := rfl
@[simp] theorem State.withQueue_dmas (q : List Instr) : (s.withQueue q).dmas = s.dmas := rfl
@[simp] theorem State.withQueue_dmaRest (q : List Instr) : (s.withQueue q).dmaRest = s.dmaRest := rfl
@[simp] theorem State.withQueue_axes (q : List Instr) : (s.withQueue q).axes = s.axes := rfl
@[simp] theorem State.withQueue_emus (q : List Instr) : (s.withQueue q).emus = s.emus := rfl
@[simp] theorem State.withQueue_poses (q : List Instr) : (s.withQueue q).poses = s.poses := rfl
@[simp] theorem State.withQueue_quads (q : List Instr) : (s.withQueue q).quads = s.quads := rfl
@[simp] theorem State.withQueue_procs (q : List Instr) : (s.withQueue q).procs = s.procs := rfl
@[simp] theorem State.withQueue_auds (q : List Instr) : (s.withQueue q).auds = s.auds := rfl
@[simp] theorem State.withQueue_thm (q : List Instr) : (s.withQueue q).thm = s.thm := rfl
@[simp] theorem State.withQueue_engs (q : List Instr) : (s.withQueue q).engs = s.engs := rfl
@[simp] theorem State.withQueue_stews (q : List Instr) : (s.withQueue q).stews = s.stews := rfl
@[simp] theorem State.withQueue_clus (q : List Instr) : (s.withQueue q).clus = s.clus := rfl
@[simp] theorem State.withQueue_pcie (q : List Instr) : (s.withQueue q).pcie = s.pcie := rfl
@[simp] theorem State.withQueue_nv (q : List Instr) : (s.withQueue q).nv = s.nv := rfl
@[simp] theorem State.withQueue_tick (q : List Instr) : (s.withQueue q).tick = s.tick := rfl
@[simp] theorem State.withQueue_answer (q : List Instr) : (s.withQueue q).answer = s.answer := rfl
@[simp] theorem State.withQueue_poison (q : List Instr) : (s.withQueue q).poison = s.poison := rfl
@[simp] theorem State.withQueue_free (q : List Instr) : (s.withQueue q).free = s.free := rfl
@[simp] theorem State.withQueue_sent (q : List Instr) : (s.withQueue q).sent = s.sent := rfl
@[simp] theorem State.emit_pending (c : Chan) (k : Nat) (l : List Nat) : (s.emit c k l).pending = s.pending := rfl
@[simp] theorem State.emit_regs (c : Chan) (k : Nat) (l : List Nat) : (s.emit c k l).regs = s.regs := rfl
@[simp] theorem State.emit_act (c : Chan) (k : Nat) (l : List Nat) : (s.emit c k l).act = s.act := rfl
@[simp] theorem State.emit_due (c : Chan) (k : Nat) (l : List Nat) : (s.emit c k l).due = s.due := rfl
@[simp] theorem State.emit_held (c : Chan) (k : Nat) (l : List Nat) : (s.emit c k l).held = s.held := rfl
@[simp] theorem State.emit_frozen (c : Chan) (k : Nat) (l : List Nat) : (s.emit c k l).frozen = s.frozen := rfl
@[simp] theorem State.emit_tbl (c : Chan) (k : Nat) (l : List Nat) : (s.emit c k l).tbl = s.tbl := rfl
@[simp] theorem State.emit_mem (c : Chan) (k : Nat) (l : List Nat) : (s.emit c k l).mem = s.mem := rfl
@[simp] theorem State.emit_hostMem (c : Chan) (k : Nat) (l : List Nat) : (s.emit c k l).hostMem = s.hostMem := rfl
@[simp] theorem State.emit_adv (c : Chan) (k : Nat) (l : List Nat) : (s.emit c k l).adv = s.adv := rfl
@[simp] theorem State.emit_alm (c : Chan) (k : Nat) (l : List Nat) : (s.emit c k l).alm = s.alm := rfl
@[simp] theorem State.emit_fab (c : Chan) (k : Nat) (l : List Nat) : (s.emit c k l).fab = s.fab := rfl
@[simp] theorem State.emit_flt (c : Chan) (k : Nat) (l : List Nat) : (s.emit c k l).flt = s.flt := rfl
@[simp] theorem State.emit_pair (c : Chan) (k : Nat) (l : List Nat) : (s.emit c k l).pair = s.pair := rfl
@[simp] theorem State.emit_linesUp (c : Chan) (k : Nat) (l : List Nat) : (s.emit c k l).linesUp = s.linesUp := rfl
@[simp] theorem State.emit_camps (c : Chan) (k : Nat) (l : List Nat) : (s.emit c k l).camps = s.camps := rfl
@[simp] theorem State.emit_cals (c : Chan) (k : Nat) (l : List Nat) : (s.emit c k l).cals = s.cals := rfl
@[simp] theorem State.emit_twcs (c : Chan) (k : Nat) (l : List Nat) : (s.emit c k l).twcs = s.twcs := rfl
@[simp] theorem State.emit_twt (c : Chan) (k : Nat) (l : List Nat) : (s.emit c k l).twt = s.twt := rfl
@[simp] theorem State.emit_pipes (c : Chan) (k : Nat) (l : List Nat) : (s.emit c k l).pipes = s.pipes := rfl
@[simp] theorem State.emit_mfes (c : Chan) (k : Nat) (l : List Nat) : (s.emit c k l).mfes = s.mfes := rfl
@[simp] theorem State.emit_heads (c : Chan) (k : Nat) (l : List Nat) : (s.emit c k l).heads = s.heads := rfl
@[simp] theorem State.emit_prds (c : Chan) (k : Nat) (l : List Nat) : (s.emit c k l).prds = s.prds := rfl
@[simp] theorem State.emit_codec (c : Chan) (k : Nat) (l : List Nat) : (s.emit c k l).codec = s.codec := rfl
@[simp] theorem State.emit_vccs (c : Chan) (k : Nat) (l : List Nat) : (s.emit c k l).vccs = s.vccs := rfl
@[simp] theorem State.emit_time (c : Chan) (k : Nat) (l : List Nat) : (s.emit c k l).time = s.time := rfl
@[simp] theorem State.emit_dchs (c : Chan) (k : Nat) (l : List Nat) : (s.emit c k l).dchs = s.dchs := rfl
@[simp] theorem State.emit_masks (c : Chan) (k : Nat) (l : List Nat) : (s.emit c k l).masks = s.masks := rfl
@[simp] theorem State.emit_dmas (c : Chan) (k : Nat) (l : List Nat) : (s.emit c k l).dmas = s.dmas := rfl
@[simp] theorem State.emit_dmaRest (c : Chan) (k : Nat) (l : List Nat) : (s.emit c k l).dmaRest = s.dmaRest := rfl
@[simp] theorem State.emit_axes (c : Chan) (k : Nat) (l : List Nat) : (s.emit c k l).axes = s.axes := rfl
@[simp] theorem State.emit_emus (c : Chan) (k : Nat) (l : List Nat) : (s.emit c k l).emus = s.emus := rfl
@[simp] theorem State.emit_poses (c : Chan) (k : Nat) (l : List Nat) : (s.emit c k l).poses = s.poses := rfl
@[simp] theorem State.emit_quads (c : Chan) (k : Nat) (l : List Nat) : (s.emit c k l).quads = s.quads := rfl
@[simp] theorem State.emit_procs (c : Chan) (k : Nat) (l : List Nat) : (s.emit c k l).procs = s.procs := rfl
@[simp] theorem State.emit_auds (c : Chan) (k : Nat) (l : List Nat) : (s.emit c k l).auds = s.auds := rfl
@[simp] theorem State.emit_thm (c : Chan) (k : Nat) (l : List Nat) : (s.emit c k l).thm = s.thm := rfl
@[simp] theorem State.emit_engs (c : Chan) (k : Nat) (l : List Nat) : (s.emit c k l).engs = s.engs := rfl
@[simp] theorem State.emit_stews (c : Chan) (k : Nat) (l : List Nat) : (s.emit c k l).stews = s.stews := rfl
@[simp] theorem State.emit_clus (c : Chan) (k : Nat) (l : List Nat) : (s.emit c k l).clus = s.clus := rfl
@[simp] theorem State.emit_pcie (c : Chan) (k : Nat) (l : List Nat) : (s.emit c k l).pcie = s.pcie := rfl
@[simp] theorem State.emit_nv (c : Chan) (k : Nat) (l : List Nat) : (s.emit c k l).nv = s.nv := rfl
@[simp] theorem State.emit_tick (c : Chan) (k : Nat) (l : List Nat) : (s.emit c k l).tick = s.tick := rfl
@[simp] theorem State.emit_answer (c : Chan) (k : Nat) (l : List Nat) : (s.emit c k l).answer = s.answer := rfl
@[simp] theorem State.emit_poison (c : Chan) (k : Nat) (l : List Nat) : (s.emit c k l).poison = s.poison := rfl
@[simp] theorem State.emit_free (c : Chan) (k : Nat) (l : List Nat) : (s.emit c k l).free = s.free := rfl
@[simp] theorem State.answerWith_pending (v : Word) : (s.answerWith v).pending = s.pending := rfl
@[simp] theorem State.answerWith_regs (v : Word) : (s.answerWith v).regs = s.regs := rfl
@[simp] theorem State.answerWith_act (v : Word) : (s.answerWith v).act = s.act := rfl
@[simp] theorem State.answerWith_due (v : Word) : (s.answerWith v).due = s.due := rfl
@[simp] theorem State.answerWith_held (v : Word) : (s.answerWith v).held = s.held := rfl
@[simp] theorem State.answerWith_frozen (v : Word) : (s.answerWith v).frozen = s.frozen := rfl
@[simp] theorem State.answerWith_tbl (v : Word) : (s.answerWith v).tbl = s.tbl := rfl
@[simp] theorem State.answerWith_mem (v : Word) : (s.answerWith v).mem = s.mem := rfl
@[simp] theorem State.answerWith_hostMem (v : Word) : (s.answerWith v).hostMem = s.hostMem := rfl
@[simp] theorem State.answerWith_adv (v : Word) : (s.answerWith v).adv = s.adv := rfl
@[simp] theorem State.answerWith_alm (v : Word) : (s.answerWith v).alm = s.alm := rfl
@[simp] theorem State.answerWith_fab (v : Word) : (s.answerWith v).fab = s.fab := rfl
@[simp] theorem State.answerWith_flt (v : Word) : (s.answerWith v).flt = s.flt := rfl
@[simp] theorem State.answerWith_pair (v : Word) : (s.answerWith v).pair = s.pair := rfl
@[simp] theorem State.answerWith_linesUp (v : Word) : (s.answerWith v).linesUp = s.linesUp := rfl
@[simp] theorem State.answerWith_camps (v : Word) : (s.answerWith v).camps = s.camps := rfl
@[simp] theorem State.answerWith_cals (v : Word) : (s.answerWith v).cals = s.cals := rfl
@[simp] theorem State.answerWith_twcs (v : Word) : (s.answerWith v).twcs = s.twcs := rfl
@[simp] theorem State.answerWith_twt (v : Word) : (s.answerWith v).twt = s.twt := rfl
@[simp] theorem State.answerWith_pipes (v : Word) : (s.answerWith v).pipes = s.pipes := rfl
@[simp] theorem State.answerWith_mfes (v : Word) : (s.answerWith v).mfes = s.mfes := rfl
@[simp] theorem State.answerWith_heads (v : Word) : (s.answerWith v).heads = s.heads := rfl
@[simp] theorem State.answerWith_prds (v : Word) : (s.answerWith v).prds = s.prds := rfl
@[simp] theorem State.answerWith_codec (v : Word) : (s.answerWith v).codec = s.codec := rfl
@[simp] theorem State.answerWith_vccs (v : Word) : (s.answerWith v).vccs = s.vccs := rfl
@[simp] theorem State.answerWith_time (v : Word) : (s.answerWith v).time = s.time := rfl
@[simp] theorem State.answerWith_dchs (v : Word) : (s.answerWith v).dchs = s.dchs := rfl
@[simp] theorem State.answerWith_masks (v : Word) : (s.answerWith v).masks = s.masks := rfl
@[simp] theorem State.answerWith_dmas (v : Word) : (s.answerWith v).dmas = s.dmas := rfl
@[simp] theorem State.answerWith_dmaRest (v : Word) : (s.answerWith v).dmaRest = s.dmaRest := rfl
@[simp] theorem State.answerWith_axes (v : Word) : (s.answerWith v).axes = s.axes := rfl
@[simp] theorem State.answerWith_emus (v : Word) : (s.answerWith v).emus = s.emus := rfl
@[simp] theorem State.answerWith_poses (v : Word) : (s.answerWith v).poses = s.poses := rfl
@[simp] theorem State.answerWith_quads (v : Word) : (s.answerWith v).quads = s.quads := rfl
@[simp] theorem State.answerWith_procs (v : Word) : (s.answerWith v).procs = s.procs := rfl
@[simp] theorem State.answerWith_auds (v : Word) : (s.answerWith v).auds = s.auds := rfl
@[simp] theorem State.answerWith_thm (v : Word) : (s.answerWith v).thm = s.thm := rfl
@[simp] theorem State.answerWith_engs (v : Word) : (s.answerWith v).engs = s.engs := rfl
@[simp] theorem State.answerWith_stews (v : Word) : (s.answerWith v).stews = s.stews := rfl
@[simp] theorem State.answerWith_clus (v : Word) : (s.answerWith v).clus = s.clus := rfl
@[simp] theorem State.answerWith_pcie (v : Word) : (s.answerWith v).pcie = s.pcie := rfl
@[simp] theorem State.answerWith_nv (v : Word) : (s.answerWith v).nv = s.nv := rfl
@[simp] theorem State.answerWith_tick (v : Word) : (s.answerWith v).tick = s.tick := rfl
@[simp] theorem State.answerWith_poison (v : Word) : (s.answerWith v).poison = s.poison := rfl
@[simp] theorem State.answerWith_free (v : Word) : (s.answerWith v).free = s.free := rfl
@[simp] theorem State.answerWith_sent (v : Word) : (s.answerWith v).sent = s.sent := rfl
@[simp] theorem State.withAlm_pending (x : Alm) : (s.withAlm x).pending = s.pending := rfl
@[simp] theorem State.withAlm_regs (x : Alm) : (s.withAlm x).regs = s.regs := rfl
@[simp] theorem State.withAlm_act (x : Alm) : (s.withAlm x).act = s.act := rfl
@[simp] theorem State.withAlm_due (x : Alm) : (s.withAlm x).due = s.due := rfl
@[simp] theorem State.withAlm_held (x : Alm) : (s.withAlm x).held = s.held := rfl
@[simp] theorem State.withAlm_frozen (x : Alm) : (s.withAlm x).frozen = s.frozen := rfl
@[simp] theorem State.withAlm_tbl (x : Alm) : (s.withAlm x).tbl = s.tbl := rfl
@[simp] theorem State.withAlm_mem (x : Alm) : (s.withAlm x).mem = s.mem := rfl
@[simp] theorem State.withAlm_hostMem (x : Alm) : (s.withAlm x).hostMem = s.hostMem := rfl
@[simp] theorem State.withAlm_adv (x : Alm) : (s.withAlm x).adv = s.adv := rfl
@[simp] theorem State.withAlm_fab (x : Alm) : (s.withAlm x).fab = s.fab := rfl
@[simp] theorem State.withAlm_flt (x : Alm) : (s.withAlm x).flt = s.flt := rfl
@[simp] theorem State.withAlm_pair (x : Alm) : (s.withAlm x).pair = s.pair := rfl
@[simp] theorem State.withAlm_linesUp (x : Alm) : (s.withAlm x).linesUp = s.linesUp := rfl
@[simp] theorem State.withAlm_camps (x : Alm) : (s.withAlm x).camps = s.camps := rfl
@[simp] theorem State.withAlm_cals (x : Alm) : (s.withAlm x).cals = s.cals := rfl
@[simp] theorem State.withAlm_twcs (x : Alm) : (s.withAlm x).twcs = s.twcs := rfl
@[simp] theorem State.withAlm_twt (x : Alm) : (s.withAlm x).twt = s.twt := rfl
@[simp] theorem State.withAlm_pipes (x : Alm) : (s.withAlm x).pipes = s.pipes := rfl
@[simp] theorem State.withAlm_mfes (x : Alm) : (s.withAlm x).mfes = s.mfes := rfl
@[simp] theorem State.withAlm_heads (x : Alm) : (s.withAlm x).heads = s.heads := rfl
@[simp] theorem State.withAlm_prds (x : Alm) : (s.withAlm x).prds = s.prds := rfl
@[simp] theorem State.withAlm_codec (x : Alm) : (s.withAlm x).codec = s.codec := rfl
@[simp] theorem State.withAlm_vccs (x : Alm) : (s.withAlm x).vccs = s.vccs := rfl
@[simp] theorem State.withAlm_time (x : Alm) : (s.withAlm x).time = s.time := rfl
@[simp] theorem State.withAlm_dchs (x : Alm) : (s.withAlm x).dchs = s.dchs := rfl
@[simp] theorem State.withAlm_masks (x : Alm) : (s.withAlm x).masks = s.masks := rfl
@[simp] theorem State.withAlm_dmas (x : Alm) : (s.withAlm x).dmas = s.dmas := rfl
@[simp] theorem State.withAlm_dmaRest (x : Alm) : (s.withAlm x).dmaRest = s.dmaRest := rfl
@[simp] theorem State.withAlm_axes (x : Alm) : (s.withAlm x).axes = s.axes := rfl
@[simp] theorem State.withAlm_emus (x : Alm) : (s.withAlm x).emus = s.emus := rfl
@[simp] theorem State.withAlm_poses (x : Alm) : (s.withAlm x).poses = s.poses := rfl
@[simp] theorem State.withAlm_quads (x : Alm) : (s.withAlm x).quads = s.quads := rfl
@[simp] theorem State.withAlm_procs (x : Alm) : (s.withAlm x).procs = s.procs := rfl
@[simp] theorem State.withAlm_auds (x : Alm) : (s.withAlm x).auds = s.auds := rfl
@[simp] theorem State.withAlm_thm (x : Alm) : (s.withAlm x).thm = s.thm := rfl
@[simp] theorem State.withAlm_engs (x : Alm) : (s.withAlm x).engs = s.engs := rfl
@[simp] theorem State.withAlm_stews (x : Alm) : (s.withAlm x).stews = s.stews := rfl
@[simp] theorem State.withAlm_clus (x : Alm) : (s.withAlm x).clus = s.clus := rfl
@[simp] theorem State.withAlm_pcie (x : Alm) : (s.withAlm x).pcie = s.pcie := rfl
@[simp] theorem State.withAlm_nv (x : Alm) : (s.withAlm x).nv = s.nv := rfl
@[simp] theorem State.withAlm_tick (x : Alm) : (s.withAlm x).tick = s.tick := rfl
@[simp] theorem State.withAlm_answer (x : Alm) : (s.withAlm x).answer = s.answer := rfl
@[simp] theorem State.withAlm_poison (x : Alm) : (s.withAlm x).poison = s.poison := rfl
@[simp] theorem State.withAlm_free (x : Alm) : (s.withAlm x).free = s.free := rfl
@[simp] theorem State.withAlm_sent (x : Alm) : (s.withAlm x).sent = s.sent := rfl
@[simp] theorem State.withTime_pending (x : TimeU) : (s.withTime x).pending = s.pending := rfl
@[simp] theorem State.withTime_regs (x : TimeU) : (s.withTime x).regs = s.regs := rfl
@[simp] theorem State.withTime_act (x : TimeU) : (s.withTime x).act = s.act := rfl
@[simp] theorem State.withTime_due (x : TimeU) : (s.withTime x).due = s.due := rfl
@[simp] theorem State.withTime_held (x : TimeU) : (s.withTime x).held = s.held := rfl
@[simp] theorem State.withTime_frozen (x : TimeU) : (s.withTime x).frozen = s.frozen := rfl
@[simp] theorem State.withTime_tbl (x : TimeU) : (s.withTime x).tbl = s.tbl := rfl
@[simp] theorem State.withTime_mem (x : TimeU) : (s.withTime x).mem = s.mem := rfl
@[simp] theorem State.withTime_hostMem (x : TimeU) : (s.withTime x).hostMem = s.hostMem := rfl
@[simp] theorem State.withTime_adv (x : TimeU) : (s.withTime x).adv = s.adv := rfl
@[simp] theorem State.withTime_alm (x : TimeU) : (s.withTime x).alm = s.alm := rfl
@[simp] theorem State.withTime_fab (x : TimeU) : (s.withTime x).fab = s.fab := rfl
@[simp] theorem State.withTime_flt (x : TimeU) : (s.withTime x).flt = s.flt := rfl
@[simp] theorem State.withTime_pair (x : TimeU) : (s.withTime x).pair = s.pair := rfl
@[simp] theorem State.withTime_linesUp (x : TimeU) : (s.withTime x).linesUp = s.linesUp := rfl
@[simp] theorem State.withTime_camps (x : TimeU) : (s.withTime x).camps = s.camps := rfl
@[simp] theorem State.withTime_cals (x : TimeU) : (s.withTime x).cals = s.cals := rfl
@[simp] theorem State.withTime_twcs (x : TimeU) : (s.withTime x).twcs = s.twcs := rfl
@[simp] theorem State.withTime_twt (x : TimeU) : (s.withTime x).twt = s.twt := rfl
@[simp] theorem State.withTime_pipes (x : TimeU) : (s.withTime x).pipes = s.pipes := rfl
@[simp] theorem State.withTime_mfes (x : TimeU) : (s.withTime x).mfes = s.mfes := rfl
@[simp] theorem State.withTime_heads (x : TimeU) : (s.withTime x).heads = s.heads := rfl
@[simp] theorem State.withTime_prds (x : TimeU) : (s.withTime x).prds = s.prds := rfl
@[simp] theorem State.withTime_codec (x : TimeU) : (s.withTime x).codec = s.codec := rfl
@[simp] theorem State.withTime_vccs (x : TimeU) : (s.withTime x).vccs = s.vccs := rfl
@[simp] theorem State.withTime_dchs (x : TimeU) : (s.withTime x).dchs = s.dchs := rfl
@[simp] theorem State.withTime_masks (x : TimeU) : (s.withTime x).masks = s.masks := rfl
@[simp] theorem State.withTime_dmas (x : TimeU) : (s.withTime x).dmas = s.dmas := rfl
@[simp] theorem State.withTime_dmaRest (x : TimeU) : (s.withTime x).dmaRest = s.dmaRest := rfl
@[simp] theorem State.withTime_axes (x : TimeU) : (s.withTime x).axes = s.axes := rfl
@[simp] theorem State.withTime_emus (x : TimeU) : (s.withTime x).emus = s.emus := rfl
@[simp] theorem State.withTime_poses (x : TimeU) : (s.withTime x).poses = s.poses := rfl
@[simp] theorem State.withTime_quads (x : TimeU) : (s.withTime x).quads = s.quads := rfl
@[simp] theorem State.withTime_procs (x : TimeU) : (s.withTime x).procs = s.procs := rfl
@[simp] theorem State.withTime_auds (x : TimeU) : (s.withTime x).auds = s.auds := rfl
@[simp] theorem State.withTime_thm (x : TimeU) : (s.withTime x).thm = s.thm := rfl
@[simp] theorem State.withTime_engs (x : TimeU) : (s.withTime x).engs = s.engs := rfl
@[simp] theorem State.withTime_stews (x : TimeU) : (s.withTime x).stews = s.stews := rfl
@[simp] theorem State.withTime_clus (x : TimeU) : (s.withTime x).clus = s.clus := rfl
@[simp] theorem State.withTime_pcie (x : TimeU) : (s.withTime x).pcie = s.pcie := rfl
@[simp] theorem State.withTime_nv (x : TimeU) : (s.withTime x).nv = s.nv := rfl
@[simp] theorem State.withTime_tick (x : TimeU) : (s.withTime x).tick = s.tick := rfl
@[simp] theorem State.withTime_answer (x : TimeU) : (s.withTime x).answer = s.answer := rfl
@[simp] theorem State.withTime_poison (x : TimeU) : (s.withTime x).poison = s.poison := rfl
@[simp] theorem State.withTime_free (x : TimeU) : (s.withTime x).free = s.free := rfl
@[simp] theorem State.withTime_sent (x : TimeU) : (s.withTime x).sent = s.sent := rfl
@[simp] theorem State.withPair_pending (x : Pair) : (s.withPair x).pending = s.pending := rfl
@[simp] theorem State.withPair_regs (x : Pair) : (s.withPair x).regs = s.regs := rfl
@[simp] theorem State.withPair_act (x : Pair) : (s.withPair x).act = s.act := rfl
@[simp] theorem State.withPair_due (x : Pair) : (s.withPair x).due = s.due := rfl
@[simp] theorem State.withPair_held (x : Pair) : (s.withPair x).held = s.held := rfl
@[simp] theorem State.withPair_frozen (x : Pair) : (s.withPair x).frozen = s.frozen := rfl
@[simp] theorem State.withPair_tbl (x : Pair) : (s.withPair x).tbl = s.tbl := rfl
@[simp] theorem State.withPair_mem (x : Pair) : (s.withPair x).mem = s.mem := rfl
@[simp] theorem State.withPair_hostMem (x : Pair) : (s.withPair x).hostMem = s.hostMem := rfl
@[simp] theorem State.withPair_adv (x : Pair) : (s.withPair x).adv = s.adv := rfl
@[simp] theorem State.withPair_alm (x : Pair) : (s.withPair x).alm = s.alm := rfl
@[simp] theorem State.withPair_fab (x : Pair) : (s.withPair x).fab = s.fab := rfl
@[simp] theorem State.withPair_flt (x : Pair) : (s.withPair x).flt = s.flt := rfl
@[simp] theorem State.withPair_linesUp (x : Pair) : (s.withPair x).linesUp = s.linesUp := rfl
@[simp] theorem State.withPair_camps (x : Pair) : (s.withPair x).camps = s.camps := rfl
@[simp] theorem State.withPair_cals (x : Pair) : (s.withPair x).cals = s.cals := rfl
@[simp] theorem State.withPair_twcs (x : Pair) : (s.withPair x).twcs = s.twcs := rfl
@[simp] theorem State.withPair_twt (x : Pair) : (s.withPair x).twt = s.twt := rfl
@[simp] theorem State.withPair_pipes (x : Pair) : (s.withPair x).pipes = s.pipes := rfl
@[simp] theorem State.withPair_mfes (x : Pair) : (s.withPair x).mfes = s.mfes := rfl
@[simp] theorem State.withPair_heads (x : Pair) : (s.withPair x).heads = s.heads := rfl
@[simp] theorem State.withPair_prds (x : Pair) : (s.withPair x).prds = s.prds := rfl
@[simp] theorem State.withPair_codec (x : Pair) : (s.withPair x).codec = s.codec := rfl
@[simp] theorem State.withPair_vccs (x : Pair) : (s.withPair x).vccs = s.vccs := rfl
@[simp] theorem State.withPair_time (x : Pair) : (s.withPair x).time = s.time := rfl
@[simp] theorem State.withPair_dchs (x : Pair) : (s.withPair x).dchs = s.dchs := rfl
@[simp] theorem State.withPair_masks (x : Pair) : (s.withPair x).masks = s.masks := rfl
@[simp] theorem State.withPair_dmas (x : Pair) : (s.withPair x).dmas = s.dmas := rfl
@[simp] theorem State.withPair_dmaRest (x : Pair) : (s.withPair x).dmaRest = s.dmaRest := rfl
@[simp] theorem State.withPair_axes (x : Pair) : (s.withPair x).axes = s.axes := rfl
@[simp] theorem State.withPair_emus (x : Pair) : (s.withPair x).emus = s.emus := rfl
@[simp] theorem State.withPair_poses (x : Pair) : (s.withPair x).poses = s.poses := rfl
@[simp] theorem State.withPair_quads (x : Pair) : (s.withPair x).quads = s.quads := rfl
@[simp] theorem State.withPair_procs (x : Pair) : (s.withPair x).procs = s.procs := rfl
@[simp] theorem State.withPair_auds (x : Pair) : (s.withPair x).auds = s.auds := rfl
@[simp] theorem State.withPair_thm (x : Pair) : (s.withPair x).thm = s.thm := rfl
@[simp] theorem State.withPair_engs (x : Pair) : (s.withPair x).engs = s.engs := rfl
@[simp] theorem State.withPair_stews (x : Pair) : (s.withPair x).stews = s.stews := rfl
@[simp] theorem State.withPair_clus (x : Pair) : (s.withPair x).clus = s.clus := rfl
@[simp] theorem State.withPair_pcie (x : Pair) : (s.withPair x).pcie = s.pcie := rfl
@[simp] theorem State.withPair_nv (x : Pair) : (s.withPair x).nv = s.nv := rfl
@[simp] theorem State.withPair_tick (x : Pair) : (s.withPair x).tick = s.tick := rfl
@[simp] theorem State.withPair_answer (x : Pair) : (s.withPair x).answer = s.answer := rfl
@[simp] theorem State.withPair_poison (x : Pair) : (s.withPair x).poison = s.poison := rfl
@[simp] theorem State.withPair_free (x : Pair) : (s.withPair x).free = s.free := rfl
@[simp] theorem State.withPair_sent (x : Pair) : (s.withPair x).sent = s.sent := rfl
@[simp] theorem State.withDue_pending (x : UMap Shadow) : (s.withDue x).pending = s.pending := rfl
@[simp] theorem State.withDue_regs (x : UMap Shadow) : (s.withDue x).regs = s.regs := rfl
@[simp] theorem State.withDue_act (x : UMap Shadow) : (s.withDue x).act = s.act := rfl
@[simp] theorem State.withDue_held (x : UMap Shadow) : (s.withDue x).held = s.held := rfl
@[simp] theorem State.withDue_frozen (x : UMap Shadow) : (s.withDue x).frozen = s.frozen := rfl
@[simp] theorem State.withDue_tbl (x : UMap Shadow) : (s.withDue x).tbl = s.tbl := rfl
@[simp] theorem State.withDue_mem (x : UMap Shadow) : (s.withDue x).mem = s.mem := rfl
@[simp] theorem State.withDue_hostMem (x : UMap Shadow) : (s.withDue x).hostMem = s.hostMem := rfl
@[simp] theorem State.withDue_adv (x : UMap Shadow) : (s.withDue x).adv = s.adv := rfl
@[simp] theorem State.withDue_alm (x : UMap Shadow) : (s.withDue x).alm = s.alm := rfl
@[simp] theorem State.withDue_fab (x : UMap Shadow) : (s.withDue x).fab = s.fab := rfl
@[simp] theorem State.withDue_flt (x : UMap Shadow) : (s.withDue x).flt = s.flt := rfl
@[simp] theorem State.withDue_pair (x : UMap Shadow) : (s.withDue x).pair = s.pair := rfl
@[simp] theorem State.withDue_linesUp (x : UMap Shadow) : (s.withDue x).linesUp = s.linesUp := rfl
@[simp] theorem State.withDue_camps (x : UMap Shadow) : (s.withDue x).camps = s.camps := rfl
@[simp] theorem State.withDue_cals (x : UMap Shadow) : (s.withDue x).cals = s.cals := rfl
@[simp] theorem State.withDue_twcs (x : UMap Shadow) : (s.withDue x).twcs = s.twcs := rfl
@[simp] theorem State.withDue_twt (x : UMap Shadow) : (s.withDue x).twt = s.twt := rfl
@[simp] theorem State.withDue_pipes (x : UMap Shadow) : (s.withDue x).pipes = s.pipes := rfl
@[simp] theorem State.withDue_mfes (x : UMap Shadow) : (s.withDue x).mfes = s.mfes := rfl
@[simp] theorem State.withDue_heads (x : UMap Shadow) : (s.withDue x).heads = s.heads := rfl
@[simp] theorem State.withDue_prds (x : UMap Shadow) : (s.withDue x).prds = s.prds := rfl
@[simp] theorem State.withDue_codec (x : UMap Shadow) : (s.withDue x).codec = s.codec := rfl
@[simp] theorem State.withDue_vccs (x : UMap Shadow) : (s.withDue x).vccs = s.vccs := rfl
@[simp] theorem State.withDue_time (x : UMap Shadow) : (s.withDue x).time = s.time := rfl
@[simp] theorem State.withDue_dchs (x : UMap Shadow) : (s.withDue x).dchs = s.dchs := rfl
@[simp] theorem State.withDue_masks (x : UMap Shadow) : (s.withDue x).masks = s.masks := rfl
@[simp] theorem State.withDue_dmas (x : UMap Shadow) : (s.withDue x).dmas = s.dmas := rfl
@[simp] theorem State.withDue_dmaRest (x : UMap Shadow) : (s.withDue x).dmaRest = s.dmaRest := rfl
@[simp] theorem State.withDue_axes (x : UMap Shadow) : (s.withDue x).axes = s.axes := rfl
@[simp] theorem State.withDue_emus (x : UMap Shadow) : (s.withDue x).emus = s.emus := rfl
@[simp] theorem State.withDue_poses (x : UMap Shadow) : (s.withDue x).poses = s.poses := rfl
@[simp] theorem State.withDue_quads (x : UMap Shadow) : (s.withDue x).quads = s.quads := rfl
@[simp] theorem State.withDue_procs (x : UMap Shadow) : (s.withDue x).procs = s.procs := rfl
@[simp] theorem State.withDue_auds (x : UMap Shadow) : (s.withDue x).auds = s.auds := rfl
@[simp] theorem State.withDue_thm (x : UMap Shadow) : (s.withDue x).thm = s.thm := rfl
@[simp] theorem State.withDue_engs (x : UMap Shadow) : (s.withDue x).engs = s.engs := rfl
@[simp] theorem State.withDue_stews (x : UMap Shadow) : (s.withDue x).stews = s.stews := rfl
@[simp] theorem State.withDue_clus (x : UMap Shadow) : (s.withDue x).clus = s.clus := rfl
@[simp] theorem State.withDue_pcie (x : UMap Shadow) : (s.withDue x).pcie = s.pcie := rfl
@[simp] theorem State.withDue_nv (x : UMap Shadow) : (s.withDue x).nv = s.nv := rfl
@[simp] theorem State.withDue_tick (x : UMap Shadow) : (s.withDue x).tick = s.tick := rfl
@[simp] theorem State.withDue_answer (x : UMap Shadow) : (s.withDue x).answer = s.answer := rfl
@[simp] theorem State.withDue_poison (x : UMap Shadow) : (s.withDue x).poison = s.poison := rfl
@[simp] theorem State.withDue_free (x : UMap Shadow) : (s.withDue x).free = s.free := rfl
@[simp] theorem State.withDue_sent (x : UMap Shadow) : (s.withDue x).sent = s.sent := rfl
@[simp] theorem State.withThm_pending (x : ThmU) : (s.withThm x).pending = s.pending := rfl
@[simp] theorem State.withThm_regs (x : ThmU) : (s.withThm x).regs = s.regs := rfl
@[simp] theorem State.withThm_act (x : ThmU) : (s.withThm x).act = s.act := rfl
@[simp] theorem State.withThm_due (x : ThmU) : (s.withThm x).due = s.due := rfl
@[simp] theorem State.withThm_held (x : ThmU) : (s.withThm x).held = s.held := rfl
@[simp] theorem State.withThm_frozen (x : ThmU) : (s.withThm x).frozen = s.frozen := rfl
@[simp] theorem State.withThm_tbl (x : ThmU) : (s.withThm x).tbl = s.tbl := rfl
@[simp] theorem State.withThm_mem (x : ThmU) : (s.withThm x).mem = s.mem := rfl
@[simp] theorem State.withThm_hostMem (x : ThmU) : (s.withThm x).hostMem = s.hostMem := rfl
@[simp] theorem State.withThm_adv (x : ThmU) : (s.withThm x).adv = s.adv := rfl
@[simp] theorem State.withThm_alm (x : ThmU) : (s.withThm x).alm = s.alm := rfl
@[simp] theorem State.withThm_fab (x : ThmU) : (s.withThm x).fab = s.fab := rfl
@[simp] theorem State.withThm_flt (x : ThmU) : (s.withThm x).flt = s.flt := rfl
@[simp] theorem State.withThm_pair (x : ThmU) : (s.withThm x).pair = s.pair := rfl
@[simp] theorem State.withThm_linesUp (x : ThmU) : (s.withThm x).linesUp = s.linesUp := rfl
@[simp] theorem State.withThm_camps (x : ThmU) : (s.withThm x).camps = s.camps := rfl
@[simp] theorem State.withThm_cals (x : ThmU) : (s.withThm x).cals = s.cals := rfl
@[simp] theorem State.withThm_twcs (x : ThmU) : (s.withThm x).twcs = s.twcs := rfl
@[simp] theorem State.withThm_twt (x : ThmU) : (s.withThm x).twt = s.twt := rfl
@[simp] theorem State.withThm_pipes (x : ThmU) : (s.withThm x).pipes = s.pipes := rfl
@[simp] theorem State.withThm_mfes (x : ThmU) : (s.withThm x).mfes = s.mfes := rfl
@[simp] theorem State.withThm_heads (x : ThmU) : (s.withThm x).heads = s.heads := rfl
@[simp] theorem State.withThm_prds (x : ThmU) : (s.withThm x).prds = s.prds := rfl
@[simp] theorem State.withThm_codec (x : ThmU) : (s.withThm x).codec = s.codec := rfl
@[simp] theorem State.withThm_vccs (x : ThmU) : (s.withThm x).vccs = s.vccs := rfl
@[simp] theorem State.withThm_time (x : ThmU) : (s.withThm x).time = s.time := rfl
@[simp] theorem State.withThm_dchs (x : ThmU) : (s.withThm x).dchs = s.dchs := rfl
@[simp] theorem State.withThm_masks (x : ThmU) : (s.withThm x).masks = s.masks := rfl
@[simp] theorem State.withThm_dmas (x : ThmU) : (s.withThm x).dmas = s.dmas := rfl
@[simp] theorem State.withThm_dmaRest (x : ThmU) : (s.withThm x).dmaRest = s.dmaRest := rfl
@[simp] theorem State.withThm_axes (x : ThmU) : (s.withThm x).axes = s.axes := rfl
@[simp] theorem State.withThm_emus (x : ThmU) : (s.withThm x).emus = s.emus := rfl
@[simp] theorem State.withThm_poses (x : ThmU) : (s.withThm x).poses = s.poses := rfl
@[simp] theorem State.withThm_quads (x : ThmU) : (s.withThm x).quads = s.quads := rfl
@[simp] theorem State.withThm_procs (x : ThmU) : (s.withThm x).procs = s.procs := rfl
@[simp] theorem State.withThm_auds (x : ThmU) : (s.withThm x).auds = s.auds := rfl
@[simp] theorem State.withThm_engs (x : ThmU) : (s.withThm x).engs = s.engs := rfl
@[simp] theorem State.withThm_stews (x : ThmU) : (s.withThm x).stews = s.stews := rfl
@[simp] theorem State.withThm_clus (x : ThmU) : (s.withThm x).clus = s.clus := rfl
@[simp] theorem State.withThm_pcie (x : ThmU) : (s.withThm x).pcie = s.pcie := rfl
@[simp] theorem State.withThm_nv (x : ThmU) : (s.withThm x).nv = s.nv := rfl
@[simp] theorem State.withThm_tick (x : ThmU) : (s.withThm x).tick = s.tick := rfl
@[simp] theorem State.withThm_answer (x : ThmU) : (s.withThm x).answer = s.answer := rfl
@[simp] theorem State.withThm_poison (x : ThmU) : (s.withThm x).poison = s.poison := rfl
@[simp] theorem State.withThm_free (x : ThmU) : (s.withThm x).free = s.free := rfl
@[simp] theorem State.withThm_sent (x : ThmU) : (s.withThm x).sent = s.sent := rfl
@[simp] theorem State.withAdv_pending (x : Adv) : (s.withAdv x).pending = s.pending := rfl
@[simp] theorem State.withAdv_regs (x : Adv) : (s.withAdv x).regs = s.regs := rfl
@[simp] theorem State.withAdv_act (x : Adv) : (s.withAdv x).act = s.act := rfl
@[simp] theorem State.withAdv_due (x : Adv) : (s.withAdv x).due = s.due := rfl
@[simp] theorem State.withAdv_held (x : Adv) : (s.withAdv x).held = s.held := rfl
@[simp] theorem State.withAdv_frozen (x : Adv) : (s.withAdv x).frozen = s.frozen := rfl
@[simp] theorem State.withAdv_tbl (x : Adv) : (s.withAdv x).tbl = s.tbl := rfl
@[simp] theorem State.withAdv_mem (x : Adv) : (s.withAdv x).mem = s.mem := rfl
@[simp] theorem State.withAdv_hostMem (x : Adv) : (s.withAdv x).hostMem = s.hostMem := rfl
@[simp] theorem State.withAdv_alm (x : Adv) : (s.withAdv x).alm = s.alm := rfl
@[simp] theorem State.withAdv_fab (x : Adv) : (s.withAdv x).fab = s.fab := rfl
@[simp] theorem State.withAdv_flt (x : Adv) : (s.withAdv x).flt = s.flt := rfl
@[simp] theorem State.withAdv_pair (x : Adv) : (s.withAdv x).pair = s.pair := rfl
@[simp] theorem State.withAdv_linesUp (x : Adv) : (s.withAdv x).linesUp = s.linesUp := rfl
@[simp] theorem State.withAdv_camps (x : Adv) : (s.withAdv x).camps = s.camps := rfl
@[simp] theorem State.withAdv_cals (x : Adv) : (s.withAdv x).cals = s.cals := rfl
@[simp] theorem State.withAdv_twcs (x : Adv) : (s.withAdv x).twcs = s.twcs := rfl
@[simp] theorem State.withAdv_twt (x : Adv) : (s.withAdv x).twt = s.twt := rfl
@[simp] theorem State.withAdv_pipes (x : Adv) : (s.withAdv x).pipes = s.pipes := rfl
@[simp] theorem State.withAdv_mfes (x : Adv) : (s.withAdv x).mfes = s.mfes := rfl
@[simp] theorem State.withAdv_heads (x : Adv) : (s.withAdv x).heads = s.heads := rfl
@[simp] theorem State.withAdv_prds (x : Adv) : (s.withAdv x).prds = s.prds := rfl
@[simp] theorem State.withAdv_codec (x : Adv) : (s.withAdv x).codec = s.codec := rfl
@[simp] theorem State.withAdv_vccs (x : Adv) : (s.withAdv x).vccs = s.vccs := rfl
@[simp] theorem State.withAdv_time (x : Adv) : (s.withAdv x).time = s.time := rfl
@[simp] theorem State.withAdv_dchs (x : Adv) : (s.withAdv x).dchs = s.dchs := rfl
@[simp] theorem State.withAdv_masks (x : Adv) : (s.withAdv x).masks = s.masks := rfl
@[simp] theorem State.withAdv_dmas (x : Adv) : (s.withAdv x).dmas = s.dmas := rfl
@[simp] theorem State.withAdv_dmaRest (x : Adv) : (s.withAdv x).dmaRest = s.dmaRest := rfl
@[simp] theorem State.withAdv_axes (x : Adv) : (s.withAdv x).axes = s.axes := rfl
@[simp] theorem State.withAdv_emus (x : Adv) : (s.withAdv x).emus = s.emus := rfl
@[simp] theorem State.withAdv_poses (x : Adv) : (s.withAdv x).poses = s.poses := rfl
@[simp] theorem State.withAdv_quads (x : Adv) : (s.withAdv x).quads = s.quads := rfl
@[simp] theorem State.withAdv_procs (x : Adv) : (s.withAdv x).procs = s.procs := rfl
@[simp] theorem State.withAdv_auds (x : Adv) : (s.withAdv x).auds = s.auds := rfl
@[simp] theorem State.withAdv_thm (x : Adv) : (s.withAdv x).thm = s.thm := rfl
@[simp] theorem State.withAdv_engs (x : Adv) : (s.withAdv x).engs = s.engs := rfl
@[simp] theorem State.withAdv_stews (x : Adv) : (s.withAdv x).stews = s.stews := rfl
@[simp] theorem State.withAdv_clus (x : Adv) : (s.withAdv x).clus = s.clus := rfl
@[simp] theorem State.withAdv_pcie (x : Adv) : (s.withAdv x).pcie = s.pcie := rfl
@[simp] theorem State.withAdv_nv (x : Adv) : (s.withAdv x).nv = s.nv := rfl
@[simp] theorem State.withAdv_tick (x : Adv) : (s.withAdv x).tick = s.tick := rfl
@[simp] theorem State.withAdv_answer (x : Adv) : (s.withAdv x).answer = s.answer := rfl
@[simp] theorem State.withAdv_poison (x : Adv) : (s.withAdv x).poison = s.poison := rfl
@[simp] theorem State.withAdv_free (x : Adv) : (s.withAdv x).free = s.free := rfl
@[simp] theorem State.withAdv_sent (x : Adv) : (s.withAdv x).sent = s.sent := rfl
@[simp] theorem State.withFab_pending (x : Fab) : (s.withFab x).pending = s.pending := rfl
@[simp] theorem State.withFab_regs (x : Fab) : (s.withFab x).regs = s.regs := rfl
@[simp] theorem State.withFab_act (x : Fab) : (s.withFab x).act = s.act := rfl
@[simp] theorem State.withFab_due (x : Fab) : (s.withFab x).due = s.due := rfl
@[simp] theorem State.withFab_held (x : Fab) : (s.withFab x).held = s.held := rfl
@[simp] theorem State.withFab_frozen (x : Fab) : (s.withFab x).frozen = s.frozen := rfl
@[simp] theorem State.withFab_tbl (x : Fab) : (s.withFab x).tbl = s.tbl := rfl
@[simp] theorem State.withFab_mem (x : Fab) : (s.withFab x).mem = s.mem := rfl
@[simp] theorem State.withFab_hostMem (x : Fab) : (s.withFab x).hostMem = s.hostMem := rfl
@[simp] theorem State.withFab_adv (x : Fab) : (s.withFab x).adv = s.adv := rfl
@[simp] theorem State.withFab_alm (x : Fab) : (s.withFab x).alm = s.alm := rfl
@[simp] theorem State.withFab_flt (x : Fab) : (s.withFab x).flt = s.flt := rfl
@[simp] theorem State.withFab_pair (x : Fab) : (s.withFab x).pair = s.pair := rfl
@[simp] theorem State.withFab_linesUp (x : Fab) : (s.withFab x).linesUp = s.linesUp := rfl
@[simp] theorem State.withFab_camps (x : Fab) : (s.withFab x).camps = s.camps := rfl
@[simp] theorem State.withFab_cals (x : Fab) : (s.withFab x).cals = s.cals := rfl
@[simp] theorem State.withFab_twcs (x : Fab) : (s.withFab x).twcs = s.twcs := rfl
@[simp] theorem State.withFab_twt (x : Fab) : (s.withFab x).twt = s.twt := rfl
@[simp] theorem State.withFab_pipes (x : Fab) : (s.withFab x).pipes = s.pipes := rfl
@[simp] theorem State.withFab_mfes (x : Fab) : (s.withFab x).mfes = s.mfes := rfl
@[simp] theorem State.withFab_heads (x : Fab) : (s.withFab x).heads = s.heads := rfl
@[simp] theorem State.withFab_prds (x : Fab) : (s.withFab x).prds = s.prds := rfl
@[simp] theorem State.withFab_codec (x : Fab) : (s.withFab x).codec = s.codec := rfl
@[simp] theorem State.withFab_vccs (x : Fab) : (s.withFab x).vccs = s.vccs := rfl
@[simp] theorem State.withFab_time (x : Fab) : (s.withFab x).time = s.time := rfl
@[simp] theorem State.withFab_dchs (x : Fab) : (s.withFab x).dchs = s.dchs := rfl
@[simp] theorem State.withFab_masks (x : Fab) : (s.withFab x).masks = s.masks := rfl
@[simp] theorem State.withFab_dmas (x : Fab) : (s.withFab x).dmas = s.dmas := rfl
@[simp] theorem State.withFab_dmaRest (x : Fab) : (s.withFab x).dmaRest = s.dmaRest := rfl
@[simp] theorem State.withFab_axes (x : Fab) : (s.withFab x).axes = s.axes := rfl
@[simp] theorem State.withFab_emus (x : Fab) : (s.withFab x).emus = s.emus := rfl
@[simp] theorem State.withFab_poses (x : Fab) : (s.withFab x).poses = s.poses := rfl
@[simp] theorem State.withFab_quads (x : Fab) : (s.withFab x).quads = s.quads := rfl
@[simp] theorem State.withFab_procs (x : Fab) : (s.withFab x).procs = s.procs := rfl
@[simp] theorem State.withFab_auds (x : Fab) : (s.withFab x).auds = s.auds := rfl
@[simp] theorem State.withFab_thm (x : Fab) : (s.withFab x).thm = s.thm := rfl
@[simp] theorem State.withFab_engs (x : Fab) : (s.withFab x).engs = s.engs := rfl
@[simp] theorem State.withFab_stews (x : Fab) : (s.withFab x).stews = s.stews := rfl
@[simp] theorem State.withFab_clus (x : Fab) : (s.withFab x).clus = s.clus := rfl
@[simp] theorem State.withFab_pcie (x : Fab) : (s.withFab x).pcie = s.pcie := rfl
@[simp] theorem State.withFab_nv (x : Fab) : (s.withFab x).nv = s.nv := rfl
@[simp] theorem State.withFab_tick (x : Fab) : (s.withFab x).tick = s.tick := rfl
@[simp] theorem State.withFab_answer (x : Fab) : (s.withFab x).answer = s.answer := rfl
@[simp] theorem State.withFab_poison (x : Fab) : (s.withFab x).poison = s.poison := rfl
@[simp] theorem State.withFab_free (x : Fab) : (s.withFab x).free = s.free := rfl
@[simp] theorem State.withFab_sent (x : Fab) : (s.withFab x).sent = s.sent := rfl
@[simp] theorem State.withFlt_pending (x : Flt) : (s.withFlt x).pending = s.pending := rfl
@[simp] theorem State.withFlt_regs (x : Flt) : (s.withFlt x).regs = s.regs := rfl
@[simp] theorem State.withFlt_act (x : Flt) : (s.withFlt x).act = s.act := rfl
@[simp] theorem State.withFlt_due (x : Flt) : (s.withFlt x).due = s.due := rfl
@[simp] theorem State.withFlt_held (x : Flt) : (s.withFlt x).held = s.held := rfl
@[simp] theorem State.withFlt_frozen (x : Flt) : (s.withFlt x).frozen = s.frozen := rfl
@[simp] theorem State.withFlt_tbl (x : Flt) : (s.withFlt x).tbl = s.tbl := rfl
@[simp] theorem State.withFlt_mem (x : Flt) : (s.withFlt x).mem = s.mem := rfl
@[simp] theorem State.withFlt_hostMem (x : Flt) : (s.withFlt x).hostMem = s.hostMem := rfl
@[simp] theorem State.withFlt_adv (x : Flt) : (s.withFlt x).adv = s.adv := rfl
@[simp] theorem State.withFlt_alm (x : Flt) : (s.withFlt x).alm = s.alm := rfl
@[simp] theorem State.withFlt_fab (x : Flt) : (s.withFlt x).fab = s.fab := rfl
@[simp] theorem State.withFlt_pair (x : Flt) : (s.withFlt x).pair = s.pair := rfl
@[simp] theorem State.withFlt_linesUp (x : Flt) : (s.withFlt x).linesUp = s.linesUp := rfl
@[simp] theorem State.withFlt_camps (x : Flt) : (s.withFlt x).camps = s.camps := rfl
@[simp] theorem State.withFlt_cals (x : Flt) : (s.withFlt x).cals = s.cals := rfl
@[simp] theorem State.withFlt_twcs (x : Flt) : (s.withFlt x).twcs = s.twcs := rfl
@[simp] theorem State.withFlt_twt (x : Flt) : (s.withFlt x).twt = s.twt := rfl
@[simp] theorem State.withFlt_pipes (x : Flt) : (s.withFlt x).pipes = s.pipes := rfl
@[simp] theorem State.withFlt_mfes (x : Flt) : (s.withFlt x).mfes = s.mfes := rfl
@[simp] theorem State.withFlt_heads (x : Flt) : (s.withFlt x).heads = s.heads := rfl
@[simp] theorem State.withFlt_prds (x : Flt) : (s.withFlt x).prds = s.prds := rfl
@[simp] theorem State.withFlt_codec (x : Flt) : (s.withFlt x).codec = s.codec := rfl
@[simp] theorem State.withFlt_vccs (x : Flt) : (s.withFlt x).vccs = s.vccs := rfl
@[simp] theorem State.withFlt_time (x : Flt) : (s.withFlt x).time = s.time := rfl
@[simp] theorem State.withFlt_dchs (x : Flt) : (s.withFlt x).dchs = s.dchs := rfl
@[simp] theorem State.withFlt_masks (x : Flt) : (s.withFlt x).masks = s.masks := rfl
@[simp] theorem State.withFlt_dmas (x : Flt) : (s.withFlt x).dmas = s.dmas := rfl
@[simp] theorem State.withFlt_dmaRest (x : Flt) : (s.withFlt x).dmaRest = s.dmaRest := rfl
@[simp] theorem State.withFlt_axes (x : Flt) : (s.withFlt x).axes = s.axes := rfl
@[simp] theorem State.withFlt_emus (x : Flt) : (s.withFlt x).emus = s.emus := rfl
@[simp] theorem State.withFlt_poses (x : Flt) : (s.withFlt x).poses = s.poses := rfl
@[simp] theorem State.withFlt_quads (x : Flt) : (s.withFlt x).quads = s.quads := rfl
@[simp] theorem State.withFlt_procs (x : Flt) : (s.withFlt x).procs = s.procs := rfl
@[simp] theorem State.withFlt_auds (x : Flt) : (s.withFlt x).auds = s.auds := rfl
@[simp] theorem State.withFlt_thm (x : Flt) : (s.withFlt x).thm = s.thm := rfl
@[simp] theorem State.withFlt_engs (x : Flt) : (s.withFlt x).engs = s.engs := rfl
@[simp] theorem State.withFlt_stews (x : Flt) : (s.withFlt x).stews = s.stews := rfl
@[simp] theorem State.withFlt_clus (x : Flt) : (s.withFlt x).clus = s.clus := rfl
@[simp] theorem State.withFlt_pcie (x : Flt) : (s.withFlt x).pcie = s.pcie := rfl
@[simp] theorem State.withFlt_nv (x : Flt) : (s.withFlt x).nv = s.nv := rfl
@[simp] theorem State.withFlt_tick (x : Flt) : (s.withFlt x).tick = s.tick := rfl
@[simp] theorem State.withFlt_answer (x : Flt) : (s.withFlt x).answer = s.answer := rfl
@[simp] theorem State.withFlt_poison (x : Flt) : (s.withFlt x).poison = s.poison := rfl
@[simp] theorem State.withFlt_free (x : Flt) : (s.withFlt x).free = s.free := rfl
@[simp] theorem State.withFlt_sent (x : Flt) : (s.withFlt x).sent = s.sent := rfl
@[simp] theorem State.withHeld_pending (x : UMap Shadow) : (s.withHeld x).pending = s.pending := rfl
@[simp] theorem State.withHeld_regs (x : UMap Shadow) : (s.withHeld x).regs = s.regs := rfl
@[simp] theorem State.withHeld_act (x : UMap Shadow) : (s.withHeld x).act = s.act := rfl
@[simp] theorem State.withHeld_due (x : UMap Shadow) : (s.withHeld x).due = s.due := rfl
@[simp] theorem State.withHeld_frozen (x : UMap Shadow) : (s.withHeld x).frozen = s.frozen := rfl
@[simp] theorem State.withHeld_tbl (x : UMap Shadow) : (s.withHeld x).tbl = s.tbl := rfl
@[simp] theorem State.withHeld_mem (x : UMap Shadow) : (s.withHeld x).mem = s.mem := rfl
@[simp] theorem State.withHeld_hostMem (x : UMap Shadow) : (s.withHeld x).hostMem = s.hostMem := rfl
@[simp] theorem State.withHeld_adv (x : UMap Shadow) : (s.withHeld x).adv = s.adv := rfl
@[simp] theorem State.withHeld_alm (x : UMap Shadow) : (s.withHeld x).alm = s.alm := rfl
@[simp] theorem State.withHeld_fab (x : UMap Shadow) : (s.withHeld x).fab = s.fab := rfl
@[simp] theorem State.withHeld_flt (x : UMap Shadow) : (s.withHeld x).flt = s.flt := rfl
@[simp] theorem State.withHeld_pair (x : UMap Shadow) : (s.withHeld x).pair = s.pair := rfl
@[simp] theorem State.withHeld_linesUp (x : UMap Shadow) : (s.withHeld x).linesUp = s.linesUp := rfl
@[simp] theorem State.withHeld_camps (x : UMap Shadow) : (s.withHeld x).camps = s.camps := rfl
@[simp] theorem State.withHeld_cals (x : UMap Shadow) : (s.withHeld x).cals = s.cals := rfl
@[simp] theorem State.withHeld_twcs (x : UMap Shadow) : (s.withHeld x).twcs = s.twcs := rfl
@[simp] theorem State.withHeld_twt (x : UMap Shadow) : (s.withHeld x).twt = s.twt := rfl
@[simp] theorem State.withHeld_pipes (x : UMap Shadow) : (s.withHeld x).pipes = s.pipes := rfl
@[simp] theorem State.withHeld_mfes (x : UMap Shadow) : (s.withHeld x).mfes = s.mfes := rfl
@[simp] theorem State.withHeld_heads (x : UMap Shadow) : (s.withHeld x).heads = s.heads := rfl
@[simp] theorem State.withHeld_prds (x : UMap Shadow) : (s.withHeld x).prds = s.prds := rfl
@[simp] theorem State.withHeld_codec (x : UMap Shadow) : (s.withHeld x).codec = s.codec := rfl
@[simp] theorem State.withHeld_vccs (x : UMap Shadow) : (s.withHeld x).vccs = s.vccs := rfl
@[simp] theorem State.withHeld_time (x : UMap Shadow) : (s.withHeld x).time = s.time := rfl
@[simp] theorem State.withHeld_dchs (x : UMap Shadow) : (s.withHeld x).dchs = s.dchs := rfl
@[simp] theorem State.withHeld_masks (x : UMap Shadow) : (s.withHeld x).masks = s.masks := rfl
@[simp] theorem State.withHeld_dmas (x : UMap Shadow) : (s.withHeld x).dmas = s.dmas := rfl
@[simp] theorem State.withHeld_dmaRest (x : UMap Shadow) : (s.withHeld x).dmaRest = s.dmaRest := rfl
@[simp] theorem State.withHeld_axes (x : UMap Shadow) : (s.withHeld x).axes = s.axes := rfl
@[simp] theorem State.withHeld_emus (x : UMap Shadow) : (s.withHeld x).emus = s.emus := rfl
@[simp] theorem State.withHeld_poses (x : UMap Shadow) : (s.withHeld x).poses = s.poses := rfl
@[simp] theorem State.withHeld_quads (x : UMap Shadow) : (s.withHeld x).quads = s.quads := rfl
@[simp] theorem State.withHeld_procs (x : UMap Shadow) : (s.withHeld x).procs = s.procs := rfl
@[simp] theorem State.withHeld_auds (x : UMap Shadow) : (s.withHeld x).auds = s.auds := rfl
@[simp] theorem State.withHeld_thm (x : UMap Shadow) : (s.withHeld x).thm = s.thm := rfl
@[simp] theorem State.withHeld_engs (x : UMap Shadow) : (s.withHeld x).engs = s.engs := rfl
@[simp] theorem State.withHeld_stews (x : UMap Shadow) : (s.withHeld x).stews = s.stews := rfl
@[simp] theorem State.withHeld_clus (x : UMap Shadow) : (s.withHeld x).clus = s.clus := rfl
@[simp] theorem State.withHeld_pcie (x : UMap Shadow) : (s.withHeld x).pcie = s.pcie := rfl
@[simp] theorem State.withHeld_nv (x : UMap Shadow) : (s.withHeld x).nv = s.nv := rfl
@[simp] theorem State.withHeld_tick (x : UMap Shadow) : (s.withHeld x).tick = s.tick := rfl
@[simp] theorem State.withHeld_answer (x : UMap Shadow) : (s.withHeld x).answer = s.answer := rfl
@[simp] theorem State.withHeld_poison (x : UMap Shadow) : (s.withHeld x).poison = s.poison := rfl
@[simp] theorem State.withHeld_free (x : UMap Shadow) : (s.withHeld x).free = s.free := rfl
@[simp] theorem State.withHeld_sent (x : UMap Shadow) : (s.withHeld x).sent = s.sent := rfl
@[simp] theorem State.withCodec_pending (x : Codec) : (s.withCodec x).pending = s.pending := rfl
@[simp] theorem State.withCodec_regs (x : Codec) : (s.withCodec x).regs = s.regs := rfl
@[simp] theorem State.withCodec_act (x : Codec) : (s.withCodec x).act = s.act := rfl
@[simp] theorem State.withCodec_due (x : Codec) : (s.withCodec x).due = s.due := rfl
@[simp] theorem State.withCodec_held (x : Codec) : (s.withCodec x).held = s.held := rfl
@[simp] theorem State.withCodec_frozen (x : Codec) : (s.withCodec x).frozen = s.frozen := rfl
@[simp] theorem State.withCodec_tbl (x : Codec) : (s.withCodec x).tbl = s.tbl := rfl
@[simp] theorem State.withCodec_mem (x : Codec) : (s.withCodec x).mem = s.mem := rfl
@[simp] theorem State.withCodec_hostMem (x : Codec) : (s.withCodec x).hostMem = s.hostMem := rfl
@[simp] theorem State.withCodec_adv (x : Codec) : (s.withCodec x).adv = s.adv := rfl
@[simp] theorem State.withCodec_alm (x : Codec) : (s.withCodec x).alm = s.alm := rfl
@[simp] theorem State.withCodec_fab (x : Codec) : (s.withCodec x).fab = s.fab := rfl
@[simp] theorem State.withCodec_flt (x : Codec) : (s.withCodec x).flt = s.flt := rfl
@[simp] theorem State.withCodec_pair (x : Codec) : (s.withCodec x).pair = s.pair := rfl
@[simp] theorem State.withCodec_linesUp (x : Codec) : (s.withCodec x).linesUp = s.linesUp := rfl
@[simp] theorem State.withCodec_camps (x : Codec) : (s.withCodec x).camps = s.camps := rfl
@[simp] theorem State.withCodec_cals (x : Codec) : (s.withCodec x).cals = s.cals := rfl
@[simp] theorem State.withCodec_twcs (x : Codec) : (s.withCodec x).twcs = s.twcs := rfl
@[simp] theorem State.withCodec_twt (x : Codec) : (s.withCodec x).twt = s.twt := rfl
@[simp] theorem State.withCodec_pipes (x : Codec) : (s.withCodec x).pipes = s.pipes := rfl
@[simp] theorem State.withCodec_mfes (x : Codec) : (s.withCodec x).mfes = s.mfes := rfl
@[simp] theorem State.withCodec_heads (x : Codec) : (s.withCodec x).heads = s.heads := rfl
@[simp] theorem State.withCodec_prds (x : Codec) : (s.withCodec x).prds = s.prds := rfl
@[simp] theorem State.withCodec_vccs (x : Codec) : (s.withCodec x).vccs = s.vccs := rfl
@[simp] theorem State.withCodec_time (x : Codec) : (s.withCodec x).time = s.time := rfl
@[simp] theorem State.withCodec_dchs (x : Codec) : (s.withCodec x).dchs = s.dchs := rfl
@[simp] theorem State.withCodec_masks (x : Codec) : (s.withCodec x).masks = s.masks := rfl
@[simp] theorem State.withCodec_dmas (x : Codec) : (s.withCodec x).dmas = s.dmas := rfl
@[simp] theorem State.withCodec_dmaRest (x : Codec) : (s.withCodec x).dmaRest = s.dmaRest := rfl
@[simp] theorem State.withCodec_axes (x : Codec) : (s.withCodec x).axes = s.axes := rfl
@[simp] theorem State.withCodec_emus (x : Codec) : (s.withCodec x).emus = s.emus := rfl
@[simp] theorem State.withCodec_poses (x : Codec) : (s.withCodec x).poses = s.poses := rfl
@[simp] theorem State.withCodec_quads (x : Codec) : (s.withCodec x).quads = s.quads := rfl
@[simp] theorem State.withCodec_procs (x : Codec) : (s.withCodec x).procs = s.procs := rfl
@[simp] theorem State.withCodec_auds (x : Codec) : (s.withCodec x).auds = s.auds := rfl
@[simp] theorem State.withCodec_thm (x : Codec) : (s.withCodec x).thm = s.thm := rfl
@[simp] theorem State.withCodec_engs (x : Codec) : (s.withCodec x).engs = s.engs := rfl
@[simp] theorem State.withCodec_stews (x : Codec) : (s.withCodec x).stews = s.stews := rfl
@[simp] theorem State.withCodec_clus (x : Codec) : (s.withCodec x).clus = s.clus := rfl
@[simp] theorem State.withCodec_pcie (x : Codec) : (s.withCodec x).pcie = s.pcie := rfl
@[simp] theorem State.withCodec_nv (x : Codec) : (s.withCodec x).nv = s.nv := rfl
@[simp] theorem State.withCodec_tick (x : Codec) : (s.withCodec x).tick = s.tick := rfl
@[simp] theorem State.withCodec_answer (x : Codec) : (s.withCodec x).answer = s.answer := rfl
@[simp] theorem State.withCodec_poison (x : Codec) : (s.withCodec x).poison = s.poison := rfl
@[simp] theorem State.withCodec_free (x : Codec) : (s.withCodec x).free = s.free := rfl
@[simp] theorem State.withCodec_sent (x : Codec) : (s.withCodec x).sent = s.sent := rfl
@[simp] theorem State.withPcie_pending (x : PcieU) : (s.withPcie x).pending = s.pending := rfl
@[simp] theorem State.withPcie_regs (x : PcieU) : (s.withPcie x).regs = s.regs := rfl
@[simp] theorem State.withPcie_act (x : PcieU) : (s.withPcie x).act = s.act := rfl
@[simp] theorem State.withPcie_due (x : PcieU) : (s.withPcie x).due = s.due := rfl
@[simp] theorem State.withPcie_held (x : PcieU) : (s.withPcie x).held = s.held := rfl
@[simp] theorem State.withPcie_frozen (x : PcieU) : (s.withPcie x).frozen = s.frozen := rfl
@[simp] theorem State.withPcie_tbl (x : PcieU) : (s.withPcie x).tbl = s.tbl := rfl
@[simp] theorem State.withPcie_mem (x : PcieU) : (s.withPcie x).mem = s.mem := rfl
@[simp] theorem State.withPcie_hostMem (x : PcieU) : (s.withPcie x).hostMem = s.hostMem := rfl
@[simp] theorem State.withPcie_adv (x : PcieU) : (s.withPcie x).adv = s.adv := rfl
@[simp] theorem State.withPcie_alm (x : PcieU) : (s.withPcie x).alm = s.alm := rfl
@[simp] theorem State.withPcie_fab (x : PcieU) : (s.withPcie x).fab = s.fab := rfl
@[simp] theorem State.withPcie_flt (x : PcieU) : (s.withPcie x).flt = s.flt := rfl
@[simp] theorem State.withPcie_pair (x : PcieU) : (s.withPcie x).pair = s.pair := rfl
@[simp] theorem State.withPcie_linesUp (x : PcieU) : (s.withPcie x).linesUp = s.linesUp := rfl
@[simp] theorem State.withPcie_camps (x : PcieU) : (s.withPcie x).camps = s.camps := rfl
@[simp] theorem State.withPcie_cals (x : PcieU) : (s.withPcie x).cals = s.cals := rfl
@[simp] theorem State.withPcie_twcs (x : PcieU) : (s.withPcie x).twcs = s.twcs := rfl
@[simp] theorem State.withPcie_twt (x : PcieU) : (s.withPcie x).twt = s.twt := rfl
@[simp] theorem State.withPcie_pipes (x : PcieU) : (s.withPcie x).pipes = s.pipes := rfl
@[simp] theorem State.withPcie_mfes (x : PcieU) : (s.withPcie x).mfes = s.mfes := rfl
@[simp] theorem State.withPcie_heads (x : PcieU) : (s.withPcie x).heads = s.heads := rfl
@[simp] theorem State.withPcie_prds (x : PcieU) : (s.withPcie x).prds = s.prds := rfl
@[simp] theorem State.withPcie_codec (x : PcieU) : (s.withPcie x).codec = s.codec := rfl
@[simp] theorem State.withPcie_vccs (x : PcieU) : (s.withPcie x).vccs = s.vccs := rfl
@[simp] theorem State.withPcie_time (x : PcieU) : (s.withPcie x).time = s.time := rfl
@[simp] theorem State.withPcie_dchs (x : PcieU) : (s.withPcie x).dchs = s.dchs := rfl
@[simp] theorem State.withPcie_masks (x : PcieU) : (s.withPcie x).masks = s.masks := rfl
@[simp] theorem State.withPcie_dmas (x : PcieU) : (s.withPcie x).dmas = s.dmas := rfl
@[simp] theorem State.withPcie_dmaRest (x : PcieU) : (s.withPcie x).dmaRest = s.dmaRest := rfl
@[simp] theorem State.withPcie_axes (x : PcieU) : (s.withPcie x).axes = s.axes := rfl
@[simp] theorem State.withPcie_emus (x : PcieU) : (s.withPcie x).emus = s.emus := rfl
@[simp] theorem State.withPcie_poses (x : PcieU) : (s.withPcie x).poses = s.poses := rfl
@[simp] theorem State.withPcie_quads (x : PcieU) : (s.withPcie x).quads = s.quads := rfl
@[simp] theorem State.withPcie_procs (x : PcieU) : (s.withPcie x).procs = s.procs := rfl
@[simp] theorem State.withPcie_auds (x : PcieU) : (s.withPcie x).auds = s.auds := rfl
@[simp] theorem State.withPcie_thm (x : PcieU) : (s.withPcie x).thm = s.thm := rfl
@[simp] theorem State.withPcie_engs (x : PcieU) : (s.withPcie x).engs = s.engs := rfl
@[simp] theorem State.withPcie_stews (x : PcieU) : (s.withPcie x).stews = s.stews := rfl
@[simp] theorem State.withPcie_clus (x : PcieU) : (s.withPcie x).clus = s.clus := rfl
@[simp] theorem State.withPcie_nv (x : PcieU) : (s.withPcie x).nv = s.nv := rfl
@[simp] theorem State.withPcie_tick (x : PcieU) : (s.withPcie x).tick = s.tick := rfl
@[simp] theorem State.withPcie_answer (x : PcieU) : (s.withPcie x).answer = s.answer := rfl
@[simp] theorem State.withPcie_poison (x : PcieU) : (s.withPcie x).poison = s.poison := rfl
@[simp] theorem State.withPcie_free (x : PcieU) : (s.withPcie x).free = s.free := rfl
@[simp] theorem State.withPcie_sent (x : PcieU) : (s.withPcie x).sent = s.sent := rfl
@[simp] theorem State.withAct_pending (x : UMap Word) : (s.withAct x).pending = s.pending := rfl
@[simp] theorem State.withAct_regs (x : UMap Word) : (s.withAct x).regs = s.regs := rfl
@[simp] theorem State.withAct_due (x : UMap Word) : (s.withAct x).due = s.due := rfl
@[simp] theorem State.withAct_held (x : UMap Word) : (s.withAct x).held = s.held := rfl
@[simp] theorem State.withAct_frozen (x : UMap Word) : (s.withAct x).frozen = s.frozen := rfl
@[simp] theorem State.withAct_tbl (x : UMap Word) : (s.withAct x).tbl = s.tbl := rfl
@[simp] theorem State.withAct_mem (x : UMap Word) : (s.withAct x).mem = s.mem := rfl
@[simp] theorem State.withAct_hostMem (x : UMap Word) : (s.withAct x).hostMem = s.hostMem := rfl
@[simp] theorem State.withAct_adv (x : UMap Word) : (s.withAct x).adv = s.adv := rfl
@[simp] theorem State.withAct_alm (x : UMap Word) : (s.withAct x).alm = s.alm := rfl
@[simp] theorem State.withAct_fab (x : UMap Word) : (s.withAct x).fab = s.fab := rfl
@[simp] theorem State.withAct_flt (x : UMap Word) : (s.withAct x).flt = s.flt := rfl
@[simp] theorem State.withAct_pair (x : UMap Word) : (s.withAct x).pair = s.pair := rfl
@[simp] theorem State.withAct_linesUp (x : UMap Word) : (s.withAct x).linesUp = s.linesUp := rfl
@[simp] theorem State.withAct_camps (x : UMap Word) : (s.withAct x).camps = s.camps := rfl
@[simp] theorem State.withAct_cals (x : UMap Word) : (s.withAct x).cals = s.cals := rfl
@[simp] theorem State.withAct_twcs (x : UMap Word) : (s.withAct x).twcs = s.twcs := rfl
@[simp] theorem State.withAct_twt (x : UMap Word) : (s.withAct x).twt = s.twt := rfl
@[simp] theorem State.withAct_pipes (x : UMap Word) : (s.withAct x).pipes = s.pipes := rfl
@[simp] theorem State.withAct_mfes (x : UMap Word) : (s.withAct x).mfes = s.mfes := rfl
@[simp] theorem State.withAct_heads (x : UMap Word) : (s.withAct x).heads = s.heads := rfl
@[simp] theorem State.withAct_prds (x : UMap Word) : (s.withAct x).prds = s.prds := rfl
@[simp] theorem State.withAct_codec (x : UMap Word) : (s.withAct x).codec = s.codec := rfl
@[simp] theorem State.withAct_vccs (x : UMap Word) : (s.withAct x).vccs = s.vccs := rfl
@[simp] theorem State.withAct_time (x : UMap Word) : (s.withAct x).time = s.time := rfl
@[simp] theorem State.withAct_dchs (x : UMap Word) : (s.withAct x).dchs = s.dchs := rfl
@[simp] theorem State.withAct_masks (x : UMap Word) : (s.withAct x).masks = s.masks := rfl
@[simp] theorem State.withAct_dmas (x : UMap Word) : (s.withAct x).dmas = s.dmas := rfl
@[simp] theorem State.withAct_dmaRest (x : UMap Word) : (s.withAct x).dmaRest = s.dmaRest := rfl
@[simp] theorem State.withAct_axes (x : UMap Word) : (s.withAct x).axes = s.axes := rfl
@[simp] theorem State.withAct_emus (x : UMap Word) : (s.withAct x).emus = s.emus := rfl
@[simp] theorem State.withAct_poses (x : UMap Word) : (s.withAct x).poses = s.poses := rfl
@[simp] theorem State.withAct_quads (x : UMap Word) : (s.withAct x).quads = s.quads := rfl
@[simp] theorem State.withAct_procs (x : UMap Word) : (s.withAct x).procs = s.procs := rfl
@[simp] theorem State.withAct_auds (x : UMap Word) : (s.withAct x).auds = s.auds := rfl
@[simp] theorem State.withAct_thm (x : UMap Word) : (s.withAct x).thm = s.thm := rfl
@[simp] theorem State.withAct_engs (x : UMap Word) : (s.withAct x).engs = s.engs := rfl
@[simp] theorem State.withAct_stews (x : UMap Word) : (s.withAct x).stews = s.stews := rfl
@[simp] theorem State.withAct_clus (x : UMap Word) : (s.withAct x).clus = s.clus := rfl
@[simp] theorem State.withAct_pcie (x : UMap Word) : (s.withAct x).pcie = s.pcie := rfl
@[simp] theorem State.withAct_nv (x : UMap Word) : (s.withAct x).nv = s.nv := rfl
@[simp] theorem State.withAct_tick (x : UMap Word) : (s.withAct x).tick = s.tick := rfl
@[simp] theorem State.withAct_answer (x : UMap Word) : (s.withAct x).answer = s.answer := rfl
@[simp] theorem State.withAct_poison (x : UMap Word) : (s.withAct x).poison = s.poison := rfl
@[simp] theorem State.withAct_free (x : UMap Word) : (s.withAct x).free = s.free := rfl
@[simp] theorem State.withAct_sent (x : UMap Word) : (s.withAct x).sent = s.sent := rfl
@[simp] theorem State.withNv_pending (x : NvU) : (s.withNv x).pending = s.pending := rfl
@[simp] theorem State.withNv_regs (x : NvU) : (s.withNv x).regs = s.regs := rfl
@[simp] theorem State.withNv_act (x : NvU) : (s.withNv x).act = s.act := rfl
@[simp] theorem State.withNv_due (x : NvU) : (s.withNv x).due = s.due := rfl
@[simp] theorem State.withNv_held (x : NvU) : (s.withNv x).held = s.held := rfl
@[simp] theorem State.withNv_frozen (x : NvU) : (s.withNv x).frozen = s.frozen := rfl
@[simp] theorem State.withNv_tbl (x : NvU) : (s.withNv x).tbl = s.tbl := rfl
@[simp] theorem State.withNv_mem (x : NvU) : (s.withNv x).mem = s.mem := rfl
@[simp] theorem State.withNv_hostMem (x : NvU) : (s.withNv x).hostMem = s.hostMem := rfl
@[simp] theorem State.withNv_adv (x : NvU) : (s.withNv x).adv = s.adv := rfl
@[simp] theorem State.withNv_alm (x : NvU) : (s.withNv x).alm = s.alm := rfl
@[simp] theorem State.withNv_fab (x : NvU) : (s.withNv x).fab = s.fab := rfl
@[simp] theorem State.withNv_flt (x : NvU) : (s.withNv x).flt = s.flt := rfl
@[simp] theorem State.withNv_pair (x : NvU) : (s.withNv x).pair = s.pair := rfl
@[simp] theorem State.withNv_linesUp (x : NvU) : (s.withNv x).linesUp = s.linesUp := rfl
@[simp] theorem State.withNv_camps (x : NvU) : (s.withNv x).camps = s.camps := rfl
@[simp] theorem State.withNv_cals (x : NvU) : (s.withNv x).cals = s.cals := rfl
@[simp] theorem State.withNv_twcs (x : NvU) : (s.withNv x).twcs = s.twcs := rfl
@[simp] theorem State.withNv_twt (x : NvU) : (s.withNv x).twt = s.twt := rfl
@[simp] theorem State.withNv_pipes (x : NvU) : (s.withNv x).pipes = s.pipes := rfl
@[simp] theorem State.withNv_mfes (x : NvU) : (s.withNv x).mfes = s.mfes := rfl
@[simp] theorem State.withNv_heads (x : NvU) : (s.withNv x).heads = s.heads := rfl
@[simp] theorem State.withNv_prds (x : NvU) : (s.withNv x).prds = s.prds := rfl
@[simp] theorem State.withNv_codec (x : NvU) : (s.withNv x).codec = s.codec := rfl
@[simp] theorem State.withNv_vccs (x : NvU) : (s.withNv x).vccs = s.vccs := rfl
@[simp] theorem State.withNv_time (x : NvU) : (s.withNv x).time = s.time := rfl
@[simp] theorem State.withNv_dchs (x : NvU) : (s.withNv x).dchs = s.dchs := rfl
@[simp] theorem State.withNv_masks (x : NvU) : (s.withNv x).masks = s.masks := rfl
@[simp] theorem State.withNv_dmas (x : NvU) : (s.withNv x).dmas = s.dmas := rfl
@[simp] theorem State.withNv_dmaRest (x : NvU) : (s.withNv x).dmaRest = s.dmaRest := rfl
@[simp] theorem State.withNv_axes (x : NvU) : (s.withNv x).axes = s.axes := rfl
@[simp] theorem State.withNv_emus (x : NvU) : (s.withNv x).emus = s.emus := rfl
@[simp] theorem State.withNv_poses (x : NvU) : (s.withNv x).poses = s.poses := rfl
@[simp] theorem State.withNv_quads (x : NvU) : (s.withNv x).quads = s.quads := rfl
@[simp] theorem State.withNv_procs (x : NvU) : (s.withNv x).procs = s.procs := rfl
@[simp] theorem State.withNv_auds (x : NvU) : (s.withNv x).auds = s.auds := rfl
@[simp] theorem State.withNv_thm (x : NvU) : (s.withNv x).thm = s.thm := rfl
@[simp] theorem State.withNv_engs (x : NvU) : (s.withNv x).engs = s.engs := rfl
@[simp] theorem State.withNv_stews (x : NvU) : (s.withNv x).stews = s.stews := rfl
@[simp] theorem State.withNv_clus (x : NvU) : (s.withNv x).clus = s.clus := rfl
@[simp] theorem State.withNv_pcie (x : NvU) : (s.withNv x).pcie = s.pcie := rfl
@[simp] theorem State.withNv_tick (x : NvU) : (s.withNv x).tick = s.tick := rfl
@[simp] theorem State.withNv_answer (x : NvU) : (s.withNv x).answer = s.answer := rfl
@[simp] theorem State.withNv_poison (x : NvU) : (s.withNv x).poison = s.poison := rfl
@[simp] theorem State.withNv_free (x : NvU) : (s.withNv x).free = s.free := rfl
@[simp] theorem State.withNv_sent (x : NvU) : (s.withNv x).sent = s.sent := rfl
@[simp] theorem State.withDmaRest_pending (x : Nat) : (s.withDmaRest x).pending = s.pending := rfl
@[simp] theorem State.withDmaRest_regs (x : Nat) : (s.withDmaRest x).regs = s.regs := rfl
@[simp] theorem State.withDmaRest_act (x : Nat) : (s.withDmaRest x).act = s.act := rfl
@[simp] theorem State.withDmaRest_due (x : Nat) : (s.withDmaRest x).due = s.due := rfl
@[simp] theorem State.withDmaRest_held (x : Nat) : (s.withDmaRest x).held = s.held := rfl
@[simp] theorem State.withDmaRest_frozen (x : Nat) : (s.withDmaRest x).frozen = s.frozen := rfl
@[simp] theorem State.withDmaRest_tbl (x : Nat) : (s.withDmaRest x).tbl = s.tbl := rfl
@[simp] theorem State.withDmaRest_mem (x : Nat) : (s.withDmaRest x).mem = s.mem := rfl
@[simp] theorem State.withDmaRest_hostMem (x : Nat) : (s.withDmaRest x).hostMem = s.hostMem := rfl
@[simp] theorem State.withDmaRest_adv (x : Nat) : (s.withDmaRest x).adv = s.adv := rfl
@[simp] theorem State.withDmaRest_alm (x : Nat) : (s.withDmaRest x).alm = s.alm := rfl
@[simp] theorem State.withDmaRest_fab (x : Nat) : (s.withDmaRest x).fab = s.fab := rfl
@[simp] theorem State.withDmaRest_flt (x : Nat) : (s.withDmaRest x).flt = s.flt := rfl
@[simp] theorem State.withDmaRest_pair (x : Nat) : (s.withDmaRest x).pair = s.pair := rfl
@[simp] theorem State.withDmaRest_linesUp (x : Nat) : (s.withDmaRest x).linesUp = s.linesUp := rfl
@[simp] theorem State.withDmaRest_camps (x : Nat) : (s.withDmaRest x).camps = s.camps := rfl
@[simp] theorem State.withDmaRest_cals (x : Nat) : (s.withDmaRest x).cals = s.cals := rfl
@[simp] theorem State.withDmaRest_twcs (x : Nat) : (s.withDmaRest x).twcs = s.twcs := rfl
@[simp] theorem State.withDmaRest_twt (x : Nat) : (s.withDmaRest x).twt = s.twt := rfl
@[simp] theorem State.withDmaRest_pipes (x : Nat) : (s.withDmaRest x).pipes = s.pipes := rfl
@[simp] theorem State.withDmaRest_mfes (x : Nat) : (s.withDmaRest x).mfes = s.mfes := rfl
@[simp] theorem State.withDmaRest_heads (x : Nat) : (s.withDmaRest x).heads = s.heads := rfl
@[simp] theorem State.withDmaRest_prds (x : Nat) : (s.withDmaRest x).prds = s.prds := rfl
@[simp] theorem State.withDmaRest_codec (x : Nat) : (s.withDmaRest x).codec = s.codec := rfl
@[simp] theorem State.withDmaRest_vccs (x : Nat) : (s.withDmaRest x).vccs = s.vccs := rfl
@[simp] theorem State.withDmaRest_time (x : Nat) : (s.withDmaRest x).time = s.time := rfl
@[simp] theorem State.withDmaRest_dchs (x : Nat) : (s.withDmaRest x).dchs = s.dchs := rfl
@[simp] theorem State.withDmaRest_masks (x : Nat) : (s.withDmaRest x).masks = s.masks := rfl
@[simp] theorem State.withDmaRest_dmas (x : Nat) : (s.withDmaRest x).dmas = s.dmas := rfl
@[simp] theorem State.withDmaRest_axes (x : Nat) : (s.withDmaRest x).axes = s.axes := rfl
@[simp] theorem State.withDmaRest_emus (x : Nat) : (s.withDmaRest x).emus = s.emus := rfl
@[simp] theorem State.withDmaRest_poses (x : Nat) : (s.withDmaRest x).poses = s.poses := rfl
@[simp] theorem State.withDmaRest_quads (x : Nat) : (s.withDmaRest x).quads = s.quads := rfl
@[simp] theorem State.withDmaRest_procs (x : Nat) : (s.withDmaRest x).procs = s.procs := rfl
@[simp] theorem State.withDmaRest_auds (x : Nat) : (s.withDmaRest x).auds = s.auds := rfl
@[simp] theorem State.withDmaRest_thm (x : Nat) : (s.withDmaRest x).thm = s.thm := rfl
@[simp] theorem State.withDmaRest_engs (x : Nat) : (s.withDmaRest x).engs = s.engs := rfl
@[simp] theorem State.withDmaRest_stews (x : Nat) : (s.withDmaRest x).stews = s.stews := rfl
@[simp] theorem State.withDmaRest_clus (x : Nat) : (s.withDmaRest x).clus = s.clus := rfl
@[simp] theorem State.withDmaRest_pcie (x : Nat) : (s.withDmaRest x).pcie = s.pcie := rfl
@[simp] theorem State.withDmaRest_nv (x : Nat) : (s.withDmaRest x).nv = s.nv := rfl
@[simp] theorem State.withDmaRest_tick (x : Nat) : (s.withDmaRest x).tick = s.tick := rfl
@[simp] theorem State.withDmaRest_answer (x : Nat) : (s.withDmaRest x).answer = s.answer := rfl
@[simp] theorem State.withDmaRest_poison (x : Nat) : (s.withDmaRest x).poison = s.poison := rfl
@[simp] theorem State.withDmaRest_free (x : Nat) : (s.withDmaRest x).free = s.free := rfl
@[simp] theorem State.withDmaRest_sent (x : Nat) : (s.withDmaRest x).sent = s.sent := rfl
@[simp] theorem State.withMasks_pending (x : DramMasks) : (s.withMasks x).pending = s.pending := rfl
@[simp] theorem State.withMasks_regs (x : DramMasks) : (s.withMasks x).regs = s.regs := rfl
@[simp] theorem State.withMasks_act (x : DramMasks) : (s.withMasks x).act = s.act := rfl
@[simp] theorem State.withMasks_due (x : DramMasks) : (s.withMasks x).due = s.due := rfl
@[simp] theorem State.withMasks_held (x : DramMasks) : (s.withMasks x).held = s.held := rfl
@[simp] theorem State.withMasks_frozen (x : DramMasks) : (s.withMasks x).frozen = s.frozen := rfl
@[simp] theorem State.withMasks_tbl (x : DramMasks) : (s.withMasks x).tbl = s.tbl := rfl
@[simp] theorem State.withMasks_mem (x : DramMasks) : (s.withMasks x).mem = s.mem := rfl
@[simp] theorem State.withMasks_hostMem (x : DramMasks) : (s.withMasks x).hostMem = s.hostMem := rfl
@[simp] theorem State.withMasks_adv (x : DramMasks) : (s.withMasks x).adv = s.adv := rfl
@[simp] theorem State.withMasks_alm (x : DramMasks) : (s.withMasks x).alm = s.alm := rfl
@[simp] theorem State.withMasks_fab (x : DramMasks) : (s.withMasks x).fab = s.fab := rfl
@[simp] theorem State.withMasks_flt (x : DramMasks) : (s.withMasks x).flt = s.flt := rfl
@[simp] theorem State.withMasks_pair (x : DramMasks) : (s.withMasks x).pair = s.pair := rfl
@[simp] theorem State.withMasks_linesUp (x : DramMasks) : (s.withMasks x).linesUp = s.linesUp := rfl
@[simp] theorem State.withMasks_camps (x : DramMasks) : (s.withMasks x).camps = s.camps := rfl
@[simp] theorem State.withMasks_cals (x : DramMasks) : (s.withMasks x).cals = s.cals := rfl
@[simp] theorem State.withMasks_twcs (x : DramMasks) : (s.withMasks x).twcs = s.twcs := rfl
@[simp] theorem State.withMasks_twt (x : DramMasks) : (s.withMasks x).twt = s.twt := rfl
@[simp] theorem State.withMasks_pipes (x : DramMasks) : (s.withMasks x).pipes = s.pipes := rfl
@[simp] theorem State.withMasks_mfes (x : DramMasks) : (s.withMasks x).mfes = s.mfes := rfl
@[simp] theorem State.withMasks_heads (x : DramMasks) : (s.withMasks x).heads = s.heads := rfl
@[simp] theorem State.withMasks_prds (x : DramMasks) : (s.withMasks x).prds = s.prds := rfl
@[simp] theorem State.withMasks_codec (x : DramMasks) : (s.withMasks x).codec = s.codec := rfl
@[simp] theorem State.withMasks_vccs (x : DramMasks) : (s.withMasks x).vccs = s.vccs := rfl
@[simp] theorem State.withMasks_time (x : DramMasks) : (s.withMasks x).time = s.time := rfl
@[simp] theorem State.withMasks_dchs (x : DramMasks) : (s.withMasks x).dchs = s.dchs := rfl
@[simp] theorem State.withMasks_dmas (x : DramMasks) : (s.withMasks x).dmas = s.dmas := rfl
@[simp] theorem State.withMasks_dmaRest (x : DramMasks) : (s.withMasks x).dmaRest = s.dmaRest := rfl
@[simp] theorem State.withMasks_axes (x : DramMasks) : (s.withMasks x).axes = s.axes := rfl
@[simp] theorem State.withMasks_emus (x : DramMasks) : (s.withMasks x).emus = s.emus := rfl
@[simp] theorem State.withMasks_poses (x : DramMasks) : (s.withMasks x).poses = s.poses := rfl
@[simp] theorem State.withMasks_quads (x : DramMasks) : (s.withMasks x).quads = s.quads := rfl
@[simp] theorem State.withMasks_procs (x : DramMasks) : (s.withMasks x).procs = s.procs := rfl
@[simp] theorem State.withMasks_auds (x : DramMasks) : (s.withMasks x).auds = s.auds := rfl
@[simp] theorem State.withMasks_thm (x : DramMasks) : (s.withMasks x).thm = s.thm := rfl
@[simp] theorem State.withMasks_engs (x : DramMasks) : (s.withMasks x).engs = s.engs := rfl
@[simp] theorem State.withMasks_stews (x : DramMasks) : (s.withMasks x).stews = s.stews := rfl
@[simp] theorem State.withMasks_clus (x : DramMasks) : (s.withMasks x).clus = s.clus := rfl
@[simp] theorem State.withMasks_pcie (x : DramMasks) : (s.withMasks x).pcie = s.pcie := rfl
@[simp] theorem State.withMasks_nv (x : DramMasks) : (s.withMasks x).nv = s.nv := rfl
@[simp] theorem State.withMasks_tick (x : DramMasks) : (s.withMasks x).tick = s.tick := rfl
@[simp] theorem State.withMasks_answer (x : DramMasks) : (s.withMasks x).answer = s.answer := rfl
@[simp] theorem State.withMasks_poison (x : DramMasks) : (s.withMasks x).poison = s.poison := rfl
@[simp] theorem State.withMasks_free (x : DramMasks) : (s.withMasks x).free = s.free := rfl
@[simp] theorem State.withMasks_sent (x : DramMasks) : (s.withMasks x).sent = s.sent := rfl
@[simp] theorem State.withFrozen_pending (x : List Nat) : (s.withFrozen x).pending = s.pending := rfl
@[simp] theorem State.withFrozen_regs (x : List Nat) : (s.withFrozen x).regs = s.regs := rfl
@[simp] theorem State.withFrozen_act (x : List Nat) : (s.withFrozen x).act = s.act := rfl
@[simp] theorem State.withFrozen_due (x : List Nat) : (s.withFrozen x).due = s.due := rfl
@[simp] theorem State.withFrozen_held (x : List Nat) : (s.withFrozen x).held = s.held := rfl
@[simp] theorem State.withFrozen_tbl (x : List Nat) : (s.withFrozen x).tbl = s.tbl := rfl
@[simp] theorem State.withFrozen_mem (x : List Nat) : (s.withFrozen x).mem = s.mem := rfl
@[simp] theorem State.withFrozen_hostMem (x : List Nat) : (s.withFrozen x).hostMem = s.hostMem := rfl
@[simp] theorem State.withFrozen_adv (x : List Nat) : (s.withFrozen x).adv = s.adv := rfl
@[simp] theorem State.withFrozen_alm (x : List Nat) : (s.withFrozen x).alm = s.alm := rfl
@[simp] theorem State.withFrozen_fab (x : List Nat) : (s.withFrozen x).fab = s.fab := rfl
@[simp] theorem State.withFrozen_flt (x : List Nat) : (s.withFrozen x).flt = s.flt := rfl
@[simp] theorem State.withFrozen_pair (x : List Nat) : (s.withFrozen x).pair = s.pair := rfl
@[simp] theorem State.withFrozen_linesUp (x : List Nat) : (s.withFrozen x).linesUp = s.linesUp := rfl
@[simp] theorem State.withFrozen_camps (x : List Nat) : (s.withFrozen x).camps = s.camps := rfl
@[simp] theorem State.withFrozen_cals (x : List Nat) : (s.withFrozen x).cals = s.cals := rfl
@[simp] theorem State.withFrozen_twcs (x : List Nat) : (s.withFrozen x).twcs = s.twcs := rfl
@[simp] theorem State.withFrozen_twt (x : List Nat) : (s.withFrozen x).twt = s.twt := rfl
@[simp] theorem State.withFrozen_pipes (x : List Nat) : (s.withFrozen x).pipes = s.pipes := rfl
@[simp] theorem State.withFrozen_mfes (x : List Nat) : (s.withFrozen x).mfes = s.mfes := rfl
@[simp] theorem State.withFrozen_heads (x : List Nat) : (s.withFrozen x).heads = s.heads := rfl
@[simp] theorem State.withFrozen_prds (x : List Nat) : (s.withFrozen x).prds = s.prds := rfl
@[simp] theorem State.withFrozen_codec (x : List Nat) : (s.withFrozen x).codec = s.codec := rfl
@[simp] theorem State.withFrozen_vccs (x : List Nat) : (s.withFrozen x).vccs = s.vccs := rfl
@[simp] theorem State.withFrozen_time (x : List Nat) : (s.withFrozen x).time = s.time := rfl
@[simp] theorem State.withFrozen_dchs (x : List Nat) : (s.withFrozen x).dchs = s.dchs := rfl
@[simp] theorem State.withFrozen_masks (x : List Nat) : (s.withFrozen x).masks = s.masks := rfl
@[simp] theorem State.withFrozen_dmas (x : List Nat) : (s.withFrozen x).dmas = s.dmas := rfl
@[simp] theorem State.withFrozen_dmaRest (x : List Nat) : (s.withFrozen x).dmaRest = s.dmaRest := rfl
@[simp] theorem State.withFrozen_axes (x : List Nat) : (s.withFrozen x).axes = s.axes := rfl
@[simp] theorem State.withFrozen_emus (x : List Nat) : (s.withFrozen x).emus = s.emus := rfl
@[simp] theorem State.withFrozen_poses (x : List Nat) : (s.withFrozen x).poses = s.poses := rfl
@[simp] theorem State.withFrozen_quads (x : List Nat) : (s.withFrozen x).quads = s.quads := rfl
@[simp] theorem State.withFrozen_procs (x : List Nat) : (s.withFrozen x).procs = s.procs := rfl
@[simp] theorem State.withFrozen_auds (x : List Nat) : (s.withFrozen x).auds = s.auds := rfl
@[simp] theorem State.withFrozen_thm (x : List Nat) : (s.withFrozen x).thm = s.thm := rfl
@[simp] theorem State.withFrozen_engs (x : List Nat) : (s.withFrozen x).engs = s.engs := rfl
@[simp] theorem State.withFrozen_stews (x : List Nat) : (s.withFrozen x).stews = s.stews := rfl
@[simp] theorem State.withFrozen_clus (x : List Nat) : (s.withFrozen x).clus = s.clus := rfl
@[simp] theorem State.withFrozen_pcie (x : List Nat) : (s.withFrozen x).pcie = s.pcie := rfl
@[simp] theorem State.withFrozen_nv (x : List Nat) : (s.withFrozen x).nv = s.nv := rfl
@[simp] theorem State.withFrozen_tick (x : List Nat) : (s.withFrozen x).tick = s.tick := rfl
@[simp] theorem State.withFrozen_answer (x : List Nat) : (s.withFrozen x).answer = s.answer := rfl
@[simp] theorem State.withFrozen_poison (x : List Nat) : (s.withFrozen x).poison = s.poison := rfl
@[simp] theorem State.withFrozen_free (x : List Nat) : (s.withFrozen x).free = s.free := rfl
@[simp] theorem State.withFrozen_sent (x : List Nat) : (s.withFrozen x).sent = s.sent := rfl
@[simp] theorem State.withLinesUp_pending (x : List Nat) : (s.withLinesUp x).pending = s.pending := rfl
@[simp] theorem State.withLinesUp_regs (x : List Nat) : (s.withLinesUp x).regs = s.regs := rfl
@[simp] theorem State.withLinesUp_act (x : List Nat) : (s.withLinesUp x).act = s.act := rfl
@[simp] theorem State.withLinesUp_due (x : List Nat) : (s.withLinesUp x).due = s.due := rfl
@[simp] theorem State.withLinesUp_held (x : List Nat) : (s.withLinesUp x).held = s.held := rfl
@[simp] theorem State.withLinesUp_frozen (x : List Nat) : (s.withLinesUp x).frozen = s.frozen := rfl
@[simp] theorem State.withLinesUp_tbl (x : List Nat) : (s.withLinesUp x).tbl = s.tbl := rfl
@[simp] theorem State.withLinesUp_mem (x : List Nat) : (s.withLinesUp x).mem = s.mem := rfl
@[simp] theorem State.withLinesUp_hostMem (x : List Nat) : (s.withLinesUp x).hostMem = s.hostMem := rfl
@[simp] theorem State.withLinesUp_adv (x : List Nat) : (s.withLinesUp x).adv = s.adv := rfl
@[simp] theorem State.withLinesUp_alm (x : List Nat) : (s.withLinesUp x).alm = s.alm := rfl
@[simp] theorem State.withLinesUp_fab (x : List Nat) : (s.withLinesUp x).fab = s.fab := rfl
@[simp] theorem State.withLinesUp_flt (x : List Nat) : (s.withLinesUp x).flt = s.flt := rfl
@[simp] theorem State.withLinesUp_pair (x : List Nat) : (s.withLinesUp x).pair = s.pair := rfl
@[simp] theorem State.withLinesUp_camps (x : List Nat) : (s.withLinesUp x).camps = s.camps := rfl
@[simp] theorem State.withLinesUp_cals (x : List Nat) : (s.withLinesUp x).cals = s.cals := rfl
@[simp] theorem State.withLinesUp_twcs (x : List Nat) : (s.withLinesUp x).twcs = s.twcs := rfl
@[simp] theorem State.withLinesUp_twt (x : List Nat) : (s.withLinesUp x).twt = s.twt := rfl
@[simp] theorem State.withLinesUp_pipes (x : List Nat) : (s.withLinesUp x).pipes = s.pipes := rfl
@[simp] theorem State.withLinesUp_mfes (x : List Nat) : (s.withLinesUp x).mfes = s.mfes := rfl
@[simp] theorem State.withLinesUp_heads (x : List Nat) : (s.withLinesUp x).heads = s.heads := rfl
@[simp] theorem State.withLinesUp_prds (x : List Nat) : (s.withLinesUp x).prds = s.prds := rfl
@[simp] theorem State.withLinesUp_codec (x : List Nat) : (s.withLinesUp x).codec = s.codec := rfl
@[simp] theorem State.withLinesUp_vccs (x : List Nat) : (s.withLinesUp x).vccs = s.vccs := rfl
@[simp] theorem State.withLinesUp_time (x : List Nat) : (s.withLinesUp x).time = s.time := rfl
@[simp] theorem State.withLinesUp_dchs (x : List Nat) : (s.withLinesUp x).dchs = s.dchs := rfl
@[simp] theorem State.withLinesUp_masks (x : List Nat) : (s.withLinesUp x).masks = s.masks := rfl
@[simp] theorem State.withLinesUp_dmas (x : List Nat) : (s.withLinesUp x).dmas = s.dmas := rfl
@[simp] theorem State.withLinesUp_dmaRest (x : List Nat) : (s.withLinesUp x).dmaRest = s.dmaRest := rfl
@[simp] theorem State.withLinesUp_axes (x : List Nat) : (s.withLinesUp x).axes = s.axes := rfl
@[simp] theorem State.withLinesUp_emus (x : List Nat) : (s.withLinesUp x).emus = s.emus := rfl
@[simp] theorem State.withLinesUp_poses (x : List Nat) : (s.withLinesUp x).poses = s.poses := rfl
@[simp] theorem State.withLinesUp_quads (x : List Nat) : (s.withLinesUp x).quads = s.quads := rfl
@[simp] theorem State.withLinesUp_procs (x : List Nat) : (s.withLinesUp x).procs = s.procs := rfl
@[simp] theorem State.withLinesUp_auds (x : List Nat) : (s.withLinesUp x).auds = s.auds := rfl
@[simp] theorem State.withLinesUp_thm (x : List Nat) : (s.withLinesUp x).thm = s.thm := rfl
@[simp] theorem State.withLinesUp_engs (x : List Nat) : (s.withLinesUp x).engs = s.engs := rfl
@[simp] theorem State.withLinesUp_stews (x : List Nat) : (s.withLinesUp x).stews = s.stews := rfl
@[simp] theorem State.withLinesUp_clus (x : List Nat) : (s.withLinesUp x).clus = s.clus := rfl
@[simp] theorem State.withLinesUp_pcie (x : List Nat) : (s.withLinesUp x).pcie = s.pcie := rfl
@[simp] theorem State.withLinesUp_nv (x : List Nat) : (s.withLinesUp x).nv = s.nv := rfl
@[simp] theorem State.withLinesUp_tick (x : List Nat) : (s.withLinesUp x).tick = s.tick := rfl
@[simp] theorem State.withLinesUp_answer (x : List Nat) : (s.withLinesUp x).answer = s.answer := rfl
@[simp] theorem State.withLinesUp_poison (x : List Nat) : (s.withLinesUp x).poison = s.poison := rfl
@[simp] theorem State.withLinesUp_free (x : List Nat) : (s.withLinesUp x).free = s.free := rfl
@[simp] theorem State.withLinesUp_sent (x : List Nat) : (s.withLinesUp x).sent = s.sent := rfl
@[simp] theorem State.setCamp_pending (k : Nat) (u : Camp) : (s.setCamp k u).pending = s.pending := rfl
@[simp] theorem State.setCamp_regs (k : Nat) (u : Camp) : (s.setCamp k u).regs = s.regs := rfl
@[simp] theorem State.setCamp_act (k : Nat) (u : Camp) : (s.setCamp k u).act = s.act := rfl
@[simp] theorem State.setCamp_due (k : Nat) (u : Camp) : (s.setCamp k u).due = s.due := rfl
@[simp] theorem State.setCamp_held (k : Nat) (u : Camp) : (s.setCamp k u).held = s.held := rfl
@[simp] theorem State.setCamp_frozen (k : Nat) (u : Camp) : (s.setCamp k u).frozen = s.frozen := rfl
@[simp] theorem State.setCamp_tbl (k : Nat) (u : Camp) : (s.setCamp k u).tbl = s.tbl := rfl
@[simp] theorem State.setCamp_mem (k : Nat) (u : Camp) : (s.setCamp k u).mem = s.mem := rfl
@[simp] theorem State.setCamp_hostMem (k : Nat) (u : Camp) : (s.setCamp k u).hostMem = s.hostMem := rfl
@[simp] theorem State.setCamp_adv (k : Nat) (u : Camp) : (s.setCamp k u).adv = s.adv := rfl
@[simp] theorem State.setCamp_alm (k : Nat) (u : Camp) : (s.setCamp k u).alm = s.alm := rfl
@[simp] theorem State.setCamp_fab (k : Nat) (u : Camp) : (s.setCamp k u).fab = s.fab := rfl
@[simp] theorem State.setCamp_flt (k : Nat) (u : Camp) : (s.setCamp k u).flt = s.flt := rfl
@[simp] theorem State.setCamp_pair (k : Nat) (u : Camp) : (s.setCamp k u).pair = s.pair := rfl
@[simp] theorem State.setCamp_linesUp (k : Nat) (u : Camp) : (s.setCamp k u).linesUp = s.linesUp := rfl
@[simp] theorem State.setCamp_cals (k : Nat) (u : Camp) : (s.setCamp k u).cals = s.cals := rfl
@[simp] theorem State.setCamp_twcs (k : Nat) (u : Camp) : (s.setCamp k u).twcs = s.twcs := rfl
@[simp] theorem State.setCamp_twt (k : Nat) (u : Camp) : (s.setCamp k u).twt = s.twt := rfl
@[simp] theorem State.setCamp_pipes (k : Nat) (u : Camp) : (s.setCamp k u).pipes = s.pipes := rfl
@[simp] theorem State.setCamp_mfes (k : Nat) (u : Camp) : (s.setCamp k u).mfes = s.mfes := rfl
@[simp] theorem State.setCamp_heads (k : Nat) (u : Camp) : (s.setCamp k u).heads = s.heads := rfl
@[simp] theorem State.setCamp_prds (k : Nat) (u : Camp) : (s.setCamp k u).prds = s.prds := rfl
@[simp] theorem State.setCamp_codec (k : Nat) (u : Camp) : (s.setCamp k u).codec = s.codec := rfl
@[simp] theorem State.setCamp_vccs (k : Nat) (u : Camp) : (s.setCamp k u).vccs = s.vccs := rfl
@[simp] theorem State.setCamp_time (k : Nat) (u : Camp) : (s.setCamp k u).time = s.time := rfl
@[simp] theorem State.setCamp_dchs (k : Nat) (u : Camp) : (s.setCamp k u).dchs = s.dchs := rfl
@[simp] theorem State.setCamp_masks (k : Nat) (u : Camp) : (s.setCamp k u).masks = s.masks := rfl
@[simp] theorem State.setCamp_dmas (k : Nat) (u : Camp) : (s.setCamp k u).dmas = s.dmas := rfl
@[simp] theorem State.setCamp_dmaRest (k : Nat) (u : Camp) : (s.setCamp k u).dmaRest = s.dmaRest := rfl
@[simp] theorem State.setCamp_axes (k : Nat) (u : Camp) : (s.setCamp k u).axes = s.axes := rfl
@[simp] theorem State.setCamp_emus (k : Nat) (u : Camp) : (s.setCamp k u).emus = s.emus := rfl
@[simp] theorem State.setCamp_poses (k : Nat) (u : Camp) : (s.setCamp k u).poses = s.poses := rfl
@[simp] theorem State.setCamp_quads (k : Nat) (u : Camp) : (s.setCamp k u).quads = s.quads := rfl
@[simp] theorem State.setCamp_procs (k : Nat) (u : Camp) : (s.setCamp k u).procs = s.procs := rfl
@[simp] theorem State.setCamp_auds (k : Nat) (u : Camp) : (s.setCamp k u).auds = s.auds := rfl
@[simp] theorem State.setCamp_thm (k : Nat) (u : Camp) : (s.setCamp k u).thm = s.thm := rfl
@[simp] theorem State.setCamp_engs (k : Nat) (u : Camp) : (s.setCamp k u).engs = s.engs := rfl
@[simp] theorem State.setCamp_stews (k : Nat) (u : Camp) : (s.setCamp k u).stews = s.stews := rfl
@[simp] theorem State.setCamp_clus (k : Nat) (u : Camp) : (s.setCamp k u).clus = s.clus := rfl
@[simp] theorem State.setCamp_pcie (k : Nat) (u : Camp) : (s.setCamp k u).pcie = s.pcie := rfl
@[simp] theorem State.setCamp_nv (k : Nat) (u : Camp) : (s.setCamp k u).nv = s.nv := rfl
@[simp] theorem State.setCamp_tick (k : Nat) (u : Camp) : (s.setCamp k u).tick = s.tick := rfl
@[simp] theorem State.setCamp_answer (k : Nat) (u : Camp) : (s.setCamp k u).answer = s.answer := rfl
@[simp] theorem State.setCamp_poison (k : Nat) (u : Camp) : (s.setCamp k u).poison = s.poison := rfl
@[simp] theorem State.setCamp_free (k : Nat) (u : Camp) : (s.setCamp k u).free = s.free := rfl
@[simp] theorem State.setCamp_sent (k : Nat) (u : Camp) : (s.setCamp k u).sent = s.sent := rfl
@[simp] theorem State.setCal_pending (k : Nat) (u : Cal) : (s.setCal k u).pending = s.pending := rfl
@[simp] theorem State.setCal_regs (k : Nat) (u : Cal) : (s.setCal k u).regs = s.regs := rfl
@[simp] theorem State.setCal_act (k : Nat) (u : Cal) : (s.setCal k u).act = s.act := rfl
@[simp] theorem State.setCal_due (k : Nat) (u : Cal) : (s.setCal k u).due = s.due := rfl
@[simp] theorem State.setCal_held (k : Nat) (u : Cal) : (s.setCal k u).held = s.held := rfl
@[simp] theorem State.setCal_frozen (k : Nat) (u : Cal) : (s.setCal k u).frozen = s.frozen := rfl
@[simp] theorem State.setCal_tbl (k : Nat) (u : Cal) : (s.setCal k u).tbl = s.tbl := rfl
@[simp] theorem State.setCal_mem (k : Nat) (u : Cal) : (s.setCal k u).mem = s.mem := rfl
@[simp] theorem State.setCal_hostMem (k : Nat) (u : Cal) : (s.setCal k u).hostMem = s.hostMem := rfl
@[simp] theorem State.setCal_adv (k : Nat) (u : Cal) : (s.setCal k u).adv = s.adv := rfl
@[simp] theorem State.setCal_alm (k : Nat) (u : Cal) : (s.setCal k u).alm = s.alm := rfl
@[simp] theorem State.setCal_fab (k : Nat) (u : Cal) : (s.setCal k u).fab = s.fab := rfl
@[simp] theorem State.setCal_flt (k : Nat) (u : Cal) : (s.setCal k u).flt = s.flt := rfl
@[simp] theorem State.setCal_pair (k : Nat) (u : Cal) : (s.setCal k u).pair = s.pair := rfl
@[simp] theorem State.setCal_linesUp (k : Nat) (u : Cal) : (s.setCal k u).linesUp = s.linesUp := rfl
@[simp] theorem State.setCal_camps (k : Nat) (u : Cal) : (s.setCal k u).camps = s.camps := rfl
@[simp] theorem State.setCal_twcs (k : Nat) (u : Cal) : (s.setCal k u).twcs = s.twcs := rfl
@[simp] theorem State.setCal_twt (k : Nat) (u : Cal) : (s.setCal k u).twt = s.twt := rfl
@[simp] theorem State.setCal_pipes (k : Nat) (u : Cal) : (s.setCal k u).pipes = s.pipes := rfl
@[simp] theorem State.setCal_mfes (k : Nat) (u : Cal) : (s.setCal k u).mfes = s.mfes := rfl
@[simp] theorem State.setCal_heads (k : Nat) (u : Cal) : (s.setCal k u).heads = s.heads := rfl
@[simp] theorem State.setCal_prds (k : Nat) (u : Cal) : (s.setCal k u).prds = s.prds := rfl
@[simp] theorem State.setCal_codec (k : Nat) (u : Cal) : (s.setCal k u).codec = s.codec := rfl
@[simp] theorem State.setCal_vccs (k : Nat) (u : Cal) : (s.setCal k u).vccs = s.vccs := rfl
@[simp] theorem State.setCal_time (k : Nat) (u : Cal) : (s.setCal k u).time = s.time := rfl
@[simp] theorem State.setCal_dchs (k : Nat) (u : Cal) : (s.setCal k u).dchs = s.dchs := rfl
@[simp] theorem State.setCal_masks (k : Nat) (u : Cal) : (s.setCal k u).masks = s.masks := rfl
@[simp] theorem State.setCal_dmas (k : Nat) (u : Cal) : (s.setCal k u).dmas = s.dmas := rfl
@[simp] theorem State.setCal_dmaRest (k : Nat) (u : Cal) : (s.setCal k u).dmaRest = s.dmaRest := rfl
@[simp] theorem State.setCal_axes (k : Nat) (u : Cal) : (s.setCal k u).axes = s.axes := rfl
@[simp] theorem State.setCal_emus (k : Nat) (u : Cal) : (s.setCal k u).emus = s.emus := rfl
@[simp] theorem State.setCal_poses (k : Nat) (u : Cal) : (s.setCal k u).poses = s.poses := rfl
@[simp] theorem State.setCal_quads (k : Nat) (u : Cal) : (s.setCal k u).quads = s.quads := rfl
@[simp] theorem State.setCal_procs (k : Nat) (u : Cal) : (s.setCal k u).procs = s.procs := rfl
@[simp] theorem State.setCal_auds (k : Nat) (u : Cal) : (s.setCal k u).auds = s.auds := rfl
@[simp] theorem State.setCal_thm (k : Nat) (u : Cal) : (s.setCal k u).thm = s.thm := rfl
@[simp] theorem State.setCal_engs (k : Nat) (u : Cal) : (s.setCal k u).engs = s.engs := rfl
@[simp] theorem State.setCal_stews (k : Nat) (u : Cal) : (s.setCal k u).stews = s.stews := rfl
@[simp] theorem State.setCal_clus (k : Nat) (u : Cal) : (s.setCal k u).clus = s.clus := rfl
@[simp] theorem State.setCal_pcie (k : Nat) (u : Cal) : (s.setCal k u).pcie = s.pcie := rfl
@[simp] theorem State.setCal_nv (k : Nat) (u : Cal) : (s.setCal k u).nv = s.nv := rfl
@[simp] theorem State.setCal_tick (k : Nat) (u : Cal) : (s.setCal k u).tick = s.tick := rfl
@[simp] theorem State.setCal_answer (k : Nat) (u : Cal) : (s.setCal k u).answer = s.answer := rfl
@[simp] theorem State.setCal_poison (k : Nat) (u : Cal) : (s.setCal k u).poison = s.poison := rfl
@[simp] theorem State.setCal_free (k : Nat) (u : Cal) : (s.setCal k u).free = s.free := rfl
@[simp] theorem State.setCal_sent (k : Nat) (u : Cal) : (s.setCal k u).sent = s.sent := rfl
@[simp] theorem State.setTwc_pending (k : Nat) (u : Twc) : (s.setTwc k u).pending = s.pending := rfl
@[simp] theorem State.setTwc_regs (k : Nat) (u : Twc) : (s.setTwc k u).regs = s.regs := rfl
@[simp] theorem State.setTwc_act (k : Nat) (u : Twc) : (s.setTwc k u).act = s.act := rfl
@[simp] theorem State.setTwc_due (k : Nat) (u : Twc) : (s.setTwc k u).due = s.due := rfl
@[simp] theorem State.setTwc_held (k : Nat) (u : Twc) : (s.setTwc k u).held = s.held := rfl
@[simp] theorem State.setTwc_frozen (k : Nat) (u : Twc) : (s.setTwc k u).frozen = s.frozen := rfl
@[simp] theorem State.setTwc_tbl (k : Nat) (u : Twc) : (s.setTwc k u).tbl = s.tbl := rfl
@[simp] theorem State.setTwc_mem (k : Nat) (u : Twc) : (s.setTwc k u).mem = s.mem := rfl
@[simp] theorem State.setTwc_hostMem (k : Nat) (u : Twc) : (s.setTwc k u).hostMem = s.hostMem := rfl
@[simp] theorem State.setTwc_adv (k : Nat) (u : Twc) : (s.setTwc k u).adv = s.adv := rfl
@[simp] theorem State.setTwc_alm (k : Nat) (u : Twc) : (s.setTwc k u).alm = s.alm := rfl
@[simp] theorem State.setTwc_fab (k : Nat) (u : Twc) : (s.setTwc k u).fab = s.fab := rfl
@[simp] theorem State.setTwc_flt (k : Nat) (u : Twc) : (s.setTwc k u).flt = s.flt := rfl
@[simp] theorem State.setTwc_pair (k : Nat) (u : Twc) : (s.setTwc k u).pair = s.pair := rfl
@[simp] theorem State.setTwc_linesUp (k : Nat) (u : Twc) : (s.setTwc k u).linesUp = s.linesUp := rfl
@[simp] theorem State.setTwc_camps (k : Nat) (u : Twc) : (s.setTwc k u).camps = s.camps := rfl
@[simp] theorem State.setTwc_cals (k : Nat) (u : Twc) : (s.setTwc k u).cals = s.cals := rfl
@[simp] theorem State.setTwc_twt (k : Nat) (u : Twc) : (s.setTwc k u).twt = s.twt := rfl
@[simp] theorem State.setTwc_pipes (k : Nat) (u : Twc) : (s.setTwc k u).pipes = s.pipes := rfl
@[simp] theorem State.setTwc_mfes (k : Nat) (u : Twc) : (s.setTwc k u).mfes = s.mfes := rfl
@[simp] theorem State.setTwc_heads (k : Nat) (u : Twc) : (s.setTwc k u).heads = s.heads := rfl
@[simp] theorem State.setTwc_prds (k : Nat) (u : Twc) : (s.setTwc k u).prds = s.prds := rfl
@[simp] theorem State.setTwc_codec (k : Nat) (u : Twc) : (s.setTwc k u).codec = s.codec := rfl
@[simp] theorem State.setTwc_vccs (k : Nat) (u : Twc) : (s.setTwc k u).vccs = s.vccs := rfl
@[simp] theorem State.setTwc_time (k : Nat) (u : Twc) : (s.setTwc k u).time = s.time := rfl
@[simp] theorem State.setTwc_dchs (k : Nat) (u : Twc) : (s.setTwc k u).dchs = s.dchs := rfl
@[simp] theorem State.setTwc_masks (k : Nat) (u : Twc) : (s.setTwc k u).masks = s.masks := rfl
@[simp] theorem State.setTwc_dmas (k : Nat) (u : Twc) : (s.setTwc k u).dmas = s.dmas := rfl
@[simp] theorem State.setTwc_dmaRest (k : Nat) (u : Twc) : (s.setTwc k u).dmaRest = s.dmaRest := rfl
@[simp] theorem State.setTwc_axes (k : Nat) (u : Twc) : (s.setTwc k u).axes = s.axes := rfl
@[simp] theorem State.setTwc_emus (k : Nat) (u : Twc) : (s.setTwc k u).emus = s.emus := rfl
@[simp] theorem State.setTwc_poses (k : Nat) (u : Twc) : (s.setTwc k u).poses = s.poses := rfl
@[simp] theorem State.setTwc_quads (k : Nat) (u : Twc) : (s.setTwc k u).quads = s.quads := rfl
@[simp] theorem State.setTwc_procs (k : Nat) (u : Twc) : (s.setTwc k u).procs = s.procs := rfl
@[simp] theorem State.setTwc_auds (k : Nat) (u : Twc) : (s.setTwc k u).auds = s.auds := rfl
@[simp] theorem State.setTwc_thm (k : Nat) (u : Twc) : (s.setTwc k u).thm = s.thm := rfl
@[simp] theorem State.setTwc_engs (k : Nat) (u : Twc) : (s.setTwc k u).engs = s.engs := rfl
@[simp] theorem State.setTwc_stews (k : Nat) (u : Twc) : (s.setTwc k u).stews = s.stews := rfl
@[simp] theorem State.setTwc_clus (k : Nat) (u : Twc) : (s.setTwc k u).clus = s.clus := rfl
@[simp] theorem State.setTwc_pcie (k : Nat) (u : Twc) : (s.setTwc k u).pcie = s.pcie := rfl
@[simp] theorem State.setTwc_nv (k : Nat) (u : Twc) : (s.setTwc k u).nv = s.nv := rfl
@[simp] theorem State.setTwc_tick (k : Nat) (u : Twc) : (s.setTwc k u).tick = s.tick := rfl
@[simp] theorem State.setTwc_answer (k : Nat) (u : Twc) : (s.setTwc k u).answer = s.answer := rfl
@[simp] theorem State.setTwc_poison (k : Nat) (u : Twc) : (s.setTwc k u).poison = s.poison := rfl
@[simp] theorem State.setTwc_free (k : Nat) (u : Twc) : (s.setTwc k u).free = s.free := rfl
@[simp] theorem State.setTwc_sent (k : Nat) (u : Twc) : (s.setTwc k u).sent = s.sent := rfl
@[simp] theorem State.setPipe_pending (k : Nat) (u : PipeU) : (s.setPipe k u).pending = s.pending := rfl
@[simp] theorem State.setPipe_regs (k : Nat) (u : PipeU) : (s.setPipe k u).regs = s.regs := rfl
@[simp] theorem State.setPipe_act (k : Nat) (u : PipeU) : (s.setPipe k u).act = s.act := rfl
@[simp] theorem State.setPipe_due (k : Nat) (u : PipeU) : (s.setPipe k u).due = s.due := rfl
@[simp] theorem State.setPipe_held (k : Nat) (u : PipeU) : (s.setPipe k u).held = s.held := rfl
@[simp] theorem State.setPipe_frozen (k : Nat) (u : PipeU) : (s.setPipe k u).frozen = s.frozen := rfl
@[simp] theorem State.setPipe_tbl (k : Nat) (u : PipeU) : (s.setPipe k u).tbl = s.tbl := rfl
@[simp] theorem State.setPipe_mem (k : Nat) (u : PipeU) : (s.setPipe k u).mem = s.mem := rfl
@[simp] theorem State.setPipe_hostMem (k : Nat) (u : PipeU) : (s.setPipe k u).hostMem = s.hostMem := rfl
@[simp] theorem State.setPipe_adv (k : Nat) (u : PipeU) : (s.setPipe k u).adv = s.adv := rfl
@[simp] theorem State.setPipe_alm (k : Nat) (u : PipeU) : (s.setPipe k u).alm = s.alm := rfl
@[simp] theorem State.setPipe_fab (k : Nat) (u : PipeU) : (s.setPipe k u).fab = s.fab := rfl
@[simp] theorem State.setPipe_flt (k : Nat) (u : PipeU) : (s.setPipe k u).flt = s.flt := rfl
@[simp] theorem State.setPipe_pair (k : Nat) (u : PipeU) : (s.setPipe k u).pair = s.pair := rfl
@[simp] theorem State.setPipe_linesUp (k : Nat) (u : PipeU) : (s.setPipe k u).linesUp = s.linesUp := rfl
@[simp] theorem State.setPipe_camps (k : Nat) (u : PipeU) : (s.setPipe k u).camps = s.camps := rfl
@[simp] theorem State.setPipe_cals (k : Nat) (u : PipeU) : (s.setPipe k u).cals = s.cals := rfl
@[simp] theorem State.setPipe_twcs (k : Nat) (u : PipeU) : (s.setPipe k u).twcs = s.twcs := rfl
@[simp] theorem State.setPipe_twt (k : Nat) (u : PipeU) : (s.setPipe k u).twt = s.twt := rfl
@[simp] theorem State.setPipe_mfes (k : Nat) (u : PipeU) : (s.setPipe k u).mfes = s.mfes := rfl
@[simp] theorem State.setPipe_heads (k : Nat) (u : PipeU) : (s.setPipe k u).heads = s.heads := rfl
@[simp] theorem State.setPipe_prds (k : Nat) (u : PipeU) : (s.setPipe k u).prds = s.prds := rfl
@[simp] theorem State.setPipe_codec (k : Nat) (u : PipeU) : (s.setPipe k u).codec = s.codec := rfl
@[simp] theorem State.setPipe_vccs (k : Nat) (u : PipeU) : (s.setPipe k u).vccs = s.vccs := rfl
@[simp] theorem State.setPipe_time (k : Nat) (u : PipeU) : (s.setPipe k u).time = s.time := rfl
@[simp] theorem State.setPipe_dchs (k : Nat) (u : PipeU) : (s.setPipe k u).dchs = s.dchs := rfl
@[simp] theorem State.setPipe_masks (k : Nat) (u : PipeU) : (s.setPipe k u).masks = s.masks := rfl
@[simp] theorem State.setPipe_dmas (k : Nat) (u : PipeU) : (s.setPipe k u).dmas = s.dmas := rfl
@[simp] theorem State.setPipe_dmaRest (k : Nat) (u : PipeU) : (s.setPipe k u).dmaRest = s.dmaRest := rfl
@[simp] theorem State.setPipe_axes (k : Nat) (u : PipeU) : (s.setPipe k u).axes = s.axes := rfl
@[simp] theorem State.setPipe_emus (k : Nat) (u : PipeU) : (s.setPipe k u).emus = s.emus := rfl
@[simp] theorem State.setPipe_poses (k : Nat) (u : PipeU) : (s.setPipe k u).poses = s.poses := rfl
@[simp] theorem State.setPipe_quads (k : Nat) (u : PipeU) : (s.setPipe k u).quads = s.quads := rfl
@[simp] theorem State.setPipe_procs (k : Nat) (u : PipeU) : (s.setPipe k u).procs = s.procs := rfl
@[simp] theorem State.setPipe_auds (k : Nat) (u : PipeU) : (s.setPipe k u).auds = s.auds := rfl
@[simp] theorem State.setPipe_thm (k : Nat) (u : PipeU) : (s.setPipe k u).thm = s.thm := rfl
@[simp] theorem State.setPipe_engs (k : Nat) (u : PipeU) : (s.setPipe k u).engs = s.engs := rfl
@[simp] theorem State.setPipe_stews (k : Nat) (u : PipeU) : (s.setPipe k u).stews = s.stews := rfl
@[simp] theorem State.setPipe_clus (k : Nat) (u : PipeU) : (s.setPipe k u).clus = s.clus := rfl
@[simp] theorem State.setPipe_pcie (k : Nat) (u : PipeU) : (s.setPipe k u).pcie = s.pcie := rfl
@[simp] theorem State.setPipe_nv (k : Nat) (u : PipeU) : (s.setPipe k u).nv = s.nv := rfl
@[simp] theorem State.setPipe_tick (k : Nat) (u : PipeU) : (s.setPipe k u).tick = s.tick := rfl
@[simp] theorem State.setPipe_answer (k : Nat) (u : PipeU) : (s.setPipe k u).answer = s.answer := rfl
@[simp] theorem State.setPipe_poison (k : Nat) (u : PipeU) : (s.setPipe k u).poison = s.poison := rfl
@[simp] theorem State.setPipe_free (k : Nat) (u : PipeU) : (s.setPipe k u).free = s.free := rfl
@[simp] theorem State.setPipe_sent (k : Nat) (u : PipeU) : (s.setPipe k u).sent = s.sent := rfl
@[simp] theorem State.setMfe_pending (k : Nat) (u : MfeU) : (s.setMfe k u).pending = s.pending := rfl
@[simp] theorem State.setMfe_regs (k : Nat) (u : MfeU) : (s.setMfe k u).regs = s.regs := rfl
@[simp] theorem State.setMfe_act (k : Nat) (u : MfeU) : (s.setMfe k u).act = s.act := rfl
@[simp] theorem State.setMfe_due (k : Nat) (u : MfeU) : (s.setMfe k u).due = s.due := rfl
@[simp] theorem State.setMfe_held (k : Nat) (u : MfeU) : (s.setMfe k u).held = s.held := rfl
@[simp] theorem State.setMfe_frozen (k : Nat) (u : MfeU) : (s.setMfe k u).frozen = s.frozen := rfl
@[simp] theorem State.setMfe_tbl (k : Nat) (u : MfeU) : (s.setMfe k u).tbl = s.tbl := rfl
@[simp] theorem State.setMfe_mem (k : Nat) (u : MfeU) : (s.setMfe k u).mem = s.mem := rfl
@[simp] theorem State.setMfe_hostMem (k : Nat) (u : MfeU) : (s.setMfe k u).hostMem = s.hostMem := rfl
@[simp] theorem State.setMfe_adv (k : Nat) (u : MfeU) : (s.setMfe k u).adv = s.adv := rfl
@[simp] theorem State.setMfe_alm (k : Nat) (u : MfeU) : (s.setMfe k u).alm = s.alm := rfl
@[simp] theorem State.setMfe_fab (k : Nat) (u : MfeU) : (s.setMfe k u).fab = s.fab := rfl
@[simp] theorem State.setMfe_flt (k : Nat) (u : MfeU) : (s.setMfe k u).flt = s.flt := rfl
@[simp] theorem State.setMfe_pair (k : Nat) (u : MfeU) : (s.setMfe k u).pair = s.pair := rfl
@[simp] theorem State.setMfe_linesUp (k : Nat) (u : MfeU) : (s.setMfe k u).linesUp = s.linesUp := rfl
@[simp] theorem State.setMfe_camps (k : Nat) (u : MfeU) : (s.setMfe k u).camps = s.camps := rfl
@[simp] theorem State.setMfe_cals (k : Nat) (u : MfeU) : (s.setMfe k u).cals = s.cals := rfl
@[simp] theorem State.setMfe_twcs (k : Nat) (u : MfeU) : (s.setMfe k u).twcs = s.twcs := rfl
@[simp] theorem State.setMfe_twt (k : Nat) (u : MfeU) : (s.setMfe k u).twt = s.twt := rfl
@[simp] theorem State.setMfe_pipes (k : Nat) (u : MfeU) : (s.setMfe k u).pipes = s.pipes := rfl
@[simp] theorem State.setMfe_heads (k : Nat) (u : MfeU) : (s.setMfe k u).heads = s.heads := rfl
@[simp] theorem State.setMfe_prds (k : Nat) (u : MfeU) : (s.setMfe k u).prds = s.prds := rfl
@[simp] theorem State.setMfe_codec (k : Nat) (u : MfeU) : (s.setMfe k u).codec = s.codec := rfl
@[simp] theorem State.setMfe_vccs (k : Nat) (u : MfeU) : (s.setMfe k u).vccs = s.vccs := rfl
@[simp] theorem State.setMfe_time (k : Nat) (u : MfeU) : (s.setMfe k u).time = s.time := rfl
@[simp] theorem State.setMfe_dchs (k : Nat) (u : MfeU) : (s.setMfe k u).dchs = s.dchs := rfl
@[simp] theorem State.setMfe_masks (k : Nat) (u : MfeU) : (s.setMfe k u).masks = s.masks := rfl
@[simp] theorem State.setMfe_dmas (k : Nat) (u : MfeU) : (s.setMfe k u).dmas = s.dmas := rfl
@[simp] theorem State.setMfe_dmaRest (k : Nat) (u : MfeU) : (s.setMfe k u).dmaRest = s.dmaRest := rfl
@[simp] theorem State.setMfe_axes (k : Nat) (u : MfeU) : (s.setMfe k u).axes = s.axes := rfl
@[simp] theorem State.setMfe_emus (k : Nat) (u : MfeU) : (s.setMfe k u).emus = s.emus := rfl
@[simp] theorem State.setMfe_poses (k : Nat) (u : MfeU) : (s.setMfe k u).poses = s.poses := rfl
@[simp] theorem State.setMfe_quads (k : Nat) (u : MfeU) : (s.setMfe k u).quads = s.quads := rfl
@[simp] theorem State.setMfe_procs (k : Nat) (u : MfeU) : (s.setMfe k u).procs = s.procs := rfl
@[simp] theorem State.setMfe_auds (k : Nat) (u : MfeU) : (s.setMfe k u).auds = s.auds := rfl
@[simp] theorem State.setMfe_thm (k : Nat) (u : MfeU) : (s.setMfe k u).thm = s.thm := rfl
@[simp] theorem State.setMfe_engs (k : Nat) (u : MfeU) : (s.setMfe k u).engs = s.engs := rfl
@[simp] theorem State.setMfe_stews (k : Nat) (u : MfeU) : (s.setMfe k u).stews = s.stews := rfl
@[simp] theorem State.setMfe_clus (k : Nat) (u : MfeU) : (s.setMfe k u).clus = s.clus := rfl
@[simp] theorem State.setMfe_pcie (k : Nat) (u : MfeU) : (s.setMfe k u).pcie = s.pcie := rfl
@[simp] theorem State.setMfe_nv (k : Nat) (u : MfeU) : (s.setMfe k u).nv = s.nv := rfl
@[simp] theorem State.setMfe_tick (k : Nat) (u : MfeU) : (s.setMfe k u).tick = s.tick := rfl
@[simp] theorem State.setMfe_answer (k : Nat) (u : MfeU) : (s.setMfe k u).answer = s.answer := rfl
@[simp] theorem State.setMfe_poison (k : Nat) (u : MfeU) : (s.setMfe k u).poison = s.poison := rfl
@[simp] theorem State.setMfe_free (k : Nat) (u : MfeU) : (s.setMfe k u).free = s.free := rfl
@[simp] theorem State.setMfe_sent (k : Nat) (u : MfeU) : (s.setMfe k u).sent = s.sent := rfl
@[simp] theorem State.setHead_pending (k : Nat) (u : HeadU) : (s.setHead k u).pending = s.pending := rfl
@[simp] theorem State.setHead_regs (k : Nat) (u : HeadU) : (s.setHead k u).regs = s.regs := rfl
@[simp] theorem State.setHead_act (k : Nat) (u : HeadU) : (s.setHead k u).act = s.act := rfl
@[simp] theorem State.setHead_due (k : Nat) (u : HeadU) : (s.setHead k u).due = s.due := rfl
@[simp] theorem State.setHead_held (k : Nat) (u : HeadU) : (s.setHead k u).held = s.held := rfl
@[simp] theorem State.setHead_frozen (k : Nat) (u : HeadU) : (s.setHead k u).frozen = s.frozen := rfl
@[simp] theorem State.setHead_tbl (k : Nat) (u : HeadU) : (s.setHead k u).tbl = s.tbl := rfl
@[simp] theorem State.setHead_mem (k : Nat) (u : HeadU) : (s.setHead k u).mem = s.mem := rfl
@[simp] theorem State.setHead_hostMem (k : Nat) (u : HeadU) : (s.setHead k u).hostMem = s.hostMem := rfl
@[simp] theorem State.setHead_adv (k : Nat) (u : HeadU) : (s.setHead k u).adv = s.adv := rfl
@[simp] theorem State.setHead_alm (k : Nat) (u : HeadU) : (s.setHead k u).alm = s.alm := rfl
@[simp] theorem State.setHead_fab (k : Nat) (u : HeadU) : (s.setHead k u).fab = s.fab := rfl
@[simp] theorem State.setHead_flt (k : Nat) (u : HeadU) : (s.setHead k u).flt = s.flt := rfl
@[simp] theorem State.setHead_pair (k : Nat) (u : HeadU) : (s.setHead k u).pair = s.pair := rfl
@[simp] theorem State.setHead_linesUp (k : Nat) (u : HeadU) : (s.setHead k u).linesUp = s.linesUp := rfl
@[simp] theorem State.setHead_camps (k : Nat) (u : HeadU) : (s.setHead k u).camps = s.camps := rfl
@[simp] theorem State.setHead_cals (k : Nat) (u : HeadU) : (s.setHead k u).cals = s.cals := rfl
@[simp] theorem State.setHead_twcs (k : Nat) (u : HeadU) : (s.setHead k u).twcs = s.twcs := rfl
@[simp] theorem State.setHead_twt (k : Nat) (u : HeadU) : (s.setHead k u).twt = s.twt := rfl
@[simp] theorem State.setHead_pipes (k : Nat) (u : HeadU) : (s.setHead k u).pipes = s.pipes := rfl
@[simp] theorem State.setHead_mfes (k : Nat) (u : HeadU) : (s.setHead k u).mfes = s.mfes := rfl
@[simp] theorem State.setHead_prds (k : Nat) (u : HeadU) : (s.setHead k u).prds = s.prds := rfl
@[simp] theorem State.setHead_codec (k : Nat) (u : HeadU) : (s.setHead k u).codec = s.codec := rfl
@[simp] theorem State.setHead_vccs (k : Nat) (u : HeadU) : (s.setHead k u).vccs = s.vccs := rfl
@[simp] theorem State.setHead_time (k : Nat) (u : HeadU) : (s.setHead k u).time = s.time := rfl
@[simp] theorem State.setHead_dchs (k : Nat) (u : HeadU) : (s.setHead k u).dchs = s.dchs := rfl
@[simp] theorem State.setHead_masks (k : Nat) (u : HeadU) : (s.setHead k u).masks = s.masks := rfl
@[simp] theorem State.setHead_dmas (k : Nat) (u : HeadU) : (s.setHead k u).dmas = s.dmas := rfl
@[simp] theorem State.setHead_dmaRest (k : Nat) (u : HeadU) : (s.setHead k u).dmaRest = s.dmaRest := rfl
@[simp] theorem State.setHead_axes (k : Nat) (u : HeadU) : (s.setHead k u).axes = s.axes := rfl
@[simp] theorem State.setHead_emus (k : Nat) (u : HeadU) : (s.setHead k u).emus = s.emus := rfl
@[simp] theorem State.setHead_poses (k : Nat) (u : HeadU) : (s.setHead k u).poses = s.poses := rfl
@[simp] theorem State.setHead_quads (k : Nat) (u : HeadU) : (s.setHead k u).quads = s.quads := rfl
@[simp] theorem State.setHead_procs (k : Nat) (u : HeadU) : (s.setHead k u).procs = s.procs := rfl
@[simp] theorem State.setHead_auds (k : Nat) (u : HeadU) : (s.setHead k u).auds = s.auds := rfl
@[simp] theorem State.setHead_thm (k : Nat) (u : HeadU) : (s.setHead k u).thm = s.thm := rfl
@[simp] theorem State.setHead_engs (k : Nat) (u : HeadU) : (s.setHead k u).engs = s.engs := rfl
@[simp] theorem State.setHead_stews (k : Nat) (u : HeadU) : (s.setHead k u).stews = s.stews := rfl
@[simp] theorem State.setHead_clus (k : Nat) (u : HeadU) : (s.setHead k u).clus = s.clus := rfl
@[simp] theorem State.setHead_pcie (k : Nat) (u : HeadU) : (s.setHead k u).pcie = s.pcie := rfl
@[simp] theorem State.setHead_nv (k : Nat) (u : HeadU) : (s.setHead k u).nv = s.nv := rfl
@[simp] theorem State.setHead_tick (k : Nat) (u : HeadU) : (s.setHead k u).tick = s.tick := rfl
@[simp] theorem State.setHead_answer (k : Nat) (u : HeadU) : (s.setHead k u).answer = s.answer := rfl
@[simp] theorem State.setHead_poison (k : Nat) (u : HeadU) : (s.setHead k u).poison = s.poison := rfl
@[simp] theorem State.setHead_free (k : Nat) (u : HeadU) : (s.setHead k u).free = s.free := rfl
@[simp] theorem State.setHead_sent (k : Nat) (u : HeadU) : (s.setHead k u).sent = s.sent := rfl
@[simp] theorem State.setPrd_pending (k : Nat) (u : PrdU) : (s.setPrd k u).pending = s.pending := rfl
@[simp] theorem State.setPrd_regs (k : Nat) (u : PrdU) : (s.setPrd k u).regs = s.regs := rfl
@[simp] theorem State.setPrd_act (k : Nat) (u : PrdU) : (s.setPrd k u).act = s.act := rfl
@[simp] theorem State.setPrd_due (k : Nat) (u : PrdU) : (s.setPrd k u).due = s.due := rfl
@[simp] theorem State.setPrd_held (k : Nat) (u : PrdU) : (s.setPrd k u).held = s.held := rfl
@[simp] theorem State.setPrd_frozen (k : Nat) (u : PrdU) : (s.setPrd k u).frozen = s.frozen := rfl
@[simp] theorem State.setPrd_tbl (k : Nat) (u : PrdU) : (s.setPrd k u).tbl = s.tbl := rfl
@[simp] theorem State.setPrd_mem (k : Nat) (u : PrdU) : (s.setPrd k u).mem = s.mem := rfl
@[simp] theorem State.setPrd_hostMem (k : Nat) (u : PrdU) : (s.setPrd k u).hostMem = s.hostMem := rfl
@[simp] theorem State.setPrd_adv (k : Nat) (u : PrdU) : (s.setPrd k u).adv = s.adv := rfl
@[simp] theorem State.setPrd_alm (k : Nat) (u : PrdU) : (s.setPrd k u).alm = s.alm := rfl
@[simp] theorem State.setPrd_fab (k : Nat) (u : PrdU) : (s.setPrd k u).fab = s.fab := rfl
@[simp] theorem State.setPrd_flt (k : Nat) (u : PrdU) : (s.setPrd k u).flt = s.flt := rfl
@[simp] theorem State.setPrd_pair (k : Nat) (u : PrdU) : (s.setPrd k u).pair = s.pair := rfl
@[simp] theorem State.setPrd_linesUp (k : Nat) (u : PrdU) : (s.setPrd k u).linesUp = s.linesUp := rfl
@[simp] theorem State.setPrd_camps (k : Nat) (u : PrdU) : (s.setPrd k u).camps = s.camps := rfl
@[simp] theorem State.setPrd_cals (k : Nat) (u : PrdU) : (s.setPrd k u).cals = s.cals := rfl
@[simp] theorem State.setPrd_twcs (k : Nat) (u : PrdU) : (s.setPrd k u).twcs = s.twcs := rfl
@[simp] theorem State.setPrd_twt (k : Nat) (u : PrdU) : (s.setPrd k u).twt = s.twt := rfl
@[simp] theorem State.setPrd_pipes (k : Nat) (u : PrdU) : (s.setPrd k u).pipes = s.pipes := rfl
@[simp] theorem State.setPrd_mfes (k : Nat) (u : PrdU) : (s.setPrd k u).mfes = s.mfes := rfl
@[simp] theorem State.setPrd_heads (k : Nat) (u : PrdU) : (s.setPrd k u).heads = s.heads := rfl
@[simp] theorem State.setPrd_codec (k : Nat) (u : PrdU) : (s.setPrd k u).codec = s.codec := rfl
@[simp] theorem State.setPrd_vccs (k : Nat) (u : PrdU) : (s.setPrd k u).vccs = s.vccs := rfl
@[simp] theorem State.setPrd_time (k : Nat) (u : PrdU) : (s.setPrd k u).time = s.time := rfl
@[simp] theorem State.setPrd_dchs (k : Nat) (u : PrdU) : (s.setPrd k u).dchs = s.dchs := rfl
@[simp] theorem State.setPrd_masks (k : Nat) (u : PrdU) : (s.setPrd k u).masks = s.masks := rfl
@[simp] theorem State.setPrd_dmas (k : Nat) (u : PrdU) : (s.setPrd k u).dmas = s.dmas := rfl
@[simp] theorem State.setPrd_dmaRest (k : Nat) (u : PrdU) : (s.setPrd k u).dmaRest = s.dmaRest := rfl
@[simp] theorem State.setPrd_axes (k : Nat) (u : PrdU) : (s.setPrd k u).axes = s.axes := rfl
@[simp] theorem State.setPrd_emus (k : Nat) (u : PrdU) : (s.setPrd k u).emus = s.emus := rfl
@[simp] theorem State.setPrd_poses (k : Nat) (u : PrdU) : (s.setPrd k u).poses = s.poses := rfl
@[simp] theorem State.setPrd_quads (k : Nat) (u : PrdU) : (s.setPrd k u).quads = s.quads := rfl
@[simp] theorem State.setPrd_procs (k : Nat) (u : PrdU) : (s.setPrd k u).procs = s.procs := rfl
@[simp] theorem State.setPrd_auds (k : Nat) (u : PrdU) : (s.setPrd k u).auds = s.auds := rfl
@[simp] theorem State.setPrd_thm (k : Nat) (u : PrdU) : (s.setPrd k u).thm = s.thm := rfl
@[simp] theorem State.setPrd_engs (k : Nat) (u : PrdU) : (s.setPrd k u).engs = s.engs := rfl
@[simp] theorem State.setPrd_stews (k : Nat) (u : PrdU) : (s.setPrd k u).stews = s.stews := rfl
@[simp] theorem State.setPrd_clus (k : Nat) (u : PrdU) : (s.setPrd k u).clus = s.clus := rfl
@[simp] theorem State.setPrd_pcie (k : Nat) (u : PrdU) : (s.setPrd k u).pcie = s.pcie := rfl
@[simp] theorem State.setPrd_nv (k : Nat) (u : PrdU) : (s.setPrd k u).nv = s.nv := rfl
@[simp] theorem State.setPrd_tick (k : Nat) (u : PrdU) : (s.setPrd k u).tick = s.tick := rfl
@[simp] theorem State.setPrd_answer (k : Nat) (u : PrdU) : (s.setPrd k u).answer = s.answer := rfl
@[simp] theorem State.setPrd_poison (k : Nat) (u : PrdU) : (s.setPrd k u).poison = s.poison := rfl
@[simp] theorem State.setPrd_free (k : Nat) (u : PrdU) : (s.setPrd k u).free = s.free := rfl
@[simp] theorem State.setPrd_sent (k : Nat) (u : PrdU) : (s.setPrd k u).sent = s.sent := rfl
@[simp] theorem State.setVcc_pending (k : Nat) (u : VccU) : (s.setVcc k u).pending = s.pending := rfl
@[simp] theorem State.setVcc_regs (k : Nat) (u : VccU) : (s.setVcc k u).regs = s.regs := rfl
@[simp] theorem State.setVcc_act (k : Nat) (u : VccU) : (s.setVcc k u).act = s.act := rfl
@[simp] theorem State.setVcc_due (k : Nat) (u : VccU) : (s.setVcc k u).due = s.due := rfl
@[simp] theorem State.setVcc_held (k : Nat) (u : VccU) : (s.setVcc k u).held = s.held := rfl
@[simp] theorem State.setVcc_frozen (k : Nat) (u : VccU) : (s.setVcc k u).frozen = s.frozen := rfl
@[simp] theorem State.setVcc_tbl (k : Nat) (u : VccU) : (s.setVcc k u).tbl = s.tbl := rfl
@[simp] theorem State.setVcc_mem (k : Nat) (u : VccU) : (s.setVcc k u).mem = s.mem := rfl
@[simp] theorem State.setVcc_hostMem (k : Nat) (u : VccU) : (s.setVcc k u).hostMem = s.hostMem := rfl
@[simp] theorem State.setVcc_adv (k : Nat) (u : VccU) : (s.setVcc k u).adv = s.adv := rfl
@[simp] theorem State.setVcc_alm (k : Nat) (u : VccU) : (s.setVcc k u).alm = s.alm := rfl
@[simp] theorem State.setVcc_fab (k : Nat) (u : VccU) : (s.setVcc k u).fab = s.fab := rfl
@[simp] theorem State.setVcc_flt (k : Nat) (u : VccU) : (s.setVcc k u).flt = s.flt := rfl
@[simp] theorem State.setVcc_pair (k : Nat) (u : VccU) : (s.setVcc k u).pair = s.pair := rfl
@[simp] theorem State.setVcc_linesUp (k : Nat) (u : VccU) : (s.setVcc k u).linesUp = s.linesUp := rfl
@[simp] theorem State.setVcc_camps (k : Nat) (u : VccU) : (s.setVcc k u).camps = s.camps := rfl
@[simp] theorem State.setVcc_cals (k : Nat) (u : VccU) : (s.setVcc k u).cals = s.cals := rfl
@[simp] theorem State.setVcc_twcs (k : Nat) (u : VccU) : (s.setVcc k u).twcs = s.twcs := rfl
@[simp] theorem State.setVcc_twt (k : Nat) (u : VccU) : (s.setVcc k u).twt = s.twt := rfl
@[simp] theorem State.setVcc_pipes (k : Nat) (u : VccU) : (s.setVcc k u).pipes = s.pipes := rfl
@[simp] theorem State.setVcc_mfes (k : Nat) (u : VccU) : (s.setVcc k u).mfes = s.mfes := rfl
@[simp] theorem State.setVcc_heads (k : Nat) (u : VccU) : (s.setVcc k u).heads = s.heads := rfl
@[simp] theorem State.setVcc_prds (k : Nat) (u : VccU) : (s.setVcc k u).prds = s.prds := rfl
@[simp] theorem State.setVcc_codec (k : Nat) (u : VccU) : (s.setVcc k u).codec = s.codec := rfl
@[simp] theorem State.setVcc_time (k : Nat) (u : VccU) : (s.setVcc k u).time = s.time := rfl
@[simp] theorem State.setVcc_dchs (k : Nat) (u : VccU) : (s.setVcc k u).dchs = s.dchs := rfl
@[simp] theorem State.setVcc_masks (k : Nat) (u : VccU) : (s.setVcc k u).masks = s.masks := rfl
@[simp] theorem State.setVcc_dmas (k : Nat) (u : VccU) : (s.setVcc k u).dmas = s.dmas := rfl
@[simp] theorem State.setVcc_dmaRest (k : Nat) (u : VccU) : (s.setVcc k u).dmaRest = s.dmaRest := rfl
@[simp] theorem State.setVcc_axes (k : Nat) (u : VccU) : (s.setVcc k u).axes = s.axes := rfl
@[simp] theorem State.setVcc_emus (k : Nat) (u : VccU) : (s.setVcc k u).emus = s.emus := rfl
@[simp] theorem State.setVcc_poses (k : Nat) (u : VccU) : (s.setVcc k u).poses = s.poses := rfl
@[simp] theorem State.setVcc_quads (k : Nat) (u : VccU) : (s.setVcc k u).quads = s.quads := rfl
@[simp] theorem State.setVcc_procs (k : Nat) (u : VccU) : (s.setVcc k u).procs = s.procs := rfl
@[simp] theorem State.setVcc_auds (k : Nat) (u : VccU) : (s.setVcc k u).auds = s.auds := rfl
@[simp] theorem State.setVcc_thm (k : Nat) (u : VccU) : (s.setVcc k u).thm = s.thm := rfl
@[simp] theorem State.setVcc_engs (k : Nat) (u : VccU) : (s.setVcc k u).engs = s.engs := rfl
@[simp] theorem State.setVcc_stews (k : Nat) (u : VccU) : (s.setVcc k u).stews = s.stews := rfl
@[simp] theorem State.setVcc_clus (k : Nat) (u : VccU) : (s.setVcc k u).clus = s.clus := rfl
@[simp] theorem State.setVcc_pcie (k : Nat) (u : VccU) : (s.setVcc k u).pcie = s.pcie := rfl
@[simp] theorem State.setVcc_nv (k : Nat) (u : VccU) : (s.setVcc k u).nv = s.nv := rfl
@[simp] theorem State.setVcc_tick (k : Nat) (u : VccU) : (s.setVcc k u).tick = s.tick := rfl
@[simp] theorem State.setVcc_answer (k : Nat) (u : VccU) : (s.setVcc k u).answer = s.answer := rfl
@[simp] theorem State.setVcc_poison (k : Nat) (u : VccU) : (s.setVcc k u).poison = s.poison := rfl
@[simp] theorem State.setVcc_free (k : Nat) (u : VccU) : (s.setVcc k u).free = s.free := rfl
@[simp] theorem State.setVcc_sent (k : Nat) (u : VccU) : (s.setVcc k u).sent = s.sent := rfl
@[simp] theorem State.setDch_pending (k : Nat) (u : Dch) : (s.setDch k u).pending = s.pending := rfl
@[simp] theorem State.setDch_regs (k : Nat) (u : Dch) : (s.setDch k u).regs = s.regs := rfl
@[simp] theorem State.setDch_act (k : Nat) (u : Dch) : (s.setDch k u).act = s.act := rfl
@[simp] theorem State.setDch_due (k : Nat) (u : Dch) : (s.setDch k u).due = s.due := rfl
@[simp] theorem State.setDch_held (k : Nat) (u : Dch) : (s.setDch k u).held = s.held := rfl
@[simp] theorem State.setDch_frozen (k : Nat) (u : Dch) : (s.setDch k u).frozen = s.frozen := rfl
@[simp] theorem State.setDch_tbl (k : Nat) (u : Dch) : (s.setDch k u).tbl = s.tbl := rfl
@[simp] theorem State.setDch_mem (k : Nat) (u : Dch) : (s.setDch k u).mem = s.mem := rfl
@[simp] theorem State.setDch_hostMem (k : Nat) (u : Dch) : (s.setDch k u).hostMem = s.hostMem := rfl
@[simp] theorem State.setDch_adv (k : Nat) (u : Dch) : (s.setDch k u).adv = s.adv := rfl
@[simp] theorem State.setDch_alm (k : Nat) (u : Dch) : (s.setDch k u).alm = s.alm := rfl
@[simp] theorem State.setDch_fab (k : Nat) (u : Dch) : (s.setDch k u).fab = s.fab := rfl
@[simp] theorem State.setDch_flt (k : Nat) (u : Dch) : (s.setDch k u).flt = s.flt := rfl
@[simp] theorem State.setDch_pair (k : Nat) (u : Dch) : (s.setDch k u).pair = s.pair := rfl
@[simp] theorem State.setDch_linesUp (k : Nat) (u : Dch) : (s.setDch k u).linesUp = s.linesUp := rfl
@[simp] theorem State.setDch_camps (k : Nat) (u : Dch) : (s.setDch k u).camps = s.camps := rfl
@[simp] theorem State.setDch_cals (k : Nat) (u : Dch) : (s.setDch k u).cals = s.cals := rfl
@[simp] theorem State.setDch_twcs (k : Nat) (u : Dch) : (s.setDch k u).twcs = s.twcs := rfl
@[simp] theorem State.setDch_twt (k : Nat) (u : Dch) : (s.setDch k u).twt = s.twt := rfl
@[simp] theorem State.setDch_pipes (k : Nat) (u : Dch) : (s.setDch k u).pipes = s.pipes := rfl
@[simp] theorem State.setDch_mfes (k : Nat) (u : Dch) : (s.setDch k u).mfes = s.mfes := rfl
@[simp] theorem State.setDch_heads (k : Nat) (u : Dch) : (s.setDch k u).heads = s.heads := rfl
@[simp] theorem State.setDch_prds (k : Nat) (u : Dch) : (s.setDch k u).prds = s.prds := rfl
@[simp] theorem State.setDch_codec (k : Nat) (u : Dch) : (s.setDch k u).codec = s.codec := rfl
@[simp] theorem State.setDch_vccs (k : Nat) (u : Dch) : (s.setDch k u).vccs = s.vccs := rfl
@[simp] theorem State.setDch_time (k : Nat) (u : Dch) : (s.setDch k u).time = s.time := rfl
@[simp] theorem State.setDch_masks (k : Nat) (u : Dch) : (s.setDch k u).masks = s.masks := rfl
@[simp] theorem State.setDch_dmas (k : Nat) (u : Dch) : (s.setDch k u).dmas = s.dmas := rfl
@[simp] theorem State.setDch_dmaRest (k : Nat) (u : Dch) : (s.setDch k u).dmaRest = s.dmaRest := rfl
@[simp] theorem State.setDch_axes (k : Nat) (u : Dch) : (s.setDch k u).axes = s.axes := rfl
@[simp] theorem State.setDch_emus (k : Nat) (u : Dch) : (s.setDch k u).emus = s.emus := rfl
@[simp] theorem State.setDch_poses (k : Nat) (u : Dch) : (s.setDch k u).poses = s.poses := rfl
@[simp] theorem State.setDch_quads (k : Nat) (u : Dch) : (s.setDch k u).quads = s.quads := rfl
@[simp] theorem State.setDch_procs (k : Nat) (u : Dch) : (s.setDch k u).procs = s.procs := rfl
@[simp] theorem State.setDch_auds (k : Nat) (u : Dch) : (s.setDch k u).auds = s.auds := rfl
@[simp] theorem State.setDch_thm (k : Nat) (u : Dch) : (s.setDch k u).thm = s.thm := rfl
@[simp] theorem State.setDch_engs (k : Nat) (u : Dch) : (s.setDch k u).engs = s.engs := rfl
@[simp] theorem State.setDch_stews (k : Nat) (u : Dch) : (s.setDch k u).stews = s.stews := rfl
@[simp] theorem State.setDch_clus (k : Nat) (u : Dch) : (s.setDch k u).clus = s.clus := rfl
@[simp] theorem State.setDch_pcie (k : Nat) (u : Dch) : (s.setDch k u).pcie = s.pcie := rfl
@[simp] theorem State.setDch_nv (k : Nat) (u : Dch) : (s.setDch k u).nv = s.nv := rfl
@[simp] theorem State.setDch_tick (k : Nat) (u : Dch) : (s.setDch k u).tick = s.tick := rfl
@[simp] theorem State.setDch_answer (k : Nat) (u : Dch) : (s.setDch k u).answer = s.answer := rfl
@[simp] theorem State.setDch_poison (k : Nat) (u : Dch) : (s.setDch k u).poison = s.poison := rfl
@[simp] theorem State.setDch_free (k : Nat) (u : Dch) : (s.setDch k u).free = s.free := rfl
@[simp] theorem State.setDch_sent (k : Nat) (u : Dch) : (s.setDch k u).sent = s.sent := rfl
@[simp] theorem State.setDma_pending (k : Nat) (u : DmaU) : (s.setDma k u).pending = s.pending := rfl
@[simp] theorem State.setDma_regs (k : Nat) (u : DmaU) : (s.setDma k u).regs = s.regs := rfl
@[simp] theorem State.setDma_act (k : Nat) (u : DmaU) : (s.setDma k u).act = s.act := rfl
@[simp] theorem State.setDma_due (k : Nat) (u : DmaU) : (s.setDma k u).due = s.due := rfl
@[simp] theorem State.setDma_held (k : Nat) (u : DmaU) : (s.setDma k u).held = s.held := rfl
@[simp] theorem State.setDma_frozen (k : Nat) (u : DmaU) : (s.setDma k u).frozen = s.frozen := rfl
@[simp] theorem State.setDma_tbl (k : Nat) (u : DmaU) : (s.setDma k u).tbl = s.tbl := rfl
@[simp] theorem State.setDma_mem (k : Nat) (u : DmaU) : (s.setDma k u).mem = s.mem := rfl
@[simp] theorem State.setDma_hostMem (k : Nat) (u : DmaU) : (s.setDma k u).hostMem = s.hostMem := rfl
@[simp] theorem State.setDma_adv (k : Nat) (u : DmaU) : (s.setDma k u).adv = s.adv := rfl
@[simp] theorem State.setDma_alm (k : Nat) (u : DmaU) : (s.setDma k u).alm = s.alm := rfl
@[simp] theorem State.setDma_fab (k : Nat) (u : DmaU) : (s.setDma k u).fab = s.fab := rfl
@[simp] theorem State.setDma_flt (k : Nat) (u : DmaU) : (s.setDma k u).flt = s.flt := rfl
@[simp] theorem State.setDma_pair (k : Nat) (u : DmaU) : (s.setDma k u).pair = s.pair := rfl
@[simp] theorem State.setDma_linesUp (k : Nat) (u : DmaU) : (s.setDma k u).linesUp = s.linesUp := rfl
@[simp] theorem State.setDma_camps (k : Nat) (u : DmaU) : (s.setDma k u).camps = s.camps := rfl
@[simp] theorem State.setDma_cals (k : Nat) (u : DmaU) : (s.setDma k u).cals = s.cals := rfl
@[simp] theorem State.setDma_twcs (k : Nat) (u : DmaU) : (s.setDma k u).twcs = s.twcs := rfl
@[simp] theorem State.setDma_twt (k : Nat) (u : DmaU) : (s.setDma k u).twt = s.twt := rfl
@[simp] theorem State.setDma_pipes (k : Nat) (u : DmaU) : (s.setDma k u).pipes = s.pipes := rfl
@[simp] theorem State.setDma_mfes (k : Nat) (u : DmaU) : (s.setDma k u).mfes = s.mfes := rfl
@[simp] theorem State.setDma_heads (k : Nat) (u : DmaU) : (s.setDma k u).heads = s.heads := rfl
@[simp] theorem State.setDma_prds (k : Nat) (u : DmaU) : (s.setDma k u).prds = s.prds := rfl
@[simp] theorem State.setDma_codec (k : Nat) (u : DmaU) : (s.setDma k u).codec = s.codec := rfl
@[simp] theorem State.setDma_vccs (k : Nat) (u : DmaU) : (s.setDma k u).vccs = s.vccs := rfl
@[simp] theorem State.setDma_time (k : Nat) (u : DmaU) : (s.setDma k u).time = s.time := rfl
@[simp] theorem State.setDma_dchs (k : Nat) (u : DmaU) : (s.setDma k u).dchs = s.dchs := rfl
@[simp] theorem State.setDma_masks (k : Nat) (u : DmaU) : (s.setDma k u).masks = s.masks := rfl
@[simp] theorem State.setDma_dmaRest (k : Nat) (u : DmaU) : (s.setDma k u).dmaRest = s.dmaRest := rfl
@[simp] theorem State.setDma_axes (k : Nat) (u : DmaU) : (s.setDma k u).axes = s.axes := rfl
@[simp] theorem State.setDma_emus (k : Nat) (u : DmaU) : (s.setDma k u).emus = s.emus := rfl
@[simp] theorem State.setDma_poses (k : Nat) (u : DmaU) : (s.setDma k u).poses = s.poses := rfl
@[simp] theorem State.setDma_quads (k : Nat) (u : DmaU) : (s.setDma k u).quads = s.quads := rfl
@[simp] theorem State.setDma_procs (k : Nat) (u : DmaU) : (s.setDma k u).procs = s.procs := rfl
@[simp] theorem State.setDma_auds (k : Nat) (u : DmaU) : (s.setDma k u).auds = s.auds := rfl
@[simp] theorem State.setDma_thm (k : Nat) (u : DmaU) : (s.setDma k u).thm = s.thm := rfl
@[simp] theorem State.setDma_engs (k : Nat) (u : DmaU) : (s.setDma k u).engs = s.engs := rfl
@[simp] theorem State.setDma_stews (k : Nat) (u : DmaU) : (s.setDma k u).stews = s.stews := rfl
@[simp] theorem State.setDma_clus (k : Nat) (u : DmaU) : (s.setDma k u).clus = s.clus := rfl
@[simp] theorem State.setDma_pcie (k : Nat) (u : DmaU) : (s.setDma k u).pcie = s.pcie := rfl
@[simp] theorem State.setDma_nv (k : Nat) (u : DmaU) : (s.setDma k u).nv = s.nv := rfl
@[simp] theorem State.setDma_tick (k : Nat) (u : DmaU) : (s.setDma k u).tick = s.tick := rfl
@[simp] theorem State.setDma_answer (k : Nat) (u : DmaU) : (s.setDma k u).answer = s.answer := rfl
@[simp] theorem State.setDma_poison (k : Nat) (u : DmaU) : (s.setDma k u).poison = s.poison := rfl
@[simp] theorem State.setDma_free (k : Nat) (u : DmaU) : (s.setDma k u).free = s.free := rfl
@[simp] theorem State.setDma_sent (k : Nat) (u : DmaU) : (s.setDma k u).sent = s.sent := rfl
@[simp] theorem State.setAxis_pending (k : Nat) (u : AxisU) : (s.setAxis k u).pending = s.pending := rfl
@[simp] theorem State.setAxis_regs (k : Nat) (u : AxisU) : (s.setAxis k u).regs = s.regs := rfl
@[simp] theorem State.setAxis_act (k : Nat) (u : AxisU) : (s.setAxis k u).act = s.act := rfl
@[simp] theorem State.setAxis_due (k : Nat) (u : AxisU) : (s.setAxis k u).due = s.due := rfl
@[simp] theorem State.setAxis_held (k : Nat) (u : AxisU) : (s.setAxis k u).held = s.held := rfl
@[simp] theorem State.setAxis_frozen (k : Nat) (u : AxisU) : (s.setAxis k u).frozen = s.frozen := rfl
@[simp] theorem State.setAxis_tbl (k : Nat) (u : AxisU) : (s.setAxis k u).tbl = s.tbl := rfl
@[simp] theorem State.setAxis_mem (k : Nat) (u : AxisU) : (s.setAxis k u).mem = s.mem := rfl
@[simp] theorem State.setAxis_hostMem (k : Nat) (u : AxisU) : (s.setAxis k u).hostMem = s.hostMem := rfl
@[simp] theorem State.setAxis_adv (k : Nat) (u : AxisU) : (s.setAxis k u).adv = s.adv := rfl
@[simp] theorem State.setAxis_alm (k : Nat) (u : AxisU) : (s.setAxis k u).alm = s.alm := rfl
@[simp] theorem State.setAxis_fab (k : Nat) (u : AxisU) : (s.setAxis k u).fab = s.fab := rfl
@[simp] theorem State.setAxis_flt (k : Nat) (u : AxisU) : (s.setAxis k u).flt = s.flt := rfl
@[simp] theorem State.setAxis_pair (k : Nat) (u : AxisU) : (s.setAxis k u).pair = s.pair := rfl
@[simp] theorem State.setAxis_linesUp (k : Nat) (u : AxisU) : (s.setAxis k u).linesUp = s.linesUp := rfl
@[simp] theorem State.setAxis_camps (k : Nat) (u : AxisU) : (s.setAxis k u).camps = s.camps := rfl
@[simp] theorem State.setAxis_cals (k : Nat) (u : AxisU) : (s.setAxis k u).cals = s.cals := rfl
@[simp] theorem State.setAxis_twcs (k : Nat) (u : AxisU) : (s.setAxis k u).twcs = s.twcs := rfl
@[simp] theorem State.setAxis_twt (k : Nat) (u : AxisU) : (s.setAxis k u).twt = s.twt := rfl
@[simp] theorem State.setAxis_pipes (k : Nat) (u : AxisU) : (s.setAxis k u).pipes = s.pipes := rfl
@[simp] theorem State.setAxis_mfes (k : Nat) (u : AxisU) : (s.setAxis k u).mfes = s.mfes := rfl
@[simp] theorem State.setAxis_heads (k : Nat) (u : AxisU) : (s.setAxis k u).heads = s.heads := rfl
@[simp] theorem State.setAxis_prds (k : Nat) (u : AxisU) : (s.setAxis k u).prds = s.prds := rfl
@[simp] theorem State.setAxis_codec (k : Nat) (u : AxisU) : (s.setAxis k u).codec = s.codec := rfl
@[simp] theorem State.setAxis_vccs (k : Nat) (u : AxisU) : (s.setAxis k u).vccs = s.vccs := rfl
@[simp] theorem State.setAxis_time (k : Nat) (u : AxisU) : (s.setAxis k u).time = s.time := rfl
@[simp] theorem State.setAxis_dchs (k : Nat) (u : AxisU) : (s.setAxis k u).dchs = s.dchs := rfl
@[simp] theorem State.setAxis_masks (k : Nat) (u : AxisU) : (s.setAxis k u).masks = s.masks := rfl
@[simp] theorem State.setAxis_dmas (k : Nat) (u : AxisU) : (s.setAxis k u).dmas = s.dmas := rfl
@[simp] theorem State.setAxis_dmaRest (k : Nat) (u : AxisU) : (s.setAxis k u).dmaRest = s.dmaRest := rfl
@[simp] theorem State.setAxis_emus (k : Nat) (u : AxisU) : (s.setAxis k u).emus = s.emus := rfl
@[simp] theorem State.setAxis_poses (k : Nat) (u : AxisU) : (s.setAxis k u).poses = s.poses := rfl
@[simp] theorem State.setAxis_quads (k : Nat) (u : AxisU) : (s.setAxis k u).quads = s.quads := rfl
@[simp] theorem State.setAxis_procs (k : Nat) (u : AxisU) : (s.setAxis k u).procs = s.procs := rfl
@[simp] theorem State.setAxis_auds (k : Nat) (u : AxisU) : (s.setAxis k u).auds = s.auds := rfl
@[simp] theorem State.setAxis_thm (k : Nat) (u : AxisU) : (s.setAxis k u).thm = s.thm := rfl
@[simp] theorem State.setAxis_engs (k : Nat) (u : AxisU) : (s.setAxis k u).engs = s.engs := rfl
@[simp] theorem State.setAxis_stews (k : Nat) (u : AxisU) : (s.setAxis k u).stews = s.stews := rfl
@[simp] theorem State.setAxis_clus (k : Nat) (u : AxisU) : (s.setAxis k u).clus = s.clus := rfl
@[simp] theorem State.setAxis_pcie (k : Nat) (u : AxisU) : (s.setAxis k u).pcie = s.pcie := rfl
@[simp] theorem State.setAxis_nv (k : Nat) (u : AxisU) : (s.setAxis k u).nv = s.nv := rfl
@[simp] theorem State.setAxis_tick (k : Nat) (u : AxisU) : (s.setAxis k u).tick = s.tick := rfl
@[simp] theorem State.setAxis_answer (k : Nat) (u : AxisU) : (s.setAxis k u).answer = s.answer := rfl
@[simp] theorem State.setAxis_poison (k : Nat) (u : AxisU) : (s.setAxis k u).poison = s.poison := rfl
@[simp] theorem State.setAxis_free (k : Nat) (u : AxisU) : (s.setAxis k u).free = s.free := rfl
@[simp] theorem State.setAxis_sent (k : Nat) (u : AxisU) : (s.setAxis k u).sent = s.sent := rfl
@[simp] theorem State.setEmu_pending (k : Nat) (u : EmuU) : (s.setEmu k u).pending = s.pending := rfl
@[simp] theorem State.setEmu_regs (k : Nat) (u : EmuU) : (s.setEmu k u).regs = s.regs := rfl
@[simp] theorem State.setEmu_act (k : Nat) (u : EmuU) : (s.setEmu k u).act = s.act := rfl
@[simp] theorem State.setEmu_due (k : Nat) (u : EmuU) : (s.setEmu k u).due = s.due := rfl
@[simp] theorem State.setEmu_held (k : Nat) (u : EmuU) : (s.setEmu k u).held = s.held := rfl
@[simp] theorem State.setEmu_frozen (k : Nat) (u : EmuU) : (s.setEmu k u).frozen = s.frozen := rfl
@[simp] theorem State.setEmu_tbl (k : Nat) (u : EmuU) : (s.setEmu k u).tbl = s.tbl := rfl
@[simp] theorem State.setEmu_mem (k : Nat) (u : EmuU) : (s.setEmu k u).mem = s.mem := rfl
@[simp] theorem State.setEmu_hostMem (k : Nat) (u : EmuU) : (s.setEmu k u).hostMem = s.hostMem := rfl
@[simp] theorem State.setEmu_adv (k : Nat) (u : EmuU) : (s.setEmu k u).adv = s.adv := rfl
@[simp] theorem State.setEmu_alm (k : Nat) (u : EmuU) : (s.setEmu k u).alm = s.alm := rfl
@[simp] theorem State.setEmu_fab (k : Nat) (u : EmuU) : (s.setEmu k u).fab = s.fab := rfl
@[simp] theorem State.setEmu_flt (k : Nat) (u : EmuU) : (s.setEmu k u).flt = s.flt := rfl
@[simp] theorem State.setEmu_pair (k : Nat) (u : EmuU) : (s.setEmu k u).pair = s.pair := rfl
@[simp] theorem State.setEmu_linesUp (k : Nat) (u : EmuU) : (s.setEmu k u).linesUp = s.linesUp := rfl
@[simp] theorem State.setEmu_camps (k : Nat) (u : EmuU) : (s.setEmu k u).camps = s.camps := rfl
@[simp] theorem State.setEmu_cals (k : Nat) (u : EmuU) : (s.setEmu k u).cals = s.cals := rfl
@[simp] theorem State.setEmu_twcs (k : Nat) (u : EmuU) : (s.setEmu k u).twcs = s.twcs := rfl
@[simp] theorem State.setEmu_twt (k : Nat) (u : EmuU) : (s.setEmu k u).twt = s.twt := rfl
@[simp] theorem State.setEmu_pipes (k : Nat) (u : EmuU) : (s.setEmu k u).pipes = s.pipes := rfl
@[simp] theorem State.setEmu_mfes (k : Nat) (u : EmuU) : (s.setEmu k u).mfes = s.mfes := rfl
@[simp] theorem State.setEmu_heads (k : Nat) (u : EmuU) : (s.setEmu k u).heads = s.heads := rfl
@[simp] theorem State.setEmu_prds (k : Nat) (u : EmuU) : (s.setEmu k u).prds = s.prds := rfl
@[simp] theorem State.setEmu_codec (k : Nat) (u : EmuU) : (s.setEmu k u).codec = s.codec := rfl
@[simp] theorem State.setEmu_vccs (k : Nat) (u : EmuU) : (s.setEmu k u).vccs = s.vccs := rfl
@[simp] theorem State.setEmu_time (k : Nat) (u : EmuU) : (s.setEmu k u).time = s.time := rfl
@[simp] theorem State.setEmu_dchs (k : Nat) (u : EmuU) : (s.setEmu k u).dchs = s.dchs := rfl
@[simp] theorem State.setEmu_masks (k : Nat) (u : EmuU) : (s.setEmu k u).masks = s.masks := rfl
@[simp] theorem State.setEmu_dmas (k : Nat) (u : EmuU) : (s.setEmu k u).dmas = s.dmas := rfl
@[simp] theorem State.setEmu_dmaRest (k : Nat) (u : EmuU) : (s.setEmu k u).dmaRest = s.dmaRest := rfl
@[simp] theorem State.setEmu_axes (k : Nat) (u : EmuU) : (s.setEmu k u).axes = s.axes := rfl
@[simp] theorem State.setEmu_poses (k : Nat) (u : EmuU) : (s.setEmu k u).poses = s.poses := rfl
@[simp] theorem State.setEmu_quads (k : Nat) (u : EmuU) : (s.setEmu k u).quads = s.quads := rfl
@[simp] theorem State.setEmu_procs (k : Nat) (u : EmuU) : (s.setEmu k u).procs = s.procs := rfl
@[simp] theorem State.setEmu_auds (k : Nat) (u : EmuU) : (s.setEmu k u).auds = s.auds := rfl
@[simp] theorem State.setEmu_thm (k : Nat) (u : EmuU) : (s.setEmu k u).thm = s.thm := rfl
@[simp] theorem State.setEmu_engs (k : Nat) (u : EmuU) : (s.setEmu k u).engs = s.engs := rfl
@[simp] theorem State.setEmu_stews (k : Nat) (u : EmuU) : (s.setEmu k u).stews = s.stews := rfl
@[simp] theorem State.setEmu_clus (k : Nat) (u : EmuU) : (s.setEmu k u).clus = s.clus := rfl
@[simp] theorem State.setEmu_pcie (k : Nat) (u : EmuU) : (s.setEmu k u).pcie = s.pcie := rfl
@[simp] theorem State.setEmu_nv (k : Nat) (u : EmuU) : (s.setEmu k u).nv = s.nv := rfl
@[simp] theorem State.setEmu_tick (k : Nat) (u : EmuU) : (s.setEmu k u).tick = s.tick := rfl
@[simp] theorem State.setEmu_answer (k : Nat) (u : EmuU) : (s.setEmu k u).answer = s.answer := rfl
@[simp] theorem State.setEmu_poison (k : Nat) (u : EmuU) : (s.setEmu k u).poison = s.poison := rfl
@[simp] theorem State.setEmu_free (k : Nat) (u : EmuU) : (s.setEmu k u).free = s.free := rfl
@[simp] theorem State.setEmu_sent (k : Nat) (u : EmuU) : (s.setEmu k u).sent = s.sent := rfl
@[simp] theorem State.setPosePort_pending (k : Nat) (u : PosePort) : (s.setPosePort k u).pending = s.pending := rfl
@[simp] theorem State.setPosePort_regs (k : Nat) (u : PosePort) : (s.setPosePort k u).regs = s.regs := rfl
@[simp] theorem State.setPosePort_act (k : Nat) (u : PosePort) : (s.setPosePort k u).act = s.act := rfl
@[simp] theorem State.setPosePort_due (k : Nat) (u : PosePort) : (s.setPosePort k u).due = s.due := rfl
@[simp] theorem State.setPosePort_held (k : Nat) (u : PosePort) : (s.setPosePort k u).held = s.held := rfl
@[simp] theorem State.setPosePort_frozen (k : Nat) (u : PosePort) : (s.setPosePort k u).frozen = s.frozen := rfl
@[simp] theorem State.setPosePort_tbl (k : Nat) (u : PosePort) : (s.setPosePort k u).tbl = s.tbl := rfl
@[simp] theorem State.setPosePort_mem (k : Nat) (u : PosePort) : (s.setPosePort k u).mem = s.mem := rfl
@[simp] theorem State.setPosePort_hostMem (k : Nat) (u : PosePort) : (s.setPosePort k u).hostMem = s.hostMem := rfl
@[simp] theorem State.setPosePort_adv (k : Nat) (u : PosePort) : (s.setPosePort k u).adv = s.adv := rfl
@[simp] theorem State.setPosePort_alm (k : Nat) (u : PosePort) : (s.setPosePort k u).alm = s.alm := rfl
@[simp] theorem State.setPosePort_fab (k : Nat) (u : PosePort) : (s.setPosePort k u).fab = s.fab := rfl
@[simp] theorem State.setPosePort_flt (k : Nat) (u : PosePort) : (s.setPosePort k u).flt = s.flt := rfl
@[simp] theorem State.setPosePort_pair (k : Nat) (u : PosePort) : (s.setPosePort k u).pair = s.pair := rfl
@[simp] theorem State.setPosePort_linesUp (k : Nat) (u : PosePort) : (s.setPosePort k u).linesUp = s.linesUp := rfl
@[simp] theorem State.setPosePort_camps (k : Nat) (u : PosePort) : (s.setPosePort k u).camps = s.camps := rfl
@[simp] theorem State.setPosePort_cals (k : Nat) (u : PosePort) : (s.setPosePort k u).cals = s.cals := rfl
@[simp] theorem State.setPosePort_twcs (k : Nat) (u : PosePort) : (s.setPosePort k u).twcs = s.twcs := rfl
@[simp] theorem State.setPosePort_twt (k : Nat) (u : PosePort) : (s.setPosePort k u).twt = s.twt := rfl
@[simp] theorem State.setPosePort_pipes (k : Nat) (u : PosePort) : (s.setPosePort k u).pipes = s.pipes := rfl
@[simp] theorem State.setPosePort_mfes (k : Nat) (u : PosePort) : (s.setPosePort k u).mfes = s.mfes := rfl
@[simp] theorem State.setPosePort_heads (k : Nat) (u : PosePort) : (s.setPosePort k u).heads = s.heads := rfl
@[simp] theorem State.setPosePort_prds (k : Nat) (u : PosePort) : (s.setPosePort k u).prds = s.prds := rfl
@[simp] theorem State.setPosePort_codec (k : Nat) (u : PosePort) : (s.setPosePort k u).codec = s.codec := rfl
@[simp] theorem State.setPosePort_vccs (k : Nat) (u : PosePort) : (s.setPosePort k u).vccs = s.vccs := rfl
@[simp] theorem State.setPosePort_time (k : Nat) (u : PosePort) : (s.setPosePort k u).time = s.time := rfl
@[simp] theorem State.setPosePort_dchs (k : Nat) (u : PosePort) : (s.setPosePort k u).dchs = s.dchs := rfl
@[simp] theorem State.setPosePort_masks (k : Nat) (u : PosePort) : (s.setPosePort k u).masks = s.masks := rfl
@[simp] theorem State.setPosePort_dmas (k : Nat) (u : PosePort) : (s.setPosePort k u).dmas = s.dmas := rfl
@[simp] theorem State.setPosePort_dmaRest (k : Nat) (u : PosePort) : (s.setPosePort k u).dmaRest = s.dmaRest := rfl
@[simp] theorem State.setPosePort_axes (k : Nat) (u : PosePort) : (s.setPosePort k u).axes = s.axes := rfl
@[simp] theorem State.setPosePort_emus (k : Nat) (u : PosePort) : (s.setPosePort k u).emus = s.emus := rfl
@[simp] theorem State.setPosePort_quads (k : Nat) (u : PosePort) : (s.setPosePort k u).quads = s.quads := rfl
@[simp] theorem State.setPosePort_procs (k : Nat) (u : PosePort) : (s.setPosePort k u).procs = s.procs := rfl
@[simp] theorem State.setPosePort_auds (k : Nat) (u : PosePort) : (s.setPosePort k u).auds = s.auds := rfl
@[simp] theorem State.setPosePort_thm (k : Nat) (u : PosePort) : (s.setPosePort k u).thm = s.thm := rfl
@[simp] theorem State.setPosePort_engs (k : Nat) (u : PosePort) : (s.setPosePort k u).engs = s.engs := rfl
@[simp] theorem State.setPosePort_stews (k : Nat) (u : PosePort) : (s.setPosePort k u).stews = s.stews := rfl
@[simp] theorem State.setPosePort_clus (k : Nat) (u : PosePort) : (s.setPosePort k u).clus = s.clus := rfl
@[simp] theorem State.setPosePort_pcie (k : Nat) (u : PosePort) : (s.setPosePort k u).pcie = s.pcie := rfl
@[simp] theorem State.setPosePort_nv (k : Nat) (u : PosePort) : (s.setPosePort k u).nv = s.nv := rfl
@[simp] theorem State.setPosePort_tick (k : Nat) (u : PosePort) : (s.setPosePort k u).tick = s.tick := rfl
@[simp] theorem State.setPosePort_answer (k : Nat) (u : PosePort) : (s.setPosePort k u).answer = s.answer := rfl
@[simp] theorem State.setPosePort_poison (k : Nat) (u : PosePort) : (s.setPosePort k u).poison = s.poison := rfl
@[simp] theorem State.setPosePort_free (k : Nat) (u : PosePort) : (s.setPosePort k u).free = s.free := rfl
@[simp] theorem State.setPosePort_sent (k : Nat) (u : PosePort) : (s.setPosePort k u).sent = s.sent := rfl
@[simp] theorem State.setQuad_pending (k : Nat) (u : QuadU) : (s.setQuad k u).pending = s.pending := rfl
@[simp] theorem State.setQuad_regs (k : Nat) (u : QuadU) : (s.setQuad k u).regs = s.regs := rfl
@[simp] theorem State.setQuad_act (k : Nat) (u : QuadU) : (s.setQuad k u).act = s.act := rfl
@[simp] theorem State.setQuad_due (k : Nat) (u : QuadU) : (s.setQuad k u).due = s.due := rfl
@[simp] theorem State.setQuad_held (k : Nat) (u : QuadU) : (s.setQuad k u).held = s.held := rfl
@[simp] theorem State.setQuad_frozen (k : Nat) (u : QuadU) : (s.setQuad k u).frozen = s.frozen := rfl
@[simp] theorem State.setQuad_tbl (k : Nat) (u : QuadU) : (s.setQuad k u).tbl = s.tbl := rfl
@[simp] theorem State.setQuad_mem (k : Nat) (u : QuadU) : (s.setQuad k u).mem = s.mem := rfl
@[simp] theorem State.setQuad_hostMem (k : Nat) (u : QuadU) : (s.setQuad k u).hostMem = s.hostMem := rfl
@[simp] theorem State.setQuad_adv (k : Nat) (u : QuadU) : (s.setQuad k u).adv = s.adv := rfl
@[simp] theorem State.setQuad_alm (k : Nat) (u : QuadU) : (s.setQuad k u).alm = s.alm := rfl
@[simp] theorem State.setQuad_fab (k : Nat) (u : QuadU) : (s.setQuad k u).fab = s.fab := rfl
@[simp] theorem State.setQuad_flt (k : Nat) (u : QuadU) : (s.setQuad k u).flt = s.flt := rfl
@[simp] theorem State.setQuad_pair (k : Nat) (u : QuadU) : (s.setQuad k u).pair = s.pair := rfl
@[simp] theorem State.setQuad_linesUp (k : Nat) (u : QuadU) : (s.setQuad k u).linesUp = s.linesUp := rfl
@[simp] theorem State.setQuad_camps (k : Nat) (u : QuadU) : (s.setQuad k u).camps = s.camps := rfl
@[simp] theorem State.setQuad_cals (k : Nat) (u : QuadU) : (s.setQuad k u).cals = s.cals := rfl
@[simp] theorem State.setQuad_twcs (k : Nat) (u : QuadU) : (s.setQuad k u).twcs = s.twcs := rfl
@[simp] theorem State.setQuad_twt (k : Nat) (u : QuadU) : (s.setQuad k u).twt = s.twt := rfl
@[simp] theorem State.setQuad_pipes (k : Nat) (u : QuadU) : (s.setQuad k u).pipes = s.pipes := rfl
@[simp] theorem State.setQuad_mfes (k : Nat) (u : QuadU) : (s.setQuad k u).mfes = s.mfes := rfl
@[simp] theorem State.setQuad_heads (k : Nat) (u : QuadU) : (s.setQuad k u).heads = s.heads := rfl
@[simp] theorem State.setQuad_prds (k : Nat) (u : QuadU) : (s.setQuad k u).prds = s.prds := rfl
@[simp] theorem State.setQuad_codec (k : Nat) (u : QuadU) : (s.setQuad k u).codec = s.codec := rfl
@[simp] theorem State.setQuad_vccs (k : Nat) (u : QuadU) : (s.setQuad k u).vccs = s.vccs := rfl
@[simp] theorem State.setQuad_time (k : Nat) (u : QuadU) : (s.setQuad k u).time = s.time := rfl
@[simp] theorem State.setQuad_dchs (k : Nat) (u : QuadU) : (s.setQuad k u).dchs = s.dchs := rfl
@[simp] theorem State.setQuad_masks (k : Nat) (u : QuadU) : (s.setQuad k u).masks = s.masks := rfl
@[simp] theorem State.setQuad_dmas (k : Nat) (u : QuadU) : (s.setQuad k u).dmas = s.dmas := rfl
@[simp] theorem State.setQuad_dmaRest (k : Nat) (u : QuadU) : (s.setQuad k u).dmaRest = s.dmaRest := rfl
@[simp] theorem State.setQuad_axes (k : Nat) (u : QuadU) : (s.setQuad k u).axes = s.axes := rfl
@[simp] theorem State.setQuad_emus (k : Nat) (u : QuadU) : (s.setQuad k u).emus = s.emus := rfl
@[simp] theorem State.setQuad_poses (k : Nat) (u : QuadU) : (s.setQuad k u).poses = s.poses := rfl
@[simp] theorem State.setQuad_procs (k : Nat) (u : QuadU) : (s.setQuad k u).procs = s.procs := rfl
@[simp] theorem State.setQuad_auds (k : Nat) (u : QuadU) : (s.setQuad k u).auds = s.auds := rfl
@[simp] theorem State.setQuad_thm (k : Nat) (u : QuadU) : (s.setQuad k u).thm = s.thm := rfl
@[simp] theorem State.setQuad_engs (k : Nat) (u : QuadU) : (s.setQuad k u).engs = s.engs := rfl
@[simp] theorem State.setQuad_stews (k : Nat) (u : QuadU) : (s.setQuad k u).stews = s.stews := rfl
@[simp] theorem State.setQuad_clus (k : Nat) (u : QuadU) : (s.setQuad k u).clus = s.clus := rfl
@[simp] theorem State.setQuad_pcie (k : Nat) (u : QuadU) : (s.setQuad k u).pcie = s.pcie := rfl
@[simp] theorem State.setQuad_nv (k : Nat) (u : QuadU) : (s.setQuad k u).nv = s.nv := rfl
@[simp] theorem State.setQuad_tick (k : Nat) (u : QuadU) : (s.setQuad k u).tick = s.tick := rfl
@[simp] theorem State.setQuad_answer (k : Nat) (u : QuadU) : (s.setQuad k u).answer = s.answer := rfl
@[simp] theorem State.setQuad_poison (k : Nat) (u : QuadU) : (s.setQuad k u).poison = s.poison := rfl
@[simp] theorem State.setQuad_free (k : Nat) (u : QuadU) : (s.setQuad k u).free = s.free := rfl
@[simp] theorem State.setQuad_sent (k : Nat) (u : QuadU) : (s.setQuad k u).sent = s.sent := rfl
@[simp] theorem State.setProc_pending (k : Bool) (u : ProcPort) : (s.setProc k u).pending = s.pending := rfl
@[simp] theorem State.setProc_regs (k : Bool) (u : ProcPort) : (s.setProc k u).regs = s.regs := rfl
@[simp] theorem State.setProc_act (k : Bool) (u : ProcPort) : (s.setProc k u).act = s.act := rfl
@[simp] theorem State.setProc_due (k : Bool) (u : ProcPort) : (s.setProc k u).due = s.due := rfl
@[simp] theorem State.setProc_held (k : Bool) (u : ProcPort) : (s.setProc k u).held = s.held := rfl
@[simp] theorem State.setProc_frozen (k : Bool) (u : ProcPort) : (s.setProc k u).frozen = s.frozen := rfl
@[simp] theorem State.setProc_tbl (k : Bool) (u : ProcPort) : (s.setProc k u).tbl = s.tbl := rfl
@[simp] theorem State.setProc_mem (k : Bool) (u : ProcPort) : (s.setProc k u).mem = s.mem := rfl
@[simp] theorem State.setProc_hostMem (k : Bool) (u : ProcPort) : (s.setProc k u).hostMem = s.hostMem := rfl
@[simp] theorem State.setProc_adv (k : Bool) (u : ProcPort) : (s.setProc k u).adv = s.adv := rfl
@[simp] theorem State.setProc_alm (k : Bool) (u : ProcPort) : (s.setProc k u).alm = s.alm := rfl
@[simp] theorem State.setProc_fab (k : Bool) (u : ProcPort) : (s.setProc k u).fab = s.fab := rfl
@[simp] theorem State.setProc_flt (k : Bool) (u : ProcPort) : (s.setProc k u).flt = s.flt := rfl
@[simp] theorem State.setProc_pair (k : Bool) (u : ProcPort) : (s.setProc k u).pair = s.pair := rfl
@[simp] theorem State.setProc_linesUp (k : Bool) (u : ProcPort) : (s.setProc k u).linesUp = s.linesUp := rfl
@[simp] theorem State.setProc_camps (k : Bool) (u : ProcPort) : (s.setProc k u).camps = s.camps := rfl
@[simp] theorem State.setProc_cals (k : Bool) (u : ProcPort) : (s.setProc k u).cals = s.cals := rfl
@[simp] theorem State.setProc_twcs (k : Bool) (u : ProcPort) : (s.setProc k u).twcs = s.twcs := rfl
@[simp] theorem State.setProc_twt (k : Bool) (u : ProcPort) : (s.setProc k u).twt = s.twt := rfl
@[simp] theorem State.setProc_pipes (k : Bool) (u : ProcPort) : (s.setProc k u).pipes = s.pipes := rfl
@[simp] theorem State.setProc_mfes (k : Bool) (u : ProcPort) : (s.setProc k u).mfes = s.mfes := rfl
@[simp] theorem State.setProc_heads (k : Bool) (u : ProcPort) : (s.setProc k u).heads = s.heads := rfl
@[simp] theorem State.setProc_prds (k : Bool) (u : ProcPort) : (s.setProc k u).prds = s.prds := rfl
@[simp] theorem State.setProc_codec (k : Bool) (u : ProcPort) : (s.setProc k u).codec = s.codec := rfl
@[simp] theorem State.setProc_vccs (k : Bool) (u : ProcPort) : (s.setProc k u).vccs = s.vccs := rfl
@[simp] theorem State.setProc_time (k : Bool) (u : ProcPort) : (s.setProc k u).time = s.time := rfl
@[simp] theorem State.setProc_dchs (k : Bool) (u : ProcPort) : (s.setProc k u).dchs = s.dchs := rfl
@[simp] theorem State.setProc_masks (k : Bool) (u : ProcPort) : (s.setProc k u).masks = s.masks := rfl
@[simp] theorem State.setProc_dmas (k : Bool) (u : ProcPort) : (s.setProc k u).dmas = s.dmas := rfl
@[simp] theorem State.setProc_dmaRest (k : Bool) (u : ProcPort) : (s.setProc k u).dmaRest = s.dmaRest := rfl
@[simp] theorem State.setProc_axes (k : Bool) (u : ProcPort) : (s.setProc k u).axes = s.axes := rfl
@[simp] theorem State.setProc_emus (k : Bool) (u : ProcPort) : (s.setProc k u).emus = s.emus := rfl
@[simp] theorem State.setProc_poses (k : Bool) (u : ProcPort) : (s.setProc k u).poses = s.poses := rfl
@[simp] theorem State.setProc_quads (k : Bool) (u : ProcPort) : (s.setProc k u).quads = s.quads := rfl
@[simp] theorem State.setProc_auds (k : Bool) (u : ProcPort) : (s.setProc k u).auds = s.auds := rfl
@[simp] theorem State.setProc_thm (k : Bool) (u : ProcPort) : (s.setProc k u).thm = s.thm := rfl
@[simp] theorem State.setProc_engs (k : Bool) (u : ProcPort) : (s.setProc k u).engs = s.engs := rfl
@[simp] theorem State.setProc_stews (k : Bool) (u : ProcPort) : (s.setProc k u).stews = s.stews := rfl
@[simp] theorem State.setProc_clus (k : Bool) (u : ProcPort) : (s.setProc k u).clus = s.clus := rfl
@[simp] theorem State.setProc_pcie (k : Bool) (u : ProcPort) : (s.setProc k u).pcie = s.pcie := rfl
@[simp] theorem State.setProc_nv (k : Bool) (u : ProcPort) : (s.setProc k u).nv = s.nv := rfl
@[simp] theorem State.setProc_tick (k : Bool) (u : ProcPort) : (s.setProc k u).tick = s.tick := rfl
@[simp] theorem State.setProc_answer (k : Bool) (u : ProcPort) : (s.setProc k u).answer = s.answer := rfl
@[simp] theorem State.setProc_poison (k : Bool) (u : ProcPort) : (s.setProc k u).poison = s.poison := rfl
@[simp] theorem State.setProc_free (k : Bool) (u : ProcPort) : (s.setProc k u).free = s.free := rfl
@[simp] theorem State.setProc_sent (k : Bool) (u : ProcPort) : (s.setProc k u).sent = s.sent := rfl
@[simp] theorem State.setAud_pending (k : Nat) (u : AudU) : (s.setAud k u).pending = s.pending := rfl
@[simp] theorem State.setAud_regs (k : Nat) (u : AudU) : (s.setAud k u).regs = s.regs := rfl
@[simp] theorem State.setAud_act (k : Nat) (u : AudU) : (s.setAud k u).act = s.act := rfl
@[simp] theorem State.setAud_due (k : Nat) (u : AudU) : (s.setAud k u).due = s.due := rfl
@[simp] theorem State.setAud_held (k : Nat) (u : AudU) : (s.setAud k u).held = s.held := rfl
@[simp] theorem State.setAud_frozen (k : Nat) (u : AudU) : (s.setAud k u).frozen = s.frozen := rfl
@[simp] theorem State.setAud_tbl (k : Nat) (u : AudU) : (s.setAud k u).tbl = s.tbl := rfl
@[simp] theorem State.setAud_mem (k : Nat) (u : AudU) : (s.setAud k u).mem = s.mem := rfl
@[simp] theorem State.setAud_hostMem (k : Nat) (u : AudU) : (s.setAud k u).hostMem = s.hostMem := rfl
@[simp] theorem State.setAud_adv (k : Nat) (u : AudU) : (s.setAud k u).adv = s.adv := rfl
@[simp] theorem State.setAud_alm (k : Nat) (u : AudU) : (s.setAud k u).alm = s.alm := rfl
@[simp] theorem State.setAud_fab (k : Nat) (u : AudU) : (s.setAud k u).fab = s.fab := rfl
@[simp] theorem State.setAud_flt (k : Nat) (u : AudU) : (s.setAud k u).flt = s.flt := rfl
@[simp] theorem State.setAud_pair (k : Nat) (u : AudU) : (s.setAud k u).pair = s.pair := rfl
@[simp] theorem State.setAud_linesUp (k : Nat) (u : AudU) : (s.setAud k u).linesUp = s.linesUp := rfl
@[simp] theorem State.setAud_camps (k : Nat) (u : AudU) : (s.setAud k u).camps = s.camps := rfl
@[simp] theorem State.setAud_cals (k : Nat) (u : AudU) : (s.setAud k u).cals = s.cals := rfl
@[simp] theorem State.setAud_twcs (k : Nat) (u : AudU) : (s.setAud k u).twcs = s.twcs := rfl
@[simp] theorem State.setAud_twt (k : Nat) (u : AudU) : (s.setAud k u).twt = s.twt := rfl
@[simp] theorem State.setAud_pipes (k : Nat) (u : AudU) : (s.setAud k u).pipes = s.pipes := rfl
@[simp] theorem State.setAud_mfes (k : Nat) (u : AudU) : (s.setAud k u).mfes = s.mfes := rfl
@[simp] theorem State.setAud_heads (k : Nat) (u : AudU) : (s.setAud k u).heads = s.heads := rfl
@[simp] theorem State.setAud_prds (k : Nat) (u : AudU) : (s.setAud k u).prds = s.prds := rfl
@[simp] theorem State.setAud_codec (k : Nat) (u : AudU) : (s.setAud k u).codec = s.codec := rfl
@[simp] theorem State.setAud_vccs (k : Nat) (u : AudU) : (s.setAud k u).vccs = s.vccs := rfl
@[simp] theorem State.setAud_time (k : Nat) (u : AudU) : (s.setAud k u).time = s.time := rfl
@[simp] theorem State.setAud_dchs (k : Nat) (u : AudU) : (s.setAud k u).dchs = s.dchs := rfl
@[simp] theorem State.setAud_masks (k : Nat) (u : AudU) : (s.setAud k u).masks = s.masks := rfl
@[simp] theorem State.setAud_dmas (k : Nat) (u : AudU) : (s.setAud k u).dmas = s.dmas := rfl
@[simp] theorem State.setAud_dmaRest (k : Nat) (u : AudU) : (s.setAud k u).dmaRest = s.dmaRest := rfl
@[simp] theorem State.setAud_axes (k : Nat) (u : AudU) : (s.setAud k u).axes = s.axes := rfl
@[simp] theorem State.setAud_emus (k : Nat) (u : AudU) : (s.setAud k u).emus = s.emus := rfl
@[simp] theorem State.setAud_poses (k : Nat) (u : AudU) : (s.setAud k u).poses = s.poses := rfl
@[simp] theorem State.setAud_quads (k : Nat) (u : AudU) : (s.setAud k u).quads = s.quads := rfl
@[simp] theorem State.setAud_procs (k : Nat) (u : AudU) : (s.setAud k u).procs = s.procs := rfl
@[simp] theorem State.setAud_thm (k : Nat) (u : AudU) : (s.setAud k u).thm = s.thm := rfl
@[simp] theorem State.setAud_engs (k : Nat) (u : AudU) : (s.setAud k u).engs = s.engs := rfl
@[simp] theorem State.setAud_stews (k : Nat) (u : AudU) : (s.setAud k u).stews = s.stews := rfl
@[simp] theorem State.setAud_clus (k : Nat) (u : AudU) : (s.setAud k u).clus = s.clus := rfl
@[simp] theorem State.setAud_pcie (k : Nat) (u : AudU) : (s.setAud k u).pcie = s.pcie := rfl
@[simp] theorem State.setAud_nv (k : Nat) (u : AudU) : (s.setAud k u).nv = s.nv := rfl
@[simp] theorem State.setAud_tick (k : Nat) (u : AudU) : (s.setAud k u).tick = s.tick := rfl
@[simp] theorem State.setAud_answer (k : Nat) (u : AudU) : (s.setAud k u).answer = s.answer := rfl
@[simp] theorem State.setAud_poison (k : Nat) (u : AudU) : (s.setAud k u).poison = s.poison := rfl
@[simp] theorem State.setAud_free (k : Nat) (u : AudU) : (s.setAud k u).free = s.free := rfl
@[simp] theorem State.setAud_sent (k : Nat) (u : AudU) : (s.setAud k u).sent = s.sent := rfl
@[simp] theorem State.setClu_pending (k : Nat) (u : ClU) : (s.setClu k u).pending = s.pending := rfl
@[simp] theorem State.setClu_regs (k : Nat) (u : ClU) : (s.setClu k u).regs = s.regs := rfl
@[simp] theorem State.setClu_act (k : Nat) (u : ClU) : (s.setClu k u).act = s.act := rfl
@[simp] theorem State.setClu_due (k : Nat) (u : ClU) : (s.setClu k u).due = s.due := rfl
@[simp] theorem State.setClu_held (k : Nat) (u : ClU) : (s.setClu k u).held = s.held := rfl
@[simp] theorem State.setClu_frozen (k : Nat) (u : ClU) : (s.setClu k u).frozen = s.frozen := rfl
@[simp] theorem State.setClu_tbl (k : Nat) (u : ClU) : (s.setClu k u).tbl = s.tbl := rfl
@[simp] theorem State.setClu_mem (k : Nat) (u : ClU) : (s.setClu k u).mem = s.mem := rfl
@[simp] theorem State.setClu_hostMem (k : Nat) (u : ClU) : (s.setClu k u).hostMem = s.hostMem := rfl
@[simp] theorem State.setClu_adv (k : Nat) (u : ClU) : (s.setClu k u).adv = s.adv := rfl
@[simp] theorem State.setClu_alm (k : Nat) (u : ClU) : (s.setClu k u).alm = s.alm := rfl
@[simp] theorem State.setClu_fab (k : Nat) (u : ClU) : (s.setClu k u).fab = s.fab := rfl
@[simp] theorem State.setClu_flt (k : Nat) (u : ClU) : (s.setClu k u).flt = s.flt := rfl
@[simp] theorem State.setClu_pair (k : Nat) (u : ClU) : (s.setClu k u).pair = s.pair := rfl
@[simp] theorem State.setClu_linesUp (k : Nat) (u : ClU) : (s.setClu k u).linesUp = s.linesUp := rfl
@[simp] theorem State.setClu_camps (k : Nat) (u : ClU) : (s.setClu k u).camps = s.camps := rfl
@[simp] theorem State.setClu_cals (k : Nat) (u : ClU) : (s.setClu k u).cals = s.cals := rfl
@[simp] theorem State.setClu_twcs (k : Nat) (u : ClU) : (s.setClu k u).twcs = s.twcs := rfl
@[simp] theorem State.setClu_twt (k : Nat) (u : ClU) : (s.setClu k u).twt = s.twt := rfl
@[simp] theorem State.setClu_pipes (k : Nat) (u : ClU) : (s.setClu k u).pipes = s.pipes := rfl
@[simp] theorem State.setClu_mfes (k : Nat) (u : ClU) : (s.setClu k u).mfes = s.mfes := rfl
@[simp] theorem State.setClu_heads (k : Nat) (u : ClU) : (s.setClu k u).heads = s.heads := rfl
@[simp] theorem State.setClu_prds (k : Nat) (u : ClU) : (s.setClu k u).prds = s.prds := rfl
@[simp] theorem State.setClu_codec (k : Nat) (u : ClU) : (s.setClu k u).codec = s.codec := rfl
@[simp] theorem State.setClu_vccs (k : Nat) (u : ClU) : (s.setClu k u).vccs = s.vccs := rfl
@[simp] theorem State.setClu_time (k : Nat) (u : ClU) : (s.setClu k u).time = s.time := rfl
@[simp] theorem State.setClu_dchs (k : Nat) (u : ClU) : (s.setClu k u).dchs = s.dchs := rfl
@[simp] theorem State.setClu_masks (k : Nat) (u : ClU) : (s.setClu k u).masks = s.masks := rfl
@[simp] theorem State.setClu_dmas (k : Nat) (u : ClU) : (s.setClu k u).dmas = s.dmas := rfl
@[simp] theorem State.setClu_dmaRest (k : Nat) (u : ClU) : (s.setClu k u).dmaRest = s.dmaRest := rfl
@[simp] theorem State.setClu_axes (k : Nat) (u : ClU) : (s.setClu k u).axes = s.axes := rfl
@[simp] theorem State.setClu_emus (k : Nat) (u : ClU) : (s.setClu k u).emus = s.emus := rfl
@[simp] theorem State.setClu_poses (k : Nat) (u : ClU) : (s.setClu k u).poses = s.poses := rfl
@[simp] theorem State.setClu_quads (k : Nat) (u : ClU) : (s.setClu k u).quads = s.quads := rfl
@[simp] theorem State.setClu_procs (k : Nat) (u : ClU) : (s.setClu k u).procs = s.procs := rfl
@[simp] theorem State.setClu_auds (k : Nat) (u : ClU) : (s.setClu k u).auds = s.auds := rfl
@[simp] theorem State.setClu_thm (k : Nat) (u : ClU) : (s.setClu k u).thm = s.thm := rfl
@[simp] theorem State.setClu_engs (k : Nat) (u : ClU) : (s.setClu k u).engs = s.engs := rfl
@[simp] theorem State.setClu_stews (k : Nat) (u : ClU) : (s.setClu k u).stews = s.stews := rfl
@[simp] theorem State.setClu_pcie (k : Nat) (u : ClU) : (s.setClu k u).pcie = s.pcie := rfl
@[simp] theorem State.setClu_nv (k : Nat) (u : ClU) : (s.setClu k u).nv = s.nv := rfl
@[simp] theorem State.setClu_tick (k : Nat) (u : ClU) : (s.setClu k u).tick = s.tick := rfl
@[simp] theorem State.setClu_answer (k : Nat) (u : ClU) : (s.setClu k u).answer = s.answer := rfl
@[simp] theorem State.setClu_poison (k : Nat) (u : ClU) : (s.setClu k u).poison = s.poison := rfl
@[simp] theorem State.setClu_free (k : Nat) (u : ClU) : (s.setClu k u).free = s.free := rfl
@[simp] theorem State.setClu_sent (k : Nat) (u : ClU) : (s.setClu k u).sent = s.sent := rfl
@[simp] theorem State.setCtx_pending (k : Nat) (u : VCtx) : (s.setCtx k u).pending = s.pending := rfl
@[simp] theorem State.setCtx_regs (k : Nat) (u : VCtx) : (s.setCtx k u).regs = s.regs := rfl
@[simp] theorem State.setCtx_act (k : Nat) (u : VCtx) : (s.setCtx k u).act = s.act := rfl
@[simp] theorem State.setCtx_due (k : Nat) (u : VCtx) : (s.setCtx k u).due = s.due := rfl
@[simp] theorem State.setCtx_held (k : Nat) (u : VCtx) : (s.setCtx k u).held = s.held := rfl
@[simp] theorem State.setCtx_frozen (k : Nat) (u : VCtx) : (s.setCtx k u).frozen = s.frozen := rfl
@[simp] theorem State.setCtx_tbl (k : Nat) (u : VCtx) : (s.setCtx k u).tbl = s.tbl := rfl
@[simp] theorem State.setCtx_mem (k : Nat) (u : VCtx) : (s.setCtx k u).mem = s.mem := rfl
@[simp] theorem State.setCtx_hostMem (k : Nat) (u : VCtx) : (s.setCtx k u).hostMem = s.hostMem := rfl
@[simp] theorem State.setCtx_adv (k : Nat) (u : VCtx) : (s.setCtx k u).adv = s.adv := rfl
@[simp] theorem State.setCtx_alm (k : Nat) (u : VCtx) : (s.setCtx k u).alm = s.alm := rfl
@[simp] theorem State.setCtx_fab (k : Nat) (u : VCtx) : (s.setCtx k u).fab = s.fab := rfl
@[simp] theorem State.setCtx_flt (k : Nat) (u : VCtx) : (s.setCtx k u).flt = s.flt := rfl
@[simp] theorem State.setCtx_pair (k : Nat) (u : VCtx) : (s.setCtx k u).pair = s.pair := rfl
@[simp] theorem State.setCtx_linesUp (k : Nat) (u : VCtx) : (s.setCtx k u).linesUp = s.linesUp := rfl
@[simp] theorem State.setCtx_camps (k : Nat) (u : VCtx) : (s.setCtx k u).camps = s.camps := rfl
@[simp] theorem State.setCtx_cals (k : Nat) (u : VCtx) : (s.setCtx k u).cals = s.cals := rfl
@[simp] theorem State.setCtx_twcs (k : Nat) (u : VCtx) : (s.setCtx k u).twcs = s.twcs := rfl
@[simp] theorem State.setCtx_twt (k : Nat) (u : VCtx) : (s.setCtx k u).twt = s.twt := rfl
@[simp] theorem State.setCtx_pipes (k : Nat) (u : VCtx) : (s.setCtx k u).pipes = s.pipes := rfl
@[simp] theorem State.setCtx_mfes (k : Nat) (u : VCtx) : (s.setCtx k u).mfes = s.mfes := rfl
@[simp] theorem State.setCtx_heads (k : Nat) (u : VCtx) : (s.setCtx k u).heads = s.heads := rfl
@[simp] theorem State.setCtx_prds (k : Nat) (u : VCtx) : (s.setCtx k u).prds = s.prds := rfl
@[simp] theorem State.setCtx_vccs (k : Nat) (u : VCtx) : (s.setCtx k u).vccs = s.vccs := rfl
@[simp] theorem State.setCtx_time (k : Nat) (u : VCtx) : (s.setCtx k u).time = s.time := rfl
@[simp] theorem State.setCtx_dchs (k : Nat) (u : VCtx) : (s.setCtx k u).dchs = s.dchs := rfl
@[simp] theorem State.setCtx_masks (k : Nat) (u : VCtx) : (s.setCtx k u).masks = s.masks := rfl
@[simp] theorem State.setCtx_dmas (k : Nat) (u : VCtx) : (s.setCtx k u).dmas = s.dmas := rfl
@[simp] theorem State.setCtx_dmaRest (k : Nat) (u : VCtx) : (s.setCtx k u).dmaRest = s.dmaRest := rfl
@[simp] theorem State.setCtx_axes (k : Nat) (u : VCtx) : (s.setCtx k u).axes = s.axes := rfl
@[simp] theorem State.setCtx_emus (k : Nat) (u : VCtx) : (s.setCtx k u).emus = s.emus := rfl
@[simp] theorem State.setCtx_poses (k : Nat) (u : VCtx) : (s.setCtx k u).poses = s.poses := rfl
@[simp] theorem State.setCtx_quads (k : Nat) (u : VCtx) : (s.setCtx k u).quads = s.quads := rfl
@[simp] theorem State.setCtx_procs (k : Nat) (u : VCtx) : (s.setCtx k u).procs = s.procs := rfl
@[simp] theorem State.setCtx_auds (k : Nat) (u : VCtx) : (s.setCtx k u).auds = s.auds := rfl
@[simp] theorem State.setCtx_thm (k : Nat) (u : VCtx) : (s.setCtx k u).thm = s.thm := rfl
@[simp] theorem State.setCtx_engs (k : Nat) (u : VCtx) : (s.setCtx k u).engs = s.engs := rfl
@[simp] theorem State.setCtx_stews (k : Nat) (u : VCtx) : (s.setCtx k u).stews = s.stews := rfl
@[simp] theorem State.setCtx_clus (k : Nat) (u : VCtx) : (s.setCtx k u).clus = s.clus := rfl
@[simp] theorem State.setCtx_pcie (k : Nat) (u : VCtx) : (s.setCtx k u).pcie = s.pcie := rfl
@[simp] theorem State.setCtx_nv (k : Nat) (u : VCtx) : (s.setCtx k u).nv = s.nv := rfl
@[simp] theorem State.setCtx_tick (k : Nat) (u : VCtx) : (s.setCtx k u).tick = s.tick := rfl
@[simp] theorem State.setCtx_answer (k : Nat) (u : VCtx) : (s.setCtx k u).answer = s.answer := rfl
@[simp] theorem State.setCtx_poison (k : Nat) (u : VCtx) : (s.setCtx k u).poison = s.poison := rfl
@[simp] theorem State.setCtx_free (k : Nat) (u : VCtx) : (s.setCtx k u).free = s.free := rfl
@[simp] theorem State.setCtx_sent (k : Nat) (u : VCtx) : (s.setCtx k u).sent = s.sent := rfl
end Sys2Proof.Machine
end

