-- ==== Sys2Proof/Laws/UMap.lean ====
section
/-! SUPPORT. Sparse maps: what one write changes, what it leaves alone, and that the canonical form is kept. -/
namespace Sys2Proof.Machine

variable {α : Type}

theorem UMap.get_put_same (d : Nat → α) (k : Nat) (v : α) : ∀ m : UMap α, UMap.get d (UMap.put m k v) k = v
  | [] => by simp [UMap.put, UMap.get]
  | (a, x) :: t => by
    have ih := UMap.get_put_same d k v t
    simp only [UMap.put]
    split
    · simp [UMap.get]
    · split
      · simp [UMap.get]
      · simp [UMap.get, *]

theorem UMap.get_put_ne (d : Nat → α) {k j : Nat} (v : α) (h : j ≠ k) :
    ∀ m : UMap α, UMap.get d (UMap.put m k v) j = UMap.get d m j
  | [] => by simp [UMap.put, UMap.get, h]
  | (a, x) :: t => by
    have ih := UMap.get_put_ne d v h t
    simp only [UMap.put]
    split
    · simp [UMap.get, h]
    · split
      · rename_i hk
        subst hk
        simp [UMap.get, h]
      · simp [UMap.get, ih]

theorem UMap.get_without_same (d : Nat → α) (k : Nat) :
    ∀ m : UMap α, UMap.get d (m.filter (fun e => e.1 ≠ k)) k = d k
  | [] => rfl
  | (a, x) :: t => by
    have ih := UMap.get_without_same d k t
    by_cases h : a = k
    · simpa [List.filter_cons, h] using ih
    · have h' : ¬ k = a := fun e => h e.symm
      simpa [List.filter_cons, h, UMap.get, h'] using ih

theorem UMap.get_without_ne (d : Nat → α) {k j : Nat} (h : j ≠ k) :
    ∀ m : UMap α, UMap.get d (m.filter (fun e => e.1 ≠ k)) j = UMap.get d m j
  | [] => rfl
  | (a, x) :: t => by
    have ih := UMap.get_without_ne d h t
    by_cases hk : a = k
    · subst hk
      simpa [List.filter_cons, UMap.get, h] using ih
    · have hf : ((a, x) :: t).filter (fun e => e.1 ≠ k) = (a, x) :: t.filter (fun e => e.1 ≠ k) := by
        simp [hk]
      rw [hf]
      simp only [UMap.get, ih]

variable [DecidableEq α]

theorem UMap.set_eq (d : Nat → α) (m : UMap α) (k : Nat) (v : α) :
    UMap.set d m k v = if v = d k then m.filter (fun e => e.1 ≠ k) else UMap.put m k v := by
  cases m <;> rfl

/-- The key that was set reads as set. -/
@[simp] theorem UMap.get_set_same (d : Nat → α) (m : UMap α) (k : Nat) (v : α) : UMap.get d (UMap.set d m k v) k = v := by
  rw [UMap.set_eq]
  split
  · rename_i h
    rw [UMap.get_without_same, h]
  · exact UMap.get_put_same d k v m

/-- Every other key reads as before. -/
theorem UMap.get_set_ne (d : Nat → α) (m : UMap α) {k j : Nat} (v : α) (h : j ≠ k) :
    UMap.get d (UMap.set d m k v) j = UMap.get d m j := by
  rw [UMap.set_eq]
  split
  · exact UMap.get_without_ne d h m
  · exact UMap.get_put_ne d v h m

/-- A read after one write. -/
theorem UMap.get_set (d : Nat → α) (m : UMap α) (k j : Nat) (v : α) :
    UMap.get d (UMap.set d m k v) j = if j = k then v else UMap.get d m j := by
  split
  · rename_i h
    rw [h, UMap.get_set_same]
  · rename_i h
    exact UMap.get_set_ne d m v h

omit [DecidableEq α] in
theorem UMap.above_mono {b c : Nat} (h : b ≤ c) : ∀ {m : UMap α}, UMap.above c m = true → UMap.above b m = true
  | [], _ => rfl
  | (a, _) :: _, hc => by
    have : c < a := by simpa [UMap.above] using hc
    simp only [UMap.above, decide_eq_true_eq]
    omega

theorem UMap.wf_cons {d : Nat → α} {a : Nat} {v : α} {t : UMap α} :
    UMap.wf d ((a, v) :: t) = true ↔ UMap.above a t = true ∧ v ≠ d a ∧ UMap.wf d t = true := by
  simp [UMap.wf, and_assoc]

/-- Every part of a canonical map above b, with some entries left out, lies above b. -/
theorem UMap.above_filter (d : Nat → α) (p : Nat × α → Bool) {b : Nat} :
    ∀ {m : UMap α}, UMap.wf d m = true → UMap.above b m = true → UMap.above b (m.filter p) = true
  | [], _, _ => rfl
  | (a, v) :: t, hw, hb => by
    obtain ⟨h1, -, h3⟩ := UMap.wf_cons.mp hw
    have hlt : b < a := by simpa [UMap.above] using hb
    rw [List.filter_cons]
    split
    · simpa [UMap.above] using hlt
    · exact UMap.above_filter d p h3 (UMap.above_mono (Nat.le_of_lt hlt) h1)

theorem UMap.wf_filter (d : Nat → α) (p : Nat × α → Bool) :
    ∀ {m : UMap α}, UMap.wf d m = true → UMap.wf d (m.filter p) = true
  | [], _ => rfl
  | (a, v) :: t, hw => by
    obtain ⟨h1, h2, h3⟩ := UMap.wf_cons.mp hw
    rw [List.filter_cons]
    split
    · exact UMap.wf_cons.mpr ⟨UMap.above_filter d p h3 h1, h2, UMap.wf_filter d p h3⟩
    · exact UMap.wf_filter d p h3

omit [DecidableEq α] in
theorem UMap.above_put {b k : Nat} (v : α) (hk : b < k) :
    ∀ {m : UMap α}, UMap.above b m = true → UMap.above b (UMap.put m k v) = true
  | [], _ => by simpa [UMap.put, UMap.above] using hk
  | (a, x) :: t, hb => by
    have hlt : b < a := by simpa [UMap.above] using hb
    simp only [UMap.put]
    split
    · simpa [UMap.above] using hk
    · split
      · simpa [UMap.above] using hk
      · simpa [UMap.above] using hlt

theorem UMap.wf_put (d : Nat → α) {k : Nat} {v : α} (hv : v ≠ d k) :
    ∀ {m : UMap α}, UMap.wf d m = true → UMap.wf d (UMap.put m k v) = true
  | [], _ => by simpa [UMap.put, UMap.wf, UMap.above] using hv
  | (a, x) :: t, hw => by
    obtain ⟨h1, h2, h3⟩ := UMap.wf_cons.mp hw
    simp only [UMap.put]
    split
    · rename_i hlt
      exact UMap.wf_cons.mpr ⟨by simpa [UMap.above] using hlt, hv, hw⟩
    · split
      · rename_i he
        subst he
        exact UMap.wf_cons.mpr ⟨h1, hv, h3⟩
      · rename_i h4 h5
        exact UMap.wf_cons.mpr ⟨UMap.above_put v (by omega) h1, h2, UMap.wf_put d hv h3⟩

/-- A write keeps the canonical form. -/
theorem UMap.wf_set (d : Nat → α) {m : UMap α} (k : Nat) (v : α) (h : UMap.wf d m = true) :
    UMap.wf d (UMap.set d m k v) = true := by
  rw [UMap.set_eq]
  split
  · exact UMap.wf_filter d _ h
  · rename_i hv
    exact UMap.wf_put d hv h

end Sys2Proof.Machine
end

