-- ==== Sys2Proof/Laws/Memory.lean ====
section
/-! SUPPORT. Memory, tables and registers: a read after a write, every other place as before, and the canonical form kept by
every operation. -/
namespace Sys2Proof.Machine

/-! ### Registers -/

@[simp] theorem State.rd_wr_same (s : State) (a : Nat) (v : Word) : (s.wr a v).rd a = v :=
  UMap.get_set_same regReset s.regs a v

theorem State.rd_wr_ne (s : State) {a b : Nat} (v : Word) (h : b ≠ a) : (s.wr a v).rd b = s.rd b :=
  UMap.get_set_ne regReset s.regs v h

theorem State.rd_wr (s : State) (a b : Nat) (v : Word) : (s.wr a v).rd b = if b = a then v else s.rd b :=
  UMap.get_set regReset s.regs a b v

/-- Reading depends on the register file alone. -/
theorem State.rd_congr {s t : State} (h : t.regs = s.regs) (a : Nat) : t.rd a = s.rd a := by
  simp only [State.rd, h]

theorem State.fld_congr {s t : State} (h : t.regs = s.regs) (b : Nat) (f : Fld) : t.fld b f = s.fld b f := by
  simp only [State.fld, State.rd, h]

theorem State.flag_congr {s t : State} (h : t.regs = s.regs) (b : Nat) (f : Fld) : t.flag b f = s.flag b f := by
  simp only [State.flag, State.fld, State.rd, h]

/-! ### Tables -/

@[simp] theorem State.tget_tset_same (s : State) (t : Tbl) (n i : Nat) (v : Word) : (s.tset t n i v).tget t n i = v :=
  UMap.get_set_same tblReset s.tbl (tblKey t n i) v

theorem State.tget_tset_ne (s : State) {t t' : Tbl} {n n' i i' : Nat} (v : Word) (h : tblKey t' n' i' ≠ tblKey t n i) :
    (s.tset t n i v).tget t' n' i' = s.tget t' n' i' :=
  UMap.get_set_ne tblReset s.tbl v h

/-! ### Memory -/

@[simp] theorem State.memByte_setMemByte_same (s : State) (a : Nat) (b : Byte) : (s.setMemByte a b).memByte a = b :=
  UMap.get_set_same noByte s.mem a b

theorem State.memByte_setMemByte_ne (s : State) {a c : Nat} (b : Byte) (h : c ≠ a) :
    (s.setMemByte a b).memByte c = s.memByte c :=
  UMap.get_set_ne noByte s.mem b h

theorem State.memByte_congr {s t : State} (h : t.mem = s.mem) (a : Nat) : t.memByte a = s.memByte a := by
  simp only [State.memByte, h]

theorem State.hostByte_congr {s t : State} (h : t.hostMem = s.hostMem) (a : Nat) : t.hostByte a = s.hostByte a := by
  simp only [State.hostByte, h]

/-- What a store of bytes finds at an address afterwards. -/
theorem State.memByte_setMemBytes : ∀ (l : List Byte) (s : State) (a c : Nat),
    (s.setMemBytes a l).memByte c = if a ≤ c then (match l[c - a]? with | some b => b | none => s.memByte c) else s.memByte c
  | [], s, a, c => by simp [State.setMemBytes]
  | b :: t, s, a, c => by
    rw [State.setMemBytes, State.memByte_setMemBytes t]
    by_cases h1 : a + 1 ≤ c
    · have h2 : a ≤ c := by omega
      have h3 : c ≠ a := by omega
      have h4 : c - a = (c - (a + 1)) + 1 := by omega
      rw [if_pos h1, if_pos h2, State.memByte_setMemByte_ne s b h3, h4, List.getElem?_cons_succ]
    · rw [if_neg h1]
      by_cases h3 : c = a
      · subst h3
        simp
      · have h4 : ¬ a ≤ c := by omega
        rw [if_neg h4, State.memByte_setMemByte_ne s b h3]

/-- Bytes outside those stored stay. -/
theorem State.memByte_setMemBytes_out (l : List Byte) (s : State) (a c : Nat) (h : c < a ∨ a + l.length ≤ c) :
    (s.setMemBytes a l).memByte c = s.memByte c := by
  rw [State.memByte_setMemBytes]
  split
  · rename_i hac
    have : l.length ≤ c - a := by omega
    rw [List.getElem?_eq_none this]
  · rfl

theorem State.hostByte_setHostBytes_out : ∀ (l : List Byte) (s : State) (a c : Nat), (c < a ∨ a + l.length ≤ c) →
    (s.setHostBytes a l).hostByte c = s.hostByte c
  | [], _, _, _, _ => rfl
  | b :: t, s, a, c, h => by
    rw [State.setHostBytes, State.hostByte_setHostBytes_out t _ (a + 1) c (by simp only [List.length_cons] at h; omega)]
    exact UMap.get_set_ne noByte s.hostMem b (by simp only [List.length_cons] at h; omega)

/-- A store of bytes changes device memory alone. -/
theorem State.setMemBytes_eq : ∀ (l : List Byte) (s : State) (a : Nat),
    s.setMemBytes a l = { s with mem := (s.setMemBytes a l).mem }
  | [], _, _ => rfl
  | b :: t, s, a => by
    have h := State.setMemBytes_eq t (s.setMemByte a b) (a + 1)
    rw [State.setMemBytes]
    rw [h]
    rfl

theorem State.setHostBytes_eq : ∀ (l : List Byte) (s : State) (a : Nat),
    s.setHostBytes a l = { s with hostMem := (s.setHostBytes a l).hostMem }
  | [], _, _ => rfl
  | b :: t, s, a => by
    have h := State.setHostBytes_eq t { s with hostMem := UMap.set noByte s.hostMem a b } (a + 1)
    rw [State.setHostBytes]
    rw [h]

/-! ### The canonical form -/

theorem State.setMemBytes_wf : ∀ (l : List Byte) (s : State) (a : Nat), Memory.wf s.mem = true →
    Memory.wf (s.setMemBytes a l).mem = true
  | [], _, _, h => h
  | b :: t, s, a, h => State.setMemBytes_wf t (s.setMemByte a b) (a + 1) (UMap.wf_set noByte a b h)

theorem State.setHostBytes_wf : ∀ (l : List Byte) (s : State) (a : Nat), Memory.wf s.hostMem = true →
    Memory.wf (s.setHostBytes a l).hostMem = true
  | [], _, _, h => h
  | b :: t, s, a, h =>
    State.setHostBytes_wf t { s with hostMem := UMap.set noByte s.hostMem a b } (a + 1) (UMap.wf_set noByte a b h)

theorem State.wr_canonical (s : State) (a : Nat) (v : Word) (h : s.canonical = true) : (s.wr a v).canonical = true := by
  simp only [State.canonical, Bool.and_eq_true, State.wr_act, State.wr_tbl, State.wr_mem, State.wr_hostMem] at h ⊢
  exact ⟨⟨⟨⟨UMap.wf_set regReset a v h.1.1.1.1, h.1.1.1.2⟩, h.1.1.2⟩, h.1.2⟩, h.2⟩

theorem State.tset_canonical (s : State) (t : Tbl) (n i : Nat) (v : Word) (h : s.canonical = true) :
    (s.tset t n i v).canonical = true := by
  simp only [State.canonical, Bool.and_eq_true, State.tset_act, State.tset_regs, State.tset_mem, State.tset_hostMem] at h ⊢
  exact ⟨⟨⟨⟨h.1.1.1.1, h.1.1.1.2⟩, UMap.wf_set tblReset _ v h.1.1.2⟩, h.1.2⟩, h.2⟩

theorem State.setMemByte_canonical (s : State) (a : Nat) (b : Byte) (h : s.canonical = true) :
    (s.setMemByte a b).canonical = true := by
  simp only [State.canonical, Bool.and_eq_true, State.setMemByte_act, State.setMemByte_regs, State.setMemByte_tbl,
    State.setMemByte_hostMem] at h ⊢
  exact ⟨⟨⟨⟨h.1.1.1.1, h.1.1.1.2⟩, h.1.1.2⟩, UMap.wf_set noByte a b h.1.2⟩, h.2⟩

/-- Reset lists nothing anywhere. -/
theorem State.reset_canonical : State.reset.canonical = true := rfl

end Sys2Proof.Machine
end

