-- ==== Sys2Proof/Laws/Fields.lean ====
section
/-! SUPPORT. Fields of registers: what a field reads as after a write of itself, of a neighbour, of another register. -/
namespace Sys2Proof.Machine

theorem bits_testBit (n hi lo i : Nat) : (bits n hi lo).testBit i = (decide (i < hi + 1 - lo) && n.testBit (lo + i)) := by
  simp [bits, Nat.testBit_mod_two_pow, Nat.testBit_shiftRight]

theorem maskOf_testBit (hi lo i : Nat) : (maskOf hi lo).testBit i = (decide (lo ≤ i) && decide (i - lo < hi + 1 - lo)) := by
  simp [maskOf, Nat.testBit_shiftLeft, Nat.testBit_two_pow_sub_one]

/-- Each bit of a word with a field replaced. -/
theorem putFld_getLsbD (w : Word) (f : Fld) (v i : Nat) :
    (putFld w f v).getLsbD i =
      if f.lo ≤ i ∧ i ≤ f.hi then (decide (i < 32) && v.testBit (i - f.lo)) else w.getLsbD i := by
  by_cases hi : i < 32
  · simp only [putFld, wd, Fld.mask, BitVec.getLsbD_or, BitVec.getLsbD_and, BitVec.getLsbD_not, BitVec.getLsbD_ofNat,
      maskOf_testBit, Nat.testBit_shiftLeft, Nat.testBit_mod_two_pow, hi, decide_true, Bool.true_and]
    by_cases h1 : f.lo ≤ i
    · by_cases h2 : i ≤ f.hi
      · have h3 : i - f.lo < f.hi + 1 - f.lo := by omega
        simp [h1, h2, h3]
      · have h3 : ¬ i - f.lo < f.hi + 1 - f.lo := by omega
        simp [h1, h2, h3]
    · simp [h1]
  · have hge : 32 ≤ i := by omega
    have e1 : (putFld w f v).getLsbD i = false := BitVec.getLsbD_of_ge _ _ hge
    have e2 : w.getLsbD i = false := BitVec.getLsbD_of_ge _ _ hge
    rw [e1, e2]
    split <;> simp [hi]

/-- The field that was put. -/
theorem bits_putFld_same (w : Word) (f : Fld) (v : Nat) (h : f.hi < 32) :
    bits (putFld w f v).toNat f.hi f.lo = v % 2 ^ (f.hi + 1 - f.lo) := by
  apply Nat.eq_of_testBit_eq
  intro i
  rw [bits_testBit, Nat.testBit_mod_two_pow]
  by_cases h1 : i < f.hi + 1 - f.lo
  · have h2 : f.lo ≤ f.lo + i ∧ f.lo + i ≤ f.hi := by omega
    have h3 : f.lo + i < 32 := by omega
    have h4 : f.lo + i - f.lo = i := by omega
    have := putFld_getLsbD w f v (f.lo + i)
    rw [if_pos h2, h4] at this
    simp only [h1, decide_true, Bool.true_and, BitVec.testBit_toNat, this, h3]
  · simp [h1]

/-- A field with no bit in common stays. -/
theorem bits_putFld_disjoint (w : Word) (f : Fld) (v hi lo : Nat) (h : hi < f.lo ∨ f.hi < lo) :
    bits (putFld w f v).toNat hi lo = bits w.toNat hi lo := by
  apply Nat.eq_of_testBit_eq
  intro i
  rw [bits_testBit, bits_testBit]
  by_cases h1 : i < hi + 1 - lo
  · have h2 : ¬ (f.lo ≤ lo + i ∧ lo + i ≤ f.hi) := by omega
    have := putFld_getLsbD w f v (lo + i)
    rw [if_neg h2] at this
    simp only [h1, decide_true, Bool.true_and, BitVec.testBit_toNat, this]
  · simp [h1]

/-! ### In a state -/

variable (s : State)

theorem State.fld_setFld_same (b : Nat) (f : Fld) (v : Nat) (h : f.hi < 32) :
    (s.setFld b f v).fld b f = v % 2 ^ (f.hi + 1 - f.lo) := by
  simp only [State.fld, State.setFld, State.rd_wr_same]
  exact bits_putFld_same _ f v h

/-- A field of the same register with no bit in common stays. -/
theorem State.fld_setFld_disjoint (b : Nat) (f g : Fld) (v : Nat) (ho : g.off = f.off) (h : g.hi < f.lo ∨ f.hi < g.lo) :
    (s.setFld b f v).fld b g = s.fld b g := by
  simp only [State.fld, State.setFld, ho, State.rd_wr_same]
  exact bits_putFld_disjoint _ f v _ _ h

/-- A field of another register stays. -/
theorem State.fld_setFld_other {b b' : Nat} {f g : Fld} (v : Nat) (h : b' + g.off ≠ b + f.off) :
    (s.setFld b f v).fld b' g = s.fld b' g := by
  simp only [State.fld, State.setFld, State.rd_wr_ne s _ h]

theorem State.rd_setFld_other {b a : Nat} {f : Fld} (v : Nat) (h : a ≠ b + f.off) : (s.setFld b f v).rd a = s.rd a :=
  State.rd_wr_ne s _ h

/-- A flag that was set, or cleared. -/
theorem State.flag_setFlag_same (b : Nat) (f : Fld) (v : Bool) (hl : f.lo ≤ f.hi) (h : f.hi < 32) :
    (s.setFlag b f v).flag b f = v := by
  simp only [State.flag, State.setFlag, State.fld_setFld_same _ _ _ _ h]
  cases v
  · simp
  · have h1 : f.hi + 1 - f.lo ≤ 32 := by omega
    have h2 : 0 < f.hi + 1 - f.lo := by omega
    have h3 : (2 ^ 32 - 1) % 2 ^ (f.hi + 1 - f.lo) ≠ 0 := by
      have : ∀ n : Fin 33, 0 < n.val → (2 ^ 32 - 1) % 2 ^ n.val ≠ 0 := by decide
      exact this ⟨_, by omega⟩ h2
    simpa using h3

theorem State.flag_setFlag_disjoint (b : Nat) (f g : Fld) (v : Bool) (ho : g.off = f.off) (h : g.hi < f.lo ∨ f.hi < g.lo) :
    (s.setFlag b f v).flag b g = s.flag b g := by
  simp only [State.flag, State.setFlag, State.fld_setFld_disjoint s b f g _ ho h]

theorem State.flag_setFlag_other {b b' : Nat} {f g : Fld} (v : Bool) (h : b' + g.off ≠ b + f.off) :
    (s.setFlag b f v).flag b' g = s.flag b' g := by
  simp only [State.flag, State.setFlag, State.fld_setFld_other s _ h]

end Sys2Proof.Machine
end

