-- ==== Sys2Proof/Laws/Frame.lean ====
section
/-! SUPPORT. Frames compose; and a command that acts only while the device runs answers a next state with the queue kept. -/
namespace Sys2Proof.Machine

theorem Frame.refl (l : List Part) (s : State) : Frame l s s := by
  intro p _
  cases p <;> rfl

theorem Part.same_trans {p : Part} {s t u : State} (h1 : p.same s t) (h2 : p.same t u) : p.same s u := by
  cases p <;> exact Eq.trans h2 h1

theorem Frame.trans {l : List Part} {s t u : State} (h1 : Frame l s t) (h2 : Frame l t u) : Frame l s u :=
  fun p hp => Part.same_trans (h1 p hp) (h2 p hp)

theorem Frame.mono {l m : List Part} {s t : State} (h : Frame l s t) (hs : ∀ p ∈ l, p ∈ m) : Frame m s t :=
  fun p hp => h p fun hl => hp (hs p hl)

/-- A fold of steps that each keep a part keeps it. -/
theorem Frame.foldl {α : Type} {m : List Part} {f : State → α → State} (h : ∀ s x, Frame m s (f s x)) :
    ∀ (l : List α) (s : State), Frame m s (l.foldl f s)
  | [], s => Frame.refl m s
  | x :: t, s => Frame.trans (h s x) (Frame.foldl h t (f s x))

theorem Frame.ite {m : List Part} {s t u : State} {c : Prop} [Decidable c] (h1 : c → Frame m s t) (h2 : ¬c → Frame m s u) :
    Frame m s (if c then t else u) := by
  split
  · exact h1 ‹_›
  · exact h2 ‹_›

theorem RegFrame.refl (l : List Nat) (s : State) : RegFrame l s s := fun _ _ => rfl

theorem RegFrame.trans {l : List Nat} {s t u : State} (h1 : RegFrame l s t) (h2 : RegFrame l t u) : RegFrame l s u :=
  fun a ha => (h2 a ha).trans (h1 a ha)

theorem RegFrame.of_regs {s t : State} (h : t.regs = s.regs) (l : List Nat) : RegFrame l s t :=
  fun a _ => State.rd_congr h a

/-! ### One update -/

theorem Frame.wr (s : State) (a : Nat) (v : Word) : Frame [.regs] s (s.wr a v) := by
  intro p hp; cases p <;> first | rfl | exact absurd (by decide) hp
theorem Frame.setFld (s : State) (b : Nat) (f : Fld) (v : Nat) : Frame [.regs] s (s.setFld b f v) := Frame.wr s _ _
theorem Frame.setFlag (s : State) (b : Nat) (f : Fld) (v : Bool) : Frame [.regs] s (s.setFlag b f v) := Frame.wr s _ _
theorem Frame.incFld (s : State) (b : Nat) (f : Fld) (v : Nat) : Frame [.regs] s (s.incFld b f v) := Frame.wr s _ _
theorem Frame.maxFld (s : State) (b : Nat) (f : Fld) (v : Nat) : Frame [.regs] s (s.maxFld b f v) := Frame.wr s _ _
theorem Frame.tset (s : State) (t : Tbl) (n i : Nat) (v : Word) : Frame [.tbl] s (s.tset t n i v) := by
  intro p hp; cases p <;> first | rfl | exact absurd (by decide) hp
theorem Frame.emit (s : State) (c : Chan) (k : Nat) (l : List Nat) : Frame [.sent] s (s.emit c k l) := by
  intro p hp; cases p <;> first | rfl | exact absurd (by decide) hp
theorem Frame.usedFree (s : State) : Frame [.free] s s.usedFree := by
  intro p hp; cases p <;> first | rfl | exact absurd (by decide) hp
theorem Frame.setMemBytes (s : State) (a : Nat) (l : List Byte) : Frame [.mem] s (s.setMemBytes a l) := by
  intro p hp
  rw [State.setMemBytes_eq]
  cases p <;> first | rfl | exact absurd (by decide) hp
theorem RegFrame.setFld (s : State) (b : Nat) (f : Fld) (v : Nat) : RegFrame [b + f.off] s (s.setFld b f v) :=
  fun _ ha => State.rd_setFld_other s v fun h => ha (by simp [h])

/-! ### While the device runs -/

theorem onLive_live {s : State} (f : State → State) (h : s.live = true) :
    onLive s f = .next ((f s).withQueue s.pending) := by
  simp [onLive, h]

theorem onLive_dead {s : State} (f : State → State) (h : s.live = false) : onLive s f = .next s := by
  simp [onLive, h]

/-- Whatever it does, such a command answers a next state, and the queue is kept. -/
theorem onLive_next (s : State) (f : State → State) : ∃ t, onLive s f = .next t ∧ t.pending = s.pending := by
  cases h : s.live
  · exact ⟨s, onLive_dead f h, rfl⟩
  · exact ⟨_, onLive_live f h, rfl⟩

@[simp] theorem State.withQueue_pending (s : State) (q : List Instr) : (s.withQueue q).pending = q := rfl
@[simp] theorem State.withQueue_rd (s : State) (q : List Instr) (a : Nat) : (s.withQueue q).rd a = s.rd a := rfl
@[simp] theorem State.withQueue_fld (s : State) (q : List Instr) (b : Nat) (f : Fld) : (s.withQueue q).fld b f = s.fld b f := rfl
@[simp] theorem State.withQueue_flag (s : State) (q : List Instr) (b : Nat) (f : Fld) :
    (s.withQueue q).flag b f = s.flag b f := rfl
@[simp] theorem State.withQueue_memByte (s : State) (q : List Instr) (a : Nat) : (s.withQueue q).memByte a = s.memByte a := rfl
@[simp] theorem State.withQueue_hostByte (s : State) (q : List Instr) (a : Nat) : (s.withQueue q).hostByte a = s.hostByte a := rfl
@[simp] theorem State.withQueue_tget (s : State) (q : List Instr) (t : Tbl) (n i : Nat) :
    (s.withQueue q).tget t n i = s.tget t n i := rfl

/-- The next state of a command that acts while the device runs, seen through a frame that has the queue. -/
theorem Frame.withQueue {l : List Part} {s t : State} (h : Frame l s t) : Frame l s (t.withQueue s.pending) := by
  intro p hp
  have := h p hp
  cases p <;> first | exact this | rfl

/-- A command that acts while the device runs completes, with what its effect gives. -/
theorem Completes.of_live {c : Instr} {s : State} {f : State → State} {P : State → Prop} (he : exec c s = onLive s f)
    (hl : s.live = true) (hP : P ((f s).withQueue s.pending)) : Completes c s P :=
  ⟨_, he.trans (onLive_live f hl), hP⟩

end Sys2Proof.Machine
end

