-- ==== Sys2Proof/Laws/Acts.lean ====
section
/-! SUPPORT. Every command but the three that act on reset and the supplies acts only while the device runs. -/
namespace Sys2Proof.Machine

theorem exec_acts (c : Instr) (s : State) (h1 : c ≠ .powerOnReset) (h2 : c ≠ .supplyRemoval)
    (h3 : ∀ b p, c ≠ .resetRelease b p) : ∃ f, exec c s = onLive s f := by
  cases c
  case powerOnReset => exact absurd rfl h1
  case supplyRemoval => exact absurd rfl h2
  case resetRelease b p => exact absurd rfl (h3 b p)
  case dramDriftCheck => exact ⟨fun s => s, by simp [exec, execDramDriftCheck, onLive, State.withQueue]⟩
  case controlSpaceWrite r addr value => exact ⟨_, (rfl : execControlSpaceWrite r addr value s = _)⟩
  case invalidAddressRead r addr => exact ⟨_, (rfl : execInvalidAddressRead r addr s = _)⟩
  case rcRead r addr => exact ⟨_, (rfl : execRcRead r addr s = _)⟩
  case windowRead r addr => exact ⟨_, (rfl : execWindowRead r addr s = _)⟩
  case windowWrite r addr value => exact ⟨_, (rfl : execWindowWrite r addr value s = _)⟩
  case memoryRequest r write addr len data => exact ⟨_, (rfl : execMemoryRequest r write addr len data s = _)⟩
  case streamPacketRoute p die toHub => exact ⟨_, (rfl : execStreamPacketRoute p die toHub s = _)⟩
  case bridgeReplay brg bridge => exact ⟨_, (rfl : execBridgeReplay brg bridge s = _)⟩
  case controlPacketApply u => exact ⟨_, (rfl : execControlPacketApply u s = _)⟩
  case c0StreamWrite r n value => exact ⟨_, (rfl : execC0StreamWrite r n value s = _)⟩
  case fuseReadDone ok fuses => exact ⟨_, (rfl : execFuseReadDone ok fuses s = _)⟩
  case flashDiscoveryDone capacity octal headerA headerB => exact ⟨_, (rfl : execFlashDiscoveryDone capacity octal headerA headerB s = _)⟩
  case slotCheckDone image => exact ⟨_, (rfl : execSlotCheckDone image s = _)⟩
  case hostLoadGo r => exact ⟨_, (rfl : execHostLoadGo r s = _)⟩
  case hostImageReadDone failed => exact ⟨_, (rfl : execHostImageReadDone failed s = _)⟩
  case registerWriteRecord late target words => exact ⟨_, (rfl : execRegisterWriteRecord late target words s = _)⟩
  case maskedRegisterWriteRecord late target value mask => exact ⟨_, (rfl : execMaskedRegisterWriteRecord late target value mask s = _)⟩
  case pollRecord late target value mask timeoutUs => exact ⟨_, (rfl : execPollRecord late target value mask timeoutUs s = _)⟩
  case pollReread => exact ⟨_, (rfl : execPollReread s = _)⟩
  case pollTimeout => exact ⟨_, (rfl : execPollTimeout s = _)⟩
  case conditionalRecord selector mask matched skip => exact ⟨_, (rfl : execConditionalRecord selector mask matched skip s = _)⟩
  case almanacPartitionRecord offset size epoch => exact ⟨_, (rfl : execAlmanacPartitionRecord offset size epoch s = _)⟩
  case signatureRecord key sigR sigS covered => exact ⟨_, (rfl : execSignatureRecord key sigR sigS covered s = _)⟩
  case endRecord => exact ⟨_, (rfl : execEndRecord s = _)⟩
  case unknownRecord => exact ⟨_, (rfl : execUnknownRecord s = _)⟩
  case blockLoadRecord target data => exact ⟨_, (rfl : execBlockLoadRecord target data s = _)⟩
  case tileCalibrationLoadRecord target data => exact ⟨_, (rfl : execTileCalibrationLoadRecord target data s = _)⟩
  case stewardFirmwareRecord cores payload => exact ⟨_, (rfl : execStewardFirmwareRecord cores payload s = _)⟩
  case engineFirmwareRecord clusters payload => exact ⟨_, (rfl : execEngineFirmwareRecord clusters payload s = _)⟩
  case codecFirmwareRecord cores payload => exact ⟨_, (rfl : execCodecFirmwareRecord cores payload s = _)⟩
  case dramTrainingDone failed foms orgs => exact ⟨_, (rfl : execDramTrainingDone failed foms orgs s = _)⟩
  case adventA4End => exact ⟨_, (rfl : execAdventA4End s = _)⟩
  case almanacReplay readable => exact ⟨_, (rfl : execAlmanacReplay readable s = _)⟩
  case censusTokenStart => exact ⟨_, (rfl : execCensusTokenStart s = _)⟩
  case processionCensusReceive right packet locked partnerPrefers => exact ⟨_, (rfl : execProcessionCensusReceive right packet locked partnerPrefers s = _)⟩
  case censusWaitExpiry locked partnerPrefers => exact ⟨_, (rfl : execCensusWaitExpiry locked partnerPrefers s = _)⟩
  case almanacCommit r fewErased => exact ⟨_, (rfl : execAlmanacCommit r fewErased s = _)⟩
  case almanacPeriodicCommit fewErased => exact ⟨_, (rfl : execAlmanacPeriodicCommit fewErased s = _)⟩
  case almanacCommitDone => exact ⟨_, (rfl : execAlmanacCommitDone s = _)⟩
  case discardAl r => exact ⟨_, (rfl : execDiscardAl r s = _)⟩
  case powerFail => exact ⟨_, (rfl : execPowerFail s = _)⟩
  case powerFailClear => exact ⟨_, (rfl : execPowerFailClear s = _)⟩
  case wearLedgerTick => exact ⟨_, (rfl : execWearLedgerTick s = _)⟩
  case campEnable r p value => exact ⟨_, (rfl : execCampEnable r p value s = _)⟩
  case campDisable r p value => exact ⟨_, (rfl : execCampDisable r p value s = _)⟩
  case cameraFrameStart p => exact ⟨_, (rfl : execCameraFrameStart p s = _)⟩
  case cameraFrameEnd p parts => exact ⟨_, (rfl : execCameraFrameEnd p parts s = _)⟩
  case cameraLineStart p => exact ⟨_, (rfl : execCameraLineStart p s = _)⟩
  case cameraLineEnd p parts => exact ⟨_, (rfl : execCameraLineEnd p parts s = _)⟩
  case lineTimeout p => exact ⟨_, (rfl : execLineTimeout p s = _)⟩
  case frameDeadline p => exact ⟨_, (rfl : execFrameDeadline p s = _)⟩
  case clockLost p parts => exact ⟨_, (rfl : execClockLost p parts s = _)⟩
  case trainingStart p write => exact ⟨_, (rfl : execTrainingStart p write s = _)⟩
  case trainingBurst p cycles => exact ⟨_, (rfl : execTrainingBurst p cycles s = _)⟩
  case trainingEnd p => exact ⟨_, (rfl : execTrainingEnd p s = _)⟩
  case tapWrite r p value => exact ⟨_, (rfl : execTapWrite r p value s = _)⟩
  case cameraStampRead r p => exact ⟨_, (rfl : execCameraStampRead r p s = _)⟩
  case pipeLineDone pipe => exact ⟨_, (rfl : execPipeLineDone pipe s = _)⟩
  case calEntryStore r p value => exact ⟨_, (rfl : execCalEntryStore r p value s = _)⟩
  case writeListStore r p value => exact ⟨_, (rfl : execWriteListStore r p value s = _)⟩
  case calTrigger p entry => exact ⟨_, (rfl : execCalTrigger p entry s = _)⟩
  case calDeadline p entry => exact ⟨_, (rfl : execCalDeadline p entry s = _)⟩
  case freeze p => exact ⟨_, (rfl : execFreeze p s = _)⟩
  case calMidpointRead r p => exact ⟨_, (rfl : execCalMidpointRead r p s = _)⟩
  case pipeFrameStart pipe => exact ⟨_, (rfl : execPipeFrameStart pipe s = _)⟩
  case pipeLine pipe answers => exact ⟨_, (rfl : execPipeLine pipe answers s = _)⟩
  case refReadDone pipe row poison => exact ⟨_, (rfl : execRefReadDone pipe row poison s = _)⟩
  case refWriteDone pipe error => exact ⟨_, (rfl : execRefWriteDone pipe error s = _)⟩
  case feTableWrite r pipe value => exact ⟨_, (rfl : execFeTableWrite r pipe value s = _)⟩
  case mfeFrameStart pipe => exact ⟨_, (rfl : execMfeFrameStart pipe s = _)⟩
  case mfeBlockRefine pipe column row => exact ⟨_, (rfl : execMfeBlockRefine pipe column row s = _)⟩
  case fieldWriteDone pipe error => exact ⟨_, (rfl : execFieldWriteDone pipe error s = _)⟩
  case colourTableWrite r pipe value => exact ⟨_, (rfl : execColourTableWrite r pipe value s = _)⟩
  case colourTableLoad r pipe value => exact ⟨_, (rfl : execColourTableLoad r pipe value s = _)⟩
  case colourLoadDone pipe failedAt => exact ⟨_, (rfl : execColourLoadDone pipe failedAt s = _)⟩
  case bufferHeadWrite pipe slot output error => exact ⟨_, (rfl : execBufferHeadWrite pipe slot output error s = _)⟩
  case harvestWriteStart pipe => exact ⟨_, (rfl : execHarvestWriteStart pipe s = _)⟩
  case harvestWriteDone pipe slot error => exact ⟨_, (rfl : execHarvestWriteDone pipe slot error s = _)⟩
  case headEnable r h value => exact ⟨_, (rfl : execHeadEnable r h value s = _)⟩
  case headFreeze h => exact ⟨_, (rfl : execHeadFreeze h s = _)⟩
  case surfaceSelectDone h failed poisoned => exact ⟨_, (rfl : execSurfaceSelectDone h failed poisoned s = _)⟩
  case startTargetReached h => exact ⟨_, (rfl : execStartTargetReached h s = _)⟩
  case headRowEnd h recordWritten => exact ⟨_, (rfl : execHeadRowEnd h recordWritten s = _)⟩
  case headRowStart h => exact ⟨_, (rfl : execHeadRowStart h s = _)⟩
  case directLineArrival h => exact ⟨_, (rfl : execDirectLineArrival h s = _)⟩
  case directWaitExpiry h => exact ⟨_, (rfl : execDirectWaitExpiry h s = _)⟩
  case surfaceFetchDone h layer row poison => exact ⟨_, (rfl : execSurfaceFetchDone h layer row poison s = _)⟩
  case headFilterWrite r h value => exact ⟨_, (rfl : execHeadFilterWrite r h value s = _)⟩
  case placementWrite r h value => exact ⟨_, (rfl : execPlacementWrite r h value s = _)⟩
  case headStampRead r h => exact ⟨_, (rfl : execHeadStampRead r h s = _)⟩
  case emitterFetchDone h tile line poison => exact ⟨_, (rfl : execEmitterFetchDone h tile line poison s = _)⟩
  case tileRecordStore r h value => exact ⟨_, (rfl : execTileRecordStore r h value s = _)⟩
  case tcmLoad r h value => exact ⟨_, (rfl : execTcmLoad r h value s = _)⟩
  case tcmLoadDone h failedAt => exact ⟨_, (rfl : execTcmLoadDone h failedAt s = _)⟩
  case curveWrite r h value => exact ⟨_, (rfl : execCurveWrite r h value s = _)⟩
  case paradeSegmentSend n => exact ⟨_, (rfl : execParadeSegmentSend n s = _)⟩
  case beaconSend n => exact ⟨_, (rfl : execBeaconSend n s = _)⟩
  case laneMarkerSend n => exact ⟨_, (rfl : execLaneMarkerSend n s = _)⟩
  case prdPacketReceive n blocks => exact ⟨_, (rfl : execPrdPacketReceive n blocks s = _)⟩
  case ringBreak n headers => exact ⟨_, (rfl : execRingBreak n headers s = _)⟩
  case brightnessSend r n value => exact ⟨_, (rfl : execBrightnessSend r n value s = _)⟩
  case statusPollSend r n value => exact ⟨_, (rfl : execStatusPollSend r n value s = _)⟩
  case statusReplyReceive n packet => exact ⟨_, (rfl : execStatusReplyReceive n packet s = _)⟩
  case statusPollTimeout n => exact ⟨_, (rfl : execStatusPollTimeout n s = _)⟩
  case censusStart r n value => exact ⟨_, (rfl : execCensusStart r n value s = _)⟩
  case censusResultReceive n packet => exact ⟨_, (rfl : execCensusResultReceive n packet s = _)⟩
  case censusTimeout n => exact ⟨_, (rfl : execCensusTimeout n s = _)⟩
  case ctxStart r ctx => exact ⟨_, (rfl : execCtxStart r ctx s = _)⟩
  case ctxStop r ctx => exact ⟨_, (rfl : execCtxStop r ctx s = _)⟩
  case ctxUpdate r ctx => exact ⟨_, (rfl : execCtxUpdate r ctx s = _)⟩
  case ctxIdr r ctx => exact ⟨_, (rfl : execCtxIdr r ctx s = _)⟩
  case ctxResync r ctx => exact ⟨_, (rfl : execCtxResync r ctx s = _)⟩
  case sourcePoll ctx poison fieldMoved fieldPoison => exact ⟨_, (rfl : execSourcePoll ctx poison fieldMoved fieldPoison s = _)⟩
  case pictureStart core poison => exact ⟨_, (rfl : execPictureStart core poison s = _)⟩
  case pictureDone core coded poison => exact ⟨_, (rfl : execPictureDone core coded poison s = _)⟩
  case coreWatchdog core => exact ⟨_, (rfl : execCoreWatchdog core s = _)⟩
  case coreResetDone core => exact ⟨_, (rfl : execCoreResetDone core s = _)⟩
  case decodePictureStart core => exact ⟨_, (rfl : execDecodePictureStart core s = _)⟩
  case decodePictureDone core run => exact ⟨_, (rfl : execDecodePictureDone core run s = _)⟩
  case decodeWatchdog core run => exact ⟨_, (rfl : execDecodeWatchdog core run s = _)⟩
  case decodeStopTimeout core => exact ⟨_, (rfl : execDecodeStopTimeout core s = _)⟩
  case picturePublish ctx => exact ⟨_, (rfl : execPicturePublish ctx s = _)⟩
  case vdcClear r core value => exact ⟨_, (rfl : execVdcClear r core value s = _)⟩
  case queueDoorbell r cluster queue value => exact ⟨_, (rfl : execQueueDoorbell r cluster queue value s = _)⟩
  case jobDispatch c => exact ⟨_, (rfl : execJobDispatch c s = _)⟩
  case jobDescriptorReadDone c bad => exact ⟨_, (rfl : execJobDescriptorReadDone c bad s = _)⟩
  case jobBudgetExpiry e => exact ⟨_, (rfl : execJobBudgetExpiry e s = _)⟩
  case engineResetDone e => exact ⟨_, (rfl : execEngineResetDone e s = _)⟩
  case engineFirmwareLoad r c value => exact ⟨_, (rfl : execEngineFirmwareLoad r c value s = _)⟩
  case engineFirmwareLoadDone c bad => exact ⟨_, (rfl : execEngineFirmwareLoadDone c bad s = _)⟩
  case clusterGate c => exact ⟨_, (rfl : execClusterGate c s = _)⟩
  case engFreqChange die => exact ⟨_, (rfl : execEngFreqChange die s = _)⟩
  case cdmaTransferDone e slot bad => exact ⟨_, (rfl : execCdmaTransferDone e slot bad s = _)⟩
  case fenceDrained u => exact ⟨_, (rfl : execFenceDrained u s = _)⟩
  case waitWake u => exact ⟨_, (rfl : execWaitWake u s = _)⟩
  case add u => exact ⟨_, (rfl : execAdd u s = _)⟩
  case sub u => exact ⟨_, (rfl : execSub u s = _)⟩
  case and u => exact ⟨_, (rfl : execAnd u s = _)⟩
  case or u => exact ⟨_, (rfl : execOr u s = _)⟩
  case xor u => exact ⟨_, (rfl : execXor u s = _)⟩
  case sll u => exact ⟨_, (rfl : execSll u s = _)⟩
  case srl u => exact ⟨_, (rfl : execSrl u s = _)⟩
  case sra u => exact ⟨_, (rfl : execSra u s = _)⟩
  case slt u => exact ⟨_, (rfl : execSlt u s = _)⟩
  case sltu u => exact ⟨_, (rfl : execSltu u s = _)⟩
  case min u => exact ⟨_, (rfl : execMin u s = _)⟩
  case max u => exact ⟨_, (rfl : execMax u s = _)⟩
  case clz u => exact ⟨_, (rfl : execClz u s = _)⟩
  case popc u => exact ⟨_, (rfl : execPopc u s = _)⟩
  case mul u => exact ⟨_, (rfl : execMul u s = _)⟩
  case mulh u => exact ⟨_, (rfl : execMulh u s = _)⟩
  case mulhu u => exact ⟨_, (rfl : execMulhu u s = _)⟩
  case div u => exact ⟨_, (rfl : execDiv u s = _)⟩
  case divu u => exact ⟨_, (rfl : execDivu u s = _)⟩
  case rem u => exact ⟨_, (rfl : execRem u s = _)⟩
  case remu u => exact ⟨_, (rfl : execRemu u s = _)⟩
  case addi u => exact ⟨_, (rfl : execAddi u s = _)⟩
  case andi u => exact ⟨_, (rfl : execAndi u s = _)⟩
  case ori u => exact ⟨_, (rfl : execOri u s = _)⟩
  case xori u => exact ⟨_, (rfl : execXori u s = _)⟩
  case slti u => exact ⟨_, (rfl : execSlti u s = _)⟩
  case sltiu u => exact ⟨_, (rfl : execSltiu u s = _)⟩
  case slli u => exact ⟨_, (rfl : execSlli u s = _)⟩
  case srli u => exact ⟨_, (rfl : execSrli u s = _)⟩
  case srai u => exact ⟨_, (rfl : execSrai u s = _)⟩
  case lui u => exact ⟨_, (rfl : execLui u s = _)⟩
  case lw u bad => exact ⟨_, (rfl : execLw u bad s = _)⟩
  case lh u bad => exact ⟨_, (rfl : execLh u bad s = _)⟩
  case lhu u bad => exact ⟨_, (rfl : execLhu u bad s = _)⟩
  case lb u bad => exact ⟨_, (rfl : execLb u bad s = _)⟩
  case lbu u bad => exact ⟨_, (rfl : execLbu u bad s = _)⟩
  case sw u => exact ⟨_, (rfl : execSw u s = _)⟩
  case sh u => exact ⟨_, (rfl : execSh u s = _)⟩
  case sb u => exact ⟨_, (rfl : execSb u s = _)⟩
  case aadd u bad => exact ⟨_, (rfl : execAadd u bad s = _)⟩
  case aswp u bad => exact ⟨_, (rfl : execAswp u bad s = _)⟩
  case aand u bad => exact ⟨_, (rfl : execAand u bad s = _)⟩
  case aor u bad => exact ⟨_, (rfl : execAor u bad s = _)⟩
  case amaxu u bad => exact ⟨_, (rfl : execAmaxu u bad s = _)⟩
  case acas u bad => exact ⟨_, (rfl : execAcas u bad s = _)⟩
  case beq u => exact ⟨_, (rfl : execBeq u s = _)⟩
  case bne u => exact ⟨_, (rfl : execBne u s = _)⟩
  case blt u => exact ⟨_, (rfl : execBlt u s = _)⟩
  case bge u => exact ⟨_, (rfl : execBge u s = _)⟩
  case bltu u => exact ⟨_, (rfl : execBltu u s = _)⟩
  case bgeu u => exact ⟨_, (rfl : execBgeu u s = _)⟩
  case jal u => exact ⟨_, (rfl : execJal u s = _)⟩
  case jalr u => exact ⟨_, (rfl : execJalr u s = _)⟩
  case fence u => exact ⟨_, (rfl : execFence u s = _)⟩
  case ifence u => exact ⟨_, (rfl : execIfence u s = _)⟩
  case sig u => exact ⟨_, (rfl : execSig u s = _)⟩
  case jend u => exact ⟨_, (rfl : execJend u s = _)⟩
  case wait u bad => exact ⟨_, (rfl : execWait u bad s = _)⟩
  case cln u => exact ⟨_, (rfl : execCln u s = _)⟩
  case inv u => exact ⟨_, (rfl : execInv u s = _)⟩
  case cli u => exact ⟨_, (rfl : execCli u s = _)⟩
  case clnall u => exact ⟨_, (rfl : execClnall u s = _)⟩
  case cdma u bad => exact ⟨_, (rfl : execCdma u bad s = _)⟩
  case dmaw u => exact ⟨_, (rfl : execDmaw u s = _)⟩
  case trap u => exact ⟨_, (rfl : execTrap u s = _)⟩
  case csrr u => exact ⟨_, (rfl : execCsrr u s = _)⟩
  case csrw u => exact ⟨_, (rfl : execCsrw u s = _)⟩
  case unassignedOpcode u eccError => exact ⟨_, (rfl : execUnassignedOpcode u eccError s = _)⟩
  case vadd u => exact ⟨_, (rfl : execVadd u s = _)⟩
  case vsub u => exact ⟨_, (rfl : execVsub u s = _)⟩
  case vadds u => exact ⟨_, (rfl : execVadds u s = _)⟩
  case vsubs u => exact ⟨_, (rfl : execVsubs u s = _)⟩
  case vmul u => exact ⟨_, (rfl : execVmul u s = _)⟩
  case vmulh u => exact ⟨_, (rfl : execVmulh u s = _)⟩
  case vmac u => exact ⟨_, (rfl : execVmac u s = _)⟩
  case vmin u => exact ⟨_, (rfl : execVmin u s = _)⟩
  case vmax u => exact ⟨_, (rfl : execVmax u s = _)⟩
  case vand u => exact ⟨_, (rfl : execVand u s = _)⟩
  case vor u => exact ⟨_, (rfl : execVor u s = _)⟩
  case vxor u => exact ⟨_, (rfl : execVxor u s = _)⟩
  case vshl u => exact ⟨_, (rfl : execVshl u s = _)⟩
  case vshr u => exact ⟨_, (rfl : execVshr u s = _)⟩
  case vsra u => exact ⟨_, (rfl : execVsra u s = _)⟩
  case vsel u => exact ⟨_, (rfl : execVsel u s = _)⟩
  case vcmpeq u => exact ⟨_, (rfl : execVcmpeq u s = _)⟩
  case vcmplt u => exact ⟨_, (rfl : execVcmplt u s = _)⟩
  case vcmpltu u => exact ⟨_, (rfl : execVcmpltu u s = _)⟩
  case vxtl u => exact ⟨_, (rfl : execVxtl u s = _)⟩
  case vxth u => exact ⟨_, (rfl : execVxth u s = _)⟩
  case vpack u => exact ⟨_, (rfl : execVpack u s = _)⟩
  case vfadd u => exact ⟨_, (rfl : execVfadd u s = _)⟩
  case vfsub u => exact ⟨_, (rfl : execVfsub u s = _)⟩
  case vfmul u => exact ⟨_, (rfl : execVfmul u s = _)⟩
  case vfma u => exact ⟨_, (rfl : execVfma u s = _)⟩
  case vfmin u => exact ⟨_, (rfl : execVfmin u s = _)⟩
  case vfmax u => exact ⟨_, (rfl : execVfmax u s = _)⟩
  case vfrcp u => exact ⟨_, (rfl : execVfrcp u s = _)⟩
  case vfrsq u => exact ⟨_, (rfl : execVfrsq u s = _)⟩
  case vfcmplt u => exact ⟨_, (rfl : execVfcmplt u s = _)⟩
  case vfcmpeq u => exact ⟨_, (rfl : execVfcmpeq u s = _)⟩
  case vcvtf u => exact ⟨_, (rfl : execVcvtf u s = _)⟩
  case vcvti u => exact ⟨_, (rfl : execVcvti u s = _)⟩
  case vfwidl u => exact ⟨_, (rfl : execVfwidl u s = _)⟩
  case vfwidh u => exact ⟨_, (rfl : execVfwidh u s = _)⟩
  case vfnarr u => exact ⟨_, (rfl : execVfnarr u s = _)⟩
  case vld u bad => exact ⟨_, (rfl : execVld u bad s = _)⟩
  case vst u => exact ⟨_, (rfl : execVst u s = _)⟩
  case vlds u bad => exact ⟨_, (rfl : execVlds u bad s = _)⟩
  case vsts u => exact ⟨_, (rfl : execVsts u s = _)⟩
  case vbcst u => exact ⟨_, (rfl : execVbcst u s = _)⟩
  case vext u => exact ⟨_, (rfl : execVext u s = _)⟩
  case vins u => exact ⟨_, (rfl : execVins u s = _)⟩
  case vperm u => exact ⟨_, (rfl : execVperm u s = _)⟩
  case vradd u => exact ⟨_, (rfl : execVradd u s = _)⟩
  case vrmax u => exact ⟨_, (rfl : execVrmax u s = _)⟩
  case vrmin u => exact ⟨_, (rfl : execVrmin u s = _)⟩
  case vfradd u => exact ⟨_, (rfl : execVfradd u s = _)⟩
  case mset u => exact ⟨_, (rfl : execMset u s = _)⟩
  case mget u => exact ⟨_, (rfl : execMget u s = _)⟩
  case dramRequest channel write cls r addr data => exact ⟨_, (rfl : execDramRequest channel write cls r addr data s = _)⟩
  case dramSlotIssue channel sub busy => exact ⟨_, (rfl : execDramSlotIssue channel sub busy s = _)⟩
  case dramReadReturn channel link inline => exact ⟨_, (rfl : execDramReadReturn channel link inline s = _)⟩
  case commandPathParityError channel write entry => exact ⟨_, (rfl : execCommandPathParityError channel write entry s = _)⟩
  case dramRefresh channel sub bank => exact ⟨_, (rfl : execDramRefresh channel sub bank s = _)⟩
  case mr4Poll channel dies => exact ⟨_, (rfl : execMr4Poll channel dies s = _)⟩
  case dramRetrain channel => exact ⟨_, (rfl : execDramRetrain channel s = _)⟩
  case dramRetrainNow r channel => exact ⟨_, (rfl : execDramRetrainNow r channel s = _)⟩
  case dramRetrainStep channel => exact ⟨_, (rfl : execDramRetrainStep channel s = _)⟩
  case dramRetrainDone channel working fom => exact ⟨_, (rfl : execDramRetrainDone channel working fom s = _)⟩
  case dramScrub channel => exact ⟨_, (rfl : execDramScrub channel s = _)⟩
  case dramDiagRead r channel => exact ⟨_, (rfl : execDramDiagRead r channel s = _)⟩
  case dramDiagDone channel => exact ⟨_, (rfl : execDramDiagDone channel s = _)⟩
  case dramSnapshotClear r channel => exact ⟨_, (rfl : execDramSnapshotClear r channel s = _)⟩
  case addressTranslate r value => exact ⟨_, (rfl : execAddressTranslate r value s = _)⟩
  case dmcMaskWrite r bank k value => exact ⟨_, (rfl : execDmcMaskWrite r bank k value s = _)⟩
  case dmaArm r n => exact ⟨_, (rfl : execDmaArm r n s = _)⟩
  case dmaDisarm r n => exact ⟨_, (rfl : execDmaDisarm r n s = _)⟩
  case dmaAbort r n => exact ⟨_, (rfl : execDmaAbort r n s = _)⟩
  case dmaPause r n => exact ⟨_, (rfl : execDmaPause r n s = _)⟩
  case dmaUnpause r n => exact ⟨_, (rfl : execDmaUnpause r n s = _)⟩
  case dmaPauseAll r => exact ⟨_, (rfl : execDmaPauseAll r s = _)⟩
  case dmaUnpauseAll r => exact ⟨_, (rfl : execDmaUnpauseAll r s = _)⟩
  case dmaShadowWrite r n word value => exact ⟨_, (rfl : execDmaShadowWrite r n word value s = _)⟩
  case dmaReadIssue n => exact ⟨_, (rfl : execDmaReadIssue n s = _)⟩
  case dmaReadReturn n which answer => exact ⟨_, (rfl : execDmaReadReturn n which answer s = _)⟩
  case dmaWriteResponse n which error => exact ⟨_, (rfl : execDmaWriteResponse n which error s = _)⟩
  case sqDoorbell sq tail => exact ⟨_, (rfl : execSqDoorbell sq tail s = _)⟩
  case cqDoorbell cq head => exact ⟨_, (rfl : execCqDoorbell cq head s = _)⟩
  case nvmFlush sq => exact ⟨_, (rfl : execNvmFlush sq s = _)⟩
  case nvmWrite sq => exact ⟨_, (rfl : execNvmWrite sq s = _)⟩
  case nvmRead sq => exact ⟨_, (rfl : execNvmRead sq s = _)⟩
  case nvmWriteZeroes sq => exact ⟨_, (rfl : execNvmWriteZeroes sq s = _)⟩
  case datasetManagement sq => exact ⟨_, (rfl : execDatasetManagement sq s = _)⟩
  case invalidCommandOpcode sq => exact ⟨_, (rfl : execInvalidCommandOpcode sq s = _)⟩
  case createIoSubmissionQueue => exact ⟨_, (rfl : execCreateIoSubmissionQueue s = _)⟩
  case deleteIoSubmissionQueue => exact ⟨_, (rfl : execDeleteIoSubmissionQueue s = _)⟩
  case createIoCompletionQueue => exact ⟨_, (rfl : execCreateIoCompletionQueue s = _)⟩
  case deleteIoCompletionQueue => exact ⟨_, (rfl : execDeleteIoCompletionQueue s = _)⟩
  case getLogPage => exact ⟨_, (rfl : execGetLogPage s = _)⟩
  case identify => exact ⟨_, (rfl : execIdentify s = _)⟩
  case nvmeAbort => exact ⟨_, (rfl : execNvmeAbort s = _)⟩
  case setFeaturesArbitration => exact ⟨_, (rfl : execSetFeaturesArbitration s = _)⟩
  case setFeaturesTemperatureThreshold => exact ⟨_, (rfl : execSetFeaturesTemperatureThreshold s = _)⟩
  case setFeaturesVolatileWriteCache => exact ⟨_, (rfl : execSetFeaturesVolatileWriteCache s = _)⟩
  case setFeaturesNumberOfQueues => exact ⟨_, (rfl : execSetFeaturesNumberOfQueues s = _)⟩
  case setFeaturesInterruptCoalescing => exact ⟨_, (rfl : execSetFeaturesInterruptCoalescing s = _)⟩
  case setFeaturesInterruptVectorConfig => exact ⟨_, (rfl : execSetFeaturesInterruptVectorConfig s = _)⟩
  case setFeaturesAsyncEventConfig => exact ⟨_, (rfl : execSetFeaturesAsyncEventConfig s = _)⟩
  case getFeatures => exact ⟨_, (rfl : execGetFeatures s = _)⟩
  case asynchronousEventRequest => exact ⟨_, (rfl : execAsynchronousEventRequest s = _)⟩
  case namespaceCreate => exact ⟨_, (rfl : execNamespaceCreate s = _)⟩
  case namespaceDelete => exact ⟨_, (rfl : execNamespaceDelete s = _)⟩
  case namespaceAttach => exact ⟨_, (rfl : execNamespaceAttach s = _)⟩
  case namespaceDetach => exact ⟨_, (rfl : execNamespaceDetach s = _)⟩
  case firmwareImageDownload => exact ⟨_, (rfl : execFirmwareImageDownload s = _)⟩
  case firmwareCommitStage => exact ⟨_, (rfl : execFirmwareCommitStage s = _)⟩
  case firmwareCommitActivate => exact ⟨_, (rfl : execFirmwareCommitActivate s = _)⟩
  case firmwareCommitActivateSlot image => exact ⟨_, (rfl : execFirmwareCommitActivateSlot image s = _)⟩
  case formatNvm => exact ⟨_, (rfl : execFormatNvm s = _)⟩
  case storeLabelFormat => exact ⟨_, (rfl : execStoreLabelFormat s = _)⟩
  case sanitizeBlockErase => exact ⟨_, (rfl : execSanitizeBlockErase s = _)⟩
  case sanitizeOverwrite => exact ⟨_, (rfl : execSanitizeOverwrite s = _)⟩
  case formatDone => exact ⟨_, (rfl : execFormatDone s = _)⟩
  case sanitizeDone => exact ⟨_, (rfl : execSanitizeDone s = _)⟩
  case controllerReset => exact ⟨_, (rfl : execControllerReset s = _)⟩
  case nvmSubsystemReset => exact ⟨_, (rfl : execNvmSubsystemReset s = _)⟩
  case controllerEnable cc aqa asq acq => exact ⟨_, (rfl : execControllerEnable cc aqa asq acq s = _)⟩
  case shutdownNotification => exact ⟨_, (rfl : execShutdownNotification s = _)⟩
  case pcieLinkReset linkDown => exact ⟨_, (rfl : execPcieLinkReset linkDown s = _)⟩
  case hostBar4Access write offset len data => exact ⟨_, (rfl : execHostBar4Access write offset len data s = _)⟩
  case outboundCompletionTimeout k => exact ⟨_, (rfl : execOutboundCompletionTimeout k s = _)⟩
  case cacheWriteback poison => exact ⟨_, (rfl : execCacheWriteback poison s = _)⟩
  case ssdCommandComplete port id status data => exact ⟨_, (rfl : execSsdCommandComplete port id status data s = _)⟩
  case ssdCommandTimeout port id => exact ⟨_, (rfl : execSsdCommandTimeout port id s = _)⟩
  case ssdControllerReset port => exact ⟨_, (rfl : execSsdControllerReset port s = _)⟩
  case ssdLinkUp port info => exact ⟨_, (rfl : execSsdLinkUp port info s = _)⟩
  case ssdLinkDown port => exact ⟨_, (rfl : execSsdLinkDown port s = _)⟩
  case nvhErrorClear r port value => exact ⟨_, (rfl : execNvhErrorClear r port value s = _)⟩
  case recordTaskEnable r task value => exact ⟨_, (rfl : execRecordTaskEnable r task value s = _)⟩
  case recordTaskDisable r task value => exact ⟨_, (rfl : execRecordTaskDisable r task value s = _)⟩
  case recordFrameTake task => exact ⟨_, (rfl : execRecordFrameTake task s = _)⟩
  case recordFrameDone task => exact ⟨_, (rfl : execRecordFrameDone task s = _)⟩
  case recordBlockWrite task => exact ⟨_, (rfl : execRecordBlockWrite task s = _)⟩
  case protoWrite r q value => exact ⟨_, (rfl : execProtoWrite r q value s = _)⟩
  case quadRetrain r q value => exact ⟨_, (rfl : execQuadRetrain r q value s = _)⟩
  case loopSelect r q loop => exact ⟨_, (rfl : execLoopSelect r q loop s = _)⟩
  case prbsStart r q value => exact ⟨_, (rfl : execPrbsStart r q value s = _)⟩
  case prbsStop r q value => exact ⟨_, (rfl : execPrbsStop r q value s = _)⟩
  case pstateRequest r q pstate => exact ⟨_, (rfl : execPstateRequest r q pstate s = _)⟩
  case autoVesperEntry q => exact ⟨_, (rfl : execAutoVesperEntry q s = _)⟩
  case lanePowerExit q => exact ⟨_, (rfl : execLanePowerExit q s = _)⟩
  case pllLockTimeout q => exact ⟨_, (rfl : execPllLockTimeout q s = _)⟩
  case laneLinkUp q lane cdr block link fom => exact ⟨_, (rfl : execLaneLinkUp q lane cdr block link fom s = _)⟩
  case laneRetry q lane => exact ⟨_, (rfl : execLaneRetry q lane s = _)⟩
  case fomMeasure q lane fom ctle errors => exact ⟨_, (rfl : execFomMeasure q lane fom ctle errors s = _)⟩
  case blockLockLoss q lane => exact ⟨_, (rfl : execBlockLockLoss q lane s = _)⟩
  case processionAlign right markers => exact ⟨_, (rfl : execProcessionAlign right markers s = _)⟩
  case heartbeatSend right => exact ⟨_, (rfl : execHeartbeatSend right s = _)⟩
  case heartbeatReceive right packet => exact ⟨_, (rfl : execHeartbeatReceive right packet s = _)⟩
  case portLost right => exact ⟨_, (rfl : execPortLost right s = _)⟩
  case processionForward right packet => exact ⟨_, (rfl : execProcessionForward right packet s = _)⟩
  case timePacketSend right => exact ⟨_, (rfl : execTimePacketSend right s = _)⟩
  case timePacketReceive right packet => exact ⟨_, (rfl : execTimePacketReceive right packet s = _)⟩
  case leaderTimeout reach => exact ⟨_, (rfl : execLeaderTimeout reach s = _)⟩
  case pairPacketSend => exact ⟨_, (rfl : execPairPacketSend s = _)⟩
  case pairPacketReceive right packet => exact ⟨_, (rfl : execPairPacketReceive right packet s = _)⟩
  case handoverRequest r => exact ⟨_, (rfl : execHandoverRequest r s = _)⟩
  case handoverTimeout => exact ⟨_, (rfl : execHandoverTimeout s = _)⟩
  case timeTick n => exact ⟨_, (rfl : execTimeTick n s = _)⟩
  case timeReadLatch r => exact ⟨_, (rfl : execTimeReadLatch r s = _)⟩
  case timeStep r => exact ⟨_, (rfl : execTimeStep r s = _)⟩
  case slewWrite r value => exact ⟨_, (rfl : execSlewWrite r value s = _)⟩
  case sourceSelect r src => exact ⟨_, (rfl : execSourceSelect r src s = _)⟩
  case domainUpdate r d => exact ⟨_, (rfl : execDomainUpdate r d s = _)⟩
  case domainLost r d => exact ⟨_, (rfl : execDomainLost r d s = _)⟩
  case domainStale d => exact ⟨_, (rfl : execDomainStale d s = _)⟩
  case domainControlWrite r d value => exact ⟨_, (rfl : execDomainControlWrite r d value s = _)⟩
  case activeWrite r active => exact ⟨_, (rfl : execActiveWrite r active s = _)⟩
  case ethConfigWrite r k value => exact ⟨_, (rfl : execEthConfigWrite r k value s = _)⟩
  case ethTxDoorbell r k wr => exact ⟨_, (rfl : execEthTxDoorbell r k wr s = _)⟩
  case ethFrameTransmit k answer => exact ⟨_, (rfl : execEthFrameTransmit k answer s = _)⟩
  case ethRxDoorbell r k ring wr => exact ⟨_, (rfl : execEthRxDoorbell r k ring wr s = _)⟩
  case ethFrameReceive k frame => exact ⟨_, (rfl : execEthFrameReceive k frame s = _)⟩
  case ethLinkChange k link => exact ⟨_, (rfl : execEthLinkChange k link s = _)⟩
  case audioRxEnable r p value => exact ⟨_, (rfl : execAudioRxEnable r p value s = _)⟩
  case audioTxEnable r p value => exact ⟨_, (rfl : execAudioTxEnable r p value s = _)⟩
  case audioFormatWrite r p tx value => exact ⟨_, (rfl : execAudioFormatWrite r p tx value s = _)⟩
  case audioFrameTick fam double data => exact ⟨_, (rfl : execAudioFrameTick fam double data s = _)⟩
  case audioFrameReceive p length slots => exact ⟨_, (rfl : execAudioFrameReceive p length slots s = _)⟩
  case audioTxFrameSync p => exact ⟨_, (rfl : execAudioTxFrameSync p s = _)⟩
  case audioBlockWrite p => exact ⟨_, (rfl : execAudioBlockWrite p s = _)⟩
  case audioBlockHeadWrite p => exact ⟨_, (rfl : execAudioBlockHeadWrite p s = _)⟩
  case audioBlockFetch p error => exact ⟨_, (rfl : execAudioBlockFetch p error s = _)⟩
  case audioBlockTarget p next => exact ⟨_, (rfl : execAudioBlockTarget p next s = _)⟩
  case audioMute r p tx => exact ⟨_, (rfl : execAudioMute r p tx s = _)⟩
  case audioUnmute r p tx => exact ⟨_, (rfl : execAudioUnmute r p tx s = _)⟩
  case slotMaskWrite r p tx value => exact ⟨_, (rfl : execSlotMaskWrite r p tx value s = _)⟩
  case rampEnd p tx => exact ⟨_, (rfl : execRampEnd p tx s = _)⟩
  case clockLoopUpdate fam phase => exact ⟨_, (rfl : execClockLoopUpdate fam phase s = _)⟩
  case loopModeWrite r fam value => exact ⟨_, (rfl : execLoopModeWrite r fam value s = _)⟩
  case blockStampRead r p => exact ⟨_, (rfl : execBlockStampRead r p s = _)⟩
  case axisConfigWrite r axis param value => exact ⟨_, (rfl : execAxisConfigWrite r axis param value s = _)⟩
  case axisEnable r axis value => exact ⟨_, (rfl : execAxisEnable r axis value s = _)⟩
  case quadratureEdge axis a b => exact ⟨_, (rfl : execQuadratureEdge axis a b s = _)⟩
  case hallEdge axis a b z => exact ⟨_, (rfl : execHallEdge axis a b z s = _)⟩
  case analogSample axis sin cos => exact ⟨_, (rfl : execAnalogSample axis sin cos s = _)⟩
  case ssiPoll axis => exact ⟨_, (rfl : execSsiPoll axis s = _)⟩
  case ssiFrameDone axis startHigh data => exact ⟨_, (rfl : execSsiFrameDone axis startHigh data s = _)⟩
  case indexEvent axis level => exact ⟨_, (rfl : execIndexEvent axis level s = _)⟩
  case positionPreset r axis value => exact ⟨_, (rfl : execPositionPreset r axis value s = _)⟩
  case historySample axis => exact ⟨_, (rfl : execHistorySample axis s = _)⟩
  case velocityTimeout axis => exact ⟨_, (rfl : execVelocityTimeout axis s = _)⟩
  case poseForm p => exact ⟨_, (rfl : execPoseForm p s = _)⟩
  case poseRecordCommit p => exact ⟨_, (rfl : execPoseRecordCommit p s = _)⟩
  case emuEnable r e value => exact ⟨_, (rfl : execEmuEnable r e value s = _)⟩
  case emuStepOut e => exact ⟨_, (rfl : execEmuStepOut e s = _)⟩
  case emuZPulseEnd e => exact ⟨_, (rfl : execEmuZPulseEnd e s = _)⟩
  case twcGo r c value => exact ⟨_, (rfl : execTwcGo r c value s = _)⟩
  case twcRecover r c value => exact ⟨_, (rfl : execTwcRecover r c value s = _)⟩
  case twcBusFree c => exact ⟨_, (rfl : execTwcBusFree c s = _)⟩
  case twcTransferDone c result data => exact ⟨_, (rfl : execTwcTransferDone c result data s = _)⟩
  case arbitrationLoss c => exact ⟨_, (rfl : execArbitrationLoss c s = _)⟩
  case twcRetry c => exact ⟨_, (rfl : execTwcRetry c s = _)⟩
  case busError c => exact ⟨_, (rfl : execBusError c s = _)⟩
  case stretchTimeout c sdaLow => exact ⟨_, (rfl : execStretchTimeout c sdaLow s = _)⟩
  case busRecovery c sda => exact ⟨_, (rfl : execBusRecovery c sda s = _)⟩
  case sclStuck c => exact ⟨_, (rfl : execSclStuck c s = _)⟩
  case sdaStuck c => exact ⟨_, (rfl : execSdaStuck c s = _)⟩
  case lanternCall c => exact ⟨_, (rfl : execLanternCall c s = _)⟩
  case twtPointerWrite pointer => exact ⟨_, (rfl : execTwtPointerWrite pointer s = _)⟩
  case twtWinWrite data => exact ⟨_, (rfl : execTwtWinWrite data s = _)⟩
  case twtWinRead => exact ⟨_, (rfl : execTwtWinRead s = _)⟩
  case twtReadTimeout => exact ⟨_, (rfl : execTwtReadTimeout s = _)⟩
  case twtAccessDone => exact ⟨_, (rfl : execTwtAccessDone s = _)⟩
  case twtRestart => exact ⟨_, (rfl : execTwtRestart s = _)⟩
  case sensorConversion sensor reading => exact ⟨_, (rfl : execSensorConversion sensor reading s = _)⟩
  case sensorTimeout sensor => exact ⟨_, (rfl : execSensorTimeout sensor s = _)⟩
  case vigilTick pest => exact ⟨_, (rfl : execVigilTick pest s = _)⟩
  case vigilLost => exact ⟨_, (rfl : execVigilLost s = _)⟩
  case powerMeasureWrite r value => exact ⟨_, (rfl : execPowerMeasureWrite r value s = _)⟩
  case pmeasStale => exact ⟨_, (rfl : execPmeasStale s = _)⟩
  case stepMinWrite r smin => exact ⟨_, (rfl : execStepMinWrite r smin s = _)⟩
  case outputEntryWrite r value => exact ⟨_, (rfl : execOutputEntryWrite r value s = _)⟩
  case queueRankWrite r k value => exact ⟨_, (rfl : execQueueRankWrite r k value s = _)⟩
  case fltClear r die => exact ⟨_, (rfl : execFltClear r die s = _)⟩
  case faultTest r die value => exact ⟨_, (rfl : execFaultTest r die value s = _)⟩
  case dieNoResponse die => exact ⟨_, (rfl : execDieNoResponse die s = _)⟩
  case pllLossOfLock pll => exact ⟨_, (rfl : execPllLossOfLock pll s = _)⟩
  case hubParityError => exact ⟨_, (rfl : execHubParityError s = _)⟩
  case avsRequestAck die => exact ⟨_, (rfl : execAvsRequestAck die s = _)⟩
  case avsTimeout die => exact ⟨_, (rfl : execAvsTimeout die s = _)⟩
  case softwareReset r value => exact ⟨_, (rfl : execSoftwareReset r value s = _)⟩
  case softwareResetStart bootmode posn => exact ⟨_, (rfl : execSoftwareResetStart bootmode posn s = _)⟩
  case controlPacketInject channel => exact ⟨_, (rfl : execControlPacketInject channel s = _)⟩
  case injectControlWrite r channel value => exact ⟨_, (rfl : execInjectControlWrite r channel value s = _)⟩
  case routeWrite r value => exact ⟨_, (rfl : execRouteWrite r value s = _)⟩
  case irqLineRise source => exact ⟨_, (rfl : execIrqLineRise source s = _)⟩
  case bootFlashWriteDone => exact ⟨_, (rfl : execBootFlashWriteDone s = _)⟩
  case pcieLinkUp width speed => exact ⟨_, (rfl : execPcieLinkUp width speed s = _)⟩
  case paradeTrunkAlign n headers markers => exact ⟨_, (rfl : execParadeTrunkAlign n headers markers s = _)⟩
  case clusterWakeDone c => exact ⟨_, (rfl : execClusterWakeDone c s = _)⟩
  case ssdFatalStatus port => exact ⟨_, (rfl : execSsdFatalStatus port s = _)⟩
  case pairPacketTimeout => exact ⟨_, (rfl : execPairPacketTimeout s = _)⟩
  case busStartSeen c => exact ⟨_, (rfl : execBusStartSeen c s = _)⟩
  case pcieOutboundCompletion k bad => exact ⟨_, (rfl : execPcieOutboundCompletion k bad s = _)⟩

end Sys2Proof.Machine
end

