-- ==== Sys2Proof/Laws/EncLen.lean ====
section
/-! SUPPORT. How long headers of the codec can be, whatever the firmware chooses in their open fields. -/
namespace Sys2Proof.Machine

@[simp] theorem bitsBE_length : ∀ n v : Nat, (bitsBE n v).length = n
  | 0, _ => rfl
  | n + 1, v => by rw [bitsBE, List.length_cons, bitsBE_length n v]
@[simp] theorem putU_length (n v : Nat) : (putU n v).length = n := bitsBE_length n v
@[simp] theorem putF_length (b : Bool) : (putF b).length = 1 := rfl
theorem putUe_length_le {v : Nat} (k : Nat) (h : v + 1 < 2 ^ (k + 1)) : (putUe v).length ≤ 2 * k + 1 := by
  have : Nat.log2 (v + 1) < k + 1 := (Nat.log2_lt (by omega)).2 h
  rw [putUe, bitsBE_length, ueLen]
  omega
/-- A signed number of less than 6 bits. -/
theorem putSe_length_le {i : Int} (k : Nat) (h : 2 * i.natAbs + 1 < 2 ^ (k + 1)) : (putSe i).length ≤ 2 * k + 1 := by
  rw [putSe]
  apply putUe_length_le
  split <;> omega
theorem openHdr_lt (fw i : Nat) {n : Nat} (h : 0 < n) : openHdr fw i n < n := Nat.mod_lt _ h
@[simp] theorem packMsb_length (l : List Bool) : (packMsb l).length = divCeil l.length 8 := by simp [packMsb]
theorem withStop_length (l : List Bool) : (withStop l).length = divCeil (l.length + 1) 8 := by simp [withStop]
theorem escape_length_le : ∀ (z : Nat) (l : List Byte), (escape z l).length ≤ 2 * l.length
  | _, [] => Nat.le_refl _
  | z, b :: t => by
    rw [escape]
    split
    · have := escape_length_le (if b.toNat = 0 then 1 else 0) t
      simp only [List.length_cons]
      omega
    · have := escape_length_le (if b.toNat = 0 then z + 1 else 0) t
      simp only [List.length_cons]
      omega
@[simp] theorem nalHead_length (t i : Nat) : (nalHead t i).length = 2 := by simp [nalHead, divCeil]
theorem nal_length_le (h : List Byte) (l : List Bool) : (nalUnit (h ++ escape 0 (withStop l))).length ≤ 4 + h.length + 2 * (l.length / 8 + 1) := by
  have := escape_length_le 0 (withStop l)
  rw [withStop_length] at this
  simp only [nalUnit, List.length_append, divCeil, List.length_cons, List.length_nil] at *
  omega

end Sys2Proof.Machine
end

