-- ==== Sys2Proof/Laws/Plain.lean ====
section
/-! SUPPORT. A register without an effect of its own is written by its access codes alone. -/
namespace Sys2Proof.Machine

theorem State.blkWrite_plain (s : State) (x : WCtx) (w : Where) (a : Nat) (v m : Word) (h : w.plain = true) :
    s.blkWrite x w a v m = s.genWrite x a v m := by
  obtain ⟨b, d, i, o⟩ := w
  cases b <;> simp only [Where.plain, Bool.and_eq_true, Bool.not_eq_true', bne_iff_ne, ne_eq, decide_eq_true_eq,
    List.contains_eq_mem, decide_eq_false_iff_not, List.mem_cons, List.not_mem_nil, or_false, not_or, reduceCtorEq] at h <;>
    simp [State.blkWrite, topWrite, advWrite, fabWrite, fltWrite, thmWrite, irqWrite, campWrite, calWrite, headWrite, tcmWrite,
      prdWrite, dchWrite, dmcWrite, dmaWrite, dmagWrite, nvtWrite, nvhWrite, pcieWrite, quadWrite, ethWrite, timeWrite, audWrite,
      axisWrite, emuWrite, twcWrite, pipeWrite, mfeWrite, vccWrite, engWrite, h]
  all_goals
    try simp only [C0_STREAM, CAL_ENTRY0, CAL_ENTRY3, ENG_QPTR, VCC_CTXBASE, VCC_ERR_HI, LANE_TXEQ, DMA_SRC_LO, DMA_DSTRIDE,
      DMC_BANK_MASK, THM_QRANK] at h ⊢
    first
    | (intros; omega)
    | ((repeat' split) <;> first | rfl | omega)

end Sys2Proof.Machine
end

