-- ==== Sys2Proof/Laws/Updates.lean ====
section
/-! SUPPORT. The frame of each named update. -/
namespace Sys2Proof.Machine

theorem Frame.setForce (s : State) (a : Nat) (v : Word) : Frame [.regs, .act] s (s.setForce a v) := by
  intro p hp; cases p <;> first | rfl | exact absurd (by decide) hp
theorem Frame.setMemByte (s : State) (a : Nat) (b : Byte) : Frame [.mem] s (s.setMemByte a b) := by
  intro p hp; cases p <;> first | rfl | exact absurd (by decide) hp
theorem Frame.answerWith (s : State) (v : Word) : Frame [.answer] s (s.answerWith v) := by
  intro p hp; cases p <;> first | rfl | exact absurd (by decide) hp
theorem Frame.withAlm (s : State) (x : Alm) : Frame [.alm] s (s.withAlm x) := by
  intro p hp; cases p <;> first | rfl | exact absurd (by decide) hp
theorem Frame.withTime (s : State) (x : TimeU) : Frame [.time] s (s.withTime x) := by
  intro p hp; cases p <;> first | rfl | exact absurd (by decide) hp
theorem Frame.withPair (s : State) (x : Pair) : Frame [.pair] s (s.withPair x) := by
  intro p hp; cases p <;> first | rfl | exact absurd (by decide) hp
theorem Frame.withDue (s : State) (x : UMap Shadow) : Frame [.due] s (s.withDue x) := by
  intro p hp; cases p <;> first | rfl | exact absurd (by decide) hp
theorem Frame.withThm (s : State) (x : ThmU) : Frame [.thm] s (s.withThm x) := by
  intro p hp; cases p <;> first | rfl | exact absurd (by decide) hp
theorem Frame.withAdv (s : State) (x : Adv) : Frame [.adv] s (s.withAdv x) := by
  intro p hp; cases p <;> first | rfl | exact absurd (by decide) hp
theorem Frame.withFab (s : State) (x : Fab) : Frame [.fab] s (s.withFab x) := by
  intro p hp; cases p <;> first | rfl | exact absurd (by decide) hp
theorem Frame.withFlt (s : State) (x : Flt) : Frame [.flt] s (s.withFlt x) := by
  intro p hp; cases p <;> first | rfl | exact absurd (by decide) hp
theorem Frame.withHeld (s : State) (x : UMap Shadow) : Frame [.held] s (s.withHeld x) := by
  intro p hp; cases p <;> first | rfl | exact absurd (by decide) hp
theorem Frame.withCodec (s : State) (x : Codec) : Frame [.codec] s (s.withCodec x) := by
  intro p hp; cases p <;> first | rfl | exact absurd (by decide) hp
theorem Frame.withPcie (s : State) (x : PcieU) : Frame [.pcie] s (s.withPcie x) := by
  intro p hp; cases p <;> first | rfl | exact absurd (by decide) hp
theorem Frame.withAct (s : State) (x : UMap Word) : Frame [.act] s (s.withAct x) := by
  intro p hp; cases p <;> first | rfl | exact absurd (by decide) hp
theorem Frame.withNv (s : State) (x : NvU) : Frame [.nv] s (s.withNv x) := by
  intro p hp; cases p <;> first | rfl | exact absurd (by decide) hp
theorem Frame.withDmaRest (s : State) (x : Nat) : Frame [.dmaRest] s (s.withDmaRest x) := by
  intro p hp; cases p <;> first | rfl | exact absurd (by decide) hp
theorem Frame.withMasks (s : State) (x : DramMasks) : Frame [.masks] s (s.withMasks x) := by
  intro p hp; cases p <;> first | rfl | exact absurd (by decide) hp
theorem Frame.withFrozen (s : State) (x : List Nat) : Frame [.frozen] s (s.withFrozen x) := by
  intro p hp; cases p <;> first | rfl | exact absurd (by decide) hp
theorem Frame.withLinesUp (s : State) (x : List Nat) : Frame [.linesUp] s (s.withLinesUp x) := by
  intro p hp; cases p <;> first | rfl | exact absurd (by decide) hp
theorem Frame.setCamp (s : State) (k : Nat) (u : Camp) : Frame [.camps] s (s.setCamp k u) := by
  intro p hp; cases p <;> first | rfl | exact absurd (by decide) hp
theorem Frame.setCal (s : State) (k : Nat) (u : Cal) : Frame [.cals] s (s.setCal k u) := by
  intro p hp; cases p <;> first | rfl | exact absurd (by decide) hp
theorem Frame.setTwc (s : State) (k : Nat) (u : Twc) : Frame [.twcs] s (s.setTwc k u) := by
  intro p hp; cases p <;> first | rfl | exact absurd (by decide) hp
theorem Frame.setPipe (s : State) (k : Nat) (u : PipeU) : Frame [.pipes] s (s.setPipe k u) := by
  intro p hp; cases p <;> first | rfl | exact absurd (by decide) hp
theorem Frame.setMfe (s : State) (k : Nat) (u : MfeU) : Frame [.mfes] s (s.setMfe k u) := by
  intro p hp; cases p <;> first | rfl | exact absurd (by decide) hp
theorem Frame.setHead (s : State) (k : Nat) (u : HeadU) : Frame [.heads] s (s.setHead k u) := by
  intro p hp; cases p <;> first | rfl | exact absurd (by decide) hp
theorem Frame.setPrd (s : State) (k : Nat) (u : PrdU) : Frame [.prds] s (s.setPrd k u) := by
  intro p hp; cases p <;> first | rfl | exact absurd (by decide) hp
theorem Frame.setVcc (s : State) (k : Nat) (u : VccU) : Frame [.vccs] s (s.setVcc k u) := by
  intro p hp; cases p <;> first | rfl | exact absurd (by decide) hp
theorem Frame.setDch (s : State) (k : Nat) (u : Dch) : Frame [.dchs] s (s.setDch k u) := by
  intro p hp; cases p <;> first | rfl | exact absurd (by decide) hp
theorem Frame.setDma (s : State) (k : Nat) (u : DmaU) : Frame [.dmas] s (s.setDma k u) := by
  intro p hp; cases p <;> first | rfl | exact absurd (by decide) hp
theorem Frame.setAxis (s : State) (k : Nat) (u : AxisU) : Frame [.axes] s (s.setAxis k u) := by
  intro p hp; cases p <;> first | rfl | exact absurd (by decide) hp
theorem Frame.setEmu (s : State) (k : Nat) (u : EmuU) : Frame [.emus] s (s.setEmu k u) := by
  intro p hp; cases p <;> first | rfl | exact absurd (by decide) hp
theorem Frame.setPosePort (s : State) (k : Nat) (u : PosePort) : Frame [.poses] s (s.setPosePort k u) := by
  intro p hp; cases p <;> first | rfl | exact absurd (by decide) hp
theorem Frame.setQuad (s : State) (k : Nat) (u : QuadU) : Frame [.quads] s (s.setQuad k u) := by
  intro p hp; cases p <;> first | rfl | exact absurd (by decide) hp
theorem Frame.setProc (s : State) (k : Bool) (u : ProcPort) : Frame [.procs] s (s.setProc k u) := by
  intro p hp; cases p <;> first | rfl | exact absurd (by decide) hp
theorem Frame.setAud (s : State) (k : Nat) (u : AudU) : Frame [.auds] s (s.setAud k u) := by
  intro p hp; cases p <;> first | rfl | exact absurd (by decide) hp
theorem Frame.setClu (s : State) (k : Nat) (u : ClU) : Frame [.clus] s (s.setClu k u) := by
  intro p hp; cases p <;> first | rfl | exact absurd (by decide) hp
theorem Frame.setCtx (s : State) (k : Nat) (u : VCtx) : Frame [.codec] s (s.setCtx k u) := by
  intro p hp; cases p <;> first | rfl | exact absurd (by decide) hp

end Sys2Proof.Machine
end

