-- ==== Sys2Proof/Laws/Record.lean ====
section
/-! SUPPORT. What a fault record and a journalled value change: the log, the Almanac's waiting entries, and the registers that
show them. -/
namespace Sys2Proof.Machine

theorem RegFrame.wr {l : List Nat} (s : State) {a : Nat} (v : Word) (h : a ∈ l) : RegFrame l s (s.wr a v) :=
  fun _ hb => State.rd_wr_ne s v fun e => hb (e ▸ h)

theorem RegFrame.put {l : List Nat} (s : State) {b : Nat} {f : Fld} (v : Nat) (h : b + f.off ∈ l) :
    RegFrame l s (s.setFld b f v) := RegFrame.wr s _ h
theorem RegFrame.flag {l : List Nat} (s : State) {b : Nat} {f : Fld} (v : Bool) (h : b + f.off ∈ l) :
    RegFrame l s (s.setFlag b f v) := RegFrame.wr s _ h
theorem RegFrame.inc {l : List Nat} (s : State) {b : Nat} {f : Fld} (v : Nat) (h : b + f.off ∈ l) :
    RegFrame l s (s.incFld b f v) := RegFrame.wr s _ h
theorem RegFrame.most {l : List Nat} (s : State) {b : Nat} {f : Fld} (v : Nat) (h : b + f.off ∈ l) :
    RegFrame l s (s.maxFld b f v) := RegFrame.wr s _ h

theorem State.snapshot_frame (s : State) (die sev : Nat) (r : FaultRec) : Frame [.regs] s (s.snapshot die sev r) := by
  unfold State.snapshot
  simp only []
  split
  · exact ((Frame.incFld s _ _ _).trans (Frame.setFlag _ _ _ _)).trans (Frame.maxFld _ _ _ _)
  · exact (((((Frame.wr s _ _).trans (Frame.wr _ _ _)).trans (Frame.wr _ _ _)).trans (Frame.wr _ _ _)).trans
      (Frame.setFlag _ _ _ _)).trans (Frame.setFld _ _ _ _)

theorem State.snapshot_regs (s : State) (die sev : Nat) (r : FaultRec) : RegFrame (recordRegs die) s (s.snapshot die sev r) := by
  unfold State.snapshot
  simp only []
  have h0 : fltA die ∈ recordRegs die := by simp [recordRegs]
  have h4 : fltA die + 4 ∈ recordRegs die := by simp [recordRegs]
  have h8 : fltA die + 8 ∈ recordRegs die := by simp [recordRegs]
  have h12 : fltA die + 12 ∈ recordRegs die := by simp [recordRegs]
  have hs : fltA die + FLT_STATUS ∈ recordRegs die := by simp [recordRegs]
  split
  · exact ((RegFrame.inc s _ hs).trans (RegFrame.flag _ _ hs)).trans (RegFrame.most _ _ hs)
  · exact (((((RegFrame.wr s _ h0).trans (RegFrame.wr _ _ h4)).trans (RegFrame.wr _ _ h8)).trans
      (RegFrame.wr _ _ h12)).trans (RegFrame.flag _ _ hs)).trans (RegFrame.put _ _ hs)

theorem State.showHolding_frame (s : State) : Frame [.regs] s s.showHolding :=
  (Frame.setFlag s _ _ _).trans (Frame.setFlag _ _ _ _)

theorem State.showHolding_regs (s : State) (die : Nat) : RegFrame (recordRegs die) s s.showHolding :=
  (RegFrame.flag s _ (by simp [recordRegs])).trans (RegFrame.flag _ _ (by simp [recordRegs]))

theorem State.holdLog_frame (s : State) (r : FaultRec) : Frame [.regs, .alm] s (s.holdLog r) := by
  unfold State.holdLog
  split
  · exact Frame.refl _ s
  · split
    · exact (Frame.incFld s _ _ _).mono (by decide)
    · exact ((Frame.withAlm s _).mono (by decide)).trans ((State.showHolding_frame _).mono (by decide))

theorem State.holdLog_regs (s : State) (r : FaultRec) (die : Nat) : RegFrame (recordRegs die) s (s.holdLog r) := by
  unfold State.holdLog
  split
  · exact RegFrame.refl _ s
  · split
    · exact RegFrame.inc s _ (by simp [recordRegs])
    · exact (RegFrame.of_regs rfl _).trans (State.showHolding_regs _ die)

/-- A record changes registers, the log and the Almanac's waiting entries, and nothing else. -/
theorem State.record_frame (s : State) (die cause sev src addr info : Nat) :
    Frame [.regs, .alm, .flt] s (s.record die cause sev src addr info) := by
  unfold State.record
  simp only []
  have h3 : ∀ f : Flt, Frame [.regs, .alm, .flt] s (((s.snapshot die sev (faultRec cause sev src addr info s.time32)).withFlt f).holdLog
      (faultRec cause sev src addr info s.time32)) := fun f =>
    (((State.snapshot_frame s die sev _).mono (by decide)).trans ((Frame.withFlt _ f).mono (by decide))).trans
      ((State.holdLog_frame _ _).mono (by decide))
  split
  · exact (h3 _).trans (((Frame.incFld _ _ _ _).trans (Frame.setFlag _ _ _ _)).mono (by decide))
  · exact (h3 _).trans ((Frame.incFld _ _ _ _).mono (by decide))

/-- Registers outside the die's FLT instance and the Almanac's two status registers read as before. -/
theorem State.record_regs (s : State) (die cause sev src addr info : Nat) :
    RegFrame (recordRegs die) s (s.record die cause sev src addr info) := by
  unfold State.record
  simp only []
  have ht : fltA die + FLT_TOTAL ∈ recordRegs die := by simp [recordRegs]
  have he : fltA die + FLT_EVT ∈ recordRegs die := by simp [recordRegs]
  have h3 := ((State.snapshot_regs s die sev (faultRec cause sev src addr info s.time32)).trans (RegFrame.of_regs
    (t := (s.snapshot die sev (faultRec cause sev src addr info s.time32)).withFlt (s.flt.push die (faultRec cause sev src addr info s.time32))) rfl _)).trans
    (State.holdLog_regs _ (faultRec cause sev src addr info s.time32) die)
  have hs : (s.snapshot die sev (faultRec cause sev src addr info s.time32)).flt = s.flt :=
    State.snapshot_frame s die sev _ .flt (by decide)
  rw [hs]
  split
  · exact h3.trans ((RegFrame.inc _ _ ht).trans (RegFrame.flag _ _ he))
  · exact h3.trans (RegFrame.inc _ _ ht)

/-- The record is the newest of the die's log. -/
theorem State.record_flt (s : State) (die cause sev src addr info : Nat) :
    (s.record die cause sev src addr info).flt = s.flt.push die (faultRec cause sev src addr info s.time32) := by
  have hs : (s.snapshot die sev (faultRec cause sev src addr info s.time32)).flt = s.flt :=
    State.snapshot_frame s die sev _ .flt (by decide)
  unfold State.record
  simp only []
  split
  all_goals
    first
      | exact ((State.holdLog_frame _ _) .flt (by decide)).trans (by rw [hs]; rfl)

theorem State.journal_frame (s : State) (key : Nat) (mask value : Word) : Frame [.regs, .alm] s (s.journal key mask value) := by
  unfold State.journal
  have hp : ∀ (t : State) (a : Alm), Frame [.regs, .alm] t (t.withAlm a).showHolding := fun t a =>
    ((Frame.withAlm t _).mono (by decide)).trans ((State.showHolding_frame _).mono (by decide))
  split
  · exact Frame.refl _ s
  · simp only []
    split
    · exact hp s _
    · split
      · split
        · exact (((Frame.withAlm s _).mono (by decide)).trans ((Frame.incFld _ _ _ _).mono (by decide))).trans (hp _ _)
        · exact (Frame.setFlag s _ _ _).mono (by decide)
      · exact hp s _

theorem State.journal_regs (s : State) (key : Nat) (mask value : Word) :
    RegFrame [almA + ALM_STATUS, nvtA + NVT_STATUS] s (s.journal key mask value) := by
  have h1 : almA + ALM_STATUS ∈ [almA + ALM_STATUS, nvtA + NVT_STATUS] := by simp
  have h2 : nvtA + NVT_STATUS ∈ [almA + ALM_STATUS, nvtA + NVT_STATUS] := by simp
  have hp : ∀ (t : State) (a : Alm), RegFrame [almA + ALM_STATUS, nvtA + NVT_STATUS] t (t.withAlm a).showHolding :=
    fun t a => (RegFrame.of_regs rfl _).trans ((RegFrame.flag _ _ h1).trans (RegFrame.flag _ _ h2))
  unfold State.journal
  split
  · exact RegFrame.refl _ s
  · simp only []
    split
    · exact hp s _
    · split
      · split
        · exact ((RegFrame.of_regs (t := s.withAlm _) rfl _).trans (RegFrame.inc _ _ h1)).trans (hp _ _)
        · exact RegFrame.flag s _ h1
      · exact hp s _

/-- The record is in the log of its die, as its newest entry. -/
theorem State.record_logged (s : State) (die cause sev src addr info : Nat) (h : die ≤ 2) :
    Logged die cause sev src addr info s (s.record die cause sev src addr info) := by
  have h2 : die = 0 ∨ die = 1 ∨ die = 2 := by omega
  unfold Logged
  rw [State.record_flt]
  rcases h2 with rfl | rfl | rfl <;> rfl

end Sys2Proof.Machine
end

