-- ==== Sys2Proof/Tests/Base.lean ====
section
/-! SUPPORT. Small states for the tests. -/
namespace Sys2Proof.Tests
open Sys2Proof Sys2Proof.Machine

/-- The device runs: PORST_N is high; everything else is as reset leaves it. -/
def alive : State := State.reset.withAdv { porst := true }

/-- The device runs, in A7. -/
def running : State := alive.setFld advA ADV_STATUS_PHASE 7

/-- The device runs with 1 GiB of DRAM on every channel. -/
def usable : State := (alive.setFld dmcA DMC_USABLE_MIB 1024).setFld dmcA DMC_CHCFG_PAIR_USE 0xFF

/-- The smallest image: a header and an End record. -/
def endImage : List Byte :=
  let body := toBytes 16 0xFF
  let h := toBytes 4 0x4C444B53 ++ toBytes 4 1 ++ toBytes 4 80 ++ toBytes 4 5 ++ toBytes 4 1 ++ toBytes 36 0
  h ++ toBytes 4 (crc32c h) ++ toBytes 4 (crc32c body) ++ body
/-- One word of code as steward firmware 7. -/
def stewardFw : List Byte :=
  toBytes 4 0x57465653 ++ toBytes 2 1 ++ toBytes 2 1 ++ toBytes 4 7 ++ toBytes 4 4 ++ toBytes 8 0 ++
    toBytes 4 (crc32c (toBytes 4 0x13)) ++ toBytes 4 0 ++ toBytes 4 0x13
/-- One word of code as engine firmware 7. -/
def engineFw : List Byte :=
  toBytes 4 0x57465257 ++ toBytes 2 1 ++ toBytes 2 1 ++ toBytes 4 7 ++ toBytes 4 4 ++ toBytes 12 0 ++
    toBytes 4 (crc32c (toBytes 4 0x13)) ++ toBytes 4 0x13
/-- One word of code as codec firmware 7. -/
def codecFw : List Byte :=
  toBytes 4 0x57464356 ++ toBytes 2 1 ++ toBytes 2 1 ++ toBytes 4 7 ++ toBytes 4 4 ++ toBytes 8 0 ++
    toBytes 4 (crc32c (toBytes 4 0x13)) ++ toBytes 4 0 ++ toBytes 4 0x13
/-- Phase n of Advent, with this state of its own. -/
def phaseOf (n : Nat) (a : Adv) : State := (State.reset.withAdv { a with porst := true }).setFld advA ADV_STATUS_PHASE n

/-- A block as a scrambler in the state 0 sends it. -/
def wireBits (v : Nat) : BitVec 64 := BitVec.ofNat 64 (ofBits (scramble false 0 (bitsOf v)).1)

/-- The bytes of the smallest decode context. -/
def decCtx : List Byte :=
  [0x80, 1, 1, 0] ++ toBytes 2 8 ++ toBytes 2 8 ++ [0, 0, 1, 0, 2, 0, 1, 0] ++ List.replicate 28 0 ++ toBytes 4 256 ++
    List.replicate 64 0 ++ toBytes 4 0xFFFF
/-- Bytes of an encode context for core 7 that names no field and watches head 0; PIC_CAP and OUT_SIZE 64 KiB. -/
def encBytes : List Byte :=
  List.replicate 7 0 ++ [0x80, 0, 0, 0, 8] ++ List.replicate 24 0 ++ toBytes 2 8 ++ toBytes 2 8 ++ [1, 0, 0xFF, 0] ++
    [2, 1] ++ List.replicate 14 0 ++ toBytes 4 65536 ++ toBytes 4 65536 ++ toBytes 4 1 ++ toBytes 4 60 ++ List.replicate 52 0 ++
    toBytes 8 0 ++ toBytes 4 65536
/-- Bytes of an encode context that START accepts: IDR pictures of 64 x 64 on core 7. -/
def startEnc : List Byte :=
  [1, 30, 0, 0x10, 1, 0, 0, 0x80, 0, 0, 0, 8] ++ toBytes 8 0x100000 ++ toBytes 4 0x8000 ++ toBytes 2 64 ++ toBytes 2 64 ++
    toBytes 4 256 ++ List.replicate 4 0 ++ toBytes 2 64 ++ toBytes 2 64 ++ [1, 0, 0xFF, 0, 0, 1, 0, 51, 30, 30, 30, 0] ++
    toBytes 4 60000000 ++ toBytes 4 60000000 ++ toBytes 4 65536 ++ toBytes 4 65536 ++ toBytes 4 1 ++ toBytes 4 60 ++
    List.replicate 40 0 ++ [1] ++ List.replicate 11 0 ++ toBytes 8 0x200000 ++ toBytes 4 0x10000 ++ List.replicate 4 0 ++
    toBytes 8 0x210000 ++ toBytes 8 0x220000 ++ toBytes 4 20 ++ List.replicate 92 0
/-- The bytes encBytes with places: the ring from 0, records at 64 KiB, the work area at 16 MiB. -/
def encPlaced : List Byte := encBytes ++ List.replicate 4 0 ++ toBytes 8 0x10000 ++ toBytes 8 0x1000000 ++ toBytes 4 1
/-- A source picture of 8 x 8, all zero. -/
def tinySrc : SrcPic := ⟨8, 8, List.replicate 64 0, List.replicate 16 0, List.replicate 16 0⟩
/-- Bytes of a decode context for core 7: pictures up to 8 x 8, a ring of 4 KiB at 0. -/
def decTiny : List Byte :=
  [0x80, 1, 1, 0, 8, 0, 8, 0, 0, 0, 0x80, 0, 2, 0, 1, 0] ++ toBytes 8 0 ++ toBytes 4 4096 ++ List.replicate 228 0
/-- A sequence of 8 x 8 pictures, one CTB of 16 each. -/
def tinySps : Sps := ⟨0, 0, true, 1, 8, 8, [0, 0, 0, 0], 8, 8, 4, 1, 0, 0, 4, false, [], false, [], false, none⟩
def tinyPps : Pps :=
  ⟨0, 0, false, false, 0, false, 1, 1, false, false, false, false, false, 1, 1, [], [], false, false, false, false, false, false⟩
/-- An IDR picture of one slice: start code, NAL unit of type 19, header, data. -/
def tinySlice : List Byte := [0, 0, 1, 0x26, 0x01, 0xAF, 0x80]
def tinyHdr : SliceHdr := ⟨true, false, false, 0, 2, true, 0, ⟨[], []⟩, [], 0⟩
def tinyPic : DecInfo := ⟨0, 7, tinySps, tinyPps, 19, 0, 0, true, [⟨some tinyHdr, false⟩]⟩
/-- A decoded picture that waits for its output. -/
def tinyOut : DpbPic := ⟨⟨0, 0, [0, 0, 0, 0], 1, 8, 8, 16, [], [], [], 0, 0, 0, none⟩, 0, 0, 0, 0, 0, true, true, false, 0⟩
/-- Memory answers, and codec core 7 takes pictures. -/
def vccOn : State := (usable.setFlag (vccA 7) VCC_CTRL_EN true).setFlag (vccA 7) VCC_STATUS_SP_RUN true

/-- A core that runs, with pc at a place of its IMEM that holds the word w. -/
def coreAt (u : WCore) (pc w : Nat) (c : EngU) : State :=
  alive.setCore u { c with run := true, pc := pc, imem := putBytes [] pc (toBytes 4 w) }
/-- Words of formats A, B, C and D. -/
def wA (op rd rs1 rs2 f : Nat) : Nat := op * 2 ^ 26 + rd * 2 ^ 21 + rs1 * 2 ^ 16 + rs2 * 2 ^ 11 + f
def wB (op rd rs1 imm : Nat) : Nat := op * 2 ^ 26 + rd * 2 ^ 21 + rs1 * 2 ^ 16 + imm
def wD (op vd vs1 vs2 mask ty f : Nat) : Nat := wA op vd vs1 vs2 (mask * 256 + ty * 64 + f)
/-- Memory answers, and Ethernet port 3 has a link and one entry posted in each ring. -/
def ethOn : State :=
  ((((usable.wr (ethA 3 + ETH_CTRL) 0xA0000000).setFlag (ethA 3) ETH_STATUS_LINK_UP true).wr (ethA 3 + ETH_TX_PTR) 1).wr
    (ethA 3 + ETH_RX0_PTR) 1).wr (ethA 3 + ETH_RX1_PTR) 1
/-- The device runs, and every quad is in the power state its users ask for. -/
def laneOn : State := (alive.setQuad 8 { used := true }).setQuad 9 { used := true }
/-- Axis x runs in a mode, with these further bits of AXIS_CTRL. -/
def axisOn (x mode v : Nat) : State := alive.wr (axisA x + AXIS_CTRL) (wd (2 ^ 31 + mode * 2 ^ 28 + v))
/-- The Procession runs, and the lanes of a port are ready with block lock. -/
def prcOn (right : Bool) : State :=
  (if right then [2, 3] else [0, 1]).foldl (fun t k =>
    (t.setFlag (quadA 15) (laneF LANE_STAT_BLOCK_LOCK k) true).setFlag (quadA 15) (laneF LANE_STAT_READY k) true)
    (alive.setFlag advA PRC_CTRL_EN true)

/-- The SSD of port 0 is the store, which holds namespace 1 of 512 blocks; the cache holds 1 MiB. -/
def storeOn : State :=
  let s := ((((usable.setFld dmcA DMC_CHCFG_CHANNELS 16).wr (nvtA + NVT_CTRL) 0x11).setFld (nvhA 0) NVH_STATUS_STATE 2).setFld (nvhA 0) NVH_LBAS_LO_LBAS 0x2000).setFld
    nvtA NVT_CACHE_CACHE_MIB 1
  let l : NvLabel := ⟨[7], 1, [⟨1, 0, 512, true⟩], none⟩
  s.setNv { s.nv with label := l, ports := s.nv.ports.setIfInBounds 0 { ident := 7, label := some l } }
/-- The host has enabled the controller, and queue `id` offers these words in the last of its four entries; the completion goes
into the last of four. -/
def hostOn (id : Nat) (w : List Nat) : State :=
  let s := (storeOn.wr (pcieA + PCIE_CTRL) 1).wr (pcieA + PCIE_STATUS) 1
  (((s.setNv { s.nv with rdy := true, cc := 1 }).setSq id (some { base := 0x10000, size := 4, cq := id, head := 3 })).setCq id
    (some { base := 0x20000, size := 4, iv := 255, ien := true, head := 1, tail := 3 })).setHostBytes 0x100C0 (w.flatMap (toBytes 4))
/-- A submission queue entry: opcode, NSID, PRP 1, and the last six words. -/
def sqe (opc nsid prp1 : Nat) (d : List Nat) : List Nat := [opc + 0xFFFF0000, nsid, 0, 0, 0, 0, prp1, 0, 0, 0] ++ d
def ioSq : NvSq := { base := 0x10000, size := 4, cq := 63, head := 3 }
def ioCq : NvCq := { base := 0x20000, size := 4, iv := 255, ien := true, head := 1, tail := 3 }
def adSq : NvSq := { base := 0x10000, size := 4, cq := 0, head := 3 }

/-- An option that holds a value holds what getD gives. -/
theorem some_getD {α : Type} {o : Option α} {d : α} (h : o.isSome = true) : o = some (o.getD d) := by
  cases o with
  | none => cases h
  | some a => rfl

end Sys2Proof.Tests
end

