-- ==== Sys2Proof/Tests/EncFits.lean ====
section
/-! SUPPORT. The pictures and contexts of the codec witnesses fit their caps, whatever the firmware writes in its open fields. -/
namespace Sys2Proof.Tests
open Sys2Proof Sys2Proof.Machine

/-- Parts of a header whose open fields bound their length. -/
theorem ue_open (fw i : Nat) {n : Nat} (k : Nat) (h : 0 < n) (hk : n < 2 ^ (k + 1)) : (putUe (openHdr fw i n)).length ≤ 2 * k + 1 :=
  putUe_length_le k (by have := openHdr_lt fw i h; omega)
theorem qpDelta_length (fw : Nat) : (putSe ((openHdr fw 33 52 : Nat) - initQp fw)).length ≤ 13 := by
  have h := openHdr_lt fw 33 (n := 52) (by decide +kernel)
  have h' := openHdr_lt fw 5 (n := 52) (by decide +kernel)
  exact putSe_length_le 6 (by simp only [initQp]; omega)
theorem initQp_length (fw : Nat) : (putSe (initQp fw - 26)).length ≤ 11 := by
  have h := openHdr_lt fw 5 (n := 52) (by decide +kernel)
  exact putSe_length_le 5 (by simp only [initQp]; omega)
theorem chromaQp_length (fw i : Nat) : (putSe ((openHdr fw i 25 : Nat) - (12 : Int))).length ≤ 9 := by
  have h := openHdr_lt fw i (n := 25) (by decide +kernel)
  exact putSe_length_le 4 (by omega)

/-! ### START's witness -/

theorem startEnc_ptl (fw : Nat) : (ptlBits fw startEnc).length = 96 := by
  simp [ptlBits, show subLayers startEnc = 0 by decide +kernel]
theorem startEnc_vps (fw : Nat) : (vpsBits fw startEnc).length ≤ 200 := by
  simp only [vpsBits, nestBits, dpbBits, List.length_append, startEnc_ptl, putU_length, putF_length,
    show (putUe (picStore startEnc - 1)).length = 1 by decide +kernel, show gopOf startEnc = 0 by decide +kernel,
    show (putUe (if 0 = 2 then groupLog startEnc else 0)).length = 1 by decide +kernel, show (putUe 0).length = 1 by decide +kernel]
  omega
theorem startEnc_sps (fw : Nat) : (spsBits fw startEnc).length ≤ 500 := by
  have a := ue_open fw 1 2 (n := 5) (by decide +kernel) (by decide +kernel)
  have b := ue_open fw 2 2 (n := 5) (by decide +kernel) (by decide +kernel)
  unfold spsBits vuiBits
  simp only [nestBits, dpbBits, List.length_append, startEnc_ptl, putU_length, putF_length,
    show optOn startEnc 1 = false by decide +kernel, show chroma422 startEnc = false by decide +kernel,
    show codedW startEnc = 64 by decide +kernel, show codedH startEnc = 64 by decide +kernel, show codedDepth startEnc = 8 by decide +kernel,
    show at' startEnc 36 2 = 64 by decide +kernel, show at' startEnc 38 2 = 64 by decide +kernel,
    show (putUe (picStore startEnc - 1)).length = 1 by decide +kernel, show gopOf startEnc = 0 by decide +kernel,
    show (putUe (if 0 = 2 then groupLog startEnc else 0)).length = 1 by decide +kernel, show (putUe 0).length = 1 by decide +kernel,
    show (putUe (if false = true then 2 else 1)).length = 3 by decide +kernel, show (putUe 64).length = 13 by decide +kernel,
    show (putUe ((64 - 64) / if false = true then 1 else 2)).length = 1 by decide +kernel,
    show (putUe 12).length = 7 by decide +kernel, show (putUe 3).length = 5 by decide +kernel,
    show (if false = true then hrdBits fw startEnc else []).length = 0 from rfl]
  omega
theorem startEnc_pps (fw : Nat) : (ppsBits fw startEnc).length ≤ 200 := by
  have a := ue_open fw 24 3 (n := 15) (by decide +kernel) (by decide +kernel)
  have b := ue_open fw 25 3 (n := 15) (by decide +kernel) (by decide +kernel)
  have c := initQp_length fw
  have d := ue_open fw 22 2 (n := 4) (by decide +kernel) (by decide +kernel)
  have e := chromaQp_length fw 8
  have f := chromaQp_length fw 9
  have g := ue_open fw 10 2 (n := 5) (by decide +kernel) (by decide +kernel)
  unfold ppsBits
  simp only [List.length_append, putU_length, putF_length, show splitOf startEnc = 0 by decide +kernel,
    show (putUe 0).length = 1 by decide +kernel]
  simp +decide only [if_false, List.length_nil]
  omega
theorem startEnc_slice (fw : Nat) (t : Taken) (ht : t.type = 0) (hp : t.p = startEnc) : (sliceBits fw t [] 0 []).length ≤ 60 := by
  have a := qpDelta_length fw
  unfold sliceBits
  simp only [ht, hp, List.length_append, putF_length, show splitOf startEnc = 0 by decide +kernel,
    show optOn startEnc 7 = false by decide +kernel, show (putUe 0).length = 1 by decide +kernel]
  simp +decide only [if_true, if_false, List.length_nil, putF_length, show (putUe 2).length = 3 by decide +kernel]
  omega
theorem startEnc_floor (fw : Nat) : idrFloor fw startEnc ≤ 4096 := by
  have v := nal_length_le (nalHead 32 0) (vpsBits fw startEnc)
  have s := nal_length_le (nalHead 33 0) (spsBits fw startEnc)
  have p := nal_length_le (nalHead 34 0) (ppsBits fw startEnc)
  have v' := startEnc_vps fw
  have s' := startEnc_sps fw
  have p' := startEnc_pps fw
  let t : Taken := { frame := 0, src := 0, hdr := 0, fvNs := 0, poc := 0, type := 0, level := 0, p := startEnc }
  have h := nal_length_le (nalHead (sliceNal fw t) (tidOf t)) (sliceBits fw t [] 0 [])
  have h' := startEnc_slice fw t rfl rfl
  have f : (auHead fw t [] (noPose 0 0 0)).length = (paramSets fw startEnc).length := by
    unfold auHead
    simp +decide only [t, show optOn startEnc 6 = false by decide +kernel, show optOn startEnc 1 = false by decide +kernel,
      show optOn startEnc 2 = false by decide +kernel, show optOn startEnc 3 = false by decide +kernel,
      show optOn startEnc 4 = false by decide +kernel, show optOn startEnc 5 = false by decide +kernel, if_true, if_false,
      List.nil_append, List.append_nil, Bool.false_and]
  have g : sliceHeads fw t [] = [sliceHead fw t [] 0 []] := by
    simp +decide only [sliceHeads, t, show slicesOf startEnc = [[0]] by decide +kernel, show splitOf startEnc = 0 by decide +kernel,
      List.map_cons, List.map_nil, List.headD_cons, if_false, List.replicate]
  simp only [nalHead_length] at v s p h
  have e : idrFloor fw startEnc = 8 * (paramSets fw startEnc).length + 8 * (sliceHead fw t [] 0 []).length + 96 := by
    show headBits startEnc (auHead fw t [] (noPose 0 0 0)) (sliceHeads fw t []) + rho 0 * ctuCount startEnc = _
    rw [g, headBits, f]
    simp +decide only [show rho 0 * ctuCount startEnc = 96 by decide +kernel,
      List.map_cons, List.map_nil, List.sum_cons, List.sum_nil, if_false, Nat.add_zero]
  rw [e]
  simp only [paramSets, rbspNal, sliceHead, List.length_append] at *
  omega
/-- START accepts the context. -/
theorem startEnc_code (fw : Nat) : startCode fw false startEnc = 0 := by
  have f := startEnc_floor fw
  have c : encBadCap fw startEnc = false := by
    simp only [encBadCap, show at' startEnc 64 4 = 65536 by decide +kernel, show at' startEnc 136 4 = 65536 by decide +kernel,
      Bool.or_eq_false_iff, decide_eq_false_iff_not]
    omega
  unfold startCode
  rw [c]
  decide +kernel

/-! ### The witnesses of coded pictures -/

theorem plainSlice_length (fw : Nat) (t : Taken) (p : List Byte) (hp : splitOf p = 0) (ho : optOn p 7 = false) (ht : t.type = 1) (e : t.p = p) :
    (sliceBits fw t [] 0 []).length ≤ 60 := by
  have a := qpDelta_length fw
  have act : activeRefs p 1 t.poc [] = [] := by simp [activeRefs]
  unfold sliceBits
  simp +decide only [ht, e, hp, ho, act, List.length_append, putF_length, putU_length, if_true, if_false, true_or,
    List.filter_nil, List.length_nil, rpsBits, List.foldl_nil, show (putUe 0).length = 1 by decide +kernel,
    show (putUe 1).length = 3 by decide +kernel]
  split <;> simp [show (putUe 0).length = 1 by decide +kernel] <;> omega

/-- CTUs without bits code to none. -/
theorem codeShare_nil : ∀ (rho share spent : Nat) (exh : Bool) (l : List CtuCode), (∀ b ∈ l, b = ⟨[], [], []⟩) →
    ∀ o ∈ codeShare rho share spent exh l, o.bits = []
  | _, _, _, _, [], _ => by simp [codeShare]
  | rho, share, spent, exh, b :: t, h => by
    have hb := h b (by simp)
    subst hb
    have ht : ∀ b ∈ t, b = ⟨[], [], []⟩ := fun b m => h b (by simp [m])
    have ih (x : Bool) := codeShare_nil rho share (spent + 0) x t ht
    simp only [codeShare, List.length_nil, List.take_nil]
    intro o ho
    split at ho
    · rcases List.mem_cons.1 ho with rfl | ho
      · rfl
      · exact ih _ o ho
    · have hc : o = ⟨[], true⟩ ∨ o ∈ codeShare rho share (spent + 0) true t := by split at ho <;> exact List.mem_cons.1 ho
      rcases hc with rfl | ho
      · rfl
      · exact ih _ o ho
theorem codeCtus_nil (t : Taken) (m h cap : Nat) (heads : List Nat) : ∀ o ∈ codeCtus t m h cap heads [], o.bits = [] := by
  intro o ho
  simp only [codeCtus, List.mem_map, List.mem_range] at ho
  obtain ⟨i, _, rfl⟩ := ho
  generalize hf : List.find? _ _ = f
  cases f with
  | none => rfl
  | some e =>
    have := List.mem_of_find?_eq_some hf
    simp only [List.mem_flatMap, List.mem_range] at this
    obtain ⟨j, _, he⟩ := this
    exact codeShare_nil _ _ _ _ _ (by simp) e.2 (List.of_mem_zip he).2

/-- A picture of one slice without CTU bits costs its headers, which its cap admits. -/
theorem coded_fits (fw : Nat) (x : VCtx) (t : Taken) (src : SrcPic) (m : Nat) (pose : List Byte) (step : Nat → Nat)
    (hs : splitOf t.p = 0) :
    (codePicture fw x t src m pose step ⟨[], [], []⟩).bytes.length =
        (auHead fw t [] pose).length + (sliceHead fw t x.refs 0 []).length ∧
      8 * (codePicture fw x t src m pose step ⟨[], [], []⟩).bytes.length ≤ (codePicture fw x t src m pose step ⟨[], [], []⟩).cap := by
  have sl : slicesOf t.p = [List.range (ctuCount t.p)] := by simp [slicesOf, hs]
  have hd : (List.range (ctuCount t.p)).headD 0 = 0 := by cases ctuCount t.p <;> simp [List.range_succ_eq_map]
  have hh : sliceHeads fw t x.refs = [sliceHead fw t x.refs 0 []] := by
    simp +decide only [sliceHeads, sl, hs, hd, List.map_cons, List.map_nil, if_false, List.replicate]
  have hu (outs : List CtuOut) (ho : ∀ o ∈ outs, o.bits = []) :
      (sliceUnits fw t x.refs outs).length = (sliceHead fw t x.refs 0 []).length := by
    have z : ((outs.drop 0).take (List.range (ctuCount t.p)).length).flatMap (·.bits) = [] :=
      List.flatMap_eq_nil_iff.2 (fun o m => ho o (List.mem_of_mem_drop (List.mem_of_mem_take m)))
    simp only [sliceUnits, sl, List.map_cons, List.map_nil, spans, List.zip_cons_cons, List.zip_nil_right, List.flatMap_cons,
      List.flatMap_nil, List.append_nil, hs, hd, z]
    simp [divCeil]
  have hb : (codePicture fw x t src m pose step ⟨[], [], []⟩).bytes.length =
      (auHead fw t [] pose).length + (sliceHead fw t x.refs 0 []).length := by
    simp only [codePicture, List.length_append]
    rw [hu _ (codeCtus_nil _ _ _ _ _)]
  have hc : headBits t.p (auHead fw t [] pose) (sliceHeads fw t x.refs) ≤ (codePicture fw x t src m pose step ⟨[], [], []⟩).cap := by
    simp only [codePicture, capOf]
    split <;> simp <;> omega
  refine ⟨hb, ?_⟩
  rw [hb]
  rw [headBits, hh] at hc
  simp [hs] at hc
  omega
/-- A P picture without options, references or CTU bits is short. -/
theorem coded_small (fw : Nat) (x : VCtx) (t : Taken) (src : SrcPic) (m : Nat) (pose : List Byte) (step : Nat → Nat)
    (hs : splitOf t.p = 0) (ho : at' t.p 79 1 = 0) (ht : t.type = 1) (hr : x.refs = []) :
    (codePicture fw x t src m pose step ⟨[], [], []⟩).bytes.length ≤ 64 := by
  have o (i : Nat) : optOn t.p i = false := by simp [optOn, ho]
  have a : (auHead fw t [] pose).length = 0 := by unfold auHead; simp [o, ht]
  have h := nal_length_le (nalHead (sliceNal fw t) (tidOf t)) (sliceBits fw t [] 0 [])
  have b := plainSlice_length fw t t.p hs (o 7) ht rfl
  rw [(coded_fits fw x t src m pose step hs).1, a, hr, sliceHead]
  simp only [nalHead_length] at h
  omega

end Sys2Proof.Tests
end

