-- ==== Sys2Proof/Tests/Slice0.lean ====
section
/-! SUPPORT. For each clause of a statement, a state and operands that meet all its hypotheses. -/
set_option Elab.async false
namespace Sys2Proof.Tests
open Sys2Proof Sys2Proof.Machine

theorem wit_EmptyQueueIdles_1 : ∃ (s : State), s.pending = [] :=
  ⟨alive, rfl⟩
theorem wit_StoppedDeviceIgnoresCommands_1 : ∃ (c : Instr) (s : State), s.live = false ∧ c ≠ .powerOnReset ∧ c ≠
    .supplyRemoval ∧ ((∀ b p, c = .resetRelease b p → s.tripped = true)) :=
  ⟨.frameDeadline 0, State.reset, ⟨by decide +kernel, by decide, by decide, fun _ _ h => by cases h⟩⟩
theorem wit_TripHoldsUntilSupplyRemoval_1 : ∃ (s : State) (t : State), s.stopped ∧ step s = .next t :=
  ⟨(alive.withThm { tripped := true }).withQueue [.dramDriftCheck 0], alive.withThm { tripped := true }, ⟨⟨rfl, rfl⟩, rfl⟩⟩
theorem wit_HeldInResetStaysReset_1 : ∃ (s : State) (t : State), s.heldInReset ∧ step s = .next t :=
  ⟨State.reset, State.reset, ⟨⟨rfl, rfl, rfl, rfl, rfl⟩, rfl⟩⟩
theorem wit_QueueStaysWellFormed_1 : ∃ (s : State) (t : State), s.queueOk = true ∧ step s = .next t :=
  ⟨alive.withQueue [.dramDriftCheck 0], alive, ⟨by decide +kernel, rfl⟩⟩
theorem wit_ControlSpaceWriteFollowsAccessCodes_1 : ∃ (s : State) (r : Req) (addr : Nat) (w : Where), s.live = true ∧
    s.locked = false ∧ regAt (addr % 2 ^ 28) = some w ∧ s.cut r.die w.die = false ∧ w.plain = true :=
  ⟨alive, .host, gpioA + GPIO_OUT, ⟨.gpio, 0, 0, GPIO_OUT⟩, by decide +kernel⟩
theorem wit_LockedFieldKeepsItsValue_1 : ∃ (s : State) (r : Req) (addr : Nat) (w : Where), s.live = true ∧ s.locked =
    true ∧ regAt (addr % 2 ^ 28) = some w ∧ s.cut r.die w.die = false ∧ (infoAt (addr % 2 ^ 28)).lk ≠ 0 ∧ w.plain = true
    :=
  ⟨running, .host, gpioA + AVS_CTRL, ⟨.gpio, 0, 0, AVS_CTRL⟩, by decide +kernel⟩
theorem wit_InvalidAccessIsAnAddressError_1 : ∃ (s : State) (r : Req) (addr : Nat), s.live = true ∧ regAt (addr % 2 ^
    28) = none ∧ dieOf (addr % 2 ^ 28) ≠ 0xF ∧ s.cut r.die (dieOf (addr % 2 ^ 28)) = false :=
  ⟨alive, .host, 0x3000000, by decide +kernel⟩
theorem wit_InvalidAccessIsAnAddressError_2 : ∃ (s : State) (r : Req) (addr : Nat), s.live = true ∧ regAt (addr % 2 ^
    28) = none ∧ dieOf (addr % 2 ^ 28) ≠ 0xF ∧ s.cut r.die (dieOf (addr % 2 ^ 28)) = false :=
  ⟨alive, .engine 5, 0x1000002, by decide +kernel⟩
theorem wit_ReadsClearAndWindowsAdvance_1 : ∃ (s : State) (r : Req) (addr : Nat) (w : Where), s.live = true ∧ regAt
    (addr % 2 ^ 28) = some w ∧ s.cut r.die w.die = false ∧ s.blkRead w = none :=
  ⟨alive.wr (irqA + IRQ_SENT) 9, .host, irqA + IRQ_SENT, ⟨.irq, 0, 0, IRQ_SENT⟩, by decide +kernel⟩
theorem wit_ReadsClearAndWindowsAdvance_2 : ∃ (s : State) (r : Req), s.live = true ∧ s.cut r.die 0 = false :=
  ⟨alive.setFld fabA FAB_SIDX_SID 1022, .host, by decide +kernel⟩
theorem wit_ReadsClearAndWindowsAdvance_3 : ∃ (s : State) (r : Req) (die : Fin 3), s.live = true ∧ s.cut r.die die =
    false :=
  ⟨alive.setFld (fltA 2) FLT_LOGIDX_INDEX 127, .board, 2, by decide +kernel⟩
theorem wit_ReadsClearAndWindowsAdvance_4 : ∃ (s : State) (r : Req), s.live = true ∧ s.cut r.die 0 = false ∧ isSource
    (s.fld irqA IRQ_RIDX_SOURCE) = true :=
  ⟨alive.setFld irqA IRQ_RIDX_SOURCE 512, .host, by decide +kernel⟩
theorem wit_ReadsClearAndWindowsAdvance_5 : ∃ (s : State) (r : Req), s.live = true ∧ s.cut r.die 0 = false :=
  ⟨alive.setFld fabA FAB_SIDX_SID 1022, .host, by decide +kernel⟩
theorem wit_MemoryRequestsReadAndWrite_1 : ∃ (s : State) (r : Req) (addr : Nat) (data : List Byte), s.live = true ∧
    regionOf addr = .dram ∧ addr + data.length ≤ s.usableBytes ∧ s.dramOk addr data.length = true ∧ s.cut r.die 0 = false
    ∧ s.dramIdle = true :=
  ⟨usable, .host, 0x3FFFFFFC, [1, 2, 3, 4], by decide +kernel⟩
theorem wit_MemoryRequestsReadAndWrite_2 : ∃ (s : State) (r : Req) (addr : Nat) (len : Nat), s.live = true ∧ regionOf
    addr = .dram ∧ addr + len ≤ s.usableBytes ∧ s.dramOk addr len = true ∧ s.cut r.die 0 = false ∧ s.dramIdle = true :=
  ⟨(usable.setMemBytes 0x100 [7, 8]), .engine 0, 0x100, 64, by decide +kernel⟩
theorem wit_MemoryRequestsReadAndWrite_3 : ∃ (s : State) (r : Req) (k : Nat) (addr : Nat), s.live = true ∧ regionOf
    addr = .cluster k ∧ s.cut r.die (1 + k / 8) = false :=
  ⟨alive, .host, 15, 0xE003C00000, by decide +kernel⟩
theorem wit_MemoryRequestsReadAndWrite_4 : ∃ (s : State) (r : Req) (k : Nat) (addr : Nat), s.live = true ∧ regionOf
    addr = .cluster k ∧ s.cut r.die (1 + k / 8) = false :=
  ⟨alive, .host, 15, 0xE003C00000, by decide +kernel⟩
theorem wit_MemoryRequestsReadAndWrite_5 : ∃ (s : State) (r : Req) (addr : Nat), s.live = true ∧ regionOf addr =
    .reserved ∧ s.cut r.die 0 = false :=
  ⟨alive, .host, 0x4000000000, by decide +kernel⟩
theorem wit_MemoryRequestsReadAndWrite_6 : ∃ (s : State) (r : Req) (addr : Nat), s.live = true ∧ regionOf addr =
    .reserved ∧ s.cut r.die 0 = false :=
  ⟨alive, .host, 0x7FFFFFFFFF, by decide +kernel⟩
theorem wit_MemoryRequestsReadAndWrite_7 : ∃ (s : State) (r : Req) (addr : Nat), s.live = true ∧ regionOf addr ≠
    .control ∧ s.cut r.die (memDie addr) = true :=
  ⟨(alive.setFld (brgA 0) BRG_STATUS_WORKING 0), .host, 0xE000000000, by decide +kernel⟩
theorem wit_MemoryRequestsReadAndWrite_8 : ∃ (s : State) (addr : Nat), s.live = true ∧ regionOf addr = .control ∧ addr
    % 4 = 0 :=
  ⟨alive, 0xF000000000, by decide +kernel⟩
theorem wit_MemoryRequestsReadAndWrite_9 : ∃ (s : State) (write : Bool) (addr : Nat) (len : Nat) (data : List Byte),
    s.live = true ∧ regionOf addr = .control ∧ dieOf (addr - 0xF000000000) = 0 ∧ (((if write then data.length else len) ≠
    4 ∨ addr % 4 ≠ 0)) :=
  ⟨alive, false, 0xF000000002, 4, [], by decide +kernel⟩
theorem wit_StreamPacketsCrossAtTheirConfiguredClass_1 : ∃ (s : State) (p : Pkt) (die : Fin 2), s.live = true ∧
    p.h.sid < 1023 ∧ (s.tget .fabClass 0 p.h.sid).toNat % 4 ≠ 0 ∧ p.h.cls = (s.tget .fabClass 0 p.h.sid).toNat % 4 ∧ s.fld
    (brgA die) BRG_STATUS_WORKING ≠ 0 :=
  ⟨alive, ⟨⟨1022, 1, 0, 0, 0, 0, 0⟩, .late⟩, 1, by decide +kernel⟩
theorem wit_StreamPacketsCrossAtTheirConfiguredClass_2 : ∃ (s : State) (p : Pkt) (die : Fin 2), s.live = true ∧
    p.h.sid < 1023 ∧ (s.tget .fabClass 0 p.h.sid).toNat % 4 ≠ 0 ∧ p.h.cls ≠ (s.tget .fabClass 0 p.h.sid).toNat % 4 ∧ s.fld
    (brgA die) BRG_STATUS_WORKING ≠ 0 :=
  ⟨alive, ⟨⟨0, 3, 0, 0, 0, 0, 0⟩, .late⟩, 0, by decide +kernel⟩
theorem wit_StreamPacketsCrossAtTheirConfiguredClass_3 : ∃ (s : State) (p : Pkt) (die : Fin 2), s.live = true ∧ ((1023
    ≤ p.h.sid ∨ (p.h.cls = (s.tget .fabClass 0 p.h.sid).toNat % 4 ∧ (s.tget .fabClass 0 p.h.sid).toNat % 4 ≠ 0 ∧ s.fld
    (brgA die) BRG_STATUS_WORKING = 0))) :=
  ⟨alive, ⟨⟨1023, 3, 0, 0, 0, 0, 0⟩, .late⟩, 0, by decide +kernel⟩
theorem wit_BridgeReplaysCountAndRetire_1 : ∃ (s : State) (g : Fin 2) (b : Fin 8), s.live = true ∧ (s.fld (brgA g)
    BRG_STATUS_RETIRED).testBit b = false ∧ (s.replayTimes (8 * g + b)).length < 15 :=
  ⟨alive, 1, 7, by decide +kernel⟩
theorem wit_BridgeReplaysCountAndRetire_2 : ∃ (s : State) (g : Fin 2) (b : Fin 8), s.live = true ∧ (s.fld (brgA g)
    BRG_STATUS_RETIRED).testBit b = false ∧ 15 ≤ (s.replayTimes (8 * g + b)).length ∧ 6 < s.fld (brgA g)
    BRG_STATUS_WORKING :=
  ⟨alive.withFab { replays := [(3, [0, 0, 0, 0, 0, 0, 0, 0, 0, 0, 0, 0, 0, 0, 0])] }, 0, 3, by decide +kernel⟩
theorem wit_ClassZeroSlotWritesAreJudged_1 : ∃ (s : State) (r : Req) (n : Fin 4) (v : Word), s.live = true ∧ s.cut
    r.die 0 = false ∧ v.toNat.testBit 31 = true ∧ (((∃ k, k < 4 ∧ k ≠ n.val ∧ s.flag fabA (C0_STREAM_EN.nth 4 k) = true ∧
    s.fld fabA (C0_STREAM_HEAD.nth 4 k) = bits v.toNat 25 24) ∨ 8 < bits v.toNat 19 16)) :=
  ⟨alive, .host, 3, 0x80090000, by decide +kernel⟩
theorem wit_ClassZeroSlotWritesAreJudged_2 : ∃ (s : State) (r : Req) (n : Fin 4) (v : Word), s.live = true ∧ s.cut
    r.die 0 = false ∧ ((v.toNat.testBit 31 = true → bits v.toNat 19 16 ≤ 8 ∧ (∀ k, k < 4 → k ≠ n.val → s.flag fabA
    (C0_STREAM_EN.nth 4 k) = true → s.fld fabA (C0_STREAM_HEAD.nth 4 k) ≠ bits v.toNat 25 24))) :=
  ⟨alive, .host, 0, 0x81080005, by decide +kernel⟩
theorem wit_ClusterDoorbellMovesWR_1 : ∃ (s : State) (r : Req) (c : Fin 16) (q : Fin 4) (v : Word), s.live = true ∧
    s.cut r.die (1 + c / 8) = false ∧ (v.toNat % 65536 + 65536 - s.fld (engA c) (ENG_QPTR_RD.nth 4 q)) % 65536 ≤
    s.qEntries c q :=
  ⟨alive, .host, 15, 3, 1, by decide +kernel⟩
theorem wit_ClusterDoorbellMovesWR_2 : ∃ (s : State) (r : Req) (c : Fin 16) (q : Fin 4) (v : Word), s.live = true ∧
    s.cut r.die (1 + c / 8) = false ∧ s.qEntries c q < (v.toNat % 65536 + 65536 - s.fld (engA c) (ENG_QPTR_RD.nth 4 q)) %
    65536 :=
  ⟨alive, .host, 7, 0, 0xFFFF, by decide +kernel⟩
theorem wit_FaultRegistersAndDieFaults_1 : ∃ (s : State) (r : Req) (die : Fin 3), s.live = true ∧ s.cut r.die die =
    false :=
  ⟨alive, .host, 2, by decide +kernel⟩
theorem wit_FaultRegistersAndDieFaults_2 : ∃ (s : State) (r : Req) (die : Fin 3), s.live = true ∧ s.cut r.die die =
    false :=
  ⟨alive, .engine 127, 2, by decide +kernel⟩
theorem wit_FaultRegistersAndDieFaults_3 : ∃ (s : State), s.live = true :=
  ⟨alive, by decide +kernel⟩
theorem wit_FaultRegistersAndDieFaults_4 : ∃ (s : State), s.live = true :=
  ⟨alive, by decide +kernel⟩
theorem wit_FaultRegistersAndDieFaults_5 : ∃ (s : State), s.live = true :=
  ⟨alive, by decide +kernel⟩
theorem wit_InjectionsAndControlPackets_1 : ∃ (s : State) (r : Req) (k : Fin 4) (v : Word), s.live = true ∧ s.cut
    r.die 0 = false ∧ v.toNat.testBit 31 = true ∧ s.fld fabA (FAB_INJ_CTL_GO.nth 0x10 k) = 0 ∧ (s.camSource (bits v.toNat
    9 0)).isSome = true :=
  ⟨(alive.setFlag (campA 11) CAMP_CTRL_EN true).setFld (campA 11) CAMP_STREAM_STREAM_ID 0x22, .host, 3, 0x80000022, by decide +kernel⟩
theorem wit_InjectionsAndControlPackets_2 : ∃ (s : State) (r : Req) (k : Fin 4) (v : Word), s.live = true ∧ s.cut
    r.die 0 = false ∧ s.fld fabA (FAB_INJ_CTL_GO.nth 0x10 k) = 1 ∧ (¬ (bits v.toNat 19 16 = s.fld fabA
    (FAB_INJ_CTL_COUNT.nth 0x10 k) ∧ bits v.toNat 9 0 = s.fld fabA (FAB_INJ_CTL_STREAM_ID.nth 0x10 k))) :=
  ⟨(alive.setFld fabA (FAB_INJ_CTL_GO.nth 0x10 0) 1).setFld fabA (FAB_INJ_CTL_COUNT.nth 0x10 0) 3, .host, 0, 0x80040022, by decide +kernel⟩
theorem wit_InjectionsAndControlPackets_3 : ∃ (s : State) (k : Fin 4) (r : Req) (p : Nat), s.live = true ∧
    s.fab.inject = [(k.val, r)] ∧ s.camSource (s.fld fabA (FAB_INJ_CTL_STREAM_ID.nth 0x10 k)) = some p ∧ (s.camp
    p).lineOpen = false :=
  ⟨((alive.setFlag (campA 11) CAMP_CTRL_EN true).setFld (campA 11) CAMP_STREAM_STREAM_ID 0x3FF).withFab { inject := [(2, .host)] }, 2, .host, 11, by decide +kernel⟩
theorem wit_InjectionsAndControlPackets_4 : ∃ (s : State) (k : Fin 4) (r : Req), s.live = true ∧ s.fab.inject =
    [(k.val, r)] ∧ s.camSource (s.fld fabA (FAB_INJ_CTL_STREAM_ID.nth 0x10 k)) = none ∧ s.headSource (s.fld fabA
    (FAB_INJ_CTL_STREAM_ID.nth 0x10 k)) = none :=
  ⟨alive.withFab { inject := [(1, .board)] }, 1, .board, by decide +kernel⟩
theorem wit_InjectionsAndControlPackets_5 : ∃ (s : State) (p : Fin 8) (h : Hdr) (by' : Option Req) (rest : List Pkt),
    s.live = true ∧ (s.pipe p).inQ = ⟨h, .control [] by'⟩ :: rest ∧ rest = [] ∧ (s.partner p h.sid).isNone = true :=
  ⟨alive.setPipe 7 { inQ := [⟨⟨1, 1, 0, 0, 0, 0, 0⟩, .control [] none⟩] }, 7, ⟨1, 1, 0, 0, 0, 0, 0⟩, none, [], by decide +kernel⟩
theorem wit_InjectionsAndControlPackets_6 : ∃ (s : State) (p : Fin 8) (h : Hdr) (e : CtlEntry) (by' : Option Req) (w :
    Where), s.live = true ∧ (s.pipe p).inQ = [⟨h, .control [e] by'⟩] ∧ (s.partner p h.sid).isNone = true ∧ e.op = 1 ∧
    regAt e.addr = some w ∧ ((w.blk = .pipe ∨ w.blk = .mfe)) ∧ w.unit 4 = p ∧ w.plain = true ∧ (infoAt e.addr).lk = 0 :=
  ⟨alive.setPipe 7 { inQ := [⟨⟨1, 1, 0, 0, 0, 0, 0⟩, .control [⟨1, pipeA 7 + COL_LDADDR, 5, 0⟩] none⟩] }, 7, ⟨1, 1, 0, 0, 0, 0, 0⟩, ⟨1, pipeA 7 + COL_LDADDR, 5, 0⟩, none, ⟨.pipe, 2, 3, COL_LDADDR⟩, by decide +kernel⟩
theorem wit_InjectionsAndControlPackets_7 : ∃ (s : State) (p : Fin 8) (h : Hdr) (e : CtlEntry) (by' : Option Req) (w :
    Where), s.live = true ∧ (s.pipe p).inQ = [⟨h, .control [e] by'⟩] ∧ (s.partner p h.sid).isNone = true ∧ e.op = 2 ∧
    regAt e.addr = some w ∧ ((w.blk = .pipe ∨ w.blk = .mfe)) ∧ w.unit 4 = p ∧ w.plain = true ∧ (infoAt e.addr).lk = 0 ∧
    (infoAt e.addr).w1c = 0 ∧ (infoAt e.addr).w1s = 0 :=
  ⟨alive.setPipe 7 { inQ := [⟨⟨1, 1, 0, 0, 0, 0, 0⟩, .control [⟨2, pipeA 7 + COL_LDADDR, 5, 4⟩] (some .host)⟩] }, 7, ⟨1, 1, 0, 0, 0, 0, 0⟩, ⟨2, pipeA 7 + COL_LDADDR, 5, 4⟩, some .host, ⟨.pipe, 2, 3, COL_LDADDR⟩, by decide +kernel⟩
theorem wit_InjectionsAndControlPackets_8 : ∃ (s : State) (k : Fin 4) (h : Hdr) (e : CtlEntry) (by' : Option Req) (w :
    Where), s.live = true ∧ (s.head k).inQ = [⟨h, .control [e] by'⟩] ∧ e.op = 1 ∧ regAt e.addr = some w ∧ w.blk = .head ∧
    w.inst = k ∧ w.plain = true ∧ (infoAt e.addr).lk = 0 :=
  ⟨alive.setHead 3 { inQ := [⟨⟨1, 1, 0, 0, 0, 0, 0⟩, .control [⟨1, headA 3 + HEAD_SID, 5, 0⟩] none⟩] }, 3, ⟨1, 1, 0, 0, 0, 0, 0⟩, ⟨1, headA 3 + HEAD_SID, 5, 0⟩, none, ⟨.head, 0, 3, HEAD_SID⟩, by decide +kernel⟩
theorem wit_InjectionsAndControlPackets_9 : ∃ (s : State) (k : Fin 4) (h : Hdr) (e : CtlEntry) (by' : Option Req)
    (rest : List CtlEntry), s.live = true ∧ (s.head k).inQ = [⟨h, .control (e :: rest) by'⟩] ∧ (e :: rest).all (fun x =>
    !entryFor (atHead k) x) = true :=
  ⟨alive.setHead 3 { inQ := [⟨⟨1, 1, 0, 0, 0, 0, 0⟩, .control [⟨1, headA 2 + HEAD_SID, 5, 0⟩] none⟩] }, 3, ⟨1, 1, 0, 0, 0, 0, 0⟩, ⟨1, headA 2 + HEAD_SID, 5, 0⟩, none, [], by decide +kernel⟩
theorem wit_RoutesAndLines_1 : ∃ (s : State) (r : Req), s.live = true ∧ s.cut r.die 0 = false ∧ isSource (s.fld irqA
    IRQ_RIDX_SOURCE) = true ∧ s.line (s.fld irqA IRQ_RIDX_SOURCE) = false :=
  ⟨alive.setFld irqA IRQ_RIDX_SOURCE 512, .host, by decide +kernel⟩
theorem wit_RoutesAndLines_2 : ∃ (s : State) (k : Nat), s.live = true ∧ isSource k = true ∧ s.line k = true ∧ k ∉
    s.linesUp ∧ s.pcieUp = true ∧ routeBit (s.route k) IRQ_RDATA_EN = true ∧ routeBit (s.route k) IRQ_RDATA_MSIX = true :=
  ⟨(((alive.setFlag (fltA 0) FLT_EVT_EVT true).setFlag pcieA PCIE_CTRL_EN true).setFlag pcieA PCIE_STATUS_DL_UP true).tset .route 0 512 0x800080FF, 512, by decide +kernel⟩
theorem wit_RoutesAndLines_3 : ∃ (s : State) (k : Nat), s.live = true ∧ isSource k = true ∧ s.line k = true ∧ k ∉
    s.linesUp ∧ routeBit (s.route k) IRQ_RDATA_EN = false :=
  ⟨alive.setFlag (fltA 0) FLT_EVT_EVT true, 512, by decide +kernel⟩
theorem wit_TwoWireTargetWindow_1 : ∃ (s : State), s.live = true ∧ s.flag twtA TWT_CTRL_EN = true :=
  ⟨alive, by decide +kernel⟩
theorem wit_TwoWireTargetWindow_2 : ∃ (s : State), s.live = true ∧ s.flag twtA TWT_CTRL_EN = true ∧ s.twt.pointer < 4
    :=
  ⟨alive.setTwt { pointer := 3 }, by decide +kernel⟩
theorem wit_TwoWireTargetWindow_3 : ∃ (s : State), s.live = true ∧ s.flag twtA TWT_CTRL_EN = true ∧ s.twt.pointer = 7
    ∧ s.twt.job = none :=
  ⟨alive.setTwt { pointer := 7, partialData := 0x123456 }, by decide +kernel⟩
theorem wit_TwoWireTargetWindow_4 : ∃ (s : State), s.live = true ∧ s.flag twtA TWT_CTRL_EN = true ∧ s.twt.pointer = 4
    ∧ s.twt.job = none :=
  ⟨alive.setTwt { pointer := 4 }, by decide +kernel⟩
theorem wit_TwoWireTargetWindow_5 : ∃ (s : State), s.live = true ∧ s.flag twtA TWT_CTRL_EN = true ∧ s.twt.pointer < 4
    :=
  ⟨alive.setTwt { pointer := 3, winAddr := 0x80000000 }, by decide +kernel⟩
theorem wit_TwoWireTargetWindow_6 : ∃ (s : State), s.live = true ∧ s.twt.job = some .read :=
  ⟨alive.setTwt { pointer := 4, job := some .read }, by decide +kernel⟩
theorem wit_TwoWireTargetWindow_7 : ∃ (s : State) (v : Word), s.live = true ∧ s.twt.job = some (.write v) ∧ s.cut
    Req.board.die 0 = false ∧ s.twt.winAddr = wd (gpioA + GPIO_OUT) :=
  ⟨alive.setTwt { job := some (.write 0xFFFFFFFF), winAddr := wd (gpioA + GPIO_OUT), inc := true }, 0xFFFFFFFF, by decide +kernel⟩
theorem wit_TwoWireTargetWindow_8 : ∃ (s : State), s.live = true ∧ s.flag twtA TWT_CTRL_EN = true :=
  ⟨alive, by decide +kernel⟩
theorem wit_ResetsAndTheirRelease_3 : ∃ (s : State) (b : Fin 8), s.adv.porst = false ∧ s.tripped = false ∧ b.val ≠ 3 ∧
    b.val < 5 :=
  ⟨State.reset, 4, by decide +kernel⟩
theorem wit_ResetsAndTheirRelease_4 : ∃ (s : State), s.tripped = true :=
  ⟨State.reset.withThm { tripped := true }, by decide +kernel⟩
theorem wit_ResetsAndTheirRelease_5 : ∃ (s : State) (r : Req) (v : Word), s.live = true ∧ s.cut r.die 0 = false ∧ bits
    v.toNat 31 16 = 0x5254 ∧ v.toNat.testBit 0 = true :=
  ⟨running, .board, 0x52540001, by decide +kernel⟩
theorem wit_ResetsAndTheirRelease_6 : ∃ (s : State) (b : Fin 8), s.live = true ∧ s.adv.resetDue = true ∧ b.val ≠ 3 ∧
    b.val < 5 :=
  ⟨running.withAdv { porst := true, resetDue := true }, 2, by decide +kernel⟩
theorem wit_AdventReadsFusesAndSlots_1 : ∃ (s : State), s.live = true ∧ s.phase = 0 ∧ s.maint = false ∧ s.adv.fuseErr
    = false ∧ s.adv.fused = false :=
  ⟨alive, by decide +kernel⟩
theorem wit_AdventReadsFusesAndSlots_2 : ∃ (s : State), s.live = true ∧ s.phase = 0 ∧ s.adv.fuseErr = false ∧
    s.adv.fused = false :=
  ⟨alive, by decide +kernel⟩
theorem wit_AdventReadsFusesAndSlots_3 : ∃ (s : State), s.live = true ∧ s.phase = 1 ∧ s.maint = false ∧ s.adv.found =
    false ∧ s.bootmode = 0 :=
  ⟨phaseOf 1 {}, by decide +kernel⟩
theorem wit_AdventReadsFusesAndSlots_4 : ∃ (s : State) (img : List Byte), s.live = true ∧ s.phase = 1 ∧ s.maint =
    false ∧ s.adv.found = true ∧ s.bootmode ≤ 2 ∧ (s.judgeSlot s.adv.checking img).valid = true :=
  ⟨phaseOf 1 { found := true, checking := true, flashCap := 160 }, endImage, by decide +kernel⟩
theorem wit_AdventReadsFusesAndSlots_5 : ∃ (s : State) (img : List Byte), s.live = true ∧ s.phase = 1 ∧ s.maint =
    false ∧ s.adv.found = true ∧ s.bootmode = 0 ∧ s.adv.second = false ∧ (s.judgeSlot s.adv.checking img).valid = false :=
  ⟨phaseOf 1 { found := true, checking := true, flashCap := 159 }, endImage, by decide +kernel⟩
theorem wit_AdventReadsFusesAndSlots_6 : ∃ (s : State) (r : Req), s.live = true ∧ s.cut r.die 0 = false ∧ s.hostLoad =
    true ∧ s.adv.hostRead = false :=
  ⟨(phaseOf 1 {}).setFld topA TOP_STRAP_BOOTMODE 4, .host, by decide +kernel⟩
theorem wit_AdventReadsFusesAndSlots_7 : ∃ (s : State) (a : Nat) (img : List Byte), s.live = true ∧ s.hostLoad = true
    ∧ s.adv.hostRead = true ∧ s.adv.slotA.ok = false ∧ s.adv.slotB.ok = false ∧ a = (s.rd (advA + ADV_HOSTADDR_LO)).toNat
    / 16 * 16 + (s.rd (advA + ADV_HOSTADDR_HI)).toNat * 2 ^ 32 ∧ img = s.hostBytes a (s.fld advA ADV_HOSTLEN_LENGTH) ∧
    (judgeImage s.adv.fuses s.adv.flashCap [] img).valid = true :=
  ⟨(((((phaseOf 1 { hostRead := true }).setFld topA TOP_STRAP_BOOTMODE 4).setFld advA ADV_HOSTLEN_LENGTH 80).wr (advA + ADV_HOSTADDR_LO) 0x20).wr (advA + ADV_HOSTADDR_HI) 1).setHostBytes 0x100000020 endImage, 0x100000020, endImage, by decide +kernel⟩
theorem wit_AdventReadsFusesAndSlots_8 : ∃ (s : State), s.live = true ∧ s.hostLoad = true ∧ s.adv.hostRead = true :=
  ⟨(phaseOf 1 { hostRead := true }).setFld topA TOP_STRAP_BOOTMODE 4, by decide +kernel⟩
theorem wit_RegisterRecordsRunInTheirPass_1 : ∃ (s : State) (late : Bool) (target : Nat) (w : Where), s.live = true ∧
    s.walking = true ∧ s.adv.skip = 0 ∧ s.phase = (if late then 4 else 2) ∧ regAt target = some w ∧ s.cut 0 w.die = false
    ∧ w.plain = true :=
  ⟨phaseOf 4 {}, true, gpioA + GPIO_OUT, ⟨.gpio, 0, 0, GPIO_OUT⟩, by decide +kernel⟩
theorem wit_RegisterRecordsRunInTheirPass_2 : ∃ (s : State) (late : Bool) (target : Nat) (m : Word) (w : Where),
    s.live = true ∧ s.walking = true ∧ s.adv.skip = 0 ∧ s.phase = (if late then 4 else 2) ∧ regAt target = some w ∧ s.cut
    0 w.die = false ∧ m ≠ 0 ∧ (infoAt target).w1c = 0 ∧ (infoAt target).w1s = 0 ∧ w.plain = true :=
  ⟨phaseOf 2 {}, false, gpioA + GPIO_OUT, 5, ⟨.gpio, 0, 0, GPIO_OUT⟩, by decide +kernel⟩
theorem wit_RegisterRecordsRunInTheirPass_3 : ∃ (s : State) (late : Bool) (target : Nat) (v : Word) (m : Word) (w :
    Where), s.live = true ∧ s.walking = true ∧ s.adv.skip = 0 ∧ s.phase = (if late then 4 else 2) ∧ regAt target = some w
    ∧ s.cut 0 w.die = false ∧ s.blkRead w = none ∧ (infoAt target).rc = 0 ∧ (s.rd target &&& ~~~ (infoAt target).wo) &&& m
    = v &&& m :=
  ⟨phaseOf 2 {}, false, gpioA + GPIO_OUT, 1, 0xFFFFFFFE, ⟨.gpio, 0, 0, GPIO_OUT⟩, by decide +kernel⟩
theorem wit_RegisterRecordsRunInTheirPass_4 : ∃ (s : State) (late : Bool) (target : Nat) (us : Nat) (v : Word) (m :
    Word) (w : Where), s.live = true ∧ s.walking = true ∧ s.adv.skip = 0 ∧ s.phase = (if late then 4 else 2) ∧ regAt
    target = some w ∧ s.cut 0 w.die = false ∧ s.blkRead w = none ∧ (infoAt target).rc = 0 ∧ (s.rd target &&& ~~~ (infoAt
    target).wo) &&& m ≠ v &&& m ∧ us ≠ 0 :=
  ⟨phaseOf 2 {}, false, gpioA + GPIO_OUT, 0xFFFFFFFF, 1, 1, ⟨.gpio, 0, 0, GPIO_OUT⟩, by decide +kernel⟩
theorem wit_RegisterRecordsRunInTheirPass_5 : ∃ (s : State) (p : PollRun) (w : Where), s.live = true ∧ s.adv.poll =
    some p ∧ s.tick ≤ p.started + usTicks p.timeoutUs ∧ regAt p.target = some w ∧ s.cut 0 w.die = false ∧ s.blkRead w =
    none ∧ (infoAt p.target).rc = 0 :=
  ⟨phaseOf 2 { poll := some ⟨gpioA + GPIO_OUT, 1, 1, 0, 0⟩ }, ⟨gpioA + GPIO_OUT, 1, 1, 0, 0⟩, ⟨.gpio, 0, 0, GPIO_OUT⟩, by decide +kernel⟩
theorem wit_RegisterRecordsRunInTheirPass_6 : ∃ (s : State) (p : PollRun), s.live = true ∧ s.adv.poll = some p :=
  ⟨(phaseOf 2 { poll := some ⟨0x3000000, 1, 1, 0, 0⟩ }).setFld advA ADV_STATUS_REC_ERRS 0xFFFF, ⟨0x3000000, 1, 1, 0, 0⟩, by decide +kernel⟩
theorem wit_RegisterRecordsRunInTheirPass_7 : ∃ (s : State) (sel : Nat) (v : Nat), s.live = true ∧ s.walking = true ∧
    s.adv.skip = 0 ∧ s.selector sel = some v :=
  ⟨phaseOf 4 {}, 6, 0, by decide +kernel⟩
theorem wit_RegisterRecordsRunInTheirPass_8 : ∃ (s : State), s.live = true ∧ s.walking = true ∧ s.adv.skip = 0 ∧
    s.phase = 2 :=
  ⟨phaseOf 2 {}, by decide +kernel⟩
theorem wit_RegisterRecordsRunInTheirPass_9 : ∃ (s : State), s.live = true ∧ s.walking = true ∧ s.phase = 4 :=
  ⟨phaseOf 4 { skip := 3 }, by decide +kernel⟩
theorem wit_RegisterRecordsRunInTheirPass_10 : ∃ (s : State), s.live = true ∧ s.walking = true ∧ s.phase = 2 :=
  ⟨phaseOf 2 { skip := 3 }, by decide +kernel⟩
theorem wit_LoadRecordsFillMemories_1 : ∃ (s : State) (target : Nat) (k : Nat) (data : List Byte) (rest : List Nat),
    s.live = true ∧ s.walking = true ∧ s.phase = 4 ∧ s.adv.crcs = crc32c data :: rest ∧ s.adv.skip = 0 ∧ regionOf target =
    .cluster k :=
  ⟨phaseOf 4 { crcs := [crc32c [1, 2, 3]] }, 0xE000000FFF, 0, [1, 2, 3], [], by decide +kernel⟩
theorem wit_LoadRecordsFillMemories_2 : ∃ (s : State) (h : Fin 4) (data : List Byte) (rest : List Nat), s.live = true
    ∧ s.walking = true ∧ s.phase = 4 ∧ s.adv.crcs = crc32c data :: rest ∧ s.adv.skip = 0 ∧ data.length = 256 ∧ s.headRuns
    h = false :=
  ⟨phaseOf 4 { crcs := [crc32c (List.replicate 256 7)] }, 3, List.replicate 256 7, [], by refine ⟨?_, ?_, ?_, rfl, ?_, ?_, ?_⟩ <;> decide +kernel⟩
theorem wit_LoadRecordsFillMemories_3 : ∃ (s : State) (p : List Byte) (rest : List Nat), s.live = true ∧ s.walking =
    true ∧ s.phase = 4 ∧ s.adv.crcs = crc32c p :: rest ∧ s.adv.skip = 0 ∧ svfwOk p = true :=
  ⟨phaseOf 4 { crcs := [crc32c stewardFw] }, stewardFw, [], by decide +kernel⟩
theorem wit_LoadRecordsFillMemories_4 : ∃ (s : State) (p : List Byte) (rest : List Nat), s.live = true ∧ s.walking =
    true ∧ s.phase = 4 ∧ s.adv.crcs = crc32c p :: rest ∧ s.adv.skip = 0 ∧ wrfwOk p = true :=
  ⟨phaseOf 4 { crcs := [crc32c engineFw] }, engineFw, [], by decide +kernel⟩
theorem wit_LoadRecordsFillMemories_5 : ∃ (s : State) (p : List Byte) (rest : List Nat), s.live = true ∧ s.walking =
    true ∧ s.phase = 4 ∧ s.adv.crcs = crc32c p :: rest ∧ s.adv.skip = 0 ∧ vcfwOk p = true :=
  ⟨phaseOf 4 { crcs := [crc32c codecFw] }, codecFw, [], by decide +kernel⟩
theorem wit_LoadRecordsFillMemories_6 : ∃ (s : State) (off : Nat) (size : Nat), s.live = true ∧ s.phase = 1 ∧ s.maint
    = false ∧ s.adv.slotA.ok = false ∧ s.adv.slotB.ok = false ∧ partOk s.adv.flashCap off size [] = true :=
  ⟨phaseOf 1 { flashCap := 0x400000 }, 0, 0x400000, by decide +kernel⟩
theorem wit_LoadRecordsFillMemories_7 : ∃ (s : State), s.live = true ∧ s.phase = 1 ∧ s.maint = false :=
  ⟨phaseOf 1 {}, by decide +kernel⟩
theorem wit_TrainingReplayAndHomecoming_1 : ∃ (s : State) (foms : List Nat) (orgs : List (List RankOrg)), s.live =
    true ∧ s.phase = 3 ∧ s.maint = false ∧ s.dramCfgBad = false ∧ ((∀ n : Fin 16, s.orgOk ((orgs[n.val]?).getD []) = true
    ∧ s.fld (dchA n) DCH_FOM_FOM_PASS ≤ min 255 ((foms[n.val]?).getD 0))) :=
  ⟨phaseOf 3 {}, List.replicate 16 255, List.replicate 16 [⟨true, 16, 8⟩], by decide +kernel⟩
theorem wit_TrainingReplayAndHomecoming_2 : ∃ (s : State) (failed : BitVec 16) (foms : List Nat) (orgs : List (List
    RankOrg)) (n : Fin 16), s.live = true ∧ s.phase = 3 ∧ s.maint = false ∧ s.dramCfgBad = false ∧ ((∀ k : Fin 16,
    failed.getLsbD k = decide (k = n))) ∧ ((∀ k : Fin 16, s.orgOk ((orgs[k.val]?).getD []) = true ∧ s.fld (dchA k)
    DCH_FOM_FOM_PASS ≤ min 255 ((foms[k.val]?).getD 0))) :=
  ⟨phaseOf 3 {}, 0x80, List.replicate 16 255, List.replicate 16 [⟨true, 16, 8⟩], 7, by decide +kernel⟩
theorem wit_TrainingReplayAndHomecoming_3 : ∃ (s : State), s.live = true ∧ s.phase = 4 ∧ s.walking = true :=
  ⟨(phaseOf 4 {}).setCore (.steward 3) { loaded := true, entry := 8 }, by decide +kernel⟩
theorem wit_TrainingReplayAndHomecoming_4 : ∃ (s : State), s.live = true ∧ s.phase = 5 ∧ s.maint = false ∧
    s.adv.partition = none ∧ s.due = [] ∧ 1 < s.fld advA ADV_SYSCFG_COUNT :=
  ⟨(phaseOf 5 {}).setFld advA ADV_SYSCFG_COUNT 2, by decide +kernel⟩
theorem wit_TrainingReplayAndHomecoming_5 : ∃ (s : State) (p : Nat × Nat × Nat) (old : Nat), s.live = true ∧ s.phase =
    5 ∧ s.maint = false ∧ s.adv.partition = some p ∧ s.alm.place = (p.1, p.2.1) ∧ s.alm.epoch = some old ∧ old ≠ p.2.2 ∧
    s.alm.guard = false ∧ s.alm.incomplete = false ∧ s.due = [] ∧ 1 < s.fld advA ADV_SYSCFG_COUNT :=
  ⟨((phaseOf 5 { partition := some (0, 0x400000, 9) }).setFld advA ADV_SYSCFG_COUNT 2).withAlm { place := (0, 0x400000), epoch := some 8, flash := { al := [⟨0, 1, 1⟩] } }, (0, 0x400000, 9), 8, by decide +kernel⟩
theorem wit_TrainingReplayAndHomecoming_6 : ∃ (s : State) (p : Nat × Nat × Nat) (v : AlVal) (w : Where), s.live = true
    ∧ s.phase = 5 ∧ s.maint = false ∧ s.adv.partition = some p ∧ s.alm.place = (p.1, p.2.1) ∧ s.alm.epoch = some p.2.2 ∧
    s.alm.flash.al = [v] ∧ s.alm.guard = false ∧ s.alm.incomplete = false ∧ s.due = [] ∧ 1 < s.fld advA ADV_SYSCFG_COUNT ∧
    v.key % 2 ^ 32 = 0 ∧ regAt (v.key / 2 ^ 32) = some w ∧ w.plain = true ∧ v.key / 2 ^ 32 ≠ advA + ADV_STATUS ∧ (infoAt
    (v.key / 2 ^ 32)).lk = 0 ∧ (infoAt (v.key / 2 ^ 32)).w1c = 0 ∧ (infoAt (v.key / 2 ^ 32)).w1s = 0 ∧ (v.mask &&& ~~~
    (infoAt (v.key / 2 ^ 32)).rw) = 0 :=
  ⟨((phaseOf 5 { partition := some (0, 0x400000, 9) }).setFld advA ADV_SYSCFG_COUNT 2).withAlm { place := (0, 0x400000), epoch := some 9, flash := { al := [⟨(gpioA + GPIO_OUT) * 2 ^ 32, 3, 5⟩] } }, (0, 0x400000, 9), ⟨(gpioA + GPIO_OUT) * 2 ^ 32, 3, 5⟩, ⟨.gpio, 0, 0, GPIO_OUT⟩, by decide +kernel⟩
theorem wit_TrainingReplayAndHomecoming_7 : ∃ (s : State), s.live = true ∧ s.inCensus = true ∧ s.allHere = false ∧
    s.adv.better = none ∧ s.prcUp true = true :=
  ⟨(phaseOf 6 {}).setFld advA ADV_SYSCFG_COUNT 2 |>.setFlag advA (prcF true PRC_STATUS_L_UP) true, by decide +kernel⟩
theorem wit_TrainingReplayAndHomecoming_8 : ∃ (s : State) (right : Bool) (k : Token) (o : TokEntry), s.live = true ∧
    s.prcOn right = true ∧ (s.proc right).aligned = true ∧ prcGood k.packet = true ∧ tokenOf k.packet = some k ∧
    s.inCensus = true ∧ k.pass = 1 ∧ k.entries = [o] ∧ o.same s.ownEntry = false ∧ o.rank ≤ s.ownEntry.rank :=
  ⟨((((phaseOf 6 {}).setFld advA ADV_SYSCFG_COUNT 2).setFlag advA PRC_CTRL_EN true).setFlag (quadA 15) (laneF LANE_STAT_BLOCK_LOCK 0) true |>.setFlag (quadA 15) (laneF LANE_STAT_BLOCK_LOCK 1) true |>.setFld topA TOP_STRAP_POSN 1 |>.setProc false { aligned := true }), false, ⟨1, 0, [⟨0, 0xFF, false, 5, 0, 0, 0, 0⟩]⟩, ⟨0, 0xFF, false, 5, 0, 0, 0, 0⟩, by decide +kernel⟩
theorem wit_TrainingReplayAndHomecoming_9 : ∃ (s : State), s.live = true ∧ s.inCensus = true ∧ s.phase = 6 ∧ s.flag
    advA ADV_SYSID_VALID = true ∧ ((∀ h : Fin 4, s.flag (headA h) HEAD_CTRL_EN = false)) :=
  ⟨((phaseOf 6 {}).setFld advA ADV_SYSCFG_COUNT 16).setFlag advA ADV_SYSID_VALID true, by decide +kernel⟩
theorem wit_AlmanacCommitsAndPowerFailure_1 : ∃ (s : State), s.live = true ∧ s.flag almA ALM_STATUS_ENABLED = true ∧
    s.alm.shut = false ∧ s.alm.writing = none :=
  ⟨(alive.setFlag almA ALM_STATUS_ENABLED true).withAlm { pendAl := [⟨1, 1, 1⟩] }, by decide +kernel⟩
theorem wit_AlmanacCommitsAndPowerFailure_2 : ∃ (s : State), s.live = true ∧ s.flag almA ALM_STATUS_ENABLED = true ∧
    s.alm.shut = false ∧ s.alm.writing = none :=
  ⟨(alive.setFlag almA ALM_STATUS_ENABLED true).withAlm { pendLog := [⟨1, 1, 1, 1⟩] }, by decide +kernel⟩
theorem wit_AlmanacCommitsAndPowerFailure_3 : ∃ (s : State) (g : Journal), s.live = true ∧ s.alm.writing = some g ∧
    (s.alm.asked = true ∨ s.flag almA ALM_CTRL_COMMIT = false) :=
  ⟨(alive.setFlag almA ALM_CTRL_COMMIT true).withAlm { writing := some { al := [⟨1, 1, 1⟩] }, asked := true, discard := true }, { al := [⟨1, 1, 1⟩] }, by decide +kernel⟩
theorem wit_AlmanacCommitsAndPowerFailure_4 : ∃ (s : State), s.live = true ∧ s.maint = true :=
  ⟨running.setFlag advA ADV_STATUS_MAINT true, by decide +kernel⟩
theorem wit_AlmanacCommitsAndPowerFailure_5 : ∃ (s : State), s.live = true ∧ s.maint = false :=
  ⟨running, by decide +kernel⟩
theorem wit_AlmanacCommitsAndPowerFailure_6 : ∃ (s : State), s.live = true ∧ s.alm.pfail = false ∧ s.alm.writing =
    none ∧ s.alm.shut = true :=
  ⟨alive.withAlm { shut := true, pendLog := [⟨1, 1, 1, 1⟩] }, by decide +kernel⟩
theorem wit_AlmanacCommitsAndPowerFailure_7 : ∃ (s : State), s.live = true ∧ s.alm.pfail = false ∧ s.alm.writing =
    none ∧ s.alm.shut = false ∧ s.flag almA ALM_STATUS_ENABLED = true ∧ s.alm.clean = false :=
  ⟨(alive.setFlag almA ALM_STATUS_ENABLED true).withAlm { pendAl := [⟨1, 1, 1⟩, ⟨2, 1, 1⟩] }, by decide +kernel⟩
theorem wit_AlmanacCommitsAndPowerFailure_8 : ∃ (s : State), s.live = true :=
  ⟨alive.withAlm { pfail := true }, by decide +kernel⟩
theorem wit_AlmanacCommitsAndPowerFailure_9 : ∃ (s : State), s.live = true ∧ s.flag almA ALM_STATUS_ENABLED = true :=
  ⟨((alive.setFlag almA ALM_STATUS_ENABLED true).setFld thmA THM_THOT2_T_HOT 600).withAlm { ledger := [0, 0, 0, 0, 0, 0, 0, 59] }, by decide +kernel⟩
theorem wit_CameraPortsStartStopAndFrame_1 : ∃ (s : State) (p : Fin 12) (v : Word), s.live = true ∧ s.flag (campA p)
    CAMP_CTRL_EN = false ∧ s.enRejected p (v ||| 1) = false :=
  ⟨alive.setFld (campA 8) CAMP_STREAM_STREAM_ID 0x22, 8, 0x00730C04, by decide +kernel⟩
theorem wit_CameraPortsStartStopAndFrame_2 : ∃ (s : State) (p : Fin 12) (v : Word), s.live = true ∧ s.flag (campA p)
    CAMP_CTRL_EN = false ∧ s.enRejected p (v ||| 1) = true :=
  ⟨alive, 11, 0, by decide +kernel⟩
theorem wit_CameraPortsStartStopAndFrame_3 : ∃ (s : State) (p : Fin 12), s.live = true ∧ s.flag (campA p) CAMP_CTRL_EN
    = true :=
  ⟨alive.setFlag (campA 11) CAMP_CTRL_EN true |>.setCamp 11 { inFrame := true, lineOpen := true }, 11, by decide +kernel⟩
theorem wit_CameraPortsStartStopAndFrame_4 : ∃ (s : State) (p : Fin 12), s.live = true ∧ s.campOn p = true ∧ (s.camp
    p).inFrame = false ∧ s.fab.inject = [] ∧ s.calRuns p = false :=
  ⟨(alive.setFlag (campA 11) CAMP_CTRL_EN true).setFld (campA 11) CAMP_FRAME_FRAME_NEXT 0xFFFFFFFF, 11, by decide +kernel⟩
theorem wit_CameraPortsStartStopAndFrame_5 : ∃ (s : State) (p : Fin 12), s.live = true ∧ s.campOn p = true ∧ (s.camp
    p).inFrame = true ∧ s.fab.inject = [] :=
  ⟨alive.setFlag (campA 11) CAMP_CTRL_EN true |>.setCamp 11 { inFrame := true, lines := 2159, long := true } |>.withAct [(campA 11 + CAMP_SIZE, 0x00100010)], 11, by decide +kernel⟩
theorem wit_CameraPortsStartStopAndFrame_6 : ∃ (s : State) (p : Fin 12), s.live = true ∧ s.campOn p = true ∧ (s.camp
    p).inFrame = true ∧ (s.camp p).lineOpen = false ∧ (s.camp p).lines < s.height p ∧ (s.camp p).overflow = false ∧
    (s.camp p).level < 16 :=
  ⟨alive.setFlag (campA 11) CAMP_CTRL_EN true |>.setCamp 11 { inFrame := true, lines := 3 } |>.withAct [(campA 11 + CAMP_SIZE, 0x00040010)], 11, by decide +kernel⟩
theorem wit_CameraPortsStartStopAndFrame_7 : ∃ (s : State) (p : Fin 12), s.live = true ∧ s.campOn p = true ∧ (s.camp
    p).lineOpen = true ∧ (s.camp p).lineDrop = false ∧ s.fab.inject = [] :=
  ⟨alive.setFlag (campA 11) CAMP_CTRL_EN true |>.setCamp 11 { inFrame := true, lineOpen := true, lines := 3, fifo := [⟨⟨⟨1, 1, 0, 2, 0, 0, 0⟩, .line []⟩, [0], false, false⟩] } |>.withAct [(campA 11 + CAMP_SIZE, 0x00040004)], 11, by decide +kernel⟩
theorem wit_CameraPortsStartStopAndFrame_8 : ∃ (s : State) (q : Fin 8) (p : Fin 12), s.live = true ∧ s.class0Ports q =
    [p.val] ∧ s.noBridge (pipeDie q) = false :=
  ⟨(alive.tset .fabClass 0 0x22 0).setFlag fabA C0_STREAM_EN true |>.setFld fabA C0_STREAM_STREAM_ID 0x22 |>.setFld (campA 11) CAMP_STREAM_STREAM_ID 0x22 |>.setCamp 11 { fifo := [⟨⟨⟨1, 1, 0, 2, 0, 0, 0⟩, .line [7]⟩, [5], true, false⟩] }, 5, 11, by decide +kernel⟩
theorem wit_CameraPortsStartStopAndFrame_9 : ∃ (s : State), s.live = true :=
  ⟨alive.setCamp 11 { fvNs := some 5000000007 }, by decide +kernel⟩
theorem wit_CameraLossesAndTraining_1 : ∃ (s : State) (p : Fin 12), s.live = true ∧ s.campOn p = true ∧ (s.camp
    p).inFrame = true ∧ 0 < (s.camp p).lines ∧ (s.camp p).lines < s.height p ∧ s.lineOverdue p = true :=
  ⟨alive.setFlag (campA 11) CAMP_CTRL_EN true |>.setFld (campA 11) CAMP_LTO_LINE_TIMEOUT 1 |>.withTime { ns := 1 } |>.setCamp 11 { inFrame := true, lines := 3 } |>.withAct [(campA 11 + CAMP_SIZE, 0x00040010)], 11, by decide +kernel⟩
theorem wit_CameraLossesAndTraining_2 : ∃ (s : State) (p : Fin 12), s.live = true ∧ s.campOn p = true ∧ s.frameOverdue
    p = true :=
  ⟨alive.setFlag (campA 11) CAMP_CTRL_EN true |>.setCamp 11 { deadlines := 3 }, 11, by decide +kernel⟩
theorem wit_CameraLossesAndTraining_3 : ∃ (s : State) (p : Fin 12), s.live = true ∧ s.campOn p = true :=
  ⟨alive.setFlag (campA 11) CAMP_CTRL_EN true |>.setCamp 11 { inFrame := true, lineOpen := true, lines := 3 } |>.withAct [(campA 11 + CAMP_SIZE, 0x00040010)], 11, by decide +kernel⟩
theorem wit_CameraLossesAndTraining_4 : ∃ (s : State) (p : Fin 12), s.live = true ∧ s.flag (campA (s.leaderOf p))
    CAMP_CTRL_EN = true ∧ s.fld (campA (s.leaderOf p)) CAMP_CTRL_TRAIN_MODE = 2 ∧ s.flag (campA p) CAMP_STATUS_TRAINED =
    false ∧ (s.camp p).training.active = false :=
  ⟨(alive.setFlag (campA 11) CAMP_CTRL_EN true).setFld (campA 11) CAMP_CTRL_TRAIN_MODE 2, 11, by decide +kernel⟩
theorem wit_CameraLossesAndTraining_5 : ∃ (s : State) (p : Fin 12), s.live = true ∧ s.flag (campA p)
    CAMP_STATUS_MEMBER = false :=
  ⟨(alive.setFlag (campA 10) CAMP_CTRL_EN true).setCamp 10 { gang := 1 }, 10, by decide +kernel⟩
theorem wit_CameraLossesAndTraining_6 : ∃ (s : State) (p : Fin 12), s.live = true ∧ (s.camp p).training.active = true
    :=
  ⟨alive.setCamp 11 { training := { active := true, cycles := 511 } }, 11, by decide +kernel⟩
theorem wit_CameraLossesAndTraining_7 : ∃ (s : State) (p : Fin 12) (cs : List BurstCycle), s.live = true ∧ (s.camp
    p).training.active = false ∧ s.fld (campA (s.leaderOf p)) CAMP_CTRL_TRAIN_MODE = 2 ∧ s.flag (campA p)
    CAMP_STATUS_TRAINED = true ∧ 16 ≤ cs.length :=
  ⟨((alive.setFld (campA 11) CAMP_CTRL_TRAIN_MODE 2).setFlag (campA 11) CAMP_STATUS_TRAINED true).tset .tap 11 31 63, 11, List.replicate 8 ⟨0x7FFFFFFF, 0x80000000⟩ ++ List.replicate 9 ⟨0xFFFFFFFF, 0⟩, by decide +kernel⟩
theorem wit_CameraLossesAndTraining_8 : ∃ (s : State) (p : Fin 12), s.live = true ∧ (s.camp p).training.active = true
    ∧ 512 ≤ (s.camp p).training.cycles ∧ ((∀ i : Fin 32, s.fld (campA (s.leaderOf p)) CAMP_TRCTL_MIN_EYE ≤ (longestRun
    ((s.camp p).training.pass.map (fun (w : Word) => w.toNat.testBit i))).2)) :=
  ⟨(alive.setFld (campA 11) CAMP_TRCTL_MIN_EYE 3).setCamp 11 { training := { active := true, cycles := 512, pass := [0, 0xFFFFFFFF, 0xFFFFFFFF, 0xFFFFFFFF] } }, 11, by decide +kernel⟩
theorem wit_CameraLossesAndTraining_9 : ∃ (s : State) (p : Fin 12), s.live = true ∧ s.fld (campA p) CAMP_TAPIDX_INDEX
    < 34 :=
  ⟨alive.setFld (campA 11) CAMP_TAPIDX_INDEX 33, 11, by decide +kernel⟩
theorem wit_CalendarEntriesTriggerAndMiss_1 : ∃ (s : State) (p : Fin 12) (w0 : Word) (w1 : Word) (w2 : Word), s.live =
    true ∧ (s.cal p).staged = [w0, w1, w2] ∧ bits w2.toNat 15 8 ≠ 255 ∧ (bits w2.toNat 6 0 < 64 ∨ bits w2.toNat 6 0 = 127)
    ∧ bits w1.toNat 10 0 + bits w1.toNat 23 16 ≤ 2048 ∧ (s.calEntry p (s.fld (calA p) CAL_EIDX_EIDX)).state ≠ 2 ∧
    s.calRuns p = false :=
  ⟨(alive.setFld (calA 11) CAL_EIDX_EIDX 255).setCal 11 { staged := [0xFFFFFFFF, 0x00FF0701, 0x8000FEFF] }, 11, 0xFFFFFFFF, 0x00FF0701, 0x8000FEFF, by decide +kernel⟩
theorem wit_CalendarEntriesTriggerAndMiss_2 : ∃ (s : State) (p : Fin 12), s.live = true ∧ (s.calEntry p (s.fld (calA
    p) CAL_EIDX_EIDX)).state = 2 :=
  ⟨alive.setCalEntry 11 0 { state := 2 }, 11, by decide +kernel⟩
theorem wit_CalendarEntriesTriggerAndMiss_3 : ∃ (s : State), s.live = true :=
  ⟨(alive.setFld (calA 11) CAL_WIDX_WIDX 2047).setCal 11 { stagedItem := 9 }, by decide +kernel⟩
theorem wit_CalendarEntriesTriggerAndMiss_4 : ∃ (s : State) (p : Fin 12) (i : Fin 256), s.live = true ∧ s.calRuns p =
    true ∧ (s.calEntry p i).state = 1 ∧ 0 < (s.calEntry p i).wlCount ∧ s.trigDue p = true ∧ s.trigFrame p (s.calEntry p i)
    = (s.camp p).frame ∧ s.flag (calA p) CAL_STATUS_NO_TFRAME = false ∧ s.nowNs < s.calDeadlineNs p ∧ ((∀ x ∈ s.calItems p
    i (s.calDeadlineNs p), x.alen = 1 ∨ x.alen = 2)) ∧ s.flag (twcA (s.fld (calA p) CAL_CTRL_TWC)) TWC_CTRL_EN = false ∧
    (s.twc (s.fld (calA p) CAL_CTRL_TWC)).queue = [] ∧ ((∀ q : Fin 12, (s.cal q).waiting = [])) :=
  ⟨(alive.setFlag (calA 11) CAL_CTRL_EN true).setFlag (campA 11) CAMP_CTRL_EN true |>.setFlag (calA 11) CAL_STATUS_NO_TFRAME false |>.setFld (campA 11) CAMP_TFRAME_TFRAME_NS 5000000 |>.setFld (calA 11) CAL_TIMING_DL_GUARD 0 |>.setCamp 11 { fvNs := some 0, fvFallNs := some 0, frame := 0xFFFFFFFF } |>.setCalEntry 11 255 { state := 1, wlCount := 2, target := alive.fld (calA 11) CAL_CTRL_K } |>.tset .writeList 11 0 0x130 |>.tset .writeList 11 2 0x230, 11, 255, by decide +kernel⟩
theorem wit_CalendarEntriesTriggerAndMiss_5 : ∃ (s : State) (p : Fin 12) (i : Fin 256), s.live = true ∧ (s.calEntry p
    i).state = 2 ∧ s.flag (calA p) CAL_CTRL_MISS_POLICY = false ∧ s.calDeadlineNs p ≤ s.nowNs :=
  ⟨alive.setCalEntry 11 255 { state := 2, tag := 254, target := 7 }, 11, 255, by decide +kernel⟩
theorem wit_CalendarEntriesTriggerAndMiss_6 : ∃ (s : State) (p : Fin 12), s.live = true ∧ s.campOn p = true ∧ s.flag
    (calA p) CAL_STATUS_NO_TFRAME = false ∧ s.freezeDue p = true :=
  ⟨(alive.setFlag (campA 11) CAMP_CTRL_EN true).setFlag (calA 11) CAL_STATUS_NO_TFRAME false, 11, by decide +kernel⟩
theorem wit_CalendarEntriesTriggerAndMiss_7 : ∃ (s : State), s.live = true :=
  ⟨alive.setCal 11 { mid := 5000000007 }, by decide +kernel⟩
theorem wit_PipesTakeFramesLinesAndTables_1 : ∃ (s : State) (q : Fin 8) (h : Hdr) (k : Nat), s.live = true ∧ (s.pipe
    q).inQ = [⟨h, .frameStart⟩] ∧ s.slotFor q h.sid = some k :=
  ⟨(alive.setFld (pipeA 7) FE_SCTRL_STREAM_ID 5).setPipe 7 { inQ := [⟨⟨5, 1, 9, 0, 0, 0, 77⟩, .frameStart⟩] }, 7, ⟨5, 1, 9, 0, 0, 0, 77⟩, 0, by decide +kernel⟩
theorem wit_PipesTakeFramesLinesAndTables_2 : ∃ (s : State) (q : Fin 8) (h : Hdr) (v : List Nat) (k : Nat), s.live =
    true ∧ (s.pipe q).inQ = [⟨h, .line v⟩] ∧ s.slotFor q h.sid = some k ∧ (s.slot q k).inFrame = true :=
  ⟨((alive.setFld (pipeA 7) FE_SCTRL_STREAM_ID 5).setPipe 7 { inQ := [⟨⟨5, 1, 9, 0, 0, 0, 77⟩, .line [1, 2]⟩] }).setSlot 7 0 { inFrame := true, width := 64, height := 16 }, 7, ⟨5, 1, 9, 0, 0, 0, 77⟩, [1, 2], 0, by decide +kernel⟩
theorem wit_PipesTakeFramesLinesAndTables_3 : ∃ (s : State) (q : Fin 8) (h : Hdr) (v : List Nat), s.live = true ∧
    (s.pipe q).inQ = [⟨h, .line v⟩] ∧ s.slotFor q h.sid = none ∧ (s.mfe q).due = none :=
  ⟨alive.setPipe 7 { inQ := [⟨⟨0x155, 1, 9, 0, 0, 0, 77⟩, .line [1, 2]⟩] }, 7, ⟨0x155, 1, 9, 0, 0, 0, 77⟩, [1, 2], by decide +kernel⟩
theorem wit_PipesTakeFramesLinesAndTables_4 : ∃ (s : State) (q : Fin 8) (row : Nat), s.live = true ∧ row ∈ (s.tnr
    q).wanted :=
  ⟨alive.setTnr 7 { wanted := [0, 23] }, 7, 23, by decide +kernel⟩
theorem wit_PipesTakeFramesLinesAndTables_5 : ∃ (s : State) (q : Fin 8) (row : Nat) (a : Nat) (n : Nat), s.live = true
    ∧ row ∈ (s.tnr q).wanted ∧ n = 2 * (s.slot q (s.tnr q).slot).width ∧ a = s.refBase q (((s.slot q (s.tnr
    q).slot).h.frame + 1) % 2) + row * refPitch (s.slot q (s.tnr q).slot).width ∧ s.answersAt a n :=
  ⟨(usable.setTnr 7 { slot := 0, wanted := [0, 23] }).setSlot 7 0 { width := 4, h := ⟨1, 1, 9, 0, 0, 0, 77⟩ }, 7, 23, 23 * refPitch 4, 8, by decide +kernel⟩
theorem wit_PipesTakeFramesLinesAndTables_6 : ∃ (s : State) (q : Fin 8) (w : RefWrite) (rest : List RefWrite), s.live
    = true ∧ (s.tnr q).writes = w :: rest :=
  ⟨alive.setTnr 7 { writes := [⟨0, 1, 0, [1, 2]⟩, ⟨0, 2, 0, [1, 2]⟩] }, 7, ⟨0, 1, 0, [1, 2]⟩, [⟨0, 2, 0, [1, 2]⟩], by decide +kernel⟩
theorem wit_PipesTakeFramesLinesAndTables_7 : ∃ (s : State) (q : Fin 8) (w : RefWrite) (rest : List RefWrite), s.live
    = true ∧ (s.tnr q).writes = w :: rest ∧ w.buf = 0 ∧ w.frame = (s.tnr q).frame0 ∧ s.answersAt (s.refBase q 0 + w.row *
    refPitch w.v.length) (2 * w.v.length) :=
  ⟨usable.setTnr 7 { writes := [⟨0, 1, 0, [1, 2]⟩, ⟨0, 2, 0, [1, 2]⟩] }, 7, ⟨0, 1, 0, [1, 2]⟩, [⟨0, 2, 0, [1, 2]⟩], by decide +kernel⟩
theorem wit_PipesTakeFramesLinesAndTables_8 : ∃ (s : State) (q : Fin 8), s.live = true ∧ s.fld (pipeA q) FE_TIDX_SLOT
    ≤ 2 ∧ s.fld (pipeA q) FE_TIDX_INDEX < feEntries (s.fld (pipeA q) FE_TIDX_TABLE) ∧ s.fld (pipeA q) FE_TIDX_TABLE ≠ 0 ∧
    s.fe q (s.fld (pipeA q) FE_TIDX_SLOT) FE_SCTRL_TBANK ≠ s.fld (pipeA q) FE_TIDX_BANK :=
  ⟨(alive.setFld (pipeA 7) FE_TIDX_TABLE 1).setFld (pipeA 7) FE_TIDX_INDEX 319 |>.setFld (pipeA 7) FE_TIDX_BANK 1 |>.setFld (pipeA 7) FE_TIDX_SLOT 2, 7, by decide +kernel⟩
theorem wit_PipesTakeFramesLinesAndTables_9 : ∃ (s : State) (q : Fin 8), s.live = true ∧ s.fld (pipeA q) FE_TIDX_SLOT
    ≤ 2 ∧ s.fld (pipeA q) FE_TIDX_INDEX < feEntries (s.fld (pipeA q) FE_TIDX_TABLE) ∧ s.fld (pipeA q) FE_TIDX_TABLE ≠ 0 ∧
    s.fe q (s.fld (pipeA q) FE_TIDX_SLOT) FE_SCTRL_TBANK = s.fld (pipeA q) FE_TIDX_BANK :=
  ⟨(alive.setFld (pipeA 7) FE_TIDX_TABLE 4).setFld (pipeA 7) FE_TIDX_INDEX 15359, 7, by decide +kernel⟩
theorem wit_PipesTakeFramesLinesAndTables_10 : ∃ (s : State) (q : Fin 8), s.live = true ∧ (s.pipe q).load = none ∧
    (s.fld (pipeA q) COL_TIDX_SLOT ≤ 2 ∨ s.fld (pipeA q) COL_TIDX_TABLE = 3) ∧ s.fld (pipeA q) COL_TIDX_INDEX < colEntries
    (s.fld (pipeA q) COL_TIDX_TABLE) ∧ s.colBusy q (s.fld (pipeA q) COL_TIDX_SLOT) (s.fld (pipeA q) COL_TIDX_TABLE) (s.fld
    (pipeA q) COL_TIDX_BANK) = false :=
  ⟨(alive.setFld (pipeA 7) COL_TIDX_TABLE 3).setFld (pipeA 7) COL_TIDX_INDEX 549249 |>.setFld (pipeA 7) COL_TIDX_BANK 1, 7, by decide +kernel⟩
theorem wit_PipesTakeFramesLinesAndTables_11 : ∃ (s : State) (q : Fin 8) (v : Word), s.live = true ∧ (s.pipe q).load =
    none ∧ bits v.toNat 19 0 ≠ 0 ∧ s.colBusy q (s.fld (pipeA q) COL_TIDX_SLOT) (s.fld (pipeA q) COL_TIDX_TABLE) (s.fld
    (pipeA q) COL_TIDX_BANK) = false :=
  ⟨(alive.setFld (pipeA 7) COL_TIDX_TABLE 3).setFld (pipeA 7) COL_LDADDR_ADDR 5, 7, 0xFFFFF, by decide +kernel⟩
theorem wit_PipesTakeFramesLinesAndTables_12 : ∃ (s : State) (q : Fin 8) (l : ColLoad), s.live = true ∧ (s.pipe
    q).load = some l :=
  ⟨alive.setPipe 7 { load := some ⟨0, 2, 1, 0, 2, 4⟩ }, 7, ⟨0, 2, 1, 0, 2, 4⟩, by decide +kernel⟩
theorem wit_MotionFieldsAndBufferHeads_1 : ∃ (s : State) (q : Fin 8) (h : Hdr), s.live = true ∧ (s.mfe q).due = some h
    ∧ s.flag (mfeA q) MFE_CTRL_EN = true :=
  ⟨(alive.setFlag (mfeA 7) MFE_CTRL_EN true).setMfe 7 { due := some ⟨1, 1, 9, 0, 0, 0, 77⟩, cur := { bw := 1, bh := 1, blks := [{ v := ⟨0, 0⟩ }], written := false } }, 7, ⟨1, 1, 9, 0, 0, 0, 77⟩, by decide +kernel⟩
theorem wit_MotionFieldsAndBufferHeads_2 : ∃ (s : State) (q : Fin 8) (h : Hdr), s.live = true ∧ (s.mfe q).due = some h
    ∧ s.flag (mfeA q) MFE_CTRL_EN = false :=
  ⟨alive.setMfe 7 { due := some ⟨1, 1, 9, 0, 0, 0, 77⟩ }, 7, ⟨1, 1, 9, 0, 0, 0, 77⟩, by decide +kernel⟩
theorem wit_MotionFieldsAndBufferHeads_3 : ∃ (s : State) (q : Fin 8) (i : Nat) (j : Nat), s.live = true ∧ s.flag (mfeA
    q) MFE_CTRL_EN = true ∧ (s.mfe q).cur.written = false ∧ i < (s.mfe q).cur.bw ∧ j < (s.mfe q).cur.bh ∧ (s.mfe
    q).cur.blks.length = (s.mfe q).cur.bw * (s.mfe q).cur.bh ∧ j * (s.mfe q).cur.bw + i = ((s.mfe q).cur.blks.filter
    (·.refined)).length ∧ min (32 * (j + 1)) (s.mfe q).lines ≤ (s.mfe q).passed :=
  ⟨(alive.setFlag (mfeA 7) MFE_CTRL_EN true).setMfe 7 { cur := { bw := 1, bh := 1, blks := [{ v := ⟨0, 0⟩ }], written := false }, lines := 2, width := 4, passed := 2 }, 7, 0, 0, by decide +kernel⟩
theorem wit_MotionFieldsAndBufferHeads_4 : ∃ (s : State) (q : Fin 8), s.live = true ∧ (s.mfe q).prev.written = false
    :=
  ⟨usable.setMfe 7 { prev := { h := ⟨1, 1, 9, 0, 0, 0, 77⟩, written := false } }, 7, by decide +kernel⟩
theorem wit_MotionFieldsAndBufferHeads_5 : ∃ (s : State) (q : Fin 8) (a : Nat), s.live = true ∧ (s.mfe q).prev.written
    = false ∧ a = s.fld (mfeA q) (if (s.mfe q).prev.h.frame % 2 = 0 then MFE_FLD_BASE0_ADDR else MFE_FLD_BASE1_ADDR) * 256
    ∧ s.answersAt a (s.mfe q).prev.bytes.length :=
  ⟨(usable.setMfe 7 { prev := { h := ⟨1, 1, 9, 0, 0, 0, 77⟩, written := false } }).setFld (mfeA 7) MFE_FLD_BASE1_ADDR 5, 7, 1280, by decide +kernel⟩
theorem wit_MotionFieldsAndBufferHeads_6 : ∃ (s : State) (q : Fin 8) (k : Fin 3) (o : Fin 4) (r : OutRun) (rest : List
    OutRun), s.live = true ∧ firstEnded o (s.slot q k).runs = (some r, rest) ∧ r.waiting = [] ∧ r.half = false ∧
    s.answersAt r.base 64 :=
  ⟨usable.setSlot 7 2 { runs := [{ kind := 3, base := 0x1000, h := ⟨1, 1, 9, 0, 0, 0, 77⟩, fvNs := 5, half := false, flags := 1, ended := true }] }, 7, 2, 3, { kind := 3, base := 0x1000, h := ⟨1, 1, 9, 0, 0, 0, 77⟩, fvNs := 5, half := false, flags := 1, ended := true }, [], by decide +kernel⟩
theorem wit_MotionFieldsAndBufferHeads_7 : ∃ (s : State) (q : Fin 8) (h : Hdr) (k : Nat), s.live = true ∧ (s.pipe
    q).inQ = [⟨h, .frameEnd⟩] ∧ s.slotFor q h.sid = some k ∧ (s.slot q k).inFrame = true :=
  ⟨((alive.setFld (pipeA 7) FE_SCTRL_STREAM_ID 5).setPipe 7 { inQ := [⟨⟨5, 1, 9, 0, 0, 0, 77⟩, .frameEnd⟩] }).setSlot 7 0 { inFrame := true, width := 64, height := 16 }, 7, ⟨5, 1, 9, 0, 0, 0, 77⟩, 0, by decide +kernel⟩
theorem wit_MotionFieldsAndBufferHeads_8 : ∃ (s : State) (q : Fin 8) (k : Fin 3) (r : HarvestRun), s.live = true ∧
    (s.slot q k).harvest = some r ∧ r.head.length = 64 ∧ s.answersAt r.base 64 ∧ s.answersAt (r.base + 64) r.body.length
    :=
  ⟨usable.setSlot 7 2 { harvest := some ⟨0x1000, toBytes 64 7, [1, 2, 3]⟩ }, 7, 2, ⟨0x1000, toBytes 64 7, [1, 2, 3]⟩, by decide +kernel⟩
theorem wit_HeadsStartFreezeAndRunRows_1 : ∃ (s : State) (h : Fin 4), s.live = true ∧ s.flag (headA h) HEAD_CTRL_EN =
    false ∧ s.headMayRun = true ∧ s.maint = false :=
  ⟨running.withAct [(headA 3 + HEAD_OLP, 1500)], 3, by decide +kernel⟩
theorem wit_HeadsStartFreezeAndRunRows_2 : ∃ (s : State) (h : Fin 4), s.live = true ∧ s.flag (headA h) HEAD_CTRL_EN =
    false ∧ s.headMayRun = false :=
  ⟨alive, 3, by decide +kernel⟩
theorem wit_HeadsStartFreezeAndRunRows_3 : ∃ (s : State) (h : Fin 4), s.live = true ∧ s.headRuns h = true ∧ (s.head
    h).selecting = false ∧ s.headFreezeDue h = true :=
  ⟨(alive.setFlag (headA 3) HEAD_STATUS_RUNNING true).setHead 3 { rows := 70000 }, 3, by decide +kernel⟩
theorem wit_HeadsStartFreezeAndRunRows_4 : ∃ (s : State) (h : Fin 4), s.live = true ∧ (s.head h).selecting = true ∧
    (s.head h).selected = false :=
  ⟨alive.setHead 3 { selecting := true }, 3, by decide +kernel⟩
theorem wit_HeadsStartFreezeAndRunRows_5 : ∃ (s : State) (h : Fin 4), s.live = true ∧ s.headRuns h = true ∧ (s.head
    h).target.isSome = true ∧ (s.head h).early = false ∧ (s.head h).forced = false ∧ (s.head h).rows < s.inForce (headA h)
    HEAD_VT_VT_MIN :=
  ⟨(alive.setFlag (headA 3) HEAD_STATUS_RUNNING true).setHead 3 { rows := 4, target := some ⟨5, 1, 2, false⟩ } |>.withAct [(headA 3 + HEAD_VT, 5)], 3, by decide +kernel⟩
theorem wit_HeadsStartFreezeAndRunRows_6 : ∃ (s : State) (h : Fin 4), s.live = true ∧ s.headRuns h = true ∧ (s.head
    h).rowOpen = true ∧ s.inForceFlag (headA h) HEAD_CTRL_LOCK_EN = false ∧ (s.head h).rows < s.inForce (headA h)
    HEAD_VTNOM_VT_NOM :=
  ⟨(alive.setFlag (headA 3) HEAD_STATUS_RUNNING true).setHead 3 { rows := 4, rowOpen := true } |>.withAct [(headA 3 + HEAD_VTNOM, 5)], 3, by decide +kernel⟩
theorem wit_HeadsStartFreezeAndRunRows_7 : ∃ (s : State) (h : Fin 4), s.live = true ∧ s.headRuns h = true ∧ (s.head
    h).rowOpen = true ∧ s.inForceFlag (headA h) HEAD_CTRL_LOCK_EN = false ∧ s.inForce (headA h) HEAD_VTNOM_VT_NOM ≤
    (s.head h).rows :=
  ⟨(alive.setFlag (headA 3) HEAD_STATUS_RUNNING true).setHead 3 { rows := 5, rowOpen := true } |>.withAct [(headA 3 + HEAD_OLP, 1500), (headA 3 + HEAD_VTNOM, 5)] |>.setFld (headA 3) HEAD_FRAME_FRAME 0xFFFFFFFF, 3, by decide +kernel⟩
theorem wit_HeadsStartFreezeAndRunRows_8 : ∃ (s : State) (h : Fin 4), s.live = true ∧ s.headRuns h = true ∧ (s.head
    h).rowOpen = false ∧ (s.head h).waiting = false ∧ s.rasH h ≤ (s.head h).rows :=
  ⟨(alive.setFlag (headA 3) HEAD_STATUS_RUNNING true).setHead 3 { rows := 4 } |>.withAct [(headA 3 + HEAD_SIZE, 0x00040040)], 3, by decide +kernel⟩
theorem wit_HeadsStartFreezeAndRunRows_9 : ∃ (s : State) (h : Fin 4), s.live = true ∧ s.headRuns h = true ∧ (s.head
    h).rowOpen = false ∧ (s.head h).waiting = false ∧ s.direct h = none :=
  ⟨(alive.setFlag (headA 3) HEAD_STATUS_RUNNING true).setHead 3 { rows := 1 } |>.withAct [(headA 3 + HEAD_SIZE, 0x00040040)], 3, by decide +kernel⟩
theorem wit_HeadsStartFreezeAndRunRows_10 : ∃ (s : State) (h : Fin 4) (hd : Hdr) (v : List Nat), s.live = true ∧
    (s.head h).inQ = [⟨hd, .line v⟩] ∧ (s.head h).waiting = false ∧ s.headRuns h = true ∧ (s.head h).lines.length < 16 ∧
    (s.head h).target.any (fun t => t.frame = hd.frame) = true :=
  ⟨(alive.setFlag (headA 3) HEAD_STATUS_RUNNING true).setHead 3 { inQ := [⟨⟨5, 0, 9, 3, 0, 0, 77⟩, .line [1]⟩], target := some ⟨5, 9, 2, false⟩ }, 3, ⟨5, 0, 9, 3, 0, 0, 77⟩, [1], by decide +kernel⟩
theorem wit_HeadsStartFreezeAndRunRows_11 : ∃ (s : State) (h : Fin 4), s.live = true ∧ s.headRuns h = true ∧ (s.head
    h).waiting = true ∧ s.waitOver h = true :=
  ⟨(alive.setFlag (headA 3) HEAD_STATUS_RUNNING true).setHead 3 { waiting := true, rows := 7 }, 3, by decide +kernel⟩
theorem wit_HeadsStartFreezeAndRunRows_12 : ∃ (s : State) (h : Fin 4) (l : Fin 16) (row : Nat), s.live = true ∧
    (s.head h).surf.any (fun x => x.layer = l.val) = true ∧ ⟨l.val, row⟩ ∈ (s.head h).wants :=
  ⟨alive.setHead 3 { surf := [⟨15, ⟨0, 0, 0, 0, 0, 0, 0, 0, 0, 0, 0, 0⟩, 0x1000, 3⟩], wants := [⟨15, 2⟩] }, 3, 15, 2, by decide +kernel⟩
theorem wit_HeadsStartFreezeAndRunRows_13 : ∃ (s : State) (h : Fin 4) (l : Fin 16) (row : Nat) (x : SurfSel), s.live =
    true ∧ (s.head h).surf.find? (fun x => x.layer = l.val) = some x ∧ ⟨l.val, row⟩ ∈ (s.head h).wants ∧ s.answersAt
    (x.rowAddr row) (x.desc.width * x.desc.pxBytes) :=
  ⟨usable.setHead 3 { surf := [⟨15, ⟨0, 0, 0, 0, 0, 0, 0, 0, 4, 0, 0, 0⟩, 0x1000, 3⟩], wants := [⟨15, 2⟩] }, 3, 15, 2, ⟨15, ⟨0, 0, 0, 0, 0, 0, 0, 0, 4, 0, 0, 0⟩, 0x1000, 3⟩, by decide +kernel⟩
theorem wit_HeadAndCalibrationTables_1 : ∃ (s : State) (h : Fin 4), s.live = true ∧ s.filterBusy h (s.fld (headA h)
    HEAD_FILTIDX_INDEX / 256) = false :=
  ⟨alive.setFld (headA 3) HEAD_FILTIDX_INDEX 1023, 3, by decide +kernel⟩
theorem wit_HeadAndCalibrationTables_2 : ∃ (s : State) (h : Fin 4), s.live = true ∧ s.filterBusy h (s.fld (headA h)
    HEAD_FILTIDX_INDEX / 256) = true :=
  ⟨(alive.setFld (headA 3) HEAD_FILTIDX_INDEX 1023).withAct [(headA 3 + LYR_CTRL, 0x84600000)], 3, by decide +kernel⟩
theorem wit_HeadAndCalibrationTables_3 : ∃ (s : State) (h : Fin 4), s.live = true ∧ s.inForce (headA h)
    HEAD_CTRL_PL_BANK ≠ s.fld (headA h) HEAD_PLIDX_INDEX / 16384 :=
  ⟨alive.setFld (headA 3) HEAD_PLIDX_INDEX 32767, 3, by decide +kernel⟩
theorem wit_HeadAndCalibrationTables_4 : ∃ (s : State) (h : Fin 4), s.live = true ∧ s.inForce (headA h)
    HEAD_CTRL_PL_BANK = s.fld (headA h) HEAD_PLIDX_INDEX / 16384 :=
  ⟨alive.setFld (headA 3) HEAD_PLIDX_INDEX 16383, 3, by decide +kernel⟩
theorem wit_HeadAndCalibrationTables_5 : ∃ (s : State), s.live = true :=
  ⟨alive.setHead 3 { fsNs := 5000000007 }, by decide +kernel⟩
theorem wit_HeadAndCalibrationTables_6 : ∃ (s : State) (h : Fin 4) (tile : Option (Fin 4096)) (line : Nat), s.live =
    true ∧ (tile.map (·.val), line) ∈ (s.head h).emWants :=
  ⟨alive.setHead 3 { emWants := [(some 4095, 2), (none, 2)] }, 3, some 4095, 2, by decide +kernel⟩
theorem wit_HeadAndCalibrationTables_7 : ∃ (s : State) (h : Fin 4), s.live = true ∧ s.flag (tcmA h) TCM_IDX_TABLE =
    false ∧ s.fld (tcmA h) TCM_IDX_INDEX % 64 ≠ 63 :=
  ⟨alive.setFld (tcmA 3) TCM_IDX_INDEX 262142, 3, by decide +kernel⟩
theorem wit_HeadAndCalibrationTables_8 : ∃ (s : State) (h : Fin 4), s.live = true ∧ s.flag (tcmA h) TCM_IDX_TABLE =
    false ∧ s.fld (tcmA h) TCM_IDX_INDEX % 64 = 63 ∧ s.headRuns h = false :=
  ⟨(alive.setFld (tcmA 3) TCM_IDX_INDEX 262143).tset .tileStage 3 5 9, 3, by decide +kernel⟩
theorem wit_HeadAndCalibrationTables_9 : ∃ (s : State) (h : Fin 4), s.live = true ∧ s.flag (tcmA h) TCM_IDX_TABLE =
    false ∧ s.fld (tcmA h) TCM_IDX_INDEX % 64 = 63 ∧ s.headRuns h = true ∧ (s.head h).queue.length < 16 :=
  ⟨(alive.setFld (tcmA 3) TCM_IDX_INDEX 262143).setFlag (headA 3) HEAD_STATUS_RUNNING true, 3, by decide +kernel⟩
theorem wit_HeadAndCalibrationTables_10 : ∃ (s : State) (h : Fin 4), s.live = true ∧ s.flag (tcmA h) TCM_IDX_TABLE =
    true ∧ s.fld (tcmA h) TCM_IDX_INDEX < 98304 ∧ s.headRuns h = false :=
  ⟨(alive.setFld (tcmA 3) TCM_IDX_INDEX 98303).setFlag (tcmA 3) TCM_IDX_TABLE true, 3, by decide +kernel⟩
theorem wit_HeadAndCalibrationTables_11 : ∃ (s : State) (h : Fin 4), s.live = true ∧ s.flag (tcmA h) TCM_IDX_TABLE =
    true ∧ s.fld (tcmA h) TCM_IDX_INDEX < 98304 ∧ s.headRuns h = true ∧ s.inForce (tcmA h) TCM_CTRL_CRV_BANK = s.fld (tcmA
    h) TCM_IDX_INDEX / 49152 :=
  ⟨(alive.setFld (tcmA 3) TCM_IDX_INDEX 49151).setFlag (tcmA 3) TCM_IDX_TABLE true |>.setFlag (headA 3) HEAD_STATUS_RUNNING true, 3, by decide +kernel⟩
theorem wit_HeadAndCalibrationTables_12 : ∃ (s : State) (h : Fin 4) (v : Word), s.live = true ∧ (s.head h).load = none
    ∧ bits v.toNat 17 0 ≠ 0 :=
  ⟨alive.setFld (tcmA 3) TCM_LDADDR_ADDR 5, 3, 1, by decide +kernel⟩
theorem wit_HeadAndCalibrationTables_13 : ∃ (s : State) (h : Fin 4) (l : TcmLoad), s.live = true ∧ (s.head h).load =
    some l ∧ l.come = false ∧ l.left ≠ 0 :=
  ⟨alive.setHead 3 { load := some ⟨0, 64, none, false⟩ }, 3, ⟨0, 64, none, false⟩, by decide +kernel⟩
theorem wit_HeadAndCalibrationTables_14 : ∃ (s : State) (h : Fin 4) (l : TcmLoad), s.live = true ∧ (s.head h).load =
    some l ∧ l.come = false ∧ l.left = 1 ∧ s.flag (tcmA h) TCM_IDX_TABLE = true ∧ s.fld (tcmA h) TCM_IDX_INDEX < 98304 ∧
    s.headRuns h = false ∧ s.answersAt l.addr 4 :=
  ⟨(usable.setHead 3 { load := some ⟨2, 1, none, false⟩ }).setFlag (tcmA 3) TCM_IDX_TABLE true |>.setMemByte 2 9, 3, ⟨2, 1, none, false⟩, by decide +kernel⟩
theorem wit_ParadeTrunksSendAndReceive_1 : ∃ (s : State) (n : Fin 8) (p : PrdPkt) (rest : List PrdPkt), s.live = true
    ∧ (s.prd n).txQ = p :: rest ∧ rest.all (·.isSegment) = true ∧ p.c0 = none ∧ (s.head (n % 4)).rotSend = [] ∧ (s.head (n
    % 4)).ended = true :=
  ⟨(alive.setHead 3 { ended := true }).setPrd 7 { txQ := [⟨[2, 1, 0], none⟩, ⟨[2, 1], none⟩], tx := { blocks := 9 } }, 7, ⟨[2, 1, 0], none⟩, [⟨[2, 1], none⟩], by decide +kernel⟩
theorem wit_ParadeTrunksSendAndReceive_2 : ∃ (s : State) (n : Fin 8), s.live = true ∧ s.flag (prdA n) PRD_STATUS_TX_ON
    = true ∧ s.ring (n % 4) = false :=
  ⟨alive.setFlag (prdA 7) PRD_STATUS_TX_ON true, 7, by decide +kernel⟩
theorem wit_ParadeTrunksSendAndReceive_3 : ∃ (s : State) (n : Fin 4), s.live = true ∧ s.flag (prdA n) PRD_STATUS_TX_ON
    = true ∧ s.flag (prdA (n + 4)) PRD_STATUS_TX_ON = true ∧ s.ring n = true ∧ s.onBalls (s.prdQuad n) 1 = true ∧
    s.onBalls (s.prdQuad (n + 4)) 1 = true :=
  ⟨((((((alive.setFlag (prdA 7) PRD_CTRL_RING true).setFlag (prdA 7) PRD_STATUS_TX_ON true).setFlag (prdA 3) PRD_STATUS_TX_ON true).setFld (prdA 3) PRD_CTRL_QUAD 3).setFld (prdA 7) PRD_CTRL_QUAD 7).setFld (quadA 3) QUAD_CTRL_PROTO 1).setFld (quadA 7) QUAD_CTRL_PROTO 1, 3, by decide +kernel⟩
theorem wit_ParadeTrunksSendAndReceive_4 : ∃ (s : State) (n : Fin 8), s.live = true ∧ s.flag (prdA n) PRD_STATUS_TX_ON
    = true :=
  ⟨(alive.setFlag (prdA 7) PRD_STATUS_TX_ON true).setPrd 7 { tx := { pos := [2046, 2047, 5, 5] } }, 7, by decide +kernel⟩
theorem wit_ParadeTrunksSendAndReceive_5 : ∃ (s : State) (n : Fin 8) (k : LaneBlk) (b : List Byte), s.live = true ∧
    s.flag (prdA n) PRD_STATUS_RX_LOCK = true ∧ b = toBytes 8 (ofBits (scramble true (((s.prd
    n).rx.scram[k.lane.val]?).getD 0) (bitsOf k.data.toNat)).1) ∧ k.sync = 2 ∧ leNat (b.take 1) = 0x78 :=
  ⟨alive.setFlag (prdA 7) PRD_STATUS_RX_LOCK true, 7, ⟨3, 2, wireBits 0x78⟩, toBytes 8 0x78, by decide +kernel⟩
theorem wit_ParadeTrunksSendAndReceive_6 : ∃ (s : State) (n : Fin 8) (k : LaneBlk) (b : List Byte), s.live = true ∧
    s.flag (prdA n) PRD_STATUS_RX_LOCK = true ∧ b = toBytes 8 (ofBits (scramble true (((s.prd
    n).rx.scram[k.lane.val]?).getD 0) (bitsOf k.data.toNat)).1) ∧ k.sync ≠ 2 :=
  ⟨(alive.setFlag (prdA 7) PRD_STATUS_RX_LOCK true).setPrd 7 { rx := { packet := some [1] } }, 7, ⟨3, 1, wireBits 0x78⟩, toBytes 8 0x78, by decide +kernel⟩
theorem wit_ParadeTrunksSendAndReceive_7 : ∃ (s : State) (n : Fin 8) (k : LaneBlk) (b : List Byte) (p : List Byte) (j
    : Fin 8), s.live = true ∧ s.flag (prdA n) PRD_STATUS_RX_LOCK = true ∧ b = toBytes 8 (ofBits (scramble true (((s.prd
    n).rx.scram[k.lane.val]?).getD 0) (bitsOf k.data.toNat)).1) ∧ k.sync = 2 ∧ leNat (b.take 1) = 0xE0 + j ∧ (s.prd
    n).rx.packet = some p ∧ crcGood (p ++ (b.drop 1).take j) = false :=
  ⟨(alive.setFlag (prdA 7) PRD_STATUS_RX_LOCK true).setPrd 7 { rx := { packet := some [1] } }, 7, ⟨3, 2, wireBits 0x5E1⟩, toBytes 8 0x5E1, [1], 1, by decide +kernel⟩
theorem wit_ParadeTrunksSendAndReceive_8 : ∃ (s : State) (n : Fin 8) (k : LaneBlk) (b : List Byte) (p : List Byte) (q
    : List Byte) (j : Fin 8), s.live = true ∧ s.flag (prdA n) PRD_STATUS_RX_LOCK = true ∧ b = toBytes 8 (ofBits (scramble
    true (((s.prd n).rx.scram[k.lane.val]?).getD 0) (bitsOf k.data.toNat)).1) ∧ k.sync = 2 ∧ leNat (b.take 1) = 0xE0 + j ∧
    (s.prd n).rx.packet = some p ∧ q = p ++ (b.drop 1).take j ∧ crcGood q = true ∧ q.length = 20 ∧ leNat ((q.drop 1).take
    1) % 16 = 1 ∧ leNat (q.take 1) = 4 ∧ s.ring (n % 4) = true :=
  ⟨((alive.setFlag (prdA 7) PRD_STATUS_RX_LOCK true).setFlag (prdA 7) PRD_CTRL_RING true).setPrd 7 { rx := { packet := some (shortPkt 4 0xFFFF (toBytes 12 0)) } }, 7, ⟨0, 2, wireBits 0xE0⟩, toBytes 8 0xE0, shortPkt 4 0xFFFF (toBytes 12 0), shortPkt 4 0xFFFF (toBytes 12 0), 0, by decide +kernel⟩
theorem wit_ParadeTrunksSendAndReceive_9 : ∃ (s : State) (n : Fin 8) (hs : List (Fin 4)), s.live = true ∧ s.ring (n %
    4) = false ∧ blockLost hs = true :=
  ⟨alive.setFlag (prdA 7) PRD_STATUS_RX_LOCK true, 7, List.replicate 16 0, by decide +kernel⟩
theorem wit_ParadeTrunksSendAndReceive_10 : ∃ (s : State) (n : Fin 8) (hs : List (Fin 4)), s.live = true ∧ s.ring (n %
    4) = true ∧ blockLost hs = false ∧ (s.prd n).beaconTick + usTicks 250 ≤ s.tick ∧ s.flag (prdA n) PRD_CENSUS_AUTO =
    false :=
  ⟨{ (alive.setFlag (prdA 7) PRD_CTRL_RING true).setFlag (prdA 3) PRD_CENSUS_AUTO false with tick := usTicks 250 }, 3, [], by decide +kernel⟩
theorem wit_ParadeTrunksSendAndReceive_11 : ∃ (s : State) (n : Fin 8), s.live = true ∧ s.flag (prdA n)
    PRD_STATUS_TX_ON = true ∧ s.ring (n % 4) = false :=
  ⟨alive.setFlag (prdA 7) PRD_STATUS_TX_ON true, 7, by decide +kernel⟩
theorem wit_ParadeTrunksSendAndReceive_12 : ∃ (s : State) (n : Fin 8), s.live = true ∧ s.flag (prdA n)
    PRD_STATUS_TX_ON = true ∧ (s.prd n).polling = false ∧ s.ring (n % 4) = false :=
  ⟨(alive.setFlag (prdA 7) PRD_STATUS_TX_ON true).setPrd 7 { pollSeq := 0xFFFF }, 7, by decide +kernel⟩
theorem wit_ParadeTrunksSendAndReceive_13 : ∃ (s : State) (n : Fin 8), s.live = true ∧ s.ring (n % 4) = true ∧ s.flag
    (prdA (n % 4)) PRD_STATUS_TX_ON = true ∧ s.flag (prdA (n % 4 + 4)) PRD_STATUS_TX_ON = true ∧ (s.prd n).polling = false
    ∧ s.onBalls (s.prdQuad (n % 4)) 1 = true ∧ s.onBalls (s.prdQuad (n % 4 + 4)) 1 = true :=
  ⟨((((((alive.setFlag (prdA 7) PRD_CTRL_RING true).setFlag (prdA 7) PRD_STATUS_TX_ON true).setFlag (prdA 3) PRD_STATUS_TX_ON true).setFld (prdA 3) PRD_CTRL_QUAD 3).setFld (prdA 7) PRD_CTRL_QUAD 7).setFld (quadA 3) QUAD_CTRL_PROTO 1).setFld (quadA 7) QUAD_CTRL_PROTO 1, 3, by decide +kernel⟩
theorem wit_ParadeTrunksSendAndReceive_14 : ∃ (s : State) (n : Fin 8), s.live = true ∧ s.ring (n % 4) = true ∧ s.flag
    (prdA (n % 4)) PRD_STATUS_TX_ON = true ∧ s.flag (prdA (n % 4 + 4)) PRD_STATUS_TX_ON = true ∧ (s.prd n).polling = false
    ∧ s.onBalls (s.prdQuad (n % 4)) 1 = true ∧ s.onBalls (s.prdQuad (n % 4 + 4)) 1 = true :=
  ⟨((((((alive.setFlag (prdA 7) PRD_CTRL_RING true).setFlag (prdA 7) PRD_STATUS_TX_ON true).setFlag (prdA 3) PRD_STATUS_TX_ON true).setFld (prdA 3) PRD_CTRL_QUAD 3).setFld (prdA 7) PRD_CTRL_QUAD 7).setFld (quadA 3) QUAD_CTRL_PROTO 1).setFld (quadA 7) QUAD_CTRL_PROTO 1, 3, by decide +kernel⟩
theorem wit_ParadeTrunksSendAndReceive_15 : ∃ (s : State) (n : Fin 8) (p : List Byte), s.live = true ∧ s.flag (prdA n)
    PRD_STATUS_RX_LOCK = true ∧ crcGood p = true ∧ leNat ((p.drop 1).take 1) % 16 = 1 ∧ leNat (p.take 1) = 0x13 ∧ p.length
    = 24 ∧ (s.prd n).polling = true ∧ leNat ((p.drop 4).take 2) = (s.prd n).pollSeq ∧ leNat ((p.drop 2).take 2) = (s.prd
    n).pollAddr :=
  ⟨(alive.setFlag (prdA 7) PRD_STATUS_RX_LOCK true).setPrd 7 { polling := true, pollSeq := 5, pollAddr := 9 }, 7, shortPkt 0x13 9 (toBytes 2 5 ++ toBytes 14 0x123456789A), by decide +kernel⟩
theorem wit_ParadeTrunksSendAndReceive_16 : ∃ (s : State) (n : Fin 8), s.live = true ∧ (s.prd n).polling = true ∧
    (s.prd n).pollTick + usTicks 2000 ≤ s.tick :=
  ⟨{ alive.setPrd 7 { polling := true, pollTick := 5 } with tick := 800005 }, 7, by decide +kernel⟩
theorem wit_ParadeTrunksSendAndReceive_17 : ∃ (s : State) (n : Fin 8), s.live = true ∧ s.flag (prdA n)
    PRD_STATUS_TX_ON = true ∧ s.ring (n % 4) = false ∧ s.flag (prdA n) PRD_STATUS_CENSUS_BUSY = false :=
  ⟨alive.setFlag (prdA 7) PRD_STATUS_TX_ON true, 7, by decide +kernel⟩
theorem wit_ParadeTrunksSendAndReceive_18 : ∃ (s : State) (n : Fin 8) (p : List Byte), s.live = true ∧ s.flag (prdA n)
    PRD_STATUS_RX_LOCK = true ∧ crcGood p = true ∧ leNat ((p.drop 1).take 1) % 16 = 1 ∧ leNat (p.take 1) = 0x11 ∧ p.length
    = 20 + 16 * leNat ((p.drop 6).take 2) ∧ s.ring (n % 4) = false ∧ s.answersAt (s.fld (prdA n) PRD_CENSUS_BASE_ADDR *
    256) p.length ∧ s.flag (prdA n) PRD_STATUS_CENSUS_BUSY = true ∧ leNat ((p.drop 4).take 2) = (s.prd n).censusSeq :=
  ⟨(usable.setFlag (prdA 7) PRD_STATUS_RX_LOCK true).setFlag (prdA 7) PRD_STATUS_CENSUS_BUSY true |>.setPrd 7 { censusSeq := 5 }, 7, shortPkt 0x11 9 (toBytes 2 5 ++ toBytes 10 0), by decide +kernel⟩
theorem wit_ParadeTrunksSendAndReceive_19 : ∃ (s : State) (n : Fin 8), s.live = true ∧ s.flag (prdA n)
    PRD_STATUS_CENSUS_BUSY = true ∧ (s.prd n).result = none ∧ s.ring (n % 4) = false ∧ (s.prd n).censusTick + usTicks
    (1000 * s.fld (prdA n) PRD_CENSUS_TIMEOUT_MS) ≤ s.tick :=
  ⟨{ alive.setFlag (prdA 7) PRD_STATUS_CENSUS_BUSY true with tick := 8000000 }, 7, by decide +kernel⟩
theorem wit_ParadeTrunksSendAndReceive_20 : ∃ (s : State) (n : Fin 8) (hs : List (List (Fin 4))) (ms : List
    LaneMarker), s.live = true ∧ s.flag (prdA n) PRD_STATUS_TX_ON = true ∧ aligned ms = true ∧ lanesLocked ms hs = true ∧
    s.trunkReady n = true ∧ s.flag (prdA n) PRD_STATUS_RX_LOCK = false ∧ s.flag (prdA n) PRD_CENSUS_AUTO = false :=
  ⟨([0, 1, 2, 3].foldl (fun t k => t.setFlag (quadA 7) (laneF LANE_STAT_READY k) true) (((alive.setFld (prdA 7) PRD_CTRL_QUAD 7).setFlag (prdA 7) PRD_STATUS_TX_ON true).setFlag (prdA 7) PRD_CENSUS_AUTO false)), 7, [List.replicate 64 1], [⟨0, 1, 0, 7, 5⟩], by decide +kernel⟩
theorem wit_CodecContextsTakeCommandsAndFrames_1 : ∃ (s : State) (c : Fin 64) (p : List Byte), s.live = true ∧
    s.codec.cmd = none ∧ (s.ctx c).run = false ∧ (s.ctx c).job = none ∧ s.answersAt (s.ctxAddr c) 512 ∧ s.memBytes
    (s.ctxAddr c) 256 = p ∧ startCode (s.ctxFw p) false p = 0 ∧ at' p 0 1 ≠ 0x80 :=
  ⟨((usable.setFld (vccA 0) VCC_CTXBASE_ADDR 0x10).setMemBytes (0x1000 + 63 * 512) startEnc), 63, startEnc, by decide +kernel, by decide +kernel, by decide +kernel, by decide +kernel, by decide +kernel, by decide +kernel, startEnc_code _, by decide +kernel⟩
theorem wit_CodecContextsTakeCommandsAndFrames_2 : ∃ (s : State) (c : Fin 64) (p : List Byte), s.live = true ∧
    s.codec.cmd = none ∧ (s.ctx c).run = false ∧ (s.ctx c).job = none ∧ s.answersAt (s.ctxAddr c) 512 ∧ s.memBytes
    (s.ctxAddr c) 256 = p ∧ startCode (s.ctxFw p) false p = 0 ∧ at' p 0 1 = 0x80 :=
  ⟨((usable.setFld (vccA 0) VCC_CTXBASE_ADDR 0x10).setMemBytes (0x1000 + 63 * 512) (decCtx ++ List.replicate 140 0)), 63, (decCtx ++ List.replicate 140 0), by decide +kernel⟩
theorem wit_CodecContextsTakeCommandsAndFrames_3 : ∃ (s : State) (c : Fin 64) (p : List Byte), s.live = true ∧
    s.codec.cmd = none ∧ (s.ctx c).stopping = false ∧ (s.ctx c).job = none ∧ s.answersAt (s.ctxAddr c) 256 ∧ s.memBytes
    (s.ctxAddr c) 256 = p ∧ startCode (s.ctxFw p) (s.ctx c).run p ≠ 0 :=
  ⟨usable, 63, List.replicate 256 0, by decide +kernel⟩
theorem wit_CodecContextsTakeCommandsAndFrames_4 : ∃ (s : State), s.live = true ∧ s.codec.cmd.isSome = true :=
  ⟨alive.withCodec { cmd := some (4, 0) }, by decide +kernel⟩
theorem wit_CodecContextsTakeCommandsAndFrames_5 : ∃ (s : State) (c : Fin 64), s.live = true ∧ s.codec.cmd = none ∧
    (s.ctx c).job.isSome = true :=
  ⟨alive.setCtx 63 { run := true, job := some (.dec tinyPic 0 [7]) }, 63, by decide +kernel⟩
theorem wit_CodecContextsTakeCommandsAndFrames_6 : ∃ (s : State) (c : Fin 64), s.live = true ∧ s.codec.cmd = none ∧
    (s.ctx c).job = none ∧ (s.ctx c).run = true ∧ (s.ctx c).dec = false ∧ (s.ctx c).ready ≠ [] :=
  ⟨alive.setCtx 63 { run := true, ready := [⟨0xFFFFFFFF, 0, 0, 0, 0, 1, 0, [], [], true, false⟩] }, 63, by decide +kernel⟩
theorem wit_CodecContextsTakeCommandsAndFrames_7 : ∃ (s : State) (c : Fin 64), s.live = true ∧ s.codec.cmd = none ∧
    (s.ctx c).job = none ∧ (s.ctx c).run = true ∧ (s.ctx c).dec = true ∧ (s.ctx c).dpb.any (·.waiting) = true :=
  ⟨alive.setCtx 63 { run := true, dec := true, dpb := [tinyOut] }, 63, by decide +kernel⟩
theorem wit_CodecContextsTakeCommandsAndFrames_8 : ∃ (s : State) (c : Fin 64), s.live = true ∧ s.codec.cmd = none ∧
    (s.ctx c).job = none ∧ (s.ctx c).run = true ∧ (s.ctx c).dec = true ∧ (s.ctx c).ready = [] ∧ (s.ctx c).outQ = [] ∧
    (s.ctx c).dpb.any (·.waiting) = false :=
  ⟨alive.setCtx 63 { run := true, dec := true }, 63, by decide +kernel⟩
theorem wit_CodecContextsTakeCommandsAndFrames_9 : ∃ (s : State) (c : Fin 64) (base : Nat) (size : Nat), s.live = true
    ∧ s.codec.cmd = none ∧ (s.ctx c).job = none ∧ (s.ctx c).run = true ∧ (s.ctx c).dec = false ∧ (s.ctx c).ready = [] ∧
    (s.ctx c).group = [] ∧ (s.ctx c).outQ = [] ∧ at' (s.ctx c).p 128 8 = base ∧ at' (s.ctx c).p 136 4 = size ∧ (s.ctx
    c).wr % size + 6 ≤ size ∧ s.answersAt (base + (s.ctx c).wr % size) 6 ∧ s.answersAt (s.ctxAddr c + 256) 8 ∧ base + size
    ≤ s.ctxAddr c + 256 :=
  ⟨(usable.setFld (vccA 0) VCC_CTXBASE_ADDR 0x100).setCtx 63 { run := true, p := List.replicate 136 0 ++ toBytes 4 4096, wr := 4090 }, 63, 0, 4096, by decide +kernel⟩
theorem wit_CodecContextsTakeCommandsAndFrames_10 : ∃ (s : State) (c : Fin 64), s.live = true ∧ s.codec.cmd = none ∧
    (s.ctx c).job = none ∧ (s.ctx c).run = true ∧ (s.ctx c).stopping = false ∧ s.answersAt (s.ctxAddr c) 256 :=
  ⟨usable.setCtx 63 { run := true }, 63, by decide +kernel⟩
theorem wit_CodecContextsTakeCommandsAndFrames_11 : ∃ (s : State) (c : Fin 64), s.live = true ∧ s.codec.cmd = none ∧
    (s.ctx c).job = none ∧ (s.ctx c).run = true ∧ (s.ctx c).stopping = false ∧ (s.ctx c).dec = false :=
  ⟨alive.setCtx 63 { run := true }, 63, by decide +kernel⟩
theorem wit_CodecContextsTakeCommandsAndFrames_12 : ∃ (s : State) (c : Fin 64), s.live = true ∧ s.codec.cmd = none ∧
    (s.ctx c).job = none ∧ (s.ctx c).run = true ∧ (s.ctx c).stopping = false ∧ (s.ctx c).dec = true ∧ s.answersAt
    (s.ctxAddr c + 256) 16 :=
  ⟨usable.setCtx 63 { run := true, dec := true }, 63, by decide +kernel⟩
theorem wit_CodecContextsTakeCommandsAndFrames_13 : ∃ (s : State) (c : Fin 64) (p : List Byte) (e : Nat) (a : Nat) (hs
    : List (List Byte)), s.live = true ∧ (s.ctx c).run = true ∧ (s.ctx c).dec = false ∧ (s.ctx c).stopping = false ∧
    (s.ctx c).p = p ∧ (s.ctx c).expect = some e ∧ srcBuf p e = a ∧ (headOfs p).map (fun o => s.memBytes (a + o) 64) = hs ∧
    hs ≠ [] ∧ hs.all (fun b => headFrameOf b = e) = true ∧ hs.any headErrOf = false ∧ s.isShed 0 c = false ∧ s.answersAt a
    128 ∧ mfesOf p = [] ∧ s.answersAt (s.ctxAddr c + 292) 4 :=
  ⟨usable.setCtx 63 { run := true, p := List.replicate 11 0 ++ [8] ++ List.replicate 30 0 ++ [0xFF], expect := some 0 }, 63, List.replicate 11 0 ++ [8] ++ List.replicate 30 0 ++ [0xFF], 0, 0, [List.replicate 64 0], by decide +kernel⟩
theorem wit_CodecContextsTakeCommandsAndFrames_14 : ∃ (s : State) (c : Fin 64) (p : List Byte) (e : Nat) (a : Nat) (hs
    : List (List Byte)) (m : Nat) (f : Nat) (g : Vec), s.live = true ∧ (s.ctx c).run = true ∧ (s.ctx c).dec = false ∧
    (s.ctx c).stopping = false ∧ (s.ctx c).p = p ∧ (s.ctx c).expect = some e ∧ srcBuf p e = a ∧ (headOfs p).map (fun o =>
    s.memBytes (a + o) 64) = hs ∧ hs ≠ [] ∧ hs.all (fun b => headFrameOf b = e) = true ∧ hs.any headErrOf = false ∧
    s.isShed 0 c = false ∧ s.answersAt a 128 ∧ mfesOf p = [m] ∧ s.fld (mfeA m) (if e % 2 = 0 then MFE_FLD_BASE0_ADDR else
    MFE_FLD_BASE1_ADDR) * 256 = f ∧ s.answersAt f (fieldSize p) ∧ headFrameOf (s.memBytes f (fieldSize p)) = e ∧
    s.fieldEvent m e = some ⟨e, g, true⟩ :=
  ⟨(usable.setCtx 63 { run := true, p := List.replicate 11 0 ++ [8] ++ List.replicate 30 0 ++ [0xF7], expect := some 0 }).withCodec { ctxs := (usable.setCtx 63 { run := true, p := List.replicate 11 0 ++ [8] ++ List.replicate 30 0 ++ [0xF7], expect := some 0 }).codec.ctxs, fields := UMap.set noField [] 7 [⟨0, ⟨1, -1⟩, true⟩] }, 63, List.replicate 11 0 ++ [8] ++ List.replicate 30 0 ++ [0xF7], 0, 0, [List.replicate 64 0], 7, 0, ⟨1, -1⟩, by decide +kernel⟩
theorem wit_CodecContextsTakeCommandsAndFrames_15 : ∃ (s : State) (c : Fin 64) (p : List Byte) (e : Nat) (a : Nat) (hs
    : List (List Byte)), s.live = true ∧ (s.ctx c).run = true ∧ (s.ctx c).dec = false ∧ (s.ctx c).stopping = false ∧
    (s.ctx c).p = p ∧ (s.ctx c).expect = some e ∧ srcBuf p e = a ∧ (headOfs p).map (fun o => s.memBytes (a + o) 64) = hs ∧
    hs ≠ [] ∧ hs.all (fun b => headFrameOf b = e) = true ∧ hs.any headErrOf = true ∧ s.answersAt a 128 ∧ s.answersAt
    (s.ctxAddr c + 276) 4 :=
  ⟨(usable.setCtx 63 { run := true, p := List.replicate 11 0 ++ [8] ++ List.replicate 30 0 ++ [0xFF], expect := some 0 }).setMemByte 36 1, 63, List.replicate 11 0 ++ [8] ++ List.replicate 30 0 ++ [0xFF], 0, 0, [List.replicate 36 0 ++ [1] ++ List.replicate 27 0], by decide +kernel⟩
theorem wit_CodecContextsTakeCommandsAndFrames_16 : ∃ (s : State), s.live = true :=
  ⟨alive, by decide +kernel⟩
theorem wit_CodecContextsTakeCommandsAndFrames_17 : ∃ (s : State) (v : Fin 8), s.live = true ∧ s.coreRetired v = false
    :=
  ⟨alive, 7, by decide +kernel⟩
theorem wit_CodecContextsTakeCommandsAndFrames_18 : ∃ (s : State) (x : Word), s.live = true ∧ x.toNat.testBit 0 = true
    :=
  ⟨alive, 0xFFFFFFFF, by decide +kernel⟩
theorem wit_CodecPicturesStartAndEnd_1 : ∃ (s : State) (v : Fin 8) (c : Fin 64) (k : Taken) (src : SrcPic) (rest :
    List Taken), s.live = true ∧ s.coreOk v = true ∧ (s.vcc v).cur = none ∧ (s.vcc v).waitFor = none ∧ (((s.vcc v).last =
    none ∨ (s.vcc v).last = some c.val)) ∧ s.bestCtx v = some c.val ∧ (s.ctx c).dec = false ∧ s.coresOf (s.ctx c) =
    [v.val] ∧ (s.ctx c).ready = k :: rest ∧ s.dramIdle = true ∧ s.headsShow (s.ctxReq c) k.p k.src k.frame = true ∧
    (s.srcPic (s.ctxReq c) k.p k.src).1 = some src ∧ at' k.p 64 4 / 8 + 4096 ≤ at' k.p 136 4 - ((s.ctx c).wr - s.ctxStat c
    264 8) :=
  ⟨(vccOn.setCtx 63 { run := true, p := encBytes, ready := [⟨0, 0, 0, 0, 0, 1, 0, encBytes, [], true, false⟩] }), 7, 63, ⟨0, 0, 0, 0, 0, 1, 0, encBytes, [], true, false⟩, tinySrc, [], by decide +kernel⟩
theorem wit_CodecPicturesStartAndEnd_2 : ∃ (s : State) (v : Fin 8) (c : Fin 64) (k : Taken) (src : SrcPic) (x :
    CodedPic) (au : CodedAu), s.live = true ∧ (s.vcc v).cur = some c.val ∧ (s.ctx c).job = some (.enc k src [v.val]) ∧
    s.dramIdle = true ∧ s.headsShow (s.ctxReq c) k.p k.src k.frame = true ∧ (s.ctx c).stopping = false ∧ s.codec.cmd =
    none ∧ s.coded c k src [v.val] x = au ∧ 8 * au.bytes.length ≤ au.cap :=
  ⟨((vccOn.setVcc 7 { cur := some 63 }).setCtx 63 { run := true, p := encBytes, job := some (.enc ⟨0, 0, 0, 0, 0, 1, 0, encBytes, [], true, false⟩ tinySrc [7]) }), 7, 63, ⟨0, 0, 0, 0, 0, 1, 0, encBytes, [], true, false⟩, tinySrc, ⟨[], [], []⟩, ((((vccOn.setVcc 7 { cur := some 63 }).setCtx 63 { run := true, p := encBytes, job := some (.enc ⟨0, 0, 0, 0, 0, 1, 0, encBytes, [], true, false⟩ tinySrc [7]) })).coded 63 ⟨0, 0, 0, 0, 0, 1, 0, encBytes, [], true, false⟩ tinySrc [7] ⟨[], [], []⟩), by decide +kernel, by decide +kernel, by decide +kernel, by decide +kernel, by decide +kernel, by decide +kernel, by decide +kernel, rfl, (coded_fits _ _ _ _ _ _ _ (by decide +kernel)).2⟩
theorem wit_CodecPicturesStartAndEnd_3 : ∃ (s : State) (v : Fin 8) (c : Fin 64) (k : Taken) (src : SrcPic) (x :
    CodedPic) (au : CodedAu) (ring : Nat) (size : Nat) (at1 : Nat), s.live = true ∧ (s.vcc v).cur = some c.val ∧ (s.ctx
    c).job = some (.enc k src [v.val]) ∧ s.dramIdle = true ∧ s.headsShow (s.ctxReq c) k.p k.src k.frame = true ∧ (s.ctx
    c).stopping = false ∧ s.codec.cmd = none ∧ s.coded c k src [v.val] x = au ∧ 8 * au.bytes.length ≤ au.cap ∧ k.p =
    (s.ctx c).p ∧ at' k.p 128 8 = ring ∧ at' k.p 136 4 = size ∧ (s.ctx c).wr % size + au.bytes.length ≤ size ∧ at' k.p 144
    8 + 64 * ((s.ctx c).auCount % 2 ^ at' k.p 140 1) = at1 ∧ s.answersAt ring size ∧ s.answersAt at1 64 ∧ s.answersAt
    (s.ctxAddr c + 256) 64 ∧ ring + size ≤ at1 ∧ at1 + 64 ≤ s.ctxAddr c + 256 ∧ ((s.ctxAddr c + 320 ≤ at' k.p 152 8 ∨ at'
    k.p 152 8 + at' k.p 160 4 * 4096 ≤ ring)) :=
  ⟨(((vccOn.setFld (vccA 0) VCC_CTXBASE_ADDR 0x200).setVcc 7 { cur := some 63 }).setCtx 63 { run := true, p := encPlaced, job := some (.enc ⟨0, 0, 0, 0, 0, 1, 0, encPlaced, [], true, false⟩ tinySrc [7]) }), 7, 63, ⟨0, 0, 0, 0, 0, 1, 0, encPlaced, [], true, false⟩, tinySrc, ⟨[], [], []⟩, (((((vccOn.setFld (vccA 0) VCC_CTXBASE_ADDR 0x200).setVcc 7 { cur := some 63 }).setCtx 63 { run := true, p := encPlaced, job := some (.enc ⟨0, 0, 0, 0, 0, 1, 0, encPlaced, [], true, false⟩ tinySrc [7]) })).coded 63 ⟨0, 0, 0, 0, 0, 1, 0, encPlaced, [], true, false⟩ tinySrc [7] ⟨[], [], []⟩), 0, 65536, 0x10000, by decide +kernel, by decide +kernel, by decide +kernel, by decide +kernel, by decide +kernel, by decide +kernel, by decide +kernel, rfl, (coded_fits _ _ _ _ _ _ _ (by decide +kernel)).2, by decide +kernel, by decide +kernel, by decide +kernel, Nat.le_trans (Nat.add_le_add_left (coded_small _ _ _ _ _ _ _ (by decide +kernel) (by decide +kernel) rfl rfl) _) (by decide +kernel), by decide +kernel, by decide +kernel, by decide +kernel, by decide +kernel, by decide +kernel, by decide +kernel, by decide +kernel⟩
theorem wit_CodecPicturesStartAndEnd_4 : ∃ (s : State) (v : Fin 8) (c : Fin 64) (k : Taken) (src : SrcPic), s.live =
    true ∧ (s.vcc v).cur = some c.val ∧ (s.ctx c).job = some (.enc k src [v.val]) ∧ s.dramIdle = true ∧ s.headsShow
    (s.ctxReq c) k.p k.src k.frame = true ∧ (s.ctx c).stopping = false ∧ s.codec.cmd = none ∧ s.answersAt (s.ctxAddr c +
    276) 4 :=
  ⟨((vccOn.setVcc 7 { cur := some 63 }).setCtx 63 { run := true, p := encBytes, job := some (.enc ⟨0, 0, 0, 0, 0, 1, 0, encBytes, [], true, false⟩ tinySrc [7]) }), 7, 63, ⟨0, 0, 0, 0, 0, 1, 0, encBytes, [], true, false⟩, tinySrc, by decide +kernel⟩
theorem wit_CodecPicturesStartAndEnd_5 : ∃ (s : State) (v : Fin 8), s.live = true ∧ s.flag (vccA v) VCC_STATUS_FAULT =
    false ∧ (s.vcc v).cur = none ∧ (s.recentTimes (128 + v)).length < 4 :=
  ⟨alive, 7, by decide +kernel⟩
theorem wit_CodecPicturesStartAndEnd_6 : ∃ (s : State) (v : Fin 8) (c : Fin 64) (x : VCtx) (y : VCtx) (w : Nat) (len :
    Nat) (ns : List Nal) (o : Option Nat) (i : DecInfo), s.live = true ∧ s.coreOk v = true ∧ (s.vcc v).cur = none ∧ (s.vcc
    v).waitFor = none ∧ (((s.vcc v).last = none ∨ (s.vcc v).last = some c.val)) ∧ s.bestCtx v = some c.val ∧ s.ctx c = x ∧
    x.dec = true ∧ s.ctxStat c 256 8 = w ∧ x.lastWr ≤ w ∧ w ≤ x.rd + at' x.p 24 4 ∧ x.pos < w ∧ s.dramIdle = true ∧
    firstAu false (scanNals 0 0 none (s.inBytes c w).1) = (ns, o) ∧ o.getD (w - x.pos) = len ∧ ({ x with lastWr := w } :
    VCtx).readAu x.pos len ns = (y, .pic i) ∧ i.parallel = false :=
  ⟨(((vccOn.setCtx 63 { run := true, dec := true, p := decTiny, spss := [tinySps], ppss := [tinyPps] }).setMemBytes 0 tinySlice).setMemByte (63 * 512 + 256) 7), 7, 63, { run := true, dec := true, p := decTiny, spss := [tinySps], ppss := [tinyPps] }, { run := true, dec := true, p := decTiny, spss := [tinySps], ppss := [tinyPps], lastWr := 7 }, 7, 7, [⟨0, [0x26, 0x01, 0xAF, 0x80], false⟩], none, tinyPic, by decide +kernel⟩
theorem wit_CodecPicturesStartAndEnd_7 : ∃ (s : State) (v : Fin 8) (c : Fin 64) (x : VCtx) (w : Nat), s.live = true ∧
    s.coreOk v = true ∧ (s.vcc v).cur = none ∧ s.bestCtx v = some c.val ∧ s.ctx c = x ∧ x.dec = true ∧ s.ctxStat c 256 8 =
    w ∧ ((w < x.lastWr ∨ w > x.rd + at' x.p 24 4)) ∧ s.fld (vccA v) VDC_ERR_CODE = 0 ∧ s.answersAt (s.ctxAddr c + 256) 16
    :=
  ⟨(((vccOn.setCtx 63 { run := true, dec := true, p := decTiny, spss := [tinySps], ppss := [tinyPps] }).setMemBytes 0 tinySlice).setMemByte (63 * 512 + 256) 7).setCtx 63 { run := true, dec := true, p := decTiny, lastWr := 8 }, 7, 63, { run := true, dec := true, p := decTiny, lastWr := 8 }, 7, by decide +kernel⟩
theorem wit_CodecPicturesStartAndEnd_8 : ∃ (s : State) (v : Fin 8) (c : Fin 64) (i : DecInfo) (texp : Nat) (h :
    SliceHdr) (d : DecRun), s.live = true ∧ (s.vcc v).cur = some c.val ∧ (s.ctx c).job = some (.dec i texp [v.val]) ∧
    (s.ctx c).stopping = false ∧ s.codec.cmd = none ∧ i.segs = [⟨some h, false⟩] ∧ segResults i.tiles.flatten (ctxMayUse
    (s.ctx c).p (s.ctxAddr c)) i.segs d.segs = (i.tiles.flatten, [], []) ∧ d.badRef = [] ∧ (refsOfHdr i.poc h).any (·.cur)
    = false :=
  ⟨(vccOn.setVcc 7 { cur := some 63 }).setCtx 63 { run := true, dec := true, job := some (.dec tinyPic 0 [7]), aus := [(0, 7, false)] }, 7, 63, tinyPic, 0, tinyHdr, ⟨[], [], [], [⟨1, none⟩], []⟩, by decide +kernel⟩
theorem wit_CodecPicturesStartAndEnd_9 : ∃ (s : State) (v : Fin 8) (c : Fin 64) (i : DecInfo) (texp : Nat) (d :
    DecRun), s.live = true ∧ (s.vcc v).cur = some c.val ∧ (s.ctx c).job = some (.dec i texp [v.val]) ∧ (s.ctx c).stopping
    = false ∧ s.codec.cmd = none ∧ (refsOfHdr i.poc ((i.segs.findSome? (·.hdr)).getD ⟨true, false, false, 0, 2, true, 0,
    ⟨[], []⟩, [], 0⟩)).any (·.cur) = false ∧ (segResults i.tiles.flatten (ctxMayUse (s.ctx c).p (s.ctxAddr c)) i.segs
    d.segs).2.2 = [] ∧ d.badRef = [] ∧ s.fld (vccA v) VDC_ERR_CODE = 0 :=
  ⟨(vccOn.setVcc 7 { cur := some 63 }).setCtx 63 { run := true, dec := true, job := some (.dec tinyPic 0 [7]), aus := [(0, 7, false)] }, 7, 63, tinyPic, 0, ⟨[], [], [], [⟨1, none⟩], []⟩, by decide +kernel⟩
theorem wit_CodecPicturesStartAndEnd_10 : ∃ (s : State) (v : Fin 8) (c : Fin 64) (i : DecInfo) (texp : Nat), s.live =
    true ∧ (s.vcc v).cur = some c.val ∧ (s.ctx c).job = some (.dec i texp [v.val]) ∧ (s.ctx c).stopping = false ∧
    s.codec.cmd = none ∧ (s.recentTimes (128 + v)).length < 4 ∧ s.answersAt (s.ctxAddr c + 256) 32 :=
  ⟨(vccOn.setVcc 7 { cur := some 63 }).setCtx 63 { run := true, dec := true, job := some (.dec tinyPic 0 [7]), aus := [(0, 7, false)] }, 7, 63, tinyPic, 0, by decide +kernel⟩
theorem wit_CodecPicturesStartAndEnd_11 : ∃ (s : State) (c : Fin 64) (o : OutPic), s.live = true ∧ (s.ctx c).run =
    true ∧ (s.ctx c).dec = true ∧ (s.ctx c).outQ = [o] ∧ o.ready = true ∧ (at' (s.ctx c).p 13 1).testBit 2 = false ∧
    o.d.flags = 0 ∧ o.k < 2 ^ 32 - 1 ∧ (s.ctx c).stopping = false ∧ s.answersAt (s.ctxAddr c + 256) 32 :=
  ⟨vccOn.setCtx 63 { run := true, dec := true, outQ := [⟨0xFFFFFFFE, tinyOut, true⟩] }, 63, ⟨0xFFFFFFFE, tinyOut, true⟩, by decide +kernel⟩
theorem wit_WerokScalarArithmetic_1 : ∃ (s : State) (u : WCore) (w : Nat) (a : Word) (b : Word) (i : Word) (z : Word)
    (e : OpRow Word), s.atWord u w = true ∧ a = s.xr u (bits w 20 16) ∧ b = s.xr u (bits w 15 11) ∧ i = (BitVec.ofNat 16
    w).signExtend 32 ∧ z = (BitVec.ofNat 16 w).zeroExtend 32 ∧ opKey w = e.key ∧ e ∈ ([⟨.add u, key 0x00 0x000, a + b⟩,
    ⟨.sub u, key 0x00 0x001, a - b⟩, ⟨.and u, key 0x00 0x002, a &&& b⟩, ⟨.or u, key 0x00 0x003, a ||| b⟩, ⟨.xor u, key
    0x00 0x004, a ^^^ b⟩, ⟨.sll u, key 0x00 0x005, a <<< (b.toNat % 32)⟩, ⟨.srl u, key 0x00 0x006, a >>> (b.toNat % 32)⟩,
    ⟨.sra u, key 0x00 0x007, a.sshiftRight (b.toNat % 32)⟩, ⟨.slt u, key 0x00 0x008, if a.toInt < b.toInt then 1 else 0⟩,
    ⟨.sltu u, key 0x00 0x009, if a.toNat < b.toNat then 1 else 0⟩, ⟨.min u, key 0x00 0x00A, if a.toInt ≤ b.toInt then a
    else b⟩, ⟨.max u, key 0x00 0x00B, if a.toInt ≤ b.toInt then b else a⟩, ⟨.clz u, key 0x00 0x00C, wd (if a = 0 then 32
    else 31 - Nat.log2 a.toNat)⟩, ⟨.popc u, key 0x00 0x00D, wd ((List.range 32).countP (fun i => a.getLsbD i))⟩, ⟨.mul u,
    key 0x01 0x000, a * b⟩, ⟨.mulh u, key 0x01 0x001, BitVec.ofInt 32 (a.toInt * b.toInt / 2 ^ 32)⟩, ⟨.mulhu u, key 0x01
    0x002, wd (a.toNat * b.toNat / 2 ^ 32)⟩, ⟨.div u, key 0x01 0x003, if b = 0 then 0xFFFFFFFF else a.sdiv b⟩, ⟨.divu u,
    key 0x01 0x004, if b = 0 then 0xFFFFFFFF else a / b⟩, ⟨.rem u, key 0x01 0x005, if b = 0 then a else a.srem b⟩, ⟨.remu
    u, key 0x01 0x006, if b = 0 then a else a % b⟩, ⟨.addi u, key 0x04 0, a + i⟩, ⟨.andi u, key 0x05 0, a &&& z⟩, ⟨.ori u,
    key 0x06 0, a ||| z⟩, ⟨.xori u, key 0x07 0, a ^^^ z⟩, ⟨.slti u, key 0x08 0, if a.toInt < i.toInt then 1 else 0⟩,
    ⟨.sltiu u, key 0x09 0, if a.toNat < i.toNat then 1 else 0⟩, ⟨.slli u, key 0x0A 0, a <<< (w % 32)⟩, ⟨.srli u, key 0x0A
    1, a >>> (w % 32)⟩, ⟨.srai u, key 0x0A 2, a.sshiftRight (w % 32)⟩, ⟨.lui u, key 0x0B 0, z <<< 16⟩] : List (OpRow
    Word)) :=
  ⟨coreAt (.engine 127) 0xFFFC (wA 1 31 30 29 3) { x := [(29, 0xFFFFFFFF), (30, 0x80000000)] }, .engine 127, (wA 1 31 30 29 3), 0x80000000, 0xFFFFFFFF, ((BitVec.ofNat 16 (wA 1 31 30 29 3)).signExtend 32), ((BitVec.ofNat 16 (wA 1 31 30 29 3)).zeroExtend 32), ⟨.div (.engine 127), key 0x01 0x003, if (0xFFFFFFFF : Word) = 0 then 0xFFFFFFFF else (0x80000000 : Word).sdiv (0xFFFFFFFF : Word)⟩, by decide +kernel⟩
theorem wit_WerokLoadsStoresAndAtomics_1 : ∃ (s : State) (u : WCore) (w : Nat) (a : Word) (m : Nat) (e : OpRow (Nat ×
    Word)), s.atWord u w = true ∧ (s.core u).asks = [] ∧ a = s.xr u (bits w 20 16) + (BitVec.ofNat 16 w).signExtend 32 ∧
    a.toNat % e.value.1 = 0 ∧ a.toNat < u.dmemSize ∧ m = leNat ((List.range e.value.1).map (fun k => byteAt (s.core
    u).dmem (a.toNat + k))) ∧ opKey w = e.key ∧ e ∈ ([⟨.lw u false, key 0x10 0, (4, wd m)⟩, ⟨.lh u false, key 0x11 0, (2,
    (BitVec.ofNat 16 m).signExtend 32)⟩, ⟨.lhu u false, key 0x12 0, (2, wd m)⟩, ⟨.lb u false, key 0x13 0, (1,
    (BitVec.ofNat 8 m).signExtend 32)⟩, ⟨.lbu u false, key 0x14 0, (1, wd m)⟩] : List (OpRow (Nat × Word))) :=
  ⟨coreAt (.engine 127) 0xFFFC (wB 16 31 30 0x8000) { x := [(30, 0x27FFC)], dmem := [(0x1FFF8, 0x88), (0x1FFF9, 0x99), (0x1FFFA, 0xAA), (0x1FFFB, 0xBB), (0x1FFFC, 0xCC), (0x1FFFD, 0xFD), (0x1FFFE, 0xFE), (0x1FFFF, 0xFF)] }, (.engine 127), (wB 16 31 30 0x8000), 0x1FFFC, 0xFFFEFDCC, ⟨.lw (.engine 127) false, key 0x10 0, (4, wd 0xFFFEFDCC)⟩, by decide +kernel⟩
theorem wit_WerokLoadsStoresAndAtomics_2 : ∃ (s : State) (u : WCore) (w : Nat) (a : Word) (m : Nat) (d : Nat) (e :
    OpRow (Nat × Word)), s.atWord u w = true ∧ (s.core u).asks = [] ∧ a = s.xr u (bits w 20 16) + (BitVec.ofNat 16
    w).signExtend 32 ∧ s.tgt u a.toNat e.value.1 = .own d ∧ m = s.memNat d e.value.1 ∧ opKey w = e.key ∧ e ∈ ([⟨.lw u
    false, key 0x10 0, (4, wd m)⟩, ⟨.lh u false, key 0x11 0, (2, (BitVec.ofNat 16 m).signExtend 32)⟩, ⟨.lhu u false, key
    0x12 0, (2, wd m)⟩, ⟨.lb u false, key 0x13 0, (1, (BitVec.ofNat 8 m).signExtend 32)⟩, ⟨.lbu u false, key 0x14 0, (1,
    wd m)⟩] : List (OpRow (Nat × Word))) :=
  ⟨(coreAt (.engine 127) 0xFFFC (wB 16 31 30 0x8000) { x := [(30, 0x307FFC)] }).setMemBytes 0xE003DFFFFC (toBytes 4 0xFFFEFDCC), (.engine 127), (wB 16 31 30 0x8000), 0x2FFFFC, 0xFFFEFDCC, 0xE003DFFFFC, ⟨.lw (.engine 127) false, key 0x10 0, (4, wd 0xFFFEFDCC)⟩, by decide +kernel⟩
theorem wit_WerokLoadsStoresAndAtomics_3 : ∃ (s : State) (u : WCore) (w : Nat) (a : Word) (b : Word) (e : OpRow Nat),
    s.atWord u w = true ∧ b = s.xr u (bits w 25 21) ∧ a = s.xr u (bits w 20 16) + (BitVec.ofNat 16 w).signExtend 32 ∧
    a.toNat % e.value = 0 ∧ a.toNat < u.dmemSize ∧ opKey w = e.key ∧ e ∈ ([⟨.sw u, key 0x18 0, 4⟩, ⟨.sh u, key 0x19 0, 2⟩,
    ⟨.sb u, key 0x1A 0, 1⟩] : List (OpRow Nat)) :=
  ⟨coreAt (.engine 127) 0xFFFC (wB 24 31 30 0x7FFF) { x := [(30, 0x17FFD), (31, 0x89ABCDEF)], dmem := [(0x1FFF8, 0x88), (0x1FFF9, 0x99), (0x1FFFA, 0xAA), (0x1FFFB, 0xBB), (0x1FFFC, 0xCC), (0x1FFFD, 0xFD), (0x1FFFE, 0xFE), (0x1FFFF, 0xFF)] }, (.engine 127), (wB 24 31 30 0x7FFF), 0x1FFFC, 0x89ABCDEF, ⟨.sw (.engine 127), key 0x18 0, 4⟩, by decide +kernel⟩
theorem wit_WerokLoadsStoresAndAtomics_4 : ∃ (s : State) (u : WCore) (w : Nat) (a : Word) (b : Word) (d : Nat) (e :
    OpRow Nat), s.atWord u w = true ∧ b = s.xr u (bits w 25 21) ∧ a = s.xr u (bits w 20 16) + (BitVec.ofNat 16
    w).signExtend 32 ∧ s.tgt u a.toNat e.value = .own d ∧ opKey w = e.key ∧ e ∈ ([⟨.sw u, key 0x18 0, 4⟩, ⟨.sh u, key 0x19
    0, 2⟩, ⟨.sb u, key 0x1A 0, 1⟩] : List (OpRow Nat)) :=
  ⟨coreAt (.engine 127) 0xFFFC (wB 24 31 30 0x7FFF) { x := [(30, 0x2F7FFD), (31, 0x89ABCDEF)] }, (.engine 127), (wB 24 31 30 0x7FFF), 0x2FFFFC, 0x89ABCDEF, 0xE003DFFFFC, ⟨.sw (.engine 127), key 0x18 0, 4⟩, by decide +kernel⟩
theorem wit_WerokLoadsStoresAndAtomics_5 : ∃ (s : State) (u : WCore) (w : Nat) (a : Word) (b : Word) (d : Nat) (e :
    OpRow Nat), s.atWord u w = true ∧ b = s.xr u (bits w 25 21) ∧ a = s.xr u (bits w 20 16) + (BitVec.ofNat 16
    w).signExtend 32 ∧ s.tgt u a.toNat e.value = .win d false ∧ opKey w = e.key ∧ e ∈ ([⟨.sw u, key 0x18 0, 4⟩, ⟨.sh u,
    key 0x19 0, 2⟩, ⟨.sb u, key 0x1A 0, 1⟩] : List (OpRow Nat)) :=
  ⟨coreAt (.steward 3) 0x3FFFC (wB 24 31 30 0x7FFF) { x := [(30, 0xFFFF7FFD), (31, 0x89ABCDEF)], wins := [(15, 0x0FF00003)] }, .steward 3, (wB 24 31 30 0x7FFF), 0xFFFFFFFC, 0x89ABCDEF, 0xFFFFFFFFC, ⟨.sw (.steward 3), key 0x18 0, 4⟩, by decide +kernel⟩
theorem wit_WerokLoadsStoresAndAtomics_6 : ∃ (s : State) (u : WCore) (w : Nat) (d : Nat) (o : Word) (b : Word) (e :
    OpRow Word), s.atWord u w = true ∧ b = s.xr u (bits w 15 11) ∧ s.atomicAt u (s.xr u (bits w 20 16)).toNat = some d ∧
    s.cut u.req.die (memDie d) = false ∧ o = wd (s.memNat d 4) ∧ opKey w = e.key ∧ e ∈ ([⟨.aadd u false, key 0x1C 0, o +
    b⟩, ⟨.aswp u false, key 0x1C 1, b⟩, ⟨.aand u false, key 0x1C 2, o &&& b⟩, ⟨.aor u false, key 0x1C 3, o ||| b⟩, ⟨.amaxu
    u false, key 0x1C 4, if o.toNat ≤ b.toNat then b else o⟩, ⟨.acas u false, key 0x1C 5, if o = s.xr u (bits w 25 21)
    then b else o⟩] : List (OpRow Word)) :=
  ⟨(coreAt (.engine 127) 0xFFFC (wA 0x1C 31 30 29 0) { x := [(29, 7), (30, 0x2FFFFC), (31, 5)] }).setMemBytes 0xE003DFFFFC (toBytes 4 0xFFFFFFFF), (.engine 127), (wA 0x1C 31 30 29 0), 0xE003DFFFFC, 0xFFFFFFFF, 7, ⟨.aadd (.engine 127) false, key 0x1C 0, (0xFFFFFFFF : Word) + (7 : Word)⟩, by decide +kernel⟩
theorem wit_WerokBranchesJumpsAndWaits_1 : ∃ (s : State) (u : WCore) (w : Nat) (a : Word) (b : Word) (e : OpRow Bool),
    s.atWord u w = true ∧ a = s.xr u (bits w 20 16) ∧ b = s.xr u (bits w 25 21) ∧ opKey w = e.key ∧ e ∈ ([⟨.beq u, key
    0x20 0, decide (a = b)⟩, ⟨.bne u, key 0x21 0, decide (a ≠ b)⟩, ⟨.blt u, key 0x22 0, decide (a.toInt < b.toInt)⟩, ⟨.bge
    u, key 0x23 0, decide (b.toInt ≤ a.toInt)⟩, ⟨.bltu u, key 0x24 0, decide (a.toNat < b.toNat)⟩, ⟨.bgeu u, key 0x25 0,
    decide (b.toNat ≤ a.toNat)⟩] : List (OpRow Bool)) :=
  ⟨coreAt (.engine 127) 0xFFFC (wB 32 31 30 0x8000) { x := [(30, 0x80000000), (31, 0x7FFFFFFF)] }, (.engine 127), (wB 32 31 30 0x8000), 0x80000000, 0x7FFFFFFF, ⟨.beq (.engine 127), key 0x20 0, decide ((0x80000000 : Word) = (0x7FFFFFFF : Word))⟩, by decide +kernel⟩
theorem wit_WerokBranchesJumpsAndWaits_2 : ∃ (s : State) (u : WCore) (w : Nat), s.atWord u w = true ∧ opKey w = key
    0x28 0 :=
  ⟨coreAt (.engine 127) 0xFFFC (wB 0x28 0x1F 0x1F 0xFFFF) { x := [(31, 7)] }, (.engine 127), (wB 0x28 0x1F 0x1F 0xFFFF), by decide +kernel⟩
theorem wit_WerokBranchesJumpsAndWaits_3 : ∃ (s : State) (u : WCore) (w : Nat) (a : Word), s.atWord u w = true ∧ opKey
    w = key 0x29 0 ∧ a = s.xr u (bits w 20 16) + (BitVec.ofNat 16 w).signExtend 32 :=
  ⟨coreAt (.engine 127) 0xFFFC (wB 0x29 31 30 0xFFFF) { x := [(30, 1)] }, (.engine 127), (wB 0x29 31 30 0xFFFF), 0, by decide +kernel⟩
theorem wit_WerokBranchesJumpsAndWaits_4 : ∃ (s : State) (u : WCore) (w : Nat), s.atWord u w = true ∧ opKey w = key
    0x2C 0 :=
  ⟨coreAt (.steward 3) 0x3FFFC (wA 0x2C 0 0 0 0) { x := [] }, (.steward 3), (wA 0x2C 0 0 0 0), by decide +kernel⟩
theorem wit_WerokBranchesJumpsAndWaits_5 : ∃ (s : State) (u : WCore), s.live = true ∧ s.issues u = true ∧ s.pcIn u =
    true ∧ opAssigned u (s.core u).fetch = true ∧ opKey (s.core u).fetch = key 0x2C 0 ∧ (s.core u).sb ≠ [] :=
  ⟨coreAt (.engine 127) 0xFFFC (wA 0x2C 0 0 0 0) { sb := [⟨0, [1]⟩] }, (.engine 127), by decide +kernel⟩
theorem wit_WerokBranchesJumpsAndWaits_6 : ∃ (s : State) (u : WCore) (a : Nat) (l : List Byte), s.live = true ∧
    (s.core u).drain = some .fence ∧ (s.core u).sb = [⟨a, l⟩] ∧ s.cut u.req.die 0 = false ∧ s.answersAt a l.length :=
  ⟨usable.setCore (.engine 127) { drain := some .fence, sb := [⟨0x3FFFFFFE, [1, 2]⟩], pc := 0xFFFFFFFC }, (.engine 127), 0x3FFFFFFE, [1, 2], by decide +kernel⟩
theorem wit_WerokBranchesJumpsAndWaits_7 : ∃ (s : State) (u : WCore) (w : Nat) (d : Nat), s.atWord u w = true ∧ opKey
    w = key 0x2C 2 ∧ s.tgt u (s.xr u (bits w 20 16)).toNat 4 = .own d :=
  ⟨coreAt (.engine 127) 0xFFFC (wA 0x2C 0 30 29 2) { x := [(29, 0xFFFFFFFF), (30, 0x2FFFFC)] }, (.engine 127), (wA 0x2C 0 30 29 2), 0xE003DFFFFC, by decide +kernel⟩
theorem wit_WerokBranchesJumpsAndWaits_8 : ∃ (s : State) (u : WCore) (w : Nat) (d : Nat), s.atWord u w = true ∧ opKey
    w = key 0x2C 4 ∧ s.tgt u (s.xr u (bits w 20 16)).toNat 4 = .own d ∧ wd (s.memNat d 4) ≠ s.xr u (bits w 15 11) :=
  ⟨coreAt (.engine 127) 0xFFFC (wA 0x2C 0 30 29 4) { x := [(29, 0xFFFFFFFF), (30, 0x2FFFFC)] }, (.engine 127), (wA 0x2C 0 30 29 4), 0xE003DFFFFC, by decide +kernel⟩
theorem wit_WerokBranchesJumpsAndWaits_9 : ∃ (s : State) (u : WCore) (w : Nat) (d : Nat), s.atWord u w = true ∧ opKey
    w = key 0x2C 4 ∧ s.tgt u (s.xr u (bits w 20 16)).toNat 4 = .own d ∧ wd (s.memNat d 4) = s.xr u (bits w 15 11) :=
  ⟨coreAt (.engine 127) 0xFFFC (wA 0x2C 0 30 29 4) { x := [(30, 0x2FFFFC)] }, (.engine 127), (wA 0x2C 0 30 29 4), 0xE003DFFFFC, by decide +kernel⟩
theorem wit_WerokBranchesJumpsAndWaits_10 : ∃ (s : State) (u : WCore) (d : Nat) (v : Word), s.live = true ∧ (s.core
    u).watch = some (d, v) ∧ wd (s.memNat d 4) ≠ v :=
  ⟨alive.setCore (.engine 127) { watch := some (0xE003DFFFFC, 1), pc := 0xFFFFFFFC }, (.engine 127), 0xE003DFFFFC, 1, by decide +kernel⟩
theorem wit_WerokBranchesJumpsAndWaits_11 : ∃ (s : State) (u : WCore) (w : Nat), s.atWord u w = true ∧ opKey w = key
    0x2C 1 :=
  ⟨coreAt (.engine 127) 0xFFFC (wA 0x2C 0 0 0 1) { stale := [(0, 1, none), (1, 1, some 5)] }, (.engine 127), (wA 0x2C 0 0 0 1), by decide +kernel⟩
theorem wit_WerokCachesTransfersAndCsrs_1 : ∃ (s : State) (u : WCore) (w : Nat) (l : CLine), s.atWord u w = true ∧
    opKey w = key 0x2C 5 ∧ s.cachedLine u (s.xr u (bits w 20 16)).toNat = some l :=
  ⟨((coreAt (.engine 127) 0xFFFC (wA 0x2C 0 30 0 5) { x := [(30, 0xFFFFFFFF)], wins := [(15, 3)], cache := [⟨0x0FFFFFC0, (List.replicate 64 (7 : Byte)), true⟩, ⟨0, (List.replicate 64 (7 : Byte)), true⟩] }).setFld dmcA DMC_USABLE_MIB 1024), (.engine 127), (wA 0x2C 0 30 0 5), ⟨0x0FFFFFC0, (List.replicate 64 (7 : Byte)), true⟩, by decide +kernel⟩
theorem wit_WerokCachesTransfersAndCsrs_2 : ∃ (s : State) (u : WCore) (w : Nat) (l : CLine), s.atWord u w = true ∧
    opKey w = key 0x2C 6 ∧ s.cachedLine u (s.xr u (bits w 20 16)).toNat = some l :=
  ⟨((coreAt (.engine 127) 0xFFFC (wA 0x2C 0 30 0 6) { x := [(30, 0xFFFFFFFF)], wins := [(15, 3)], cache := [⟨0x0FFFFFC0, (List.replicate 64 (7 : Byte)), true⟩, ⟨0, (List.replicate 64 (7 : Byte)), true⟩] }).setFld dmcA DMC_USABLE_MIB 1024), (.engine 127), (wA 0x2C 0 30 0 6), ⟨0x0FFFFFC0, (List.replicate 64 (7 : Byte)), true⟩, by decide +kernel⟩
theorem wit_WerokCachesTransfersAndCsrs_3 : ∃ (s : State) (u : WCore) (w : Nat) (l : CLine), s.atWord u w = true ∧
    opKey w = key 0x2C 7 ∧ s.cachedLine u (s.xr u (bits w 20 16)).toNat = some l :=
  ⟨((coreAt (.engine 127) 0xFFFC (wA 0x2C 0 30 0 7) { x := [(30, 0xFFFFFFFF)], wins := [(15, 3)], cache := [⟨0x0FFFFFC0, (List.replicate 64 (7 : Byte)), true⟩, ⟨0, (List.replicate 64 (7 : Byte)), true⟩] }).setFld dmcA DMC_USABLE_MIB 1024), (.engine 127), (wA 0x2C 0 30 0 7), ⟨0x0FFFFFC0, (List.replicate 64 (7 : Byte)), true⟩, by decide +kernel⟩
theorem wit_WerokCachesTransfersAndCsrs_4 : ∃ (s : State) (u : WCore) (w : Nat) (e : OpRow Nat), s.atWord u w = true ∧
    opKey w = e.key ∧ s.cachedLine u (s.xr u (bits w 20 16)).toNat = none ∧ e ∈ ([⟨.cln u, key 0x2C 5, 0⟩, ⟨.inv u, key
    0x2C 6, 0⟩, ⟨.cli u, key 0x2C 7, 0⟩] : List (OpRow Nat)) :=
  ⟨coreAt (.engine 127) 0xFFFC (wA 0x2C 0 30 0 5) { x := [] }, (.engine 127), (wA 0x2C 0 30 0 5), ⟨.cln (.engine 127), key 0x2C 5, 0⟩, by decide +kernel⟩
theorem wit_WerokCachesTransfersAndCsrs_5 : ∃ (s : State) (u : WCore) (w : Nat), s.atWord u w = true ∧ opKey w = key
    0x2C 8 :=
  ⟨coreAt (.engine 127) 0xFFFC (wA 0x2C 0 0 0 8) { x := [(30, 0xFFFFFFFF)], wins := [(15, 3)], cache := [⟨0x0FFFFFC0, (List.replicate 64 (7 : Byte)), false⟩, ⟨0, (List.replicate 64 (7 : Byte)), true⟩] }, (.engine 127), (wA 0x2C 0 0 0 8), by decide +kernel⟩
theorem wit_WerokCachesTransfersAndCsrs_6 : ∃ (s : State) (u : WCore) (w : Nat) (o : Nat) (k : Nat), s.atWord u w =
    true ∧ opKey w = key 0x2C 9 ∧ s.tgt u (s.xr u (bits w 20 16)).toNat 32 = .dmem o ∧ (s.core u).freeSlot = some k :=
  ⟨coreAt (.engine 127) 0xFFFC (wA 0x2C 31 30 0 9) { x := [(30, 0x1FFE0)], dmem := putBytes [] 0x1FFE0 (toBytes 8 0x11223344 ++ toBytes 8 0x55 ++ toBytes 4 16777216 ++ toBytes 2 65535 ++ toBytes 2 0 ++ toBytes 4 5 ++ toBytes 4 6), cdma := [⟨0, 0, 0, 0, 0, 0, 0, 0⟩] }, (.engine 127), (wA 0x2C 31 30 0 9), 0x1FFE0, 1, by decide +kernel⟩
theorem wit_WerokCachesTransfersAndCsrs_7 : ∃ (s : State) (u : WCore) (w : Nat) (o : Nat), s.atWord u w = true ∧ opKey
    w = key 0x2C 9 ∧ s.tgt u (s.xr u (bits w 20 16)).toNat 32 = .dmem o ∧ (s.core u).freeSlot = none :=
  ⟨coreAt (.engine 127) 0xFFFC (wA 0x2C 31 30 0 9) { cdma := [⟨0, 0, 0, 0, 0, 0, 0, 0⟩, ⟨1, 1, 0, 0, 0, 0, 0, 0⟩, ⟨2, 2, 0, 0, 0, 0, 0, 0⟩, ⟨3, 3, 0, 0, 0, 0, 0, 0⟩] }, (.engine 127), (wA 0x2C 31 30 0 9), 0, by decide +kernel⟩
theorem wit_WerokCachesTransfersAndCsrs_8 : ∃ (s : State) (e : Fin 128) (k : Fin 4) (x : Cdma) (off : Nat), s.live =
    true ∧ (s.core (.engine e)).cdma = [x] ∧ x.slot = k ∧ x.rows = 1 ∧ x.rowBytes = 64 ∧ x.src % 64 = 0 ∧ x.src.testBit 63
    = false ∧ s.answersAt x.src 64 ∧ s.cut (1 + e / 64) 0 = false ∧ x.dst.testBit 63 = true ∧ localAddr x.dst = some
    (e.val % 8, false, off) ∧ off + 64 ≤ 0x20000 :=
  ⟨(usable.setMemBytes 0x3FFFFFC0 [1, 2, 3]).setCore (.engine 127) { cdma := [⟨0xFFFFFFFF, 3, 0x3FFFFFC0, 9223372036862246848, 64, 1, 0, 0⟩], results := [(5, 0)] }, 127, 3, ⟨0xFFFFFFFF, 3, 0x3FFFFFC0, 9223372036862246848, 64, 1, 0, 0⟩, 0x1FFC0, by decide +kernel⟩
theorem wit_WerokCachesTransfersAndCsrs_9 : ∃ (s : State) (e : Fin 128) (k : Fin 4) (x : Cdma) (p : Nat × Nat × Nat)
    (rest : List (Nat × Nat × Nat)), s.live = true ∧ (s.core (.engine e)).cdma = [x] ∧ x.slot = k ∧ x.pieces = p :: rest ∧
    regionOf p.1 = .dram :=
  ⟨alive.setCore (.engine 127) { cdma := [⟨0xFFFFFFFF, 3, 0x3FFFFFC0, 9223372036862246848, 64, 1, 0, 0⟩] }, 127, 3, ⟨0xFFFFFFFF, 3, 0x3FFFFFC0, 9223372036862246848, 64, 1, 0, 0⟩, (0x3FFFFFC0, 9223372036862246848, 64), [], by decide +kernel⟩
theorem wit_WerokCachesTransfersAndCsrs_10 : ∃ (s : State) (u : WCore) (w : Nat) (n : Nat), s.atWord u w = true ∧
    opKey w = key 0x2C 0xA ∧ (s.core u).results = [(s.xr u (bits w 20 16), n)] ∧ (s.core u).stale = [] :=
  ⟨coreAt (.engine 127) 0xFFFC (wA 0x2C 31 30 0 0xA) { x := [(30, 0xFFFFFFFF)], results := [(0xFFFFFFFF, 3)] }, (.engine 127), (wA 0x2C 31 30 0 0xA), 3, by decide +kernel⟩
theorem wit_WerokCachesTransfersAndCsrs_11 : ∃ (s : State) (u : WCore) (w : Nat), s.atWord u w = true ∧ opKey w = key
    0x2C 0xA ∧ (s.core u).results = [] ∧ (s.core u).cdma.any (fun x => x.ticket == s.xr u (bits w 20 16)) = true :=
  ⟨coreAt (.engine 127) 0xFFFC (wA 0x2C 31 30 0 0xA) { x := [(30, 0xFFFFFFFF)], cdma := [⟨0xFFFFFFFF, 3, 0, 0, 0, 0, 0, 0⟩] }, (.engine 127), (wA 0x2C 31 30 0 0xA), by decide +kernel⟩
theorem wit_WerokCachesTransfersAndCsrs_12 : ∃ (s : State) (e : Fin 128) (w : Nat) (j : WJob) (v : Word), s.atWord
    (.engine e) w = true ∧ opKey w = key 0x2D 0 ∧ (s.core (.engine e)).job = some j ∧ (bits w 11 0, v) ∈ ([(0, wd e), (1,
    wd j.id), (2, wd j.queue)] : List (Nat × Word)) :=
  ⟨coreAt (.engine 127) 0xFFFC (wB 0x2D 31 0 2) { job := some ⟨0xFFFF, 3, true, false, 5, 0⟩ }, 127, (wB 0x2D 31 0 2), ⟨0xFFFF, 3, true, false, 5, 0⟩, 3, by decide +kernel⟩
theorem wit_WerokCachesTransfersAndCsrs_13 : ∃ (s : State) (u : WCore) (w : Nat), s.atWord u w = true ∧ opKey w = key
    0x2D 0 ∧ 0x11 ≤ bits w 11 0 :=
  ⟨coreAt (.engine 127) 0xFFFC (wB 0x2D 31 0 0x1F) { wins := [(15, 0xFFF00003)] }, (.engine 127), (wB 0x2D 31 0 0x1F), by decide +kernel⟩
theorem wit_WerokCachesTransfersAndCsrs_14 : ∃ (s : State) (u : WCore) (w : Nat), s.atWord u w = true ∧ opKey w = key
    0x2E 0 ∧ 0x11 ≤ bits w 11 0 :=
  ⟨coreAt (.engine 127) 0xFFFC (wB 0x2E 0 30 0x1F) { x := [(30, 0xFFFFFFFF)] }, (.engine 127), (wB 0x2E 0 30 0x1F), by decide +kernel⟩
theorem wit_WerokCachesTransfersAndCsrs_15 : ∃ (s : State) (u : WCore) (w : Nat), s.atWord u w = true ∧ opKey w = key
    0x2E 0 ∧ bits w 11 0 < 0x11 :=
  ⟨coreAt (.engine 127) 0xFFFC (wB 0x2E 0 30 3) { x := [(30, 0xFFFFFFFF)] }, (.engine 127), (wB 0x2E 0 30 3), by decide +kernel⟩
theorem wit_WerokJobsStartEndAndFault_1 : ∃ (s : State) (c : Fin 16) (q : Fin 4), s.live = true ∧ s.dispatches c =
    true ∧ s.queueReady c q = true ∧ q.val ∉ (s.clu c).blocked ∧ ((∀ k : Fin 4, k < q → s.queueReady c k = false ∨ k.val ∈
    (s.clu c).blocked)) :=
  ⟨(alive.setFld (engA 15) ENG_QCFG_QEN 8).setFld (engA 15) (ENG_QPTR_WR.nth 4 3) 1, 15, 3, by decide +kernel⟩
theorem wit_WerokJobsStartEndAndFault_2 : ∃ (s : State) (c : Fin 16) (q : Fin 4) (i : Fin 8) (d : List Byte), s.live =
    true ∧ (s.clu c).picked = some q.val ∧ s.queueReady c q = true ∧ s.dispatchStopped c = false ∧ s.answersAt
    (s.headEntry c q) 64 ∧ s.cut (1 + c / 8) 0 = false ∧ d = s.memBytes (s.headEntry c q) 64 ∧ s.badDesc c d = false ∧
    (fieldAt d 5 1).testBit 1 = false ∧ s.engFree c i = true ∧ ((fieldAt d 4 1 = 0 ∨ (fieldAt d 4 1).testBit i = true)) ∧
    ((∀ k : Fin 8, k < i → s.engFree c k = false ∨ (fieldAt d 4 1 ≠ 0 ∧ (fieldAt d 4 1).testBit k = false))) :=
  ⟨(((usable.setFld (engA 15) ENG_QCFG_QEN 8).wr (engA 15 + ENG_QPTR + 12) 0xFFFF0000).setClu 15 { picked := some 3 }).setMemBytes 0 ([4, 0, 0, 0, 0x80, 5] ++ toBytes 2 0xFFFF ++ toBytes 8 7 ++ toBytes 4 0xFFFFFFFF ++ List.replicate 28 1 ++ List.replicate 16 0), 15, 3, 7, [4, 0, 0, 0, 0x80, 5] ++ toBytes 2 0xFFFF ++ toBytes 8 7 ++ toBytes 4 0xFFFFFFFF ++ List.replicate 28 1 ++ List.replicate 16 0, by decide +kernel⟩
theorem wit_WerokJobsStartEndAndFault_3 : ∃ (s : State) (c : Fin 16) (q : Fin 4), s.live = true ∧ (s.clu c).picked =
    some q.val ∧ s.queueReady c q = true ∧ s.dispatchStopped c = false :=
  ⟨((alive.setFld (engA 15) ENG_QCFG_QEN 8).wr (engA 15 + ENG_QPTR + 12) 0xFFFF0000).setClu 15 { picked := some 3 }, 15, 3, by decide +kernel⟩
theorem wit_WerokJobsStartEndAndFault_4 : ∃ (s : State) (e : Fin 128) (w : Nat) (j : WJob), s.atWord (.engine e) w =
    true ∧ opKey w = key 0x2C 3 ∧ (s.core (.engine e)).job = some j ∧ j.comp = 0 ∧ j.queue < 4 :=
  ⟨coreAt (.engine 127) 0xFFFC (wA 0x2C 0 0 0 3) { job := some ⟨0xFFFF, 3, true, false, 5, 0⟩ }, 127, wA 0x2C 0 0 0 3, ⟨0xFFFF, 3, true, false, 5, 0⟩, by decide +kernel⟩
theorem wit_WerokJobsStartEndAndFault_5 : ∃ (s : State) (e : Fin 128) (w : Nat) (j : WJob), s.atWord (.engine e) w =
    true ∧ opKey w = key 0x2C 0xB ∧ (s.core (.engine e)).job = some j ∧ j.comp ≠ 0 ∧ s.answersAt j.comp 8 ∧ s.cut (1 + e /
    64) 0 = false :=
  ⟨(coreAt (.engine 127) 0xFFFC (wA 0x2C 0 30 0 0xB) { x := [(30, 0xFFFFFFFF)], job := some ⟨0xFFFF, 3, true, false, 5, 0x3FFFFFF8⟩ }).setFld dmcA DMC_USABLE_MIB 1024, 127, wA 0x2C 0 30 0 0xB, ⟨0xFFFF, 3, true, false, 5, 0x3FFFFFF8⟩, by decide +kernel⟩
theorem wit_WerokJobsStartEndAndFault_6 : ∃ (s : State) (e : Fin 128) (x : Bool), s.live = true ∧ s.issues (.engine e)
    = true ∧ (x || !s.pcIn (.engine e) || !opAssigned (.engine e) (s.core (.engine e)).fetch) = true ∧ (s.core (.engine
    e)).sb = [] ∧ (s.core (.engine e)).job = none ∧ (s.recentTimes e).length < 4 :=
  ⟨coreAt (.engine 127) 0xFFFC 0xFFFFFFFF { }, 127, false, by decide +kernel⟩
theorem wit_WerokJobsStartEndAndFault_7 : ∃ (s : State) (k : Fin 4) (x : Bool), s.live = true ∧ s.issues (.steward k)
    = true ∧ (x || !s.pcIn (.steward k) || !opAssigned (.steward k) (s.core (.steward k)).fetch) = true ∧ (s.core
    (.steward k)).sb = [] :=
  ⟨coreAt (.steward 3) 0x3FFFC 0xC0000000 { loaded := true }, 3, false, by decide +kernel⟩
theorem wit_WerokJobsStartEndAndFault_8 : ∃ (s : State) (e : Fin 128) (j : WJob), s.live = true ∧ (s.core (.engine
    e)).job = some j ∧ j.budget ≠ 0 ∧ j.comp = 0 ∧ j.irq = false ∧ (s.core (.engine e)).sb = [] ∧ (s.recentTimes e).length
    < 4 :=
  ⟨coreAt (.engine 127) 0 0 { job := some ⟨0xFFFF, 3, false, false, 1, 0⟩ }, 127, ⟨0xFFFF, 3, false, false, 1, 0⟩, by decide +kernel⟩
theorem wit_WerokJobsStartEndAndFault_9 : ∃ (s : State) (e : Fin 128), s.live = true ∧ e.val ∉ s.flt.enginesRetired :=
  ⟨alive.setFld (engA 15) ENG_STATUS_FAULT 0x80, 127, by decide +kernel⟩
theorem wit_ClustersLoadGateWakeAndHostReadsReturn_1 : ∃ (s : State) (r : Req) (c : Fin 16) (v : Word), s.live = true
    ∧ s.cut r.die (1 + c / 8) = false ∧ v.toNat.testBit 31 = true :=
  ⟨alive, .host, 15, 0xFFFFFFFF, by decide +kernel⟩
theorem wit_ClustersLoadGateWakeAndHostReadsReturn_2 : ∃ (s : State) (c : Fin 16) (p : List Byte), s.live = true ∧
    s.flag (engA c) ENG_FWCTL_GO = true ∧ ((∀ i : Fin 8, (s.eng c i).run = false)) ∧ s.fwPayload c = (some p, s) ∧ wrfwOk
    p = true :=
  ⟨(usable.setFlag (engA 15) ENG_FWCTL_GO true).setMemBytes 0 engineFw, 15, engineFw, by decide +kernel⟩
theorem wit_ClustersLoadGateWakeAndHostReadsReturn_3 : ∃ (s : State) (c : Fin 16), s.live = true ∧ s.flag (engA c)
    ENG_FWCTL_GO = true ∧ ((∀ i : Fin 8, (s.eng c i).run = false)) :=
  ⟨alive.setFlag (engA 15) ENG_FWCTL_GO true, 15, by decide +kernel⟩
theorem wit_ClustersLoadGateWakeAndHostReadsReturn_4 : ∃ (s : State) (c : Fin 16), s.live = true ∧ s.flag (engA c)
    ENG_CTRL_GATE_EN = true ∧ s.flag (engA c) ENG_STATUS_GATED = false ∧ ((∀ i : Fin 8, (s.eng c i).run = false ∧ (s.eng c
    i).sb = [])) ∧ ((∀ i : Fin 8, (s.eng c i).cache.all (fun l => !l.dirty) = true)) ∧ ((∀ q : Fin 4, s.qOn c q = false ∨
    s.qLevel c q = 0)) :=
  ⟨alive.setFlag (engA 15) ENG_CTRL_GATE_EN true, 15, by decide +kernel⟩
theorem wit_ClustersLoadGateWakeAndHostReadsReturn_5 : ∃ (s : State) (c : Fin 16) (i : Fin 8) (a : Nat) (d : List
    Byte), s.live = true ∧ s.flag (engA c) ENG_CTRL_GATE_EN = true ∧ s.flag (engA c) ENG_STATUS_GATED = false ∧ ((∀ k :
    Fin 8, (s.eng c k).run = false ∧ (s.eng c k).sb = [])) ∧ (s.eng c i).cache = [⟨a, d, true⟩] ∧ d.length = 64 ∧ ((∀ k :
    Fin 8, k ≠ i → (s.eng c k).cache = [])) ∧ ((∀ q : Fin 4, s.qOn c q = false ∨ s.qLevel c q = 0)) ∧ s.answersAt a 64 ∧
    s.cut (1 + c / 8) 0 = false :=
  ⟨((usable.setFlag (engA 15) ENG_CTRL_GATE_EN true).setCore (.engine 127) { cache := [⟨0x3FFFFFC0, List.replicate 64 7, true⟩] }), 15, 7, 0x3FFFFFC0, List.replicate 64 7, by decide +kernel⟩
theorem wit_ClustersLoadGateWakeAndHostReadsReturn_6 : ∃ (s : State) (c : Fin 16), s.live = true ∧ (s.clu c).waking =
    true :=
  ⟨alive.setClu 15 { waking := true }, 15, by decide +kernel⟩
theorem wit_ClustersLoadGateWakeAndHostReadsReturn_7 : ∃ (s : State) (e : Fin 128) (a : Nat) (n : Nat) (h : Nat),
    s.live = true ∧ s.pcie.outs = [⟨.engine e, a, n⟩] ∧ s.hostAddr a = some h ∧ (s.core (.engine e)).asks = [⟨a, n, none⟩]
    :=
  ⟨((alive.setFlag pcieA (PCIE_OB_LO_V.nth 8 15) true).withPcie { outs := [⟨.engine 127, 0xBFFFFFFFFC, 4⟩] }).setCore (.engine 127) { asks := [⟨0xBFFFFFFFFC, 4, none⟩] }, 127, 0xBFFFFFFFFC, 4, 0x3FFFFFFFC, by decide +kernel⟩
theorem wit_ClustersLoadGateWakeAndHostReadsReturn_8 : ∃ (s : State) (e : Fin 128) (a : Nat) (n : Nat), s.live = true
    ∧ s.pcie.outs = [⟨.engine e, a, n⟩] ∧ (s.core (.engine e)).asks = [⟨a, n, none⟩] :=
  ⟨(alive.withPcie { outs := [⟨.engine 127, 0xBFFFFFFFFC, 4⟩] }).setCore (.engine 127) { asks := [⟨0xBFFFFFFFFC, 4, none⟩] }, 127, 0xBFFFFFFFFC, 4, by decide +kernel⟩
theorem wit_ClustersLoadGateWakeAndHostReadsReturn_9 : ∃ (s : State) (v : Fin 8) (a : Nat) (n : Nat) (h : Nat), s.live
    = true ∧ s.pcie.outs = [⟨.codec v, a, n⟩] ∧ s.hostAddr a = some h :=
  ⟨(alive.setFlag pcieA (PCIE_OB_LO_V.nth 8 0) true).withPcie { outs := [⟨.codec 7, 0x8000000000, 4⟩] }, 7, 0x8000000000, 4, 0, by decide +kernel⟩
theorem wit_WerokVectorLanes_1 : ∃ (s : State) (u : WCore) (w : Nat) (i : Nat) (b : Nat) (d : Nat) (x : Nat) (y : Nat)
    (p : Int) (q : Int) (e : OpRow Nat), s.atWord u w = true ∧ b = widthOf (bits w 7 6) ∧ i < 512 / b ∧ d = lane (s.vr u
    (bits w 25 21)) b i ∧ x = lane (s.vr u (bits w 20 16)) b i ∧ y = lane (s.vr u (bits w 15 11)) b i ∧ p = toSigned b x ∧
    q = toSigned b y ∧ opKey w = e.key ∧ e ∈ ([⟨.vadd u, key 0x30 0x00, x + y⟩, ⟨.vsub u, key 0x30 0x01, x + 2 ^ b - y⟩,
    ⟨.vadds u, key 0x30 0x02, satS b (p + q)⟩, ⟨.vsubs u, key 0x30 0x03, satS b (p - q)⟩, ⟨.vmul u, key 0x30 0x04, x * y⟩,
    ⟨.vmulh u, key 0x30 0x05, ofSigned b (p * q / 2 ^ b)⟩, ⟨.vmac u, key 0x30 0x06, d + x * y⟩, ⟨.vmin u, key 0x30 0x07,
    if p ≤ q then x else y⟩, ⟨.vmax u, key 0x30 0x08, if p ≤ q then y else x⟩, ⟨.vand u, key 0x30 0x09, x &&& y⟩, ⟨.vor u,
    key 0x30 0x0A, x ||| y⟩, ⟨.vxor u, key 0x30 0x0B, x ^^^ y⟩, ⟨.vshl u, key 0x30 0x0C, x * 2 ^ (y % b)⟩, ⟨.vshr u, key
    0x30 0x0D, x / 2 ^ (y % b)⟩, ⟨.vsra u, key 0x30 0x0E, ofSigned b (p / 2 ^ (y % b))⟩] : List (OpRow Nat)) :=
  ⟨coreAt (.engine 127) 0xFFFC (wD 48 31 30 29 3 2 14) { m := [(3, some 0xA5A5A5A5F0F0C3C3)], v := [(29, some 0xB0EC2864A0DC185490CC084480BCF83470ACE824609CD814508CC804407CB8F4306CA8E4205C98D4104C88C4003C78B4F02C68A4E01C5894D00C4884C0FC3874), (30, some 0x106ECC2A88E644A2005EBC1A78D63492F04EAC0A68C62482E03E9CFA58B61472D02E8CEA48A60462C01E7CDA3896F452B00E6CCA2886E442A0FE5CBA1876D432), (31, some 0xB03CC854E06CF884109C28B440CC58E470FC8814A02CB844D05CE874008C18A430BC48D460EC7804901CA834C04CD864F07C089420AC38C450DC68F4800C9824)] }, (.engine 127), (wD 48 31 30 29 3 2 14), 15, 32, 2956773460, 275696682, 2968266852, 275696682, -1326700444, ⟨.vsra (.engine 127), key 0x30 0x0E, ofSigned 32 ((275696682 : Int) / 2 ^ ((2968266852 : Nat) % 32))⟩, by decide +kernel⟩
theorem wit_WerokVectorLanes_2 : ∃ (s : State) (u : WCore) (w : Nat) (i : Nat) (b : Nat) (d : Nat) (x : Nat) (y : Nat)
    (p : Int) (q : Int) (e : OpRow Nat), s.atWord u w = true ∧ b = widthOf (bits w 7 6) ∧ i < 512 / b ∧ d = lane (s.vr u
    (bits w 25 21)) b i ∧ x = lane (s.vr u (bits w 20 16)) b i ∧ y = lane (s.vr u (bits w 15 11)) b i ∧ p = toSigned b x ∧
    q = toSigned b y ∧ opKey w = e.key ∧ e ∈ ([⟨.vfadd u, key 0x31 0x00, (fmtOf b).round (((fmtOf b).val x).add ((fmtOf
    b).val y))⟩, ⟨.vfsub u, key 0x31 0x01, (fmtOf b).round (((fmtOf b).val x).add ((fmtOf b).val y).neg)⟩, ⟨.vfmul u, key
    0x31 0x02, (fmtOf b).round (((fmtOf b).val x).mul ((fmtOf b).val y))⟩, ⟨.vfma u, key 0x31 0x03, (fmtOf b).round
    (((fmtOf b).val d).add (((fmtOf b).val x).mul ((fmtOf b).val y)))⟩, ⟨.vfmin u, key 0x31 0x04, (fmtOf b).round (((fmtOf
    b).val x).minNum ((fmtOf b).val y))⟩, ⟨.vfmax u, key 0x31 0x05, (fmtOf b).round (((fmtOf b).val x).maxNum ((fmtOf
    b).val y))⟩, ⟨.vcvtf u, key 0x31 0x0A, (fmtOf b).round (.ofInt p)⟩] : List (OpRow Nat)) :=
  ⟨coreAt (.engine 127) 0xFFFC (wD 49 31 30 29 3 2 10) { m := [(3, some 0xA5A5A5A5F0F0C3C3)], v := [(29, some 0x800000007F800000FF8000007FC00001800000003F80000000000001FF7FFFFF7F7FFFFF3F80000000000001FF7FFFFF7F7FFFFF7F800000FF8000007FC00001), (30, some 0x7F800000FF8000007FC00001800000007F800000FF8000007FC00001800000003F80000000000001FF7FFFFF7F7FFFFF3F80000000000001FF7FFFFF7F7FFFFF), (31, some 0xB03CC854E06CF884109C28B440CC58E470FC8814A02CB844D05CE874008C18A430BC48D460EC7804901CA834C04CD864F07C089420AC38C450DC68F4800C9824)] }, (.engine 127), (wD 49 31 30 29 3 2 10), 2, 32, 548157636, 1, 2139095040, 1, 2139095040, ⟨.vcvtf (.engine 127), key 0x31 0x0A, (fmtOf 32).round (.ofInt (1 : Int))⟩, by decide +kernel⟩
theorem wit_WerokVectorLanes_3 : ∃ (s : State) (u : WCore) (w : Nat) (i : Nat) (b : Nat) (d : Nat) (x : Nat) (y : Nat)
    (p : Int) (q : Int) (e : OpRow FVal), s.atWord u w = true ∧ b = widthOf (bits w 7 6) ∧ i < 512 / b ∧ d = lane (s.vr u
    (bits w 25 21)) b i ∧ x = lane (s.vr u (bits w 20 16)) b i ∧ y = lane (s.vr u (bits w 15 11)) b i ∧ p = toSigned b x ∧
    q = toSigned b y ∧ opKey w = e.key ∧ e ∈ ([⟨.vfrcp u, key 0x31 0x06, (FVal.fin false 1 1 0).div ((fmtOf b).val x)⟩,
    ⟨.vfrsq u, key 0x31 0x07, ((fmtOf b).val x).rsqrt⟩] : List (OpRow FVal)) :=
  ⟨coreAt (.engine 127) 0xFFFC (wD 49 31 30 29 3 2 7) { m := [(3, some 0xA5A5A5A5F0F0C3C3)], v := [(29, some 0x800000007F800000FF8000007FC00001800000003F80000000000001FF7FFFFF7F7FFFFF3F80000000000001FF7FFFFF7F7FFFFF7F800000FF8000007FC00001), (30, some 0x7F800000FF8000007FC00001800000007F800000FF8000007FC00001800000003F80000000000001FF7FFFFF7F7FFFFF3F80000000000001FF7FFFFF7F7FFFFF), (31, some 0xB03CC854E06CF884109C28B440CC58E470FC8814A02CB844D05CE874008C18A430BC48D460EC7804901CA834C04CD864F07C089420AC38C450DC68F4800C9824)] }, (.engine 127), (wD 49 31 30 29 3 2 7), 2, 32, 548157636, 1, 2139095040, 1, 2139095040, ⟨.vfrsq (.engine 127), key 0x31 0x07, ((fmtOf 32).val (1 : Nat)).rsqrt⟩, by decide +kernel⟩
theorem wit_WerokVectorLanes_4 : ∃ (s : State) (u : WCore) (w : Nat) (i : Nat) (b : Nat) (d : Nat) (x : Nat) (y : Nat)
    (p : Int) (q : Int) (e : OpRow Bool), s.atWord u w = true ∧ b = widthOf (bits w 7 6) ∧ i < 64 ∧ d = lane (s.vr u (bits
    w 25 21)) b i ∧ x = lane (s.vr u (bits w 20 16)) b i ∧ y = lane (s.vr u (bits w 15 11)) b i ∧ p = toSigned b x ∧ q =
    toSigned b y ∧ opKey w = e.key ∧ e ∈ ([⟨.vcmpeq u, key 0x30 0x10, decide (x = y)⟩, ⟨.vcmplt u, key 0x30 0x11, decide
    (p < q)⟩, ⟨.vcmpltu u, key 0x30 0x12, decide (x < y)⟩, ⟨.vfcmplt u, key 0x31 0x08, ((fmtOf b).val x).lt ((fmtOf b).val
    y)⟩, ⟨.vfcmpeq u, key 0x31 0x09, ((fmtOf b).val x).eq ((fmtOf b).val y)⟩] : List (OpRow Bool)) :=
  ⟨coreAt (.engine 127) 0xFFFC (wD 49 7 30 29 3 2 9) { m := [(3, some 0xA5A5A5A5F0F0C3C3), (7, some 0x8000000000000001)], v := [(29, some 0x800000007F800000FF8000007FC00001800000003F80000000000001FF7FFFFF7F7FFFFF3F80000000000001FF7FFFFF7F7FFFFF7F800000FF8000007FC00001), (30, some 0x7F800000FF8000007FC00001800000007F800000FF8000007FC00001800000003F80000000000001FF7FFFFF7F7FFFFF3F80000000000001FF7FFFFF7F7FFFFF), (7, some 0xB03CC854E06CF884109C28B440CC58E470FC8814A02CB844D05CE874008C18A430BC48D460EC7804901CA834C04CD864F07C089420AC38C450DC68F4800C9824)] }, (.engine 127), (wD 49 7 30 29 3 2 9), 2, 32, 548157636, 1, 2139095040, 1, 2139095040, ⟨.vfcmpeq (.engine 127), key 0x31 0x09, ((fmtOf 32).val (1 : Nat)).eq ((fmtOf 32).val (2139095040 : Nat))⟩, by decide +kernel⟩
theorem wit_WerokVectorLanes_5 : ∃ (s : State) (u : WCore) (w : Nat) (i : Nat) (b : Nat), s.atWord u w = true ∧ b =
    widthOf (bits w 7 6) ∧ i < 512 / b ∧ opKey w = key 0x30 0x0F :=
  ⟨coreAt (.engine 127) 0xFFFC (wD 0x30 31 30 29 3 0 0x0F) { m := [(3, some 0xA5A5A5A5F0F0C3C3)], v := [(29, some 0xB0EC2864A0DC185490CC084480BCF83470ACE824609CD814508CC804407CB8F4306CA8E4205C98D4104C88C4003C78B4F02C68A4E01C5894D00C4884C0FC3874), (30, some 0x106ECC2A88E644A2005EBC1A78D63492F04EAC0A68C62482E03E9CFA58B61472D02E8CEA48A60462C01E7CDA3896F452B00E6CCA2886E442A0FE5CBA1876D432), (31, some 0xB03CC854E06CF884109C28B440CC58E470FC8814A02CB844D05CE874008C18A430BC48D460EC7804901CA834C04CD864F07C089420AC38C450DC68F4800C9824)] }, (.engine 127), (wD 0x30 31 30 29 3 0 0x0F), 63, 8, by decide +kernel⟩
theorem wit_WerokVectorMovesReductionsAndMemory_1 : ∃ (s : State) (u : WCore) (w : Nat) (i : Nat) (b : Nat) (d : Nat)
    (e : OpRow Nat), s.atWord u w = true ∧ b = 2 * widthOf (bits w 7 6) ∧ bits w 7 6 < 2 ∧ i < 512 / b ∧ d = lane (s.vr u
    (bits w 25 21)) b i ∧ opKey w = e.key ∧ e ∈ ([⟨.vxtl u, key 0x30 0x13, ofSigned b (toSigned (b / 2) (lane (s.vr u
    (bits w 20 16)) (b / 2) i))⟩, ⟨.vxth u, key 0x30 0x14, ofSigned b (toSigned (b / 2) (lane (s.vr u (bits w 20 16)) (b /
    2) (512 / b + i)))⟩] : List (OpRow Nat)) :=
  ⟨coreAt (.engine 127) 0xFFFC (wD 0x30 31 30 29 3 0 19) { m := [(3, some 0xA5A5A5A5F0F0C3C3), (7, some 0x8000000000000001)], v := [(29, some 0xB0EC2864A0DC185490CC084480BCF83470ACE824609CD814508CC804407CB8F4306CA8E4205C98D4104C88C4003C78B4F02C68A4E01C5894D00C4884C0FC3874), (30, some 0x106ECC2A88E644A2005EBC1A78D63492F04EAC0A68C62482E03E9CFA58B61472D02E8CEA48A60462C01E7CDA3896F452B00E6CCA2886E442A0FE5CBA1876D432), (31, some 0xB03CC854E06CF884109C28B440CC58E470FC8814A02CB844D05CE874008C18A430BC48D460EC7804901CA834C04CD864F07C089420AC38C450DC68F4800C9824)] }, (.engine 127), (wD 0x30 31 30 29 3 0 19), 0, 16, 38948, ⟨.vxtl (.engine 127), key 0x30 19, 50⟩, by decide +kernel⟩
theorem wit_WerokVectorMovesReductionsAndMemory_2 : ∃ (s : State) (u : WCore) (w : Nat) (i : Nat) (b : Nat) (d : Nat)
    (e : OpRow Nat), s.atWord u w = true ∧ b = widthOf (bits w 7 6) / 2 ∧ 0 < bits w 7 6 ∧ i < 512 / b ∧ d = lane (s.vr u
    (bits w 25 21)) b i ∧ opKey w = e.key ∧ e ∈ ([⟨.vpack u, key 0x30 0x15, satS b (if i < 256 / b then toSigned (2 * b)
    (lane (s.vr u (bits w 20 16)) (2 * b) i) else toSigned (2 * b) (lane (s.vr u (bits w 15 11)) (2 * b) (i - 256 / b)))⟩]
    : List (OpRow Nat)) :=
  ⟨coreAt (.engine 127) 0xFFFC (wD 0x30 31 30 29 3 1 0x15) { m := [(3, some 0xA5A5A5A5F0F0C3C3), (7, some 0x8000000000000001)], v := [(29, some 0xB0EC2864A0DC185490CC084480BCF83470ACE824609CD814508CC804407CB8F4306CA8E4205C98D4104C88C4003C78B4F02C68A4E01C5894D00C4884C0FC3874), (30, some 0x106ECC2A88E644A2005EBC1A78D63492F04EAC0A68C62482E03E9CFA58B61472D02E8CEA48A60462C01E7CDA3896F452B00E6CCA2886E442A0FE5CBA1876D432), (31, some 0xB03CC854E06CF884109C28B440CC58E470FC8814A02CB844D05CE874008C18A430BC48D460EC7804901CA834C04CD864F07C089420AC38C450DC68F4800C9824)] }, (.engine 127), (wD 0x30 31 30 29 3 1 0x15), 0, 8, 36, ⟨.vpack (.engine 127), key 0x30 0x15, 128⟩, by decide +kernel⟩
theorem wit_WerokVectorMovesReductionsAndMemory_3 : ∃ (s : State) (u : WCore) (w : Nat) (e : OpRow Nat), s.atWord u w
    = true ∧ opKey w = e.key ∧ bits w 7 6 = e.value ∧ e ∈ ([⟨.vxtl u, key 0x30 0x13, 2⟩, ⟨.vxth u, key 0x30 0x14, 2⟩,
    ⟨.vpack u, key 0x30 0x15, 0⟩] : List (OpRow Nat)) :=
  ⟨coreAt (.engine 127) 0xFFFC (wD 0x30 31 30 29 3 2 19) { m := [(3, some 0xA5A5A5A5F0F0C3C3), (7, some 0x8000000000000001)], v := [(29, some 0xB0EC2864A0DC185490CC084480BCF83470ACE824609CD814508CC804407CB8F4306CA8E4205C98D4104C88C4003C78B4F02C68A4E01C5894D00C4884C0FC3874), (30, some 0x106ECC2A88E644A2005EBC1A78D63492F04EAC0A68C62482E03E9CFA58B61472D02E8CEA48A60462C01E7CDA3896F452B00E6CCA2886E442A0FE5CBA1876D432), (31, some 0xB03CC854E06CF884109C28B440CC58E470FC8814A02CB844D05CE874008C18A430BC48D460EC7804901CA834C04CD864F07C089420AC38C450DC68F4800C9824)] }, (.engine 127), (wD 0x30 31 30 29 3 2 19), ⟨.vxtl (.engine 127), key 0x30 19, 2⟩, by decide +kernel⟩
theorem wit_WerokVectorMovesReductionsAndMemory_4 : ∃ (s : State) (u : WCore) (w : Nat) (i : Nat) (b : Nat) (d : Nat)
    (e : OpRow Nat), s.atWord u w = true ∧ b = 32 ∧ i < 16 ∧ d = lane (s.vr u (bits w 25 21)) 32 i ∧ opKey w = e.key ∧ e ∈
    ([⟨.vfwidl u, key 0x31 0x0C, f32.round (f16.val (lane (s.vr u (bits w 20 16)) 16 i))⟩, ⟨.vfwidh u, key 0x31 0x0D,
    f32.round (f16.val (lane (s.vr u (bits w 20 16)) 16 (16 + i)))⟩] : List (OpRow Nat)) :=
  ⟨coreAt (.engine 127) 0xFFFC (wD 0x31 31 30 29 3 2 12) { m := [(3, some 0xA5A5A5A5F0F0C3C3), (7, some 0x8000000000000001)], v := [(29, some 0xB0EC2864A0DC185490CC084480BCF83470ACE824609CD814508CC804407CB8F4306CA8E4205C98D4104C88C4003C78B4F02C68A4E01C5894D00C4884C0FC3874), (30, some 0x7C00FC007E0180003C000001FBFF7BFF7C00FC007E0180003C000001FBFF7BFF7C00FC007E0180003C000001FBFF7BFF7C00FC007E0180003C000001FBFF7BFF), (31, some 0xB03CC854E06CF884109C28B440CC58E470FC8814A02CB844D05CE874008C18A430BC48D460EC7804901CA834C04CD864F07C089420AC38C450DC68F4800C9824)] }, (.engine 127), (wD 0x31 31 30 29 3 2 12), 0, 32, 2148309028, ⟨.vfwidl (.engine 127), key 0x31 12, f32.round (f16.val 31743)⟩, by decide +kernel⟩
theorem wit_WerokVectorMovesReductionsAndMemory_5 : ∃ (s : State) (u : WCore) (w : Nat) (i : Nat) (b : Nat) (d : Nat)
    (e : OpRow Nat), s.atWord u w = true ∧ b = 16 ∧ i < 32 ∧ d = lane (s.vr u (bits w 25 21)) 16 i ∧ opKey w = e.key ∧ e ∈
    ([⟨.vfnarr u, key 0x31 0x0E, f16.round (f32.val (if i < 16 then lane (s.vr u (bits w 20 16)) 32 i else lane (s.vr u
    (bits w 15 11)) 32 (i - 16)))⟩] : List (OpRow Nat)) :=
  ⟨coreAt (.engine 127) 0xFFFC (wD 0x31 31 30 29 3 2 0x0E) { m := [(3, some 0xA5A5A5A5F0F0C3C3), (7, some 0x8000000000000001)], v := [(29, some 0xB0EC2864A0DC185490CC084480BCF83470ACE824609CD814508CC804407CB8F4306CA8E4205C98D4104C88C4003C78B4F02C68A4E01C5894D00C4884C0FC3874), (30, some 0x7F800000FF8000007FC00001800000007F800000FF8000007FC00001800000003F80000000000001FF7FFFFF7F7FFFFF3F80000000000001FF7FFFFF7F7FFFFF), (31, some 0xB03CC854E06CF884109C28B440CC58E470FC8814A02CB844D05CE874008C18A430BC48D460EC7804901CA834C04CD864F07C089420AC38C450DC68F4800C9824)] }, (.engine 127), (wD 0x31 31 30 29 3 2 0x0E), 0, 16, 38948, ⟨.vfnarr (.engine 127), key 0x31 0x0E, f16.round (f32.val 2139095039)⟩, by decide +kernel⟩
theorem wit_WerokVectorMovesReductionsAndMemory_6 : ∃ (s : State) (u : WCore) (w : Nat) (i : Nat) (b : Nat) (x :
    FVal), s.atWord u w = true ∧ b = widthOf (bits w 7 6) ∧ i < 512 / b ∧ opKey w = key 0x31 0x0B ∧ x = (fmtOf b).val
    (lane (s.vr u (bits w 20 16)) b i) :=
  ⟨coreAt (.engine 127) 0xFFFC (wD 0x31 31 30 29 3 1 0x0B) { m := [(3, some 0xA5A5A5A5F0F0C3C3), (7, some 0x8000000000000001)], v := [(29, some 0xB0EC2864A0DC185490CC084480BCF83470ACE824609CD814508CC804407CB8F4306CA8E4205C98D4104C88C4003C78B4F02C68A4E01C5894D00C4884C0FC3874), (30, some 0x7C00FC007E0180003C000001FBFF7BFF7C00FC007E0180003C000001FBFF7BFF7C00FC007E0180003C000001FBFF7BFF7C00FC007E0180003C000001FBFF7BFF), (31, some 0xB03CC854E06CF884109C28B440CC58E470FC8814A02CB844D05CE874008C18A430BC48D460EC7804901CA834C04CD864F07C089420AC38C450DC68F4800C9824)] }, (.engine 127), (wD 0x31 31 30 29 3 1 0x0B), 0, 16, (fmtOf 16).val 31743, by decide +kernel⟩
theorem wit_WerokVectorMovesReductionsAndMemory_7 : ∃ (s : State) (u : WCore) (w : Nat) (i : Nat) (b : Nat) (d : Nat)
    (e : OpRow Nat), s.atWord u w = true ∧ b = widthOf (bits w 7 6) ∧ i < 512 / b ∧ d = lane (s.vr u (bits w 25 21)) b i ∧
    opKey w = e.key ∧ e ∈ ([⟨.vbcst u, key 0x36 0x00, (s.xr u (bits w 20 16)).toNat⟩, ⟨.vins u, key 0x36 0x02, if i =
    (s.xr u (bits w 15 11)).toNat % (512 / b) then (s.xr u (bits w 20 16)).toNat else d⟩, ⟨.vperm u, key 0x36 0x03, lane
    (s.vr u (bits w 20 16)) b (lane (s.vr u (bits w 15 11)) b i % (512 / b))⟩] : List (OpRow Nat)) :=
  ⟨coreAt (.engine 127) 0xFFFC (wD 0x36 31 28 29 3 0 0x00) { x := [(28, 0xFFFFFFF5)], m := [(3, some 0xA5A5A5A5F0F0C3C3), (7, some 0x8000000000000001)], v := [(29, some 0xB0EC2864A0DC185490CC084480BCF83470ACE824609CD814508CC804407CB8F4306CA8E4205C98D4104C88C4003C78B4F02C68A4E01C5894D00C4884C0FC3874), (30, some 0x106ECC2A88E644A2005EBC1A78D63492F04EAC0A68C62482E03E9CFA58B61472D02E8CEA48A60462C01E7CDA3896F452B00E6CCA2886E442A0FE5CBA1876D432), (31, some 0xB03CC854E06CF884109C28B440CC58E470FC8814A02CB844D05CE874008C18A430BC48D460EC7804901CA834C04CD864F07C089420AC38C450DC68F4800C9824)] }, (.engine 127), (wD 0x36 31 28 29 3 0 0x00), 0, 8, 36, ⟨.vbcst (.engine 127), key 0x36 0, 0xFFFFFFF5⟩, by decide +kernel⟩
theorem wit_WerokVectorMovesReductionsAndMemory_8 : ∃ (s : State) (u : WCore) (w : Nat) (b : Nat) (l : List Int) (e :
    OpRow Word), s.atWord u w = true ∧ b = widthOf (bits w 7 6) ∧ l = ((List.range (512 / b)).filter (s.enabled u w)).map
    (fun i => toSigned b (lane (s.vr u (bits w 20 16)) b i)) ∧ opKey w = e.key ∧ e ∈ ([⟨.vext u, key 0x36 0x01,
    BitVec.ofInt 32 (toSigned b (lane (s.vr u (bits w 20 16)) b ((s.xr u (bits w 15 11)).toNat % (512 / b))))⟩, ⟨.vradd u,
    key 0x36 0x04, BitVec.ofInt 32 l.sum⟩, ⟨.vrmax u, key 0x36 0x05, BitVec.ofInt 32 (l.foldl max (-(2 : Int) ^ (b -
    1)))⟩, ⟨.vrmin u, key 0x36 0x06, BitVec.ofInt 32 (l.foldl min ((2 : Int) ^ (b - 1) - 1))⟩, ⟨.mget u, key 0x36 0x09, wd
    (if bits w 15 11 = 0 then s.mr u (bits w 20 16) % 2 ^ 32 else s.mr u (bits w 20 16) / 2 ^ 32)⟩] : List (OpRow Word))
    :=
  ⟨coreAt (.engine 127) 0xFFFC (wD 0x36 31 30 29 3 2 1) { x := [(29, 0xFFFFFFFF)], m := [(2, some 0), (3, some 0xA5A5A5A5F0F0C3C3)], v := [(30, some 0x106ECC2A88E644A2005EBC1A78D63492F04EAC0A68C62482E03E9CFA58B61472D02E8CEA48A60462C01E7CDA3896F452B00E6CCA2886E442A0FE5CBA1876D432)] }, (.engine 127), (wD 0x36 31 30 29 3 2 1), 32, [410440754, -1593942854, 1218839650, -802255638, 1488327794, -532767494, -1998175070, 275696682], ⟨.vext (.engine 127), key 0x36 1, 275696682⟩, by decide +kernel⟩
theorem wit_WerokVectorMovesReductionsAndMemory_9 : ∃ (s : State) (u : WCore) (w : Nat) (b : Nat), s.atWord u w = true
    ∧ b = widthOf (bits w 7 6) ∧ opKey w = key 0x36 0x07 :=
  ⟨coreAt (.engine 127) 0xFFFC (wD 0x36 31 30 29 3 2 7) { m := [(3, some 0xA5A5A5A5F0F0C3C3), (7, some 0x8000000000000001)], v := [(29, some 0xB0EC2864A0DC185490CC084480BCF83470ACE824609CD814508CC804407CB8F4306CA8E4205C98D4104C88C4003C78B4F02C68A4E01C5894D00C4884C0FC3874), (30, some 0x7F800000FF8000007FC00001800000007F800000FF8000007FC00001800000003F80000000000001FF7FFFFF7F7FFFFF3F80000000000001FF7FFFFF7F7FFFFF), (31, some 0xB03CC854E06CF884109C28B440CC58E470FC8814A02CB844D05CE874008C18A430BC48D460EC7804901CA834C04CD864F07C089420AC38C450DC68F4800C9824)] }, (.engine 127), (wD 0x36 31 30 29 3 2 7), 32, by decide +kernel⟩
theorem wit_WerokVectorMovesReductionsAndMemory_10 : ∃ (s : State) (u : WCore) (w : Nat), s.atWord u w = true ∧ opKey
    w = key 0x36 0x08 :=
  ⟨coreAt (.engine 127) 0xFFFC (wD 0x36 7 30 29 0 0 8) { x := [(29, 0xFFFFFFFF), (30, 5)], m := [(3, some 0xA5A5A5A5F0F0C3C3), (7, some 0x8000000000000001)], v := [(29, some 0xB0EC2864A0DC185490CC084480BCF83470ACE824609CD814508CC804407CB8F4306CA8E4205C98D4104C88C4003C78B4F02C68A4E01C5894D00C4884C0FC3874), (30, some 0x106ECC2A88E644A2005EBC1A78D63492F04EAC0A68C62482E03E9CFA58B61472D02E8CEA48A60462C01E7CDA3896F452B00E6CCA2886E442A0FE5CBA1876D432), (31, some 0xB03CC854E06CF884109C28B440CC58E470FC8814A02CB844D05CE874008C18A430BC48D460EC7804901CA834C04CD864F07C089420AC38C450DC68F4800C9824)] }, (.engine 127), (wD 0x36 7 30 29 0 0 8), by decide +kernel⟩
theorem wit_WerokVectorMovesReductionsAndMemory_11 : ∃ (s : State) (u : WCore) (w : Nat) (a : Word), s.atWord u w =
    true ∧ opKey w = key 0x32 0 ∧ (s.core u).asks = [] ∧ a = s.xr u (bits w 20 16) + 64 * (BitVec.ofNat 16 w).signExtend
    32 ∧ a.toNat % 64 = 0 ∧ a.toNat < u.dmemSize :=
  ⟨coreAt (.engine 127) 0xFFFC (wB 0x32 31 30 0x8000) { x := [(30, 0x21FFC0)], dmem := [(0x1FFFF, 7)], m := [(3, some 0xA5A5A5A5F0F0C3C3), (7, some 0x8000000000000001)], v := [(29, some 0xB0EC2864A0DC185490CC084480BCF83470ACE824609CD814508CC804407CB8F4306CA8E4205C98D4104C88C4003C78B4F02C68A4E01C5894D00C4884C0FC3874), (30, some 0x106ECC2A88E644A2005EBC1A78D63492F04EAC0A68C62482E03E9CFA58B61472D02E8CEA48A60462C01E7CDA3896F452B00E6CCA2886E442A0FE5CBA1876D432), (31, some 0xB03CC854E06CF884109C28B440CC58E470FC8814A02CB844D05CE874008C18A430BC48D460EC7804901CA834C04CD864F07C089420AC38C450DC68F4800C9824)] }, (.engine 127), (wB 0x32 31 30 0x8000), 0x1FFC0, by decide +kernel⟩
theorem wit_WerokVectorMovesReductionsAndMemory_12 : ∃ (s : State) (u : WCore) (w : Nat) (a : Word), s.atWord u w =
    true ∧ opKey w = key 0x33 0 ∧ a = s.xr u (bits w 20 16) + 64 * (BitVec.ofNat 16 w).signExtend 32 ∧ a.toNat % 64 = 0 ∧
    a.toNat < u.dmemSize :=
  ⟨coreAt (.engine 127) 0xFFFC (wB 0x33 31 30 0x8000) { x := [(30, 0x21FFC0)], dmem := [(0x1FFFF, 7)], m := [(3, some 0xA5A5A5A5F0F0C3C3), (7, some 0x8000000000000001)], v := [(29, some 0xB0EC2864A0DC185490CC084480BCF83470ACE824609CD814508CC804407CB8F4306CA8E4205C98D4104C88C4003C78B4F02C68A4E01C5894D00C4884C0FC3874), (30, some 0x106ECC2A88E644A2005EBC1A78D63492F04EAC0A68C62482E03E9CFA58B61472D02E8CEA48A60462C01E7CDA3896F452B00E6CCA2886E442A0FE5CBA1876D432), (31, some 0xB03CC854E06CF884109C28B440CC58E470FC8814A02CB844D05CE874008C18A430BC48D460EC7804901CA834C04CD864F07C089420AC38C450DC68F4800C9824)] }, (.engine 127), (wB 0x33 31 30 0x8000), 0x1FFC0, by decide +kernel⟩
theorem wit_WerokVectorMovesReductionsAndMemory_13 : ∃ (s : State) (u : WCore) (w : Nat) (n : Nat), s.atWord u w =
    true ∧ opKey w = key 0x34 0 ∧ (s.core u).asks = [] ∧ n = 2 ^ bits w 1 0 ∧ ((∀ i : Fin 64, i < 64 / n → s.laneAddr u w
    i % n = 0 ∧ s.laneAddr u w i < u.dmemSize)) :=
  ⟨coreAt (.engine 127) 0xFFFC (wA 0x34 31 30 29 2) { x := [(29, 0xFFFFFFF8), (30, 0x1FFFC)], dmem := putBytes [] 0x1FF80 (toBytes 128 0x0102030405060708090A0B0C0D0E0F101112131415161718191A1B1C1D1E1F20), m := [(3, some 0xA5A5A5A5F0F0C3C3), (7, some 0x8000000000000001)], v := [(29, some 0xB0EC2864A0DC185490CC084480BCF83470ACE824609CD814508CC804407CB8F4306CA8E4205C98D4104C88C4003C78B4F02C68A4E01C5894D00C4884C0FC3874), (30, some 0x106ECC2A88E644A2005EBC1A78D63492F04EAC0A68C62482E03E9CFA58B61472D02E8CEA48A60462C01E7CDA3896F452B00E6CCA2886E442A0FE5CBA1876D432), (31, some 0xB03CC854E06CF884109C28B440CC58E470FC8814A02CB844D05CE874008C18A430BC48D460EC7804901CA834C04CD864F07C089420AC38C450DC68F4800C9824)] }, (.engine 127), (wA 0x34 31 30 29 2), 4, by decide +kernel⟩
theorem wit_WerokVectorMovesReductionsAndMemory_14 : ∃ (s : State) (u : WCore) (w : Nat) (n : Nat), s.atWord u w =
    true ∧ opKey w = key 0x35 0 ∧ n = 2 ^ bits w 1 0 ∧ ((∀ i : Fin 64, i < 64 / n → s.laneAddr u w i % n = 0 ∧ s.laneAddr
    u w i < u.dmemSize)) ∧ ((∀ i j : Fin 64, i < 64 / n → j < 64 / n → i ≠ j → s.laneAddr u w i ≠ s.laneAddr u w j)) :=
  ⟨coreAt (.engine 127) 0xFFFC (wA 0x35 31 30 29 2) { x := [(29, 0xFFFFFFF8), (30, 0x1FFFC)], dmem := putBytes [] 0x1FF80 (toBytes 128 0x0102030405060708090A0B0C0D0E0F101112131415161718191A1B1C1D1E1F20), m := [(3, some 0xA5A5A5A5F0F0C3C3), (7, some 0x8000000000000001)], v := [(29, some 0xB0EC2864A0DC185490CC084480BCF83470ACE824609CD814508CC804407CB8F4306CA8E4205C98D4104C88C4003C78B4F02C68A4E01C5894D00C4884C0FC3874), (30, some 0x106ECC2A88E644A2005EBC1A78D63492F04EAC0A68C62482E03E9CFA58B61472D02E8CEA48A60462C01E7CDA3896F452B00E6CCA2886E442A0FE5CBA1876D432), (31, some 0xB03CC854E06CF884109C28B440CC58E470FC8814A02CB844D05CE874008C18A430BC48D460EC7804901CA834C04CD864F07C089420AC38C450DC68F4800C9824)] }, (.engine 127), (wA 0x35 31 30 29 2), 4, by decide +kernel⟩
theorem wit_DramChannelsQueueServeFreezeAndTrain_1 : ∃ (s : State) (n : Fin 16) (a : BitVec 34), s.live = true ∧
    s.chFrozen n = false ∧ s.flag (dchA n) DCH_STATUS_IN_USE = true ∧ a.toNat / 64 * 64 + 64 ≤ s.dataBytes ∧ (s.dch
    n).rdQ.length < 64 :=
  ⟨((alive.setFlag (dchA 15) DCH_STATUS_IN_USE true).setFld dmcA DMC_GEOM_CAP 2).setDch 15 { rdQ := List.replicate 63 ⟨0, false, 0, 0, 0, 0, [], false, false⟩ }, 15, 0x77FFFFFF, by decide +kernel⟩
theorem wit_DramChannelsQueueServeFreezeAndTrain_2 : ∃ (s : State) (n : Fin 16) (a : BitVec 34) (l : List Byte),
    s.live = true ∧ s.chFrozen n = false ∧ s.flag (dchA n) DCH_STATUS_IN_USE = true ∧ a.toNat + l.length ≤ s.dataBytes ∧
    l.length ≤ 64 - a.toNat % 64 ∧ (s.dch n).wrQ.length < 47 ∧ (s.dch n).level = false :=
  ⟨(((alive.setFlag (dchA 15) DCH_STATUS_IN_USE true).setFld dmcA DMC_GEOM_CAP 2).setDch 15 { wrQ := List.replicate 46 ⟨0, true, 0, 0, 0, 0, [], false, false⟩ }), 15, 0x3F, [1], by decide +kernel⟩
theorem wit_DramChannelsQueueServeFreezeAndTrain_3 : ∃ (s : State) (n : Fin 16), s.live = true ∧ s.chFrozen n = true
    :=
  ⟨alive.setFlag (dchA 15) DCH_STATUS_FROZEN true, 15, by decide +kernel⟩
theorem wit_DramChannelsQueueServeFreezeAndTrain_4 : ∃ (s : State) (n : Fin 16) (sub : Bool) (busy : List Nat) (q :
    DramReq) (a : Nat), s.live = true ∧ s.chFrozen n = false ∧ s.flag (dchA n) DCH_STATUS_IN_USE = true ∧ (s.dch n).rdQ =
    [q] ∧ (s.dch n).wrQ = [] ∧ (s.dch n).flight = [] ∧ (s.dch n).level = false ∧ (s.dch n).owed = [] ∧ q.write = false ∧
    q.scrub = false ∧ q.data = [] ∧ q.cls = 0 ∧ q.sub = b2n sub ∧ (s.bankOf q).1 ∉ busy ∧ s.devAddr n (q.addr / 64 * 64) =
    some a :=
  ⟨(((alive.setFlag (dchA 15) DCH_STATUS_IN_USE true).setFld dmcA DMC_CHCFG_PAIR_USE 0xFF).setDch 15 { rdQ := [⟨0x40, false, 0, 0, 0, 0, [], false, false⟩], slotB := 24 }), 15, true, [1], ⟨0x40, false, 0, 0, 0, 0, [], false, false⟩, 0xF40, by decide +kernel⟩
theorem wit_DramChannelsQueueServeFreezeAndTrain_5 : ∃ (s : State) (n : Fin 16) (sub : Bool) (busy : List Nat) (q :
    DramReq) (a : Nat), s.live = true ∧ s.chFrozen n = false ∧ s.flag (dchA n) DCH_STATUS_IN_USE = true ∧ (s.dch n).rdQ =
    [] ∧ (s.dch n).wrQ = [q] ∧ (s.dch n).flight = [] ∧ (s.dch n).level = true ∧ (s.dch n).owed = [] ∧ q.write = true ∧
    q.sub = b2n sub ∧ (s.bankOf q).1 ∉ busy ∧ q.addr % 32 = 0 ∧ q.data.length % 32 = 0 ∧ s.devAddr n q.addr = some a :=
  ⟨((alive.setFlag (dchA 15) DCH_STATUS_IN_USE true).setFld dmcA DMC_CHCFG_PAIR_USE 0xFF).setDch 15 { wrQ := [⟨0x20, true, 3, 0, 0, 7, List.replicate 32 9, false, false⟩], level := true }, 15, false, [1], ⟨0x20, true, 3, 0, 0, 7, List.replicate 32 9, false, false⟩, 0xF20, by decide +kernel⟩
theorem wit_DramChannelsQueueServeFreezeAndTrain_6 : ∃ (s : State) (n : Fin 16) (q : DramReq) (b : Bool) (rest : List
    DramFlight), s.live = true ∧ (s.dch n).flight = ⟨q, b⟩ :: rest ∧ q.write = false ∧ q.scrub = false ∧ (s.dch n).owed =
    [] ∧ (s.dch n).wrQ.length < 47 ∧ (s.dch n).level = false :=
  ⟨((alive.setFld (dchA 15) DCH_CECNT_LINK_CE 0xFFFF).setDch 15 { flight := [⟨⟨0x60, false, 3, 0, 0, 7, List.replicate 64 9, false, false⟩, true⟩], wrQ := List.replicate 46 ⟨0, true, 0, 0, 0, 0, [], false, false⟩ }), 15, ⟨0x60, false, 3, 0, 0, 7, List.replicate 64 9, false, false⟩, true, [], by decide +kernel⟩
theorem wit_DramChannelsQueueServeFreezeAndTrain_7 : ∃ (s : State) (n : Fin 16) (q : DramReq) (rest : List
    DramFlight), s.live = true ∧ (s.dch n).flight = ⟨q, false⟩ :: rest :=
  ⟨alive.setDch 15 { flight := [⟨⟨0x60, false, 3, 0, 0, 7, [], false, false⟩, false⟩] }, 15, ⟨0x60, false, 3, 0, 0, 7, [], false, false⟩, [], by decide +kernel⟩
theorem wit_DramChannelsQueueServeFreezeAndTrain_8 : ∃ (s : State) (n : Fin 16), s.live = true ∧ s.chFrozen n = false
    ∧ (s.dch n).held = false ∧ ((List.range 16).filter (fun k => k ≠ n.val && s.chFrozen k)).length < 2 :=
  ⟨(alive.setFlag (dchA 0) DCH_STATUS_FROZEN true).setDch 15 { rdQ := [⟨0x40, false, 0, 0, 0, 0, [], false, false⟩] }, 15, by decide +kernel⟩
theorem wit_DramChannelsQueueServeFreezeAndTrain_9 : ∃ (s : State) (n : Fin 16) (sub : Bool), s.live = true ∧ s.flag
    (dchA n) DCH_STATUS_IN_USE = true ∧ reservedSlot ((s.dch n).slot (b2n sub)) = false :=
  ⟨(alive.setFlag (dchA 15) DCH_STATUS_IN_USE true).setDch 15 { rows := [(63, 1), (0, 5)], slotB := 24 }, 15, true, by decide +kernel⟩
theorem wit_DramChannelsQueueServeFreezeAndTrain_10 : ∃ (s : State) (n : Fin 16) (sub : Bool), s.live = true ∧
    reservedSlot ((s.dch n).slot (b2n sub)) = true :=
  ⟨alive, 15, true, by decide +kernel⟩
theorem wit_DramChannelsQueueServeFreezeAndTrain_11 : ∃ (s : State) (n : Fin 16) (d : DieTemp) (e : DieTemp), s.live =
    true ∧ s.flag (dchA n) DCH_STATUS_IN_USE = true ∧ d.beyond = false ∧ e.beyond = true :=
  ⟨alive.setFlag (dchA 15) DCH_STATUS_IN_USE true, 15, ⟨0xFF, true, false⟩, ⟨3, false, true⟩, by decide +kernel⟩
theorem wit_DramChannelsQueueServeFreezeAndTrain_13 : ∃ (s : State) (n : Fin 16), s.live = true ∧ s.flag (dchA n)
    DCH_STATUS_IN_USE = true ∧ (s.dch n).retraining = false :=
  ⟨alive.setFlag (dchA 15) DCH_STATUS_IN_USE true, 15, by decide +kernel⟩
theorem wit_DramChannelsQueueServeFreezeAndTrain_14 : ∃ (s : State) (n : Fin 16), s.live = true ∧ s.flag (dchA n)
    DCH_STATUS_IN_USE = true ∧ (s.dch n).retraining = false :=
  ⟨alive.setFlag (dchA 15) DCH_STATUS_IN_USE true, 15, by decide +kernel⟩
theorem wit_DramChannelsQueueServeFreezeAndTrain_15 : ∃ (s : State) (n : Fin 16), s.live = true ∧ (s.dch n).retraining
    = true ∧ s.chFrozen n = false ∧ reservedSlot (s.dch n).slotA = false ∧ reservedSlot (s.dch n).slotB = false ∧ (((s.dch
    n).stepAt = none ∨ (s.dch n).stepAt.getD 0 + 8000 ≤ s.tick)) :=
  ⟨alive.setDch 15 { retraining := true, slotA := 1, slotB := 1 }, 15, by decide +kernel⟩
theorem wit_DramChannelsQueueServeFreezeAndTrain_16 : ∃ (s : State) (n : Fin 16) (f : BitVec 8), s.live = true ∧
    (s.dch n).retraining = true ∧ f.toNat < s.fld (dchA n) DCH_FOM_FOM_MIN :=
  ⟨(alive.setDch 15 { retraining := true }).setFld (dchA 15) DCH_FOM_FOM_MIN 1, 15, 0, by decide +kernel⟩
theorem wit_DramChannelsQueueServeFreezeAndTrain_17 : ∃ (s : State) (n : Fin 16), s.live = true ∧ s.thm.pause = false
    ∧ s.fld dmcA DMC_CTRL_SCRUB_HOURS ≠ 0 ∧ s.chFrozen n = false ∧ s.flag (dchA n) DCH_STATUS_IN_USE = true ∧ (s.dch
    n).rdQ.length < 64 :=
  ⟨(alive.setFlag (dchA 15) DCH_STATUS_IN_USE true).setDch 15 { scrubUnit := 5 }, 15, by decide +kernel⟩
theorem wit_DramChannelsQueueServeFreezeAndTrain_18 : ∃ (s : State), s.live = true :=
  ⟨alive.setFlag (dchA 15) DCH_STATUS_FROZEN true, by decide +kernel⟩
theorem wit_DramChannelsQueueServeFreezeAndTrain_19 : ∃ (s : State) (n : Fin 16) (u : Nat) (a : Nat), s.live = true ∧
    (s.dch n).diag = true ∧ u = s.fld (dchA n) DCH_DIAGADDR_UNIT ∧ 32 * u < s.dataBytes ∧ u ∉ (s.dch n).badUnits ∧
    s.devAddr n (32 * u) = some a :=
  ⟨(((alive.setFld dmcA DMC_GEOM_CAP 2).setFld dmcA DMC_CHCFG_PAIR_USE 0xFF).setFld (dchA 15) DCH_DIAGADDR_UNIT 1).setDch 15 { diag := true }, 15, 1, 0xF20, by decide +kernel⟩
theorem wit_DramChannelsQueueServeFreezeAndTrain_20 : ∃ (s : State), s.live = true :=
  ⟨alive, by decide +kernel⟩
theorem wit_DramChannelsQueueServeFreezeAndTrain_21 : ∃ (s : State) (v : Word) (a : Nat), s.live = true ∧ a = v.toNat
    % 256 * 2 ^ 32 + s.fld dmcA DMC_XLATE_LO_ADDR ∧ a < s.usableBytes ∧ s.pairs ≠ [] :=
  ⟨usable, 0, 0, by decide +kernel⟩
theorem wit_DramChannelsQueueServeFreezeAndTrain_22 : ∃ (s : State) (v : Word), s.live = true ∧ s.usableBytes ≤
    v.toNat % 256 * 2 ^ 32 + s.fld dmcA DMC_XLATE_LO_ADDR :=
  ⟨usable, 0xFFFFFFFF, by decide +kernel⟩
theorem wit_DramChannelsQueueServeFreezeAndTrain_23 : ∃ (s : State) (k : Fin 4) (v : Word), s.live = true ∧ s.locked =
    false ∧ v.toNat % 16 = 2 ^ k.val :=
  ⟨alive, 3, 0xFFFFFFF8, by decide +kernel⟩
theorem wit_DramChannelsQueueServeFreezeAndTrain_24 : ∃ (s : State) (k : Fin 4) (v : Word), s.live = true ∧ s.locked =
    false ∧ v.toNat % 16 ≠ 2 ^ k.val :=
  ⟨alive, 3, 4, by decide +kernel⟩
theorem wit_HubDmaChannelsRunPauseAndFail_1 : ∃ (s : State) (n : Fin 32), s.live = true ∧ s.dmaState n = 0 ∧
    s.dmaPaused n = false ∧ s.flag (dmaA n) DMA_STATUS_SHADOW_FULL = false ∧ (s.dma n).shadow.rowBytes ≠ 0 ∧ (s.dma
    n).shadow.rows ≠ 0 :=
  ⟨alive.setDma 31 { shadow := { rowBytes := 1, rows := 65535 } }, 31, by decide +kernel⟩
theorem wit_HubDmaChannelsRunPauseAndFail_2 : ∃ (s : State) (n : Fin 32), s.live = true ∧ s.dmaPaused n = false ∧
    s.dmaState n ≠ 2 ∧ s.dmaState n ≠ 3 ∧ (((s.dma n).shadow.rowBytes = 0 ∨ (s.dma n).shadow.rows = 0)) :=
  ⟨alive.setDma 31 { shadow := { rowBytes := 1, rows := 0 } }, 31, by decide +kernel⟩
theorem wit_HubDmaChannelsRunPauseAndFail_3 : ∃ (s : State) (n : Fin 32), s.live = true ∧ s.dmaState n = 1 ∧
    s.dmaPaused n = false ∧ s.flag (dmaA n) DMA_STATUS_SHADOW_FULL = false ∧ (s.dma n).shadow.rowBytes ≠ 0 ∧ (s.dma
    n).shadow.rows ≠ 0 :=
  ⟨(alive.setFld (dmaA 31) DMA_STATUS_STATE 1).setDma 31 { shadow := { rowBytes := 0xFFFFFF, rows := 1 } }, 31, by decide +kernel⟩
theorem wit_HubDmaChannelsRunPauseAndFail_4 : ∃ (s : State) (n : Fin 32), s.live = true ∧ s.dmaPaused n = false ∧
    s.dmaState n ≠ 2 ∧ s.dmaState n ≠ 3 :=
  ⟨alive.setFlag (dmaA 31) DMA_STATUS_SHADOW_FULL true, 31, by decide +kernel⟩
theorem wit_HubDmaChannelsRunPauseAndFail_5 : ∃ (s : State) (n : Fin 32), s.live = true ∧ s.dmaState n = 4 ∧ s.flag
    (dmaA n) DMA_STATUS_SHADOW_FULL = false :=
  ⟨(alive.setFld (dmaA 31) DMA_STATUS_STATE 4).setFld (dmaA 31) DMA_STATUS_CAUSE 4, 31, by decide +kernel⟩
theorem wit_HubDmaChannelsRunPauseAndFail_6 : ∃ (s : State) (n : Fin 32), s.live = true ∧ s.dmaState n = 3 ∧ s.flag
    (dmaA n) DMA_STATUS_SHADOW_FULL = false :=
  ⟨((alive.setFld (dmaA 31) DMA_STATUS_STATE 3).setFlag (dmaA 31) DMA_CTRL_PAUSE true).setDma 31 { set := { rowBytes := 1, rows := 1 } }, 31, by decide +kernel⟩
theorem wit_HubDmaChannelsRunPauseAndFail_7 : ∃ (s : State) (n : Fin 32), s.live = true ∧ s.dmaState n = 1 ∧
    s.dmaPaused n = false ∧ (s.dma n).reads = [] ∧ (s.dma n).writes = [] ∧ (s.dma n).err = none ∧ (s.dma n).wRow < (s.dma
    n).set.rows ∧ (s.dma n).wOff < (s.dma n).set.rowBytes :=
  ⟨(alive.setFld (dmaA 31) DMA_STATUS_STATE 1).setDma 31 { set := { rowBytes := 1, rows := 1 } }, 31, by decide +kernel⟩
theorem wit_HubDmaChannelsRunPauseAndFail_8 : ∃ (s : State) (n : Fin 32), s.live = true ∧ s.dmaState n = 3 ∧ s.flag
    dmagA DMA_GCTL_PAUSE_ALL = false ∧ (s.dma n).err = none ∧ (s.dma n).wRow < (s.dma n).set.rows :=
  ⟨((alive.setFld (dmaA 31) DMA_STATUS_STATE 3).setFlag (dmaA 31) DMA_CTRL_PAUSE true).setDma 31 { set := { rowBytes := 1, rows := 1 } }, 31, by decide +kernel⟩
theorem wit_HubDmaChannelsRunPauseAndFail_9 : ∃ (s : State) (n : Fin 32), s.live = true ∧ s.dmaState n = 1 ∧ (s.dma
    n).reads = [] ∧ (s.dma n).writes = [] ∧ (s.dma n).err = none ∧ (s.dma n).wRow < (s.dma n).set.rows ∧ (s.dma n).wOff <
    (s.dma n).set.rowBytes ∧ ((∀ k : Fin 32, k ≠ n → s.dmaState k = 0)) :=
  ⟨(alive.setFld (dmaA 31) DMA_STATUS_STATE 1).setDma 31 { set := { rowBytes := 1, rows := 1 } }, 31, by decide +kernel⟩
theorem wit_HubDmaChannelsRunPauseAndFail_10 : ∃ (s : State) (n : Fin 32), s.live = true ∧ s.dmaState n = 3 ∧ s.flag
    (dmaA n) DMA_CTRL_PAUSE = false ∧ (s.dma n).err = none ∧ (s.dma n).wRow < (s.dma n).set.rows ∧ ((∀ k : Fin 32, k ≠ n →
    s.dmaState k = 0)) :=
  ⟨((alive.setFld (dmaA 31) DMA_STATUS_STATE 3).setFlag dmagA DMA_GCTL_PAUSE_ALL true).setDma 31 { set := { rowBytes := 1, rows := 1 } }, 31, by decide +kernel⟩
theorem wit_HubDmaChannelsRunPauseAndFail_11 : ∃ (s : State) (n : Fin 32), s.live = true ∧ s.flag (dmaA n)
    DMA_STATUS_SHADOW_FULL = false :=
  ⟨alive, 31, by decide +kernel⟩
theorem wit_HubDmaChannelsRunPauseAndFail_12 : ∃ (s : State) (n : Fin 32), s.live = true ∧ s.flag (dmaA n)
    DMA_STATUS_SHADOW_FULL = true :=
  ⟨alive.setFlag (dmaA 31) DMA_STATUS_SHADOW_FULL true, 31, by decide +kernel⟩
theorem wit_HubDmaChannelsRunPauseAndFail_13 : ∃ (s : State) (n : Fin 32) (a : Nat) (m : Nat), s.live = true ∧
    s.dmaState n = 1 ∧ (s.dma n).rRow < (s.dma n).set.rows ∧ (s.dma n).err = none ∧ (s.dma n).reads = [] ∧ a = ((s.dma
    n).set.srcRow (s.dma n).rRow + (s.dma n).rOff) % 2 ^ 40 ∧ m = min (64 - a % 64) ((s.dma n).set.rowBytes - (s.dma
    n).rOff) ∧ regionOf a = .dram ∧ a + m ≤ s.usableBytes ∧ (s.dma n).rOff + m < (s.dma n).set.rowBytes ∧ ((∀ k : Fin 32,
    s.dmaReads k = true → (s.dma n).turn ≤ (s.dma k).turn)) :=
  ⟨(usable.setFld (dmaA 31) DMA_STATUS_STATE 1).setDma 31 { set := { src := 0x3FFFFFC1, rowBytes := 64, rows := 1 } }, 31, 0x3FFFFFC1, 63, by decide +kernel⟩
theorem wit_HubDmaChannelsRunPauseAndFail_14 : ∃ (s : State) (n : Fin 32) (k : Fin 32), s.live = true ∧ s.dmaReads k =
    true ∧ (s.dma k).turn < (s.dma n).turn :=
  ⟨((alive.setFld (dmaA 31) DMA_STATUS_STATE 1).setDma 31 { set := { rowBytes := 64, rows := 1 } }).setDma 0 { turn := 1 }, 0, 31, by decide +kernel⟩
theorem wit_HubDmaChannelsRunPauseAndFail_15 : ∃ (s : State) (n : Fin 32) (a : Nat) (d : Nat), s.live = true ∧
    s.dmaState n = 1 ∧ (s.dma n).set.rows = 1 ∧ (s.dma n).set.rowBytes = 64 ∧ (s.dma n).set.src = a ∧ (s.dma n).set.dst =
    d ∧ (s.dma n).reads = [⟨0, 0, 64, none⟩] ∧ (s.dma n).rRow = 1 ∧ (s.dma n).rOff = 0 ∧ (s.dma n).wRow = 0 ∧ (s.dma
    n).wOff = 0 ∧ (s.dma n).writes = [] ∧ (s.dma n).err = none ∧ a % 64 = 0 ∧ d % 64 = 0 ∧ a ≠ d ∧ s.answersAt a 64 ∧
    s.answersAt d 64 :=
  ⟨((usable.setFld (dmaA 31) DMA_STATUS_STATE 1).setMemBytes 0 [1, 2, 3]).setDma 31 { set := { src := 0, dst := 0x3FFFFFC0, rowBytes := 64, rows := 1 }, reads := [⟨0, 0, 64, none⟩], rRow := 1 }, 31, 0, 0x3FFFFFC0, by decide +kernel⟩
theorem wit_HubDmaChannelsRunPauseAndFail_16 : ∃ (s : State) (n : Fin 32) (m : Nat), s.live = true ∧ s.dmaState n = 1
    ∧ (s.dma n).reads = [⟨0, 0, m, none⟩] ∧ (s.dma n).wRow = 0 ∧ (s.dma n).wOff = 0 ∧ (s.dma n).writes = [] ∧ (s.dma
    n).err = none ∧ 0 < m ∧ m ≤ (s.dma n).set.rowBytes ∧ (s.dma n).set.rows = 1 ∧ regionOf (s.dma n).set.src = .cluster 0
    ∧ s.fld (dmaA n) DMA_STATUS_CAUSE = 0 :=
  ⟨(alive.setFld (dmaA 31) DMA_STATUS_STATE 1).setDma 31 { set := { src := 0xE000000000, rowBytes := 64, rows := 1 }, reads := [⟨0, 0, 64, none⟩] }, 31, 64, by decide +kernel⟩
theorem wit_HubDmaChannelsRunPauseAndFail_17 : ∃ (s : State) (n : Fin 32) (a : Nat), s.live = true ∧ s.dmaState n = 1
    ∧ (s.dma n).writes = [⟨a, true⟩] ∧ (s.dma n).reads = [] ∧ (s.dma n).err = none ∧ (s.dma n).set.rows ≤ (s.dma n).wRow ∧
    s.flag (dmaA n) DMA_STATUS_SHADOW_FULL = false :=
  ⟨(alive.setFld (dmaA 31) DMA_STATUS_STATE 1).setDma 31 { set := { rowBytes := 64, rows := 1 }, wRow := 1, writes := [⟨5, true⟩] }, 31, 5, by decide +kernel⟩
theorem wit_TimeCounterTicksStepsAndSlews_1 : ∃ (s : State) (δ : Int), s.live = true ∧ s.time.ns < 1000000000 ∧
    s.time.frac < 2 ^ 32 ∧ s.time.rem < 2 ^ 40 * 10000000 ∧ s.time.sec + 1 < 2 ^ 64 ∧ (s.tick + 1) % 400000000 ≠ 0 ∧ δ =
    clampInt (24975 * 1000 * 2 ^ 72) (25025 * 1000 * 2 ^ 72) (s.baseInc + s.slewStep) :=
  ⟨alive.withTime { sec := 2 ^ 64 - 2, ns := 999999999, frac := 2 ^ 32 - 1, rem := 2 ^ 40 * 10000000 - 1, slew := -1 }, 25000000 * 2 ^ 72 - 1, by decide +kernel⟩
theorem wit_TimeCounterTicksStepsAndSlews_2 : ∃ (s : State) (n : Nat), s.live = true ∧ s.time.ns < 1000000000 ∧
    s.time.frac < 2 ^ 32 ∧ s.time.rem < 2 ^ 40 * 10000000 ∧ s.time.sec + n < 2 ^ 64 ∧ (s.tick + n) / 400000000 = s.tick /
    400000000 ∧ s.time.slew = 0 :=
  ⟨alive.withTime { sec := 2 ^ 64 - 4, ns := 999999999, frac := 2 ^ 32 - 1, rem := 2 ^ 40 * 10000000 - 1, rate := -5 }, 3, by decide +kernel⟩
theorem wit_TimeCounterTicksStepsAndSlews_3 : ∃ (s : State), s.live = true ∧ (s.tick + 1) % 400000000 = 0 :=
  ⟨{ alive.setVcc 7 { ctus := 2 ^ 32 } with tick := 399999999 }, by decide +kernel⟩
theorem wit_TimeCounterTicksStepsAndSlews_4 : ∃ (s : State), s.live = true :=
  ⟨alive.withTime { sec := 2 ^ 64 - 1, ns := 999999999, frac := 2 ^ 32 - 1 }, by decide +kernel⟩
theorem wit_TimeCounterTicksStepsAndSlews_5 : ∃ (s : State), s.live = true ∧ 1000000000 ≤ s.fld timeA TIME_SET_NS_NS
    :=
  ⟨alive.wr (timeA + TIME_SET_NS) 1000000000, by decide +kernel⟩
theorem wit_TimeCounterTicksStepsAndSlews_6 : ∃ (s : State) (sec : Nat) (ns : Nat) (d : Int), s.live = true ∧ s.fld
    timeA TIME_SET_NS_NS = ns ∧ ns < 1000000000 ∧ sec = (s.rd (timeA + TIME_SET_SEC_HI)).toNat * 2 ^ 32 + (s.rd (timeA +
    TIME_SET_SEC_LO)).toNat ∧ d = ((sec * 1000000000 + ns : Nat) : Int) - s.nowNs :=
  ⟨((alive.wr (timeA + TIME_SET_NS) 999999999).withTime { ns := 999999998, frac := 5, rem := 3, slew := 7, dom0 := { ofs := 9 } }).setCamp 11 { fvNs := some 3 }, 0, 999999999, 1, by decide +kernel⟩
theorem wit_TimeCounterTicksStepsAndSlews_7 : ∃ (s : State) (v : Word) (n : Int), s.live = true ∧ n = s.time.slew +
    v.toInt * (2 ^ 64 * 10000000) ∧ n ≤ 8000000 * (2 ^ 72 * 10000000) ∧ -(8000000 * (2 ^ 72 * 10000000)) ≤ n :=
  ⟨alive.withTime { slew := 1 }, 0x7A11FFFF, 1 + 0x7A11FFFF * (2 ^ 64 * 10000000), by decide +kernel⟩
theorem wit_TimeCounterTicksStepsAndSlews_8 : ∃ (s : State) (v : Word) (n : Int), s.live = true ∧ n = s.time.slew +
    v.toInt * (2 ^ 64 * 10000000) ∧ ((8000000 * (2 ^ 72 * 10000000) < n ∨ n < -(8000000 * (2 ^ 72 * 10000000)))) :=
  ⟨alive.withTime { slew := 1 }, 0x7A120000, 1 + 0x7A120000 * (2 ^ 64 * 10000000), by decide +kernel⟩
theorem wit_TimeFollowsSourcesAndDomains_1 : ∃ (s : State), s.live = true :=
  ⟨alive, by decide +kernel⟩
theorem wit_TimeFollowsSourcesAndDomains_2 : ∃ (s : State) (v : BitVec 2), s.live = true ∧ s.phase = 7 ∧ s.fld advA
    ADV_SYSCFG_COUNT > 1 ∧ v.toNat ≠ s.timeSrc :=
  ⟨(running.setFld advA ADV_SYSCFG_COUNT 2), 1, by decide +kernel⟩
theorem wit_TimeFollowsSourcesAndDomains_3 : ∃ (s : State), s.live = true ∧ s.fld advA ADV_SYSCFG_COUNT ≤ 1 ∧
    s.timeSrc = 1 :=
  ⟨(alive.setFld timeA TIME_CTRL_SRC 1).setFlag timeA TIME_STATUS_HOLDOVER true, by decide +kernel⟩
theorem wit_TimeFollowsSourcesAndDomains_4 : ∃ (s : State), s.live = true ∧ s.fld advA ADV_SYSCFG_COUNT ≤ 1 ∧
    s.timeSrc = 1 :=
  ⟨(alive.setFld timeA TIME_CTRL_SRC 1).setFlag timeA TIME_STATUS_HOLDOVER true, by decide +kernel⟩
theorem wit_TimeFollowsSourcesAndDomains_5 : ∃ (s : State) (d : Fin 2), s.live = true ∧ s.fld advA ADV_SYSCFG_COUNT ≤
    1 ∧ s.timeSrc ≠ 1 ∧ s.activeDom = d ∧ s.usable d = true :=
  ⟨((alive.setFlag timeA (domF DOM_CTRL_EN 1) true).setFlag timeA (domF DOM_UPD_STALE 1) false).setFld timeA TIME_CTRL_ACTIVE 1, 1, by decide +kernel⟩
theorem wit_TimeFollowsSourcesAndDomains_6 : ∃ (s : State) (d : Fin 2), s.live = true ∧ s.fld advA ADV_SYSCFG_COUNT ≤
    1 ∧ s.timeSrc ≠ 1 ∧ s.activeDom = 1 - d.val ∧ s.usable (1 - d.val) = false ∧ s.usable d = true :=
  ⟨((alive.setFlag timeA (domF DOM_CTRL_EN 1) true).setFlag timeA (domF DOM_UPD_STALE 1) false).withTime { dom1 := { ofs := -7, rate := 9 } }, 1, by decide +kernel⟩
theorem wit_TimeFollowsSourcesAndDomains_7 : ∃ (s : State), s.live = true ∧ s.fld advA ADV_SYSCFG_COUNT ≤ 1 ∧
    s.timeSrc ≠ 1 ∧ s.usable 0 = false ∧ s.usable 1 = false :=
  ⟨alive, by decide +kernel⟩
theorem wit_TimeFollowsSourcesAndDomains_8 : ∃ (s : State) (d : Fin 2) (k : Tracker), s.live = true ∧ k = ⟨(s.rd
    (timeA + DOM_OFS + 16 * d)).toInt * (2 ^ 64 * 10000000), (s.rd (timeA + DOM_RATE + 16 * d)).toInt, s.now32⟩ ∧
    s.timeSrc = 1 ∧ s.holdover = false ∧ s.activeDom = d ∧ s.flag timeA (domF DOM_CTRL_EN d) = true :=
  ⟨((alive.setFld timeA TIME_CTRL_SRC 1).setFlag timeA (domF DOM_CTRL_EN 1) true).setFld timeA TIME_CTRL_ACTIVE 1, 1, {}, by decide +kernel⟩
theorem wit_TimeFollowsSourcesAndDomains_9 : ∃ (s : State) (d : Fin 2), s.live = true ∧ ((s.timeSrc ≠ 1 ∨ (s.holdover
    = false ∧ s.activeDom ≠ d))) :=
  ⟨alive.wr (timeA + DOM_OFS + 16) 0xFFFFFFFF, 1, by decide +kernel⟩
theorem wit_TimeFollowsSourcesAndDomains_10 : ∃ (s : State) (d : Fin 2), s.live = true ∧ s.timeSrc = 1 ∧ s.holdover =
    true ∧ s.flag timeA (domF DOM_CTRL_EN d) = true :=
  ⟨(((alive.setFld timeA TIME_CTRL_SRC 1).setFlag timeA TIME_STATUS_HOLDOVER true).setFlag timeA (domF DOM_CTRL_EN 1) true).wr (timeA + DOM_OFS + 16) 0xFFFFFFFF, 1, by decide +kernel⟩
theorem wit_TimeFollowsSourcesAndDomains_11 : ∃ (s : State) (d : Fin 2), s.live = true ∧ s.timeSrc = 1 ∧ s.holdover =
    false ∧ s.activeDom = d ∧ s.usable (1 - d.val) = true ∧ s.domAged d = true :=
  ⟨((alive.setFld timeA TIME_CTRL_SRC 1).setFlag timeA (domF DOM_CTRL_EN 1) true).setFlag timeA (domF DOM_UPD_STALE 1) false, 0, by decide +kernel⟩
theorem wit_TimeFollowsSourcesAndDomains_12 : ∃ (s : State) (d : Fin 2), s.live = true ∧ s.timeSrc = 1 ∧ s.holdover =
    false ∧ s.activeDom = d ∧ s.usable (1 - d.val) = false ∧ s.domAged d = true :=
  ⟨(alive.setFld timeA TIME_CTRL_SRC 1).setFlag timeA (domF DOM_CTRL_EN 0) true, 0, by decide +kernel⟩
theorem wit_TimeFollowsSourcesAndDomains_13 : ∃ (s : State) (d : Fin 2), s.live = true ∧ ((s.timeSrc ≠ 1 ∨ s.usable (1
    - d.val) = true ∧ s.activeDom = 1 - d.val)) ∧ s.domAged d = true :=
  ⟨alive, 1, by decide +kernel⟩
theorem wit_TimeFollowsSourcesAndDomains_14 : ∃ (s : State) (d : Fin 2), s.live = true ∧ s.timeSrc = 1 ∧ s.holdover =
    false ∧ s.activeDom = d ∧ s.usable (1 - d.val) = false :=
  ⟨(alive.setFld timeA TIME_CTRL_SRC 1).setFlag timeA (domF DOM_CTRL_EN 0) true, 0, by decide +kernel⟩
theorem wit_TimeFollowsSourcesAndDomains_15 : ∃ (s : State) (d : Fin 2), s.live = true ∧ s.timeSrc = 1 ∧ s.holdover =
    false ∧ s.activeDom = d ∧ s.usable (1 - d.val) = true :=
  ⟨((alive.setFld timeA TIME_CTRL_SRC 1).setFlag timeA (domF DOM_CTRL_EN 1) true).setFlag timeA (domF DOM_UPD_STALE 1) false, 0, by decide +kernel⟩
theorem wit_TimeFollowsSourcesAndDomains_16 : ∃ (s : State) (d : Fin 2), s.live = true ∧ ((s.timeSrc ≠ 1 ∨ s.holdover
    = true ∨ s.activeDom = 1 - d.val ∧ s.usable (1 - d.val) = true)) :=
  ⟨alive, 1, by decide +kernel⟩
theorem wit_TimeFollowsSourcesAndDomains_17 : ∃ (s : State) (d : Fin 2) (v : Word), s.live = true ∧ s.timeSrc = 1 ∧
    s.holdover = false ∧ s.activeDom = d ∧ v.toNat.testBit 31 = false ∧ s.usable (1 - d.val) = true :=
  ⟨((alive.setFld timeA TIME_CTRL_SRC 1).setFlag timeA (domF DOM_CTRL_EN 1) true).setFlag timeA (domF DOM_UPD_STALE 1) false, 0, 0x7FFFFFFF, by decide +kernel⟩
theorem wit_TimeFollowsSourcesAndDomains_18 : ∃ (s : State), s.live = true ∧ s.timeSrc ≠ 1 ∧ s.timeSrc ≠ 3 :=
  ⟨alive, by decide +kernel⟩
theorem wit_TimeFollowsSourcesAndDomains_19 : ∃ (s : State) (b : Bool), s.live = true ∧ s.timeSrc = 1 ∧ s.activeDom ≠
    b2n b ∧ s.usable (b2n b) = false :=
  ⟨alive.setFld timeA TIME_CTRL_SRC 1, true, by decide +kernel⟩
theorem wit_TimeFollowsSourcesAndDomains_20 : ∃ (s : State) (b : Bool), s.live = true ∧ s.timeSrc = 1 ∧ s.activeDom ≠
    b2n b ∧ s.usable (b2n b) = true :=
  ⟨((alive.setFld timeA TIME_CTRL_SRC 1).setFlag timeA (domF DOM_CTRL_EN 1) true).setFlag timeA (domF DOM_UPD_STALE 1) false, true, by decide +kernel⟩
theorem wit_EthernetPortsSendAndReceiveFrames_1 : ∃ (s : State) (v : Word) (mode : Nat) (fec : Nat), s.live = true ∧
    s.quadsSettled = true ∧ mode = v.toNat / 2 ^ 29 % 4 ∧ fec = v.toNat / 2 ^ 27 % 4 ∧ ((mode = 1 ∨ mode = 2)) ∧ fec ≠ 3 ∧
    ((fec = 2 → mode = 2)) :=
  ⟨laneOn, 0xD0000000, 2, 2, by decide +kernel⟩
theorem wit_EthernetPortsSendAndReceiveFrames_2 : ∃ (s : State) (v : Word) (mode : Nat) (fec : Nat), s.live = true ∧
    s.quadsSettled = true ∧ mode = v.toNat / 2 ^ 29 % 4 ∧ fec = v.toNat / 2 ^ 27 % 4 ∧ ((mode = 0 ∨ mode = 3 ∨ fec = 3 ∨
    fec = 2 ∧ mode = 1)) :=
  ⟨laneOn, 0xB0000000, 1, 2, by decide +kernel⟩
theorem wit_EthernetPortsSendAndReceiveFrames_3 : ∃ (s : State) (k : Fin 4) (w : BitVec 16), s.live = true ∧ (w.toNat
    + 65536 - s.fld (ethA k) ETH_TX_PTR_RD) % 65536 ≤ 2 ^ s.ringLog k ETH_RING_CFG_TX_LOG :=
  ⟨alive, 3, 16, by decide +kernel⟩
theorem wit_EthernetPortsSendAndReceiveFrames_4 : ∃ (s : State) (k : Fin 4) (w : BitVec 16), s.live = true ∧ 2 ^
    s.ringLog k ETH_RING_CFG_TX_LOG < (w.toNat + 65536 - s.fld (ethA k) ETH_TX_PTR_RD) % 65536 :=
  ⟨alive, 3, 17, by decide +kernel⟩
theorem wit_EthernetPortsSendAndReceiveFrames_5 : ∃ (s : State) (k : Fin 4) (w : BitVec 16), s.live = true ∧ (w.toNat
    + 65536 - s.fld (ethA k) ETH_RX0_PTR_RD) % 65536 ≤ 2 ^ s.ringLog k ETH_RING_CFG_RX0_LOG :=
  ⟨alive, 3, 16, by decide +kernel⟩
theorem wit_EthernetPortsSendAndReceiveFrames_6 : ∃ (s : State) (k : Fin 4) (w : BitVec 16), s.live = true ∧ (w.toNat
    + 65536 - s.fld (ethA k) ETH_RX1_PTR_RD) % 65536 ≤ 2 ^ s.ringLog k ETH_RING_CFG_RX1_LOG :=
  ⟨alive, 3, 16, by decide +kernel⟩
theorem wit_EthernetPortsSendAndReceiveFrames_7 : ∃ (s : State) (k : Fin 4) (d : Nat) (buf : Nat) (len : Nat) (f :
    List Byte), s.live = true ∧ s.flag (ethA k) ETH_CTRL_EN = true ∧ s.flag (ethA k) ETH_STATUS_LINK_UP = true ∧
    s.ringUsed k ETH_TX_PTR_RD ETH_TX_PTR_WR ≠ 0 ∧ d = s.ethDesc k ETH_TX_BASE_ADDR ETH_TX_PTR_RD ETH_RING_CFG_TX_LOG ∧
    len = s.memNat (d + 8) 2 ∧ len ≤ s.maxFrame k - 4 ∧ s.memNat (d + 10) 2 % 4 = 0 ∧ buf = s.memNat d 8 ∧ s.answersAt buf
    len ∧ s.answersAt (d + 14) 2 ∧ f = s.memBytes buf len ++ List.replicate (60 - len) 0 :=
  ⟨(ethOn.setMemBytes 8 [59]).setMemBytes 0x1000 [1, 2], 3, 0, 0, 59, [0, 0, 0, 0, 0, 0, 0, 0, 59] ++ List.replicate 51 0, by decide +kernel⟩
theorem wit_EthernetPortsSendAndReceiveFrames_8 : ∃ (s : State) (k : Fin 4) (d : Nat) (buf : Nat) (len : Nat) (ps :
    Nat) (f : List Byte), s.live = true ∧ s.flag (ethA k) ETH_CTRL_EN = true ∧ s.flag (ethA k) ETH_STATUS_LINK_UP = true ∧
    s.ringUsed k ETH_TX_PTR_RD ETH_TX_PTR_WR ≠ 0 ∧ d = s.ethDesc k ETH_TX_BASE_ADDR ETH_TX_PTR_RD ETH_RING_CFG_TX_LOG ∧
    len = s.memNat (d + 8) 2 ∧ len ≤ s.maxFrame k - 4 ∧ s.memNat (d + 10) 2 % 4 = 1 ∧ buf = s.memNat d 8 ∧ s.answersAt buf
    len ∧ s.answersAt (d + 14) 18 ∧ f = s.memBytes buf len ++ List.replicate (60 - len) 0 ∧ ps = s.nowNs * 1000 + s.fld
    (ethA k) ETH_TXDLY_TX_DELAY_PS :=
  ⟨((ethOn.setMemBytes 8 [59, 0, 1]).wr (ethA 3 + ETH_TXDLY) 0xFFFFF).withTime { sec := 1, ns := 999999999 }, 3, 0, 0, 59, 1999999999000 + 0xFFFFF, [0, 0, 0, 0, 0, 0, 0, 0, 59, 0, 1] ++ List.replicate 49 0, by decide +kernel⟩
theorem wit_EthernetPortsSendAndReceiveFrames_9 : ∃ (s : State) (k : Fin 4) (d : Nat) (buf : Nat) (len : Nat) (o :
    Nat) (f : List Byte) (g : List Byte), s.live = true ∧ s.flag (ethA k) ETH_CTRL_EN = true ∧ s.flag (ethA k)
    ETH_STATUS_LINK_UP = true ∧ s.ringUsed k ETH_TX_PTR_RD ETH_TX_PTR_WR ≠ 0 ∧ d = s.ethDesc k ETH_TX_BASE_ADDR
    ETH_TX_PTR_RD ETH_RING_CFG_TX_LOG ∧ len = s.memNat (d + 8) 2 ∧ len ≤ s.maxFrame k - 4 ∧ s.memNat (d + 10) 2 = 2 ∧ o =
    s.memNat (d + 12) 2 ∧ buf = s.memNat d 8 ∧ s.answersAt buf len ∧ s.answersAt (d + 14) 18 ∧ f = s.memBytes buf len ++
    List.replicate (60 - len) 0 ∧ o + 44 ≤ f.length ∧ beAt f o 1 % 16 = 0 ∧ beAt f 12 2 = 0x88F7 ∧ s.fld (ethA k)
    ETH_TXDLY_TX_DELAY_PS = 0 ∧ g = putAt f (o + 34) (toBytesBE 6 (s.nowNs / 1000000000) ++ toBytesBE 4 (s.nowNs %
    1000000000)) :=
  ⟨((ethOn.setMemBytes 0 [0, 16, 0, 0, 0, 0, 0, 0, 60, 0, 2, 0, 14]).setMemBytes 0x100C [0x88, 0xF7]).withTime { sec := 1, ns := 999999999 }, 3, 0, 0x1000, 60, 14, List.replicate 12 0 ++ [0x88, 0xF7] ++ List.replicate 46 0, List.replicate 12 0 ++ [0x88, 0xF7] ++ List.replicate 39 0 ++ [1, 0x3B, 0x9A, 0xC9, 0xFF, 0, 0], by decide +kernel⟩
theorem wit_EthernetPortsSendAndReceiveFrames_10 : ∃ (s : State) (k : Fin 4) (d : Nat), s.live = true ∧ s.flag (ethA
    k) ETH_CTRL_EN = true ∧ s.flag (ethA k) ETH_STATUS_LINK_UP = true ∧ s.ringUsed k ETH_TX_PTR_RD ETH_TX_PTR_WR ≠ 0 ∧ d =
    s.ethDesc k ETH_TX_BASE_ADDR ETH_TX_PTR_RD ETH_RING_CFG_TX_LOG ∧ s.maxFrame k - 4 < s.memNat (d + 8) 2 ∧ s.answersAt
    (d + 14) 2 :=
  ⟨ethOn.setMemBytes 8 [0xFD, 0x23], 3, 0, by decide +kernel⟩
theorem wit_EthernetPortsSendAndReceiveFrames_11 : ∃ (s : State) (k : Fin 4) (d : Nat) (buf : Nat) (len : Nat) (x :
    BusAns), s.live = true ∧ s.flag (ethA k) ETH_CTRL_EN = true ∧ s.flag (ethA k) ETH_STATUS_LINK_UP = true ∧ s.ringUsed k
    ETH_TX_PTR_RD ETH_TX_PTR_WR ≠ 0 ∧ x ≠ .ok ∧ d = s.ethDesc k ETH_TX_BASE_ADDR ETH_TX_PTR_RD ETH_RING_CFG_TX_LOG ∧ len =
    s.memNat (d + 8) 2 ∧ len ≤ s.maxFrame k - 4 ∧ buf = s.memNat d 8 ∧ s.answersAt buf len ∧ s.answersAt (d + 14) 2 :=
  ⟨ethOn, 3, 0, 0, 0, .error, by decide +kernel⟩
theorem wit_EthernetPortsSendAndReceiveFrames_12 : ∃ (s : State) (k : Fin 4) (f : List Byte) (d : Nat) (buf : Nat) (ps
    : Int), s.live = true ∧ s.flag (ethA k) ETH_CTRL_EN = true ∧ s.flag (ethA k) ETH_STATUS_LINK_UP = true ∧ 60 ≤ f.length
    ∧ f.length + 4 ≤ s.maxFrame k ∧ beAt f 12 2 ≠ 0x8808 ∧ ptpOf f = none ∧ ((f.take 6 = s.macOf k ∨ beAt f 0 6 =
    0xFFFFFFFFFFFF ∨ s.flag (ethA k) ETH_CTRL_PROMISC = true)) ∧ s.ringUsed k ETH_RX1_PTR_RD ETH_RX1_PTR_WR ≠ 0 ∧ d =
    s.ethDesc k ETH_RX1_BASE_ADDR ETH_RX1_PTR_RD ETH_RING_CFG_RX1_LOG ∧ f.length ≤ s.memNat (d + 8) 2 ∧ f.length < 65536 ∧
    buf = s.memNat d 8 ∧ s.answersAt buf f.length ∧ s.answersAt (d + 8) 24 ∧ buf + f.length ≤ d ∧ ps = s.nowNs * 1000 -
    s.fld (ethA k) ETH_RXDLY_RX_DELAY_PS ∧ 0 ≤ ps :=
  ⟨(ethOn.wr (ethA 3 + ETH_RX1_BASE) 16).setMemBytes 0x1008 [60], 3, List.replicate 6 0xFF ++ List.replicate 54 0, 0x1000, 0, 0, by decide +kernel⟩
theorem wit_EthernetPortsSendAndReceiveFrames_13 : ∃ (s : State) (k : Fin 4) (f : List Byte) (d : Nat) (buf : Nat) (o
    : Nat) (e : Bool), s.live = true ∧ s.flag (ethA k) ETH_CTRL_EN = true ∧ s.flag (ethA k) ETH_STATUS_LINK_UP = true ∧ 60
    ≤ f.length ∧ f.length + 4 ≤ s.maxFrame k ∧ beAt f 12 2 ≠ 0x8808 ∧ ptpOf f = some (o, e) ∧ o < 65536 ∧ beAt f 0 6 ∈
    [0x011B19000000, 0x0180C200000E, 0x01005E000181, 0x01005E00006B, 0x333300000181, 0x33330000006B] ∧ s.ringUsed k
    ETH_RX0_PTR_RD ETH_RX0_PTR_WR ≠ 0 ∧ d = s.ethDesc k ETH_RX0_BASE_ADDR ETH_RX0_PTR_RD ETH_RING_CFG_RX0_LOG ∧ f.length ≤
    s.memNat (d + 8) 2 ∧ f.length < 65536 ∧ buf = s.memNat d 8 ∧ s.answersAt buf f.length ∧ s.answersAt (d + 8) 24 ∧ buf +
    f.length ≤ d :=
  ⟨(ethOn.wr (ethA 3 + ETH_RX0_BASE) 16).setMemBytes 0x1008 [60], 3, [1, 0x1B, 0x19, 0, 0, 0] ++ List.replicate 6 0 ++ [0x88, 0xF7] ++ List.replicate 46 0, 0x1000, 0, 14, true, by decide +kernel⟩
theorem wit_EthernetPortsSendAndReceiveFrames_14 : ∃ (s : State) (k : Fin 4) (f : List Byte) (c : Nat), s.live = true
    ∧ s.flag (ethA k) ETH_CTRL_EN = true ∧ s.flag (ethA k) ETH_STATUS_LINK_UP = true ∧ c < 2 ^ 32 ∧ c ≠ crc32 f :=
  ⟨ethOn, 3, [], 1, by decide +kernel⟩
theorem wit_EthernetPortsSendAndReceiveFrames_15 : ∃ (s : State) (k : Fin 4) (f : List Byte), s.live = true ∧ s.flag
    (ethA k) ETH_CTRL_EN = true ∧ s.flag (ethA k) ETH_STATUS_LINK_UP = true ∧ s.maxFrame k < f.length + 4 :=
  ⟨(ethOn.wr (ethA 3 + ETH_CTRL) 0xA0000040), 3, List.replicate 61 0, by decide +kernel⟩
theorem wit_EthernetPortsSendAndReceiveFrames_16 : ∃ (s : State) (k : Fin 4) (f : List Byte), s.live = true ∧ s.flag
    (ethA k) ETH_CTRL_EN = true ∧ s.flag (ethA k) ETH_STATUS_LINK_UP = true ∧ 60 ≤ f.length ∧ f.length + 4 ≤ s.maxFrame k
    ∧ beAt f 12 2 = 0x8808 :=
  ⟨ethOn, 3, List.replicate 12 0 ++ [0x88, 8] ++ List.replicate 46 0, by decide +kernel⟩
theorem wit_EthernetPortsSendAndReceiveFrames_17 : ∃ (s : State) (k : Fin 4) (f : List Byte), s.live = true ∧ s.flag
    (ethA k) ETH_CTRL_EN = true ∧ s.flag (ethA k) ETH_STATUS_LINK_UP = true ∧ 60 ≤ f.length ∧ f.length + 4 ≤ s.maxFrame k
    ∧ beAt f 12 2 ≠ 0x8808 ∧ f.take 6 ≠ s.macOf k ∧ (beAt f 0 6).testBit 40 = false ∧ s.flag (ethA k) ETH_CTRL_PROMISC =
    false :=
  ⟨ethOn, 3, [0, 1] ++ List.replicate 58 0, by decide +kernel⟩
theorem wit_EthernetPortsSendAndReceiveFrames_18 : ∃ (s : State) (k : Fin 4) (f : List Byte), s.live = true ∧ s.flag
    (ethA k) ETH_CTRL_EN = true ∧ s.flag (ethA k) ETH_STATUS_LINK_UP = true ∧ 60 ≤ f.length ∧ f.length + 4 ≤ s.maxFrame k
    ∧ beAt f 12 2 ≠ 0x8808 ∧ s.accepts k f = true ∧ ptpOf f = none ∧ s.ringUsed k ETH_RX1_PTR_RD ETH_RX1_PTR_WR = 0 :=
  ⟨ethOn.wr (ethA 3 + ETH_RX1_PTR) 0, 3, List.replicate 6 0xFF ++ List.replicate 54 0, by decide +kernel⟩
theorem wit_EthernetPortsSendAndReceiveFrames_19 : ∃ (s : State), s.live = true :=
  ⟨alive, by decide +kernel⟩
theorem wit_SerialQuadsTrainLoopTestAndSleep_1 : ∃ (s : State) (q : Fin 16) (v : Word) (p : Nat), s.live = true ∧
    s.locked = false ∧ s.quadsSettled = true ∧ s.quadBusy q = false ∧ p = v.toNat % 8 ∧ p ≠ 2 ∧ s.proto q ≠ 2 ∧ ((p = 0 ∨
    p = 1 ∨ p = 4 ∨ p = 3 ∧ 14 ≤ q.val)) ∧ v.toNat.testBit 10 = false :=
  ⟨laneOn, 15, 0, 0, by decide +kernel⟩
theorem wit_SerialQuadsTrainLoopTestAndSleep_2 : ∃ (s : State) (q : Fin 16) (v : Word) (p : Nat), s.live = true ∧
    s.locked = false ∧ s.quadsSettled = true ∧ s.quadBusy q = false ∧ p = v.toNat % 8 ∧ ((p = 2 ∨ s.proto q = 2)) ∧ ((p <
    2 ∨ p = 2 ∧ 8 ≤ q.val ∧ q.val ≤ 13 ∨ p = 4)) ∧ v.toNat.testBit 10 = false :=
  ⟨laneOn, 13, 1, 1, by decide +kernel⟩
theorem wit_SerialQuadsTrainLoopTestAndSleep_3 : ∃ (s : State) (q : Fin 16) (v : Word) (p : Nat), s.live = true ∧
    s.locked = false ∧ s.quadsSettled = true ∧ p = v.toNat % 8 ∧ p ≠ s.proto q ∧ ((4 < p ∨ p = 2 ∧ (q.val < 8 ∨ 13 <
    q.val) ∨ p = 3 ∧ q.val < 14 ∨ s.quadBusy q = true)) ∧ v.toNat.testBit 10 = false :=
  ⟨laneOn, 15, 5, 5, by decide +kernel⟩
theorem wit_SerialQuadsTrainLoopTestAndSleep_4 : ∃ (s : State) (q : Fin 16) (v : Word), s.live = true ∧ s.locked =
    false ∧ s.quadsSettled = true ∧ s.inL0 q = true ∧ v.toNat % 8 = s.proto q ∧ v.toNat / 16 % 4 = s.fld (quadA q)
    QUAD_CTRL_PSTATE :=
  ⟨laneOn, 15, 4, by decide +kernel⟩
theorem wit_SerialQuadsTrainLoopTestAndSleep_5 : ∃ (s : State) (q : Fin 16) (v : Word), s.live = true ∧ s.locked =
    false ∧ s.quadsSettled = true ∧ s.power q ≠ 0 ∧ v.toNat % 8 = s.proto q ∧ v.toNat / 16 % 4 = s.fld (quadA q)
    QUAD_CTRL_PSTATE ∧ (s.quad q).autoVesper = false :=
  ⟨((laneOn.setFld (quadA 15) QUAD_CTRL_PSTATE 2).setFld (quadA 15) QUAD_STATUS_STATE 2), 15, 0x24, by decide +kernel⟩
theorem wit_SerialQuadsTrainLoopTestAndSleep_6 : ∃ (s : State) (q : Fin 16), s.live = true ∧ s.locked = false ∧
    s.quadsSettled = true ∧ (((s.quad q).autoVesper = true → s.flag (quadA q) QUAD_CTRL_AUTO_VESPER = true)) :=
  ⟨laneOn, 15, by decide +kernel⟩
theorem wit_SerialQuadsTrainLoopTestAndSleep_7 : ∃ (s : State) (q : Fin 16), s.live = true ∧ s.locked = true ∧
    s.quadsSettled = true ∧ (((s.quad q).autoVesper = true → s.flag (quadA q) QUAD_CTRL_AUTO_VESPER = true)) :=
  ⟨laneOn.setFld advA ADV_STATUS_PHASE 7, 15, by decide +kernel⟩
theorem wit_SerialQuadsTrainLoopTestAndSleep_8 : ∃ (s : State) (q : Fin 16), s.live = true ∧ s.quadBusy q = false :=
  ⟨alive, 15, by decide +kernel⟩
theorem wit_SerialQuadsTrainLoopTestAndSleep_9 : ∃ (s : State) (q : Fin 16), s.live = true ∧ s.quadBusy q = true ∧
    s.flag (quadA q) QUAD_PRBS_EN = false :=
  ⟨alive, 8, by decide +kernel⟩
theorem wit_SerialQuadsTrainLoopTestAndSleep_10 : ∃ (s : State), s.live = true :=
  ⟨alive, by decide +kernel⟩
theorem wit_SerialQuadsTrainLoopTestAndSleep_11 : ∃ (s : State) (q : Fin 16), s.live = true ∧ s.locked = false ∧
    s.quadsSettled = true ∧ s.quadBusy q = false ∧ s.proto q ≠ 0 ∧ (s.quad q).autoVesper = false :=
  ⟨laneOn, 15, by decide +kernel⟩
theorem wit_SerialQuadsTrainLoopTestAndSleep_12 : ∃ (s : State) (q : Fin 16), s.live = true ∧ s.locked = false ∧
    s.quadsSettled = true ∧ s.quadBusy q = true :=
  ⟨laneOn, 9, by decide +kernel⟩
theorem wit_SerialQuadsTrainLoopTestAndSleep_13 : ∃ (s : State) (q : Fin 16), s.live = true ∧ s.quadSettled q = true ∧
    s.flag (quadA q) QUAD_CTRL_AUTO_VESPER = true ∧ s.fld (quadA q) QUAD_CTRL_PSTATE = 0 ∧ s.quadBusy q = false ∧ s.power
    q = 0 ∧ (s.quad q).idleTick + usTicks 1000 ≤ s.tick :=
  ⟨{ laneOn.setFlag (quadA 15) QUAD_CTRL_AUTO_VESPER true with tick := 400000 }, 15, by decide +kernel⟩
theorem wit_SerialQuadsTrainLoopTestAndSleep_14 : ∃ (s : State) (q : Fin 16), s.live = true ∧ (s.quad q).exiting =
    true ∧ s.power q = 0 :=
  ⟨alive.setQuad 15 { exiting := true }, 15, by decide +kernel⟩
theorem wit_SerialQuadsTrainLoopTestAndSleep_15 : ∃ (s : State) (q : Fin 16), s.live = true ∧ (s.quad q).exiting =
    true ∧ (s.quad q).fromVesper = true :=
  ⟨alive.setQuad 15 { exiting := true, fromVesper := true }, 15, by decide +kernel⟩
theorem wit_SerialQuadsTrainLoopTestAndSleep_16 : ∃ (s : State) (q : Fin 16) (k : Fin 4) (fom : BitVec 8), s.live =
    true ∧ k.val ∈ (s.quad q).training ∧ s.inL0 q = true ∧ s.flag (quadA q) QUAD_STATUS_PLL_LOCK = true ∧ ((s.proto q = 1
    ∨ s.proto q = 4)) ∧ s.fld (quadA q) (laneF LANE_RX_FOM_PASS k) ≤ fom.toNat :=
  ⟨(alive.setQuad 15 { training := [3] }).setFlag (quadA 15) QUAD_STATUS_PLL_LOCK true, 15, 3, 255, by decide +kernel⟩
theorem wit_SerialQuadsTrainLoopTestAndSleep_17 : ∃ (s : State) (q : Fin 16) (k : Fin 4) (cdr : Bool) (block : Bool)
    (link : Bool) (fom : BitVec 8), s.live = true ∧ k.val ∈ (s.quad q).training ∧ s.inL0 q = true ∧ s.flag (quadA q)
    QUAD_STATUS_PLL_LOCK = true ∧ (((s.proto q = 1 ∨ s.proto q = 4) ∧ (cdr = false ∨ block = false ∨ fom.toNat < s.fld
    (quadA q) (laneF LANE_RX_FOM_PASS k)) ∨ s.proto q ≠ 1 ∧ s.proto q ≠ 4 ∧ link = false)) :=
  ⟨(alive.setQuad 15 { training := [3] }).setFlag (quadA 15) QUAD_STATUS_PLL_LOCK true, 15, 3, false, true, true, 255, by decide +kernel⟩
theorem wit_SerialQuadsTrainLoopTestAndSleep_18 : ∃ (s : State) (q : Fin 16) (k : Fin 4), s.live = true ∧ k.val ∈
    (s.quad q).failed ∧ s.inL0 q = true :=
  ⟨alive.setQuad 15 { failed := [3] }, 15, 3, by decide +kernel⟩
theorem wit_SerialQuadsTrainLoopTestAndSleep_19 : ∃ (s : State) (q : Fin 16) (k : Fin 4) (fom : BitVec 8), s.live =
    true ∧ s.inL0 q = true ∧ s.flag (quadA q) QUAD_PRBS_EN = false ∧ s.fld (quadA q) (laneF LANE_RX_FOM_MIN k) ≤ fom.toNat
    :=
  ⟨alive, 15, 3, 255, by decide +kernel⟩
theorem wit_SerialQuadsTrainLoopTestAndSleep_20 : ∃ (s : State) (q : Fin 16) (k : Fin 4) (fom : BitVec 8), s.live =
    true ∧ s.inL0 q = true ∧ fom.toNat < s.fld (quadA q) (laneF LANE_RX_FOM_MIN k) ∧ s.flag (quadA q) (laneF
    LANE_STAT_DEGRADED k) = false :=
  ⟨alive.setFld (quadA 15) (laneF LANE_RX_FOM_MIN 3) 255, 15, 3, 254, by decide +kernel⟩
theorem wit_SerialQuadsTrainLoopTestAndSleep_21 : ∃ (s : State) (q : Fin 16) (k : Fin 4), s.live = true ∧ ((s.proto q
    = 1 ∨ s.proto q = 4)) ∧ s.inL0 q = true ∧ s.flag (quadA q) (laneF LANE_STAT_BLOCK_LOCK k) = true :=
  ⟨alive.setFlag (quadA 15) (laneF LANE_STAT_BLOCK_LOCK 3) true, 15, 3, by decide +kernel⟩
theorem wit_ThermalSensorsAndVigilGovern_1 : ∃ (s : State) (n : Fin 64) (v : BitVec 16) (h : Int) (u : State), s.live
    = true ∧ s.tsFailed n = false ∧ (s.setFld thmA (tsF n) v.toNat).badReading n v.toInt = false ∧ v.toInt < 640 ∧
    ((s.flag thmA THM_STATUS_LIMIT = true ∨ h ≤ 600)) ∧ ((s.flag thmA THM_STATUS_TRIP = true ∨ h < 640)) ∧ u = (s.setFld
    thmA (tsF n) v.toNat).withThm { s.thm with seen := n.val :: s.thm.seen } ∧ h = u.hottest :=
  ⟨alive, 63, 500, 500, (alive.setFld thmA (tsF 63) 500).withThm { seen := [63] }, by decide +kernel⟩
theorem wit_ThermalSensorsAndVigilGovern_2 : ∃ (s : State) (n : Fin 64) (v : BitVec 16), s.live = true ∧ s.tsFailed n
    = false ∧ (s.setFld thmA (tsF n) v.toNat).badReading n v.toInt = false ∧ 600 < v.toInt ∧ v.toInt < 640 ∧ s.flag thmA
    THM_STATUS_LIMIT = false ∧ s.flag advA PAIR_CTRL_HO_ON_LIMIT = false ∧ ((∀ d : Fin 3, ((s.setFld thmA (tsF n)
    v.toNat).tDie d) ≤ v.toInt)) ∧ ((tsOfDie (dieOfTs n)).filter (fun k => !s.tsFailed k)).length ≥ 8 :=
  ⟨alive, 63, 601, by decide +kernel⟩
theorem wit_ThermalSensorsAndVigilGovern_3 : ∃ (s : State) (n : Fin 64) (v : BitVec 16), s.live = true ∧ s.tsFailed n
    = false ∧ (s.setFld thmA (tsF n) v.toNat).badReading n v.toInt = false ∧ 640 ≤ v.toInt ∧ n.val ∈ s.thm.hot ∧ s.flag
    thmA THM_STATUS_TRIP = false :=
  ⟨alive.withThm { hot := [63] }, 63, 640, by decide +kernel⟩
theorem wit_ThermalSensorsAndVigilGovern_4 : ∃ (s : State) (n : Fin 64) (v : BitVec 16), s.live = true ∧ s.tsFailed n
    = false ∧ (s.setFld thmA (tsF n) v.toNat).badReading n v.toInt = false ∧ 640 ≤ v.toInt ∧ n.val ∈ s.thm.hot ∧ s.flag
    thmA THM_STATUS_TRIP = true ∧ s.flag thmA THM_STATUS_LIMIT = true ∧ ((tsOfDie (dieOfTs n)).filter (fun k =>
    !s.tsFailed k)).length ≥ 8 :=
  ⟨((alive.setFlag thmA THM_STATUS_TRIP true).setFlag thmA THM_STATUS_LIMIT true).withThm { hot := [63] }, 63, 800, by decide +kernel⟩
theorem wit_ThermalSensorsAndVigilGovern_5 : ∃ (s : State) (n : Fin 64) (v : BitVec 16), s.live = true ∧ s.tsFailed n
    = false ∧ (s.setFld thmA (tsF n) v.toNat).badReading n v.toInt = false ∧ 640 ≤ v.toInt ∧ n.val ∉ s.thm.hot ∧ s.flag
    thmA THM_STATUS_TRIP = false ∧ s.flag thmA THM_STATUS_LIMIT = true ∧ ((tsOfDie (dieOfTs n)).filter (fun k =>
    !s.tsFailed k)).length ≥ 8 :=
  ⟨alive.setFlag thmA THM_STATUS_LIMIT true, 63, 640, by decide +kernel⟩
theorem wit_ThermalSensorsAndVigilGovern_6 : ∃ (s : State) (n : Fin 64) (v : BitVec 16), s.live = true ∧ s.tsFailed n
    = false ∧ ((v.toInt < -240 ∨ 800 < v.toInt)) ∧ s.flag thmA THM_STATUS_LIMIT = true ∧ s.flag thmA THM_STATUS_TRIP =
    true :=
  ⟨(alive.setFlag thmA THM_STATUS_LIMIT true).setFlag thmA THM_STATUS_TRIP true, 63, 801, by decide +kernel⟩
theorem wit_ThermalSensorsAndVigilGovern_7 : ∃ (s : State) (n : Fin 64), s.live = true ∧ s.tsFailed n = true :=
  ⟨alive.setFlag thmA (tsFailF 63) true, 63, by decide +kernel⟩
theorem wit_ThermalSensorsAndVigilGovern_8 : ∃ (s : State) (n : Fin 64), s.live = true ∧ s.tsFailed n = false ∧ s.flag
    thmA THM_STATUS_LIMIT = true ∧ s.flag thmA THM_STATUS_TRIP = true ∧ s.tsOverdue n = true :=
  ⟨{ (alive.setFlag thmA THM_STATUS_LIMIT true).setFlag thmA THM_STATUS_TRIP true with tick := 80000 }, 63, by decide +kernel⟩
theorem wit_ThermalSensorsAndVigilGovern_9 : ∃ (s : State) (p : BitVec 16), s.live = true ∧ s.flag thmA THM_CTRL_EN =
    true ∧ s.flag thmA THM_STATUS_THROTTLE = false ∧ s.flag thmA THM_STATUS_HOT = false ∧ s.thm.dramHot = [] ∧ s.thm.fresh
    = false ∧ s.thm.last = none ∧ s.fld thmA THM_PLIMIT_P_LIMIT ≠ 0 ∧ s.fld thmA THM_PLIMIT_P_LIMIT < p.toNat ∧
    s.vigilStep + 1 < s.ladder.length ∧ s.fld thmA THM_TCFG_S_MIN ≤ s.vigilStep + 1 ∧ s.ladder.length < 64 :=
  ⟨(alive.setFlag thmA THM_CTRL_EN true).setFld thmA THM_PLIMIT_P_LIMIT 0xFFFE, 0xFFFF, by decide +kernel⟩
theorem wit_ThermalSensorsAndVigilGovern_10 : ∃ (s : State) (p : BitVec 16), s.live = true ∧ s.flag thmA THM_CTRL_EN =
    true ∧ s.flag thmA THM_STATUS_THROTTLE = false ∧ s.flag thmA THM_STATUS_HOT = false ∧ s.thm.dramHot = [] ∧ s.thm.fresh
    = false ∧ p.toNat + s.fld thmA THM_PLIMIT_P_HYST < s.fld thmA THM_PLIMIT_P_LIMIT ∧ s.tHot < s.fld thmA
    THM_TCFG_T_TARGET * 4 - 12 ∧ s.fld thmA THM_TCFG_S_MIN < s.vigilStep ∧ max 1 (s.fld thmA THM_CTRL_HOLD_MS) ≤
    s.thm.since ∧ s.vigilStep ≤ s.ladder.length ∧ s.ladder.length < 64 :=
  ⟨(((alive.setFlag thmA THM_CTRL_EN true).setFld thmA THM_PLIMIT_P_LIMIT 1).setFld thmA THM_PLIMIT_P_HYST 0).setFld thmA THM_STEP_S 1, 0, by decide +kernel⟩
theorem wit_ThermalSensorsAndVigilGovern_11 : ∃ (s : State) (p : BitVec 16), s.live = true ∧ s.flag thmA THM_CTRL_EN =
    true ∧ s.flag thmA THM_STATUS_THROTTLE = false ∧ s.flag thmA THM_STATUS_HOT = false ∧ s.thm.dramHot = [] ∧ s.thm.fresh
    = false ∧ p.toNat ≤ s.fld thmA THM_PLIMIT_P_LIMIT ∧ s.fld thmA THM_PLIMIT_P_LIMIT ≤ p.toNat + s.fld thmA
    THM_PLIMIT_P_HYST ∧ s.fld thmA THM_PLIMIT_P_LIMIT ≠ 0 ∧ s.fld thmA THM_TCFG_S_MIN ≤ s.vigilStep ∧ s.vigilStep <
    s.ladder.length ∧ s.ladder.length < 64 :=
  ⟨((alive.setFlag thmA THM_CTRL_EN true).setFld thmA THM_PLIMIT_P_LIMIT 1).setFld thmA THM_PLIMIT_P_HYST 0, 1, by decide +kernel⟩
theorem wit_ThermalSensorsAndVigilGovern_12 : ∃ (s : State), s.live = true ∧ s.thm.lost = false ∧ s.thm.ranTick +
    usTicks 10000 ≤ s.tick ∧ s.engFreq 0 = 8 ∧ s.engFreq 1 = 8 :=
  ⟨{ alive with tick := 4000000 }, by decide +kernel⟩
theorem wit_ThermalSensorsAndVigilGovern_13 : ∃ (s : State) (d : Fin 2), s.live = true ∧ s.thm.lost = false ∧
    s.thm.ranTick + usTicks 10000 ≤ s.tick ∧ 8 < s.engFreq d ∧ s.engFreq (1 - d.val) = 8 :=
  ⟨{ alive.setFld thmA THM_OPPT_ENG_C1 31 with tick := 4000000 }, 1, by decide +kernel⟩
theorem wit_ThermalSensorsAndVigilGovern_14 : ∃ (s : State), s.live = true :=
  ⟨alive, by decide +kernel⟩
theorem wit_ThermalSensorsAndVigilGovern_15 : ∃ (s : State), s.live = true ∧ s.thm.measTick + usTicks 20000 ≤ s.tick
    :=
  ⟨{ alive with tick := 8000000 }, by decide +kernel⟩
theorem wit_ThermalSensorsAndVigilGovern_16 : ∃ (s : State), s.live = true ∧ 85 ≤ s.fld thmA THM_TCFG_T_TARGET ∧ s.fld
    thmA THM_TCFG_T_TARGET ≤ 135 :=
  ⟨alive, by decide +kernel⟩
theorem wit_ThermalSensorsAndVigilGovern_17 : ∃ (s : State) (i : Nat), s.live = true ∧ s.fld thmA THM_OIDX_ENTRY = i ∧
    s.vigilStep = 0 :=
  ⟨alive.setFld thmA THM_OIDX_ENTRY 31, 31, by decide +kernel⟩
theorem wit_ThermalSensorsAndVigilGovern_18 : ∃ (s : State), s.live = true ∧ s.vigilStep = 1 :=
  ⟨alive.setFld thmA THM_STEP_S 1, by decide +kernel⟩
theorem wit_ThermalSensorsAndVigilGovern_19 : ∃ (s : State) (d : Fin 2) (g : Nat), s.live = true ∧ (s.dieFreq d).due =
    some g ∧ s.engFreq d ≤ g ∧ g < 32 :=
  ⟨alive.withThm { c1 := { due := some 31 } }, 1, 31, by decide +kernel⟩
theorem wit_ThermalSensorsAndVigilGovern_20 : ∃ (s : State) (d : Fin 2) (g : Nat), s.live = true ∧ (s.dieFreq d).due =
    some g ∧ g < s.engFreq d ∧ s.flag gpioA AVS_CTRL_AVS_EN = true :=
  ⟨((alive.withThm { c1 := { due := some 8 } }).setFld thmA THM_OPPT_ENG_C1 31).setFlag gpioA AVS_CTRL_AVS_EN true, 1, 8, by decide +kernel⟩
theorem wit_ThermalSensorsAndVigilGovern_21 : ∃ (s : State) (d : Fin 2) (m : Nat) (f : Nat) (k : Nat), s.live = true ∧
    (s.dieFreq d).avs = some ⟨m, some f, k⟩ ∧ m < 1024 :=
  ⟨alive.withThm { c1 := { avs := some ⟨1023, some 18, 7⟩ } }, 1, 1023, 18, 7, by decide +kernel⟩
theorem wit_ThermalSensorsAndVigilGovern_22 : ∃ (s : State) (d : Fin 2) (a : AvsReq), s.live = true ∧ (s.dieFreq
    d).avs = some a ∧ a.tick + usTicks 20 ≤ s.tick :=
  ⟨{ alive.withThm { c1 := { avs := some ⟨1023, some 18, 0⟩ } } with tick := 8000 }, 1, ⟨1023, some 18, 0⟩, by decide +kernel⟩
theorem wit_TwoWireControllersTransferRetryAndRecover_1 : ∃ (s : State) (c : Fin 8) (v : Word), s.live = true ∧ s.flag
    (twcA c) TWC_CTRL_EN = true ∧ s.flag (twcA c) TWC_CMD_GO = false ∧ v.toNat.testBit 30 = false ∧ (s.twc c).queue = [] ∧
    (s.twc c).cur = none ∧ (s.twc c).poll = [] ∧ (s.twc c).busy = false ∧ s.twcStuck c = false ∧ ((∀ p : Fin 12, (s.cal
    p).waiting = [])) :=
  ⟨alive.setFlag (twcA 7) TWC_CTRL_EN true, 7, 0xBFFFFFFF, by decide +kernel⟩
theorem wit_TwoWireControllersTransferRetryAndRecover_2 : ∃ (s : State) (c : Fin 8) (v : Word), s.live = true ∧ s.flag
    (twcA c) TWC_CMD_GO = false ∧ v.toNat.testBit 30 = false ∧ (s.twc c).queue = [] ∧ (s.twc c).cur = none ∧ s.twcStuck c
    = true ∧ ((∀ p : Fin 12, (s.cal p).waiting = [])) :=
  ⟨alive.setFlag (twcA 7) TWC_STATUS_SDA_STUCK true, 7, 0, by decide +kernel⟩
theorem wit_TwoWireControllersTransferRetryAndRecover_3 : ∃ (s : State) (c : Fin 8) (v : Word), s.live = true ∧ s.flag
    (twcA c) TWC_CMD_GO = false ∧ v.toNat.testBit 30 = false ∧ (s.twc c).queue = [] ∧ (s.twc c).busy = true ∧ s.twcStuck c
    = false ∧ ((∀ p : Fin 12, (s.cal p).waiting = [])) :=
  ⟨alive.setTwc 7 { busy := true }, 7, 0, by decide +kernel⟩
theorem wit_TwoWireControllersTransferRetryAndRecover_4 : ∃ (s : State) (v : Word), s.live = true ∧ v.toNat.testBit 31
    = false :=
  ⟨alive.setTwc 7 { onBus := true }, 0x7FFFFFFF, by decide +kernel⟩
theorem wit_TwoWireControllersTransferRetryAndRecover_5 : ∃ (s : State) (c : Fin 8), s.live = true ∧ (s.twc c).queue =
    [] ∧ (s.twc c).cur = none ∧ (s.twc c).poll = [] ∧ (s.twc c).swWait = false ∧ ((∀ p : Fin 12, (s.cal p).waiting = []))
    :=
  ⟨alive.setTwc 7 { busy := true }, 7, by decide +kernel⟩
theorem wit_TwoWireControllersTransferRetryAndRecover_6 : ∃ (s : State) (c : Fin 8) (x : TwcItem), s.live = true ∧
    s.flag (twcA c) TWC_CTRL_EN = true ∧ (s.twc c).cur = none ∧ x ∈ (s.twc c).queue ∧ ((∀ y ∈ (s.twc c).queue, s.nowNs <
    y.deadline ∧ (y = x ∨ x.before y = true ∧ y.before x = false))) ∧ ((x.alen = 1 ∨ x.alen = 2)) ∧ ((∀ p : Fin 12, (s.cal
    p).waiting = [])) :=
  ⟨(alive.setFlag (twcA 7) TWC_CTRL_EN true).setTwc 7 { queue := [⟨1, 1, 0, 1, 5, 1, 1, 1, 1, 1⟩, ⟨11, 63, 0, 3, 1, 127, 2, 65535, 4, 0xFFFFFFFF⟩] }, 7, ⟨11, 63, 0, 3, 1, 127, 2, 65535, 4, 0xFFFFFFFF⟩, by decide +kernel⟩
theorem wit_TwoWireControllersTransferRetryAndRecover_7 : ∃ (s : State) (c : Fin 8) (k : Nat) (l : List Nat), s.live =
    true ∧ s.flag (twcA c) TWC_CTRL_EN = true ∧ (s.twc c).cur = none ∧ (s.twc c).queue = [] ∧ (s.twc c).poll = k :: l ∧
    ((∀ p : Fin 12, (s.cal p).waiting = [])) :=
  ⟨(alive.setFlag (twcA 7) TWC_CTRL_EN true).setTwc 7 { poll := [7] }, 7, 7, [], by decide +kernel⟩
theorem wit_TwoWireControllersTransferRetryAndRecover_8 : ∃ (s : State) (c : Fin 8) (x : TwcItem) (p : Fin 12), s.live
    = true ∧ (s.twc c).cur = some (.item x) ∧ (s.twc c).onBus = true ∧ x.port = p ∧ (s.calEntry p x.entry).state = 2 ∧
    x.target = (s.calEntry p x.entry).target ∧ s.nowNs ≤ x.deadline :=
  ⟨(alive.setCalEntry 11 63 { state := 2, wlCount := 1 }).setTwc 7 { cur := some (.item ⟨11, 63, 0, 3, 1, 127, 2, 65535, 4, 1⟩), onBus := true }, 7, ⟨11, 63, 0, 3, 1, 127, 2, 65535, 4, 1⟩, 11, by decide +kernel⟩
theorem wit_TwoWireControllersTransferRetryAndRecover_9 : ∃ (s : State) (c : Fin 8) (x : TwcItem) (p : Fin 12), s.live
    = true ∧ (s.twc c).cur = some (.item x) ∧ (s.twc c).onBus = true ∧ x.port = p ∧ (s.calEntry p x.entry).state = 2 ∧
    s.flag (calA p) CAL_CTRL_MISS_POLICY = false ∧ s.fld (calA p) CAL_CTRL_TWC = c :=
  ⟨((alive.setCalEntry 11 63 { state := 2, wlCount := 1 }).setTwc 7 { cur := some (.item ⟨11, 63, 0, 3, 1, 127, 2, 65535, 4, 1⟩), queue := [⟨11, 63, 0, 3, 1, 127, 2, 65535, 4, 1⟩], onBus := true }).setFld (calA 11) CAL_CTRL_TWC 7, 7, ⟨11, 63, 0, 3, 1, 127, 2, 65535, 4, 1⟩, 11, by decide +kernel⟩
theorem wit_TwoWireControllersTransferRetryAndRecover_10 : ∃ (s : State) (c : Fin 8) (k : Fin 8) (l : List Nat),
    s.live = true ∧ (s.twc c).cur = some (.lantern k) ∧ (s.twc c).onBus = true ∧ (s.twc c).poll = k.val :: l ∧ (s.twc
    c).callAgain = false :=
  ⟨alive.setTwc 7 { cur := some (.lantern 7), onBus := true, poll := [7] }, 7, 7, [], by decide +kernel⟩
theorem wit_TwoWireControllersTransferRetryAndRecover_11 : ∃ (s : State) (c : Fin 8) (d : List Byte), s.live = true ∧
    (s.twc c).cur = some .software ∧ (s.twc c).onBus = true ∧ s.flag (twcA c) TWC_CMD_READ = true ∧ s.fld (twcA c)
    TWC_CMD_LEN = d.length ∧ d.length ≤ 8 :=
  ⟨(alive.wr (twcA 7 + TWC_CMD) 0xA0800000).setTwc 7 { cur := some .software, onBus := true }, 7, [1, 2, 3, 4, 5, 6, 7, 255], by decide +kernel⟩
theorem wit_TwoWireControllersTransferRetryAndRecover_12 : ∃ (s : State) (c : Fin 8), s.live = true ∧ (s.twc c).onBus
    = true ∧ (s.twc c).retries < s.fld (twcA c) TWC_CTRL_RETRY_MAX :=
  ⟨(alive.setFld (twcA 7) TWC_CTRL_RETRY_MAX 7).setTwc 7 { onBus := true, retries := 6 }, 7, by decide +kernel⟩
theorem wit_TwoWireControllersTransferRetryAndRecover_13 : ∃ (s : State) (c : Fin 8), s.live = true ∧ (s.twc c).onBus
    = true ∧ (s.twc c).cur = some .software ∧ s.fld (twcA c) TWC_CTRL_RETRY_MAX ≤ (s.twc c).retries :=
  ⟨(alive.setFld (twcA 7) TWC_CTRL_RETRY_MAX 7).setTwc 7 { cur := some .software, onBus := true, retries := 7 }, 7, by decide +kernel⟩
theorem wit_TwoWireControllersTransferRetryAndRecover_14 : ∃ (s : State) (c : Fin 8), s.live = true ∧ (s.twc c).onBus
    = true ∧ (s.twc c).retries < s.fld (twcA c) TWC_CTRL_RETRY_MAX :=
  ⟨(alive.setFld (twcA 7) TWC_CTRL_RETRY_MAX 7).setTwc 7 { onBus := true, retries := 6 }, 7, by decide +kernel⟩
theorem wit_TwoWireControllersTransferRetryAndRecover_15 : ∃ (s : State) (c : Fin 8), s.live = true ∧ (s.twc c).onBus
    = true ∧ (s.twc c).cur = some .software ∧ s.fld (twcA c) TWC_CTRL_RETRY_MAX ≤ (s.twc c).retries :=
  ⟨(alive.setFld (twcA 7) TWC_CTRL_RETRY_MAX 7).setTwc 7 { cur := some .software, onBus := true, retries := 7 }, 7, by decide +kernel⟩
theorem wit_TwoWireControllersTransferRetryAndRecover_16 : ∃ (s : State) (c : Fin 8), s.live = true ∧ (s.twc c).onBus
    = false ∧ (s.twc c).busy = false ∧ (s.twc c).cur = some .software ∧ s.twcStuck c = false ∧ s.flag (twcA c) TWC_CTRL_EN
    = true :=
  ⟨(alive.setFlag (twcA 7) TWC_CTRL_EN true).setTwc 7 { cur := some .software, retries := 1 }, 7, by decide +kernel⟩
theorem wit_TwoWireControllersTransferRetryAndRecover_17 : ∃ (s : State) (c : Fin 8) (x : TwcItem) (p : Fin 12),
    s.live = true ∧ (s.twc c).onBus = false ∧ (s.twc c).busy = false ∧ (s.twc c).cur = some (.item x) ∧ s.twcStuck c =
    false ∧ s.flag (twcA c) TWC_CTRL_EN = true ∧ x.deadline ≤ s.nowNs ∧ x.port = p ∧ (s.calEntry p x.entry).state = 2 ∧
    s.flag (calA p) CAL_CTRL_MISS_POLICY = false :=
  ⟨((alive.setFlag (twcA 7) TWC_CTRL_EN true).setCalEntry 11 63 { state := 2, wlCount := 1 }).setTwc 7 { cur := some (.item ⟨11, 63, 0, 3, 0, 127, 2, 65535, 4, 1⟩) }, 7, ⟨11, 63, 0, 3, 0, 127, 2, 65535, 4, 1⟩, 11, by decide +kernel⟩
theorem wit_TwoWireControllersTransferRetryAndRecover_18 : ∃ (s : State) (c : Fin 8), s.live = true ∧ (s.twc c).onBus
    = true ∧ (s.twc c).cur = some .software :=
  ⟨(alive.setFlag (twcA 7) TWC_CTRL_LONG_BUS true).setTwc 7 { cur := some .software, onBus := true }, 7, by decide +kernel⟩
theorem wit_TwoWireControllersTransferRetryAndRecover_19 : ∃ (s : State) (c : Fin 8), s.live = true ∧ (s.twc
    c).recovering = true ∧ (s.twc c).sclLow = false :=
  ⟨alive.setTwc 7 { recovering := true }, 7, by decide +kernel⟩
theorem wit_TwoWireControllersTransferRetryAndRecover_20 : ∃ (s : State) (c : Fin 8), s.live = true ∧ (s.twc
    c).recovering = true ∧ (s.twc c).sclLow = false ∧ (s.twc c).swWait = false :=
  ⟨(alive.setFlag (twcA 7) TWC_CTRL_LONG_BUS true).setTwc 7 { recovering := true }, 7, by decide +kernel⟩
theorem wit_TwoWireControllersTransferRetryAndRecover_21 : ∃ (s : State) (c : Fin 8), s.live = true ∧ (s.twc
    c).recovering = true ∧ (s.twc c).sclLow = true :=
  ⟨alive.setTwc 7 { recovering := true, sclLow := true }, 7, by decide +kernel⟩
theorem wit_TwoWireControllersTransferRetryAndRecover_22 : ∃ (s : State) (c : Fin 8), s.live = true ∧ (s.twc c).swWait
    = true ∧ (s.twc c).cur = none :=
  ⟨alive.setTwc 7 { swWait := true }, 7, by decide +kernel⟩
theorem wit_TwoWireControllersTransferRetryAndRecover_23 : ∃ (s : State) (c : Fin 8), s.live = true ∧ (s.twc c).swWait
    = true ∧ (s.twc c).cur = some .software ∧ (s.twc c).onBus = false :=
  ⟨(alive.setFlag (twcA 7) TWC_STATUS_BUSY true).setTwc 7 { swWait := true, cur := some .software, retries := 2 }, 7, by decide +kernel⟩
theorem wit_TwoWireControllersTransferRetryAndRecover_24 : ∃ (s : State) (c : Fin 8), s.live = true ∧ s.flag (twcA c)
    TWC_CTRL_LONG_BUS = false ∧ (s.twc c).swWait = false :=
  ⟨alive.setFlag (twcA 7) TWC_CTRL_LONG_BUS false, 7, by decide +kernel⟩
theorem wit_TwoWireControllersTransferRetryAndRecover_25 : ∃ (s : State) (c : Fin 8), s.live = true ∧ s.flag (twcA c)
    TWC_CTRL_LONG_BUS = true :=
  ⟨alive.setFlag (twcA 7) TWC_CTRL_LONG_BUS true, 7, by decide +kernel⟩
theorem wit_TwoWireControllersTransferRetryAndRecover_26 : ∃ (s : State) (c : Fin 8), s.live = true ∧ s.flag (twcA c)
    TWC_CTRL_EN = true ∧ s.flag (twcA c) TWC_CTRL_LANTERN_EN = true ∧ (s.twc c).busy = false ∧ (s.twc c).cur = none ∧
    (s.twc c).poll = [] :=
  ⟨(alive.setFlag (twcA 7) TWC_CTRL_EN true).setFlag (twcA 7) TWC_CTRL_LANTERN_EN true, 7, by decide +kernel⟩
theorem wit_TwoWireControllersTransferRetryAndRecover_27 : ∃ (s : State), s.live = true :=
  ⟨alive, by decide +kernel⟩
theorem wit_AxesCountJudgeAndFormPoses_1 : ∃ (s : State) (x : Fin 48) (v : Word), s.live = true ∧ s.axRuns x = false ∧
    v.toNat.testBit 31 = false ∧ v.toNat / 2 ^ 28 % 8 < 5 ∧ ((v.toNat.testBit 25 = true → 40 ≤ x.val)) ∧ (s.members
    (v.toNat / 2 ^ 20 % 16)).length ≤ 16 :=
  ⟨alive, 47, 0x4FFFFFFF, by decide +kernel⟩
theorem wit_AxesCountJudgeAndFormPoses_2 : ∃ (s : State) (x : Fin 48) (v : Word), s.live = true ∧ ((5 ≤ v.toNat / 2 ^
    28 % 8 ∨ v.toNat.testBit 25 = true ∧ x.val < 40)) :=
  ⟨alive, 39, 0x02000000, by decide +kernel⟩
theorem wit_AxesCountJudgeAndFormPoses_3 : ∃ (s : State) (x : Fin 48) (v : Word), s.live = true ∧ s.axRuns x = true ∧
    v.toNat.testBit 31 = true ∧ v.toNat / 2 ^ 28 % 8 < 5 ∧ v.toNat / 2 ^ 28 % 8 ≠ s.axMode x ∧ v.toNat.testBit 25 = false
    ∧ ((∀ p : Fin 16, (s.members p).length < 16)) :=
  ⟨axisOn 47 1 0, 47, 0xC0080000, by decide +kernel⟩
theorem wit_AxesCountJudgeAndFormPoses_4 : ∃ (s : State) (x : Fin 48) (i : Nat), s.live = true ∧ s.axRuns x = false ∧
    s.flag (axisA x) AXIS_PIDX_TABLE = false ∧ s.fld (axisA x) AXIS_PIDX_INDEX = i ∧ i < 13 :=
  ⟨alive.wr (axisA 47 + AXIS_PIDX) 12, 47, 12, by decide +kernel⟩
theorem wit_AxesCountJudgeAndFormPoses_5 : ∃ (s : State) (x : Fin 48), s.live = true ∧ s.axRuns x = true ∧ s.flag
    (axisA x) AXIS_PIDX_TABLE = false :=
  ⟨axisOn 47 1 0, 47, by decide +kernel⟩
theorem wit_AxesCountJudgeAndFormPoses_6 : ∃ (s : State) (x : Fin 48) (v : Word), s.live = true ∧ s.axRuns x = false ∧
    v.toNat / 2 ^ 28 % 8 < 5 ∧ v.toNat / 2 ^ 26 % 4 ≠ 3 ∧ ((v.toNat.testBit 25 = true → 40 ≤ x.val ∧ s.axLo x ≤ s.axHi x))
    ∧ ((∀ p : Fin 16, (s.members p).length < 16)) :=
  ⟨alive, 47, 0x4AFBFFFF, by decide +kernel⟩
theorem wit_AxesCountJudgeAndFormPoses_7 : ∃ (s : State) (x : Fin 48) (v : Word), s.live = true ∧ s.axRuns x = false ∧
    v.toNat / 2 ^ 28 % 8 < 5 ∧ ((v.toNat / 2 ^ 26 % 4 = 3 ∧ v.toNat.testBit 25 = false ∨ v.toNat.testBit 25 = true ∧ 40 ≤
    x.val ∧ s.axHi x < s.axLo x)) ∧ (s.members (v.toNat / 2 ^ 20 % 16)).length ≤ 16 :=
  ⟨(alive.tset .axisParam 47 3 1), 47, 0x02000000, by decide +kernel⟩
theorem wit_AxesCountJudgeAndFormPoses_8 : ∃ (s : State) (x : Fin 48) (a : Bool) (b : Bool) (up : Bool) (p : Nat) (n :
    Nat), s.live = true ∧ s.axRuns x = true ∧ s.axMode x = 1 ∧ s.axPreset x = false ∧ s.axLimited x = false ∧ n = s.axCpr
    x ∧ 0 < n ∧ p = s.axPos x ∧ p < n ∧ s.emusOf x = [] ∧ (quadPlace a b + 4 - quadPlace (s.axis x).a (s.axis x).b) % 4 =
    (if up then 1 else 3) ∧ s.flag (axisA x) AXIS_CTRL_DIR_INV = false :=
  ⟨((axisOn 47 1 0).tset .axisParam 47 0 7).wr (axisA 47 + AXIS_POS) 6, 47, true, false, true, 6, 7, by decide +kernel⟩
theorem wit_AxesCountJudgeAndFormPoses_9 : ∃ (s : State) (x : Fin 48) (a : Bool) (b : Bool) (up : Bool), s.live = true
    ∧ s.axRuns x = true ∧ s.axMode x = 1 ∧ s.axPreset x = false ∧ s.axLimited x = true ∧ toSigned 32 (s.axPos x) = (if up
    then s.axHi x else s.axLo x) ∧ (quadPlace a b + 4 - quadPlace (s.axis x).a (s.axis x).b) % 4 = (if up then 1 else 3) ∧
    s.flag (axisA x) AXIS_CTRL_DIR_INV = false :=
  ⟨axisOn 47 1 0x02000000, 47, false, true, false, by decide +kernel⟩
theorem wit_AxesCountJudgeAndFormPoses_10 : ∃ (s : State) (x : Fin 48), s.live = true ∧ s.axRuns x = true ∧ s.axMode x
    = 1 ∧ ((s.axis x).ills.filter (fun t => s.tick < t + s.axPar x 5 % 65536 * 400000)).length + 1 ≤ s.axPar x 5 / 65536
    :=
  ⟨axisOn 47 1 0, 47, by decide +kernel⟩
theorem wit_AxesCountJudgeAndFormPoses_11 : ∃ (s : State) (x : Fin 48), s.live = true ∧ s.axRuns x = true ∧ s.axMode x
    = 1 ∧ s.flag (axisA x) AXIS_STATUS_ILL_FAULT = false ∧ 0 < s.axPar x 5 % 65536 ∧ s.axPar x 5 / 65536 ≤ ((s.axis
    x).ills.filter (fun t => s.tick < t + s.axPar x 5 % 65536 * 400000)).length :=
  ⟨(axisOn 47 1 0).tset .axisParam 47 5 1, 47, by decide +kernel⟩
theorem wit_AxesCountJudgeAndFormPoses_12 : ∃ (s : State) (x : Fin 48) (a : Bool) (b : Bool) (z : Bool) (up : Bool) (p
    : Nat) (q : Nat), s.live = true ∧ s.axRuns x = true ∧ s.axMode x = 2 ∧ s.axPreset x = false ∧ s.axLimited x = false ∧
    s.axCpr x = 0 ∧ s.emusOf x = [] ∧ hallPlace (s.axis x).a (s.axis x).b (s.axis x).z = some p ∧ hallPlace a b z = some q
    ∧ q = (if up then (p + 1) % 6 else (p + 5) % 6) ∧ s.flag (axisA x) AXIS_CTRL_DIR_INV = false :=
  ⟨(axisOn 47 2 0).setAxis 47 { a := true, z := true }, 47, true, false, false, true, 5, 0, by decide +kernel⟩
theorem wit_AxesCountJudgeAndFormPoses_13 : ∃ (s : State) (x : Fin 48), s.live = true ∧ s.axRuns x = true ∧ s.axMode x
    = 2 ∧ hallPlace (s.axis x).a (s.axis x).b (s.axis x).z ≠ none ∧ (s.axis x).ills = [] ∧ 65536 ≤ s.axPar x 5 :=
  ⟨(axisOn 47 2 0).setAxis 47 { z := true }, 47, by decide +kernel⟩
theorem wit_AxesCountJudgeAndFormPoses_14 : ∃ (s : State) (x : Fin 48) (sn : BitVec 12) (cs : BitVec 12) (d : Int) (c
    : Int) (f : Nat), s.live = true ∧ s.axRuns x = true ∧ s.axMode x = 3 ∧ s.axPar x 8 % 16 = 0 ∧ d = sn.toInt - toSigned
    12 (s.axPar x 7 % 4096) ∧ c = cs.toInt - toSigned 12 (s.axPar x 7 / 65536 % 4096) ∧ (s.axPar x 6 % 65536 * 256 : Int)
    ≤ d * d + c * c ∧ d * d + c * c ≤ (s.axPar x 6 / 65536 * 256 : Nat) ∧ ((d ≠ 0 ∨ c ≠ 0)) ∧ (s.axis x).fine = some f ∧
    finePos d c = (f + 1) % 4096 ∧ f < 4096 ∧ s.axPreset x = false ∧ s.axLimited x = false ∧ s.axCpr x = 0 ∧ s.emusOf x =
    [] ∧ s.flag (axisA x) AXIS_CTRL_DIR_INV = false :=
  ⟨((axisOn 47 3 0).setAxis 47 { fine := some 4095 }).tset .axisParam 47 8 0, 47, 0, 1000, 0, 1000, 4095, by decide +kernel⟩
theorem wit_AxesCountJudgeAndFormPoses_15 : ∃ (s : State) (x : Fin 48) (sn : BitVec 12) (cs : BitVec 12) (d : Int) (c
    : Int), s.live = true ∧ s.axRuns x = true ∧ s.axMode x = 3 ∧ s.axPar x 8 % 16 = 0 ∧ d = sn.toInt - toSigned 12
    (s.axPar x 7 % 4096) ∧ c = cs.toInt - toSigned 12 (s.axPar x 7 / 65536 % 4096) ∧ ((d * d + c * c < (s.axPar x 6 %
    65536 * 256 : Int) ∨ (s.axPar x 6 / 65536 * 256 : Nat) < d * d + c * c)) ∧ s.flag (axisA x) AXIS_STATUS_AMP_FAULT =
    false :=
  ⟨((axisOn 47 3 0).tset .axisParam 47 8 0), 47, 0x800, 0x800, -2048, -2048, by decide +kernel⟩
theorem wit_AxesCountJudgeAndFormPoses_16 : ∃ (s : State) (x : Fin 48), s.live = true ∧ s.axRuns x = true ∧ s.axMode x
    = 4 ∧ (s.axis x).polling = false :=
  ⟨axisOn 47 4 0, 47, by decide +kernel⟩
theorem wit_AxesCountJudgeAndFormPoses_17 : ∃ (s : State) (x : Fin 48) (f : List Bool), s.live = true ∧ s.axRuns x =
    true ∧ s.axMode x = 4 ∧ (s.axis x).polling = true ∧ s.axPar x 9 / 2 ^ 18 % 64 = f.length ∧ s.axPar x 9 / 2 ^ 12 % 64 =
    f.length ∧ s.axPar x 9 / 16 % 16 = 0 ∧ s.axPar x 9 / 2 ^ 11 % 2 = 0 ∧ s.axPreset x = false ∧ s.axLimited x = false ∧ 0
    < s.axCpr x :=
  ⟨(((axisOn 47 4 0).setAxis 47 { polling := true }).tset .axisParam 47 0 5).tset .axisParam 47 9 0x82000, 47, [true, true], by decide +kernel⟩
theorem wit_AxesCountJudgeAndFormPoses_18 : ∃ (s : State) (x : Fin 48), s.live = true ∧ s.axRuns x = true ∧ s.axMode x
    = 4 ∧ (s.axis x).polling = true ∧ (s.axis x).ills = [] ∧ 65536 ≤ s.axPar x 5 :=
  ⟨(axisOn 47 4 0).setAxis 47 { polling := true }, 47, by decide +kernel⟩
theorem wit_AxesCountJudgeAndFormPoses_19 : ∃ (s : State) (x : Fin 48) (d : Int), s.live = true ∧ s.axRuns x = true ∧
    ((s.axMode x = 1 ∨ s.axMode x = 3)) ∧ (s.axis x).z = s.flag (axisA x) AXIS_CTRL_Z_INV ∧ s.emusOf x = [] ∧ d = s.axDiff
    x (s.axPos x) (s.axIdxPos x) ∧ d.natAbs ≤ s.axPar x 2 % 65536 ∧ s.fld (axisA x) AXIS_CTRL_IDX_MODE ≠ 1 :=
  ⟨axisOn 47 1 0, 47, 0, by decide +kernel⟩
theorem wit_AxesCountJudgeAndFormPoses_20 : ∃ (s : State) (x : Fin 48) (d : Int), s.live = true ∧ s.axRuns x = true ∧
    ((s.axMode x = 1 ∨ s.axMode x = 3)) ∧ (s.axis x).z = s.flag (axisA x) AXIS_CTRL_Z_INV ∧ s.emusOf x = [] ∧ d = s.axDiff
    x (s.axPos x) (s.axIdxPos x) ∧ s.axPar x 2 % 65536 < d.natAbs ∧ s.fld (axisA x) AXIS_CTRL_IDX_MODE = 1 ∧ (s.axis
    x).firstIndex = false :=
  ⟨((axisOn 47 1 0x04000000).setAxis 47 { firstIndex := false }).wr (axisA 47 + AXIS_POS) 0xFFFFFFFF, 47, -1, by decide +kernel⟩
theorem wit_AxesCountJudgeAndFormPoses_21 : ∃ (s : State) (x : Fin 48) (d : Int), s.live = true ∧ s.axRuns x = true ∧
    ((s.axMode x = 1 ∨ s.axMode x = 3)) ∧ (s.axis x).z = s.flag (axisA x) AXIS_CTRL_Z_INV ∧ s.emusOf x = [] ∧ d = s.axDiff
    x (s.axPos x) (s.axIdxPos x) ∧ s.axPar x 2 % 65536 < d.natAbs ∧ s.fld (axisA x) AXIS_CTRL_IDX_MODE = 0 :=
  ⟨(axisOn 47 1 0).wr (axisA 47 + AXIS_POS) 0xFFFFFFFF, 47, -1, by decide +kernel⟩
theorem wit_AxesCountJudgeAndFormPoses_22 : ∃ (s : State), s.live = true :=
  ⟨alive, by decide +kernel⟩
theorem wit_AxesCountJudgeAndFormPoses_23 : ∃ (s : State) (x : Fin 48), s.live = true ∧ s.axRuns x = true ∧ s.axMode x
    ≠ 4 ∧ (s.axis x).counts = [] :=
  ⟨axisOn 47 1 0, 47, by decide +kernel⟩
theorem wit_AxesCountJudgeAndFormPoses_24 : ∃ (s : State) (x : Fin 48) (l : List (Nat × Bool)) (us : Nat) (n : Nat),
    s.live = true ∧ s.axRuns x = true ∧ s.axMode x ≠ 4 ∧ us = 2 ^ (s.axPar x 11 / 65536 % 16) ∧ l = (s.axis x).counts ∧
    ((∀ c ∈ l, s.tick < c.1 + us * 400 ∧ c.2 = true)) ∧ n = l.length ∧ s.axPar x 11 / 256 % 256 ≤ n ∧ 0 < n ∧ s.tick <
    (l.head?.map (·.1)).getD 0 + s.axPar x 11 % 256 * 400000 ∧ n * 1000000 % us = 0 ∧ n * 1000000 / us < 2 ^ 31 :=
  ⟨((axisOn 47 1 0).setAxis 47 { counts := List.replicate 64 (0, true) }), 47, List.replicate 64 (0, true), 1024, 64, by decide +kernel⟩
theorem wit_AxesCountJudgeAndFormPoses_25 : ∃ (s : State) (x : Fin 48), s.live = true ∧ s.axRuns x = true ∧ s.axMode x
    ≠ 4 ∧ s.axStill x = true :=
  ⟨axisOn 47 1 0, 47, by decide +kernel⟩
theorem wit_PosesAreFormedAndEncoderOutputsFollow_1 : ∃ (s : State) (p : Fin 12) (m : Midpoint) (l : List Midpoint) (a
    : Nat), s.live = true ∧ (s.posePort p).waiting = m :: l ∧ (s.poseWord p 1).testBit 31 = true ∧ (s.members p).length ≤
    16 ∧ a = s.poseWord p 0 * 256 + 256 * (m.frame % 2 ^ (s.poseWord p 1 % 16)) ∧ s.answersAt (a + 16) 240 ∧ m.ns < 2 ^ 48
    ∧ s.poseDue p m = true :=
  ⟨(((usable.withTime { sec := 281475 }).setPosePort 11 { waiting := [⟨2 ^ 48 - 1, 1, 3, 4, true⟩] }).tset .poseTable 0 45 0x8000000C).wr (axisA 47 + AXIS_CTRL) 0x81B00000, 11, ⟨2 ^ 48 - 1, 1, 3, 4, true⟩, [], 0x300, by decide +kernel⟩
theorem wit_PosesAreFormedAndEncoderOutputsFollow_2 : ∃ (s : State) (p : Fin 12) (m : Midpoint) (l : List Midpoint),
    s.live = true ∧ (s.posePort p).waiting = m :: l ∧ (s.poseWord p 1).testBit 31 = false ∧ (s.members p).length ≤ 16 ∧
    s.poseDue p m = true :=
  ⟨(alive.withTime { ns := 1 }).setPosePort 11 { waiting := [⟨1, 1, 3, 4, true⟩] }, 11, ⟨1, 1, 3, 4, true⟩, [], by decide +kernel⟩
theorem wit_PosesAreFormedAndEncoderOutputsFollow_3 : ∃ (s : State) (p : Fin 12) (m : Midpoint) (x : Fin 48), s.live =
    true ∧ (s.posePort p).waiting = [m] ∧ (s.poseWord p 1).testBit 31 = false ∧ (s.members p)[16]? = some x.val ∧
    s.poseDue p m = true :=
  ⟨(List.range 17).foldl (fun (t : State) x => t.wr (axisA (31 + x) + AXIS_CTRL) 0x81B00000) ((alive.withTime { ns := 8001 }).setPosePort 11 { waiting := [⟨1, 1, 3, 4, true⟩] }), 11, ⟨1, 1, 3, 4, true⟩, 47, by decide +kernel⟩
theorem wit_PosesAreFormedAndEncoderOutputsFollow_4 : ∃ (s : State) (p : Fin 12) (a : Nat) (h : List Byte) (l : List
    (Nat × List Byte)), s.live = true ∧ (s.posePort p).header = (a, h) :: l ∧ s.answersAt a h.length :=
  ⟨usable.setPosePort 11 { header := [(0x3FFFFFF0, List.replicate 16 1)] }, 11, 0x3FFFFFF0, List.replicate 16 1, [], by decide +kernel⟩
theorem wit_PosesAreFormedAndEncoderOutputsFollow_5 : ∃ (s : State) (e : Fin 16), s.live = true ∧ s.flag (emuA e)
    EMU_CTRL_EN = false ∧ s.fld (emuA e) EMU_RATIO_NUM ≤ s.fld (emuA e) EMU_RATIO_DEN ∧ 0 < s.fld (emuA e) EMU_RATIO_DEN
    :=
  ⟨alive, 15, by decide +kernel⟩
theorem wit_PosesAreFormedAndEncoderOutputsFollow_6 : ∃ (s : State) (e : Fin 16), s.live = true ∧ s.flag (emuA e)
    EMU_CTRL_EN = false ∧ ((s.fld (emuA e) EMU_RATIO_DEN < s.fld (emuA e) EMU_RATIO_NUM ∨ s.fld (emuA e) EMU_RATIO_DEN =
    0)) :=
  ⟨alive.wr (emuA 15 + EMU_RATIO) 0xFFFEFFFF, 15, by decide +kernel⟩
theorem wit_PosesAreFormedAndEncoderOutputsFollow_7 : ∃ (s : State) (x : Fin 48) (e : Fin 16) (a : Bool) (b : Bool)
    (num : Nat) (den : Nat), s.live = true ∧ s.axRuns x = true ∧ s.axMode x = 1 ∧ s.axPreset x = false ∧ s.axLimited x =
    false ∧ s.axCpr x = 0 ∧ s.emusOf x = [e] ∧ (quadPlace a b + 4 - quadPlace (s.axis x).a (s.axis x).b) % 4 = 1 ∧ s.flag
    (axisA x) AXIS_CTRL_DIR_INV = false ∧ num = s.fld (emuA e) EMU_RATIO_NUM ∧ den = s.fld (emuA e) EMU_RATIO_DEN ∧ den ≤
    (s.emu e).acc + num ∧ (s.emu e).steps.length < 256 :=
  ⟨((axisOn 47 1 0).wr (emuA 15 + EMU_CTRL) 0x802F0000).setEmu 15 { steps := List.replicate 255 false }, 47, 15, true, false, 1, 1, by decide +kernel⟩
theorem wit_PosesAreFormedAndEncoderOutputsFollow_8 : ∃ (s : State) (x : Fin 48) (e : Fin 16) (a : Bool) (b : Bool)
    (num : Nat) (den : Nat), s.live = true ∧ s.axRuns x = true ∧ s.axMode x = 1 ∧ s.axPreset x = false ∧ s.axLimited x =
    false ∧ s.axCpr x = 0 ∧ s.emusOf x = [e] ∧ (quadPlace a b + 4 - quadPlace (s.axis x).a (s.axis x).b) % 4 = 3 ∧ s.flag
    (axisA x) AXIS_CTRL_DIR_INV = false ∧ num = s.fld (emuA e) EMU_RATIO_NUM ∧ den = s.fld (emuA e) EMU_RATIO_DEN ∧ (s.emu
    e).acc < num ∧ (s.emu e).steps.length = 256 :=
  ⟨((axisOn 47 1 0).wr (emuA 15 + EMU_CTRL) 0x802F0000).setEmu 15 { steps := List.replicate 256 false }, 47, 15, false, true, 1, 1, by decide +kernel⟩
theorem wit_PosesAreFormedAndEncoderOutputsFollow_9 : ∃ (s : State) (e : Fin 16) (up : Bool) (a : Bool) (b : Bool) (l
    : List Bool), s.live = true ∧ s.flag (emuA e) EMU_CTRL_EN = true ∧ (s.emu e).steps = up :: l ∧ l.length < 65536 ∧
    s.emuFree e = true ∧ (a, b) = (if up = s.flag (emuA e) EMU_CTRL_DIR_INV then (if (s.emu e).a then (if (s.emu e).b then
    (true, false) else (false, false)) else (if (s.emu e).b then (true, true) else (false, true))) else (if (s.emu e).a
    then (if (s.emu e).b then (false, true) else (true, true)) else (if (s.emu e).b then (false, false) else (true,
    false)))) :=
  ⟨{ (alive.setFlag (emuA 15) EMU_CTRL_EN true).setEmu 15 { steps := [false], a := true, lastStep := some 1 } with tick := 21 }, 15, false, false, false, [], by decide +kernel⟩
theorem wit_PosesAreFormedAndEncoderOutputsFollow_10 : ∃ (s : State) (e : Fin 16), s.live = true ∧ s.fld (emuA e)
    EMU_CTRL_ZMODE = 1 ∧ (s.emu e).z = true ∧ (s.emu e).zTick * 5 + s.fld (emuA e) EMU_TIMING_Z_NS * 2 ≤ s.tick * 5 :=
  ⟨{ (alive.setFld (emuA 15) EMU_CTRL_ZMODE 1).setEmu 15 { z := true, zTick := 1 } with tick := 81 }, 15, by decide +kernel⟩
theorem wit_AudioPortsRunExchangeFramesAndPlayBlocks_1 : ∃ (s : State) (p : Fin 8) (v : Word), s.live = true ∧
    s.audRuns p false = false ∧ s.audRuns p true = false ∧ v.toNat.testBit 30 = false ∧ v.toNat.testBit 20 = s.flag (audpA
    p) AUDP_CTRL_TX_MUTE ∧ s.audRejects p false (v.toNat.testBit 28) = false :=
  ⟨alive, 7, 0x3F2000FF, by decide +kernel⟩
theorem wit_AudioPortsRunExchangeFramesAndPlayBlocks_2 : ∃ (s : State) (p : Fin 8) (v : Word), s.live = true ∧
    s.audRuns p false = false ∧ s.audRuns p true = false ∧ v.toNat.testBit 30 = false ∧ v.toNat.testBit 20 = s.flag (audpA
    p) AUDP_CTRL_TX_MUTE ∧ v.toNat.testBit 21 = s.flag (audpA p) AUDP_CTRL_RX_MUTE ∧ s.audRejects p false (v.toNat.testBit
    28) = true :=
  ⟨alive.wr (audpA 7 + AUDP_RXFMT) 0x33A7, 7, 0x0000000A, by decide +kernel⟩
theorem wit_AudioPortsRunExchangeFramesAndPlayBlocks_3 : ∃ (s : State) (p : Fin 8) (v : Word), s.live = true ∧
    s.audRuns p false = false ∧ s.audRuns p true = false ∧ v.toNat.testBit 31 = false ∧ v.toNat.testBit 21 = s.flag (audpA
    p) AUDP_CTRL_RX_MUTE ∧ s.audRejects p true (v.toNat.testBit 28) = false :=
  ⟨(alive.wr (audpA 7 + AUDP_TXSTART) 0xFFFFFFFF), 7, 0x3F1000FF, by decide +kernel⟩
theorem wit_AudioPortsRunExchangeFramesAndPlayBlocks_4 : ∃ (s : State) (p : Fin 8) (tx : Bool), s.live = true ∧
    s.audRuns p tx = false :=
  ⟨alive, 7, true, by decide +kernel⟩
theorem wit_AudioPortsRunExchangeFramesAndPlayBlocks_5 : ∃ (s : State) (p : Fin 8) (tx : Bool), s.live = true ∧
    s.audRuns p tx = true :=
  ⟨alive.setFlag (audpA 7) AUDP_CTRL_TX_EN true, 7, true, by decide +kernel⟩
theorem wit_AudioPortsRunExchangeFramesAndPlayBlocks_6 : ∃ (s : State) (fam : Bool) (double : Bool) (p : Fin 8) (l :
    List (List Word)) (f : List Word), s.live = true ∧ s.flag (audpA p) AUDP_CTRL_FAM = fam ∧ s.flag (audpA p)
    AUDP_CTRL_DOUBLE = double ∧ ((∀ k : Fin 8, k ≠ p → s.audRuns k false = false ∧ s.audRuns k true = false)) ∧ s.audRuns
    p true = false ∧ s.audRuns p false = true ∧ s.audDrives p false = true ∧ s.flag (audpA (b2n fam)) AUDP_LOOP_WCKO_EN =
    false ∧ (s.aud p).rx = {} ∧ s.rd (audpA p + AUDP_RXMASK) = s.rd (audpA p + AUDP_RXMASK_ACT) ∧ s.rd (audpA p +
    AUDP_RXMASK) = wd (2 ^ s.audSlots p false - 1) ∧ f = s.cutSlots p false ((l[p.val]?).getD []) ∧ (s.aud
    p).cur.frames.length < 63 :=
  ⟨(((alive.setFlag (audpA 7) AUDP_CTRL_RX_EN true).wr (audpA 7 + AUDP_RXMASK) 255).wr (audpA 7 + AUDP_RXMASK_ACT) 255).setAud 7 { cur := { frames := List.replicate 62 [] } }, false, false, 7, List.replicate 8 [0xFFFFFFFF], [0xFFFFFFFF, 0, 0, 0, 0, 0, 0, 0], by decide +kernel⟩
theorem wit_AudioPortsRunExchangeFramesAndPlayBlocks_7 : ∃ (s : State) (fam : Bool) (double : Bool) (p : Fin 8),
    s.live = true ∧ s.flag (audpA p) AUDP_CTRL_FAM = fam ∧ s.flag (audpA p) AUDP_CTRL_DOUBLE = double ∧ ((∀ k : Fin 8, k ≠
    p → s.audRuns k false = false ∧ s.audRuns k true = false)) ∧ s.audRuns p true = false ∧ s.audRuns p false = true ∧
    s.audDrives p false = true ∧ s.flag (audpA (b2n fam)) AUDP_LOOP_WCKO_EN = false ∧ (s.aud p).cur.frames.length = 63 ∧
    (s.aud p).block < 2 ^ 32 - 1 :=
  ⟨(alive.setFlag (audpA 7) AUDP_CTRL_RX_EN true).setAud 7 { block := 2 ^ 32 - 2, cur := { number := 2 ^ 32 - 2, frames := List.replicate 63 [] } }, false, false, 7, by decide +kernel⟩
theorem wit_AudioPortsRunExchangeFramesAndPlayBlocks_8 : ∃ (s : State) (fam : Bool) (double : Bool) (p : Fin 8),
    s.live = true ∧ s.flag (audpA p) AUDP_CTRL_FAM = fam ∧ s.flag (audpA p) AUDP_CTRL_DOUBLE = double ∧ ((∀ k : Fin 8, k ≠
    p → s.audRuns k false = false ∧ s.audRuns k true = false)) ∧ s.audRuns p true = false ∧ s.audRuns p false = true ∧
    s.audDrives p false = false ∧ s.flag (audpA (b2n fam)) AUDP_LOOP_WCKO_EN = false ∧ (s.aud p).rxFifo = [] ∧ (s.aud
    p).cur.frames.length < 63 :=
  ⟨((alive.setFlag (audpA 7) AUDP_CTRL_RX_EN true).wr (audpA 7 + AUDP_RXFMT) 0x203A7), false, false, 7, by decide +kernel⟩
theorem wit_AudioPortsRunExchangeFramesAndPlayBlocks_9 : ∃ (s : State) (fam : Bool) (double : Bool) (p : Fin 8) (f :
    List Word) (rest : List (List Word)), s.live = true ∧ s.flag (audpA p) AUDP_CTRL_FAM = fam ∧ s.flag (audpA p)
    AUDP_CTRL_DOUBLE = double ∧ ((∀ k : Fin 8, k ≠ p → s.audRuns k false = false ∧ s.audRuns k true = false)) ∧ s.audRuns
    p false = false ∧ s.audRuns p true = true ∧ s.audDrives p true = true ∧ s.flag (audpA (b2n fam)) AUDP_LOOP_WCKO_EN =
    false ∧ (s.aud p).tx = {} ∧ s.rd (audpA p + AUDP_TXMASK) = s.rd (audpA p + AUDP_TXMASK_ACT) ∧ s.rd (audpA p +
    AUDP_TXMASK) = wd (2 ^ s.audSlots p true - 1) ∧ (s.aud p).play = f :: rest :=
  ⟨(((alive.setFlag (audpA 7) AUDP_CTRL_TX_EN true).wr (audpA 7 + AUDP_TXMASK) 255).wr (audpA 7 + AUDP_TXMASK_ACT) 255).setAud 7 { play := [[0xFFFFFFFF]] }, false, false, 7, [0xFFFFFFFF], [], by decide +kernel⟩
theorem wit_AudioPortsRunExchangeFramesAndPlayBlocks_10 : ∃ (s : State) (fam : Bool) (double : Bool) (p : Fin 8),
    s.live = true ∧ s.flag (audpA p) AUDP_CTRL_FAM = fam ∧ s.flag (audpA p) AUDP_CTRL_DOUBLE = double ∧ ((∀ k : Fin 8, k ≠
    p → s.audRuns k false = false ∧ s.audRuns k true = false)) ∧ s.audRuns p false = false ∧ s.audRuns p true = true ∧
    s.audDrives p true = false ∧ s.flag (audpA (b2n fam)) AUDP_LOOP_WCKO_EN = false ∧ (s.aud p).txFifo.length = 128 :=
  ⟨((alive.setFlag (audpA 7) AUDP_CTRL_TX_EN true).wr (audpA 7 + AUDP_TXFMT) 0x203A7).setAud 7 { txFifo := List.replicate 128 [] }, false, false, 7, by decide +kernel⟩
theorem wit_AudioPortsRunExchangeFramesAndPlayBlocks_11 : ∃ (s : State) (p : Fin 8), s.live = true ∧ s.audRuns p false
    = true ∧ s.audDrives p false = false ∧ (s.aud p).rxFifo.length < 128 :=
  ⟨((alive.setFlag (audpA 7) AUDP_CTRL_RX_EN true).wr (audpA 7 + AUDP_RXFMT) 0x203A7).setAud 7 { rxFifo := List.replicate 127 ⟨[], 0⟩ }, 7, by decide +kernel⟩
theorem wit_AudioPortsRunExchangeFramesAndPlayBlocks_12 : ∃ (s : State) (p : Fin 8) (n : Nat), s.live = true ∧
    s.audRuns p false = true ∧ s.audDrives p false = false ∧ n ≠ s.frameBits p false :=
  ⟨((alive.setFlag (audpA 7) AUDP_CTRL_RX_EN true).wr (audpA 7 + AUDP_RXFMT) 0x203A7), 7, 255, by decide +kernel⟩
theorem wit_AudioPortsRunExchangeFramesAndPlayBlocks_13 : ∃ (s : State) (p : Fin 8), s.live = true ∧ s.audRuns p false
    = true ∧ s.audDrives p false = false ∧ (s.aud p).rxFifo.length = 128 :=
  ⟨((alive.setFlag (audpA 7) AUDP_CTRL_RX_EN true).wr (audpA 7 + AUDP_RXFMT) 0x203A7).setAud 7 { rxFifo := List.replicate 128 ⟨[], 0⟩ }, 7, by decide +kernel⟩
theorem wit_AudioPortsRunExchangeFramesAndPlayBlocks_14 : ∃ (s : State) (p : Fin 8) (f : List Word) (l : List (List
    Word)), s.live = true ∧ s.audRuns p true = true ∧ s.audDrives p true = false ∧ (s.aud p).txFifo = f :: l ∧ l.length <
    128 ∧ s.flag (audpA p) AUDP_TXFMT_TRI = false :=
  ⟨((alive.setFlag (audpA 7) AUDP_CTRL_TX_EN true).wr (audpA 7 + AUDP_TXFMT) 0x203A7).setAud 7 { txFifo := List.replicate 128 [7] }, 7, [7], List.replicate 127 [7], by decide +kernel⟩
theorem wit_AudioPortsRunExchangeFramesAndPlayBlocks_15 : ∃ (s : State) (p : Fin 8), s.live = true ∧ s.audRuns p true
    = true ∧ s.audDrives p true = false ∧ (s.aud p).txFifo = [] ∧ s.flag (audpA p) AUDP_TXFMT_TRI = false :=
  ⟨((alive.setFlag (audpA 7) AUDP_CTRL_TX_EN true).wr (audpA 7 + AUDP_TXFMT) 0x203A7), 7, by decide +kernel⟩
theorem wit_AudioPortsRunExchangeFramesAndPlayBlocks_16 : ∃ (s : State) (p : Fin 8) (k : AudBlk) (l : List AudBlk) (a
    : Nat) (b : List Byte), s.live = true ∧ (s.aud p).full = k :: l ∧ (s.aud p).buf.length < 2 ∧ a = s.blkAddr p false
    k.number + 64 ∧ s.answersAt a b.length ∧ b = k.frames.reverse.flatMap (fun f => f.flatMap (fun w => toBytes 4
    w.toNat)) :=
  ⟨usable.setAud 7 { full := [{ number := 1, frames := [[2], [1]] }], buf := [{}] }, 7, { number := 1, frames := [[2], [1]] }, [], 64, [1, 0, 0, 0, 2, 0, 0, 0], by decide +kernel⟩
theorem wit_AudioPortsRunExchangeFramesAndPlayBlocks_17 : ∃ (s : State) (p : Fin 8) (k : AudBlk) (l : List AudBlk),
    s.live = true ∧ (s.aud p).full = k :: l ∧ 2 ≤ (s.aud p).buf.length :=
  ⟨usable.setAud 7 { full := [{}], buf := [{}, {}] }, 7, {}, [], by decide +kernel⟩
theorem wit_AudioPortsRunExchangeFramesAndPlayBlocks_18 : ∃ (s : State) (p : Fin 8) (k : AudBlk) (l : List AudBlk) (a
    : Nat), s.live = true ∧ (s.aud p).buf = k :: l ∧ a = s.blkAddr p false k.number ∧ s.answersAt a 64 ∧ k.number < 2 ^ 32
    :=
  ⟨usable.setAud 7 { buf := [{ number := 2 ^ 32 - 1, ns := 1999999999, ramp := true, mask := 255 }] }, 7, { number := 2 ^ 32 - 1, ns := 1999999999, ramp := true, mask := 255 }, [], 0, by decide +kernel⟩
theorem wit_AudioPortsRunExchangeFramesAndPlayBlocks_19 : ∃ (s : State) (p : Fin 8) (a : Nat) (n : Nat), s.live = true
    ∧ s.audRuns p true = true ∧ (s.aud p).fetched = none ∧ a = s.blkAddr p true (s.aud p).e ∧ s.answersAt a (64 + 256 * n)
    ∧ s.answersAt a 64 ∧ s.answersAt (a + 64) (256 * n) ∧ n = s.memNat (a + 10) 1 ∧ 0 < n ∧ n ≤ 32 ∧ s.memNat (a + 12) 4 =
    (s.aud p).e :=
  ⟨(((usable.setFlag (audpA 7) AUDP_CTRL_TX_EN true).setMemByte 10 32).setMemByte 64 9).setAud 7 { e := 0 }, 7, 0, 32, by decide +kernel⟩
theorem wit_AudioPortsRunExchangeFramesAndPlayBlocks_20 : ∃ (s : State) (p : Fin 8) (a : Nat) (e : Bool), s.live =
    true ∧ a = s.blkAddr p true (s.aud p).e ∧ s.answersAt a 64 ∧ ((e = true ∨ s.memNat (a + 12) 4 ≠ (s.aud p).e)) :=
  ⟨usable.setAud 7 { e := 1 }, 7, 0, false, by decide +kernel⟩
theorem wit_AudioPortsRunExchangeFramesAndPlayBlocks_21 : ∃ (s : State) (p : Fin 8) (k : AudPlay), s.live = true ∧
    s.audRuns p true = true ∧ (s.aud p).play = [] ∧ (s.aud p).fetched = some k ∧ s.flag (audpA p) AUDP_CTRL_GRP_EN = false
    ∧ (s.aud p).e < 2 ^ 32 - 1 :=
  ⟨(alive.setFlag (audpA 7) AUDP_CTRL_TX_EN true).setAud 7 { fetched := some ⟨5, [[1]]⟩, e := 2 ^ 32 - 2 }, 7, ⟨5, [[1]]⟩, by decide +kernel⟩
theorem wit_AudioPortsRunExchangeFramesAndPlayBlocks_22 : ∃ (s : State) (p : Fin 8) (next : Nat) (m : Nat) (k :
    AudPlay), s.live = true ∧ s.audRuns p true = true ∧ (s.aud p).play = [] ∧ (s.aud p).fetched = some k ∧ s.flag (audpA
    p) AUDP_CTRL_GRP_EN = true ∧ s.ticksTo p k.ns next = m ∧ (s.aud p).e < 2 ^ 32 - 1 :=
  ⟨((alive.setFlag (audpA 7) AUDP_CTRL_TX_EN true).setFlag (audpA 7) AUDP_CTRL_GRP_EN true).setAud 7 { fetched := some ⟨20833, [[1]]⟩ }, 7, 0, 1, ⟨20833, [[1]]⟩, by decide +kernel⟩
theorem wit_AudioPortsRunExchangeFramesAndPlayBlocks_23 : ∃ (s : State) (p : Fin 8), s.live = true ∧ s.audRuns p true
    = true ∧ (s.aud p).play = [] ∧ (s.aud p).fetched = none ∧ (s.aud p).e < 2 ^ 32 - 1 :=
  ⟨(alive.setFlag (audpA 7) AUDP_CTRL_TX_EN true).setAud 7 { e := 2 ^ 32 - 2 }, 7, by decide +kernel⟩
theorem wit_AudioPortsRunExchangeFramesAndPlayBlocks_24 : ∃ (s : State) (p : Fin 8) (tx : Bool), s.live = true ∧
    s.audRuns p tx = true ∧ ((s.aud p).dir tx).mute = none ∧ s.flag (audpA p) (if tx then AUDP_CTRL_TX_MUTE else
    AUDP_CTRL_RX_MUTE) = false :=
  ⟨alive.setFlag (audpA 7) AUDP_CTRL_TX_EN true, 7, true, by decide +kernel⟩
theorem wit_AudioPortsRunExchangeFramesAndPlayBlocks_25 : ∃ (s : State) (p : Fin 8) (tx : Bool) (n : Nat) (len : Nat),
    s.live = true ∧ s.audRuns p tx = true ∧ ((s.aud p).dir tx).mute = some ⟨n, len, false⟩ ∧ s.flag (audpA p) (if tx then
    AUDP_CTRL_TX_MUTE else AUDP_CTRL_RX_MUTE) = true :=
  ⟨((alive.setFlag (audpA 7) AUDP_CTRL_TX_EN true).setFlag (audpA 7) AUDP_CTRL_TX_MUTE true).setAud 7 { tx := { mute := some ⟨3, 480, false⟩ } }, 7, true, 3, 480, by decide +kernel⟩
theorem wit_AudioPortsRunExchangeFramesAndPlayBlocks_26 : ∃ (s : State), s.live = true :=
  ⟨alive, by decide +kernel⟩
theorem wit_AudioPortsRunExchangeFramesAndPlayBlocks_27 : ∃ (s : State) (p : Fin 8) (tx : Bool) (n : Nat) (len : Nat),
    s.live = true ∧ ((s.aud p).dir tx).mute = some ⟨n, len, false⟩ ∧ len ≤ n ∧ ((s.aud p).dir tx).slots = [] :=
  ⟨alive.setAud 7 { tx := { mute := some ⟨480, 480, false⟩ } }, 7, true, 480, 480, by decide +kernel⟩
theorem wit_AudioPortsRunExchangeFramesAndPlayBlocks_28 : ∃ (s : State) (f : Fin 2) (x : Int) (e : Int) (i : Int),
    s.live = true ∧ ((s.fld (audpA f) AUDP_LOOP_MODE = 3 ∨ s.fld (audpA f) AUDP_LOOP_MODE = 2 ∧ 256 * s.tickPhase f =
    1000000000 * x)) ∧ x.natAbs ≤ s.fld (audpA f) AUDP_STEER_LOCK_WIN ∧ i = clampInt (-8388608) 8388608 ((s.aud f).integ +
    s.fld (audpA f) AUDP_LOOP_KI * x) ∧ e = s.fld (audpA f) AUDP_LOOP_KP * x + i ∧ e % 256 = 0 :=
  ⟨(alive.setFld (audpA 1) AUDP_LOOP_MODE 3).setAud 1 { locks := 99 }, 1, 64, 4352, 256, by decide +kernel⟩
theorem wit_AudioPortsRunExchangeFramesAndPlayBlocks_29 : ∃ (s : State) (f : Fin 2) (x : Int), s.live = true ∧ ((s.fld
    (audpA f) AUDP_LOOP_MODE = 3 ∨ s.fld (audpA f) AUDP_LOOP_MODE = 2 ∧ 256 * s.tickPhase f = 1000000000 * x)) ∧ s.fld
    (audpA f) AUDP_STEER_LOCK_WIN < x.natAbs :=
  ⟨alive.setFld (audpA 1) AUDP_LOOP_MODE 3, 1, -65, by decide +kernel⟩
theorem wit_AudioPortsRunExchangeFramesAndPlayBlocks_30 : ∃ (s : State) (f : Fin 2) (v : Word), s.live = true ∧
    ((v.toNat / 2 ^ 30 = 1 → s.fld (audpA (v.toNat / 2 ^ 27 % 8)) AUDP_CTRL_FAM = f ∧ s.audDrives (v.toNat / 2 ^ 27 % 8)
    false = false)) :=
  ⟨((alive.setFlag (audpA 7) AUDP_CTRL_FAM true).wr (audpA 7 + AUDP_RXFMT) 0), 1, 0x7C00FFFF, by decide +kernel⟩
theorem wit_AudioPortsRunExchangeFramesAndPlayBlocks_31 : ∃ (s : State) (f : Fin 2) (v : Word), s.live = true ∧
    v.toNat / 2 ^ 30 = 1 ∧ ((s.fld (audpA (v.toNat / 2 ^ 27 % 8)) AUDP_CTRL_FAM ≠ f ∨ s.audDrives (v.toNat / 2 ^ 27 % 8)
    false = true)) :=
  ⟨alive, 1, 0x7C00FFFF, by decide +kernel⟩
theorem wit_AudioPortsRunExchangeFramesAndPlayBlocks_32 : ∃ (s : State), s.live = true :=
  ⟨alive, by decide +kernel⟩
theorem wit_ProcessionPortsShareTimeAndPairsHandOver_1 : ∃ (s : State) (right : Bool) (l : List LaneMarker), s.live =
    true ∧ s.prcOn right = true ∧ s.prcReady right = true ∧ aligned l = true ∧ ((∀ m ∈ validMarkers l, m.tag / 16 % 2 ≠
    b2n right)) :=
  ⟨prcOn true, true, [⟨0, 2, 0, 1, 0⟩, ⟨1, 2, 0, 1, 0⟩], by decide +kernel⟩
theorem wit_ProcessionPortsShareTimeAndPairsHandOver_2 : ∃ (s : State) (right : Bool) (l : List LaneMarker), s.live =
    true ∧ s.prcOn right = true ∧ s.prcReady right = true ∧ aligned l = true ∧ ((∀ m ∈ validMarkers l, m.tag / 16 % 2 =
    b2n right)) ∧ validMarkers l ≠ [] :=
  ⟨prcOn true, true, [⟨0, 2, 0, 1, 0x10⟩, ⟨1, 2, 0, 1, 0x10⟩], by decide +kernel⟩
theorem wit_ProcessionPortsShareTimeAndPairsHandOver_3 : ∃ (s : State) (right : Bool) (e : BeatStamp) (p : List Byte),
    s.live = true ∧ s.prcOn right = true ∧ (s.proc right).echo = some e ∧ p = prcPacket 0x40 0xFFFF (toBytes 2 (((s.proc
    right).seq + 1) % 65536) ++ toBytes 1 (s.fld topA TOP_STRAP_POSN) ++ toBytes 1 (s.fld advA ADV_SYSID_PKG_NUM + 16 *
    s.fld advA ADV_SYSID_VALID) ++ toBytes 1 (b2n (decide (s.phase = 7)) + 2 * b2n (s.paired && s.active) + 4 * s.fld
    (fltA 0) FLT_STATUS_DEGRADED + 8 * s.fld advA ADV_STATUS_MAINT + 16 * s.fld thmA THM_STATUS_WARN) ++ [0] ++ toBytes 6
    s.time.sec ++ toBytes 4 s.time.ns ++ toBytes 2 e.seq ++ toBytes 6 (e.ns / 1000000000) ++ toBytes 4 (e.ns %
    1000000000)) :=
  ⟨(prcOn true).setProc true { seq := 65535, echo := some ⟨65535, 1999999999⟩ }, true, ⟨65535, 1999999999⟩, prcPacket 0x40 0xFFFF (toBytes 2 0 ++ toBytes 1 ((prcOn true).fld topA TOP_STRAP_POSN) ++ toBytes 1 0 ++ toBytes 1 0 ++ [0] ++ toBytes 6 0 ++ toBytes 4 0 ++ toBytes 2 65535 ++ toBytes 6 1 ++ toBytes 4 999999999), by decide +kernel⟩
theorem wit_ProcessionPortsShareTimeAndPairsHandOver_4 : ∃ (s : State) (right : Bool) (c : List Byte) (p : List Byte),
    s.live = true ∧ s.prcOn right = true ∧ (s.proc right).aligned = true ∧ c.length = 28 ∧ p = prcPacket 0x40 0xFFFF c ∧
    (s.proc right).run = 2 ∧ s.prcUp right = false ∧ s.flag advA (prcF right PRC_STATUS_L_WIRING_ERR) = false :=
  ⟨(prcOn true).setProc true { aligned := true, run := 2 }, true, List.replicate 28 0xFF, prcPacket 0x40 0xFFFF (List.replicate 28 0xFF), by decide +kernel⟩
theorem wit_ProcessionPortsShareTimeAndPairsHandOver_5 : ∃ (s : State) (right : Bool) (c : List Byte) (p : List Byte),
    s.live = true ∧ s.prcOn right = true ∧ (s.proc right).aligned = true ∧ c.length = 28 ∧ p = prcPacket 0x40 0xFFFF c ∧
    (s.proc right).run < 2 ∧ s.prcUp right = false :=
  ⟨(prcOn true).setProc true { aligned := true, run := 1 }, true, List.replicate 28 0xFF, prcPacket 0x40 0xFFFF (List.replicate 28 0xFF), by decide +kernel⟩
theorem wit_ProcessionPortsShareTimeAndPairsHandOver_6 : ∃ (s : State) (right : Bool) (p : List Byte), s.live = true ∧
    s.prcOn right = true ∧ (s.proc right).aligned = true ∧ ((prcGood p = false ∨ p.length ≠ 36)) :=
  ⟨(prcOn true).setProc true { aligned := true, run := 1 }, true, [], by decide +kernel⟩
theorem wit_ProcessionPortsShareTimeAndPairsHandOver_7 : ∃ (s : State) (right : Bool) (c : List Byte) (p : List Byte)
    (b : BeatStamp) (two : Int), s.live = true ∧ s.prcOn right = true ∧ (s.proc right).aligned = true ∧ c.length = 28 ∧ p
    = prcPacket 0x40 0xFFFF c ∧ s.prcUp right = true ∧ s.timeSrc ≠ 2 ∧ (s.proc right).sentBeats.find? (fun x => x.seq =
    pktNat p 20 2) = some b ∧ two = ((pktNat p 22 6 * 1000000000 + pktNat p 28 4 : Nat) : Int) - b.ns + ((pktNat p 10 6 *
    1000000000 + pktNat p 16 4 : Nat) - s.nowNs) ∧ two % 2 = 0 :=
  ⟨((prcOn true).setProc true { aligned := true, run := 3, sentBeats := [⟨5, 0⟩, ⟨0xFFFF, 0⟩] }).setFlag advA PRC_STATUS_R_UP true, true, List.replicate 16 0 ++ [0xFF, 0xFF] ++ List.replicate 6 0 ++ [2, 0, 0, 0], prcPacket 0x40 0xFFFF (List.replicate 16 0 ++ [0xFF, 0xFF] ++ List.replicate 6 0 ++ [2, 0, 0, 0]), ⟨0xFFFF, 0⟩, 2, by decide +kernel⟩
theorem wit_ProcessionPortsShareTimeAndPairsHandOver_8 : ∃ (s : State) (right : Bool) (c : List Byte) (p : List Byte)
    (b : BeatStamp) (two : Int), s.live = true ∧ s.prcOn right = true ∧ (s.proc right).aligned = true ∧ c.length = 28 ∧ p
    = prcPacket 0x40 0xFFFF c ∧ s.prcUp right = true ∧ s.timeSrc = 2 ∧ s.upstream = some right ∧ (s.proc
    right).sentBeats.find? (fun x => x.seq = pktNat p 20 2) = some b ∧ two = ((pktNat p 22 6 * 1000000000 + pktNat p 28 4
    : Nat) : Int) - b.ns + ((pktNat p 10 6 * 1000000000 + pktNat p 16 4 : Nat) - s.nowNs) ∧ two % 2 = 0 ∧ -200 < two ∧ two
    < 200 ∧ s.time.small < 9 :=
  ⟨(((prcOn true).setProc true { aligned := true, run := 3, sentBeats := [⟨0xFFFF, 0⟩], time := some ⟨0, 1, 1, 0, 0, 0, 0⟩ }).setFlag advA PRC_STATUS_R_UP true).setFld timeA TIME_CTRL_SRC 2, true, List.replicate 16 0 ++ [0xFF, 0xFF] ++ List.replicate 6 0 ++ [198, 0, 0, 0], prcPacket 0x40 0xFFFF (List.replicate 16 0 ++ [0xFF, 0xFF] ++ List.replicate 6 0 ++ [198, 0, 0, 0]), ⟨0xFFFF, 0⟩, 198, by decide +kernel⟩
theorem wit_ProcessionPortsShareTimeAndPairsHandOver_9 : ∃ (s : State) (right : Bool) (c : List Byte) (p : List Byte),
    s.live = true ∧ s.prcOn right = true ∧ (s.proc right).aligned = true ∧ c.length = 28 ∧ p = prcPacket 0x40 0xFFFF c ∧
    s.prcUp right = true ∧ s.timeSrc ≠ 2 ∧ (s.proc right).sentBeats.find? (fun x => x.seq = pktNat p 20 2) = none :=
  ⟨((prcOn true).setProc true { aligned := true, run := 3 }).setFlag advA PRC_STATUS_R_UP true, true, List.replicate 28 0, prcPacket 0x40 0xFFFF (List.replicate 28 0), by decide +kernel⟩
theorem wit_ProcessionPortsShareTimeAndPairsHandOver_10 : ∃ (s : State) (right : Bool), s.live = true ∧ s.prcUp right
    = true ∧ (s.proc right).beatTick + usTicks 150 ≤ s.tick ∧ s.partnerOn right = false ∧ s.timeSrc ≠ 2 :=
  ⟨{ (alive.setFlag advA PRC_STATUS_R_UP true).setProc true { beatTick := 5 } with tick := 60005 }, true, by decide +kernel⟩
theorem wit_ProcessionPortsShareTimeAndPairsHandOver_11 : ∃ (s : State) (right : Bool) (p : List Byte), s.live = true
    ∧ s.prcOn right = true ∧ (s.proc right).aligned = true ∧ prcGood p = true ∧ pktNat p 2 2 ≠ 0xFFFF ∧ pktNat p 2 2 ≠
    s.myPkg ∧ s.paired = false ∧ s.prcUp (!right) = true :=
  ⟨((prcOn true).setProc true { aligned := true }).setFlag advA PRC_STATUS_L_UP true, true, prcPacket 0x43 15 [], by decide +kernel⟩
theorem wit_ProcessionPortsShareTimeAndPairsHandOver_12 : ∃ (s : State) (p : List Byte), s.live = true ∧ prcGood p =
    true ∧ pktNat p 2 2 = s.myPkg :=
  ⟨alive, prcPacket 0x43 0 [], by decide +kernel⟩
theorem wit_ProcessionPortsShareTimeAndPairsHandOver_13 : ∃ (s : State) (right : Bool) (p : List Byte), s.live = true
    ∧ s.prcOn right = true ∧ (s.proc right).aligned = true ∧ prcGood p = false :=
  ⟨(prcOn true).setProc true { aligned := true }, true, [1], by decide +kernel⟩
theorem wit_ProcessionPortsShareTimeAndPairsHandOver_14 : ∃ (s : State) (right : Bool), s.live = true ∧ s.prcUp right
    = true ∧ s.flag advA ADV_SYSID_LEADER = true :=
  ⟨(alive.setFlag advA PRC_STATUS_R_UP true).setFlag advA ADV_SYSID_LEADER true, true, by decide +kernel⟩
theorem wit_ProcessionPortsShareTimeAndPairsHandOver_15 : ∃ (s : State) (right : Bool) (r : Bool) (k : TimePkt),
    s.live = true ∧ s.prcUp right = true ∧ s.flag advA ADV_SYSID_LEADER = false ∧ s.upstream = some r ∧ (s.proc r).time =
    some k :=
  ⟨(alive.setFlag advA PRC_STATUS_R_UP true).setProc true { time := some ⟨0, 1, 7, 9, 2 ^ 64 - 1, 255, 65535⟩ }, true, true, ⟨0, 1, 7, 9, 2 ^ 64 - 1, 255, 65535⟩, by decide +kernel⟩
theorem wit_ProcessionPortsShareTimeAndPairsHandOver_16 : ∃ (s : State) (right : Bool) (c : List Byte) (p : List
    Byte), s.live = true ∧ s.prcUp right = true ∧ s.timeSrc = 2 ∧ c.length = 20 ∧ p = prcPacket 0x43 0xFFFF c ∧ pktNat p 4
    1 = s.time.leader ∧ (pktNat p 6 1).testBit 0 = true ∧ s.prcUp (!right) = false :=
  ⟨(alive.setFlag advA PRC_STATUS_R_UP true).setFld timeA TIME_CTRL_SRC 2, true, [0, 30, 1] ++ List.replicate 17 0xFF, prcPacket 0x43 0xFFFF ([0, 30, 1] ++ List.replicate 17 0xFF), by decide +kernel⟩
theorem wit_ProcessionPortsShareTimeAndPairsHandOver_17 : ∃ (s : State) (right : Bool) (p : List Byte), s.live = true
    ∧ s.prcUp right = true ∧ prcGood p = false :=
  ⟨alive.setFlag advA PRC_STATUS_R_UP true, true, [], by decide +kernel⟩
theorem wit_ProcessionPortsShareTimeAndPairsHandOver_18 : ∃ (s : State) (l : List (Nat × Bool)), s.live = true ∧
    s.timeSrc = 2 ∧ s.flag advA ADV_SYSID_LEADER = false ∧ s.leaderSeen = false ∧ s.usable s.activeDom = true ∧
    s.activeDom < 2 ∧ ((∀ k ∈ l, k.2 = true → s.myPkg < k.1)) :=
  ⟨((alive.setFlag timeA (domF DOM_CTRL_EN 0) true).setFlag timeA (domF DOM_UPD_STALE 0) false).setFld timeA TIME_CTRL_SRC 2, [(15, true), (0, false)], by decide +kernel⟩
theorem wit_ProcessionPortsShareTimeAndPairsHandOver_19 : ∃ (s : State) (n : Nat) (l : List (Nat × Bool)), s.live =
    true ∧ s.timeSrc = 2 ∧ s.flag advA ADV_SYSID_LEADER = false ∧ s.leaderSeen = false ∧ s.usable 0 = false ∧ s.usable 1 =
    false ∧ n ≠ s.myPkg ∧ ((∀ k ∈ l, k.2 = true → n ≤ k.1)) :=
  ⟨alive.setFld timeA TIME_CTRL_SRC 2, 15, [(1, false)], by decide +kernel⟩
theorem wit_ProcessionPortsShareTimeAndPairsHandOver_20 : ∃ (s : State), s.live = true ∧ s.timeSrc = 2 ∧ s.flag advA
    ADV_SYSID_LEADER = false ∧ s.leaderSeen = false ∧ s.usable 0 = false ∧ s.usable 1 = false :=
  ⟨alive.setFld timeA TIME_CTRL_SRC 2, by decide +kernel⟩
theorem wit_ProcessionPortsShareTimeAndPairsHandOver_21 : ∃ (s : State) (right : Bool), s.live = true ∧ s.prcUp right
    = true ∧ (s.proc right).beatTick + usTicks 150 ≤ s.tick ∧ s.partnerOn right = true ∧ s.flag advA
    PAIR_STATUS_PARTNER_ACTIVE = true ∧ s.mayTake = true ∧ s.timeSrc ≠ 2 :=
  ⟨{ ((alive.setFlag advA PRC_STATUS_R_UP true).setFlag advA ADV_SYSID_PAIR_OK true).setFlag advA PAIR_STATUS_PARTNER_ACTIVE true with tick := 60000 }, true, by decide +kernel⟩
theorem wit_ProcessionPortsShareTimeAndPairsHandOver_22 : ∃ (s : State) (right : Bool), s.live = true ∧ s.prcUp right
    = true ∧ (s.proc right).beatTick + usTicks 150 ≤ s.tick ∧ s.partnerOn right = true ∧ s.active = true ∧ s.timeSrc ≠ 2
    :=
  ⟨{ ((alive.setFlag advA PRC_STATUS_R_UP true).setFlag advA ADV_SYSID_PAIR_OK true).setFlag advA PAIR_STATUS_ROLE true with tick := 60000 }, true, by decide +kernel⟩
theorem wit_ProcessionPortsShareTimeAndPairsHandOver_23 : ∃ (s : State) (right : Bool), s.live = true ∧ s.partnerOn
    right = true ∧ s.prcUp right = true ∧ ((right = true → s.partnerOn false = false ∨ s.prcUp false = false)) :=
  ⟨(((alive.setFlag advA PRC_STATUS_R_UP true).setFlag advA ADV_SYSID_PAIR_OK true).setFlag advA PAIR_STATUS_BY_LOSS true).withPair { seq := 65535, req := 2, partner := 15 }, true, by decide +kernel⟩
theorem wit_ProcessionPortsShareTimeAndPairsHandOver_24 : ∃ (s : State), s.live = true ∧ ((s.paired = false ∨ (s.prcUp
    false = false ∧ s.prcUp true = false))) :=
  ⟨alive.setFlag advA ADV_SYSID_PAIR_OK true, by decide +kernel⟩
theorem wit_ProcessionPortsShareTimeAndPairsHandOver_25 : ∃ (s : State) (right : Bool) (c : List Byte) (p : List
    Byte), s.live = true ∧ s.prcOn right = true ∧ (s.proc right).aligned = true ∧ c.length = 44 ∧ p = prcPacket 0x42
    s.myPkg c ∧ s.paired = true ∧ pktNat p 8 1 = 0 ∧ (pktNat p 7 1).testBit 0 = false ∧ ((s.active = false ∨ (pktNat p 6
    1).testBit 0 = false)) ∧ ((pktNat p 12 4 = s.adv.imgCrc ∨ s.flag advA PAIR_STATUS_PAIR_MISMATCH = true)) :=
  ⟨(((prcOn true).setProc true { aligned := true }).setFlag advA ADV_SYSID_PAIR_OK true), true, [0, 0, 1, 0, 0, 0, 0, 0] ++ toBytes 4 0 ++ List.replicate 32 0xFF, prcPacket 0x42 0 ([0, 0, 1, 0, 0, 0, 0, 0] ++ toBytes 4 0 ++ List.replicate 32 0xFF), by decide +kernel⟩
theorem wit_ProcessionPortsShareTimeAndPairsHandOver_26 : ∃ (s : State) (right : Bool) (c : List Byte) (p : List
    Byte), s.live = true ∧ s.prcOn right = true ∧ (s.proc right).aligned = true ∧ c.length = 44 ∧ p = prcPacket 0x42
    s.myPkg c ∧ s.paired = true ∧ pktNat p 8 1 = 0 ∧ (pktNat p 7 1).testBit 0 = false ∧ s.active = false ∧ pktNat p 12 4 ≠
    s.adv.imgCrc ∧ s.flag advA PAIR_STATUS_PAIR_MISMATCH = false :=
  ⟨(((prcOn true).setProc true { aligned := true }).setFlag advA ADV_SYSID_PAIR_OK true), true, [0, 0, 1, 0, 0, 0, 0, 0] ++ toBytes 4 4294967295 ++ List.replicate 32 0xFF, prcPacket 0x42 0 ([0, 0, 1, 0, 0, 0, 0, 0] ++ toBytes 4 4294967295 ++ List.replicate 32 0xFF), by decide +kernel⟩
theorem wit_ProcessionPortsShareTimeAndPairsHandOver_27 : ∃ (s : State) (right : Bool) (c : List Byte) (p : List
    Byte), s.live = true ∧ s.prcOn right = true ∧ (s.proc right).aligned = true ∧ c.length = 44 ∧ p = prcPacket 0x42
    s.myPkg c ∧ s.mayTake = true ∧ ((pktNat p 8 1 = 1 ∨ (pktNat p 7 1).testBit 0 = true)) ∧ pktNat p 12 4 = s.adv.imgCrc
    :=
  ⟨(((prcOn true).setProc true { aligned := true }).setFlag advA ADV_SYSID_PAIR_OK true), true, [0, 0, 1, 0, 1, 0, 0, 0] ++ toBytes 4 0 ++ List.replicate 32 0xFF, prcPacket 0x42 0 ([0, 0, 1, 0, 1, 0, 0, 0] ++ toBytes 4 0 ++ List.replicate 32 0xFF), by decide +kernel⟩
theorem wit_ProcessionPortsShareTimeAndPairsHandOver_28 : ∃ (s : State) (right : Bool) (c : List Byte) (p : List
    Byte), s.live = true ∧ s.prcOn right = true ∧ (s.proc right).aligned = true ∧ c.length = 44 ∧ p = prcPacket 0x42
    s.myPkg c ∧ s.paired = true ∧ s.active = true ∧ pktNat p 12 4 = s.adv.imgCrc ∧ (((pktNat p 8 1 = 2 ∧ s.pair.yielding =
    true) ∨ (pktNat p 8 1 ≠ 2 ∧ (pktNat p 6 1).testBit 0 = true ∧ s.flag advA PAIR_STATUS_BY_LOSS = true ∧ ((pktNat p 6
    1).testBit 1 = false ∨ s.pair.partner < s.myPkg)))) :=
  ⟨((((prcOn true).setProc true { aligned := true }).setFlag advA ADV_SYSID_PAIR_OK true).setFlag advA PAIR_STATUS_ROLE true).withPair { yielding := true, req := 1 }, true, [0, 0, 1, 0, 2, 0, 0, 0] ++ toBytes 4 0 ++ List.replicate 32 0xFF, prcPacket 0x42 0 ([0, 0, 1, 0, 2, 0, 0, 0] ++ toBytes 4 0 ++ List.replicate 32 0xFF), by decide +kernel⟩
theorem wit_ProcessionPortsShareTimeAndPairsHandOver_29 : ∃ (s : State) (right : Bool) (c : List Byte) (p : List
    Byte), s.live = true ∧ s.prcOn right = true ∧ (s.proc right).aligned = true ∧ c.length = 44 ∧ p = prcPacket 0x42
    s.myPkg c ∧ s.paired = true ∧ s.active = true ∧ pktNat p 12 4 = s.adv.imgCrc ∧ pktNat p 8 1 ≠ 2 ∧ (pktNat p 6
    1).testBit 0 = true ∧ ((s.flag advA PAIR_STATUS_BY_LOSS = false ∨ ((pktNat p 6 1).testBit 1 = true ∧ s.myPkg ≤
    s.pair.partner))) :=
  ⟨(((((prcOn true).setProc true { aligned := true }).setFlag advA ADV_SYSID_PAIR_OK true).setFlag advA PAIR_STATUS_ROLE true).setFlag advA PAIR_STATUS_BY_LOSS true).withPair { partner := 1 }, true, [0, 0, 3, 0, 0, 0, 0, 0] ++ toBytes 4 0 ++ List.replicate 32 0xFF, prcPacket 0x42 0 ([0, 0, 3, 0, 0, 0, 0, 0] ++ toBytes 4 0 ++ List.replicate 32 0xFF), by decide +kernel⟩
theorem wit_ProcessionPortsShareTimeAndPairsHandOver_30 : ∃ (s : State) (right : Bool) (p : List Byte), s.live = true
    ∧ s.prcOn right = true ∧ (s.proc right).aligned = true ∧ ((prcGood p = false ∨ p.length ≠ 52)) :=
  ⟨(((prcOn true).setProc true { aligned := true }).setFlag advA ADV_SYSID_PAIR_OK true), true, [], by decide +kernel⟩
theorem wit_ProcessionPortsShareTimeAndPairsHandOver_31 : ∃ (s : State), s.live = true ∧ s.pair.lastTick + usTicks
    2000 ≤ s.tick :=
  ⟨{ alive.setFlag advA PAIR_STATUS_PARTNER_OK true with tick := 800000 }, by decide +kernel⟩
theorem wit_ProcessionPortsShareTimeAndPairsHandOver_32 : ∃ (s : State), s.live = true ∧ s.locked = false ∧ s.paired =
    true ∧ s.active = true ∧ s.pair.yielding = false :=
  ⟨(((prcOn true).setProc true { aligned := true }).setFlag advA ADV_SYSID_PAIR_OK true).setFlag advA PAIR_STATUS_ROLE true, by decide +kernel⟩
theorem wit_ProcessionPortsShareTimeAndPairsHandOver_33 : ∃ (s : State), s.live = true ∧ s.locked = false ∧ ((s.paired
    = false ∨ s.active = false ∨ s.pair.yielding = true)) :=
  ⟨(((prcOn true).setProc true { aligned := true }).setFlag advA ADV_SYSID_PAIR_OK true), by decide +kernel⟩
theorem wit_ProcessionPortsShareTimeAndPairsHandOver_34 : ∃ (s : State), s.live = true ∧ s.pair.yielding = true ∧
    s.pair.askTick + usTicks 1000 ≤ s.tick :=
  ⟨{ alive.withPair { yielding := true, req := 1 } with tick := 400000 }, by decide +kernel⟩
theorem wit_ProcessionPortsShareTimeAndPairsHandOver_35 : ∃ (s : State), s.live = true ∧ s.pair.yielding = false :=
  ⟨alive, by decide +kernel⟩
theorem wit_HostBlockCommandsMoveDataAndDeferErrors_1 : ∃ (s : State) (id : Fin 64) (x : NvSq) (tail : Nat), s.live =
    true ∧ s.nv.rdy = true ∧ s.sq id = some x ∧ tail < x.size :=
  ⟨hostOn 63 [], 63, ioSq, 3, by decide +kernel⟩
theorem wit_HostBlockCommandsMoveDataAndDeferErrors_2 : ∃ (s : State) (id : Fin 64) (tail : Nat), s.live = true ∧
    ((s.nv.rdy = false ∨ s.sq id = none ∨ (s.sq id).any (fun x => decide (x.size ≤ tail)) = true)) :=
  ⟨hostOn 63 [], 63, 4, by decide +kernel⟩
theorem wit_HostBlockCommandsMoveDataAndDeferErrors_3 : ∃ (s : State) (id : Fin 64) (c : NvCq) (head : Nat), s.live =
    true ∧ s.nv.rdy = true ∧ s.cq id = some c ∧ head < c.size ∧ ((c.held = [] ∨ (c.tail + 1) % c.size = head)) :=
  ⟨hostOn 63 [], 63, ioCq, 3, by decide +kernel⟩
theorem wit_HostBlockCommandsMoveDataAndDeferErrors_4 : ∃ (s : State) (id : Fin 64) (k : Nat) (cid : Nat) (dw0 : Nat)
    (st : Nat) (x : NvSq) (c : NvCq) (head : Nat), s.live = true ∧ s.nv.rdy = true ∧ s.cq id = some c ∧ head < c.size ∧
    c.held = [(k, cid, dw0, st)] ∧ (c.tail + 1) % c.size ≠ head ∧ s.sq k = some x ∧ x.cq = id :=
  ⟨(hostOn 63 []).setCq 63 (some { ioCq with held := [(63, 65535, 1, 2)], head := 0 }), 63, 63, 65535, 1, 2, ioSq, { ioCq with held := [(63, 65535, 1, 2)], head := 0 }, 1, by decide +kernel⟩
theorem wit_HostBlockCommandsMoveDataAndDeferErrors_5 : ∃ (s : State) (id : Fin 64) (x : NvSq) (c : NvCq) (q : Sqe)
    (st : Nat), s.live = true ∧ s.offers id x c q ∧ id ≠ 0 ∧ q.opc = 1 ∧ q.nlb ≤ 256 ∧ s.turnsAway q st :=
  ⟨hostOn 63 (sqe 1 1 0 [257, 0, 255, 0, 0, 0]), 63, ioSq, ioCq, sqe 1 1 0 [257, 0, 255, 0, 0, 0], 0x80, by decide +kernel⟩
theorem wit_HostBlockCommandsMoveDataAndDeferErrors_6 : ∃ (s : State) (id : Fin 64) (x : NvSq) (c : NvCq) (q : Sqe),
    s.live = true ∧ s.offers id x c q ∧ id ≠ 0 ∧ q.opc = 1 ∧ q.nlb ≤ 256 ∧ s.defers q :=
  ⟨(let s := hostOn 63 (sqe 1 1 0 [0, 0, 0, 0, 0, 0]); s.setNv { s.nv with failed := [3, 1] }), 63, ioSq, ioCq, sqe 1 1 0 [0, 0, 0, 0, 0, 0], by decide +kernel⟩
theorem wit_HostBlockCommandsMoveDataAndDeferErrors_7 : ∃ (s : State) (id : Fin 64) (x : NvSq) (c : NvCq) (q : Sqe),
    s.live = true ∧ s.offers id x c q ∧ id ≠ 0 ∧ q.opc = 1 ∧ 256 < q.nlb ∧ s.nv.san = none ∧ s.storeUp = true :=
  ⟨hostOn 63 (sqe 1 1 0 [0, 0, 256, 0, 0, 0]), 63, ioSq, ioCq, sqe 1 1 0 [0, 0, 256, 0, 0, 0], by decide +kernel⟩
theorem wit_HostBlockCommandsMoveDataAndDeferErrors_8 : ∃ (s : State) (id : Fin 64) (x : NvSq) (c : NvCq) (q : Sqe)
    (st : Nat), s.live = true ∧ s.offers id x c q ∧ id ≠ 0 ∧ q.opc = 2 ∧ q.nlb ≤ 256 ∧ s.turnsAway q st :=
  ⟨hostOn 63 (sqe 2 1 0 [257, 0, 255, 0, 0, 0]), 63, ioSq, ioCq, sqe 2 1 0 [257, 0, 255, 0, 0, 0], 0x80, by decide +kernel⟩
theorem wit_HostBlockCommandsMoveDataAndDeferErrors_9 : ∃ (s : State) (id : Fin 64) (x : NvSq) (c : NvCq) (q : Sqe),
    s.live = true ∧ s.offers id x c q ∧ id ≠ 0 ∧ q.opc = 2 ∧ q.nlb ≤ 256 ∧ s.defers q :=
  ⟨(let s := hostOn 63 (sqe 2 1 0 [0, 0, 0, 0, 0, 0]); s.setNv { s.nv with failed := [3, 1] }), 63, ioSq, ioCq, sqe 2 1 0 [0, 0, 0, 0, 0, 0], by decide +kernel⟩
theorem wit_HostBlockCommandsMoveDataAndDeferErrors_10 : ∃ (s : State) (id : Fin 64) (x : NvSq) (c : NvCq) (q : Sqe),
    s.live = true ∧ s.offers id x c q ∧ id ≠ 0 ∧ q.opc = 2 ∧ 256 < q.nlb ∧ s.nv.san = none ∧ s.storeUp = true :=
  ⟨hostOn 63 (sqe 2 1 0 [0, 0, 256, 0, 0, 0]), 63, ioSq, ioCq, sqe 2 1 0 [0, 0, 256, 0, 0, 0], by decide +kernel⟩
theorem wit_HostBlockCommandsMoveDataAndDeferErrors_11 : ∃ (s : State) (id : Fin 64) (x : NvSq) (c : NvCq) (q : Sqe)
    (st : Nat), s.live = true ∧ s.offers id x c q ∧ id ≠ 0 ∧ q.opc = 8 ∧ s.turnsAway q st :=
  ⟨hostOn 63 (sqe 8 1 0 [257, 0, 255, 0, 0, 0]), 63, ioSq, ioCq, sqe 8 1 0 [257, 0, 255, 0, 0, 0], 0x80, by decide +kernel⟩
theorem wit_HostBlockCommandsMoveDataAndDeferErrors_12 : ∃ (s : State) (id : Fin 64) (x : NvSq) (c : NvCq) (q : Sqe),
    s.live = true ∧ s.offers id x c q ∧ id ≠ 0 ∧ q.opc = 8 ∧ s.defers q :=
  ⟨(let s := hostOn 63 (sqe 8 1 0 [0, 0, 0, 0, 0, 0]); s.setNv { s.nv with failed := [3, 1] }), 63, ioSq, ioCq, sqe 8 1 0 [0, 0, 0, 0, 0, 0], by decide +kernel⟩
theorem wit_HostBlockCommandsMoveDataAndDeferErrors_13 : ∃ (s : State) (id : Fin 64) (x : NvSq) (c : NvCq) (q : Sqe)
    (key : Nat), s.live = true ∧ s.offers id x c q ∧ id ≠ 0 ∧ q.opc = 1 ∧ q.nlb ≤ 256 ∧ q.nsid ≠ 32 ∧ s.takes q.nsid
    (q.slba + q.nlb) ∧ q.fua = false ∧ s.nv.vwc = true ∧ s.cacheCap ≠ 0 ∧ key = s.keyOf q.nsid q.slba ∧ s.hostIn key q.nlb
    = [] ∧ s.nv.cache.length + s.cacheNew key q.nlb ≤ s.cacheCap :=
  ⟨hostOn 63 (sqe 1 1 0x10000 [511, 0, 0, 0, 0, 0]), 63, ioSq, ioCq, sqe 1 1 0x10000 [511, 0, 0, 0, 0, 0], 511, by decide +kernel⟩
theorem wit_HostBlockCommandsMoveDataAndDeferErrors_14 : ∃ (s : State) (id : Fin 64) (x : NvSq) (c : NvCq) (q : Sqe)
    (key : Nat), s.live = true ∧ s.offers id x c q ∧ id ≠ 0 ∧ q.opc = 1 ∧ q.nlb ≤ 256 ∧ q.nsid ≠ 32 ∧ s.takes q.nsid
    (q.slba + q.nlb) ∧ q.fua = false ∧ s.nv.vwc = true ∧ s.cacheCap ≠ 0 ∧ key = s.keyOf q.nsid q.slba ∧ s.hostIn key q.nlb
    = [] ∧ s.cacheCap < s.nv.cache.length + s.cacheNew key q.nlb :=
  ⟨(let s := hostOn 63 (sqe 1 1 0x10000 [511, 0, 0, 0, 0, 0]); s.setNv { s.nv with cache := List.replicate 256 ⟨1, 1, 1, [], false, none⟩ }), 63, ioSq, ioCq, sqe 1 1 0x10000 [511, 0, 0, 0, 0, 0], 511, by decide +kernel⟩
theorem wit_HostBlockCommandsMoveDataAndDeferErrors_15 : ∃ (s : State) (id : Fin 64) (x : NvSq) (c : NvCq) (q : Sqe)
    (key : Nat), s.live = true ∧ s.offers id x c q ∧ id ≠ 0 ∧ q.opc = 1 ∧ q.nlb ≤ 256 ∧ q.nsid ≠ 32 ∧ s.takes q.nsid
    (q.slba + q.nlb) ∧ ((q.fua = true ∨ s.nv.vwc = false ∨ s.cacheCap = 0)) ∧ key = s.keyOf q.nsid q.slba ∧ key % 256 +
    q.nlb ≤ 256 ∧ s.flyingIn key q.nlb = [] ∧ s.hostIn key q.nlb = [] ∧ s.nvCalm :=
  ⟨hostOn 63 (sqe 1 1 0x10000 [511, 0, 0x40000000, 0, 0, 0]), 63, ioSq, ioCq, sqe 1 1 0x10000 [511, 0, 0x40000000, 0, 0, 0], 511, by decide +kernel⟩
theorem wit_HostBlockCommandsMoveDataAndDeferErrors_16 : ∃ (s : State) (id : Fin 64) (x : NvSq) (c : NvCq) (q : Sqe)
    (key : Nat), s.live = true ∧ s.offers id x c q ∧ id ≠ 0 ∧ q.opc = 1 ∧ q.nlb ≤ 256 ∧ q.nsid ≠ 32 ∧ s.takes q.nsid
    (q.slba + q.nlb) ∧ key = s.keyOf q.nsid q.slba ∧ s.hostIn key q.nlb ≠ [] ∧ s.nvCalm :=
  ⟨(let s := hostOn 63 (sqe 1 1 0x10000 [511, 0, 0x40000000, 0, 0, 0]); s.setNv { s.nv with ssds := [⟨0, 0, 1, 4096 + 511, 1, true, .host 1 511, false⟩], ids := 1 }), 63, ioSq, ioCq, sqe 1 1 0x10000 [511, 0, 0x40000000, 0, 0, 0], 511, by decide +kernel⟩
theorem wit_HostBlockCommandsMoveDataAndDeferErrors_17 : ∃ (s : State) (id : Fin 64) (x : NvSq) (c : NvCq) (q : Sqe)
    (key : Nat), s.live = true ∧ s.offers id x c q ∧ id ≠ 0 ∧ q.opc = 2 ∧ q.nlb ≤ 256 ∧ q.nsid ≠ 32 ∧ s.takes q.nsid
    (q.slba + q.nlb) ∧ key = s.keyOf q.nsid q.slba ∧ key % 256 + q.nlb ≤ 256 ∧ ((∀ b ∈ s.nv.cache, b.key < key ∨ key +
    q.nlb ≤ b.key)) ∧ s.taskIn key q.nlb = [] ∧ s.hostIn key q.nlb = [] ∧ s.nvCalm :=
  ⟨hostOn 63 (sqe 2 1 0x10000 [255, 0, 0, 0, 0, 0]), 63, ioSq, ioCq, sqe 2 1 0x10000 [255, 0, 0, 0, 0, 0], 255, by decide +kernel⟩
theorem wit_HostBlockCommandsMoveDataAndDeferErrors_18 : ∃ (s : State) (id : Fin 64) (x : NvSq) (c : NvCq) (q : Sqe)
    (key : Nat) (b : CBlk), s.live = true ∧ s.offers id x c q ∧ id ≠ 0 ∧ q.opc = 2 ∧ q.nlb = 1 ∧ q.nsid ≠ 32 ∧ s.takes
    q.nsid (q.slba + 1) ∧ key = s.keyOf q.nsid q.slba ∧ s.nv.cache.filter (fun y => decide (y.key = key)) = [b] ∧ s.taskIn
    key 1 = [] ∧ s.hostIn key 1 = [] ∧ s.nvCalm ∧ s.prps q 4096 = [(q.prp1, 4096)] ∧ ((q.prp1 + 4096 ≤ c.base + 16 *
    c.tail ∨ c.base + 16 * c.tail + 16 ≤ q.prp1)) :=
  ⟨(let s := hostOn 63 (sqe 2 1 0x30000 [255, 0, 0, 0, 0, 0]); s.setNv { s.nv with cache := [⟨255, 1, 255, [0xA5, 0xA6], false, none⟩] }), 63, ioSq, ioCq, sqe 2 1 0x30000 [255, 0, 0, 0, 0, 0], 255, ⟨255, 1, 255, [0xA5, 0xA6], false, none⟩, by decide +kernel⟩
theorem wit_HostBlockCommandsMoveDataAndDeferErrors_19 : ∃ (s : State) (id : Fin 64) (x : NvSq) (c : NvCq) (q : Sqe)
    (key : Nat), s.live = true ∧ s.offers id x c q ∧ id ≠ 0 ∧ q.opc = 2 ∧ q.nlb ≤ 256 ∧ q.nsid ≠ 32 ∧ s.takes q.nsid
    (q.slba + q.nlb) ∧ key = s.keyOf q.nsid q.slba ∧ s.taskIn key q.nlb ++ s.hostIn key q.nlb ≠ [] ∧ s.nvCalm :=
  ⟨(let s := hostOn 63 (sqe 2 1 0x10000 [511, 0, 0, 0, 0, 0]); s.setNv { s.nv with ssds := [⟨0, 0, 1, 4096 + 511, 1, true, .task 15 1 511, false⟩], ids := 1 }), 63, ioSq, ioCq, sqe 2 1 0x10000 [511, 0, 0, 0, 0, 0], 511, by decide +kernel⟩
theorem wit_HostBlockCommandsMoveDataAndDeferErrors_20 : ∃ (s : State) (id : Fin 64) (x : NvSq) (c : NvCq) (q : Sqe)
    (a : Nat), s.live = true ∧ s.offers id x c q ∧ id ≠ 0 ∧ q.opc = 2 ∧ q.nlb = 1 ∧ q.nsid = 32 ∧ s.takes 32 (q.slba + 1)
    ∧ a = s.fld nvtA NVT_REPLAY_BASE_ADDR * 256 + 4096 * q.slba ∧ s.answersAt a 4096 ∧ s.prps q 4096 = [(q.prp1, 4096)] ∧
    ((q.prp1 + 4096 ≤ c.base + 16 * c.tail ∨ c.base + 16 * c.tail + 16 ≤ q.prp1)) :=
  ⟨(((hostOn 63 (sqe 2 32 0x30000 [1, 0, 0, 0, 0, 0])).setFld nvtA NVT_REPLAY_LBAS_LBAS 2).setMemBytes 0x1000 [1, 2, 3]), 63, ioSq, ioCq, sqe 2 32 0x30000 [1, 0, 0, 0, 0, 0], 4096, by decide +kernel⟩
theorem wit_HostBlockCommandsMoveDataAndDeferErrors_21 : ∃ (s : State) (id : Fin 64) (x : NvSq) (c : NvCq) (q : Sqe)
    (a : Nat), s.live = true ∧ s.offers id x c q ∧ id ≠ 0 ∧ q.opc = 2 ∧ q.nlb ≤ 256 ∧ q.nsid = 32 ∧ s.takes 32 (q.slba +
    q.nlb) ∧ a = s.fld nvtA NVT_REPLAY_BASE_ADDR * 256 + 4096 * q.slba ∧ regionOf a = .dram ∧ a + q.nlb * 4096 ≤
    s.usableBytes ∧ s.dramIdle = true ∧ s.dramOk a (q.nlb * 4096) = false :=
  ⟨(((hostOn 63 (sqe 2 32 0x30000 [1, 0, 0, 0, 0, 0])).setFld nvtA NVT_REPLAY_LBAS_LBAS 2).setFlag (dchA 0) DCH_STATUS_FROZEN true), 63, ioSq, ioCq, sqe 2 32 0x30000 [1, 0, 0, 0, 0, 0], 4096, by decide +kernel⟩
theorem wit_HostBlockCommandsMoveDataAndDeferErrors_22 : ∃ (s : State) (id : Fin 64) (x : NvSq) (c : NvCq) (q : Sqe)
    (key : Nat), s.live = true ∧ s.offers id x c q ∧ id ≠ 0 ∧ q.opc = 8 ∧ q.nsid ≠ 32 ∧ s.takes q.nsid (q.slba + q.nlb) ∧
    key = s.keyOf q.nsid q.slba ∧ key % 256 + q.nlb ≤ 256 ∧ s.flyingIn key q.nlb = [] ∧ s.hostIn key q.nlb = [] ∧ s.nvCalm
    :=
  ⟨hostOn 63 (sqe 8 1 0 [256, 0, 255, 0, 0, 0]), 63, ioSq, ioCq, sqe 8 1 0 [256, 0, 255, 0, 0, 0], 256, by decide +kernel⟩
theorem wit_HostBlockCommandsMoveDataAndDeferErrors_23 : ∃ (s : State) (id : Fin 64) (x : NvSq) (c : NvCq) (q : Sqe),
    s.live = true ∧ s.offers id x c q ∧ id ≠ 0 ∧ q.opc = 9 ∧ q.nsid ≠ 32 ∧ s.takes q.nsid 0 ∧ (q.dw 11).testBit 2 = false
    ∧ ((∀ r ∈ dsmRanges (q.dw 10 % 256 + 1) (s.prpRead (s.prps q (16 * (q.dw 10 % 256 + 1)))), s.takes q.nsid (r.1 +
    r.2))) :=
  ⟨hostOn 63 (sqe 9 1 0x10000 [0, 3, 0, 0, 0, 0]), 63, ioSq, ioCq, sqe 9 1 0x10000 [0, 3, 0, 0, 0, 0], by decide +kernel⟩
theorem wit_HostBlockCommandsMoveDataAndDeferErrors_24 : ∃ (s : State) (id : Fin 64) (x : NvSq) (c : NvCq) (q : Sqe)
    (key : Nat) (lba : Nat) (n : Nat), s.live = true ∧ s.offers id x c q ∧ id ≠ 0 ∧ q.opc = 9 ∧ q.nsid ≠ 32 ∧ (q.dw
    11).testBit 2 = true ∧ q.dw 10 % 256 = 0 ∧ dsmRanges 1 (s.prpRead (s.prps q 16)) = [(lba, n)] ∧ s.takes q.nsid (lba +
    n) ∧ key = s.keyOf q.nsid lba ∧ 0 < n ∧ key % 256 + n ≤ 256 ∧ s.flyingIn key n = [] ∧ s.hostIn key n = [] ∧ s.nvCalm
    :=
  ⟨((hostOn 63 (sqe 9 1 0x30000 [0, 4, 0, 0, 0, 0])).setHostBytes 0x30004 (toBytes 4 256 ++ toBytes 8 256)), 63, ioSq, ioCq, sqe 9 1 0x30000 [0, 4, 0, 0, 0, 0], 256, 256, 256, by decide +kernel⟩
theorem wit_HostBlockCommandsMoveDataAndDeferErrors_25 : ∃ (s : State) (id : Fin 64) (x : NvSq) (c : NvCq) (q : Sqe),
    s.live = true ∧ s.offers id x c q ∧ id ≠ 0 ∧ q.opc = 0 ∧ s.nv.san = none ∧ s.storeUp = true ∧ ((q.nsid = 0xFFFFFFFF ∨
    (s.nsBlocks q.nsid).isSome = true)) ∧ s.nv.fmt = none ∧ ((∀ f ∈ s.nv.failed, inScope q.nsid f = false)) ∧ ((∀ b ∈
    s.nv.cache, inScope q.nsid b.nsid = true → b.dirty = false ∧ b.flying = none)) ∧ ((∀ y ∈ s.nv.soft, inScope q.nsid
    y.nsid = false)) ∧ s.nvCalm :=
  ⟨hostOn 63 (sqe 0 1 0 [0, 0, 0, 0, 0, 0]), 63, ioSq, ioCq, sqe 0 1 0 [0, 0, 0, 0, 0, 0], by decide +kernel⟩
theorem wit_HostBlockCommandsMoveDataAndDeferErrors_26 : ∃ (s : State) (id : Fin 64) (x : NvSq) (c : NvCq) (q : Sqe)
    (p : Fin 4) (k : Soft), s.live = true ∧ s.offers id x c q ∧ id ≠ 0 ∧ q.opc = 0 ∧ s.nv.san = none ∧ s.storeUp = true ∧
    ((q.nsid = 0xFFFFFFFF ∨ (s.nsBlocks q.nsid).isSome = true)) ∧ s.nv.fmt = none ∧ ((∀ f ∈ s.nv.failed, inScope q.nsid f
    = false)) ∧ ((∀ b ∈ s.nv.cache, inScope q.nsid b.nsid = true → b.dirty = false ∧ b.flying = none)) ∧ s.nv.soft.filter
    (fun y => inScope q.nsid y.nsid) = [k] ∧ k.port = p ∧ s.ssdState p = 2 ∧ s.nvCalm :=
  ⟨(let s := hostOn 63 (sqe 0 0xFFFFFFFF 0 [0, 0, 0, 0, 0, 0]); s.setNv { s.nv with soft := [⟨0, 1, 511, 1⟩] }), 63, ioSq, ioCq, sqe 0 0xFFFFFFFF 0 [0, 0, 0, 0, 0, 0], 0, ⟨0, 1, 511, 1⟩, by decide +kernel⟩
theorem wit_HostBlockCommandsMoveDataAndDeferErrors_27 : ∃ (s : State) (id : Fin 64) (x : NvSq) (c : NvCq) (q : Sqe)
    (b : CBlk), s.live = true ∧ s.offers id x c q ∧ id ≠ 0 ∧ q.opc = 0 ∧ s.nv.san = none ∧ s.storeUp = true ∧ ((q.nsid =
    0xFFFFFFFF ∨ (s.nsBlocks q.nsid).isSome = true)) ∧ s.nv.fmt = none ∧ ((∀ f ∈ s.nv.failed, inScope q.nsid f = false)) ∧
    s.nv.cache.filter (fun y => inScope q.nsid y.nsid && (y.dirty || y.flying.isSome)) = [b] ∧ b.dirty = true ∧ b.flying =
    none ∧ ((∀ y ∈ s.nv.cache, y ≠ b → y.key ≠ b.key)) ∧ s.nvCalm :=
  ⟨(let s := hostOn 63 (sqe 0 1 0 [0, 0, 0, 0, 0, 0]); s.setNv { s.nv with cache := [⟨511, 1, 511, [9], true, none⟩] }), 63, ioSq, ioCq, sqe 0 1 0 [0, 0, 0, 0, 0, 0], ⟨511, 1, 511, [9], true, none⟩, by decide +kernel⟩
theorem wit_HostBlockCommandsMoveDataAndDeferErrors_28 : ∃ (s : State) (id : Fin 64) (x : NvSq) (c : NvCq) (q : Sqe)
    (f : Nat), s.live = true ∧ s.offers id x c q ∧ id ≠ 0 ∧ q.opc = 0 ∧ s.nv.san = none ∧ s.storeUp = true ∧ ((q.nsid =
    0xFFFFFFFF ∨ (s.nsBlocks q.nsid).isSome = true)) ∧ s.nv.fmt = none ∧ f ∈ s.nv.failed ∧ inScope q.nsid f = true :=
  ⟨(let s := hostOn 63 (sqe 0 0xFFFFFFFF 0 [0, 0, 0, 0, 0, 0]); s.setNv { s.nv with failed := [1] }), 63, ioSq, ioCq, sqe 0 0xFFFFFFFF 0 [0, 0, 0, 0, 0, 0], 1, by decide +kernel⟩
theorem wit_HostBlockCommandsMoveDataAndDeferErrors_29 : ∃ (s : State) (id : Fin 64) (x : NvSq) (c : NvCq) (q : Sqe),
    s.live = true ∧ s.offers id x c q ∧ (((id ≠ 0 ∧ q.opc ∉ [0x00, 0x01, 0x02, 0x08, 0x09]) ∨ (id = 0 ∧ q.opc ∉ [0x00,
    0x01, 0x02, 0x04, 0x05, 0x06, 0x08, 0x09, 0x0A, 0x0C, 0x0D, 0x10, 0x11, 0x15, 0x80, 0x84]))) :=
  ⟨hostOn 63 (sqe 5 1 0 [0, 0, 0, 0, 0, 0]), 63, ioSq, ioCq, sqe 5 1 0 [0, 0, 0, 0, 0, 0], by decide +kernel⟩
theorem wit_HostBlockCommandsMoveDataAndDeferErrors_30 : ∃ (s : State) (id : Fin 64) (x : NvSq) (c : NvCq) (q : Sqe),
    s.live = true ∧ s.offers id x c q ∧ id = 0 ∧ (((q.opc = 0x09 ∧ q.dw 10 % 256 ∉ [0x01, 0x04, 0x06, 0x07, 0x08, 0x09,
    0x0B]) ∨ (q.opc ∈ [0x0D, 0x15] ∧ 1 < q.dw 10 % 16) ∨ (q.opc = 0x10 ∧ 2 < bits (q.dw 10) 5 3) ∨ (q.opc = 0x84 ∧ bits
    (q.dw 10) 2 0 ∉ [2, 3]))) :=
  ⟨hostOn 0 (sqe 0x84 0 0 [4, 0, 0, 0, 0, 0]), 0, adSq, ioCq, sqe 0x84 0 0 [4, 0, 0, 0, 0, 0], by decide +kernel⟩
theorem wit_HostBlockCommandsMoveDataAndDeferErrors_31 : ∃ (s : State) (b : CBlk) (l : List CBlk), s.live = true ∧
    s.storeUp = true ∧ s.nextBack (fun _ => true) = b :: l :=
  ⟨(storeOn.setNv { storeOn.nv with cache := [⟨254, 1, 254, [1], false, none⟩, ⟨255, 1, 255, [2], true, none⟩, ⟨256, 1, 256, [3], true, none⟩] }), ⟨255, 1, 255, [2], true, none⟩, [], by decide +kernel⟩
theorem wit_HostBlockCommandsMoveDataAndDeferErrors_32 : ∃ (s : State) (b : CBlk) (l : List CBlk), s.live = true ∧
    s.storeUp = true ∧ s.nextBack (fun _ => true) = b :: l ∧ s.nvCalm ∧ ((∀ k ∈ s.nv.cmds, k.stage ≠ .event ∧ k.stage ≠
    .room)) ∧ ((∀ y ∈ s.nv.cache, (b :: l).any (fun z => z.key = y.key) = true → y.flying = none)) :=
  ⟨(storeOn.setNv { storeOn.nv with cache := [⟨255, 1, 255, [2], true, none⟩, ⟨256, 1, 256, [3], true, none⟩] }), ⟨255, 1, 255, [2], true, none⟩, [], by decide +kernel⟩
theorem wit_HostBlockCommandsMoveDataAndDeferErrors_33 : ∃ (s : State) (port : Fin 4) (id : Nat) (key : Nat) (nsid :
    Nat) (d : SsdCmd), s.live = true ∧ s.ssdCmd port id = some d ∧ d.use = .cache nsid key ∧ d.fua = false ∧ s.nvCalm ∧
    ((∀ k ∈ s.nv.cmds, id ∉ k.need ∧ k.stage ≠ .room)) ∧ ((∀ b ∈ s.nv.cache, b.flying = some id → b.dirty = false)) :=
  ⟨(storeOn.setNv { storeOn.nv with ids := 1, ssds := [⟨0, 0, 1, 4351, 1, false, .cache 1 255, false⟩], cache := [⟨255, 1, 255, [2], false, some 0⟩] }), 0, 0, 255, 1, ⟨0, 0, 1, 4351, 1, false, .cache 1 255, false⟩, by decide +kernel⟩
theorem wit_HostBlockCommandsMoveDataAndDeferErrors_34 : ∃ (s : State) (port : Fin 4) (id : Nat) (key : Nat) (nsid :
    Nat) (d : SsdCmd) (k : NvCmd) (x : NvSq) (c : NvCq), s.live = true ∧ s.ssdCmd port id = some d ∧ d.use = .host nsid
    key ∧ k ∈ s.nv.cmds ∧ k.need = [id] ∧ k.stage = .media ∧ k.status = none ∧ k.silent = false ∧ ((∀ y ∈ s.nv.cmds, y ≠ k
    → id ∉ y.need ∧ y.n ≠ k.n)) ∧ ((∀ y ∈ s.nv.cmds, y.stage ≠ .room)) ∧ s.nvCalm ∧ s.sq k.sq = some x ∧ s.cq x.cq = some
    c ∧ c.held = [] ∧ c.full = false ∧ d.op = 1 ∧ k.opc = 1 :=
  ⟨(let s := hostOn 63 []; s.setNv { s.nv with ids := 1, seq := 1, ssds := [⟨0, 0, 1, 4351, 1, true, .host 1 255, false⟩], cmds := [{ n := 0, sq := 63, cid := 65535, opc := 1, nsid := 1, slba := 255, nlb := 1, stage := .media, need := [0] }] }), 0, 0, 255, 1, ⟨0, 0, 1, 4351, 1, true, .host 1 255, false⟩, { n := 0, sq := 63, cid := 65535, opc := 1, nsid := 1, slba := 255, nlb := 1, stage := .media, need := [0] }, ioSq, ioCq, by decide +kernel⟩
theorem wit_HostBlockCommandsMoveDataAndDeferErrors_35 : ∃ (s : State) (port : Fin 4) (id : Nat) (key : Nat) (nsid :
    Nat) (st : Nat) (d : SsdCmd) (k : NvCmd) (x : NvSq) (c : NvCq), s.live = true ∧ s.ssdCmd port id = some d ∧ d.use =
    .host nsid key ∧ k ∈ s.nv.cmds ∧ k.need = [id] ∧ k.stage = .media ∧ k.status = none ∧ k.silent = false ∧ ((∀ y ∈
    s.nv.cmds, y ≠ k → id ∉ y.need ∧ y.n ≠ k.n)) ∧ ((∀ y ∈ s.nv.cmds, y.stage ≠ .room)) ∧ s.nvCalm ∧ s.sq k.sq = some x ∧
    s.cq x.cq = some c ∧ c.held = [] ∧ c.full = false ∧ d.op ≠ 2 ∧ 0 < st ∧ d.aborted = false ∧ s.fld (nvhA port)
    NVH_ERR_CAUSE = 0 :=
  ⟨(let s := hostOn 63 []; s.setNv { s.nv with ids := 1, seq := 1, ssds := [⟨0, 0, 1, 4351, 1, true, .host 1 255, false⟩], cmds := [{ n := 0, sq := 63, cid := 65535, opc := 1, nsid := 1, slba := 255, nlb := 1, stage := .media, need := [0] }] }), 0, 0, 255, 1, 0xFFFF, ⟨0, 0, 1, 4351, 1, true, .host 1 255, false⟩, { n := 0, sq := 63, cid := 65535, opc := 1, nsid := 1, slba := 255, nlb := 1, stage := .media, need := [0] }, ioSq, ioCq, by decide +kernel⟩
theorem wit_HostBlockCommandsMoveDataAndDeferErrors_36 : ∃ (s : State) (port : Fin 4) (id : Nat) (key : Nat) (nsid :
    Nat) (a : Nat) (d : SsdCmd) (k : NvCmd) (x : NvSq) (c : NvCq), s.live = true ∧ s.ssdCmd port id = some d ∧ d.use =
    .host nsid key ∧ k ∈ s.nv.cmds ∧ k.need = [id] ∧ k.stage = .media ∧ k.status = none ∧ k.silent = false ∧ ((∀ y ∈
    s.nv.cmds, y ≠ k → id ∉ y.need ∧ y.n ≠ k.n)) ∧ ((∀ y ∈ s.nv.cmds, y.stage ≠ .room)) ∧ s.nvCalm ∧ s.sq k.sq = some x ∧
    s.cq x.cq = some c ∧ c.held = [] ∧ c.full = false ∧ d.op = 2 ∧ k.opc = 2 ∧ k.nlb = 1 ∧ d.nlb = 1 ∧ key = s.keyOf
    k.nsid k.slba ∧ k.got = [] ∧ k.prp = [(a, 4096)] ∧ ((a + 4096 ≤ c.base + 16 * c.tail ∨ c.base + 16 * c.tail + 16 ≤ a))
    :=
  ⟨(let s := hostOn 63 []; s.setNv { s.nv with ids := 1, seq := 1, ssds := [⟨0, 0, 2, 4351, 1, true, .host 1 255, false⟩], cmds := [{ n := 0, sq := 63, cid := 65535, opc := 2, nsid := 1, slba := 255, nlb := 1, stage := .media, need := [0], prp := [(0x30000, 4096)] }] }), 0, 0, 255, 1, 0x30000, ⟨0, 0, 2, 4351, 1, true, .host 1 255, false⟩, { n := 0, sq := 63, cid := 65535, opc := 2, nsid := 1, slba := 255, nlb := 1, stage := .media, need := [0], prp := [(0x30000, 4096)] }, ioSq, ioCq, by decide +kernel⟩
theorem wit_HostBlockCommandsMoveDataAndDeferErrors_37 : ∃ (s : State) (port : Fin 4) (id : Nat) (key : Nat) (nsid :
    Nat) (st : Nat) (d : SsdCmd) (b : CBlk) (k : NvCmd) (x : NvSq) (c : NvCq), s.live = true ∧ s.ssdCmd port id = some d ∧
    d.use = .cache nsid key ∧ d.aborted = false ∧ 0 < st ∧ s.nvCalm ∧ s.nv.cache.filter (fun y => y.flying = some id) =
    [b] ∧ b.dirty = false ∧ b.lba + d.nlb ≤ 2 ^ 64 ∧ s.nv.cmds.find? (fun y => y.stage = .event) = some k ∧ s.nv.aeMasked
    = false ∧ ((∀ y ∈ s.nv.cmds, id ∉ y.need ∧ y.stage ≠ .room)) ∧ k.silent = false ∧ ((∀ y ∈ s.nv.cmds, y ≠ k → y.n ≠
    k.n)) ∧ s.sq k.sq = some x ∧ s.cq x.cq = some c ∧ c.held = [] ∧ c.full = false ∧ s.fld (nvhA port) NVH_ERR_CAUSE ≠ 0
    :=
  ⟨(let s := (hostOn 0 []).setFld (nvhA 0) NVH_ERR_CAUSE 7; s.setNv { s.nv with ids := 1, seq := 1, ssds := [⟨0, 0, 1, 4351, 1, false, .cache 1 255, false⟩], cache := [⟨255, 1, 255, [2], false, some 0⟩], cmds := [{ n := 0, sq := 0, cid := 65535, opc := 0x0C, stage := .event }] }), 0, 0, 255, 1, 0xFFFF, ⟨0, 0, 1, 4351, 1, false, .cache 1 255, false⟩, ⟨255, 1, 255, [2], false, some 0⟩, { n := 0, sq := 0, cid := 65535, opc := 0x0C, stage := .event }, adSq, ioCq, by decide +kernel⟩
theorem wit_HostAdminCommandsAndResetsRuleTheController_1 : ∃ (s : State) (x : NvSq) (c : NvCq) (q : Sqe) (id : Nat)
    (n : Nat) (iv : Nat), s.live = true ∧ s.offers 0 x c q ∧ q.opc = 5 ∧ id = q.dw 10 % 65536 ∧ n = q.dw 10 / 65536 ∧ iv =
    q.dw 11 / 65536 ∧ 0 < id ∧ id ≤ s.nv.nq / 65536 + 1 ∧ s.cq id = none ∧ 0 < n ∧ n ≤ 4095 ∧ (q.dw 11).testBit 0 = true ∧
    iv ≤ 255 :=
  ⟨(hostOn 0 (sqe 5 0 196608 [268369983, 16711683, 0, 0, 0, 0])), adSq, ioCq, sqe 5 0 196608 [268369983, 16711683, 0, 0, 0, 0], 63, 4095, 255, by decide +kernel⟩
theorem wit_HostAdminCommandsAndResetsRuleTheController_2 : ∃ (s : State) (x : NvSq) (c : NvCq) (q : Sqe) (id : Nat)
    (n : Nat) (iv : Nat) (st : Nat), s.live = true ∧ s.offers 0 x c q ∧ q.opc = 5 ∧ id = q.dw 10 % 65536 ∧ n = q.dw 10 /
    65536 ∧ iv = q.dw 11 / 65536 ∧ ((((id = 0 ∨ s.nv.nq / 65536 + 1 < id ∨ (s.cq id).isSome = true) ∧ st = 0x101) ∨ (0 <
    id ∧ id ≤ s.nv.nq / 65536 + 1 ∧ s.cq id = none ∧ (((n = 0 ∨ 4095 < n) ∧ st = 0x102) ∨ (0 < n ∧ n ≤ 4095 ∧ (((q.dw
    11).testBit 0 = false ∧ st = 2) ∨ ((q.dw 11).testBit 0 = true ∧ 255 < iv ∧ st = 0x108))))))) :=
  ⟨(hostOn 0 (sqe 5 0 196608 [268369983, 16777219, 0, 0, 0, 0])), adSq, ioCq, sqe 5 0 196608 [268369983, 16777219, 0, 0, 0, 0], 63, 4095, 256, 0x108, by decide +kernel⟩
theorem wit_HostAdminCommandsAndResetsRuleTheController_3 : ∃ (s : State) (x : NvSq) (c : NvCq) (q : Sqe) (id : Nat)
    (n : Nat) (k : Nat), s.live = true ∧ s.offers 0 x c q ∧ q.opc = 1 ∧ id = q.dw 10 % 65536 ∧ n = q.dw 10 / 65536 ∧ k =
    q.dw 11 / 65536 ∧ 0 < id ∧ id ≤ s.nv.nq % 65536 + 1 ∧ s.sq id = none ∧ 0 < n ∧ n ≤ 4095 ∧ (q.dw 11).testBit 0 = true ∧
    0 < k ∧ (s.cq k).isSome = true :=
  ⟨((hostOn 0 (sqe 1 0 196608 [268369983, 4128769, 0, 0, 0, 0])).setCq 63 (some ioCq)), adSq, ioCq, sqe 1 0 196608 [268369983, 4128769, 0, 0, 0, 0], 63, 4095, 63, by decide +kernel⟩
theorem wit_HostAdminCommandsAndResetsRuleTheController_4 : ∃ (s : State) (x : NvSq) (c : NvCq) (q : Sqe) (id : Nat)
    (n : Nat) (k : Nat) (st : Nat), s.live = true ∧ s.offers 0 x c q ∧ q.opc = 1 ∧ id = q.dw 10 % 65536 ∧ n = q.dw 10 /
    65536 ∧ k = q.dw 11 / 65536 ∧ ((((id = 0 ∨ s.nv.nq % 65536 + 1 < id ∨ (s.sq id).isSome = true) ∧ st = 0x101) ∨ (0 < id
    ∧ id ≤ s.nv.nq % 65536 + 1 ∧ s.sq id = none ∧ (((n = 0 ∨ 4095 < n) ∧ st = 0x102) ∨ (0 < n ∧ n ≤ 4095 ∧ (((q.dw
    11).testBit 0 = false ∧ st = 2) ∨ ((q.dw 11).testBit 0 = true ∧ (k = 0 ∨ s.cq k = none) ∧ st = 0x100))))))) :=
  ⟨(hostOn 0 (sqe 1 0 196608 [268369984, 4128769, 0, 0, 0, 0])), adSq, ioCq, sqe 1 0 196608 [268369984, 4128769, 0, 0, 0, 0], 64, 4095, 63, 0x101, by decide +kernel⟩
theorem wit_HostAdminCommandsAndResetsRuleTheController_5 : ∃ (s : State) (x : NvSq) (c : NvCq) (q : Sqe) (id : Nat),
    s.live = true ∧ s.offers 0 x c q ∧ q.opc = 0 ∧ id = q.dw 10 % 65536 ∧ 0 < id ∧ (s.sq id).any (fun y => y.head ==
    y.tail) = true ∧ ((∀ k ∈ s.nv.cmds, k.sq ≠ id)) ∧ s.nvCalm :=
  ⟨((hostOn 0 (sqe 0 0 196608 [63, 0, 0, 0, 0, 0])).setSq 63 (some { ioSq with tail := 3 })), adSq, ioCq, sqe 0 0 196608 [63, 0, 0, 0, 0, 0], 63, by decide +kernel⟩
theorem wit_HostAdminCommandsAndResetsRuleTheController_6 : ∃ (s : State) (x : NvSq) (c : NvCq) (q : Sqe) (id : Nat)
    (k : NvCmd), s.live = true ∧ s.offers 0 x c q ∧ q.opc = 0 ∧ id = q.dw 10 % 65536 ∧ 0 < id ∧ (s.sq id).any (fun y =>
    y.head == y.tail) = true ∧ k ∈ s.nv.cmds ∧ k.sq = id ∧ ((∀ y ∈ s.nv.cmds, y.sq = id → y.notBegun = false)) ∧ s.nvCalm
    :=
  ⟨(let s := (hostOn 0 (sqe 0 0 196608 [63, 0, 0, 0, 0, 0])).setSq 63 (some { ioSq with tail := 3 }); s.setNv { s.nv with seq := 1, ids := 1, cmds := [{ n := 0, sq := 63, cid := 5, opc := 1, stage := .media, need := [0] }] }), adSq, ioCq, sqe 0 0 196608 [63, 0, 0, 0, 0, 0], 63, { n := 0, sq := 63, cid := 5, opc := 1, stage := .media, need := [0] }, by decide +kernel⟩
theorem wit_HostAdminCommandsAndResetsRuleTheController_7 : ∃ (s : State) (x : NvSq) (c : NvCq) (q : Sqe) (id : Nat)
    (k : NvCmd) (y : NvSq) (d : NvCq), s.live = true ∧ s.offers 0 x c q ∧ q.opc = 0 ∧ id = q.dw 10 % 65536 ∧ 0 < id ∧ s.sq
    id = some y ∧ y.head = y.tail ∧ s.nv.cmds = [k] ∧ k.sq = id ∧ k.stage = .room ∧ k.silent = false ∧ k.n < s.nv.seq ∧
    s.cq y.cq = some d ∧ y.cq ≠ x.cq ∧ d.held = [] ∧ d.full = false :=
  ⟨(let s := ((hostOn 0 (sqe 0 0 196608 [63, 0, 0, 0, 0, 0])).setSq 63 (some { ioSq with tail := 3 })).setCq 63 (some { ioCq with base := 0x40000 }); s.setNv { s.nv with seq := 1, cmds := [{ n := 0, sq := 63, cid := 5, opc := 1, stage := .room }] }), adSq, ioCq, sqe 0 0 196608 [63, 0, 0, 0, 0, 0], 63, { n := 0, sq := 63, cid := 5, opc := 1, stage := .room }, { ioSq with tail := 3 }, { ioCq with base := 0x40000 }, by decide +kernel⟩
theorem wit_HostAdminCommandsAndResetsRuleTheController_8 : ∃ (s : State) (x : NvSq) (c : NvCq) (q : Sqe) (p : Sqe)
    (id : Nat) (y : NvSq) (d : NvCq), s.live = true ∧ s.offers 0 x c q ∧ q.opc = 0 ∧ id = q.dw 10 % 65536 ∧ 0 < id ∧ s.sq
    id = some y ∧ y.head ≠ y.tail ∧ y.head < y.size ∧ (y.head + 1) % y.size = y.tail ∧ y.skip = [] ∧ s.sqeAt y y.head = p
    ∧ p.opc ≠ 0 ∧ s.nv.cmds = [] ∧ s.cq y.cq = some d ∧ y.cq ≠ x.cq ∧ d.held = [] ∧ d.full = false :=
  ⟨(let s := ((hostOn 0 (sqe 0 0 196608 [63, 0, 0, 0, 0, 0])).setSq 63 (some { ioSq with base := 0x50000 })).setCq 63 (some { ioCq with base := 0x40000 }); s.setHostBytes 0x500C0 ((sqe 1 1 0 [0, 0, 0, 0, 0, 0]).flatMap (toBytes 4))), adSq, ioCq, sqe 0 0 196608 [63, 0, 0, 0, 0, 0], sqe 1 1 0 [0, 0, 0, 0, 0, 0], 63, { ioSq with base := 0x50000 }, { ioCq with base := 0x40000 }, by decide +kernel⟩
theorem wit_HostAdminCommandsAndResetsRuleTheController_9 : ∃ (s : State) (x : NvSq) (c : NvCq) (q : Sqe) (p : Sqe)
    (id : Nat) (y : NvSq), s.live = true ∧ s.offers 0 x c q ∧ q.opc = 0 ∧ id = q.dw 10 % 65536 ∧ 0 < id ∧ s.sq id = some y
    ∧ y.head ≠ y.tail ∧ y.head < y.size ∧ (y.head + 1) % y.size = y.tail ∧ y.skip = [] ∧ s.sqeAt y y.head = p ∧ p.opc = 0
    ∧ s.nv.cmds = [] :=
  ⟨(let s := ((hostOn 0 (sqe 0 0 196608 [63, 0, 0, 0, 0, 0])).setSq 63 (some { ioSq with base := 0x50000 })).setCq 63 (some { ioCq with base := 0x40000 }); s.setHostBytes 0x500C0 ((sqe 0 1 0 [0, 0, 0, 0, 0, 0]).flatMap (toBytes 4))), adSq, ioCq, sqe 0 0 196608 [63, 0, 0, 0, 0, 0], sqe 0 1 0 [0, 0, 0, 0, 0, 0], 63, { ioSq with base := 0x50000 }, by decide +kernel⟩
theorem wit_HostAdminCommandsAndResetsRuleTheController_10 : ∃ (s : State) (x : NvSq) (c : NvCq) (q : Sqe) (id : Nat),
    s.live = true ∧ s.offers 0 x c q ∧ q.opc = 0 ∧ id = q.dw 10 % 65536 ∧ ((id = 0 ∨ s.sq id = none)) :=
  ⟨(hostOn 0 (sqe 0 0 196608 [63, 0, 0, 0, 0, 0])), adSq, ioCq, sqe 0 0 196608 [63, 0, 0, 0, 0, 0], 63, by decide +kernel⟩
theorem wit_HostAdminCommandsAndResetsRuleTheController_11 : ∃ (s : State) (x : NvSq) (c : NvCq) (q : Sqe) (id : Nat),
    s.live = true ∧ s.offers 0 x c q ∧ q.opc = 4 ∧ id = q.dw 10 % 65536 ∧ 0 < id ∧ id ≠ x.cq ∧ (s.cq id).isSome = true ∧
    ((∀ e ∈ s.nv.sqs, ∀ y ∈ e.2, y.cq ≠ id)) :=
  ⟨((hostOn 0 (sqe 4 0 196608 [63, 0, 0, 0, 0, 0])).setCq 63 (some ioCq)), adSq, ioCq, sqe 4 0 196608 [63, 0, 0, 0, 0, 0], 63, by decide +kernel⟩
theorem wit_HostAdminCommandsAndResetsRuleTheController_12 : ∃ (s : State) (x : NvSq) (c : NvCq) (q : Sqe) (id : Nat)
    (k : Nat) (st : Nat), s.live = true ∧ s.offers 0 x c q ∧ q.opc = 4 ∧ id = q.dw 10 % 65536 ∧ ((((id = 0 ∨ s.cq id =
    none) ∧ st = 0x101) ∨ (0 < id ∧ (s.cq id).isSome = true ∧ 0 < k ∧ (s.sq k).any (fun y => decide (y.cq = id)) = true ∧
    st = 0x10C))) :=
  ⟨(((hostOn 0 (sqe 4 0 196608 [63, 0, 0, 0, 0, 0])).setCq 63 (some ioCq)).setSq 1 (some ioSq)), adSq, ioCq, sqe 4 0 196608 [63, 0, 0, 0, 0, 0], 63, 1, 0x10C, by decide +kernel⟩
theorem wit_HostAdminCommandsAndResetsRuleTheController_13 : ∃ (s : State) (x : NvSq) (c : NvCq) (q : Sqe) (a : Nat),
    s.live = true ∧ s.offers 0 x c q ∧ q.opc = 2 ∧ q.dw 10 % 256 = 0xC0 ∧ q.dw 10 / 65536 = 15 ∧ q.dw 11 % 65536 = 0 ∧
    q.dw 12 = 0 ∧ q.dw 13 = 0 ∧ (q.dw 10).testBit 15 = false ∧ s.prps q 64 = [(a, 64)] ∧ ((a + 64 ≤ c.base + 16 * c.tail ∨
    c.base + 16 * c.tail + 16 ≤ a)) ∧ s.nv.aePending = false :=
  ⟨(let s := (hostOn 0 (sqe 2 0 196608 [983232, 0, 0, 0, 0, 0])); s.setNv { s.nv with log := [⟨1, 2, 3, 0, 1, 0xFFFF, 5⟩], logCount := 2 ^ 64 - 1, aeMasked := true }), adSq, ioCq, sqe 2 0 196608 [983232, 0, 0, 0, 0, 0], 0x30000, by decide +kernel⟩
theorem wit_HostAdminCommandsAndResetsRuleTheController_14 : ∃ (s : State) (x : NvSq) (c : NvCq) (q : Sqe) (a : Nat)
    (e : DefErr) (l : List DefErr), s.live = true ∧ s.offers 0 x c q ∧ q.opc = 2 ∧ q.dw 10 % 256 = 0xC0 ∧ q.dw 10 / 65536
    = 15 ∧ q.dw 11 % 65536 = 0 ∧ q.dw 12 = 64 ∧ q.dw 13 = 0 ∧ (q.dw 10).testBit 15 = true ∧ s.nv.log = l ++ [e] ∧ s.prps q
    64 = [(a, 64)] ∧ ((a + 64 ≤ c.base + 16 * c.tail ∨ c.base + 16 * c.tail + 16 ≤ a)) :=
  ⟨(let s := (hostOn 0 (sqe 2 0 196608 [1016000, 0, 64, 0, 0, 0])); s.setNv { s.nv with log := [⟨1, 2, 3, 0, 1, 0xFFFF, 1999999999⟩] }), adSq, ioCq, sqe 2 0 196608 [1016000, 0, 64, 0, 0, 0], 0x30000, ⟨1, 2, 3, 0, 1, 0xFFFF, 1999999999⟩, [], by decide +kernel⟩
theorem wit_HostAdminCommandsAndResetsRuleTheController_15 : ∃ (s : State) (x : NvSq) (c : NvCq) (q : Sqe) (a : Nat),
    s.live = true ∧ s.offers 0 x c q ∧ q.opc = 2 ∧ q.dw 10 % 256 = 0x81 ∧ q.dw 10 / 65536 = 0 ∧ q.dw 11 % 65536 = 0 ∧ q.dw
    12 = 0 ∧ q.dw 13 = 0 ∧ s.prps q 4 = [(a, 4)] ∧ ((a + 4 ≤ c.base + 16 * c.tail ∨ c.base + 16 * c.tail + 16 ≤ a)) ∧
    s.nv.san = none :=
  ⟨(hostOn 0 (sqe 2 0 196608 [129, 0, 0, 0, 0, 0])), adSq, ioCq, sqe 2 0 196608 [129, 0, 0, 0, 0, 0], 0x30000, by decide +kernel⟩
theorem wit_HostAdminCommandsAndResetsRuleTheController_16 : ∃ (s : State) (x : NvSq) (c : NvCq) (q : Sqe), s.live =
    true ∧ s.offers 0 x c q ∧ q.opc = 2 ∧ q.dw 10 % 256 ∉ [1, 2, 3, 5, 0x81, 0xC0] :=
  ⟨(hostOn 0 (sqe 2 0 196608 [193, 0, 0, 0, 0, 0])), adSq, ioCq, sqe 2 0 196608 [193, 0, 0, 0, 0, 0], by decide +kernel⟩
theorem wit_HostAdminCommandsAndResetsRuleTheController_17 : ∃ (s : State) (x : NvSq) (c : NvCq) (q : Sqe) (a : Nat),
    s.live = true ∧ s.offers 0 x c q ∧ q.opc = 6 ∧ q.dw 10 % 256 = 1 ∧ s.prps q 4096 = [(a, 4096)] ∧ ((a + 4096 ≤ c.base +
    16 * c.tail ∨ c.base + 16 * c.tail + 16 ≤ a)) :=
  ⟨(hostOn 0 (sqe 6 0 196608 [1, 0, 0, 0, 0, 0])), adSq, ioCq, sqe 6 0 196608 [1, 0, 0, 0, 0, 0], 0x30000, by decide +kernel⟩
theorem wit_HostAdminCommandsAndResetsRuleTheController_18 : ∃ (s : State) (x : NvSq) (c : NvCq) (q : Sqe) (a : Nat)
    (n : Nat), s.live = true ∧ s.offers 0 x c q ∧ q.opc = 6 ∧ q.dw 10 % 256 = 0 ∧ 0 < q.nsid ∧ q.nsid ≤ 32 ∧ s.nsBlocks
    q.nsid = some n ∧ s.prps q 4096 = [(a, 4096)] ∧ ((a + 4096 ≤ c.base + 16 * c.tail ∨ c.base + 16 * c.tail + 16 ≤ a)) :=
  ⟨(hostOn 0 (sqe 6 1 196608 [0, 0, 0, 0, 0, 0])), adSq, ioCq, sqe 6 1 196608 [0, 0, 0, 0, 0, 0], 0x30000, 512, by decide +kernel⟩
theorem wit_HostAdminCommandsAndResetsRuleTheController_19 : ∃ (s : State) (x : NvSq) (c : NvCq) (q : Sqe) (a : Nat)
    (n : Nat), s.live = true ∧ s.offers 0 x c q ∧ q.opc = 6 ∧ q.dw 10 % 256 = 2 ∧ s.prps q 4096 = [(a, 4096)] ∧ ((a + 4096
    ≤ c.base + 16 * c.tail ∨ c.base + 16 * c.tail + 16 ≤ a)) ∧ q.nsid < n ∧ n ≤ 32 ∧ (s.nsBlocks n).isSome = true ∧ ((∀ m
    ∈ List.range n, q.nsid < m → s.nsBlocks m = none)) :=
  ⟨(hostOn 0 (sqe 6 1 196608 [2, 0, 0, 0, 0, 0])), adSq, ioCq, sqe 6 1 196608 [2, 0, 0, 0, 0, 0], 0x30000, 32, by decide +kernel⟩
theorem wit_HostAdminCommandsAndResetsRuleTheController_20 : ∃ (s : State) (x : NvSq) (c : NvCq) (q : Sqe) (st : Nat),
    s.live = true ∧ s.offers 0 x c q ∧ q.opc = 6 ∧ (((q.dw 10 % 256 ∉ [0, 1, 2, 3, 0x10, 0x11, 0x12, 0x13] ∧ st = 2) ∨
    (q.dw 10 % 256 ∈ [0, 0x11, 0x12] ∧ (q.nsid = 0 ∨ 32 < q.nsid) ∧ st = 0x0B))) :=
  ⟨(hostOn 0 (sqe 6 33 196608 [0, 0, 0, 0, 0, 0])), adSq, ioCq, sqe 6 33 196608 [0, 0, 0, 0, 0, 0], 0x0B, by decide +kernel⟩
theorem wit_HostAdminCommandsAndResetsRuleTheController_21 : ∃ (s : State) (x : NvSq) (c : NvCq) (q : Sqe) (k :
    NvCmd), s.live = true ∧ s.offers 0 x c q ∧ q.opc = 8 ∧ q.dw 10 % 65536 = k.sq ∧ q.dw 10 / 65536 = k.cid ∧
    s.nv.cmds.find? (fun y => y.sq = k.sq && y.cid = k.cid && !y.silent) = some k ∧ k.notBegun = false :=
  ⟨(let s := (hostOn 0 (sqe 8 0 196608 [327743, 0, 0, 0, 0, 0])); s.setNv { s.nv with cmds := [{ n := 0, sq := 63, cid := 5, opc := 0, stage := .flushing, need := [0] }] }), adSq, ioCq, sqe 8 0 196608 [327743, 0, 0, 0, 0, 0], { n := 0, sq := 63, cid := 5, opc := 0, stage := .flushing, need := [0] }, by decide +kernel⟩
theorem wit_HostAdminCommandsAndResetsRuleTheController_22 : ∃ (s : State) (x : NvSq) (c : NvCq) (q : Sqe) (k : NvCmd)
    (y : NvSq) (d : NvCq), s.live = true ∧ s.offers 0 x c q ∧ q.opc = 8 ∧ q.dw 10 % 65536 = k.sq ∧ q.dw 10 / 65536 = k.cid
    ∧ s.nv.cmds.find? (fun y => y.sq = k.sq && y.cid = k.cid && !y.silent) = some k ∧ k.notBegun = true ∧ ((∀ y ∈
    s.nv.cmds, y ≠ k → y.n ≠ k.n)) ∧ s.sq k.sq = some y ∧ k.sq ≠ 0 ∧ s.cq y.cq = some d ∧ y.cq ≠ x.cq ∧ d.held = [] ∧
    d.full = false :=
  ⟨(let s := ((hostOn 0 (sqe 8 0 196608 [327743, 0, 0, 0, 0, 0])).setSq 63 (some ioSq)).setCq 63 (some { ioCq with base := 0x40000 }); s.setNv { s.nv with seq := 1, cmds := [{ n := 0, sq := 63, cid := 5, opc := 1, stage := .room }] }), adSq, ioCq, sqe 8 0 196608 [327743, 0, 0, 0, 0, 0], { n := 0, sq := 63, cid := 5, opc := 1, stage := .room }, ioSq, { ioCq with base := 0x40000 }, by decide +kernel⟩
theorem wit_HostAdminCommandsAndResetsRuleTheController_23 : ∃ (s : State) (x : NvSq) (c : NvCq) (q : Sqe) (p : Sqe)
    (id : Nat) (y : NvSq), s.live = true ∧ s.offers 0 x c q ∧ q.opc = 8 ∧ q.dw 10 % 65536 = id ∧ 0 < id ∧ s.sq id = some y
    ∧ ((∀ k ∈ s.nv.cmds, k.sq ≠ id)) ∧ y.head < y.size ∧ (y.head + 1) % y.size = y.tail ∧ y.head ≠ y.tail ∧ y.skip = [] ∧
    s.sqeAt y y.head = p ∧ q.dw 10 / 65536 = p.cid ∧ p.opc = 0 :=
  ⟨(let s := ((hostOn 0 (sqe 8 0 196608 [4294901823, 0, 0, 0, 0, 0])).setSq 63 (some { ioSq with base := 0x50000 })).setCq 63 (some { ioCq with base := 0x40000 }); s.setHostBytes 0x500C0 ((sqe 0 1 0 [0, 0, 0, 0, 0, 0]).flatMap (toBytes 4))), adSq, ioCq, sqe 8 0 196608 [4294901823, 0, 0, 0, 0, 0], sqe 0 1 0 [0, 0, 0, 0, 0, 0], 63, { ioSq with base := 0x50000 }, by decide +kernel⟩
theorem wit_HostAdminCommandsAndResetsRuleTheController_24 : ∃ (s : State) (x : NvSq) (c : NvCq) (q : Sqe) (p : Sqe)
    (id : Nat) (y : NvSq) (d : NvCq), s.live = true ∧ s.offers 0 x c q ∧ q.opc = 8 ∧ q.dw 10 % 65536 = id ∧ 0 < id ∧ s.sq
    id = some y ∧ ((∀ k ∈ s.nv.cmds, k.sq ≠ id)) ∧ y.head < y.size ∧ (y.head + 1) % y.size = y.tail ∧ y.head ≠ y.tail ∧
    y.skip = [] ∧ s.sqeAt y y.head = p ∧ q.dw 10 / 65536 = p.cid ∧ p.opc ≠ 0 ∧ s.cq y.cq = some d ∧ y.cq ≠ x.cq ∧ d.held =
    [] ∧ d.full = false :=
  ⟨(let s := ((hostOn 0 (sqe 8 0 196608 [4294901823, 0, 0, 0, 0, 0])).setSq 63 (some { ioSq with base := 0x50000 })).setCq 63 (some { ioCq with base := 0x40000 }); s.setHostBytes 0x500C0 ((sqe 1 1 0 [0, 0, 0, 0, 0, 0]).flatMap (toBytes 4))), adSq, ioCq, sqe 8 0 196608 [4294901823, 0, 0, 0, 0, 0], sqe 1 1 0 [0, 0, 0, 0, 0, 0], 63, { ioSq with base := 0x50000 }, { ioCq with base := 0x40000 }, by decide +kernel⟩
theorem wit_HostAdminCommandsAndResetsRuleTheController_25 : ∃ (s : State) (x : NvSq) (c : NvCq) (q : Sqe) (k : Nat),
    s.live = true ∧ s.offers 0 x c q ∧ q.opc = 8 ∧ q.dw 10 % 65536 = k ∧ s.sq k = none ∧ ((∀ y ∈ s.nv.cmds, y.sq ≠ k)) :=
  ⟨(hostOn 0 (sqe 8 0 196608 [62, 0, 0, 0, 0, 0])), adSq, ioCq, sqe 8 0 196608 [62, 0, 0, 0, 0, 0], 62, by decide +kernel⟩
theorem wit_HostAdminCommandsAndResetsRuleTheController_26 : ∃ (s : State) (x : NvSq) (c : NvCq) (q : Sqe), s.live =
    true ∧ s.offers 0 x c q ∧ q.opc = 9 ∧ q.dw 10 % 256 = 1 ∧ (q.dw 10).testBit 31 = true :=
  ⟨(hostOn 0 (sqe 9 0 196608 [2147483649, 0, 0, 0, 0, 0])), adSq, ioCq, sqe 9 0 196608 [2147483649, 0, 0, 0, 0, 0], by decide +kernel⟩
theorem wit_HostAdminCommandsAndResetsRuleTheController_27 : ∃ (s : State) (x : NvSq) (c : NvCq) (q : Sqe), s.live =
    true ∧ s.offers 0 x c q ∧ q.opc = 9 ∧ q.dw 10 % 256 = 1 ∧ (q.dw 10).testBit 31 = false :=
  ⟨(hostOn 0 (sqe 9 0 196608 [1, 4294967295, 0, 0, 0, 0])), adSq, ioCq, sqe 9 0 196608 [1, 4294967295, 0, 0, 0, 0], by decide +kernel⟩
theorem wit_HostAdminCommandsAndResetsRuleTheController_28 : ∃ (s : State) (x : NvSq) (c : NvCq) (q : Sqe) (k : Nat),
    s.live = true ∧ s.offers 0 x c q ∧ q.opc = 9 ∧ q.dw 10 % 256 = 4 ∧ (q.dw 10).testBit 31 = false ∧ k = bits (q.dw 11)
    21 16 ∧ k / 16 ≤ 1 ∧ k % 16 ≤ 8 :=
  ⟨(hostOn 0 (sqe 9 0 196608 [4, 1638399, 0, 0, 0, 0])), adSq, ioCq, sqe 9 0 196608 [4, 1638399, 0, 0, 0, 0], 24, by decide +kernel⟩
theorem wit_HostAdminCommandsAndResetsRuleTheController_29 : ∃ (s : State) (x : NvSq) (c : NvCq) (q : Sqe), s.live =
    true ∧ s.offers 0 x c q ∧ q.opc = 9 ∧ q.dw 10 % 256 = 4 ∧ (q.dw 10).testBit 31 = true :=
  ⟨(hostOn 0 (sqe 9 0 196608 [2147483652, 0, 0, 0, 0, 0])), adSq, ioCq, sqe 9 0 196608 [2147483652, 0, 0, 0, 0, 0], by decide +kernel⟩
theorem wit_HostAdminCommandsAndResetsRuleTheController_30 : ∃ (s : State) (x : NvSq) (c : NvCq) (q : Sqe), s.live =
    true ∧ s.offers 0 x c q ∧ q.opc = 9 ∧ q.dw 10 % 256 = 4 ∧ (q.dw 10).testBit 31 = false ∧ ((1 < bits (q.dw 11) 21 20 ∨
    8 < bits (q.dw 11) 19 16 ∧ bits (q.dw 11) 19 16 ≠ 15)) :=
  ⟨(hostOn 0 (sqe 9 0 196608 [4, 589824, 0, 0, 0, 0])), adSq, ioCq, sqe 9 0 196608 [4, 589824, 0, 0, 0, 0], by decide +kernel⟩
theorem wit_HostAdminCommandsAndResetsRuleTheController_31 : ∃ (s : State) (x : NvSq) (c : NvCq) (q : Sqe), s.live =
    true ∧ s.offers 0 x c q ∧ q.opc = 9 ∧ q.dw 10 % 256 = 4 ∧ (q.dw 10).testBit 31 = false ∧ bits (q.dw 11) 21 20 ≤ 1 ∧
    bits (q.dw 11) 19 16 = 15 :=
  ⟨(hostOn 0 (sqe 9 0 196608 [4, 2031623, 0, 0, 0, 0])), adSq, ioCq, sqe 9 0 196608 [4, 2031623, 0, 0, 0, 0], by decide +kernel⟩
theorem wit_HostAdminCommandsAndResetsRuleTheController_32 : ∃ (s : State) (x : NvSq) (c : NvCq) (q : Sqe), s.live =
    true ∧ s.offers 0 x c q ∧ q.opc = 9 ∧ q.dw 10 % 256 = 6 ∧ (q.dw 10).testBit 31 = true :=
  ⟨(hostOn 0 (sqe 9 0 196608 [2147483654, 0, 0, 0, 0, 0])), adSq, ioCq, sqe 9 0 196608 [2147483654, 0, 0, 0, 0, 0], by decide +kernel⟩
theorem wit_HostAdminCommandsAndResetsRuleTheController_33 : ∃ (s : State) (x : NvSq) (c : NvCq) (q : Sqe), s.live =
    true ∧ s.offers 0 x c q ∧ q.opc = 9 ∧ q.dw 10 % 256 = 6 ∧ (q.dw 10).testBit 31 = false :=
  ⟨(hostOn 0 (sqe 9 0 196608 [6, 4294967294, 0, 0, 0, 0])), adSq, ioCq, sqe 9 0 196608 [6, 4294967294, 0, 0, 0, 0], by decide +kernel⟩
theorem wit_HostAdminCommandsAndResetsRuleTheController_34 : ∃ (s : State) (x : NvSq) (c : NvCq) (q : Sqe), s.live =
    true ∧ s.offers 0 x c q ∧ q.opc = 9 ∧ q.dw 10 % 256 = 7 ∧ (q.dw 10).testBit 31 = true :=
  ⟨(hostOn 0 (sqe 9 0 196608 [2147483655, 0, 0, 0, 0, 0])), adSq, ioCq, sqe 9 0 196608 [2147483655, 0, 0, 0, 0, 0], by decide +kernel⟩
theorem wit_HostAdminCommandsAndResetsRuleTheController_35 : ∃ (s : State) (x : NvSq) (c : NvCq) (q : Sqe) (n : Nat),
    s.live = true ∧ s.offers 0 x c q ∧ q.opc = 9 ∧ q.dw 10 % 256 = 7 ∧ (q.dw 10).testBit 31 = false ∧ q.dw 11 % 65536 ≠
    65535 ∧ q.dw 11 / 65536 ≠ 65535 ∧ ((∀ e ∈ s.nv.sqs, e.1 = 0 ∨ e.2 = none)) ∧ ((∀ e ∈ s.nv.cqs, e.1 = 0 ∨ e.2 = none))
    ∧ n = min 62 (q.dw 11 % 65536) + min 62 (q.dw 11 / 65536) * 65536 :=
  ⟨(hostOn 0 (sqe 9 0 196608 [7, 4128769, 0, 0, 0, 0])), adSq, ioCq, sqe 9 0 196608 [7, 4128769, 0, 0, 0, 0], 62 * 65536 + 1, by decide +kernel⟩
theorem wit_HostAdminCommandsAndResetsRuleTheController_36 : ∃ (s : State) (x : NvSq) (c : NvCq) (q : Sqe), s.live =
    true ∧ s.offers 0 x c q ∧ q.opc = 9 ∧ q.dw 10 % 256 = 7 ∧ (q.dw 10).testBit 31 = false ∧ ((q.dw 11 % 65536 = 65535 ∨
    q.dw 11 / 65536 = 65535)) :=
  ⟨(hostOn 0 (sqe 9 0 196608 [7, 65535, 0, 0, 0, 0])), adSq, ioCq, sqe 9 0 196608 [7, 65535, 0, 0, 0, 0], by decide +kernel⟩
theorem wit_HostAdminCommandsAndResetsRuleTheController_37 : ∃ (s : State) (x : NvSq) (c : NvCq) (q : Sqe) (k : Nat),
    s.live = true ∧ s.offers 0 x c q ∧ q.opc = 9 ∧ q.dw 10 % 256 = 7 ∧ (q.dw 10).testBit 31 = false ∧ q.dw 11 % 65536 ≠
    65535 ∧ q.dw 11 / 65536 ≠ 65535 ∧ 0 < k ∧ (((s.sq k).isSome = true ∨ (s.cq k).isSome = true)) :=
  ⟨((hostOn 0 (sqe 9 0 196608 [7, 0, 0, 0, 0, 0])).setCq 63 (some ioCq)), adSq, ioCq, sqe 9 0 196608 [7, 0, 0, 0, 0, 0], 63, by decide +kernel⟩
theorem wit_HostAdminCommandsAndResetsRuleTheController_38 : ∃ (s : State) (x : NvSq) (c : NvCq) (q : Sqe), s.live =
    true ∧ s.offers 0 x c q ∧ q.opc = 9 ∧ q.dw 10 % 256 = 8 ∧ (q.dw 10).testBit 31 = true :=
  ⟨(hostOn 0 (sqe 9 0 196608 [2147483656, 0, 0, 0, 0, 0])), adSq, ioCq, sqe 9 0 196608 [2147483656, 0, 0, 0, 0, 0], by decide +kernel⟩
theorem wit_HostAdminCommandsAndResetsRuleTheController_39 : ∃ (s : State) (x : NvSq) (c : NvCq) (q : Sqe), s.live =
    true ∧ s.offers 0 x c q ∧ q.opc = 9 ∧ q.dw 10 % 256 = 8 ∧ (q.dw 10).testBit 31 = false :=
  ⟨(hostOn 0 (sqe 9 0 196608 [8, 4294967295, 0, 0, 0, 0])), adSq, ioCq, sqe 9 0 196608 [8, 4294967295, 0, 0, 0, 0], by decide +kernel⟩
theorem wit_HostAdminCommandsAndResetsRuleTheController_40 : ∃ (s : State) (x : NvSq) (c : NvCq) (q : Sqe) (iv : Nat),
    s.live = true ∧ s.offers 0 x c q ∧ q.opc = 9 ∧ q.dw 10 % 256 = 9 ∧ (q.dw 10).testBit 31 = false ∧ iv = q.dw 11 % 65536
    ∧ iv ≤ 255 :=
  ⟨(hostOn 0 (sqe 9 0 196608 [9, 65791, 0, 0, 0, 0])), adSq, ioCq, sqe 9 0 196608 [9, 65791, 0, 0, 0, 0], 255, by decide +kernel⟩
theorem wit_HostAdminCommandsAndResetsRuleTheController_41 : ∃ (s : State) (x : NvSq) (c : NvCq) (q : Sqe), s.live =
    true ∧ s.offers 0 x c q ∧ q.opc = 9 ∧ q.dw 10 % 256 = 9 ∧ (q.dw 10).testBit 31 = true :=
  ⟨(hostOn 0 (sqe 9 0 196608 [2147483657, 0, 0, 0, 0, 0])), adSq, ioCq, sqe 9 0 196608 [2147483657, 0, 0, 0, 0, 0], by decide +kernel⟩
theorem wit_HostAdminCommandsAndResetsRuleTheController_42 : ∃ (s : State) (x : NvSq) (c : NvCq) (q : Sqe), s.live =
    true ∧ s.offers 0 x c q ∧ q.opc = 9 ∧ q.dw 10 % 256 = 9 ∧ (q.dw 10).testBit 31 = false ∧ 255 < q.dw 11 % 65536 :=
  ⟨(hostOn 0 (sqe 9 0 196608 [9, 256, 0, 0, 0, 0])), adSq, ioCq, sqe 9 0 196608 [9, 256, 0, 0, 0, 0], by decide +kernel⟩
theorem wit_HostAdminCommandsAndResetsRuleTheController_43 : ∃ (s : State) (x : NvSq) (c : NvCq) (q : Sqe), s.live =
    true ∧ s.offers 0 x c q ∧ q.opc = 9 ∧ q.dw 10 % 256 = 11 ∧ (q.dw 10).testBit 31 = true :=
  ⟨(hostOn 0 (sqe 9 0 196608 [2147483659, 0, 0, 0, 0, 0])), adSq, ioCq, sqe 9 0 196608 [2147483659, 0, 0, 0, 0, 0], by decide +kernel⟩
theorem wit_HostAdminCommandsAndResetsRuleTheController_44 : ∃ (s : State) (x : NvSq) (c : NvCq) (q : Sqe), s.live =
    true ∧ s.offers 0 x c q ∧ q.opc = 9 ∧ q.dw 10 % 256 = 11 ∧ (q.dw 10).testBit 31 = false :=
  ⟨(hostOn 0 (sqe 9 0 196608 [11, 4294967295, 0, 0, 0, 0])), adSq, ioCq, sqe 9 0 196608 [11, 4294967295, 0, 0, 0, 0], by decide +kernel⟩
theorem wit_HostAdminCommandsAndResetsRuleTheController_45 : ∃ (s : State) (x : NvSq) (c : NvCq) (q : Sqe) (v : Nat),
    s.live = true ∧ s.offers 0 x c q ∧ q.opc = 0x0A ∧ bits (q.dw 10) 10 8 = 0 ∧ (q.dw 10 % 256, v) ∈ [(1, s.nv.arb), (6,
    b2n s.nv.vwc), (7, s.nv.nq), (8, s.nv.coal), (0x0B, s.nv.aec), (4, UMap.get (fun _ => 0) s.nv.temps (bits (q.dw 11) 21
    16))] :=
  ⟨(hostOn 0 (sqe 10 0 196608 [6, 0, 0, 0, 0, 0])), adSq, ioCq, sqe 10 0 196608 [6, 0, 0, 0, 0, 0], 1, by decide +kernel⟩
theorem wit_HostAdminCommandsAndResetsRuleTheController_46 : ∃ (s : State) (x : NvSq) (c : NvCq) (q : Sqe) (iv : Nat),
    s.live = true ∧ s.offers 0 x c q ∧ q.opc = 0x0A ∧ bits (q.dw 10) 10 8 = 0 ∧ q.dw 10 % 256 = 9 ∧ iv = q.dw 11 % 65536 ∧
    iv ≤ 255 :=
  ⟨(hostOn 0 (sqe 10 0 196608 [9, 255, 0, 0, 0, 0])), adSq, ioCq, sqe 10 0 196608 [9, 255, 0, 0, 0, 0], 255, by decide +kernel⟩
theorem wit_HostAdminCommandsAndResetsRuleTheController_47 : ∃ (s : State) (x : NvSq) (c : NvCq) (q : Sqe) (v : Nat),
    s.live = true ∧ s.offers 0 x c q ∧ q.opc = 0x0A ∧ ((bits (q.dw 10) 10 8 = 1 ∨ bits (q.dw 10) 10 8 = 2)) ∧ (q.dw 10 %
    256, v) ∈ [(1, 0), (4, 0), (6, 1), (7, 62 * 65536 + 62), (8, 0), (0x0B, 0)] :=
  ⟨(hostOn 0 (sqe 10 0 196608 [518, 0, 0, 0, 0, 0])), adSq, ioCq, sqe 10 0 196608 [518, 0, 0, 0, 0, 0], 1, by decide +kernel⟩
theorem wit_HostAdminCommandsAndResetsRuleTheController_48 : ∃ (s : State) (x : NvSq) (c : NvCq) (q : Sqe) (dw : Nat)
    (st : Nat), s.live = true ∧ s.offers 0 x c q ∧ q.opc = 0x0A ∧ (((q.dw 10 % 256 ∈ [1, 4, 6, 7, 8, 9, 0x0B] ∧ bits (q.dw
    10) 10 8 = 3 ∧ dw = 4 ∧ st = 0) ∨ ((q.dw 10 % 256 ∉ [1, 4, 6, 7, 8, 9, 0x0B] ∨ 3 < bits (q.dw 10) 10 8) ∧ dw = 0 ∧ st
    = 2))) :=
  ⟨(hostOn 0 (sqe 10 0 196608 [775, 0, 0, 0, 0, 0])), adSq, ioCq, sqe 10 0 196608 [775, 0, 0, 0, 0, 0], 4, 0, by decide +kernel⟩
theorem wit_HostAdminCommandsAndResetsRuleTheController_49 : ∃ (s : State) (x : NvSq) (c : NvCq) (q : Sqe), s.live =
    true ∧ s.offers 0 x c q ∧ q.opc = 0x0C ∧ (s.nv.cmds.filter (fun k => k.stage = .event)).length < 4 ∧ s.nv.aePending =
    false :=
  ⟨(let s := (hostOn 0 (sqe 12 0 196608 [0, 0, 0, 0, 0, 0])); s.setNv { s.nv with cmds := [⟨0, 0, 1, 12, 0, 0, 0, false, .event, [], none, [], [], [], [], false⟩, ⟨1, 0, 1, 12, 0, 0, 0, false, .event, [], none, [], [], [], [], false⟩, ⟨2, 0, 1, 12, 0, 0, 0, false, .event, [], none, [], [], [], [], false⟩], seq := 3 }), adSq, ioCq, sqe 12 0 196608 [0, 0, 0, 0, 0, 0], by decide +kernel⟩
theorem wit_HostAdminCommandsAndResetsRuleTheController_50 : ∃ (s : State) (x : NvSq) (c : NvCq) (q : Sqe), s.live =
    true ∧ s.offers 0 x c q ∧ q.opc = 0x0C ∧ s.nv.cmds = [] ∧ s.nv.aePending = true ∧ s.nv.aeMasked = false :=
  ⟨(let s := (hostOn 0 (sqe 12 0 196608 [0, 0, 0, 0, 0, 0])); s.setNv { s.nv with aePending := true }), adSq, ioCq, sqe 12 0 196608 [0, 0, 0, 0, 0, 0], by decide +kernel⟩
theorem wit_HostAdminCommandsAndResetsRuleTheController_51 : ∃ (s : State) (x : NvSq) (c : NvCq) (q : Sqe), s.live =
    true ∧ s.offers 0 x c q ∧ q.opc = 0x0C ∧ 4 ≤ (s.nv.cmds.filter (fun k => k.stage = .event)).length :=
  ⟨(let s := (hostOn 0 (sqe 12 0 196608 [0, 0, 0, 0, 0, 0])); s.setNv { s.nv with cmds := List.replicate 4 ⟨0, 0, 1, 12, 0, 0, 0, false, .event, [], none, [], [], [], [], false⟩ }), adSq, ioCq, sqe 12 0 196608 [0, 0, 0, 0, 0, 0], by decide +kernel⟩
theorem wit_HostAdminCommandsAndResetsRuleTheController_52 : ∃ (s : State) (cc : Word), s.live = true ∧
    s.nv.cc.testBit 0 = false ∧ s.resetting = false ∧ s.flag nvtA NVT_CTRL_EN = true ∧ bits cc.toNat 10 7 ≤ 4 ∧ bits
    cc.toNat 6 4 = 0 ∧ bits cc.toNat 13 11 = 0 :=
  ⟨storeOn, 0x200, by decide +kernel⟩
theorem wit_HostAdminCommandsAndResetsRuleTheController_53 : ∃ (s : State) (cc : Word), s.live = true ∧
    ((s.nv.cc.testBit 0 = true ∨ s.resetting = true ∨ s.flag nvtA NVT_CTRL_EN = false ∨ 4 < bits cc.toNat 10 7 ∨ bits
    cc.toNat 6 4 ≠ 0 ∨ bits cc.toNat 13 11 ≠ 0)) :=
  ⟨storeOn, 0x280, by decide +kernel⟩
theorem wit_HostAdminCommandsAndResetsRuleTheController_54 : ∃ (s : State), s.live = true ∧ s.nv.cc.testBit 0 = true ∧
    ((∀ k ∈ s.nv.cmds, k.notBegun = true)) ∧ ((∀ b ∈ s.nv.cache, b.dirty = false ∧ b.flying = none)) ∧ s.nv.soft = [] ∧
    s.nv.linkReset = false :=
  ⟨hostOn 0 (sqe 0 0 196608 [0, 0, 0, 0, 0, 0]), by decide +kernel⟩
theorem wit_HostAdminCommandsAndResetsRuleTheController_55 : ∃ (s : State) (p : Fin 4) (k : Soft), s.live = true ∧
    s.nv.cc.testBit 0 = true ∧ ((∀ y ∈ s.nv.cmds, y.notBegun = true)) ∧ ((∀ b ∈ s.nv.cache, b.dirty = false ∧ b.flying =
    none)) ∧ s.nv.soft = [k] ∧ k.port = p ∧ s.ssdState p = 2 :=
  ⟨(let s := hostOn 0 (sqe 0 0 196608 [0, 0, 0, 0, 0, 0]); s.setNv { s.nv with soft := [⟨0, 1, 0, 1⟩] }), 0, ⟨0, 1, 0, 1⟩, by decide +kernel⟩
theorem wit_HostAdminCommandsAndResetsRuleTheController_56 : ∃ (s : State), s.live = true ∧ ((∀ k ∈ s.nv.cmds,
    k.notBegun = true)) ∧ ((∀ b ∈ s.nv.cache, b.dirty = false ∧ b.flying = none)) ∧ s.nv.soft = [] ∧ s.nv.linkReset =
    false :=
  ⟨hostOn 0 (sqe 0 0 196608 [0, 0, 0, 0, 0, 0]), by decide +kernel⟩
theorem wit_HostAdminCommandsAndResetsRuleTheController_57 : ∃ (s : State) (p : Fin 4) (k : Soft), s.live = true ∧ ((∀
    y ∈ s.nv.cmds, y.notBegun = true)) ∧ ((∀ b ∈ s.nv.cache, b.dirty = false ∧ b.flying = none)) ∧ s.nv.soft = [k] ∧
    k.port = p ∧ s.ssdState p = 2 :=
  ⟨(let s := hostOn 0 (sqe 0 0 196608 [0, 0, 0, 0, 0, 0]); s.setNv { s.nv with soft := [⟨0, 1, 0, 1⟩] }), 0, ⟨0, 1, 0, 1⟩, by decide +kernel⟩
theorem wit_HostAdminCommandsAndResetsRuleTheController_58 : ∃ (s : State), s.live = true ∧ s.nv.cc.testBit 0 = false
    :=
  ⟨storeOn, by decide +kernel⟩
theorem wit_HostAdminCommandsAndResetsRuleTheController_59 : ∃ (s : State), s.live = true ∧ s.resetting = true :=
  ⟨(storeOn.setNv { storeOn.nv with cmds := [⟨0, 0, 0, 0, 0, 0, 0, false, .reset false, [7], none, [], [], [], [], true⟩] }), by decide +kernel⟩
theorem wit_HostAdminCommandsAndResetsRuleTheController_60 : ∃ (s : State), s.live = true ∧ s.nv.rdy = true ∧
    s.resetting = false ∧ ((∀ b ∈ s.nv.cache, b.dirty = false ∧ b.flying = none)) ∧ s.nv.soft = [] ∧ s.nvCalm :=
  ⟨hostOn 0 (sqe 0 0 196608 [0, 0, 0, 0, 0, 0]), by decide +kernel⟩
theorem wit_HostAdminCommandsAndResetsRuleTheController_61 : ∃ (s : State) (p : Fin 4) (k : Soft), s.live = true ∧
    s.nv.rdy = true ∧ s.resetting = false ∧ ((∀ b ∈ s.nv.cache, b.dirty = false ∧ b.flying = none)) ∧ s.nv.soft = [k] ∧
    k.port = p ∧ s.ssdState p = 2 ∧ s.nvCalm :=
  ⟨(let s := hostOn 0 (sqe 0 0 196608 [0, 0, 0, 0, 0, 0]); s.setNv { s.nv with soft := [⟨0, 1, 0, 1⟩] }), 0, ⟨0, 1, 0, 1⟩, by decide +kernel⟩
theorem wit_HostAdminCommandsAndResetsRuleTheController_62 : ∃ (s : State) (p : Fin 4) (k : Soft), s.live = true ∧
    s.resetting = false ∧ ((∀ y ∈ s.nv.cmds, y.notBegun = true)) ∧ ((∀ b ∈ s.nv.cache, b.dirty = false ∧ b.flying = none))
    ∧ s.nv.soft = [k] ∧ k.port = p ∧ s.ssdState p = 2 :=
  ⟨(let s := hostOn 0 (sqe 0 0 196608 [0, 0, 0, 0, 0, 0]); s.setNv { s.nv with soft := [⟨0, 1, 0, 1⟩] }), 0, ⟨0, 1, 0, 1⟩, by decide +kernel⟩
theorem wit_HostAdminCommandsAndResetsRuleTheController_63 : ∃ (s : State), s.live = true ∧ s.quadsSettled = true ∧
    ((∀ k ∈ s.nv.cmds, k.notBegun = true)) ∧ ((∀ b ∈ s.nv.cache, b.dirty = false ∧ b.flying = none)) ∧ s.nv.soft = [] :=
  ⟨((hostOn 0 (sqe 0 0 196608 [0, 0, 0, 0, 0, 0])).wr (pcieA + PCIE_OB_LO + 124) 5).quadsFollow, by decide +kernel⟩
theorem wit_HostAdminCommandsAndResetsRuleTheController_64 : ∃ (s : State) (v : Fin 5), s.live = true ∧ s.flag pcieA
    PCIE_CTRL_EN = true ∧ v.val + 1 ≤ max 1 (min 5 (s.fld pcieA PCIE_CTRL_MAX_SPEED)) :=
  ⟨alive.wr (pcieA + PCIE_CTRL) 0x0B, 4, by decide +kernel⟩
theorem wit_HostAdminCommandsAndResetsRuleTheController_65 : ∃ (s : State) (v : Fin 5), s.live = true ∧ ((s.flag pcieA
    PCIE_CTRL_EN = false ∨ max 1 (min 5 (s.fld pcieA PCIE_CTRL_MAX_SPEED)) < v.val + 1)) :=
  ⟨alive.wr (pcieA + PCIE_CTRL) 0x07, 3, by decide +kernel⟩
theorem wit_HostAdminCommandsAndResetsRuleTheController_66 : ∃ (s : State) (o : Nat) (n : Nat) (a : Nat), s.live =
    true ∧ a = s.fld pcieA PCIE_BAR4_BAR4_BASE * 2 ^ 30 + o ∧ s.pcieUp = true ∧ a < 0x4000000000 ∧ s.answersAt a n :=
  ⟨((hostOn 0 []).setMemBytes 0x3FFFFFFF [7]), 0x3FFFFFFE, 2, 0x3FFFFFFE, by decide +kernel⟩
theorem wit_HostAdminCommandsAndResetsRuleTheController_67 : ∃ (s : State) (o : Nat) (a : Nat) (b : List Byte), s.live
    = true ∧ a = s.fld pcieA PCIE_BAR4_BAR4_BASE * 2 ^ 30 + o ∧ s.pcieUp = true ∧ a < 0x4000000000 ∧ s.answersAt a
    b.length :=
  ⟨hostOn 0 [], 0x3FFFFFFE, 0x3FFFFFFE, [7, 8], by decide +kernel⟩
theorem wit_HostAdminCommandsAndResetsRuleTheController_68 : ∃ (s : State) (o : Nat) (n : Nat) (a : Nat), s.live =
    true ∧ a = s.fld pcieA PCIE_BAR4_BAR4_BASE * 2 ^ 30 + o ∧ s.pcieUp = true ∧ a < 0x4000000000 ∧ s.usableBytes < a + n
    :=
  ⟨((hostOn 0 []).setFld pcieA PCIE_BAR4_BAR4_BASE 255), 0xFFF, 1, 0x3FC0000FFF, by decide +kernel⟩
theorem wit_HostAdminCommandsAndResetsRuleTheController_69 : ∃ (s : State), s.live = true ∧ s.pcieUp = false :=
  ⟨storeOn, by decide +kernel⟩
theorem wit_RecordStoreKeepsNamespacesFirmwareAndTasks_1 : ∃ (s : State) (x : NvSq) (c : NvCq) (q : Sqe) (st : Nat),
    s.live = true ∧ s.offers 0 x c q ∧ q.opc = 0x0D ∧ q.dw 10 % 16 = 0 ∧ (((s.maint = false ∧ st = 0x782) ∨ (s.maint =
    true ∧ s.nv.san.isSome = true ∧ st = 0x1D) ∨ (s.maint = true ∧ s.nv.san = none ∧ s.storeUp = false ∧ st = 0x783))) :=
  ⟨(hostOn 0 (sqe 13 0 196608 [0, 0, 0, 0, 0, 0])), adSq, ioCq, sqe 13 0 196608 [0, 0, 0, 0, 0, 0], 0x782, by decide +kernel⟩
theorem wit_RecordStoreKeepsNamespacesFirmwareAndTasks_2 : ∃ (s : State) (x : NvSq) (c : NvCq) (q : Sqe) (st : Nat),
    s.live = true ∧ s.offers 0 x c q ∧ q.opc = 0x0D ∧ q.dw 10 % 16 = 1 ∧ (((s.maint = false ∧ st = 0x782) ∨ (s.maint =
    true ∧ s.nv.san.isSome = true ∧ st = 0x1D) ∨ (s.maint = true ∧ s.nv.san = none ∧ s.storeUp = false ∧ st = 0x783))) :=
  ⟨(hostOn 0 (sqe 13 0 196608 [1, 0, 0, 0, 0, 0])), adSq, ioCq, sqe 13 0 196608 [1, 0, 0, 0, 0, 0], 0x782, by decide +kernel⟩
theorem wit_RecordStoreKeepsNamespacesFirmwareAndTasks_3 : ∃ (s : State) (x : NvSq) (c : NvCq) (q : Sqe) (st : Nat),
    s.live = true ∧ s.offers 0 x c q ∧ q.opc = 0x15 ∧ q.dw 10 % 16 = 0 ∧ (((s.maint = false ∧ st = 0x782) ∨ (s.maint =
    true ∧ s.nv.san.isSome = true ∧ st = 0x1D) ∨ (s.maint = true ∧ s.nv.san = none ∧ s.storeUp = false ∧ st = 0x783))) :=
  ⟨(hostOn 0 (sqe 21 0 196608 [0, 0, 0, 0, 0, 0])), adSq, ioCq, sqe 21 0 196608 [0, 0, 0, 0, 0, 0], 0x782, by decide +kernel⟩
theorem wit_RecordStoreKeepsNamespacesFirmwareAndTasks_4 : ∃ (s : State) (x : NvSq) (c : NvCq) (q : Sqe) (st : Nat),
    s.live = true ∧ s.offers 0 x c q ∧ q.opc = 0x15 ∧ q.dw 10 % 16 = 1 ∧ (((s.maint = false ∧ st = 0x782) ∨ (s.maint =
    true ∧ s.nv.san.isSome = true ∧ st = 0x1D) ∨ (s.maint = true ∧ s.nv.san = none ∧ s.storeUp = false ∧ st = 0x783))) :=
  ⟨(hostOn 0 (sqe 21 0 196608 [1, 0, 0, 0, 0, 0])), adSq, ioCq, sqe 21 0 196608 [1, 0, 0, 0, 0, 0], 0x782, by decide +kernel⟩
theorem wit_RecordStoreKeepsNamespacesFirmwareAndTasks_5 : ∃ (s : State) (x : NvSq) (c : NvCq) (q : Sqe) (n : Nat) (a
    : Nat) (id : Nat), s.live = true ∧ s.offers 0 x c q ∧ q.opc = 0x0D ∧ q.dw 10 % 16 = 0 ∧ s.maint = true ∧ s.nv.san =
    none ∧ s.storeUp = true ∧ s.nvCalm ∧ n = (fieldAt (s.prpRead (s.prps q 4096)) 0 8 + 255) / 256 ∧ 0 < n ∧ bits (fieldAt
    (s.prpRead (s.prps q 4096)) 26 1) 3 0 = 0 ∧ a + n ≤ s.stripes ∧ ((∀ y ∈ s.nv.label.nss, apart a n y.start ((y.nsze +
    255) / 256) = true)) ∧ ((∀ b ∈ List.range a, ∃ y ∈ s.nv.label.nss, apart b n y.start ((y.nsze + 255) / 256) = false))
    ∧ 0 < id ∧ id < 32 ∧ s.ns id = none ∧ ((∀ m ∈ List.range id, 0 < m → (s.ns m).isSome = true)) :=
  ⟨((hostOn 0 (sqe 13 0 196608 [0, 0, 0, 0, 0, 0])).setFlag advA ADV_STATUS_MAINT true).setHostBytes 0x30000 [1, 1], adSq, ioCq, sqe 13 0 196608 [0, 0, 0, 0, 0, 0], 2, 2, 2, by decide +kernel⟩
theorem wit_RecordStoreKeepsNamespacesFirmwareAndTasks_6 : ∃ (s : State) (x : NvSq) (c : NvCq) (q : Sqe) (st : Nat) (n
    : Nat), s.live = true ∧ s.offers 0 x c q ∧ q.opc = 0x0D ∧ q.dw 10 % 16 = 0 ∧ s.maint = true ∧ s.nv.san = none ∧
    s.storeUp = true ∧ s.nvCalm ∧ n = (fieldAt (s.prpRead (s.prps q 4096)) 0 8 + 255) / 256 ∧ (((n = 0 ∧ st = 2) ∨ (0 < n
    ∧ bits (fieldAt (s.prpRead (s.prps q 4096)) 26 1) 3 0 ≠ 0 ∧ st = 0x10A) ∨ (0 < n ∧ bits (fieldAt (s.prpRead (s.prps q
    4096)) 26 1) 3 0 = 0 ∧ s.stripes < n ∧ st = 0x115))) :=
  ⟨((hostOn 0 (sqe 13 0 196608 [0, 0, 0, 0, 0, 0])).setFlag advA ADV_STATUS_MAINT true), adSq, ioCq, sqe 13 0 196608 [0, 0, 0, 0, 0, 0], 2, 0, by decide +kernel⟩
theorem wit_RecordStoreKeepsNamespacesFirmwareAndTasks_7 : ∃ (s : State) (x : NvSq) (c : NvCq) (q : Sqe), s.live =
    true ∧ s.offers 0 x c q ∧ q.opc = 0x0D ∧ q.dw 10 % 16 = 1 ∧ s.maint = true ∧ s.nv.san = none ∧ s.storeUp = true ∧
    s.nvCalm ∧ q.nsid ≠ 32 ∧ q.nsid ≠ 0xFFFFFFFF ∧ s.nv.fmt.all (fun f => f.1 ≠ q.nsid) = true ∧ (s.ns q.nsid).isSome =
    true ∧ ((∀ b ∈ s.nv.cache, b.nsid = q.nsid → b.flying = none)) :=
  ⟨((hostOn 0 (sqe 13 1 196608 [1, 0, 0, 0, 0, 0])).setFlag advA ADV_STATUS_MAINT true), adSq, ioCq, sqe 13 1 196608 [1, 0, 0, 0, 0, 0], by decide +kernel⟩
theorem wit_RecordStoreKeepsNamespacesFirmwareAndTasks_8 : ∃ (s : State) (x : NvSq) (c : NvCq) (q : Sqe) (st : Nat),
    s.live = true ∧ s.offers 0 x c q ∧ q.opc = 0x0D ∧ q.dw 10 % 16 = 1 ∧ s.maint = true ∧ s.nv.san = none ∧ s.storeUp =
    true ∧ s.nvCalm ∧ (((q.nsid = 32 ∧ st = 2) ∨ (q.nsid ≠ 32 ∧ q.nsid ≠ 0xFFFFFFFF ∧ s.ns q.nsid = none ∧ st = 0x0B) ∨
    (q.nsid ≠ 32 ∧ q.nsid ≠ 0xFFFFFFFF ∧ (s.ns q.nsid).isSome = true ∧ s.nv.fmt.any (fun f => f.1 = q.nsid) = true ∧ st =
    0x82))) :=
  ⟨((hostOn 0 (sqe 13 32 196608 [1, 0, 0, 0, 0, 0])).setFlag advA ADV_STATUS_MAINT true), adSq, ioCq, sqe 13 32 196608 [1, 0, 0, 0, 0, 0], 2, by decide +kernel⟩
theorem wit_RecordStoreKeepsNamespacesFirmwareAndTasks_9 : ∃ (s : State) (x : NvSq) (c : NvCq) (q : Sqe) (y : NvNs),
    s.live = true ∧ s.offers 0 x c q ∧ q.opc = 0x15 ∧ q.dw 10 % 16 = 0 ∧ s.maint = true ∧ s.nv.san = none ∧ s.storeUp =
    true ∧ s.nvCalm ∧ s.ns q.nsid = some y ∧ s.nv.fmt.all (fun f => f.1 ≠ q.nsid) = true ∧ y.attached = false :=
  ⟨(let s := (hostOn 0 (sqe 21 1 196608 [0, 0, 0, 0, 0, 0])).setFlag advA ADV_STATUS_MAINT true; s.setNv { s.nv with label := { s.nv.label with nss := [⟨1, 0, 512, false⟩] } }), adSq, ioCq, sqe 21 1 196608 [0, 0, 0, 0, 0, 0], ⟨1, 0, 512, false⟩, by decide +kernel⟩
theorem wit_RecordStoreKeepsNamespacesFirmwareAndTasks_10 : ∃ (s : State) (x : NvSq) (c : NvCq) (q : Sqe) (st : Nat),
    s.live = true ∧ s.offers 0 x c q ∧ q.opc = 0x15 ∧ q.dw 10 % 16 = 0 ∧ s.maint = true ∧ s.nv.san = none ∧ s.storeUp =
    true ∧ s.nvCalm ∧ (((((s.nv.fmt.all (fun f => f.1 ≠ q.nsid) = true ∧ (s.ns q.nsid).any (fun y => y.attached == true) =
    true) ∨ (s.ns q.nsid = none ∧ q.nsid = 32)) ∧ st = 0x118) ∨ ((s.ns q.nsid).isSome = true ∧ s.nv.fmt.any (fun f => f.1
    = q.nsid) = true ∧ st = 0x82) ∨ (s.ns q.nsid = none ∧ q.nsid ≠ 32 ∧ st = 0x0B))) :=
  ⟨((hostOn 0 (sqe 21 1 196608 [0, 0, 0, 0, 0, 0])).setFlag advA ADV_STATUS_MAINT true), adSq, ioCq, sqe 21 1 196608 [0, 0, 0, 0, 0, 0], 0x118, by decide +kernel⟩
theorem wit_RecordStoreKeepsNamespacesFirmwareAndTasks_11 : ∃ (s : State) (x : NvSq) (c : NvCq) (q : Sqe) (y : NvNs),
    s.live = true ∧ s.offers 0 x c q ∧ q.opc = 0x15 ∧ q.dw 10 % 16 = 1 ∧ s.maint = true ∧ s.nv.san = none ∧ s.storeUp =
    true ∧ s.nvCalm ∧ s.ns q.nsid = some y ∧ s.nv.fmt.all (fun f => f.1 ≠ q.nsid) = true ∧ y.attached = true :=
  ⟨((hostOn 0 (sqe 21 1 196608 [1, 0, 0, 0, 0, 0])).setFlag advA ADV_STATUS_MAINT true), adSq, ioCq, sqe 21 1 196608 [1, 0, 0, 0, 0, 0], ⟨1, 0, 512, true⟩, by decide +kernel⟩
theorem wit_RecordStoreKeepsNamespacesFirmwareAndTasks_12 : ∃ (s : State) (x : NvSq) (c : NvCq) (q : Sqe) (st : Nat),
    s.live = true ∧ s.offers 0 x c q ∧ q.opc = 0x15 ∧ q.dw 10 % 16 = 1 ∧ s.maint = true ∧ s.nv.san = none ∧ s.storeUp =
    true ∧ s.nvCalm ∧ (((((s.nv.fmt.all (fun f => f.1 ≠ q.nsid) = true ∧ (s.ns q.nsid).any (fun y => y.attached == false)
    = true) ∨ (s.ns q.nsid = none ∧ q.nsid = 32)) ∧ st = 0x11A) ∨ ((s.ns q.nsid).isSome = true ∧ s.nv.fmt.any (fun f =>
    f.1 = q.nsid) = true ∧ st = 0x82) ∨ (s.ns q.nsid = none ∧ q.nsid ≠ 32 ∧ st = 0x0B))) :=
  ⟨(let s := (hostOn 0 (sqe 21 1 196608 [1, 0, 0, 0, 0, 0])).setFlag advA ADV_STATUS_MAINT true; s.setNv { s.nv with label := { s.nv.label with nss := [⟨1, 0, 512, false⟩] } }), adSq, ioCq, sqe 21 1 196608 [1, 0, 0, 0, 0, 0], 0x11A, by decide +kernel⟩
theorem wit_RecordStoreKeepsNamespacesFirmwareAndTasks_13 : ∃ (s : State) (port : Fin 4) (id : Nat) (d : SsdCmd) (k :
    NvCmd) (x : NvSq) (c : NvCq) (L : NvLabel), s.live = true ∧ s.ssdCmd port id = some d ∧ d.use = .label true L ∧ k ∈
    s.nv.cmds ∧ k.need = [id] ∧ k.stage = .label ∧ k.status = none ∧ k.silent = false ∧ ((∀ y ∈ s.nv.cmds, y ≠ k → id ∉
    y.need ∧ y.n ≠ k.n)) ∧ s.nvCalm ∧ s.sq k.sq = some x ∧ s.cq x.cq = some c ∧ c.held = [] ∧ c.full = false :=
  ⟨(let s := hostOn 0 []; s.setNv { s.nv with ids := 1, seq := 1, ssds := [⟨0, 0, 1, 2048, 256, true, .label true ⟨[7], 2, [], none⟩, false⟩], cmds := [{ n := 0, sq := 0, cid := 9, opc := 13, nlb := 31, stage := .label, need := [0] }] }), 0, 0, ⟨0, 0, 1, 2048, 256, true, .label true ⟨[7], 2, [], none⟩, false⟩, { n := 0, sq := 0, cid := 9, opc := 13, nlb := 31, stage := .label, need := [0] }, adSq, ioCq, ⟨[7], 2, [], none⟩, by decide +kernel⟩
theorem wit_RecordStoreKeepsNamespacesFirmwareAndTasks_14 : ∃ (s : State) (x : NvSq) (c : NvCq) (q : Sqe) (n : Nat)
    (off : Nat), s.live = true ∧ s.offers 0 x c q ∧ q.opc = 0x11 ∧ n = 4 * (q.dw 10 + 1) ∧ off = 4 * q.dw 11 ∧ ((off = 0 ∨
    off = s.nv.staged)) ∧ off + n ≤ 0x10000000 ∧ s.answersAt (s.stageAt + off) (s.prpRead (s.prps q n)).length :=
  ⟨(let s := (hostOn 0 (sqe 17 0 196608 [1, 1, 0, 0, 0, 0])).setHostBytes 0x30000 [1, 2, 3, 4, 5, 6, 7, 8]; s.setNv { s.nv with staged := 4 }), adSq, ioCq, sqe 17 0 196608 [1, 1, 0, 0, 0, 0], 8, 4, by decide +kernel⟩
theorem wit_RecordStoreKeepsNamespacesFirmwareAndTasks_15 : ∃ (s : State) (x : NvSq) (c : NvCq) (q : Sqe) (n : Nat)
    (off : Nat), s.live = true ∧ s.offers 0 x c q ∧ q.opc = 0x11 ∧ n = 4 * (q.dw 10 + 1) ∧ off = 4 * q.dw 11 ∧ (((off ≠ 0
    ∧ off ≠ s.nv.staged) ∨ 0x10000000 < off + n)) :=
  ⟨(hostOn 0 (sqe 17 0 196608 [1, 1, 0, 0, 0, 0])), adSq, ioCq, sqe 17 0 196608 [1, 1, 0, 0, 0, 0], 8, 4, by decide +kernel⟩
theorem wit_RecordStoreKeepsNamespacesFirmwareAndTasks_16 : ∃ (s : State) (x : NvSq) (c : NvCq) (q : Sqe) (b : Bool),
    s.live = true ∧ s.offers 0 x c q ∧ s.nv.slotJob = none ∧ q.opc = 0x10 ∧ bits (q.dw 10) 5 3 = 0 ∧ s.flag advA
    ADV_STATUS_HOSTLOAD = false ∧ ((s.maint = false ∨ 2 ≤ s.phase)) ∧ ((bits (q.dw 10) 2 0 = (if b then 2 else 1) ∨ (bits
    (q.dw 10) 2 0 = 0 ∧ b = !s.runSlot))) ∧ s.runSlot ≠ b ∧ s.alm.shut = false ∧ s.answersAt s.stageAt s.nv.staged ∧
    s.hitsPartition b (fieldAt (s.memBytes s.stageAt s.nv.staged) 8 4) = false ∧ (s.judgeSlot b (s.memBytes s.stageAt
    s.nv.staged)).valid = true :=
  ⟨(let s := ((hostOn 0 (sqe 16 0 196608 [2, 0, 0, 0, 0, 0])).setFld advA ADV_STATUS_PHASE 7).setMemBytes 0 endImage; (s.setNv { s.nv with staged := 80 }).withAdv { s.adv with flashCap := 160, slotA := { ok := true, generation := 0xFFFFFFFF } }), adSq, ioCq, sqe 16 0 196608 [2, 0, 0, 0, 0, 0], true, by decide +kernel⟩
theorem wit_RecordStoreKeepsNamespacesFirmwareAndTasks_17 : ∃ (s : State) (x : NvSq) (c : NvCq) (q : Sqe) (b : Bool)
    (st : Nat), s.live = true ∧ s.offers 0 x c q ∧ s.nv.slotJob = none ∧ q.opc = 0x10 ∧ bits (q.dw 10) 5 3 = 0 ∧ s.flag
    advA ADV_STATUS_HOSTLOAD = false ∧ ((s.maint = false ∨ 2 ≤ s.phase)) ∧ (((((bits (q.dw 10) 2 0 = (if s.runSlot then 2
    else 1)) ∨ 2 < bits (q.dw 10) 2 0) ∧ st = 0x106) ∨ (((bits (q.dw 10) 2 0 = (if b then 2 else 1) ∨ (bits (q.dw 10) 2 0
    = 0 ∧ b = !s.runSlot)) ∧ s.runSlot ≠ b) ∧ ((s.alm.shut = true ∧ st = 0x781) ∨ (s.alm.shut = false ∧ s.hitsPartition b
    (fieldAt (s.memBytes s.stageAt s.nv.staged) 8 4) = true ∧ st = 0x114) ∨ (s.alm.shut = false ∧ s.hitsPartition b
    (fieldAt (s.memBytes s.stageAt s.nv.staged) 8 4) = false ∧ (s.judgeSlot b (s.memBytes s.stageAt s.nv.staged)).valid =
    false ∧ st = 0x107))))) :=
  ⟨((hostOn 0 (sqe 16 0 196608 [1, 0, 0, 0, 0, 0])).setFld advA ADV_STATUS_PHASE 7), adSq, ioCq, sqe 16 0 196608 [1, 0, 0, 0, 0, 0], true, 0x106, by decide +kernel⟩
theorem wit_RecordStoreKeepsNamespacesFirmwareAndTasks_18 : ∃ (s : State) (x : NvSq) (c : NvCq) (q : Sqe) (b : Bool),
    s.live = true ∧ s.offers 0 x c q ∧ s.nv.slotJob = none ∧ q.opc = 0x10 ∧ bits (q.dw 10) 5 3 = 1 ∧ s.flag advA
    ADV_STATUS_HOSTLOAD = false ∧ ((s.maint = false ∨ 2 ≤ s.phase)) ∧ ((bits (q.dw 10) 2 0 = (if b then 2 else 1) ∨ (bits
    (q.dw 10) 2 0 = 0 ∧ b = !s.runSlot))) ∧ s.runSlot ≠ b ∧ s.alm.shut = false ∧ s.answersAt s.stageAt s.nv.staged ∧
    s.hitsPartition b (fieldAt (s.memBytes s.stageAt s.nv.staged) 8 4) = false ∧ (s.judgeSlot b (s.memBytes s.stageAt
    s.nv.staged)).valid = true :=
  ⟨(let s := ((hostOn 0 (sqe 16 0 196608 [10, 0, 0, 0, 0, 0])).setFld advA ADV_STATUS_PHASE 7).setMemBytes 0 endImage; (s.setNv { s.nv with staged := 80 }).withAdv { s.adv with flashCap := 160, slotA := { ok := true, generation := 0xFFFFFFFF } }), adSq, ioCq, sqe 16 0 196608 [10, 0, 0, 0, 0, 0], true, by decide +kernel⟩
theorem wit_RecordStoreKeepsNamespacesFirmwareAndTasks_19 : ∃ (s : State) (x : NvSq) (c : NvCq) (q : Sqe) (b : Bool)
    (st : Nat), s.live = true ∧ s.offers 0 x c q ∧ s.nv.slotJob = none ∧ q.opc = 0x10 ∧ bits (q.dw 10) 5 3 = 1 ∧ s.flag
    advA ADV_STATUS_HOSTLOAD = false ∧ ((s.maint = false ∨ 2 ≤ s.phase)) ∧ (((((bits (q.dw 10) 2 0 = (if s.runSlot then 2
    else 1)) ∨ 2 < bits (q.dw 10) 2 0) ∧ st = 0x106) ∨ (((bits (q.dw 10) 2 0 = (if b then 2 else 1) ∨ (bits (q.dw 10) 2 0
    = 0 ∧ b = !s.runSlot)) ∧ s.runSlot ≠ b) ∧ ((s.alm.shut = true ∧ st = 0x781) ∨ (s.alm.shut = false ∧ s.hitsPartition b
    (fieldAt (s.memBytes s.stageAt s.nv.staged) 8 4) = true ∧ st = 0x114) ∨ (s.alm.shut = false ∧ s.hitsPartition b
    (fieldAt (s.memBytes s.stageAt s.nv.staged) 8 4) = false ∧ (s.judgeSlot b (s.memBytes s.stageAt s.nv.staged)).valid =
    false ∧ st = 0x107))))) :=
  ⟨((hostOn 0 (sqe 16 0 196608 [9, 0, 0, 0, 0, 0])).setFld advA ADV_STATUS_PHASE 7), adSq, ioCq, sqe 16 0 196608 [9, 0, 0, 0, 0, 0], true, 0x106, by decide +kernel⟩
theorem wit_RecordStoreKeepsNamespacesFirmwareAndTasks_20 : ∃ (s : State) (x : NvSq) (c : NvCq) (q : Sqe) (image :
    List Byte) (b : Bool), s.live = true ∧ s.offers 0 x c q ∧ s.nv.slotJob = none ∧ q.opc = 0x10 ∧ bits (q.dw 10) 5 3 = 2
    ∧ s.flag advA ADV_STATUS_HOSTLOAD = false ∧ ((s.maint = false ∨ 2 ≤ s.phase)) ∧ ((bits (q.dw 10) 2 0 = (if b then 2
    else 1) ∨ (bits (q.dw 10) 2 0 = 0 ∧ b = !s.runSlot))) ∧ s.runSlot ≠ b ∧ s.alm.shut = false ∧ s.hitsPartition b
    (fieldAt image 8 4) = false ∧ (s.judgeSlot b image).valid = true :=
  ⟨(let s := ((hostOn 0 (sqe 16 0 196608 [18, 0, 0, 0, 0, 0])).setFld advA ADV_STATUS_PHASE 7).setMemBytes 0 endImage; (s.setNv { s.nv with staged := 80 }).withAdv { s.adv with flashCap := 160, slotA := { ok := true, generation := 0xFFFFFFFF } }), adSq, ioCq, sqe 16 0 196608 [18, 0, 0, 0, 0, 0], endImage, true, by decide +kernel⟩
theorem wit_RecordStoreKeepsNamespacesFirmwareAndTasks_21 : ∃ (s : State) (x : NvSq) (c : NvCq) (q : Sqe) (image :
    List Byte) (b : Bool) (st : Nat), s.live = true ∧ s.offers 0 x c q ∧ s.nv.slotJob = none ∧ q.opc = 0x10 ∧ bits (q.dw
    10) 5 3 = 2 ∧ s.flag advA ADV_STATUS_HOSTLOAD = false ∧ ((s.maint = false ∨ 2 ≤ s.phase)) ∧ (((((bits (q.dw 10) 2 0 =
    (if s.runSlot then 2 else 1)) ∨ 2 < bits (q.dw 10) 2 0) ∧ st = 0x106) ∨ (((bits (q.dw 10) 2 0 = (if b then 2 else 1) ∨
    (bits (q.dw 10) 2 0 = 0 ∧ b = !s.runSlot)) ∧ s.runSlot ≠ b) ∧ ((s.alm.shut = true ∧ st = 0x781) ∨ (s.alm.shut = false
    ∧ s.hitsPartition b (fieldAt image 8 4) = true ∧ st = 0x114) ∨ (s.alm.shut = false ∧ s.hitsPartition b (fieldAt image
    8 4) = false ∧ (s.judgeSlot b image).valid = false ∧ st = 0x107))))) :=
  ⟨((hostOn 0 (sqe 16 0 196608 [17, 0, 0, 0, 0, 0])).setFld advA ADV_STATUS_PHASE 7), adSq, ioCq, sqe 16 0 196608 [17, 0, 0, 0, 0, 0], [], true, 0x106, by decide +kernel⟩
theorem wit_RecordStoreKeepsNamespacesFirmwareAndTasks_22 : ∃ (s : State) (b : Bool) (h : SlotHdr) (k : NvCmd) (x :
    NvSq) (c : NvCq), s.live = true ∧ s.nv.slotJob = some (b, h) ∧ s.nv.cmds.find? (fun y => y.stage = .slot) = some k ∧
    k.silent = false ∧ s.nvCalm ∧ s.sq k.sq = some x ∧ s.cq x.cq = some c ∧ c.held = [] ∧ c.full = false :=
  ⟨(let s := hostOn 0 []; s.setNv { s.nv with seq := 1, slotJob := some (true, { ok := true, generation := 0xFFFFFFFF }), cmds := [{ n := 0, sq := 0, cid := 9, opc := 16, stage := .slot }] }), true, { ok := true, generation := 0xFFFFFFFF }, { n := 0, sq := 0, cid := 9, opc := 16, stage := .slot }, adSq, ioCq, by decide +kernel⟩
theorem wit_RecordStoreKeepsNamespacesFirmwareAndTasks_23 : ∃ (s : State), s.live = true ∧ s.nv.slotJob = none :=
  ⟨storeOn, by decide +kernel⟩
theorem wit_RecordStoreKeepsNamespacesFirmwareAndTasks_24 : ∃ (s : State) (x : NvSq) (c : NvCq) (q : Sqe) (y : NvNs)
    (ses : Nat) (p : Fin 4) (l : SsdCmd) (L : NvLabel), s.live = true ∧ L =
    { s.nv.label with gen := s.nv.label.gen + 1, progress := some (1, q.nsid + 64 * ses, []) } ∧ s.offers 0 x c q ∧ q.opc
    = 0x80 ∧ ((q.nsid ≠ 0xFFFFFFFF ∨ s.maint = false)) ∧ bits (q.dw 10) 3 0 = 0 ∧ ses = bits (q.dw 10) 11 9 ∧ ses ≤ 1 ∧
    q.nsid ≠ 32 ∧ q.nsid ≠ 0xFFFFFFFF ∧ s.nv.san = none ∧ s.storeUp = true ∧ s.ns q.nsid = some y ∧ s.nv.fmt = none ∧
    s.alm.shut = false ∧ ((∀ b ∈ s.nv.cache, b.nsid = q.nsid → b.flying = none)) ∧ s.writesOf (fun k => k = q.nsid) = [] ∧
    s.selected = [p.val] ∧ s.portAt 0 = p.val ∧ 0 < y.nsze ∧ l = ⟨s.nv.ids + 1, p, if ses = 0 then 9 else 8, 4096 +
    y.start * 256, (y.nsze + 255) / 256 * 256, decide (ses = 1), .format, false⟩ :=
  ⟨(((hostOn 0 (sqe 128 1 196608 [512, 0, 0, 0, 0, 0])).setTaskWord 15 0 0x80000001).setTaskWord 3 0 0x80000002), adSq, ioCq, sqe 128 1 196608 [512, 0, 0, 0, 0, 0], ⟨1, 0, 512, true⟩, 1, 0, ⟨1, 0, 8, 4096, 512, true, .format, false⟩, { storeOn.nv.label with gen := 2, progress := some (1, 65, []) }, by decide +kernel⟩
theorem wit_RecordStoreKeepsNamespacesFirmwareAndTasks_25 : ∃ (s : State) (x : NvSq) (c : NvCq) (q : Sqe) (y : NvNs)
    (ses : Nat) (w : List Nat) (L : NvLabel), s.live = true ∧ L =
    { s.nv.label with gen := s.nv.label.gen + 1, progress := some (1, q.nsid + 64 * ses, []) } ∧ s.offers 0 x c q ∧ q.opc
    = 0x80 ∧ bits (q.dw 10) 3 0 = 0 ∧ ses = bits (q.dw 10) 11 9 ∧ ses ≤ 1 ∧ q.nsid ≠ 32 ∧ q.nsid ≠ 0xFFFFFFFF ∧ s.nv.san =
    none ∧ s.storeUp = true ∧ s.ns q.nsid = some y ∧ s.nv.fmt = none ∧ s.alm.shut = false ∧ s.writesOf (fun k => k =
    q.nsid) = w ∧ w ≠ [] :=
  ⟨(let s := hostOn 0 (sqe 128 1 196608 [512, 0, 0, 0, 0, 0]); s.setNv { s.nv with ids := 1, ssds := [⟨0, 0, 1, 4351, 1, false, .cache 1 255, false⟩] }), adSq, ioCq, sqe 128 1 196608 [512, 0, 0, 0, 0, 0], ⟨1, 0, 512, true⟩, 1, [0], { storeOn.nv.label with gen := 2, progress := some (1, 65, []) }, by decide +kernel⟩
theorem wit_RecordStoreKeepsNamespacesFirmwareAndTasks_26 : ∃ (s : State) (x : NvSq) (c : NvCq) (q : Sqe) (st : Nat),
    s.live = true ∧ s.offers 0 x c q ∧ q.opc = 0x80 ∧ ((q.nsid ≠ 0xFFFFFFFF ∨ s.maint = false)) ∧ ((((bits (q.dw 10) 3 0 ≠
    0 ∨ 1 < bits (q.dw 10) 11 9 ∨ q.nsid = 32 ∨ q.nsid = 0xFFFFFFFF) ∧ st = 2) ∨ (bits (q.dw 10) 3 0 = 0 ∧ bits (q.dw 10)
    11 9 ≤ 1 ∧ q.nsid ≠ 32 ∧ q.nsid ≠ 0xFFFFFFFF ∧ ((s.nv.san.isSome = true ∧ st = 0x1D) ∨ (s.nv.san = none ∧ s.storeUp =
    false ∧ st = 0x783) ∨ (s.nv.san = none ∧ s.storeUp = true ∧ s.ns q.nsid = none ∧ st = 0x0B) ∨ (s.nv.san = none ∧
    s.storeUp = true ∧ (s.ns q.nsid).isSome = true ∧ s.nv.fmt.isSome = true ∧ st = 0x82) ∨ (s.nv.san = none ∧ s.storeUp =
    true ∧ (s.ns q.nsid).isSome = true ∧ s.nv.fmt = none ∧ s.alm.shut = true ∧ st = 0x781))))) :=
  ⟨(hostOn 0 (sqe 128 1 196608 [1024, 0, 0, 0, 0, 0])), adSq, ioCq, sqe 128 1 196608 [1024, 0, 0, 0, 0, 0], 2, by decide +kernel⟩
theorem wit_RecordStoreKeepsNamespacesFirmwareAndTasks_27 : ∃ (s : State) (x : NvSq) (c : NvCq) (q : Sqe), s.live =
    true ∧ s.offers 0 x c q ∧ q.opc = 0x80 ∧ q.nsid = 0xFFFFFFFF ∧ s.maint = true ∧ bits (q.dw 10) 3 0 = 0 ∧ bits (q.dw
    10) 11 9 ≤ 1 ∧ s.nv.san = none ∧ s.flag nvtA NVT_CTRL_EN = true ∧ s.dOk = true ∧ s.ssdsReady = true ∧ s.alm.shut =
    false ∧ s.nvCalm :=
  ⟨((hostOn 0 (sqe 128 4294967295 196608 [0, 0, 0, 0, 0, 0])).setFlag advA ADV_STATUS_MAINT true), adSq, ioCq, sqe 128 4294967295 196608 [0, 0, 0, 0, 0, 0], by decide +kernel⟩
theorem wit_RecordStoreKeepsNamespacesFirmwareAndTasks_28 : ∃ (s : State) (x : NvSq) (c : NvCq) (q : Sqe) (st : Nat),
    s.live = true ∧ s.offers 0 x c q ∧ q.opc = 0x80 ∧ q.nsid = 0xFFFFFFFF ∧ s.maint = true ∧ ((((bits (q.dw 10) 3 0 ≠ 0 ∨
    1 < bits (q.dw 10) 11 9) ∧ st = 2) ∨ (bits (q.dw 10) 3 0 = 0 ∧ bits (q.dw 10) 11 9 ≤ 1 ∧ ((s.nv.san.isSome = true ∧ st
    = 0x1D) ∨ (s.nv.san = none ∧ (s.flag nvtA NVT_CTRL_EN = false ∨ s.dOk = false ∨ s.ssdsReady = false) ∧ st = 0x783) ∨
    (s.nv.san = none ∧ s.flag nvtA NVT_CTRL_EN = true ∧ s.dOk = true ∧ s.ssdsReady = true ∧ s.alm.shut = true ∧ st =
    0x781))))) :=
  ⟨(((hostOn 0 (sqe 128 4294967295 196608 [0, 0, 0, 0, 0, 0])).setFlag advA ADV_STATUS_MAINT true).setFld nvtA NVT_CTRL_SSD_MASK 7), adSq, ioCq, sqe 128 4294967295 196608 [0, 0, 0, 0, 0, 0], 0x783, by decide +kernel⟩
theorem wit_RecordStoreKeepsNamespacesFirmwareAndTasks_29 : ∃ (s : State) (k : NvCmd) (x : NvSq) (c : NvCq) (L :
    NvLabel), s.live = true ∧ L = { s.nv.label with gen := s.nv.label.gen + 1, progress := none } ∧ s.nv.cmds.find? (fun y
    => y.stage = .format) = some k ∧ k.need = [] ∧ k.status = none ∧ k.silent = false ∧ s.nv.san = none ∧ s.nvCalm ∧ s.sq
    k.sq = some x ∧ s.cq x.cq = some c ∧ c.held = [] ∧ c.full = false :=
  ⟨(let s := hostOn 0 []; s.setNv { s.nv with seq := 1, fmt := some (1, 0), cmds := [{ n := 0, sq := 0, cid := 9, opc := 0x80, nsid := 1, stage := .format }] }), { n := 0, sq := 0, cid := 9, opc := 0x80, nsid := 1, stage := .format }, adSq, ioCq, { storeOn.nv.label with gen := 2 }, by decide +kernel⟩
theorem wit_RecordStoreKeepsNamespacesFirmwareAndTasks_30 : ∃ (s : State), s.live = true ∧ ((∀ k ∈ s.nv.cmds, k.stage
    = .format → k.need ≠ [])) :=
  ⟨(storeOn.setNv { storeOn.nv with cmds := [{ n := 0, sq := 0, cid := 9, opc := 0x80, nsid := 1, stage := .format, need := [3] }] }), by decide +kernel⟩
theorem wit_RecordStoreKeepsNamespacesFirmwareAndTasks_31 : ∃ (s : State) (x : NvSq) (c : NvCq) (q : Sqe) (l : List
    SsdCmd) (L : NvLabel), s.live = true ∧ L = { s.nv.label with gen := s.nv.label.gen + 1, progress := some (2, 2, []) }
    ∧ s.offers 0 x c q ∧ q.opc = 0x84 ∧ bits (q.dw 10) 2 0 = 2 ∧ s.nv.san = none ∧ s.storeUp = true ∧ s.alm.shut = false ∧
    ((∀ k ∈ s.nv.cmds, k.stage ≠ .room)) ∧ s.writesOf (fun _ => true) = [] ∧ l = (List.range s.selected.length).map (fun i
    => ⟨s.nv.ids + s.selected.length + i, s.portAt i, 0x84, 2, 0, false, .sanitise, false⟩) :=
  ⟨((hostOn 0 (sqe 132 0 196608 [2, 0, 0, 0, 0, 0])).setTaskWord 15 0 0x80000001), adSq, ioCq, sqe 132 0 196608 [2, 0, 0, 0, 0, 0], [⟨1, 0, 0x84, 2, 0, false, .sanitise, false⟩], { storeOn.nv.label with gen := 2, progress := some (2, 2, []) }, by decide +kernel⟩
theorem wit_RecordStoreKeepsNamespacesFirmwareAndTasks_32 : ∃ (s : State) (x : NvSq) (c : NvCq) (q : Sqe) (st : Nat),
    s.live = true ∧ s.offers 0 x c q ∧ q.opc = 0x84 ∧ bits (q.dw 10) 2 0 = 2 ∧ (((s.nv.san.isSome = true ∧ st = 0x1D) ∨
    (s.nv.san = none ∧ s.storeUp = false ∧ st = 0x783) ∨ (s.nv.san = none ∧ s.storeUp = true ∧ s.alm.shut = true ∧ st =
    0x781))) :=
  ⟨((hostOn 0 (sqe 132 0 196608 [2, 0, 0, 0, 0, 0])).setFld (nvhA 0) NVH_STATUS_STATE 3), adSq, ioCq, sqe 132 0 196608 [2, 0, 0, 0, 0, 0], 0x783, by decide +kernel⟩
theorem wit_RecordStoreKeepsNamespacesFirmwareAndTasks_33 : ∃ (s : State) (x : NvSq) (c : NvCq) (q : Sqe) (l : List
    SsdCmd) (L : NvLabel), s.live = true ∧ L = { s.nv.label with gen := s.nv.label.gen + 1, progress := some (2, 3, []) }
    ∧ s.offers 0 x c q ∧ q.opc = 0x84 ∧ bits (q.dw 10) 2 0 = 3 ∧ s.nv.san = none ∧ s.storeUp = true ∧ s.alm.shut = false ∧
    ((∀ k ∈ s.nv.cmds, k.stage ≠ .room)) ∧ s.writesOf (fun _ => true) = [] ∧ l = (List.range s.selected.length).map (fun i
    => ⟨s.nv.ids + s.selected.length + i, s.portAt i, 0x84, 3, 0, false, .sanitise, false⟩) :=
  ⟨((hostOn 0 (sqe 132 0 196608 [3, 0, 0, 0, 0, 0])).setTaskWord 15 0 0x80000001), adSq, ioCq, sqe 132 0 196608 [3, 0, 0, 0, 0, 0], [⟨1, 0, 0x84, 3, 0, false, .sanitise, false⟩], { storeOn.nv.label with gen := 2, progress := some (2, 3, []) }, by decide +kernel⟩
theorem wit_RecordStoreKeepsNamespacesFirmwareAndTasks_34 : ∃ (s : State) (x : NvSq) (c : NvCq) (q : Sqe) (st : Nat),
    s.live = true ∧ s.offers 0 x c q ∧ q.opc = 0x84 ∧ bits (q.dw 10) 2 0 = 3 ∧ (((s.nv.san.isSome = true ∧ st = 0x1D) ∨
    (s.nv.san = none ∧ s.storeUp = false ∧ st = 0x783) ∨ (s.nv.san = none ∧ s.storeUp = true ∧ s.alm.shut = true ∧ st =
    0x781))) :=
  ⟨((hostOn 0 (sqe 132 0 196608 [3, 0, 0, 0, 0, 0])).setFld (nvhA 0) NVH_STATUS_STATE 3), adSq, ioCq, sqe 132 0 196608 [3, 0, 0, 0, 0, 0], 0x783, by decide +kernel⟩
theorem wit_RecordStoreKeepsNamespacesFirmwareAndTasks_35 : ∃ (s : State) (a : Nat) (lo : Nat) (n : Nat) (done : List
    Nat) (L : NvLabel), s.live = true ∧ L = { s.nv.label with gen := s.nv.label.gen + 1, progress := none } ∧ s.nv.san =
    some (a, done) ∧ s.nv.fmt = none ∧ ((∀ i ∈ List.range s.selected.length, i ∈ done)) ∧ lo = s.fld nvtA
    NVT_REPLAY_BASE_ADDR * 256 ∧ n = 4096 * s.fld nvtA NVT_REPLAY_LBAS_LBAS :=
  ⟨(let s := (storeOn.setFld nvtA NVT_REPLAY_LBAS_LBAS 1).setMemBytes 0xFFF [1, 2]; s.setNv { s.nv with san := some (2, [0]) }), 2, 0, 4096, [0], { storeOn.nv.label with gen := 2 }, by decide +kernel⟩
theorem wit_RecordStoreKeepsNamespacesFirmwareAndTasks_36 : ∃ (s : State), s.live = true ∧ ((s.nv.san.any (fun y =>
    !(List.range s.selected.length).all (fun i => y.2.contains i)) = true ∨ s.nv.san = none)) :=
  ⟨(storeOn.setNv { storeOn.nv with san := some (3, []) }), by decide +kernel⟩
theorem wit_RecordStoreKeepsNamespacesFirmwareAndTasks_37 : ∃ (s : State) (port : Fin 4) (id : Nat) (d : SsdCmd),
    s.live = true ∧ s.ssdCmd port id = some d ∧ d.aborted = false :=
  ⟨(storeOn.setNv { storeOn.nv with ids := 1, ssds := [⟨0, 3, 0, 0, 0, false, .other, false⟩] }), 3, 0, ⟨0, 3, 0, 0, 0, false, .other, false⟩, by decide +kernel⟩
theorem wit_RecordStoreKeepsNamespacesFirmwareAndTasks_38 : ∃ (s : State) (port : Fin 4) (d : SsdCmd), s.live = true ∧
    s.nv.ssds.filter (fun y => y.port = port.val) = [d] ∧ d.aborted = true ∧ d.use = .other ∧ ((∀ y ∈ s.nv.ssds, y ≠ d →
    y.id ≠ d.id)) ∧ ((∀ k ∈ s.nv.cmds, d.id ∉ k.need ∧ k.stage ≠ .room)) ∧ s.nvCalm ∧ ((∀ b ∈ s.nv.cache, (s.lbaOf
    b.key).1 = port.val → b.dirty = false)) ∧ ((∀ k ∈ (s.nvPort port).resets, k + usTicks 60000000 ≤ s.tick)) :=
  ⟨(storeOn.setNv { storeOn.nv with ids := 1, ssds := [⟨0, 3, 0, 0, 0, false, .other, true⟩] }), 3, ⟨0, 3, 0, 0, 0, false, .other, true⟩, by decide +kernel⟩
theorem wit_RecordStoreKeepsNamespacesFirmwareAndTasks_39 : ∃ (s : State) (port : Fin 4) (d : SsdCmd) (k : Nat),
    s.live = true ∧ s.nv.ssds.filter (fun y => y.port = port.val) = [d] ∧ d.aborted = true ∧ d.use = .other ∧ ((∀ y ∈
    s.nv.ssds, y ≠ d → y.id ≠ d.id)) ∧ ((∀ k ∈ s.nv.cmds, d.id ∉ k.need ∧ k.stage ≠ .room)) ∧ s.nvCalm ∧ ((∀ b ∈
    s.nv.cache, (s.lbaOf b.key).1 = port.val → b.dirty = false)) ∧ k ∈ (s.nvPort port).resets ∧ s.tick < k + usTicks
    60000000 :=
  ⟨(let s := storeOn.setNvPort 0 { storeOn.nvPort 0 with resets := [0] }; ({ s with tick := 23999999999 } : State).setNv { s.nv with ids := 1, ssds := [⟨0, 0, 0, 0, 0, false, .other, true⟩] }), 0, ⟨0, 0, 0, 0, 0, false, .other, true⟩, 0, by decide +kernel⟩
theorem wit_RecordStoreKeepsNamespacesFirmwareAndTasks_40 : ∃ (s : State) (port : Fin 4), s.live = true ∧ ((∀ y ∈
    s.nv.ssds, y.port = port.val → y.aborted = false)) :=
  ⟨storeOn, 3, by decide +kernel⟩
theorem wit_RecordStoreKeepsNamespacesFirmwareAndTasks_41 : ∃ (s : State) (port : Fin 4), s.live = true ∧ s.ssdState
    port = 2 ∧ ((∀ y ∈ s.nv.ssds, y.port ≠ port.val)) ∧ ((∀ k ∈ s.nv.cmds, k.stage ≠ .room)) ∧ s.nvCalm ∧ ((∀ b ∈
    s.nv.cache, (s.lbaOf b.key).1 = port.val → b.dirty = false)) :=
  ⟨storeOn, 0, by decide +kernel⟩
theorem wit_RecordStoreKeepsNamespacesFirmwareAndTasks_42 : ∃ (s : State) (port : Fin 4), s.live = true ∧ s.ssdState
    port ≠ 2 :=
  ⟨storeOn, 3, by decide +kernel⟩
theorem wit_RecordStoreKeepsNamespacesFirmwareAndTasks_43 : ∃ (s : State) (port : Fin 4), s.live = true ∧ s.ssdState
    port = 2 ∧ ((∀ y ∈ s.nv.ssds, y.port ≠ port.val)) ∧ ((∀ k ∈ s.nv.cmds, k.stage ≠ .room)) ∧ s.nvCalm ∧ ((∀ b ∈
    s.nv.cache, (s.lbaOf b.key).1 = port.val → b.dirty = false)) :=
  ⟨storeOn, 0, by decide +kernel⟩
theorem wit_RecordStoreKeepsNamespacesFirmwareAndTasks_44 : ∃ (s : State) (port : Fin 4), s.live = true ∧ s.ssdState
    port ≠ 2 :=
  ⟨storeOn, 3, by decide +kernel⟩
theorem wit_RecordStoreKeepsNamespacesFirmwareAndTasks_45 : ∃ (s : State) (b : CBlk), s.live = true ∧ s.ssdState 0 = 2
    ∧ s.nv.ssds = [] ∧ s.nv.cmds = [] ∧ s.nv.cache = [b] ∧ b.dirty = true ∧ b.flying = none ∧ (s.lbaOf b.key).1 = 0 :=
  ⟨(storeOn.setNv { storeOn.nv with cache := [⟨511, 1, 511, [1], true, none⟩] }), ⟨511, 1, 511, [1], true, none⟩, by decide +kernel⟩
theorem wit_RecordStoreKeepsNamespacesFirmwareAndTasks_46 : ∃ (s : State), s.live = true :=
  ⟨storeOn.setFld (nvhA 3) NVH_ERR_CAUSE 5, by decide +kernel⟩
theorem wit_RecordStoreKeepsNamespacesFirmwareAndTasks_47 : ∃ (s : State) (v : Word), s.live = true ∧ v ≠ 0 :=
  ⟨storeOn.setFld (nvhA 3) NVH_ERR_CAUSE 5, 1, by decide +kernel⟩
theorem wit_RecordStoreKeepsNamespacesFirmwareAndTasks_48 : ∃ (s : State) (port : Fin 4) (i : SsdInfo), s.live = true
    ∧ s.flag (nvhA port) NVH_CTRL_EN = true ∧ s.ssdState port = 1 ∧ i.speed ≤ max 1 (min 5 (s.fld (nvhA port)
    NVH_CTRL_MAX_SPEED)) ∧ (s.nvPort port).down = false ∧ ((i.ok = false ∨ port.val ∉ s.selected)) ∧ ((port.val ∈
    s.selected ∨ s.storeUp = false)) :=
  ⟨(((storeOn.setFlag (nvhA 0) NVH_CTRL_EN true).setFld (nvhA 0) NVH_STATUS_STATE 1)), 0, ⟨9, 2 ^ 33 - 1, false, 4, 5, none, none⟩, by decide +kernel⟩
theorem wit_RecordStoreKeepsNamespacesFirmwareAndTasks_49 : ∃ (s : State) (port : Fin 4) (i : SsdInfo) (l : NvLabel),
    s.live = true ∧ s.flag (nvhA port) NVH_CTRL_EN = true ∧ s.ssdState port = 1 ∧ i.speed ≤ max 1 (min 5 (s.fld (nvhA
    port) NVH_CTRL_MAX_SPEED)) ∧ (s.nvPort port).down = false ∧ s.selected = [port.val] ∧ i.ok = true ∧ s.maint = false ∧
    s.flag nvtA NVT_CTRL_EN = true ∧ newerLabel i.label i.label2 = some l ∧ l.order = [i.ident] ∧ l.progress = none ∧
    s.nv.san = none ∧ s.nv.fmt = none ∧ ((∀ y ∈ s.alm.flash.checkpoints, y.2 = 0)) :=
  ⟨(((storeOn.setFlag (nvhA 0) NVH_CTRL_EN true).setFld (nvhA 0) NVH_STATUS_STATE 1)), 0, ⟨9, 2 ^ 33 - 1, true, 4, 5, some ⟨[9], 4, [], none⟩, some ⟨[9], 5, [], none⟩⟩, ⟨[9], 5, [], none⟩, by decide +kernel⟩
theorem wit_RecordStoreKeepsNamespacesFirmwareAndTasks_50 : ∃ (s : State) (task : Fin 16) (v : Word), s.live = true ∧
    s.taskOn task = false ∧ s.mayRecord task v :=
  ⟨((storeOn.showStore.setTaskWord 15 5 511).setTaskWord 15 7 1), 15, 0x7FFFFFC1, by decide +kernel⟩
theorem wit_RecordStoreKeepsNamespacesFirmwareAndTasks_51 : ∃ (s : State) (task : Fin 16) (v : Word), s.live = true ∧
    s.taskOn task = false ∧ ¬ s.mayRecord task v :=
  ⟨((storeOn.showStore.setTaskWord 15 5 512).setTaskWord 15 7 1), 15, 1, by decide +kernel⟩
theorem wit_RecordStoreKeepsNamespacesFirmwareAndTasks_52 : ∃ (s : State) (task : Fin 16), s.live = true ∧ s.taskOn
    task = true :=
  ⟨(storeOn.setTaskWord 15 0 0x80000001), 15, by decide +kernel⟩
theorem wit_RecordStoreKeepsNamespacesFirmwareAndTasks_53 : ∃ (s : State) (task : Fin 16), s.live = true ∧ s.taskOn
    task = true ∧ s.taskBytes task = false :=
  ⟨(storeOn.setTaskWord 15 0 0xA0000001), 15, by decide +kernel⟩
theorem wit_RecordStoreKeepsNamespacesFirmwareAndTasks_54 : ∃ (s : State) (task : Fin 16), s.live = true ∧ s.taskOn
    task = false :=
  ⟨storeOn, 15, by decide +kernel⟩
theorem wit_RecordStoreKeepsNamespacesFirmwareAndTasks_55 : ∃ (s : State) (task : Fin 16) (n : Nat) (rd : Nat) (key :
    Nat) (slba : Nat) (b : List Byte), s.live = true ∧ s.taskOn task = true ∧ s.dramIdle = true ∧ (s.ringBytes task rd
    n).1 = some b ∧ s.taskBytes task = true ∧ (s.recTask task).busy = none ∧ s.storeUp = true ∧ rd < s.ringWr task ∧ n =
    min 4096 (s.ringWr task - rd) ∧ rd = s.ringRd task ∧ key = s.keyOf (s.taskNs task) slba ∧ slba = s.taskStart task +
    s.taskNat task 12 :=
  ⟨((((storeOn.setMemBytes 128 (toBytes 8 0x1000 ++ toBytes 4 8192)).setMemBytes 256 (toBytes 8 4099 ++ toBytes 8 4096)).setTaskWord 15 0 0xC0000001).setTaskWord 15 7 2).setTaskWord 15 12 1, 15, 3, 4096, 1, 1, List.replicate 3 0, by decide +kernel⟩
theorem wit_RecordStoreKeepsNamespacesFirmwareAndTasks_56 : ∃ (s : State) (task : Fin 16) (rd : Nat) (key : Nat) (slba
    : Nat) (b : List Byte), s.live = true ∧ s.taskOn task = true ∧ s.dramIdle = true ∧ (s.ringBytes task rd 4096).1 = some
    b ∧ s.taskBytes task = true ∧ (s.recTask task).busy = none ∧ s.storeUp = true ∧ s.isShed 1 task = false ∧ rd + 4096 ≤
    s.ringWr task ∧ s.taskNat task 12 < s.taskLen task ∧ rd = s.ringRd task ∧ key = s.keyOf (s.taskNs task) slba ∧ slba =
    s.taskStart task + s.taskNat task 12 :=
  ⟨((((storeOn.setMemBytes 128 (toBytes 8 0x1000 ++ toBytes 4 8192)).setMemBytes 256 (toBytes 8 8192 ++ toBytes 8 4096)).setTaskWord 15 0 0xC0000001).setTaskWord 15 7 2).setTaskWord 15 12 1, 15, 4096, 1, 1, (((((((storeOn.setMemBytes 128 (toBytes 8 0x1000 ++ toBytes 4 8192)).setMemBytes 256 (toBytes 8 8192 ++ toBytes 8 4096)).setTaskWord 15 0 0xC0000001).setTaskWord 15 7 2).setTaskWord 15 12 1).ringBytes 15 4096 4096).1.getD []), by decide +kernel, by decide +kernel, by decide +kernel, some_getD (by decide +kernel), by decide +kernel, by decide +kernel, by decide +kernel, by decide +kernel, by decide +kernel, by decide +kernel, by decide +kernel, by decide +kernel, by decide +kernel⟩
theorem wit_RecordStoreKeepsNamespacesFirmwareAndTasks_57 : ∃ (s : State) (task : Fin 16), s.live = true ∧ s.taskOn
    task = true ∧ s.taskBytes task = true ∧ (s.recTask task).busy = none ∧ s.storeUp = true ∧ s.isShed 1 task = false ∧
    s.ringRd task + 4096 ≤ s.ringWr task ∧ s.taskLen task ≤ s.taskNat task 12 :=
  ⟨(((((storeOn.setMemBytes 128 (toBytes 8 0x1000 ++ toBytes 4 8192)).setMemBytes 256 (toBytes 8 8192 ++ toBytes 8 4096)).setTaskWord 15 0 0xC0000001).setTaskWord 15 7 2).setTaskWord 15 12 1).setTaskWord 15 12 2, 15, by decide +kernel⟩
theorem wit_RecordStoreKeepsNamespacesFirmwareAndTasks_58 : ∃ (s : State) (task : Fin 16), s.live = true ∧ ((s.taskOn
    task = false ∨ s.taskBytes task = false ∨ (s.recTask task).busy.isSome = true ∨ s.ringWr task < s.ringRd task + 4096))
    :=
  ⟨((((storeOn.setMemBytes 128 (toBytes 8 0x1000 ++ toBytes 4 8192)).setMemBytes 256 (toBytes 8 8191 ++ toBytes 8 4096)).setTaskWord 15 0 0xC0000001).setTaskWord 15 7 2).setTaskWord 15 12 1, 15, by decide +kernel⟩
theorem wit_RecordStoreKeepsNamespacesFirmwareAndTasks_59 : ∃ (s : State) (port : Fin 4) (id : Nat) (rd : Nat) (d :
    SsdCmd) (task : Fin 16) (ns : Nat) (slba : Nat), s.live = true ∧ s.ssdCmd port id = some d ∧ d.use = .task task ns
    slba ∧ (s.recTask task).need = [id] ∧ (s.recTask task).busy = some rd ∧ (s.recTask task).upTo = none ∧ s.taskBytes
    task = true ∧ s.nvCalm ∧ ((∀ k ∈ s.nv.cmds, id ∉ k.need ∧ k.stage ≠ .room)) ∧ s.answersAt (s.taskSrc task + 264) 8 ∧
    s.taskNat task 12 + 1 < s.taskLen task ∧ s.taskNat task 12 + 1 < 2 ^ 32 :=
  ⟨(let s := ((((((storeOn.setMemBytes 128 (toBytes 8 0x1000 ++ toBytes 4 8192)).setMemBytes 256 (toBytes 8 8192 ++ toBytes 8 4096)).setTaskWord 15 0 0xC0000001).setTaskWord 15 7 2).setTaskWord 15 12 1).setTaskWord 15 12 0).setRecTask 15 { busy := some 4096, need := [0], bytes := 4096 }; s.setNv { s.nv with ids := 1, ssds := [⟨0, 0, 1, 4096, 1, true, .task 15 1 0, false⟩] }), 0, 0, 4096, ⟨0, 0, 1, 4096, 1, true, .task 15 1 0, false⟩, 15, 1, 0, by decide +kernel⟩
theorem wit_RecordStoreKeepsNamespacesFirmwareAndTasks_60 : ∃ (s : State) (task : Fin 16) (e : Nat) (a : Nat) (n :
    Nat) (slba : Nat) (key : Nat), s.live = true ∧ s.taskOn task = true ∧ s.taskBytes task = false ∧ (s.recTask task).busy
    = none ∧ s.storeUp = true ∧ s.taskHeads task ≠ [] ∧ (s.recTask task).expect = some e ∧ a = s.taskBuf task e ∧
    s.answersAt a 128 ∧ ((∀ o ∈ s.taskHeads task, headFrameOf (s.memBytes (a + o) 64) = e ∧ headErrOf (s.memBytes (a + o)
    64) = false)) ∧ s.isShed 1 task = false ∧ n = s.slotLbas task ∧ s.taskNat task 12 < s.taskLen task / n ∧ slba =
    s.taskStart task + s.taskNat task 12 * n ∧ s.answersAt a (s.taskNat task 3) ∧ key = s.keyOf (s.taskNs task) slba ∧ key
    % 256 + n ≤ 256 ∧ s.taskNat task 3 ≤ 4096 * n :=
  ⟨((((((storeOn.setTaskWord 15 0 0x80000001).setTaskWord 15 3 256).setTaskWord 15 4 0x10).setTaskWord 15 7 2).setTaskWord 15 12 1).setMemBytes 0 (toBytes 16 (0xFFFFFFFF * 2 ^ 84))).setRecTask 15 { expect := some 0xFFFFFFFF }, 15, 0xFFFFFFFF, 0, 1, 1, 1, by decide +kernel⟩
theorem wit_RecordStoreKeepsNamespacesFirmwareAndTasks_61 : ∃ (s : State) (task : Fin 16) (e : Nat) (a : Nat) (o :
    Nat) (f : Nat), s.live = true ∧ s.taskOn task = true ∧ s.taskBytes task = false ∧ (s.recTask task).busy = none ∧
    s.storeUp = true ∧ s.taskHeads task ≠ [] ∧ (s.recTask task).expect = some e ∧ a = s.taskBuf task e ∧ s.answersAt a 128
    ∧ s.taskHeads task = [o] ∧ headFrameOf (s.memBytes (a + o) 64) = f ∧ earlier32 e f = true :=
  ⟨((((((storeOn.setTaskWord 15 0 0x80000001).setTaskWord 15 3 256).setTaskWord 15 4 0x10).setTaskWord 15 7 2).setTaskWord 15 12 1).setMemBytes 0 (toBytes 16 (0 * 2 ^ 84))).setRecTask 15 { expect := some 0xFFFFFFFF }, 15, 0xFFFFFFFF, 0, 0, 0, by decide +kernel⟩
theorem wit_RecordStoreKeepsNamespacesFirmwareAndTasks_62 : ∃ (s : State) (task : Fin 16) (e : Nat) (a : Nat) (o :
    Nat), s.live = true ∧ s.taskOn task = true ∧ s.taskBytes task = false ∧ (s.recTask task).busy = none ∧ s.storeUp =
    true ∧ s.taskHeads task ≠ [] ∧ (s.recTask task).expect = some e ∧ a = s.taskBuf task e ∧ s.answersAt a 128 ∧
    s.taskHeads task = [o] ∧ headFrameOf (s.memBytes (a + o) 64) = e ∧ ((headErrOf (s.memBytes (a + o) 64) = true ∨
    s.isShed 1 task = true)) :=
  ⟨(((((((storeOn.setTaskWord 15 0 0x80000001).setTaskWord 15 3 256).setTaskWord 15 4 0x10).setTaskWord 15 7 2).setTaskWord 15 12 1).setMemBytes 0 (toBytes 16 (0xFFFFFFFF * 2 ^ 84))).setRecTask 15 { expect := some 0xFFFFFFFF }).setMemBytes 36 [1], 15, 0xFFFFFFFF, 0, 0, by decide +kernel⟩
theorem wit_RecordStoreKeepsNamespacesFirmwareAndTasks_63 : ∃ (s : State) (task : Fin 16) (e : Nat) (a : Nat) (o :
    Nat) (f : Nat), s.live = true ∧ s.taskOn task = true ∧ s.taskBytes task = false ∧ (s.recTask task).busy = none ∧
    s.storeUp = true ∧ s.taskHeads task ≠ [] ∧ (s.recTask task).expect = some e ∧ a = s.taskBuf task e ∧ s.answersAt a 128
    ∧ s.taskHeads task = [o] ∧ headFrameOf (s.memBytes (a + o) 64) = f ∧ f ≠ e ∧ earlier32 e f = false ∧ e < 2 ^ 32 :=
  ⟨((((((storeOn.setTaskWord 15 0 0x80000001).setTaskWord 15 3 256).setTaskWord 15 4 0x10).setTaskWord 15 7 2).setTaskWord 15 12 1).setMemBytes 0 (toBytes 16 (0xFFFFFFFE * 2 ^ 84))).setRecTask 15 { expect := some 0xFFFFFFFF }, 15, 0xFFFFFFFF, 0, 0, 0xFFFFFFFE, by decide +kernel⟩
theorem wit_RecordStoreKeepsNamespacesFirmwareAndTasks_64 : ∃ (s : State) (task : Fin 16) (e : Nat), s.live = true ∧
    (s.recTask task).busy = some e ∧ (s.recTask task).need = [] ∧ s.taskBytes task = false ∧ s.answersAt (s.taskBuf task
    e) 128 ∧ ((∀ o ∈ s.taskHeads task, headFrameOf (s.memBytes (s.taskBuf task e + o) 64) = e)) :=
  ⟨((((((storeOn.setTaskWord 15 0 0x80000001).setTaskWord 15 3 256).setTaskWord 15 4 0x10).setTaskWord 15 7 2).setTaskWord 15 12 1).setMemBytes 0 (toBytes 16 (0xFFFFFFFF * 2 ^ 84))).setRecTask 15 { expect := some 5, busy := some 0xFFFFFFFF }, 15, 0xFFFFFFFF, by decide +kernel⟩
theorem wit_RecordStoreKeepsNamespacesFirmwareAndTasks_65 : ∃ (s : State) (task : Fin 16) (e : Nat) (o : Nat) (slba :
    Nat) (key : Nat), s.live = true ∧ (s.recTask task).busy = some e ∧ (s.recTask task).need = [] ∧ s.taskBytes task =
    false ∧ s.answersAt (s.taskBuf task e) 128 ∧ o ∈ s.taskHeads task ∧ headFrameOf (s.memBytes (s.taskBuf task e + o) 64)
    ≠ e ∧ slba = s.taskStart task + s.taskNat task 12 * s.slotLbas task ∧ key = s.keyOf (s.taskNs task) slba ∧ s.taskNat
    task 12 + 1 < s.taskSlots task ∧ s.taskNat task 12 + 1 < 2 ^ 32 :=
  ⟨(((((((storeOn.setTaskWord 15 0 0x80000001).setTaskWord 15 3 256).setTaskWord 15 4 0x10).setTaskWord 15 7 2).setTaskWord 15 12 1).setMemBytes 0 (toBytes 16 (5 * 2 ^ 84))).setRecTask 15 { expect := some 5, busy := some 0xFFFFFFFF }).setTaskWord 15 12 0, 15, 0xFFFFFFFF, 0, 0, 0, by decide +kernel⟩
theorem wit_RecordStoreKeepsNamespacesFirmwareAndTasks_66 : ∃ (s : State) (task : Fin 16), s.live = true ∧
    ((s.taskBytes task = true ∨ (s.recTask task).need ≠ [] ∨ (s.recTask task).busy = none)) :=
  ⟨storeOn, 15, by decide +kernel⟩

/-- Words of opcodes and functions of Table 12-6 to Table 12-8, part 1: each is assigned, is read back as its key (opcode x 2048 +
function), and is met by a core that runs. -/
theorem test_opcode_words_1 :
    [(0, 0x00000000), (1, 0x00000001), (2, 0x00000002), (3, 0x00000003), (4, 0x00000004), (5, 0x00000005), (6,
    0x00000006), (7, 0x00000007), (8, 0x00000008), (9, 0x00000009), (10, 0x0000000A), (11, 0x0000000B), (12,
    0x0000000C), (13, 0x0000000D), (2048, 0x04000000), (2049, 0x04000001), (2050, 0x04000002), (2051, 0x04000003),
    (2052, 0x04000004), (2053, 0x04000005), (2054, 0x04000006), (8192, 0x10000000), (10240, 0x14000000), (12288,
    0x18000000), (14336, 0x1C000000), (16384, 0x20000000), (18432, 0x24000000), (20480, 0x28000000), (20481,
    0x28000020), (20482, 0x28000040), (22528, 0x2C000000), (32768, 0x40000000), (34816, 0x44000000), (36864,
    0x48000000), (38912, 0x4C000000), (40960, 0x50000000), (49152, 0x60000000), (51200, 0x64000000), (53248,
    0x68000000), (57344, 0x70000000), (57345, 0x70000001), (57346, 0x70000002), (57347, 0x70000003), (57348,
    0x70000004), (57349, 0x70000005)].all
      (fun (p : Nat × Nat) => (coreAt (.engine 127) 0 p.2 {}).atWord (.engine 127) p.2 && decide (opKey p.2 = p.1)) = true := by decide +kernel
/-- Words of opcodes and functions of Table 12-6 to Table 12-8, part 2: each is assigned, is read back as its key (opcode x 2048 +
function), and is met by a core that runs. -/
theorem test_opcode_words_2 :
    [(65536, 0x80000000), (67584, 0x84000000), (69632, 0x88000000), (71680, 0x8C000000), (73728, 0x90000000),
    (75776, 0x94000000), (81920, 0xA0000000), (83968, 0xA4000000), (90112, 0xB0000000), (90113, 0xB0000001),
    (90114, 0xB0000002), (90115, 0xB0000003), (90116, 0xB0000004), (90117, 0xB0000005), (90118, 0xB0000006),
    (90119, 0xB0000007), (90120, 0xB0000008), (90121, 0xB0000009), (90122, 0xB000000A), (90123, 0xB000000B),
    (92160, 0xB4000000), (94208, 0xB8000000), (98304, 0xC0000000), (98305, 0xC0000001), (98306, 0xC0000002),
    (98307, 0xC0000003), (98308, 0xC0000004), (98309, 0xC0000005), (98310, 0xC0000006), (98311, 0xC0000007),
    (98312, 0xC0000008), (98313, 0xC0000009), (98314, 0xC000000A), (98315, 0xC000000B), (98316, 0xC000000C),
    (98317, 0xC000000D), (98318, 0xC000000E), (98319, 0xC000000F), (98320, 0xC0210810), (98321, 0xC0210811),
    (98322, 0xC0210812), (98323, 0xC0000013), (98324, 0xC0000014), (98325, 0xC0000015), (100352, 0xC4000040)].all
      (fun (p : Nat × Nat) => (coreAt (.engine 127) 0 p.2 {}).atWord (.engine 127) p.2 && decide (opKey p.2 = p.1)) = true := by decide +kernel
/-- Words of opcodes and functions of Table 12-6 to Table 12-8, part 3: each is assigned, is read back as its key (opcode x 2048 +
function), and is met by a core that runs. -/
theorem test_opcode_words_3 :
    [(100353, 0xC4000041), (100354, 0xC4000042), (100355, 0xC4000043), (100356, 0xC4000044), (100357, 0xC4000045),
    (100358, 0xC4000046), (100359, 0xC4000047), (100360, 0xC4210848), (100361, 0xC4210849), (100362, 0xC400004A),
    (100363, 0xC400004B), (100364, 0xC400004C), (100365, 0xC400004D), (100366, 0xC400004E), (102400, 0xC8000000),
    (104448, 0xCC000000), (106496, 0xD0000000), (108544, 0xD4000000), (110592, 0xD8000000), (110593, 0xD8000001),
    (110594, 0xD8000002), (110595, 0xD8000003), (110596, 0xD8000004), (110597, 0xD8000005), (110598, 0xD8000006),
    (110599, 0xD8000047), (110600, 0xD8210808), (110601, 0xD8210809)].all
      (fun (p : Nat × Nat) => (coreAt (.engine 127) 0 p.2 {}).atWord (.engine 127) p.2 && decide (opKey p.2 = p.1)) = true := by decide +kernel
/-! Each check of a command refuses an ill-formed one. -/
theorem test_ill_control_write_address : Instr.wellFormed (.controlSpaceWrite .host (2 ^ 28) 0) = false := by decide
theorem test_ill_invalid_read_address : Instr.wellFormed (.invalidAddressRead .host (2 ^ 28)) = false := by decide
theorem test_ill_rc_read_address : Instr.wellFormed (.rcRead .host (2 ^ 28)) = false := by decide
theorem test_ill_window_read_address : Instr.wellFormed (.windowRead .host (2 ^ 28)) = false := by decide
theorem test_ill_window_write_address : Instr.wellFormed (.windowWrite .host (2 ^ 28) 0) = false := by decide
theorem test_ill_memory_address : Instr.wellFormed (.memoryRequest .host false (2 ^ 40) 1 []) = false := by decide
theorem test_ill_memory_write_empty : Instr.wellFormed (.memoryRequest .host true 0 0 []) = false := by decide
theorem test_ill_memory_read_empty : Instr.wellFormed (.memoryRequest .host false 0 0 []) = false := by decide
theorem test_ill_flash_header_a : Instr.wellFormed (.flashDiscoveryDone 0 false (List.replicate 65 0) []) = false := by decide
theorem test_ill_flash_header_b : Instr.wellFormed (.flashDiscoveryDone 0 false [] (List.replicate 65 0)) = false := by decide
theorem test_ill_write_record_target : Instr.wellFormed (.registerWriteRecord false (2 ^ 64) []) = false := by decide
theorem test_ill_write_record_words (l : List Word) (h : 2 ^ 30 ≤ l.length) : Instr.wellFormed (.registerWriteRecord false 0 l) = false := by
  show (target64 0 && decide (l.length < 2 ^ 30)) = false
  rw [decide_eq_false (Nat.not_lt.mpr h), Bool.and_false]
theorem test_ill_masked_record_target : Instr.wellFormed (.maskedRegisterWriteRecord false (2 ^ 64) 0 0) = false := by decide
theorem test_ill_poll_target : Instr.wellFormed (.pollRecord false (2 ^ 64) 0 0 0) = false := by decide
theorem test_ill_poll_timeout : Instr.wellFormed (.pollRecord false 0 0 0 (2 ^ 32)) = false := by decide
theorem test_ill_conditional_selector : Instr.wellFormed (.conditionalRecord (2 ^ 32) 0 0 0) = false := by decide
theorem test_ill_conditional_skip : Instr.wellFormed (.conditionalRecord 0 0 0 (2 ^ 32)) = false := by decide
theorem test_ill_partition_offset : Instr.wellFormed (.almanacPartitionRecord (2 ^ 32) 0 0) = false := by decide
theorem test_ill_partition_size : Instr.wellFormed (.almanacPartitionRecord 0 (2 ^ 32) 0) = false := by decide
theorem test_ill_partition_epoch : Instr.wellFormed (.almanacPartitionRecord 0 0 (2 ^ 32)) = false := by decide
theorem test_ill_signature_key : Instr.wellFormed (.signatureRecord (List.replicate 96 0) (List.replicate 48 0) (List.replicate 48 0) []) = false := by decide
theorem test_ill_signature_r : Instr.wellFormed (.signatureRecord (List.replicate 97 0) (List.replicate 47 0) (List.replicate 48 0) []) = false := by decide
theorem test_ill_signature_s : Instr.wellFormed (.signatureRecord (List.replicate 97 0) (List.replicate 48 0) (List.replicate 49 0) []) = false := by decide
theorem test_ill_block_load_target : Instr.wellFormed (.blockLoadRecord (2 ^ 64) []) = false := by decide
theorem test_ill_block_load_length (l : List Byte) (h : 2 ^ 32 ≤ l.length) : Instr.wellFormed (.blockLoadRecord 0 l) = false := by
  show (target64 0 && decide (l.length < 2 ^ 32)) = false
  rw [decide_eq_false (Nat.not_lt.mpr h), Bool.and_false]
theorem test_ill_tile_load_target : Instr.wellFormed (.tileCalibrationLoadRecord (2 ^ 64) []) = false := by decide
theorem test_ill_tile_load_length (l : List Byte) (h : 2 ^ 32 ≤ l.length) : Instr.wellFormed (.tileCalibrationLoadRecord 0 l) = false := by
  show (target64 0 && decide (l.length < 2 ^ 32)) = false
  rw [decide_eq_false (Nat.not_lt.mpr h), Bool.and_false]
theorem test_ill_steward_firmware_length (l : List Byte) (h : 2 ^ 32 ≤ l.length) : Instr.wellFormed (.stewardFirmwareRecord 0 l) = false :=
  decide_eq_false (Nat.not_lt.mpr h)
theorem test_ill_engine_firmware_length (l : List Byte) (h : 2 ^ 32 ≤ l.length) : Instr.wellFormed (.engineFirmwareRecord 0 l) = false :=
  decide_eq_false (Nat.not_lt.mpr h)
theorem test_ill_codec_firmware_length (l : List Byte) (h : 2 ^ 32 ≤ l.length) : Instr.wellFormed (.codecFirmwareRecord 0 l) = false :=
  decide_eq_false (Nat.not_lt.mpr h)
theorem test_ill_training_foms : Instr.wellFormed (.dramTrainingDone 0 (List.replicate 15 0) []) = false := by decide
theorem test_ill_training_orgs : Instr.wellFormed (.dramTrainingDone 0 (List.replicate 16 0) (List.replicate 15 [])) = false := by decide
theorem test_ill_census_locked : Instr.wellFormed (.processionCensusReceive true [] [16] false) = false := by decide
theorem test_ill_census_wait_locked : Instr.wellFormed (.censusWaitExpiry [3, 16] false) = false := by decide
theorem test_ill_surface_failed : Instr.wellFormed (.surfaceSelectDone 0 [16] []) = false := by decide
theorem test_ill_surface_poisoned : Instr.wellFormed (.surfaceSelectDone 0 [] [16]) = false := by decide
theorem test_ill_slot_bank : Instr.wellFormed (.dramSlotIssue 0 false [32]) = false := by decide
theorem test_ill_sq_tail : Instr.wellFormed (.sqDoorbell 0 (2 ^ 16)) = false := by decide
theorem test_ill_cq_head : Instr.wellFormed (.cqDoorbell 0 (2 ^ 16)) = false := by decide
theorem test_ill_bar4_offset : Instr.wellFormed (.hostBar4Access false (2 ^ 36) 1 []) = false := by decide
theorem test_ill_bar4_write_empty : Instr.wellFormed (.hostBar4Access true 0 1 []) = false := by decide
theorem test_ill_bar4_read_empty : Instr.wellFormed (.hostBar4Access false 0 0 []) = false := by decide
theorem test_ill_leader_package : Instr.wellFormed (.leaderTimeout [(16, true)]) = false := by decide
theorem test_ill_irq_source : Instr.wellFormed (.irqLineRise 49152) = false := by decide
/-- A command that meets every check is well formed. -/
theorem test_well_formed : Instr.wellFormed (.controlSpaceWrite .host (2 ^ 28 - 1) 0xFFFFFFFF) = true := by decide
/-- No row of the table has bits: no word spells a command. -/
theorem test_no_words : decodeTableWord 32 0xFFFFFFFF = none := by decide
/-- An empty queue idles. -/
theorem test_idle : step State.reset = .next State.reset := rfl

end Sys2Proof.Tests
set_option Elab.async true
end

section
/-! Chapter 1: control-space accesses without a register (R33), packets on the die bridges (R12, R22), bridge replays (R13). -/
namespace Sys2Proof.Machine

/-! ### Commands and the registers that records touch -/

/-- A command that acts while the device runs completes with the state its effect computes. -/
theorem Completes.of_effect {c : Instr} {s t : State} {f : State → State} {P : State → Prop} (he : exec c s = onLive s f)
    (hl : s.live = true) (ht : f s = t) (hP : P (t.withQueue s.pending)) : Completes c s P :=
  Completes.of_live he hl (ht ▸ hP)

/-- No record touches a bridge register. -/
theorem brg_notMem_recordRegs (die : Nat) (g : Fin 2) {o : Nat} (ho : o < 0x400) : brgA g + o ∉ recordRegs die := by
  simp only [recordRegs, fltA, hubA, FLT_STATUS, FLT_TOTAL, FLT_EVT, ALM_STATUS, NVT_STATUS, List.mem_cons,
    List.not_mem_nil, or_false, not_or]
  omega

theorem RegFrame.fld {l : List Nat} {s t : State} (h : RegFrame l s t) {b : Nat} {f : Fld} (hm : b + f.off ∉ l) :
    t.fld b f = s.fld b f := by
  rw [State.fld, State.fld, h _ hm]

theorem RegFrame.flag_eq {l : List Nat} {s t : State} (h : RegFrame l s t) {b : Nat} {f : Fld} (hm : b + f.off ∉ l) :
    t.flag b f = s.flag b f := by
  rw [State.flag, State.flag, h.fld hm]

theorem RegFrame.mono {l m : List Nat} {s t : State} (h : RegFrame l s t) (hs : ∀ a ∈ l, a ∈ m) : RegFrame m s t :=
  fun a ha => h a fun hl => ha (hs a hl)

theorem State.record_fld_brg (s : State) (die cause sev src addr info : Nat) (g : Fin 2) {f : Fld} (ho : f.off < 0x400) :
    (s.record die cause sev src addr info).fld (brgA g) f = s.fld (brgA g) f :=
  (State.record_regs s die cause sev src addr info).fld (brg_notMem_recordRegs die g ho)

theorem State.record_flag_brg (s : State) (die cause sev src addr info : Nat) (g : Fin 2) {f : Fld} (ho : f.off < 0x400) :
    (s.record die cause sev src addr info).flag (brgA g) f = s.flag (brgA g) f :=
  (State.record_regs s die cause sev src addr info).flag_eq (brg_notMem_recordRegs die g ho)

@[simp] theorem State.record_tget (s : State) (die cause sev src addr info : Nat) (t : Tbl) (n i : Nat) :
    (s.record die cause sev src addr info).tget t n i = s.tget t n i := by
  have h : (s.record die cause sev src addr info).tbl = s.tbl := State.record_frame s die cause sev src addr info .tbl (by decide)
  rw [State.tget, State.tget, h]

@[simp] theorem State.record_sent (s : State) (die cause sev src addr info : Nat) :
    (s.record die cause sev src addr info).sent = s.sent :=
  State.record_frame s die cause sev src addr info .sent (by decide)

/-- A record made after steps that left the logs and the time alone is a record made before them. -/
theorem Logged.since {die cause sev src addr info : Nat} {s u t : State} (h : Logged die cause sev src addr info u t)
    (hf : u.flt = s.flt) (ht : u.time = s.time) : Logged die cause sev src addr info s t := by
  simpa only [Logged, State.time32, State.nowNs, hf, ht] using h

theorem Logged.withQueue {die cause sev src addr info : Nat} {s t : State} (h : Logged die cause sev src addr info s t)
    {q : List Instr} : Logged die cause sev src addr info s (t.withQueue q) := h

theorem RegFrame.withQueue {l : List Nat} {s t : State} (h : RegFrame l s t) {q : List Instr} :
    RegFrame l s (t.withQueue q) := h

/-! ### Accesses to no register (R33) -/

/-- The die that logs an access to a die value, the hub for a reserved one, has a log. -/
theorem logDie_le_two (d : Nat) : (if d ≤ 2 then d else 0) ≤ 2 := by
  split <;> omega

theorem State.ctlGet_of_regAt_none (s : State) (r : Req) {a : Nat} (hn : regAt a = none) (hb : dieOf a ≠ 0xF)
    (hc : s.cut r.die (dieOf a) = false) :
    s.ctlGet r a = (s.addressError (if dieOf a ≤ 2 then dieOf a else 0) r a false).answerWith 0 := by
  simp [State.ctlGet, State.ctlRead, hn, hb, hc]

theorem State.ctlPut_of_regAt_none (s : State) (r : Req) {a : Nat} (v : Word) (hn : regAt a = none) (hb : dieOf a ≠ 0xF)
    (hc : s.cut r.die (dieOf a) = false) :
    s.ctlPut r a v = s.addressError (if dieOf a ≤ 2 then dieOf a else 0) r a true := by
  simp [State.ctlPut, State.ctlWrite, State.ctlWriteM, State.dieWrite, hn, hb, hc]

/-- Settles O11: R33's branch of an access is one address error, and nothing else. -/
theorem invalidAccessIsAnAddressError : Obligations.InvalidAccessIsAnAddressError := by
  unfold Obligations.InvalidAccessIsAnAddressError
  refine ⟨fun s r addr hl hn hb hc => ?_, fun s r addr v hl hn hb hc => ?_⟩
  · refine Completes.of_effect (f := fun s => s.ctlGet r (addr % 2 ^ 28)) rfl hl (s.ctlGet_of_regAt_none r hn hb hc)
      ⟨rfl, ?_, ?_, ?_⟩
    · exact State.record_logged s _ _ _ _ _ _ (logDie_le_two _)
    · exact State.record_regs s _ _ _ _ _ _
    · exact (((State.record_frame s _ _ _ _ _ _).mono (by decide)).trans ((Frame.answerWith _ 0).mono (by decide))).withQueue
  · refine Completes.of_effect (f := fun s => s.ctlPut r (addr % 2 ^ 28) v) rfl hl (s.ctlPut_of_regAt_none r v hn hb hc)
      ⟨?_, ?_, ?_⟩
    · exact State.record_logged s _ _ _ _ _ _ (logDie_le_two _)
    · exact State.record_regs s _ _ _ _ _ _
    · exact (State.record_frame s _ _ _ _ _ _).withQueue

/-! ### Packets on the bridges (R12, R13, R22) -/

section
variable {s : State} {sid : Nat} (hc : (s.tget .fabClass 0 sid).toNat % 4 ≠ 0)
include hc

/-- A stream configured for class 1, 2 or 3 needs no class-0 slot. -/
theorem State.admitStream_of_class (src : Nat) : s.admitStream sid src = s := by
  simp [State.admitStream, hc]

theorem State.classOf_of_class : s.classOf sid = (s.tget .fabClass 0 sid).toNat % 4 := by
  simp [State.classOf, hc]

end

theorem State.workingBridge_record (s : State) (die cause sev src addr info : Nat) (g : Fin 2) (i : Nat) :
    (s.record die cause sev src addr info).workingBridge g i = s.workingBridge g i := by
  simp only [State.workingBridge, State.record_fld_brg s _ _ _ _ _ _ g (f := BRG_STATUS_RETIRED) (by decide)]

/-- A packet that its sending die has looked at goes on to the bridges of a compute die; with none that works it is lost. -/
def State.crossBridge (s : State) (p : Pkt) (die : Fin 2) : State :=
  let s1 := s.admitStream p.h.sid (srcOf 0 0x03 0)
  let n := s1.fld (brgA die) BRG_STATUS_WORKING
  if n = 0 then s1
  else s1.emit .stream (8 * die + s1.workingBridge die (p.h.sid % n)) [p.h.sid, s1.classOf p.h.sid, p.h.toNat]

/-- STREAM_PACKET_ROUTE: the sending die looks at the class (R22), then the packet crosses (R12, R13). -/
def State.routePacket (p : Pkt) (die : Fin 2) (toHub : Bool) (s : State) : State :=
  if p.h.sid ≥ 1023 then s
  else
    let saw := if toHub then 1 + die.val else 0
    (if p.h.cls ≠ (s.tget .fabClass 0 p.h.sid).toNat % 4 then s.record saw 0x03 1 (srcOf saw 0x03 0) 0 (info8 p.h.sid)
      else s).crossBridge p die

theorem exec_streamPacketRoute (p : Pkt) (die : Fin 2) (toHub : Bool) (s : State) :
    exec (.streamPacketRoute p die toHub) s = onLive s (State.routePacket p die toHub) := rfl

theorem State.routePacket_of_match {s : State} {p : Pkt} (die : Fin 2) (toHub : Bool) (hs : p.h.sid < 1023)
    (he : p.h.cls = (s.tget .fabClass 0 p.h.sid).toNat % 4) : s.routePacket p die toHub = s.crossBridge p die := by
  simp [State.routePacket, Nat.not_le.mpr hs, he]

theorem State.routePacket_of_mismatch {s : State} {p : Pkt} (die : Fin 2) (toHub : Bool) (hs : p.h.sid < 1023)
    (hne : p.h.cls ≠ (s.tget .fabClass 0 p.h.sid).toNat % 4) :
    s.routePacket p die toHub = (s.record (if toHub then 1 + die.val else 0) 0x03 1
      (srcOf (if toHub then 1 + die.val else 0) 0x03 0) 0 (info8 p.h.sid)).crossBridge p die := by
  simp [State.routePacket, Nat.not_le.mpr hs, hne]

theorem State.routePacket_of_noStream {s : State} {p : Pkt} (die : Fin 2) (toHub : Bool) (hs : 1023 ≤ p.h.sid) :
    s.routePacket p die toHub = s := if_pos hs

section
variable {s : State} {p : Pkt} {die : Fin 2} (hc : (s.tget .fabClass 0 p.h.sid).toNat % 4 ≠ 0)
include hc

theorem State.crossBridge_of_working (hw : s.fld (brgA die) BRG_STATUS_WORKING ≠ 0) :
    s.crossBridge p die = s.emit .stream (8 * die + s.workingBridge die (p.h.sid % s.fld (brgA die) BRG_STATUS_WORKING))
      [p.h.sid, (s.tget .fabClass 0 p.h.sid).toNat % 4, p.h.toNat] := by
  simp [State.crossBridge, State.admitStream_of_class hc, State.classOf_of_class hc, hw]

theorem State.crossBridge_of_noneWorking (hw : s.fld (brgA die) BRG_STATUS_WORKING = 0) : s.crossBridge p die = s := by
  simp [State.crossBridge, State.admitStream_of_class hc, hw]

/-- The record of a class mismatch does not change how the packet crosses. -/
theorem State.crossBridge_record (hw : s.fld (brgA die) BRG_STATUS_WORKING ≠ 0) (d cause sev src addr info : Nat) :
    (s.record d cause sev src addr info).crossBridge p die =
      (s.record d cause sev src addr info).emit .stream
        (8 * die + s.workingBridge die (p.h.sid % s.fld (brgA die) BRG_STATUS_WORKING))
        [p.h.sid, (s.tget .fabClass 0 p.h.sid).toNat % 4, p.h.toNat] := by
  have hf : (s.record d cause sev src addr info).fld (brgA die) BRG_STATUS_WORKING = s.fld (brgA die) BRG_STATUS_WORKING :=
    State.record_fld_brg s _ _ _ _ _ _ die (by decide)
  have hk := State.crossBridge_of_working (s := s.record d cause sev src addr info) (p := p) (die := die)
    (by rwa [State.record_tget]) (by rwa [hf])
  rwa [hf, State.workingBridge_record, State.record_tget] at hk

end

/-- Settles O14: a packet crosses as the state before the class check says, since a record touches neither bridge registers
nor the class table. -/
theorem streamPacketsCrossAtTheirConfiguredClass : Obligations.StreamPacketsCrossAtTheirConfiguredClass := by
  unfold Obligations.StreamPacketsCrossAtTheirConfiguredClass
  refine ⟨fun s p die toHub hl hs hc he hw => ?_, fun s p die toHub hl hs hc hne hw => ?_, fun s p die toHub hl h => ?_⟩
  · have ht := (s.routePacket_of_match die toHub hs he).trans (State.crossBridge_of_working hc hw)
    exact Completes.of_effect (exec_streamPacketRoute p die toHub s) hl ht ⟨rfl, (Frame.emit s _ _ _).withQueue⟩
  · have ht := (s.routePacket_of_mismatch die toHub hs hne).trans (State.crossBridge_record hc hw _ _ _ _ _ _)
    refine Completes.of_effect (exec_streamPacketRoute p die toHub s) hl ht ⟨?_, ?_, ?_, ?_⟩
    · exact congrArg _ (State.record_sent s _ _ _ _ _ _)
    · exact State.record_logged s _ _ _ _ _ _ (by split <;> omega)
    · exact State.record_regs s _ _ _ _ _ _
    · exact (((State.record_frame s _ _ _ _ _ _).mono (by decide)).trans ((Frame.emit _ _ _ _).mono (by decide))).withQueue
  · have ht : s.routePacket p die toHub = s := by
      rcases h with hs | ⟨he, hc, hw⟩
      · exact State.routePacket_of_noStream die toHub hs
      · by_cases hs : p.h.sid < 1023
        · exact (s.routePacket_of_match die toHub hs he).trans (State.crossBridge_of_noneWorking hc hw)
        · exact State.routePacket_of_noStream die toHub (Nat.not_lt.mp hs)
    exact Completes.of_effect (exec_streamPacketRoute p die toHub s) hl ht (Frame.refl _ s).withQueue

/-! ### Replays on a bridge (R13) -/

theorem Frame.setBit (s : State) (b : Nat) (f : Fld) (k : Nat) (v : Bool) : Frame [.regs] s (s.setBit b f k v) :=
  Frame.setFld s b f _

theorem RegFrame.bit {l : List Nat} (s : State) {b : Nat} {f : Fld} (k : Nat) (v : Bool) (h : b + f.off ∈ l) :
    RegFrame l s (s.setBit b f k v) := RegFrame.put s _ h

theorem State.testBit_fld_setBit_same (s : State) (b : Nat) (f : Fld) (k : Nat) (hk : k < f.hi + 1 - f.lo) (hf : f.hi < 32) :
    ((s.setBit b f k true).fld b f).testBit k = true := by
  simp [State.setBit, State.fld_setFld_same _ _ _ _ hf, hk]

/-- A field of the same register with no bit in common stays. -/
theorem State.fld_setBit_disjoint (s : State) (b : Nat) (f g : Fld) (k : Nat) (v : Bool) (ho : g.off = f.off)
    (h : g.hi < f.lo ∨ f.hi < g.lo) : (s.setBit b f k v).fld b g = s.fld b g :=
  State.fld_setFld_disjoint s b f g _ ho h

/-- The replays of the last 1 ms with a new one, as the bridge counts them: 16 at most. -/
def State.replaysWithNew (s : State) (g : Fin 2) (b : Fin 8) : List Nat :=
  (s.tick :: s.replayTimes (8 * g.val + b.val)).take 16

theorem State.replaysWithNew_length (s : State) (g : Fin 2) (b : Fin 8) :
    (s.replaysWithNew g b).length = min 16 ((s.replayTimes (8 * g.val + b.val)).length + 1) := by
  rw [State.replaysWithNew, List.length_take, List.length_cons]

/-- The replay is kept, and REPLAYS and WINDOW show it. -/
def State.countReplay (s : State) (g : Fin 2) (b : Fin 8) : State :=
  ((s.withFab { s.fab with replays := UMap.set (fun _ => []) s.fab.replays (8 * g.val + b.val) (s.replaysWithNew g b) }).incFld
    (brgA g) (BRG_REPLAY_REPLAYS.nth 4 b) 1).setFld (brgA g) (BRG_REPLAY_WINDOW.nth 4 b) (s.replaysWithNew g b).length

/-- BRIDGE_REPLAY counts on a bridge in use, and with 16 replays retires it. -/
def State.replayBridge (g : Fin 2) (b : Fin 8) (s : State) : State :=
  if (s.fld (brgA g) BRG_STATUS_RETIRED).testBit b then s
  else if (s.replaysWithNew g b).length ≥ 16 then (s.countReplay g b).retireBridge g b
  else s.countReplay g b

theorem exec_bridgeReplay (g : Fin 2) (b : Fin 8) (s : State) :
    exec (.bridgeReplay g b) s = onLive s (State.replayBridge g b) := rfl

section
variable (s : State) (g : Fin 2) (b : Fin 8)

theorem State.countReplay_frame : Frame [.regs, .fab] s (s.countReplay g b) :=
  (((Frame.withFab s _).mono (by decide)).trans ((Frame.incFld _ _ _ _).mono (by decide))).trans
    ((Frame.setFld _ _ _ _).mono (by decide))

theorem State.countReplay_regs : RegFrame [brgA g + BRG_REPLAY + 4 * b] s (s.countReplay g b) := by
  have hm : brgA g + (BRG_REPLAY + 4 * b.val) ∈ [brgA g + BRG_REPLAY + 4 * b.val] := by simp [Nat.add_assoc]
  exact ((RegFrame.of_regs rfl _).trans (RegFrame.inc _ _ hm)).trans (RegFrame.put _ _ hm)

theorem State.countReplay_replays : (s.countReplay g b).fld (brgA g) (BRG_REPLAY_REPLAYS.nth 4 b) =
    sat 16 (s.fld (brgA g) (BRG_REPLAY_REPLAYS.nth 4 b) + 1) := by
  have hs : ∀ n, sat 16 n < 2 ^ 16 := fun n => by simp only [sat]; omega
  rw [State.countReplay, State.fld_setFld_disjoint _ _ (BRG_REPLAY_WINDOW.nth 4 b) (BRG_REPLAY_REPLAYS.nth 4 b) _ rfl
    (.inr (by simp [Fld.nth])), State.incFld, State.fld_setFld_same _ _ _ _ (by simp [Fld.nth])]
  exact Nat.mod_eq_of_lt (hs _)

theorem State.countReplay_window : (s.countReplay g b).fld (brgA g) (BRG_REPLAY_WINDOW.nth 4 b) =
    (s.replaysWithNew g b).length := by
  have hl : (s.replaysWithNew g b).length < 2 ^ 5 := by
    rw [State.replaysWithNew_length]
    omega
  rw [State.countReplay, State.fld_setFld_same _ _ _ _ (by simp [Fld.nth])]
  exact Nat.mod_eq_of_lt hl

theorem State.countReplay_status {f : Fld} (ho : f.off = BRG_STATUS) :
    (s.countReplay g b).fld (brgA g) f = s.fld (brgA g) f :=
  (s.countReplay_regs g b).fld (by simp [ho, BRG_STATUS, BRG_REPLAY, Nat.add_assoc])

theorem State.replayBridge_of_few (hr : (s.fld (brgA g) BRG_STATUS_RETIRED).testBit b = false)
    (hn : (s.replaysWithNew g b).length < 16) : s.replayBridge g b = s.countReplay g b := by
  simp [State.replayBridge, hr, Nat.not_le.mpr hn]

/-- The registers as a bridge is taken out of use: retired and down, one fewer works, WINDOW stands at 16. -/
def State.dropBridge : State :=
  ((((s.setBit (brgA g) BRG_STATUS_RETIRED b true).setBit (brgA g) BRG_STATUS_UP b false).setFld (brgA g) BRG_STATUS_WORKING
    (s.fld (brgA g) BRG_STATUS_WORKING - 1)).setFlag (brgA g) BRG_EVT_RETIRE true).setFld (brgA g)
      (BRG_REPLAY_WINDOW.nth 4 b) 16

/-- While six or more bridges stay, the die is not lost with the one retired. -/
theorem State.retireBridge_of_enough (hw : 6 < s.fld (brgA g) BRG_STATUS_WORKING) :
    s.retireBridge g b = (s.dropBridge g b).record 0 0x10 2 (srcOf 0 0x04 g) 0 (info8 b) :=
  if_neg (by omega)

theorem State.replayBridge_of_sixteenth (hr : (s.fld (brgA g) BRG_STATUS_RETIRED).testBit b = false)
    (hn : 16 ≤ (s.replaysWithNew g b).length) (hw : 6 < s.fld (brgA g) BRG_STATUS_WORKING) :
    s.replayBridge g b = ((s.countReplay g b).dropBridge g b).record 0 0x10 2 (srcOf 0 0x04 g) 0 (info8 b) := by
  have hw' : 6 < (s.countReplay g b).fld (brgA g) BRG_STATUS_WORKING := by rwa [s.countReplay_status g b rfl]
  simp [State.replayBridge, hr, hn, State.retireBridge_of_enough _ g b hw']

theorem State.dropBridge_frame : Frame [.regs] s (s.dropBridge g b) :=
  ((((Frame.setBit s _ _ _ _).trans (Frame.setBit _ _ _ _ _)).trans (Frame.setFld _ _ _ _)).trans
    (Frame.setFlag _ _ _ _)).trans (Frame.setFld _ _ _ _)

theorem State.dropBridge_regs :
    RegFrame [brgA g + BRG_STATUS, brgA g + BRG_EVT, brgA g + BRG_REPLAY + 4 * b] s (s.dropBridge g b) := by
  have hs : brgA g + BRG_STATUS ∈ [brgA g + BRG_STATUS, brgA g + BRG_EVT, brgA g + BRG_REPLAY + 4 * b.val] := by simp
  have he : brgA g + BRG_EVT ∈ [brgA g + BRG_STATUS, brgA g + BRG_EVT, brgA g + BRG_REPLAY + 4 * b.val] := by simp
  have hr : brgA g + (BRG_REPLAY + 4 * b.val) ∈ [brgA g + BRG_STATUS, brgA g + BRG_EVT, brgA g + BRG_REPLAY + 4 * b.val] := by
    simp [Nat.add_assoc]
  exact ((((RegFrame.bit s _ _ hs).trans (RegFrame.bit _ _ _ hs)).trans (RegFrame.put _ _ hs)).trans
    (RegFrame.flag _ _ he)).trans (RegFrame.put _ _ hr)

/-- WINDOW is in a register apart from BRG_STATUS and BRG_EVT. -/
theorem replayWindow_off_ne (k o : Nat) (ho : o < 0x020) : k + o ≠ k + (BRG_REPLAY_WINDOW.nth 4 b).off := by
  simp only [Fld.nth]
  omega

theorem State.dropBridge_retired : ((s.dropBridge g b).fld (brgA g) BRG_STATUS_RETIRED).testBit b = true := by
  rw [State.dropBridge, State.fld_setFld_other _ _ (replayWindow_off_ne b _ _ (by decide)), State.setFlag,
    State.fld_setFld_other _ _ (by simp),
    State.fld_setFld_disjoint _ _ BRG_STATUS_WORKING BRG_STATUS_RETIRED _ rfl (.inl (by decide)),
    State.fld_setBit_disjoint _ _ BRG_STATUS_UP BRG_STATUS_RETIRED _ _ rfl (.inr (by decide))]
  exact State.testBit_fld_setBit_same s _ BRG_STATUS_RETIRED b b.isLt (by decide)

theorem State.dropBridge_working :
    (s.dropBridge g b).fld (brgA g) BRG_STATUS_WORKING = s.fld (brgA g) BRG_STATUS_WORKING - 1 := by
  have hlt : s.fld (brgA g) BRG_STATUS_WORKING < 2 ^ 4 := Nat.mod_lt _ (by decide)
  rw [State.dropBridge, State.fld_setFld_other _ _ (replayWindow_off_ne b _ _ (by decide)), State.setFlag,
    State.fld_setFld_other _ _ (by simp), State.fld_setFld_same _ _ _ _ (by decide)]
  exact Nat.mod_eq_of_lt (Nat.lt_of_le_of_lt (Nat.sub_le _ _) hlt)

theorem State.dropBridge_event : (s.dropBridge g b).flag (brgA g) BRG_EVT_RETIRE = true := by
  rw [State.flag, State.dropBridge, State.fld_setFld_other _ _ (replayWindow_off_ne b _ _ (by decide))]
  exact State.flag_setFlag_same _ _ _ _ (by decide) (by decide)

/-- Counting a replay and retiring the bridge changes registers and the replays kept. -/
theorem State.countReplay_dropBridge_frame : Frame [.regs, .fab] s ((s.countReplay g b).dropBridge g b) :=
  (s.countReplay_frame g b).trans ((State.dropBridge_frame _ g b).mono (by decide))

end

/-- Settles O15: a replay is counted, and the sixteenth drops the bridge and is recorded. Of more than six working bridges more
than five stay, so the step at five, where the die is lost, is not taken. -/
theorem bridgeReplaysCountAndRetire : Obligations.BridgeReplaysCountAndRetire := by
  unfold Obligations.BridgeReplaysCountAndRetire
  refine ⟨fun s g b hl hr hn => ?_, fun s g b hl hr hn hw => ?_⟩
  · have hlen : (s.replaysWithNew g b).length = (s.replayTimes (8 * g + b)).length + 1 := by
      rw [State.replaysWithNew_length]
      omega
    refine Completes.of_effect (exec_bridgeReplay g b s) hl (s.replayBridge_of_few g b hr (by omega)) ⟨?_, ?_, ?_, ?_⟩
    · rw [State.withQueue_fld, s.countReplay_replays g b]
    · rw [State.withQueue_fld, s.countReplay_window g b, hlen]
    · exact (s.countReplay_regs g b).withQueue
    · exact (s.countReplay_frame g b).withQueue
  · have hlen : 16 ≤ (s.replaysWithNew g b).length := by
      rw [State.replaysWithNew_length]
      omega
    have hf := s.countReplay_dropBridge_frame g b
    refine Completes.of_effect (exec_bridgeReplay g b s) hl (s.replayBridge_of_sixteenth g b hr hlen hw)
      ⟨?_, ?_, ?_, ?_, ?_, ?_⟩
    · rw [State.withQueue_fld, State.record_fld_brg _ _ _ _ _ _ _ g (f := BRG_STATUS_RETIRED) (by decide)]
      exact State.dropBridge_retired _ g b
    · rw [State.withQueue_flag, State.record_flag_brg _ _ _ _ _ _ _ g (f := BRG_EVT_RETIRE) (by decide)]
      exact State.dropBridge_event _ g b
    · rw [State.withQueue_fld, State.record_fld_brg _ _ _ _ _ _ _ g (f := BRG_STATUS_WORKING) (by decide),
        State.dropBridge_working, s.countReplay_status g b rfl]
    · exact (State.record_logged _ _ _ _ _ _ _ (by decide)).since (hf .flt (by decide)) (hf .time (by decide)) |>.withQueue
    · exact ((((s.countReplay_regs g b).mono (by simp)).trans ((State.dropBridge_regs _ g b).mono (by simp))).trans
        ((State.record_regs _ _ _ _ _ _ _).mono fun _ ha => List.mem_append_right _ ha)).withQueue
    · exact ((hf.mono (by decide)).trans ((State.record_frame _ _ _ _ _ _ _).mono (by decide))).withQueue

end Sys2Proof.Machine
end

section
/-! Chapter 2: a class-0 slot is written (R54) while two cameras use one pipe (R107). -/
namespace Sys2Proof.Machine

/-- What a command that acts while the device runs completes with holds of the state its effect computes. -/
theorem Completes.effect {c : Instr} {s : State} {f : State → State} {P : State → Prop} (h : Completes c s P)
    (he : exec c s = onLive s f) (hl : s.live = true) : P ((f s).withQueue s.pending) := by
  obtain ⟨t, ht, hP⟩ := h
  rw [he, onLive_live f hl] at ht
  injection ht with ht
  rwa [ht]

theorem exec_c0StreamWrite (r : Req) (n : Fin 4) (v : Word) (s : State) :
    exec (.c0StreamWrite r n v) s = onLive s fun s => s.ctlPut r (fabA + C0_STREAM + 4 * n) v := rfl

/-- Out of reset: streams 1 and 2 get class 0, ports 0 and 1 carry them and are enabled on pipe 0, and slot 0 names stream 1
for head 0. -/
def sharedPipeSetup : List Instr :=
  [.resetRelease 0 0,
    .controlSpaceWrite .host (fabA + FAB_SIDX) 1, .controlSpaceWrite .host (fabA + FAB_SCLS) 0,
    .controlSpaceWrite .host (fabA + FAB_SCLS) 0,
    .controlSpaceWrite .host (campA 0 + CAMP_STREAM) 1, .controlSpaceWrite .host (campA 1 + CAMP_STREAM) 2,
    .campEnable .host 0 0, .campEnable .host 1 0, .c0StreamWrite .host 0 0x80000001]

/-- Where these nine commands lead from reset. -/
def sharedPipe : State :=
  match Sys2Proof.core.run 9 (State.reset.withQueue sharedPipeSetup) with
  | .next t => t
  | _ => State.reset

/-- Slot 1 is enabled for head 1, V 0 and stream 2. -/
def enableSlot1 : Word := 0x81000002

/-- The device runs, the host's writes reach the hub, and by R54 the write is to take effect: the other enabled slot names
another head, and V is at most 8. -/
theorem sharedPipe_accepts_enableSlot1 : sharedPipe.live = true ∧ sharedPipe.cut Req.host.die 0 = false ∧
    bits enableSlot1.toNat 19 16 ≤ 8 ∧
    ∀ k, k < 4 → k ≠ (1 : Fin 4).val → sharedPipe.flag fabA (C0_STREAM_EN.nth 4 k) = true →
      sharedPipe.fld fabA (C0_STREAM_HEAD.nth 4 k) ≠ bits enableSlot1.toNat 25 24 := by decide +kernel

theorem sharedPipe_log : sharedPipe.flt.logH = [] := by decide +kernel

/-- With slot 1 enabled, pipe 0 serves a second class-0 stream, so R107 has the device record an error of port 1, the higher of
the two. -/
theorem sharedPipe_enableSlot1_log : (sharedPipe.ctlPut .host (fabA + C0_STREAM + 4 * (1 : Fin 4)) enableSlot1).flt.logH =
    [faultRec 0x03 1 (srcOf 0 0x10 1) 0 (info8 2) sharedPipe.time32] := by decide +kernel

/-- Refutes O16: a write that R54 lets take effect can make a second class-0 stream on a pipe, and R107 then adds a record to the
hub's log, which the statement's second clause holds unchanged. -/
theorem not_classZeroSlotWritesAreJudged : ¬ Obligations.ClassZeroSlotWritesAreJudged := by
  unfold Obligations.ClassZeroSlotWritesAreJudged
  rintro ⟨-, htaken⟩
  obtain ⟨hl, hc, hv, hh⟩ := sharedPipe_accepts_enableSlot1
  obtain ⟨-, -, -, -, -, hf⟩ := (htaken sharedPipe .host 1 enableSlot1 hl hc fun _ => ⟨hv, hh⟩).effect
    (exec_c0StreamWrite _ _ _ _) hl
  have hlog : (sharedPipe.ctlPut .host (fabA + C0_STREAM + 4 * (1 : Fin 4)) enableSlot1).flt.logH = sharedPipe.flt.logH :=
    congrArg Flt.logH (hf .flt (by decide))
  rw [sharedPipe_enableSlot1_log, sharedPipe_log] at hlog
  exact List.cons_ne_nil _ _ hlog

end Sys2Proof.Machine
end

section
/-! Chapter 5: a row end opens the next frame (R205) while a write of HEAD_FRAME waits for the Solstice (R121). -/
namespace Sys2Proof.Machine

theorem State.withQueue_inForce (s : State) (q : List Instr) (b : Nat) (f : Fld) :
    (s.withQueue q).inForce b f = s.inForce b f := rfl

theorem exec_headRowEnd (h : Fin 4) (recordWritten : Bool) (s : State) :
    exec (.headRowEnd h recordWritten) s = onLive s fun s =>
      if s.headRuns h && (s.head h).rowOpen then (if recordWritten then s.flushRecord h else s).rowEnded h else s := rfl

/-- The end of an open row, no frame record having been written, is what `State.rowEnded` makes of it. -/
theorem exec_headRowEnd_of_open {s : State} {h : Fin 4} (hl : s.live = true) (hr : s.headRuns h = true)
    (ho : (s.head h).rowOpen = true) : exec (.headRowEnd h false) s = onLive s fun s => s.rowEnded h := by
  rw [exec_headRowEnd, onLive_live _ hl, onLive_live _ hl, hr, ho]
  rfl

/-- Head 0 runs unlocked with a row period, its row 2250 (VT_NOM at reset) is open, FRAME reads 0, and for bit 0 of HEAD_FRAME,
which is read-only and no SH field, the value 1 waits for the head's Solstice. The statement speaks of such a state too, though
`State.genWrite` lets only SH bits wait. -/
def frameBitWaits : State :=
  ((((State.reset.withAdv { porst := true }).setFlag (headA 0) HEAD_STATUS_RUNNING true).setHead 0
    { rows := 2250, rowOpen := true }).withAct [(headA 0 + HEAD_OLP, 1500)]).withDue [(headA 0 + HEAD_FRAME, ⟨1, 1⟩)]

/-- The row end is at VT_NOM of an unlocked head. -/
theorem frameBitWaits_ends_frame : frameBitWaits.live = true ∧ frameBitWaits.headRuns (0 : Fin 4) = true ∧
    (frameBitWaits.head (0 : Fin 4)).rowOpen = true ∧
    frameBitWaits.inForceFlag (headA (0 : Fin 4)) HEAD_CTRL_LOCK_EN = false ∧
    frameBitWaits.inForce (headA (0 : Fin 4)) HEAD_VTNOM_VT_NOM ≤ (frameBitWaits.head (0 : Fin 4)).rows := by decide +kernel

theorem frameBitWaits_frame : frameBitWaits.fld (headA (0 : Fin 4)) HEAD_FRAME_FRAME = 0 := by decide +kernel

/-- The Solstice commits the bit, FRAME is 1, and the frame that opens is numbered 2. -/
theorem frameBitWaits_rowEnded : (frameBitWaits.rowEnded (0 : Fin 4)).inForce (headA (0 : Fin 4)) HEAD_OLP_OL_PERIOD ≠ 0 ∧
    (frameBitWaits.rowEnded (0 : Fin 4)).fld (headA (0 : Fin 4)) HEAD_FRAME_FRAME = 2 := by decide +kernel

/-- Refutes O33: the clause of headRowEnd at VT_NOM has the next frame numbered one above FRAME in every state, also in one where
a write of HEAD_FRAME waits. The Solstice that opens the frame commits whatever bits wait, SH or not (`State.commitAt`), so there
the number is one above what was committed. -/
theorem not_headsStartFreezeAndRunRows : ¬ Obligations.HeadsStartFreezeAndRunRows := by
  unfold Obligations.HeadsStartFreezeAndRunRows
  rintro ⟨-, -, -, -, -, -, hnext, -⟩
  obtain ⟨hl, hr, ho, hk, hn⟩ := frameBitWaits_ends_frame
  obtain ⟨hperiod, hframe⟩ := frameBitWaits_rowEnded
  obtain ⟨hopen, -⟩ := (hnext frameBitWaits 0 hl hr ho hk hn).effect (exec_headRowEnd_of_open hl hr ho) hl
  rw [State.withQueue_inForce, State.withQueue_fld, hframe, frameBitWaits_frame] at hopen
  obtain ⟨hnumber, -⟩ := hopen hperiod
  exact absurd hnumber (by decide)

end Sys2Proof.Machine
end

section
/-! Chapter 6: a gang of four's frame is cut short (R109) while a control packet waits in one pipe for the lines ahead of it and
its copy waits at the other (R26, R94). -/
namespace Sys2Proof.Machine

/-- Where a command leads from a state; the state itself if it leads nowhere. -/
def State.after (s : State) (c : Instr) : State :=
  match exec c s with
  | .next t => t
  | _ => s

/-- What a command completes with holds of the state it leads to. -/
theorem Completes.after {c : Instr} {s : State} {P : State → Prop} (h : Completes c s P) : P (s.after c) := by
  obtain ⟨t, ht, hP⟩ := h
  simpa only [State.after, ht] using hP

/-- Out of reset, ports 0 to 3 are a gang of four on pipes 0 and 1 that carries stream 5 in frames of 64 x 32, and slot 0 of both
pipes takes the stream, with the demosaic on. A frame starts; its line 0 goes to pipe 0 alone (R94) and waits there for the lines
below it (R162); a control packet follows it to both pipes (R26). Then EN of the gang is cleared, which ends the frame (R109), and
set again. -/
def gangCutSetup : List Instr :=
  [.resetRelease 0 0,
    .controlSpaceWrite .host (campA 0 + CAMP_STREAM) 5, .controlSpaceWrite .host (campA 0 + CAMP_SIZE) 0x00200040,
    .controlSpaceWrite .host (pipeA 0 + FE_SCTRL) 5, .controlSpaceWrite .host (pipeA 1 + FE_SCTRL) 5,
    .controlSpaceWrite .host (pipeA 0 + COL_SCTRL) 0x400, .controlSpaceWrite .host (pipeA 1 + COL_SCTRL) 0x400,
    .campEnable .host 0 0x100004, .cameraFrameStart 0, .pipeFrameStart 0, .pipeFrameStart 1,
    .cameraLineStart 0, .controlSpaceWrite .host (fabA + FAB_INJ_CTL) 0x80000005, .cameraLineEnd 0 [],
    .pipeLineDone 0, .pipeLine 0 [], .controlPacketApply (.pipe 0), .controlPacketApply (.pipe 1),
    .campDisable .host 0 0x100004, .campEnable .host 0 0x100004]

/-- Where these twenty commands lead from reset. -/
def gangCut : State :=
  match Sys2Proof.core.run 20 (State.reset.withQueue gangCutSetup) with
  | .next t => t
  | _ => State.reset

/-- The frame-end packet of frame 0, with CUT. -/
def gangCutEnd : Hdr := ⟨5, 1, 0, 0, 0xFFFF, fCUT, 0⟩

/-- The frame-end packet is all that waits at pipe 0, and slot 0 there has its frame open. -/
theorem gangCut_ends_frame : gangCut.live = true ∧ (gangCut.pipe (0 : Fin 8)).inQ = [⟨gangCutEnd, .frameEnd⟩] ∧
    gangCut.slotFor (0 : Fin 8) gangCutEnd.sid = some 0 ∧ (gangCut.slot (0 : Fin 8) 0).inFrame = true := by decide +kernel

/-- Pipe 1 holds its copy of the control packet, for the copy of pipe 0 to come. -/
theorem gangCut_joining : (gangCut.pipe (1 : Fin 8)).join.length = 1 := by decide +kernel

/-- With the end of the frame the control packet of pipe 0 leaves, the copies become one, and nothing waits at pipe 1. -/
theorem gangCut_after_joining : ((gangCut.after (.harvestWriteStart 0)).pipe (1 : Fin 8)).join.length = 0 := by decide +kernel

/-- Refutes O32: the clause of harvestWriteStart holds every pipe but the command's own unchanged. In a gang of four the end of
the frame lets a control packet go that waited behind the frame's lines, and R26 then joins it with the copy that waits at the
other pipe, which no longer waits. -/
theorem not_motionFieldsAndBufferHeads : ¬ Obligations.MotionFieldsAndBufferHeads := by
  unfold Obligations.MotionFieldsAndBufferHeads
  rintro ⟨-, -, -, -, -, -, hend, -⟩
  obtain ⟨hl, hq, hslot, hopen⟩ := gangCut_ends_frame
  obtain ⟨-, -, -, -, -, -, hother, -⟩ := (hend gangCut 0 gangCutEnd 0 hl hq hslot hopen).after
  have hjoin := gangCut_after_joining
  rw [hother 1 (by decide), gangCut_joining] at hjoin
  exact absurd hjoin (by decide)

end Sys2Proof.Machine
end

section
/-! Chapter 13: an address is translated (R312) after DMC_GEOM has been written anew, the channels having trained (R304, R320). -/
namespace Sys2Proof.Machine

/-- Advent stands at A3 with every other register as at reset: CAP 8 and one rank. -/
def atTraining : State := (State.reset.withAdv { porst := true }).setFld advA ADV_STATUS_PHASE 3

/-- Every channel reports the organisation that DMC_GEOM names and trains, which ends A3; then, LK fields not being locked before A7
(R5), the host makes DMC_GEOM CAP 2 and RANKS 1. -/
def geomRewriteSetup : List Instr :=
  [.dramTrainingDone 0 (List.replicate 16 255) (List.replicate 16 [⟨true, 32, 16⟩]),
    .controlSpaceWrite .host (dmcA + DMC_GEOM) 0x102]

/-- Where these two commands lead. -/
def geomRewritten : State :=
  match Sys2Proof.core.run 2 (atTraining.withQueue geomRewriteSetup) with
  | .next t => t
  | _ => State.reset

/-- 32 GiB: DMC_XLATE_HI takes 8 where DMC_XLATE_LO holds 0. -/
def xlateAddr : Nat := 8 * 2 ^ 32

/-- The channels are in use, and the address lies below the capacity that training left usable, 120 GiB. -/
theorem geomRewritten_translates : geomRewritten.live = true ∧
    xlateAddr = (8 : Word).toNat % 256 * 2 ^ 32 + geomRewritten.fld dmcA DMC_XLATE_LO_ADDR ∧
    xlateAddr < geomRewritten.usableBytes ∧ geomRewritten.pairs ≠ [] := by decide +kernel

/-- Its channel address, 2 GiB, is in sub-channel 0, and in rank 2 now that a rank takes 1 GiB. -/
theorem geomRewritten_cut : bits (geomRewritten.chanOf xlateAddr).2 6 6 = 0 ∧
    (geomRewritten.cutAddr (geomRewritten.chanOf xlateAddr).2).2.2.2.1 = 2 := by decide +kernel

/-- The rank goes into DMC_XLATE_RES0 uncut (`State.translate`), so rank 2 shows as SUB, the bit above RANK. -/
theorem geomRewritten_sub : (geomRewritten.after (.addressTranslate .host 8)).fld dmcA DMC_XLATE_RES0_SUB = 1 := by
  decide +kernel

/-- Refutes O46: the clause of addressTranslate has SUB show bit 6 of the channel address wherever the address is below the usable
capacity. That capacity is the one of the last training, while the rank is cut by DMC_GEOM as it stands; with DMC_GEOM rewritten the
rank need not fit its bit, and it then falsifies SUB. -/
theorem not_dramChannelsQueueServeFreezeAndTrain : ¬ Obligations.DramChannelsQueueServeFreezeAndTrain := by
  unfold Obligations.DramChannelsQueueServeFreezeAndTrain
  rintro ⟨-, -, -, -, -, -, -, -, -, -, -, -, -, -, -, -, -, -, -, -, htranslate, -⟩
  obtain ⟨hl, ha, hu, hp⟩ := geomRewritten_translates
  obtain ⟨hsub, -⟩ := geomRewritten_cut
  obtain ⟨-, -, hshown, -⟩ := (htranslate geomRewritten .host 8 xlateAddr hl ha hu hp).after
  rw [geomRewritten_sub, hsub] at hshown
  exact absurd hshown (by decide)

end Sys2Proof.Machine
end
